-- ==== Sys2Proof/Word.lean ====
section
/-! DEFINITION. The word types of the machine and their plainest arithmetic. -/
namespace Sys2Proof

/-- A 32-bit word: an instruction word, a lane of a vector register, a uniform register (R24, R48). -/
abbrev Word := BitVec 32

/-- A byte of memory (R1). -/
abbrev Byte := BitVec 8

/-- A 64-bit value: a flat address or a lane mask (R257, R87). -/
abbrev DWord := BitVec 64

end Sys2Proof
end

