-- ==== Sys2Proof/Syntax.lean ====
section
/-! DEFINITION. The instructions and machine steps of the Llyntar Mirlith as data: one constructor of
`Instr` for each row of the opcode table. Operand fields are pulled out of the words by the decoder, so
the machine never looks at raw encodings. A row without an encoding names a step of the machine (an
engine's progress, a completion, an act of the outside world); its constructor carries what that step
acts on. -/
namespace Sys2Proof

/-- The second source of a VU word: a uniform register or a signed 7-bit immediate (R29). -/
inductive VSrc where
  | u (r : BitVec 6)
  | imm (i : BitVec 7)
deriving DecidableEq, Repr

/-- The second source of an S word: a uniform register or a signed 9-bit immediate (R30). -/
inductive SSrc where
  | r (r : BitVec 6)
  | imm (i : BitVec 9)
deriving DecidableEq, Repr

/-- The condition codes of R28; codes 14 and 15 are reserved. -/
inductive Cond where
  | eq | ne | lt | le | gt | ge | ord | uno | ueq | une | ult | ule | ugt | uge
deriving DecidableEq, Repr

/-- The fields of a prefix word read in the ALU interpretation (R35). -/
structure AluPx where
  mask : BitVec 3
  inv : Bool
  zero : Bool
  rnd : BitVec 3
  ty : BitVec 4
  kind4 : BitVec 2
  op4 : BitVec 7
  xw : BitVec 3
deriving DecidableEq, Repr

/-- The fields of a prefix word read in the memory interpretation (R37). -/
structure MemPx where
  scope : BitVec 3
  imm : BitVec 16
  mask : BitVec 3
  inv : Bool
deriving DecidableEq, Repr

/-- The field of a prefix word read in the matrix and copy interpretation (R38). -/
structure MatPx where
  imm : BitVec 16
deriving DecidableEq, Repr

/-- The destination of `movi`: a vector or a uniform register (R32, R147). -/
inductive MDest where
  | v (r : BitVec 7)
  | u (r : BitVec 6)
deriving DecidableEq, Repr

/-- `movi`: a LIMM word and its 32-bit literal (R32, R147). -/
structure Movi where
  dst : MDest
  lit : Word
  st : BitVec 2
deriving DecidableEq, Repr

/-- Fields of a V3 word with a destination and two sources (R27). -/
structure V3 where
  vd : BitVec 7
  va : BitVec 7
  vb : BitVec 7
  st : BitVec 2
  px : Option AluPx
deriving DecidableEq, Repr

/-- Fields of a VU word (R29). -/
structure VU where
  vd : BitVec 7
  va : BitVec 7
  src : VSrc
  st : BitVec 2
  px : Option AluPx
deriving DecidableEq, Repr

/-- Fields of a V3 compare (R28). -/
structure V3Cmp where
  cond : Cond
  pd : BitVec 3
  va : BitVec 7
  vb : BitVec 7
  st : BitVec 2
  px : Option AluPx
deriving DecidableEq, Repr

/-- Fields of a VU compare (R28). -/
structure VUCmp where
  cond : Cond
  pd : BitVec 3
  va : BitVec 7
  src : VSrc
  st : BitVec 2
  px : Option AluPx
deriving DecidableEq, Repr

/-- Fields of the word layout of VMOV (R146). -/
structure V3Mov where
  vd : BitVec 7
  vb : BitVec 7
  st : BitVec 2
  px : Option AluPx
deriving DecidableEq, Repr

/-- Fields of the word layout of VMOV_VU (R146). -/
structure VUMov where
  vd : BitVec 7
  src : VSrc
  st : BitVec 2
  px : Option AluPx
deriving DecidableEq, Repr

/-- Fields of the word layout of IPOPC (R141). -/
structure V3Un where
  vd : BitVec 7
  va : BitVec 7
  st : BitVec 2
  px : Option AluPx
deriving DecidableEq, Repr

/-- Fields of the word layout of SADD (R149). -/
structure S3 where
  sd : BitVec 6
  sa : BitVec 6
  src : SSrc
  st : BitVec 2
deriving DecidableEq, Repr

/-- Fields of the word layout of SMOV (R149). -/
structure SMov where
  sd : BitVec 6
  src : SSrc
  st : BitVec 2
deriving DecidableEq, Repr

/-- Fields of the word layout of SCMP (R151). -/
structure SCmp where
  sa : BitVec 6
  src : SSrc
  st : BitVec 2
deriving DecidableEq, Repr

/-- Fields of the word layout of SPOPC (R149). -/
structure SUn where
  sd : BitVec 6
  sa : BitVec 6
  st : BitVec 2
deriving DecidableEq, Repr

/-- Fields of the word layout of SFCVT (R186). -/
structure SCvt where
  sd : BitVec 6
  sa : BitVec 6
  kind : BitVec 4
  st : BitVec 2
deriving DecidableEq, Repr

/-- Fields of the word layout of BR (R99). -/
structure Br where
  off : BitVec 22
  st : BitVec 2
deriving DecidableEq, Repr

/-- Fields of the word layout of BRPZ (R100). -/
structure BrP where
  p : BitVec 3
  off : BitVec 19
  st : BitVec 2
deriving DecidableEq, Repr

/-- Fields of the word layout of ret (R101). -/
structure Bare where
  st : BitVec 2
deriving DecidableEq, Repr

/-- Fields of the word layout of JMP (R101). -/
structure Jmp where
  sa : BitVec 6
  st : BitVec 2
deriving DecidableEq, Repr

/-- Fields of the word layout of ADR (R102). -/
structure Adr where
  sd : BitVec 6
  off : BitVec 16
  st : BitVec 2
deriving DecidableEq, Repr

/-- Fields of the word layout of RDSR (R154). -/
structure Rdsr where
  sd : BitVec 6
  idx : BitVec 10
  st : BitVec 2
deriving DecidableEq, Repr

/-- Fields of the word layout of WRSR (R154). -/
structure Wrsr where
  sa : BitVec 6
  idx : BitVec 10
  st : BitVec 2
deriving DecidableEq, Repr

/-- Fields of the word layout of SETMODE (R193). -/
structure SetM where
  sel : BitVec 4
  val : BitVec 18
  st : BitVec 2
deriving DecidableEq, Repr

/-- Fields of the word layout of LD_B (R261). -/
structure Vmem where
  vd : BitVec 7
  off : BitVec 7
  en : Bool
  k : BitVec 3
  att : BitVec 2
  st : BitVec 2
  px : Option MemPx
deriving DecidableEq, Repr

/-- Fields of the word layout of LDT (R265). -/
structure Ldt where
  vd : BitVec 7
  off : BitVec 7
  k : BitVec 3
  esz : BitVec 2
  st : BitVec 2
  px : Option MemPx
deriving DecidableEq, Repr

/-- Fields of the word layout of PFL (R266). -/
structure Pfl where
  off : BitVec 7
  en : Bool
  k : BitVec 3
  lvl : BitVec 2
  st : BitVec 2
  px : Option MemPx
deriving DecidableEq, Repr

/-- Fields of the word layout of SLD_W (R268). -/
structure Smem where
  sd : BitVec 6
  k : BitVec 4
  woff : BitVec 8
  att : BitVec 2
  st : BitVec 2
  px : Option MemPx
deriving DecidableEq, Repr

/-- Fields of the word layout of AADD (R310). -/
structure Atom where
  vd : BitVec 7
  off : BitVec 7
  k : BitVec 3
  ret : Bool
  order : Bool
  st : BitVec 2
  px : Option MemPx
deriving DecidableEq, Repr

/-- Fields of the word layout of MMA (R242). -/
structure Mma where
  acc : BitVec 3
  ta : BitVec 4
  tb : BitVec 4
  vf : BitVec 7
  st : BitVec 2
  px : Option MatPx
deriving DecidableEq, Repr

/-- Fields of the word layout of MMAG (R243). -/
structure Mmag where
  acc : BitVec 3
  q : BitVec 4
  tb : BitVec 4
  vf : BitVec 7
  st : BitVec 2
  px : Option MatPx
deriving DecidableEq, Repr

/-- Fields of the word layout of MMAS (R244). -/
structure Mmas where
  acc : BitVec 3
  qa : BitVec 4
  qb : BitVec 4
  vf : BitVec 7
  st : BitVec 2
  px : Option MatPx
deriving DecidableEq, Repr

/-- Fields of the word layout of ACCZ (R250). -/
structure AccOp where
  acc : BitVec 3
  st : BitVec 2
  px : Option MatPx
deriving DecidableEq, Repr

/-- Fields of the word layout of ACCLD (R250). -/
structure Accld where
  acc : BitVec 3
  q : BitVec 4
  res : Bool
  st : BitVec 2
  px : Option MatPx
deriving DecidableEq, Repr

/-- Fields of the word layout of DRAIN (R246). -/
structure Drain where
  acc : BitVec 3
  q : BitVec 4
  vf : BitVec 7
  st : BitVec 2
  px : Option MatPx
deriving DecidableEq, Repr

/-- Fields of the word layout of TLD (R245). -/
structure Tld where
  td : BitVec 4
  q : BitVec 4
  st : BitVec 2
  px : Option MatPx
deriving DecidableEq, Repr

/-- Fields of the word layout of TLDT (R245). -/
structure Tldt where
  td : BitVec 4
  q : BitVec 4
  esz : Bool
  st : BitVec 2
  px : Option MatPx
deriving DecidableEq, Repr

/-- Fields of the word layout of TLDG (R245). -/
structure Tldg where
  td : BitVec 4
  q : BitVec 4
  vi : BitVec 7
  st : BitVec 2
  px : Option MatPx
deriving DecidableEq, Repr

/-- Fields of the word layout of TZERO (R245). -/
structure Tzero where
  td : BitVec 4
  st : BitVec 2
  px : Option MatPx
deriving DecidableEq, Repr

/-- Fields of the word layout of MATRIX_AMAX (R249). -/
structure MAmax where
  acc : BitVec 3
  sd : BitVec 6
  st : BitVec 2
  px : Option MatPx
deriving DecidableEq, Repr

/-- Fields of the word layout of ACCRD (R251). -/
structure AccRow where
  acc : BitVec 3
  half : Bool
  row : BitVec 4
  v : BitVec 7
  st : BitVec 2
  px : Option MatPx
deriving DecidableEq, Repr

/-- Fields of the word layout of CPY (R290). -/
structure Cpy where
  cr : BitVec 3
  mask : BitVec 8
  sd : BitVec 6
  st : BitVec 2
  px : Option MatPx
deriving DecidableEq, Repr

/-- Fields of the word layout of CPYX (R294). -/
structure Cpyx where
  cr : BitVec 3
  sd : BitVec 6
  st : BitVec 2
  px : Option MatPx
deriving DecidableEq, Repr

/-- Fields of the word layout of CSTAT (R297). -/
structure CTag where
  sa : BitVec 6
  sd : BitVec 6
  st : BitVec 2
  px : Option MatPx
deriving DecidableEq, Repr

/-- Fields of the word layout of RLD (R328). -/
structure Rld where
  vd : BitVec 7
  sb : BitVec 6
  stream : BitVec 2
  acq : Bool
  st : BitVec 2
  px : Option MemPx
deriving DecidableEq, Repr

/-- Fields of the word layout of RST (R328). -/
structure Rst where
  vs : BitVec 7
  sb : BitVec 6
  stream : BitVec 2
  rel : Bool
  st : BitVec 2
  px : Option MemPx
deriving DecidableEq, Repr

/-- Fields of the word layout of RATOM (R328). -/
structure Ratom where
  vd : BitVec 7
  sb : BitVec 6
  stream : BitVec 2
  op : BitVec 4
  ret : Bool
  st : BitVec 2
  px : Option MemPx
deriving DecidableEq, Repr

/-- Fields of the word layout of RSTV (R336). -/
structure Rstv where
  vs : BitVec 7
  sa : BitVec 6
  stream : BitVec 2
  rel : Bool
  st : BitVec 2
  px : Option MemPx
deriving DecidableEq, Repr

/-- Fields of the word layout of XFER (R331). -/
structure Xfer where
  cr : BitVec 6
  stream : BitVec 2
  st : BitVec 2
  px : Option MemPx
deriving DecidableEq, Repr

/-- Fields of the word layout of RFENCE (R330). -/
structure Rfence where
  sb : BitVec 6
  stream : BitVec 2
  st : BitVec 2
  px : Option MemPx
deriving DecidableEq, Repr

/-- Fields of the word layout of XRED_FIRST (R341). -/
structure Xred where
  vp : BitVec 7
  sa : BitVec 6
  stream : BitVec 2
  st : BitVec 2
  px : Option MemPx
deriving DecidableEq, Repr

/-- Fields of the word layout of XRED_LAST (R341). -/
structure XredLast where
  vp : BitVec 7
  st : BitVec 2
  px : Option MemPx
deriving DecidableEq, Repr

/-- Fields of the word layout of HOLD (R338). -/
structure Hold where
  vd : BitVec 7
  n : BitVec 5
  st : BitVec 2
  px : Option MemPx
deriving DecidableEq, Repr

/-- Fields of the word layout of SEATGET (R334). -/
structure SeatGet where
  sd : BitVec 6
  st : BitVec 2
  px : Option MemPx
deriving DecidableEq, Repr

/-- Fields of the word layout of seatfree (R334). -/
structure FBare where
  st : BitVec 2
  px : Option MemPx
deriving DecidableEq, Repr

/-- Fields of the word layout of RSTAT (R324). -/
structure Rstat where
  sd : BitVec 6
  stream : BitVec 2
  st : BitVec 2
  px : Option MemPx
deriving DecidableEq, Repr

/-- Fields of the word layout of RRESUME (R322). -/
structure Rresume where
  sb : BitVec 6
  st : BitVec 2
  px : Option MemPx
deriving DecidableEq, Repr

/-- Fields of the word layout of RANKMAP (R316). -/
structure Rankmap where
  sa : BitVec 6
  st : BitVec 2
  px : Option MemPx
deriving DecidableEq, Repr

/-- Fields of the word layout of WAIT (R81). -/
structure Wait where
  cnt : BitVec 3
  n : BitVec 8
  arm : Bool
  st : BitVec 2
deriving DecidableEq, Repr

/-- Fields of the word layout of WAIT_ALL (R81). -/
structure WaitAll where
  cmask : BitVec 6
  arm : Bool
  st : BitVec 2
deriving DecidableEq, Repr

/-- Fields of the word layout of FORK (R88). -/
structure Fork where
  p : BitVec 3
  off : BitVec 16
  st : BitVec 2
deriving DecidableEq, Repr

/-- Fields of the word layout of DRAW (R84). -/
structure Draw where
  vb : BitVec 7
  live : BitVec 12
  st : BitVec 2
deriving DecidableEq, Repr

/-- Fields of the word layout of SAFE (R106). -/
structure Safe where
  live : BitVec 8
  st : BitVec 2
deriving DecidableEq, Repr

/-- Fields of the word layout of SLEEP (R96). -/
structure Sleep where
  n : BitVec 16
  st : BitVec 2
deriving DecidableEq, Repr

/-- Fields of the word layout of BAR (R103). -/
structure Bar where
  b : BitVec 3
  st : BitVec 2
deriving DecidableEq, Repr

/-- Fields of the word layout of LAUNCH (R111). -/
structure Launch where
  k : BitVec 4
  sd : BitVec 6
  st : BitVec 2
deriving DecidableEq, Repr

/-- Fields of the word layout of CWAIT (R115). -/
structure SysDA where
  sd : BitVec 6
  sa : BitVec 6
  st : BitVec 2
deriving DecidableEq, Repr

/-- Fields of the word layout of RPUSH (R122). -/
structure Rpush where
  ring : BitVec 3
  mask : BitVec 8
  sd : BitVec 6
  st : BitVec 2
deriving DecidableEq, Repr

/-- Fields of the word layout of RPUSH_PUB (R122). -/
structure RpushPub where
  ring : BitVec 3
  mask : BitVec 8
  st : BitVec 2
deriving DecidableEq, Repr

/-- Fields of the word layout of RPOP (R123). -/
structure Rpop where
  ring : BitVec 3
  pos : BitVec 3
  sd : BitVec 6
  st : BitVec 2
deriving DecidableEq, Repr

/-- Fields of the word layout of RPOP_REL (R123). -/
structure RpopRel where
  ring : BitVec 3
  pos : BitVec 3
  st : BitVec 2
deriving DecidableEq, Repr

/-- Fields of the word layout of POTSET (R304). -/
structure SysAB where
  sa : BitVec 6
  sb : BitVec 6
  st : BitVec 2
deriving DecidableEq, Repr

/-- Fields of the word layout of POTWAIT (R305). -/
structure Potwait where
  sd : BitVec 6
  sa : BitVec 6
  arm : Bool
  st : BitVec 2
deriving DecidableEq, Repr

/-- Fields of the word layout of SIGCHK (R398). -/
structure Imm16 where
  imm : BitVec 16
  st : BitVec 2
deriving DecidableEq, Repr

/-- Fields of the word layout of FENCE (R273). -/
structure Fence where
  scope : BitVec 3
  kind : BitVec 2
  st : BitVec 2
deriving DecidableEq, Repr

/-- Fields of the word layout of SHFL (R225). -/
structure Shfl where
  vd : BitVec 7
  va : BitVec 7
  mode : BitVec 2
  dist : BitVec 4
  st : BitVec 2
  px : Option AluPx
deriving DecidableEq, Repr

/-- Fields of the word layout of LRED (R228). -/
structure Lred where
  vd : BitVec 7
  va : BitVec 7
  op : BitVec 4
  seg : BitVec 2
  st : BitVec 2
  px : Option AluPx
deriving DecidableEq, Repr

/-- Fields of the word layout of LSCAN (R228). -/
structure Lscan where
  vd : BitVec 7
  va : BitVec 7
  op : BitVec 4
  ex : Bool
  st : BitVec 2
  px : Option AluPx
deriving DecidableEq, Repr

/-- Fields of the word layout of VOTE (R227). -/
structure Vote where
  fd : BitVec 7
  fa : BitVec 7
  mode : BitVec 2
  st : BitVec 2
  px : Option AluPx
deriving DecidableEq, Repr

/-- Fields of the word layout of BCAST (R226). -/
structure Bcast where
  vd : BitVec 7
  va : BitVec 7
  lane : BitVec 6
  st : BitVec 2
  px : Option AluPx
deriving DecidableEq, Repr

/-- Fields of the word layout of RDLANE (R226). -/
structure Rdlane where
  sd : BitVec 6
  va : BitVec 7
  lane : BitVec 6
  st : BitVec 2
  px : Option AluPx
deriving DecidableEq, Repr

/-- Fields of the word layout of LANES (R229). -/
structure LanesF where
  vd : BitVec 7
  kind : BitVec 6
  st : BitVec 2
  px : Option AluPx
deriving DecidableEq, Repr

/-- Fields of the word layout of POP (R230). -/
structure Pop where
  pd : BitVec 3
  pa : BitVec 3
  pb : BitVec 3
  fn : BitVec 3
  st : BitVec 2
  px : Option AluPx
deriving DecidableEq, Repr

/-- Fields of the word layout of PMOV (R230). -/
structure Pmov where
  fd : BitVec 7
  fa : BitVec 7
  mode : BitVec 6
  st : BitVec 2
  px : Option AluPx
deriving DecidableEq, Repr

/-- Fields of the word layout of PERM (R231). -/
structure Perm where
  vd : BitVec 7
  va : BitVec 7
  st : BitVec 2
  px : Option AluPx
deriving DecidableEq, Repr

/-- Fields of the word layout of FRCP (R219). -/
structure Sfu where
  vd : BitVec 7
  va : BitVec 7
  st : BitVec 2
  px : Option AluPx
deriving DecidableEq, Repr

/-- Fields of the word layout of FCVT (R188). -/
structure Cvt where
  vd : BitVec 7
  va : BitVec 7
  dty : BitVec 4
  st : BitVec 2
  px : Option AluPx
deriving DecidableEq, Repr

/-- Fields of the word layout of BFPK (R190). -/
structure Bfp where
  vd : BitVec 7
  va : BitVec 7
  k : BitVec 4
  st : BitVec 2
  px : Option AluPx
deriving DecidableEq, Repr

/-- Fields of the word layout of UNPK (R192). -/
structure Unpk where
  vd : BitVec 7
  va : BitVec 7
  w : BitVec 4
  sx : Bool
  st : BitVec 2
  px : Option AluPx
deriving DecidableEq, Repr

/-- Fields of the word layout of SCLX (R189). -/
structure Sclx where
  vd : BitVec 7
  va : BitVec 7
  dty : BitVec 4
  dir : Bool
  st : BitVec 2
  px : Option AluPx
deriving DecidableEq, Repr

/-- Fields of the word layout of PSRD (R378). -/
structure Psrd where
  sd : BitVec 6
  idx : BitVec 10
  st : BitVec 2
deriving DecidableEq, Repr

/-- Fields of the word layout of PSWR (R378). -/
structure Pswr where
  sa : BitVec 6
  idx : BitVec 10
  st : BitVec 2
deriving DecidableEq, Repr

/-- Fields of the word layout of OVTLD (R174). -/
structure SysA where
  sa : BitVec 6
  st : BitVec 2
deriving DecidableEq, Repr

/-- Fields of the word layout of CTXSV (R389). -/
structure SysDAB where
  sd : BitVec 6
  sa : BitVec 6
  sb : BitVec 6
  st : BitVec 2
deriving DecidableEq, Repr

/-- What may hold a copy of a line (R359). `l1` names a cluster by its package-wide number, `coreTlb` a
core, `dieXlat` a compute die, `seatCache` an I/O die. -/
inductive Holder where
  | l1 (cluster : Nat)
  | host
  | coreTlb (core : Nat)
  | dieXlat (die : Nat)
  | seatCache (io : Nat)
deriving DecidableEq, Repr

/-- A unit whose readiness READYC, READYS, READYM or READYX shows (R379, R380, R406). -/
inductive PkgUnit where
  | cluster (n : Nat)
  | sliceGroup (n : Nat)
  | stack (n : Nat)
  | plane (n : Nat)
  | eth (n : Nat)
  | dlink (n : Nat)
  | rot
  | tier (io : Nat)
  | hostLink
deriving DecidableEq, Repr

/-- Where uncorrectable data is held (R396): a line of memory, a 16-byte part of a scratchpad, or of a group a vector
register, a uniform register, a predicate, a row of a tile, or a row of the main or residual array of an accumulator. -/
inductive PoisonLoc where
  | line (pa : Nat)
  | spad (core off : Nat)
  | vreg (gid reg : Nat)
  | sreg (gid reg : Nat)
  | pred (gid reg : Nat)
  | tile (gid t row : Nat)
  | acc (gid a : Nat) (res : Bool) (row : Nat)
deriving DecidableEq, Repr

/-- The kinds of access a fabric request makes at its target (R328, R330). -/
inductive RemoteKind where
  | load
  | store
  | atomic (op : BitVec 4)
  | fenceAdd
deriving DecidableEq, Repr

/-- One lane of a fabric request: its number, target virtual address and data words (R328). -/
structure RemoteLane where
  lane : Nat
  va : Nat
  x : Word
  y : Word
deriving DecidableEq, Repr

/-- A request that reaches this package from another one (R328): its source package and stream slot,
its stream, the fabric domain of its issuing partition, and its lanes. -/
structure RemoteReq where
  srcPkg : Nat
  slot : Nat
  stream : Nat
  domain : Nat
  serial : Nat
  kind : RemoteKind
  lanes : List RemoteLane
deriving DecidableEq, Repr

/-- A chunk of a bulk transfer (R332): the bytes, where they go and which pot is credited. `space` true
is the seat's team window, false global memory at `va`. With `fail` it says that the transfer has failed at its source: it
carries nothing, and FAIL of the pot is set. -/
structure XferChunkMsg where
  srcPkg : Nat
  slot : Nat
  stream : Nat
  domain : Nat
  serial : Nat
  space : Bool
  va : Nat
  data : List Byte
  pot : Option Nat
  seat : BitVec 64
  fail : Bool
deriving DecidableEq, Repr

/-- A request named by its number when this package sent it to itself, carried whole when it comes from another
package, or named by its number where it waits at this target. -/
inductive ReqRef where
  | own (rid : Nat)
  | foreign (r : RemoteReq)
  | foreignChunk (c : XferChunkMsg)
  | waiting (k : Nat)
deriving DecidableEq, Repr

/-- A register delivery from another package (R336, R341): the seat address, the lanes of one or two
registers, and what the sender is. -/
structure DeliveryMsg where
  srcPkg : Nat
  slot : Nat
  stream : Nat
  domain : Nat
  seat : BitVec 64
  lanes : BitVec 64
  v0 : List Word
  v1 : Option (List Word)
deriving DecidableEq, Repr

/-- A delivery named by its request number, or carried whole from another package. -/
inductive DeliveryRef where
  | own (rid : Nat)
  | foreign (d : DeliveryMsg)
  | waiting (did : Nat)
deriving DecidableEq, Repr

/-- An arrival that writes a seat holder's team window (R340): bytes at a window offset, a pot credit,
or both. -/
structure Arrival where
  seat : BitVec 64
  off : Nat
  data : List Byte
  pot : Option Nat
  credit : Nat
deriving DecidableEq, Repr

/-- The answer of a target to a fabric request: the cause of an error (R323) or none, and the old or
loaded word of each lane. -/
structure Reply where
  cause : Option (BitVec 4)
  vals : List Word
deriving DecidableEq, Repr

/-- A frame that reaches an Ethernet port (R412): its bytes, its destination address and VLAN, and
whether its check sequence is good. -/
structure EthFrame where
  data : List Byte
  dest : Nat
  vlan : Nat
  fcsOk : Bool
deriving DecidableEq, Repr

/-- A row of the package manager's partition table (R401), with what the supervisor fixes at set-up
for the house program (R134): the flat address of its text. -/
structure PartRow where
  live : Bool
  clust : BitVec 48
  region : BitVec 64
  slots : List (Nat × Nat)
  eth : BitVec 8
  ethAddr : List (Nat × Nat × Nat)
  streamBase : Nat
  streamCount : Nat
  domain : BitVec 16
  kitty : BitVec 3
  houseCore : Nat
  houseText : BitVec 64
deriving DecidableEq, Repr

/-- One constructor for each row of spec/opcode_table.json. -/
inductive Instr where

  /-- ISSUE_SELECT (R132): Each cycle each issue slot chooses eligible groups by priority and oldest issue, with co-issue. -/
  | issueSelect
  /-- HAND_FILL_COMPLETE (R86): Copying a group's working set into a hand completes and the hand becomes Held. -/
  | handFillComplete (gid : Nat)
  /-- HAND_WRITEBACK_COMPLETE (R86): A hand's modified slots reach the main file and the hand becomes Free. -/
  | handWritebackComplete (gid : Nat)
  /-- SAFE_POINT_DISTANCE_TRAP (R387): An issue that would take the safe-point count above LIMIT takes trap 0x0E. -/
  | safePointDistanceTrap
  /-- HANDLER_WATCHDOG (R383): HWDOG reaching 2^20 kills the group with cause 0x17. -/
  | handlerWatchdog (gid : Nat)
  /-- WAITING_RESUME (R92): A Waiting split's condition holds and its blocked instruction completes. -/
  | waitingResume (gid slot : Nat)
  /-- FAIRNESS_GIVE_WAY (R93): With PP at 1 the Current split gives way after 256 issues. -/
  | fairnessGiveWay (gid : Nat)
  /-- SLEEP_EXPIRE (R96): A Sleeping split becomes Ready after its cycles elapse. -/
  | sleepExpire (gid slot : Nat)
  /-- CONTINUATION_RESUME (R97): A Parked-continuation split's condition holds and it resumes at the continuation PC. -/
  | continuationResume (gid slot : Nat)
  /-- JOIN_MERGE (R89): Parked splits covering the join's top mask merge and MSIG is checked. -/
  | joinMerge (gid slot : Nat)
  /-- BARRIER_COMPLETE (R103): A team barrier completes and parked splits become Ready with SCC.A set. -/
  | barrierComplete (tid : Nat) (b : BitVec 3)
  /-- COHORT_BARRIER_COMPLETE (R104): The cohort barrier completes when every team has arrived. -/
  | cohortBarrierComplete (tid : Nat)
  /-- GROUP_EXIT_RELEASE (R107): An exiting last split's counters reach 0 and the group's resources are freed. -/
  | groupExitRelease (gid : Nat)
  /-- TEAM_DISTRIBUTE (R130): The distributor places a queued team on a cluster by anchor or round robin. -/
  | teamDistribute (grid : Nat)
  /-- TEAM_ADMIT (R125): A team is admitted to a core when its resources are free and its groups become resident. -/
  | teamAdmit (tid : Nat)
  /-- TEAM_RETIRE (R118): A Held team whose children and cohort are done retires. -/
  | teamRetire (tid : Nat)
  /-- LATENCY_RESERVE_PREEMPT (R126): A queued latency team pre-empts bulk teams on a reserve core. -/
  | latencyReservePreempt (tid : Nat)
  /-- SWAP_OUT_START (R128): A group blocked on long waits for 2,000 cycles starts swapping into the kitty. -/
  | swapOutStart (gid : Nat)
  /-- SWAP_OUT_COMPLETE (R128): A swap-out copy completes and the group is Swapped. -/
  | swapOutComplete (gid : Nat)
  /-- SWAP_IN_START (R128): A swapped group's wait is satisfied and main-file space is free, so swap-in starts. -/
  | swapInStart (gid : Nat)
  /-- SWAP_IN_COMPLETE (R128): A swap-in copy completes and the group is Running. -/
  | swapInComplete (gid : Nat)
  /-- CONTEXT_SAVE_TAKEN (R388): A pending save takes a group when all splits are at safe points or blocked. -/
  | contextSaveTaken (tid : Nat)
  /-- LOAD_COMPLETE (R263): A load's destinations are written and c0 falls. -/
  | loadComplete (gid id : Nat)
  /-- STORE_PERFORMED (R263): A store's bytes are performed and c1 falls. -/
  | storePerformed (gid id : Nat)
  /-- ATOMIC_COMPLETE (R311): Every lane's atomic is performed at its home and c1 falls. -/
  | atomicComplete (gid id : Nat)
  /-- SFU_COMPLETE (R216): A special-function instruction writes its destination, merges flags and c2 falls. -/
  | sfuComplete (gid id : Nat)
  /-- MATRIX_EXECUTE (R232): The engine starts a group's next matrix instruction in issue order. -/
  | matrixExecute (gid : Nat)
  /-- MATRIX_STEP (R241): One accumulation step completes on an accumulator. -/
  | matrixStep (gid : Nat)
  /-- MATRIX_COMPLETE (R239): A matrix instruction completes, releasing its locks and decrementing c3. -/
  | matrixComplete (gid : Nat)
  /-- COPY_CHUNK (R295): The copy engine moves one chunk and credits its pot. -/
  | copyChunk (cid : Nat)
  /-- COPY_COMPLETE (R295): A copy's last chunk is credited, locks released and its slot published. -/
  | copyComplete (cid : Nat)
  /-- COPY_RETIRE (R295): A copy retires once its published slot is taken, and c4 falls. -/
  | copyRetire (cid : Nat)
  /-- CPYX_RESERVE (R294): A cpyx fetch-adds WRITE at the queue header's home. -/
  | cpyxReserve (cid : Nat)
  /-- CPYX_SPACE_GRANT (R294): A change of READ gives a waiting cpyx room in the queue. -/
  | cpyxSpaceGrant (cid : Nat)
  /-- L1_DIRTY_FLUSH (R360): An L1 sends dirty bytes to the home within 512 cycles of a store. -/
  | l1DirtyFlush (cluster line : Nat)
  /-- HOME_MERGE (R360): The home merges written bytes and invalidates other holders. -/
  | homeMerge (h : Holder) (line : Nat)
  /-- HOLDER_INVALIDATE (R361): A holder discards its copy and acknowledges with dirty bytes. -/
  | holderInvalidate (h : Holder) (line : Nat)
  /-- EVICTION_NOTICE (R362): An eviction notice with dirty bytes reaches the home. -/
  | evictionNotice (h : Holder) (line : Nat)
  /-- REFILL_REQUEST (R362): A holder's refill request is served with the merged line. -/
  | refillRequest (h : Holder) (line : Nat)
  /-- TRANSLATION_RETRY (R354): A busy entry is written and held accesses translate again. -/
  | translationRetry (gid slot : Nat)
  /-- PAGE_COUNT_HALVE (R366): Page-record counts are halved every 2^HALF cycles. -/
  | pageCountHalve
  /-- MIGRATION (R367): A page is claimed, copied to another die's frame and remapped. -/
  | migration (frame die : Nat)
  /-- PAGE_COLLAPSE (R369): A write to a duplicated page clears D, frees replicas and performs the held write. -/
  | pageCollapse (frame : Nat)
  /-- REMOTE_ACCESS (R328): A fabric request is checked and performed at the target's home slice. -/
  | remoteAccess (r : ReqRef)
  /-- REMOTE_FAULT_RECORD (R321): A remote-fault record is written when the queue has room and the supervisor is woken. -/
  | remoteFaultRecord (part : Nat)
  /-- STREAM_FREEZE (R320): A freeze reaching the source holds the stream's later requests. -/
  | streamFreeze (rid serial : Nat)
  /-- FABRIC_REQUEST_COMPLETE (R329): A fabric request completes at the source and its counter falls. -/
  | fabricRequestComplete (rid : Nat) (reply : Reply)
  /-- XFER_CHUNK (R332): A transfer chunk is written at the target and its pot credited. -/
  | xferChunk (r : ReqRef)
  /-- XFER_COMPLETE (R332): A transfer's chunks are all performed and c5 falls. -/
  | xferComplete (rid : Nat)
  /-- RFENCE_ADD (R330): After the stream drains, rfence sends its releasing add. -/
  | rfenceAdd (rid : Nat)
  /-- REGISTER_DELIVERY (R337): A delivery is applied at the home by the seat entry's state. -/
  | registerDelivery (d : DeliveryRef)
  /-- DELIVERY_BOUNCE (R337): A delivery returned by an old core is resent after rereading the entry. -/
  | deliveryBounce (did : Nat)
  /-- SEAT_ARRIVAL (R340): An arrival for a seat holder's team window is applied by the entry's state. -/
  | seatArrival (a : Arrival)
  /-- HEARTBEAT_SEND (R342): Every 10 µs the endpoint sends heartbeats on each live plane. -/
  | heartbeatSend
  /-- PACKAGE_DECLARED_FAILED (R342): No heartbeat for 50 µs declares a package failed. -/
  | packageDeclaredFailed (pkg : Nat)
  /-- PLANE_HEARTBEAT_TIMEOUT (R318): Heartbeats lost on one plane for 50 µs make it dead and remapped. -/
  | planeHeartbeatTimeout (pkg plane : Nat)
  /-- LINK_FAILURE (R318): A link layer reports a plane failed and its lines are remapped. -/
  | linkFailure (plane : Nat)
  /-- ORDERING_DRAIN_END (R318): The ordering drain of a remapped plane ends and held requests leave. -/
  | orderingDrainEnd (pkg plane : Nat)
  /-- FRAME_AUTH_FAIL (R318): A link frame failing authentication is discarded and resent. -/
  | frameAuthFail (plane : Nat)
  /-- UNDELIVERABLE_RETURN (R315): A request returned undeliverable completes with LINK and the pod number is declared failed. -/
  | undeliverableReturn (rid : Nat)
  /-- SWAITL_WAKE (R270): A write to the watched line wakes a waiting swaitl to reread. -/
  | swaitlWake (gid slot : Nat)
  /-- SWAITL_TIMEOUT (R270): swaitl ends after 65,536 cycles with the unchanged value. -/
  | swaitlTimeout (gid slot : Nat)
  /-- PARK_WAKE (R386): A write to a parked group's replay word resumes or kills it. -/
  | parkWake (gid : Nat)
  /-- ETH_TRANSMIT (R412): A port sends queued frames after WRITE advances and advances READ. -/
  | ethTransmit (port : Nat)
  /-- ETH_RECEIVE (R412): An accepted frame is written to the receive queue and the pot credited. -/
  | ethReceive (port : Nat) (f : EthFrame)
  /-- HOST_CXL_MEM_WRITE (R358): A host write to a device-homed page-table line is answered when performed. -/
  | hostCxlMemWrite (pa : Nat) (bytes : List Byte)
  /-- HOST_OWNERSHIP_REQUEST (R358): A host ownership request for a translation-held line is answered once translations are gone. -/
  | hostOwnershipRequest (line : Nat)
  /-- POWER_GOOD (R406): PWRGD rises and bring-up begins. -/
  | powerGood
  /-- PACKAGE_RESET (R411): RST_N resets the package. -/
  | packageReset
  /-- FIRMWARE_VERIFY (R406): The root of trust verifies firmware and sets READYX.ROT. -/
  | firmwareVerify
  /-- UNIT_READY (R406): A function passes its training or test and sets its READY bit. -/
  | unitReady (u : PkgUnit)
  /-- UNIT_RETIRE (R407): A failing unit is retired, clearing READY and setting HEALTH.REPLACE. -/
  | unitRetire (u : PkgUnit)
  /-- CORRECTED_ERROR (R396): A corrected soft error adds 1 to HEALTH.CE. -/
  | correctedError
  /-- POISON_CONSUME (R396): Consuming poisoned data kills the group with cause 0x10. -/
  | poisonConsume (gid : Nat)
  /-- THROTTLE (R408): Over-power or THERM_N low lowers half-cluster islands and sets THROT. -/
  | throttle (island : Nat)
  /-- THROTTLE_RECOVER (R408): After 1 ms below the limit one throttled island is raised a point. -/
  | throttleRecover (island : Nat)
  /-- ISLAND_POINT_REACHED (R408): An island reaches its requested point and the halt result is written. -/
  | islandPointReached (island : Nat)
  /-- CKPT_N_FALL (R409): A CKPT_N falling edge checkpoints every partition with QUIESCE. -/
  | ckptNFall
  /-- CKPT_CHECKPOINT (R409): Writing CKPT with GO starts draining and copying HBM to the safe tier. -/
  | ckptCheckpoint (part : Nat)
  /-- CKPT_RESTORE (R410): Writing CKPT with GO and RESTORE starts copying the checkpoint back. -/
  | ckptRestore (part : Nat)
  /-- CKPT_COMPLETE (R409): A checkpoint or restore copy ends with STATE 3 or 4 and ALERT_N pulses. -/
  | ckptComplete (part : Nat) (err : Bool)
  /-- HEALTH_CE_CLEAR (R380): Any write of HEALTH clears CE. -/
  | healthCeClear
  /-- TIMESET_HI_WRITE (R413): A write of TIMESET hi holds the word in the group's write latch. -/
  | timesetHiWrite (v : Word)
  /-- TIMESET_LO_WRITE (R413): A write of TIMESET lo sets TIME if not below it. -/
  | timesetLoWrite (v : Word)
  /-- TIMESET_LO_READ (R413): A read of TIMESET lo returns TIME lo and latches TIME hi. -/
  | timesetLoRead
  /-- CLOCK_LO_READ (R156): A read of CLOCK lo latches CLOCK hi. -/
  | clockLoRead
  /-- TIME_LO_READ (R156): A read of TIME lo latches TIME hi. -/
  | timeLoRead
  /-- FLAGS_OVF_ACCESS (R253): A read or write of FLAGS or OVF waits for earlier matrix instructions. -/
  | flagsOvfAccess
  /-- PTROOT_WRITE (R358): A write of PTROOT completes when every partition translation is gone. -/
  | ptrootWrite (part : Nat)
  /-- PARTCFG_CHANGE (R401): The package manager changes a partition row, erasing resources that change hands. -/
  | partcfgChange (part : Nat) (row : PartRow)
  /-- EXPANDER_WINDOW_CHANGE (R446): The package manager rewrites the expander window table after a host decoder change. -/
  | expanderWindowChange (n base size : Nat)
  /-- SPDM_REQUEST (R405): The root of trust answers an SPDM 1.3 request. -/
  | spdmRequest (session : Nat) (request : List Byte)
  /-- SPDM_BIND (R405): The vendor-defined BIND request binds a session to a partition. -/
  | spdmBind (session part : Nat) (secret : List Byte)
  /-- UNCORRECTABLE_ERROR (R396): Uncorrectable data detected in a register, scratchpad, cache or HBM is poisoned where it is held. -/
  | uncorrectableError (p : PoisonLoc)
  /-- HEARTBEAT_ARRIVAL (R342): A heartbeat from another package arrives on a plane and keeps that package and plane alive. -/
  | heartbeatArrival (pkg plane : Nat)
  /-- STREAM_RESUME (R322): The target's rresume or rresume.fail reaches the source endpoint, which reopens the frozen stream or moves it to Error. -/
  | streamResume (slot stream serial : Nat) (fail : Bool)
  /-- IADD (R141): Adds the elements of two vector registers modulo 2^w in each active lane. -/
  | iadd (f : V3)
  /-- IADD_VU (R141): VU form of iadd, with a uniform register or imm7 as the second source. -/
  | iaddVu (f : VU)
  /-- ISUB (R141): Subtracts elements modulo 2^w in each active lane. -/
  | isub (f : V3)
  /-- ISUB_VU (R141): VU form of isub. -/
  | isubVu (f : VU)
  /-- IMUL (R141): Multiplies elements and keeps the low w bits. -/
  | imul (f : V3)
  /-- IMUL_VU (R141): VU form of imul. -/
  | imulVu (f : VU)
  /-- IMULH (R141): Writes the high w bits of the signed product of elements. -/
  | imulh (f : V3)
  /-- IMULH_VU (R141): VU form of imulh. -/
  | imulhVu (f : VU)
  /-- IMULHU (R141): Writes the high w bits of the unsigned product of elements. -/
  | imulhu (f : V3)
  /-- IMULHU_VU (R141): VU form of imulhu. -/
  | imulhuVu (f : VU)
  /-- IAND (R141): Bitwise AND of two vector sources. -/
  | iand (f : V3)
  /-- IAND_VU (R141): VU form of iand. -/
  | iandVu (f : VU)
  /-- IOR (R141): Bitwise OR of two vector sources. -/
  | ior (f : V3)
  /-- IOR_VU (R141): VU form of ior. -/
  | iorVu (f : VU)
  /-- IXOR (R141): Bitwise XOR of two vector sources. -/
  | ixor (f : V3)
  /-- IXOR_VU (R141): VU form of ixor. -/
  | ixorVu (f : VU)
  /-- ISHL (R142): Shifts elements left with zero fill, giving 0 for amounts of w or more. -/
  | ishl (f : V3)
  /-- ISHL_VU (R142): VU form of ishl. -/
  | ishlVu (f : VU)
  /-- ISHR (R142): Shifts elements right with zero fill. -/
  | ishr (f : V3)
  /-- ISHR_VU (R142): VU form of ishr. -/
  | ishrVu (f : VU)
  /-- ISRA (R142): Shifts elements right arithmetically. -/
  | isra (f : V3)
  /-- ISRA_VU (R142): VU form of isra. -/
  | israVu (f : VU)
  /-- IMIN (R141): Signed minimum of elements. -/
  | imin (f : V3)
  /-- IMIN_VU (R141): VU form of imin. -/
  | iminVu (f : VU)
  /-- IMAX (R141): Signed maximum of elements. -/
  | imax (f : V3)
  /-- IMAX_VU (R141): VU form of imax. -/
  | imaxVu (f : VU)
  /-- IMINU (R141): Unsigned minimum of elements. -/
  | iminu (f : V3)
  /-- IMINU_VU (R141): VU form of iminu. -/
  | iminuVu (f : VU)
  /-- IMAXU (R141): Unsigned maximum of elements. -/
  | imaxu (f : V3)
  /-- IMAXU_VU (R141): VU form of imaxu. -/
  | imaxuVu (f : VU)
  /-- IADDSAT (R143): Adds elements and clamps to the range of the type's signedness. -/
  | iaddsat (f : V3)
  /-- IADDSAT_VU (R143): VU form of iaddsat. -/
  | iaddsatVu (f : VU)
  /-- ISUBSAT (R143): Subtracts elements and clamps to the element range. -/
  | isubsat (f : V3)
  /-- ISUBSAT_VU (R143): VU form of isubsat. -/
  | isubsatVu (f : VU)
  /-- ICMP (R145): Compares signed 32-bit words and writes a predicate. -/
  | icmp (f : V3Cmp)
  /-- ICMP_VU (R145): VU form of icmp. -/
  | icmpVu (f : VUCmp)
  /-- ICMPU (R145): Compares unsigned 32-bit words and writes a predicate. -/
  | icmpu (f : V3Cmp)
  /-- ICMPU_VU (R145): VU form of icmpu. -/
  | icmpuVu (f : VUCmp)
  /-- VSEL (R146): Selects per lane between two sources by the mask predicate. -/
  | vsel (f : V3)
  /-- VSEL_VU (R146): VU form of vsel. -/
  | vselVu (f : VU)
  /-- VMOV (R146): Copies the second source to the active lanes. -/
  | vmov (f : V3Mov)
  /-- VMOV_VU (R146): Writes a uniform word or replicated immediate to the active lanes. -/
  | vmovVu (f : VUMov)
  /-- IPOPC (R141): Counts the 1 bits of each element. -/
  | ipopc (f : V3Un)
  /-- ICLZ (R141): Counts the leading zero bits of each element. -/
  | iclz (f : V3Un)
  /-- IBREV (R141): Reverses the bits of each element. -/
  | ibrev (f : V3Un)
  /-- IDOT4 (R144): Accumulates a four-byte dot product into each lane. -/
  | idot4 (f : V3)
  /-- IDOT4_VU (R144): VU form of idot4. -/
  | idot4Vu (f : VU)
  /-- IABSDIFF (R143): Writes the absolute difference of elements. -/
  | iabsdiff (f : V3)
  /-- IABSDIFF_VU (R143): VU form of iabsdiff. -/
  | iabsdiffVu (f : VU)
  /-- FADD (R179): Adds floating-point elements with one rounding. -/
  | fadd (f : V3)
  /-- FADD_VU (R179): VU form of fadd. -/
  | faddVu (f : VU)
  /-- FSUB (R179): Subtracts floating-point elements with one rounding. -/
  | fsub (f : V3)
  /-- FSUB_VU (R179): VU form of fsub. -/
  | fsubVu (f : VU)
  /-- FMUL (R179): Multiplies floating-point elements with one rounding. -/
  | fmul (f : V3)
  /-- FMUL_VU (R179): VU form of fmul. -/
  | fmulVu (f : VU)
  /-- FFMA (R180): Fused multiply-add with the old vd or a fourth operand as addend. -/
  | ffma (f : V3)
  /-- FFMA_VU (R180): VU form of ffma. -/
  | ffmaVu (f : VU)
  /-- FMIN (R181): Floating-point minimum ordering -0 below +0. -/
  | fmin (f : V3)
  /-- FMIN_VU (R181): VU form of fmin. -/
  | fminVu (f : VU)
  /-- FMAX (R181): Floating-point maximum. -/
  | fmax (f : V3)
  /-- FMAX_VU (R181): VU form of fmax. -/
  | fmaxVu (f : VU)
  /-- FABS (R179): Clears the sign bit of each element. -/
  | fabs (f : V3Un)
  /-- FNEG (R179): Inverts the sign bit of each element. -/
  | fneg (f : V3Un)
  /-- FCLASS (R183): Writes a one-hot class mask for each element. -/
  | fclass (f : V3Un)
  /-- FSCALE (R179): Multiplies elements by a power of two with one rounding. -/
  | fscale (f : V3)
  /-- FSCALE_VU (R179): VU form of fscale. -/
  | fscaleVu (f : VU)
  /-- FCMP (R182): Floating-point compare writing a predicate. -/
  | fcmp (f : V3Cmp)
  /-- FCMP_VU (R182): VU form of fcmp. -/
  | fcmpVu (f : VUCmp)
  /-- FDOT2 (R180): Two-element dot product of packed 16-bit values into an FP32 accumulator. -/
  | fdot2 (f : V3)
  /-- FDOT2_VU (R180): VU form of fdot2. -/
  | fdot2Vu (f : VU)
  /-- FROUND (R179): Rounds each element to an integral value in its own format. -/
  | fround (f : V3Un)
  /-- TWOSUM (R200): Returns a rounded sum and its exact error in a register pair. -/
  | twosum (f : V3)
  /-- FASTSUM (R201): Dekker fast two-sum with EI reporting an inexact error word. -/
  | fastsum (f : V3)
  /-- TWODIFF (R200): Returns a rounded difference and its exact error. -/
  | twodiff (f : V3)
  /-- TWOPROD (R200): Returns a rounded product and its error. -/
  | twoprod (f : V3)
  /-- ERRFMA (R202): Returns a fused multiply-add result and a two-word error. -/
  | errfma (f : V3)
  /-- XADD (R206): Adds two expansions by merge and renormalisation. -/
  | xadd (f : V3)
  /-- XSUB (R206): Subtracts two expansions. -/
  | xsub (f : V3)
  /-- XMUL (R207): Multiplies two expansions through diagonal lists. -/
  | xmul (f : V3)
  /-- XMULW (R207): Multiplies an expansion by one word. -/
  | xmulw (f : V3)
  /-- XFMAW (R207): Multiplies an expansion by a word and adds an expansion. -/
  | xfmaw (f : V3)
  /-- XRENORM (R208): Renormalises an expansion. -/
  | xrenorm (f : V3Un)
  /-- XCOMPRESS (R208): Delivers the canonical expansion of an expansion's value. -/
  | xcompress (f : V3Un)
  /-- XCMP (R209): Compares the exact values of two expansions into a predicate. -/
  | xcmp (f : V3Cmp)
  /-- XNEG (R206): Negates every word of an expansion. -/
  | xneg (f : V3Un)
  /-- XSPLIT (R210): Splits FP32 values into expansions of a 16-bit format. -/
  | xsplit (f : V3Un)
  /-- XROUND (R211): Rounds an expansion's exact value once to its format. -/
  | xround (f : V3Un)
  /-- XROUND_F32 (R211): Rounds each element of a packed expansion to FP32. -/
  | xroundF32 (f : V3Un)
  /-- SADD (R149): Uniform add modulo 2^32. -/
  | sadd (f : S3)
  /-- SSUB (R149): Uniform subtract. -/
  | ssub (f : S3)
  /-- SMUL (R149): Uniform multiply, low 32 bits. -/
  | smul (f : S3)
  /-- SMULH (R149): Uniform signed multiply, high 32 bits. -/
  | smulh (f : S3)
  /-- SAND (R149): Uniform bitwise AND. -/
  | sand (f : S3)
  /-- SOR (R149): Uniform bitwise OR. -/
  | sor (f : S3)
  /-- SXOR (R149): Uniform bitwise XOR. -/
  | sxor (f : S3)
  /-- SSHL (R149): Uniform shift left. -/
  | sshl (f : S3)
  /-- SSHR (R149): Uniform logical shift right. -/
  | sshr (f : S3)
  /-- SSRA (R149): Uniform arithmetic shift right. -/
  | ssra (f : S3)
  /-- SMIN (R149): Uniform signed minimum. -/
  | smin (f : S3)
  /-- SMAX (R149): Uniform signed maximum. -/
  | smax (f : S3)
  /-- SMINU (R149): Uniform unsigned minimum. -/
  | sminu (f : S3)
  /-- SMAXU (R149): Uniform unsigned maximum. -/
  | smaxu (f : S3)
  /-- SMOV (R149): Uniform move of the second source. -/
  | smov (f : SMov)
  /-- SSEL (R149): Uniform select by SCC.Z. -/
  | ssel (f : S3)
  /-- SCMP (R151): Signed uniform compare setting SCC. -/
  | scmp (f : SCmp)
  /-- SCMPU (R151): Unsigned uniform compare setting SCC. -/
  | scmpu (f : SCmp)
  /-- STEST (R149): Tests the AND of two values and sets SCC. -/
  | stest (f : SCmp)
  /-- SBFE (R153): Extracts a bit field. -/
  | sbfe (f : S3)
  /-- SBFI (R153): Inserts a bit field into sd. -/
  | sbfi (f : S3)
  /-- SPOPC (R149): Counts the 1 bits of a uniform value. -/
  | spopc (f : SUn)
  /-- SFFS (R149): Finds the lowest set bit of a uniform value. -/
  | sffs (f : SUn)
  /-- SADDC (R152): Adds with carry in from SCC.C and sets SCC. -/
  | saddc (f : S3)
  /-- SFADD (R184): Uniform FP32 add. -/
  | sfadd (f : S3)
  /-- SFMUL (R184): Uniform FP32 multiply. -/
  | sfmul (f : S3)
  /-- SFFMA (R184): Uniform FP32 fused multiply-add into sd. -/
  | sffma (f : S3)
  /-- SFCMP (R185): Uniform FP32 compare setting SCC. -/
  | sfcmp (f : SCmp)
  /-- SFCVT (R186): Uniform conversion of the kind in the word. -/
  | sfcvt (f : SCvt)
  /-- BR (R99): Unconditional relative branch of the issuing split. -/
  | br (f : Br)
  /-- BRZ (R99): Branches when SCC.Z is 1. -/
  | brz (f : Br)
  /-- BRNZ (R99): Branches when SCC.Z is 0. -/
  | brnz (f : Br)
  /-- BRLT (R99): Branches when N differs from V. -/
  | brlt (f : Br)
  /-- BRGE (R99): Branches when N equals V. -/
  | brge (f : Br)
  /-- BRLTU (R99): Branches when C is 0. -/
  | brltu (f : Br)
  /-- BRGEU (R99): Branches when C is 1. -/
  | brgeu (f : Br)
  /-- BRPZ (R100): Branches when no lane of the split's mask has the predicate set. -/
  | brpz (f : BrP)
  /-- BRPNZ (R100): Branches when some lane of the mask has the predicate set. -/
  | brpnz (f : BrP)
  /-- BRPALL (R100): Branches when every lane of the mask has the predicate set. -/
  | brpall (f : BrP)
  /-- CALL (R101): Writes the link register and branches. -/
  | call (f : Br)
  /-- RET (R101): Jumps to the code address in s62. -/
  | ret (f : Bare)
  /-- JMP (R101): Jumps to the code address in a uniform register. -/
  | jmp (f : Jmp)
  /-- ADR (R102): Forms a code address relative to the next word. -/
  | adr (f : Adr)
  /-- RDSR (R154): Reads a status register of the unprivileged view. -/
  | rdsr (f : Rdsr)
  /-- WRSR (R154): Writes a writable status register of the unprivileged view. -/
  | wrsr (f : Wrsr)
  /-- SETMODE (R193): Writes one MODE field chosen by a selector. -/
  | setmode (f : SetM)
  /-- MOVI (R147): Loads a 32-bit literal into a vector or uniform register. -/
  | movi (f : Movi)
  /-- LD_B (R261): Loads a zero-extended byte per active lane. -/
  | ldB (f : Vmem)
  /-- LD_BS (R261): Loads a sign-extended byte per active lane. -/
  | ldBs (f : Vmem)
  /-- LD_H (R261): Loads a zero-extended halfword per lane. -/
  | ldH (f : Vmem)
  /-- LD_HS (R261): Loads a sign-extended halfword per lane. -/
  | ldHs (f : Vmem)
  /-- LD_W (R261): Loads a word per active lane. -/
  | ldW (f : Vmem)
  /-- LD_W2 (R261): Loads two words per lane into a pair. -/
  | ldW2 (f : Vmem)
  /-- LD_W4 (R261): Loads four words per lane into a quad. -/
  | ldW4 (f : Vmem)
  /-- ST_B (R261): Stores a byte per active lane. -/
  | stB (f : Vmem)
  /-- ST_H (R261): Stores a halfword per lane. -/
  | stH (f : Vmem)
  /-- ST_W (R261): Stores a word per lane. -/
  | stW (f : Vmem)
  /-- ST_W2 (R261): Stores two words per lane. -/
  | stW2 (f : Vmem)
  /-- ST_W4 (R261): Stores four words per lane. -/
  | stW4 (f : Vmem)
  /-- LDT (R265): Loads 16-row blocks and transposes them at element size. -/
  | ldt (f : Ldt)
  /-- LDX (R212): Loads an expansion from a high and a low region. -/
  | ldx (f : Vmem)
  /-- STX (R212): Stores an expansion to a high and a low region. -/
  | stx (f : Vmem)
  /-- PFL (R266): Prefetches lines into the L1 or the home slice. -/
  | pfl (f : Pfl)
  /-- SLD_W (R268): Uniform load of one word. -/
  | sldW (f : Smem)
  /-- SLD_W2 (R268): Uniform load of two words. -/
  | sldW2 (f : Smem)
  /-- SLD_W4 (R268): Uniform load of four words. -/
  | sldW4 (f : Smem)
  /-- SLD_W8 (R268): Uniform load of eight words. -/
  | sldW8 (f : Smem)
  /-- SST_W (R268): Uniform store of one word. -/
  | sstW (f : Smem)
  /-- SST_W2 (R268): Uniform store of two words. -/
  | sstW2 (f : Smem)
  /-- SST_W4 (R268): Uniform store of four words. -/
  | sstW4 (f : Smem)
  /-- SWAITL (R270): Waits until a word differs from an expected value or a bound expires. -/
  | swaitl (f : Smem)
  /-- SATADD (R269): Uniform strong atomic add returning the old value. -/
  | satadd (f : Smem)
  /-- SATCAS (R269): Uniform strong compare-and-swap. -/
  | satcas (f : Smem)
  /-- AADD (R310): Atomic integer add per active lane at the home. -/
  | aadd (f : Atom)
  /-- ASUB (R310): Atomic integer subtract. -/
  | asub (f : Atom)
  /-- AAND (R310): Atomic AND. -/
  | aand (f : Atom)
  /-- AOR (R310): Atomic OR. -/
  | aor (f : Atom)
  /-- AXOR (R310): Atomic XOR. -/
  | axor (f : Atom)
  /-- AMIN (R310): Atomic signed minimum. -/
  | amin (f : Atom)
  /-- ATOMIC_AMAX (R310): Atomic signed maximum. -/
  | atomicAmax (f : Atom)
  /-- AMINU (R310): Atomic unsigned minimum. -/
  | aminu (f : Atom)
  /-- AMAXU (R310): Atomic unsigned maximum. -/
  | amaxu (f : Atom)
  /-- AXCHG (R310): Atomic exchange. -/
  | axchg (f : Atom)
  /-- ACAS (R310): Atomic compare-and-swap per lane. -/
  | acas (f : Atom)
  /-- AINCW (R310): Atomic wrapping increment. -/
  | aincw (f : Atom)
  /-- AFADD (R310): Atomic FP32 add. -/
  | afadd (f : Atom)
  /-- AFADD2 (R310): Atomic packed 16-bit float add. -/
  | afadd2 (f : Atom)
  /-- AFMIN (R310): Atomic FP32 minimum. -/
  | afmin (f : Atom)
  /-- AFMAX (R310): Atomic FP32 maximum. -/
  | afmax (f : Atom)
  /-- AADDC (R312): Atomic compensated addition of an FP32 pair. -/
  | aaddc (f : Atom)
  /-- MMA (R242): Issues one accumulation step of two tiles into an accumulator. -/
  | mma (f : Mma)
  /-- MMAG (R243): Issues a step with A rows gathered from the scratchpad. -/
  | mmag (f : Mmag)
  /-- MMAS (R244): Issues a burst of n steps reading both operands from scratchpad windows. -/
  | mmas (f : Mmas)
  /-- ACCZ (R250): Zeroes an accumulator pair and its amax register. -/
  | accz (f : AccOp)
  /-- ACCLD (R250): Loads an accumulator's main and optionally residual array from a window. -/
  | accld (f : Accld)
  /-- DRAIN (R246): Converts an accumulator and writes it to a window. -/
  | drain (f : Drain)
  /-- DRAINT (R248): Drains an accumulator and also writes a transposed copy. -/
  | draint (f : Mmas)
  /-- TLD (R245): Loads a tile from a window. -/
  | tld (f : Tld)
  /-- TLDT (R245): Loads a tile with an 8- or 16-bit transpose. -/
  | tldt (f : Tldt)
  /-- TLDG (R245): Loads a tile with gathered rows. -/
  | tldg (f : Tldg)
  /-- TZERO (R245): Zeroes a tile. -/
  | tzero (f : Tzero)
  /-- MATRIX_AMAX (R249): Reads an accumulator's amax register into a uniform register and sets AMAXSEL. -/
  | matrixAmax (f : MAmax)
  /-- ACCRD (R251): Reads accumulator rows into a vector register. -/
  | accrd (f : AccRow)
  /-- ACCWR (R251): Writes accumulator rows from a vector register. -/
  | accwr (f : AccRow)
  /-- ACCFOLD (R250): Folds the residual into the main array by two-sum. -/
  | accfold (f : AccOp)
  /-- CPY (R290): Starts a strided row copy on the core's copy engine. -/
  | cpy (f : Cpy)
  /-- CPYT (R291): Starts a rearranging copy: transpose, sparse expansion or BFP planes. -/
  | cpyt (f : Cpy)
  /-- CPYG (R292): Starts a gathering copy through an index list. -/
  | cpyg (f : Cpy)
  /-- CPYS (R292): Starts a scattering copy through an index list. -/
  | cpys (f : Cpy)
  /-- CPYQ (R293): Starts a quantising copy of FP32 rows. -/
  | cpyq (f : Cpy)
  /-- CPYX (R294): Starts an append of rows to a copy queue. -/
  | cpyx (f : Cpyx)
  /-- CSTAT (R297): Reports the status of a copy by tag. -/
  | cstat (f : CTag)
  /-- CCANCEL (R298): Cancels a moving or waiting copy by tag. -/
  | ccancel (f : CTag)
  /-- RLD (R328): Issues remote 4-byte loads to a rank's partition. -/
  | rld (f : Rld)
  /-- RST (R328): Issues remote 4-byte stores. -/
  | rst (f : Rst)
  /-- RATOM (R328): Issues remote atomics. -/
  | ratom (f : Ratom)
  /-- RSTV (R336): Delivers one register to a seat's vector register. -/
  | rstv (f : Rstv)
  /-- XFER (R331): Starts a bulk transfer to a remote memory or seat team window. -/
  | xfer (f : Xfer)
  /-- RFENCE (R330): Starts a flagged fence that adds 1 to a remote word after the stream drains. -/
  | rfence (f : Rfence)
  /-- XRED_FIRST (R341): Starts a residual-carrying reduction chain and delivers the own pair. -/
  | xredFirst (f : Xred)
  /-- XRED_MID (R341): Combines the incoming pair with the own pair and delivers onward. -/
  | xredMid (f : Xred)
  /-- XRED_LAST (R341): Combines the incoming pair with the own pair and keeps the result. -/
  | xredLast (f : XredLast)
  /-- HOLD (R338): Arms or extends a hold entry counting deliveries to a register. -/
  | hold (f : Hold)
  /-- SEATGET (R334): Takes a seat-table entry and gives the group a seat name. -/
  | seatget (f : SeatGet)
  /-- SEATFREE (R334): Frees the group's seat. -/
  | seatfree (f : FBare)
  /-- RSTAT (R324): Reads an ordering stream's status. -/
  | rstat (f : Rstat)
  /-- RSTAT_CLR (R324): Reads and clears a stream's causes, reopening an Error stream. -/
  | rstatClr (f : Rstat)
  /-- RRESUME (R322): Replays a frozen stream's faulting request and reopens it. -/
  | rresume (f : Rresume)
  /-- RRESUME_FAIL (R322): Discards a frozen stream's requests with RESFAIL and puts it in Error. -/
  | rresumeFail (f : Rresume)
  /-- RANKMAP (R316): Writes one rank-table entry. -/
  | rankmap (f : Rankmap)
  /-- RANKMAP_RD (R316): Reads one rank-table entry. -/
  | rankmapRd (f : Rankmap)
  /-- NOP (R80): Does nothing beyond its stall count. -/
  | nop (f : Bare)
  /-- WAIT (R81): Blocks on, or arms, a single wait-counter condition. -/
  | wait (f : Wait)
  /-- WAIT_ALL (R81): Blocks on, or arms, several counters reaching 0. -/
  | waitAll (f : WaitAll)
  /-- FORK (R88): Divides the issuing split by a predicate and pushes the join stack. -/
  | fork (f : Fork)
  /-- JOIN (R89): Parks the split to close the innermost open fork. -/
  | join (f : Bare)
  /-- DRAW (R84): Sets the hand's working set and marks a safe point. -/
  | draw (f : Draw)
  /-- SAFE (R106): Marks a safe point with a live-set entry and resets the distance count. -/
  | safe (f : Safe)
  /-- YIELD (R95): Makes the current split give way and the group go behind others. -/
  | yield (f : Bare)
  /-- YIELDC (R97): Parks the split on the armed condition with a continuation PC. -/
  | yieldc (f : Fork)
  /-- SLEEP (R96): Puts the split to sleep for n to n+64 cycles. -/
  | sleep (f : Sleep)
  /-- BAR (R103): Parks the split on a team barrier. -/
  | bar (f : Bar)
  /-- CBAR (R104): Parks the split on the cohort barrier. -/
  | cbar (f : Bare)
  /-- EXIT (R107): Ends the issuing split and, for the last split, the group. -/
  | exit_ (f : Bare)
  /-- LAUNCH (R111): Reads and validates a launch record and creates a grid. -/
  | launch (f : Launch)
  /-- CWAIT (R115): Waits for child grids to complete. -/
  | cwait (f : SysDA)
  /-- RPUSH (R122): Publishes the claimed ring slot and claims the next. -/
  | rpush (f : Rpush)
  /-- RPUSH_PUB (R122): Publishes the claimed ring slot to a consumer mask. -/
  | rpushPub (f : RpushPub)
  /-- RPUSH_CLAIM (R122): Claims the next free ring slot. -/
  | rpushClaim (f : Rpush)
  /-- RPOP (R123): Releases the held slot and takes the next slot offered to a position. -/
  | rpop (f : Rpop)
  /-- RPOP_REL (R123): Releases a position's held slot. -/
  | rpopRel (f : RpopRel)
  /-- RPOP_TAKE (R123): Takes the next slot offered to a position. -/
  | rpopTake (f : Rpop)
  /-- POTSET (R304): Initialises a pot's count, target and state. -/
  | potset (f : SysAB)
  /-- POTWAIT (R305): Waits for a pot to be reached, or arms that condition. -/
  | potwait (f : Potwait)
  /-- SIGCHK (R398): Checks the block signature against an immediate. -/
  | sigchk (f : Imm16)
  /-- TRAP (R386): Takes the software trap 0x12. -/
  | trap (f : Imm16)
  /-- FENCE (R273): Orders the split's accesses at a scope. -/
  | fence (f : Fence)
  /-- SHFL (R225): Moves words between lanes by up, down, xor or index. -/
  | shfl (f : Shfl)
  /-- LRED (R228): Reduces within lane segments by a fixed tree. -/
  | lred (f : Lred)
  /-- LSCAN (R228): Scans across the group, inclusive or exclusive. -/
  | lscan (f : Lscan)
  /-- VOTE (R227): Computes any, all, uniform or ballot over active lanes. -/
  | vote (f : Vote)
  /-- BCAST (R226): Broadcasts one lane's word to every active lane. -/
  | bcast (f : Bcast)
  /-- RDLANE (R226): Reads one lane's word into a uniform register. -/
  | rdlane (f : Rdlane)
  /-- LANES (R229): Writes lane index, rank, count or first active lane. -/
  | lanes (f : LanesF)
  /-- POP (R230): Combines two predicates by a logic function. -/
  | pop (f : Pop)
  /-- PMOV (R230): Moves a predicate to or from a vector or uniform pair. -/
  | pmov (f : Pmov)
  /-- PERM (R231): Scatters words to lanes chosen by an index vector. -/
  | perm (f : Perm)
  /-- FRCP (R219): Issues a reciprocal on the special-function unit. -/
  | frcp (f : Sfu)
  /-- FRSQRT (R219): Issues a reciprocal square root. -/
  | frsqrt (f : Sfu)
  /-- FSQRT (R219): Issues a square root. -/
  | fsqrt (f : Sfu)
  /-- FEXP2 (R219): Issues 2^x. -/
  | fexp2 (f : Sfu)
  /-- FLOG2 (R219): Issues log2 x. -/
  | flog2 (f : Sfu)
  /-- FSINPI (R219): Issues sin(pi x). -/
  | fsinpi (f : Sfu)
  /-- FCOSPI (R219): Issues cos(pi x). -/
  | fcospi (f : Sfu)
  /-- FTANH (R219): Issues tanh x. -/
  | ftanh (f : Sfu)
  /-- FSIGM (R221): Issues the logistic sigmoid. -/
  | fsigm (f : Sfu)
  /-- FGELU (R221): Issues GELU in tanh form. -/
  | fgelu (f : Sfu)
  /-- FSILU (R221): Issues x times sigmoid x. -/
  | fsilu (f : Sfu)
  /-- FSOFTP (R221): Issues softplus. -/
  | fsoftp (f : Sfu)
  /-- FCVT (R188): Converts between float types with one rounding. -/
  | fcvt (f : Cvt)
  /-- FCVTI (R188): Converts floats to saturating integers. -/
  | fcvti (f : Cvt)
  /-- ICVTF (R188): Converts integers to floats. -/
  | icvtf (f : Cvt)
  /-- BFPK (R190): Packs FP32 lanes into BFPk blocks of sixteen. -/
  | bfpk (f : Bfp)
  /-- BFPU (R191): Unpacks the per-lane block form to FP32. -/
  | bfpu (f : Bfp)
  /-- UNPK (R192): Spreads 2- or 4-bit fields into bytes. -/
  | unpk (f : Unpk)
  /-- SCLX (R189): Applies an E8M0 scale with one rounding. -/
  | sclx (f : Sclx)
  /-- PSRD (R378): Reads any status register of either view. -/
  | psrd (f : Psrd)
  /-- PSWR (R378): Writes a writable privileged or unprivileged register, completing when the partition uses it. -/
  | pswr (f : Pswr)
  /-- OVTLD (R174): Loads the group's overflow table. -/
  | ovtld (f : SysA)
  /-- RFE (R386): Returns from a handler and replays the trapped instruction. -/
  | rfe (f : Bare)
  /-- RFE_NEXT (R386): Returns from a handler resuming after the trapped instruction. -/
  | rfeNext (f : Bare)
  /-- RFE_PARK (R386): Returns from a handler parking the group on a replay word. -/
  | rfePark (f : SysA)
  /-- CTXSV (R389): Pre-empts a resident team into a context image. -/
  | ctxsv (f : SysDAB)
  /-- CTXLD (R389): Validates a team image and queues the team for restore. -/
  | ctxld (f : SysDA)
  /-- PGMAP (R372): Takes a frame from a pool and zeroes it. -/
  | pgmap (f : SysDA)
  /-- PGPOOL_ADD (R373): Adds a frame to a pool. -/
  | pgpoolAdd (f : SysDA)
  /-- PGPOOL_REM (R373): Removes a frame from a pool without zeroing. -/
  | pgpoolRem (f : SysDA)
  /-- PGPOOL_CNT (R373): Returns a pool's frame count. -/
  | pgpoolCnt (f : SysDA)
  /-- KEYLD (R404): Unwraps a key blob into a partition key slot, or erases the slot. -/
  | keyld (f : SysDAB)
  /-- HALT (R408): Requests an operating point for an island. -/
  | halt (f : SysDA)
  /-- XLAT (R374): Reports how a flat address translates, without faulting. -/
  | xlat (f : SysDA)
  /-- PLACE_TO (R375): Hints migration of a page toward a die. -/
  | placeTo (f : SysAB)
  /-- PLACE_HERE (R375): Hints migration of a page toward the issuing core's die. -/
  | placeHere (f : SysA)
  /-- PLACE_RESET (R375): Zeroes a page's access counts. -/
  | placeReset (f : SysA)
  /-- DUPSET (R376): Duplicates a page onto other dies or collapses its replicas. -/
  | dupset (f : SysDAB)
  /-- SIGSET (R399): Writes SIGCTL. -/
  | sigset (f : SysA)
  /-- KILLG (R395): Kills a group or team named by a locator. -/
  | killg (f : SysDA)
deriving DecidableEq, Repr

end Sys2Proof
end

