-- ==== Sys2Proof/Machine/Static.lean ====
section
/-! DEFINITION. The checks of R57 that an instruction's own fields decide: reserved codes, fields that
must be 0, misaligned register groups whose size the word itself gives. An instruction that fails one is
an undefined encoding (R58 step 3). Groups whose size MODE may give (R187, R194, R212) are checked when
the instruction issues. -/
namespace Sys2Proof.Machine

/-- The code of a condition (R28). -/
def condCode : Cond → Nat
  | .eq => 0 | .ne => 1 | .lt => 2 | .le => 3 | .gt => 4 | .ge => 5 | .ord => 6 | .uno => 7
  | .ueq => 8 | .une => 9 | .ult => 10 | .ule => 11 | .ugt => 12 | .uge => 13

/-- A base register that is not a multiple of `n` (R48). -/
def misaligned {k : Nat} (r : BitVec k) (n : Nat) : Bool := r.toNat % n != 0

/-- Reserved codes of the ALU interpretation of a prefix (R35, R39): rounding 111, types 0xC to 0xF, the
reserved widths, a fourth operand without a kind, and bit 11 of a uniform fourth operand. -/
def aluPxIll (p : AluPx) : Bool :=
  p.rnd == 7 || 12 ≤ p.ty.toNat || p.xw == 1 || p.xw == 5 || p.xw == 6 || p.xw == 7
    || (p.kind4 == 0 && p.op4 != 0) || (p.kind4 == 2 && 64 ≤ p.op4.toNat)

/-- The same for an optional prefix. -/
def pxIll (p : Option AluPx) : Bool := (p.map aluPxIll).getD false

/-- The fourth-operand kind of an optional prefix; 0 when there is none. -/
def kind4Of (p : Option AluPx) : Nat := (p.map fun q => q.kind4.toNat).getD 0

/-- Indices of the unprivileged view that R155 reserves. -/
def srReserved (i : BitVec 10) : Bool := 0x27 ≤ i.toNat

/-- Read-only indices of the unprivileged view (R155). -/
def srReadOnly (i : BitVec 10) : Bool :=
  !(i == 0x10 || i == 0x11 || i == 0x17 || i == 0x18 || i == 0x19 || i == 0x1A)

/-- Indices that the privileged view of R379 lists. -/
def psrListed (i : BitVec 10) : Bool :=
  let n := i.toNat
  n < 0x27 || (0x100 ≤ n && n ≤ 0x11A) || (0x120 ≤ n && n ≤ 0x127) || (0x130 ≤ n && n ≤ 0x136)
    || n == 0x140 || (0x160 ≤ n && n ≤ 0x19F) || (0x200 ≤ n && n ≤ 0x27F)

/-- Indices that `pswr` may write (R378, R379, R380). -/
def psrWritable (i : BitVec 10) : Bool :=
  let n := i.toNat
  n == 0x10 || n == 0x11 || n == 0x12 || n == 0x17 || n == 0x18 || n == 0x19 || n == 0x1A
    || n == 0x100 || n == 0x101 || n == 0x105 || n == 0x106 || n == 0x108 || n == 0x109 || n == 0x10A
    || (0x10B ≤ n && n ≤ 0x113) || (0x116 ≤ n && n ≤ 0x11A) || n == 0x136 || n == 0x140
    || (0x160 ≤ n && n ≤ 0x17F)

/-- The width of a MODE field by its `setmode` selector (R46); none for a reserved selector. -/
def setmodeWidth (sel : BitVec 4) : Option Nat :=
  match sel.toNat with
  | 0 => some 4 | 1 => some 3 | 2 => some 1 | 3 => some 1 | 4 => some 2 | 5 => some 4
  | 6 => some 1 | 7 => some 3 | 8 => some 1 | 9 => some 5 | _ => none

/-- Type codes of the floating-point formats (R44). -/
def isFloatCode (t : Nat) : Bool := 7 ≤ t && t ≤ 11

/-- Type codes of the integer formats (R44). -/
def isIntCode (t : Nat) : Bool := 1 ≤ t && t ≤ 6

/-- Integer compares define condition codes 0 to 5 only (R28, R145). -/
def icondIll (c : Cond) : Bool := 6 ≤ condCode c

/-- VMEM: a non-zero offset field with the enable bit at 0 (R262). -/
def vmemIll (f : Vmem) (align : Nat) : Bool :=
  misaligned f.vd align || (!f.en && f.off != 0)

/-- The undefined encodings that an instruction's fields decide (R57). Rows not named have none. -/
def staticIll : Instr → Bool
  | .icmp f => icondIll f.cond || pxIll f.px
  | .icmpu f => icondIll f.cond || pxIll f.px
  | .icmpVu f => icondIll f.cond || pxIll f.px
  | .icmpuVu f => icondIll f.cond || pxIll f.px
  | .fcmp f => pxIll f.px
  | .fcmpVu f => pxIll f.px
  | .xcmp f => pxIll f.px
  | .iadd f | .isub f | .imul f | .imulh f | .imulhu f | .iand f | .ior f | .ixor f | .ishl f | .ishr f
  | .isra f | .imin f | .imax f | .iminu f | .imaxu f | .iaddsat f | .isubsat f | .vsel f | .idot4 f
  | .iabsdiff f | .fadd f | .fsub f | .fmul f | .ffma f | .fmin f | .fmax f | .fscale f | .fdot2 f
  | .xadd f | .xsub f | .xmul f | .xmulw f | .xfmaw f => pxIll f.px
  | .iaddVu f | .isubVu f | .imulVu f | .imulhVu f | .imulhuVu f | .iandVu f | .iorVu f | .ixorVu f
  | .ishlVu f | .ishrVu f | .israVu f | .iminVu f | .imaxVu f | .iminuVu f | .imaxuVu f | .iaddsatVu f
  | .isubsatVu f | .vselVu f | .idot4Vu f | .iabsdiffVu f | .faddVu f | .fsubVu f | .fmulVu f | .ffmaVu f
  | .fminVu f | .fmaxVu f | .fscaleVu f | .fdot2Vu f => pxIll f.px
  | .vmov f => pxIll f.px
  | .vmovVu f => pxIll f.px
  | .ipopc f | .iclz f | .ibrev f | .fabs f | .fneg f | .fclass f | .fround f | .xrenorm f | .xcompress f
  | .xneg f | .xsplit f | .xround f | .xroundF32 f => pxIll f.px
  | .twosum f | .fastsum f | .twodiff f | .twoprod f => pxIll f.px || misaligned f.vd 2
  | .errfma f => pxIll f.px || misaligned f.vd 4
  | .sfcvt f => 9 ≤ f.kind.toNat
  | .rdsr f => srReserved f.idx
  | .wrsr f => srReserved f.idx
  | .setmode f =>
    match setmodeWidth f.sel with
    | none => true
    | some w => 2 ^ w ≤ f.val.toNat
  | .ldB f | .ldBs f | .ldH f | .ldHs f | .ldW f | .stB f | .stH f | .stW f => vmemIll f 1
  | .ldW2 f | .stW2 f => vmemIll f 2
  | .ldW4 f | .stW4 f => vmemIll f 4
  | .ldx f | .stx f => vmemIll f 1 || misaligned f.k 2
  | .ldt f => misaligned f.vd 4 || f.esz == 3
  | .pfl f => 2 ≤ f.lvl.toNat || (!f.en && f.off != 0)
  | .sldW2 f | .sstW2 f => misaligned f.sd 2
  | .sldW4 f | .sstW4 f => misaligned f.sd 4
  | .sldW8 f => misaligned f.sd 8
  | .swaitl f | .satadd f => f.att.toNat < 2
  | .satcas f => f.att.toNat < 2 || misaligned f.sd 2
  | .acas f | .aaddc f => misaligned f.vd 2
  | .mmag f => misaligned f.vf 2
  | .cpy f | .cpyt f | .cpyg f | .cpys f | .cpyq f => f.cr == 7
  | .cpyx f => f.cr == 7
  | .cstat f => misaligned f.sd 4
  | .rld f => misaligned f.vd 2 || misaligned f.sb 2
  | .rst f => misaligned f.vs 2 || misaligned f.sb 2
  | .ratom f => 11 ≤ f.op.toNat || misaligned f.vd (if f.op == 9 then 4 else 2) || misaligned f.sb 2
  | .rstv f => misaligned f.sa 2
  | .xfer f => misaligned f.cr 8 || 48 < f.cr.toNat
  | .rfence f => misaligned f.sb 2
  | .xredFirst f | .xredMid f => misaligned f.vp 4 || misaligned f.sa 2
  | .xredLast f => misaligned f.vp 4
  | .seatget f => misaligned f.sd 2
  | .rstat f | .rstatClr f => misaligned f.sd 2
  | .rresume f | .rresumeFail f => misaligned f.sb 2
  | .wait f => 6 ≤ f.cnt.toNat
  | .waitAll f => f.cmask == 0
  | .fence f => f.kind == 0
  | .potwait f => f.arm && f.sd != 0
  | .shfl f => pxIll f.px || (f.mode == 3 && (f.dist != 0 || kind4Of f.px == 0))
  | .lred f => pxIll f.px || 11 ≤ f.op.toNat
  | .lscan f => pxIll f.px || 11 ≤ f.op.toNat
  | .vote f =>
    pxIll f.px || (f.mode != 3 && 8 ≤ f.fd.toNat) || (f.mode != 2 && 8 ≤ f.fa.toNat)
      || (f.mode == 3 && (64 ≤ f.fd.toNat || misaligned f.fd 2))
  | .bcast f => pxIll f.px || (kind4Of f.px != 0 && f.lane != 0)
  | .rdlane f => pxIll f.px || (kind4Of f.px != 0 && f.lane != 0)
  | .lanes f => pxIll f.px || 4 ≤ f.kind.toNat
  | .pop f => pxIll f.px
  | .pmov f =>
    pxIll f.px || 3 ≤ f.mode.toNat || (f.mode == 0 && 8 ≤ f.fa.toNat) || (f.mode != 0 && 8 ≤ f.fd.toNat)
      || (f.mode == 2 && (64 ≤ f.fa.toNat || misaligned f.fa 2))
  | .perm f => pxIll f.px || kind4Of f.px == 0
  | .frcp f | .frsqrt f | .fsqrt f | .fexp2 f | .flog2 f | .fsinpi f | .fcospi f | .ftanh f | .fsigm f
  | .fgelu f | .fsilu f | .fsoftp f => pxIll f.px
  | .fcvt f => pxIll f.px || !isFloatCode f.dty.toNat
  | .fcvti f => pxIll f.px || !isIntCode f.dty.toNat
  | .icvtf f => pxIll f.px || !isFloatCode f.dty.toNat
  | .sclx f => pxIll f.px || !isFloatCode f.dty.toNat || kind4Of f.px == 0
  | .bfpk f | .bfpu f => pxIll f.px || f.k.toNat < 2 || 8 < f.k.toNat
  | .unpk f =>
    pxIll f.px || !(f.w == 2 || f.w == 4) || misaligned f.vd (if f.w == 4 then 2 else 4)
  | .psrd f => !psrListed f.idx
  | .pswr f => !psrListed f.idx || !psrWritable f.idx
  | .rfePark f => misaligned f.sa 2
  | .ctxsv f => misaligned f.sa 2
  | .ctxld f => misaligned f.sa 2
  | .pgmap f => misaligned f.sd 2
  | .pgpoolAdd f => misaligned f.sa 4
  | .pgpoolRem f => misaligned f.sd 2
  | .keyld f => misaligned f.sa 2
  | .xlat f => misaligned f.sd 4 || misaligned f.sa 2
  | .placeTo f => misaligned f.sa 2
  | .placeHere f => misaligned f.sa 2
  | .placeReset f => misaligned f.sa 2
  | .dupset f => misaligned f.sa 2
  | _ => false

end Sys2Proof.Machine
end

