-- ==== Sys2Proof/WellFormed.lean ====
section
/-! DEFINITION. Which instructions are well formed: those whose fields no rule of the spec reserves
(R57). The decoder answers only such instructions. -/
namespace Sys2Proof

/-- An instruction whose own fields are all defined (R57, R58 step 3). -/
abbrev Instr.WellFormed (i : Instr) : Prop := Machine.staticIll i = false

end Sys2Proof
end

