-- ==== Sys2Proof/Decode.lean ====
section
/-! DEFINITION. The decoder: total on any two words, rejecting by name, and after it the encoder written
from the same encoding tables (R24 to R59). A word is read as a number, bit 0 its least significant. -/
namespace Sys2Proof

/-- Why two words are no instruction, in the words of R58. -/
inductive DecodeReject where
  /-- a prefix whose stall field is not 00: trap 0x03 (R58 step 1) -/
  | prefixStall
  /-- a prefix followed by a prefix: trap 0x03 (R58 step 2) -/
  | prefixPair
  /-- an undefined encoding in either word: trap 0x01 (R58 step 3) -/
  | undefinedEncoding
  /-- a prefix before a class that accepts none: trap 0x03 (R34, R58 step 4) -/
  | prefixRefused
deriving DecidableEq, Repr

/-- The field of `len` bits of the word `w` whose lowest bit is `lo` (R1). -/
def fld (w lo len : Nat) : BitVec len := BitVec.ofNat len (w / 2 ^ lo)

/-- One bit of a word. -/
def flag (w lo : Nat) : Bool := w / 2 ^ lo % 2 == 1

/-- The second source of a VU word (R29): bit 9 chooses an immediate; without it bit 8 must be 0. -/
def vsrcOf (w : Nat) : Option VSrc :=
  if w / 2 ^ 9 % 2 = 1 then some (.imm (fld w 2 7))
  else if w / 2 ^ 8 % 2 = 0 then some (.u (fld w 2 6)) else none

/-- The second source of an S word (R30): bit 11 chooses an immediate; without it [10:8] must be 0. -/
def ssrcOf (w : Nat) : Option SSrc :=
  if w / 2 ^ 11 % 2 = 1 then some (.imm (fld w 2 9))
  else if w / 2 ^ 8 % 8 = 0 then some (.r (fld w 2 6)) else none

/-- The condition with a code (R28). -/
def condOf (c : Nat) : Option Cond :=
  match c with
  | 0 => some .eq | 1 => some .ne | 2 => some .lt | 3 => some .le | 4 => some .gt | 5 => some .ge
  | 6 => some .ord | 7 => some .uno | 8 => some .ueq | 9 => some .une | 10 => some .ult | 11 => some .ule
  | 12 => some .ugt | 13 => some .uge | _ => none

/-- The fields of the layout `V3` in the word `w`. -/
def unpackV3 (w : Nat) (px : Option AluPx) : V3 :=
  { vd := fld w 16 7, va := fld w 9 7, vb := fld w 2 7, st := fld w 0 2, px := px }

/-- The fields of the layout `VU` in the word `w`, if its second source or condition is defined. -/
def unpackVU (w : Nat) (px : Option AluPx) : Option VU :=
  (vsrcOf w).map fun src => { vd := fld w 17 7, va := fld w 10 7, src := src, st := fld w 0 2, px := px }

/-- The fields of the layout `V3Cmp` in the word `w`, if its second source or condition is defined. -/
def unpackV3Cmp (w : Nat) (px : Option AluPx) : Option V3Cmp :=
  (condOf (w / 2 ^ 19 % 16)).map fun cond => { cond := cond, pd := fld w 16 3, va := fld w 9 7, vb := fld w 2 7, st := fld w 0 2, px := px }

/-- The fields of the layout `VUCmp` in the word `w`, if its second source or condition is defined. -/
def unpackVUCmp (w : Nat) (px : Option AluPx) : Option VUCmp :=
  (condOf (w / 2 ^ 20 % 16)).bind fun cond =>
    (vsrcOf w).map fun src => { cond := cond, pd := fld w 17 3, va := fld w 10 7, src := src, st := fld w 0 2, px := px }

/-- The fields of the layout `V3Mov` in the word `w`. -/
def unpackV3Mov (w : Nat) (px : Option AluPx) : V3Mov :=
  { vd := fld w 16 7, vb := fld w 2 7, st := fld w 0 2, px := px }

/-- The fields of the layout `VUMov` in the word `w`, if its second source or condition is defined. -/
def unpackVUMov (w : Nat) (px : Option AluPx) : Option VUMov :=
  (vsrcOf w).map fun src => { vd := fld w 17 7, src := src, st := fld w 0 2, px := px }

/-- The fields of the layout `V3Un` in the word `w`. -/
def unpackV3Un (w : Nat) (px : Option AluPx) : V3Un :=
  { vd := fld w 16 7, va := fld w 9 7, st := fld w 0 2, px := px }

/-- The fields of the layout `S3` in the word `w`, if its second source or condition is defined. -/
def unpackS3 (w : Nat) : Option S3 :=
  (ssrcOf w).map fun src => { sd := fld w 18 6, sa := fld w 12 6, src := src, st := fld w 0 2 }

/-- The fields of the layout `SMov` in the word `w`, if its second source or condition is defined. -/
def unpackSMov (w : Nat) : Option SMov :=
  (ssrcOf w).map fun src => { sd := fld w 18 6, src := src, st := fld w 0 2 }

/-- The fields of the layout `SCmp` in the word `w`, if its second source or condition is defined. -/
def unpackSCmp (w : Nat) : Option SCmp :=
  (ssrcOf w).map fun src => { sa := fld w 12 6, src := src, st := fld w 0 2 }

/-- The fields of the layout `SUn` in the word `w`. -/
def unpackSUn (w : Nat) : SUn :=
  { sd := fld w 18 6, sa := fld w 12 6, st := fld w 0 2 }

/-- The fields of the layout `SCvt` in the word `w`. -/
def unpackSCvt (w : Nat) : SCvt :=
  { sd := fld w 18 6, sa := fld w 12 6, kind := fld w 2 4, st := fld w 0 2 }

/-- The fields of the layout `Br` in the word `w`. -/
def unpackBr (w : Nat) : Br :=
  { off := fld w 2 22, st := fld w 0 2 }

/-- The fields of the layout `BrP` in the word `w`. -/
def unpackBrP (w : Nat) : BrP :=
  { p := fld w 21 3, off := fld w 2 19, st := fld w 0 2 }

/-- The fields of the layout `Bare` in the word `w`. -/
def unpackBare (w : Nat) : Bare :=
  { st := fld w 0 2 }

/-- The fields of the layout `Jmp` in the word `w`. -/
def unpackJmp (w : Nat) : Jmp :=
  { sa := fld w 12 6, st := fld w 0 2 }

/-- The fields of the layout `Adr` in the word `w`. -/
def unpackAdr (w : Nat) : Adr :=
  { sd := fld w 18 6, off := fld w 2 16, st := fld w 0 2 }

/-- The fields of the layout `Rdsr` in the word `w`. -/
def unpackRdsr (w : Nat) : Rdsr :=
  { sd := fld w 18 6, idx := fld w 2 10, st := fld w 0 2 }

/-- The fields of the layout `Wrsr` in the word `w`. -/
def unpackWrsr (w : Nat) : Wrsr :=
  { sa := fld w 12 6, idx := fld w 2 10, st := fld w 0 2 }

/-- The fields of the layout `SetM` in the word `w`. -/
def unpackSetM (w : Nat) : SetM :=
  { sel := fld w 20 4, val := fld w 2 18, st := fld w 0 2 }

/-- The fields of the layout `Vmem` in the word `w`. -/
def unpackVmem (w : Nat) (px : Option MemPx) : Vmem :=
  { vd := fld w 15 7, off := fld w 8 7, en := flag w 7, k := fld w 4 3, att := fld w 2 2, st := fld w 0 2, px := px }

/-- The fields of the layout `Ldt` in the word `w`. -/
def unpackLdt (w : Nat) (px : Option MemPx) : Ldt :=
  { vd := fld w 15 7, off := fld w 8 7, k := fld w 4 3, esz := fld w 2 2, st := fld w 0 2, px := px }

/-- The fields of the layout `Pfl` in the word `w`. -/
def unpackPfl (w : Nat) (px : Option MemPx) : Pfl :=
  { off := fld w 8 7, en := flag w 7, k := fld w 4 3, lvl := fld w 2 2, st := fld w 0 2, px := px }

/-- The fields of the layout `Smem` in the word `w`. -/
def unpackSmem (w : Nat) (px : Option MemPx) : Smem :=
  { sd := fld w 16 6, k := fld w 12 4, woff := fld w 4 8, att := fld w 2 2, st := fld w 0 2, px := px }

/-- The fields of the layout `Atom` in the word `w`. -/
def unpackAtom (w : Nat) (px : Option MemPx) : Atom :=
  { vd := fld w 14 7, off := fld w 7 7, k := fld w 4 3, ret := flag w 3, order := flag w 2, st := fld w 0 2, px := px }

/-- The fields of the layout `Mma` in the word `w`. -/
def unpackMma (w : Nat) (px : Option MatPx) : Mma :=
  { acc := fld w 18 3, ta := fld w 14 4, tb := fld w 10 4, vf := fld w 3 7, st := fld w 0 2, px := px }

/-- The fields of the layout `Mmag` in the word `w`. -/
def unpackMmag (w : Nat) (px : Option MatPx) : Mmag :=
  { acc := fld w 18 3, q := fld w 14 4, tb := fld w 10 4, vf := fld w 3 7, st := fld w 0 2, px := px }

/-- The fields of the layout `Mmas` in the word `w`. -/
def unpackMmas (w : Nat) (px : Option MatPx) : Mmas :=
  { acc := fld w 18 3, qa := fld w 14 4, qb := fld w 10 4, vf := fld w 3 7, st := fld w 0 2, px := px }

/-- The fields of the layout `AccOp` in the word `w`. -/
def unpackAccOp (w : Nat) (px : Option MatPx) : AccOp :=
  { acc := fld w 18 3, st := fld w 0 2, px := px }

/-- The fields of the layout `Accld` in the word `w`. -/
def unpackAccld (w : Nat) (px : Option MatPx) : Accld :=
  { acc := fld w 18 3, q := fld w 14 4, res := flag w 13, st := fld w 0 2, px := px }

/-- The fields of the layout `Drain` in the word `w`. -/
def unpackDrain (w : Nat) (px : Option MatPx) : Drain :=
  { acc := fld w 18 3, q := fld w 14 4, vf := fld w 3 7, st := fld w 0 2, px := px }

/-- The fields of the layout `Tld` in the word `w`. -/
def unpackTld (w : Nat) (px : Option MatPx) : Tld :=
  { td := fld w 17 4, q := fld w 13 4, st := fld w 0 2, px := px }

/-- The fields of the layout `Tldt` in the word `w`. -/
def unpackTldt (w : Nat) (px : Option MatPx) : Tldt :=
  { td := fld w 17 4, q := fld w 13 4, esz := flag w 12, st := fld w 0 2, px := px }

/-- The fields of the layout `Tldg` in the word `w`. -/
def unpackTldg (w : Nat) (px : Option MatPx) : Tldg :=
  { td := fld w 17 4, q := fld w 13 4, vi := fld w 6 7, st := fld w 0 2, px := px }

/-- The fields of the layout `Tzero` in the word `w`. -/
def unpackTzero (w : Nat) (px : Option MatPx) : Tzero :=
  { td := fld w 17 4, st := fld w 0 2, px := px }

/-- The fields of the layout `MAmax` in the word `w`. -/
def unpackMAmax (w : Nat) (px : Option MatPx) : MAmax :=
  { acc := fld w 18 3, sd := fld w 12 6, st := fld w 0 2, px := px }

/-- The fields of the layout `AccRow` in the word `w`. -/
def unpackAccRow (w : Nat) (px : Option MatPx) : AccRow :=
  { acc := fld w 18 3, half := flag w 17, row := fld w 13 4, v := fld w 6 7, st := fld w 0 2, px := px }

/-- The fields of the layout `Cpy` in the word `w`. -/
def unpackCpy (w : Nat) (px : Option MatPx) : Cpy :=
  { cr := fld w 19 3, mask := fld w 11 8, sd := fld w 5 6, st := fld w 0 2, px := px }

/-- The fields of the layout `Cpyx` in the word `w`. -/
def unpackCpyx (w : Nat) (px : Option MatPx) : Cpyx :=
  { cr := fld w 19 3, sd := fld w 5 6, st := fld w 0 2, px := px }

/-- The fields of the layout `CTag` in the word `w`. -/
def unpackCTag (w : Nat) (px : Option MatPx) : CTag :=
  { sa := fld w 11 6, sd := fld w 5 6, st := fld w 0 2, px := px }

/-- The fields of the layout `Rld` in the word `w`. -/
def unpackRld (w : Nat) (px : Option MemPx) : Rld :=
  { vd := fld w 15 7, sb := fld w 9 6, stream := fld w 7 2, acq := flag w 2, st := fld w 0 2, px := px }

/-- The fields of the layout `Rst` in the word `w`. -/
def unpackRst (w : Nat) (px : Option MemPx) : Rst :=
  { vs := fld w 15 7, sb := fld w 9 6, stream := fld w 7 2, rel := flag w 2, st := fld w 0 2, px := px }

/-- The fields of the layout `Ratom` in the word `w`. -/
def unpackRatom (w : Nat) (px : Option MemPx) : Ratom :=
  { vd := fld w 15 7, sb := fld w 9 6, stream := fld w 7 2, op := fld w 3 4, ret := flag w 2, st := fld w 0 2, px := px }

/-- The fields of the layout `Rstv` in the word `w`. -/
def unpackRstv (w : Nat) (px : Option MemPx) : Rstv :=
  { vs := fld w 15 7, sa := fld w 9 6, stream := fld w 7 2, rel := flag w 2, st := fld w 0 2, px := px }

/-- The fields of the layout `Xfer` in the word `w`. -/
def unpackXfer (w : Nat) (px : Option MemPx) : Xfer :=
  { cr := fld w 9 6, stream := fld w 7 2, st := fld w 0 2, px := px }

/-- The fields of the layout `Rfence` in the word `w`. -/
def unpackRfence (w : Nat) (px : Option MemPx) : Rfence :=
  { sb := fld w 9 6, stream := fld w 7 2, st := fld w 0 2, px := px }

/-- The fields of the layout `Xred` in the word `w`. -/
def unpackXred (w : Nat) (px : Option MemPx) : Xred :=
  { vp := fld w 15 7, sa := fld w 9 6, stream := fld w 7 2, st := fld w 0 2, px := px }

/-- The fields of the layout `XredLast` in the word `w`. -/
def unpackXredLast (w : Nat) (px : Option MemPx) : XredLast :=
  { vp := fld w 15 7, st := fld w 0 2, px := px }

/-- The fields of the layout `Hold` in the word `w`. -/
def unpackHold (w : Nat) (px : Option MemPx) : Hold :=
  { vd := fld w 15 7, n := fld w 2 5, st := fld w 0 2, px := px }

/-- The fields of the layout `SeatGet` in the word `w`. -/
def unpackSeatGet (w : Nat) (px : Option MemPx) : SeatGet :=
  { sd := fld w 9 6, st := fld w 0 2, px := px }

/-- The fields of the layout `FBare` in the word `w`. -/
def unpackFBare (w : Nat) (px : Option MemPx) : FBare :=
  { st := fld w 0 2, px := px }

/-- The fields of the layout `Rstat` in the word `w`. -/
def unpackRstat (w : Nat) (px : Option MemPx) : Rstat :=
  { sd := fld w 9 6, stream := fld w 7 2, st := fld w 0 2, px := px }

/-- The fields of the layout `Rresume` in the word `w`. -/
def unpackRresume (w : Nat) (px : Option MemPx) : Rresume :=
  { sb := fld w 9 6, st := fld w 0 2, px := px }

/-- The fields of the layout `Rankmap` in the word `w`. -/
def unpackRankmap (w : Nat) (px : Option MemPx) : Rankmap :=
  { sa := fld w 9 6, st := fld w 0 2, px := px }

/-- The fields of the layout `Wait` in the word `w`. -/
def unpackWait (w : Nat) : Wait :=
  { cnt := fld w 18 3, n := fld w 10 8, arm := flag w 2, st := fld w 0 2 }

/-- The fields of the layout `WaitAll` in the word `w`. -/
def unpackWaitAll (w : Nat) : WaitAll :=
  { cmask := fld w 10 6, arm := flag w 2, st := fld w 0 2 }

/-- The fields of the layout `Fork` in the word `w`. -/
def unpackFork (w : Nat) : Fork :=
  { p := fld w 18 3, off := fld w 2 16, st := fld w 0 2 }

/-- The fields of the layout `Draw` in the word `w`. -/
def unpackDraw (w : Nat) : Draw :=
  { vb := fld w 14 7, live := fld w 2 12, st := fld w 0 2 }

/-- The fields of the layout `Safe` in the word `w`. -/
def unpackSafe (w : Nat) : Safe :=
  { live := fld w 2 8, st := fld w 0 2 }

/-- The fields of the layout `Sleep` in the word `w`. -/
def unpackSleep (w : Nat) : Sleep :=
  { n := fld w 2 16, st := fld w 0 2 }

/-- The fields of the layout `Bar` in the word `w`. -/
def unpackBar (w : Nat) : Bar :=
  { b := fld w 18 3, st := fld w 0 2 }

/-- The fields of the layout `Launch` in the word `w`. -/
def unpackLaunch (w : Nat) : Launch :=
  { k := fld w 17 4, sd := fld w 11 6, st := fld w 0 2 }

/-- The fields of the layout `SysDA` in the word `w`. -/
def unpackSysDA (w : Nat) : SysDA :=
  { sd := fld w 15 6, sa := fld w 9 6, st := fld w 0 2 }

/-- The fields of the layout `Rpush` in the word `w`. -/
def unpackRpush (w : Nat) : Rpush :=
  { ring := fld w 18 3, mask := fld w 10 8, sd := fld w 4 6, st := fld w 0 2 }

/-- The fields of the layout `RpushPub` in the word `w`. -/
def unpackRpushPub (w : Nat) : RpushPub :=
  { ring := fld w 18 3, mask := fld w 10 8, st := fld w 0 2 }

/-- The fields of the layout `Rpop` in the word `w`. -/
def unpackRpop (w : Nat) : Rpop :=
  { ring := fld w 18 3, pos := fld w 15 3, sd := fld w 4 6, st := fld w 0 2 }

/-- The fields of the layout `RpopRel` in the word `w`. -/
def unpackRpopRel (w : Nat) : RpopRel :=
  { ring := fld w 18 3, pos := fld w 15 3, st := fld w 0 2 }

/-- The fields of the layout `SysAB` in the word `w`. -/
def unpackSysAB (w : Nat) : SysAB :=
  { sa := fld w 15 6, sb := fld w 9 6, st := fld w 0 2 }

/-- The fields of the layout `Potwait` in the word `w`. -/
def unpackPotwait (w : Nat) : Potwait :=
  { sd := fld w 15 6, sa := fld w 9 6, arm := flag w 2, st := fld w 0 2 }

/-- The fields of the layout `Imm16` in the word `w`. -/
def unpackImm16 (w : Nat) : Imm16 :=
  { imm := fld w 2 16, st := fld w 0 2 }

/-- The fields of the layout `Fence` in the word `w`. -/
def unpackFence (w : Nat) : Fence :=
  { scope := fld w 18 3, kind := fld w 16 2, st := fld w 0 2 }

/-- The fields of the layout `Shfl` in the word `w`. -/
def unpackShfl (w : Nat) (px : Option AluPx) : Shfl :=
  { vd := fld w 15 7, va := fld w 8 7, mode := fld w 6 2, dist := fld w 2 4, st := fld w 0 2, px := px }

/-- The fields of the layout `Lred` in the word `w`. -/
def unpackLred (w : Nat) (px : Option AluPx) : Lred :=
  { vd := fld w 15 7, va := fld w 8 7, op := fld w 4 4, seg := fld w 2 2, st := fld w 0 2, px := px }

/-- The fields of the layout `Lscan` in the word `w`. -/
def unpackLscan (w : Nat) (px : Option AluPx) : Lscan :=
  { vd := fld w 15 7, va := fld w 8 7, op := fld w 4 4, ex := flag w 3, st := fld w 0 2, px := px }

/-- The fields of the layout `Vote` in the word `w`. -/
def unpackVote (w : Nat) (px : Option AluPx) : Vote :=
  { fd := fld w 15 7, fa := fld w 8 7, mode := fld w 6 2, st := fld w 0 2, px := px }

/-- The fields of the layout `Bcast` in the word `w`. -/
def unpackBcast (w : Nat) (px : Option AluPx) : Bcast :=
  { vd := fld w 15 7, va := fld w 8 7, lane := fld w 2 6, st := fld w 0 2, px := px }

/-- The fields of the layout `Rdlane` in the word `w`. -/
def unpackRdlane (w : Nat) (px : Option AluPx) : Rdlane :=
  { sd := fld w 15 6, va := fld w 8 7, lane := fld w 2 6, st := fld w 0 2, px := px }

/-- The fields of the layout `LanesF` in the word `w`. -/
def unpackLanesF (w : Nat) (px : Option AluPx) : LanesF :=
  { vd := fld w 15 7, kind := fld w 2 6, st := fld w 0 2, px := px }

/-- The fields of the layout `Pop` in the word `w`. -/
def unpackPop (w : Nat) (px : Option AluPx) : Pop :=
  { pd := fld w 15 3, pa := fld w 8 3, pb := fld w 5 3, fn := fld w 2 3, st := fld w 0 2, px := px }

/-- The fields of the layout `Pmov` in the word `w`. -/
def unpackPmov (w : Nat) (px : Option AluPx) : Pmov :=
  { fd := fld w 15 7, fa := fld w 8 7, mode := fld w 2 6, st := fld w 0 2, px := px }

/-- The fields of the layout `Perm` in the word `w`. -/
def unpackPerm (w : Nat) (px : Option AluPx) : Perm :=
  { vd := fld w 15 7, va := fld w 8 7, st := fld w 0 2, px := px }

/-- The fields of the layout `Sfu` in the word `w`. -/
def unpackSfu (w : Nat) (px : Option AluPx) : Sfu :=
  { vd := fld w 14 7, va := fld w 7 7, st := fld w 0 2, px := px }

/-- The fields of the layout `Cvt` in the word `w`. -/
def unpackCvt (w : Nat) (px : Option AluPx) : Cvt :=
  { vd := fld w 15 7, va := fld w 8 7, dty := fld w 4 4, st := fld w 0 2, px := px }

/-- The fields of the layout `Bfp` in the word `w`. -/
def unpackBfp (w : Nat) (px : Option AluPx) : Bfp :=
  { vd := fld w 15 7, va := fld w 8 7, k := fld w 4 4, st := fld w 0 2, px := px }

/-- The fields of the layout `Unpk` in the word `w`. -/
def unpackUnpk (w : Nat) (px : Option AluPx) : Unpk :=
  { vd := fld w 15 7, va := fld w 8 7, w := fld w 4 4, sx := flag w 3, st := fld w 0 2, px := px }

/-- The fields of the layout `Sclx` in the word `w`. -/
def unpackSclx (w : Nat) (px : Option AluPx) : Sclx :=
  { vd := fld w 15 7, va := fld w 8 7, dty := fld w 4 4, dir := flag w 3, st := fld w 0 2, px := px }

/-- The fields of the layout `Psrd` in the word `w`. -/
def unpackPsrd (w : Nat) : Psrd :=
  { sd := fld w 15 6, idx := fld w 2 10, st := fld w 0 2 }

/-- The fields of the layout `Pswr` in the word `w`. -/
def unpackPswr (w : Nat) : Pswr :=
  { sa := fld w 15 6, idx := fld w 2 10, st := fld w 0 2 }

/-- The fields of the layout `SysA` in the word `w`. -/
def unpackSysA (w : Nat) : SysA :=
  { sa := fld w 15 6, st := fld w 0 2 }

/-- The fields of the layout `SysDAB` in the word `w`. -/
def unpackSysDAB (w : Nat) : SysDAB :=
  { sd := fld w 15 6, sa := fld w 9 6, sb := fld w 3 6, st := fld w 0 2 }

/-- V3 words (R27, R51): the instruction a word of this class stands for, before the checks of `staticIll`. -/
def decodeV3 (w : Nat) (px : Option AluPx) : Option Instr :=
  match w / 2 ^ 23 % 128 with
  | 0 => some (.iadd (unpackV3 w px))
  | 1 => some (.isub (unpackV3 w px))
  | 2 => some (.imul (unpackV3 w px))
  | 3 => some (.imulh (unpackV3 w px))
  | 4 => some (.imulhu (unpackV3 w px))
  | 5 => some (.iand (unpackV3 w px))
  | 6 => some (.ior (unpackV3 w px))
  | 7 => some (.ixor (unpackV3 w px))
  | 8 => some (.ishl (unpackV3 w px))
  | 9 => some (.ishr (unpackV3 w px))
  | 10 => some (.isra (unpackV3 w px))
  | 11 => some (.imin (unpackV3 w px))
  | 12 => some (.imax (unpackV3 w px))
  | 13 => some (.iminu (unpackV3 w px))
  | 14 => some (.imaxu (unpackV3 w px))
  | 15 => some (.iaddsat (unpackV3 w px))
  | 16 => some (.isubsat (unpackV3 w px))
  | 17 => (unpackV3Cmp w px).map .icmp
  | 18 => (unpackV3Cmp w px).map .icmpu
  | 19 => some (.vsel (unpackV3 w px))
  | 20 => if w / 2 ^ 9 % 128 = 0 then some (.vmov (unpackV3Mov w px)) else none
  | 21 => if w / 2 ^ 2 % 128 = 0 then some (.ipopc (unpackV3Un w px)) else none
  | 22 => if w / 2 ^ 2 % 128 = 0 then some (.iclz (unpackV3Un w px)) else none
  | 23 => if w / 2 ^ 2 % 128 = 0 then some (.ibrev (unpackV3Un w px)) else none
  | 24 => some (.idot4 (unpackV3 w px))
  | 25 => some (.iabsdiff (unpackV3 w px))
  | 32 => some (.fadd (unpackV3 w px))
  | 33 => some (.fsub (unpackV3 w px))
  | 34 => some (.fmul (unpackV3 w px))
  | 35 => some (.ffma (unpackV3 w px))
  | 36 => some (.fmin (unpackV3 w px))
  | 37 => some (.fmax (unpackV3 w px))
  | 38 => if w / 2 ^ 2 % 128 = 0 then some (.fabs (unpackV3Un w px)) else none
  | 39 => if w / 2 ^ 2 % 128 = 0 then some (.fneg (unpackV3Un w px)) else none
  | 40 => if w / 2 ^ 2 % 128 = 0 then some (.fclass (unpackV3Un w px)) else none
  | 41 => some (.fscale (unpackV3 w px))
  | 42 => (unpackV3Cmp w px).map .fcmp
  | 43 => some (.fdot2 (unpackV3 w px))
  | 44 => if w / 2 ^ 2 % 128 = 0 then some (.fround (unpackV3Un w px)) else none
  | 64 => some (.twosum (unpackV3 w px))
  | 65 => some (.fastsum (unpackV3 w px))
  | 66 => some (.twodiff (unpackV3 w px))
  | 67 => some (.twoprod (unpackV3 w px))
  | 68 => some (.errfma (unpackV3 w px))
  | 69 => some (.xadd (unpackV3 w px))
  | 70 => some (.xsub (unpackV3 w px))
  | 71 => some (.xmul (unpackV3 w px))
  | 72 => some (.xmulw (unpackV3 w px))
  | 73 => some (.xfmaw (unpackV3 w px))
  | 74 => if w / 2 ^ 2 % 128 = 0 then some (.xrenorm (unpackV3Un w px)) else none
  | 75 => if w / 2 ^ 2 % 128 = 0 then some (.xcompress (unpackV3Un w px)) else none
  | 76 => (unpackV3Cmp w px).map .xcmp
  | 77 => if w / 2 ^ 2 % 128 = 0 then some (.xneg (unpackV3Un w px)) else none
  | 78 => if w / 2 ^ 2 % 128 = 0 then some (.xsplit (unpackV3Un w px)) else none
  | 79 => if w / 2 ^ 2 % 128 = 0 then some (.xround (unpackV3Un w px)) else if w / 2 ^ 2 % 128 = 7 then some (.xroundF32 (unpackV3Un w px)) else none
  | _ => none

/-- VU words (R29, R52): the instruction a word of this class stands for, before the checks of `staticIll`. -/
def decodeVU (w : Nat) (px : Option AluPx) : Option Instr :=
  match w / 2 ^ 24 % 64 with
  | 0 => (unpackVU w px).map .iaddVu
  | 1 => (unpackVU w px).map .isubVu
  | 2 => (unpackVU w px).map .imulVu
  | 3 => (unpackVU w px).map .imulhVu
  | 4 => (unpackVU w px).map .imulhuVu
  | 5 => (unpackVU w px).map .iandVu
  | 6 => (unpackVU w px).map .iorVu
  | 7 => (unpackVU w px).map .ixorVu
  | 8 => (unpackVU w px).map .ishlVu
  | 9 => (unpackVU w px).map .ishrVu
  | 10 => (unpackVU w px).map .israVu
  | 11 => (unpackVU w px).map .iminVu
  | 12 => (unpackVU w px).map .imaxVu
  | 13 => (unpackVU w px).map .iminuVu
  | 14 => (unpackVU w px).map .imaxuVu
  | 15 => (unpackVU w px).map .iaddsatVu
  | 16 => (unpackVU w px).map .isubsatVu
  | 17 => (unpackVUCmp w px).map .icmpVu
  | 18 => (unpackVUCmp w px).map .icmpuVu
  | 19 => (unpackVU w px).map .vselVu
  | 20 => if w / 2 ^ 10 % 128 = 0 then (unpackVUMov w px).map .vmovVu else none
  | 24 => (unpackVU w px).map .idot4Vu
  | 25 => (unpackVU w px).map .iabsdiffVu
  | 32 => (unpackVU w px).map .faddVu
  | 33 => (unpackVU w px).map .fsubVu
  | 34 => (unpackVU w px).map .fmulVu
  | 35 => (unpackVU w px).map .ffmaVu
  | 36 => (unpackVU w px).map .fminVu
  | 37 => (unpackVU w px).map .fmaxVu
  | 41 => (unpackVU w px).map .fscaleVu
  | 42 => (unpackVUCmp w px).map .fcmpVu
  | 43 => (unpackVU w px).map .fdot2Vu
  | _ => none

/-- S words (R30, R31, R53): the instruction a word of this class stands for, before the checks of `staticIll`. -/
def decodeS (w : Nat) : Option Instr :=
  match w / 2 ^ 24 % 64 with
  | 0 => (unpackS3 w).map .sadd
  | 1 => (unpackS3 w).map .ssub
  | 2 => (unpackS3 w).map .smul
  | 3 => (unpackS3 w).map .smulh
  | 4 => (unpackS3 w).map .sand
  | 5 => (unpackS3 w).map .sor
  | 6 => (unpackS3 w).map .sxor
  | 7 => (unpackS3 w).map .sshl
  | 8 => (unpackS3 w).map .sshr
  | 9 => (unpackS3 w).map .ssra
  | 10 => (unpackS3 w).map .smin
  | 11 => (unpackS3 w).map .smax
  | 12 => (unpackS3 w).map .sminu
  | 13 => (unpackS3 w).map .smaxu
  | 14 => if w / 2 ^ 12 % 64 = 0 then (unpackSMov w).map .smov else none
  | 15 => (unpackS3 w).map .ssel
  | 16 => if w / 2 ^ 18 % 64 = 0 then (unpackSCmp w).map .scmp else none
  | 17 => if w / 2 ^ 18 % 64 = 0 then (unpackSCmp w).map .scmpu else none
  | 18 => if w / 2 ^ 18 % 64 = 0 then (unpackSCmp w).map .stest else none
  | 19 => (unpackS3 w).map .sbfe
  | 20 => (unpackS3 w).map .sbfi
  | 21 => if w / 2 ^ 2 % 1024 = 0 then some (.spopc (unpackSUn w)) else none
  | 22 => if w / 2 ^ 2 % 1024 = 0 then some (.sffs (unpackSUn w)) else none
  | 23 => (unpackS3 w).map .saddc
  | 24 => (unpackS3 w).map .sfadd
  | 25 => (unpackS3 w).map .sfmul
  | 26 => (unpackS3 w).map .sffma
  | 27 => if w / 2 ^ 18 % 64 = 0 then (unpackSCmp w).map .sfcmp else none
  | 28 => if w / 2 ^ 6 % 64 = 0 then some (.sfcvt (unpackSCvt w)) else none
  | 32 => some (.br (unpackBr w))
  | 33 => some (.brz (unpackBr w))
  | 34 => some (.brnz (unpackBr w))
  | 35 => some (.brlt (unpackBr w))
  | 36 => some (.brge (unpackBr w))
  | 37 => some (.brltu (unpackBr w))
  | 38 => some (.brgeu (unpackBr w))
  | 39 => some (.brpz (unpackBrP w))
  | 40 => some (.brpnz (unpackBrP w))
  | 41 => some (.brpall (unpackBrP w))
  | 42 => some (.call (unpackBr w))
  | 43 => if w / 2 ^ 2 % 4194304 = 0 then some (.ret (unpackBare w)) else none
  | 44 => if w / 2 ^ 2 % 1024 = 0 ∧ w / 2 ^ 18 % 64 = 0 then some (.jmp (unpackJmp w)) else none
  | 45 => some (.adr (unpackAdr w))
  | 48 => if w / 2 ^ 12 % 64 = 0 then some (.rdsr (unpackRdsr w)) else none
  | 49 => if w / 2 ^ 18 % 64 = 0 then some (.wrsr (unpackWrsr w)) else none
  | 50 => some (.setmode (unpackSetM w))
  | _ => none

/-- VMEM words (R32, R260): the instruction a word of this class stands for, before the checks of `staticIll`. -/
noncomputable def decodeVmem (w : Nat) (px : Option MemPx) : Option Instr :=
  match w / 2 ^ 22 % 16 with
  | 0 => some (.ldB (unpackVmem w px))
  | 1 => some (.ldBs (unpackVmem w px))
  | 2 => some (.ldH (unpackVmem w px))
  | 3 => some (.ldHs (unpackVmem w px))
  | 4 => some (.ldW (unpackVmem w px))
  | 5 => some (.ldW2 (unpackVmem w px))
  | 6 => some (.ldW4 (unpackVmem w px))
  | 7 => some (.stB (unpackVmem w px))
  | 8 => some (.stH (unpackVmem w px))
  | 9 => some (.stW (unpackVmem w px))
  | 10 => some (.stW2 (unpackVmem w px))
  | 11 => some (.stW4 (unpackVmem w px))
  | 12 => if w / 2 ^ 7 % 2 = 1 then some (.ldt (unpackLdt w px)) else none
  | 13 => some (.ldx (unpackVmem w px))
  | 14 => some (.stx (unpackVmem w px))
  | 15 => if w / 2 ^ 15 % 128 = 0 then some (.pfl (unpackPfl w px)) else none
  | _ => none

/-- SMEM words (R32, R267): the instruction a word of this class stands for, before the checks of `staticIll`. -/
noncomputable def decodeSmem (w : Nat) (px : Option MemPx) : Option Instr :=
  match w / 2 ^ 22 % 16 with
  | 0 => some (.sldW (unpackSmem w px))
  | 1 => some (.sldW2 (unpackSmem w px))
  | 2 => some (.sldW4 (unpackSmem w px))
  | 3 => some (.sldW8 (unpackSmem w px))
  | 4 => some (.sstW (unpackSmem w px))
  | 5 => some (.sstW2 (unpackSmem w px))
  | 6 => some (.sstW4 (unpackSmem w px))
  | 7 => some (.swaitl (unpackSmem w px))
  | 8 => some (.satadd (unpackSmem w px))
  | 9 => some (.satcas (unpackSmem w px))
  | _ => none

/-- ATOM words (R32, R309): the instruction a word of this class stands for, before the checks of `staticIll`. -/
noncomputable def decodeAtom (w : Nat) (px : Option MemPx) : Option Instr :=
  match w / 2 ^ 21 % 32 with
  | 0 => some (.aadd (unpackAtom w px))
  | 1 => some (.asub (unpackAtom w px))
  | 2 => some (.aand (unpackAtom w px))
  | 3 => some (.aor (unpackAtom w px))
  | 4 => some (.axor (unpackAtom w px))
  | 5 => some (.amin (unpackAtom w px))
  | 6 => some (.atomicAmax (unpackAtom w px))
  | 7 => some (.aminu (unpackAtom w px))
  | 8 => some (.amaxu (unpackAtom w px))
  | 9 => some (.axchg (unpackAtom w px))
  | 10 => some (.acas (unpackAtom w px))
  | 11 => some (.aincw (unpackAtom w px))
  | 12 => some (.afadd (unpackAtom w px))
  | 13 => some (.afadd2 (unpackAtom w px))
  | 14 => some (.afmin (unpackAtom w px))
  | 15 => some (.afmax (unpackAtom w px))
  | 16 => some (.aaddc (unpackAtom w px))
  | _ => none

/-- MATRIX words (R240): the instruction a word of this class stands for, before the checks of `staticIll`. -/
noncomputable def decodeMatrix (w : Nat) (px : Option MatPx) : Option Instr :=
  match w / 2 ^ 21 % 32 with
  | 0 => if w / 2 ^ 2 % 2 = 0 then some (.mma (unpackMma w px)) else none
  | 1 => if w / 2 ^ 2 % 2 = 0 then some (.mmag (unpackMmag w px)) else none
  | 2 => if w / 2 ^ 2 % 2 = 0 then some (.mmas (unpackMmas w px)) else none
  | 3 => if w / 2 ^ 2 % 65536 = 0 then some (.accz (unpackAccOp w px)) else none
  | 4 => if w / 2 ^ 2 % 2048 = 0 then some (.accld (unpackAccld w px)) else none
  | 5 => if w / 2 ^ 2 % 2 = 0 ∧ w / 2 ^ 10 % 16 = 0 then some (.drain (unpackDrain w px)) else none
  | 6 => if w / 2 ^ 2 % 2 = 0 then some (.draint (unpackMmas w px)) else none
  | 7 => if w / 2 ^ 2 % 2048 = 0 then some (.tld (unpackTld w px)) else none
  | 8 => if w / 2 ^ 2 % 1024 = 0 then some (.tldt (unpackTldt w px)) else none
  | 9 => if w / 2 ^ 2 % 16 = 0 then some (.tldg (unpackTldg w px)) else none
  | 10 => if w / 2 ^ 2 % 32768 = 0 then some (.tzero (unpackTzero w px)) else none
  | 11 => if w / 2 ^ 2 % 1024 = 0 then some (.matrixAmax (unpackMAmax w px)) else none
  | 12 => if w / 2 ^ 2 % 16 = 0 then some (.accrd (unpackAccRow w px)) else none
  | 13 => if w / 2 ^ 2 % 16 = 0 then some (.accwr (unpackAccRow w px)) else none
  | 14 => if w / 2 ^ 2 % 65536 = 0 then some (.accfold (unpackAccOp w px)) else none
  | _ => none

/-- COPY words (R288): the instruction a word of this class stands for, before the checks of `staticIll`. -/
noncomputable def decodeCopy (w : Nat) (px : Option MatPx) : Option Instr :=
  match w / 2 ^ 22 % 16 with
  | 0 => if w / 2 ^ 2 % 8 = 0 then some (.cpy (unpackCpy w px)) else none
  | 1 => if w / 2 ^ 2 % 8 = 0 then some (.cpyt (unpackCpy w px)) else none
  | 2 => if w / 2 ^ 2 % 8 = 0 then some (.cpyg (unpackCpy w px)) else none
  | 3 => if w / 2 ^ 2 % 8 = 0 then some (.cpys (unpackCpy w px)) else none
  | 4 => if w / 2 ^ 2 % 8 = 0 then some (.cpyq (unpackCpy w px)) else none
  | 5 => if w / 2 ^ 2 % 8 = 0 ∧ w / 2 ^ 11 % 256 = 0 then some (.cpyx (unpackCpyx w px)) else none
  | 6 => if w / 2 ^ 2 % 8 = 0 ∧ w / 2 ^ 17 % 32 = 0 then some (.cstat (unpackCTag w px)) else none
  | 7 => if w / 2 ^ 2 % 8 = 0 ∧ w / 2 ^ 17 % 32 = 0 then some (.ccancel (unpackCTag w px)) else none
  | _ => none

/-- FABRIC words (R325): the instruction a word of this class stands for, before the checks of `staticIll`. -/
noncomputable def decodeFabric (w : Nat) (px : Option MemPx) : Option Instr :=
  match w / 2 ^ 22 % 16 with
  | 0 => if w / 2 ^ 3 % 16 = 0 then some (.rld (unpackRld w px)) else none
  | 1 => if w / 2 ^ 3 % 16 = 0 then some (.rst (unpackRst w px)) else none
  | 2 => some (.ratom (unpackRatom w px))
  | 3 => if w / 2 ^ 3 % 16 = 0 then some (.rstv (unpackRstv w px)) else none
  | 4 => if w / 2 ^ 2 % 32 = 0 ∧ w / 2 ^ 15 % 128 = 0 then some (.xfer (unpackXfer w px)) else none
  | 5 => if w / 2 ^ 2 % 32 = 0 ∧ w / 2 ^ 15 % 128 = 0 then some (.rfence (unpackRfence w px)) else none
  | 6 => if w / 2 ^ 2 % 32 = 1 then some (.xredFirst (unpackXred w px)) else if w / 2 ^ 2 % 32 = 0 then some (.xredMid (unpackXred w px)) else if w / 2 ^ 2 % 8192 = 2 then some (.xredLast (unpackXredLast w px)) else none
  | 7 => if w / 2 ^ 7 % 256 = 0 then some (.hold (unpackHold w px)) else none
  | 8 => if w / 2 ^ 2 % 128 = 0 ∧ w / 2 ^ 15 % 128 = 0 then some (.seatget (unpackSeatGet w px)) else none
  | 9 => if w / 2 ^ 2 % 1048576 = 0 then some (.seatfree (unpackFBare w px)) else none
  | 10 => if w / 2 ^ 2 % 32 = 0 ∧ w / 2 ^ 15 % 128 = 0 then some (.rstat (unpackRstat w px)) else if w / 2 ^ 2 % 32 = 1 ∧ w / 2 ^ 15 % 128 = 0 then some (.rstatClr (unpackRstat w px)) else none
  | 11 => if w / 2 ^ 2 % 128 = 0 ∧ w / 2 ^ 15 % 128 = 0 then some (.rresume (unpackRresume w px)) else if w / 2 ^ 2 % 128 = 1 ∧ w / 2 ^ 15 % 128 = 0 then some (.rresumeFail (unpackRresume w px)) else none
  | 12 => if w / 2 ^ 2 % 128 = 0 ∧ w / 2 ^ 15 % 128 = 0 then some (.rankmap (unpackRankmap w px)) else if w / 2 ^ 2 % 128 = 1 ∧ w / 2 ^ 15 % 128 = 0 then some (.rankmapRd (unpackRankmap w px)) else none
  | _ => none

/-- SYNC words (R79, R54): the instruction a word of this class stands for, before the checks of `staticIll`. -/
noncomputable def decodeSync (w : Nat) : Option Instr :=
  match w / 2 ^ 21 % 32 with
  | 0 => if w / 2 ^ 2 % 524288 = 0 then some (.nop (unpackBare w)) else none
  | 1 => if w / 2 ^ 3 % 128 = 0 then (if w / 2 ^ 16 % 32 = 28 then some (.waitAll (unpackWaitAll w)) else some (.wait (unpackWait w))) else none
  | 2 => some (.fork (unpackFork w))
  | 3 => if w / 2 ^ 2 % 524288 = 0 then some (.join (unpackBare w)) else none
  | 4 => some (.draw (unpackDraw w))
  | 5 => if w / 2 ^ 10 % 2048 = 0 then some (.safe (unpackSafe w)) else none
  | 6 => if w / 2 ^ 2 % 524288 = 0 then some (.yield (unpackBare w)) else none
  | 7 => some (.yieldc (unpackFork w))
  | 8 => if w / 2 ^ 18 % 8 = 0 then some (.sleep (unpackSleep w)) else none
  | 9 => if w / 2 ^ 2 % 65536 = 0 then some (.bar (unpackBar w)) else none
  | 10 => if w / 2 ^ 2 % 524288 = 0 then some (.cbar (unpackBare w)) else none
  | 11 => if w / 2 ^ 2 % 524288 = 0 then some (.exit_ (unpackBare w)) else none
  | 12 => if w / 2 ^ 2 % 512 = 0 then some (.launch (unpackLaunch w)) else none
  | 13 => if w / 2 ^ 2 % 128 = 0 then some (.cwait (unpackSysDA w)) else none
  | 14 => if w / 2 ^ 2 % 4 = 3 then some (.rpush (unpackRpush w)) else if w / 2 ^ 2 % 256 = 2 then some (.rpushPub (unpackRpushPub w)) else if w / 2 ^ 2 % 4 = 1 then some (.rpushClaim (unpackRpush w)) else none
  | 15 => if w / 2 ^ 2 % 4 = 3 ∧ w / 2 ^ 10 % 32 = 0 then some (.rpop (unpackRpop w)) else if w / 2 ^ 2 % 8192 = 2 then some (.rpopRel (unpackRpopRel w)) else if w / 2 ^ 2 % 4 = 1 ∧ w / 2 ^ 10 % 32 = 0 then some (.rpopTake (unpackRpop w)) else none
  | 16 => if w / 2 ^ 2 % 128 = 0 then some (.potset (unpackSysAB w)) else none
  | 17 => if w / 2 ^ 3 % 64 = 0 then some (.potwait (unpackPotwait w)) else none
  | 18 => if w / 2 ^ 18 % 8 = 0 then some (.sigchk (unpackImm16 w)) else none
  | 19 => if w / 2 ^ 18 % 8 = 0 then some (.trap (unpackImm16 w)) else none
  | 20 => if w / 2 ^ 2 % 16384 = 0 then some (.fence (unpackFence w)) else none
  | _ => none

/-- CROSS words (R223): the instruction a word of this class stands for, before the checks of `staticIll`. -/
noncomputable def decodeCross (w : Nat) (px : Option AluPx) : Option Instr :=
  match w / 2 ^ 22 % 16 with
  | 0 => some (.shfl (unpackShfl w px))
  | 1 => some (.lred (unpackLred w px))
  | 2 => if w / 2 ^ 2 % 2 = 0 then some (.lscan (unpackLscan w px)) else none
  | 3 => if w / 2 ^ 2 % 16 = 0 then some (.vote (unpackVote w px)) else none
  | 4 => some (.bcast (unpackBcast w px))
  | 5 => if w / 2 ^ 21 % 2 = 0 then some (.rdlane (unpackRdlane w px)) else none
  | 6 => if w / 2 ^ 8 % 128 = 0 then some (.lanes (unpackLanesF w px)) else none
  | 7 => if w / 2 ^ 11 % 16 = 0 ∧ w / 2 ^ 18 % 16 = 0 then some (.pop (unpackPop w px)) else none
  | 8 => some (.pmov (unpackPmov w px))
  | 9 => if w / 2 ^ 2 % 64 = 0 then some (.perm (unpackPerm w px)) else none
  | _ => none

/-- SFU words (R215): the instruction a word of this class stands for, before the checks of `staticIll`. -/
noncomputable def decodeSfu (w : Nat) (px : Option AluPx) : Option Instr :=
  match w / 2 ^ 21 % 32 with
  | 0 => if w / 2 ^ 2 % 32 = 0 then some (.frcp (unpackSfu w px)) else none
  | 1 => if w / 2 ^ 2 % 32 = 0 then some (.frsqrt (unpackSfu w px)) else none
  | 2 => if w / 2 ^ 2 % 32 = 0 then some (.fsqrt (unpackSfu w px)) else none
  | 3 => if w / 2 ^ 2 % 32 = 0 then some (.fexp2 (unpackSfu w px)) else none
  | 4 => if w / 2 ^ 2 % 32 = 0 then some (.flog2 (unpackSfu w px)) else none
  | 5 => if w / 2 ^ 2 % 32 = 0 then some (.fsinpi (unpackSfu w px)) else none
  | 6 => if w / 2 ^ 2 % 32 = 0 then some (.fcospi (unpackSfu w px)) else none
  | 7 => if w / 2 ^ 2 % 32 = 0 then some (.ftanh (unpackSfu w px)) else none
  | 8 => if w / 2 ^ 2 % 32 = 0 then some (.fsigm (unpackSfu w px)) else none
  | 9 => if w / 2 ^ 2 % 32 = 0 then some (.fgelu (unpackSfu w px)) else none
  | 10 => if w / 2 ^ 2 % 32 = 0 then some (.fsilu (unpackSfu w px)) else none
  | 11 => if w / 2 ^ 2 % 32 = 0 then some (.fsoftp (unpackSfu w px)) else none
  | _ => none

/-- CONVERT words (R187): the instruction a word of this class stands for, before the checks of `staticIll`. -/
noncomputable def decodeConvert (w : Nat) (px : Option AluPx) : Option Instr :=
  match w / 2 ^ 22 % 16 with
  | 0 => if w / 2 ^ 2 % 4 = 0 then some (.fcvt (unpackCvt w px)) else none
  | 1 => if w / 2 ^ 2 % 4 = 0 then some (.fcvti (unpackCvt w px)) else none
  | 2 => if w / 2 ^ 2 % 4 = 0 then some (.icvtf (unpackCvt w px)) else none
  | 3 => if w / 2 ^ 2 % 4 = 0 then some (.bfpk (unpackBfp w px)) else none
  | 4 => if w / 2 ^ 2 % 4 = 0 then some (.bfpu (unpackBfp w px)) else none
  | 5 => if w / 2 ^ 2 % 2 = 0 then some (.unpk (unpackUnpk w px)) else none
  | 6 => if w / 2 ^ 2 % 2 = 0 then some (.sclx (unpackSclx w px)) else none
  | _ => none

/-- SYSTEM words (R54, R370): the instruction a word of this class stands for, before the checks of `staticIll`. -/
noncomputable def decodeSystem (w : Nat) : Option Instr :=
  match w / 2 ^ 21 % 32 with
  | 0 => if w / 2 ^ 12 % 8 = 0 then some (.psrd (unpackPsrd w)) else none
  | 1 => if w / 2 ^ 12 % 8 = 0 then some (.pswr (unpackPswr w)) else none
  | 2 => if w / 2 ^ 2 % 8192 = 0 then some (.ovtld (unpackSysA w)) else none
  | 3 => if w / 2 ^ 2 % 524288 = 0 then some (.rfe (unpackBare w)) else if w / 2 ^ 2 % 524288 = 1 then some (.rfeNext (unpackBare w)) else if w / 2 ^ 2 % 8192 = 2 then some (.rfePark (unpackSysA w)) else none
  | 4 => if w / 2 ^ 2 % 2 = 0 then some (.ctxsv (unpackSysDAB w)) else none
  | 5 => if w / 2 ^ 2 % 128 = 0 then some (.ctxld (unpackSysDA w)) else none
  | 6 => if w / 2 ^ 2 % 128 = 0 then some (.pgmap (unpackSysDA w)) else none
  | 7 => if w / 2 ^ 2 % 128 = 0 then some (.pgpoolAdd (unpackSysDA w)) else if w / 2 ^ 2 % 128 = 1 then some (.pgpoolRem (unpackSysDA w)) else if w / 2 ^ 2 % 128 = 2 then some (.pgpoolCnt (unpackSysDA w)) else none
  | 8 => if w / 2 ^ 2 % 2 = 0 then some (.keyld (unpackSysDAB w)) else none
  | 9 => if w / 2 ^ 2 % 128 = 0 then some (.halt (unpackSysDA w)) else none
  | 10 => if w / 2 ^ 2 % 128 = 0 then some (.xlat (unpackSysDA w)) else none
  | 11 => if w / 2 ^ 2 % 128 = 0 then some (.placeTo (unpackSysAB w)) else if w / 2 ^ 2 % 8192 = 1 then some (.placeHere (unpackSysA w)) else if w / 2 ^ 2 % 8192 = 2 then some (.placeReset (unpackSysA w)) else none
  | 12 => if w / 2 ^ 2 % 2 = 0 then some (.dupset (unpackSysDAB w)) else none
  | 13 => if w / 2 ^ 2 % 8192 = 0 then some (.sigset (unpackSysA w)) else none
  | 14 => if w / 2 ^ 2 % 128 = 0 then some (.killg (unpackSysDA w)) else none
  | _ => none

/-- A prefix word in the ALU interpretation (R35). -/
def aluPxOf (w : Nat) : AluPx :=
  { mask := fld w 23 3, inv := flag w 22, zero := flag w 21, rnd := fld w 18 3, ty := fld w 14 4,
    kind4 := fld w 12 2, op4 := fld w 5 7, xw := fld w 2 3 }

/-- A prefix word in the memory interpretation (R37); bit 2 must be 0. -/
def memPxOf (w : Nat) : Option MemPx :=
  if w / 4 % 2 = 0 then some { scope := fld w 23 3, imm := fld w 7 16, mask := fld w 4 3, inv := flag w 3 }
  else none

/-- A prefix word in the matrix and copy interpretation (R38); [9:2] must be 0. -/
def matPxOf (w : Nat) : Option MatPx :=
  if w / 4 % 256 = 0 then some { imm := fld w 10 16 } else none

/-- A LIMM word and its literal (R32, R147): [17:2] must be 0, and bit 24 for a uniform destination. -/
noncomputable def decodeLimm (w lit : Nat) : Option Instr :=
  if w / 4 % 65536 = 0 then
    if w / 2 ^ 25 % 2 = 0 then
      some (.movi { dst := .v (fld w 18 7), lit := BitVec.ofNat 32 lit, st := fld w 0 2 })
    else if w / 2 ^ 24 % 2 = 0 then
      some (.movi { dst := .u (fld w 18 6), lit := BitVec.ofNat 32 lit, st := fld w 0 2 })
    else none
  else none

/-- The sub-class of an X word (R32). -/
def subClass (w : Nat) : Nat := w / 2 ^ 26 % 16

/-- Whether a word is a PREFIX word (R32). -/
def isPrefixWord (w : Nat) : Bool := w / 2 ^ 30 % 4 == 3 && subClass w == 0

/-- Whether a word is a LIMM word (R32). -/
def isLimmWord (w : Nat) : Bool := w / 2 ^ 30 % 4 == 3 && subClass w == 1

/-- An X word that is neither PREFIX nor LIMM, without a prefix. -/
noncomputable def decodeX (w : Nat) : Option Instr :=
  match subClass w with
  | 2 => decodeVmem w none
  | 3 => decodeSmem w none
  | 4 => decodeAtom w none
  | 5 => decodeMatrix w none
  | 6 => decodeCopy w none
  | 7 => decodeFabric w none
  | 8 => decodeSync w
  | 9 => decodeCross w none
  | 10 => decodeSfu w none
  | 11 => decodeConvert w none
  | 12 => decodeSystem w
  | _ => none

/-- A word that is neither a PREFIX nor a LIMM word, without a prefix (R26). -/
noncomputable def decodePlain (w : Nat) : Option Instr :=
  match w / 2 ^ 30 % 4 with
  | 0 => decodeV3 w none
  | 1 => decodeVU w none
  | 2 => decodeS w
  | _ => decodeX w

/-- Whether the class of a word accepts a prefix (R34). -/
def takesPrefix (w : Nat) : Bool :=
  match w / 2 ^ 30 % 4 with
  | 0 => true
  | 1 => true
  | 2 => false
  | _ => (2 ≤ subClass w && subClass w ≤ 7) || (9 ≤ subClass w && subClass w ≤ 11)

/-- A word under the prefix word `p`, in the interpretation its class selects (R34). -/
noncomputable def decodePrefixed (p w : Nat) : Option Instr :=
  match w / 2 ^ 30 % 4 with
  | 0 => decodeV3 w (some (aluPxOf p))
  | 1 => decodeVU w (some (aluPxOf p))
  | 2 => none
  | _ =>
    match subClass w with
    | 2 => (memPxOf p).bind fun q => decodeVmem w (some q)
    | 3 => (memPxOf p).bind fun q => decodeSmem w (some q)
    | 4 => (memPxOf p).bind fun q => decodeAtom w (some q)
    | 5 => (matPxOf p).bind fun q => decodeMatrix w (some q)
    | 6 => (matPxOf p).bind fun q => decodeCopy w (some q)
    | 7 => (memPxOf p).bind fun q => decodeFabric w (some q)
    | 9 => decodeCross w (some (aluPxOf p))
    | 10 => decodeSfu w (some (aluPxOf p))
    | 11 => decodeConvert w (some (aluPxOf p))
    | _ => none

/-- An instruction that also passes the checks of R57 that its fields decide. -/
def checked (i : Option Instr) : Except DecodeReject Instr :=
  match i with
  | some j => if Machine.staticIll j then .error .undefinedEncoding else .ok j
  | none => .error .undefinedEncoding

/-- The number of words of the instruction that starts with the word `w` (R33). -/
def wordCount (w : Nat) : Nat := if isPrefixWord w || isLimmWord w then 2 else 1

/-- The instruction that the words `w0` and, for a pair, `w1` stand for (R26 to R58 step 4). -/
noncomputable def decode (w0 w1 : Nat) : Except DecodeReject Instr :=
  if isPrefixWord w0 then
    if w0 % 4 ≠ 0 then .error .prefixStall
    else if isPrefixWord w1 then .error .prefixPair
    else if takesPrefix w1 then checked (decodePrefixed w0 w1)
    else
      match checked (if isLimmWord w1 then decodeLimm w1 0 else decodePlain w1) with
      | .ok _ => .error .prefixRefused
      | .error e => .error e
  else if isLimmWord w0 then checked (decodeLimm w0 w1)
  else checked (decodePlain w0)

/-- The instruction read from a table row's word numbered as the opcode table numbers it: the first word
is the lowest 32 bits, and every bit above `nbits` is 0. -/
noncomputable def decodeTableWord (nbits w : Nat) : Option Instr :=
  let v := w % 2 ^ nbits
  match decode (v % 2 ^ 32) (v / 2 ^ 32 % 2 ^ 32) with
  | .ok i => some i
  | .error _ => none

/-- The bits [9:2] of a VU word (R29), as a number at bit 2's place. -/
def vsrcBits (s : VSrc) : Nat :=
  match s with
  | .u r => r.toNat
  | .imm i => i.toNat + 128

/-- The bits [11:2] of an S word (R30). -/
def ssrcBits (s : SSrc) : Nat :=
  match s with
  | .r r => r.toNat
  | .imm i => i.toNat + 512

/-- The LIMM word of a `movi` (R32). -/
def limmWord (f : Movi) : Nat :=
  match f.dst with
  | .v r => 0xC4000000 + r.toNat * 2 ^ 18 + f.st.toNat
  | .u r => 0xC6000000 + r.toNat * 2 ^ 18 + f.st.toNat

/-- A prefix word of the ALU interpretation (R35). -/
def aluPxWord (p : AluPx) : Nat :=
  0xC0000000 + p.mask.toNat * 2 ^ 23 + p.inv.toNat * 2 ^ 22 + p.zero.toNat * 2 ^ 21 + p.rnd.toNat * 2 ^ 18
    + p.ty.toNat * 2 ^ 14 + p.kind4.toNat * 2 ^ 12 + p.op4.toNat * 2 ^ 5 + p.xw.toNat * 2 ^ 2

/-- A prefix word of the memory interpretation (R37). -/
def memPxWord (p : MemPx) : Nat :=
  0xC0000000 + p.scope.toNat * 2 ^ 23 + p.imm.toNat * 2 ^ 7 + p.mask.toNat * 2 ^ 4 + p.inv.toNat * 2 ^ 3

/-- A prefix word of the matrix and copy interpretation (R38). -/
def matPxWord (p : MatPx) : Nat := 0xC0000000 + p.imm.toNat * 2 ^ 10

/-- The word with the opcode bits `base` and the fields `f` of the layout `V3`. -/
def packV3 (base : Nat) (f : V3) : Nat :=
  base + f.vd.toNat * 65536 + f.va.toNat * 512 + f.vb.toNat * 4 + f.st.toNat

/-- The word with the opcode bits `base` and the fields `f` of the layout `VU`. -/
def packVU (base : Nat) (f : VU) : Nat :=
  base + f.vd.toNat * 131072 + f.va.toNat * 1024 + vsrcBits f.src * 4 + f.st.toNat

/-- The word with the opcode bits `base` and the fields `f` of the layout `V3Cmp`. -/
def packV3Cmp (base : Nat) (f : V3Cmp) : Nat :=
  base + Machine.condCode f.cond * 524288 + f.pd.toNat * 65536 + f.va.toNat * 512 + f.vb.toNat * 4 + f.st.toNat

/-- The word with the opcode bits `base` and the fields `f` of the layout `VUCmp`. -/
def packVUCmp (base : Nat) (f : VUCmp) : Nat :=
  base + Machine.condCode f.cond * 1048576 + f.pd.toNat * 131072 + f.va.toNat * 1024 + vsrcBits f.src * 4 + f.st.toNat

/-- The word with the opcode bits `base` and the fields `f` of the layout `V3Mov`. -/
def packV3Mov (base : Nat) (f : V3Mov) : Nat :=
  base + f.vd.toNat * 65536 + f.vb.toNat * 4 + f.st.toNat

/-- The word with the opcode bits `base` and the fields `f` of the layout `VUMov`. -/
def packVUMov (base : Nat) (f : VUMov) : Nat :=
  base + f.vd.toNat * 131072 + vsrcBits f.src * 4 + f.st.toNat

/-- The word with the opcode bits `base` and the fields `f` of the layout `V3Un`. -/
def packV3Un (base : Nat) (f : V3Un) : Nat :=
  base + f.vd.toNat * 65536 + f.va.toNat * 512 + f.st.toNat

/-- The word with the opcode bits `base` and the fields `f` of the layout `S3`. -/
def packS3 (base : Nat) (f : S3) : Nat :=
  base + f.sd.toNat * 262144 + f.sa.toNat * 4096 + ssrcBits f.src * 4 + f.st.toNat

/-- The word with the opcode bits `base` and the fields `f` of the layout `SMov`. -/
def packSMov (base : Nat) (f : SMov) : Nat :=
  base + f.sd.toNat * 262144 + ssrcBits f.src * 4 + f.st.toNat

/-- The word with the opcode bits `base` and the fields `f` of the layout `SCmp`. -/
def packSCmp (base : Nat) (f : SCmp) : Nat :=
  base + f.sa.toNat * 4096 + ssrcBits f.src * 4 + f.st.toNat

/-- The word with the opcode bits `base` and the fields `f` of the layout `SUn`. -/
def packSUn (base : Nat) (f : SUn) : Nat :=
  base + f.sd.toNat * 262144 + f.sa.toNat * 4096 + f.st.toNat

/-- The word with the opcode bits `base` and the fields `f` of the layout `SCvt`. -/
def packSCvt (base : Nat) (f : SCvt) : Nat :=
  base + f.sd.toNat * 262144 + f.sa.toNat * 4096 + f.kind.toNat * 4 + f.st.toNat

/-- The word with the opcode bits `base` and the fields `f` of the layout `Br`. -/
def packBr (base : Nat) (f : Br) : Nat :=
  base + f.off.toNat * 4 + f.st.toNat

/-- The word with the opcode bits `base` and the fields `f` of the layout `BrP`. -/
def packBrP (base : Nat) (f : BrP) : Nat :=
  base + f.p.toNat * 2097152 + f.off.toNat * 4 + f.st.toNat

/-- The word with the opcode bits `base` and the fields `f` of the layout `Bare`. -/
def packBare (base : Nat) (f : Bare) : Nat :=
  base + f.st.toNat

/-- The word with the opcode bits `base` and the fields `f` of the layout `Jmp`. -/
def packJmp (base : Nat) (f : Jmp) : Nat :=
  base + f.sa.toNat * 4096 + f.st.toNat

/-- The word with the opcode bits `base` and the fields `f` of the layout `Adr`. -/
def packAdr (base : Nat) (f : Adr) : Nat :=
  base + f.sd.toNat * 262144 + f.off.toNat * 4 + f.st.toNat

/-- The word with the opcode bits `base` and the fields `f` of the layout `Rdsr`. -/
def packRdsr (base : Nat) (f : Rdsr) : Nat :=
  base + f.sd.toNat * 262144 + f.idx.toNat * 4 + f.st.toNat

/-- The word with the opcode bits `base` and the fields `f` of the layout `Wrsr`. -/
def packWrsr (base : Nat) (f : Wrsr) : Nat :=
  base + f.sa.toNat * 4096 + f.idx.toNat * 4 + f.st.toNat

/-- The word with the opcode bits `base` and the fields `f` of the layout `SetM`. -/
def packSetM (base : Nat) (f : SetM) : Nat :=
  base + f.sel.toNat * 1048576 + f.val.toNat * 4 + f.st.toNat

/-- The word with the opcode bits `base` and the fields `f` of the layout `Vmem`. -/
def packVmem (base : Nat) (f : Vmem) : Nat :=
  base + f.vd.toNat * 32768 + f.off.toNat * 256 + f.en.toNat * 128 + f.k.toNat * 16 + f.att.toNat * 4 + f.st.toNat

/-- The word with the opcode bits `base` and the fields `f` of the layout `Ldt`. -/
def packLdt (base : Nat) (f : Ldt) : Nat :=
  base + f.vd.toNat * 32768 + f.off.toNat * 256 + f.k.toNat * 16 + f.esz.toNat * 4 + f.st.toNat

/-- The word with the opcode bits `base` and the fields `f` of the layout `Pfl`. -/
def packPfl (base : Nat) (f : Pfl) : Nat :=
  base + f.off.toNat * 256 + f.en.toNat * 128 + f.k.toNat * 16 + f.lvl.toNat * 4 + f.st.toNat

/-- The word with the opcode bits `base` and the fields `f` of the layout `Smem`. -/
def packSmem (base : Nat) (f : Smem) : Nat :=
  base + f.sd.toNat * 65536 + f.k.toNat * 4096 + f.woff.toNat * 16 + f.att.toNat * 4 + f.st.toNat

/-- The word with the opcode bits `base` and the fields `f` of the layout `Atom`. -/
def packAtom (base : Nat) (f : Atom) : Nat :=
  base + f.vd.toNat * 16384 + f.off.toNat * 128 + f.k.toNat * 16 + f.ret.toNat * 8 + f.order.toNat * 4 + f.st.toNat

/-- The word with the opcode bits `base` and the fields `f` of the layout `Mma`. -/
def packMma (base : Nat) (f : Mma) : Nat :=
  base + f.acc.toNat * 262144 + f.ta.toNat * 16384 + f.tb.toNat * 1024 + f.vf.toNat * 8 + f.st.toNat

/-- The word with the opcode bits `base` and the fields `f` of the layout `Mmag`. -/
def packMmag (base : Nat) (f : Mmag) : Nat :=
  base + f.acc.toNat * 262144 + f.q.toNat * 16384 + f.tb.toNat * 1024 + f.vf.toNat * 8 + f.st.toNat

/-- The word with the opcode bits `base` and the fields `f` of the layout `Mmas`. -/
def packMmas (base : Nat) (f : Mmas) : Nat :=
  base + f.acc.toNat * 262144 + f.qa.toNat * 16384 + f.qb.toNat * 1024 + f.vf.toNat * 8 + f.st.toNat

/-- The word with the opcode bits `base` and the fields `f` of the layout `AccOp`. -/
def packAccOp (base : Nat) (f : AccOp) : Nat :=
  base + f.acc.toNat * 262144 + f.st.toNat

/-- The word with the opcode bits `base` and the fields `f` of the layout `Accld`. -/
def packAccld (base : Nat) (f : Accld) : Nat :=
  base + f.acc.toNat * 262144 + f.q.toNat * 16384 + f.res.toNat * 8192 + f.st.toNat

/-- The word with the opcode bits `base` and the fields `f` of the layout `Drain`. -/
def packDrain (base : Nat) (f : Drain) : Nat :=
  base + f.acc.toNat * 262144 + f.q.toNat * 16384 + f.vf.toNat * 8 + f.st.toNat

/-- The word with the opcode bits `base` and the fields `f` of the layout `Tld`. -/
def packTld (base : Nat) (f : Tld) : Nat :=
  base + f.td.toNat * 131072 + f.q.toNat * 8192 + f.st.toNat

/-- The word with the opcode bits `base` and the fields `f` of the layout `Tldt`. -/
def packTldt (base : Nat) (f : Tldt) : Nat :=
  base + f.td.toNat * 131072 + f.q.toNat * 8192 + f.esz.toNat * 4096 + f.st.toNat

/-- The word with the opcode bits `base` and the fields `f` of the layout `Tldg`. -/
def packTldg (base : Nat) (f : Tldg) : Nat :=
  base + f.td.toNat * 131072 + f.q.toNat * 8192 + f.vi.toNat * 64 + f.st.toNat

/-- The word with the opcode bits `base` and the fields `f` of the layout `Tzero`. -/
def packTzero (base : Nat) (f : Tzero) : Nat :=
  base + f.td.toNat * 131072 + f.st.toNat

/-- The word with the opcode bits `base` and the fields `f` of the layout `MAmax`. -/
def packMAmax (base : Nat) (f : MAmax) : Nat :=
  base + f.acc.toNat * 262144 + f.sd.toNat * 4096 + f.st.toNat

/-- The word with the opcode bits `base` and the fields `f` of the layout `AccRow`. -/
def packAccRow (base : Nat) (f : AccRow) : Nat :=
  base + f.acc.toNat * 262144 + f.half.toNat * 131072 + f.row.toNat * 8192 + f.v.toNat * 64 + f.st.toNat

/-- The word with the opcode bits `base` and the fields `f` of the layout `Cpy`. -/
def packCpy (base : Nat) (f : Cpy) : Nat :=
  base + f.cr.toNat * 524288 + f.mask.toNat * 2048 + f.sd.toNat * 32 + f.st.toNat

/-- The word with the opcode bits `base` and the fields `f` of the layout `Cpyx`. -/
def packCpyx (base : Nat) (f : Cpyx) : Nat :=
  base + f.cr.toNat * 524288 + f.sd.toNat * 32 + f.st.toNat

/-- The word with the opcode bits `base` and the fields `f` of the layout `CTag`. -/
def packCTag (base : Nat) (f : CTag) : Nat :=
  base + f.sa.toNat * 2048 + f.sd.toNat * 32 + f.st.toNat

/-- The word with the opcode bits `base` and the fields `f` of the layout `Rld`. -/
def packRld (base : Nat) (f : Rld) : Nat :=
  base + f.vd.toNat * 32768 + f.sb.toNat * 512 + f.stream.toNat * 128 + f.acq.toNat * 4 + f.st.toNat

/-- The word with the opcode bits `base` and the fields `f` of the layout `Rst`. -/
def packRst (base : Nat) (f : Rst) : Nat :=
  base + f.vs.toNat * 32768 + f.sb.toNat * 512 + f.stream.toNat * 128 + f.rel.toNat * 4 + f.st.toNat

/-- The word with the opcode bits `base` and the fields `f` of the layout `Ratom`. -/
def packRatom (base : Nat) (f : Ratom) : Nat :=
  base + f.vd.toNat * 32768 + f.sb.toNat * 512 + f.stream.toNat * 128 + f.op.toNat * 8 + f.ret.toNat * 4 + f.st.toNat

/-- The word with the opcode bits `base` and the fields `f` of the layout `Rstv`. -/
def packRstv (base : Nat) (f : Rstv) : Nat :=
  base + f.vs.toNat * 32768 + f.sa.toNat * 512 + f.stream.toNat * 128 + f.rel.toNat * 4 + f.st.toNat

/-- The word with the opcode bits `base` and the fields `f` of the layout `Xfer`. -/
def packXfer (base : Nat) (f : Xfer) : Nat :=
  base + f.cr.toNat * 512 + f.stream.toNat * 128 + f.st.toNat

/-- The word with the opcode bits `base` and the fields `f` of the layout `Rfence`. -/
def packRfence (base : Nat) (f : Rfence) : Nat :=
  base + f.sb.toNat * 512 + f.stream.toNat * 128 + f.st.toNat

/-- The word with the opcode bits `base` and the fields `f` of the layout `Xred`. -/
def packXred (base : Nat) (f : Xred) : Nat :=
  base + f.vp.toNat * 32768 + f.sa.toNat * 512 + f.stream.toNat * 128 + f.st.toNat

/-- The word with the opcode bits `base` and the fields `f` of the layout `XredLast`. -/
def packXredLast (base : Nat) (f : XredLast) : Nat :=
  base + f.vp.toNat * 32768 + f.st.toNat

/-- The word with the opcode bits `base` and the fields `f` of the layout `Hold`. -/
def packHold (base : Nat) (f : Hold) : Nat :=
  base + f.vd.toNat * 32768 + f.n.toNat * 4 + f.st.toNat

/-- The word with the opcode bits `base` and the fields `f` of the layout `SeatGet`. -/
def packSeatGet (base : Nat) (f : SeatGet) : Nat :=
  base + f.sd.toNat * 512 + f.st.toNat

/-- The word with the opcode bits `base` and the fields `f` of the layout `FBare`. -/
def packFBare (base : Nat) (f : FBare) : Nat :=
  base + f.st.toNat

/-- The word with the opcode bits `base` and the fields `f` of the layout `Rstat`. -/
def packRstat (base : Nat) (f : Rstat) : Nat :=
  base + f.sd.toNat * 512 + f.stream.toNat * 128 + f.st.toNat

/-- The word with the opcode bits `base` and the fields `f` of the layout `Rresume`. -/
def packRresume (base : Nat) (f : Rresume) : Nat :=
  base + f.sb.toNat * 512 + f.st.toNat

/-- The word with the opcode bits `base` and the fields `f` of the layout `Rankmap`. -/
def packRankmap (base : Nat) (f : Rankmap) : Nat :=
  base + f.sa.toNat * 512 + f.st.toNat

/-- The word with the opcode bits `base` and the fields `f` of the layout `Wait`. -/
def packWait (base : Nat) (f : Wait) : Nat :=
  base + f.cnt.toNat * 262144 + f.n.toNat * 1024 + f.arm.toNat * 4 + f.st.toNat

/-- The word with the opcode bits `base` and the fields `f` of the layout `WaitAll`. -/
def packWaitAll (base : Nat) (f : WaitAll) : Nat :=
  base + f.cmask.toNat * 1024 + f.arm.toNat * 4 + f.st.toNat

/-- The word with the opcode bits `base` and the fields `f` of the layout `Fork`. -/
def packFork (base : Nat) (f : Fork) : Nat :=
  base + f.p.toNat * 262144 + f.off.toNat * 4 + f.st.toNat

/-- The word with the opcode bits `base` and the fields `f` of the layout `Draw`. -/
def packDraw (base : Nat) (f : Draw) : Nat :=
  base + f.vb.toNat * 16384 + f.live.toNat * 4 + f.st.toNat

/-- The word with the opcode bits `base` and the fields `f` of the layout `Safe`. -/
def packSafe (base : Nat) (f : Safe) : Nat :=
  base + f.live.toNat * 4 + f.st.toNat

/-- The word with the opcode bits `base` and the fields `f` of the layout `Sleep`. -/
def packSleep (base : Nat) (f : Sleep) : Nat :=
  base + f.n.toNat * 4 + f.st.toNat

/-- The word with the opcode bits `base` and the fields `f` of the layout `Bar`. -/
def packBar (base : Nat) (f : Bar) : Nat :=
  base + f.b.toNat * 262144 + f.st.toNat

/-- The word with the opcode bits `base` and the fields `f` of the layout `Launch`. -/
def packLaunch (base : Nat) (f : Launch) : Nat :=
  base + f.k.toNat * 131072 + f.sd.toNat * 2048 + f.st.toNat

/-- The word with the opcode bits `base` and the fields `f` of the layout `SysDA`. -/
def packSysDA (base : Nat) (f : SysDA) : Nat :=
  base + f.sd.toNat * 32768 + f.sa.toNat * 512 + f.st.toNat

/-- The word with the opcode bits `base` and the fields `f` of the layout `Rpush`. -/
def packRpush (base : Nat) (f : Rpush) : Nat :=
  base + f.ring.toNat * 262144 + f.mask.toNat * 1024 + f.sd.toNat * 16 + f.st.toNat

/-- The word with the opcode bits `base` and the fields `f` of the layout `RpushPub`. -/
def packRpushPub (base : Nat) (f : RpushPub) : Nat :=
  base + f.ring.toNat * 262144 + f.mask.toNat * 1024 + f.st.toNat

/-- The word with the opcode bits `base` and the fields `f` of the layout `Rpop`. -/
def packRpop (base : Nat) (f : Rpop) : Nat :=
  base + f.ring.toNat * 262144 + f.pos.toNat * 32768 + f.sd.toNat * 16 + f.st.toNat

/-- The word with the opcode bits `base` and the fields `f` of the layout `RpopRel`. -/
def packRpopRel (base : Nat) (f : RpopRel) : Nat :=
  base + f.ring.toNat * 262144 + f.pos.toNat * 32768 + f.st.toNat

/-- The word with the opcode bits `base` and the fields `f` of the layout `SysAB`. -/
def packSysAB (base : Nat) (f : SysAB) : Nat :=
  base + f.sa.toNat * 32768 + f.sb.toNat * 512 + f.st.toNat

/-- The word with the opcode bits `base` and the fields `f` of the layout `Potwait`. -/
def packPotwait (base : Nat) (f : Potwait) : Nat :=
  base + f.sd.toNat * 32768 + f.sa.toNat * 512 + f.arm.toNat * 4 + f.st.toNat

/-- The word with the opcode bits `base` and the fields `f` of the layout `Imm16`. -/
def packImm16 (base : Nat) (f : Imm16) : Nat :=
  base + f.imm.toNat * 4 + f.st.toNat

/-- The word with the opcode bits `base` and the fields `f` of the layout `Fence`. -/
def packFence (base : Nat) (f : Fence) : Nat :=
  base + f.scope.toNat * 262144 + f.kind.toNat * 65536 + f.st.toNat

/-- The word with the opcode bits `base` and the fields `f` of the layout `Shfl`. -/
def packShfl (base : Nat) (f : Shfl) : Nat :=
  base + f.vd.toNat * 32768 + f.va.toNat * 256 + f.mode.toNat * 64 + f.dist.toNat * 4 + f.st.toNat

/-- The word with the opcode bits `base` and the fields `f` of the layout `Lred`. -/
def packLred (base : Nat) (f : Lred) : Nat :=
  base + f.vd.toNat * 32768 + f.va.toNat * 256 + f.op.toNat * 16 + f.seg.toNat * 4 + f.st.toNat

/-- The word with the opcode bits `base` and the fields `f` of the layout `Lscan`. -/
def packLscan (base : Nat) (f : Lscan) : Nat :=
  base + f.vd.toNat * 32768 + f.va.toNat * 256 + f.op.toNat * 16 + f.ex.toNat * 8 + f.st.toNat

/-- The word with the opcode bits `base` and the fields `f` of the layout `Vote`. -/
def packVote (base : Nat) (f : Vote) : Nat :=
  base + f.fd.toNat * 32768 + f.fa.toNat * 256 + f.mode.toNat * 64 + f.st.toNat

/-- The word with the opcode bits `base` and the fields `f` of the layout `Bcast`. -/
def packBcast (base : Nat) (f : Bcast) : Nat :=
  base + f.vd.toNat * 32768 + f.va.toNat * 256 + f.lane.toNat * 4 + f.st.toNat

/-- The word with the opcode bits `base` and the fields `f` of the layout `Rdlane`. -/
def packRdlane (base : Nat) (f : Rdlane) : Nat :=
  base + f.sd.toNat * 32768 + f.va.toNat * 256 + f.lane.toNat * 4 + f.st.toNat

/-- The word with the opcode bits `base` and the fields `f` of the layout `LanesF`. -/
def packLanesF (base : Nat) (f : LanesF) : Nat :=
  base + f.vd.toNat * 32768 + f.kind.toNat * 4 + f.st.toNat

/-- The word with the opcode bits `base` and the fields `f` of the layout `Pop`. -/
def packPop (base : Nat) (f : Pop) : Nat :=
  base + f.pd.toNat * 32768 + f.pa.toNat * 256 + f.pb.toNat * 32 + f.fn.toNat * 4 + f.st.toNat

/-- The word with the opcode bits `base` and the fields `f` of the layout `Pmov`. -/
def packPmov (base : Nat) (f : Pmov) : Nat :=
  base + f.fd.toNat * 32768 + f.fa.toNat * 256 + f.mode.toNat * 4 + f.st.toNat

/-- The word with the opcode bits `base` and the fields `f` of the layout `Perm`. -/
def packPerm (base : Nat) (f : Perm) : Nat :=
  base + f.vd.toNat * 32768 + f.va.toNat * 256 + f.st.toNat

/-- The word with the opcode bits `base` and the fields `f` of the layout `Sfu`. -/
def packSfu (base : Nat) (f : Sfu) : Nat :=
  base + f.vd.toNat * 16384 + f.va.toNat * 128 + f.st.toNat

/-- The word with the opcode bits `base` and the fields `f` of the layout `Cvt`. -/
def packCvt (base : Nat) (f : Cvt) : Nat :=
  base + f.vd.toNat * 32768 + f.va.toNat * 256 + f.dty.toNat * 16 + f.st.toNat

/-- The word with the opcode bits `base` and the fields `f` of the layout `Bfp`. -/
def packBfp (base : Nat) (f : Bfp) : Nat :=
  base + f.vd.toNat * 32768 + f.va.toNat * 256 + f.k.toNat * 16 + f.st.toNat

/-- The word with the opcode bits `base` and the fields `f` of the layout `Unpk`. -/
def packUnpk (base : Nat) (f : Unpk) : Nat :=
  base + f.vd.toNat * 32768 + f.va.toNat * 256 + f.w.toNat * 16 + f.sx.toNat * 8 + f.st.toNat

/-- The word with the opcode bits `base` and the fields `f` of the layout `Sclx`. -/
def packSclx (base : Nat) (f : Sclx) : Nat :=
  base + f.vd.toNat * 32768 + f.va.toNat * 256 + f.dty.toNat * 16 + f.dir.toNat * 8 + f.st.toNat

/-- The word with the opcode bits `base` and the fields `f` of the layout `Psrd`. -/
def packPsrd (base : Nat) (f : Psrd) : Nat :=
  base + f.sd.toNat * 32768 + f.idx.toNat * 4 + f.st.toNat

/-- The word with the opcode bits `base` and the fields `f` of the layout `Pswr`. -/
def packPswr (base : Nat) (f : Pswr) : Nat :=
  base + f.sa.toNat * 32768 + f.idx.toNat * 4 + f.st.toNat

/-- The word with the opcode bits `base` and the fields `f` of the layout `SysA`. -/
def packSysA (base : Nat) (f : SysA) : Nat :=
  base + f.sa.toNat * 32768 + f.st.toNat

/-- The word with the opcode bits `base` and the fields `f` of the layout `SysDAB`. -/
def packSysDAB (base : Nat) (f : SysDAB) : Nat :=
  base + f.sd.toNat * 32768 + f.sa.toNat * 512 + f.sb.toNat * 8 + f.st.toNat

/-- The word of an instruction, without its prefix: the opcode bits and every field at its place (R26 to
R32, and the encoding tables of the chapters). A step without an encoding has none. -/
def encodeWord : Instr → Option Nat
  | .iadd f => some (packV3 0x00000000 f)
  | .iaddVu f => some (packVU 0x40000000 f)
  | .isub f => some (packV3 0x00800000 f)
  | .isubVu f => some (packVU 0x41000000 f)
  | .imul f => some (packV3 0x01000000 f)
  | .imulVu f => some (packVU 0x42000000 f)
  | .imulh f => some (packV3 0x01800000 f)
  | .imulhVu f => some (packVU 0x43000000 f)
  | .imulhu f => some (packV3 0x02000000 f)
  | .imulhuVu f => some (packVU 0x44000000 f)
  | .iand f => some (packV3 0x02800000 f)
  | .iandVu f => some (packVU 0x45000000 f)
  | .ior f => some (packV3 0x03000000 f)
  | .iorVu f => some (packVU 0x46000000 f)
  | .ixor f => some (packV3 0x03800000 f)
  | .ixorVu f => some (packVU 0x47000000 f)
  | .ishl f => some (packV3 0x04000000 f)
  | .ishlVu f => some (packVU 0x48000000 f)
  | .ishr f => some (packV3 0x04800000 f)
  | .ishrVu f => some (packVU 0x49000000 f)
  | .isra f => some (packV3 0x05000000 f)
  | .israVu f => some (packVU 0x4A000000 f)
  | .imin f => some (packV3 0x05800000 f)
  | .iminVu f => some (packVU 0x4B000000 f)
  | .imax f => some (packV3 0x06000000 f)
  | .imaxVu f => some (packVU 0x4C000000 f)
  | .iminu f => some (packV3 0x06800000 f)
  | .iminuVu f => some (packVU 0x4D000000 f)
  | .imaxu f => some (packV3 0x07000000 f)
  | .imaxuVu f => some (packVU 0x4E000000 f)
  | .iaddsat f => some (packV3 0x07800000 f)
  | .iaddsatVu f => some (packVU 0x4F000000 f)
  | .isubsat f => some (packV3 0x08000000 f)
  | .isubsatVu f => some (packVU 0x50000000 f)
  | .icmp f => some (packV3Cmp 0x08800000 f)
  | .icmpVu f => some (packVUCmp 0x51000000 f)
  | .icmpu f => some (packV3Cmp 0x09000000 f)
  | .icmpuVu f => some (packVUCmp 0x52000000 f)
  | .vsel f => some (packV3 0x09800000 f)
  | .vselVu f => some (packVU 0x53000000 f)
  | .vmov f => some (packV3Mov 0x0A000000 f)
  | .vmovVu f => some (packVUMov 0x54000000 f)
  | .ipopc f => some (packV3Un 0x0A800000 f)
  | .iclz f => some (packV3Un 0x0B000000 f)
  | .ibrev f => some (packV3Un 0x0B800000 f)
  | .idot4 f => some (packV3 0x0C000000 f)
  | .idot4Vu f => some (packVU 0x58000000 f)
  | .iabsdiff f => some (packV3 0x0C800000 f)
  | .iabsdiffVu f => some (packVU 0x59000000 f)
  | .fadd f => some (packV3 0x10000000 f)
  | .faddVu f => some (packVU 0x60000000 f)
  | .fsub f => some (packV3 0x10800000 f)
  | .fsubVu f => some (packVU 0x61000000 f)
  | .fmul f => some (packV3 0x11000000 f)
  | .fmulVu f => some (packVU 0x62000000 f)
  | .ffma f => some (packV3 0x11800000 f)
  | .ffmaVu f => some (packVU 0x63000000 f)
  | .fmin f => some (packV3 0x12000000 f)
  | .fminVu f => some (packVU 0x64000000 f)
  | .fmax f => some (packV3 0x12800000 f)
  | .fmaxVu f => some (packVU 0x65000000 f)
  | .fabs f => some (packV3Un 0x13000000 f)
  | .fneg f => some (packV3Un 0x13800000 f)
  | .fclass f => some (packV3Un 0x14000000 f)
  | .fscale f => some (packV3 0x14800000 f)
  | .fscaleVu f => some (packVU 0x69000000 f)
  | .fcmp f => some (packV3Cmp 0x15000000 f)
  | .fcmpVu f => some (packVUCmp 0x6A000000 f)
  | .fdot2 f => some (packV3 0x15800000 f)
  | .fdot2Vu f => some (packVU 0x6B000000 f)
  | .fround f => some (packV3Un 0x16000000 f)
  | .twosum f => some (packV3 0x20000000 f)
  | .fastsum f => some (packV3 0x20800000 f)
  | .twodiff f => some (packV3 0x21000000 f)
  | .twoprod f => some (packV3 0x21800000 f)
  | .errfma f => some (packV3 0x22000000 f)
  | .xadd f => some (packV3 0x22800000 f)
  | .xsub f => some (packV3 0x23000000 f)
  | .xmul f => some (packV3 0x23800000 f)
  | .xmulw f => some (packV3 0x24000000 f)
  | .xfmaw f => some (packV3 0x24800000 f)
  | .xrenorm f => some (packV3Un 0x25000000 f)
  | .xcompress f => some (packV3Un 0x25800000 f)
  | .xcmp f => some (packV3Cmp 0x26000000 f)
  | .xneg f => some (packV3Un 0x26800000 f)
  | .xsplit f => some (packV3Un 0x27000000 f)
  | .xround f => some (packV3Un 0x27800000 f)
  | .xroundF32 f => some (packV3Un 0x2780001C f)
  | .sadd f => some (packS3 0x80000000 f)
  | .ssub f => some (packS3 0x81000000 f)
  | .smul f => some (packS3 0x82000000 f)
  | .smulh f => some (packS3 0x83000000 f)
  | .sand f => some (packS3 0x84000000 f)
  | .sor f => some (packS3 0x85000000 f)
  | .sxor f => some (packS3 0x86000000 f)
  | .sshl f => some (packS3 0x87000000 f)
  | .sshr f => some (packS3 0x88000000 f)
  | .ssra f => some (packS3 0x89000000 f)
  | .smin f => some (packS3 0x8A000000 f)
  | .smax f => some (packS3 0x8B000000 f)
  | .sminu f => some (packS3 0x8C000000 f)
  | .smaxu f => some (packS3 0x8D000000 f)
  | .smov f => some (packSMov 0x8E000000 f)
  | .ssel f => some (packS3 0x8F000000 f)
  | .scmp f => some (packSCmp 0x90000000 f)
  | .scmpu f => some (packSCmp 0x91000000 f)
  | .stest f => some (packSCmp 0x92000000 f)
  | .sbfe f => some (packS3 0x93000000 f)
  | .sbfi f => some (packS3 0x94000000 f)
  | .spopc f => some (packSUn 0x95000000 f)
  | .sffs f => some (packSUn 0x96000000 f)
  | .saddc f => some (packS3 0x97000000 f)
  | .sfadd f => some (packS3 0x98000000 f)
  | .sfmul f => some (packS3 0x99000000 f)
  | .sffma f => some (packS3 0x9A000000 f)
  | .sfcmp f => some (packSCmp 0x9B000000 f)
  | .sfcvt f => some (packSCvt 0x9C000000 f)
  | .br f => some (packBr 0xA0000000 f)
  | .brz f => some (packBr 0xA1000000 f)
  | .brnz f => some (packBr 0xA2000000 f)
  | .brlt f => some (packBr 0xA3000000 f)
  | .brge f => some (packBr 0xA4000000 f)
  | .brltu f => some (packBr 0xA5000000 f)
  | .brgeu f => some (packBr 0xA6000000 f)
  | .brpz f => some (packBrP 0xA7000000 f)
  | .brpnz f => some (packBrP 0xA8000000 f)
  | .brpall f => some (packBrP 0xA9000000 f)
  | .call f => some (packBr 0xAA000000 f)
  | .ret f => some (packBare 0xAB000000 f)
  | .jmp f => some (packJmp 0xAC000000 f)
  | .adr f => some (packAdr 0xAD000000 f)
  | .rdsr f => some (packRdsr 0xB0000000 f)
  | .wrsr f => some (packWrsr 0xB1000000 f)
  | .setmode f => some (packSetM 0xB2000000 f)
  | .movi f => some (limmWord f)
  | .ldB f => some (packVmem 0xC8000000 f)
  | .ldBs f => some (packVmem 0xC8400000 f)
  | .ldH f => some (packVmem 0xC8800000 f)
  | .ldHs f => some (packVmem 0xC8C00000 f)
  | .ldW f => some (packVmem 0xC9000000 f)
  | .ldW2 f => some (packVmem 0xC9400000 f)
  | .ldW4 f => some (packVmem 0xC9800000 f)
  | .stB f => some (packVmem 0xC9C00000 f)
  | .stH f => some (packVmem 0xCA000000 f)
  | .stW f => some (packVmem 0xCA400000 f)
  | .stW2 f => some (packVmem 0xCA800000 f)
  | .stW4 f => some (packVmem 0xCAC00000 f)
  | .ldt f => some (packLdt 0xCB000080 f)
  | .ldx f => some (packVmem 0xCB400000 f)
  | .stx f => some (packVmem 0xCB800000 f)
  | .pfl f => some (packPfl 0xCBC00000 f)
  | .sldW f => some (packSmem 0xCC000000 f)
  | .sldW2 f => some (packSmem 0xCC400000 f)
  | .sldW4 f => some (packSmem 0xCC800000 f)
  | .sldW8 f => some (packSmem 0xCCC00000 f)
  | .sstW f => some (packSmem 0xCD000000 f)
  | .sstW2 f => some (packSmem 0xCD400000 f)
  | .sstW4 f => some (packSmem 0xCD800000 f)
  | .swaitl f => some (packSmem 0xCDC00000 f)
  | .satadd f => some (packSmem 0xCE000000 f)
  | .satcas f => some (packSmem 0xCE400000 f)
  | .aadd f => some (packAtom 0xD0000000 f)
  | .asub f => some (packAtom 0xD0200000 f)
  | .aand f => some (packAtom 0xD0400000 f)
  | .aor f => some (packAtom 0xD0600000 f)
  | .axor f => some (packAtom 0xD0800000 f)
  | .amin f => some (packAtom 0xD0A00000 f)
  | .atomicAmax f => some (packAtom 0xD0C00000 f)
  | .aminu f => some (packAtom 0xD0E00000 f)
  | .amaxu f => some (packAtom 0xD1000000 f)
  | .axchg f => some (packAtom 0xD1200000 f)
  | .acas f => some (packAtom 0xD1400000 f)
  | .aincw f => some (packAtom 0xD1600000 f)
  | .afadd f => some (packAtom 0xD1800000 f)
  | .afadd2 f => some (packAtom 0xD1A00000 f)
  | .afmin f => some (packAtom 0xD1C00000 f)
  | .afmax f => some (packAtom 0xD1E00000 f)
  | .aaddc f => some (packAtom 0xD2000000 f)
  | .mma f => some (packMma 0xD4000000 f)
  | .mmag f => some (packMmag 0xD4200000 f)
  | .mmas f => some (packMmas 0xD4400000 f)
  | .accz f => some (packAccOp 0xD4600000 f)
  | .accld f => some (packAccld 0xD4800000 f)
  | .drain f => some (packDrain 0xD4A00000 f)
  | .draint f => some (packMmas 0xD4C00000 f)
  | .tld f => some (packTld 0xD4E00000 f)
  | .tldt f => some (packTldt 0xD5000000 f)
  | .tldg f => some (packTldg 0xD5200000 f)
  | .tzero f => some (packTzero 0xD5400000 f)
  | .matrixAmax f => some (packMAmax 0xD5600000 f)
  | .accrd f => some (packAccRow 0xD5800000 f)
  | .accwr f => some (packAccRow 0xD5A00000 f)
  | .accfold f => some (packAccOp 0xD5C00000 f)
  | .cpy f => some (packCpy 0xD8000000 f)
  | .cpyt f => some (packCpy 0xD8400000 f)
  | .cpyg f => some (packCpy 0xD8800000 f)
  | .cpys f => some (packCpy 0xD8C00000 f)
  | .cpyq f => some (packCpy 0xD9000000 f)
  | .cpyx f => some (packCpyx 0xD9400000 f)
  | .cstat f => some (packCTag 0xD9800000 f)
  | .ccancel f => some (packCTag 0xD9C00000 f)
  | .rld f => some (packRld 0xDC000000 f)
  | .rst f => some (packRst 0xDC400000 f)
  | .ratom f => some (packRatom 0xDC800000 f)
  | .rstv f => some (packRstv 0xDCC00000 f)
  | .xfer f => some (packXfer 0xDD000000 f)
  | .rfence f => some (packRfence 0xDD400000 f)
  | .xredFirst f => some (packXred 0xDD800004 f)
  | .xredMid f => some (packXred 0xDD800000 f)
  | .xredLast f => some (packXredLast 0xDD800008 f)
  | .hold f => some (packHold 0xDDC00000 f)
  | .seatget f => some (packSeatGet 0xDE000000 f)
  | .seatfree f => some (packFBare 0xDE400000 f)
  | .rstat f => some (packRstat 0xDE800000 f)
  | .rstatClr f => some (packRstat 0xDE800004 f)
  | .rresume f => some (packRresume 0xDEC00000 f)
  | .rresumeFail f => some (packRresume 0xDEC00004 f)
  | .rankmap f => some (packRankmap 0xDF000000 f)
  | .rankmapRd f => some (packRankmap 0xDF000004 f)
  | .nop f => some (packBare 0xE0000000 f)
  | .wait f => some (packWait 0xE0200000 f)
  | .waitAll f => some (packWaitAll 0xE03C0000 f)
  | .fork f => some (packFork 0xE0400000 f)
  | .join f => some (packBare 0xE0600000 f)
  | .draw f => some (packDraw 0xE0800000 f)
  | .safe f => some (packSafe 0xE0A00000 f)
  | .yield f => some (packBare 0xE0C00000 f)
  | .yieldc f => some (packFork 0xE0E00000 f)
  | .sleep f => some (packSleep 0xE1000000 f)
  | .bar f => some (packBar 0xE1200000 f)
  | .cbar f => some (packBare 0xE1400000 f)
  | .exit_ f => some (packBare 0xE1600000 f)
  | .launch f => some (packLaunch 0xE1800000 f)
  | .cwait f => some (packSysDA 0xE1A00000 f)
  | .rpush f => some (packRpush 0xE1C0000C f)
  | .rpushPub f => some (packRpushPub 0xE1C00008 f)
  | .rpushClaim f => some (packRpush 0xE1C00004 f)
  | .rpop f => some (packRpop 0xE1E0000C f)
  | .rpopRel f => some (packRpopRel 0xE1E00008 f)
  | .rpopTake f => some (packRpop 0xE1E00004 f)
  | .potset f => some (packSysAB 0xE2000000 f)
  | .potwait f => some (packPotwait 0xE2200000 f)
  | .sigchk f => some (packImm16 0xE2400000 f)
  | .trap f => some (packImm16 0xE2600000 f)
  | .fence f => some (packFence 0xE2800000 f)
  | .shfl f => some (packShfl 0xE4000000 f)
  | .lred f => some (packLred 0xE4400000 f)
  | .lscan f => some (packLscan 0xE4800000 f)
  | .vote f => some (packVote 0xE4C00000 f)
  | .bcast f => some (packBcast 0xE5000000 f)
  | .rdlane f => some (packRdlane 0xE5400000 f)
  | .lanes f => some (packLanesF 0xE5800000 f)
  | .pop f => some (packPop 0xE5C00000 f)
  | .pmov f => some (packPmov 0xE6000000 f)
  | .perm f => some (packPerm 0xE6400000 f)
  | .frcp f => some (packSfu 0xE8000000 f)
  | .frsqrt f => some (packSfu 0xE8200000 f)
  | .fsqrt f => some (packSfu 0xE8400000 f)
  | .fexp2 f => some (packSfu 0xE8600000 f)
  | .flog2 f => some (packSfu 0xE8800000 f)
  | .fsinpi f => some (packSfu 0xE8A00000 f)
  | .fcospi f => some (packSfu 0xE8C00000 f)
  | .ftanh f => some (packSfu 0xE8E00000 f)
  | .fsigm f => some (packSfu 0xE9000000 f)
  | .fgelu f => some (packSfu 0xE9200000 f)
  | .fsilu f => some (packSfu 0xE9400000 f)
  | .fsoftp f => some (packSfu 0xE9600000 f)
  | .fcvt f => some (packCvt 0xEC000000 f)
  | .fcvti f => some (packCvt 0xEC400000 f)
  | .icvtf f => some (packCvt 0xEC800000 f)
  | .bfpk f => some (packBfp 0xECC00000 f)
  | .bfpu f => some (packBfp 0xED000000 f)
  | .unpk f => some (packUnpk 0xED400000 f)
  | .sclx f => some (packSclx 0xED800000 f)
  | .psrd f => some (packPsrd 0xF0000000 f)
  | .pswr f => some (packPswr 0xF0200000 f)
  | .ovtld f => some (packSysA 0xF0400000 f)
  | .rfe f => some (packBare 0xF0600000 f)
  | .rfeNext f => some (packBare 0xF0600004 f)
  | .rfePark f => some (packSysA 0xF0600008 f)
  | .ctxsv f => some (packSysDAB 0xF0800000 f)
  | .ctxld f => some (packSysDA 0xF0A00000 f)
  | .pgmap f => some (packSysDA 0xF0C00000 f)
  | .pgpoolAdd f => some (packSysDA 0xF0E00000 f)
  | .pgpoolRem f => some (packSysDA 0xF0E00004 f)
  | .pgpoolCnt f => some (packSysDA 0xF0E00008 f)
  | .keyld f => some (packSysDAB 0xF1000000 f)
  | .halt f => some (packSysDA 0xF1200000 f)
  | .xlat f => some (packSysDA 0xF1400000 f)
  | .placeTo f => some (packSysAB 0xF1600000 f)
  | .placeHere f => some (packSysA 0xF1600004 f)
  | .placeReset f => some (packSysA 0xF1600008 f)
  | .dupset f => some (packSysDAB 0xF1800000 f)
  | .sigset f => some (packSysA 0xF1A00000 f)
  | .killg f => some (packSysDA 0xF1C00000 f)
  | _ => none

/-- The prefix word of an instruction, if it has one (R32, R35, R37, R38). -/
def encodePx : Instr → Option Nat
  | .iadd f | .isub f | .imul f | .imulh f | .imulhu f | .iand f | .ior f | .ixor f
  | .ishl f | .ishr f | .isra f | .imin f | .imax f | .iminu f | .imaxu f | .iaddsat f
  | .isubsat f | .vsel f | .idot4 f | .iabsdiff f | .fadd f | .fsub f | .fmul f | .ffma f
  | .fmin f | .fmax f | .fscale f | .fdot2 f | .twosum f | .fastsum f | .twodiff f | .twoprod f
  | .errfma f | .xadd f | .xsub f | .xmul f | .xmulw f | .xfmaw f => 
    f.px.map aluPxWord
  | .iaddVu f | .isubVu f | .imulVu f | .imulhVu f | .imulhuVu f | .iandVu f | .iorVu f | .ixorVu f
  | .ishlVu f | .ishrVu f | .israVu f | .iminVu f | .imaxVu f | .iminuVu f | .imaxuVu f | .iaddsatVu f
  | .isubsatVu f | .vselVu f | .idot4Vu f | .iabsdiffVu f | .faddVu f | .fsubVu f | .fmulVu f | .ffmaVu f
  | .fminVu f | .fmaxVu f | .fscaleVu f | .fdot2Vu f => 
    f.px.map aluPxWord
  | .icmp f | .icmpu f | .fcmp f | .xcmp f => 
    f.px.map aluPxWord
  | .icmpVu f | .icmpuVu f | .fcmpVu f => 
    f.px.map aluPxWord
  | .vmov f => 
    f.px.map aluPxWord
  | .vmovVu f => 
    f.px.map aluPxWord
  | .ipopc f | .iclz f | .ibrev f | .fabs f | .fneg f | .fclass f | .fround f | .xrenorm f
  | .xcompress f | .xneg f | .xsplit f | .xround f | .xroundF32 f => 
    f.px.map aluPxWord
  | .shfl f => 
    f.px.map aluPxWord
  | .lred f => 
    f.px.map aluPxWord
  | .lscan f => 
    f.px.map aluPxWord
  | .vote f => 
    f.px.map aluPxWord
  | .bcast f => 
    f.px.map aluPxWord
  | .rdlane f => 
    f.px.map aluPxWord
  | .lanes f => 
    f.px.map aluPxWord
  | .pop f => 
    f.px.map aluPxWord
  | .pmov f => 
    f.px.map aluPxWord
  | .perm f => 
    f.px.map aluPxWord
  | .frcp f | .frsqrt f | .fsqrt f | .fexp2 f | .flog2 f | .fsinpi f | .fcospi f | .ftanh f
  | .fsigm f | .fgelu f | .fsilu f | .fsoftp f => 
    f.px.map aluPxWord
  | .fcvt f | .fcvti f | .icvtf f => 
    f.px.map aluPxWord
  | .bfpk f | .bfpu f => 
    f.px.map aluPxWord
  | .unpk f => 
    f.px.map aluPxWord
  | .sclx f => 
    f.px.map aluPxWord
  | .ldB f | .ldBs f | .ldH f | .ldHs f | .ldW f | .ldW2 f | .ldW4 f | .stB f
  | .stH f | .stW f | .stW2 f | .stW4 f | .ldx f | .stx f => 
    f.px.map memPxWord
  | .ldt f => 
    f.px.map memPxWord
  | .pfl f => 
    f.px.map memPxWord
  | .sldW f | .sldW2 f | .sldW4 f | .sldW8 f | .sstW f | .sstW2 f | .sstW4 f | .swaitl f
  | .satadd f | .satcas f => 
    f.px.map memPxWord
  | .aadd f | .asub f | .aand f | .aor f | .axor f | .amin f | .atomicAmax f | .aminu f
  | .amaxu f | .axchg f | .acas f | .aincw f | .afadd f | .afadd2 f | .afmin f | .afmax f
  | .aaddc f => 
    f.px.map memPxWord
  | .rld f => 
    f.px.map memPxWord
  | .rst f => 
    f.px.map memPxWord
  | .ratom f => 
    f.px.map memPxWord
  | .rstv f => 
    f.px.map memPxWord
  | .xfer f => 
    f.px.map memPxWord
  | .rfence f => 
    f.px.map memPxWord
  | .xredFirst f | .xredMid f => 
    f.px.map memPxWord
  | .xredLast f => 
    f.px.map memPxWord
  | .hold f => 
    f.px.map memPxWord
  | .seatget f => 
    f.px.map memPxWord
  | .seatfree f => 
    f.px.map memPxWord
  | .rstat f | .rstatClr f => 
    f.px.map memPxWord
  | .rresume f | .rresumeFail f => 
    f.px.map memPxWord
  | .rankmap f | .rankmapRd f => 
    f.px.map memPxWord
  | .mma f => 
    f.px.map matPxWord
  | .mmag f => 
    f.px.map matPxWord
  | .mmas f | .draint f => 
    f.px.map matPxWord
  | .accz f | .accfold f => 
    f.px.map matPxWord
  | .accld f => 
    f.px.map matPxWord
  | .drain f => 
    f.px.map matPxWord
  | .tld f => 
    f.px.map matPxWord
  | .tldt f => 
    f.px.map matPxWord
  | .tldg f => 
    f.px.map matPxWord
  | .tzero f => 
    f.px.map matPxWord
  | .matrixAmax f => 
    f.px.map matPxWord
  | .accrd f | .accwr f => 
    f.px.map matPxWord
  | .cpy f | .cpyt f | .cpyg f | .cpys f | .cpyq f => 
    f.px.map matPxWord
  | .cpyx f => 
    f.px.map matPxWord
  | .cstat f | .ccancel f => 
    f.px.map matPxWord
  | _ => none

/-- The words of an instruction in address order: its prefix first, or the literal after a LIMM word
(R33). A step of the machine without an encoding has no words. -/
def encode (i : Instr) : List Nat :=
  match i with
  | .movi f => [limmWord f, f.lit.toNat]
  | j =>
    match encodePx j, encodeWord j with
    | some p, some w => [p, w]
    | none, some w => [w]
    | _, none => []

/-- Decoding the words that `encode` gives. -/
noncomputable def decodeWords (ws : List Nat) : Except DecodeReject Instr := decode (ws.getD 0 0) (ws.getD 1 0)

end Sys2Proof
end

