-- ==== Sys2Proof/Config.lean ====
section
/-! DEFINITION. What one part fixes and the manual leaves open. Each constant is opaque: no proof can see a
value of it, so a claim about the model holds whatever it is. `State.serial` gives a fresh argument for
each use. -/
namespace Sys2Proof.Config

/-- Which of two allowed values an early read or a racing write gives (R74, R77), and every other choice
of one of two that the manual leaves to the part. The argument is fresh for each choice. -/
opaque pick : Nat → Bool

/-- A choice among `n` that the manual leaves to the part (R249, R311): used modulo the number of choices. -/
opaque choose : Nat → Nat

/-- How many cycles beyond one a step takes (R3, R156). -/
opaque stepCycles : Nat → Nat

/-- Whether the home accepts a placement request at this moment (R375). -/
opaque placeAccepted : Nat → Bool

/-- A value that the manual does not state, where the machine goes on. -/
opaque freeWord : Nat → BitVec 32

/-- A byte of a context image whose encoding the manual leaves to the part (R391, R392). -/
opaque imageByte : Nat → BitVec 8

/-- Which of the four stacks of its die holds a line of HBM (R345): the manual leaves it to the part. -/
opaque stackOf : Nat → Nat

/-- The content of a register or scratchpad byte that an island at point 7 lost (R408). -/
opaque lostByte : Nat → BitVec 8

/-- The physical pod number that a package is given when its fabric is brought up (R9), modulo 1,024. -/
opaque podNumber : Nat → Nat

/-- The public key that firmware images are signed under (R22, R406). -/
opaque firmwareKey : Nat × Nat

/-- The firmware images of the part in the order in which the root of trust takes them, each with its index of R405 and the two
numbers of its signature. -/
opaque firmwareImages : List (Nat × List (BitVec 8) × Nat × Nat)

/-- The private identity key of the root of trust, fused at manufacture (R405). -/
opaque identityKey : Nat

/-- The nonce of a signature (R22). -/
opaque signNonce : Nat → Nat

/-- The bytes of an SPDM answer that are signed, from the request and the measurements by index (R405): the manual leaves
their encoding to SPDM 1.3. -/
opaque spdmMessage : List (BitVec 8) → List (Nat × List (BitVec 8)) → List (BitVec 8)

/-- The bytes of the partition table that measurement 4 covers, from the fields of its sixteen rows (R401): the manual gives
no encoding. -/
opaque tableBytes : List (List Nat) → List (BitVec 8)

/-- How many bytes of a partition's house program and handler text are measured (R405). -/
opaque houseLength : Nat → Nat

end Sys2Proof.Config
end

