-- ==== Sys2Proof/Machine/Sparse.lean ====
section
/-! DEFINITION. Sparse data by key: a list of (key, value) pairs with rising keys. Memory and register
files leave out every entry equal to what an unlisted key reads as; tables of records list what exists. -/
namespace Sys2Proof.Machine

/-- The value of the first entry with key `a`, or the default. -/
def smapGet {α : Type} (d : α) : List (Nat × α) → Nat → α
  | [], _ => d
  | (k, v) :: r, a => if a = k then v else smapGet d r a

/-- Enter `x` under `a`, keeping rising keys rising. -/
def smapInsert {α : Type} : List (Nat × α) → Nat → α → List (Nat × α)
  | [], a, x => [(a, x)]
  | (k, v) :: r, a, x =>
    if a < k then (a, x) :: (k, v) :: r
    else if a = k then (a, x) :: r
    else (k, v) :: smapInsert r a x

/-- Drop every entry with key `a`. -/
def smapErase {α : Type} : List (Nat × α) → Nat → List (Nat × α)
  | [], _ => []
  | (k, v) :: r, a => if a = k then smapErase r a else (k, v) :: smapErase r a

/-- Write `x` under `a`; writing the default removes the entry. -/
def smapPut {α : Type} [DecidableEq α] (d : α) (m : List (Nat × α)) (a : Nat) (x : α) : List (Nat × α) :=
  if x = d then smapErase m a else smapInsert m a x

/-- The record under `a`, if there is one. -/
def tabGet {α : Type} : List (Nat × α) → Nat → Option α
  | [], _ => none
  | (k, v) :: r, a => if a = k then some v else tabGet r a

/-- Keys strictly rise. -/
def keysRise {α : Type} : List (Nat × α) → Bool
  | [] => true
  | [_] => true
  | (k, _) :: (j, w) :: r => k < j && keysRise ((j, w) :: r)

/-- The canonical form of sparse data: rising keys, and no entry equal to the default. -/
def smapWf {α : Type} [DecidableEq α] (d : α) (m : List (Nat × α)) : Bool :=
  keysRise m && m.all (fun e => e.2 ≠ d)

/-- The entry at a place of a list, replaced. -/
def listSet {α : Type} : List α → Nat → α → List α
  | [], _, _ => []
  | _ :: r, 0, x => x :: r
  | y :: r, n + 1, x => y :: listSet r n x

end Sys2Proof.Machine
end

