-- ==== Sys2Proof/Machine/State.lean ====
section
/-! DEFINITION. The state of one package: its partitions, groups, teams and grids, its memories, engines,
directory, fabric endpoints and package-wide units. All of it is plain data. -/
namespace Sys2Proof.Machine

/-- A group's role (R20). -/
inductive Role where
  | vector | dealer | matrix
deriving DecidableEq, Repr

/-- Register classes of R73, in the order of their codes. -/
inductive RegCls where
  | vreg | sreg | pred | scc
deriving DecidableEq, Repr

/-- A register under R71. -/
structure RegName where
  cls : RegCls
  num : Nat
deriving DecidableEq, Repr

/-- The latest fixed-latency producer of a register (R71, R73): its nominal issue cycle, its required
distance, and what each lane held before it (R74). -/
structure Producer where
  reg : RegName
  issued : Nat
  dist : Nat
  old : List (Nat × Word)
deriving DecidableEq, Repr

/-- A condition that `wait.arm` or `potwait.arm` records and `wait` and `yieldc` test (R81, R97, R305). -/
inductive WaitCond where
  | always
  | counter (k n : Nat)
  | counters (mask : BitVec 6)
  | pot (off : Nat)
deriving DecidableEq, Repr

/-- What a Waiting split waits for (R92 and the rules named). -/
inductive WaitFor where
  /-- `wait` (R81) or `potwait` (R305) -/
  | cond (c : WaitCond)
  /-- a counter at 255 (R76) -/
  | counterRoom (k : Nat)
  /-- a read of held registers (R338) -/
  | holdRegs (regs : List Nat)
  /-- `rpush` waiting for slot ip of a ring (R122) -/
  | ringFree (ring : Nat)
  /-- `rpop` waiting for a position's next slot (R123) -/
  | ringNext (ring pos : Nat)
  /-- `swaitl` (R270): the watched word's flat address, the value it must differ from, the cycle it ends -/
  | lineWord (addr : Nat) (value : Word) (deadline : Nat)
  /-- `cwait` (R115) -/
  | grids (handles : List Nat)
  /-- an entry with M = 1 (R354) -/
  | entryBusy (pa : Nat)
  /-- free entries of the cluster's range-lock table (R300) -/
  | locks (n : Nat)
  /-- room in the copy engine (R289) -/
  | copyRoom (n : Nat)
  /-- fewer than 8 outstanding matrix instructions (R232), and lock entries -/
  | matrixRoom (n : Nat)
  /-- every earlier matrix instruction complete (R253) -/
  | matrixIdle
  /-- the split's own earlier accesses performed (R273, R111): the operations' numbers -/
  | performed (ops : List Nat)
  /-- writes performed (R356, R372, R376): of `pgmap`'s zeroes or of `dupset`; the frame, and the lines -/
  | writesDone (frame : Nat) (lines : List Nat)
  /-- a page-table line whose write is not performed yet (R357) -/
  | lineBusy (line : Nat)
  /-- a context save of a team (R389) -/
  | saveTaken (tid : Nat)
  /-- an island at its point (R408) -/
  | island (n : Nat)
  /-- a partition register write that every core must use (R378, R358) -/
  | partWrite
  /-- a page collapse or duplication by `dupset` (R376) -/
  | frameMove (frame : Nat)
  /-- a special function issued under FPXE to complete (R216) -/
  | opDone (id : Nat)
deriving DecidableEq, Repr

/-- States of a split (R92). `exiting` is the last split of a group that holds until c0 to c5 are 0 (R107). `displaced` is a
Current split while a Waiting one of its group completes the instruction that it waited in; it is Current again after that
step. -/
inductive SplitState where
  | ready
  | current
  | waiting (w : WaitFor)
  | parkedJoin
  | parkedBarrier (b : Nat)
  | parkedCohort
  | parkedCont (c : WaitCond) (target : DWord)
  | sleeping (until_ : Nat)
  | exiting
  | displaced
deriving DecidableEq, Repr

/-- An instruction that its split is Waiting in (R92): its words, the cycle it began, and whether the
part before the wait is done (MarkerSet of R122, ReleaseSet of R123, and the like). `keep` is the value that
`swaitl` compares with (R270), and `grids` the grids that `cwait` waits for, the team whose
save `ctxsv` waits for, or the frame of `pgmap` or `dupset` (R115, R372, R376, R389). The instruction has issued: `ops` holds what the registers it reads held then, word by
word, `mode` what MODE held, and `sig` what SIG held before it (R72, R157, R268). -/
structure Held where
  words : List Nat
  since : Nat
  marker : Bool
  keep : Word
  grids : List Nat
  ops : List (RegName × List (Nat × Word))
  mode : BitVec 25
  sig : Word
deriving DecidableEq, Repr

/-- A split (R87). `pc` is a full address. `safeAt` is the live-set index of a `safe` or `draw` that was the
split's latest issue (R388). -/
structure Split where
  slot : Nat
  mask : DWord
  pc : DWord
  st : SplitState
  joins : List DWord
  held : Option Held
  safeAt : Option Nat
deriving DecidableEq, Repr

/-- What a group's handler runs with (R381): its split, the split that trapped, and HWDOG's start. -/
structure Handler where
  split : Split
  trapSlot : Nat
  entered : Nat
deriving DecidableEq, Repr

/-- The word that a parked group watches (R386): a physical address or a scratchpad key, and the page's key pair. -/
structure Watch where
  spad : Bool
  place : Nat
  key : Option (List Byte)
deriving DecidableEq, Repr

/-- Where an operation still owes a value (R77): a lane of a vector register, or a uniform register. -/
structure DestWord where
  reg : RegName
  lane : Nat
  val : Word
deriving DecidableEq, Repr

/-- The kinds of a group's outstanding variable-latency operations. -/
inductive PendKind where
  | load | store | atomic | sfu | late
deriving DecidableEq, Repr

/-- An outstanding load, store, atomic or special function (R263, R311, R216), or a `late` one, whose values are known
only when it completes: `accrd` (R251), `rld` and a returning `ratom` (R329). It has the counter
it holds, the lanes of the split that issued it, what it will write, the lanes of those registers that another instruction
has written since (R77), the lines a store must have performed, the page-table lines its translations came from, and flags to
merge. `trap` is the trap 0x11 that a special function takes when it completes, with TVAL and TMASK (R216). -/
structure PendOp where
  kind : PendKind
  counter : Nat
  mask : DWord
  dests : List DestWord
  clobbered : List (RegName × DWord)
  lines : List Nat
  walked : List Nat
  flags : BitVec 7
  trap : Option (DWord × DWord)
deriving DecidableEq, Repr

/-- The state of a hand (R86). -/
inductive HandState where
  | free
  | filling (gid : Nat)
  | held (gid : Nat)
  | writingBack (gid : Nat)
deriving DecidableEq, Repr

/-- A hand: its state and the registers in its slots (R82). -/
structure Hand where
  st : HandState
  regs : List Nat
deriving DecidableEq, Repr

/-- Residency of a group's context (R128); `restoring` is a group whose saved context comes back (R335, R390). -/
inductive Residency where
  | running
  | swappingOut
  | swapped
  | swappingIn
  | restoring
deriving DecidableEq, Repr

/-- A window record as read at issue (R237). -/
structure Window where
  base : Nat
  extent : Nat
  pitch : Nat
  soff : Nat
deriving DecidableEq, Repr

/-- The matrix instructions that execute in the engine (R240). -/
inductive MatKind where
  | mma (d ta tb : Nat)
  | mmag (d tb : Nat) (rows : List Nat)
  | mmas (d n : Nat)
  | accz (d : Nat)
  | accld (d : Nat) (res : Bool)
  | drain (d : Nat) (trans : Bool)
  | tld (t : Nat)
  | tldt (t : Nat) (wide : Bool)
  | tldg (t : Nat) (rows : List Nat)
  | tzero (t : Nat)
  | accrd (d : Nat) (res : Bool) (row vd : Nat) (mask : DWord) (pend : Nat)
  | accwr (d : Nat) (res : Bool) (row : Nat) (mask : DWord) (words : List Word)
  | accfold (d : Nat)
deriving DecidableEq, Repr

/-- A range-lock entry that a saved record registers again (R255, R308): of virtual addresses, or of the window of a
member of the team's cohort. -/
structure Wanted where
  member : Option Nat
  lo : Nat
  hi : Nat
  write : Bool
deriving DecidableEq, Repr

/-- An outstanding matrix instruction (R232, R239): what was read at issue, its windows, the steps or drain
rows done, its locks, and whether it counts on c3. `waitsLocks` is a restored record that still needs its
lock entries, and `wants` are those (R255). -/
structure MatOp where
  kind : MatKind
  words : List Nat
  fmt : Word
  winA : Window
  winB : Window
  off : Nat
  lscale : Word
  ovtab : BitVec 10
  started : Bool
  done : Nat
  locks : List Nat
  counted : Bool
  waitsLocks : Bool
  wants : List Wanted
deriving DecidableEq, Repr

/-- A hold entry (R338): a vector register and its pending count. -/
structure HoldEntry where
  reg : Nat
  pending : Nat
deriving DecidableEq, Repr

/-- The six wait counters (R75). -/
structure Counters where
  c0 : Nat
  c1 : Nat
  c2 : Nat
  c3 : Nat
  c4 : Nat
  c5 : Nat
deriving DecidableEq, Repr

/-- A fabric stream of a group (R320, R324): its state (0 Open, 1 Frozen, 2 Error), the causes recorded, FIRST,
and how often it froze. `frozenBy` lists the requests that hold it frozen, each with its freeze's number. -/
structure StreamState where
  state : Nat
  causes : BitVec 16
  first : Nat
  serial : Nat
  frozenBy : List (Nat × Nat)
deriving DecidableEq, Repr

/-- Poisoned data that a group holds (R396): lanes of a register, a row of a tile, or a row of one array of an
accumulator. -/
inductive BadLoc where
  | reg (r : RegName) (lanes : DWord)
  | tile (t row : Nat)
  | acc (a : Nat) (res : Bool) (row : Nat)
deriving DecidableEq, Repr

/-- A translation that a core TLB, or a die translation cache under a partition, holds (R355): the page's virtual address,
its level, the leaf entry's address and value, and the page-table lines that it was derived from. -/
structure TlbEntry where
  part : Nat
  va : Nat
  level : Nat
  entry : Nat
  pte : Nat
  lines : List Nat
deriving DecidableEq, Repr

/-- A group: its place, allocation, registers, status registers, splits and everything else of its
context (R18, R49, R70, R87, R113, R155, R379). `poisoned` lists the addresses of the poisoned data that it has consumed, each with the step of the issue,
`bad` the poisoned data that it holds, and `lastPc` is the PC of its latest issue (R396). `lastPages` are its lanes' last-page
registers, by the page's virtual address (R355), and `syncAt` the step at which it last synchronised (R277, R278). `workSet` is the working set that its last `draw` named
(R82), `parked` the word that it is Parked on (R386), `kitty` the kitty offset of its swap image (R128), and
`frameCopy` the trap frame of a group saved in its handler (R383, R388). -/
structure Group where
  part : Nat
  team : Option Nat
  index : Nat
  role : Role
  width : Nat
  latency : Bool
  issueSlot : Nat
  lanePos : Nat
  vAlloc : Nat
  sAlloc : Nat
  tAlloc : Nat
  aAlloc : Nat
  text : DWord
  liveset : DWord
  liveCount : Nat
  data : DWord
  gridId : Word
  depth : Nat
  teamX : Word
  teamY : Word
  teamZ : Word
  vregs : List (Nat × Word)
  sregs : List (Nat × Word)
  preds : List (Nat × DWord)
  tiles : List (Nat × Byte)
  accs : List (Nat × Word)
  amax : List (Nat × Word)
  mode : BitVec 25
  scc : BitVec 5
  flags : BitVec 7
  sig : Word
  msig : Word
  lscale : Word
  ovf : BitVec 3
  ovtab : BitVec 10
  amaxSel : BitVec 9
  readLatch : Word
  timeWrite : Word
  tcause : Word
  tpc : DWord
  tval : DWord
  tmask : DWord
  hwdog : Nat
  cnt : Counters
  armed : Option WaitCond
  safeCount : Nat
  nominal : Nat
  producers : List Producer
  stallUntil : Nat
  lastIssue : Nat
  issuesInTurn : Nat
  workSet : List Nat
  splits : List Split
  exited : DWord
  handler : Option Handler
  parked : Option Watch
  blockedSince : Nat
  residency : Residency
  pend : List (Nat × PendOp)
  matq : List MatOp
  tag : Nat
  seat : DWord
  holds : List HoldEntry
  streamSlot : Option Nat
  poisoned : List (Nat × Nat)
  bad : List BadLoc
  lastPc : DWord
  lastPages : List (Nat × Nat)
  syncAt : Nat
  kitty : Nat
  frameCopy : List Byte
deriving DecidableEq, Repr

/-- States of a team (R114). -/
inductive TeamState where
  | queued | resident | preempted | held | retired
deriving DecidableEq, Repr

/-- A consumer position of a stage ring (R120). `owner` is a group index; `gone` says that the owner has exited or
been killed (R123). -/
structure RingPos where
  owner : Option Nat
  gone : Bool
  cp : Nat
  phase : Bool
  held : Option Nat
deriving DecidableEq, Repr

/-- A slot of a stage ring (R120). -/
structure RingSlot where
  phase : Bool
  offer : BitVec 8
  pass : BitVec 8
  hold : BitVec 8
deriving DecidableEq, Repr

/-- A stage ring of a team (R120). `producer` is a group index. `closed` says that the producer
has exited or been killed. -/
structure Ring where
  producer : Option Nat
  closed : Bool
  ip : Nat
  claimed : Option Nat
  pos : List RingPos
  slots : List RingSlot
deriving DecidableEq, Repr

/-- What has become of a group of a team: not yet admitted, live under a group number, saved in the team's
image, exited, or killed (R103, R114). -/
inductive Member where
  | absent
  | live (gid : Nat)
  | saved (g : Group)
  | exited
  | killed
deriving DecidableEq, Repr

/-- A team (R18, R114): its grid, its place in it, where it stands, its scratchpad window, its rings and its
groups. `saving` is where a save in progress puts its image or its cohort's images, `requeue` says that the latency
reserve asked for it, and `named` that it is the team that `ctxsv` or `ctxld` named (R126, R389). `image` is the physical address of the last image saved, and `loadFrom` that of the image from which a
Pre-empted team is queued to be restored. `taking` says that a save has taken every group and writes its image, and `sizeAt`
is where SIZE becomes 0 once the restore is over (R335, R389). -/
structure Team where
  part : Nat
  grid : Nat
  x : Nat
  y : Nat
  z : Nat
  leader : Nat
  member : Nat
  cohort : Nat
  state : TeamState
  latency : Bool
  homeDie : Option Nat
  prefCluster : Nat
  arrival : Nat
  core : Nat
  winOff : Nat
  winLen : Nat
  killed : Bool
  groups : List Member
  rings : List (Option Ring)
  anchor : DWord
  saving : Option Nat
  requeue : Bool
  named : Bool
  image : Option Nat
  loadFrom : Option Nat
  taking : Bool
  sizeAt : Option Nat
deriving DecidableEq, Repr

/-- A launch record as read (R108, R109). -/
structure LaunchRec where
  seq : Nat
  text : DWord
  param : DWord
  liveset : DWord
  gridX : Nat
  gridY : Nat
  gridZ : Nat
  latency : Bool
  cohort : Nat
  groups : Nat
  width : Nat
  roles : List Role
  vregs : Nat
  sregs : Nat
  tiles : Nat
  accs : Nat
  scratch : Nat
  mode0 : BitVec 25
  liveCount : Nat
  rings : List (Option (Nat × Nat))
  anchor : DWord
  asx : Nat
  asy : Nat
  asz : Nat
  done : DWord
  data : DWord
  raw : List Byte
deriving DecidableEq, Repr

/-- A grid (R111, R114): its launch record, the team that launched it, the next team to offer, how many
of its teams have retired, and the die that the next team waits for since every die was full (R131). -/
structure Grid where
  part : Nat
  handle : Nat
  parent : Option Nat
  depth : Nat
  record : LaunchRec
  next : Nat
  retired : Nat
  killed : Bool
  complete : Bool
  order : Nat
  waitDie : Option Nat
deriving DecidableEq, Repr

/-- The kinds of copy (R288). -/
inductive CopyKind where
  | cpy | cpyt | cpyg | cpys | cpyq | cpyx
deriving DecidableEq, Repr

/-- States of a copy (R297, R308). `reserve` and `space` are a `cpyx` before its fetch-add and before it has
room (both `cstat` state 3 of R294 or state 1). -/
inductive CopyState where
  | reserve
  | space
  | moving
  | complete
  | published
  | retired
deriving DecidableEq, Repr

/-- A copy (R286, R289, R295): its owner, tag, record as read at issue, progress and outcome. `priv` is the privilege
that it was issued with; `rows` counts rows; `pos` bytes are written and `moved` credited; `lines` are those of the
chunk whose writes are not performed yet and `walked` the page-table lines of its translations. `header` says that the queue
header has been read (R294), and `retiredAt` the step at which the copy retired (R297). -/
structure Copy where
  gid : Nat
  tag : Nat
  kind : CopyKind
  priv : Bool
  words : List Nat
  src : DWord
  dst : DWord
  rows : Nat
  rowBytes : Nat
  dpitch : Nat
  spitch : Nat
  arg : Word
  pot : Nat
  potOn : Bool
  ovtab : BitVec 10
  mask : BitVec 8
  ring : Nat
  slot : Nat
  st : CopyState
  pos : Nat
  moved : Nat
  lines : List Nat
  walked : List Nat
  qoff : Nat
  qbase : DWord
  qsize : Nat
  qpot : Nat
  qseat : DWord
  header : Bool
  retiredAt : Nat
  cancelled : Bool
  cause : Nat
  badAddr : DWord
  dof : Bool
  locks : List Nat
  waitsLocks : Bool
  wants : List Wanted
deriving DecidableEq, Repr

/-- The space of a range-lock entry (R299): a partition's virtual addresses, or a core's scratchpad. -/
inductive LockSpace where
  | virt (part : Nat)
  | spad (core : Nat)
deriving DecidableEq, Repr

/-- A range-lock entry of a cluster (R299): bytes `lo` to `hi` − 1. -/
structure RangeLock where
  cluster : Nat
  space : LockSpace
  lo : Nat
  hi : Nat
  write : Bool
deriving DecidableEq, Repr

/-- A cluster's copy of a line in its fused L1 (R259, R360): the key pair of its page, the 128 bytes in plaintext, the
bytes it holds dirty, and the cycle of the first store whose bytes it has not sent. -/
structure L1Copy where
  key : Option (List Byte)
  data : List Byte
  dirty : BitVec 128
  since : Nat
deriving DecidableEq, Repr

/-- A directory entry of a line (R359, R360): who holds a copy, the copies of the L1s by cluster, the dirty bytes that L1s
have sent and the home has not merged yet, in the order sent, and whose invalidation is outstanding. -/
structure DirEntry where
  holders : List Holder
  l1 : List (Nat × L1Copy)
  arriving : List (Nat × L1Copy)
  invals : List Holder
deriving DecidableEq, Repr

/-- A byte that a thread's store replaced (R274, R283): its place, what it held, the group and the lanes of the split that
stored, and the step. A weak load that no synchronisation orders after the store may still read it. -/
structure OldByte where
  key : Nat
  val : Byte
  gid : Nat
  mask : DWord
  at_ : Nat
deriving DecidableEq, Repr

/-- A write that a page's home holds while its replicas go (R369): the group that issued it, the physical address, the
page's key pair and the bytes. -/
structure HeldWrite where
  by_ : Option Nat
  pa : Nat
  key : Option (List Byte)
  bytes : List Byte
deriving DecidableEq, Repr

/-- What the hardware is doing to the entry of a page (R367, R376). A migration toward a die has claimed the entry, which
then holds `busy`, has copied the page to the frame `to_`, or has rewritten the entry; a duplication has claimed the entry or has copied the page. -/
inductive PageMove where
  | claimed (busy die : Nat)
  | copied (busy to_ die : Nat)
  | rewritten (die : Nat)
  | dupClaimed (busy : Nat)
  | dupCopied (busy : Nat)
  | dupSet
deriving DecidableEq, Repr

/-- A page record of a 64 KiB frame (R366): the entry that maps it, once a walk has told, its level, and its counts; with its
replica record (R368), the migration target asked for by `place` or by the counts, what the hardware is doing to the entry (R367, R376), and a collapse in progress with the writes held for it, in order (R369). -/
structure PageRec where
  entry : Option Nat
  level : Nat
  part : Nat
  alias_ : Bool
  counts : List Nat
  replicas : List (Nat × Nat)
  want : Option Nat
  moving : Option PageMove
  collapsing : Bool
  held : List HeldWrite
deriving DecidableEq, Repr

/-- What a fabric request does (R325): `rstv` and `xred` carry what they deliver, `xfer` its record (R331). -/
inductive FabKind where
  | rld (acq : Bool)
  | rst
  | ratom (op : BitVec 4) (ret : Bool)
  | rstv (v0 : List Word) (v1 : Option (List Word))
  | xfer (src dst : DWord) (len : Nat) (space : Bool) (pot : Option Nat)
  | rfence
deriving DecidableEq, Repr

/-- A fabric request of this package's groups (R319, R325): its group, stream slot, stream and partition, its words and
privilege, the target package, lanes and mask, the seat it names, its counter and the operation that owes its
destinations. `after` are the operations an `rfence` waits for (R330). A transfer has written `sent` bytes and credited
`credited`; `lines` and `walked` belong to writes that are not performed yet (R356). `left` says that it has left the
source, on `planes` (R317), `orphan` that its group was killed since (R344), `performed` that it is performed or failed, with the cause and
the values read, and `frozen` that its target holds it (R321). -/
structure FabReq where
  gid : Nat
  slot : Nat
  stream : Nat
  part : Nat
  kind : FabKind
  words : List Nat
  priv : Bool
  pkg : Nat
  lanes : List RemoteLane
  mask : DWord
  seat : DWord
  counter : Nat
  pend : Option Nat
  after : List Nat
  sent : Nat
  credited : Nat
  lines : List Nat
  walked : List Nat
  locks : List Nat
  waitsLocks : Bool
  wants : List Wanted
  left : Bool
  planes : List Nat
  orphan : Bool
  performed : Bool
  frozen : Bool
  cause : Option Nat
  vals : List (Nat × Word)
deriving DecidableEq, Repr

/-- A stream slot of the endpoint (R320): its group and its four streams. -/
structure StreamSlot where
  gid : Nat
  part : Nat
  streams : List StreamState
deriving DecidableEq, Repr

/-- A request that this package's target has frozen (R321): the partition, the request, its stream handle's fields, its
faulting address, cause and access code, and whether its record is written. `replay` says that `rresume` has asked for
its replay (R322). -/
structure Frozen where
  part : Nat
  req : ReqRef
  srcPkg : Nat
  slot : Nat
  stream : Nat
  serial : Nat
  va : Nat
  cause : Nat
  access : Nat
  recorded : Bool
  replay : Bool
deriving DecidableEq, Repr

/-- What this package has sent to another one: the answer to a request, a freeze or its end (R321, R322), a chunk of
a transfer and the plane it travels on (R317, R332), or the failure of a transfer whose pot is there. -/
inductive OutMsg where
  | reply (cause : Option Nat) (vals : List (Nat × Word))
  | freeze (serial : Nat)
  | resume (serial : Nat) (fail : Bool)
  | chunk (rid at_ plane : Nat) (data : List Byte)
  | failPot (rid : Nat)
deriving DecidableEq, Repr

/-- A message to another package about a stream. -/
structure Sent where
  pkg : Nat
  slot : Nat
  stream : Nat
  msg : OutMsg
deriving DecidableEq, Repr

/-- A request or chunk of another package that waits at this target (R319, R354, R356), with its partition: for its turn or a busy
entry, or, once `done`, for its writes to the lines `lines` to be performed; its answer carries `vals`. -/
structure HeldForeign where
  part : Nat
  req : ReqRef
  done : Bool
  vals : List (Nat × Word)
  lines : List Nat
  walked : List Nat
deriving DecidableEq, Repr

/-- A delivery that waits at its home while the seat entry is Moving (R337), with the partition of the seat table. -/
structure HeldDelivery where
  part : Nat
  msg : DeliveryMsg
deriving DecidableEq, Repr

/-- An arrival that waits at its home while the seat entry is Moving (R340): a credit, or the FAIL of its pot, and the
package, slot and stream that an answer goes to. -/
structure HeldArrival where
  part : Nat
  arr : Arrival
  fail : Bool
  sender : Option (Nat × Nat × Nat)
deriving DecidableEq, Repr

/-- A rank-table entry (R315). -/
structure RankEntry where
  valid : Bool
  failed : Bool
  pkg : Nat
deriving DecidableEq, Repr

/-- An SPDM session of the root of trust (R404, R405): the partition it is bound to, its wrap key and the last
sequence number it accepted. -/
structure Session where
  part : Option Nat
  key : List Byte
  lastSeq : Option Nat
deriving DecidableEq, Repr

/-- A checkpoint or restore of a partition (R409, R410): GO, QUIESCE, RESTORE and the STATE code. -/
structure Ckpt where
  go : Bool
  quiesce : Bool
  restore : Bool
  stage : Nat
deriving DecidableEq, Repr

/-- A partition (R22, R379, R400, R401): its grants and its registers. -/
structure Part where
  live : Bool
  clust : BitVec 48
  region : BitVec 64
  slots : List (Nat × Nat)
  eth : BitVec 8
  ethAddr : List (Nat × Nat × Nat)
  streamBase : Nat
  streamCount : Nat
  domain : BitVec 16
  kitty : BitVec 3
  houseCore : Nat
  changes : BitVec 8
  tba : DWord
  ovdef : BitVec 10
  safeEn : Bool
  safeLimit : BitVec 11
  sen : Bool
  ptroot : DWord
  migEn : Bool
  migHalf : BitVec 5
  migThresh : BitVec 8
  fq : DWord
  rfq : DWord
  kq : DWord
  lost : Nat
  seatBase : DWord
  seatCap : Word
  saveArea : DWord
  saveSlot : Word
  keystat : BitVec 16
  keys : List (Nat × List Byte)
  ethTx : List DWord
  ethRx : List DWord
  ckpt : Ckpt
  pools : List (Nat × List Nat)
  ranks : List (Nat × RankEntry)
  rrNext : Nat
  nextHandle : Nat
  halved : Nat
deriving DecidableEq, Repr

/-- A voltage and frequency island (R408): the point last asked for, the point in effect, the point the part
has throttled it to, and the group whose `halt` waits on it. -/
structure Island where
  req : Nat
  point : Nat
  throttle : Nat
deriving DecidableEq, Repr

/-- An answer of the root of trust to an SPDM request (R405): the measurements that it reports and its signature. -/
structure SpdmAnswer where
  session : Nat
  request : List Byte
  measured : List (Nat × List Byte)
  sig : Nat × Nat
deriving DecidableEq, Repr

/-- A request of the host that waits for R356's conditions (R358): a write, or one for the ownership of a line. -/
structure HostWait where
  owner : Bool
  lines : List Nat
deriving DecidableEq, Repr

/-- The package-wide registers and units (R379, R406, R407, R411, R446). `lostUnits` are the retired slice groups and stacks,
whose lines are poisoned until they are written (R407). `hostAnswered` are the host's requests answered, the latest first
(R358), `spdmAnswers` the answers of the root of trust, and `measured` the digests that it holds by index (R405). `numbered`
says that the fabric has been brought up, and the pod number given (R9). `beatsSent` counts the heartbeats sent, under
8 × package + plane (R342). `bootKey` is the public key that firmware images are signed under, fixed at manufacture (R22,
R406; log entry 119). `flash` lists the firmware images with their indices and signatures, and `flashAt` counts those that the
root of trust has taken (R406). -/
structure Pkg where
  number : Nat
  powered : Bool
  readyC : BitVec 48
  readyS : BitVec 64
  readyM : Word
  readyX : BitVec 18
  replace : Bool
  throt : Bool
  ce : Nat
  retired : Nat
  islands : List (Nat × Island)
  windows : List (Nat × Nat × Nat)
  sessions : List (Nat × Session)
  alertPulses : Nat
  timeBase : Nat
  timeClock : Nat
  deadPlanes : List (Nat × Nat)
  draining : List (Nat × Nat)
  lastBeat : List (Nat × Nat)
  failedPkgs : List Nat
  lastBeatSent : Nat
  beatsSent : List (Nat × Nat)
  spdmAnswers : List SpdmAnswer
  measured : List (Nat × List Byte)
  numbered : Bool
  ethSent : List (Nat × List Byte)
  lostUnits : List PkgUnit
  hostAnswered : List HostWait
  bootKey : Nat × Nat
  flash : List (Nat × List Byte × Nat × Nat)
  flashAt : Nat
deriving DecidableEq, Repr

/-- The whole state. `cur` is the group whose instruction issues next, `also` those that join its issue (R132), and `joint`
says that `cur` joins the issue before it; `turn` says that the machine's own
pending steps come before the next choice of a group; `rota` counts those choices, every sixteenth of which takes a pending
step; `inbox` lists the steps of the outside world and of
the machine that are to be taken first; `serial` gives each free value a fresh number. `latencyRuns` counts the latency
issues since the last bulk one of each issue slot, under 2 × core + slot (R133). `tlbs` are the core TLBs by core, and
`dieTlbs` the die translation caches by die (R355). `hist` lists bytes that stores replaced (R283). -/
structure State where
  tick : Nat
  clock : Nat
  serial : Nat
  cur : Option Nat
  also : List Nat
  joint : Bool
  turn : Bool
  rota : Nat
  inbox : List Instr
  pkg : Pkg
  parts : List (Nat × Part)
  groups : List (Nat × Group)
  teams : List (Nat × Team)
  grids : List (Nat × Grid)
  hands : List (Nat × Hand)
  latencyRuns : List (Nat × Nat)
  mem : List Host.Cell
  spad : List Host.Cell
  poison : List (Nat × BitVec 128)
  spadPoison : List (Nat × BitVec 16)
  dir : List (Nat × DirEntry)
  tlbs : List (Nat × List TlbEntry)
  dieTlbs : List (Nat × List TlbEntry)
  hist : List OldByte
  pages : List (Nat × PageRec)
  copies : List (Nat × Copy)
  locks : List (Nat × RangeLock)
  fabric : List (Nat × FabReq)
  streams : List (Nat × StreamSlot)
  frozen : List (Nat × Frozen)
  foreign : List (Nat × HeldForeign)
  deliveries : List (Nat × HeldDelivery)
  arrivals : List (Nat × HeldArrival)
  sent : List (Nat × Sent)
  hostWaits : List (Nat × HostWait)
  nextId : Nat
deriving DecidableEq, Repr

/-- Why the machine stops. -/
inductive Fault where
  /-- `exec` of an instruction in a state in which no group's split is chosen to issue. The machine never
  does this by itself: `step` chooses a group first. Safe: nothing is claimed of such a state. -/
  | noIssuer
deriving DecidableEq, Repr

/-- Why an instruction has no meaning here. -/
inductive Refusal where
  /-- An instruction the model gives no meaning to. Raised only by an arm of `exec`. Safe. -/
  | notModelled (mnemonic : String)
deriving DecidableEq, Repr

/-- The byte that memory nothing has written reads as (log entry 1). -/
abbrev memDefault : Byte := 0

/-- The canonical form of a memory. -/
abbrev Memory.wf (m : List Host.Cell) : Bool := smapWf memDefault m

/-- The package-wide units right after reset (R379, R380, R406, R411, R413): no unit ready, TIME 0. -/
def Pkg.reset : Pkg where
  number := 0
  powered := false
  readyC := 0
  readyS := 0
  readyM := 0
  readyX := 0
  replace := false
  throt := false
  ce := 0
  retired := 0
  islands := []
  windows := []
  sessions := []
  alertPulses := 0
  timeBase := 0
  timeClock := 0
  deadPlanes := []
  draining := []
  lastBeat := []
  failedPkgs := []
  lastBeatSent := 0
  beatsSent := []
  spdmAnswers := []
  measured := []
  numbered := false
  ethSent := []
  lostUnits := []
  hostAnswered := []
  bootKey := Config.firmwareKey
  flash := Config.firmwareImages
  flashAt := 0

/-- The machine right after package reset: no partition, group, team or grid exists, memory lists nothing,
and no unit is ready (R377, R380, R406). -/
def State.reset : State where
  tick := 0
  clock := 0
  serial := 0
  cur := none
  also := []
  joint := false
  turn := false
  rota := 0
  inbox := []
  pkg := Pkg.reset
  parts := []
  groups := []
  teams := []
  grids := []
  hands := []
  latencyRuns := []
  mem := []
  spad := []
  poison := []
  spadPoison := []
  dir := []
  tlbs := []
  dieTlbs := []
  hist := []
  pages := []
  copies := []
  locks := []
  fabric := []
  streams := []
  frozen := []
  foreign := []
  deliveries := []
  arrivals := []
  sent := []
  hostWaits := []
  nextId := 1

end Sys2Proof.Machine
end

