-- ==== Sys2Proof/Machine/Bits.lean ====
section
/-! DEFINITION. Bit fields, extensions, rotations, elements and byte order, said once (R1, R138, R156). -/
namespace Sys2Proof.Machine

/-- The lanes 0 to 63 of an issue slot. -/
def laneList : List Nat :=
  [0, 1, 2, 3, 4, 5, 6, 7, 8, 9, 10, 11, 12, 13, 14, 15, 16, 17, 18, 19, 20, 21, 22, 23, 24, 25, 26, 27, 28, 29, 30, 31,
   32, 33, 34, 35, 36, 37, 38, 39, 40, 41, 42, 43, 44, 45, 46, 47, 48, 49, 50, 51, 52, 53, 54, 55, 56, 57, 58, 59, 60, 61,
   62, 63]

/-- Whether lane `i` is in a mask. -/
def inMask (m : DWord) (i : Nat) : Bool := m.getLsbD i

/-- The lanes of a mask, lowest first. -/
def lanesOf (m : DWord) : List Nat := laneList.filter (inMask m)

/-- The mask of the lanes below `n`. -/
def maskBelow (n : Nat) : DWord := BitVec.ofNat 64 (2 ^ n - 1)

/-- The mask of the lanes of `ls` that satisfy `p`. -/
def maskWhere (p : Nat → Bool) : DWord :=
  BitVec.ofNat 64 (laneList.foldl (fun a i => if p i then a + 2 ^ i else a) 0)

/-- The number of 1 bits of a number below 2 ^ `n`. -/
def popCount : Nat → Nat → Nat
  | 0, _ => 0
  | n + 1, x => x % 2 + popCount n (x / 2)

/-- The number of leading 0 bits of a number below 2 ^ `n`. -/
def leadingZeros : Nat → Nat → Nat
  | 0, _ => 0
  | n + 1, x => if x / 2 ^ n % 2 = 1 then 0 else 1 + leadingZeros n x

/-- The number of trailing 0 bits of a number, at most `n`. -/
def trailingZeros : Nat → Nat → Nat
  | 0, _ => 0
  | n + 1, x => if x % 2 = 1 then 0 else 1 + trailingZeros n (x / 2)

/-- The lowest `n` bits in reverse order. -/
def bitReverse : Nat → Nat → Nat
  | 0, _ => 0
  | n + 1, x => x % 2 * 2 ^ n + bitReverse n (x / 2)

/-- A 64-bit value from its low and high words (R48). -/
def pairWord (lo hi : Word) : DWord := hi ++ lo

/-- The low word of a 64-bit value. -/
def loWord (x : DWord) : Word := x.extractLsb' 0 32

/-- The high word of a 64-bit value. -/
def hiWord (x : DWord) : Word := x.extractLsb' 32 32

/-- Bytes as a number, the first the least significant (R1). -/
def ofBytes : List Byte → Nat
  | [] => 0
  | b :: r => b.toNat + 256 * ofBytes r

/-- The `n` bytes of a number, the least significant first (R1). -/
def toBytes : Nat → Nat → List Byte
  | 0, _ => []
  | n + 1, x => BitVec.ofNat 8 x :: toBytes n (x / 256)

/-- Element `k` of width `w` of a word (R138). -/
def elem (w : Nat) (x : Word) (k : Nat) : BitVec w := x.extractLsb' (k * w) w

/-- A word from its elements of width `w`, element 0 lowest (R138). -/
def packElems (w : Nat) (es : List (BitVec w)) : Word :=
  BitVec.ofNat 32 (es.foldr (fun e a => e.toNat + 2 ^ w * a) 0)

/-- An operation applied to each pair of elements of width `w` (R141). -/
def mapElems (w : Nat) (f : BitVec w → BitVec w → BitVec w) (a b : Word) : Word :=
  packElems w ((List.range (32 / w)).map fun k => f (elem w a k) (elem w b k))

/-- A number's bits `[lo + len - 1 : lo]`. -/
def bits (x lo len : Nat) : Nat := x / 2 ^ lo % 2 ^ len

/-- Whether bit `n` of a number is 1. -/
def bit (x n : Nat) : Bool := x / 2 ^ n % 2 == 1

/-- The exclusive or of a mask's two halves (R88). -/
def foldMask (m : DWord) : Word := loWord m ^^^ hiWord m

/-- SIG after one more word (R157). -/
def sigFold (sig : Word) (w : Nat) : Word := sig.rotateLeft 5 ^^^ BitVec.ofNat 32 w

/-- `n` copies of a value as a list. -/
def copiesOf {α : Type} : Nat → α → List α
  | 0, _ => []
  | n + 1, x => x :: copiesOf n x

/-- The numbers from `a` to `a + n - 1`. -/
def upFrom : Nat → Nat → List Nat
  | _, 0 => []
  | a, n + 1 => a :: upFrom (a + 1) n

end Sys2Proof.Machine
end

