-- ==== Sys2Proof/Machine/Access.lean ====
section
/-! DEFINITION. The named reads and writes of the state: groups, partitions and teams by number, registers,
bytes of memory and of scratchpads, the directory's note of a write, pots, and the kill queue. -/
namespace Sys2Proof.Machine

/-- The group under a number. -/
def State.group (s : State) (gid : Nat) : Option Group := tabGet s.groups gid

/-- The state with a group entered under a number. -/
def State.setGroup (s : State) (gid : Nat) (g : Group) : State := { s with groups := smapInsert s.groups gid g }

/-- The state with a group changed, if it exists. -/
def State.modGroup (s : State) (gid : Nat) (f : Group → Group) : State :=
  match s.group gid with
  | some g => s.setGroup gid (f g)
  | none => s

/-- The partition under a number. -/
def State.part (s : State) (p : Nat) : Option Part := tabGet s.parts p

/-- The state with a partition entered under a number. -/
def State.setPart (s : State) (p : Nat) (x : Part) : State := { s with parts := smapInsert s.parts p x }

/-- The state with a partition changed, if it exists. -/
def State.modPart (s : State) (p : Nat) (f : Part → Part) : State :=
  match s.part p with
  | some x => s.setPart p (f x)
  | none => s

/-- Whether a checkpoint or restore stops a partition's issue and its engines (R409). -/
def State.quiet (s : State) (part : Nat) : Bool :=
  match s.part part with
  | some x => x.ckpt.go && (x.ckpt.quiesce || x.ckpt.restore)
  | none => false

/-- The team under a number. -/
def State.team (s : State) (t : Nat) : Option Team := tabGet s.teams t

/-- Whether a save has taken a group, and writes its image (R388). -/
def State.taking (s : State) (g : Group) : Bool := ((g.team.bind s.team).map (·.taking)).getD false

/-- The state with a team entered under a number. -/
def State.setTeam (s : State) (t : Nat) (x : Team) : State := { s with teams := smapInsert s.teams t x }

/-- The state with a team changed, if it exists. -/
def State.modTeam (s : State) (t : Nat) (f : Team → Team) : State :=
  match s.team t with
  | some x => s.setTeam t (f x)
  | none => s

/-- The state with a grid changed, if it exists. -/
def State.modGrid (s : State) (h : Nat) (f : Grid → Grid) : State :=
  match tabGet s.grids h with
  | some x => { s with grids := smapInsert s.grids h (f x) }
  | none => s

/-- A stream's state at first use (R320, R324). -/
def StreamState.open_ : StreamState := { state := 0, causes := 0, first := 0, serial := 0, frozenBy := [] }

/-- A fresh number for a free value (Config). -/
def State.fresh (s : State) : State := { s with serial := s.serial + 1 }

/-- The core of a group number; a group number is 128 times its core's package-wide number plus its record. -/
def coreOf (gid : Nat) : Nat := gid / 128

/-- The group record of a group number. -/
def recordOf (gid : Nat) : Nat := gid % 128

/-- The package-wide cluster of a core: 12 × die + cluster (R9). -/
def clusterOf (core : Nat) : Nat := core / 16

/-- The die of a core (R9). -/
def dieOf (core : Nat) : Nat := core / 192

/-- A locator in the WHERE form of R364. -/
def whereOf (gid : Nat) : Nat :=
  dieOf (coreOf gid) * 2 ^ 19 + clusterOf (coreOf gid) % 12 * 2 ^ 15 + coreOf gid % 16 * 2 ^ 11 + recordOf gid * 2 ^ 4

/-- The group number that a WHERE locator names. -/
def gidOfWhere (w : Nat) : Nat :=
  128 * (192 * bits w 19 2 + 16 * bits w 15 4 + bits w 11 4) + bits w 4 7

/-- A uniform register; s63 reads 0 (R49). -/
def Group.sreg (g : Group) (n : Nat) : Word := if n = 63 then 0 else smapGet 0 g.sregs n

/-- A uniform register written; s63 ignores writes (R49). -/
def Group.setSreg (g : Group) (n : Nat) (x : Word) : Group :=
  if n = 63 then g else { g with sregs := smapPut 0 g.sregs n x }

/-- A pair of uniform registers as a 64-bit value (R48). -/
def Group.spair (g : Group) (n : Nat) : DWord := pairWord (g.sreg n) (g.sreg (n + 1))

/-- A 64-bit value written to a pair of uniform registers. -/
def Group.setSpair (g : Group) (n : Nat) (x : DWord) : Group :=
  (g.setSreg n (loWord x)).setSreg (n + 1) (hiWord x)

/-- Consecutive uniform registers written from a list. -/
def Group.setSregs (g : Group) (n : Nat) : List Word → Group
  | [] => g
  | x :: r => (g.setSreg n x).setSregs (n + 1) r

/-- A lane of a vector register. -/
def Group.vreg (g : Group) (r i : Nat) : Word := smapGet 0 g.vregs (64 * r + i)

/-- A lane of a vector register written. -/
def Group.setVreg (g : Group) (r i : Nat) (x : Word) : Group :=
  { g with vregs := smapPut 0 g.vregs (64 * r + i) x }

/-- The lanes of `ls` of a vector register, each written from `f`. -/
def Group.setLanes (g : Group) (r : Nat) (f : Nat → Word) : List Nat → Group
  | [] => g
  | i :: ls => (g.setLanes r f ls).setVreg r i (f i)

/-- A predicate as a lane mask; p7 reads all ones (R49). -/
def Group.pred (g : Group) (n : Nat) : DWord := if n = 7 then BitVec.allOnes 64 else smapGet 0 g.preds n

/-- A predicate written; p7 ignores writes (R49). -/
def Group.setPred (g : Group) (n : Nat) (m : DWord) : Group :=
  if n = 7 then g else { g with preds := smapPut 0 g.preds n m }

/-- Bytes of the tile file: byte `b` of row `r` of tile `t` (R233). -/
def Group.tileByte (g : Group) (t r b : Nat) : Byte := smapGet 0 g.tiles (512 * t + 32 * r + b)

/-- Consecutive bytes of a tile row written. -/
def Group.setTileBytes (g : Group) (t r b : Nat) : List Byte → Group
  | [] => g
  | x :: xs => ({ g with tiles := smapPut 0 g.tiles (512 * t + 32 * r + b) x }).setTileBytes t r (b + 1) xs

/-- Word 16m + n of an accumulator's main (`h` false) or residual (`h` true) array (R234). -/
def Group.acc (g : Group) (a : Nat) (h : Bool) (k : Nat) : Word :=
  smapGet 0 g.accs (512 * a + (if h then 256 else 0) + k)

/-- A word of an accumulator written. -/
def Group.setAcc (g : Group) (a : Nat) (h : Bool) (k : Nat) (x : Word) : Group :=
  { g with accs := smapPut 0 g.accs (512 * a + (if h then 256 else 0) + k) x }

/-- Whether the group issues with MODE.PRIV at 1: in a handler, or as the house program (R377). -/
def Group.priv (g : Group) : Bool := g.handler.isSome || g.team.isNone

/-- MODE as `rdsr` reads it (R41). -/
def Group.modeWord (g : Group) : Word := (if g.priv then 0x80000000 else 0) ||| g.mode.setWidth 32

/-- MODE.TYPE (R41). -/
def Group.mType (g : Group) : Nat := bits g.mode.toNat 0 4

/-- MODE.RND (R41). -/
def Group.mRnd (g : Group) : Nat := bits g.mode.toNat 4 3

/-- MODE.FTZ (R41). -/
def Group.mFtz (g : Group) : Bool := g.mode.getLsbD 7

/-- MODE.DAZ (R41). -/
def Group.mDaz (g : Group) : Bool := g.mode.getLsbD 8

/-- MODE.XW (R41). -/
def Group.mXw (g : Group) : Nat := bits g.mode.toNat 9 2

/-- MODE.GUARD (R41). -/
def Group.mGuard (g : Group) : Nat := bits g.mode.toNat 11 3

/-- MODE.GINV (R41). -/
def Group.mGinv (g : Group) : Bool := g.mode.getLsbD 14

/-- MODE.CHK (R41). -/
def Group.mChk (g : Group) : Bool := g.mode.getLsbD 15

/-- MODE.SCOPE (R41). -/
def Group.mScope (g : Group) : Nat := bits g.mode.toNat 16 3

/-- MODE.PP (R41). -/
def Group.mPp (g : Group) : Bool := g.mode.getLsbD 19

/-- MODE.FPXE (R42). -/
def Group.mFpxe (g : Group) : Nat := bits g.mode.toNat 20 5

/-- A wait counter by number (R75). -/
def Counters.get (c : Counters) (k : Nat) : Nat :=
  match k with
  | 0 => c.c0 | 1 => c.c1 | 2 => c.c2 | 3 => c.c3 | 4 => c.c4 | _ => c.c5

/-- A wait counter replaced. -/
def Counters.set (c : Counters) (k n : Nat) : Counters :=
  match k with
  | 0 => { c with c0 := n } | 1 => { c with c1 := n } | 2 => { c with c2 := n } | 3 => { c with c3 := n }
  | 4 => { c with c4 := n } | _ => { c with c5 := n }

/-- One more outstanding operation (R75). -/
def Group.countUp (g : Group) (k : Nat) : Group := { g with cnt := g.cnt.set k (g.cnt.get k + 1) }

/-- One operation fewer; counters never fall below 0 (R76). -/
def Group.countDown (g : Group) (k : Nat) : Group := { g with cnt := g.cnt.set k (g.cnt.get k - 1) }

/-- CNT as it reads (R78). -/
def Group.cntWord (g : Group) : Word :=
  BitVec.ofNat 32 (min g.cnt.c0 31 + 2 ^ 5 * min g.cnt.c1 31 + 2 ^ 10 * min g.cnt.c2 31
    + 2 ^ 15 * min g.cnt.c3 31 + 2 ^ 20 * min g.cnt.c4 31 + 2 ^ 25 * min g.cnt.c5 31)

/-- The split the group issues from: its handler's, or its Current one (R92, R381). -/
def Group.issuing (g : Group) : Option Split :=
  match g.handler with
  | some h => some h.split
  | none => g.splits.find? (fun p => p.st == .current)

/-- The group with the split of a slot changed. -/
def Group.modSplit (g : Group) (slot : Nat) (f : Split → Split) : Group :=
  { g with splits := g.splits.map fun p => if p.slot = slot then f p else p }

/-- The group with its issuing split replaced. -/
def Group.setIssuing (g : Group) (p : Split) : Group :=
  match g.handler with
  | some h => { g with handler := some { h with split := p } }
  | none => { g with splits := g.splits.map fun q => if q.st == .current then p else q }

/-- A byte of physical memory. -/
def State.byte (s : State) (pa : Nat) : Byte := smapGet memDefault s.mem pa

/-- Consecutive bytes of physical memory. -/
def State.bytes (s : State) (pa n : Nat) : List Byte := (upFrom pa n).map s.byte

/-- A little-endian number in physical memory. -/
def State.memNat (s : State) (pa n : Nat) : Nat := ofBytes (s.bytes pa n)

/-- Whether a retired slice group or stack holds a line (R345, R346, R407). -/
def unitHolds (u : PkgUnit) (line : Nat) : Bool :=
  match u with
  | .sliceGroup n => 16 * bits line 31 2 + bits line 27 4 == n
  | .stack n => line < 2 ^ 33 && 4 * bits line 31 2 + Config.stackOf line % 4 == n
  | _ => false

/-- The poison of a line that no table entry changes: all of it, in a retired slice group or stack (R407). -/
def State.poisonBase (s : State) (line : Nat) : BitVec 128 :=
  if s.pkg.lostUnits.any fun u => unitHolds u line then BitVec.allOnes 128 else 0

/-- The bytes of a poisoned line that have not been written since; 0 for a line that is not poisoned (R396). -/
def State.poisonMask (s : State) (line : Nat) : BitVec 128 := smapGet 0 s.poison line ^^^ s.poisonBase line

/-- The poison of a line replaced: the table holds the difference from `State.poisonBase`. -/
def State.setPoison (s : State) (line : Nat) (m : BitVec 128) : List (Nat × BitVec 128) :=
  smapPut 0 s.poison line (m ^^^ s.poisonBase line)

/-- The poison table after a byte is written; a line stays poisoned until every byte of it has been written (R396). -/
def State.clearPoison (s : State) (pa : Nat) : List (Nat × BitVec 128) :=
  if s.poisonMask (pa / 128) = 0 then s.poison
  else s.setPoison (pa / 128) (s.poisonMask (pa / 128) &&& ~~~(BitVec.twoPow 128 (pa % 128)))

/-- A byte of physical memory written. -/
def State.setByte (s : State) (pa : Nat) (b : Byte) : State :=
  { s with mem := smapPut memDefault s.mem pa b, poison := s.clearPoison pa }

/-- Consecutive bytes of physical memory written. -/
def State.setBytes (s : State) (pa : Nat) : List Byte → State
  | [] => s
  | b :: r => (s.setByte pa b).setBytes (pa + 1) r

/-- The key of a byte of a core's scratchpad. -/
def spadKey (core off : Nat) : Nat := core * 2 ^ 19 + off

/-- A byte of a scratchpad, by its key. -/
def State.sbyte (s : State) (k : Nat) : Byte := smapGet memDefault s.spad k

/-- Consecutive bytes of a scratchpad. -/
def State.sbytes (s : State) (k n : Nat) : List Byte := (upFrom k n).map s.sbyte

/-- A byte of a scratchpad written. -/
def State.setSbyte (s : State) (k : Nat) (b : Byte) : State :=
  { s with spad := smapPut memDefault s.spad k b,
           spadPoison := if smapGet 0 s.spadPoison (k / 16) = 0 then s.spadPoison
             else smapPut 0 s.spadPoison (k / 16) (smapGet 0 s.spadPoison (k / 16) &&& ~~~(BitVec.twoPow 16 (k % 16))) }

/-- Consecutive bytes of a scratchpad written. -/
def State.setSbytes (s : State) (k : Nat) : List Byte → State
  | [] => s
  | b :: r => (s.setSbyte k b).setSbytes (k + 1) r

/-- Where the kitty of a partition starts in each of its cores' scratchpads (R382). -/
def kittyBase (x : Part) : Nat := 2 ^ 19 - 2 ^ 16 * x.kitty.toNat

/-- The scratchpad key of a group's trap frame (R382). -/
def frameKey (x : Part) (gid : Nat) : Nat := spadKey (coreOf gid) (kittyBase x + 512 * recordOf gid)

/-- The lines that `n` bytes from `pa` touch. -/
def linesOf (pa n : Nat) : List Nat :=
  if n = 0 then [] else upFrom (pa / 128) ((pa + n - 1) / 128 - pa / 128 + 1)

/-- The directory entry of a line; no entry means that no holder has a copy (R359). -/
def State.dirEntry (s : State) (line : Nat) : DirEntry :=
  (tabGet s.dir line).getD { holders := [], l1 := [], arriving := [], invals := [] }

/-- A directory entry replaced; an entry without holders and without anything in progress is dropped. -/
def State.setDir (s : State) (line : Nat) (e : DirEntry) : State :=
  { s with dir := if e.holders = [] ∧ e.l1 = [] ∧ e.arriving = [] ∧ e.invals = [] then smapErase s.dir line
                  else smapInsert s.dir line e }

/-- The L1 of a cluster holds a line in a page with a key pair (R359): the line's 128 bytes in plaintext. -/
def State.l1Fill (s : State) (line cluster : Nat) (key : Option (List Byte)) (data : List Byte) : State :=
  let e := s.dirEntry line
  if Holder.l1 cluster ∈ e.holders then s
  else s.setDir line { e with holders := .l1 cluster :: e.holders,
                              l1 := smapInsert e.l1 cluster { key := key, data := data, dirty := 0, since := 0 } }

/-- The copy of a line in a cluster's L1, under the key pair of a page. -/
def State.l1Copy (s : State) (line cluster : Nat) (key : Option (List Byte)) : Option L1Copy :=
  (tabGet (s.dirEntry line).l1 cluster).filter fun c => c.key = key

/-- A holder other than an L1 takes a copy of a line (R359). -/
def State.dirFill (s : State) (line : Nat) (h : Holder) : State :=
  let e := s.dirEntry line
  if h ∈ e.holders then s else s.setDir line { e with holders := h :: e.holders }

/-- The home merges bytes written by `from`, or by no holder, and invalidates every other copy (R360). -/
def State.dirMerge (s : State) (line : Nat) (writer : Option Holder) : State :=
  let e := s.dirEntry line
  if e.holders = [] then s
  else s.setDir line { e with invals := e.holders.filter fun h => some h ≠ writer || e.invals.contains h }

/-- A strong write reaches the home of every line it touches (R360). -/
def State.dirStrong (s : State) (ls : List Nat) : State := ls.foldl (fun t l => t.dirMerge l none) s

/-- Whether translation structures hold a page-table line (R355). -/
def State.transHeld (s : State) (line : Nat) : Bool :=
  (s.dirEntry line).holders.any fun h =>
    match h with
    | .coreTlb _ => true
    | .dieXlat _ => true
    | _ => false

/-- A pot's STATE word with FAIL set (R303, R296). `k` is the pot's scratchpad key. -/
def State.failPot (s : State) (k : Nat) : State := s.setSbyte (k + 8) (s.sbyte (k + 8) ||| 1)

/-- A pot's COUNT raised by `n`, saturating (R303). -/
def State.creditPot (s : State) (k n : Nat) : State :=
  s.setSbytes k (toBytes 4 (min (ofBytes (s.sbytes k 4) + n) 0xFFFFFFFF))

/-- Whether a pot is reached (R303). -/
def State.potReached (s : State) (k : Nat) : Bool :=
  ofBytes (s.sbytes (k + 4) 4) ≤ ofBytes (s.sbytes k 4) || (s.sbyte (k + 8)).getLsbD 0

/-- The scratchpad key of a team's window offset. -/
def Team.key (t : Team) (off : Nat) : Nat := spadKey t.core (t.winOff + off)

/-- Whether a pot of a team is reached, in its window or, for a saved team, in its image. -/
def State.teamPotReached (s : State) (t : Team) (off : Nat) : Bool := s.potReached (t.key off)

/-- Range-lock entries released. -/
def State.unlock (s : State) (ids : List Nat) : State :=
  { s with locks := s.locks.filter fun e => !(ids.contains e.1) }

end Sys2Proof.Machine
end

