-- ==== Sys2Proof/Machine/Crypto.lean ====
section
/-! DEFINITION. The algorithms of R22: AES-256 in the XTS and GCM modes, SHA-256 and the key derivation of R405.
Bytes are in the order in which they are stored. -/
namespace Sys2Proof.Machine

/-- Multiplication by x in the field of AES. -/
def gfDouble (a : Nat) : Nat := if a < 128 then 2 * a else (2 * a) ^^^ 0x11B

/-- Multiplication in the field of AES; `n` counts the bits of `b`. -/
def gfMul : Nat → Nat → Nat → Nat
  | 0, _, _ => 0
  | n + 1, a, b => (if b % 2 = 1 then a else 0) ^^^ gfMul n (gfDouble a) (b / 2)

/-- The square of a field element. -/
def gfSquare (a : Nat) : Nat := gfMul 8 a a

/-- The inverse of a field element, as its 254th power. -/
def gfInv (a : Nat) : Nat :=
  let a2 := gfSquare a
  let a4 := gfSquare a2
  let a8 := gfSquare a4
  let a16 := gfSquare a8
  let a32 := gfSquare a16
  let a64 := gfSquare a32
  let a128 := gfSquare a64
  gfMul 8 a2 (gfMul 8 a4 (gfMul 8 a8 (gfMul 8 a16 (gfMul 8 a32 (gfMul 8 a64 a128)))))

/-- An 8-bit value rotated left. -/
def rot8 (a n : Nat) : Nat := (a * 2 ^ n + a / 2 ^ (8 - n)) % 256

/-- The substitution box of AES. -/
def sbox (a : Nat) : Nat :=
  let b := gfInv a
  b ^^^ rot8 b 1 ^^^ rot8 b 2 ^^^ rot8 b 3 ^^^ rot8 b 4 ^^^ 0x63

/-- The inverse substitution box of AES. -/
def sboxInv (a : Nat) : Nat := gfInv (rot8 a 1 ^^^ rot8 a 3 ^^^ rot8 a 6 ^^^ 0x05)

/-- The exclusive or of two lists of numbers. -/
def xorList : List Nat → List Nat → List Nat
  | a :: r, b :: t => (a ^^^ b) :: xorList r t
  | _, _ => []

/-- The round keys of AES-256 as words of four bytes: `n` more words follow the ones in `w`, the newest first. -/
def aesExpand : Nat → List (List Nat) → List (List Nat)
  | 0, w => w
  | n + 1, w =>
    let i := w.length
    let prev := w.getD 0 []
    let back := w.getD 7 []
    let t :=
      if i % 8 = 0 then
        let r := (prev.drop 1 ++ prev.take 1).map sbox
        xorList r [gfMul 8 1 (2 ^ (i / 8 - 1)), 0, 0, 0]
      else if i % 8 = 4 then prev.map sbox
      else prev
    aesExpand n (xorList back t :: w)

/-- A list in pieces of four. -/
def chunk4 : Nat → List Nat → List (List Nat)
  | 0, _ => []
  | n + 1, l => l.take 4 :: chunk4 n (l.drop 4)

/-- The fifteen round keys of AES-256, sixteen bytes each. -/
def aesKeys (key : List Nat) : List (List Nat) :=
  let w := (aesExpand 52 (chunk4 8 key).reverse).reverse
  (List.range 15).map fun r => (w.drop (4 * r)).take 4 |>.flatten

/-- The row shift of AES; byte `i` of a block is row `i mod 4` of column `i / 4`. -/
def shiftRows (b : List Nat) : List Nat := (List.range 16).map fun i => b.getD ((i + 4 * (i % 4)) % 16) 0

/-- The inverse row shift. -/
def shiftRowsInv (b : List Nat) : List Nat := (List.range 16).map fun i => b.getD ((i + 12 * (i % 4)) % 16) 0

/-- The column mix with the given first row of its matrix. -/
def mixCols (m : List Nat) (b : List Nat) : List Nat :=
  (List.range 16).map fun i =>
    (List.range 4).foldl (fun a j => a ^^^ gfMul 8 (b.getD (4 * (i / 4) + j) 0) (m.getD ((j + 4 - i % 4) % 4) 0)) 0

/-- One block enciphered under AES-256 round keys. -/
def aesEnc (ks : List (List Nat)) (b : List Nat) : List Nat :=
  let s0 := xorList b (ks.getD 0 [])
  let s13 := ((ks.drop 1).take 13).foldl
    (fun s k => xorList (mixCols [2, 3, 1, 1] (shiftRows (s.map sbox))) k) s0
  xorList (shiftRows (s13.map sbox)) (ks.getD 14 [])

/-- One block deciphered under AES-256 round keys. -/
def aesDec (ks : List (List Nat)) (b : List Nat) : List Nat :=
  let s0 := xorList b (ks.getD 14 [])
  let s13 := ((ks.drop 1).take 13).reverse.foldl
    (fun s k => mixCols [14, 11, 13, 9] (xorList ((shiftRowsInv s).map sboxInv) k)) s0
  xorList ((shiftRowsInv s13).map sboxInv) (ks.getD 0 [])

/-- A number's bytes, the least significant first. -/
def leNats (n x : Nat) : List Nat := (toBytes n x).map BitVec.toNat

/-- A number's bytes, the most significant first. -/
def beNats (n x : Nat) : List Nat := (leNats n x).reverse

/-- The number of a list of bytes, the least significant first. -/
def leNum (l : List Nat) : Nat := l.foldr (fun b a => b + 256 * a) 0

/-- The number of a list of bytes, the most significant first. -/
def beNum (l : List Nat) : Nat := leNum l.reverse

/-- The next tweak of XTS. -/
def xtsNext (t : Nat) : Nat := if t < 2 ^ 127 then 2 * t else (2 * t - 2 ^ 128) ^^^ 0x87

/-- The blocks of a data unit through XTS, `f` being the cipher in one direction. -/
def xtsBlocks (f : List Nat → List Nat) : Nat → Nat → List Nat → List Nat
  | 0, _, _ => []
  | n + 1, t, l =>
    let tw := leNats 16 t
    xorList (f (xorList (l.take 16) tw)) tw ++ xtsBlocks f n (xtsNext t) (l.drop 16)

/-- A 128-byte line enciphered under a key pair: the tweak is PA[51:7] (R403). -/
def xtsEncLine (key : List Byte) (pa : Nat) (line : List Byte) : List Byte :=
  let k := key.map BitVec.toNat
  let t := leNum (aesEnc (aesKeys (k.drop 32)) (leNats 16 (pa / 128)))
  (xtsBlocks (aesEnc (aesKeys (k.take 32))) 8 t (line.map BitVec.toNat)).map (BitVec.ofNat 8)

/-- A 128-byte line deciphered under a key pair (R403). -/
def xtsDecLine (key : List Byte) (pa : Nat) (line : List Byte) : List Byte :=
  let k := key.map BitVec.toNat
  let t := leNum (aesEnc (aesKeys (k.drop 32)) (leNats 16 (pa / 128)))
  (xtsBlocks (aesDec (aesKeys (k.take 32))) 8 t (line.map BitVec.toNat)).map (BitVec.ofNat 8)

/-- Multiplication in the field of GCM; `n` counts the bits of `x`, the most significant bit first. -/
def ghashMul : Nat → Nat → Nat → Nat → Nat
  | 0, _, _, z => z
  | n + 1, x, v, z =>
    ghashMul n x (if v % 2 = 1 then (v / 2) ^^^ (0xE1 * 2 ^ 120) else v / 2) (if bit x n then z ^^^ v else z)

/-- The hash of GCM over whole blocks. -/
def ghash (h : Nat) : Nat → Nat → List Nat → Nat
  | 0, y, _ => y
  | n + 1, y, l => ghash h n (ghashMul 128 (y ^^^ beNum (l.take 16)) h 0) (l.drop 16)

/-- The key stream of GCM from a block counter. -/
def gcmStream (ks : List (List Nat)) (iv : List Nat) : Nat → Nat → List Nat
  | 0, _ => []
  | n + 1, c => aesEnc ks (iv ++ beNats 4 c) ++ gcmStream ks iv n (c + 1)

/-- AES-256-GCM with a 12-byte IV over whole blocks, `aad` padded to whole blocks: the deciphered bytes when the
tag agrees (R404). -/
def gcmOpen (key iv aad ct tag : List Byte) : Option (List Byte) :=
  let n := List.map (BitVec.toNat (w := 8))
  let ks := aesKeys (n key)
  let h := beNum (aesEnc ks (copiesOf 16 0))
  let a := n aad
  let c := n ct
  let ablocks := (a.length + 15) / 16
  let body := a ++ copiesOf (16 * ablocks - a.length) 0 ++ c ++ beNats 8 (8 * a.length) ++ beNats 8 (8 * c.length)
  let s := ghash h (ablocks + c.length / 16 + 1) 0 body
  let t := beNum (aesEnc ks (n iv ++ [0, 0, 0, 1])) ^^^ s
  if t = beNum (n tag) then some ((xorList c (gcmStream ks (n iv) (c.length / 16) 2)).map (BitVec.ofNat 8)) else none

/-- The integer square root by bits. -/
def natRoot2 : Nat → Nat → Nat → Nat
  | 0, r, _ => r
  | n + 1, r, x => if (r + 2 ^ n) * (r + 2 ^ n) ≤ x then natRoot2 n (r + 2 ^ n) x else natRoot2 n r x

/-- The integer cube root by bits. -/
def natRoot3 : Nat → Nat → Nat → Nat
  | 0, r, _ => r
  | n + 1, r, x =>
    if (r + 2 ^ n) * (r + 2 ^ n) * (r + 2 ^ n) ≤ x then natRoot3 n (r + 2 ^ n) x else natRoot3 n r x

/-- The first 64 primes. -/
def primes64 : List Nat :=
  [2, 3, 5, 7, 11, 13, 17, 19, 23, 29, 31, 37, 41, 43, 47, 53, 59, 61, 67, 71, 73, 79, 83, 89, 97, 101, 103, 107, 109,
   113, 127, 131, 137, 139, 149, 151, 157, 163, 167, 173, 179, 181, 191, 193, 197, 199, 211, 223, 227, 229, 233, 239,
   241, 251, 257, 263, 269, 271, 277, 281, 283, 293, 307, 311]

/-- The round constants of SHA-256: the first 32 fraction bits of the cube roots of the primes. -/
def shaK : List Nat := primes64.map fun p => natRoot3 36 0 (p * 2 ^ 96) % 2 ^ 32

/-- The initial value of SHA-256: the first 32 fraction bits of the square roots of the first eight primes. -/
def shaInit : List Nat := (primes64.take 8).map fun p => natRoot2 37 0 (p * 2 ^ 64) % 2 ^ 32

/-- A 32-bit value rotated right. -/
def rotr (x n : Nat) : Nat := x / 2 ^ n + x * 2 ^ (32 - n) % 2 ^ 32

/-- The message schedule of SHA-256: `n` more words, the newest first. -/
def shaSched : Nat → List Nat → List Nat
  | 0, w => w
  | n + 1, w =>
    let a := w.getD 14 0
    let b := w.getD 1 0
    let s0 := rotr a 7 ^^^ rotr a 18 ^^^ (a / 2 ^ 3)
    let s1 := rotr b 17 ^^^ rotr b 19 ^^^ (b / 2 ^ 10)
    shaSched n ((w.getD 15 0 + s0 + w.getD 6 0 + s1) % 2 ^ 32 :: w)

/-- One round of SHA-256 with its constant and schedule word. -/
def shaRound (st : List Nat) (kw : Nat × Nat) : List Nat :=
  match st with
  | [a, b, c, d, e, f, g, h] =>
    let t1 := h + (rotr e 6 ^^^ rotr e 11 ^^^ rotr e 25) + ((e &&& f) ^^^ ((2 ^ 32 - 1 - e) &&& g)) + kw.1 + kw.2
    let t2 := (rotr a 2 ^^^ rotr a 13 ^^^ rotr a 22) + ((a &&& b) ^^^ (a &&& c) ^^^ (b &&& c))
    [(t1 + t2) % 2 ^ 32, a, b, c, (d + t1) % 2 ^ 32, e, f, g]
  | l => l

/-- The state of SHA-256 after a block of 64 bytes. -/
def shaBlock (st : List Nat) (blk : List Nat) : List Nat :=
  let w := (shaSched 48 ((List.range 16).map fun i => beNum ((blk.drop (4 * i)).take 4)).reverse).reverse
  ((shaK.zip w).foldl shaRound st).zipWith (fun a b => (a + b) % 2 ^ 32) st

/-- The blocks of a padded message, in order. -/
def shaBlocks : Nat → List Nat → List Nat → List Nat
  | 0, st, _ => st
  | n + 1, st, l => shaBlocks n (shaBlock st (l.take 64)) (l.drop 64)

/-- SHA-256. -/
def sha256 (m : List Nat) : List Nat :=
  let padded := m ++ [0x80] ++ copiesOf ((119 - m.length % 64) % 64) 0 ++ beNats 8 (8 * m.length)
  (shaBlocks (padded.length / 64) shaInit padded).flatMap (beNats 4)

/-- HMAC over SHA-256 for keys of at most 64 bytes. -/
def hmac256 (key m : List Nat) : List Nat :=
  let k := key ++ copiesOf (64 - key.length) 0
  sha256 (k.map (· ^^^ 0x5C) ++ sha256 (k.map (· ^^^ 0x36) ++ m))

/-- The wrap key of a session (R405): HKDF-Expand-Label of its secret with the label "keywrap", an empty context
and the length 32 (PRESUMED, log entry 2: the label's encoding is that of TLS 1.3). -/
def wrapKey (secret : List Byte) : List Byte :=
  let label : List Nat := [0x74, 0x6C, 0x73, 0x31, 0x33, 0x20, 0x6B, 0x65, 0x79, 0x77, 0x72, 0x61, 0x70]
  (hmac256 (secret.map BitVec.toNat) ([0, 32, label.length] ++ label ++ [0, 1])).map (BitVec.ofNat 8)

end Sys2Proof.Machine
end

