-- ==== Sys2Proof/Machine/Translate.lean ====
section
/-! DEFINITION. Physical memory and its homes, the walk of the page tables, the flat address with its checks
in the order of R271, the translation caches, and reads and writes at the place an address names, at its home or in a
cluster's L1 (R257 to R259, R345 to R362, R366, R368, R369, R382, R385, R403). -/
namespace Sys2Proof.Machine

/-- The home region of a physical address, as the bit 16 × die + g of PREGION (R346, R379). -/
def homeRegion (pa : Nat) : Nat := 16 * bits pa 38 2 + bits pa 34 4

/-- The home die of a physical address (R346). -/
def homeDie (pa : Nat) : Nat := bits pa 38 2

/-- The home slice of a physical address within its die (R346). -/
def homeSlice (pa : Nat) : Nat := 16 * bits pa 34 4 + (bits pa 7 4 ^^^ bits pa 11 4)

/-- The safe-tier region (R345). -/
def safeTier (pa : Nat) : Bool := 0x060000000000 ≤ pa && pa < 0x070000000000

/-- Whether an address holds memory under R345 and R446; the safe-tier region holds none for a partition. -/
def holdsMemory (s : State) (pa : Nat) : Bool :=
  (pa < 0x060000000000)
    || (0x8000000000000 ≤ pa && pa < 0x10000000000000)
    || (0x1000000000000 ≤ pa && pa < 0x8000000000000
        && s.pkg.windows.any fun w => w.2.2 != 0 && w.2.1 ≤ pa && pa < w.2.1 + w.2.2)

/-- The tier code of an address (R345). -/
def tierOf (pa : Nat) : Nat :=
  if pa < 0x010000000000 then 0 else if pa < 0x1000000000000 then 1 else if pa < 0x8000000000000 then 2 else 3

/-- Whether an address lies in a home region of the partition (R347). -/
def Part.owns (x : Part) (pa : Nat) : Bool := x.region.getLsbD (homeRegion pa)

/-- A page-table entry's fields (R349). -/
def pteV (e : Nat) : Bool := bit e 0
/-- W of an entry (R349). -/
def pteW (e : Nat) : Bool := bit e 1
/-- X of an entry (R349). -/
def pteX (e : Nat) : Bool := bit e 2
/-- U of an entry (R349). -/
def pteU (e : Nat) : Bool := bit e 3
/-- D of an entry (R349). -/
def pteD (e : Nat) : Bool := bit e 4
/-- Z of an entry (R349). -/
def pteZ (e : Nat) : Bool := bit e 5
/-- A of an entry (R349). -/
def pteA (e : Nat) : Bool := bit e 6
/-- M of an entry (R349). -/
def pteM (e : Nat) : Bool := bit e 7
/-- KIND of an entry (R349). -/
def pteKind (e : Nat) : Nat := bits e 8 3
/-- KEY of an entry (R349). -/
def pteKey (e : Nat) : Nat := bits e 11 4
/-- FRAME of an entry as a physical address (R349). -/
def pteFrame (e : Nat) : Nat := bits e 16 36 * 2 ^ 16

/-- What a walk ends in (R350, R351, R354). -/
inductive WalkEnd where
  | leaf
  | invalid
  | touch
  | malformed
  | busy
  | outside
  | writing
deriving DecidableEq, Repr

/-- The result of a walk: how it ended, the physical address (none before an entry is read), level and value of the last
entry read, and the lines of the entries read. -/
structure Walk where
  fin : WalkEnd
  entry : Option Nat
  level : Nat
  pte : Nat
  lines : List Nat
deriving DecidableEq, Repr

/-- The index of a virtual address at a level (R348). -/
def walkIndex (va level : Nat) : Nat :=
  match level with
  | 0 => bits va 55 2
  | 1 => bits va 42 13
  | 2 => bits va 29 13
  | _ => bits va 16 13

/-- Whether a valid entry is malformed at its level (R350). -/
def pteMalformed (s : State) (level e : Nat) : Bool :=
  bit e 15 || !holdsMemory s (pteFrame e)
    || (if level < 2 then pteKind e != 7
        else if level = 2 then !(pteKind e == 7 || (pteKind e < 3 && bits (pteFrame e) 16 13 == 0))
        else !(pteKind e < 3))

/-- Whether a partition's tables may lie at an address (R345, R347): in its home regions, where memory is held; the
safe tier holds none for it. -/
def tableOk (s : State) (x : Part) (pa : Nat) : Bool := x.owns pa && holdsMemory s pa && !safeTier pa

/-- Whether a write of a line is not performed yet (R357, R360): invalidations of its copies are outstanding. -/
def State.lineWriting (s : State) (line : Nat) : Bool := (s.dirEntry line).invals ≠ []

/-- The walk from a table at `base`, `n` levels remaining (R348, R350, R351, R354): a table outside the
partition's home regions is not read (R347), and an entry whose line's write is not performed yet is waited for (R357). -/
def walkFrom (s : State) (x : Part) (va : Nat) : Nat → Nat → Walk → Walk
  | 0, _, w => w
  | n + 1, base, w =>
    let level := 3 - n
    let pa := base + 8 * walkIndex va level
    if tableOk s x pa then
      let e := s.memNat pa 8
      let w1 : Walk := { fin := .invalid, entry := some pa, level := level, pte := e, lines := pa / 128 :: w.lines }
      if s.lineWriting (pa / 128) then { w1 with fin := .writing }
      else if pteV e && pteMalformed s level e then { w1 with fin := .malformed }
      else if 2 ≤ level && pteM e then { w1 with fin := .busy }
      else if !pteV e then { w1 with fin := if level = 3 && pteZ e then .touch else .invalid }
      else if pteKind e = 7 then walkFrom s x va n (pteFrame e) w1
      else { w1 with fin := .leaf }
    else { w with fin := .outside }

/-- The walk of a virtual address; PTROOT.EN at 0 maps nothing (R348). -/
def walk (s : State) (x : Part) (va : Nat) : Walk :=
  let w0 : Walk := { fin := .invalid, entry := none, level := 0, pte := 0, lines := [] }
  if x.ptroot.getLsbD 0 then walkFrom s x va 4 (bits x.ptroot.toNat 16 36 * 2 ^ 16) w0 else w0

/-- The physical address that a leaf gives a virtual address (R348). -/
def leafPa (w : Walk) (va : Nat) : Nat :=
  if w.level = 2 then pteFrame w.pte + bits va 0 29 else pteFrame w.pte + bits va 0 16

/-- The kinds of access that a check distinguishes (R351, R364). -/
inductive Acc where
  | read | write | atomic | fetch
deriving DecidableEq, Repr

/-- Whether an access writes. -/
def Acc.writes : Acc → Bool
  | .read => false
  | .write => true
  | .atomic => true
  | .fetch => false

/-- Where a translation came from (R348, R355, R368): the leaf entry (none for a physical address), its level and value,
the page's virtual address, and the physical address that reads by this agent use: a replica's, or the same. -/
structure Source where
  entry : Option Nat
  level : Nat
  pte : Nat
  va : Nat
  rd : Nat
deriving DecidableEq, Repr

/-- The source of a physical address that no walk gave. -/
def Source.direct (pa : Nat) : Source := { entry := none, level := 0, pte := 0, va := 0, rd := pa }

/-- The place that an address names: physical memory, with its page's KIND, key pair, source and the page-table lines its
translation came from, or scratchpad bytes by their key. -/
inductive Place where
  | phys (pa kind : Nat) (key : Option (List Byte)) (src : Source) (lines : List Nat)
  | spad (k : Nat)
deriving DecidableEq, Repr

/-- Physical memory at an address, of a normal page with a key pair. -/
def Place.direct (pa : Nat) (key : Option (List Byte)) : Place := .phys pa 0 key (.direct pa) []

/-- How a check of an address ends: a place, a trap with its rank in the order of R271 and R351, or a wait for a
busy entry (R354) or at the home of a page-table line (R357). -/
inductive Check where
  | ok (p : Place)
  | bad (rank cause : Nat)
  | wait (w : WaitFor)
deriving DecidableEq, Repr

/-- What decides how an agent's addresses are read: its partition, privilege, core and team, and whether its translations
go through its core's TLB (R355). -/
structure Agent where
  part : Nat
  priv : Bool
  core : Nat
  team : Option Nat
  cached : Bool := false
deriving DecidableEq, Repr

/-- A group as an agent. -/
def Group.agent (g : Group) (gid : Nat) : Agent :=
  { part := g.part, priv := g.priv, core := coreOf gid, team := g.team, cached := true }

/-- The team of a cohort with a member index (R117, R257). -/
def State.cohortMember (s : State) (t : Team) (m : Nat) : Option Team :=
  if m = t.member then some t
  else (s.teams.find? fun e =>
    e.2.grid = t.grid && e.2.leader = t.leader && e.2.member = m && (e.2.state = .resident || e.2.state = .held)).map
      (·.2)

/-- The ranks of the causes of R271 and R351, in their order. -/
def rankRegion : Nat := 1
/-- Misalignment (R271 step 2). -/
def rankAlign : Nat := 2
/-- Scratchpad bounds (R271 step 3). -/
def rankBounds : Nat := 3
/-- A malformed entry (R351 step 1). -/
def rankMalformed : Nat := 4
/-- An invalid entry (R351 step 3). -/
def rankInvalid : Nat := 5
/-- Permission (R351 step 4). -/
def rankPerm : Nat := 6
/-- A frame, table or key outside the partition (R351 step 5, R347). -/
def rankOutside : Nat := 7
/-- Range conflict (R271 step 5). -/
def rankRange : Nat := 8

/-- The virtual address of the page of a level that holds an address (R348). -/
def pageVa (level va : Nat) : Nat := if level = 2 then va / 2 ^ 29 * 2 ^ 29 else va / 2 ^ 16 * 2 ^ 16

/-- The entry of a translation cache for a virtual address of a partition (R355). -/
def tlbFind (es : List TlbEntry) (part va : Nat) : Option TlbEntry :=
  es.find? fun t => t.part = part && t.va = pageVa t.level va

/-- A held translation as the end of a walk. -/
def TlbEntry.walk (t : TlbEntry) : Walk :=
  { fin := .leaf, entry := some t.entry, level := t.level, pte := t.pte, lines := t.lines }

/-- The translation of a virtual address (R355): the one that the core's TLB or the die's translation cache holds, for an
agent that uses them, or else a walk. -/
def translate (s : State) (x : Part) (ag : Agent) (va : Nat) : Walk :=
  if !ag.cached then walk s x va
  else
    match tlbFind (smapGet [] s.tlbs ag.core) ag.part va with
    | some t => t.walk
    | none =>
      match tlbFind (smapGet [] s.dieTlbs (dieOf ag.core)) ag.part va with
      | some t => t.walk
      | none => walk s x va

/-- The physical address that a core's die reads for one of a page with D = 1 (R368): in its replica, or the same. -/
def State.replicaPa (s : State) (pa die : Nat) : Nat :=
  match tabGet s.pages (pa / 2 ^ 16) with
  | none => pa
  | some r =>
    match tabGet r.replicas die with
    | some f => f + pa % 2 ^ 16
    | none => pa

/-- The source that a walk's leaf gives an address (R355, R368). -/
def Walk.source (w : Walk) (s : State) (ag : Agent) (va : Nat) : Source :=
  { entry := w.entry, level := w.level, pte := w.pte, va := pageVa w.level va,
    rd := if ag.cached && pteD w.pte then s.replicaPa (leafPa w va) (dieOf ag.core) else leafPa w va }

/-- The check of a physical-window address (R352): the named bytes, without translation or key. -/
def checkWindow (s : State) (x : Part) (addr : Nat) : Check :=
  let pa := bits addr 0 52
  if bits addr 52 4 ≠ 0 then .bad rankRegion 0x0B
  else if safeTier pa then .bad rankOutside 0x18
  else if !holdsMemory s pa then .bad rankPerm 0x0B
  else if !x.owns pa then .bad rankOutside 0x18
  else .ok (.direct pa none)

/-- The check of a global virtual address (R351). -/
def checkGlobal (s : State) (ag : Agent) (addr : Nat) (acc : Acc) : Check :=
  match s.part ag.part with
  | none => .bad rankInvalid 0x0A
  | some x =>
    if ag.priv && bit addr 56 then checkWindow s x addr
    else
      let va := bits addr 0 57
      let w := translate s x ag va
      match w.fin with
      | .malformed => .bad rankMalformed 0x0B
      | .busy => .wait (.entryBusy (w.entry.getD 0))
      | .writing => .wait (.lineBusy (w.lines.headD 0))
      | .invalid => .bad rankInvalid 0x0A
      | .touch => .bad rankInvalid 0x0A
      | .outside => .bad rankOutside 0x18
      | .leaf =>
        if (!ag.priv && !pteU w.pte) || (acc.writes && !pteW w.pte) || (acc = .fetch && !pteX w.pte) then
          .bad rankPerm 0x0B
        else if !x.owns (leafPa w addr) then .bad rankOutside 0x18
        else if pteKey w.pte = 0 then .ok (.phys (leafPa w addr) (pteKind w.pte) none (w.source s ag va) w.lines)
        else
          match tabGet x.keys (pteKey w.pte) with
          | some k => .ok (.phys (leafPa w addr) (pteKind w.pte) (some k) (w.source s ag va) w.lines)
          | none => .bad rankOutside 0x18

/-- The check of one access of `z` bytes, aligned to `al`, at a flat address: region, alignment, scratchpad
bounds, translation (R257, R258, R271, R382). -/
def checkAddr (s : State) (ag : Agent) (addr : Nat) (z al : Nat) (acc : Acc) : Check :=
  let mis := addr % al ≠ 0
  match bits addr 60 4 with
  | 0 =>
    if bits addr 57 3 ≠ 0 then .bad rankRegion 0x0B
    else if ag.priv && bit addr 56 && bits addr 52 4 ≠ 0 then .bad rankRegion 0x0B
    else if mis then .bad rankAlign 0x09
    else checkGlobal s ag addr acc
  | 1 =>
    if bits addr 32 28 ≠ 0 then .bad rankRegion 0x0B
    else if mis then .bad rankAlign 0x09
    else
      match ag.team.bind s.team with
      | none => .bad rankBounds 0x08
      | some t =>
        if t.winLen < bits addr 0 32 + z then .bad rankBounds 0x08 else .ok (.spad (t.key (bits addr 0 32)))
  | 2 =>
    if bits addr 28 32 ≠ 0 then .bad rankRegion 0x0B
    else if mis then .bad rankAlign 0x09
    else
      match (ag.team.bind s.team).bind fun t =>
          if bits addr 24 4 < t.cohort then s.cohortMember t (bits addr 24 4) else none with
      | none => .bad rankBounds 0x08
      | some t =>
        if t.winLen < bits addr 0 24 + z then .bad rankBounds 0x08 else .ok (.spad (t.key (bits addr 0 24)))
  | 3 =>
    if !ag.priv then .bad rankRegion 0x02
    else if bits addr 19 41 ≠ 0 then .bad rankRegion 0x0B
    else
      match s.part ag.part with
      | none => .bad rankBounds 0x08
      | some x =>
        let f := bits addr 0 19
        let lim := 2 ^ 16 * x.kitty.toNat
        if acc.writes && 2 ^ 16 ≤ f && f < lim then .bad rankRegion 0x0B
        else if mis then .bad rankAlign 0x09
        else if lim < f + z then .bad rankBounds 0x08
        else .ok (.spad (spadKey ag.core (kittyBase x + f)))
  | _ => .bad rankRegion 0x0B

/-- A line's 128 bytes in plaintext under a page's key (R403). -/
def State.plainLine (s : State) (key : Option (List Byte)) (line : Nat) : List Byte :=
  match key with
  | none => s.bytes (128 * line) 128
  | some k => xtsDecLine k (128 * line) (s.bytes (128 * line) 128)

/-- The bytes that a group's own stores have left waiting for a collapse (R369), over bytes read at a physical address. -/
def State.heldOver (s : State) (pa : Nat) (bs : List Byte) : List Byte :=
  match s.cur with
  | none => bs
  | some gid =>
    match tabGet s.pages (pa / 2 ^ 16) with
    | none => bs
    | some r => (r.held.filter fun h => h.by_ = some gid).foldl (fun (a : List Byte) h =>
        (List.range a.length).map fun i =>
          if h.pa ≤ pa + i && pa + i < h.pa + h.bytes.length then h.bytes.getD (pa + i - h.pa) 0 else a.getD i 0) bs

/-- Bytes read at the home of a place (R259, R368, R403). -/
def State.readAt (s : State) (p : Place) (n : Nat) : List Byte :=
  match p with
  | .spad k => s.sbytes k n
  | .phys pa _ none src _ => s.heldOver pa (s.bytes src.rd n)
  | .phys pa _ (some k) src _ =>
    s.heldOver pa (if pa % 128 + n ≤ 128 then ((s.plainLine (some k) (src.rd / 128)).drop (pa % 128)).take n
    else ((s.plainLine (some k) (src.rd / 128)).drop (pa % 128)
      ++ s.plainLine (some k) (src.rd / 128 + 1)).take n)

/-- Each die's pool of a page size: 2 × die for 64 KiB frames, 2 × die + 1 for 512 MiB (R371). -/
def poolKey (die : Nat) (large : Bool) : Nat := 2 * die + if large then 1 else 0

/-- The frames of a pool, the most recently added first (R371). -/
def Part.pool (x : Part) (k : Nat) : List Nat := smapGet [] x.pools k

/-- A frame pushed on a pool of a partition (R371): a full pool, of 65,536 frames, takes no more (log entry 105). -/
def State.pushFrame (s : State) (part die frame : Nat) : State :=
  s.modPart part fun x =>
    if 65536 ≤ (x.pool (poolKey die false)).length then x
    else { x with pools := smapPut [] x.pools (poolKey die false) (frame :: x.pool (poolKey die false)) }

/-- The frame of a pool last added, taken (R371). -/
def State.popFrame (s : State) (part k : Nat) : Option (Nat × State) :=
  match s.part part with
  | none => none
  | some x =>
    match x.pool k with
    | [] => none
    | f :: r => some (f, s.setPart part { x with pools := smapPut [] x.pools k r })

/-- A page record with nothing counted yet (R366). -/
def PageRec.fresh (part : Nat) : PageRec :=
  { entry := none, level := 3, part := part, alias_ := false, counts := [0, 0, 0, 0], replicas := [], want := none,
    moving := none, collapsing := false, held := [] }

/-- The page record of a frame (R366). -/
def State.page (s : State) (part f : Nat) : PageRec := (tabGet s.pages f).getD (.fresh part)

/-- A page record entered (R366). -/
def State.setPage (s : State) (f : Nat) (r : PageRec) : State := { s with pages := smapInsert s.pages f r }

/-- Bytes of physical memory written in the stored form of a page's key (R403). -/
def State.storeBytes (s : State) (pa : Nat) (key : Option (List Byte)) (bs : List Byte) : State :=
  match key with
  | none => s.setBytes pa bs
  | some k =>
    (linesOf pa bs.length).foldl (fun t l =>
      let old := t.plainLine (some k) l
      let new := (List.range 128).map fun i =>
        if pa ≤ 128 * l + i && 128 * l + i < pa + bs.length then bs.getD (128 * l + i - pa) 0 else old.getD i 0
      t.setBytes (128 * l) (xtsEncLine k (128 * l) new)) s

/-- A collapse begins (R369, steps 1 and 2): the entry is stored with D = 0, a write under R356. The replica record goes when
that write is performed. -/
def State.collapse (s : State) (f : Nat) (r : PageRec) : State :=
  let s1 := s.setPage f { r with collapsing := true }
  match r.entry with
  | none => s1
  | some a =>
    let e := s1.memNat a 8
    if pteFrame e = f * 2 ^ 16 && pteD e then (s1.setBytes a (toBytes 8 (e - 2 ^ 4))).dirMerge (a / 128) none else s1

/-- Bytes written to memory. In a page with replicas they wait for the collapse that they begin (R369); by whom they are
written is who issues now. -/
def State.putMem (s : State) (pa : Nat) (key : Option (List Byte)) (bs : List Byte) : State :=
  match (tabGet s.pages (pa / 2 ^ 16)).filter fun r => r.replicas ≠ [] with
  | none => s.storeBytes pa key bs
  | some r =>
    let s1 := if r.collapsing then s else s.collapse (pa / 2 ^ 16) r
    s1.setPage (pa / 2 ^ 16) { s1.page r.part (pa / 2 ^ 16) with
      held := r.held ++ [{ by_ := s.cur, pa := pa, key := key, bytes := bs }] }

/-- Bytes written at the home of a place, replacing what was there (R369, R403). The directory is told by the caller. -/
def State.putAt (s : State) (p : Place) (bs : List Byte) : State :=
  match p with
  | .spad k => s.setSbytes k bs
  | .phys pa _ key _ _ => s.putMem pa key bs

/-- The lines that a write at a place touches; a scratchpad has none. -/
def Place.lines : Place → Nat → List Nat
  | .spad _, _ => []
  | .phys pa _ _ _ _, n => linesOf pa n

/-- The page-table lines that a place's translation came from (R355). -/
def Place.walked : Place → List Nat
  | .spad _ => []
  | .phys _ _ _ _ ls => ls

/-- A store to a page-table entry of a duplicated page that changes D or FRAME discards its replica record
(R369), and the frames return to their pools; `line` has been written. A collapse or a `dupset` in progress does so itself. -/
def State.checkReplicas (s : State) (line : Nat) : State :=
  s.pages.foldl (fun t r =>
    if r.2.entry.map (· / 128) = some line && r.2.replicas ≠ [] && !r.2.collapsing && r.2.moving.isNone then
      let e := t.memNat (r.2.entry.getD 0) 8
      if pteD e && pteFrame e = r.1 * 2 ^ 16 then t
      else
        let t1 := r.2.replicas.foldl (fun u d => u.pushFrame r.2.part d.1 d.2) t
        t1.setPage r.1 { r.2 with replicas := [] }
    else t) s

/-- A write by an engine, a unit of the package or the outside world: the bytes, the home's merge, and what a page-table
write entails (R360, R369). -/
def State.writeMem (s : State) (pa : Nat) (bs : List Byte) : State :=
  let ls := linesOf pa bs.length
  ls.foldl (fun t l => t.checkReplicas l) ((s.putMem pa none bs).dirStrong ls)

/-- Dirty bytes of a copy merged at the home (R360, R361): they replace the line's bytes, and every other holder is to be
invalidated. -/
def State.mergeCopy (s : State) (line cluster : Nat) (c : L1Copy) : State :=
  let old := s.plainLine c.key line
  let new := (List.range 128).map fun i => if c.dirty.getLsbD i then c.data.getD i 0 else old.getD i 0
  let s1 := match c.key with
    | none => (List.range 128).foldl (fun (t : State) i =>
        if c.dirty.getLsbD i then t.setByte (128 * line + i) (c.data.getD i 0) else t) s
    | some k => s.setBytes (128 * line) (xtsEncLine k (128 * line) new)
  (s1.dirMerge line (some (.l1 cluster))).checkReplicas line

/-- Everything that a cluster has sent of a line, and then its dirty bytes, merged at the home, in the order sent (R360,
R362). -/
def State.l1Flush (s : State) (cluster line : Nat) : State :=
  let e := s.dirEntry line
  let sent := (e.arriving.filter fun a => a.1 = cluster).map (·.2)
  let own := ((tabGet e.l1 cluster).filter fun c => c.dirty ≠ 0).toList
  if sent = [] ∧ own = [] then s
  else
    let s1 := s.setDir line { e with arriving := e.arriving.filter fun a => a.1 ≠ cluster,
                                     l1 := e.l1.map fun c => if c.1 = cluster then (c.1, { c.2 with dirty := 0 }) else c }
    (sent ++ own).foldl (fun t c => t.mergeCopy line cluster c) s1

/-- A cluster's strong access to a line follows what its L1 has for the home (R360). -/
def State.l1FlushAll (s : State) (cluster : Nat) (ls : List Nat) : State := ls.foldl (fun t l => t.l1Flush cluster l) s

/-- A strong write at a place: bytes, the homes' merges, and what a page-table write entails (R356, R360). -/
def State.strongPut (s : State) (p : Place) (bs : List Byte) : State :=
  let ls := p.lines bs.length
  ls.foldl (fun t l => t.checkReplicas l) ((s.putAt p bs).dirStrong ls)

/-- The copy of a cluster's L1 goes with a strong write of its own core, which passes it. -/
def State.l1Drop (s : State) (cluster line : Nat) : State :=
  let e := s.dirEntry line
  s.setDir line { e with holders := e.holders.filter fun h => h ≠ .l1 cluster, invals := e.invals.filter fun h => h ≠ .l1 cluster,
                         l1 := smapErase e.l1 cluster }

/-- A strong write by a core of a cluster (R360): after what its L1 has sent, and past its L1's copies. -/
def State.coreStrongPut (s : State) (cluster : Nat) (p : Place) (bs : List Byte) : State :=
  let ls := p.lines bs.length
  (ls.foldl (fun t l => t.l1Drop cluster l) (s.l1FlushAll cluster ls)).strongPut p bs

/-- Whether a cluster's L1 holds every line of an access at a place as a copy under the page's key (R259, R360): of the
frame that the access reads, or of the one that it writes. -/
def State.l1Hit (s : State) (cluster : Nat) (p : Place) (n : Nat) (writes : Bool) : Bool :=
  match p with
  | .spad _ => false
  | .phys pa kind key src _ =>
    kind = 0 && (linesOf (if writes then pa else src.rd) n).all fun l =>
      (s.l1Copy l cluster key).isSome && !(writes && s.transHeld l)

/-- Whether a page has replicas. -/
def State.replicated (s : State) (pa : Nat) : Bool := (tabGet s.pages (pa / 2 ^ 16)).any fun r => r.replicas ≠ []

/-- Bytes put into a copy of line `l`, dirty: `bs` from physical address `pa` (R360). -/
def L1Copy.put (c : L1Copy) (l pa : Nat) (bs : List Byte) (now : Nat) : L1Copy :=
  let at_ := fun i => decide (pa ≤ 128 * l + i) && decide (128 * l + i < pa + bs.length)
  { c with data := (List.range 128).map fun i => if at_ i then bs.getD (128 * l + i - pa) 0 else c.data.getD i 0,
           dirty := (List.range 128).foldl (fun (a : BitVec 128) i => if at_ i then a ||| BitVec.twoPow 128 i else a) c.dirty,
           since := if c.dirty = 0 then now else c.since }

/-- A weak write at a place by a cluster (R356, R360): into its L1's copies, dirty, unless translations hold a line or the
page has replicas; otherwise at the home. -/
def State.weakPut (s : State) (cluster : Nat) (p : Place) (bs : List Byte) : State :=
  match p with
  | .spad k => s.setSbytes k bs
  | .phys pa _ _ _ _ =>
    if s.l1Hit cluster p bs.length true && !s.replicated pa then
      (linesOf pa bs.length).foldl (fun t l =>
        let e := t.dirEntry l
        t.setDir l { e with l1 := e.l1.map fun c => if c.1 = cluster then (c.1, c.2.put l pa bs t.clock) else c }) s
    else s.coreStrongPut cluster p bs

/-- What a weak read by a cluster finds at a place (R259): the bytes of its L1's copies, or those of the home. -/
def State.weakBytes (s : State) (cluster : Nat) (p : Place) (n : Nat) : List Byte :=
  match p with
  | .spad k => s.sbytes k n
  | .phys pa _ key src _ =>
    if s.l1Hit cluster p n false then
      s.heldOver pa ((((linesOf src.rd n).flatMap fun l => ((s.l1Copy l cluster key).map (·.data)).getD []).drop (src.rd % 128)).take n)
    else s.readAt p n

/-- A weak read of a normal page leaves the lines in the cluster's L1, unless the access asks for no allocation
(R259, R349). -/
def State.readFill (s : State) (cluster : Nat) (p : Place) (n : Nat) (noAlloc : Bool) : State :=
  match p with
  | .spad _ => s
  | .phys _ kind key src _ =>
    if kind = 0 && !noAlloc then
      (linesOf src.rd n).foldl (fun t l => t.l1Fill l cluster key (t.plainLine key l)) s
    else s

/-- The holders that a core's TLB and its die's cache no longer are of `ls`, where no entry left there comes from them
(R355). -/
def State.dropHolder (s : State) (h : Holder) (left : List TlbEntry) (ls : List Nat) : State :=
  ls.foldl (fun t l =>
    if left.any fun e => e.lines.contains l then t
    else
      let e := t.dirEntry l
      t.setDir l { e with holders := e.holders.filter fun x => x ≠ h, invals := e.invals.filter fun x => x ≠ h }) s

/-- Entries leave a core's TLB (R355): the last-page registers with those translations are cleared. -/
def State.tlbDrop (s : State) (core : Nat) (out : TlbEntry → Bool) : State :=
  let es := smapGet [] s.tlbs core
  let gone := es.filter out
  let left := es.filter fun e => !out e
  let s1 := { s with tlbs := smapPut [] s.tlbs core left,
                     groups := s.groups.map fun (g : Nat × Group) =>
                       if coreOf g.1 = core then
                         (g.1, { g.2 with lastPages := g.2.lastPages.filter fun q => left.any fun e => e.va == q.2 })
                       else g }
  s1.dropHolder (.coreTlb core) left (gone.flatMap fun (e : TlbEntry) => e.lines).eraseDups

/-- Entries leave a die's translation cache (R355). -/
def State.dieTlbDrop (s : State) (die : Nat) (out : TlbEntry → Bool) : State :=
  let es := smapGet [] s.dieTlbs die
  let left := es.filter fun e => !out e
  { s with dieTlbs := smapPut [] s.dieTlbs die left }.dropHolder (.dieXlat die) left
    ((es.filter out).flatMap fun (e : TlbEntry) => e.lines).eraseDups

/-- A translation enters a die's cache of 16,384 entries (R355); the oldest entry leaves a full one (log entry 16). -/
def State.dieTlbAdd (s : State) (die : Nat) (t : TlbEntry) : State :=
  let es := smapGet [] s.dieTlbs die
  if es.contains t then s
  else
    let s1 := if es.length < 16384 then s else s.dieTlbDrop die fun e => some e == es.getLast?
    t.lines.foldl (fun u l => u.dirFill l (.dieXlat die))
      { s1 with dieTlbs := smapPut [] s1.dieTlbs die (t :: smapGet [] s1.dieTlbs die) }

/-- A translation enters a core's TLB of 512 entries (R355); the oldest entry leaves a full one (log entry 16). -/
def State.tlbAdd (s : State) (core : Nat) (t : TlbEntry) : State :=
  let es := smapGet [] s.tlbs core
  if es.contains t then s
  else
    let s1 := if es.length < 512 then s else s.tlbDrop core fun e => some e == es.getLast?
    t.lines.foldl (fun u l => u.dirFill l (.coreTlb core))
      { s1 with tlbs := smapPut [] s1.tlbs core (t :: smapGet [] s1.tlbs core) }

/-- What a page record learns from a walk that installs a translation of its frame (R366): the entry that maps it, its level,
and ALIAS when two walks report different entries. -/
def PageRec.learn (r : PageRec) (entry level : Nat) : PageRec :=
  { r with entry := r.entry.getD entry, level := if r.entry.isNone then level else r.level,
           alias_ := r.alias_ || (r.entry.isSome && r.entry ≠ some entry) }

/-- A walk installs its leaf (R353, R366): the A bit, and what the frame's record learns. -/
def State.markEntry (s : State) (part pa : Nat) (src : Source) (entry : Nat) : State :=
  let s1 := if pteA (s.memNat entry 8) then s else s.setByte entry (s.byte entry ||| 0x40)
  s1.setPage (pa / 2 ^ 16) ((s1.page part (pa / 2 ^ 16)).learn entry src.level)

/-- The translation of a place taken by a core (R353, R355, R366): the walk's marks, and entries in the core's TLB and its
die's cache, which hold the page-table lines. -/
def State.install (s : State) (part core : Nat) (p : Place) : State :=
  match p with
  | .spad _ => s
  | .phys pa _ _ src ls =>
    match src.entry with
    | none => s
    | some a =>
      let t : TlbEntry := { part := part, va := src.va, level := src.level, entry := a, pte := src.pte, lines := ls }
      if (smapGet [] s.tlbs core).contains t then s
      else if (smapGet [] s.dieTlbs (dieOf core)).contains t then s.tlbAdd core t
      else ((s.markEntry part pa src a).dieTlbAdd (dieOf core) t).tlbAdd core t

/-- A translation that a walk of no core installs (R353, R355), of an endpoint or a dispatcher: the home die's translation cache
holds it. -/
def State.installRemote (s : State) (part : Nat) (p : Place) : State :=
  match p with
  | .spad _ => s
  | .phys pa _ _ src ls =>
    match src.entry with
    | none => s
    | some a =>
      (s.markEntry part pa src a).dieTlbAdd (homeDie pa)
        { part := part, va := src.va, level := src.level, entry := a, pte := src.pte, lines := ls }

/-- A lane's last-page register set to its access's page (R355). -/
def State.lastPage (s : State) (gid lane : Nat) (p : Place) : State :=
  match p with
  | .spad _ => s
  | .phys _ _ _ src _ =>
    if src.entry.isNone then s
    else s.modGroup gid fun g => { g with lastPages := smapInsert g.lastPages lane src.va }

/-- A request that a frame's homes receive, counted on its page record (R366). -/
def State.countPage (s : State) (part core : Nat) (p : Place) : State :=
  match p with
  | .spad _ => s
  | .phys pa _ _ _ _ =>
    let r := s.page part (pa / 2 ^ 16)
    s.setPage (pa / 2 ^ 16)
      { r with counts := listSet r.counts (dieOf core) (min 255 (r.counts.getD (dieOf core) 0 + 1)) }

/-- A holder without a copy any more (R361, R362): an L1's bytes are merged, and translations from the line leave a TLB or a
die's cache. -/
def State.holderGone (s : State) (h : Holder) (line : Nat) : State :=
  let s1 := match h with
    | .l1 c => (s.l1Flush c line).l1Drop c line
    | .coreTlb c => s.tlbDrop c fun e => e.lines.contains line
    | .dieXlat d => s.dieTlbDrop d fun e => e.lines.contains line
    | _ => s
  s1.dropHolder h [] [line]

/-- Whether no holder still owes an acknowledgement for a write of a line, no L1 still has bytes for the home, and no merge
is on its way (R263, R360). -/
def State.lineDone (s : State) (l : Nat) : Bool :=
  let e := s.dirEntry l
  e.invals = [] && e.arriving = [] && e.l1.all fun c => c.2.dirty = 0

/-- Whether the writes of lines have reached every holder, in pages whose collapse is over (R263, R360, R369). -/
def State.linesDone (s : State) (ls : List Nat) : Bool :=
  ls.all fun l => s.lineDone l && (tabGet s.pages (l / 512)).all fun r => !r.collapsing

/-- Whether an access that has not been performed uses a translation derived from a line (R356): an operation of a
group, a chunk of a copy, a remote write or a request of another package; `skip` leaves some out, by number and lines written. -/
def State.usesLine (s : State) (line : Nat) (skip : Nat → List Nat → Bool) : Bool :=
  (s.groups.any fun e => e.2.pend.any fun q => q.2.walked.contains line && !skip q.1 q.2.lines)
    || (s.copies.any fun e => e.2.walked.contains line && !skip e.1 e.2.lines)
    || (s.fabric.any fun e => e.2.walked.contains line && !skip e.1 e.2.lines)
    || (s.foreign.any fun e => e.2.walked.contains line && !skip e.1 e.2.lines)

/-- Whether an access other than the operation `own` and those that write the line uses a translation from it (R356). -/
def State.walkInUse (s : State) (own line : Nat) : Bool := s.usesLine line fun id ls => id = own || ls.contains line

/-- Whether a line is in a page whose collapse rewrites the entry in the line `l` (R369): its home holds writes to it. -/
def State.heldFor (s : State) (l line : Nat) : Bool :=
  (tabGet s.pages (line / 512)).any fun r => r.collapsing && r.entry.map (· / 128) = some l

/-- Whether a holder must still wait with its acknowledgement for accesses that used a translation from a line (R356): those
that the home of a collapsing page holds come after (R369). -/
def State.awaited (s : State) (line : Nat) : Bool :=
  s.usesLine line fun _ ls => ls.contains line || ls.any fun l => s.heldFor line l

/-- Whether a write by the hardware of the entry at an address is performed (R356, R367, R369, R376). -/
def State.entryPerformed (s : State) (a : Nat) : Bool := s.lineDone (a / 128) && !s.awaited (a / 128)

/-- Whether a write to the lines `ls` is performed (R263, R356): every invalidation acknowledged, and no access
outstanding that used a translation from them. -/
def State.writePerformed (s : State) (own : Nat) (ls : List Nat) : Bool :=
  s.linesDone ls && ls.all fun l => !s.walkInUse own l

/-- What a cluster's earlier stores to lines still lack is done (R263, R277): its dirty bytes are merged, and the other L1s have
acknowledged. -/
def State.settleLines (s : State) (cluster : Nat) (ls : List Nat) : State :=
  (s.l1FlushAll cluster ls) |> fun t => ls.foldl (fun u l =>
    (u.dirEntry l).invals.foldl (fun w h =>
      match h with
      | .l1 c => w.holderGone (.l1 c) l
      | _ => w) u) t

/-- The bytes that a place holds, noted before a thread's store replaces them (R274, R283); `mask` is that of the storing
split. The notes of the last 1,024 steps are kept (log entry 103). -/
def State.noteOld (s : State) (gid : Nat) (mask : DWord) (key : Nat) (old new : List Byte) : State :=
  { s with hist := ((List.range old.length).filterMap fun i =>
      if old.getD i 0 = new.getD i 0 then none
      else some { key := key + i, val := old.getD i 0, gid := gid, mask := mask, at_ := s.tick }) ++ s.hist.filter fun h => s.tick ≤ h.at_ + 1024 }

/-- The values that a weak load by a split of a group may still read of a byte in place of its present one (R275, R277, R283):
those replaced since the group synchronised and since the split itself last stored there. -/
def State.staleBytes (s : State) (gid : Nat) (mask : DWord) (since key : Nat) : List Byte :=
  let hs := s.hist.filter fun h => h.key = key && since < h.at_ && s.tick ≤ h.at_ + 1024
  let own := (hs.filter fun h => h.gid = gid && h.mask &&& mask != 0).foldl (fun a h => max a h.at_) since
  (hs.filter fun h => own < h.at_).map (·.val)

/-- The bytes that a weak load finds at a place, each the present one or one that a racing store replaced (R274, R275, R283). -/
def State.staleRead (s : State) (gid : Nat) (mask : DWord) (since key : Nat) : List Byte → State × List Byte
  | [] => (s, [])
  | b :: r =>
    let q := s.staleRead gid mask since (key + 1) r
    match s.staleBytes gid mask since key with
    | [] => (q.1, b :: q.2)
    | os => (q.1.fresh, os.getD (Config.choose q.1.serial % (os.length + 1)) b :: q.2)

/-- Append a record to a queue whose header has a physical address (R385): false when there is no room, or where its buffer
leaves the partition's home regions. -/
def State.appendRecord (s : State) (x : Part) (hdr : Nat) (bs : List Byte) : Bool × State :=
  let qbase := s.memNat hdr 8
  let qsize := s.memNat (hdr + 8) 4
  let wr := s.memNat (hdr + 0x0C) 4
  let rd := s.memNat (hdr + 0x10) 4
  if qsize = 0 then (false, s)
  else if !tableOk s x (qbase + wr % qsize) then (false, s)
  else if qsize < (wr + 2 ^ 32 - rd) % 2 ^ 32 + bs.length then (false, s)
  else (true, (s.writeMem (qbase + wr % qsize) bs).writeMem (hdr + 0x0C) (toBytes 4 (wr + bs.length)))

/-- The LOST counter of a queue header one higher (R385). -/
def State.lostRecord (s : State) (hdr : Nat) : State :=
  s.writeMem (hdr + 0x14) (toBytes 4 (s.memNat (hdr + 0x14) 4 + 1))

/-- A kill record (R394) written to a partition's kill queue (R385): a full queue, or a KQ of 0, drops it and adds 1 to LOST. A
KQ of 0 names no header, so the partition keeps that count itself (log entry 104). -/
def State.killRecord (s : State) (part : Nat) (tpc : DWord) (cause : Nat) (second : Bool) (where_ : Nat)
    (grid team : Nat) (tval : DWord) : State :=
  match s.part part with
  | none => s
  | some x =>
    if x.kq = 0 then s.setPart part { x with lost := x.lost + 1 }
    else
      let rec_ := toBytes 8 tpc.toNat ++ toBytes 4 (cause + if second then 256 else 0) ++ toBytes 4 where_
        ++ toBytes 4 grid ++ toBytes 4 team ++ toBytes 8 tval.toNat
      match s.appendRecord x x.kq.toNat rec_ with
      | (true, t) => t
      | (false, t) => t.lostRecord x.kq.toNat

end Sys2Proof.Machine
end

