-- ==== Sys2Proof/Machine/Arrival.lean ====
section
/-! DEFINITION. Who holds a seat by its table entry (R335, R337), and arrivals in the team window of the holder (R340), in
place or in a saved image (R391). -/
namespace Sys2Proof.Machine

/-- The index of a seat name (R333). -/
def seatIndex (seat : DWord) : Nat := bits seat.toNat 16 22

/-- The generation of a seat name (R333). -/
def seatGen (seat : DWord) : Nat := bits seat.toNat 0 16

/-- Who holds a seat (R335, R337): nobody under that generation, a group in motion, a group of a core, or a group of a
saved team with the team's image. -/
inductive SeatHolder where
  | stale
  | moving
  | live (gid : Nat)
  | saved (image : Nat)
deriving DecidableEq, Repr

/-- The low 8 bytes of a seat-table entry (R335). -/
def State.seatWord (s : State) (x : Part) (idx : Nat) : Nat := s.memNat (x.seatBase.toNat + 32 * idx) 8

/-- The holder of a seat name in a partition's table (R333, R335). -/
def State.seatHolder (s : State) (part : Nat) (seat : DWord) : SeatHolder :=
  match s.part part with
  | none => .stale
  | some x =>
    let idx := seatIndex seat
    let w := s.seatWord x idx
    if x.seatCap.toNat ≤ idx || bits w 32 16 ≠ seatGen seat then .stale
    else
      match bits w 25 3 with
      | 1 => .live (gidOfWhere w)
      | 2 => .live (gidOfWhere w)
      | 3 => .saved (s.memNat (x.seatBase.toNat + 32 * idx + 8) 8)
      | 4 => .moving
      | _ => .stale

/-- The home package of a seat name (R333). -/
def seatPkg (seat : DWord) : Nat := bits seat.toNat 38 10

/-- An endpoint's lookup of a seat leaves the entry's line in a seat cache (R17, R335): that of the I/O die whose planes
carry the line's address (log entry 101). -/
def State.noteSeat (s : State) (part : Nat) (seat : DWord) : State :=
  match s.part part with
  | none => s
  | some x =>
    let line := (x.seatBase.toNat + 32 * seatIndex seat) / 128
    if x.seatCap.toNat ≤ seatIndex seat then s else s.dirFill line (.seatCache (line % 8 / 4))

/-- The team whose saved image has an address. -/
def State.teamOfImage (s : State) (image : Nat) : Option (Nat × Team) :=
  s.teams.find? fun e => e.2.state = .preempted && e.2.image = some image

/-- How an arrival ends (R340): applied, to be applied later, without a holder, or beyond the team's scratchpad. -/
inductive ArrivalEnd where
  | applied (s : State)
  | waits
  | stale
  | beyond

/-- A pot in a saved window credited (R340). -/
def State.creditPotMem (s : State) (pa n : Nat) : State :=
  s.writeMem pa (toBytes 4 (min (s.memNat pa 4 + n) 0xFFFFFFFF))

/-- Whether an arrival's bytes and pot lie within a window (R294, R323). -/
def arrivalFits (a : Arrival) (len : Nat) : Bool :=
  (a.data = [] || a.off + a.data.length ≤ len) && (match a.pot with
    | some p => p + 16 ≤ len
    | none => true)

/-- An arrival applied to the team of a seat holder (R340): bytes written and the pot credited, or its FAIL bit set. -/
def State.applyArrival (s : State) (part : Nat) (a : Arrival) (fail : Bool) : ArrivalEnd :=
  match s.seatHolder part a.seat with
  | .stale => .stale
  | .moving => .waits
  | .live gid =>
    match (s.group gid).bind fun g => g.team.bind s.team with
    | none => .beyond
    | some t =>
      if !arrivalFits a t.winLen then .beyond
      else
        let s1 := (s.noteSeat part a.seat).setSbytes (t.key a.off) a.data
        .applied (match a.pot with
          | none => s1
          | some p => if fail then s1.failPot (t.key p) else s1.creditPot (t.key p) a.credit)
  | .saved image =>
    match s.teamOfImage image with
    | none => .stale
    | some t =>
      if !arrivalFits a t.2.winLen then .beyond
      else
        let base := image + 0x280
        let s0 := s.noteSeat part a.seat
        let s1 := if a.data = [] then s0 else s0.writeMem (base + a.off) a.data
        .applied (match a.pot with
          | none => s1
          | some p =>
            if fail then s1.writeMem (base + p + 8) [s1.byte (base + p + 8) ||| 1] else s1.creditPotMem (base + p) a.credit)

/-- An arrival that waits at its home while the seat entry is Moving (R340). -/
def State.holdArrival (s : State) (part : Nat) (a : Arrival) (fail : Bool) (sender : Option (Nat × Nat × Nat)) : State :=
  { s with nextId := s.nextId + 1,
           arrivals := smapInsert s.arrivals s.nextId { part := part, arr := a, fail := fail, sender := sender } }

end Sys2Proof.Machine
end

