-- ==== Sys2Proof/Machine/Kill.lean ====
section
/-! DEFINITION. What leaves with a group: its seat, ring bindings, copies, fabric requests, locks, hand and
record, when it exits or is killed (R107, R123, R307, R334, R344, R393). -/
namespace Sys2Proof.Machine

/-- The low half of a seat-table entry (R335). -/
def seatLow (gen part st gid : Nat) : Nat :=
  gen * 2 ^ 32 + part * 2 ^ 28 + st * 2 ^ 25
    + (if st = 1 ∨ st = 2 then whereOf gid else 0)

/-- A seat-table entry of a partition written: generation, state, group and image (R335). -/
def State.putSeat (s : State) (part idx gen st gid image : Nat) : State :=
  match s.part part with
  | none => s
  | some x =>
    let low := if st = 0 then gen * 2 ^ 32 else seatLow gen part st gid
    s.writeMem (x.seatBase.toNat + 32 * idx) (toBytes 8 low ++ toBytes 8 image ++ toBytes 16 0)

/-- A group's seat entry moved to a state (R335). -/
def State.seatState (s : State) (gid : Nat) (g : Group) (st image : Nat) : State :=
  if g.seat = 0 then s else s.putSeat g.part (seatIndex g.seat) (seatGen g.seat) st gid image

/-- A ring after the group of an index has exited or been killed (R123): a held slot is released, the position
passes every slot, and a producer closes the ring. -/
def Ring.leave (r : Ring) (idx : Nat) : Ring :=
  let r1 := if r.producer = some idx then { r with closed := true } else r
  (List.range r1.pos.length).foldl (fun (q : Ring) j =>
    match q.pos[j]? with
    | none => q
    | some ps =>
      if ps.owner = some idx && !ps.gone then
        { q with pos := listSet q.pos j { ps with gone := true, held := none },
                 slots := q.slots.map fun sl =>
                   { sl with pass := sl.pass ||| BitVec.twoPow 8 j, hold := sl.hold &&& ~~~(BitVec.twoPow 8 j) } }
      else q) r1

/-- The pot of a copy, as a scratchpad key; none when it credits no local pot. -/
def State.copyPot (s : State) (c : Copy) : Option Nat :=
  if c.potOn then ((s.group c.gid).bind fun g => g.team.bind s.team).map fun t => t.key c.pot else none

/-- An arrival of this package applied, or held while its seat is Moving (R340); without a holder, or beyond its team, it does
nothing. -/
def State.arrive (s : State) (part : Nat) (a : Arrival) (fail : Bool) : State :=
  match s.applyArrival part a fail with
  | .applied t => t
  | .waits => s.holdArrival part a fail none
  | _ => s

/-- FAIL of the pot that a copy credits (R296): its own, or the one of a queue's consumer of this package, once the header
that names it has been read. -/
def State.failCopyPot (s : State) (c : Copy) : State :=
  match s.copyPot c with
  | some k => s.failPot k
  | none =>
    if c.kind = .cpyx && c.header && c.qpot % 16 = 0 && seatPkg c.qseat = s.pkg.number then
      match s.group c.gid with
      | none => s
      | some g => s.arrive g.part { seat := c.qseat, off := 0, data := [], pot := some c.qpot, credit := 0 } true
    else s

/-- The bytes of a copy that are written and not credited yet, credited (R295, R298, R307). -/
def State.creditCopy (s : State) (c : Copy) : State :=
  if c.pos ≤ c.moved then s
  else
    match s.copyPot c with
    | some k => s.creditPot k (c.pos - c.moved)
    | none =>
      if c.kind = .cpyx && c.header && c.qpot % 16 = 0 && seatPkg c.qseat = s.pkg.number then
        match s.group c.gid with
        | none => s
        | some g =>
          s.arrive g.part { seat := c.qseat, off := 0, data := [], pot := some c.qpot, credit := c.pos - c.moved } false
      else s

/-- A claimed slot that a copy owned becomes free again (R307). -/
def Ring.freeSlot (r : Ring) (slot : Nat) : Ring :=
  match r.slots[slot]? with
  | none => r
  | some sl => { r with slots := listSet r.slots slot { sl with pass := BitVec.ofNat 8 (2 ^ r.pos.length - 1), hold := 0 } }

/-- The ring of a team changed. -/
def State.modRing (s : State) (tid k : Nat) (f : Ring → Ring) : State :=
  s.modTeam tid fun t => { t with rings := listSet t.rings k ((t.rings.getD k none).map f) }

/-- What a killed group's copies do (R307): each stops, the chunk already written is credited, and the copy frees an
unpublished slot, releases its locks and sets FAIL of its pot. -/
def State.stopCopies (s : State) (gid : Nat) : State :=
  s.copies.foldl (fun t e =>
    let c := e.2
    if c.gid = gid && c.st ≠ .retired then
      let t1 := (t.creditCopy c).failCopyPot c
      let t2 := if c.mask ≠ 0 && c.st ≠ .published then
          match (t1.group gid).bind (·.team) with
          | some tid => t1.modRing tid c.ring fun r => r.freeSlot c.slot
          | none => t1
        else t1
      { t2.unlock c.locks with copies := smapErase t2.copies e.1 }
    else t) s

/-- What a killed group's fabric requests do (R344): those that have not left are discarded; the others lose their
group. -/
def State.dropRequests (s : State) (gid : Nat) : State :=
  let s1 := s.fabric.foldl (fun t e => if e.2.gid = gid then t.unlock e.2.locks else t) s
  { s1 with fabric := (s1.fabric.filter fun e => !(e.2.gid = gid && !e.2.left)).map fun e =>
      if e.2.gid = gid then (e.1, { e.2 with orphan := true, locks := [] }) else e }

/-- The hand of a group that exits or is swapped out is written back (R86); one still filling becomes free. -/
def State.dropHand (s : State) (gid : Nat) : State :=
  { s with hands := s.hands.filterMap fun e =>
      match e.2.st with
      | .filling h => if h = gid then none else some e
      | .held h => if h = gid then some (e.1, { e.2 with st := .writingBack h }) else some e
      | .writingBack _ => some e
      | .free => none }

/-- Whether a member still takes part in its team's barriers (R103). -/
def Member.active : Member → Bool
  | .exited => false
  | .killed => false
  | _ => true

/-- A team whose last group has gone is Held (R114). -/
def Team.settle (t : Team) : Team :=
  if t.state = .resident && t.groups.all (fun m => !m.active) then { t with state := .held } else t

/-- A group leaves its core: seat, rings, stream slot, hand, locks of its engines and record (R107, R393). `how` is
what its team remembers of it. -/
def State.removeGroup (s : State) (gid : Nat) (g : Group) (how : Member) : State :=
  let s1 := s.seatState gid g 0 0
  let s2 := s1.unlock (g.matq.flatMap (·.locks))
  let s3 := match g.team with
    | none => s2
    | some tid => s2.modTeam tid fun t =>
        let t1 : Team := { t with groups := listSet t.groups g.index how,
                                  rings := t.rings.map (Option.map fun (q : Ring) => q.leave g.index),
                                  killed := t.killed || how == Member.killed }
        t1.settle
  let s4 := s3.dropHand gid
  { s4 with groups := smapErase s4.groups gid,
            streams := s4.streams.filter fun e => e.2.gid != gid,
            copies := s4.copies.filter fun e => e.2.gid != gid,
            cur := if s4.cur = some gid then none else s4.cur }

/-- A group is killed (R393): the record, its copies, requests and everything else of it. -/
def State.killGroup (s : State) (gid cause : Nat) (second : Bool) (tpc tval : DWord) : State :=
  match s.group gid with
  | none => s
  | some g =>
    let s1 := s.killRecord g.part tpc cause second (whereOf gid) g.gridId.toNat g.teamX.toNat tval
    let s2 := s1.stopCopies gid
    let s3 := s2.dropRequests gid
    let s4 := match g.team.bind s3.team with
      | some t => s3.modGrid t.grid fun x => { x with killed := true }
      | none => s3
    s4.removeGroup gid g .killed

end Sys2Proof.Machine
end

