-- ==== Sys2Proof/Machine/Ops.lean ====
section
/-! DEFINITION. How an instruction issues: what the issue logic must know of it, the checks of R58 and R387 in
their order, the scoreboard and the early reads of R73, R74 and R77, the account of an issue (R72, R93, R157,
R387), taking a trap (R381) and returning from one (R386). -/
namespace Sys2Proof.Machine

/-- Which lanes are Active (R5, R36): the mask a prefix names, the guard of MODE, or none for an instruction
without a mask. -/
inductive MaskSel where
  | none
  | guard
  | pred (p : Nat) (inv : Bool)
deriving DecidableEq, Repr

/-- The mask selection of a prefix's fields (R36): mask 111 with invert 1 names none. -/
def maskSel (m : BitVec 3) (inv : Bool) : MaskSel := if m = 7 ∧ inv then .guard else .pred m.toNat inv

/-- The predicate and inversion of a selection (R5). -/
def Group.maskPred (g : Group) : MaskSel → Nat × Bool
  | .none => (7, false)
  | .guard => (g.mGuard, g.mGinv)
  | .pred p inv => (p, inv)

/-- The lanes a selection makes Active within a split's mask (R5). -/
def Group.activeMask (g : Group) (split : DWord) (m : MaskSel) : DWord :=
  let pi := g.maskPred m
  split &&& maskBelow g.width &&& (if pi.2 then ~~~(g.pred pi.1) else g.pred pi.1)

/-- What the issue logic knows of an instruction. `ill` to `modeIll` are the conditions of R58 steps 3 to 8 that
hang on the group; the names are the registers of R50; `reads` and `writes` are those of R71, a write with its
required distance, 0 for an interlocked one, `zero` says that the lanes that are not Active are written too (R5), and `access`
that the instruction reads or writes memory, so that it comes after an acquire (R277). -/
structure Spec where
  words : List Nat
  stall : BitVec 2
  mask : MaskSel := .none
  ill : Bool := false
  misuse : Bool := false
  privileged : Bool := false
  readOnly : Bool := false
  role : Option Role := none
  roleBad : Bool := false
  vNamed : List Nat := []
  sNamed : List Nat := []
  tNamed : List Nat := []
  aNamed : List Nat := []
  modeIll : Bool := false
  safePoint : Bool := false
  widthIll : Bool := false
  reads : List RegName := []
  writes : List (RegName × Nat) := []
  zero : Bool := false
  access : Bool := false
  drains : Bool := false
  folds : Bool := true
  longWait : Bool := false

/-- A vector register's name. -/
def vName (r : Nat) : RegName := { cls := .vreg, num := r }
/-- A uniform register's name. -/
def sName (r : Nat) : RegName := { cls := .sreg, num := r }
/-- A predicate's name. -/
def pName (r : Nat) : RegName := { cls := .pred, num := r }
/-- SCC's name. -/
def sccName : RegName := { cls := .scc, num := 0 }

/-- The names of `n` vector registers from `r`. -/
def vNames (r n : Nat) : List RegName := (upFrom r n).map vName
/-- The names of `n` uniform registers from `r`. -/
def sNames (r n : Nat) : List RegName := (upFrom r n).map sName

/-- The register that a mask selection reads. -/
def Group.maskReads (g : Group) (m : MaskSel) : List RegName :=
  match m with
  | .none => []
  | m => [pName (g.maskPred m).1]

/-- Whether a register ignores writes, so that no producer writes it (R49). -/
def RegName.fixed (r : RegName) : Bool :=
  match r.cls with
  | .sreg => r.num == 63
  | .pred => r.num == 7
  | _ => false

/-- The class code of R73. -/
def RegCls.code : RegCls → Nat
  | .vreg => 0
  | .sreg => 1
  | .pred => 2
  | .scc => 3

/-- What a register holds, lane by lane; a predicate as its two words, a uniform register and SCC as lane 0. -/
def Group.regWords (g : Group) (r : RegName) : List (Nat × Word) :=
  match r.cls with
  | .vreg => (List.range g.width).map fun i => (i, g.vreg r.num i)
  | .sreg => [(0, g.sreg r.num)]
  | .pred => [(0, loWord (g.pred r.num)), (1, hiWord (g.pred r.num))]
  | .scc => [(0, g.scc.setWidth 32)]

/-- The producer of a register that is still within its required distance at a nominal cycle (R71, R72). -/
def Group.early (g : Group) (r : RegName) : Option Producer :=
  g.producers.find? fun p => p.reg = r && g.nominal < p.issued + p.dist

/-- The first register of a list that is read too early (R73). -/
def Group.firstEarly (g : Group) (rs : List RegName) : Option RegName := rs.find? fun r => (g.early r).isSome

/-- The values that an early read of a register may give in place of its present ones (R74, R77): those before its
latest producer, and those that an operation still owes it. A late one (R251, R329)
owes values that are not known yet: free ones, numbered from `k`. -/
def Group.alternatives (g : Group) (k : Nat) (r : RegName) : List (Nat × Word) :=
  (match g.early r with
   | some p => p.old
   | none => [])
  ++ g.pend.flatMap fun e => (e.2.dests.filter fun d => d.reg = r).map fun d =>
      (d.lane, if e.2.kind = .late then Config.freeWord (2 ^ 40 + 64 * k + d.lane) else d.val)

/-- A view of the group in which a register holds an alternative in one place: a lane of a vector register or
predicate, or the whole of another register (R74). -/
def Group.withAlt (g : Group) (r : RegName) (k : Nat) (alt : Nat × Word) : Group :=
  match r.cls with
  | .vreg => if Config.pick k then g.setVreg r.num alt.1 alt.2 else g
  | .sreg => if Config.pick k then g.setSreg r.num alt.2 else g
  | .scc => if Config.pick k then { g with scc := alt.2.setWidth 5 } else g
  | .pred =>
    let old := g.pred r.num
    g.setPred r.num (maskWhere fun i =>
      if i / 32 = alt.1 && Config.pick (k + 1 + i % 32) then alt.2.getLsbD (i % 32) else inMask old i)

/-- The view of a group that an instruction reading `rs` takes, and the next fresh number. -/
def viewOf (g : Group) (k : Nat) : List RegName → Group × Nat
  | [] => (g, k)
  | r :: rs =>
    let q := viewOf g k rs
    if r.fixed then q
    else (g.alternatives q.2 r).foldl (fun a alt => (a.1.withAlt r a.2 alt, a.2 + 40)) q

/-- A register's words put into a group, for the view of an instruction that resumes (R268). -/
def Group.putWords (g : Group) (r : RegName) (ws : List (Nat × Word)) : Group :=
  match r.cls with
  | .vreg => ws.foldl (fun a w => a.setVreg r.num w.1 w.2) g
  | .sreg => ws.foldl (fun a w => a.setSreg r.num w.2) g
  | .scc => ws.foldl (fun (a : Group) w => { a with scc := w.2.setWidth 5 }) g
  | .pred => g.setPred r.num (ws.foldl (fun (a : DWord) w => a ||| (w.2.setWidth 64 : DWord) <<< (32 * w.1)) 0)

/-- The view of a group that an instruction takes on resumption: its operands as they were when it issued (R70, R268). -/
def Held.view (h : Held) (g : Group) : Group :=
  h.ops.foldl (fun a o => a.putWords o.1 o.2) { g with mode := h.mode }

/-- What a meaning works on: the state with the issue accounted, the group's number, the group, the view through
which it reads registers, its issuing split, and, on resumption, whether the part before the wait is done. -/
structure Env where
  s : State
  gid : Nat
  g : Group
  v : Group
  p : Split
  sel : MaskSel
  resumed : Bool
  marker : Bool
  since : Nat
  keep : Word
  grids : List Nat

/-- The Active lanes of the instruction (R5). -/
def Env.active (e : Env) : DWord := e.v.activeMask e.p.mask e.sel

/-- How a meaning ends: at the next word, at another address, parked, waiting in the instruction, waiting to issue at all
with nothing done yet (R76, R232, R289, R300, R338), in a trap, in a kill, or with everything placed by the meaning itself. -/
inductive Res where
  | ok (s : State)
  | goto (s : State) (pc : DWord)
  | park (s : State) (st : SplitState) (pc : DWord)
  | block (s : State) (w : WaitFor) (marker : Bool)
  | retry (w : WaitFor)
  | trap (cause : Nat) (tval : DWord) (tmask : Option DWord)
  | kill (s : State) (cause : Nat) (tval : DWord)
  | placed (s : State)

/-- The text base of the code that a group runs (R98). -/
def State.textBase (s : State) (g : Group) : DWord :=
  if g.handler.isSome then
    match s.part g.part with
    | some x => x.tba
    | none => 0
  else g.text

/-- An address `n` bytes on, its code address taken modulo 2^32 (R98). -/
def codeStep (base pc : DWord) (n : Int) : DWord :=
  base + BitVec.ofInt 64 (((pc - base).toInt + n) % 2 ^ 32)

/-- The code address of a full address (R98). -/
def codeAddr (base pc : DWord) : Word := (pc - base).setWidth 32

/-- The address of the word after the instruction (R33). -/
def Env.nextPc (e : Env) : DWord :=
  let n := match e.p.held with
    | some h => h.words.length
    | none => 0
  codeStep (e.s.textBase e.g) e.p.pc (4 * n)

/-- The words of TVAL under R59. -/
def wordsTval (ws : List Nat) : DWord :=
  match ws with
  | [] => 0
  | [a] => BitVec.ofNat 64 a
  | a :: b :: _ => BitVec.ofNat 64 (a + b * 2 ^ 32)

/-- A uniform register as a trap frame holds it (R382): one that is not allocated reads 0. -/
def Group.frameReg (g : Group) (n : Nat) : Word := if n < g.sAlloc || n = 62 then g.sreg n else 0

/-- The trap frame's 512 bytes (R382). -/
def frameBytes (g : Group) (cause : Nat) (tpc tval tmask : DWord) : List Byte :=
  ((List.range 64).flatMap fun n => toBytes 4 (g.frameReg n).toNat)
    ++ ((List.range 8).flatMap fun n => toBytes 8 (g.pred n &&& maskBelow g.width).toNat)
    ++ toBytes 4 g.modeWord.toNat ++ toBytes 4 g.scc.toNat ++ toBytes 4 g.flags.toNat ++ toBytes 4 g.sig.toNat
    ++ toBytes 4 g.msig.toNat ++ toBytes 4 cause ++ toBytes 8 tpc.toNat ++ toBytes 8 tval.toNat
    ++ toBytes 8 tmask.toNat ++ toBytes 144 0

/-- MODE on trap entry: 0x8006_3811 with PP kept (R381); PRIV stands in bit 31. -/
def handlerMode (m : BitVec 25) : BitVec 25 := 0x0063811 ||| (m &&& 0x0080000)

/-- A trap of a group that is not in a handler, taken in split `p` (R381). -/
def State.enterTrap (s : State) (x : Part) (gid : Nat) (g : Group) (p : Split) (cause : Nat) (tval tmask : DWord) :
    State :=
  let s1 := s.setSbytes (frameKey x gid) (frameBytes g cause p.pc tval tmask)
  s1.setGroup gid
    { g with tcause := BitVec.ofNat 32 cause, tpc := p.pc, tval := tval, tmask := tmask,
             mode := handlerMode g.mode, safeCount := 0, hwdog := 0,
             splits := g.splits.map fun q => if q.slot = p.slot then { q with held := none } else q,
             handler := some
               { split := { slot := 0, mask := p.mask, pc := x.tba + BitVec.ofNat 64 (256 * cause), st := .current,
                            joins := [], held := none, safeAt := none },
                 trapSlot := p.slot, entered := s.clock } }

/-- A trap taken: causes 0x0F, 0x10 and 0x17 kill, and so does any trap of a group in a handler (R381, R393). -/
def State.takeTrap (s : State) (gid : Nat) (g : Group) (p : Split) (cause : Nat) (tval tmask : DWord) : State :=
  match g.handler, s.part g.part with
  | none, some x =>
    if cause = 0x0F ∨ cause = 0x10 ∨ cause = 0x17 then s.killGroup gid cause false p.pc tval
    else s.enterTrap x gid g p cause tval tmask
  | some _, _ => s.killGroup gid cause true p.pc tval
  | none, none => s.killGroup gid cause false p.pc tval

/-- The registers that a trap frame restores (R382, R386); those that are not allocated read 0. -/
def Group.fromFrame (g : Group) (rd : Nat → Nat → Nat) : Group :=
  let g1 := (List.range 63).foldl (fun (a : Group) n =>
    a.setSreg n (if n < g.sAlloc || n = 62 then BitVec.ofNat 32 (rd (4 * n) 4) else 0)) g
  let g2 := (List.range 7).foldl (fun (a : Group) n => a.setPred n (BitVec.ofNat 64 (rd (0x100 + 8 * n) 8))) g1
  { g2 with mode := BitVec.ofNat 25 (rd 0x140 4), scc := BitVec.ofNat 5 (rd 0x144 4),
            flags := BitVec.ofNat 7 (rd 0x148 4), sig := BitVec.ofNat 32 (rd 0x14C 4),
            msig := BitVec.ofNat 32 (rd 0x150 4) }

/-- The return from a handler (R386): the frame's registers, the trapped split at `pc`, the other splits as they
were suspended. -/
def State.leaveHandler (s : State) (x : Part) (gid : Nat) (g : Group) (h : Handler) (pc : DWord) : State :=
  let g1 := g.fromFrame fun off n => ofBytes (s.sbytes (frameKey x gid + off) n)
  s.setGroup gid
    { g1 with handler := none, safeCount := 0, hwdog := min (2 ^ 20) (g.hwdog + (s.clock - h.entered)),
              lastIssue := s.tick,
              splits := g1.splits.map fun q =>
                if q.slot = h.trapSlot then { q with pc := pc &&& ~~~3, held := none } else q }

/-- Whether a condition on counters or a pot holds for a group (R81, R97, R305). -/
def State.condHolds (s : State) (g : Group) (c : WaitCond) : Bool :=
  match c with
  | .always => true
  | .counter k n => g.cnt.get k ≤ n
  | .counters m => [0, 1, 2, 3, 4, 5].all fun k => !m.getLsbD k || g.cnt.get k == 0
  | .pot off =>
    match g.team.bind s.team with
    | some t => s.teamPotReached t off
    | none => true

/-- A split whose wait is over once its condition `ok` holds (R81, R97, R305): later changes do not stop it. -/
def Split.release (p : Split) (ok : WaitCond → Bool) : Split :=
  match p.st with
  | .waiting (.cond c) => if ok c then { p with st := .waiting (.cond .always) } else p
  | .parkedCont c target => if ok c then { p with st := .parkedCont .always target } else p
  | _ => p

/-- The waits of a group whose conditions hold are over (R81, R97, R305). -/
def Group.release (g : Group) (ok : WaitCond → Bool) : Group :=
  { g with splits := g.splits.map fun p => p.release ok,
           handler := g.handler.map fun h => { h with split := h.split.release ok } }

/-- A group whose splits run: resident, in no handler. -/
def Group.splitsRun (g : Group) : Bool := g.residency == .running && g.handler.isNone

/-- The group has synchronised at this step (R277, R278): its later weak loads read nothing that was replaced before. -/
def State.synced (s : State) (gid : Nat) : State := s.modGroup gid fun g => { g with syncAt := s.tick }

/-- Every wait on counters and pots that its condition now releases (R81, R97, R305). -/
def State.releaseWaits (s : State) : State :=
  { s with groups := s.groups.map fun e => (e.1, e.2.release (s.condHolds e.2)) }

/-- A register beyond the allocation (R50): 56 uniform registers during a handler (R382). -/
def Group.beyond (g : Group) (sp : Spec) : Bool :=
  let sLim := if g.handler.isSome then 56 else g.sAlloc
  sp.vNamed.any (fun n => g.vAlloc ≤ n) || sp.sNamed.any (fun n => sLim ≤ n && n != 62 && n != 63)
    || sp.tNamed.any (fun n => g.tAlloc ≤ n) || sp.aNamed.any (fun n => g.aAlloc ≤ n)

/-- The cause of R58 steps 3 to 8 that an instruction meets first. -/
def Group.r58 (g : Group) (sp : Spec) : Option Nat :=
  if sp.ill then some 0x01
  else if sp.misuse then some 0x03
  else if sp.readOnly || (sp.privileged && !g.priv) then some 0x02
  else if (match sp.role with
           | some r => r != g.role
           | none => false) || sp.roleBad then some 0x15
  else if g.beyond sp then some 0x14
  else if sp.modeIll then some 0x01
  else none

/-- SAFEBOUND.LIMIT as it acts (R380). -/
def Part.limit (x : Part) : Nat := max 16 (min 1024 x.safeLimit.toNat)

/-- Whether an issue takes the safe-point distance trap (R387). -/
def State.tooFar (s : State) (g : Group) (sp : Spec) : Bool :=
  match s.part g.part with
  | none => false
  | some x => x.safeEn && !sp.safePoint && g.handler.isNone && x.limit < g.safeCount + 1

/-- The held registers that a list of registers reads (R338). -/
def Group.heldOf (g : Group) (rs : List RegName) : List Nat :=
  ((rs.filter fun r => r.cls = .vreg && g.holds.any fun h => h.reg = r.num && 0 < h.pending).map (·.num))

/-- The trap that an instruction takes before its meaning, with TVAL (R58, R59, R73, R387). -/
def State.preTrap (s : State) (g : Group) (sp : Spec) : Option (Nat × DWord) :=
  match g.r58 sp with
  | some c => some (c, wordsTval sp.words)
  | none =>
    if s.tooFar g sp then some (0x0E, 0)
    else if sp.widthIll then some (0x01, wordsTval sp.words)
    else if g.mChk then
      match g.firstEarly (sp.reads.filter fun r => !r.fixed) with
      | some r => some (0x04, BitVec.ofNat 64 (r.num + r.cls.code * 256))
      | none => none
    else none

/-- The cycles of a stall field (R25). -/
def stallCycles (st : BitVec 2) : Nat :=
  match st.toNat with
  | 0 => 0
  | 1 => 1
  | 2 => 3
  | _ => 7

/-- The account of an issue: SIG (R157, R397), the nominal distance (R72), the safe-point count (R387), the
count of R93, which a handler's issues do not enter, and when the group may issue next (R25, R132). -/
def Group.account (g : Group) (sp : Spec) (pc : DWord) (tick clock : Nat) : Group :=
  { g with sig := if sp.folds && g.handler.isNone && g.splits.length ≤ 1 then sp.words.foldl sigFold g.sig else g.sig,
           nominal := g.nominal + 1 + stallCycles sp.stall,
           safeCount := if g.handler.isSome then g.safeCount else g.safeCount + 1,
           issuesInTurn := if g.handler.isSome then g.issuesInTurn else g.issuesInTurn + 1,
           lastIssue := tick,
           lastPc := pc,
           stallUntil := clock + 1 + stallCycles sp.stall }

/-- The producers after an issue at nominal cycle `at_` (R71, R74): a later one replaces an earlier one, and those
whose distance has passed are forgotten. -/
def newProducers (g0 : Group) (ps : List Producer) (writes : List (RegName × Nat)) : List Producer :=
  writes.foldl (fun (a : List Producer) w =>
    let kept := a.filter fun p => p.reg ≠ w.1
    if w.1.fixed then a else { reg := w.1, issued := g0.nominal, dist := w.2, old := g0.regWords w.1 } :: kept)
    (ps.filter fun p => g0.nominal < p.issued + p.dist)

/-- Lanes of registers that another instruction has written while an operation owes them (R77). -/
def Group.clobber (g : Group) (ws : List (RegName × DWord)) : Group :=
  if ws = [] then g
  else { g with pend := g.pend.map fun e =>
    let hit := ws.filter fun w => e.2.dests.any fun d => d.reg = w.1
    if hit = [] then e else (e.1, { e.2 with clobbered := hit ++ e.2.clobbered }) }

/-- Whether a lane of a register is among lanes that were written. -/
def hitLane (hit : List (RegName × DWord)) (r : RegName) (lane : Nat) : Bool := hit.any fun h => h.1 = r && inMask h.2 lane

/-- Poisoned data that lanes of registers hold is gone once they are written (R396). -/
def Group.cleanse (g : Group) (ws : List (RegName × DWord)) : Group :=
  if g.bad = [] then g
  else { g with bad := g.bad.filterMap fun b =>
    match b with
    | .reg r ls =>
      let m := ws.foldl (fun a w => if w.1 = r then a &&& ~~~w.2 else a) ls
      if m = 0 then none else some (.reg r m)
    | x => some x }

/-- The lanes of its destinations that an instruction writes (R5): the Active ones, or all of them under zeroing, without a
mask, or of a register without lanes. -/
def Env.lanesWritten (e : Env) (sp : Spec) (r : RegName) : DWord :=
  match r.cls, sp.mask with
  | .vreg, .none => BitVec.allOnes 64
  | .vreg, _ => if sp.zero then BitVec.allOnes 64 else e.active
  | _, _ => BitVec.allOnes 64

/-- What remains to be done to the issuing group once its instruction has completed: the scoreboard (R71, R72,
R77). An instruction that drains has done so when it issued (R72). -/
def State.scoreboard (s : State) (gid : Nat) (g0 : Group) (sp : Spec) (e : Env) : State :=
  s.modGroup gid fun g =>
    let ws := sp.writes.map fun w => (w.1, e.lanesWritten sp w.1)
    { (g.clobber ws).cleanse ws with
      producers := if sp.drains && !e.resumed then [] else newProducers g0 g.producers sp.writes }

/-- The value that a wait keeps: the one `swaitl` compares with (R270), else the one kept before. -/
def WaitFor.keepOf (w : WaitFor) (old : Word) : Word :=
  match w with
  | .lineWord _ v _ => v
  | _ => old

/-- The grids, the team or the frame that a wait keeps (R115, R372, R376, R389). -/
def WaitFor.gridsOf (w : WaitFor) (old : List Nat) : List Nat :=
  match w with
  | .grids hs => hs
  | .saveTaken tid => [tid]
  | .writesDone f _ => [f]
  | _ => old

/-- After an instruction that a Waiting split completed: the split that was Current before is Current again, and the other is
Ready if it can go on (R92). -/
def Group.undisplace (g : Group) : Group :=
  if g.splits.any fun p => p.st == .displaced then
    { g with splits := g.splits.map fun p =>
        if p.st = .displaced then { p with st := .current }
        else if p.st = .current then { p with st := .ready } else p }
  else g

/-- The issuing split goes on at an address in a state. -/
def Group.leaveAt (g : Group) (pc : DWord) : Group :=
  match g.issuing with
  | some q => g.setIssuing { q with pc := pc, held := none }
  | none => g

/-- The issuing split parks at an address (R92). -/
def Group.parkAt (g : Group) (pc : DWord) (st : SplitState) (clock : Nat) : Group :=
  match g.issuing with
  | some q => { g.setIssuing { q with pc := pc, held := none, st := st } with issuesInTurn := 0, blockedSince := clock }
  | none => g

/-- The issuing split is Waiting in its instruction (R92); the instruction has issued, so a drain has come (R72). -/
def Group.blockIn (g : Group) (drains : Bool) (w : WaitFor) (h : Held) (clock : Nat) : Group :=
  match g.issuing with
  | some q =>
    { g.setIssuing { q with st := .waiting w, held := some h } with
      blockedSince := clock, producers := if drains then [] else g.producers }
  | none => g

/-- The issuing split is Waiting to issue its instruction (R76, R92, R338). -/
def Group.waitIn (g : Group) (w : WaitFor) (clock : Nat) : Group :=
  match g.issuing with
  | some q => { g.setIssuing { q with st := .waiting w, held := none } with blockedSince := clock }
  | none => g

/-- What an instruction that waits keeps. -/
def Env.heldFor (e : Env) (sp : Spec) (g0 : Group) (w : WaitFor) (m : Bool) : Held :=
  match e.p.held with
  | some h => { h with marker := m, keep := w.keepOf e.keep, grids := w.gridsOf e.grids,
                       ops := if e.resumed then h.ops else sp.reads.map fun r => (r, e.v.regWords r), sig := h.sig }
  | none => { words := sp.words, since := e.since, marker := m, keep := w.keepOf e.keep, grids := w.gridsOf e.grids,
              ops := sp.reads.map fun r => (r, e.v.regWords r), mode := e.v.mode, sig := g0.sig }

/-- The state after a meaning, from how it ended (R92). `s0` and `g0` are those before the issue. -/
def State.ended (s0 : State) (gid : Nat) (g0 : Group) (p : Split) (sp : Spec) (e : Env) : Res → State
  | .ok s => (s.scoreboard gid g0 sp e).modGroup gid fun g => g.leaveAt e.nextPc
  | .goto s pc => (s.scoreboard gid g0 sp e).modGroup gid fun g => g.leaveAt pc
  | .park s st pc => (s.scoreboard gid g0 sp e).modGroup gid fun g => g.parkAt pc st s.clock
  | .block s w m => s.modGroup gid fun g => g.blockIn (sp.drains && !e.resumed) w (e.heldFor sp g0 w m) s.clock
  | .retry w => s0.modGroup gid fun g => g.waitIn w s0.clock
  | .trap c tval tmask =>
      s0.takeTrap gid g0 p c tval (tmask.getD (match sp.mask with
        | .none => p.mask
        | m => g0.activeMask p.mask m))
  | .kill s c tval => s.killGroup gid c false p.pc tval
  | .placed s => s.scoreboard gid g0 sp e

/-- The state after a meaning; one that resumed gives the group back to the split it displaced. -/
def State.finish (s0 : State) (gid : Nat) (g0 : Group) (p : Split) (sp : Spec) (e : Env) (r : Res) : State :=
  if e.resumed then (s0.ended gid g0 p sp e r).modGroup gid Group.undisplace else s0.ended gid g0 p sp e r

/-- Whether poisoned data lies in the lanes that a read of a register takes (R396). -/
def BadLoc.hits (b : BadLoc) (rs : List RegName) (lanes : DWord) : Bool :=
  match b with
  | .reg r ls => rs.contains r && (r.cls != .vreg || ls &&& lanes != 0)
  | _ => false

/-- A read of a register whose data is poisoned is noted (R396); it has no address. -/
def Group.consume (g : Group) (rs : List RegName) (lanes : DWord) : Group :=
  if g.bad.any fun b => b.hits rs lanes then { g with poisoned := (0, g.lastIssue) :: g.poisoned } else g

/-- The outstanding `rld.acq` requests of a split's lanes (R329): the operations that they owe. -/
def State.acquiring (s : State) (gid : Nat) (mask : DWord) : List Nat :=
  s.fabric.filterMap fun e =>
    if e.2.gid = gid && e.2.kind = .rld true && e.2.mask &&& mask != 0 then e.2.pend else none

/-- The issue of an instruction by split `p` of a group: the checks, the waits of R338 and R329, the
account, and its meaning. -/
def State.issueAt (s : State) (gid : Nat) (g : Group) (p : Split) (sp : Spec) (body : Env → Res) : State :=
  match s.preTrap g sp with
  | some (c, tval) =>
    s.takeTrap gid g p c tval (match sp.mask with
      | .none => p.mask
      | m => if sp.ill || sp.misuse then p.mask else g.activeMask p.mask m)
  | none =>
    if g.heldOf sp.reads ≠ [] then s.modGroup gid fun x => x.waitIn (.holdRegs (g.heldOf sp.reads)) s.clock
    else if sp.access && s.acquiring gid p.mask ≠ [] then
      s.modGroup gid fun x => x.waitIn (.performed (s.acquiring gid p.mask)) s.clock
    else
      let h : Held := { words := sp.words, since := s.clock, marker := false, keep := 0, grids := [], ops := [], mode := g.mode,
                        sig := g.sig }
      let q : Split := { p with held := some h, safeAt := none }
      let g1 := ((g.account sp p.pc s.tick s.clock).setIssuing q).consume sp.reads p.mask
      let vw := viewOf { g1 with nominal := g.nominal } s.serial (sp.reads.filter fun r => !r.fixed)
      let s1 := { s with serial := vw.2 }.setGroup gid g1
      let e : Env := { s := s1, gid := gid, g := g1, v := { vw.1 with nominal := g1.nominal }, p := q, sel := sp.mask, resumed := false,
                       marker := false, since := s.clock, keep := 0, grids := [] }
      s.finish gid g p sp e (body e)

/-- An instruction that a split has waited in goes on (R92): it has issued, so nothing is checked or accounted again, and its
operands are those that it read. -/
def State.resumeAt (s : State) (gid : Nat) (g : Group) (p : Split) (h : Held) (sp : Spec) (body : Env → Res) : State :=
  let e : Env := { s := s, gid := gid, g := g, v := h.view g, p := p, sel := sp.mask, resumed := true,
                   marker := h.marker, since := h.since, keep := h.keep, grids := h.grids }
  s.finish gid { g with sig := h.sig } p sp e (body e)

/-- The issue of an instruction by the Current split of the group chosen to issue. -/
def issue (sp : Group → Split → Spec) (body : Env → Res) (s : State) : Host.Outcome State Fault Refusal :=
  match s.cur with
  | none => .fault .noIssuer
  | some gid =>
    match s.group gid with
    | none => .fault .noIssuer
    | some g =>
      match g.issuing with
      | none => .fault .noIssuer
      | some p =>
        match p.held with
        | none => .next (s.issueAt gid g p (sp g p) body)
        | some h => .next (s.resumeAt gid g p h (sp g p) body)

/-- A meaning's end in which only the issuing group changes. -/
def Env.upd (e : Env) (g : Group) : Res := .ok (e.s.setGroup e.gid g)

/-- The partition of the issuing group. -/
def Env.part (e : Env) : Option Part := e.s.part e.g.part

/-- The team of the issuing group. -/
def Env.team (e : Env) : Option Team := e.g.team.bind e.s.team

/-- An operation that completes later: the registers it owes are clobbered in earlier ones, its counter rises, and
it is outstanding (R75, R77). -/
def State.owe (s : State) (gid : Nat) (op : PendOp) : State :=
  { s with nextId := s.nextId + 1 }.modGroup gid fun g =>
    let ws := op.dests.map fun (d : DestWord) => (d.reg, if d.reg.cls == RegCls.vreg then BitVec.twoPow 64 d.lane else BitVec.allOnes 64)
    let g1 := ((g.clobber ws).cleanse ws).countUp op.counter
    { g1 with pend := smapInsert g1.pend s.nextId op }

/-- A vector destination that an operation owes, lane by lane (R5, R77). -/
def Group.owed (g : Group) (vd : Nat) (zero : Bool) (act : DWord) (f : Nat → Word) : List DestWord :=
  (laneList.take g.width).filterMap fun i =>
    if inMask act i then some { reg := vName vd, lane := i, val := f i }
    else if zero then some { reg := vName vd, lane := i, val := 0 } else none

/-- Whether a counter is full, so that an issue on it waits (R76). -/
def Env.full (e : Env) (k : Nat) : Bool := 255 ≤ e.g.cnt.get k

/-- A wait for room of some kind: an instruction that has not begun waits to issue; one that resumed goes on waiting in it. -/
def Env.waitRoom (e : Env) (w : WaitFor) : Res := if e.resumed then .block e.s w e.marker else .retry w

/-- A trap whose TVAL follows R59. -/
def Env.illegal (e : Env) (cause : Nat) : Res :=
  .trap cause (match e.p.held with
    | some h => wordsTval h.words
    | none => 0) none

end Sys2Proof.Machine
end

