-- ==== Sys2Proof/Machine/Operands.lean ====
section
/-! DEFINITION. Operand forms: the words of an instruction, effective types, masks, the second and fourth sources,
immediates, and the write of a destination under merging and zeroing (R5, R29, R30, R35 to R39, R138, R139). -/
namespace Sys2Proof.Machine

/-- The words of an instruction with an optional ALU prefix. -/
def aluWords (px : Option AluPx) (w : Nat) : List Nat :=
  match px with
  | some p => [aluPxWord p, w]
  | none => [w]

/-- The words of an instruction with an optional memory prefix. -/
def memWords (px : Option MemPx) (w : Nat) : List Nat :=
  match px with
  | some p => [memPxWord p, w]
  | none => [w]

/-- The words of an instruction with an optional matrix and copy prefix. -/
def matWords (px : Option MatPx) (w : Nat) : List Nat :=
  match px with
  | some p => [matPxWord p, w]
  | none => [w]

/-- The mask an ALU prefix selects (R36). -/
def aluMask (px : Option AluPx) : MaskSel :=
  match px with
  | some p => maskSel p.mask p.inv
  | none => .guard

/-- The mask a memory prefix selects (R36, R37). -/
def memMask (px : Option MemPx) : MaskSel :=
  match px with
  | some p => maskSel p.mask p.inv
  | none => .guard

/-- The zeroing bit of an ALU prefix; merging without one (R5, R35). -/
def aluZero (px : Option AluPx) : Bool := (px.map (·.zero)).getD false

/-- The type field of an ALU prefix, 0 without one. -/
def pxType (px : Option AluPx) : Nat := (px.map fun p => p.ty.toNat).getD 0

/-- The rounding field of an ALU prefix, 0 without one. -/
def pxRnd (px : Option AluPx) : Nat := (px.map fun p => p.rnd.toNat).getD 0

/-- The width field of an ALU prefix, 0 without one. -/
def pxXw (px : Option AluPx) : Nat := (px.map fun p => p.xw.toNat).getD 0

/-- The fourth-operand kind of an ALU prefix, 0 without one. -/
def pxKind (px : Option AluPx) : Nat := (px.map fun p => p.kind4.toNat).getD 0

/-- The fourth-operand field of an ALU prefix. -/
def pxOp4 (px : Option AluPx) : Nat := (px.map fun p => p.op4.toNat).getD 0

/-- The effective type: the prefix's, or MODE.TYPE (R138). -/
def Group.effType (g : Group) (px : Option AluPx) : Nat := if pxType px = 0 then g.mType else pxType px

/-- Whether MODE supplies an illegal type code (R43). -/
def Group.typeBad (g : Group) (px : Option AluPx) : Bool := pxType px = 0 && (g.mType = 0 || 12 ≤ g.mType)

/-- The effective rounding code (R45). -/
def Group.effRnd (g : Group) (px : Option AluPx) : Nat := if pxRnd px = 0 then g.mRnd else pxRnd px

/-- Whether MODE supplies an illegal rounding code (R43). -/
def Group.rndBad (g : Group) (px : Option AluPx) : Bool := pxRnd px = 0 && (g.mRnd = 0 || 6 ≤ g.mRnd)

/-- The element width of a type code (R138). -/
def elemWidth (t : Nat) : Nat :=
  match t with
  | 1 => 32 | 2 => 32 | 7 => 32 | 3 => 16 | 4 => 16 | 8 => 16 | 9 => 16 | _ => 8

/-- Whether a type code is unsigned (R138). -/
def unsignedType (t : Nat) : Bool := t = 2 || t = 4 || t = 6

/-- An imm7 replicated into every element of width `w` (R139). -/
def repImm (w : Nat) (i : BitVec 7) : Word := packElems w (copiesOf (32 / w) (i.signExtend w))

/-- The second source of a VU word in a lane, for elements of width `w` (R139). -/
def Group.vsrc (g : Group) (w : Nat) : VSrc → Word
  | .u r => g.sreg r.toNat
  | .imm i => repImm w i

/-- The register that a VU second source reads (R71). -/
def vsrcReads : VSrc → List RegName
  | .u r => [sName r.toNat]
  | .imm _ => []

/-- The uniform register that a VU second source names (R50). -/
def vsrcNamed : VSrc → List Nat
  | .u r => [r.toNat]
  | .imm _ => []

/-- The second source of an S word (R30). -/
def Group.ssrc (g : Group) : SSrc → Word
  | .r r => g.sreg r.toNat
  | .imm i => i.signExtend 32

/-- The register that an S second source reads. -/
def ssrcReads : SSrc → List RegName
  | .r r => [sName r.toNat]
  | .imm _ => []

/-- The register that an S second source names. -/
def ssrcNamed : SSrc → List Nat
  | .r r => [r.toNat]
  | .imm _ => []

/-- The fourth operand of a prefix in a lane (R35): none gives the value passed in; an imm7 is sign-extended. -/
def Group.fourth (g : Group) (px : Option AluPx) (none_ : Nat → Word) (i : Nat) : Word :=
  match pxKind px with
  | 0 => none_ i
  | 1 => g.vreg (pxOp4 px) i
  | 2 => g.sreg (pxOp4 px % 64)
  | _ => (BitVec.ofNat 7 (pxOp4 px)).signExtend 32

/-- The registers that the fourth operand reads, `n` of them for a vector operand. -/
def fourthReads (px : Option AluPx) (n : Nat) : List RegName :=
  match pxKind px with
  | 1 => vNames (pxOp4 px) n
  | 2 => [sName (pxOp4 px)]
  | _ => []

/-- The vector registers that the fourth operand names (R50). -/
def fourthV (px : Option AluPx) (n : Nat) : List Nat := if pxKind px = 1 then upFrom (pxOp4 px) n else []

/-- The uniform register that the fourth operand names (R50). -/
def fourthS (px : Option AluPx) : List Nat := if pxKind px = 2 then [pxOp4 px] else []

/-- A vector destination written: the Active lanes from `f`; under zeroing every other lane below G receives 0
(R5, R141; log entry 5). -/
def Group.writeV (g : Group) (vd : Nat) (zero : Bool) (act : DWord) (f : Nat → Word) : Group :=
  if zero then g.setLanes vd (fun i => if inMask act i then f i else 0) (laneList.take g.width)
  else g.setLanes vd f (lanesOf act)

/-- A predicate destination written lane by lane (R145). -/
def Group.writeP (g : Group) (pd : Nat) (zero : Bool) (act : DWord) (f : Nat → Bool) : Group :=
  let res := maskWhere fun i => inMask act i && f i
  g.setPred pd (res ||| (if zero then 0 else g.pred pd &&& ~~~act))

end Sys2Proof.Machine
end

