-- ==== Sys2Proof/Machine/Flags.lean ====
section
/-! DEFINITION. The bits of SCC and what the flag-setting instructions make them (R150 to R152). -/
namespace Sys2Proof.Machine

/-- Z of SCC (R150). -/
def sccZ (c : BitVec 5) : Bool := c.getLsbD 0
/-- N of SCC (R150). -/
def sccN (c : BitVec 5) : Bool := c.getLsbD 1
/-- C of SCC (R150). -/
def sccC (c : BitVec 5) : Bool := c.getLsbD 2
/-- V of SCC (R150). -/
def sccV (c : BitVec 5) : Bool := c.getLsbD 3
/-- A of SCC (R150). -/
def sccA (c : BitVec 5) : Bool := c.getLsbD 4

/-- SCC from its bits. -/
def sccOf (z n c v a : Bool) : BitVec 5 :=
  BitVec.ofNat 5 (z.toNat + 2 * n.toNat + 4 * c.toNat + 8 * v.toNat + 16 * a.toNat)

/-- Z, N, C and V replaced; A is unchanged (R149). -/
def sccSet (old : BitVec 5) (z n c v : Bool) : BitVec 5 := sccOf z n c v (sccA old)

/-- A replaced (R103). -/
def sccSetA (old : BitVec 5) (a : Bool) : BitVec 5 := sccOf (sccZ old) (sccN old) (sccC old) (sccV old) a

/-- Signed overflow of a − b (R151). -/
def subOverflow (a b : Word) : Bool := a.getLsbD 31 != b.getLsbD 31 && (a - b).getLsbD 31 != a.getLsbD 31

/-- SCC after `scmp` (R151). -/
def sccCmp (old : BitVec 5) (a b : Word) : BitVec 5 :=
  sccSet old (a - b == 0) ((a - b).getLsbD 31) (b.ule a) (subOverflow a b)

/-- SCC after `scmpu` (R151). -/
def sccCmpu (old : BitVec 5) (a b : Word) : BitVec 5 :=
  sccSet old (a - b == 0) (a.ult b) (b.ule a) false

/-- SCC after `stest` (R149). -/
def sccTest (old : BitVec 5) (a b : Word) : BitVec 5 :=
  sccSet old (a &&& b == 0) ((a &&& b).getLsbD 31) false false

/-- The 33-bit sum of `saddc` (R152). -/
def addcSum (old : BitVec 5) (a b : Word) : Nat := a.toNat + b.toNat + (sccC old).toNat

/-- SCC after `saddc` (R152). -/
def sccAddc (old : BitVec 5) (a b : Word) : BitVec 5 :=
  let t : Word := BitVec.ofNat 32 (addcSum old a b)
  sccSet old (t == 0) (t.getLsbD 31) (bit (addcSum old a b) 32)
    (a.getLsbD 31 == b.getLsbD 31 && t.getLsbD 31 != a.getLsbD 31)

end Sys2Proof.Machine
end

