-- ==== Sys2Proof/Machine/Num.lean ====
section
/-! DEFINITION. Number formats and exact values, rounding in every mode, overflow, NaNs, widening and narrowing
(R159 to R172). A finite value is exact: a sign, a magnitude and a power of two. -/
namespace Sys2Proof.Machine

/-- A format (R159, R160): its width, fraction bits, bias, the magnitude code of the largest finite value, the
magnitude code above which a code is a NaN (or from which, without an infinity), and its canonical NaN. -/
structure Fmt where
  w : Nat
  f : Nat
  bias : Nat
  maxMag : Nat
  infMag : Nat
  hasInf : Bool
  nan : Nat
deriving DecidableEq, Repr

/-- FP32. -/
def fp32 : Fmt := { w := 32, f := 23, bias := 127, maxMag := 0x7F7FFFFF, infMag := 0x7F800000, hasInf := true, nan := 0x7FC00000 }
/-- FP16. -/
def fp16 : Fmt := { w := 16, f := 10, bias := 15, maxMag := 0x7BFF, infMag := 0x7C00, hasInf := true, nan := 0x7E00 }
/-- BF16. -/
def bf16 : Fmt := { w := 16, f := 7, bias := 127, maxMag := 0x7F7F, infMag := 0x7F80, hasInf := true, nan := 0x7FC0 }
/-- E5M2. -/
def e5m2 : Fmt := { w := 8, f := 2, bias := 15, maxMag := 0x7B, infMag := 0x7C, hasInf := true, nan := 0x7E }
/-- E4M3. -/
def e4m3 : Fmt := { w := 8, f := 3, bias := 7, maxMag := 0x7E, infMag := 0x7F, hasInf := false, nan := 0x7F }

/-- The format of a floating-point type code (R44). -/
def fmtOf (t : Nat) : Fmt :=
  match t with
  | 8 => fp16 | 9 => bf16 | 10 => e4m3 | 11 => e5m2 | _ => fp32

/-- An exact finite value: (−1)^neg × m × 2^e. A zero has a sign. -/
structure Dy where
  neg : Bool
  m : Nat
  e : Int
deriving DecidableEq, Repr

/-- What a code stands for (R159). -/
inductive FVal where
  | nan (signalling : Bool)
  | inf (neg : Bool)
  | fin (d : Dy)
deriving DecidableEq, Repr

/-- The sign bit of a code. -/
def Fmt.neg (fm : Fmt) (c : Nat) : Bool := bit c (fm.w - 1)

/-- The magnitude part of a code. -/
def Fmt.mag (fm : Fmt) (c : Nat) : Nat := c % 2 ^ (fm.w - 1)

/-- A sign and a magnitude code. -/
def Fmt.code (fm : Fmt) (neg : Bool) (mag : Nat) : Nat := (if neg then 2 ^ (fm.w - 1) else 0) + mag

/-- The exponent of the last place of a subnormal. -/
def Fmt.qmin (fm : Fmt) : Int := 1 - (fm.bias : Int) - fm.f

/-- A code as a value (R159). -/
def Fmt.val (fm : Fmt) (c : Nat) : FVal :=
  let m := fm.mag c
  if fm.infMag < m ∨ (m = fm.infMag ∧ !fm.hasInf) then .nan (fm.hasInf && !bit c (fm.f - 1))
  else if m = fm.infMag then .inf (fm.neg c)
  else if m < 2 ^ fm.f then .fin { neg := fm.neg c, m := m, e := fm.qmin }
  else .fin { neg := fm.neg c, m := 2 ^ fm.f + m % 2 ^ fm.f, e := fm.qmin + (m / 2 ^ fm.f : Nat) - 1 }

/-- Whether a code is a NaN. -/
def Fmt.isNan (fm : Fmt) (c : Nat) : Bool :=
  match fm.val c with
  | .nan _ => true
  | _ => false

/-- Whether a code is a signalling NaN (R159). -/
def Fmt.isSnan (fm : Fmt) (c : Nat) : Bool := fm.val c = .nan true

/-- Whether a code is an infinity. -/
def Fmt.isInf (fm : Fmt) (c : Nat) : Bool := fm.hasInf && fm.mag c == fm.infMag

/-- Whether a code is a subnormal. -/
def Fmt.isSub (fm : Fmt) (c : Nat) : Bool := fm.mag c != 0 && fm.mag c < 2 ^ fm.f

/-- A source under DAZ (R166). -/
def Fmt.daz (fm : Fmt) (on : Bool) (c : Nat) : Nat := if on && fm.isSub c then fm.code (fm.neg c) 0 else c

/-- A NaN with its quiet bit set (R168). -/
def Fmt.quiet (fm : Fmt) (c : Nat) : Nat := if fm.hasInf && !bit c (fm.f - 1) then c + 2 ^ (fm.f - 1) else c

/-- The rounding modes (R45, R162, R164); SR carries its random bits and their number. -/
inductive Rnd where
  | rne | rz | rup | rdn | rna
  | sr (r bits : Nat)
deriving DecidableEq, Repr

/-- The mode of a rounding code; code 6 rounds with the given random bits. -/
def rndOf (c r bits : Nat) : Rnd :=
  match c with
  | 2 => .rz | 3 => .rup | 4 => .rdn | 5 => .rna | 6 => .sr r bits | _ => .rne

/-- Whether the discarded part `rem` of 2^`sh` raises the magnitude `n` (R162, R164). -/
def roundsUp (mode : Rnd) (neg : Bool) (n rem sh : Nat) : Bool :=
  if rem = 0 then false
  else match mode with
    | .rne => 2 ^ sh < 2 * rem || (2 * rem == 2 ^ sh && n % 2 == 1)
    | .rna => 2 ^ sh ≤ 2 * rem
    | .rz => false
    | .rup => !neg
    | .rdn => neg
    | .sr r b => 2 ^ b ≤ rem * 2 ^ b / 2 ^ sh + r % 2 ^ b

/-- A value rounded to a multiple of 2^`q`: the magnitude in that unit, and whether it changed (R162, R164). -/
def Dy.roundAt (d : Dy) (mode : Rnd) (q : Int) : Nat × Bool :=
  if q ≤ d.e then (d.m * 2 ^ (d.e - q).toNat, false)
  else
    let sh := (q - d.e).toNat
    let n := d.m / 2 ^ sh
    let rem := d.m % 2 ^ sh
    (if roundsUp mode d.neg n rem sh then n + 1 else n, rem != 0)

/-- The exponent of a non-zero value's leading bit. -/
def Dy.lead (d : Dy) : Int := d.e + (Nat.log2 d.m : Nat)

/-- The magnitude code of a value rounded with an unbounded exponent, and whether it is inexact (R162). -/
def Fmt.round (fm : Fmt) (mode : Rnd) (d : Dy) : Nat × Bool :=
  if d.m = 0 then (0, false)
  else
    let q := max fm.qmin (d.lead - fm.f)
    let r := d.roundAt mode q
    (((q - fm.qmin).toNat) * 2 ^ fm.f + r.1, r.2)

/-- FLAGS bits (R175). -/
abbrev FFlags := BitVec 7

/-- IV. -/
def flagIV : FFlags := 1
/-- DZ. -/
def flagDZ : FFlags := 2
/-- OF. -/
def flagOF : FFlags := 4
/-- UF. -/
def flagUF : FFlags := 8
/-- NX. -/
def flagNX : FFlags := 16
/-- EI. -/
def flagEI : FFlags := 32
/-- TR. -/
def flagTR : FFlags := 64

/-- An element result: its code and the flags it raises. -/
structure FRes where
  code : Nat
  flags : FFlags
deriving DecidableEq, Repr

/-- The magnitude that an overflowing arithmetic result takes (R163). -/
def Fmt.overflowMag (fm : Fmt) (mode : Rnd) (neg : Bool) : Nat :=
  let big := match mode with
    | .rz => false
    | .rup => !neg
    | .rdn => neg
    | _ => true
  if big then fm.infMag else fm.maxMag

/-- The magnitude that an overflowing narrowing takes under an entry of the overflow table (R172). -/
def Fmt.tableMag (fm : Fmt) (entry : Nat) : Nat :=
  match entry with
  | 0 => fm.maxMag
  | 1 => if fm.hasInf then fm.infMag else fm.nan
  | _ => fm.nan

/-- A finite exact value delivered in a format: rounding, overflow to `ovr`, FTZ and flags (R162 to R167). -/
def Fmt.deliver (fm : Fmt) (mode : Rnd) (ftz : Bool) (ovr : Nat) (d : Dy) : FRes :=
  let r := fm.round mode d
  if fm.maxMag < r.1 then { code := fm.code d.neg ovr, flags := flagOF ||| flagNX }
  else if r.1 < 2 ^ fm.f then
    if r.1 ≠ 0 ∧ ftz then { code := fm.code d.neg 0, flags := flagUF ||| flagNX }
    else { code := fm.code d.neg r.1, flags := if r.2 then flagUF ||| flagNX else 0 }
  else { code := fm.code d.neg r.1, flags := if r.2 then flagNX else 0 }

/-- An arithmetic result (R163). -/
def Fmt.arith (fm : Fmt) (mode : Rnd) (ftz : Bool) (d : Dy) : FRes :=
  fm.deliver mode ftz (fm.overflowMag mode d.neg) d

/-- The value 1. -/
def oneVal : FVal := .fin { neg := false, m := 1, e := 0 }

/-- An exact product; none for 0 × ∞ (R168). NaNs are dealt with before. -/
def FVal.mul : FVal → FVal → Option FVal
  | .fin a, .fin b => some (.fin { neg := a.neg != b.neg, m := a.m * b.m, e := a.e + b.e })
  | .inf n, .inf k => some (.inf (n != k))
  | .inf n, .fin b => if b.m = 0 then none else some (.inf (n != b.neg))
  | .fin a, .inf n => if a.m = 0 then none else some (.inf (n != a.neg))
  | .nan s, _ => some (.nan s)
  | _, .nan s => some (.nan s)

/-- The signed integer value of an exact value in units of 2^`q`, `q` at most its exponent. -/
def Dy.scaled (d : Dy) (q : Int) : Int :=
  let n : Nat := d.m * 2 ^ (d.e - q).toNat
  if d.neg then -(n : Int) else n

/-- An exact sum with the sign that R162 gives a zero. -/
def sumDy (rdn : Bool) (ts : List Dy) : Dy :=
  let q := (ts.map (·.e)).foldl min (match ts with
    | t :: _ => t.e
    | [] => 0)
  let x : Int := (ts.map fun t => t.scaled q).sum
  if x = 0 then { neg := ts.all (·.neg) || (rdn && ts.any (·.neg)), m := 0, e := 0 }
  else { neg := x < 0, m := x.natAbs, e := q }

/-- The finite value of a code; 0 of a code that has none. -/
def Fmt.dy (fm : Fmt) (c : Nat) : Dy :=
  match fm.val c with
  | .fin d => d
  | _ => { neg := false, m := 0, e := 0 }

/-- An exact difference. -/
def subDy (a b : Dy) : Dy := sumDy false [a, { b with neg := !b.neg }]

/-- Which infinities a list of values holds: positive ones and negative ones. -/
def infsOf (ts : List FVal) : Bool × Bool := (ts.contains (.inf false), ts.contains (.inf true))

/-- The finite values of a list. -/
def finsOf (ts : List FVal) : List Dy :=
  ts.filterMap fun t =>
    match t with
    | .fin d => some d
    | _ => none

/-- A code widened to FP32 (R169): exact, never quieted. -/
def Fmt.widen (fm : Fmt) (c : Nat) : Nat :=
  match fm.val c with
  | .nan _ => if fm.hasInf then fp32.code (fm.neg c) (0x7F800000 + fm.mag c % 2 ^ fm.f * 2 ^ (23 - fm.f))
              else fp32.code (fm.neg c) 0x7FC00000
  | .inf n => fp32.code n 0x7F800000
  | .fin d => fp32.code d.neg (fp32.round .rne d).1

/-- An FP32 NaN narrowed (R170): sign kept, not quieted. -/
def Fmt.narrowNan (fm : Fmt) (c : Nat) : Nat :=
  if fm.w = 32 then c
  else if !fm.hasInf then fm.code (fp32.neg c) fm.nan
  else
    let top := c % 2 ^ 23 / 2 ^ (23 - fm.f)
    fm.code (fp32.neg c) (fm.infMag + if top = 0 then 2 ^ (fm.f - 1) else top)

/-- The first NaN of a list of sources, quieted, in a result format (R168). -/
def firstNan (out : Fmt) (srcs : List (Fmt × Nat)) : Option Nat :=
  (srcs.find? fun p => p.1.isNan p.2).map fun p =>
    out.quiet (if p.1 = out then p.2 else out.narrowNan (p.1.widen p.2))

/-- The exact sum of exact products of `srcs` rounded once (R162 to R168), scaled by 2^`k`. A NaN source beside 0 × ∞ sets IV
(R168); of a NaN source beside infinities of both signs the spec says nothing, and the model sets no IV (the model's choice, log
entry 108). -/
def evalSum (out : Fmt) (mode : Rnd) (ftz : Bool) (srcs : List (Fmt × Nat)) (prods : List (FVal × FVal)) (k : Int) : FRes :=
  let ps := prods.map fun p => p.1.mul p.2
  let bad := ps.contains none
  let sn := srcs.any fun p => p.1.isSnan p.2
  match firstNan out srcs with
  | some c => { code := c, flags := if sn || bad then flagIV else 0 }
  | none =>
    let vs := ps.filterMap id
    match infsOf vs with
    | (true, true) => { code := out.nan, flags := flagIV }
    | (p, n) =>
      if bad then { code := out.nan, flags := flagIV }
      else if p || n then { code := out.code n out.infMag, flags := 0 }
      else
        let d := sumDy (mode = .rdn) (finsOf vs)
        out.arith mode ftz { d with e := d.e + k }

/-- A magnitude rounded to an integer as a signed value, and whether it changed (R162, R164). -/
def Dy.toInteger (d : Dy) (mode : Rnd) : Int × Bool :=
  let r := d.roundAt mode 0
  (if d.neg then -(r.1 : Int) else r.1, r.2)

/-- A float rounded to an integral value of its own format (R179): NX only. -/
def Fmt.integral (fm : Fmt) (mode : Rnd) (c : Nat) : FRes :=
  match fm.val c with
  | .nan s => { code := fm.quiet c, flags := if s then flagIV else 0 }
  | .inf _ => { code := c, flags := 0 }
  | .fin d =>
    let r := d.roundAt mode 0
    { code := if r.1 = 0 then fm.code d.neg 0 else (fm.arith .rne false { neg := d.neg, m := r.1, e := 0 }).code,
      flags := if r.2 then flagNX else 0 }

/-- An exact integer as a value. -/
def intDy (x : Int) : Dy := { neg := x < 0, m := x.natAbs, e := 0 }

/-- A small signed integer as a code of a format, exactly (R178). -/
def Fmt.ofInt (fm : Fmt) (x : Int) : Nat := fm.code (x < 0) (fm.round .rne (intDy x)).1

/-- A value narrowed to a format (R170, R172); FP32 itself overflows by R163. `c` is the FP32 code of a NaN. -/
def Fmt.narrowV (fm : Fmt) (mode : Rnd) (ftz : Bool) (entry c : Nat) : FVal → FRes
  | .nan _ => { code := fm.narrowNan c, flags := 0 }
  | .inf n => if fm.hasInf then { code := fm.code n fm.infMag, flags := 0 }
              else { code := fm.code n (fm.tableMag entry), flags := flagOF ||| flagNX }
  | .fin d => fm.deliver mode ftz (if fm.w = 32 then fm.overflowMag mode d.neg else fm.tableMag entry) d

/-- A value times 2^`k`. -/
def FVal.scale (k : Int) : FVal → FVal
  | .fin d => .fin { d with e := d.e + k }
  | v => v

/-- An FP32 code times 2^`k` narrowed to a format. -/
def Fmt.narrow (fm : Fmt) (mode : Rnd) (ftz : Bool) (entry : Nat) (k : Int) (c : Nat) : FRes :=
  fm.narrowV mode ftz entry c ((fp32.val c).scale k)

/-- An FP32 code converted to an integer of `w` bits, saturating (R188, R186). -/
def toIntSat (w : Nat) (uns : Bool) (mode : Rnd) (c : Nat) : BitVec w × FFlags :=
  let lo : Int := if uns then 0 else -(2 ^ (w - 1))
  let hi : Int := if uns then 2 ^ w - 1 else 2 ^ (w - 1) - 1
  match fp32.val c with
  | .nan _ => (0, flagIV)
  | .inf n => (BitVec.ofInt w (if n then lo else hi), flagIV)
  | .fin d =>
    let r := d.toInteger mode
    if r.1 < lo ∨ hi < r.1 then (BitVec.ofInt w (max lo (min hi r.1)), flagIV)
    else (BitVec.ofInt w r.1, if r.2 then flagNX else 0)

/-- A field of the overflow table for a destination format (R173). -/
def ovEntry (ovtab : BitVec 10) (fm : Fmt) : Nat :=
  if fm = bf16 then bits ovtab.toNat 2 2 else if fm = e4m3 then bits ovtab.toNat 4 2
  else if fm = e5m2 then bits ovtab.toNat 6 2 else bits ovtab.toNat 0 2

/-- The order of two finite or infinite values, −0 equal to +0: −1, 0 or 1. -/
def FVal.cmp : FVal → FVal → Int
  | .inf a, .inf b => if a = b then 0 else if a then -1 else 1
  | .inf a, _ => if a then -1 else 1
  | _, .inf b => if b then 1 else -1
  | .fin a, .fin b =>
    let q := min a.e b.e
    (a.scaled q - b.scaled q).sign
  | _, _ => 0

/-- A condition over two values, either of which may be a NaN (R28, R182). -/
def condFloat (c : Cond) (a b : FVal) (un : Bool) : Bool :=
  match c with
  | .eq => !un && a.cmp b == 0
  | .ne => !un && a.cmp b != 0
  | .lt => !un && a.cmp b == -1
  | .le => !un && a.cmp b != 1
  | .gt => !un && a.cmp b == 1
  | .ge => !un && a.cmp b != -1
  | .ord => !un
  | .uno => un
  | .ueq => un || a.cmp b == 0
  | .une => un || a.cmp b != 0
  | .ult => un || a.cmp b == -1
  | .ule => un || a.cmp b != 1
  | .ugt => un || a.cmp b == 1
  | .uge => un || a.cmp b != -1

/-- Whether a condition is one of lt, le, gt and ge, which any NaN makes invalid (R182). -/
def condOrders : Cond → Bool
  | .lt | .le | .gt | .ge => true
  | _ => false

/-- The flags that an ordered comparison of codes raises. -/
def cmpFlags (fm : Fmt) (quietToo : Bool) (a b : Nat) : FFlags :=
  if fm.isSnan a || fm.isSnan b || (quietToo && (fm.isNan a || fm.isNan b)) then flagIV else 0

/-- `fmin` (`wantMax` false) and `fmax` of two codes (R181). -/
def Fmt.minMax (fm : Fmt) (wantMax : Bool) (a b : Nat) : FRes :=
  let below := match fm.val a, fm.val b with
    | x, y => x.cmp y == -1 || (x.cmp y == 0 && fm.neg a && !fm.neg b)
  let above := match fm.val a, fm.val b with
    | x, y => x.cmp y == 1 || (x.cmp y == 0 && !fm.neg a && fm.neg b)
  { code := if fm.isNan a && fm.isNan b then fm.quiet a
            else if fm.isNan a then b
            else if fm.isNan b then a
            else if wantMax then (if below then b else a) else (if above then b else a),
    flags := cmpFlags fm false a b }

/-- The class bit of a code (R183). -/
def Fmt.classBit (fm : Fmt) (c : Nat) : Nat :=
  match fm.val c with
  | .nan true => 0
  | .nan false => 1
  | .inf n => if n then 2 else 9
  | .fin d =>
    if d.m = 0 then (if d.neg then 5 else 6)
    else if fm.isSub c then (if d.neg then 4 else 7)
    else if d.neg then 3 else 8

end Sys2Proof.Machine
end

