-- ==== Sys2Proof/Machine/Float.lean ====
section
/-! DEFINITION. The FP vector and uniform instructions (R175 to R186). -/
namespace Sys2Proof.Machine

/-- An instruction that raises flags, lane by lane, completes with `g` and the flags, or takes trap 0x11 when an
enabled exception is raised (R175, R176). -/
def Env.flagged (e : Env) (lf : List (Nat × FFlags)) (g : Group) : Res :=
  let all := lf.foldl (fun (a : FFlags) p => a ||| p.2) 0
  let en : FFlags := BitVec.ofNat 7 e.g.mFpxe
  match lf.find? fun p => p.2 &&& en != 0 with
  | some p => .trap 0x11 (BitVec.ofNat 64 ((all &&& en).toNat + 2 ^ 16 * p.1)) none
  | none => e.upd { g with flags := g.flags ||| all }

/-- Random bits of element `k` of a word that holds `n` elements (R164). -/
def randomBits (r : Word) (k n : Nat) : Nat := bits r.toNat (32 / n * k) (32 / n)

/-- The rounding mode of element `k` of `n` in a lane (R45, R165). -/
def Env.rndAt (e : Env) (px : Option AluPx) (i k n : Nat) : Rnd :=
  rndOf (e.g.effRnd px) (randomBits (e.v.fourth px (fun _ => 0) i) k n) (32 / n)

/-- Types of FP arithmetic (R177). -/
def arithType (t : Nat) : Bool := t = 7 || t = 8 || t = 9

/-- Types of `fdot2` (R180). -/
def dotType (t : Nat) : Bool := t = 8 || t = 9

/-- The prefix fields that an FP vector instruction does not honour: xw; a rounding code where it does not round;
SR without a random word; a fourth operand that is neither an addend nor a random word (R165, R178). -/
def fpMisuse (px : Option AluPx) (rounds fourth : Bool) : Bool :=
  pxXw px != 0 || (!rounds && pxRnd px != 0) || (pxRnd px = 6 && pxKind px = 0)
    || (pxKind px != 0 && !fourth && pxRnd px != 6)

/-- What the issue logic knows of an FP vector instruction (R177, R178). -/
def fpSpec (g : Group) (words : List Nat) (st : BitVec 2) (px : Option AluPx) (ok : Nat → Bool) (rounds fourth : Bool)
    (vn : List Nat) (vsrc ssrc : List Nat) (writes : List (RegName × Nat)) : Spec :=
  { words := words, stall := st, mask := aluMask px, role := some .vector,
    misuse := fpMisuse px rounds fourth || (pxType px != 0 && !ok (pxType px)),
    vNamed := vn ++ vsrc ++ fourthV px 1, sNamed := ssrc ++ fourthS px,
    modeIll := (pxType px = 0 && !ok g.mType) || (rounds && g.rndBad px),
    reads := g.maskReads (aluMask px) ++ vsrc.map vName ++ ssrc.map sName ++ fourthReads px 1, writes := writes, zero := aluZero px }

/-- Elements of a word in a format, under DAZ (R166). -/
def Env.elemOf (e : Env) (fm : Fmt) (x : Word) (k : Nat) : Nat := fm.daz e.g.mDaz (bits x.toNat (fm.w * k) fm.w)

/-- A word from element results, and the flags they raise. -/
def packRes (fm : Fmt) (rs : List FRes) : Word × FFlags :=
  (packElems fm.w (rs.map fun r => BitVec.ofNat fm.w r.code), rs.foldl (fun (a : FFlags) r => a ||| r.flags) 0)

/-- An operation on the elements of the sources: format, rounding mode, FTZ, a, b and c. -/
abbrev FOp := Fmt → Rnd → Bool → Nat → Nat → Nat → FRes

/-- `fadd` (R179). -/
def opFadd : FOp := fun fm r z a b _ =>
  evalSum fm r z [(fm, a), (fm, b)] [(fm.val a, oneVal), (fm.val b, oneVal)] 0

/-- A code with its sign inverted; a NaN keeps its sign when it is propagated (R168, R179). -/
def Fmt.negate (fm : Fmt) (c : Nat) : Nat := fm.code (!fm.neg c) (fm.mag c)

/-- `fsub` (R179). -/
def opFsub : FOp := fun fm r z a b _ =>
  evalSum fm r z [(fm, a), (fm, b)] [(fm.val a, oneVal), (fm.val (fm.negate b), oneVal)] 0

/-- `fmul` (R179). -/
def opFmul : FOp := fun fm r z a b _ => evalSum fm r z [(fm, a), (fm, b)] [(fm.val a, fm.val b)] 0

/-- `ffma` (R179). -/
def opFfma : FOp := fun fm r z a b c =>
  evalSum fm r z [(fm, a), (fm, b), (fm, c)] [(fm.val a, fm.val b), (fm.val c, oneVal)] 0

/-- `fscale` (R179): b is a signed integer; beyond ±1000 every result is the same. -/
def opFscale : FOp := fun fm r z a b _ =>
  evalSum fm r z [(fm, a)] [(fm.val a, oneVal)] (max (-1000) (min 1000 (BitVec.ofNat fm.w b).toInt))

/-- `fmin` (R181). -/
def opFmin : FOp := fun fm _ _ a b _ => fm.minMax false a b

/-- `fmax` (R181). -/
def opFmax : FOp := fun fm _ _ a b _ => fm.minMax true a b

/-- `fround` (R179). -/
def opFround : FOp := fun fm r _ a _ _ => fm.integral r a

/-- The second source of a VU word in a format: a uniform register whole, or an imm7 converted exactly (R178). -/
def Env.vsrcF (e : Env) (fm : Fmt) (src : VSrc) : Word :=
  match src with
  | .u r => e.v.sreg r.toNat
  | .imm i => packElems fm.w (copiesOf (32 / fm.w) (BitVec.ofNat fm.w (fm.ofInt i.toInt)))

/-- The addend of `ffma` and `fdot2` (R180): the old vd, or the fourth operand when that is not the random word. -/
def Env.addend (e : Env) (fm : Fmt) (px : Option AluPx) (vd i : Nat) : Word :=
  if pxRnd px = 6 ∨ pxKind px = 0 then e.v.vreg vd i
  else if pxKind px = 3 then
    packElems fm.w (copiesOf (32 / fm.w) (BitVec.ofNat fm.w (fm.ofInt (BitVec.ofNat 7 (pxOp4 px)).toInt)))
  else e.v.fourth px (fun _ => 0) i

/-- The elements of the lanes of an FP vector instruction (R179). `rawB` leaves b's elements as they are. -/
def Env.fpLane (e : Env) (px : Option AluPx) (rawB : Bool) (op : FOp) (a b c : Word) (i : Nat) : Word × FFlags :=
  let fm := fmtOf (e.g.effType px)
  let n := 32 / fm.w
  packRes fm ((List.range n).map fun k =>
    op fm (e.rndAt px i k n) e.g.mFtz (e.elemOf fm a k)
      (if rawB then bits b.toNat (fm.w * k) fm.w else e.elemOf fm b k) (e.elemOf fm c k))

/-- An FP vector result over the Active lanes (R5, R175, R176, R179). -/
def Env.fpWrite (e : Env) (px : Option AluPx) (vd : Nat) (f : Nat → Word × FFlags) : Res :=
  let rs := (lanesOf e.active).map fun i => (i, f i)
  e.flagged (rs.map fun r => (r.1, r.2.2))
    (e.g.writeV vd (aluZero px) e.active fun i => ((tabGet rs i).map (·.1)).getD 0)

/-- A V3 FP instruction with two sources (R179). -/
def fpV3 (base : Nat) (f : V3) (rounds rawB : Bool) (op : FOp) (s : State) : Host.Outcome State Fault Refusal :=
  issue (fun g _ => fpSpec g (aluWords f.px (packV3 base f)) f.st f.px arithType rounds false [f.vd.toNat]
      [f.va.toNat, f.vb.toNat] [] [(vName f.vd.toNat, 4)])
    (fun e => e.fpWrite f.px f.vd.toNat fun i =>
      e.fpLane f.px rawB op (e.v.vreg f.va.toNat i) (e.v.vreg f.vb.toNat i) 0 i) s

/-- A VU FP instruction with two sources (R179). -/
def fpVU (base : Nat) (f : VU) (rounds : Bool) (op : FOp) (s : State) : Host.Outcome State Fault Refusal :=
  issue (fun g _ => fpSpec g (aluWords f.px (packVU base f)) f.st f.px arithType rounds false [f.vd.toNat]
      [f.va.toNat] (vsrcNamed f.src) [(vName f.vd.toNat, 4)])
    (fun e => e.fpWrite f.px f.vd.toNat fun i =>
      e.fpLane f.px false op (e.v.vreg f.va.toNat i) (e.vsrcF (fmtOf (e.g.effType f.px)) f.src) 0 i) s

/-- An instruction that reads the old vd as its addend (R180). -/
def oldAddend (px : Option AluPx) (vd : Nat) (sp : Spec) : Spec :=
  if pxRnd px = 6 ∨ pxKind px = 0 then { sp with reads := vName vd :: sp.reads } else sp

/-- `fdot2` in one lane (R180). -/
def Env.dot2 (e : Env) (px : Option AluPx) (a b c : Word) (i : Nat) : Word × FFlags :=
  let fm := fmtOf (e.g.effType px)
  let x := fun k => e.elemOf fm a k
  let y := fun k => e.elemOf fm b k
  let z := e.elemOf fp32 c 0
  let r := evalSum fp32 (e.rndAt px i 0 1) e.g.mFtz [(fm, x 0), (fm, x 1), (fm, y 0), (fm, y 1), (fp32, z)]
    [(fm.val (x 0), fm.val (y 0)), (fm.val (x 1), fm.val (y 1)), (fp32.val z, oneVal)] 0
  (BitVec.ofNat 32 r.code, r.flags)

/-- A unary FP instruction that keeps or classifies codes (R179, R183): no DAZ, no flags. -/
def fpBits (base : Nat) (f : V3Un) (op : Fmt → Nat → Nat) (s : State) : Host.Outcome State Fault Refusal :=
  issue (fun g _ => fpSpec g (aluWords f.px (packV3Un base f)) f.st f.px arithType false false [f.vd.toNat]
      [f.va.toNat] [] [(vName f.vd.toNat, 4)])
    (fun e =>
      let fm := fmtOf (e.g.effType f.px)
      e.upd (e.g.writeV f.vd.toNat (aluZero f.px) e.active fun i =>
        packElems fm.w ((List.range (32 / fm.w)).map fun k =>
          BitVec.ofNat fm.w (op fm (bits (e.v.vreg f.va.toNat i).toNat (fm.w * k) fm.w))))) s

/-- `fcmp` in one lane (R182): both elements of a packed type must satisfy the condition. -/
def Env.cmpLane (e : Env) (px : Option AluPx) (c : Cond) (a b : Word) : Bool × FFlags :=
  let fm := fmtOf (e.g.effType px)
  let ks := List.range (32 / fm.w)
  (ks.all fun k =>
    let x := e.elemOf fm a k
    let y := e.elemOf fm b k
    condFloat c (fm.val x) (fm.val y) (fm.isNan x || fm.isNan y),
   ks.foldl (fun (acc : FFlags) k => acc ||| cmpFlags fm (condOrders c) (e.elemOf fm a k) (e.elemOf fm b k)) 0)

/-- A compare's predicate over the Active lanes (R182). -/
def Env.fpPred (e : Env) (px : Option AluPx) (pd : Nat) (f : Nat → Bool × FFlags) : Res :=
  let rs := (lanesOf e.active).map fun i => (i, f i)
  e.flagged (rs.map fun r => (r.1, r.2.2))
    (e.g.writeP pd (aluZero px) e.active fun i => ((tabGet rs i).map (·.1)).getD false)

/-- `ffma`, V3 form (R180). -/
def execFfma (f : V3) (s : State) : Host.Outcome State Fault Refusal :=
  issue (fun g _ => oldAddend f.px f.vd.toNat
      (fpSpec g (aluWords f.px (packV3 0x11800000 f)) f.st f.px arithType true true [f.vd.toNat]
        [f.va.toNat, f.vb.toNat] [] [(vName f.vd.toNat, 4)]))
    (fun e => e.fpWrite f.px f.vd.toNat fun i =>
      e.fpLane f.px false opFfma (e.v.vreg f.va.toNat i) (e.v.vreg f.vb.toNat i)
        (e.addend (fmtOf (e.g.effType f.px)) f.px f.vd.toNat i) i) s

/-- `ffma`, VU form (R180). -/
def execFfmaVu (f : VU) (s : State) : Host.Outcome State Fault Refusal :=
  issue (fun g _ => oldAddend f.px f.vd.toNat
      (fpSpec g (aluWords f.px (packVU 0x63000000 f)) f.st f.px arithType true true [f.vd.toNat]
        [f.va.toNat] (vsrcNamed f.src) [(vName f.vd.toNat, 4)]))
    (fun e => e.fpWrite f.px f.vd.toNat fun i =>
      e.fpLane f.px false opFfma (e.v.vreg f.va.toNat i) (e.vsrcF (fmtOf (e.g.effType f.px)) f.src)
        (e.addend (fmtOf (e.g.effType f.px)) f.px f.vd.toNat i) i) s

/-- `fdot2`, V3 form (R180). -/
def execFdot2 (f : V3) (s : State) : Host.Outcome State Fault Refusal :=
  issue (fun g _ => oldAddend f.px f.vd.toNat
      (fpSpec g (aluWords f.px (packV3 0x15800000 f)) f.st f.px dotType true true [f.vd.toNat]
        [f.va.toNat, f.vb.toNat] [] [(vName f.vd.toNat, 4)]))
    (fun e => e.fpWrite f.px f.vd.toNat fun i =>
      e.dot2 f.px (e.v.vreg f.va.toNat i) (e.v.vreg f.vb.toNat i) (e.addend fp32 f.px f.vd.toNat i) i) s

/-- `fdot2`, VU form (R180). -/
def execFdot2Vu (f : VU) (s : State) : Host.Outcome State Fault Refusal :=
  issue (fun g _ => oldAddend f.px f.vd.toNat
      (fpSpec g (aluWords f.px (packVU 0x6B000000 f)) f.st f.px dotType true true [f.vd.toNat]
        [f.va.toNat] (vsrcNamed f.src) [(vName f.vd.toNat, 4)]))
    (fun e => e.fpWrite f.px f.vd.toNat fun i =>
      e.dot2 f.px (e.v.vreg f.va.toNat i) (e.vsrcF (fmtOf (e.g.effType f.px)) f.src) (e.addend fp32 f.px f.vd.toNat i) i) s

/-- `fadd`, V3 form (R179). -/
def execFadd (f : V3) (s : State) : Host.Outcome State Fault Refusal := fpV3 0x10000000 f true false opFadd s

/-- `fadd`, VU form (R179). -/
def execFaddVu (f : VU) (s : State) : Host.Outcome State Fault Refusal := fpVU 0x60000000 f true opFadd s

/-- `fsub`, V3 form (R179). -/
def execFsub (f : V3) (s : State) : Host.Outcome State Fault Refusal := fpV3 0x10800000 f true false opFsub s

/-- `fsub`, VU form (R179). -/
def execFsubVu (f : VU) (s : State) : Host.Outcome State Fault Refusal := fpVU 0x61000000 f true opFsub s

/-- `fmul`, V3 form (R179). -/
def execFmul (f : V3) (s : State) : Host.Outcome State Fault Refusal := fpV3 0x11000000 f true false opFmul s

/-- `fmul`, VU form (R179). -/
def execFmulVu (f : VU) (s : State) : Host.Outcome State Fault Refusal := fpVU 0x62000000 f true opFmul s

/-- `fmin`, V3 form (R181). -/
def execFmin (f : V3) (s : State) : Host.Outcome State Fault Refusal := fpV3 0x12000000 f false false opFmin s

/-- `fmin`, VU form (R181). -/
def execFminVu (f : VU) (s : State) : Host.Outcome State Fault Refusal := fpVU 0x64000000 f false opFmin s

/-- `fmax`, V3 form (R181). -/
def execFmax (f : V3) (s : State) : Host.Outcome State Fault Refusal := fpV3 0x12800000 f false false opFmax s

/-- `fmax`, VU form (R181). -/
def execFmaxVu (f : VU) (s : State) : Host.Outcome State Fault Refusal := fpVU 0x65000000 f false opFmax s

/-- `fscale`, V3 form (R179). -/
def execFscale (f : V3) (s : State) : Host.Outcome State Fault Refusal := fpV3 0x14800000 f true true opFscale s

/-- `fscale`, VU form (R178): the imm7 is a sign-extended integer. -/
def execFscaleVu (f : VU) (s : State) : Host.Outcome State Fault Refusal :=
  issue (fun g _ => fpSpec g (aluWords f.px (packVU 0x69000000 f)) f.st f.px arithType true false [f.vd.toNat]
      [f.va.toNat] (vsrcNamed f.src) [(vName f.vd.toNat, 4)])
    (fun e => e.fpWrite f.px f.vd.toNat fun i =>
      e.fpLane f.px true opFscale (e.v.vreg f.va.toNat i) (e.v.vsrc (fmtOf (e.g.effType f.px)).w f.src) 0 i) s

/-- `fabs` (R179). -/
def execFabs (f : V3Un) (s : State) : Host.Outcome State Fault Refusal := fpBits 0x13000000 f (fun fm c => fm.code false (fm.mag c)) s

/-- `fneg` (R179). -/
def execFneg (f : V3Un) (s : State) : Host.Outcome State Fault Refusal := fpBits 0x13800000 f (fun fm c => fm.negate c) s

/-- `fclass` (R183). -/
def execFclass (f : V3Un) (s : State) : Host.Outcome State Fault Refusal := fpBits 0x14000000 f (fun fm c => 2 ^ fm.classBit c) s

/-- `fround` (R179). -/
def execFround (f : V3Un) (s : State) : Host.Outcome State Fault Refusal :=
  issue (fun g _ => fpSpec g (aluWords f.px (packV3Un 0x16000000 f)) f.st f.px arithType true false [f.vd.toNat]
      [f.va.toNat] [] [(vName f.vd.toNat, 4)])
    (fun e => e.fpWrite f.px f.vd.toNat fun i => e.fpLane f.px false opFround (e.v.vreg f.va.toNat i) 0 0 i) s

/-- `fcmp`, V3 form (R182). -/
def execFcmp (f : V3Cmp) (s : State) : Host.Outcome State Fault Refusal :=
  issue (fun g _ => fpSpec g (aluWords f.px (packV3Cmp 0x15000000 f)) f.st f.px arithType false false []
      [f.va.toNat, f.vb.toNat] [] [(pName f.pd.toNat, 4)])
    (fun e => e.fpPred f.px f.pd.toNat fun i => e.cmpLane f.px f.cond (e.v.vreg f.va.toNat i) (e.v.vreg f.vb.toNat i)) s

/-- `fcmp`, VU form (R182). -/
def execFcmpVu (f : VUCmp) (s : State) : Host.Outcome State Fault Refusal :=
  issue (fun g _ => fpSpec g (aluWords f.px (packVUCmp 0x6A000000 f)) f.st f.px arithType false false []
      [f.va.toNat] (vsrcNamed f.src) [(pName f.pd.toNat, 4)])
    (fun e => e.fpPred f.px f.pd.toNat fun i =>
      e.cmpLane f.px f.cond (e.v.vreg f.va.toNat i) (e.vsrcF (fmtOf (e.g.effType f.px)) f.src)) s

/-- The second source of a uniform FP instruction (R184): an imm9 converted exactly to FP32. -/
def Env.ssrcF (e : Env) (src : SSrc) : Nat :=
  match src with
  | .r r => (e.v.sreg r.toNat).toNat
  | .imm i => fp32.ofInt i.toInt

/-- What the issue logic knows of a uniform FP instruction, whose distance is 4 (R71, R184). -/
def ufpSpec (g : Group) (w : Nat) (st : BitVec 2) (named : List Nat) (rs ws : List RegName) (rounds : Bool) : Spec :=
  { words := [w], stall := st, sNamed := named, reads := rs, writes := ws.map fun r => (r, 4),
    modeIll := rounds && g.rndBad none }

/-- The result of a uniform FP instruction: a register and flags (R176, R184). -/
def Env.ufp (e : Env) (sd : Nat) (r : Nat × FFlags) : Res :=
  e.flagged [(0, r.2)] (e.g.setSreg sd (BitVec.ofNat 32 r.1))

/-- A uniform FP instruction with two sources (R184); `old` says that it reads sd too. -/
def ufpBin (base : Nat) (f : S3) (old : Bool) (op : FOp) (s : State) : Host.Outcome State Fault Refusal :=
  issue (fun g _ => ufpSpec g (packS3 base f) f.st (f.sd.toNat :: f.sa.toNat :: ssrcNamed f.src)
      ((if old then [sName f.sd.toNat] else []) ++ sName f.sa.toNat :: ssrcReads f.src) [sName f.sd.toNat] true)
    (fun e =>
      let z := fp32.daz e.g.mDaz
      let r := op fp32 (rndOf e.g.mRnd 0 32) e.g.mFtz (z (e.v.sreg f.sa.toNat).toNat) (z (e.ssrcF f.src))
        (z (e.v.sreg f.sd.toNat).toNat)
      e.ufp f.sd.toNat (r.code, r.flags)) s

/-- `sfadd` (R184). -/
def execSfadd (f : S3) (s : State) : Host.Outcome State Fault Refusal := ufpBin 0x98000000 f false opFadd s

/-- `sfmul` (R184). -/
def execSfmul (f : S3) (s : State) : Host.Outcome State Fault Refusal := ufpBin 0x99000000 f false opFmul s

/-- `sffma` (R184): sd is read first. -/
def execSffma (f : S3) (s : State) : Host.Outcome State Fault Refusal := ufpBin 0x9A000000 f true opFfma s

/-- SCC after `sfcmp` (R185). -/
def sccFloat (old : BitVec 5) (a b : FVal) (un : Bool) : BitVec 5 :=
  if un then sccSet old false false false true
  else if a.cmp b = -1 then sccSet old false true false false
  else if a.cmp b = 0 then sccSet old true false true false
  else sccSet old false false true false

/-- `sfcmp` (R185). -/
def execSfcmp (f : SCmp) (s : State) : Host.Outcome State Fault Refusal :=
  issue (fun g _ => ufpSpec g (packSCmp 0x9B000000 f) f.st (f.sa.toNat :: ssrcNamed f.src)
      (sName f.sa.toNat :: ssrcReads f.src) [sccName] false)
    (fun e =>
      let a := fp32.daz e.g.mDaz (e.v.sreg f.sa.toNat).toNat
      let b := fp32.daz e.g.mDaz (e.ssrcF f.src)
      e.flagged [(0, cmpFlags fp32 false a b)]
        { e.g with scc := sccFloat e.g.scc (fp32.val a) (fp32.val b) (fp32.isNan a || fp32.isNan b) }) s

/-- The kinds of `sfcvt` (R186): the result and its flags. R186 states no NX for a value that saturates and also has a
fraction, and nothing of `fint` on a NaN: the model sets IV alone, and quiets the NaN, with IV for a signalling one, as `fround`
does (the model's choice, log entry 107). -/
def sfcvtRes (kind : Nat) (mode : Rnd) (daz ftz : Bool) (ovtab : BitVec 10) (x : Word) : Nat × FFlags :=
  let a := fp32.daz daz x.toNat
  let toInt := fun uns => match toIntSat 32 uns mode a with
    | (b, fl) => (b.toNat, fl)
  let res := fun (r : FRes) => (r.code, r.flags)
  match kind with
  | 0 => toInt false
  | 1 => toInt true
  | 2 => res (fp32.arith mode ftz (intDy x.toInt))
  | 3 => res (fp32.arith mode ftz (intDy x.toNat))
  | 4 => res (bf16.narrow mode ftz (ovEntry ovtab bf16) 0 a)
  | 5 => res (fp32.narrow .rne ftz 0 0 (bf16.widen (bf16.daz daz (bits x.toNat 0 16))))
  | 6 => res (fp16.narrow mode ftz (ovEntry ovtab fp16) 0 a)
  | 7 => res (fp32.narrow .rne ftz 0 0 (fp16.widen (fp16.daz daz (bits x.toNat 0 16))))
  | _ => res (fp32.integral mode a)

/-- `sfcvt` (R186): kinds 5 and 7 do not round. -/
def execSfcvt (f : SCvt) (s : State) : Host.Outcome State Fault Refusal :=
  issue (fun g _ => ufpSpec g (packSCvt 0x9C000000 f) f.st [f.sd.toNat, f.sa.toNat] [sName f.sa.toNat]
      [sName f.sd.toNat] (f.kind != 5 && f.kind != 7))
    (fun e => e.ufp f.sd.toNat
      (sfcvtRes f.kind.toNat (rndOf e.g.mRnd 0 32) e.g.mDaz e.g.mFtz e.g.ovtab (e.v.sreg f.sa.toNat))) s

end Sys2Proof.Machine
end

