-- ==== Sys2Proof/Machine/Integer.lean ====
section
/-! DEFINITION. The integer vector instructions and `movi` (R138 to R147). -/
namespace Sys2Proof.Machine

/-- (a + b) mod 2^w (R141). -/
def elAdd (w : Nat) (_ : Bool) (a b : BitVec w) : BitVec w := a + b
/-- (a − b) mod 2^w (R141). -/
def elSub (w : Nat) (_ : Bool) (a b : BitVec w) : BitVec w := a - b
/-- (a × b) mod 2^w (R141). -/
def elMul (w : Nat) (_ : Bool) (a b : BitVec w) : BitVec w := a * b
/-- The high half of the signed product (R141). -/
def elMulh (w : Nat) (_ : Bool) (a b : BitVec w) : BitVec w := BitVec.ofInt w (a.toInt * b.toInt / 2 ^ w)
/-- The high half of the unsigned product (R141). -/
def elMulhu (w : Nat) (_ : Bool) (a b : BitVec w) : BitVec w := BitVec.ofNat w (a.toNat * b.toNat / 2 ^ w)
/-- Bitwise and (R141). -/
def elAnd (w : Nat) (_ : Bool) (a b : BitVec w) : BitVec w := a &&& b
/-- Bitwise or (R141). -/
def elOr (w : Nat) (_ : Bool) (a b : BitVec w) : BitVec w := a ||| b
/-- Bitwise exclusive or (R141). -/
def elXor (w : Nat) (_ : Bool) (a b : BitVec w) : BitVec w := a ^^^ b
/-- Left shift by the whole element; w or more gives 0 (R142). -/
def elShl (w : Nat) (_ : Bool) (a b : BitVec w) : BitVec w := if b.toNat < w then a <<< b.toNat else 0
/-- Logical right shift by the whole element; w or more gives 0 (R142). -/
def elShr (w : Nat) (_ : Bool) (a b : BitVec w) : BitVec w := if b.toNat < w then a >>> b.toNat else 0
/-- Arithmetic right shift by the whole element; w or more gives the sign (R142). -/
def elSra (w : Nat) (_ : Bool) (a b : BitVec w) : BitVec w :=
  if b.toNat < w then a.sshiftRight b.toNat else if a.msb then BitVec.allOnes w else 0
/-- The signed minimum (R141). -/
def elMin (w : Nat) (_ : Bool) (a b : BitVec w) : BitVec w := if a.slt b then a else b
/-- The signed maximum (R141). -/
def elMax (w : Nat) (_ : Bool) (a b : BitVec w) : BitVec w := if a.slt b then b else a
/-- The unsigned minimum (R141). -/
def elMinu (w : Nat) (_ : Bool) (a b : BitVec w) : BitVec w := if a.ult b then a else b
/-- The unsigned maximum (R141). -/
def elMaxu (w : Nat) (_ : Bool) (a b : BitVec w) : BitVec w := if a.ult b then b else a
/-- An element's value with a signedness (R138). -/
def elVal (w : Nat) (uns : Bool) (a : BitVec w) : Int := if uns then a.toNat else a.toInt
/-- An exact result clamped to the element range of a signedness (R143). -/
def elClamp (w : Nat) (uns : Bool) (x : Int) : BitVec w :=
  let lo : Int := if uns then 0 else -(2 ^ (w - 1))
  let hi : Int := if uns then 2 ^ w - 1 else 2 ^ (w - 1) - 1
  BitVec.ofInt w (max lo (min hi x))
/-- The saturating sum (R143). -/
def elAddSat (w : Nat) (uns : Bool) (a b : BitVec w) : BitVec w := elClamp w uns (elVal w uns a + elVal w uns b)
/-- The saturating difference (R143). -/
def elSubSat (w : Nat) (uns : Bool) (a b : BitVec w) : BitVec w := elClamp w uns (elVal w uns a - elVal w uns b)
/-- The absolute difference (R143). -/
def elAbsDiff (w : Nat) (uns : Bool) (a b : BitVec w) : BitVec w :=
  BitVec.ofNat w (elVal w uns a - elVal w uns b).natAbs
/-- The number of 1 bits (R141). -/
def elPopc (w : Nat) (_ : Bool) (a _b : BitVec w) : BitVec w := BitVec.ofNat w (popCount w a.toNat)
/-- The number of leading 0 bits (R141). -/
def elClz (w : Nat) (_ : Bool) (a _b : BitVec w) : BitVec w := BitVec.ofNat w (leadingZeros w a.toNat)
/-- The bits reversed (R141). -/
def elBrev (w : Nat) (_ : Bool) (a _b : BitVec w) : BitVec w := BitVec.ofNat w (bitReverse w a.toNat)
/-- The second source (R146). -/
def elSnd (w : Nat) (_ : Bool) (_a b : BitVec w) : BitVec w := b

/-- The prefix fields that an integer instruction does not honour (R140). -/
def intMisuse (px : Option AluPx) (fourth : Bool) : Bool :=
  pxRnd px != 0 || pxXw px != 0 || (!fourth && pxKind px != 0)

/-- What the issue logic knows of an integer vector instruction (R140, R141). -/
def intSpec (g : Group) (words : List Nat) (st : BitVec 2) (px : Option AluPx) (vd : Nat) (vsrc ssrc : List Nat) : Spec :=
  { words := words, stall := st, mask := aluMask px, misuse := intMisuse px false, vNamed := vd :: vsrc, sNamed := ssrc,
    modeIll := g.typeBad px, reads := g.maskReads (aluMask px) ++ vsrc.map vName ++ ssrc.map sName,
    writes := [(vName vd, 4)], zero := aluZero px }

/-- The element operations of an integer instruction over the Active lanes (R141). -/
def intLanes (op : (w : Nat) → Bool → BitVec w → BitVec w → BitVec w) (t : Nat) (a b : Word) : Word :=
  mapElems (elemWidth t) (op (elemWidth t) (unsignedType t)) a b

/-- A V3 integer instruction (R141). -/
def intV3 (base : Nat) (f : V3) (op : (w : Nat) → Bool → BitVec w → BitVec w → BitVec w) (s : State) :
    Host.Outcome State Fault Refusal :=
  issue (fun g _ => intSpec g (aluWords f.px (packV3 base f)) f.st f.px f.vd.toNat [f.va.toNat, f.vb.toNat] [])
    (fun e => e.upd (e.g.writeV f.vd.toNat (aluZero f.px) e.active fun i =>
      intLanes op (e.v.effType f.px) (e.v.vreg f.va.toNat i) (e.v.vreg f.vb.toNat i))) s

/-- A VU integer instruction (R139, R141). -/
def intVU (base : Nat) (f : VU) (op : (w : Nat) → Bool → BitVec w → BitVec w → BitVec w) (s : State) :
    Host.Outcome State Fault Refusal :=
  issue (fun g _ => intSpec g (aluWords f.px (packVU base f)) f.st f.px f.vd.toNat [f.va.toNat] (vsrcNamed f.src))
    (fun e => e.upd (e.g.writeV f.vd.toNat (aluZero f.px) e.active fun i =>
      intLanes op (e.v.effType f.px) (e.v.vreg f.va.toNat i) (e.v.vsrc (elemWidth (e.v.effType f.px)) f.src))) s

/-- A unary V3 integer instruction (R141). -/
def intUn (base : Nat) (f : V3Un) (op : (w : Nat) → Bool → BitVec w → BitVec w → BitVec w) (s : State) :
    Host.Outcome State Fault Refusal :=
  issue (fun g _ => intSpec g (aluWords f.px (packV3Un base f)) f.st f.px f.vd.toNat [f.va.toNat] [])
    (fun e => e.upd (e.g.writeV f.vd.toNat (aluZero f.px) e.active fun i =>
      intLanes op (e.v.effType f.px) (e.v.vreg f.va.toNat i) 0)) s

/-- A condition over exact values; the codes above 5 are reserved for integers (R28, R145). -/
def condInt (c : Cond) (a b : Int) : Bool :=
  match c with
  | .eq => a == b
  | .ne => a != b
  | .lt => a < b
  | .le => a ≤ b
  | .gt => b < a
  | .ge => b ≤ a
  | _ => false

/-- What the issue logic knows of an integer compare (R145). -/
def icmpSpec (g : Group) (words : List Nat) (st : BitVec 2) (px : Option AluPx) (c : Cond) (pd : Nat) (vsrc ssrc : List Nat) : Spec :=
  { words := words, stall := st, mask := aluMask px, ill := icondIll c, misuse := intMisuse px false || pxType px != 0,
    vNamed := vsrc, sNamed := ssrc, reads := g.maskReads (aluMask px) ++ vsrc.map vName ++ ssrc.map sName,
    writes := [(pName pd, 4)], zero := aluZero px }

/-- A V3 integer compare (R145). -/
def icmpV3 (base : Nat) (f : V3Cmp) (uns : Bool) (s : State) : Host.Outcome State Fault Refusal :=
  issue (fun g _ => icmpSpec g (aluWords f.px (packV3Cmp base f)) f.st f.px f.cond f.pd.toNat [f.va.toNat, f.vb.toNat] [])
    (fun e => e.upd (e.g.writeP f.pd.toNat (aluZero f.px) e.active fun i =>
      condInt f.cond (elVal 32 uns (e.v.vreg f.va.toNat i)) (elVal 32 uns (e.v.vreg f.vb.toNat i)))) s

/-- A VU integer compare (R145). -/
def icmpVU (base : Nat) (f : VUCmp) (uns : Bool) (s : State) : Host.Outcome State Fault Refusal :=
  issue (fun g _ => icmpSpec g (aluWords f.px (packVUCmp base f)) f.st f.px f.cond f.pd.toNat [f.va.toNat] (vsrcNamed f.src))
    (fun e => e.upd (e.g.writeP f.pd.toNat (aluZero f.px) e.active fun i =>
      condInt f.cond (elVal 32 uns (e.v.vreg f.va.toNat i)) (elVal 32 uns (e.v.vsrc 32 f.src)))) s

/-- The sum of the four byte products of `idot4` (R144). -/
def dot4 (uns : Bool) (a b c : Word) : Word :=
  BitVec.ofInt 32 (c.toNat + ([0, 1, 2, 3].map fun k => elVal 8 uns (elem 8 a k) * elVal 8 uns (elem 8 b k)).sum)

/-- What the issue logic knows of `idot4` (R144): without a fourth operand the old vd is a source. -/
def dotSpec (g : Group) (words : List Nat) (st : BitVec 2) (px : Option AluPx) (vd : Nat) (vsrc ssrc : List Nat) : Spec :=
  { words := words, stall := st, mask := aluMask px, misuse := intMisuse px true,
    vNamed := vd :: vsrc ++ fourthV px 1, sNamed := ssrc ++ fourthS px, modeIll := g.typeBad px,
    reads := g.maskReads (aluMask px) ++ vsrc.map vName ++ ssrc.map sName
      ++ (if pxKind px = 0 then [vName vd] else fourthReads px 1),
    writes := [(vName vd, 4)], zero := aluZero px }

/-- The lanes that `vsel` writes (R146). -/
def Env.selLanes (e : Env) : DWord := e.p.mask &&& maskBelow e.g.width

/-- The lanes of the split whose selector is 1 (R146). -/
def Env.selector (e : Env) (px : Option AluPx) : DWord := e.v.activeMask e.p.mask (aluMask px)

/-- What the issue logic knows of `vsel` (R146): zeroing is refused. -/
def vselSpec (g : Group) (words : List Nat) (st : BitVec 2) (px : Option AluPx) (vd : Nat) (vsrc ssrc : List Nat) : Spec :=
  let sp := intSpec g words st px vd vsrc ssrc
  { sp with mask := .none, misuse := sp.misuse || aluZero px }

/-- `iadd`, V3 form (R141). -/
def execIadd (f : V3) (s : State) : Host.Outcome State Fault Refusal := intV3 0x00000000 f elAdd s

/-- `iadd`, VU form (R141, R139). -/
def execIaddVu (f : VU) (s : State) : Host.Outcome State Fault Refusal := intVU 0x40000000 f elAdd s

/-- `isub`, V3 form (R141). -/
def execIsub (f : V3) (s : State) : Host.Outcome State Fault Refusal := intV3 0x00800000 f elSub s

/-- `isub`, VU form (R141, R139). -/
def execIsubVu (f : VU) (s : State) : Host.Outcome State Fault Refusal := intVU 0x41000000 f elSub s

/-- `imul`, V3 form (R141). -/
def execImul (f : V3) (s : State) : Host.Outcome State Fault Refusal := intV3 0x01000000 f elMul s

/-- `imul`, VU form (R141, R139). -/
def execImulVu (f : VU) (s : State) : Host.Outcome State Fault Refusal := intVU 0x42000000 f elMul s

/-- `imulh`, V3 form (R141). -/
def execImulh (f : V3) (s : State) : Host.Outcome State Fault Refusal := intV3 0x01800000 f elMulh s

/-- `imulh`, VU form (R141, R139). -/
def execImulhVu (f : VU) (s : State) : Host.Outcome State Fault Refusal := intVU 0x43000000 f elMulh s

/-- `imulhu`, V3 form (R141). -/
def execImulhu (f : V3) (s : State) : Host.Outcome State Fault Refusal := intV3 0x02000000 f elMulhu s

/-- `imulhu`, VU form (R141, R139). -/
def execImulhuVu (f : VU) (s : State) : Host.Outcome State Fault Refusal := intVU 0x44000000 f elMulhu s

/-- `iand`, V3 form (R141). -/
def execIand (f : V3) (s : State) : Host.Outcome State Fault Refusal := intV3 0x02800000 f elAnd s

/-- `iand`, VU form (R141, R139). -/
def execIandVu (f : VU) (s : State) : Host.Outcome State Fault Refusal := intVU 0x45000000 f elAnd s

/-- `ior`, V3 form (R141). -/
def execIor (f : V3) (s : State) : Host.Outcome State Fault Refusal := intV3 0x03000000 f elOr s

/-- `ior`, VU form (R141, R139). -/
def execIorVu (f : VU) (s : State) : Host.Outcome State Fault Refusal := intVU 0x46000000 f elOr s

/-- `ixor`, V3 form (R141). -/
def execIxor (f : V3) (s : State) : Host.Outcome State Fault Refusal := intV3 0x03800000 f elXor s

/-- `ixor`, VU form (R141, R139). -/
def execIxorVu (f : VU) (s : State) : Host.Outcome State Fault Refusal := intVU 0x47000000 f elXor s

/-- `ishl`, V3 form (R142). -/
def execIshl (f : V3) (s : State) : Host.Outcome State Fault Refusal := intV3 0x04000000 f elShl s

/-- `ishl`, VU form (R142, R139). -/
def execIshlVu (f : VU) (s : State) : Host.Outcome State Fault Refusal := intVU 0x48000000 f elShl s

/-- `ishr`, V3 form (R142). -/
def execIshr (f : V3) (s : State) : Host.Outcome State Fault Refusal := intV3 0x04800000 f elShr s

/-- `ishr`, VU form (R142, R139). -/
def execIshrVu (f : VU) (s : State) : Host.Outcome State Fault Refusal := intVU 0x49000000 f elShr s

/-- `isra`, V3 form (R142). -/
def execIsra (f : V3) (s : State) : Host.Outcome State Fault Refusal := intV3 0x05000000 f elSra s

/-- `isra`, VU form (R142, R139). -/
def execIsraVu (f : VU) (s : State) : Host.Outcome State Fault Refusal := intVU 0x4A000000 f elSra s

/-- `imin`, V3 form (R141). -/
def execImin (f : V3) (s : State) : Host.Outcome State Fault Refusal := intV3 0x05800000 f elMin s

/-- `imin`, VU form (R141, R139). -/
def execIminVu (f : VU) (s : State) : Host.Outcome State Fault Refusal := intVU 0x4B000000 f elMin s

/-- `imax`, V3 form (R141). -/
def execImax (f : V3) (s : State) : Host.Outcome State Fault Refusal := intV3 0x06000000 f elMax s

/-- `imax`, VU form (R141, R139). -/
def execImaxVu (f : VU) (s : State) : Host.Outcome State Fault Refusal := intVU 0x4C000000 f elMax s

/-- `iminu`, V3 form (R141). -/
def execIminu (f : V3) (s : State) : Host.Outcome State Fault Refusal := intV3 0x06800000 f elMinu s

/-- `iminu`, VU form (R141, R139). -/
def execIminuVu (f : VU) (s : State) : Host.Outcome State Fault Refusal := intVU 0x4D000000 f elMinu s

/-- `imaxu`, V3 form (R141). -/
def execImaxu (f : V3) (s : State) : Host.Outcome State Fault Refusal := intV3 0x07000000 f elMaxu s

/-- `imaxu`, VU form (R141, R139). -/
def execImaxuVu (f : VU) (s : State) : Host.Outcome State Fault Refusal := intVU 0x4E000000 f elMaxu s

/-- `iaddsat`, V3 form (R143). -/
def execIaddsat (f : V3) (s : State) : Host.Outcome State Fault Refusal := intV3 0x07800000 f elAddSat s

/-- `iaddsat`, VU form (R143, R139). -/
def execIaddsatVu (f : VU) (s : State) : Host.Outcome State Fault Refusal := intVU 0x4F000000 f elAddSat s

/-- `isubsat`, V3 form (R143). -/
def execIsubsat (f : V3) (s : State) : Host.Outcome State Fault Refusal := intV3 0x08000000 f elSubSat s

/-- `isubsat`, VU form (R143, R139). -/
def execIsubsatVu (f : VU) (s : State) : Host.Outcome State Fault Refusal := intVU 0x50000000 f elSubSat s

/-- `iabsdiff`, V3 form (R143). -/
def execIabsdiff (f : V3) (s : State) : Host.Outcome State Fault Refusal := intV3 0x0C800000 f elAbsDiff s

/-- `iabsdiff`, VU form (R143, R139). -/
def execIabsdiffVu (f : VU) (s : State) : Host.Outcome State Fault Refusal := intVU 0x59000000 f elAbsDiff s

/-- `ipopc` (R141). -/
def execIpopc (f : V3Un) (s : State) : Host.Outcome State Fault Refusal := intUn 0x0A800000 f elPopc s

/-- `iclz` (R141). -/
def execIclz (f : V3Un) (s : State) : Host.Outcome State Fault Refusal := intUn 0x0B000000 f elClz s

/-- `ibrev` (R141). -/
def execIbrev (f : V3Un) (s : State) : Host.Outcome State Fault Refusal := intUn 0x0B800000 f elBrev s

/-- `icmp`, V3 form (R145). -/
def execIcmp (f : V3Cmp) (s : State) : Host.Outcome State Fault Refusal := icmpV3 0x08800000 f false s

/-- `icmp`, VU form (R145). -/
def execIcmpVu (f : VUCmp) (s : State) : Host.Outcome State Fault Refusal := icmpVU 0x51000000 f false s

/-- `icmpu`, V3 form (R145). -/
def execIcmpu (f : V3Cmp) (s : State) : Host.Outcome State Fault Refusal := icmpV3 0x09000000 f true s

/-- `icmpu`, VU form (R145). -/
def execIcmpuVu (f : VUCmp) (s : State) : Host.Outcome State Fault Refusal := icmpVU 0x52000000 f true s

/-- `idot4`, V3 form (R144). -/
def execIdot4 (f : V3) (s : State) : Host.Outcome State Fault Refusal :=
  issue (fun g _ => dotSpec g (aluWords f.px (packV3 0x0C000000 f)) f.st f.px f.vd.toNat [f.va.toNat, f.vb.toNat] [])
    (fun e => e.upd (e.g.writeV f.vd.toNat (aluZero f.px) e.active fun i =>
      dot4 (unsignedType (e.v.effType f.px)) (e.v.vreg f.va.toNat i) (e.v.vreg f.vb.toNat i)
        (e.v.fourth f.px (e.v.vreg f.vd.toNat) i))) s

/-- `idot4`, VU form (R144). -/
def execIdot4Vu (f : VU) (s : State) : Host.Outcome State Fault Refusal :=
  issue (fun g _ => dotSpec g (aluWords f.px (packVU 0x58000000 f)) f.st f.px f.vd.toNat [f.va.toNat] (vsrcNamed f.src))
    (fun e => e.upd (e.g.writeV f.vd.toNat (aluZero f.px) e.active fun i =>
      dot4 (unsignedType (e.v.effType f.px)) (e.v.vreg f.va.toNat i) (e.v.vsrc 8 f.src)
        (e.v.fourth f.px (e.v.vreg f.vd.toNat) i))) s

/-- `vsel`, V3 form (R146): the mask field selects. -/
def execVsel (f : V3) (s : State) : Host.Outcome State Fault Refusal :=
  issue (fun g _ => vselSpec g (aluWords f.px (packV3 0x09800000 f)) f.st f.px f.vd.toNat [f.va.toNat, f.vb.toNat] [])
    (fun e => e.upd (e.g.writeV f.vd.toNat false e.selLanes fun i =>
      if inMask (e.selector f.px) i then e.v.vreg f.va.toNat i else e.v.vreg f.vb.toNat i)) s

/-- `vsel`, VU form (R139, R146). -/
def execVselVu (f : VU) (s : State) : Host.Outcome State Fault Refusal :=
  issue (fun g _ => vselSpec g (aluWords f.px (packVU 0x53000000 f)) f.st f.px f.vd.toNat [f.va.toNat] (vsrcNamed f.src))
    (fun e => e.upd (e.g.writeV f.vd.toNat false e.selLanes fun i =>
      if inMask (e.selector f.px) i then e.v.vreg f.va.toNat i else e.v.vsrc (elemWidth (e.v.effType f.px)) f.src)) s

/-- `vmov`, V3 form (R146). -/
def execVmov (f : V3Mov) (s : State) : Host.Outcome State Fault Refusal :=
  issue (fun g _ => intSpec g (aluWords f.px (packV3Mov 0x0A000000 f)) f.st f.px f.vd.toNat [f.vb.toNat] [])
    (fun e => e.upd (e.g.writeV f.vd.toNat (aluZero f.px) e.active fun i => e.v.vreg f.vb.toNat i)) s

/-- `vmov`, VU form (R139, R146). -/
def execVmovVu (f : VUMov) (s : State) : Host.Outcome State Fault Refusal :=
  issue (fun g _ => intSpec g (aluWords f.px (packVUMov 0x54000000 f)) f.st f.px f.vd.toNat [] (vsrcNamed f.src))
    (fun e => e.upd (e.g.writeV f.vd.toNat (aluZero f.px) e.active fun _ =>
      e.v.vsrc (elemWidth (e.v.effType f.px)) f.src)) s

/-- `movi` (R147): a vector destination in the lanes that the guard makes Active, a uniform one once. -/
def execMovi (f : Movi) (s : State) : Host.Outcome State Fault Refusal :=
  match f.dst with
  | .v r =>
    issue (fun g _ => { words := [limmWord f, f.lit.toNat], stall := f.st, mask := .guard, vNamed := [r.toNat],
                        reads := g.maskReads .guard, writes := [(vName r.toNat, 4)] })
      (fun e => e.upd (e.g.writeV r.toNat false e.active fun _ => f.lit)) s
  | .u r =>
    issue (fun _ _ => { words := [limmWord f, f.lit.toNat], stall := f.st, sNamed := [r.toNat],
                        writes := [(sName r.toNat, 2)] })
      (fun e => e.upd (e.g.setSreg r.toNat f.lit)) s

end Sys2Proof.Machine
end

