-- ==== Sys2Proof/Machine/Convert.lean ====
section
/-! DEFINITION. The conversions, `setmode` and `ovtld` (R172 to R174, R187 to R193). -/
namespace Sys2Proof.Machine

/-- Elements per word of a type (R138). -/
def perWord (t : Nat) : Nat := 32 / elemWidth t

/-- The registers of the source group of a conversion (R187). -/
def srcCount (ts td : Nat) : Nat := max 1 (perWord td / perWord ts)

/-- The registers of the destination group of a conversion (R187). -/
def dstCount (ts td : Nat) : Nat := max 1 (perWord ts / perWord td)

/-- What the issue logic knows of a conversion (R58, R187, R188): the effective type sizes the groups and is read
at step 3. `plain` says that only a random word may be the fourth operand. -/
def cvtSpec (g : Group) (words : List Nat) (st : BitVec 2) (px : Option AluPx) (vd va td : Nat) (ok : Nat → Bool)
    (plain : Bool) : Spec :=
  let ts := g.effType px
  let good := ok ts
  let na := if good then srcCount ts td else 1
  let nd := if good then dstCount ts td else 1
  { words := words, stall := st, mask := aluMask px, role := some .vector,
    ill := (pxType px = 0 && !good) || va % na != 0 || vd % nd != 0,
    misuse := pxXw px != 0 || !good || (if plain then fpMisuse px true false else pxRnd px = 6),
    vNamed := upFrom vd nd ++ upFrom va na ++ fourthV px 1, sNamed := fourthS px, modeIll := g.rndBad px,
    reads := g.maskReads (aluMask px) ++ vNames va na ++ fourthReads px 1,
    writes := (vNames vd nd).map fun r => (r, 4), zero := aluZero px }

/-- Several destination registers written lane by lane (R5, R187). -/
def Group.writeVs (g : Group) (vd : Nat) (zero : Bool) (act : DWord) (f : Nat → Nat → Word) : Nat → Group
  | 0 => g
  | n + 1 => (g.writeVs vd zero act f n).writeV (vd + n) zero act (f n)

/-- A conversion: element `j` of the source group, with the rounding mode of its place, to element `j` of the
destination group (R187). `op` answers the destination code and flags. -/
def Env.convert (e : Env) (px : Option AluPx) (vd va td : Nat) (op : Rnd → Nat → Nat → Nat × FFlags) : Res :=
  let ts := e.g.effType px
  let ns := perWord ts
  let nd := perWord td
  let rs := (lanesOf e.active).map fun i =>
    (i, (List.range (max ns nd)).map fun j =>
      op (e.rndAt px i (j % nd) nd) i (bits (e.v.vreg (va + j / ns) i).toNat (elemWidth ts * (j % ns)) (elemWidth ts)))
  e.flagged (rs.map fun r => (r.1, r.2.foldl (fun (a : FFlags) x => a ||| x.2) 0))
    (e.g.writeVs vd (aluZero px) e.active
      (fun q i => BitVec.ofNat 32 ((List.range nd).foldl (fun a k =>
        a + (((tabGet rs i).getD []).getD (q * nd + k) (0, 0)).1 % 2 ^ elemWidth td * 2 ^ (elemWidth td * k)) 0))
      (dstCount ts td))

/-- A result as a code and flags. -/
def FRes.pair (r : FRes) : Nat × FFlags := (r.code, r.flags)

/-- A source element widened to FP32 under DAZ (R166, R169). -/
def Env.widened (e : Env) (px : Option AluPx) (c : Nat) : Nat :=
  let fm := fmtOf (e.g.effType px)
  fm.widen (fm.daz e.g.mDaz c)

/-- `fcvt` (R188). -/
def execFcvt (f : Cvt) (s : State) : Host.Outcome State Fault Refusal :=
  issue (fun g _ => cvtSpec g (aluWords f.px (packCvt 0xEC000000 f)) f.st f.px f.vd.toNat f.va.toNat f.dty.toNat
      isFloatCode true)
    (fun e =>
      let d := fmtOf f.dty.toNat
      e.convert f.px f.vd.toNat f.va.toNat f.dty.toNat fun r _ c =>
        (d.narrow r e.g.mFtz (ovEntry e.g.ovtab d) 0 (e.widened f.px c)).pair) s

/-- `fcvti` (R188). -/
def execFcvti (f : Cvt) (s : State) : Host.Outcome State Fault Refusal :=
  issue (fun g _ => cvtSpec g (aluWords f.px (packCvt 0xEC400000 f)) f.st f.px f.vd.toNat f.va.toNat f.dty.toNat
      isFloatCode true)
    (fun e => e.convert f.px f.vd.toNat f.va.toNat f.dty.toNat fun r _ c =>
      match toIntSat (elemWidth f.dty.toNat) (unsignedType f.dty.toNat) r (e.widened f.px c) with
      | (b, fl) => (b.toNat, fl)) s

/-- `icvtf` (R188). -/
def execIcvtf (f : Cvt) (s : State) : Host.Outcome State Fault Refusal :=
  issue (fun g _ => cvtSpec g (aluWords f.px (packCvt 0xEC800000 f)) f.st f.px f.vd.toNat f.va.toNat f.dty.toNat
      isIntCode true)
    (fun e =>
      let d := fmtOf f.dty.toNat
      let ts := e.g.effType f.px
      e.convert f.px f.vd.toNat f.va.toNat f.dty.toNat fun r _ c =>
        let x := intDy (elVal (elemWidth ts) (unsignedType ts) (BitVec.ofNat (elemWidth ts) c))
        (d.deliver r e.g.mFtz (if d.w = 32 then d.overflowMag r x.neg else d.tableMag (ovEntry e.g.ovtab d)) x).pair) s

/-- `sclx` (R189). -/
def execSclx (f : Sclx) (s : State) : Host.Outcome State Fault Refusal :=
  issue (fun g _ => cvtSpec g (aluWords f.px (packSclx 0xED800000 f)) f.st f.px f.vd.toNat f.va.toNat f.dty.toNat
      isFloatCode false)
    (fun e =>
      let d := fmtOf f.dty.toNat
      e.convert f.px f.vd.toNat f.va.toNat f.dty.toNat fun r i c =>
        let sc := bits (e.v.fourth f.px (fun _ => 0) i).toNat 0 8
        let x := e.widened f.px c
        if sc = 0xFF then (d.code (fp32.neg x) d.nan, flagIV)
        else (d.narrow r e.g.mFtz (ovEntry e.g.ovtab d) (if f.dir then 127 - (sc : Int) else (sc : Int) - 127) x).pair) s

/-- Whether a value is infinite, or beyond FP32's range. -/
def FVal.tooBig : FVal → Bool
  | .inf _ => true
  | .fin d => d.m != 0 && 127 < d.lead
  | .nan _ => false

/-- A value that is infinite, or beyond FP32's range, as ±largest finite FP32. -/
def FVal.capped (v : FVal) : Dy :=
  match v with
  | .inf n => { fp32.dy fp32.maxMag with neg := n }
  | .fin d => if v.tooBig then { fp32.dy fp32.maxMag with neg := d.neg } else d
  | .nan _ => { neg := false, m := 0, e := 0 }

/-- One block of `bfpk` from sixteen values (R190): the block's exponent, its mantissas and each element's
flags. -/
def bfpPack (k ov : Nat) (mode : Nat → Rnd) (xs : List FVal) : Nat × List (Int × FFlags) :=
  let infFlag := fun (x : FVal) => if x.tooBig then flagOF ||| flagNX else (0 : FFlags)
  if xs.any (fun x => match x with
      | .nan _ => true
      | _ => false) || (xs.any (·.tooBig) && ov != 0) then (0xFF, xs.map fun x => (0, infFlag x))
  else
    let ys := xs.map (·.capped)
    let e := ys.foldl (fun a y => if y.m = 0 then a else max a (y.lead + 127).toNat) 0
    (e, (List.range xs.length).map fun j =>
      let d := ys.getD j { neg := false, m := 0, e := 0 }
      let r := { d with e := d.e + (127 - (e : Int)) + ((k : Int) - 2) : Dy }.toInteger (mode j)
      let lim : Int := 2 ^ (k - 1)
      let m := max (-lim) (min (lim - 1) r.1)
      (m, infFlag (xs.getD j (.nan false)) ||| if r.2 || m != r.1 then flagNX else 0))

/-- One block of `bfpk` from sixteen FP32 codes, already under DAZ. -/
def bfpBlock (k ov : Nat) (mode : Nat → Rnd) (xs : List Nat) : Nat × List (Int × FFlags) :=
  bfpPack k ov mode (xs.map fp32.val)

/-- `bfpk` (R190): a group of 8 lanes takes trap 0x01 after the safe-point check. -/
def execBfpk (f : Bfp) (s : State) : Host.Outcome State Fault Refusal :=
  issue (fun g _ =>
      let sp := fpSpec g (aluWords f.px (packBfp 0xECC00000 f)) f.st f.px (fun t => t = 7) true false [f.vd.toNat]
        [f.va.toNat] [] [(vName f.vd.toNat, 4)]
      { sp with widthIll := g.width = 8 })
    (fun e =>
      let act := e.active
      let blocks := (List.range (e.g.width / 16)).map fun b =>
        (b, bfpBlock f.k.toNat (bits e.g.ovtab.toNat 8 2) (fun j => e.rndAt f.px (16 * b + j) 0 1)
          ((List.range 16).map fun j =>
            if inMask act (16 * b + j) then fp32.daz e.g.mDaz (e.v.vreg f.va.toNat (16 * b + j)).toNat else 0))
      let at_ := fun i => match tabGet blocks (i / 16) with
        | some (ex, ms) => (ex, ms.getD (i % 16) (0, 0))
        | none => (0, (0, 0))
      e.flagged ((lanesOf act).map fun i => (i, (at_ i).2.2))
        (e.g.writeV f.vd.toNat (aluZero f.px) act fun i =>
          BitVec.ofNat 32 ((at_ i).1 * 2 ^ 24) + (BitVec.ofInt 24 (at_ i).2.1).setWidth 32)) s

/-- `bfpu` in one lane (R191). -/
def bfpElem (k : Nat) (ftz : Bool) (x : Word) : FRes :=
  let ex := bits x.toNat 24 8
  if ex = 0xFF then { code := 0x7FC00000, flags := 0 }
  else
    let d := intDy (BitVec.ofNat k x.toNat).toInt
    fp32.arith .rne ftz { d with e := (ex : Int) - 127 - ((k : Int) - 2) }

/-- `bfpu` (R191): no type and no rounding. -/
def execBfpu (f : Bfp) (s : State) : Host.Outcome State Fault Refusal :=
  issue (fun g _ =>
      { words := aluWords f.px (packBfp 0xED000000 f), stall := f.st, mask := aluMask f.px, role := some .vector,
        misuse := fpMisuse f.px false false || pxType f.px != 0,
        vNamed := [f.vd.toNat, f.va.toNat] ++ fourthV f.px 1, sNamed := fourthS f.px,
        reads := g.maskReads (aluMask f.px) ++ [vName f.va.toNat], writes := [(vName f.vd.toNat, 4)], zero := aluZero f.px })
    (fun e => e.fpWrite f.px f.vd.toNat fun i =>
      let r := bfpElem f.k.toNat e.g.mFtz (e.v.vreg f.va.toNat i)
      (BitVec.ofNat 32 r.code, r.flags)) s

/-- Register `q` of `unpk` in one lane (R192). -/
def unpackWord (w : Nat) (sx : Bool) (x : Word) (q : Nat) : Word :=
  packElems 8 ((List.range 4).map fun b =>
    let fld := BitVec.ofNat w (bits x.toNat (w * (4 * q + b)) w)
    if sx then fld.signExtend 8 else fld.setWidth 8)

/-- `unpk` (R192): no type and no rounding. -/
def execUnpk (f : Unpk) (s : State) : Host.Outcome State Fault Refusal :=
  issue (fun g _ =>
      let n := 8 / f.w.toNat
      { words := aluWords f.px (packUnpk 0xED400000 f), stall := f.st, mask := aluMask f.px, role := some .vector,
        misuse := fpMisuse f.px false false || pxType f.px != 0,
        vNamed := upFrom f.vd.toNat n ++ [f.va.toNat],
        reads := g.maskReads (aluMask f.px) ++ [vName f.va.toNat],
        writes := (vNames f.vd.toNat n).map fun r => (r, 4), zero := aluZero f.px })
    (fun e => e.upd (e.g.writeVs f.vd.toNat (aluZero f.px) e.active
      (fun q i => unpackWord f.w.toNat f.sx (e.v.vreg f.va.toNat i) q) (8 / f.w.toNat))) s

/-- The place of a MODE field by its `setmode` selector (R41, R46). -/
def modeFieldAt (sel : Nat) : Nat :=
  match sel with
  | 0 => 0 | 1 => 4 | 2 => 7 | 3 => 8 | 4 => 9 | 5 => 11 | 6 => 15 | 7 => 16 | 8 => 19 | _ => 20

/-- MODE with one field replaced (R46, R193). -/
def modeWith (m : BitVec 25) (sel : BitVec 4) (v : Nat) : BitVec 25 :=
  let w := (setmodeWidth sel).getD 0
  let at_ := modeFieldAt sel.toNat
  (m &&& ~~~(BitVec.ofNat 25 ((2 ^ w - 1) * 2 ^ at_))) ||| BitVec.ofNat 25 (v % 2 ^ w * 2 ^ at_)

/-- `setmode` (R193): interlocked. -/
def execSetmode (f : SetM) (s : State) : Host.Outcome State Fault Refusal :=
  issue (fun _ _ => { words := [packSetM 0xB2000000 f], stall := f.st })
    (fun e => e.upd { e.g with mode := modeWith e.g.mode f.sel f.val.toNat }) s

/-- Whether a word is a table for OVTAB (R174). -/
def ovtabOk (v : Word) : Bool :=
  v.toNat < 2 ^ 10 && [0, 2, 4, 6, 8].all fun k => bits v.toNat k 2 != 3

/-- `ovtld` (R174). -/
def execOvtld (f : SysA) (s : State) : Host.Outcome State Fault Refusal :=
  issue (fun _ _ => { words := [packSysA 0xF0400000 f], stall := f.st, privileged := true, sNamed := [f.sa.toNat],
                      reads := [sName f.sa.toNat] })
    (fun e =>
      let v := e.v.sreg f.sa.toNat
      if ovtabOk v then e.upd { e.g with ovtab := v.setWidth 10 } else .trap 0x01 (v.setWidth 64) none) s

end Sys2Proof.Machine
end

