-- ==== Sys2Proof/Machine/Expand.lean ====
section
/-! DEFINITION. Error-free transforms and expansions: the arithmetic of R200 to R211 on codes, and the instructions
of R194. -/
namespace Sys2Proof.Machine

/-- Whether a code is a NaN or an infinity. -/
def Fmt.notFinite (fm : Fmt) (c : Nat) : Bool := fm.isNan c || fm.isInf c

/-- Whether FTZ flushes a value in a format (R166). -/
def Fmt.flushes (fm : Fmt) (ftz : Bool) (d : Dy) : Bool :=
  let r := fm.round .rne d
  ftz && r.1 != 0 && r.1 < 2 ^ fm.f

/-- An error word (R200, R208): rounded to nearest-even under FTZ, a zero one +0. -/
def Fmt.errWord (fm : Fmt) (ftz : Bool) (d : Dy) : Nat :=
  let c := (fm.arith .rne ftz d).code
  if fm.mag c = 0 then 0 else c

/-- The flag EI when an error word differs from what it stands for (R198). -/
def eiFlag (differs : Bool) : FFlags := if differs then flagEI else 0

/-- The rounded sum of products of `srcs`, its error word, and the flags (R200). -/
def twoWords (fm : Fmt) (ftz : Bool) (srcs : List Nat) (prods : List (FVal × FVal)) : Nat × Nat × FFlags :=
  let r := evalSum fm .rne ftz (srcs.map fun c => (fm, c)) prods 0
  if fm.isNan r.code then (r.code, r.code, r.flags)
  else if fm.isInf r.code then (r.code, 0, r.flags)
  else
    let x := sumDy false (finsOf (prods.filterMap fun p => p.1.mul p.2))
    let d := subDy x (fm.dy r.code)
    let e := fm.errWord ftz d
    (r.code, e, r.flags ||| eiFlag ((subDy d (fm.dy e)).m != 0))

/-- TS of R200. -/
def twoSum (fm : Fmt) (ftz : Bool) (a b : Nat) : Nat × Nat × FFlags :=
  twoWords fm ftz [a, b] [(fm.val a, oneVal), (fm.val b, oneVal)]

/-- TP of R200. -/
def twoProd (fm : Fmt) (ftz : Bool) (a b : Nat) : Nat × Nat × FFlags := twoWords fm ftz [a, b] [(fm.val a, fm.val b)]

/-- `fastsum` (R201): Dekker's three roundings; a z that overflows leaves the error word infinite. -/
def fastSum (fm : Fmt) (ftz : Bool) (a b : Nat) : Nat × Nat × FFlags :=
  match twoSum fm ftz a b with
  | (s, e, fl) =>
    if fm.notFinite s then (s, e, fl)
    else
      let z := (fm.arith .rne ftz (subDy (fm.dy s) (fm.dy a))).code
      let e1 := if fm.isInf z then fm.code (!fm.neg z) fm.infMag else fm.errWord ftz (subDy (fm.dy b) (fm.dy z))
      let exact := subDy (sumDy false [fm.dy a, fm.dy b]) (fm.dy s)
      (s, e1, (fl &&& ~~~flagEI) ||| eiFlag (fm.isInf e1 || (subDy exact (fm.dy e1)).m != 0))

/-- `errfma` (R202). -/
def errFma (fm : Fmt) (ftz : Bool) (a b c : Nat) : List Nat × FFlags :=
  let r := evalSum fm .rne ftz [(fm, a), (fm, b), (fm, c)] [(fm.val a, fm.val b), (fm.val c, oneVal)] 0
  if fm.isNan r.code then ([r.code, r.code, r.code], r.flags)
  else if fm.isInf r.code then ([r.code, 0, 0], r.flags)
  else
    let v := sumDy false (finsOf ([(fm.val a).mul (fm.val b), some (fm.val c)].filterMap id))
    let d := subDy v (fm.dy r.code)
    let e1 := fm.errWord ftz d
    let d2 := subDy d (fm.dy e1)
    let e2 := fm.errWord ftz d2
    ([r.code, e1, e2], r.flags ||| eiFlag ((subDy d2 (fm.dy e2)).m != 0))

/-- What a sequence of roundings has met (R205 rule 3): EI, and the sign of the first infinity that a finite value
rounded to. -/
structure XAcc where
  ei : Bool
  ovr : Option Bool
deriving DecidableEq, Repr

/-- A sequence's account after a step that gave `s` and flags. Where a step overflows (R205 rule 3), the spec states neither
whether EI of the other steps is set nor which infinity counts when two steps overflow: the model keeps EI of the steps before
the first infinity, and takes that infinity (the model's choice, log entry 106). -/
def XAcc.after (x : XAcc) (fm : Fmt) (s : Nat) (fl : FFlags) : XAcc :=
  if x.ovr.isSome then x
  else if fm.isInf s then { x with ovr := some (fm.neg s) }
  else { x with ei := x.ei || fl &&& flagEI != 0 }

/-- A TS step of a sequence. -/
def XAcc.ts (x : XAcc) (fm : Fmt) (ftz : Bool) (a b : Nat) : (Nat × Nat) × XAcc :=
  match twoSum fm ftz a b with
  | (s, e, fl) => ((s, e), x.after fm s fl)

/-- A TP step of a sequence. -/
def XAcc.tp (x : XAcc) (fm : Fmt) (ftz : Bool) (a b : Nat) : (Nat × Nat) × XAcc :=
  match twoProd fm ftz a b with
  | (s, e, fl) => ((s, e), x.after fm s fl)

/-- Merge of R204 with enough fuel: by magnitude, the first list's word on ties. -/
def mergeWords (fm : Fmt) : Nat → List Nat → List Nat → List Nat
  | 0, _, _ => []
  | _, [], bs => bs
  | _, as, [] => as
  | n + 1, a :: as, b :: bs =>
    if fm.mag b ≤ fm.mag a then a :: mergeWords fm n as (b :: bs) else b :: mergeWords fm n (a :: as) bs

/-- Pass 1 of Renorm over the words before the last, taken from the end (R204): the sum and t[1..m-1]. -/
def renormPass1 (fm : Fmt) (ftz : Bool) : List Nat → Nat → XAcc → (Nat × List Nat) × XAcc
  | [], s, x => ((s, []), x)
  | w :: ws, s, x =>
    match renormPass1 fm ftz ws s x with
    | ((s1, ts), x1) =>
      match x1.ts fm ftz w s1 with
      | ((s2, t), x2) => ((s2, t :: ts), x2)

/-- Pass 2 of Renorm (R204): at most `n` words. -/
def renormPass2 (fm : Fmt) (ftz : Bool) : List Nat → Nat → Nat → XAcc → List Nat × XAcc
  | _, 0, _, x => ([], x)
  | [], _ + 1, s, x => ([s], x)
  | t :: ts, n + 1, s, x =>
    match x.ts fm ftz s t with
    | ((s1, e), x1) =>
      if fm.mag e = 0 then renormPass2 fm ftz ts (n + 1) s1 x1
      else
        match renormPass2 fm ftz ts n e x1 with
        | (ys, x2) => (s1 :: ys, x2)

/-- A list cut or filled with +0 to `n` words. -/
def padTo (n : Nat) (ys : List Nat) : List Nat := (List.range n).map fun j => ys.getD j 0

/-- Renorm of R204. -/
def renormWords (fm : Fmt) (ftz : Bool) (n : Nat) (ws : List Nat) (x : XAcc) : List Nat × XAcc :=
  match ws.getLast? with
  | none => (padTo n [], x)
  | some last =>
    match renormPass1 fm ftz ws.dropLast last x with
    | ((t0, ts), x1) =>
      match renormPass2 fm ftz ts n t0 x1 with
      | (ys, x2) => (padTo n ys, x2)

/-- A word appended to a diagonal list. -/
def diagAdd (ds : List (List Nat)) (k w : Nat) : List (List Nat) :=
  (List.range ds.length).map fun j => if j = k then ds.getD j [] ++ [w] else ds.getD j []

/-- One product of the diagonal lists: p to D[k], e to D[k+1] (R207). -/
def diagStep (fm : Fmt) (ftz : Bool) (acc : List (List Nat) × XAcc) (k a b : Nat) : List (List Nat) × XAcc :=
  match acc.2.tp fm ftz a b with
  | ((p, e), x) => (diagAdd (diagAdd acc.1 k p) (k + 1) e, x)

/-- The diagonals of `xmulw` (R207), joined. -/
def diagWord (fm : Fmt) (ftz : Bool) (n : Nat) (a : List Nat) (b : Nat) (x : XAcc) : List Nat × XAcc :=
  let r := (List.range n).foldl (fun acc i => diagStep fm ftz acc i (a.getD i 0) b) (copiesOf (n + 1) [], x)
  (r.1.flatten, r.2)

/-- A plain product of the last diagonal of `xmul` (R207): no error word and no EI. -/
def diagPlain (fm : Fmt) (ftz : Bool) (n : Nat) (acc : List (List Nat) × XAcc) (a b : Nat) : List (List Nat) × XAcc :=
  let r := evalSum fm .rne ftz [(fm, a), (fm, b)] [(fm.val a, fm.val b)] 0
  (diagAdd acc.1 n r.code, acc.2.after fm r.code 0)

/-- The diagonals of `xmul` (R207), joined. -/
def diagFull (fm : Fmt) (ftz : Bool) (n : Nat) (a b : List Nat) (x : XAcc) : List Nat × XAcc :=
  let r := (List.range n).foldl (fun acc d =>
    (List.range (d + 1)).foldl (fun acc2 i => diagStep fm ftz acc2 d (a.getD i 0) (b.getD (d - i) 0)) acc)
    (copiesOf (n + 1) [], x)
  let q := (upFrom 1 (n - 1)).foldl (fun acc i => diagPlain fm ftz n acc (a.getD i 0) (b.getD (n - i) 0)) r
  (q.1.flatten, q.2)

/-- `xcompress` (R208): the canonical expansion of a value, word by word. -/
def compressWords (fm : Fmt) (ftz : Bool) : Nat → Dy → XAcc → List Nat × XAcc
  | 0, _, x => ([], x)
  | n + 1, v, x =>
    let y := fm.errWord ftz v
    let x1 := x.after fm y (eiFlag (fm.flushes ftz v))
    match compressWords fm ftz n (subDy v (fm.dy y)) x1 with
    | (ys, x2) => (y :: ys, x2)

/-- The value of an expansion in the extended reals; a NaN when it has opposite infinities (R205 rule 2). -/
def expVal (fm : Fmt) (ws : List Nat) : FVal :=
  match infsOf (ws.map fm.val) with
  | (true, true) => .nan false
  | (true, false) => .inf false
  | (false, true) => .inf true
  | _ => .fin (sumDy false (finsOf (ws.map fm.val)))

/-- A sum in the extended reals; a NaN for ∞ − ∞. -/
def FVal.add : FVal → FVal → FVal
  | .nan s, _ => .nan s
  | _, .nan s => .nan s
  | .inf a, .inf b => if a = b then .inf a else .nan false
  | .inf a, _ => .inf a
  | _, .inf b => .inf b
  | .fin a, .fin b => .fin (sumDy false [a, b])

/-- A product in the extended reals; a NaN for 0 × ∞. -/
def FVal.mulX (a b : FVal) : FVal := (a.mul b).getD (.nan false)

/-- The expansion operations (R206 to R208). -/
inductive XOp where
  | add | sub | mul | mulw | fmaw | renorm | compress
deriving DecidableEq, Repr

/-- The words of `b` negated (R206): a NaN stays as it is, bit for bit. -/
def negWords (fm : Fmt) (ws : List Nat) : List Nat := ws.map fun w => if fm.isNan w then w else fm.negate w

/-- The exact result of an operation on the values of its sources (R205). -/
def XOp.exact (op : XOp) (a b c : FVal) : FVal :=
  match op with
  | .add | .sub => a.add b
  | .mul | .mulw => a.mulX b
  | .fmaw => (a.mulX b).add c
  | .renorm | .compress => a

/-- The sequence of an operation on finite words (R206 to R208); `b` is negated already for a difference. -/
def XOp.run (op : XOp) (fm : Fmt) (ftz : Bool) (n : Nat) (a b c : List Nat) : List Nat × XAcc :=
  let x0 : XAcc := { ei := false, ovr := none }
  match op with
  | .add | .sub => renormWords fm ftz n (mergeWords fm (a.length + b.length) a b) x0
  | .mul => match diagFull fm ftz n a b x0 with
    | (d, x) => renormWords fm ftz n d x
  | .mulw => match diagWord fm ftz n a (b.getD 0 0) x0 with
    | (d, x) => renormWords fm ftz n d x
  | .fmaw => match diagWord fm ftz n a (b.getD 0 0) x0 with
    | (d, x) => renormWords fm ftz n (mergeWords fm (d.length + c.length) d c) x
  | .renorm => renormWords fm ftz n a x0
  | .compress => compressWords fm ftz n (sumDy false (a.map fm.dy)) x0

/-- An expansion operation on one element (R205). -/
def XOp.apply (op : XOp) (fm : Fmt) (ftz : Bool) (n : Nat) (a b c : List Nat) : List Nat × FFlags :=
  let all := a ++ b ++ c
  let iv : FFlags := if all.any fm.isSnan then flagIV else 0
  match firstNan fm (all.map fun w => (fm, w)) with
  | some q => (copiesOf n q, iv)
  | none =>
    let b1 := if op = .sub then negWords fm b else b
    let exact := op.exact (expVal fm a) (expVal fm b1) (expVal fm c)
    if all.any fm.isInf then
      match exact with
      | .nan _ => (copiesOf n fm.nan, flagIV)
      | .inf neg => (padTo n [fm.code neg fm.infMag], 0)
      | .fin _ => (padTo n [], 0)
    else
      match op.run fm ftz n a b1 c with
      | (ys, x) =>
        match x.ovr with
        | some neg => (padTo n [fm.code neg fm.infMag], flagOF ||| flagNX ||| eiFlag x.ei)
        | none =>
          let nx := match exact with
            | .fin d => (subDy d (sumDy false (ys.map fm.dy))).m != 0
            | _ => false
          (ys, eiFlag x.ei ||| if nx then flagNX else 0)

/-- The later words of `xsplit` (R210) and whether FTZ flushed one, from the remainder. -/
def splitRest (fm : Fmt) (ftz : Bool) : Nat → Dy → List Nat × Bool × Dy
  | 0, d => ([], false, d)
  | n + 1, d =>
    let y := (fm.arith .rne ftz d).code
    match splitRest fm ftz n (subDy d (fm.dy y)) with
    | (ys, fl, r) => (y :: ys, fl || fm.flushes ftz d, r)

/-- `xsplit` of one FP32 code (R210). -/
def splitWords (fm : Fmt) (ftz : Bool) (n entry x : Nat) : List Nat × FFlags :=
  match fp32.val x with
  | .nan _ => (copiesOf n (fm.narrowNan x), 0)
  | .inf neg => (padTo n [fm.code neg fm.infMag], 0)
  | .fin d =>
    let r := fm.narrow .rne ftz entry 0 x
    if r.flags &&& flagOF != 0 then (padTo n [r.code], r.flags)
    else
      match splitRest fm ftz (n - 1) (subDy d (fm.dy r.code)) with
      | (ys, fl, rem) => (r.code :: ys, (r.flags &&& flagUF) ||| eiFlag fl ||| if rem.m != 0 then flagNX else 0)

/-- `xcmp` on one element (R209). -/
def cmpWords (fm : Fmt) (c : Cond) (a b : List Nat) : Bool × FFlags :=
  let nanIn := fun (ws : List Nat) => ws.any fm.isNan
  let va := expVal fm a
  let vb := expVal fm b
  let isN := fun (ws : List Nat) (v : FVal) => nanIn ws || v == .nan false
  let un := isN a va || isN b vb
  let both := fun (ws : List Nat) => ws.any (fun w => fm.isInf w && fm.neg w) && ws.any fun w => fm.isInf w && !fm.neg w
  let opp := both a || both b
  (condFloat c va vb un,
   if opp || (a ++ b).any fm.isSnan || (un && condOrders c) then flagIV else 0)

/-- The expansion width (R196). -/
def Group.effXw (g : Group) (px : Option AluPx) : Nat := if pxXw px = 0 then g.mXw + 2 else pxXw px

/-- Whether MODE supplies the illegal expansion width (R43, R196). -/
def Group.xwBad (g : Group) (px : Option AluPx) : Bool := pxXw px = 0 && g.mXw = 3

/-- Whether a base breaks the alignment of a group of `n` registers (R48, R194). -/
def groupBad (r n : Nat) : Bool := if n ≤ 1 then false else if n = 2 then r % 2 != 0 else r % 4 != 0

/-- How an instruction of R194 treats its prefix and operands: whether it has a width, which types it takes, whether
it rounds by a mode, and which kinds of fourth operand it may have (R195 to R197). Each register group has its base, its size,
and whether the type and the width give that size (R58). -/
structure XForm where
  wide : Bool
  ok : Nat → Bool
  rounds : Bool
  kinds : List Nat
  groups : List (Nat × Nat × Bool)
  fourth : Nat
  dst : List RegName
  dist : Nat

/-- What the issue logic knows of an instruction of R194 (R58, R194 to R199). MODE.TYPE and MODE.XW are read at step 3 where they
size a group, and at step 8 otherwise; a prefix type outside the set leaves the groups it would size unchecked. -/
def xSpec (g : Group) (words : List Nat) (st : BitVec 2) (px : Option AluPx) (x : XForm) (srcs : List RegName)
    (f32ill : Bool) : Spec :=
  let good := x.ok (g.effType px)
  let honoured := pxKind px = 1 && (x.rounds || x.kinds.contains 1)
  let bases := (x.groups ++ if honoured then [(pxOp4 px, x.fourth, x.wide && !x.rounds)] else []).filter fun b => good || !b.2.2
  { words := words, stall := st, mask := aluMask px, role := some .vector,
    ill := (x.wide && pxType px = 0 && !good) || (x.wide && g.xwBad px) || (good && f32ill)
      || bases.any fun b => groupBad b.1 b.2.1,
    misuse := (!x.wide && pxXw px != 0) || (pxType px != 0 && !good)
      || (if x.rounds then (pxRnd px = 6) != (pxKind px != 0) else 2 ≤ pxRnd px || !x.kinds.contains (pxKind px)),
    vNamed := bases.flatMap fun b => upFrom b.1 b.2.1, sNamed := fourthS px,
    modeIll := (!x.wide && pxType px = 0 && !good) || (x.rounds && g.rndBad px),
    reads := g.maskReads (aluMask px) ++ srcs ++ fourthReads px x.fourth,
    writes := x.dst.map fun r => (r, x.dist), zero := aluZero px }

/-- The element codes of consecutive registers in a lane (R195), under DAZ. -/
def Env.xElems (e : Env) (fm : Fmt) (base n i k : Nat) : List Nat :=
  (upFrom base n).map fun r => e.elemOf fm (e.v.vreg r i) k

/-- The result of an instruction of R194 over the Active lanes: `f` answers the codes of each destination register for
an element (R5, R175). -/
def Env.xWrite (e : Env) (px : Option AluPx) (vd nd : Nat) (f : Nat → Nat → List Nat × FFlags) : Res :=
  let fm := fmtOf (e.g.effType px)
  let ks := List.range (32 / fm.w)
  let rs := (lanesOf e.active).map fun i => (i, ks.map fun k => f i k)
  e.flagged (rs.map fun r => (r.1, r.2.foldl (fun (a : FFlags) x => a ||| x.2) 0))
    (e.g.writeVs vd (aluZero px) e.active
      (fun q i => packElems fm.w (ks.map fun k =>
        BitVec.ofNat fm.w (((((tabGet rs i).getD []).getD k ([], 0)).1).getD q 0))) nd)

/-- The format of an instruction of R194 (R195). -/
def Env.xFmt (e : Env) (px : Option AluPx) : Fmt := fmtOf (e.g.effType px)

/-- A pair transform (R200, R201). -/
def xPair (base : Nat) (f : V3) (op : Fmt → Bool → Nat → Nat → Nat × Nat × FFlags) (s : State) :
    Host.Outcome State Fault Refusal :=
  issue (fun g _ => xSpec g (aluWords f.px (packV3 base f)) f.st f.px
      { wide := false, ok := arithType, rounds := false, kinds := [0],
        groups := [(f.vd.toNat, 2, false), (f.va.toNat, 1, false), (f.vb.toNat, 1, false)], fourth := 1, dst := vNames f.vd.toNat 2, dist := 6 }
      [vName f.va.toNat, vName f.vb.toNat] false)
    (fun e => e.xWrite f.px f.vd.toNat 2 fun i k =>
      let fm := e.xFmt f.px
      match op fm e.g.mFtz (e.elemOf fm (e.v.vreg f.va.toNat i) k) (e.elemOf fm (e.v.vreg f.vb.toNat i) k) with
      | (a, b, fl) => ([a, b], fl)) s

/-- `twosum` (R200). -/
def execTwosum (f : V3) (s : State) : Host.Outcome State Fault Refusal := xPair 0x20000000 f twoSum s

/-- `fastsum` (R201). -/
def execFastsum (f : V3) (s : State) : Host.Outcome State Fault Refusal := xPair 0x20800000 f fastSum s

/-- `twodiff` (R200): a NaN b is not negated. -/
def execTwodiff (f : V3) (s : State) : Host.Outcome State Fault Refusal :=
  xPair 0x21000000 f (fun fm z a b => twoSum fm z a (if fm.isNan b then b else fm.negate b)) s

/-- `twoprod` (R200). -/
def execTwoprod (f : V3) (s : State) : Host.Outcome State Fault Refusal := xPair 0x21800000 f twoProd s

/-- `errfma` (R202): c is the old v(d) or the fourth operand. -/
def execErrfma (f : V3) (s : State) : Host.Outcome State Fault Refusal :=
  issue (fun g _ => xSpec g (aluWords f.px (packV3 0x22000000 f)) f.st f.px
      { wide := false, ok := arithType, rounds := false, kinds := [0, 1, 2, 3],
        groups := [(f.vd.toNat, 3, false), (f.va.toNat, 1, false), (f.vb.toNat, 1, false)], fourth := 1, dst := vNames f.vd.toNat 3, dist := 6 }
      ([vName f.va.toNat, vName f.vb.toNat] ++ if pxKind f.px = 0 then [vName f.vd.toNat] else []) false)
    (fun e => e.xWrite f.px f.vd.toNat 3 fun i k =>
      let fm := e.xFmt f.px
      errFma fm e.g.mFtz (e.elemOf fm (e.v.vreg f.va.toNat i) k) (e.elemOf fm (e.v.vreg f.vb.toNat i) k)
        (e.elemOf fm (e.addend fm f.px f.vd.toNat i) k)) s

/-- The required distance of an expansion instruction by its width (R199). -/
def xDist (n d2 d3 d4 : Nat) : Nat := if n = 2 then d2 else if n = 3 then d3 else d4

/-- An expansion instruction with two sources of `na` and `nb` registers, `nb` 0 for one source (R206 to R208). -/
def xBin (words : List Nat) (st : BitVec 2) (px : Option AluPx) (vd va vb : Nat) (one : Bool) (unary : Bool)
    (dist : Nat → Nat) (op : XOp) (s : State) : Host.Outcome State Fault Refusal :=
  issue (fun g _ =>
      let n := g.effXw px
      let nb := if unary then 0 else if one then 1 else n
      xSpec g words st px
        { wide := true, ok := arithType, rounds := false, kinds := [0], groups := [(vd, n, true), (va, n, true), (vb, nb, !one)],
          fourth := n, dst := vNames vd n, dist := dist n }
        (vNames va n ++ vNames vb nb) false)
    (fun e =>
      let n := e.g.effXw px
      let nb := if unary then 0 else if one then 1 else n
      let fm := e.xFmt px
      e.xWrite px vd n fun i k => op.apply fm e.g.mFtz n (e.xElems fm va n i k) (e.xElems fm vb nb i k) []) s

/-- `xadd` (R206). -/
def execXadd (f : V3) (s : State) : Host.Outcome State Fault Refusal :=
  xBin (aluWords f.px (packV3 0x22800000 f)) f.st f.px f.vd.toNat f.va.toNat f.vb.toNat false false
    (fun n => xDist n 12 18 24) .add s

/-- `xsub` (R206). -/
def execXsub (f : V3) (s : State) : Host.Outcome State Fault Refusal :=
  xBin (aluWords f.px (packV3 0x23000000 f)) f.st f.px f.vd.toNat f.va.toNat f.vb.toNat false false
    (fun n => xDist n 12 18 24) .sub s

/-- `xmul` (R207). -/
def execXmul (f : V3) (s : State) : Host.Outcome State Fault Refusal :=
  xBin (aluWords f.px (packV3 0x23800000 f)) f.st f.px f.vd.toNat f.va.toNat f.vb.toNat false false
    (fun n => xDist n 16 26 36) .mul s

/-- `xmulw` (R207). -/
def execXmulw (f : V3) (s : State) : Host.Outcome State Fault Refusal :=
  xBin (aluWords f.px (packV3 0x24000000 f)) f.st f.px f.vd.toNat f.va.toNat f.vb.toNat true false
    (fun n => xDist n 12 18 24) .mulw s

/-- `xfmaw` (R207): c is the old vd.xn or the group that the fourth operand names. -/
def execXfmaw (f : V3) (s : State) : Host.Outcome State Fault Refusal :=
  issue (fun g _ =>
      let n := g.effXw f.px
      xSpec g (aluWords f.px (packV3 0x24800000 f)) f.st f.px
        { wide := true, ok := arithType, rounds := false, kinds := [0, 1],
          groups := [(f.vd.toNat, n, true), (f.va.toNat, n, true), (f.vb.toNat, 1, false)], fourth := n, dst := vNames f.vd.toNat n,
          dist := xDist n 16 24 32 }
        (vNames f.va.toNat n ++ [vName f.vb.toNat] ++ if pxKind f.px = 0 then vNames f.vd.toNat n else []) false)
    (fun e =>
      let n := e.g.effXw f.px
      let fm := e.xFmt f.px
      let cb := if pxKind f.px = 0 then f.vd.toNat else pxOp4 f.px
      e.xWrite f.px f.vd.toNat n fun i k =>
        XOp.fmaw.apply fm e.g.mFtz n (e.xElems fm f.va.toNat n i k) (e.xElems fm f.vb.toNat 1 i k) (e.xElems fm cb n i k)) s

/-- `xrenorm` (R208). -/
def execXrenorm (f : V3Un) (s : State) : Host.Outcome State Fault Refusal :=
  xBin (aluWords f.px (packV3Un 0x25000000 f)) f.st f.px f.vd.toNat f.va.toNat 0 false true
    (fun n => xDist n 10 14 18) .renorm s

/-- `xcompress` (R208). -/
def execXcompress (f : V3Un) (s : State) : Host.Outcome State Fault Refusal :=
  xBin (aluWords f.px (packV3Un 0x25800000 f)) f.st f.px f.vd.toNat f.va.toNat 0 false true
    (fun n => xDist n 12 16 20) .compress s

/-- `xcmp` (R209). -/
def execXcmp (f : V3Cmp) (s : State) : Host.Outcome State Fault Refusal :=
  issue (fun g _ =>
      let n := g.effXw f.px
      xSpec g (aluWords f.px (packV3Cmp 0x26000000 f)) f.st f.px
        { wide := true, ok := arithType, rounds := false, kinds := [0], groups := [(f.va.toNat, n, true), (f.vb.toNat, n, true)],
          fourth := 1, dst := [pName f.pd.toNat], dist := 6 }
        (vNames f.va.toNat n ++ vNames f.vb.toNat n) false)
    (fun e =>
      let n := e.g.effXw f.px
      let fm := e.xFmt f.px
      e.fpPred f.px f.pd.toNat fun i =>
        (List.range (32 / fm.w)).foldl (fun (a : Bool × FFlags) k =>
          match cmpWords fm f.cond (e.xElems fm f.va.toNat n i k) (e.xElems fm f.vb.toNat n i k) with
          | (r, fl) => (a.1 && r, a.2 ||| fl)) (true, 0)) s

/-- `xneg` (R206): no DAZ reaches a sign inversion's flags, and no flag is raised. -/
def execXneg (f : V3Un) (s : State) : Host.Outcome State Fault Refusal :=
  issue (fun g _ =>
      let n := g.effXw f.px
      xSpec g (aluWords f.px (packV3Un 0x26800000 f)) f.st f.px
        { wide := true, ok := arithType, rounds := false, kinds := [0], groups := [(f.vd.toNat, n, true), (f.va.toNat, n, true)],
          fourth := 1, dst := vNames f.vd.toNat n, dist := 4 }
        (vNames f.va.toNat n) false)
    (fun e =>
      let fm := e.xFmt f.px
      e.xWrite f.px f.vd.toNat (e.g.effXw f.px) fun i k =>
        (negWords fm (e.xElems fm f.va.toNat (e.g.effXw f.px) i k), 0)) s

/-- `xsplit` (R210): element k of the source is the FP32 word v(a + k). -/
def execXsplit (f : V3Un) (s : State) : Host.Outcome State Fault Refusal :=
  issue (fun g _ =>
      let n := g.effXw f.px
      xSpec g (aluWords f.px (packV3Un 0x27000000 f)) f.st f.px
        { wide := true, ok := dotType, rounds := false, kinds := [0], groups := [(f.vd.toNat, n, true), (f.va.toNat, 2, false)],
          fourth := 1, dst := vNames f.vd.toNat n, dist := xDist n 6 8 10 }
        (vNames f.va.toNat 2) false)
    (fun e =>
      let fm := e.xFmt f.px
      e.xWrite f.px f.vd.toNat (e.g.effXw f.px) fun i k =>
        splitWords fm e.g.mFtz (e.g.effXw f.px) (ovEntry e.g.ovtab fm) (e.elemOf fp32 (e.v.vreg (f.va.toNat + k) i) 0)) s

/-- `xround` to `out`, one element (R211). -/
def roundWords (fm out : Fmt) (mode : Rnd) (ftz : Bool) (ws : List Nat) : FRes :=
  evalSum out mode ftz (ws.map fun w => (fm, w)) (ws.map fun w => (fm.val w, oneVal)) 0

/-- What the issue logic knows of `xround` (R194, R197, R211): `nd` destination registers. -/
def xroundSpec (g : Group) (words : List Nat) (st : BitVec 2) (px : Option AluPx) (vd va nd : Nat) (f32 : Bool) : Spec :=
  let n := g.effXw px
  xSpec g words st px
    { wide := true, ok := arithType, rounds := true, kinds := [], groups := [(vd, nd, false), (va, n, true)], fourth := 1,
      dst := vNames vd nd, dist := xDist n 8 10 12 }
    (vNames va n) (f32 && g.effType px = 7)

/-- `xround` (R211). -/
def execXround (f : V3Un) (s : State) : Host.Outcome State Fault Refusal :=
  issue (fun g _ => xroundSpec g (aluWords f.px (packV3Un 0x27800000 f)) f.st f.px f.vd.toNat f.va.toNat 1 false)
    (fun e =>
      let fm := e.xFmt f.px
      e.xWrite f.px f.vd.toNat 1 fun i k =>
        let r := roundWords fm fm (e.rndAt f.px i k (32 / fm.w)) e.g.mFtz (e.xElems fm f.va.toNat (e.g.effXw f.px) i k)
        ([r.code], r.flags)) s

/-- `xround.f32` (R211): element k to FP32 in v(d + k). -/
def execXroundF32 (f : V3Un) (s : State) : Host.Outcome State Fault Refusal :=
  issue (fun g _ => xroundSpec g (aluWords f.px (packV3Un 0x2780001C f)) f.st f.px f.vd.toNat f.va.toNat 2 true)
    (fun e =>
      let fm := e.xFmt f.px
      let rs := (lanesOf e.active).map fun i => (i, (List.range 2).map fun k =>
        roundWords fm fp32 (e.rndAt f.px i 0 1) e.g.mFtz (e.xElems fm f.va.toNat (e.g.effXw f.px) i k))
      e.flagged (rs.map fun r => (r.1, r.2.foldl (fun (a : FFlags) x => a ||| x.flags) 0))
        (e.g.writeVs f.vd.toNat (aluZero f.px) e.active
          (fun q i => BitVec.ofNat 32 (((tabGet rs i).getD []).getD q { code := 0, flags := 0 }).code) 2)) s

end Sys2Proof.Machine
end

