-- ==== Sys2Proof/Machine/Memory.lean ====
section
/-! DEFINITION. The memory instructions (R257 to R271), `ldx` and `stx` (R212, R213) and the atomics (R269, R309 to
R313). An access is performed at issue; its completion, with the write of a load's destination and the fall of the
counter, is a later step (log entries 6 and 7). -/
namespace Sys2Proof.Machine

/-- One access of an instruction: its lane, flat address, bytes and alignment. -/
structure LaneAcc where
  lane : Nat
  addr : Nat
  size : Nat
  align : Nat
deriving DecidableEq, Repr

/-- Whether a locked range meets an access (R301). -/
def RangeLock.blocks (l : RangeLock) (cluster : Nat) (sp : LockSpace) (lo n : Nat) (writes : Bool) : Bool :=
  l.cluster = cluster && l.space = sp && l.lo < lo + n && lo < l.hi && (writes || l.write)

/-- The space and the first byte of an access under R299; none for the physical window, which names no virtual
address. -/
def lockSpaceOf (ag : Agent) (addr : Nat) (p : Place) : Option (LockSpace × Nat) :=
  match p with
  | .spad k => some (.spad (k / 2 ^ 19), k % 2 ^ 19)
  | .phys _ _ _ _ _ => if ag.priv && bit addr 56 then none else some (.virt ag.part, addr)

/-- Whether an access conflicts with a locked range of the issuing cluster (R301). -/
def State.rangeConflict (s : State) (ag : Agent) (a : LaneAcc) (p : Place) (writes : Bool) : Bool :=
  match lockSpaceOf ag a.addr p with
  | none => false
  | some q => s.locks.any fun l => l.2.blocks (clusterOf ag.core) q.1 q.2 a.size writes

/-- An access with the outcome of its check. -/
def Env.checked (e : Env) (acc : Acc) (a : LaneAcc) : LaneAcc × Check :=
  (a, checkAddr e.s (e.g.agent e.gid) a.addr a.size a.align acc)

/-- The rank and cause of a refused access. -/
def Check.badness : Check → Option (Nat × Nat)
  | .bad r c => some (r, c)
  | _ => none

/-- The trap of the first cause in the order of R271 among refused accesses whose rank satisfies `ok` (R272). -/
def firstBad (ok : Nat → Bool) (cs : List (LaneAcc × Check)) (tmask : Option DWord) : Option Res :=
  let bad := cs.filterMap fun c => (c.2.badness.filter fun b => ok b.1).map fun b => (c.1, b)
  match bad with
  | [] => none
  | b :: _ =>
    let r := bad.foldl (fun m x => min m x.2.1) b.2.1
    match bad.find? fun x => x.2.1 = r with
    | none => none
    | some w => some (.trap w.2.2 (BitVec.ofNat 64 w.1.addr)
        (some (tmask.getD (maskWhere fun i => bad.any fun x => x.1.lane = i && x.2 = w.2))))

/-- The checks of R271 over every access of an instruction, with the wait of R354: the places, or how the
instruction ends instead. For SMEM `tmask` is the issuing split's mask (R272). -/
def Env.checkAll (e : Env) (acc : Acc) (tmask : Option DWord) (as : List LaneAcc) :
    Except Res (List (LaneAcc × Place)) :=
  let cs := as.map (e.checked acc)
  match firstBad (fun r => r < rankMalformed) cs tmask with
  | some t => .error t
  | none =>
    match cs.findSome? fun c => match c.2 with
        | .wait w => some w
        | _ => none with
    | some w => .error (.block e.s w e.marker)
    | none =>
      match firstBad (fun _ => true) cs tmask with
      | some t => .error t
      | none =>
        let ps := cs.filterMap fun c => match c.2 with
          | .ok p => some (c.1, p)
          | _ => none
        let hit := ps.filter fun x => e.s.rangeConflict (e.g.agent e.gid) x.1 x.2 acc.writes
        match hit with
        | [] => .ok ps
        | h :: _ => .error (.trap 0x07 (BitVec.ofNat 64 h.1.addr)
            (some (tmask.getD (maskWhere fun i => hit.any fun x => x.1.lane = i))))

/-- A number that names the first byte of a place among all bytes of the package. -/
def Place.key : Place → Nat
  | .phys pa _ _ _ _ => pa
  | .spad k => 2 ^ 52 + k

/-- The poisoned lines that a read of a place meets (R396); a scratchpad granule is named beyond every line. -/
def State.poisonAt (s : State) (p : Place) (n : Nat) : List Nat :=
  match p with
  | .phys pa _ _ _ _ => (linesOf pa n).filter fun l => s.poisonMask l ≠ 0
  | .spad k => ((upFrom k n).filter fun b => smapGet 0 s.spadPoison (b / 16) ≠ 0).map fun b => 2 ^ 52 + b / 16

/-- One access's translation installed, with the lane's last-page register (R353, R355), and its request counted when a home
receives it (R366). -/
def Env.touch (e : Env) (s : State) (a : LaneAcc) (p : Place) (home : Bool) : State :=
  let core := coreOf e.gid
  let s1 := (s.install e.g.part core p).lastPage e.gid a.lane p
  if home then s1.countPage e.g.part core p else s1

/-- A group notes that it read poisoned data at an address (R396). -/
def State.notePoison (s : State) (gid addr : Nat) (bad : List Nat) : State :=
  if bad = [] then s else s.modGroup gid fun g => { g with poisoned := (addr, g.lastIssue) :: g.poisoned }

/-- One read of an instruction performed: a strong one at the home, after what its cluster's L1 has for it (R360); a weak one from
the L1 or the home, the line then filled (R259), where each byte may be one that a racing store replaced (R283). -/
def Env.readOne (e : Env) (s : State) (strong noAlloc : Bool) (a : LaneAcc) (p : Place) : State × Nat :=
  let cl := clusterOf (coreOf e.gid)
  if strong then
    let s1 := s.l1FlushAll cl (p.lines a.size)
    (e.touch s1 a p true, ofBytes (s1.readAt p a.size))
  else
    let r := s.staleRead e.gid e.p.mask e.g.syncAt p.key (s.weakBytes cl p a.size)
    ((e.touch r.1 a p (!s.l1Hit cl p a.size false)).readFill cl p a.size noAlloc, ofBytes r.2)

/-- The reads of an instruction performed: the state, and the number each access reads, little-endian. Poisoned
lines are noted with the group (R396). -/
def Env.readAll (e : Env) (s : State) (strong noAlloc : Bool) : List (LaneAcc × Place) → State × List Nat
  | [] => (s, [])
  | (a, p) :: r =>
    let x := e.readOne s strong noAlloc a p
    let q := e.readAll (x.1.notePoison e.gid a.addr (s.poisonAt p a.size)) strong noAlloc r
    (q.1, x.2 :: q.2)

/-- The bytes that an access leaves when earlier accesses of the same instruction wrote `done` (R274): for each unit
of `u` bytes that one of them wrote, either value. -/
def mergeRace (s : State) (old : List Byte) (k u : Nat) (done : List (Nat × Nat)) : Nat → List Byte → State × List Byte
  | 0, _ => (s, [])
  | n + 1, bs =>
    let q := mergeRace s old k u done n (bs.drop u)
    let at_ := k + (old.length - bs.length)
    if done.any fun d => d.1 < at_ + u && at_ < d.1 + d.2 then
      (q.1.fresh, (if Config.pick q.1.serial then bs.take u else (old.drop (old.length - bs.length)).take u) ++ q.2)
    else (q.1, bs.take u ++ q.2)

/-- What a core finds at a place before it stores there. -/
def Env.present (e : Env) (s : State) (strong : Bool) (p : Place) (n : Nat) : List Byte :=
  if strong then s.readAt p n else s.weakBytes (clusterOf (coreOf e.gid)) p n

/-- The stores of an instruction performed in lane order, in units of `u` bytes; lanes that write one unit leave either value
(R213, R262, R274). What each replaces is noted for the loads that race with it (R283). -/
def Env.writeAll (e : Env) (s : State) (strong : Bool) (u : Nat) : List (Nat × Nat) → List ((LaneAcc × Place) × Nat) → State
  | _, [] => s
  | done, ((a, p), x) :: r =>
    let cl := clusterOf (coreOf e.gid)
    let bs := toBytes a.size x
    let s0 := e.touch (if strong then s.l1FlushAll cl (p.lines a.size) else s) a p (strong || !s.l1Hit cl p a.size true)
    let old := e.present s0 strong p a.size
    let m := if done.any fun d => d.1 < p.key + a.size && p.key < d.1 + d.2 then
        mergeRace s0 old p.key (min a.size u) done (a.size / min a.size u) bs
      else (s0, bs)
    let s1 := m.1.noteOld e.gid e.p.mask p.key old m.2
    let s2 := if strong then s1.coreStrongPut cl p m.2 else s1.weakPut cl p m.2
    e.writeAll s2 strong u ((p.key, a.size) :: done) r

/-- The lines that a list of accesses touches. -/
def linesTouched (ps : List (LaneAcc × Place)) : List Nat := (ps.flatMap fun x => x.2.lines x.1.size).eraseDups

/-- The page-table lines that the translations of a list of accesses came from (R356). -/
def linesWalked (ps : List (LaneAcc × Place)) : List Nat := (ps.flatMap fun x => x.2.walked).eraseDups

/-- An outstanding operation of an instruction with accesses `ps`. -/
def Env.opFor (e : Env) (kind : PendKind) (counter : Nat) (dests : List DestWord) (ps : List (LaneAcc × Place)) : PendOp :=
  { kind := kind, counter := counter, mask := e.p.mask, dests := dests, clobbered := [],
    lines := if kind = .load then [] else linesTouched ps, walked := linesWalked ps, flags := 0, trap := none }

/-- The scope field of an optional memory prefix. -/
def pxScope (px : Option MemPx) : Nat := (px.map fun p => p.scope.toNat).getD 0

/-- The immediate of an optional memory prefix, as a 64-bit value (R37). -/
def pxOff (px : Option MemPx) : DWord := (px.map fun p => p.imm.signExtend 64).getD 0

/-- A flat address of the form base pair, offset register, immediate (R260, R309). -/
def Env.flat (e : Env) (k : Nat) (off : Option Nat) (px : Option MemPx) (i : Nat) : Nat :=
  (e.v.spair k + (match off with
    | some r => (e.v.vreg r i).setWidth 64
    | none => 0) + pxOff px).toNat

/-- What the issue logic knows of a vector memory access: base registers `sk` to `sk + sn` − 1, an offset register,
`n` data registers, read or not; `hasScope` for an access that has a scope (R261). -/
def vmemSpec (g : Group) (words : List Nat) (st : BitVec 2) (px : Option MemPx) (sk sn : Nat) (off : Option Nat)
    (vd n : Nat) (readsData hasScope : Bool) : Spec :=
  { words := words, stall := st, mask := memMask px,
    misuse := pxScope px ≠ 0 && !hasScope,
    vNamed := upFrom vd n ++ off.toList, sNamed := upFrom sk sn,
    modeIll := hasScope && pxScope px = 0 && g.mScope = 0, access := true,
    reads := (if readsData then vNames vd n else []) ++ (off.map vName).toList ++ sNames sk sn ++ g.maskReads (memMask px) }

/-- The offset register of a VMEM word, when it is enabled. -/
def vmemOff (f : Vmem) : Option Nat := if f.en then some f.off.toNat else none

/-- Whether an attribute is strong (R62). -/
def strongAtt (att : BitVec 2) : Bool := 2 ≤ att.toNat

/-- The words of a loaded value: word `j` of `z` bytes, extended from its size (R261). -/
def loadWord (z : Nat) (sx : Bool) (x j : Nat) : Word :=
  if z = 1 then (if sx then (BitVec.ofNat 8 x).signExtend 32 else BitVec.ofNat 32 x)
  else if z = 2 then (if sx then (BitVec.ofNat 16 x).signExtend 32 else BitVec.ofNat 32 x)
  else BitVec.ofNat 32 (x / 2 ^ (32 * j))

/-- The number of data registers of an access of `z` bytes. -/
def dataRegs (z : Nat) : Nat := max 1 (z / 4)

/-- The checks of an instruction's accesses and the wait for its counter (R76, R271): its places, unless it
ends here. An instruction without accesses completes at once (R263). -/
def Env.access (e : Env) (acc : Acc) (counter : Nat) (tmask : Option DWord) (as : List LaneAcc)
    (k : List (LaneAcc × Place) → Res) : Res :=
  match e.checkAll acc tmask as with
  | .error r => r
  | .ok ps =>
    if e.full counter then e.waitRoom (.counterRoom counter)
    else if as = [] then .ok e.s
    else k ps

/-- What an acquire or a release of a split does to the accesses before it (R277, R278): a release finds the split's own
earlier stores performed, as far as the L1s go, and an acquire lets the later weak loads read nothing replaced before. -/
def Env.ordered (e : Env) (s : State) (acq rel : Bool) : State :=
  let s1 := if rel then
      s.settleLines (clusterOf (coreOf e.gid))
        ((e.g.pend.filter fun q => q.2.kind != .load && q.2.mask &&& e.p.mask != 0).flatMap fun q => q.2.lines).eraseDups
    else s
  if acq then s1.synced e.gid else s1

/-- The group's earlier stores done as far as the L1s go, for an engine operation that its issue starts (R281 item 1). -/
def Env.settled (e : Env) (s : State) : State :=
  s.settleLines (clusterOf (coreOf e.gid)) ((e.g.pend.filter fun q => q.2.kind != .load).flatMap fun q => q.2.lines).eraseDups

/-- A load of accesses `as` with attribute `att`, with the destinations that the numbers read give (R62, R263). -/
def Env.load (e : Env) (att : BitVec 2) (tmask : Option DWord) (as : List LaneAcc) (dests : List Nat → List DestWord) : Res :=
  e.access .read 0 tmask as fun ps =>
    let q := e.readAll e.s (strongAtt att) (att = 1) ps
    .ok ((e.ordered q.1 (att = 3) false).owe e.gid (e.opFor .load 0 (dests q.2) ps))

/-- The outstanding stores of a split that wait for a collapse (R369); a release waits for them. -/
def Env.collapsing (e : Env) : List Nat :=
  (e.g.pend.filter fun q => q.2.kind != .load && q.2.mask &&& e.p.mask != 0 && q.2.lines.any fun l =>
    (tabGet e.s.pages (l / 512)).any fun r => r.collapsing).map (·.1)

/-- A release waits for the split's stores that a collapse holds (R277, R369). -/
def Env.release (e : Env) (rel : Bool) (k : Res) : Res :=
  if rel && e.collapsing ≠ [] then e.waitRoom (.performed e.collapsing) else k

/-- A store of accesses `as` with their values and attribute `att`, in units of `u` bytes (R62, R263). -/
def Env.store (e : Env) (att : BitVec 2) (u : Nat) (tmask : Option DWord) (as : List LaneAcc) (vals : List Nat) : Res :=
  e.access .write 1 tmask as fun ps => e.release (att = 3) <|
    .ok ((e.writeAll (e.ordered e.s false (att = 3)) (strongAtt att) u [] (ps.zip vals)).owe e.gid (e.opFor .store 1 [] ps))

/-- The unit in which lanes that store to one place leave one of their values (R262, R274): 8 bytes for a strong access, single
bytes for a weak one. -/
def storeUnit (att : BitVec 2) : Nat := if strongAtt att then 8 else 1

/-- The accesses of the Active lanes, one each. -/
def Env.laneAccs (e : Env) (z : Nat) (addr : Nat → Nat) : List LaneAcc :=
  (lanesOf e.active).map fun i => { lane := i, addr := addr i, size := z, align := z }

/-- A vector load of `z` bytes per lane (R261). -/
def vload (base : Nat) (f : Vmem) (z : Nat) (sx : Bool) (s : State) : Host.Outcome State Fault Refusal :=
  issue (fun g _ => vmemSpec g (memWords f.px (packVmem base f)) f.st f.px (2 * f.k.toNat) 2 (vmemOff f) f.vd.toNat
      (dataRegs z) false (strongAtt f.att))
    (fun e =>
      let as := e.laneAccs z (e.flat (2 * f.k.toNat) (vmemOff f) f.px)
      e.load f.att none as fun xs =>
        (as.zip xs).flatMap fun x => (List.range (dataRegs z)).map fun j =>
          { reg := vName (f.vd.toNat + j), lane := x.1.lane, val := loadWord z sx x.2 j }) s

/-- A vector store of `z` bytes per lane (R261). -/
def vstore (base : Nat) (f : Vmem) (z : Nat) (s : State) : Host.Outcome State Fault Refusal :=
  issue (fun g _ => vmemSpec g (memWords f.px (packVmem base f)) f.st f.px (2 * f.k.toNat) 2 (vmemOff f) f.vd.toNat
      (dataRegs z) true (strongAtt f.att))
    (fun e =>
      let as := e.laneAccs z (e.flat (2 * f.k.toNat) (vmemOff f) f.px)
      e.store f.att (storeUnit f.att) none as (as.map fun a =>
        (List.range (dataRegs z)).foldr (fun j x => (e.v.vreg (f.vd.toNat + j) a.lane).toNat + 2 ^ 32 * x) 0)) s

/-- `ld.b` (R261). -/
def execLdB (f : Vmem) (s : State) : Host.Outcome State Fault Refusal := vload 0xC8000000 f 1 false s

/-- `ld.bs` (R261). -/
def execLdBs (f : Vmem) (s : State) : Host.Outcome State Fault Refusal := vload 0xC8400000 f 1 true s

/-- `ld.h` (R261). -/
def execLdH (f : Vmem) (s : State) : Host.Outcome State Fault Refusal := vload 0xC8800000 f 2 false s

/-- `ld.hs` (R261). -/
def execLdHs (f : Vmem) (s : State) : Host.Outcome State Fault Refusal := vload 0xC8C00000 f 2 true s

/-- `ld.w` (R261). -/
def execLdW (f : Vmem) (s : State) : Host.Outcome State Fault Refusal := vload 0xC9000000 f 4 false s

/-- `ld.w2` (R261). -/
def execLdW2 (f : Vmem) (s : State) : Host.Outcome State Fault Refusal := vload 0xC9400000 f 8 false s

/-- `ld.w4` (R261). -/
def execLdW4 (f : Vmem) (s : State) : Host.Outcome State Fault Refusal := vload 0xC9800000 f 16 false s

/-- `st.b` (R261). -/
def execStB (f : Vmem) (s : State) : Host.Outcome State Fault Refusal := vstore 0xC9C00000 f 1 s

/-- `st.h` (R261). -/
def execStH (f : Vmem) (s : State) : Host.Outcome State Fault Refusal := vstore 0xCA000000 f 2 s

/-- `st.w` (R261). -/
def execStW (f : Vmem) (s : State) : Host.Outcome State Fault Refusal := vstore 0xCA400000 f 4 s

/-- `st.w2` (R261). -/
def execStW2 (f : Vmem) (s : State) : Host.Outcome State Fault Refusal := vstore 0xCA800000 f 8 s

/-- `st.w4` (R261). -/
def execStW4 (f : Vmem) (s : State) : Host.Outcome State Fault Refusal := vstore 0xCAC00000 f 16 s

/-- The word addresses of `ldx` and `stx` in a lane (R212): the high word, then `n` − 1 low words. -/
def Env.xAccs (e : Env) (f : Vmem) (n i : Nat) : List LaneAcc :=
  let d : DWord := (if f.en then (e.v.vreg f.off.toNat i).setWidth 64 else 0) + pxOff f.px
  let hi := e.v.spair (2 * f.k.toNat) + d
  let lo := e.v.spair (2 * f.k.toNat + 2) + BitVec.ofNat 64 (n - 1) * d
  { lane := i, addr := hi.toNat, size := 4, align := 4 } ::
    (List.range (n - 1)).map fun j => { lane := i, addr := (lo + BitVec.ofNat 64 (4 * j)).toNat, size := 4, align := 4 }

/-- What the issue logic knows of `ldx` and `stx`: MODE.XW gives the width, and it decides the alignment (R212). -/
def xmemSpec (g : Group) (base : Nat) (f : Vmem) (readsData : Bool) : Spec :=
  { vmemSpec g (memWords f.px (packVmem base f)) f.st f.px (2 * f.k.toNat) 4 (vmemOff f) f.vd.toNat (g.mXw + 2) readsData
      (strongAtt f.att) with ill := g.mXw = 3 || groupBad f.vd.toNat (g.mXw + 2) }

/-- `ldx` (R212, R213). -/
def execLdx (f : Vmem) (s : State) : Host.Outcome State Fault Refusal :=
  issue (fun g _ => xmemSpec g 0xCB400000 f false)
    (fun e =>
      let n := e.v.mXw + 2
      let as := (lanesOf e.active).flatMap (e.xAccs f n)
      e.load f.att none as fun xs =>
        ((as.zip xs).zip (List.range as.length)).map fun x =>
          { reg := vName (f.vd.toNat + x.2 % n), lane := x.1.1.lane, val := BitVec.ofNat 32 x.1.2 }) s

/-- `stx` (R212, R213): lanes that store to one word leave one of the stored words. -/
def execStx (f : Vmem) (s : State) : Host.Outcome State Fault Refusal :=
  issue (fun g _ => xmemSpec g 0xCB800000 f true)
    (fun e =>
      let n := e.v.mXw + 2
      e.store f.att 4 none ((lanesOf e.active).flatMap (e.xAccs f n))
        ((lanesOf e.active).flatMap fun i => (List.range n).map fun j => (e.v.vreg (f.vd.toNat + j) i).toNat)) s

/-- Word `j` of lane `i` after `ldt` at element size `z` bytes, from the rows read by lane (R265). -/
def ldtWord (z : Nat) (row : Nat → Nat) (i j : Nat) : Word :=
  let q := 4 / z
  let l := i % 16
  BitVec.ofNat 32 ((List.range q).foldr (fun t a =>
    bits (row (i - l + 4 * q * (l / (4 * q)) + q * j + t)) (8 * z * (l % (4 * q))) (8 * z)
      + 2 ^ (8 * z) * a) 0)

/-- `ldt` (R265): a group of width 8 takes trap 0x01 after the other checks. -/
def execLdt (f : Ldt) (s : State) : Host.Outcome State Fault Refusal :=
  issue (fun g _ =>
      { vmemSpec g (memWords f.px (packLdt 0xCB000080 f)) f.st f.px (2 * f.k.toNat) 2 (some f.off.toNat) f.vd.toNat 4 false
          false with widthIll := g.width = 8 })
    (fun e =>
      let as := e.laneAccs 16 (e.flat (2 * f.k.toNat) (some f.off.toNat) f.px)
      e.load 0 none as fun xs =>
        let rows := (as.zip xs).map fun x => (x.1.lane, x.2)
        (lanesOf e.active).flatMap fun i => (List.range 4).map fun j =>
          { reg := vName (f.vd.toNat + j), lane := i, val := ldtWord (2 ^ f.esz.toNat) (smapGet 0 rows) i j }) s

/-- `pfl` (R266): the lines of the addresses that a read may reach are fetched into the cluster's L1, or into their
homes, which changes nothing here. It waits for nothing and takes no memory trap. -/
def execPfl (f : Pfl) (s : State) : Host.Outcome State Fault Refusal :=
  issue (fun g _ => { vmemSpec g (memWords f.px (packPfl 0xCBC00000 f)) f.st f.px (2 * f.k.toNat) 2
      (if f.en then some f.off.toNat else none) 0 0 false false with access := false })
    (fun e =>
      let addr := e.flat (2 * f.k.toNat) (if f.en then some f.off.toNat else none) f.px
      .ok ((lanesOf e.active).foldl (fun (t : State) i =>
        match checkAddr t (e.g.agent e.gid) (addr i) 1 1 .read with
        | .ok p =>
          if f.lvl = 0 then (t.install e.g.part (coreOf e.gid) p).readFill (clusterOf (coreOf e.gid)) p 1 false else t
        | _ => t) e.s)) s

/-- The flat address of a uniform memory instruction (R268). -/
def Env.uflat (e : Env) (f : Smem) : Nat :=
  (e.v.spair (2 * f.k.toNat) + BitVec.ofNat 64 (4 * f.woff.toNat) + pxOff f.px).toNat

/-- The one access of a uniform memory instruction of `z` bytes (R268). -/
def Env.uaccs (e : Env) (f : Smem) (z : Nat) : List LaneAcc := [{ lane := 0, addr := e.uflat f, size := z, align := z }]

/-- What the issue logic knows of a uniform memory instruction over `n` registers (R268): its prefix names no mask. -/
def smemSpec (g : Group) (base : Nat) (f : Smem) (n : Nat) (rs : List RegName) (strong : Bool) : Spec :=
  { words := memWords f.px (packSmem base f), stall := f.st,
    misuse := (pxScope f.px ≠ 0 && !strong) || (match f.px with
      | some p => !(p.mask = 7 && p.inv)
      | none => false),
    sNamed := upFrom f.sd.toNat n ++ upFrom (2 * f.k.toNat) 2,
    modeIll := strong && pxScope f.px = 0 && g.mScope = 0, access := true,
    reads := rs ++ sNames (2 * f.k.toNat) 2 }

/-- The 32-bit words of a number, as what an operation owes to consecutive uniform registers; s63 is owed nothing. -/
def owedWords (sd n x : Nat) : List DestWord :=
  ((List.range n).filter fun j => sd + j ≠ 63).map fun j =>
    { reg := sName (sd + j), lane := 0, val := BitVec.ofNat 32 (x / 2 ^ (32 * j)) }

/-- `sld` of `n` words (R268). -/
def uload (base : Nat) (f : Smem) (n : Nat) (s : State) : Host.Outcome State Fault Refusal :=
  issue (fun g _ => smemSpec g base f n [] (strongAtt f.att))
    (fun e => e.load f.att (some e.p.mask) (e.uaccs f (4 * n)) fun xs =>
      owedWords f.sd.toNat n (xs.headD 0)) s

/-- `sst` of `n` words (R268). -/
def ustore (base : Nat) (f : Smem) (n : Nat) (s : State) : Host.Outcome State Fault Refusal :=
  issue (fun g _ => smemSpec g base f n (sNames f.sd.toNat n) (strongAtt f.att))
    (fun e => e.store f.att (storeUnit f.att) (some e.p.mask) (e.uaccs f (4 * n))
      [(List.range n).foldr (fun j x => (e.v.sreg (f.sd.toNat + j)).toNat + 2 ^ 32 * x) 0]) s

/-- `sld.w` (R268). -/
def execSldW (f : Smem) (s : State) : Host.Outcome State Fault Refusal := uload 0xCC000000 f 1 s

/-- `sld.w2` (R268). -/
def execSldW2 (f : Smem) (s : State) : Host.Outcome State Fault Refusal := uload 0xCC400000 f 2 s

/-- `sld.w4` (R268). -/
def execSldW4 (f : Smem) (s : State) : Host.Outcome State Fault Refusal := uload 0xCC800000 f 4 s

/-- `sld.w8` (R268). -/
def execSldW8 (f : Smem) (s : State) : Host.Outcome State Fault Refusal := uload 0xCCC00000 f 8 s

/-- `sst.w` (R268). -/
def execSstW (f : Smem) (s : State) : Host.Outcome State Fault Refusal := ustore 0xCD000000 f 1 s

/-- `sst.w2` (R268). -/
def execSstW2 (f : Smem) (s : State) : Host.Outcome State Fault Refusal := ustore 0xCD400000 f 2 s

/-- `sst.w4` (R268). -/
def execSstW4 (f : Smem) (s : State) : Host.Outcome State Fault Refusal := ustore 0xCD800000 f 4 s

/-- `swaitl` (R270): waits until the word differs from sd as it was, or for 65,536 cycles; sd receives the word. Its address and
that value are those of its issue. -/
def execSwaitl (f : Smem) (s : State) : Host.Outcome State Fault Refusal :=
  issue (fun g _ => { smemSpec g 0xCDC00000 f 1 [sName f.sd.toNat] true with writes := [(sName f.sd.toNat, 0)] })
    (fun e =>
      let v := e.v.sreg f.sd.toNat
      match e.checkAll .read (some e.p.mask) (e.uaccs f 4) with
      | .error r => r
      | .ok ps =>
        let q := e.readAll e.s true false ps
        let w : Word := BitVec.ofNat 32 (q.2.headD 0)
        if w ≠ v ∨ e.since + 65536 ≤ e.s.clock then
          .ok ((e.ordered q.1 (f.att = 3) false).modGroup e.gid fun g => g.setSreg f.sd.toNat w)
        else .block e.s (.lineWord (e.uflat f) v (e.since + 65536)) true) s

/-- One atomic read-modify-write after another, in the order given (R311): the state and the values before each. -/
def Env.rmwAll (e : Env) (f : Nat → Nat → Nat) (s : State) : List (LaneAcc × Place) → State × List (Nat × Nat)
  | [] => (s, [])
  | (a, p) :: r =>
    let cl := clusterOf (coreOf e.gid)
    let s0 := e.touch (s.l1FlushAll cl (p.lines a.size)) a p true
    let bs := s0.readAt p a.size
    let new := toBytes a.size (f a.lane (ofBytes bs))
    let s1 := (s0.noteOld e.gid e.p.mask p.key bs new).coreStrongPut cl p new
    let q := e.rmwAll f (s1.notePoison e.gid a.addr (s.poisonAt p a.size)) r
    (q.1, (a.lane, ofBytes bs) :: q.2)

/-- Whether the places of a list are distinct. -/
def distinctPlaces : List (LaneAcc × Place) → Bool
  | [] => true
  | x :: r => r.all (fun y => y.2.key ≠ x.2.key) && distinctPlaces r

/-- A list in an order that the part chooses (R311). -/
def homeOrder {α : Type} : Nat → Nat → List α → List α
  | 0, _, l => l
  | n + 1, k, l =>
    let j := Config.choose k % l.length
    match l[j]? with
    | none => l
    | some x => x :: homeOrder n (k + 1) (l.eraseIdx j)

/-- The atomics of an instruction performed, in lane order when no two meet, else in an order that the home
chooses. -/
def Env.rmw (e : Env) (f : Nat → Nat → Nat) (ps : List (LaneAcc × Place)) : State × List (Nat × Nat) :=
  if distinctPlaces ps then e.rmwAll f e.s ps
  else e.rmwAll f { e.s with serial := e.s.serial + ps.length } (homeOrder ps.length e.s.serial ps)

/-- The duplicated pages that atomics would write (R369): they wait for the collapse, which their home begins. -/
def Env.collapses (e : Env) (ps : List (LaneAcc × Place)) : List Nat :=
  ps.filterMap fun x => match x.2 with
    | .phys pa _ _ _ _ => if e.s.replicated pa then some (pa / 2 ^ 16) else none
    | .spad _ => none

/-- A collapse begun for an atomic, which waits for it (R369). -/
def Env.waitCollapse (e : Env) (f : Nat) : Res :=
  match tabGet e.s.pages f with
  | some r => .block (if r.collapsing then e.s else e.s.collapse f r) (.frameMove f) e.marker
  | none => .ok e.s

/-- The atomics of an instruction performed, `acqrel` with both orderings, and what it owes (R62, R311, R369). -/
def Env.atomics (e : Env) (acqrel : Bool) (tmask : Option DWord) (as : List LaneAcc) (new : Nat → Nat → Nat)
    (dests : List (Nat × Nat) → List DestWord) : Res :=
  e.access .atomic 1 tmask as fun ps =>
    match e.collapses ps with
    | f :: _ => e.waitCollapse f
    | [] => e.release acqrel <|
      let e1 := { e with s := e.ordered e.s false acqrel }
      let q := e1.rmw new ps
      .ok ((e.ordered q.1 acqrel false).owe e.gid (e.opFor .atomic 1 (dests q.2) ps))

/-- A uniform atomic (R269). -/
def uatomic (base : Nat) (f : Smem) (n : Nat) (new : Env → Nat → Nat) (s : State) : Host.Outcome State Fault Refusal :=
  issue (fun g _ => smemSpec g base f n (sNames f.sd.toNat n) true)
    (fun e => e.atomics (f.att = 3) (some e.p.mask) (e.uaccs f 4) (fun _ old => new e old) fun q =>
      owedWords f.sd.toNat 1 ((q.map (·.2)).headD 0)) s

/-- `satadd` (R269). -/
def execSatadd (f : Smem) (s : State) : Host.Outcome State Fault Refusal :=
  uatomic 0xCE000000 f 1 (fun e old => (old + (e.v.sreg f.sd.toNat).toNat) % 2 ^ 32) s

/-- `satcas` (R269). -/
def execSatcas (f : Smem) (s : State) : Host.Outcome State Fault Refusal :=
  uatomic 0xCE400000 f 2 (fun e old =>
    if old = (e.v.sreg f.sd.toNat).toNat then (e.v.sreg (f.sd.toNat + 1)).toNat else old) s

/-- What an atomic writes from the old value and the lane's data words x and y (R310). -/
abbrev AtomOp := Env → Nat → Nat → Nat → Nat

/-- The offset register of an ATOM word; field 0 names none (R309). -/
def atomOff (f : Atom) : Option Nat := if f.off = 0 then none else some f.off.toNat

/-- An atomic of 4 bytes, or of 8, over `n` data registers, returning `nret` of them (R309 to R311). -/
def vatomic (base : Nat) (f : Atom) (z n nret : Nat) (typed : Group → Bool) (op : AtomOp) (s : State) :
    Host.Outcome State Fault Refusal :=
  issue (fun g _ =>
      let sp := vmemSpec g (memWords f.px (packAtom base f)) f.st f.px (2 * f.k.toNat) 2 (atomOff f) f.vd.toNat n true true
      { sp with modeIll := sp.modeIll || !typed g })
    (fun e =>
      let as := e.laneAccs z (e.flat (2 * f.k.toNat) (atomOff f) f.px)
      e.atomics f.order none as (fun i old => op e old (e.v.vreg f.vd.toNat i).toNat (e.v.vreg (f.vd.toNat + 1) i).toNat) fun q =>
        if f.ret then q.flatMap fun x => (List.range nret).map fun j =>
          { reg := vName (f.vd.toNat + j), lane := x.1, val := BitVec.ofNat 32 (x.2 / 2 ^ (32 * j)) }
        else []) s

/-- A 4-byte atomic of one data register. -/
def vatomic1 (base : Nat) (f : Atom) (op : Nat → Nat → Nat) (s : State) : Host.Outcome State Fault Refusal :=
  vatomic base f 4 1 1 (fun _ => true) (fun _ old x _ => op old x) s

/-- Signed order of two 32-bit values. -/
def signedLe (a b : Nat) : Bool := (BitVec.ofNat 32 a).sle (BitVec.ofNat 32 b)

/-- The rounded FP sum of two codes, subnormals kept (R310). -/
def atomicFadd (fm : Fmt) (a b : Nat) : Nat :=
  (evalSum fm .rne false [(fm, a), (fm, b)] [(fm.val a, oneVal), (fm.val b, oneVal)] 0).code

/-- `aadd` (R310). -/
def execAadd (f : Atom) (s : State) : Host.Outcome State Fault Refusal := vatomic1 0xD0000000 f (fun o x => (o + x) % 2 ^ 32) s

/-- `asub` (R310). -/
def execAsub (f : Atom) (s : State) : Host.Outcome State Fault Refusal := vatomic1 0xD0200000 f (fun o x => (o + 2 ^ 32 - x) % 2 ^ 32) s

/-- `aand` (R310). -/
def execAand (f : Atom) (s : State) : Host.Outcome State Fault Refusal := vatomic1 0xD0400000 f (fun o x => o &&& x) s

/-- `aor` (R310). -/
def execAor (f : Atom) (s : State) : Host.Outcome State Fault Refusal := vatomic1 0xD0600000 f (fun o x => o ||| x) s

/-- `axor` (R310). -/
def execAxor (f : Atom) (s : State) : Host.Outcome State Fault Refusal := vatomic1 0xD0800000 f (fun o x => o ^^^ x) s

/-- `amin` (R310). -/
def execAmin (f : Atom) (s : State) : Host.Outcome State Fault Refusal := vatomic1 0xD0A00000 f (fun o x => if signedLe o x then o else x) s

/-- `amax` (R310). -/
def execAtomicAmax (f : Atom) (s : State) : Host.Outcome State Fault Refusal := vatomic1 0xD0C00000 f (fun o x => if signedLe o x then x else o) s

/-- `aminu` (R310). -/
def execAminu (f : Atom) (s : State) : Host.Outcome State Fault Refusal := vatomic1 0xD0E00000 f (fun o x => min o x) s

/-- `amaxu` (R310). -/
def execAmaxu (f : Atom) (s : State) : Host.Outcome State Fault Refusal := vatomic1 0xD1000000 f (fun o x => max o x) s

/-- `axchg` (R310). -/
def execAxchg (f : Atom) (s : State) : Host.Outcome State Fault Refusal := vatomic1 0xD1200000 f (fun _ x => x) s

/-- `aincw` (R310). -/
def execAincw (f : Atom) (s : State) : Host.Outcome State Fault Refusal := vatomic1 0xD1600000 f (fun o x => if x ≤ o then 0 else o + 1) s

/-- `afadd` (R310). -/
def execAfadd (f : Atom) (s : State) : Host.Outcome State Fault Refusal := vatomic1 0xD1800000 f (fun o x => atomicFadd fp32 o x) s

/-- `afmin` (R310). -/
def execAfmin (f : Atom) (s : State) : Host.Outcome State Fault Refusal := vatomic1 0xD1C00000 f (fun o x => (fp32.minMax false o x).code) s

/-- `afmax` (R310). -/
def execAfmax (f : Atom) (s : State) : Host.Outcome State Fault Refusal := vatomic1 0xD1E00000 f (fun o x => (fp32.minMax true o x).code) s

/-- `acas` (R310). -/
def execAcas (f : Atom) (s : State) : Host.Outcome State Fault Refusal :=
  vatomic 0xD1400000 f 4 2 1 (fun _ => true) (fun _ old x y => if old = x then y else old) s

/-- `afadd2` (R310): two 16-bit sums in the format of MODE.TYPE. -/
def execAfadd2 (f : Atom) (s : State) : Host.Outcome State Fault Refusal :=
  vatomic 0xD1A00000 f 4 1 1 (fun g => g.mType = 8 || g.mType = 9)
    (fun e old x _ =>
      let fm := fmtOf e.v.mType
      atomicFadd fm (bits old 0 16) (bits x 0 16) + 2 ^ 16 * atomicFadd fm (bits old 16 16) (bits x 16 16)) s

/-- The pair that `aaddc` leaves (R312). -/
def aaddcNew (old x y : Nat) : Nat :=
  let m := bits old 0 32
  let r := bits old 32 32
  match twoSum fp32 false m x with
  | (t, e, _) =>
    if fp32.isNan t then t + 2 ^ 32 * t
    else if fp32.isInf t then t
    else t + 2 ^ 32 * atomicFadd fp32 r (atomicFadd fp32 e y)

/-- `aaddc` (R312). -/
def execAaddc (f : Atom) (s : State) : Host.Outcome State Fault Refusal :=
  vatomic 0xD2000000 f 8 2 2 (fun _ => true) (fun _ old x y => aaddcNew old x y) s

end Sys2Proof.Machine
end

