-- ==== Sys2Proof/Machine/Rings.lean ====
section
/-! DEFINITION. Stage rings: `rpush` and `rpop` in their forms, and the publication of a slot (R120 to R124). -/
namespace Sys2Proof.Machine

/-- Ring `k` of a team, if it is registered (R120). -/
def Team.ring (t : Team) (k : Nat) : Option Ring := t.rings.getD k none

/-- The mask of every position of a ring. -/
def Ring.everyPos (r : Ring) : BitVec 8 := BitVec.ofNat 8 (2 ^ r.pos.length - 1)

/-- The positions whose owner has exited or been killed; they pass each slot as it is published (R123). -/
def Ring.goneMask (r : Ring) : BitVec 8 :=
  (List.range r.pos.length).foldl (fun (m : BitVec 8) j =>
    match r.pos[j]? with
    | some p => if p.gone then m ||| BitVec.twoPow 8 j else m
    | none => m) 0

/-- Whether a slot is free (R120). -/
def Ring.slotFree (r : Ring) (i : Nat) : Bool :=
  match r.slots[i]? with
  | some sl => sl.pass = r.everyPos && sl.hold = 0
  | none => false

/-- A slot offered to the positions of a mask (R122). -/
def Ring.publish (r : Ring) (slot : Nat) (mask : BitVec 8) : Ring :=
  match r.slots[slot]? with
  | none => r
  | some sl => { r with slots := listSet r.slots slot { sl with phase := !sl.phase, offer := mask, pass := r.goneMask } }

/-- The copies that published a slot have been taken once it is published again (R295). -/
def State.takenCopies (s : State) (tid ring slot : Nat) : State :=
  { s with copies := s.copies.map fun e =>
      if e.2.st = .published && e.2.ring = ring && e.2.slot = slot && (s.group e.2.gid).bind (·.team) = some tid then
        (e.1, { e.2 with mask := 0 })
      else e }

/-- A slot of a team's ring published (R122, R295). -/
def State.publishSlot (s : State) (tid ring slot : Nat) (mask : BitVec 8) : State :=
  (s.takenCopies tid ring slot).modRing tid ring fun r => r.publish slot mask

/-- Whether every position of a mask has taken or passed a slot (R122). -/
def State.slotTaken (s : State) (tid ring slot : Nat) (mask : BitVec 8) : Bool :=
  match ((s.team tid).bind fun t => t.ring ring).bind fun r => r.slots[slot]? with
  | some sl => mask &&& ~~~sl.pass = 0
  | none => true

/-- `rpush` in its three forms (R122). -/
def Env.rpush (e : Env) (ring : Nat) (mask : BitVec 8) (sd : Nat) (pub claim : Bool) : Res :=
  match e.g.team with
  | none => e.illegal 0x16
  | some tid =>
    match (e.s.team tid).bind fun t => t.ring ring with
    | none => e.illegal 0x16
    | some r =>
      let fresh := pub && !e.marker
      if r.producer.isSome && r.producer ≠ some e.g.index then e.illegal 0x16
      else if fresh && (r.claimed = none || mask = 0 || 2 ^ r.pos.length ≤ mask.toNat) then e.illegal 0x16
      else if claim && !pub && !e.resumed && r.claimed ≠ none then e.illegal 0x16
      else
        let s1 := e.s.modRing tid ring fun q => { q with producer := some e.g.index }
        let s2 := if fresh then
            (s1.publishSlot tid ring (r.claimed.getD 0) mask).modRing tid ring fun q => { q with claimed := none }
          else s1
        let r2 := (((s2.team tid).bind fun t => t.ring ring)).getD r
        if claim then
          if r2.slotFree r.ip then
            .ok ((s2.modRing tid ring fun q => { q with claimed := some r.ip, ip := (r.ip + 1) % r.slots.length }).modGroup
              e.gid fun g => g.setSreg sd (BitVec.ofNat 32 r.ip))
          else .block s2 (.ringFree ring) pub
        else .ok s2

/-- What the issue logic knows of a ring instruction: the index it writes is there at the next issue (R124). -/
def ringSpec (w : Nat) (st : BitVec 2) (sd : List Nat) : Spec :=
  { words := [w], stall := st, sNamed := sd, writes := sd.map fun r => (sName r, 0) }

/-- `rpush sd, k, mask` (R122). -/
def execRpush (f : Rpush) (s : State) : Host.Outcome State Fault Refusal :=
  issue (fun _ _ => ringSpec (packRpush 0xE1C0000C f) f.st [f.sd.toNat])
    (fun e => e.rpush f.ring.toNat f.mask f.sd.toNat true true) s

/-- `rpush.pub` (R122). -/
def execRpushPub (f : RpushPub) (s : State) : Host.Outcome State Fault Refusal :=
  issue (fun _ _ => ringSpec (packRpushPub 0xE1C00008 f) f.st []) (fun e => e.rpush f.ring.toNat f.mask 63 true false) s

/-- `rpush.claim` (R122). -/
def execRpushClaim (f : Rpush) (s : State) : Host.Outcome State Fault Refusal :=
  issue (fun _ _ => ringSpec (packRpush 0xE1C00004 f) f.st [f.sd.toNat])
    (fun e => e.rpush f.ring.toNat f.mask f.sd.toNat false true) s

/-- The result of a take (R123): the ring, and the slot taken, the ring's end, or neither while it waits. -/
inductive Take where
  | slot (i : Nat)
  | closed
  | waits
deriving DecidableEq, Repr

/-- A ring's position changed. -/
def Ring.setPos (r : Ring) (j : Nat) (p : RingPos) : Ring := { r with pos := listSet r.pos j p }

/-- The loop of a take (R123). -/
def Ring.take (r : Ring) (j : Nat) : Nat → Ring × Take
  | 0 => (r, .waits)
  | n + 1 =>
    match r.pos[j]? with
    | none => (r, .closed)
    | some p =>
      match r.slots[p.cp]? with
      | none => (r, .closed)
      | some sl =>
        if sl.phase ≠ p.phase then (r, if r.closed then .closed else .waits)
        else
          let nx := (p.cp + 1) % r.slots.length
          let p1 := { p with cp := nx, phase := if nx = 0 then !p.phase else p.phase }
          let sl1 := { sl with pass := sl.pass ||| BitVec.twoPow 8 j }
          if sl.offer.getLsbD j then
            ({ (r.setPos j { p1 with held := some p.cp }) with
               slots := listSet r.slots p.cp { sl1 with hold := sl1.hold ||| BitVec.twoPow 8 j } }, .slot p.cp)
          else Ring.take { (r.setPos j p1) with slots := listSet r.slots p.cp sl1 } j n

/-- A held slot of a position released (R123). -/
def Ring.release (r : Ring) (j : Nat) (p : RingPos) : Ring :=
  match p.held with
  | none => r
  | some h =>
    match r.slots[h]? with
    | none => r
    | some sl =>
      { (r.setPos j { p with held := none }) with
        slots := listSet r.slots h { sl with hold := sl.hold &&& ~~~(BitVec.twoPow 8 j) } }

/-- `rpop` in its three forms (R123). -/
def Env.rpop (e : Env) (ring j sd : Nat) (rel take : Bool) : Res :=
  match e.g.team with
  | none => e.illegal 0x16
  | some tid =>
    match (e.s.team tid).bind fun t => t.ring ring with
    | none => e.illegal 0x16
    | some r =>
      match r.pos[j]? with
      | none => e.illegal 0x16
      | some p =>
        let fresh := rel && !e.marker
        if p.owner.isSome && p.owner ≠ some e.g.index then e.illegal 0x16
        else if fresh && p.held = none then e.illegal 0x16
        else if take && !rel && !e.resumed && p.held ≠ none then e.illegal 0x16
        else
          let p1 := { p with owner := some e.g.index }
          let r1 := r.setPos j p1
          let r2 := if fresh then r1.release j p1 else r1
          if take then
            match r2.take j 17 with
            | (r3, .slot i) =>
              .ok (((e.s.modRing tid ring fun _ => r3).modGroup e.gid fun g => g.setSreg sd (BitVec.ofNat 32 i)).synced e.gid)
            | (r3, .closed) =>
              .ok ((e.s.modRing tid ring fun _ => r3).modGroup e.gid fun g => g.setSreg sd 0xFFFFFFFF)
            | (r3, .waits) => .block (e.s.modRing tid ring fun _ => r3) (.ringNext ring j) rel
          else .ok (e.s.modRing tid ring fun _ => r2)

/-- `rpop sd, k, j` (R123). -/
def execRpop (f : Rpop) (s : State) : Host.Outcome State Fault Refusal :=
  issue (fun _ _ => ringSpec (packRpop 0xE1E0000C f) f.st [f.sd.toNat])
    (fun e => e.rpop f.ring.toNat f.pos.toNat f.sd.toNat true true) s

/-- `rpop.rel` (R123). -/
def execRpopRel (f : RpopRel) (s : State) : Host.Outcome State Fault Refusal :=
  issue (fun _ _ => ringSpec (packRpopRel 0xE1E00008 f) f.st [])
    (fun e => e.rpop f.ring.toNat f.pos.toNat 63 true false) s

/-- `rpop.take` (R123). -/
def execRpopTake (f : Rpop) (s : State) : Host.Outcome State Fault Refusal :=
  issue (fun _ _ => ringSpec (packRpop 0xE1E00004 f) f.st [f.sd.toNat])
    (fun e => e.rpop f.ring.toNat f.pos.toNat f.sd.toNat false true) s

end Sys2Proof.Machine
end

