-- ==== Sys2Proof/Machine/Uniform.lean ====
section
/-! DEFINITION. The uniform datapath (R148 to R153). -/
namespace Sys2Proof.Machine

/-- What the issue logic knows of a uniform instruction: it reads `rs` and writes `ws`, each with a required
distance of 2 (R71, R148). -/
def uniSpec (w : Nat) (st : BitVec 2) (named : List Nat) (rs ws : List RegName) : Spec :=
  { words := [w], stall := st, sNamed := named, reads := rs, writes := ws.map fun r => (r, 2) }

/-- A uniform instruction with two sources and a destination (R149). -/
def uniBin (base : Nat) (f : S3) (op : Word → Word → Word) (s : State) : Host.Outcome State Fault Refusal :=
  issue (fun _ _ => uniSpec (packS3 base f) f.st (f.sd.toNat :: f.sa.toNat :: ssrcNamed f.src)
      (sName f.sa.toNat :: ssrcReads f.src) [sName f.sd.toNat])
    (fun e => e.upd (e.g.setSreg f.sd.toNat (op (e.v.sreg f.sa.toNat) (e.v.ssrc f.src)))) s

/-- A uniform instruction that writes SCC alone (R149, R151). -/
def uniTest (base : Nat) (f : SCmp) (op : BitVec 5 → Word → Word → BitVec 5) (s : State) :
    Host.Outcome State Fault Refusal :=
  issue (fun _ _ => uniSpec (packSCmp base f) f.st (f.sa.toNat :: ssrcNamed f.src)
      (sName f.sa.toNat :: ssrcReads f.src) [sccName])
    (fun e => e.upd { e.g with scc := op e.g.scc (e.v.sreg f.sa.toNat) (e.v.ssrc f.src) }) s

/-- A uniform instruction with one source (R149). -/
def uniUn (base : Nat) (f : SUn) (op : Word → Word) (s : State) : Host.Outcome State Fault Refusal :=
  issue (fun _ _ => uniSpec (packSUn base f) f.st [f.sd.toNat, f.sa.toNat] [sName f.sa.toNat] [sName f.sd.toNat])
    (fun e => e.upd (e.g.setSreg f.sd.toNat (op (e.v.sreg f.sa.toNat)))) s

/-- The position of a field's control word (R153). -/
def fieldPos (c : Word) : Nat := bits c.toNat 0 5

/-- The bits of a field's control word that exist: its length, 0 meaning 32, cut at bit 32 (R153). -/
def fieldLen (c : Word) : Nat :=
  min (if bits c.toNat 5 5 = 0 then 32 else bits c.toNat 5 5) (32 - fieldPos c)

/-- `sbfe` (R153). -/
def bitExtract (a c : Word) : Word := BitVec.ofNat 32 (bits a.toNat (fieldPos c) (fieldLen c))

/-- `sbfi` (R153). -/
def bitInsert (d a c : Word) : Word :=
  let m : Word := BitVec.ofNat 32 ((2 ^ fieldLen c - 1) * 2 ^ fieldPos c)
  (d &&& ~~~m) ||| ((a <<< fieldPos c) &&& m)

/-- The index of the lowest 1 bit, or 32 (R149). -/
def lowestOne (a : Word) : Word := BitVec.ofNat 32 (trailingZeros 32 a.toNat)

/-- `sadd` (R149). -/
def execSadd (f : S3) (s : State) : Host.Outcome State Fault Refusal := uniBin 0x80000000 f (elAdd 32 false) s

/-- `ssub` (R149). -/
def execSsub (f : S3) (s : State) : Host.Outcome State Fault Refusal := uniBin 0x81000000 f (elSub 32 false) s

/-- `smul` (R149). -/
def execSmul (f : S3) (s : State) : Host.Outcome State Fault Refusal := uniBin 0x82000000 f (elMul 32 false) s

/-- `smulh` (R149). -/
def execSmulh (f : S3) (s : State) : Host.Outcome State Fault Refusal := uniBin 0x83000000 f (elMulh 32 false) s

/-- `sand` (R149). -/
def execSand (f : S3) (s : State) : Host.Outcome State Fault Refusal := uniBin 0x84000000 f (elAnd 32 false) s

/-- `sor` (R149). -/
def execSor (f : S3) (s : State) : Host.Outcome State Fault Refusal := uniBin 0x85000000 f (elOr 32 false) s

/-- `sxor` (R149). -/
def execSxor (f : S3) (s : State) : Host.Outcome State Fault Refusal := uniBin 0x86000000 f (elXor 32 false) s

/-- `sshl` (R149). -/
def execSshl (f : S3) (s : State) : Host.Outcome State Fault Refusal := uniBin 0x87000000 f (elShl 32 false) s

/-- `sshr` (R149). -/
def execSshr (f : S3) (s : State) : Host.Outcome State Fault Refusal := uniBin 0x88000000 f (elShr 32 false) s

/-- `ssra` (R149). -/
def execSsra (f : S3) (s : State) : Host.Outcome State Fault Refusal := uniBin 0x89000000 f (elSra 32 false) s

/-- `smin` (R149). -/
def execSmin (f : S3) (s : State) : Host.Outcome State Fault Refusal := uniBin 0x8A000000 f (elMin 32 false) s

/-- `smax` (R149). -/
def execSmax (f : S3) (s : State) : Host.Outcome State Fault Refusal := uniBin 0x8B000000 f (elMax 32 false) s

/-- `sminu` (R149). -/
def execSminu (f : S3) (s : State) : Host.Outcome State Fault Refusal := uniBin 0x8C000000 f (elMinu 32 false) s

/-- `smaxu` (R149). -/
def execSmaxu (f : S3) (s : State) : Host.Outcome State Fault Refusal := uniBin 0x8D000000 f (elMaxu 32 false) s

/-- `scmp` (R151). -/
def execScmp (f : SCmp) (s : State) : Host.Outcome State Fault Refusal := uniTest 0x90000000 f sccCmp s

/-- `scmpu` (R151). -/
def execScmpu (f : SCmp) (s : State) : Host.Outcome State Fault Refusal := uniTest 0x91000000 f sccCmpu s

/-- `stest` (R149). -/
def execStest (f : SCmp) (s : State) : Host.Outcome State Fault Refusal := uniTest 0x92000000 f sccTest s

/-- `sbfe` (R153). -/
def execSbfe (f : S3) (s : State) : Host.Outcome State Fault Refusal := uniBin 0x93000000 f bitExtract s

/-- `spopc` (R149). -/
def execSpopc (f : SUn) (s : State) : Host.Outcome State Fault Refusal := uniUn 0x95000000 f (fun a => BitVec.ofNat 32 (popCount 32 a.toNat)) s

/-- `sffs` (R149). -/
def execSffs (f : SUn) (s : State) : Host.Outcome State Fault Refusal := uniUn 0x96000000 f lowestOne s

/-- `smov` (R149). -/
def execSmov (f : SMov) (s : State) : Host.Outcome State Fault Refusal :=
  issue (fun _ _ => uniSpec (packSMov 0x8E000000 f) f.st (f.sd.toNat :: ssrcNamed f.src) (ssrcReads f.src)
      [sName f.sd.toNat])
    (fun e => e.upd (e.g.setSreg f.sd.toNat (e.v.ssrc f.src))) s

/-- `ssel` (R149): SCC.Z selects. -/
def execSsel (f : S3) (s : State) : Host.Outcome State Fault Refusal :=
  issue (fun _ _ => uniSpec (packS3 0x8F000000 f) f.st (f.sd.toNat :: f.sa.toNat :: ssrcNamed f.src)
      (sName f.sa.toNat :: ssrcReads f.src ++ [sccName]) [sName f.sd.toNat])
    (fun e => e.upd (e.g.setSreg f.sd.toNat
      (if sccZ e.v.scc then e.v.sreg f.sa.toNat else e.v.ssrc f.src))) s

/-- `sbfi` (R153): sd is a source too. -/
def execSbfi (f : S3) (s : State) : Host.Outcome State Fault Refusal :=
  issue (fun _ _ => uniSpec (packS3 0x94000000 f) f.st (f.sd.toNat :: f.sa.toNat :: ssrcNamed f.src)
      (sName f.sa.toNat :: ssrcReads f.src ++ [sName f.sd.toNat]) [sName f.sd.toNat])
    (fun e => e.upd (e.g.setSreg f.sd.toNat
      (bitInsert (e.v.sreg f.sd.toNat) (e.v.sreg f.sa.toNat) (e.v.ssrc f.src)))) s

/-- `saddc` (R152). -/
def execSaddc (f : S3) (s : State) : Host.Outcome State Fault Refusal :=
  issue (fun _ _ => uniSpec (packS3 0x97000000 f) f.st (f.sd.toNat :: f.sa.toNat :: ssrcNamed f.src)
      (sName f.sa.toNat :: ssrcReads f.src ++ [sccName]) [sName f.sd.toNat, sccName])
    (fun e =>
      let a := e.v.sreg f.sa.toNat
      let b := e.v.ssrc f.src
      e.upd { e.g.setSreg f.sd.toNat (BitVec.ofNat 32 (addcSum e.v.scc a b)) with
              scc := sccSet e.g.scc (sccZ (sccAddc e.v.scc a b)) (sccN (sccAddc e.v.scc a b))
                (sccC (sccAddc e.v.scc a b)) (sccV (sccAddc e.v.scc a b)) }) s

end Sys2Proof.Machine
end

