-- ==== Sys2Proof/Machine/StatusRegs.lean ====
section
/-! DEFINITION. The status registers: the unprivileged and the privileged view, what a read gives and latches, what
a write does, and the instructions that read and write them (R78, R154 to R157, R252 to R254, R377 to R380,
R407, R413). -/
namespace Sys2Proof.Machine

/-- TIME in nanoseconds (R156, R413): set at a clock value and counted from there at 1.3 GHz. -/
def State.time (s : State) : Nat := s.pkg.timeBase + (s.clock - s.pkg.timeClock) * 10 / 13

/-- The low 32 bits of a number. -/
def loNat (x : Nat) : Word := BitVec.ofNat 32 x

/-- Bits 63 to 32 of a number. -/
def hiNat (x : Nat) : Word := BitVec.ofNat 32 (x / 2 ^ 32)

/-- The code of a role (R155). -/
def Role.code : Role → Nat
  | .vector => 0
  | .dealer => 1
  | .matrix => 2

/-- The steps a burst has not completed (R254): its last one completes with the instruction. -/
def MatOp.remain (m : MatOp) : Nat :=
  match m.kind with
  | .mmas _ n => max 1 (n - m.done)
  | _ => 0

/-- The accumulator of a burst. -/
def MatOp.burst (m : MatOp) : Option Nat :=
  match m.kind with
  | .mmas d _ => some d
  | _ => none

/-- MPROG (R254). -/
def Group.mprog (g : Group) : Word :=
  match g.matq.find? fun m => m.burst.isSome with
  | none => 0
  | some m => BitVec.ofNat 32 (2 ^ 31 + (m.burst.getD 0) * 2 ^ 17 + m.remain)

/-- HWDOG (R379, R383): the cycles of the handler so far, saturating. -/
def State.hwdogOf (s : State) (g : Group) : Nat :=
  match g.handler with
  | some h => min (2 ^ 20) (g.hwdog + (s.clock - h.entered))
  | none => g.hwdog

/-- A flag as a number. -/
def b2n (b : Bool) (n : Nat) : Nat := if b then 2 ^ n else 0

/-- CKPT as it reads (R380). -/
def Ckpt.word (c : Ckpt) : Word :=
  BitVec.ofNat 32 (b2n c.go 31 + b2n c.quiesce 30 + b2n c.restore 29 + c.stage)

/-- HEALTH as it reads (R380, R407). -/
def Pkg.health (k : Pkg) : Word :=
  BitVec.ofNat 32 (b2n k.replace 31 + b2n k.throt 30 + min 255 k.ce * 2 ^ 8 + min 255 k.retired)

/-- The point an island runs at: the higher-numbered of REQ and its throttled point (R408). -/
def State.island (s : State) (n : Nat) : Island :=
  (tabGet s.pkg.islands n).getD { req := 0, point := 0, throttle := 0 }

/-- A window of the expander table (R446). -/
def State.window (s : State) (n : Nat) : Nat × Nat := (tabGet s.pkg.windows n).getD (0, 0)

/-- The bits of granted or loaded key slots (R379). -/
def slotBits (l : List Nat) : Nat := l.foldl (fun a n => a ||| 2 ^ n) 0

/-- The value of a status register of the privileged view (R379, R380); 0 where the index is not listed. -/
def readPriv (s : State) (gid : Nat) (g : Group) (x : Part) (i : Nat) : Word :=
  match i with
  | 0x100 => loWord x.tba
  | 0x101 => hiWord x.tba
  | 0x102 => BitVec.ofNat 32 (512 * recordOf gid)
  | 0x103 => BitVec.ofNat 32 (s.hwdogOf g)
  | 0x104 => g.ovtab.setWidth 32
  | 0x105 => x.ovdef.setWidth 32
  | 0x106 => BitVec.ofNat 32 (b2n x.safeEn 31 + x.safeLimit.toNat)
  | 0x107 => BitVec.ofNat 32 (b2n x.sen 0)
  | 0x108 => loWord x.ptroot
  | 0x109 => hiWord x.ptroot
  | 0x10A => BitVec.ofNat 32 (b2n x.migEn 31 + x.migHalf.toNat * 2 ^ 16 + x.migThresh.toNat)
  | 0x10B => loWord x.fq
  | 0x10C => hiWord x.fq
  | 0x10D => loWord x.rfq
  | 0x10E => hiWord x.rfq
  | 0x10F => loWord x.kq
  | 0x110 => hiWord x.kq
  | 0x111 => loWord x.seatBase
  | 0x112 => hiWord x.seatBase
  | 0x113 => x.seatCap
  | 0x114 => x.domain.setWidth 32
  | 0x115 => x.kitty.setWidth 32
  | 0x116 => loWord x.saveArea
  | 0x117 => hiWord x.saveArea
  | 0x118 => x.saveSlot
  | 0x119 => loNat s.time
  | 0x11A => g.readLatch
  | 0x120 => x.clust.setWidth 32
  | 0x121 => (x.clust >>> 32).setWidth 32
  | 0x122 => loWord x.region
  | 0x123 => hiWord x.region
  | 0x124 => BitVec.ofNat 32 (slotBits (x.slots.map (·.1)) % 2 ^ 16)
  | 0x125 => x.keystat.setWidth 32
  | 0x126 => x.eth.setWidth 32
  | 0x127 => BitVec.ofNat 32 (g.part + x.changes.toNat * 2 ^ 4)
  | 0x130 => s.pkg.readyC.setWidth 32
  | 0x131 => (s.pkg.readyC >>> 32).setWidth 32
  | 0x132 => loWord s.pkg.readyS
  | 0x133 => hiWord s.pkg.readyS
  | 0x134 => s.pkg.readyM
  | 0x135 => s.pkg.readyX.setWidth 32
  | 0x136 => s.pkg.health
  | 0x140 => x.ckpt.word
  | _ =>
    if 0x160 ≤ i ∧ i < 0x170 then
      (if i % 2 = 0 then loWord else hiWord) (x.ethTx.getD ((i - 0x160) / 2) 0)
    else if 0x170 ≤ i ∧ i < 0x180 then
      (if i % 2 = 0 then loWord else hiWord) (x.ethRx.getD ((i - 0x170) / 2) 0)
    else if 0x180 ≤ i ∧ i < 0x1A0 then
      let w := s.window ((i - 0x180) / 4)
      (if i % 2 = 0 then loNat else hiNat) ((if i / 2 % 2 = 0 then w.1 else w.2) % 2 ^ 52)
    else if 0x200 ≤ i ∧ i < 0x280 then
      BitVec.ofNat 32 ((s.island (i - 0x200)).req * 2 ^ 3 + (s.island (i - 0x200)).point)
    else 0

/-- The value of a status register of the unprivileged view (R155). -/
def readUnpriv (s : State) (gid : Nat) (g : Group) (i : Nat) : Word :=
  match i with
  | 0x00 => 64
  | 0x01 => BitVec.ofNat 32 g.width
  | 0x02 => BitVec.ofNat 32 g.index
  | 0x03 => g.teamX
  | 0x04 => g.teamY
  | 0x05 => g.teamZ
  | 0x06 => g.gridId
  | 0x07 => BitVec.ofNat 32 g.depth
  | 0x08 => loWord g.seat
  | 0x09 => hiWord g.seat
  | 0x0A => BitVec.ofNat 32 (coreOf gid % 16)
  | 0x0B => BitVec.ofNat 32 (clusterOf (coreOf gid) % 12)
  | 0x0C => BitVec.ofNat 32 (dieOf (coreOf gid))
  | 0x0D => BitVec.ofNat 32 s.pkg.number
  | 0x0E => BitVec.ofNat 32 g.role.code
  | 0x0F => BitVec.ofNat 32 g.part
  | 0x10 => g.modeWord
  | 0x11 => g.flags.setWidth 32
  | 0x12 => g.scc.setWidth 32
  | 0x13 => loNat s.clock
  | 0x14 => g.readLatch
  | 0x15 => loNat s.time
  | 0x16 => g.readLatch
  | 0x17 => g.sig
  | 0x18 => g.msig
  | 0x19 => g.lscale
  | 0x1A => g.ovf.setWidth 32
  | 0x1B => g.cntWord
  | 0x1C => g.mprog
  | 0x1D => g.amaxSel.setWidth 32
  | 0x1E => loWord g.data
  | 0x1F => hiWord g.data
  | 0x20 => g.tcause
  | 0x21 => loWord g.tpc
  | 0x22 => hiWord g.tpc
  | 0x23 => loWord g.tval
  | 0x24 => hiWord g.tval
  | 0x25 => loWord g.tmask
  | 0x26 => hiWord g.tmask
  | _ => 0

/-- What a read of CLOCK lo latches (R156). -/
def Group.latchClock (g : Group) (s : State) : Group := { g with readLatch := hiNat s.clock }

/-- What a read of TIME lo or TIMESET lo latches (R156, R413). -/
def Group.latchTime (g : Group) (s : State) : Group := { g with readLatch := hiNat s.time }

/-- What a read of a status register changes: the latch of R156. -/
def Group.afterRead (g : Group) (s : State) (i : Nat) : Group :=
  if i = 0x13 then g.latchClock s
  else if i = 0x15 ∨ i = 0x119 then g.latchTime s
  else g

/-- Whether an access waits for the group's earlier matrix instructions (R253). -/
def Group.flagsWait (g : Group) (i : Nat) : Bool := (i = 0x11 || i = 0x1A) && g.matq ≠ []

/-- A write of a register that both `wrsr` and `pswr` may write (R154, R157, R378): reserved bits are ignored (R2). -/
def Group.writeUnpriv (g : Group) (i : Nat) (v : Word) : Group :=
  match i with
  | 0x10 => { g with mode := v.setWidth 25 }
  | 0x11 => { g with flags := v.setWidth 7 }
  | 0x12 => { g with scc := v.setWidth 5 }
  | 0x17 => { g with sig := v }
  | 0x18 => { g with msig := v }
  | 0x19 => { g with lscale := v }
  | 0x1A => { g with ovf := v.setWidth 3 }
  | _ => g

/-- A 64-bit register with its low or high half replaced. -/
def halfSet (old : DWord) (hi : Bool) (v : Word) : DWord :=
  if hi then pairWord (loWord old) v else pairWord v (hiWord old)

/-- Whether a word is a legal overflow table: [31:10] are 0 and no 2-bit code is 11 (R174). -/
def ovLegal (v : Word) : Bool := v.toNat < 2 ^ 10 && [0, 1, 2, 3, 4].all fun k => bits v.toNat (2 * k) 2 != 3

/-- The registers of a partition that `pswr` writes (R379, R380); reserved bits are ignored (R2). Of three values R379 says only
what they are, a TBA that is a multiple of 64 KiB, a SEATBASE that is a multiple of 128 and a SEATCAP from 0 to 2^22, and gives
no effect of another value: the model drops bits 15:0 of TBA lo and bits 6:0 of SEATBASE lo, and takes a larger SEATCAP as 2^22,
which is its own choice (log entry 110). -/
def Part.write (x : Part) (i : Nat) (v : Word) : Part :=
  match i with
  | 0x100 => { x with tba := halfSet x.tba false (v &&& 0xFFFF0000) }
  | 0x101 => { x with tba := halfSet x.tba true v }
  | 0x105 => { x with ovdef := v.setWidth 10 }
  | 0x106 => { x with safeEn := v.getLsbD 31, safeLimit := v.setWidth 11 }
  | 0x108 => { x with ptroot := halfSet x.ptroot false (v &&& 0xFFFF0001) }
  | 0x109 => { x with ptroot := halfSet x.ptroot true (v &&& 0x000FFFFF) }
  | 0x10A => { x with migEn := v.getLsbD 31, migHalf := (v >>> 16).setWidth 5, migThresh := v.setWidth 8 }
  | 0x10B => { x with fq := halfSet x.fq false v }
  | 0x10C => { x with fq := halfSet x.fq true v }
  | 0x10D => { x with rfq := halfSet x.rfq false v }
  | 0x10E => { x with rfq := halfSet x.rfq true v }
  | 0x10F => { x with kq := halfSet x.kq false v }
  | 0x110 => { x with kq := halfSet x.kq true v }
  | 0x111 => { x with seatBase := halfSet x.seatBase false (v &&& 0xFFFFFF80) }
  | 0x112 => { x with seatBase := halfSet x.seatBase true v }
  | 0x113 => { x with seatCap := if 2 ^ 22 < v.toNat then 2 ^ 22 else v }
  | 0x116 => { x with saveArea := halfSet x.saveArea false v }
  | 0x117 => { x with saveArea := halfSet x.saveArea true v }
  | 0x118 => { x with saveSlot := v }
  | _ =>
    if 0x160 ≤ i ∧ i < 0x170 then
      { x with ethTx := listSet x.ethTx ((i - 0x160) / 2) (halfSet (x.ethTx.getD ((i - 0x160) / 2) 0) (i % 2 = 1) v) }
    else if 0x170 ≤ i ∧ i < 0x180 then
      { x with ethRx := listSet x.ethRx ((i - 0x170) / 2) (halfSet (x.ethRx.getD ((i - 0x170) / 2) 0) (i % 2 = 1) v) }
    else x

/-- A write of TIMESET lo with the high word in the group's write latch: TIME never goes back (R413). -/
def State.setTime (s : State) (v : Nat) : State :=
  if v < s.time then s else { s with pkg := { s.pkg with timeBase := v, timeClock := s.clock } }

/-- A write of CKPT (R409, R410): GO starts a checkpoint or, with RESTORE, a restore, unless one is running. -/
def Part.writeCkpt (x : Part) (v : Word) : Part :=
  if x.ckpt.go then x
  else if v.getLsbD 31 then
    { x with ckpt := { go := true, quiesce := v.getLsbD 30, restore := v.getLsbD 29, stage := 1 } }
  else { x with ckpt := { x.ckpt with quiesce := v.getLsbD 30, restore := v.getLsbD 29 } }

/-- Any write of HEALTH clears CE (R380). -/
def State.clearCe (s : State) : State := { s with pkg := { s.pkg with ce := 0 } }

/-- `rdsr` (R154 to R156). -/
def execRdsr (f : Rdsr) (s : State) : Host.Outcome State Fault Refusal :=
  issue (fun _ _ => { words := [packRdsr 0xB0000000 f], stall := f.st, ill := srReserved f.idx, sNamed := [f.sd.toNat],
                      reads := if f.idx = 0x12 then [sccName] else [], writes := [(sName f.sd.toNat, 2)] })
    (fun e =>
      if e.g.flagsWait f.idx.toNat then e.waitRoom .matrixIdle
      else e.upd ((e.g.afterRead e.s f.idx.toNat).setSreg f.sd.toNat (readUnpriv e.s e.gid e.v f.idx.toNat))) s

/-- `wrsr` (R154, R157): a read-only index takes trap 0x02 whatever PRIV is. -/
def execWrsr (f : Wrsr) (s : State) : Host.Outcome State Fault Refusal :=
  issue (fun _ _ => { words := [packWrsr 0xB1000000 f], stall := f.st, ill := srReserved f.idx, readOnly := srReadOnly f.idx,
                      sNamed := [f.sa.toNat], reads := [sName f.sa.toNat], writes := if f.idx = 0x12 then [(sccName, 0)] else [] })
    (fun e =>
      if e.g.flagsWait f.idx.toNat then e.waitRoom .matrixIdle
      else e.upd (e.g.writeUnpriv f.idx.toNat (e.v.sreg f.sa.toNat))) s

/-- `psrd` (R378, R379). -/
def execPsrd (f : Psrd) (s : State) : Host.Outcome State Fault Refusal :=
  issue (fun _ _ => { words := [packPsrd 0xF0000000 f], stall := f.st, ill := !psrListed f.idx, privileged := true,
                      sNamed := [f.sd.toNat], reads := if f.idx = 0x12 then [sccName] else [],
                      writes := [(sName f.sd.toNat, 0)] })
    (fun e =>
      match e.part with
      | none => e.illegal 0x01
      | some x =>
        if e.g.flagsWait f.idx.toNat then e.waitRoom .matrixIdle
        else e.upd ((e.g.afterRead e.s f.idx.toNat).setSreg f.sd.toNat
          (if f.idx.toNat < 0x100 then readUnpriv e.s e.gid e.v f.idx.toNat else readPriv e.s e.gid e.v x f.idx.toNat))) s

/-- `pswr` (R378, R379, R413). OVDEF takes a legal table only (R174). A write of PTROOT waits until every translation of the partition is gone (R358). -/
def execPswr (f : Pswr) (s : State) : Host.Outcome State Fault Refusal :=
  issue (fun _ _ => { words := [packPswr 0xF0200000 f], stall := f.st, ill := !psrListed f.idx || !psrWritable f.idx,
                      privileged := true, sNamed := [f.sa.toNat], reads := [sName f.sa.toNat],
                      writes := if f.idx = 0x12 then [(sccName, 0)] else [] })
    (fun e =>
      let i := f.idx.toNat
      let v := e.v.sreg f.sa.toNat
      if e.g.flagsWait i then e.waitRoom .matrixIdle
      else if i < 0x100 then e.upd (e.g.writeUnpriv i v)
      else if i = 0x105 && !ovLegal v then .trap 0x01 (v.setWidth 64) none
      else if i = 0x11A then e.upd { e.g with timeWrite := v }
      else if i = 0x119 then .ok (e.s.setTime (v.toNat + e.g.timeWrite.toNat * 2 ^ 32))
      else if i = 0x136 then .ok e.s.clearCe
      else if i = 0x140 then .ok (e.s.modPart e.g.part fun x => x.writeCkpt v)
      else if i = 0x108 ∨ i = 0x109 then
        if e.marker then .ok e.s else .block (e.s.modPart e.g.part fun x => x.write i v) .partWrite true
      else .ok (e.s.modPart e.g.part fun x => x.write i v)) s

/-- The issuing group's latch after a read of CLOCK lo, as a step of its own (R156). -/
def execClockLoRead (s : State) : Host.Outcome State Fault Refusal :=
  match s.cur with
  | some gid => .next (s.modGroup gid fun g => g.latchClock s)
  | none => .next s

/-- The issuing group's latch after a read of TIME lo, as a step of its own (R156). -/
def execTimeLoRead (s : State) : Host.Outcome State Fault Refusal :=
  match s.cur with
  | some gid => .next (s.modGroup gid fun g => g.latchTime s)
  | none => .next s

/-- The issuing group's latch after a read of TIMESET lo, as a step of its own (R413). -/
def execTimesetLoRead (s : State) : Host.Outcome State Fault Refusal :=
  match s.cur with
  | some gid => .next (s.modGroup gid fun g => g.latchTime s)
  | none => .next s

/-- The issuing group's write latch after a write of TIMESET hi, as a step of its own (R413). -/
def execTimesetHiWrite (v : Word) (s : State) : Host.Outcome State Fault Refusal :=
  match s.cur with
  | some gid => .next (s.modGroup gid fun g => { g with timeWrite := v })
  | none => .next s

/-- TIME after a write of TIMESET lo by the issuing group, as a step of its own (R413). -/
def execTimesetLoWrite (v : Word) (s : State) : Host.Outcome State Fault Refusal :=
  match s.cur.bind s.group with
  | some g => .next (s.setTime (v.toNat + g.timeWrite.toNat * 2 ^ 32))
  | none => .next s

/-- The issuing split's wait for its group's matrix instructions before it reads or writes FLAGS or OVF, as a step of
its own (R253). -/
def execFlagsOvfAccess (s : State) : Host.Outcome State Fault Refusal :=
  match s.cur with
  | some gid => .next (s.modGroup gid fun g =>
      match g.issuing with
      | some q => if g.matq = [] then g else g.setIssuing { q with st := .waiting .matrixIdle }
      | none => g)
  | none => .next s

/-- CE after a write of HEALTH, as a step of its own (R380). -/
def execHealthCeClear (s : State) : Host.Outcome State Fault Refusal := .next s.clearCe

end Sys2Proof.Machine
end

