-- ==== Sys2Proof/Machine/Image.lean ====
section
/-! DEFINITION. Context images: the live masks of a save, the group section of R392, and the kitty image of a swapped
group, which follows its context (R128, R337, R388). -/
namespace Sys2Proof.Machine

/-- A size rounded up to a multiple of 128 (R391). -/
def roundLine (n : Nat) : Nat := (n + 127) / 128 * 128

/-- The registers that a save keeps, as bit masks by class, and whether it is whole (R387, R388, R392). -/
structure LiveMask where
  whole : Bool
  v : Nat
  s : Nat
  t : Nat
  a : Nat
  p : Nat
deriving DecidableEq, Repr

/-- The masks of a whole save: every allocated register (R388). -/
def Group.allLive (g : Group) : LiveMask :=
  { whole := true, v := 2 ^ g.vAlloc - 1, s := 2 ^ 64 - 1, t := 2 ^ g.tAlloc - 1, a := 2 ^ g.aAlloc - 1, p := 2 ^ 8 - 1 }

/-- The union of two saves' masks (R388). -/
def LiveMask.join (x y : LiveMask) : LiveMask :=
  { whole := x.whole || y.whole, v := x.v ||| y.v, s := x.s ||| y.s, t := x.t ||| y.t, a := x.a ||| y.a, p := x.p ||| y.p }

/-- No register. -/
def LiveMask.empty : LiveMask := { whole := false, v := 0, s := 0, t := 0, a := 0, p := 0 }

/-- The masks of a live-set entry (R387): its first 28 bytes. -/
def LiveMask.ofEntry (b : List Byte) : LiveMask :=
  let f := fun lo n => ofBytes ((b.drop lo).take n)
  { whole := false, v := f 0 16, s := f 0x10 8, t := f 0x18 2, a := f 0x1A 1, p := f 0x1B 1 }

/-- A group with only the registers of the masks; the others hold 0 (R392). -/
def Group.keepLive (g : Group) (m : LiveMask) : Group :=
  { g with vregs := g.vregs.filter fun e => bit m.v (e.1 / 64), sregs := g.sregs.filter fun e => bit m.s e.1,
           preds := g.preds.filter fun e => bit m.p e.1, tiles := g.tiles.filter fun e => bit m.t (e.1 / 512),
           accs := g.accs.filter fun e => bit m.a (e.1 / 512), amax := g.amax.filter fun e => bit m.a e.1 }

/-- Bytes of an image whose encoding the part chooses (R391). -/
def freeBytes (k n : Nat) : List Byte := (upFrom k n).map Config.imageByte

/-- The bytes of a group's hold entries in an image: register, pending count and a mark, 8 bytes each (R392). -/
def holdBytes (hs : List HoldEntry) : List Byte :=
  (List.range 8).flatMap fun i =>
    match hs[i]? with
    | some h => toBytes 4 (h.reg + 2 ^ 8) ++ toBytes 4 h.pending
    | none => toBytes 8 0

/-- A split in an image: mask, code address, state, slot and join stack in 64 bytes (R392). -/
def Split.image (base : DWord) (k : Nat) (p : Split) : List Byte :=
  toBytes 8 p.mask.toNat ++ toBytes 4 (codeAddr base p.pc).toNat ++ freeBytes k 4 ++ toBytes 4 p.slot ++ toBytes 12 0
    ++ (List.range 4).flatMap fun i => toBytes 8 (p.joins.getD i 0).toNat

/-- The status words of an image at 0x1C0 (R392). -/
def Group.statusImage (g : Group) (k : Nat) : List Byte :=
  toBytes 4 g.modeWord.toNat ++ toBytes 4 g.scc.toNat ++ toBytes 4 g.flags.toNat ++ toBytes 4 g.ovf.toNat
    ++ toBytes 4 g.lscale.toNat ++ toBytes 4 g.sig.toNat ++ toBytes 4 g.msig.toNat ++ toBytes 4 g.ovtab.toNat
    ++ toBytes 4 g.mprog.toNat ++ toBytes 4 g.readLatch.toNat ++ [0, 1, 2, 3, 4, 5].flatMap (fun k => toBytes 1 (g.cnt.get k))
    ++ toBytes 2 0 ++ freeBytes k 16

/-- The size of a group section with `recs` engine records (R391, R392). -/
def Group.sectionSize (g : Group) (recs : Nat) : Nat :=
  roundLine (0x400 + 4 * g.width * g.vAlloc + 512 * g.tAlloc + 2052 * g.aAlloc + 64 * recs)

/-- The first 0x400 bytes of a group section (R392), before its registers. -/
def Group.sectionHead (g : Group) (m : LiveMask) (recs hwdog k : Nat) : List Byte :=
  toBytes 4 (g.sectionSize recs) ++ toBytes 4 (b2n m.whole 0 + b2n g.handler.isSome 1) ++ toBytes 16 m.v ++ toBytes 2 m.t
    ++ toBytes 2 m.a ++ toBytes 4 recs ++ toBytes 8 g.seat.toNat ++ toBytes 16 0 ++ toBytes 4 hwdog ++ toBytes 68 0
    ++ ((List.range 64).flatMap fun n => toBytes 4 (g.frameReg n).toNat)
    ++ ((List.range 8).flatMap fun n => toBytes 8 (g.pred n &&& maskBelow g.width).toNat)
    ++ g.statusImage k
    ++ ((List.range 4).flatMap fun i =>
      match g.splits.find? fun p => p.slot = i with
      | some p => p.image g.text (k + 16 + 4 * i)
      | none => toBytes 64 0)
    ++ holdBytes g.holds ++ (if g.handler.isSome then (g.frameCopy.drop 0x140).take 0x30 else toBytes 0x30 0) ++ toBytes 144 0

/-- A group section (R392): its head, vector registers, tiles, accumulators each with its amax, and engine records, whose
64 bytes each the part encodes. -/
def Group.section_ (g : Group) (m : LiveMask) (recs hwdog k : Nat) : List Byte :=
  let body := g.sectionHead m recs hwdog k
    ++ ((List.range g.vAlloc).flatMap fun n => (List.range g.width).flatMap fun i => toBytes 4 (g.vreg n i).toNat)
    ++ ((List.range g.tAlloc).flatMap fun t => (List.range 512).map fun b => g.tileByte t 0 b)
    ++ ((List.range g.aAlloc).flatMap fun a =>
      ((List.range 256).flatMap fun w => toBytes 4 (g.acc a false w).toNat)
        ++ ((List.range 256).flatMap fun w => toBytes 4 (g.acc a true w).toNat) ++ toBytes 4 (smapGet 0 g.amax a).toNat)
    ++ freeBytes (k + 32) (64 * recs)
  body ++ toBytes (g.sectionSize recs - body.length) 0

/-- The free bytes that a group section uses. -/
def sectionFree (recs : Nat) : Nat := 32 + 64 * recs

/-- The kitty image of a swapped group rewritten from its context (R128): it follows completions and deliveries. -/
def State.syncImage (s : State) (gid : Nat) : State :=
  match s.group gid with
  | none => s
  | some g =>
    match g.residency, s.part g.part with
    | .swapped, some x =>
      { s with serial := s.serial + sectionFree 0 }.setSbytes (spadKey (coreOf gid) (kittyBase x + g.kitty))
        (g.section_ g.allLive 0 (s.hwdogOf g) s.serial)
    | _, _ => s

end Sys2Proof.Machine
end

