-- ==== Sys2Proof/Machine/Seats.lean ====
section
/-! DEFINITION. Register deliveries to a seat holder (R337, R338), in place or in a saved image (R391, R392), and seat-table
entries as groups move. -/
namespace Sys2Proof.Machine

/-- The addresses of the group sections of a saved team's image, by group index (R391, R392): each section's size
stands in its first word. -/
def State.sections (s : State) (image : Nat) (t : Team) : List (Nat × Nat) :=
  ((List.range t.groups.length).foldl (fun (a : List (Nat × Nat) × Nat) i =>
    match t.groups[i]? with
    | some (Member.saved _) => ((i, a.2) :: a.1, a.2 + s.memNat a.2 4)
    | _ => a) ([], image + 0x280 + roundLine t.winLen)).1

/-- The member of a saved team that holds a seat. -/
def Team.savedSeat (t : Team) (seat : DWord) : Option (Nat × Group) :=
  (List.range t.groups.length).findSome? fun i =>
    match t.groups[i]? with
    | some (Member.saved g) => if g.seat = seat then some (i, g) else none
    | _ => none

/-- What a delivery does to a group's hold entries (R338): one fewer pending for the register, an entry at 0 is
freed. -/
def Group.deliverHold (g : Group) (r : Nat) : Group :=
  { g with holds := (g.holds.map fun h => if h.reg = r then { h with pending := h.pending - 1 } else h).filter fun h =>
      0 < h.pending }

/-- The seat name of a seat address, and its register (R333). -/
def seatNameOf (addr : DWord) : DWord := addr &&& 0xFFFFFFFFFFFF

/-- The register of a seat address (R333). -/
def seatReg (addr : DWord) : Nat := bits addr.toNat 48 7

/-- How a delivery ends (R337): applied, with whether lanes beyond the group were dropped; to be applied later; dropped
with a cause. -/
inductive DeliveryEnd where
  | applied (s : State) (width : Bool)
  | waits
  | dropped (cause : Nat)

/-- The lanes of a register of a group written, those at or above G dropped. -/
def Group.deliverReg (g : Group) (r : Nat) (lanes : DWord) (v : List Word) : Group :=
  g.setLanes r (fun i => v.getD i 0) (lanesOf (lanes &&& maskBelow g.width))

/-- The lanes of a register in a group section of an image written, and its DELIV bit set (R392). -/
def State.deliverImage (s : State) (sec : Nat) (g : Group) (r : Nat) (lanes : DWord) (v : List Word) : State :=
  let s1 := (lanesOf (lanes &&& maskBelow g.width)).foldl (fun (t : State) i =>
    t.writeMem (sec + 0x400 + 4 * g.width * r + 4 * i) (toBytes 4 (v.getD i 0).toNat)) s
  s1.writeMem (sec + 0x28 + r / 8) [s1.byte (sec + 0x28 + r / 8) ||| BitVec.ofNat 8 (2 ^ (r % 8))]

/-- A register delivery applied by the state of the target's seat entry (R336, R337, R341). A pair delivery writes
both registers before it counts. -/
def State.applyDelivery (s : State) (part : Nat) (addr : DWord) (lanes : DWord) (v0 : List Word) (v1 : Option (List Word)) :
    DeliveryEnd :=
  let r := seatReg addr
  let n := if v1.isSome then 2 else 1
  match s.seatHolder part (seatNameOf addr) with
  | .stale => .dropped 0
  | .moving => .waits
  | .live gid =>
    match s.group gid with
    | none => .dropped 0
    | some g =>
      if g.vAlloc < r + n then .dropped 9
      else
        let g1 := g.deliverReg r lanes v0
        let g2 := match v1 with
          | some w => g1.deliverReg (r + 1) lanes w
          | none => g1
        let ws := (vNames r n).map fun x => (x, lanes &&& maskBelow g.width)
        .applied (((s.noteSeat part addr).setGroup gid (((g2.clobber ws).cleanse ws).deliverHold r)).syncImage gid)
          (lanes &&& ~~~(maskBelow g.width) ≠ 0)
  | .saved image =>
    match s.teamOfImage image with
    | none => .dropped 0
    | some t =>
      match t.2.savedSeat (seatNameOf addr) with
      | none => .dropped 0
      | some m =>
        if m.2.vAlloc < r + n then .dropped 9
        else
          match tabGet (s.sections image t.2) m.1 with
          | none => .dropped 0
          | some sec =>
            let s1 := (s.noteSeat part addr).deliverImage sec m.2 r lanes v0
            let s2 := match v1 with
              | some w => s1.deliverImage sec m.2 (r + 1) lanes w
              | none => s1
            let g1 := m.2.deliverHold r
            let s3 := s2.writeMem (sec + 0x300) (holdBytes g1.holds)
            .applied (s3.modTeam t.1 fun u => { u with groups := listSet u.groups m.1 (.saved g1) })
              (lanes &&& ~~~(maskBelow m.2.width) ≠ 0)

end Sys2Proof.Machine
end

