-- ==== Sys2Proof/Machine/Copies.lean ====
section
/-! DEFINITION. Copies: their records and checks (R286 to R289, R299, R300), what each moves (R290 to R294), their
engine's chunks, completion and retirement (R295, R296), status and cancellation (R297, R298), and pots (R303 to R305). -/
namespace Sys2Proof.Machine

/-- ESZ of `cpyt` in bits (R291). -/
def Copy.eszBits (c : Copy) : Nat :=
  match bits c.arg.toNat 0 3 with
  | 0 => 8 | 1 => 16 | 2 => 32 | 3 => 4 | _ => 2

/-- TRANS of `cpyt` (R291). -/
def Copy.trans (c : Copy) : Bool := c.arg.getLsbD 5
/-- SPARSE of `cpyt` (R291). -/
def Copy.sparse (c : Copy) : Bool := c.arg.getLsbD 6
/-- PLANE of `cpyt` (R291). -/
def Copy.plane (c : Copy) : Bool := c.arg.getLsbD 7
/-- k of a `cpyt` to planes (R291). -/
def Copy.planeK (c : Copy) : Nat := bits c.arg.toNat 8 3 + 2
/-- V of R291: the elements of a source row. -/
def Copy.rowElems (c : Copy) : Nat := 8 * c.rowBytes / c.eszBits
/-- The elements of a source row once it is expanded. -/
def Copy.wideElems (c : Copy) : Nat := if c.sparse then 2 * c.rowElems else c.rowElems
/-- QFMT of `cpyq` (R293). -/
def Copy.qfmt (c : Copy) : Nat := bits c.arg.toNat 0 3
/-- k of a `cpyq` to BFPk (R293). -/
def Copy.qk (c : Copy) : Nat := bits c.arg.toNat 3 3 + 2

/-- The destination format of `cpyq` (R293). -/
def Copy.qformat (c : Copy) : Fmt :=
  match c.qfmt with
  | 1 => bf16 | 2 => fp16 | 3 => e4m3 | _ => e5m2

/-- The bytes of a unit of a `cpyq` destination row, and the values it packs (R247, R293). -/
def Copy.qunit (c : Copy) : Nat × Nat := if c.qfmt = 5 then (2 * c.qk + 1, 16) else (c.qformat.w / 8, 1)

/-- The destination rows of a copy; a plane of one source row counts as one (R291). -/
def Copy.dstRows (c : Copy) : Nat :=
  match c.kind with
  | .cpyt => if c.plane then c.rows * c.planeK else if c.trans then c.wideElems else c.rows
  | _ => c.rows

/-- The bytes of a destination row. -/
def Copy.dstRowBytes (c : Copy) : Nat :=
  match c.kind with
  | .cpyt =>
    if c.plane then (if c.rowBytes = 0 then 0 else 16)
    else if c.trans then c.rows * c.eszBits / 8 else c.wideElems * c.eszBits / 8
  | .cpyq => c.rowBytes / 4 / c.qunit.2 * c.qunit.1
  | _ => c.rowBytes

/-- The bytes that a copy writes. -/
def Copy.total (c : Copy) : Nat := c.dstRows * c.dstRowBytes

/-- The bytes of a source row, metadata included (R291). -/
def Copy.srcRowBytes (c : Copy) : Nat :=
  if c.kind = .cpyt && c.sparse then c.rowBytes + c.rowElems / 4 else c.rowBytes

/-- The start of a source row (R286). -/
def Copy.srcAt (c : Copy) (j : Nat) : Nat := (c.src.toNat + 16 * c.spitch * j) % 2 ^ 64

/-- The start of a destination row (R286, R291). -/
def Copy.dstAt (c : Copy) (d : Nat) : Nat :=
  if c.kind = .cpyt && c.plane then
    let p := d % c.planeK
    (c.dst.toNat + 16 * c.dpitch * (p / 2) + 32 * (d / c.planeK) + 16 * (p % 2)) % 2 ^ 64
  else (c.dst.toNat + 16 * c.dpitch * d) % 2 ^ 64

/-- The length of the destination span (R287): from DST to the last byte written. -/
def Copy.dstSpan (c : Copy) : Nat :=
  if c.total = 0 then 0
  else if c.kind = .cpyt && c.plane then
    (List.range c.planeK).foldl (fun m p =>
      max m (16 * c.dpitch * (p / 2) + 32 * (c.rows - 1) + 16 * (p % 2) + 16)) 0
  else 16 * c.dpitch * (c.dstRows - 1) + c.dstRowBytes

/-- The length of the source span (R287). -/
def Copy.srcSpan (c : Copy) : Nat := if c.srcRowBytes = 0 then 0 else 16 * c.spitch * (c.rows - 1) + c.srcRowBytes

/-- The reserved codes and refused combinations of ARG and of the record (R287 step 1, R290 to R294). -/
def Copy.argBad (c : Copy) (low12 : Bool) : Bool :=
  let a := c.arg.toNat
  low12 || (match c.kind with
    | .cpy => a ≠ 0
    | .cpyx => a ≠ 0 || c.potOn || c.rowBytes % 16 ≠ 0
    | .cpyg => false
    | .cpys => false
    | .cpyt =>
      2 ^ 11 ≤ a || bits a 3 2 ≠ 0 || 5 ≤ bits a 0 3 || bits a 8 3 = 7 ||
        (if c.plane then c.trans || c.sparse || bits a 0 3 ≠ 0 || 16 < c.rows || c.rowBytes ≠ 16 * c.planeK
         else 8 * c.rowBytes % c.eszBits ≠ 0 || (c.sparse && c.rowElems % 4 ≠ 0)
           || (c.trans && c.rows * c.eszBits % 8 ≠ 0))
    | .cpyq =>
      bits a 24 8 = 0xFF || bits a 8 16 ≠ 0 || c.qfmt = 0 || 5 < c.qfmt || bits a 3 3 = 7
        || (c.qfmt ≠ 5 && bits a 3 3 ≠ 0) || c.rowBytes % (if c.qfmt = 5 then 64 else 4) ≠ 0)

/-- Whether a copy reads an index list (R292). -/
def CopyKind.indexed : CopyKind → Bool
  | .cpyg => true
  | .cpys => true
  | _ => false

/-- The cause of an address outside the regions of a copy (R287 step 2); none when it is in one. -/
def regionBad (priv : Bool) (addr : Nat) : Option Nat :=
  match bits addr 60 4 with
  | 0 => if bits addr 57 3 ≠ 0 || (priv && bit addr 56 && bits addr 52 4 ≠ 0) then some 0x0B else none
  | 1 => if bits addr 32 28 ≠ 0 then some 0x0B else none
  | 2 => if bits addr 28 32 ≠ 0 then some 0x0B else none
  | 3 => some 0x02
  | _ => some 0x0B

/-- A span of `n` bytes at a flat address under the scratchpad's bounds (R258): the space and the first byte it
locks, none for global memory without a virtual address; an error beyond the bounds. -/
def State.spanOf (s : State) (ag : Agent) (addr n : Nat) : Except Unit (Option (LockSpace × Nat)) :=
  if bits addr 60 4 = 0 then
    .ok (if ag.priv && bit addr 56 then none else some (.virt ag.part, bits addr 0 57))
  else
    match checkAddr s ag addr n 1 .read with
    | .ok (.spad k) => .ok (some (.spad (k / 2 ^ 19), k % 2 ^ 19))
    | _ => .error ()

/-- A range-lock entry to be registered: space, first byte, length, and whether it is a write entry. -/
structure Span where
  space : LockSpace
  lo : Nat
  len : Nat
  write : Bool
deriving DecidableEq, Repr

/-- The flat address of a byte of the team's own window (R257). -/
def windowAddr (off : Nat) : Nat := 0x1000000000000000 + off

/-- The spans of a copy that its checks cover: address, length, and how it is locked, if at all (R287, R299). -/
def Copy.spanList (c : Copy) : List (Nat × Nat × Option Bool) :=
  let src := if c.kind = .cpyg then [] else [(c.src.toNat, c.srcSpan, some false)]
  let dst := match c.kind with
    | .cpys => []
    | .cpyx => [(c.dst.toNat, 128, none)]
    | _ => [(c.dst.toNat, c.dstSpan, some true)]
  let idx := if c.kind.indexed then [(windowAddr c.arg.toNat, 4 * c.rows, some false)] else []
  let pot := if c.potOn then [(windowAddr c.pot, 16, none)] else []
  src ++ dst ++ idx ++ pot

/-- A copy as an agent (R274). -/
def State.copyAgent (s : State) (c : Copy) : Agent :=
  match s.group c.gid with
  | some g => { part := g.part, priv := c.priv, core := coreOf c.gid, team := g.team, cached := true }
  | none => { part := 16, priv := false, core := coreOf c.gid, team := none }

/-- The entries that a list of spans registers; an empty span registers none. -/
def State.spansOf (s : State) (ag : Agent) (sp : List (Nat × Nat × Option Bool)) : List Span :=
  sp.filterMap fun x =>
    match x.2.2 with
    | none => none
    | some w =>
      if x.2.1 = 0 then none
      else
        match s.spanOf ag x.1 x.2.1 with
        | .ok (some q) => some { space := q.1, lo := q.2, len := x.2.1, write := w }
        | _ => none

/-- The free entries of a cluster's range-lock table (R299). -/
def State.freeLocks (s : State) (cluster : Nat) : Nat := 32 - (s.locks.filter fun l => l.2.cluster = cluster).length

/-- Range-lock entries registered, with their numbers (R299, R300). -/
def State.takeLocks (s : State) (cluster : Nat) : List Span → State × List Nat
  | [] => (s, [])
  | x :: r =>
    let id := s.nextId
    let q := State.takeLocks
      { s with nextId := id + 1,
               locks := smapInsert s.locks id
                 { cluster := cluster, space := x.space, lo := x.lo, hi := x.lo + x.len, write := x.write } } cluster r
    (q.1, id :: q.2)

/-- The copy that an instruction describes: its record read at issue (R286). -/
def Env.copyOf (e : Env) (kind : CopyKind) (r : Nat) (mask : BitVec 8) : Copy :=
  let w := fun n => e.v.sreg (8 * r + n)
  { gid := e.gid, tag := 0, kind := kind, priv := e.g.priv,
    words := match e.p.held with
      | some h => h.words
      | none => [],
    src := pairWord (w 0) (w 1), dst := pairWord (w 2) (w 3),
    rows := bits (w 4).toNat 20 12 + 1, rowBytes := bits (w 4).toNat 0 20,
    dpitch := bits (w 5).toNat 16 16, spitch := bits (w 5).toNat 0 16, arg := w 6,
    pot := 16 * bits (w 7).toNat 16 16, potOn := (w 7).getLsbD 15, ovtab := e.g.ovtab,
    mask := mask, ring := bits (w 7).toNat 12 3, slot := 0,
    st := if kind = .cpyx then .reserve else .moving,
    pos := 0, moved := 0, lines := [], walked := [], qoff := 0, qbase := 0, qsize := 0, qpot := 0, qseat := 0, header := false,
    retiredAt := 0, cancelled := false, cause := 0, badAddr := 0, dof := false, locks := [], waitsLocks := false, wants := [] }

/-- The trap of a copy's record and addresses (R287), if any. -/
def Env.copyTrap (e : Env) (c : Copy) (low12 : Bool) : Option (Nat × Nat) :=
  let ag := e.g.agent e.gid
  let al := if c.kind = .cpyx then 128 else 16
  if c.argBad low12 then some (0x01, 0)
  else
    match [c.src.toNat, c.dst.toNat].findSome? fun a => (regionBad ag.priv a).map fun x => (x, a) with
    | some t => some t
    | none =>
      if c.src.toNat % 16 ≠ 0 then some (0x09, c.src.toNat)
      else if c.dst.toNat % al ≠ 0 then some (0x09, c.dst.toNat)
      else if c.kind.indexed && c.arg.toNat % 4 ≠ 0 then some (0x09, windowAddr c.arg.toNat)
      else
        match c.spanList.find? fun x => 0 < x.2.1 && (match e.s.spanOf ag x.1 x.2.1 with
            | .ok _ => false
            | .error _ => true) with
        | some x => some (0x08, x.1)
        | none => none

/-- The claimed slot that a copy with a consumer mask takes over (R287 step 5); none is trap 0x16. -/
def Env.copySlot (e : Env) (c : Copy) : Option Nat :=
  match (e.team.bind fun t => t.ring c.ring) with
  | none => none
  | some r => if r.producer = some e.g.index && c.mask.toNat < 2 ^ r.pos.length then r.claimed else none

/-- The copies of a core's engine that have not retired (R289). -/
def State.engineLoad (s : State) (core : Nat) : Nat :=
  (s.copies.filter fun e => coreOf e.2.gid = core && e.2.st ≠ .retired).length

/-- The issue of a copy (R287, R289), after which the group's earlier accesses come before every one of its own (R281). -/
def Env.startCopy (e : Env) (c : Copy) (low12 : Bool) (sd : Nat) : Res :=
  match e.copyTrap c low12 with
  | some (0x01, _) => e.illegal 0x01
  | some (t, a) => .trap t (BitVec.ofNat 64 a) none
  | none =>
    let slot := if c.mask = 0 then some 0 else e.copySlot c
    match slot with
    | none => e.illegal 0x16
    | some sl =>
      let core := coreOf e.gid
      let spans := e.s.spansOf (e.g.agent e.gid) c.spanList
      if e.full 4 then e.waitRoom (.counterRoom 4)
      else if 32 ≤ e.s.engineLoad core then e.waitRoom (.copyRoom 1)
      else if e.s.freeLocks (clusterOf core) < spans.length then e.waitRoom (.locks spans.length)
      else
        let tag := (e.g.tag + 1) % 2 ^ 16
        let q := (e.settled e.s).takeLocks (clusterOf core) spans
        let s1 := if c.mask = 0 then q.1 else
          match e.g.team with
          | some tid => q.1.modRing tid c.ring fun r => { r with claimed := none }
          | none => q.1
        let s2 := { s1 with nextId := s1.nextId + 1,
                            copies := smapInsert s1.copies s1.nextId { c with tag := tag, slot := sl, locks := q.2 } }
        .ok (s2.modGroup e.gid fun g =>
          ({ g with tag := tag }.setSreg sd (BitVec.ofNat 32 tag)).countUp 4)

/-- What the issue logic knows of a copy word (R288). -/
def copySpec (words : List Nat) (st : BitVec 2) (px : Option MatPx) (named : List Nat) (rs : List RegName) (ws : List Nat) : Spec :=
  { words := words, stall := st, role := some .dealer, sNamed := named,
    misuse := (px.map fun p => p.imm != 0).getD false, access := true, reads := rs, writes := ws.map fun r => (sName r, 0) }

/-- A copy word of `Cpy`'s fields. -/
def copyWord (base : Nat) (f : Cpy) (kind : CopyKind) (s : State) : Host.Outcome State Fault Refusal :=
  issue (fun _ _ => copySpec (matWords f.px (packCpy base f)) f.st f.px (upFrom (8 * f.cr.toNat) 8 ++ [f.sd.toNat])
      (sNames (8 * f.cr.toNat) 8) [f.sd.toNat])
    (fun e => e.startCopy (e.copyOf kind f.cr.toNat f.mask) (bits (e.v.sreg (8 * f.cr.toNat + 7)).toNat 0 12 ≠ 0) f.sd.toNat) s

/-- `cpy` (R290). -/
def execCpy (f : Cpy) (s : State) : Host.Outcome State Fault Refusal := copyWord 0xD8000000 f .cpy s

/-- `cpyt` (R291). -/
def execCpyt (f : Cpy) (s : State) : Host.Outcome State Fault Refusal := copyWord 0xD8400000 f .cpyt s

/-- `cpyg` (R292). -/
def execCpyg (f : Cpy) (s : State) : Host.Outcome State Fault Refusal := copyWord 0xD8800000 f .cpyg s

/-- `cpys` (R292). -/
def execCpys (f : Cpy) (s : State) : Host.Outcome State Fault Refusal := copyWord 0xD8C00000 f .cpys s

/-- `cpyq` (R293). -/
def execCpyq (f : Cpy) (s : State) : Host.Outcome State Fault Refusal := copyWord 0xD9000000 f .cpyq s

/-- `cpyx` (R294). -/
def execCpyx (f : Cpyx) (s : State) : Host.Outcome State Fault Refusal :=
  issue (fun _ _ => copySpec (matWords f.px (packCpyx 0xD9400000 f)) f.st f.px (upFrom (8 * f.cr.toNat) 8 ++ [f.sd.toNat])
      (sNames (8 * f.cr.toNat) 8) [f.sd.toNat])
    (fun e => e.startCopy (e.copyOf .cpyx f.cr.toNat 0) (bits (e.v.sreg (8 * f.cr.toNat + 7)).toNat 0 12 ≠ 0) f.sd.toNat) s

/-- Why an engine's access stops: a cause with an address, or a wait for a busy entry (R296, R354). -/
inductive EngStop where
  | fail (cause addr : Nat)
  | busy
deriving DecidableEq, Repr

/-- An engine's access checked (R292, R296): every failing region has cause 0x0B, and every kind of page that no
thread mapped has the cause of R351. -/
def State.engineCheck (s : State) (ag : Agent) (addr n : Nat) (acc : Acc) : Except EngStop Place :=
  if (regionBad ag.priv addr).isSome then .error (.fail 0x0B addr)
  else
    match checkAddr s ag addr n 1 acc with
    | .ok p => .ok p
    | .bad _ c => .error (.fail c addr)
    | .wait _ => .error .busy

/-- Bytes read by an engine, line by line; poisoned ones stop it with cause 0x10 (R296). -/
def State.engineRead (s : State) (ag : Agent) : Nat → Nat → Nat → Except EngStop (List Byte)
  | 0, _, _ => .ok []
  | fuel + 1, addr, n =>
    if n = 0 then .ok []
    else
      let k := min n (128 - addr % 128)
      match s.engineCheck ag addr k .read with
      | .error x => .error x
      | .ok p =>
        if s.poisonAt p k ≠ [] then .error (.fail 0x10 addr)
        else
          match s.engineRead ag fuel ((addr + k) % 2 ^ 64) (n - k) with
          | .error x => .error x
          | .ok r => .ok (s.readAt p k ++ r)

/-- The lines, by flat address, of ranges of bytes that an engine reads. -/
def flatLines (rs : List (Nat × Nat)) : List Nat :=
  (rs.flatMap fun r => if r.2 = 0 then [] else
    (upFrom (r.1 / 128) ((r.1 + r.2 - 1) / 128 + 1 - r.1 / 128)).map fun l => 128 * l % 2 ^ 64).eraseDups

/-- The places of those lines. -/
def State.enginePlaces (s : State) (ag : Agent) (rs : List (Nat × Nat)) : List Place :=
  (flatLines rs).filterMap fun a =>
    match s.engineCheck ag a 1 .read with
    | .ok p => some p
    | .error _ => none

/-- Translations of an engine installed, and one request of each place counted (R353, R366). -/
def State.touchPlaces (s : State) (ag : Agent) (ps : List Place) : State :=
  ps.foldl (fun t p => (t.install ag.part ag.core p).countPage ag.part ag.core p) s

/-- What the reads of an engine leave. -/
def State.engineTouch (s : State) (ag : Agent) (rs : List (Nat × Nat)) : State := s.touchPlaces ag (s.enginePlaces ag rs)

/-- The bytes that hold element `i` of source row `j`: their address and their number. -/
def Copy.elemRange (c : Copy) (j i : Nat) : Nat × Nat := ((c.srcAt j + i * c.eszBits / 8) % 2 ^ 64, max 1 (c.eszBits / 8))

/-- Element `i` of the packed elements of source row `j` (R291 step 1). -/
def Copy.element (c : Copy) (s : State) (j i : Nat) : Except EngStop Nat :=
  let z := c.eszBits
  match s.engineRead (s.copyAgent c) 2 (c.elemRange j i).1 (c.elemRange j i).2 with
  | .error x => .error x
  | .ok bs => .ok (bits (ofBytes bs) (i * z % 8) z)

/-- Element `i` of source row `j` once it is expanded (R291 step 2). -/
def Copy.wideElement (c : Copy) (s : State) (j i : Nat) : Except EngStop Nat :=
  if !c.sparse then c.element s j i
  else
    let g := i / 4
    let at_ := (c.srcAt j + c.rowBytes + g / 2) % 2 ^ 64
    match s.engineRead (s.copyAgent c) 2 at_ 1 with
    | .error x => .error x
    | .ok bs =>
      let nib := bits (ofBytes bs) (4 * (g % 2)) 4
      if nib / 4 ≤ nib % 4 then .error (.fail 0x01 at_)
      else if i % 4 = nib % 4 then c.element s j (2 * g)
      else if i % 4 = nib / 4 then c.element s j (2 * g + 1)
      else .ok 0

/-- The bytes that `wideElement` reads. -/
def Copy.wideRanges (c : Copy) (s : State) (j i : Nat) : List (Nat × Nat) :=
  if !c.sparse then [c.elemRange j i]
  else
    let g := i / 4
    let at_ := (c.srcAt j + c.rowBytes + g / 2) % 2 ^ 64
    match s.engineRead (s.copyAgent c) 2 at_ 1 with
    | .error _ => []
    | .ok bs =>
      let nib := bits (ofBytes bs) (4 * (g % 2)) 4
      (at_, 1) :: (if i % 4 = nib % 4 then [c.elemRange j (2 * g)]
        else if i % 4 = nib / 4 then [c.elemRange j (2 * g + 1)] else [])

/-- The elements, `z` bits each, that `len` bytes from `col` of a row hold a part of. -/
def elemsFrom (z col len : Nat) : List Nat := upFrom (col * 8 / z) ((col * 8 + len * 8 - 1) / z + 1 - col * 8 / z)

/-- Consecutive elements, `z` bits each, packed into the bytes from `col` of a row whose element `i` is `f i`. -/
def packFrom (z : Nat) (f : Nat → Except EngStop Nat) (col len : Nat) : Except EngStop (List Byte) :=
  let first := col * 8 / z
  let last := (col * 8 + len * 8 - 1) / z
  match (upFrom first (last + 1 - first)).mapM f with
  | .error x => .error x
  | .ok vs =>
    .ok ((toBytes ((last + 1 - first) * z / 8 + 1) (vs.foldr (fun v a => v + 2 ^ z * a) 0)).drop (col - first * z / 8) |>.take len)

/-- The value of an FP32 code times the scale of a `cpyq` (R293). -/
def Copy.scaled (c : Copy) (x : Nat) : FVal := (fp32.val x).scale (127 - (bits c.arg.toNat 24 8 : Int))

/-- The rounding of a `cpyq` (R293). -/
def Copy.qrnd (c : Copy) : Rnd := if c.arg.getLsbD 6 then .rz else .rne

/-- The bytes of one unit of a `cpyq` destination row, and whether it overflowed (R247, R293). -/
def Copy.quantize (c : Copy) (xs : List Nat) : List Byte × Bool :=
  if c.qfmt = 5 then
    let b := bfpPack c.qk (bits c.ovtab.toNat 8 2) (fun _ => c.qrnd) (xs.map c.scaled)
    let m := b.2.foldr (fun x a => (x.1 % 2 ^ c.qk).toNat + 2 ^ c.qk * a) 0
    (toBytes (2 * c.qk) m ++ [BitVec.ofNat 8 b.1], b.2.any fun x => x.2 &&& flagOF != 0)
  else
    let fm := c.qformat
    let r := fm.narrowV c.qrnd (c.arg.getLsbD 7) (ovEntry c.ovtab fm) (xs.headD 0) (c.scaled (xs.headD 0))
    (toBytes (fm.w / 8) r.code, r.flags &&& flagOF != 0)

/-- The bytes from `col` of destination row `d` of a `cpyq`, and whether one overflowed. -/
def Copy.quantRow (c : Copy) (s : State) (d col len : Nat) : Except EngStop (List Byte × Bool) :=
  let u := c.qunit
  let first := col / u.1
  let n := (col + len - 1) / u.1 + 1 - first
  match s.engineRead (s.copyAgent c) 32 ((c.srcAt d + 4 * u.2 * first) % 2 ^ 64) (4 * u.2 * n) with
  | .error x => .error x
  | .ok bs =>
    let qs := (List.range n).map fun i =>
      c.quantize ((List.range u.2).map fun k => ofBytes ((bs.drop (4 * (u.2 * i + k))).take 4))
    .ok (((qs.flatMap (·.1)).drop (col - first * u.1)).take len, qs.any (·.2))

/-- Entry `j` of a copy's index list (R292). -/
def Copy.indexAt (c : Copy) (s : State) (j : Nat) : Except EngStop Nat :=
  match s.engineRead (s.copyAgent c) 2 (windowAddr (c.arg.toNat + 4 * j)) 4 with
  | .error x => .error x
  | .ok bs => .ok (ofBytes bs)

/-- Where destination row `d` of a copy begins, from the index list where it has one; the position in a `cpyx` queue
depends on the byte (R292, R294). -/
def Copy.rowDst (c : Copy) (s : State) (d col : Nat) : Except EngStop Nat :=
  match c.kind with
  | .cpys =>
    match c.indexAt s d with
    | .error x => .error x
    | .ok x => .ok ((c.dst.toNat + 16 * c.dpitch * x + col) % 2 ^ 64)
  | .cpyx => .ok ((c.qbase.toNat + (c.qoff + d * c.rowBytes + col) % c.qsize) % 2 ^ 64)
  | _ => .ok ((c.dstAt d + col) % 2 ^ 64)

/-- The bytes from `col` of destination row `d`, and whether a conversion overflowed (R290 to R294). -/
def Copy.rowData (c : Copy) (s : State) (d col len : Nat) : Except EngStop (List Byte × Bool) :=
  let plain := fun (a : Nat) => (s.engineRead (s.copyAgent c) 3 ((a + col) % 2 ^ 64) len).map fun bs => (bs, false)
  match c.kind with
  | .cpyg =>
    match c.indexAt s d with
    | .error x => .error x
    | .ok x => plain ((c.src.toNat + 16 * c.spitch * x) % 2 ^ 64)
  | .cpyt =>
    if c.plane then
      let k := c.planeK
      (packFrom 1 (fun i =>
        (s.engineRead (s.copyAgent c) 3 ((c.srcAt (d / k) + (i * k + d % k) / 8) % 2 ^ 64) 1).map fun bs =>
          bits (ofBytes bs) ((i * k + d % k) % 8) 1) col len).map fun bs => (bs, false)
    else if c.trans then
      (packFrom c.eszBits (fun j => c.wideElement s j d) col len).map fun bs => (bs, false)
    else (packFrom c.eszBits (fun i => c.wideElement s d i) col len).map fun bs => (bs, false)
  | .cpyq => c.quantRow s d col len
  | _ => plain (c.srcAt d)

/-- The bytes that are read for those of a destination row (R290 to R294); an index list is in the window, which has no
translation. -/
def Copy.ranges (c : Copy) (s : State) (d col len : Nat) : List (Nat × Nat) :=
  match c.kind with
  | .cpyg =>
    match c.indexAt s d with
    | .error _ => []
    | .ok x => [((c.src.toNat + 16 * c.spitch * x + col) % 2 ^ 64, len)]
  | .cpyt =>
    if c.plane then
      let k := c.planeK
      (elemsFrom 1 col len).map fun i => ((c.srcAt (d / k) + (i * k + d % k) / 8) % 2 ^ 64, 1)
    else if c.trans then (elemsFrom c.eszBits col len).flatMap fun j => c.wideRanges s j d
    else (elemsFrom c.eszBits col len).flatMap fun i => c.wideRanges s d i
  | .cpyq =>
    let u := c.qunit
    let first := col / u.1
    [((c.srcAt d + 4 * u.2 * first) % 2 ^ 64, 4 * u.2 * ((col + len - 1) / u.1 + 1 - first))]
  | _ => [((c.srcAt d + col) % 2 ^ 64, len)]

/-- A copy's entry replaced. -/
def State.setCopy (s : State) (cid : Nat) (c : Copy) : State := { s with copies := smapInsert s.copies cid c }

/-- A copy stopped with a cause (R296). -/
def State.stopCopy (s : State) (cid : Nat) (c : Copy) (cause addr : Nat) : State :=
  (s.failCopyPot c).setCopy cid { c with cause := cause, badAddr := BitVec.ofNat 64 addr, lines := [], walked := [] }

/-- A chunk's bytes credited once its writes are performed (R295, R294). -/
def State.creditChunk (s : State) (cid : Nat) (c : Copy) : State :=
  let n := c.pos - c.moved
  let c1 := { c with moved := c.pos, lines := [], walked := [] }
  if c.kind = .cpyx then
    match s.group c.gid with
    | none => s
    | some g =>
      match s.applyArrival g.part { seat := c.qseat, off := 0, data := [], pot := some c.qpot, credit := n } false with
      | .applied t => t.setCopy cid c1
      | .waits => s
      | .stale => s.stopCopy cid c1 0x0D c.qseat.toNat
      | .beyond => s.setCopy cid { c1 with cause := 0x08, badAddr := BitVec.ofNat 64 (windowAddr c.qpot) }
  else
    match s.copyPot c with
    | some k => (s.creditPot k n).setCopy cid c1
    | none => s.setCopy cid c1

/-- The next chunk of a copy written (R295): at most 128 bytes within a destination line. -/
def State.moveChunk (s : State) (cid : Nat) (c : Copy) : State :=
  let d := c.pos / c.dstRowBytes
  let col := c.pos % c.dstRowBytes
  match c.rowDst s d col with
  | .error .busy => s
  | .error (.fail x a) => s.stopCopy cid c x a
  | .ok addr =>
    let len := min (c.dstRowBytes - col) (128 - addr % 128)
    match c.rowData s d col len with
    | .error .busy => s
    | .error (.fail x a) => s.stopCopy cid c x a
    | .ok (bs, ovr) =>
      match s.engineCheck (s.copyAgent c) addr len .write with
      | .error .busy => s
      | .error (.fail x a) => s.stopCopy cid c x a
      | .ok p =>
        let ag := s.copyAgent c
        let from_ := c.ranges s d col len
        let s1 := ((s.engineTouch ag from_).install ag.part ag.core p).countPage ag.part ag.core p
        (s1.strongPut p bs).setCopy cid
          { c with pos := c.pos + len, lines := p.lines len,
                   walked := (p.walked ++ (s.enginePlaces ag from_).flatMap Place.walked).eraseDups, dof := c.dof || ovr }

/-- Whether a checkpoint or restore (R409), or a save that has taken its group (R308), stops a copy at its chunk boundary. -/
def State.copyQuiet (s : State) (c : Copy) : Bool :=
  match s.group c.gid with
  | some g => s.quiet g.part || s.taking g
  | none => false

/-- Whether a copy has started: it has begun to write, or has reserved its queue space (R294, R295). -/
def Copy.started (c : Copy) : Bool :=
  match c.st with
  | .reserve => false
  | .moving => c.kind = .cpyx || 0 < c.pos || c.total = 0
  | _ => true

/-- Whether a copy may start: the earlier copies of its core's engine have (R119, R295). -/
def State.copyMayStart (s : State) (cid : Nat) (c : Copy) : Bool :=
  s.copies.all fun e => cid ≤ e.1 || coreOf e.2.gid ≠ coreOf c.gid || e.2.started || e.2.cause ≠ 0 || e.2.cancelled
    || (s.group e.2.gid).isNone

/-- Whether a copy may work: its group is live, it has its locks, and it has not stopped (R308). -/
def State.copyRuns (s : State) (cid : Nat) (c : Copy) : Bool :=
  (s.group c.gid).isSome && !c.waitsLocks && c.cause = 0 && !c.cancelled && (c.started || s.copyMayStart cid c)

/-- The retired copy of a list that retired first. -/
def firstRetired : List (Nat × Copy) → Option (Nat × Copy)
  | [] => none
  | e :: r =>
    match firstRetired r with
    | none => some e
    | some x => if x.2.retiredAt < e.2.retiredAt then some x else some e

/-- A copy of a group retires: c4 falls, and the engine keeps the status of the 32 most recently retired (R295, R297). -/
def State.retireCopy (s : State) (cid : Nat) (c : Copy) : State :=
  let s1 := ((s.setCopy cid { c with st := .retired, retiredAt := s.tick }).modGroup c.gid fun g => g.countDown 4).syncImage c.gid
  let old := s1.copies.filter fun e => e.2.gid = c.gid && e.2.st = .retired
  match (if 32 < old.length then firstRetired old else none) with
  | some e => { s1 with copies := smapErase s1.copies e.1 }
  | none => s1

/-- Whether a copy is complete: every chunk written is credited, and all are or it has stopped (R295, R296, R298). -/
def Copy.ended (c : Copy) : Bool :=
  match c.st with
  | .moving => c.moved = c.pos && (c.cause ≠ 0 || c.cancelled || c.pos = c.total)
  | .reserve => c.cause ≠ 0 || c.cancelled
  | .space => c.cause ≠ 0 || c.cancelled
  | _ => false

/-- A copy completes (R295): locks released, OVF.DOF set, the slot published or the copy retired. -/
def State.completeCopy (s : State) (cid : Nat) (c : Copy) : State :=
  match s.group c.gid with
  | none => s
  | some g =>
    let s1 := ((s.unlock c.locks).modGroup c.gid fun h => if c.dof then { h with ovf := h.ovf ||| 4 } else h).syncImage c.gid
    let c1 := { c with locks := [] }
    match g.team with
    | some tid =>
      if c.mask = 0 then s1.retireCopy cid c1
      else (s1.publishSlot tid c.ring c.slot c.mask).setCopy cid { c1 with st := .published }
    | none => s1.retireCopy cid c1

/-- A copy whose last chunk has been credited completes (R295). -/
def State.settleCopy (s : State) (cid : Nat) : State :=
  match tabGet s.copies cid with
  | some c => if c.ended then s.completeCopy cid c else s
  | none => s

/-- COPY_CHUNK (R295): the engine writes the next chunk of a copy, or credits the one whose writes are performed. -/
def execCopyChunk (cid : Nat) (s : State) : Host.Outcome State Fault Refusal :=
  .next (match tabGet s.copies cid with
    | none => s
    | some c =>
      if c.st ≠ .moving || (s.group c.gid).isNone then s
      else if c.moved < c.pos then (if s.writePerformed cid c.lines then (s.creditChunk cid c).settleCopy cid else s)
      else if c.pos < c.total && s.copyRuns cid c && !s.copyQuiet c then s.moveChunk cid c
      else s)

/-- COPY_COMPLETE (R295): a copy without chunks, or one that has stopped, completes. -/
def execCopyComplete (cid : Nat) (s : State) : Host.Outcome State Fault Refusal :=
  .next (match tabGet s.copies cid with
    | none => s
    | some c => if c.cause ≠ 0 || c.cancelled || s.copyMayStart cid c then s.settleCopy cid else s)

/-- COPY_RETIRE (R295): a published copy retires once every position of its mask has taken or passed the slot. -/
def execCopyRetire (cid : Nat) (s : State) : Host.Outcome State Fault Refusal :=
  .next (match tabGet s.copies cid with
    | none => s
    | some c =>
      match (s.group c.gid).bind (·.team) with
      | none => s
      | some tid => if c.st = .published && s.slotTaken tid c.ring c.slot c.mask then s.retireCopy cid c else s)

/-- Whether a queue header admits a reservation of `len` bytes (R294). -/
def queueOk (qbase qsize qpot len : Nat) : Bool :=
  [7, 8, 9, 10, 11, 12, 13, 14, 15, 16, 17, 18, 19, 20, 21, 22, 23, 24, 25, 26, 27, 28, 29, 30, 31].any
      (fun k => qsize = 2 ^ k) && len ≤ qsize && qpot % 16 = 0 && qbase % 128 = 0

/-- What an atomic of an engine at a place of a duplicated page meets first (R369): the page's collapse, begun or in progress. -/
def State.toCollapse (s : State) (p : Place) : Option State :=
  match p with
  | .spad _ => none
  | .phys pa _ _ _ _ =>
    match (tabGet s.pages (pa / 2 ^ 16)).filter fun r => r.replicas ≠ [] with
    | none => none
    | some r => some (if r.collapsing then s else s.collapse (pa / 2 ^ 16) r)

/-- CPYX_RESERVE (R294): the fetch-add of WRITE at the header's home, and the header read there. -/
def execCpyxReserve (cid : Nat) (s : State) : Host.Outcome State Fault Refusal :=
  .next (match tabGet s.copies cid with
    | none => s
    | some c =>
      if c.st ≠ .reserve || !s.copyRuns cid c || s.copyQuiet c then s
      else
        let ag := s.copyAgent c
        match s.engineCheck ag c.dst.toNat 128 .atomic with
        | .error .busy => s
        | .error (.fail x a) => s.stopCopy cid c x a
        | .ok p =>
          if s.poisonAt p 32 ≠ [] then s.stopCopy cid c 0x10 c.dst.toNat
          else
            let h := s.readAt p 32
            let at_ := fun o n => ofBytes ((h.drop o).take n)
            match s.engineCheck ag (c.dst.toNat + 0x0C) 4 .atomic with
            | .error _ => s
            | .ok pw =>
              match s.toCollapse pw with
              | some t => t
              | none =>
              let s1 := ((s.install ag.part ag.core pw).countPage ag.part ag.core pw).strongPut pw (toBytes 4 (at_ 0x0C 4 + c.total))
              let c1 := { c with qoff := at_ 0x0C 4, qbase := BitVec.ofNat 64 (at_ 0 8), qsize := at_ 8 4, qpot := at_ 0x14 4,
                                 qseat := BitVec.ofNat 64 (at_ 0x18 8), header := true, st := .space }
              if !queueOk (at_ 0 8) (at_ 8 4) (at_ 0x14 4) c.total then s1.stopCopy cid c1 0x01 c.dst.toNat
              else if seatPkg c1.qseat ≠ s.pkg.number || s.seatHolder ag.part c1.qseat = .stale then
                s1.stopCopy cid c1 0x0D c1.qseat.toNat
              else s1.setCopy cid c1)

/-- CPYX_SPACE_GRANT (R294): the queue has room for a reservation. -/
def execCpyxSpaceGrant (cid : Nat) (s : State) : Host.Outcome State Fault Refusal :=
  .next (match tabGet s.copies cid with
    | none => s
    | some c =>
      if c.st ≠ .space || !s.copyRuns cid c || s.copyQuiet c then s
      else
        match s.engineRead (s.copyAgent c) 2 (c.dst.toNat + 0x10) 4 with
        | .error .busy => s
        | .error (.fail x a) => s.stopCopy cid c x a
        | .ok bs =>
          if (c.qoff + c.total + 2 ^ 32 - ofBytes bs) % 2 ^ 32 ≤ c.qsize then
            (s.engineTouch (s.copyAgent c) [(c.dst.toNat + 0x10, 4)]).setCopy cid { c with st := .moving }
          else s)

/-- The state code of a copy (R297). -/
def Copy.code (c : Copy) : Nat :=
  if c.cause ≠ 0 then 5
  else if c.cancelled then 4
  else
    match c.st with
    | .retired => 0
    | .published => 2
    | .space => 3
    | _ => 1

/-- The copy of a group with a tag: an outstanding one, or one of the last retired (R297). -/
def State.copyByTag (s : State) (gid tag : Nat) : Option (Nat × Copy) :=
  let mine := s.copies.filter fun e => e.2.gid = gid && e.2.tag = tag
  match mine.find? fun e => e.2.st ≠ .retired with
  | some e => some e
  | none => mine.getLast?

/-- `cstat` (R297). -/
def execCstat (f : CTag) (s : State) : Host.Outcome State Fault Refusal :=
  issue (fun _ _ => copySpec (matWords f.px (packCTag 0xD9800000 f)) f.st f.px (upFrom f.sd.toNat 4 ++ [f.sa.toNat])
      [sName f.sa.toNat] (upFrom f.sd.toNat 4))
    (fun e =>
      let t := (e.v.sreg f.sa.toNat).toNat
      match (if t < 2 ^ 16 then e.s.copyByTag e.gid t else none) with
      | none => e.upd (e.g.setSregs f.sd.toNat [6, 0, 0, 0])
      | some (_, c) =>
        e.upd (e.g.setSregs f.sd.toNat
          [BitVec.ofNat 32 (c.code + 2 ^ 8 * (if c.cause ≠ 0 then c.cause else 0)), BitVec.ofNat 32 c.pos,
           if c.cause ≠ 0 then loWord c.badAddr else 0, if c.cause ≠ 0 then hiWord c.badAddr else 0])) s

/-- `ccancel` (R298): a chunk that is written is still credited. -/
def execCcancel (f : CTag) (s : State) : Host.Outcome State Fault Refusal :=
  issue (fun _ _ => copySpec (matWords f.px (packCTag 0xD9C00000 f)) f.st f.px [f.sd.toNat, f.sa.toNat]
      [sName f.sa.toNat] [f.sd.toNat])
    (fun e =>
      match e.s.copyByTag e.gid (bits (e.v.sreg f.sa.toNat).toNat 0 16) with
      | none => e.upd (e.g.setSreg f.sd.toNat 6)
      | some (cid, c) =>
        if c.st ≠ .retired && (c.mask ≠ 0 || c.st = .published) then e.illegal 0x16
        else
          let s1 := e.s.modGroup e.gid fun g => g.setSreg f.sd.toNat (BitVec.ofNat 32 c.code)
          if c.code = 1 || c.code = 3 then
            .ok (((s1.failCopyPot c).unlock c.locks).setCopy cid { c with cancelled := true, locks := [] })
          else .ok s1) s

/-- The trap of a pot's offset (R304), if any. -/
def Env.potTrap (e : Env) (off : Nat) : Option Res :=
  let tv : DWord := BitVec.ofNat 64 (windowAddr off)
  if off % 16 ≠ 0 then some (.trap 0x09 tv none)
  else if ((e.team.map (·.winLen)).getD 0) < off + 16 then some (.trap 0x08 tv none)
  else none

/-- `potset` (R304). -/
def execPotset (f : SysAB) (s : State) : Host.Outcome State Fault Refusal :=
  issue (fun _ _ => { words := [packSysAB 0xE2000000 f], stall := f.st, access := true, sNamed := [f.sa.toNat, f.sb.toNat],
                      reads := [sName f.sa.toNat, sName f.sb.toNat] })
    (fun e =>
      let off := (e.v.sreg f.sa.toNat).toNat
      match e.potTrap off, e.team with
      | some r, _ => r
      | none, some t =>
        .ok (e.s.setSbytes (t.key off) (toBytes 4 0 ++ toBytes 4 (e.v.sreg f.sb.toNat).toNat ++ toBytes 4 0))
      | none, none => .ok e.s) s

/-- `potwait` and its arming form (R305): an acquire at team scope. -/
def execPotwait (f : Potwait) (s : State) : Host.Outcome State Fault Refusal :=
  issue (fun _ _ => { words := [packPotwait 0xE2200000 f], stall := f.st, sNamed := [f.sd.toNat, f.sa.toNat],
                      reads := [sName f.sa.toNat], writes := if f.arm then [] else [(sName f.sd.toNat, 0)] })
    (fun e =>
      let off := (e.v.sreg f.sa.toNat).toNat
      match e.potTrap off, e.team with
      | some r, _ => r
      | none, some t =>
        if f.arm then e.upd { e.g with armed := some (.pot off) }
        else if e.resumed || e.s.teamPotReached t off then
          let k := t.key off
          .ok ((e.s.modGroup e.gid fun g => g.setSreg f.sd.toNat
            (if (e.s.sbyte (k + 8)).getLsbD 0 then 0xFFFFFFFF else BitVec.ofNat 32 (ofBytes (e.s.sbytes k 4)))).synced e.gid)
        else .block e.s (.cond (.pot off)) false
      | none, none => .ok e.s) s

end Sys2Proof.Machine
end

