-- ==== Sys2Proof/Machine/Complete.lean ====
section
/-! DEFINITION. The completion of a group's loads, stores, atomics and special functions (R77, R216, R263, R311,
R356), and poisoned data (R396). -/
namespace Sys2Proof.Machine

/-- The values that an operation owes, written: a lane that another instruction has written since keeps either
value (R77). `k` numbers the free choices. -/
def Group.landDests (g : Group) (hit : List (RegName × DWord)) : Nat → List DestWord → Group
  | _, [] => g
  | k, d :: r =>
    let g1 := g.landDests hit (k + 1) r
    if hitLane hit d.reg d.lane && Config.pick k then g1
    else
      match d.reg.cls with
      | .vreg => g1.setVreg d.reg.num d.lane d.val
      | _ => g1.setSreg d.reg.num d.val

/-- An outstanding operation of a group completes (R263): its destinations are written, its flags merged, and its counter
falls. -/
def State.landOp (s : State) (gid id : Nat) : State :=
  match s.group gid with
  | none => s
  | some g =>
    match tabGet g.pend id with
    | none => s
    | some op =>
      let g1 := (g.landDests op.clobbered s.serial op.dests).countDown op.counter
      ({ s with serial := s.serial + op.dests.length }.setGroup gid
        { g1 with flags := g1.flags ||| op.flags, pend := smapErase g1.pend id }).syncImage gid

/-- The operation of a group, if it is of one of the kinds. -/
def State.pendOp (s : State) (gid id : Nat) (k : PendKind) : Option PendOp :=
  ((s.group gid).bind fun g => tabGet g.pend id).filter fun op => op.kind = k

/-- LOAD_COMPLETE (R263). -/
def execLoadComplete (gid id : Nat) (s : State) : Host.Outcome State Fault Refusal :=
  .next (if (s.pendOp gid id .load).isSome then s.landOp gid id else s)

/-- STORE_PERFORMED (R263, R356). -/
def execStorePerformed (gid id : Nat) (s : State) : Host.Outcome State Fault Refusal :=
  .next (match s.pendOp gid id .store with
    | some op => if s.writePerformed id op.lines then s.landOp gid id else s
    | none => s)

/-- ATOMIC_COMPLETE (R311, R356). -/
def execAtomicComplete (gid id : Nat) (s : State) : Host.Outcome State Fault Refusal :=
  .next (match s.pendOp gid id .atomic with
    | some op => if s.writePerformed id op.lines then s.landOp gid id else s
    | none => s)

/-- The split of a group that waits for an operation under FPXE (R216). -/
def Group.waitsFor (g : Group) (id : Nat) : Option Split :=
  match g.handler with
  | some h => if h.split.st = .waiting (.opDone id) then some h.split else none
  | none => g.splits.find? fun p => p.st == .waiting (.opDone id)

/-- SFU_COMPLETE (R216): the destination and the flags, or, under FPXE, the trap 0x11 of an instruction that raised an enabled
exception, with no effect of it. -/
def execSfuComplete (gid id : Nat) (s : State) : Host.Outcome State Fault Refusal :=
  .next (match s.pendOp gid id .sfu with
    | none => s
    | some op =>
      match op.trap with
      | none => s.landOp gid id
      | some t =>
        match s.group gid with
        | none => s
        | some g =>
          let g1 := { g.countDown op.counter with pend := smapErase g.pend id }
          match g.waitsFor id with
          | none => s.setGroup gid g1
          | some p =>
            let g2 := { g1 with sig := match p.held with
                          | some h => h.sig
                          | none => g1.sig }
            (s.setGroup gid g2).takeTrap gid g2 { p with st := .ready, held := none } 0x11 t.1 t.2)

/-- POISON_CONSUME (R396): a group that read poisoned data is killed, with the address of what it read; TPC is an instruction that
it has issued since. -/
def execPoisonConsume (gid : Nat) (s : State) : Host.Outcome State Fault Refusal :=
  .next (match s.group gid with
    | none => s
    | some g =>
      match g.poisoned with
      | [] => s
      | a :: _ =>
        if a.2 < g.lastIssue then s.killGroup gid 0x10 false g.lastPc (BitVec.ofNat 64 a.1) else s)

end Sys2Proof.Machine
end

