-- ==== Sys2Proof/Machine/Fabric.lean ====
section
/-! DEFINITION. The fabric instructions at the source: prefix and checks (R325 to R327), rank tables (R315, R316),
stream slots and their states (R319, R320, R324), the requests (R328 to R331, R336, R341), holds (R338), seats (R334)
and `rresume` (R322). -/
namespace Sys2Proof.Machine

/-- Whether a fabric word refuses its prefix (R326): `imm` and `mask` say which fields it honours. -/
def fabPxBad (px : Option MemPx) (imm mask : Bool) : Bool :=
  match px with
  | none => false
  | some p => !(p.scope = 0 || (mask && p.scope = 7)) || (!imm && p.imm ≠ 0) || (!mask && !(p.mask = 7 && p.inv))

/-- What the issue logic knows of a fabric word (R325, R326): its vector and uniform registers, and those it reads. -/
def fabSpec (g : Group) (words : List Nat) (st : BitVec 2) (px : Option MemPx) (imm mask : Bool)
    (vs ss rv rs : List Nat) : Spec :=
  { words := words, stall := st, mask := if mask then memMask px else .none, misuse := fabPxBad px imm mask,
    access := mask && ss ≠ [],
    vNamed := vs, sNamed := ss,
    reads := rv.map vName ++ rs.map sName ++ if mask then g.maskReads (memMask px) else [] }

/-- A stream of a slot (R320). -/
def State.stream (s : State) (slot q : Nat) : StreamState :=
  match tabGet s.streams slot with
  | some x => x.streams.getD q StreamState.open_
  | none => StreamState.open_

/-- A stream of a slot changed. -/
def State.modStream (s : State) (slot q : Nat) (f : StreamState → StreamState) : State :=
  match tabGet s.streams slot with
  | some x =>
    let y := { x with streams := listSet x.streams q (f (x.streams.getD q StreamState.open_)) }
    { s with streams := smapInsert s.streams slot y }
  | none => s

/-- A cause recorded in a stream (R323, R324). -/
def StreamState.record (t : StreamState) (c : Nat) : StreamState :=
  { t with causes := t.causes ||| BitVec.ofNat 16 (2 ^ c), first := if t.first = 0 then c + 1 else t.first }

/-- A cause recorded, if there is one. -/
def State.recordCause (s : State) (slot q : Nat) (c : Option Nat) : State :=
  match c with
  | some x => s.modStream slot q fun t => t.record x
  | none => s

/-- The stream slot of a group, taken on its first request (R320): the lowest of the partition's that is not in use. -/
def State.withSlot (s : State) (gid : Nat) (g : Group) : State × Nat :=
  match g.streamSlot with
  | some k => (s, k)
  | none =>
    let base := ((s.part g.part).map (·.streamBase)).getD 0
    let free := fun (n : Nat) => (tabGet s.streams n).isNone && s.fabric.all fun e => e.2.slot ≠ n
    let k := ((upFrom base (s.streams.length + s.fabric.length + 1)).find? free).getD base
    ({ s with streams := smapInsert s.streams k { gid := gid, part := g.part, streams := copiesOf 4 StreamState.open_ } }.modGroup
      gid fun h => { h with streamSlot := some k }, k)

/-- A request's stream. -/
def State.streamOf (s : State) (q : FabReq) : StreamState := s.stream q.slot q.stream

/-- A rank-table entry (R315). -/
def Part.rank (x : Part) (r : Nat) : RankEntry := (tabGet x.ranks r).getD { valid := false, failed := false, pkg := 0 }

/-- Where a request goes: to a package, or nowhere, with the cause it completes with at once (R315, R336). -/
inductive FabTarget where
  | send (pkg : Nat)
  | fails (cause : Nat)
deriving DecidableEq, Repr

/-- The target of a rank (R314, R315). -/
def State.rankTarget (s : State) (part r : Nat) : FabTarget :=
  match s.part part with
  | none => .fails 3
  | some x =>
    let e := x.rank r
    if !e.valid then .fails 3
    else if e.failed then .fails 5
    else if e.pkg ≠ s.pkg.number && x.domain = 0 then .fails 2
    else .send e.pkg

/-- The target of a seat (R314, R336): its home package. -/
def State.seatTarget (s : State) (part : Nat) (seat : DWord) : FabTarget :=
  match s.part part with
  | none => .fails 2
  | some x =>
    if s.pkg.failedPkgs.contains (seatPkg seat) then .fails 5
    else if seatPkg seat ≠ s.pkg.number && x.domain = 0 then .fails 2
    else .send (seatPkg seat)

/-- The plane of an address to a package (R317, R318), with these planes dead: the remap takes the next live one. -/
def planeWith (deads : List (Nat × Nat)) (pkg addr : Nat) : Nat :=
  let dead := fun (p : Nat) => deads.any fun d => (d.1 = pkg || d.1 = 1024) && d.2 = p
  let p := bits addr 8 3
  (([0, 1, 2, 3, 4, 5, 6, 7].map fun k => (p + k) % 8).find? fun n => !dead n).getD p

/-- The plane of an address to a package (R317, R318). -/
def State.planeOf (s : State) (pkg addr : Nat) : Nat := planeWith s.pkg.deadPlanes pkg addr

/-- The target addresses of a request's lines, for its planes (R317). -/
def FabReq.addrs (q : FabReq) : List Nat :=
  match q.kind with
  | .rstv _ _ => [q.seat.toNat]
  | .xfer _ dst _ _ _ => [dst.toNat + q.sent]
  | _ => q.lanes.map (·.va)

/-- Whether an ordering drain holds a request to another package (R318): one of its lines would travel on a plane that is being
drained, were that plane not dead. -/
def State.drained (s : State) (q : FabReq) : Bool :=
  q.pkg ≠ s.pkg.number && q.addrs.any fun a => s.pkg.draining.any fun d =>
    (d.1 = q.pkg || d.1 = 1024) && d.2 = planeWith (s.pkg.deadPlanes.filter fun x => x ≠ d) q.pkg a

/-- The planes that a request's lines travel on (R317); none within the package. -/
def State.planesOf (s : State) (q : FabReq) : List Nat :=
  if q.pkg = s.pkg.number then [] else (q.addrs.map (s.planeOf q.pkg)).eraseDups

/-- Whether an earlier request of the same stream to the same target meets a test (R319). -/
def State.earlierReq (s : State) (rid : Nat) (q : FabReq) (f : FabReq → Bool) : Bool :=
  s.fabric.any fun e => e.1 < rid && e.2.slot = q.slot && e.2.stream = q.stream && e.2.pkg = q.pkg && f e.2

/-- Whether all of a request has been sent: of a transfer, every chunk (R332). -/
def FabReq.allSent (q : FabReq) : Bool :=
  q.left && (match q.kind with
    | .xfer _ _ len _ _ => q.performed || len ≤ q.sent
    | _ => true)

/-- Whether a request may leave its source now (R318 to R320), all of the stream's earlier ones to its target sent; an `rfence`
leaves by a step of its own (R330). -/
def State.mayLeave (s : State) (rid : Nat) (q : FabReq) : Bool :=
  (s.streamOf q).state = 0 && (q.orphan || (s.group q.gid).isSome) && q.kind ≠ .rfence && !s.drained q
    && !s.earlierReq rid q fun e => !e.allSent

/-- A request's entry replaced. -/
def State.setReq (s : State) (rid : Nat) (q : FabReq) : State := { s with fabric := smapInsert s.fabric rid q }

/-- A request leaves its source, on its planes (R317). -/
def State.depart (s : State) (rid : Nat) (q : FabReq) : State := s.setReq rid { q with left := true, planes := s.planesOf q }

/-- Every request that may leave now leaves, in issue order. -/
def State.releaseReqs (s : State) : State :=
  s.fabric.foldl (fun t e =>
    match tabGet t.fabric e.1 with
    | some q => if !q.left && !q.performed && t.mayLeave e.1 q then t.depart e.1 q else t
    | none => t) s

/-- The words of an instruction that issues or resumes. -/
def Env.words (e : Env) : List Nat :=
  match e.p.held with
  | some h => h.words
  | none => []

/-- A request of the issuing group, with nothing done. -/
def Env.newReq (e : Env) (kind : FabKind) (stream counter : Nat) (lanes : List RemoteLane) (seat : DWord) : FabReq :=
  { gid := e.gid, slot := 0, stream := stream, part := e.g.part, kind := kind, words := e.words, priv := e.g.priv, pkg := 0,
    lanes := lanes, mask := e.active, seat := seat, counter := counter, pend := none, after := [], sent := 0, credited := 0,
    lines := [], walked := [], locks := [], waitsLocks := false, wants := [], left := false, planes := [], orphan := false, performed := false,
    frozen := false, cause := none, vals := [] }

/-- The lanes of a vector destination set to 0, at once (R323). -/
def Group.zeroLanes (g : Group) (ds : List DestWord) : Group :=
  let ws := ds.map fun d => (d.reg, BitVec.twoPow 64 d.lane)
  ds.foldl (fun h d => h.setVreg d.reg.num d.lane 0) ((g.clobber ws).cleanse ws)

/-- The issue of a request (R315, R328): it waits for its counter; to no target, it completes at once with the cause. -/
def Env.request (e : Env) (q : FabReq) (tgt : FabTarget) (ds : List DestWord) : Res :=
  if e.full q.counter then e.waitRoom (.counterRoom q.counter)
  else
    let a := e.s.withSlot e.gid e.g
    match tgt with
    | .fails c => .ok ((a.1.recordCause a.2 q.stream (some c)).modGroup e.gid fun g => g.zeroLanes ds)
    | .send pkg =>
      let s1 :=
        if ds = [] then a.1.modGroup e.gid fun g => g.countUp q.counter
        else a.1.owe e.gid
          { kind := .late, counter := q.counter, mask := e.p.mask, dests := ds, clobbered := [], lines := [], walked := [], flags := 0,
            trap := none }
      let q1 := { q with slot := a.2, pkg := pkg, pend := if ds = [] then none else some a.1.nextId }
      .ok ({ s1 with nextId := s1.nextId + 1 }.setReq s1.nextId q1).releaseReqs

/-- The state of the group's stream at issue (R327 step 2). -/
def Env.streamState (e : Env) (q : Nat) : Nat :=
  match e.g.streamSlot with
  | some k => (e.s.stream k q).state
  | none => 0

/-- The trap of a stream in Error (R327 step 2). -/
def Env.streamError (e : Env) (q : Nat) (k : Res) : Res :=
  if e.streamState q = 2 then .trap 0x0C (BitVec.ofNat 64 q) none else k

/-- The fabric address of a lane (R314, R328). -/
def Env.fabAddr (e : Env) (sb off : Nat) (px : Option MemPx) (i : Nat) : Nat :=
  ((e.v.spair sb).toNat % 2 ^ 54 + (e.v.vreg off i).toNat + (pxOff px).toNat) % 2 ^ 54

/-- The rank of a fabric address (R314). -/
def rankOf (a : DWord) : Nat := bits a.toNat 54 10

/-- A release of the fabric at pod scope (R329, R336): the split's earlier stores are performed before what follows. -/
def Env.released (e : Env) (rel : Bool) : Env := if rel then { e with s := e.ordered e.s false true } else e

/-- `rld`, `rst` and `ratom` (R327 to R329): the base pair sb, the data register v, and the words each lane sends. -/
def Env.remote (e0 : Env) (kind : FabKind) (stream counter sb v : Nat) (px : Option MemPx) (x y : Nat → Word)
    (ret rel : Bool) : Res :=
  let e := e0.released rel
  e.streamError stream <|
    let lanes := (lanesOf e.active).map fun i => ({ lane := i, va := e.fabAddr sb (v + 1) px i, x := x i, y := y i } : RemoteLane)
    let r := rankOf (e.v.spair sb)
    match lanes.filter fun l => l.va % 4 ≠ 0 with
    | l :: rest =>
      .trap 0x09 (BitVec.ofNat 64 (r * 2 ^ 54 + l.va)) (some (maskWhere fun i => (l :: rest).any fun m => m.lane = i))
    | [] =>
      e.release rel <| e.request (e.newReq kind stream counter lanes 0) (e.s.rankTarget e.g.part r)
        (if ret then lanes.map fun l => { reg := vName v, lane := l.lane, val := 0 } else [])

/-- `rld` (R328); what follows an `rld.acq` comes after it (R329, `State.acquiring`). -/
def execRld (f : Rld) (s : State) : Host.Outcome State Fault Refusal :=
  issue (fun g _ => fabSpec g (memWords f.px (packRld 0xDC000000 f)) f.st f.px true true (upFrom f.vd.toNat 2)
      (upFrom f.sb.toNat 2) [f.vd.toNat + 1] (upFrom f.sb.toNat 2))
    (fun e => e.remote (.rld f.acq) f.stream.toNat 0 f.sb.toNat f.vd.toNat f.px (fun _ => 0) (fun _ => 0) true false) s

/-- `rst` (R328). -/
def execRst (f : Rst) (s : State) : Host.Outcome State Fault Refusal :=
  issue (fun g _ => fabSpec g (memWords f.px (packRst 0xDC400000 f)) f.st f.px true true (upFrom f.vs.toNat 2)
      (upFrom f.sb.toNat 2) (upFrom f.vs.toNat 2) (upFrom f.sb.toNat 2))
    (fun e => e.remote .rst f.stream.toNat 5 f.sb.toNat f.vs.toNat f.px (e.v.vreg f.vs.toNat) (fun _ => 0) false
      f.rel) s

/-- `ratom` (R328): `cas` also names the register of the value it stores. -/
def execRatom (f : Ratom) (s : State) : Host.Outcome State Fault Refusal :=
  let n := if f.op = 9 then 3 else 2
  issue (fun g _ => fabSpec g (memWords f.px (packRatom 0xDC800000 f)) f.st f.px true true (upFrom f.vd.toNat n)
      (upFrom f.sb.toNat 2) (upFrom f.vd.toNat n) (upFrom f.sb.toNat 2))
    (fun e => e.remote (.ratom f.op f.ret) f.stream.toNat 5 f.sb.toNat f.vd.toNat f.px (e.v.vreg f.vd.toNat)
      (fun i => if f.op = 9 then e.v.vreg (f.vd.toNat + 2) i else 0) f.ret false) s

/-- Whether a seat address is malformed (R327 step 1, R333); `name` for a seat name, which has no register. -/
def seatBad (a : DWord) (name : Bool) : Bool :=
  bits a.toNat 0 16 = 0 || (if name then bits a.toNat 48 16 ≠ 0 else bits a.toNat 55 9 ≠ 0)

/-- `rfence` (R330): it waits at the source for the stream's earlier requests and for the group's own earlier accesses. -/
def execRfence (f : Rfence) (s : State) : Host.Outcome State Fault Refusal :=
  issue (fun g _ => { fabSpec g (memWords f.px (packRfence 0xDD400000 f)) f.st f.px false false [] (upFrom f.sb.toNat 2) []
      (upFrom f.sb.toNat 2) with access := true })
    (fun e => e.streamError f.stream.toNat <|
      let a := e.v.spair f.sb.toNat
      if a.toNat % 4 ≠ 0 then .trap 0x09 a none
      else
        e.request
          { e.newReq .rfence f.stream.toNat 5 [{ lane := 0, va := a.toNat % 2 ^ 54, x := 0, y := 0 }] 0 with
            after := (e.g.pend.filter fun p => p.2.kind == .load || p.2.kind == .store || p.2.kind == .atomic).map (·.1) }
          (e.s.rankTarget e.g.part (rankOf a)) []) s

/-- A vector register's 64 lanes. -/
def Group.vlanes (g : Group) (r : Nat) : List Word := laneList.map (g.vreg r)

/-- A delivery sent to a seat address (R336). -/
def Env.deliver (e0 : Env) (rel : Bool) (stream : Nat) (a : DWord) (v0 : List Word) (v1 : Option (List Word)) : Res :=
  let e := e0.released rel
  e.streamError stream <| e.release rel <|
    e.request (e.newReq (.rstv v0 v1) stream 5 [] a) (e.s.seatTarget e.g.part a) []

/-- `rstv` (R336). -/
def execRstv (f : Rstv) (s : State) : Host.Outcome State Fault Refusal :=
  issue (fun g _ => fabSpec g (memWords f.px (packRstv 0xDCC00000 f)) f.st f.px false true [f.vs.toNat] (upFrom f.sa.toNat 2)
      [f.vs.toNat] (upFrom f.sa.toNat 2))
    (fun e =>
      let a := e.v.spair f.sa.toNat
      if seatBad a false then .trap 0x0D 3 none else e.deliver f.rel f.stream.toNat a (e.v.vlanes f.vs.toNat) none) s

/-- The pair that a link of a reduction makes in a lane (R341), the main word first. -/
def Env.redPair (e : Env) (p : Nat) (first : Bool) (i : Nat) : Word × Word :=
  if first then (e.v.vreg (p + 2) i, e.v.vreg (p + 3) i)
  else
    let x := aaddcNew ((e.v.vreg p i).toNat + 2 ^ 32 * (e.v.vreg (p + 1) i).toNat) (e.v.vreg (p + 2) i).toNat
      (e.v.vreg (p + 3) i).toNat
    (BitVec.ofNat 32 x, BitVec.ofNat 32 (x / 2 ^ 32))

/-- `xred.first` and `xred.mid` (R341). -/
def xredSend (base : Nat) (f : Xred) (first : Bool) (s : State) : Host.Outcome State Fault Refusal :=
  issue (fun g _ => fabSpec g (memWords f.px (packXred base f)) f.st f.px false true (upFrom f.vp.toNat 4)
      (upFrom f.sa.toNat 2) (if first then upFrom (f.vp.toNat + 2) 2 else upFrom f.vp.toNat 4) (upFrom f.sa.toNat 2))
    (fun e =>
      let a := e.v.spair f.sa.toNat
      if seatBad a false || seatReg a % 2 ≠ 0 then .trap 0x0D 3 none
      else
        let rs := laneList.map fun i => if inMask e.active i then e.redPair f.vp.toNat first i else (0, 0)
        e.deliver true f.stream.toNat a (rs.map (·.1)) (some (rs.map (·.2)))) s

/-- `xred.first` (R341). -/
def execXredFirst (f : Xred) (s : State) : Host.Outcome State Fault Refusal := xredSend 0xDD800004 f true s

/-- `xred.mid` (R341). -/
def execXredMid (f : Xred) (s : State) : Host.Outcome State Fault Refusal := xredSend 0xDD800000 f false s

/-- `xred.last` (R341). -/
def execXredLast (f : XredLast) (s : State) : Host.Outcome State Fault Refusal :=
  let p := f.vp.toNat
  issue (fun g _ =>
      { fabSpec g (memWords f.px (packXredLast 0xDD800008 f)) f.st f.px false true (upFrom p 4) [] (upFrom p 4) [] with
        writes := [(vName p, 6), (vName (p + 1), 6)] })
    (fun e => e.upd ((e.g.setLanes p (fun i => (e.redPair p false i).1) (lanesOf e.active)).setLanes (p + 1)
      (fun i => (e.redPair p false i).2) (lanesOf e.active))) s

/-- The record of a transfer, read at issue (R331). -/
structure XferRec where
  src : DWord
  dst : DWord
  len : Nat
  ctl : Word
  seat : DWord

/-- The record in eight uniform registers (R331). -/
def Group.xferRec (g : Group) (r : Nat) : XferRec :=
  { src := g.spair r, dst := g.spair (r + 2), len := (g.sreg (r + 4)).toNat, ctl := g.sreg (r + 5), seat := g.spair (r + 6) }

/-- PE of a transfer's record (R331). -/
def XferRec.pe (x : XferRec) : Bool := x.ctl.getLsbD 15

/-- DSPACE of a transfer's record (R331). -/
def XferRec.space (x : XferRec) : Bool := x.ctl.getLsbD 14

/-- The traps of a transfer at issue that its record and addresses decide (R327 steps 3 and 4, R331), with TVAL. -/
def Env.xferTrap (e : Env) (x : XferRec) : Option (Nat × DWord) :=
  if x.src.toNat % 16 ≠ 0 then some (0x09, x.src)
  else if x.dst.toNat % 16 ≠ 0 then some (0x09, x.dst)
  else if bits x.ctl.toNat 0 14 ≠ 0 || x.len % 16 ≠ 0 || (x.space && hiWord x.dst ≠ 0)
      || (!x.space && !x.pe && x.seat ≠ 0) then some (0x01, wordsTval e.words)
  else
    match regionBad e.g.priv x.src.toNat with
    | some c => some (c, x.src)
    | none =>
      if x.len = 0 then none
      else
        match e.s.spanOf (e.g.agent e.gid) x.src.toNat x.len with
        | .ok _ => none
        | .error _ => some (0x08, x.src)

/-- `xfer` (R331): once, on behalf of the lowest Active lane. A transfer of no bytes is performed at once. -/
def execXfer (f : Xfer) (s : State) : Host.Outcome State Fault Refusal :=
  issue (fun g _ => fabSpec g (memWords f.px (packXfer 0xDD000000 f)) f.st f.px false true [] (upFrom f.cr.toNat 8) []
      (upFrom f.cr.toNat 8))
    (fun e =>
      let x := e.v.xferRec f.cr.toNat
      if e.active = 0 then .ok e.s
      else if (x.pe || x.space) && seatBad x.seat true then .trap 0x0D 3 none
      else e.streamError f.stream.toNat <|
        match e.xferTrap x with
        | some t => .trap t.1 t.2 none
        | none =>
          let spans := e.s.spansOf (e.g.agent e.gid) [(x.src.toNat, x.len, some false)]
          let cluster := clusterOf (coreOf e.gid)
          let tgt := if x.space then e.s.seatTarget e.g.part x.seat else e.s.rankTarget e.g.part (rankOf x.dst)
          if e.full 5 then e.waitRoom (.counterRoom 5)
          else if e.s.freeLocks cluster < spans.length then e.waitRoom (.locks spans.length)
          else if x.len = 0 then .ok e.s
          else
            let q := e.newReq (.xfer x.src x.dst x.len x.space (if x.pe then some (16 * bits x.ctl.toNat 16 16) else none))
              f.stream.toNat 5 [] x.seat
            match tgt with
            | .fails c => e.request q (.fails c) []
            | .send pkg =>
              let l := (e.settled e.s).takeLocks cluster spans
              { e with s := l.1 }.request { q with locks := l.2 } (.send pkg) []) s

/-- `hold` (R338). -/
def execHold (f : Hold) (s : State) : Host.Outcome State Fault Refusal :=
  issue (fun g _ => fabSpec g (memWords f.px (packHold 0xDDC00000 f)) f.st f.px false false [f.vd.toNat] [] [] [])
    (fun e =>
      let n := f.n.toNat + 1
      if e.g.holds.any fun h => h.reg = f.vd.toNat then
        e.upd { e.g with holds := e.g.holds.map fun h =>
          if h.reg = f.vd.toNat then { h with pending := min (h.pending + n) 255 } else h }
      else if 8 ≤ e.g.holds.length then .trap 0x0D 1 none
      else e.upd { e.g with holds := e.g.holds ++ [{ reg := f.vd.toNat, pending := n }] }) s

/-- The lowest Free entry of a seat table from an index on (R334). -/
def State.freeSeat (s : State) (x : Part) : Nat → Nat → Option Nat
  | 0, _ => none
  | n + 1, idx => if bits (s.seatWord x idx) 25 3 = 0 then some idx else s.freeSeat x n (idx + 1)

/-- The generation after another (R334): 0 is skipped. -/
def nextGen (g : Nat) : Nat := if (g + 1) % 2 ^ 16 = 0 then 1 else (g + 1) % 2 ^ 16

/-- `seatget` (R334). -/
def execSeatget (f : SeatGet) (s : State) : Host.Outcome State Fault Refusal :=
  issue (fun g _ => { fabSpec g (memWords f.px (packSeatGet 0xDE000000 f)) f.st f.px false false [] (upFrom f.sd.toNat 2) [] []
                      with writes := (sNames f.sd.toNat 2).map fun r => (r, 0) })
    (fun e =>
      if e.g.seat ≠ 0 then .trap 0x0D 2 none
      else
        match e.part.bind fun x => (e.s.freeSeat x x.seatCap.toNat 0).map fun i => (x, i) with
        | none => e.upd (e.g.setSpair f.sd.toNat 0)
        | some (x, idx) =>
          let gen := nextGen (bits (e.s.seatWord x idx) 32 16)
          let name : DWord := BitVec.ofNat 64 (gen + idx * 2 ^ 16 + e.s.pkg.number * 2 ^ 38)
          .ok ((e.s.putSeat e.g.part idx gen 1 e.gid 0).modGroup e.gid fun g => { g with seat := name }.setSpair f.sd.toNat name)) s

/-- `seatfree` (R334). -/
def execSeatfree (f : FBare) (s : State) : Host.Outcome State Fault Refusal :=
  issue (fun g _ => fabSpec g (memWords f.px (packFBare 0xDE400000 f)) f.st f.px false false [] [] [] [])
    (fun e => .ok ((e.s.seatState e.gid e.g 0 0).modGroup e.gid fun g => { g with seat := 0 })) s

/-- The two words of `rstat` (R324). -/
def Env.statWords (e : Env) (q : Nat) : List Word :=
  match e.g.streamSlot with
  | none => [0, 0]
  | some k =>
    let t := e.s.stream k q
    [BitVec.ofNat 32 (t.first * 2 ^ 24 + t.causes.toNat * 2 ^ 8 + t.state),
     BitVec.ofNat 32 (e.s.fabric.filter fun r => r.2.gid = e.gid && !r.2.orphan && r.2.stream = q).length]

/-- What the issue logic knows of `rstat` (R324). -/
def rstatSpec (g : Group) (base : Nat) (f : Rstat) : Spec :=
  { fabSpec g (memWords f.px (packRstat base f)) f.st f.px false false [] (upFrom f.sd.toNat 2) [] [] with
    writes := (sNames f.sd.toNat 2).map fun r => (r, 0) }

/-- `rstat` (R324). -/
def execRstat (f : Rstat) (s : State) : Host.Outcome State Fault Refusal :=
  issue (fun g _ => rstatSpec g 0xDE800000 f) (fun e => e.upd (e.g.setSregs f.sd.toNat (e.statWords f.stream.toNat))) s

/-- A stream after `rstat.clr` (R324): an Error stream opens; a Frozen one stays frozen. -/
def StreamState.cleared (t : StreamState) : StreamState :=
  { t with causes := 0, first := 0, state := if t.state = 2 then 0 else t.state }

/-- `rstat.clr` (R324). -/
def execRstatClr (f : Rstat) (s : State) : Host.Outcome State Fault Refusal :=
  issue (fun g _ => rstatSpec g 0xDE800004 f)
    (fun e =>
      let s1 := e.s.modGroup e.gid fun g => g.setSregs f.sd.toNat (e.statWords f.stream.toNat)
      match e.g.streamSlot with
      | none => .ok s1
      | some k => .ok ((s1.modStream k f.stream.toNat fun t => t.cleared).releaseReqs)) s

/-- The rank word that `rankmap.rd` reads (R315). -/
def RankEntry.word (r : RankEntry) (idx : Nat) : Word :=
  BitVec.ofNat 32 ((if r.valid then 2 ^ 31 else 0) + (if r.failed then 2 ^ 30 else 0) + r.pkg * 2 ^ 10 + idx)

/-- Heartbeats of a package are watched from when a rank table first names it (R342). -/
def State.watchPkg (s : State) (pkg : Nat) : State :=
  if (tabGet s.pkg.lastBeat (8 * pkg)).isSome then s
  else { s with pkg := { s.pkg with lastBeat := (upFrom (8 * pkg) 8).foldl (fun m k => smapInsert m k s.clock) s.pkg.lastBeat } }

/-- What the issue logic knows of `rankmap` (R316). -/
def rankmapSpec (g : Group) (base : Nat) (f : Rankmap) : Spec :=
  { fabSpec g (memWords f.px (packRankmap base f)) f.st f.px false false [] [f.sa.toNat] [] [f.sa.toNat] with
    privileged := true }

/-- `rankmap` (R316). -/
def execRankmap (f : Rankmap) (s : State) : Host.Outcome State Fault Refusal :=
  issue (fun g _ => rankmapSpec g 0xDF000000 f)
    (fun e =>
      let w := e.v.sreg f.sa.toNat
      if bits w.toNat 20 11 ≠ 0 then e.illegal 0x01
      else
        let r : RankEntry := { valid := w.getLsbD 31, failed := false, pkg := bits w.toNat 10 10 }
        let s1 := e.s.modPart e.g.part fun x => { x with ranks := smapInsert x.ranks (bits w.toNat 0 10) r }
        .ok (if r.valid && r.pkg ≠ e.s.pkg.number then s1.watchPkg r.pkg else s1)) s

/-- `rankmap.rd` (R316). -/
def execRankmapRd (f : Rankmap) (s : State) : Host.Outcome State Fault Refusal :=
  issue (fun g _ => { rankmapSpec g 0xDF000004 f with writes := [(sName f.sa.toNat, 0)] })
    (fun e =>
      let idx := bits (e.v.sreg f.sa.toNat).toNat 0 10
      e.upd (e.g.setSreg f.sa.toNat ((((e.part.map fun (x : Part) => x.rank idx).getD { valid := false, failed := false, pkg := 0 }).word) idx))) s

/-- A freeze at the source (R320, R321): the stream is Frozen, and its later requests to the faulting target come back
to be sent again. -/
def State.freezeStream (s : State) (rid serial : Nat) (q : FabReq) : State :=
  let s1 := s.modStream q.slot q.stream fun t =>
    { t with state := if t.state = 2 then 2 else 1, serial := serial, frozenBy := t.frozenBy ++ [(rid, serial)] }
  { s1 with fabric := s1.fabric.map fun e =>
      if rid < e.1 && e.2.slot = q.slot && e.2.stream = q.stream && e.2.pkg = q.pkg && !e.2.performed then
        (e.1, { e.2 with left := false })
      else e }

/-- FAIL of a transfer's pot (R332): at once where the seat's home is this package, else by a message to its home. -/
def State.failXferPot (s : State) (rid : Nat) (q : FabReq) : State :=
  match q.kind with
  | .xfer _ _ _ _ (some p) =>
    if seatPkg q.seat = s.pkg.number then
      s.arrive q.part { seat := q.seat, off := 0, data := [], pot := some p, credit := 0 } true
    else
      { s with nextId := s.nextId + 1,
               sent := smapInsert s.sent s.nextId { pkg := seatPkg q.seat, slot := q.slot, stream := q.stream, msg := .failPot rid } }
  | _ => s

/-- A request that ends without being performed, with a cause (R323). -/
def State.failReq (s : State) (rid cause : Nat) : State :=
  match tabGet s.fabric rid with
  | none => s
  | some q =>
    if q.performed then s
    else (s.failXferPot rid q).setReq rid
      { q with performed := true, cause := some cause, left := true, frozen := false, sent := q.credited, lines := [], walked := [] }

/-- Whether an entry is a request of a stream that a failing `rresume` completes (R322): one that a freeze holds, at
the source or at the target. -/
def FabReq.heldIn (q : FabReq) (slot stream : Nat) : Bool :=
  q.slot = slot && q.stream = stream && !q.performed && (!q.left || q.frozen || (match q.kind with
    | .xfer _ _ _ _ _ => true
    | _ => false))

/-- A freeze ends at the source (R322): the stream reopens and its requests leave, those to the faulting target again, or it goes
to Error and every request that is held completes with RESFAIL, those of a killed group's stream too. -/
def State.resumeStream (s : State) (slot stream serial : Nat) (fail : Bool) : State :=
  let t := s.stream slot stream
  if !(t.frozenBy.any fun x => x.2 = serial) then
    if fail && (tabGet s.streams slot).isNone then
      ((s.fabric.filter fun e => e.2.orphan && e.2.heldIn slot stream).map (·.1)).foldl (fun u r => u.failReq r 4) s
    else s
  else if fail then
    let rids := (s.fabric.filter fun e => e.2.heldIn slot stream || t.frozenBy.any fun x => x.1 = e.1).map (·.1)
    let s1 := rids.foldl (fun u r => u.failReq r 4) s
    { s1.modStream slot stream fun x => { x with state := 2, frozenBy := [] } with
      frozen := s1.frozen.filter fun e => !(e.2.srcPkg = s.pkg.number && e.2.slot = slot && e.2.stream = stream) }
  else
    let left := t.frozenBy.filter fun x => x.2 ≠ serial
    let back := t.frozenBy.filter fun x => x.2 = serial
    let s1 := { s with fabric := s.fabric.map fun (e : Nat × FabReq) =>
      if e.2.slot = slot && e.2.stream = stream && e.2.pkg ≠ s.pkg.number && !e.2.performed && back.any fun x =>
          x.1 < e.1 && (tabGet s.fabric x.1).any fun (q : FabReq) => q.pkg = e.2.pkg then (e.1, { e.2 with left := false })
      else e }
    (s1.modStream slot stream fun x =>
      { x with frozenBy := left, state := if left = [] && x.state = 1 then 0 else x.state }).releaseReqs

/-- The frozen request that a stream handle names at this target (R321, R322). -/
def State.frozenByHandle (s : State) (part : Nat) (h : DWord) : Option (Nat × Frozen) :=
  let n := h.toNat
  if bits n 31 1 ≠ 0 || bits n 12 2 ≠ 0 then none
  else s.frozen.find? fun e =>
    e.2.part = part && e.2.srcPkg = bits n 0 10 && e.2.slot = bits n 14 17 && e.2.stream = bits n 10 2
      && e.2.serial = bits n 32 32 && !e.2.replay

/-- `rresume` at the target (R322): the faulting request is to be replayed, or is discarded, and the source is told. -/
def State.rresume (s : State) (part : Nat) (h : DWord) (fail : Bool) : State :=
  match s.frozenByHandle part h with
  | none => s
  | some (k, z) =>
    if z.srcPkg = s.pkg.number then
      let s0 := match z.req with
        | .own rid =>
          match tabGet s.fabric rid with
          | some q =>
            let s1 := if (s.stream z.slot z.stream).frozenBy.any fun x => x.2 = z.serial then s
              else s.freezeStream rid z.serial q
            match tabGet s1.fabric rid with
            | some q1 => if fail then s1.failReq rid 4 else s1.setReq rid { q1 with frozen := false }
            | none => s1
          | none => s
        | _ => s
      { s0 with frozen := smapErase s0.frozen k, inbox := s0.inbox ++ [.streamResume z.slot z.stream z.serial fail] }
    else
      let out : Sent := { pkg := z.srcPkg, slot := z.slot, stream := z.stream, msg := .resume z.serial fail }
      { s with nextId := s.nextId + 1, sent := smapInsert s.sent s.nextId out,
               frozen := if fail then smapErase s.frozen k else smapInsert s.frozen k { z with replay := true } }

/-- What the issue logic knows of `rresume` (R322). -/
def rresumeSpec (g : Group) (base : Nat) (f : Rresume) : Spec :=
  { fabSpec g (memWords f.px (packRresume base f)) f.st f.px false false [] (upFrom f.sb.toNat 2) [] (upFrom f.sb.toNat 2) with
    privileged := true }

/-- `rresume` (R322). -/
def execRresume (f : Rresume) (s : State) : Host.Outcome State Fault Refusal :=
  issue (fun g _ => rresumeSpec g 0xDEC00000 f) (fun e => .ok (e.s.rresume e.g.part (e.v.spair f.sb.toNat) false)) s

/-- `rresume.fail` (R322). -/
def execRresumeFail (f : Rresume) (s : State) : Host.Outcome State Fault Refusal :=
  issue (fun g _ => rresumeSpec g 0xDEC00004 f) (fun e => .ok (e.s.rresume e.g.part (e.v.spair f.sb.toNat) true)) s

end Sys2Proof.Machine
end

