-- ==== Sys2Proof/Machine/Endpoint.lean ====
section
/-! DEFINITION. The steps of the fabric endpoints: accesses performed at the target with their faults (R321, R328),
completions at the source (R323, R329), transfers (R332), fences (R330), deliveries and arrivals (R337, R340), planes
(R318) and heartbeats (R342). -/
namespace Sys2Proof.Machine

/-- How a request's lanes check at the target (R321, R351, R354): places, a wait for a busy entry, or the first lane's
fault. -/
inductive RemoteCheck where
  | ok (ps : List (RemoteLane × Place))
  | busy
  | fault (va cause : Nat)

/-- Every lane of a remote request checked, as an unprivileged access of a partition (R328, R351). -/
def State.remoteCheck (s : State) (part : Nat) (acc : Acc) (lanes : List RemoteLane) : RemoteCheck :=
  let cs := lanes.map fun l => (l, checkGlobal s { part := part, priv := false, core := 0, team := none } l.va acc)
  if cs.any fun c => (match c.2 with
      | .wait _ => true
      | _ => false) then .busy
  else
    match cs.findSome? fun c => (c.2.badness).map fun b => (c.1.va, b.2) with
    | some x => .fault x.1 x.2
    | none => .ok (cs.filterMap fun c => match c.2 with
        | .ok p => some (c.1, p)
        | _ => none)

/-- The access code of a remote-fault record (R321), and the kind of access (R328). -/
def remoteAcc : RemoteKind → Acc
  | .load => .read
  | .store => .write
  | .atomic _ => .atomic
  | .fenceAdd => .atomic

/-- The access code of R321. -/
def Acc.code : Acc → Nat
  | .read => 0
  | .write => 1
  | .atomic => 2
  | .fetch => 0

/-- What a remote access writes over an old word (R310, R328, R330); nothing for a load. -/
def remoteNew (k : RemoteKind) (old x y : Nat) : Option Nat :=
  match k with
  | .load => none
  | .store => some x
  | .fenceAdd => some ((old + 1) % 2 ^ 32)
  | .atomic op =>
    match op.toNat with
    | 0 => some ((old + x) % 2 ^ 32)
    | 1 => some (old &&& x)
    | 2 => some (old ||| x)
    | 3 => some (old ^^^ x)
    | 4 => some (if signedLe old x then old else x)
    | 5 => some (if signedLe old x then x else old)
    | 6 => some (min old x)
    | 7 => some (max old x)
    | 8 => some x
    | 9 => some (if old = x then y else old)
    | _ => some (atomicFadd fp32 old x)

/-- Remote accesses performed one after another (R328): the state, and the word before each. -/
def State.remoteRun (s : State) (part : Nat) (k : RemoteKind) : List (RemoteLane × Place) → State × List (Nat × Word)
  | [] => (s, [])
  | (l, p) :: r =>
    let old := ofBytes (s.readAt p 4)
    let s1 := s.installRemote part p
    let s2 := match remoteNew k old l.x.toNat l.y.toNat with
      | some n => s1.strongPut p (toBytes 4 n)
      | none => s1
    let q := s2.remoteRun part k r
    (q.1, (l.lane, BitVec.ofNat 32 old) :: q.2)

/-- Whether two lanes of a request share a place. -/
def placesDistinct : List (RemoteLane × Place) → Bool
  | [] => true
  | x :: r => r.all (fun y => y.2.key ≠ x.2.key) && placesDistinct r

/-- A request's accesses performed, in an order that the homes choose when lanes share an address (R328). -/
def State.remotePerform (s : State) (part : Nat) (k : RemoteKind) (ps : List (RemoteLane × Place)) :
    State × List (Nat × Word) :=
  if placesDistinct ps then s.remoteRun part k ps
  else { s with serial := s.serial + ps.length }.remoteRun part k (homeOrder ps.length s.serial ps)

/-- What an atomic at any of the places meets first (R369): a page's collapse, begun or in progress. -/
def State.remoteCollapse (s : State) (k : RemoteKind) (ps : List (RemoteLane × Place)) : Option State :=
  if k = .load ∨ k = .store then none else ps.findSome? fun x => s.toCollapse x.2

/-- Whether a stream of a package is frozen at this target (R321), apart from a request that is to be replayed. -/
def State.frozenHere (s : State) (pkg slot stream : Nat) (req : ReqRef) : Bool :=
  s.frozen.any fun e => e.2.srcPkg = pkg && e.2.slot = slot && e.2.stream = stream && !(e.2.replay && e.2.req = req)

/-- A request entered as frozen at this target (R321). -/
def State.freezeHere (s : State) (z : Frozen) : State :=
  { s with nextId := s.nextId + 1, frozen := smapInsert s.frozen s.nextId z }

/-- A request of another package frozen at this target (R321): those of its stream that wait here behind it are discarded, and
its source is told. -/
def State.freezeForeign (s : State) (z : Frozen) : State :=
  let mine := fun (pkg slot stream : Nat) => pkg = z.srcPkg && slot = z.slot && stream = z.stream
  let of := fun (r : ReqRef) => match r with
    | .foreign q => mine q.srcPkg q.slot q.stream
    | .foreignChunk c => mine c.srcPkg c.slot c.stream
    | _ => false
  { s with foreign := s.foreign.filter fun e => !of e.2.req,
           deliveries := s.deliveries.filter fun e => !mine e.2.msg.srcPkg e.2.msg.slot e.2.msg.stream }.freezeHere z

/-- A replayed request of another package is no longer held. -/
def State.replayed (s : State) (req : ReqRef) : State := { s with frozen := s.frozen.filter fun e => e.2.req ≠ req }

/-- A message to another package. -/
def State.send (s : State) (pkg slot stream : Nat) (m : OutMsg) : State :=
  { s with nextId := s.nextId + 1, sent := smapInsert s.sent s.nextId { pkg := pkg, slot := slot, stream := stream, msg := m } }

/-- The partition of this package in a fabric domain (R314, R400). -/
def State.domainPart (s : State) (domain : Nat) : Option Nat :=
  if domain = 0 then none else (s.parts.find? fun e => e.2.live && e.2.domain.toNat = domain).map (·.1)

/-- Whether a request to this package is next at its target (R319, R321). -/
def State.reqReady (s : State) (rid : Nat) (q : FabReq) : Bool :=
  q.left && !q.performed && !q.frozen && q.pkg = s.pkg.number && !(s.earlierReq rid q fun e => !e.performed)
    && !s.frozenHere s.pkg.number q.slot q.stream (.own rid)

/-- A request of this package's own frozen by a fault (R321): its stream's next freeze number goes with it. -/
def State.freezeOwn (s : State) (rid : Nat) (q : FabReq) (va cause access : Nat) : State :=
  let n := ((s.streamOf q).serial + 1) % 2 ^ 32
  ((s.modStream q.slot q.stream fun t => { t with serial := n }).setReq rid { q with frozen := true }).freezeHere
    { part := q.part, req := .own rid, srcPkg := s.pkg.number, slot := q.slot, stream := q.stream, serial := n, va := va,
      cause := cause, access := access, recorded := false, replay := false }

/-- What kind of access a request makes (R328, R330). -/
def FabKind.remote : FabKind → Option RemoteKind
  | .rld _ => some .load
  | .rst => some .store
  | .ratom op _ => some (.atomic op)
  | .rfence => some .fenceAdd
  | _ => none

/-- Whether a read of any of the places meets poison (R323 cause 6). -/
def State.remotePoison (s : State) (k : RemoteKind) (ps : List (RemoteLane × Place)) : Bool :=
  k ≠ .store && ps.any fun x => s.poisonAt x.2 4 ≠ []

/-- A request of this package performed at its own target (R321, R328). -/
def State.accessOwn (s : State) (rid : Nat) : State :=
  match tabGet s.fabric rid with
  | none => s
  | some q =>
    match q.kind.remote with
    | none => s
    | some k =>
      if !s.reqReady rid q then s
      else
        match s.remoteCheck q.part (remoteAcc k) q.lanes with
        | .busy => s
        | .fault va c => s.freezeOwn rid q va c (remoteAcc k).code
        | .ok ps =>
          if s.remotePoison k ps then s.failReq rid 6
          else
          match s.remoteCollapse k ps with
          | some t => t
          | none =>
            let r := s.remotePerform q.part k ps
            r.1.setReq rid
              { q with performed := true, vals := r.2,
                       lines := if k = .load then [] else (ps.flatMap fun x => x.2.lines 4).eraseDups,
                       walked := (ps.flatMap fun x => x.2.walked).eraseDups }

/-- Whether something of another package's stream that came before number `k` still waits at this target (R319, R339). -/
def State.heldBefore (s : State) (k pkg slot stream : Nat) : Bool :=
  let mine := fun (p sl st : Nat) => p = pkg && sl = slot && st = stream
  (s.foreign.any fun e => e.1 < k && match e.2.req with
    | .foreign r => mine r.srcPkg r.slot r.stream
    | .foreignChunk c => mine c.srcPkg c.slot c.stream
    | _ => false)
  || (s.deliveries.any fun e => e.1 < k && mine e.2.msg.srcPkg e.2.msg.slot e.2.msg.stream)
  || (s.arrivals.any fun e => e.1 < k && e.2.sender == some (pkg, slot, stream))

/-- A request or chunk of another package enters this target, to wait there, under a number. -/
def State.enterForeign (s : State) (part : Nat) (r : ReqRef) : Nat × State :=
  (s.nextId, { s with nextId := s.nextId + 1,
                      foreign := smapInsert s.foreign s.nextId
                        { part := part, req := r, done := false, vals := [], lines := [], walked := [] } })

/-- A request or chunk of another package has gone from this target. -/
def State.dropForeign (s : State) (k : Nat) : State := { s with foreign := smapErase s.foreign k }

/-- The answer of a request or chunk whose writes at this target are performed (R263, R332, R356): a chunk's pot is credited
first. -/
def State.answerForeign (s : State) (k : Nat) : State :=
  match tabGet s.foreign k with
  | none => s
  | some h =>
    if !h.done || !s.writePerformed k h.lines then s
    else
      match h.req with
      | .foreign r => (s.dropForeign k).send r.srcPkg r.slot r.stream (.reply none h.vals)
      | .foreignChunk c =>
        let a : Arrival := { seat := c.seat, off := 0, data := [], pot := c.pot, credit := c.data.length }
        if c.pot.isNone || c.space then (s.dropForeign k).send c.srcPkg c.slot c.stream (.reply none [])
        else
          (match s.applyArrival h.part a false with
           | .applied t => (t.dropForeign k).send c.srcPkg c.slot c.stream (.reply none [])
           | .waits => (s.dropForeign k).holdArrival h.part a false (some (c.srcPkg, c.slot, c.stream))
           | .stale => (s.dropForeign k).send c.srcPkg c.slot c.stream (.reply (some 0) [])
           | .beyond => (s.dropForeign k).send c.srcPkg c.slot c.stream (.reply (some 8) []))
      | _ => s

/-- The accesses of a request or chunk done at their homes: it waits for its writes to be performed. -/
def State.doneForeign (s : State) (k : Nat) (vals : List (Nat × Word)) (lines walked : List Nat) : State :=
  match tabGet s.foreign k with
  | none => s
  | some h =>
    { s with foreign := smapInsert s.foreign k { h with done := true, vals := vals, lines := lines, walked := walked } }.answerForeign k

/-- A request of another package that is next of its stream here, performed (R321, R328). -/
def State.performForeign (s : State) (k part : Nat) (r : RemoteReq) : State :=
  match s.remoteCheck part (remoteAcc r.kind) r.lanes with
  | .busy => s
  | .fault va c =>
    ((s.replayed (.foreign r)).freezeForeign
      { part := part, req := .foreign r, srcPkg := r.srcPkg, slot := r.slot, stream := r.stream, serial := r.serial, va := va,
        cause := c, access := (remoteAcc r.kind).code, recorded := false, replay := false }).send r.srcPkg r.slot r.stream
      (.freeze r.serial)
  | .ok ps =>
    if s.remotePoison r.kind ps then
      ((s.replayed (.foreign r)).dropForeign k).send r.srcPkg r.slot r.stream (.reply (some 6) [])
    else
      match s.remoteCollapse r.kind ps with
      | some t => t
      | none =>
        let x := (s.replayed (.foreign r)).remotePerform part r.kind ps
        x.1.doneForeign k x.2 (if r.kind = .load then [] else (ps.flatMap fun y => y.2.lines 4).eraseDups)
          (ps.flatMap fun y => y.2.walked).eraseDups

/-- A request of another package reaches this target (R319, R321): one of a stream that is frozen here is discarded, and one
whose stream's earlier requests wait here waits behind them. -/
def State.accessForeign (s : State) (r : RemoteReq) : State :=
  if s.frozenHere r.srcPkg r.slot r.stream (.foreign r) then s
  else
    match s.domainPart r.domain with
    | none => s.send r.srcPkg r.slot r.stream (.reply (some 2) [])
    | some part =>
      let q := s.enterForeign part (.foreign r)
      if s.heldBefore s.nextId r.srcPkg r.slot r.stream then q.2 else q.2.performForeign q.1 part r

/-- A request that waits at this target goes on: it is performed in its turn, or its answer leaves. -/
def State.accessWaiting (s : State) (k : Nat) : State :=
  match tabGet s.foreign k with
  | none => s
  | some h =>
    match h.req with
    | .foreign r =>
      if h.done then s.answerForeign k
      else if s.heldBefore k r.srcPkg r.slot r.stream then s else s.performForeign k h.part r
    | _ => s

/-- REMOTE_ACCESS (R321, R328): a request is checked and performed at the target's home slices. -/
def execRemoteAccess (r : ReqRef) (s : State) : Host.Outcome State Fault Refusal :=
  .next (match r with
    | .own rid => s.accessOwn rid
    | .foreign q => s.accessForeign q
    | .foreignChunk _ => s
    | .waiting k => s.accessWaiting k)

/-- The 32 bytes of a remote-fault record (R321). -/
def Frozen.record (z : Frozen) : List Byte :=
  toBytes 8 (z.serial * 2 ^ 32 + z.slot * 2 ^ 14 + z.stream * 2 ^ 10 + z.srcPkg) ++ toBytes 8 z.va
    ++ toBytes 4 (z.cause + z.access * 2 ^ 8) ++ toBytes 12 0

/-- REMOTE_FAULT_RECORD (R321, R385): the oldest unrecorded fault of a partition is written when its queue has room. -/
def execRemoteFaultRecord (part : Nat) (s : State) : Host.Outcome State Fault Refusal :=
  .next (match s.part part, s.frozen.find? fun e => e.2.part = part && !e.2.recorded with
    | some x, some (k, z) =>
      if x.rfq = 0 then s
      else
        match s.appendRecord x x.rfq.toNat z.record with
        | (true, t) => { t with frozen := smapInsert t.frozen k { z with recorded := true } }
        | (false, _) => s
    | _, _ => s)

/-- STREAM_FREEZE (R320, R321): a freeze reaches the source. -/
def execStreamFreeze (rid serial : Nat) (s : State) : Host.Outcome State Fault Refusal :=
  .next (match tabGet s.fabric rid with
    | none => s
    | some q =>
      if q.performed || (s.streamOf q).frozenBy.any (fun x => x.1 = rid) then s
      else if q.pkg = s.pkg.number then
        if s.frozen.any fun e => e.2.req = .own rid && e.2.serial = serial then s.freezeStream rid serial q else s
      else if q.left then s.freezeStream rid serial q
      else s)

/-- STREAM_RESUME (R322). -/
def execStreamResume (slot stream serial : Nat) (fail : Bool) (s : State) : Host.Outcome State Fault Refusal :=
  .next (s.resumeStream slot stream serial fail)

/-- A request leaves the source's tables (R323, R329): its cause is recorded, its locks are released, and, unless its group
was killed, its destinations are written and its counter falls. -/
def State.finishReq (s : State) (rid : Nat) (q : FabReq) (cause : Option Nat) (vals : List (Nat × Word)) : State :=
  let s0 : State := { s with fabric := smapErase s.fabric rid }
  let s1 := s0.unlock q.locks
  if q.orphan then s1.releaseReqs
  else
    let s2 := s1.recordCause q.slot q.stream cause
    let s3 := match q.pend with
      | some id => (s2.modGroup q.gid fun g =>
          match tabGet g.pend id with
          | none => g
          | some op =>
            let ds := op.dests.map fun (d : DestWord) => { d with val := if cause = none then smapGet 0 vals d.lane else 0 }
            { g with pend := smapInsert g.pend id { op with dests := ds } }).landOp q.gid id
      | none => (s2.modGroup q.gid fun g => g.countDown q.counter).syncImage q.gid
    s3.releaseReqs

/-- Whether the source of a request can take its completion: its group is live, or was killed. -/
def State.reqHome (s : State) (q : FabReq) : Bool := q.orphan || (s.group q.gid).isSome

/-- The lanes' answers of a reply, by lane. -/
def FabReq.replyVals (q : FabReq) (vs : List Word) : List (Nat × Word) :=
  (List.range q.lanes.length).map fun k => ((q.lanes.map (·.lane)).getD k 0, vs.getD k 0)

/-- FABRIC_REQUEST_COMPLETE (R323, R329, R332): a request performed or failed completes; from another package the reply
answers a request, or a transfer's chunk. -/
def execFabricRequestComplete (rid : Nat) (reply : Reply) (s : State) : Host.Outcome State Fault Refusal :=
  .next (match tabGet s.fabric rid with
    | none => s
    | some q =>
      match q.kind with
      | .xfer _ _ len _ _ =>
        if q.performed || q.pkg = s.pkg.number || q.sent ≤ q.credited then s
        else
          match reply.cause with
          | some c => (s.failXferPot rid q).setReq rid { q with performed := true, cause := some c.toNat, credited := q.sent }
          | none => s.setReq rid { q with credited := q.sent, performed := q.sent = len }
      | _ =>
        if !s.reqHome q then s
        else if q.performed then
          if s.writePerformed rid q.lines then s.finishReq rid q q.cause q.vals else s
        else if q.pkg ≠ s.pkg.number && q.left && !((s.streamOf q).frozenBy.any fun x => x.1 = rid) then
          s.finishReq rid q (reply.cause.map (·.toNat)) (q.replyVals reply.vals)
        else s)

/-- Whether the seat team of a chunk can take its credit (R331, R332): none when it can. -/
inductive SeatCheck where
  | ok
  | waits
  | fails (cause : Nat)

/-- The seat of a chunk checked at its target (R323, R331, R340); a chunk with neither a pot nor a window needs none. -/
def State.chunkSeat (s : State) (part : Nat) (a : Arrival) (space : Bool) : SeatCheck :=
  if a.pot.isNone && !space then .ok
  else if seatPkg a.seat ≠ s.pkg.number then .fails 10
  else
    match s.applyArrival part { a with credit := 0 } false with
    | .applied _ => .ok
    | .waits => .waits
    | .stale => .fails 0
    | .beyond => .fails 8

/-- The window arrival of a chunk: its bytes when they go to the window, and its credit. -/
def chunkArrival (seat : DWord) (space : Bool) (at_ : Nat) (bs : List Byte) (pot : Option Nat) : Arrival :=
  { seat := seat, off := if space then at_ else 0, data := if space then bs else [], pot := pot, credit := bs.length }

/-- A chunk's bytes credited at their target (R332). -/
def State.creditXfer (s : State) (rid : Nat) (q : FabReq) (len : Nat) (pot : Option Nat) : State :=
  let q1 := { q with credited := q.sent, performed := q.sent = len, lines := [], walked := [] }
  match pot with
  | none => s.setReq rid q1
  | some p =>
    match s.applyArrival q.part { seat := q.seat, off := 0, data := [], pot := some p, credit := q.sent - q.credited } false with
    | .applied t => t.setReq rid q1
    | .waits => s
    | .stale => s.failReq rid 0
    | .beyond => s.failReq rid 8

/-- The next chunk of a transfer to this package (R331, R332); its source is read by `ag` from the places `ps`. -/
def State.chunkOwn (s : State) (ag : Agent) (ps : List Place) (rid : Nat) (q : FabReq) (at_ len n : Nat) (space : Bool) (pot : Option Nat) (bs : List Byte) :
    State :=
  let a := chunkArrival q.seat space at_ bs pot
  match s.chunkSeat q.part a space with
  | .waits => s
  | .fails c => s.failReq rid c
  | .ok =>
    if space then
      match s.applyArrival q.part a false with
      | .applied t => (t.touchPlaces ag ps).setReq rid { q with sent := q.sent + n, credited := q.sent + n, performed := q.sent + n = len }
      | _ => s
    else
      match s.remoteCheck q.part .write [{ lane := 0, va := at_, x := 0, y := 0 }] with
      | .busy => s
      | .fault va c => s.freezeOwn rid q va c 1
      | .ok xs =>
        match xs with
        | [] => s
        | x :: _ => (((s.touchPlaces ag ps).installRemote q.part x.2).strongPut x.2 bs).setReq rid
            { q with sent := q.sent + n, lines := x.2.lines n, walked := (x.2.walked ++ ps.flatMap Place.walked).eraseDups }

/-- The next step of a transfer of this package (R332): a chunk is read and written or sent, or the one before it is
credited. -/
def State.stepXfer (s : State) (rid : Nat) : State :=
  match tabGet s.fabric rid with
  | none => s
  | some q =>
    match q.kind with
    | .xfer src dst len space pot =>
      if q.performed then s
      else if q.credited < q.sent then
        if q.pkg = s.pkg.number && s.writePerformed rid q.lines then s.creditXfer rid q len pot else s
      else
      match s.group q.gid with
      | none => s
      | some g =>
      if q.orphan || q.waitsLocks || s.quiet q.part || q.frozen || !q.left || (s.streamOf q).state ≠ 0 || s.drained q
          || (s.earlierReq rid q fun e => !e.performed) || (q.pkg = s.pkg.number && s.frozenHere q.pkg q.slot q.stream (.own rid)) then s
      else
        let at_ := if space then dst.toNat + q.sent else (dst.toNat + q.sent) % 2 ^ 54
        let n := min (len - q.sent) (128 - at_ % 128)
        let ag : Agent := { part := q.part, priv := q.priv, core := coreOf q.gid, team := g.team, cached := true }
        let from_ := (src.toNat + q.sent) % 2 ^ 64
        match s.engineRead ag 3 from_ n with
        | .error .busy => s
        | .error (.fail _ _) => s.failReq rid 7
        | .ok bs =>
          if q.pkg = s.pkg.number then s.chunkOwn ag (s.enginePlaces ag [(from_, n)]) rid q at_ len n space pot bs
          else
            let plane := s.planeOf q.pkg at_
            (((s.engineTouch ag [(from_, n)]).send q.pkg q.slot q.stream (.chunk rid at_ plane bs)).setReq rid
              { q with sent := q.sent + n, planes := [plane] }).releaseReqs
    | _ => s

/-- FAIL of the pot of another package's transfer, where its seat is of this package (R332). -/
def State.failForeignPot (s : State) (part : Nat) (c : XferChunkMsg) : State :=
  if c.pot.isSome && seatPkg c.seat = s.pkg.number then
    s.arrive part { seat := c.seat, off := 0, data := [], pot := c.pot, credit := 0 } true
  else s

/-- A chunk of another package's transfer that is next of its stream here, written (R331, R332); one that fails sets FAIL of the
pot. -/
def State.writeChunk (s : State) (k part : Nat) (c : XferChunkMsg) : State :=
  let s0 := s.replayed (.foreignChunk c)
  let out := fun (t : State) (x : Option Nat) => (t.dropForeign k).send c.srcPkg c.slot c.stream (.reply x [])
  let a := chunkArrival c.seat c.space c.va c.data c.pot
  match s.chunkSeat part a c.space with
  | .fails x => out (s0.failForeignPot part c) (some x)
  | .waits => if c.space then (s0.dropForeign k).holdArrival part a false (some (c.srcPkg, c.slot, c.stream)) else s
  | .ok =>
    if c.space then
      match s0.applyArrival part a false with
      | .applied t => out t none
      | _ => s
    else
      match s.remoteCheck part .write [{ lane := 0, va := c.va, x := 0, y := 0 }] with
      | .busy => s
      | .fault va x =>
        (s0.freezeForeign
          { part := part, req := .foreignChunk c, srcPkg := c.srcPkg, slot := c.slot, stream := c.stream, serial := c.serial,
            va := va, cause := x, access := 1, recorded := false, replay := false }).send c.srcPkg c.slot c.stream (.freeze c.serial)
      | .ok ps =>
        match ps with
        | [] => s
        | x :: _ =>
          ((s0.installRemote part x.2).strongPut x.2 c.data).doneForeign k [] (x.2.lines c.data.length) x.2.walked

/-- A chunk of another package's transfer reaches this target (R319, R332), or word that the transfer has failed. -/
def State.chunkForeign (s : State) (c : XferChunkMsg) : State :=
  if s.frozenHere c.srcPkg c.slot c.stream (.foreignChunk c) then s
  else
    match s.domainPart c.domain with
    | none => s.send c.srcPkg c.slot c.stream (.reply (some 2) [])
    | some part =>
      if c.fail then s.failForeignPot part c
      else
        let q := s.enterForeign part (.foreignChunk c)
        if s.heldBefore s.nextId c.srcPkg c.slot c.stream then q.2 else q.2.writeChunk q.1 part c

/-- A chunk that waits at this target goes on: it is written in its turn, or its answer leaves. -/
def State.chunkWaiting (s : State) (k : Nat) : State :=
  match tabGet s.foreign k with
  | none => s
  | some h =>
    match h.req with
    | .foreignChunk c =>
      if h.done then s.answerForeign k
      else if s.heldBefore k c.srcPkg c.slot c.stream then s else s.writeChunk k h.part c
    | _ => s

/-- XFER_CHUNK (R332). -/
def execXferChunk (r : ReqRef) (s : State) : Host.Outcome State Fault Refusal :=
  .next (match r with
    | .own rid => s.stepXfer rid
    | .foreign _ => s
    | .foreignChunk c => s.chunkForeign c
    | .waiting k => s.chunkWaiting k)

/-- XFER_COMPLETE (R332): every chunk is performed and credited, or the transfer has failed or lost its group; its lock is
released and c5 falls. -/
def execXferComplete (rid : Nat) (s : State) : Host.Outcome State Fault Refusal :=
  .next (match tabGet s.fabric rid with
    | none => s
    | some q =>
      match q.kind with
      | .xfer _ _ _ _ _ =>
        if s.reqHome q && (q.performed || (q.orphan && q.credited = q.sent)) then s.finishReq rid q q.cause [] else s
      | _ => s)

/-- RFENCE_ADD (R330): once every earlier request of the stream and every earlier access of the group is performed or has
failed, the add is sent. -/
def execRfenceAdd (rid : Nat) (s : State) : Host.Outcome State Fault Refusal :=
  .next (match tabGet s.fabric rid with
    | none => s
    | some q =>
      match s.group q.gid with
      | none => s
      | some g =>
        if q.kind = .rfence && !q.left && !q.performed && (s.streamOf q).state = 0 && !s.drained q
            && (s.fabric.all fun e => !(e.1 < rid && e.2.slot = q.slot && e.2.stream = q.stream
              && !(e.2.performed && (e.2.cause.isSome || s.writePerformed e.1 e.2.lines))))
            && q.after.all fun id => (tabGet g.pend id).isNone then
          (s.depart rid q).releaseReqs
        else s)

/-- A delivery's outcome answered to its sender (R337). -/
def State.answerDelivery (s : State) (d : DeliveryMsg) (cause : Option Nat) : State :=
  s.send d.srcPkg d.slot d.stream (.reply cause [])

/-- A delivery that waits here (R337, R339). -/
def State.holdDelivery (s : State) (part : Nat) (d : DeliveryMsg) : State :=
  { s with nextId := s.nextId + 1, deliveries := smapInsert s.deliveries s.nextId { part := part, msg := d } }

/-- A delivery of another package, or one that waits here, applied by the seat entry's state (R337). -/
def State.deliverHere (s : State) (did : Option Nat) (part : Nat) (d : DeliveryMsg) : State :=
  let gone := match did with
    | some k => { s with deliveries := smapErase s.deliveries k }
    | none => s
  match s.applyDelivery part d.seat d.lanes d.v0 d.v1 with
  | .waits =>
    if did.isSome then s else s.holdDelivery part d
  | .applied t width =>
    ({ t with deliveries := gone.deliveries }).answerDelivery d (if width then some 1 else none)
  | .dropped c => gone.answerDelivery d (some c)

/-- A delivery of this package to a seat of its own (R336, R337). -/
def State.deliverOwn (s : State) (rid : Nat) : State :=
  match tabGet s.fabric rid with
  | none => s
  | some q =>
    match q.kind with
    | .rstv v0 v1 =>
      if !s.reqReady rid q then s
      else
        match s.applyDelivery q.part q.seat q.mask v0 v1 with
        | .waits => s
        | .applied t width => t.setReq rid { q with performed := true, cause := if width then some 1 else none }
        | .dropped c => s.setReq rid { q with performed := true, cause := some c }
    | _ => s

/-- A delivery that waits here goes on in its turn (R337, R339). -/
def State.deliverHeld (s : State) (did : Nat) : State :=
  match tabGet s.deliveries did with
  | some h =>
    if s.heldBefore did h.msg.srcPkg h.msg.slot h.msg.stream then s else s.deliverHere (some did) h.part h.msg
  | none => s

/-- REGISTER_DELIVERY (R337): one of a stream that is frozen here is discarded (R321). -/
def execRegisterDelivery (d : DeliveryRef) (s : State) : Host.Outcome State Fault Refusal :=
  .next (match d with
    | .own rid => s.deliverOwn rid
    | .foreign m =>
      if s.frozenHere m.srcPkg m.slot m.stream (.waiting 0) then s
      else
        match s.domainPart m.domain with
        | none => s.answerDelivery m (some 2)
        | some part =>
          if s.heldBefore s.nextId m.srcPkg m.slot m.stream then s.holdDelivery part m else s.deliverHere none part m
    | .waiting did => s.deliverHeld did)

/-- DELIVERY_BOUNCE (R337): a delivery that an old core returned is applied by the entry as it now reads. -/
def execDeliveryBounce (did : Nat) (s : State) : Host.Outcome State Fault Refusal :=
  .next (s.deliverHeld did)

/-- SEAT_ARRIVAL (R340): an arrival that waited is applied by the entry's state. -/
def execSeatArrival (a : Arrival) (s : State) : Host.Outcome State Fault Refusal :=
  .next (match s.arrivals.find? fun e => e.2.arr = a with
    | none => s
    | some (k, h) =>
      let out := fun (t : State) (c : Option Nat) =>
        let t1 := { t with arrivals := smapErase t.arrivals k }
        match h.sender with
        | some x => t1.send x.1 x.2.1 x.2.2 (.reply c [])
        | none => t1
      match (if (h.sender.map fun x => s.heldBefore k x.1 x.2.1 x.2.2).getD false then .waits
          else s.applyArrival h.part a h.fail) with
      | .applied t => out t none
      | .waits => s
      | .stale => out s (some 0)
      | .beyond => out s (some 8))

/-- The cycles of 10 µs at 1.3 GHz (R3, R342). -/
def beatCycles : Nat := 13000

/-- The cycles of five heartbeat periods, 50 µs (R342). -/
def silentCycles : Nat := 65000

/-- The heartbeats that are due together (R342): on every live plane to every other package that a rank table of this package
names, under 8 × package + plane. -/
def State.beats (s : State) : List Nat :=
  let pkgs := (s.parts.flatMap fun e => e.2.ranks.filterMap fun r =>
    if r.2.valid && r.2.pkg ≠ s.pkg.number then some r.2.pkg else none).eraseDups
  pkgs.flatMap fun p => ([0, 1, 2, 3, 4, 5, 6, 7].filter fun k =>
    !(s.pkg.deadPlanes.any fun d => (d.1 = p || d.1 = 1024) && d.2 = k)).map (8 * p + ·)

/-- HEARTBEAT_SEND (R342): every 10 µs. -/
def execHeartbeatSend (s : State) : Host.Outcome State Fault Refusal :=
  .next (if s.pkg.lastBeatSent + beatCycles ≤ s.clock then
      { s with pkg := { s.pkg with lastBeatSent := s.clock,
                                   beatsSent := s.beats.foldl (fun m k => smapPut 0 m k (smapGet 0 m k + 1)) s.pkg.beatsSent } }
    else s)

/-- HEARTBEAT_ARRIVAL (R342). -/
def execHeartbeatArrival (pkg plane : Nat) (s : State) : Host.Outcome State Fault Refusal :=
  .next { s with pkg := { s.pkg with lastBeat := smapInsert s.pkg.lastBeat (8 * pkg + plane % 8) s.clock } }

/-- Whether a rank table of this package names a package, in an entry that does not say that it has failed (R342). -/
def State.rankNamed (s : State) (pkg : Nat) : Bool :=
  s.parts.any fun e => e.2.ranks.any fun r => r.2.valid && !r.2.failed && r.2.pkg = pkg

/-- Whether no heartbeat of a package has come on a plane for 50 µs (R318, R342). -/
def State.silent (s : State) (pkg plane : Nat) : Bool :=
  match tabGet s.pkg.lastBeat (8 * pkg + plane) with
  | some c => c + silentCycles ≤ s.clock
  | none => false

/-- A package declared failed (R315, R342): F in every rank entry that names it, LINK for every request in flight to it,
and Error for every stream frozen at it. -/
def State.declareFailed (s : State) (pkg : Nat) : State :=
  let rids := (s.fabric.filter fun e => e.2.pkg = pkg && !e.2.performed).map (·.1)
  let strs := (s.fabric.filter fun e => e.2.pkg = pkg && (s.streamOf e.2).frozenBy.any fun x => x.1 = e.1).map fun e =>
    (e.2.slot, e.2.stream)
  let mark := fun (r : Nat × RankEntry) => if r.2.pkg = pkg then (r.1, { r.2 with failed := true }) else r
  let ps := s.parts.map fun (e : Nat × Part) => (e.1, { e.2 with ranks := e.2.ranks.map mark })
  let known := if s.pkg.failedPkgs.contains pkg then s.pkg.failedPkgs else pkg :: s.pkg.failedPkgs
  let s1 := { s with parts := ps, pkg := { s.pkg with failedPkgs := known } }
  let s2 := strs.foldl (fun t x => t.modStream x.1 x.2 fun y =>
    { y with state := 2, frozenBy := y.frozenBy.filter fun z => !(rids.contains z.1) }) s1
  rids.foldl (fun t r => t.failReq r 5) s2

/-- PACKAGE_DECLARED_FAILED (R342): no heartbeat on any plane for 50 µs. -/
def execPackageDeclaredFailed (pkg : Nat) (s : State) : Host.Outcome State Fault Refusal :=
  .next (if s.rankNamed pkg && [0, 1, 2, 3, 4, 5, 6, 7].all fun p => s.silent pkg p then
      s.declareFailed pkg
    else s)

/-- UNDELIVERABLE_RETURN (R315): a request that no package of the pod could take completes with LINK, and the pod number
is declared failed. -/
def execUndeliverableReturn (rid : Nat) (s : State) : Host.Outcome State Fault Refusal :=
  .next (match tabGet s.fabric rid with
    | none => s
    | some q => if q.left && !q.performed && q.pkg ≠ s.pkg.number then s.declareFailed q.pkg else s)

/-- A plane to a package, or to every one (1024), becomes dead, and an ordering drain of its lines begins (R318). -/
def State.planeDies (s : State) (pkg plane : Nat) : State :=
  { s with pkg := { s.pkg with deadPlanes := (pkg, plane) :: s.pkg.deadPlanes, draining := (pkg, plane) :: s.pkg.draining } }

/-- PLANE_HEARTBEAT_TIMEOUT (R318): silence on one plane while others still carry heartbeats. -/
def execPlaneHeartbeatTimeout (pkg plane : Nat) (s : State) : Host.Outcome State Fault Refusal :=
  .next (if s.silent pkg plane && !(s.pkg.deadPlanes.contains (pkg, plane))
        && [0, 1, 2, 3, 4, 5, 6, 7].any (fun p => (tabGet s.pkg.lastBeat (8 * pkg + p)).isSome && !s.silent pkg p) then
      s.planeDies pkg plane
    else s)

/-- LINK_FAILURE (R10, R318, R407): the link layer reports a plane failed, which retires it: its READY bit clears, HEALTH.REPLACE
is set and RETIRED is one more. -/
def execLinkFailure (plane : Nat) (s : State) : Host.Outcome State Fault Refusal :=
  .next (if s.pkg.deadPlanes.contains (1024, plane % 8) then s
    else
      let s1 := s.planeDies 1024 (plane % 8)
      let was := s1.pkg.readyM.getLsbD (16 + plane % 8)
      { s1 with pkg := { s1.pkg with readyM := s1.pkg.readyM &&& ~~~(BitVec.ofNat 32 (2 ^ (16 + plane % 8))), replace := true,
                                     retired := if was then min 255 (s1.pkg.retired + 1) else s1.pkg.retired } })

/-- What was sent on a dead plane and is not complete, sent again on the planes that its lines have now (R318). -/
def State.resend (s : State) (pkg plane : Nat) : State :=
  let goes := fun (p : Nat) => pkg = p || pkg = 1024
  let again := fun (q : FabReq) => goes q.pkg && q.left && !q.performed && q.planes.contains plane
  let fs := s.fabric.map fun (e : Nat × FabReq) =>
    if again e.2 then (e.1, { e.2 with planes := s.planesOf e.2 }) else e
  let moved := fun (e : Nat × Sent) => match e.2.msg with
    | .chunk rid a p bs =>
      let open_ := (tabGet s.fabric rid).any fun (q : FabReq) => !q.performed && q.credited < q.sent
      if goes e.2.pkg && p = plane && open_ then
        (e.1, { e.2 with msg := .chunk rid a (s.planeOf e.2.pkg a) bs })
      else e
    | _ => e
  { s with fabric := fs, sent := s.sent.map moved }

/-- ORDERING_DRAIN_END (R318): what was sent on the dead plane has completed or is sent again, and the requests to the remapped
lines leave. -/
def execOrderingDrainEnd (pkg plane : Nat) (s : State) : Host.Outcome State Fault Refusal :=
  .next ({ s.resend pkg plane with
    pkg := { s.pkg with draining := s.pkg.draining.filter fun d => d ≠ (pkg, plane) } }.releaseReqs)

/-- FRAME_AUTH_FAIL (R318): the frame is discarded and sent again, and nothing is applied. -/
def execFrameAuthFail (_plane : Nat) (s : State) : Host.Outcome State Fault Refusal := .next s

end Sys2Proof.Machine
end

