-- ==== Sys2Proof/Machine/Paging.lean ====
section
/-! DEFINITION. Frame pools (R371 to R373), `xlat` (R374), placement and duplication (R366 to R369, R375, R376), and the
steps of the directory (R359 to R362) and of the host at it (R358). -/
namespace Sys2Proof.Machine

/-- What the issue logic knows of a SYSTEM word over uniform registers (R32, R55): those it reads and writes. -/
def sysSpec (w : Nat) (st : BitVec 2) (priv : Bool) (rs ws : List Nat) : Spec :=
  { words := [w], stall := st, privileged := priv, sNamed := ws ++ rs, reads := rs.map sName, writes := ws.map fun r => (sName r, 0) }

/-- The bytes of a frame of a pool's size (R371). -/
def frameSize (large : Bool) : Nat := if large then 2 ^ 29 else 2 ^ 16

/-- The pool that a control word names to a core (R371): its die and size; none for a reserved bit or code. -/
def poolOf (c : Word) (core : Nat) : Option (Nat × Bool) :=
  let d := bits c.toNat 0 3
  if 2 ^ 4 ≤ c.toNat || 5 ≤ d then none else some (if d = 4 then dieOf core else d, c.getLsbD 3)

/-- The trap of a control word (R371). -/
def poolTrap (c : Word) : Res := .trap 0x01 (c.setWidth 64) none

/-- A pool's frames replaced (R371). -/
def State.setPool (s : State) (part k : Nat) (fs : List Nat) : State :=
  s.modPart part fun x => { x with pools := smapPut [] x.pools k fs }

/-- Every byte of `n` from `pa` set to 0, and every cached copy of the lines invalidated, without what it held for the home
(R372, R400). Memory lists no 0 byte (log entry 1), so the listed bytes go. -/
def State.zeroRange (s : State) (pa n : Nat) : State :=
  let out := fun (a : Nat) => !(pa ≤ a && a < pa + n)
  let kept := s.poison.filter fun e => out (128 * e.1)
  { s with mem := s.mem.filter fun c => out c.1,
           poison := if s.pkg.lostUnits = [] then kept
             else (upFrom (pa / 128) (n / 128)).foldl (fun m l => smapPut 0 m l (s.poisonBase l)) kept,
           dir := s.dir.map fun e =>
             if out (128 * e.1) then e
             else (e.1, { e.2 with invals := e.2.holders, arriving := [], l1 := e.2.l1.map fun c => (c.1, { c.2 with dirty := 0 }) }),
           hist := s.hist.filter fun h => out h.key }

/-- The lines of `n` bytes from `pa` that any holder has a copy of (R359). -/
def State.linesHeld (s : State) (pa n : Nat) : List Nat := (s.dir.map (·.1)).filter fun l => pa ≤ 128 * l && 128 * l < pa + n

/-- An instruction goes on once writes to lines are performed (R356): at once, or after a wait that keeps a frame. -/
def Env.afterWrites (s : State) (frame : Nat) (ls : List Nat) (k : State → Res) : Res :=
  if s.linesDone ls && ls.all fun l => !s.awaited l then k s else .block s (.writesDone frame ls) true

/-- `pgmap` (R372): the result follows the zero writes once they are performed. -/
def execPgmap (f : SysDA) (s : State) : Host.Outcome State Fault Refusal :=
  issue (fun _ _ => sysSpec (packSysDA 0xF0C00000 f) f.st true [f.sa.toNat] (upFrom f.sd.toNat 2))
    (fun e =>
      let c := e.v.sreg f.sa.toNat
      let ends := fun (fr : Nat) (t : State) => Res.ok (t.modGroup e.gid fun g => g.setSpair f.sd.toNat (BitVec.ofNat 64 fr))
      if e.marker then ends (e.grids.headD 0) e.s
      else
        match poolOf c (coreOf e.gid) with
        | none => poolTrap c
        | some (d, large) =>
          match e.s.popFrame e.g.part (poolKey d large) with
          | none => e.upd (e.g.setSpair f.sd.toNat 0)
          | some (fr, s1) =>
            Env.afterWrites (s1.zeroRange fr (frameSize large)) fr (s1.linesHeld fr (frameSize large)) (ends fr)) s

/-- Whether a frame may join a pool (R373). -/
def State.frameOk (s : State) (x : Part) (d : Nat) (large : Bool) (fr : Nat) : Bool :=
  fr % frameSize large = 0 && holdsMemory s fr && !safeTier fr && fr < 2 ^ 52 && x.owns fr && homeDie fr = d

/-- `pgpool.add` (R373). -/
def execPgpoolAdd (f : SysDA) (s : State) : Host.Outcome State Fault Refusal :=
  issue (fun _ _ => sysSpec (packSysDA 0xF0E00000 f) f.st true (upFrom f.sa.toNat 4) [f.sd.toNat])
    (fun e =>
      let c := e.v.sreg (f.sa.toNat + 2)
      match poolOf c (coreOf e.gid), e.part with
      | none, _ => poolTrap c
      | some _, none => e.illegal 0x01
      | some (d, large), some x =>
        let fr := (e.v.spair f.sa.toNat).toNat
        let fs := x.pool (poolKey d large)
        if !e.s.frameOk x d large fr then e.upd (e.g.setSreg f.sd.toNat 0xFFFFFFFE)
        else if 65536 ≤ fs.length then e.upd (e.g.setSreg f.sd.toNat 0xFFFFFFFF)
        else .ok ((e.s.setPool e.g.part (poolKey d large) (fr :: fs)).modGroup e.gid fun g =>
          g.setSreg f.sd.toNat (BitVec.ofNat 32 (fs.length + 1)))) s

/-- `pgpool.rem` (R373). -/
def execPgpoolRem (f : SysDA) (s : State) : Host.Outcome State Fault Refusal :=
  issue (fun _ _ => sysSpec (packSysDA 0xF0E00004 f) f.st true [f.sa.toNat] (upFrom f.sd.toNat 2))
    (fun e =>
      let c := e.v.sreg f.sa.toNat
      match poolOf c (coreOf e.gid) with
      | none => poolTrap c
      | some (d, large) =>
        match e.s.popFrame e.g.part (poolKey d large) with
        | none => e.upd (e.g.setSpair f.sd.toNat 0)
        | some (fr, s1) => .ok (s1.modGroup e.gid fun g => g.setSpair f.sd.toNat (BitVec.ofNat 64 fr))) s

/-- `pgpool.cnt` (R373). -/
def execPgpoolCnt (f : SysDA) (s : State) : Host.Outcome State Fault Refusal :=
  issue (fun _ _ => sysSpec (packSysDA 0xF0E00008 f) f.st true [f.sa.toNat] [f.sd.toNat])
    (fun e =>
      let c := e.v.sreg f.sa.toNat
      match poolOf c (coreOf e.gid), e.part with
      | none, _ => poolTrap c
      | some _, none => e.illegal 0x01
      | some (d, large), some x => e.upd (e.g.setSreg f.sd.toNat (BitVec.ofNat 32 (x.pool (poolKey d large)).length))) s

/-- What `xlat` reports (R374): status, level, entry address, and, when mapped, the leaf, if any, and the address. -/
structure Xlated where
  status : Nat
  level : Nat
  entry : Nat
  pte : Option Nat
  pa : Nat
deriving DecidableEq, Repr

/-- A report with a status alone. -/
def Xlated.only (st : Nat) : Xlated := { status := st, level := 0, entry := 0, pte := none, pa := 0 }

/-- The translation that `xlat` and `dupset` report for a flat address (R374). -/
def State.xlat (s : State) (x : Part) (priv : Bool) (addr : Nat) : Xlated :=
  match bits addr 60 4 with
  | 0 =>
    if bits addr 57 3 ≠ 0 then .only 6
    else if priv && bit addr 56 then
      if bits addr 52 4 ≠ 0 then .only 6
      else
        let pa := bits addr 0 52
        if safeTier pa || !holdsMemory s pa || !x.owns pa then .only 3
        else { status := 0, level := 0, entry := 0, pte := none, pa := pa }
    else
      let w := walk s x (bits addr 0 57)
      let at_ : Nat → Xlated := fun st => { status := st, level := w.level, entry := w.entry.getD 0, pte := none, pa := 0 }
      match w.fin with
      | .invalid => at_ 1
      | .touch => at_ 2
      | .malformed => at_ 3
      | .outside => at_ 3
      | .busy => at_ 4
      | .writing => at_ 4
      | .leaf => if x.owns (leafPa w addr) then { at_ 0 with pte := some w.pte, pa := leafPa w addr } else at_ 3
  | 1 => if bits addr 32 28 ≠ 0 then .only 6 else .only 5
  | 2 => if bits addr 28 32 ≠ 0 then .only 6 else .only 5
  | 3 => if !priv || bits addr 19 41 ≠ 0 then .only 6 else .only 5
  | _ => .only 6

/-- The descriptor of `xlat` (R374). -/
def Xlated.word (r : Xlated) : Word :=
  if r.status ≠ 0 then BitVec.ofNat 32 (r.status + r.level * 2 ^ 9)
  else
    let leaf := match r.pte with
      | none => 0
      | some e => b2n (pteW e) 3 + b2n (pteX e) 4 + b2n (pteU e) 5 + b2n (pteD e) 6 + b2n (pteKey e ≠ 0) 7 + b2n (r.level = 2) 8
    BitVec.ofNat 32 (leaf + r.level * 2 ^ 9 + tierOf r.pa * 2 ^ 11 + homeDie r.pa * 2 ^ 13 + homeSlice r.pa * 2 ^ 15)

/-- The page-table line whose write the walk of a flat address waits for at its home (R357). -/
def State.xlatWaits (s : State) (x : Part) (priv : Bool) (addr : Nat) : Option Nat :=
  if bits addr 57 7 = 0 && !(priv && bit addr 56) && (walk s x (bits addr 0 57)).fin = .writing then
    (walk s x (bits addr 0 57)).lines.head?
  else none

/-- `xlat` (R374): no trap, no wait for a busy entry, and no A bit; its walk waits as R357 has it. -/
def execXlat (f : SysDA) (s : State) : Host.Outcome State Fault Refusal :=
  issue (fun _ _ => sysSpec (packSysDA 0xF1400000 f) f.st false (upFrom f.sa.toNat 2) (upFrom f.sd.toNat 4))
    (fun e =>
      match e.part with
      | none => e.upd (e.g.setSregs f.sd.toNat [6, 0, 0, 0])
      | some x =>
        let r := e.s.xlat x e.g.priv (e.v.spair f.sa.toNat).toNat
        match e.s.xlatWaits x e.g.priv (e.v.spair f.sa.toNat).toNat with
        | some l => e.waitRoom (.lineBusy l)
        | none => e.upd ((e.g.setSregs f.sd.toNat [r.word, 0]).setSpair (f.sd.toNat + 2) (if e.g.priv then BitVec.ofNat 64 r.entry else 0))) s

/-- The 64 KiB page that a placement address names (R375): its frame number and its entry; none when it is ignored. -/
def Env.placePage (e : Env) (sa : Nat) : Option (Nat × Nat) :=
  match e.part with
  | none => none
  | some x =>
    let r := e.s.xlat x e.g.priv (e.v.spair sa).toNat
    match r.pte with
    | some _ => if r.status = 0 && r.level = 3 then some (r.pa / 2 ^ 16, r.entry) else none
    | none => none

/-- The page record of a frame whose entry a placement instruction's walk has told (R366). -/
def State.pageRec (s : State) (part frame entry : Nat) : PageRec := (s.page part frame).learn entry 3

/-- A request to migrate a page, unless the home drops it (R375). -/
def Env.askMove (e : Env) (sa die : Nat) : Res :=
  match e.placePage sa with
  | none => .ok e.s
  | some (fr, entry) =>
    let r := e.s.pageRec e.g.part fr entry
    .ok (if Config.placeAccepted e.s.serial then
      { e.s with serial := e.s.serial + 1, pages := smapInsert e.s.pages fr { r with want := some die } }
    else { e.s with serial := e.s.serial + 1 })

/-- `place.to` (R375). -/
def execPlaceTo (f : SysAB) (s : State) : Host.Outcome State Fault Refusal :=
  issue (fun _ _ => sysSpec (packSysAB 0xF1600000 f) f.st false (upFrom f.sa.toNat 2 ++ [f.sb.toNat]) [])
    (fun e =>
      let d := (e.v.sreg f.sb.toNat).toNat
      if 4 ≤ d then e.illegal 0x01 else e.askMove f.sa.toNat d) s

/-- `place.here` (R375). -/
def execPlaceHere (f : SysA) (s : State) : Host.Outcome State Fault Refusal :=
  issue (fun _ _ => sysSpec (packSysA 0xF1600004 f) f.st false (upFrom f.sa.toNat 2) [])
    (fun e => e.askMove f.sa.toNat (dieOf (coreOf e.gid))) s

/-- `place.reset` (R375). -/
def execPlaceReset (f : SysA) (s : State) : Host.Outcome State Fault Refusal :=
  issue (fun _ _ => sysSpec (packSysA 0xF1600008 f) f.st false (upFrom f.sa.toNat 2) [])
    (fun e =>
      match e.placePage f.sa.toNat with
      | none => .ok e.s
      | some (fr, entry) =>
        let r := e.s.pageRec e.g.part fr entry
        .ok { e.s with pages := smapInsert e.s.pages fr { r with counts := [0, 0, 0, 0] } }) s

/-- The 64 KiB at a frame copied to another, keyed lines re-encrypted (R367, R403); copies of the lines written go (R360). -/
def State.copyFrame (s : State) (key : Option (List Byte)) (src dst : Nat) : State :=
  ((List.range 512).foldl (fun t i =>
    let line := t.plainLine key (src / 128 + i)
    t.setBytes (dst + 128 * i) (match key with
      | none => line
      | some k => xtsEncLine k (dst + 128 * i) line)) s).dirStrong (s.linesHeld dst 65536)

/-- The key of an entry in a partition. -/
def Part.keyFor (x : Part) (e : Nat) : Option (List Byte) := if pteKey e = 0 then none else tabGet x.keys (pteKey e)

/-- The dies on which a partition owns a slice group (R376). -/
def Part.dies (x : Part) : List Nat := [0, 1, 2, 3].filter fun d => bits x.region.toNat (16 * d) 16 ≠ 0

/-- One frame from the 64 KiB pool of each die; none when one is empty (R376). -/
def State.takeFrames (s : State) (part : Nat) : List Nat → Option (List (Nat × Nat) × State)
  | [] => some ([], s)
  | d :: r =>
    match s.popFrame part (poolKey d false) with
    | none => none
    | some (fr, s1) => (State.takeFrames s1 part r).map fun q => ((d, fr) :: q.1, q.2)

/-- The hardware writes the entry at an address (R356). -/
def State.writeEntry (s : State) (a e : Nat) : State := s.writeMem a (toBytes 8 e)

/-- What the hardware is doing to the entry of a page, replaced (R367, R376). -/
def State.setMove (s : State) (f : Nat) (r : PageRec) (m : Option PageMove) : State := s.setPage f { r with moving := m }

/-- Frames returned to their dies' pools (R369, R376). -/
def State.pushFrames (s : State) (part : Nat) (fs : List (Nat × Nat)) : State :=
  fs.foldl (fun t d => t.pushFrame part d.1 d.2) s

/-- `dupset` ends with a result. -/
def Env.dupEnds (e : Env) (sd : Nat) (x : Word) (t : State) : Res := .ok (t.modGroup e.gid fun g => g.setSreg sd x)

/-- The last step of a duplication (R376): the entry is rewritten with D = 1, unless it has changed. -/
def Env.dupRemap (e : Env) (sd f : Nat) (s : State) : Res :=
  let r := s.page e.g.part f
  match r.entry, r.moving with
  | some a, some (.dupCopied busy) =>
    if s.memNat a 8 = busy then
      Env.afterWrites ((s.setMove f r (some .dupSet)).writeEntry a ((busy - 2 ^ 7) ||| 2 ^ 4)) f [a / 128] fun t =>
        e.dupEnds sd 0 (t.setMove f (t.page e.g.part f) none)
    else e.dupEnds sd 4 ((s.setPage f { r with moving := none, replicas := [] }).pushFrames r.part r.replicas)
  | _, _ => e.dupEnds sd 0 (s.setMove f r none)

/-- The second step of a duplication (R376): frames are taken, the page is copied into each, and they are recorded. -/
def Env.dupCopy (e : Env) (x : Part) (sd f : Nat) (s : State) : Res :=
  let r := s.page e.g.part f
  match r.entry, r.moving with
  | some a, some (.dupClaimed busy) =>
    (match s.takeFrames e.g.part (x.dies.filter fun d => d ≠ homeDie (f * 2 ^ 16)) with
     | none =>
       let s1 := s.setMove f r none
       e.dupEnds sd 2 (if s.memNat a 8 = busy then s1.writeEntry a (busy - 2 ^ 7) else s1)
     | some (fs, s1) =>
       let s2 := fs.foldl (fun t p => t.copyFrame (x.keyFor busy) (f * 2 ^ 16) p.2) s1
       let s3 := s2.setPage f { r with replicas := fs, moving := some (.dupCopied busy) }
       Env.afterWrites s3 f (fs.flatMap fun p => s1.linesHeld p.2 65536) (e.dupRemap sd f))
  | _, _ => e.dupRemap sd f s

/-- The first step of `dupset` (R376): a duplication claims the entry that the walk found, a collapse begins, or the page is refused. -/
def Env.dupClaim (e : Env) (x : Part) (sd f a : Nat) (dup : Bool) : Res :=
  let old := e.s.memNat a 8
  let r := e.s.pageRec e.g.part f a
  if pteKind old ≠ 0 then e.dupEnds sd 1 e.s
  else if dup then
    if pteD old && r.replicas ≠ [] then e.dupEnds sd 3 e.s
    else
      Env.afterWrites ((e.s.setMove f { r with entry := some a } (some (.dupClaimed (old ||| 2 ^ 7)))).writeEntry a (old ||| 2 ^ 7)) f [a / 128]
        (e.dupCopy x sd f)
  else if r.replicas = [] && !pteD old then e.dupEnds sd 3 e.s
  else .block (if r.collapsing then e.s else e.s.collapse f r) (.frameMove f) true

/-- `dupset` (R376): it goes on from where its writes were performed; the page's record tells how far it is. -/
def execDupset (f : SysDAB) (s : State) : Host.Outcome State Fault Refusal :=
  issue (fun _ _ => sysSpec (packSysDAB 0xF1800000 f) f.st true (upFrom f.sa.toNat 2 ++ [f.sb.toNat]) [f.sd.toNat])
    (fun e =>
      let b := (e.v.sreg f.sb.toNat).toNat
      let sd := f.sd.toNat
      if 2 ≤ b then e.illegal 0x01
      else
        match e.part with
        | none => e.dupEnds sd 1 e.s
        | some x =>
          if e.marker then (if b = 0 then e.dupEnds sd 0 e.s else e.dupCopy x sd (e.grids.headD 0) e.s)
          else
            match e.s.xlatWaits x e.g.priv (e.v.spair f.sa.toNat).toNat, e.placePage f.sa.toNat with
            | some l, _ => e.waitRoom (.lineBusy l)
            | none, some (fr, a) => e.dupClaim x sd fr a (b = 1)
            | none, none => e.dupEnds sd 1 e.s) s

/-- The writes held for a page performed, in their order (R369). -/
def State.applyHeld (s : State) (hs : List HeldWrite) : State :=
  hs.foldl (fun t h =>
    let ls := linesOf h.pa h.bytes.length
    ls.foldl (fun u l => u.checkReplicas l) ((t.storeBytes h.pa h.key h.bytes).dirStrong ls)) s

/-- PAGE_COLLAPSE (R369, steps 3 and 4): once the entry's write is performed, the replica record is discarded, its frames return
to their pools, and the held writes are performed. -/
def execPageCollapse (frame : Nat) (s : State) : Host.Outcome State Fault Refusal :=
  .next (match tabGet s.pages frame with
    | none => s
    | some r =>
      if r.collapsing && r.entry.all s.entryPerformed then
        ((s.setPage frame { r with replicas := [], collapsing := false, held := [] }).pushFrames r.part r.replicas).applyHeld r.held
      else s)

/-- Whether the counts of a page ask for a migration toward a die (R367). -/
def PageRec.due (r : PageRec) (x : Part) (frame die : Nat) : Bool :=
  x.migEn && homeDie (frame * 2 ^ 16) ≠ die && x.migThresh.toNat ≤ r.counts.getD die 0
    && 4 * r.counts.getD (homeDie (frame * 2 ^ 16)) 0 ≤ r.counts.getD die 0

/-- The record of a page whose migration has ended (R367): its counts are 0. -/
def PageRec.still (r : PageRec) : PageRec := { r with want := none, moving := none, counts := [0, 0, 0, 0] }

/-- The first step of a migration (R367): the entry is claimed, unless the page may not move. -/
def State.moveClaim (s : State) (frame die : Nat) (r : PageRec) : State :=
  let s0 := s.setPage frame { r with want := none }
  match r.entry with
  | none => s0
  | some a =>
    let old := s.memNat a 8
    if r.alias_ || !pteV old || pteM old || pteD old || pteKind old ≠ 0 || r.level ≠ 3 || pteFrame old ≠ frame * 2 ^ 16
        || homeDie (frame * 2 ^ 16) = die || r.collapsing then s0
    else (s.setPage frame { r with want := none, moving := some (.claimed (old ||| 2 ^ 7) die) }).writeEntry a (old ||| 2 ^ 7)

/-- The second step of a migration (R367): a frame of the die is taken and the page copied to it; with none, the claim goes. -/
def State.moveCopy (s : State) (x : Part) (frame a busy die : Nat) (r : PageRec) : State :=
  if s.memNat a 8 ≠ busy then s.setPage frame r.still
  else
    match s.popFrame r.part (poolKey die false) with
    | none => (s.setMove frame r none).writeEntry a (busy - 2 ^ 7)
    | some (f1, s1) =>
      (s1.copyFrame (x.keyFor busy) (frame * 2 ^ 16) f1).setMove frame r (some (.copied busy f1 die))

/-- The third step of a migration (R367): the entry is rewritten, unless software has; then the new frame goes back. -/
def State.moveRemap (s : State) (frame a busy f1 die : Nat) (r : PageRec) : State :=
  if s.memNat a 8 = busy then
    (s.setPage frame { r.still with moving := some (.rewritten die) }).writeEntry a (busy - 2 ^ 7 - frame * 2 ^ 16 + f1)
  else (s.setPage frame r.still).pushFrame r.part die f1

/-- MIGRATION (R367): a migration toward a die begins, or takes its next step once the writes of the last one are performed. -/
def execMigration (frame die : Nat) (s : State) : Host.Outcome State Fault Refusal :=
  .next (match tabGet s.pages frame with
    | none => s
    | some r =>
      match s.part r.part, r.moving, r.entry with
      | some x, none, _ => if r.want = some die || r.due x frame die then s.moveClaim frame die r else s
      | some x, some (.claimed busy d), some a => if d = die && s.entryPerformed a then s.moveCopy x frame a busy die r else s
      | some _, some (.copied busy f1 d), some a =>
        if d = die && s.linesDone (s.linesHeld f1 65536) then s.moveRemap frame a busy f1 die r else s
      | some _, some (.rewritten d), some a =>
        if d = die && s.entryPerformed a then
          { s with pages := smapErase s.pages frame }.pushFrame r.part (homeDie (frame * 2 ^ 16)) (frame * 2 ^ 16)
        else s
      | _, _, _ => s)

/-- The cycles between two halvings of a partition's counts (R366). -/
def Part.halfPeriod (x : Part) : Nat := 2 ^ max 10 x.migHalf.toNat

/-- PAGE_COUNT_HALVE (R366): the counts of every partition whose period has passed are halved. -/
def execPageCountHalve (s : State) : Host.Outcome State Fault Refusal :=
  let due := (s.parts.filter fun e => e.2.halved + e.2.halfPeriod ≤ s.clock).map (·.1)
  let pages := s.pages.map fun (e : Nat × PageRec) =>
    if due.contains e.2.part then (e.1, { e.2 with counts := e.2.counts.map (· / 2) }) else e
  let parts := s.parts.map fun (e : Nat × Part) => if due.contains e.1 then (e.1, { e.2 with halved := s.clock }) else e
  .next { s with pages := pages, parts := parts }

/-- L1_DIRTY_FLUSH (R360): an L1 sends the dirty bytes of a line to its home. -/
def execL1DirtyFlush (cluster line : Nat) (s : State) : Host.Outcome State Fault Refusal :=
  let e := s.dirEntry line
  .next (match (tabGet e.l1 cluster).filter fun c => c.dirty ≠ 0 with
    | none => s
    | some c => s.setDir line { e with l1 := smapInsert e.l1 cluster { c with dirty := 0 }, arriving := e.arriving ++ [(cluster, c)] })

/-- HOME_MERGE (R360, R361): the bytes that a holder sent first arrive at the home and are merged; only L1s send bytes. -/
def execHomeMerge (h : Holder) (line : Nat) (s : State) : Host.Outcome State Fault Refusal :=
  let e := s.dirEntry line
  .next (match h with
    | .l1 k =>
      (match e.arriving.find? fun a => a.1 = k with
       | none => s
       | some a => (s.setDir line { e with arriving := e.arriving.erase a }).mergeCopy line k a.2)
    | _ => s)

/-- Whether a holder may acknowledge an invalidation (R356): a translation holder only when no access outstanding uses a
translation from the line. -/
def State.mayAck (s : State) (h : Holder) (line : Nat) : Bool :=
  match h with
  | .coreTlb _ => !s.awaited line
  | .dieXlat _ => !s.awaited line
  | _ => true

/-- HOLDER_INVALIDATE (R361). -/
def execHolderInvalidate (h : Holder) (line : Nat) (s : State) : Host.Outcome State Fault Refusal :=
  .next (if (s.dirEntry line).invals.contains h && s.mayAck h line then s.holderGone h line else s)

/-- EVICTION_NOTICE (R362): a notice counts as the acknowledgement of an invalidation that is outstanding. -/
def execEvictionNotice (h : Holder) (line : Nat) (s : State) : Host.Outcome State Fault Refusal :=
  let e := s.dirEntry line
  .next (if e.holders.contains h && (!e.invals.contains h || s.mayAck h line) then s.holderGone h line else s)

/-- The key pair of the page that a frame's record names (R403). -/
def State.frameKeys (s : State) (line : Nat) : Option (Option (List Byte)) :=
  match tabGet s.pages (line / 512) with
  | none => none
  | some r =>
    match r.entry, s.part r.part with
    | some a, some x => some (x.keyFor (s.memNat a 8))
    | _, _ => none

/-- REFILL_REQUEST (R357, R362): a request for a line is served with the merged bytes; a walk waits for a write in
progress. -/
def execRefillRequest (h : Holder) (line : Nat) (s : State) : Host.Outcome State Fault Refusal :=
  let e := s.dirEntry line
  .next (match h with
    | .coreTlb _ => if e.invals ≠ [] || e.arriving ≠ [] then s else s.dirFill line h
    | .dieXlat _ => if e.invals ≠ [] || e.arriving ≠ [] then s else s.dirFill line h
    | .l1 c => (match s.frameKeys line with
        | some k => s.l1Fill line c k (s.plainLine k line)
        | none => s)
    | _ => s.dirFill line h)

/-- A request of the host waits for R356's conditions (R358). -/
def State.hostWait (s : State) (q : HostWait) : State :=
  { s with nextId := s.nextId + 1, hostWaits := smapInsert s.hostWaits s.nextId q }

/-- A request of the host is answered (R358): one for ownership makes the host a holder. -/
def State.hostAnswer (s : State) (n : Nat) (q : HostWait) : State :=
  let s1 := if q.owner then q.lines.foldl (fun t l => t.dirFill l .host) s else s
  { s1 with hostWaits := smapErase s1.hostWaits n, pkg := { s1.pkg with hostAnswered := q :: s1.pkg.hostAnswered } }

/-- HOST_CXL_MEM_WRITE (R358): a host write, where memory is held, which is answered only when it is performed under R356.
Without bytes it is that answer, to the request of the number `pa`. -/
def execHostCxlMemWrite (pa : Nat) (bytes : List Byte) (s : State) : Host.Outcome State Fault Refusal :=
  .next (if bytes = [] then
      match tabGet s.hostWaits pa with
      | some q => if !q.owner && s.writePerformed 0 q.lines then s.hostAnswer pa q else s
      | none => s
    else if holdsMemory s pa && holdsMemory s (pa + bytes.length - 1) && !safeTier pa then
      (s.writeMem pa bytes).hostWait { owner := false, lines := linesOf pa bytes.length }
    else s)

/-- HOST_OWNERSHIP_REQUEST (R358): the device's copies of a host-memory line are to be invalidated, and the request is answered
when R356's conditions hold for them; the host then holds the line. -/
def execHostOwnershipRequest (line : Nat) (s : State) : Host.Outcome State Fault Refusal :=
  .next (match s.hostWaits.find? fun e => e.2.owner && e.2.lines = [line] with
    | some (n, q) => if s.writePerformed 0 [line] then s.hostAnswer n q else s
    | none => (s.dirMerge line (some .host)).hostWait { owner := true, lines := [line] })

/-- The page-table lines that the translations of a partition come from (R358). -/
def State.translationLines (s : State) (part : Nat) : List Nat :=
  ((s.tlbs ++ s.dieTlbs).flatMap fun c => (c.2.filter fun t => t.part = part).flatMap fun (t : TlbEntry) => t.lines).eraseDups

/-- Every translation of a partition leaves the translation caches (R358, R410). -/
def State.dropTranslations (s : State) (part : Nat) : State :=
  let out := fun (t : TlbEntry) => decide (t.part = part)
  let s1 := s.tlbs.foldl (fun t c => t.tlbDrop c.1 out) s
  s1.dieTlbs.foldl (fun t d => t.dieTlbDrop d.1 out) s1

/-- The wait of a split for a partition register is over (R358, R378). -/
def Split.partWritten (p : Split) : Split := if p.st = .waiting .partWrite then { p with st := .waiting (.cond .always) } else p

/-- PTROOT_WRITE (R358): a write of PTROOT completes when every translation of the partition is gone, and no access that
used one is outstanding. -/
def execPtrootWrite (part : Nat) (s : State) : Host.Outcome State Fault Refusal :=
  .next (if (s.translationLines part).any fun l => s.walkInUse 0 l then s
    else
      let s1 := s.dropTranslations part
      { s1 with groups := s1.groups.map fun (g : Nat × Group) =>
          if g.2.part = part then
            (g.1, { g.2 with splits := g.2.splits.map Split.partWritten,
                             handler := g.2.handler.map fun h => { h with split := h.split.partWritten } })
          else g })

end Sys2Proof.Machine
end

