-- ==== Sys2Proof/Machine/Control.lean ====
section
/-! DEFINITION. Branches, calls and the SYNC instructions of splits, waits, barriers, safe points and exit (R79 to
R107), with `trap`, `sigchk` and `fence` (R273, R386, R398). -/
namespace Sys2Proof.Machine

/-- The target of a word offset, relative to the word after the instruction (R24, R98). -/
def Env.target (e : Env) (off : Int) : DWord := codeStep (e.s.textBase e.g) e.nextPc (4 * off)

/-- The address of a code address (R98). -/
def Env.codeAt (e : Env) (a : Word) : DWord := e.s.textBase e.g + a.setWidth 64

/-- What the issue logic knows of a branch: none of S op6 0x20 to 0x2C folds into SIG (R397). -/
def branchSpec (w : Nat) (st : BitVec 2) (rs : List RegName) : Spec :=
  { words := [w], stall := st, reads := rs, folds := false }

/-- A long branch (R99). -/
def branchIf (base : Nat) (f : Br) (taken : BitVec 5 → Bool) (rs : List RegName) (s : State) :
    Host.Outcome State Fault Refusal :=
  issue (fun _ _ => branchSpec (packBr base f) f.st rs)
    (fun e => if taken e.v.scc then .goto e.s (e.target f.off.toInt) else .ok e.s) s

/-- `br` (R99). -/
def execBr (f : Br) (s : State) : Host.Outcome State Fault Refusal := branchIf 0xA0000000 f (fun _ => true) [] s

/-- `brz` (R99). -/
def execBrz (f : Br) (s : State) : Host.Outcome State Fault Refusal := branchIf 0xA1000000 f sccZ [sccName] s

/-- `brnz` (R99). -/
def execBrnz (f : Br) (s : State) : Host.Outcome State Fault Refusal :=
  branchIf 0xA2000000 f (fun c => !sccZ c) [sccName] s

/-- `brlt` (R99). -/
def execBrlt (f : Br) (s : State) : Host.Outcome State Fault Refusal :=
  branchIf 0xA3000000 f (fun c => sccN c != sccV c) [sccName] s

/-- `brge` (R99). -/
def execBrge (f : Br) (s : State) : Host.Outcome State Fault Refusal :=
  branchIf 0xA4000000 f (fun c => sccN c == sccV c) [sccName] s

/-- `brltu` (R99). -/
def execBrltu (f : Br) (s : State) : Host.Outcome State Fault Refusal :=
  branchIf 0xA5000000 f (fun c => !sccC c) [sccName] s

/-- `brgeu` (R99). -/
def execBrgeu (f : Br) (s : State) : Host.Outcome State Fault Refusal := branchIf 0xA6000000 f sccC [sccName] s

/-- A predicate branch: its test sees the predicate over the split's mask alone (R100). -/
def branchPred (base : Nat) (f : BrP) (taken : DWord → DWord → Bool) (s : State) : Host.Outcome State Fault Refusal :=
  issue (fun _ _ => branchSpec (packBrP base f) f.st [pName f.p.toNat])
    (fun e => if taken (e.v.pred f.p.toNat &&& e.p.mask) e.p.mask then .goto e.s (e.target f.off.toInt) else .ok e.s) s

/-- `brpz` (R100). -/
def execBrpz (f : BrP) (s : State) : Host.Outcome State Fault Refusal := branchPred 0xA7000000 f (fun m _ => m == 0) s

/-- `brpnz` (R100). -/
def execBrpnz (f : BrP) (s : State) : Host.Outcome State Fault Refusal := branchPred 0xA8000000 f (fun m _ => m != 0) s

/-- `brpall` (R100). -/
def execBrpall (f : BrP) (s : State) : Host.Outcome State Fault Refusal :=
  branchPred 0xA9000000 f (fun m all => m == all) s

/-- `call` (R101): sl receives the code address of the next word. -/
def execCall (f : Br) (s : State) : Host.Outcome State Fault Refusal :=
  issue (fun _ _ => { branchSpec (packBr 0xAA000000 f) f.st [] with writes := [(sName 62, 2)] })
    (fun e => .goto (e.s.setGroup e.gid (e.g.setSreg 62 (codeAddr (e.s.textBase e.g) e.nextPc))) (e.target f.off.toInt)) s

/-- An indirect transfer to a code address: a misaligned one takes trap 0x09 (R101). -/
def Env.jumpTo (e : Env) (a : Word) : Res :=
  if a.toNat % 4 ≠ 0 then .trap 0x09 (a.setWidth 64) none else .goto e.s (e.codeAt a)

/-- `ret` (R101). -/
def execRet (f : Bare) (s : State) : Host.Outcome State Fault Refusal :=
  issue (fun _ _ => branchSpec (packBare 0xAB000000 f) f.st [sName 62]) (fun e => e.jumpTo (e.v.sreg 62)) s

/-- `jmp` (R101). -/
def execJmp (f : Jmp) (s : State) : Host.Outcome State Fault Refusal :=
  issue (fun _ _ => { branchSpec (packJmp 0xAC000000 f) f.st [sName f.sa.toNat] with sNamed := [f.sa.toNat] })
    (fun e => e.jumpTo (e.v.sreg f.sa.toNat)) s

/-- `adr` (R102). -/
def execAdr (f : Adr) (s : State) : Host.Outcome State Fault Refusal :=
  issue (fun _ _ => { words := [packAdr 0xAD000000 f], stall := f.st, sNamed := [f.sd.toNat],
                      writes := [(sName f.sd.toNat, 2)] })
    (fun e => e.upd (e.g.setSreg f.sd.toNat (codeAddr (e.s.textBase e.g) (e.target f.off.toInt)))) s

/-- `nop` (R80). -/
def execNop (f : Bare) (s : State) : Host.Outcome State Fault Refusal :=
  issue (fun _ _ => { words := [packBare 0xE0000000 f], stall := f.st }) (fun e => .ok e.s) s

/-- `wait` and its arming form for a condition (R81); what it observes is complete for the group's later accesses (R277). -/
def waitOn (w : Nat) (st : BitVec 2) (arm : Bool) (c : WaitCond) (s : State) : Host.Outcome State Fault Refusal :=
  issue (fun _ _ => { words := [w], stall := st, drains := true })
    (fun e =>
      if arm then e.upd { e.g with armed := some c }
      else if e.resumed || e.s.condHolds e.g c then .ok (e.s.synced e.gid) else .block e.s (.cond c) false) s

/-- `wait`, the single form (R81). -/
def execWait (f : Wait) (s : State) : Host.Outcome State Fault Refusal :=
  waitOn (packWait 0xE0200000 f) f.st f.arm (.counter f.cnt.toNat f.n.toNat) s

/-- `wait.all` (R81). -/
def execWaitAll (f : WaitAll) (s : State) : Host.Outcome State Fault Refusal :=
  waitOn (packWaitAll 0xE03C0000 f) f.st f.arm (.counters f.cmask) s

/-- The lowest slot that no split of a group has (R88). -/
def Group.freeSlot (g : Group) : Nat :=
  ([0, 1, 2, 3].find? fun k => g.splits.all fun p => p.slot != k).getD 0

/-- `fork` (R88). -/
def execFork (f : Fork) (s : State) : Host.Outcome State Fault Refusal :=
  issue (fun _ _ => { words := [packFork 0xE0400000 f], stall := f.st, drains := true, reads := [pName f.p.toNat] })
    (fun e =>
      let m := e.p.mask
      let a := m &&& e.v.pred f.p.toNat
      let b := m &&& ~~~a
      if e.g.handler.isSome then e.illegal 0x01
      else if e.p.joins.length = 4 then .trap 0x0F 2 none
      else if a ≠ 0 ∧ b ≠ 0 ∧ e.g.splits.length = 4 then .trap 0x0F 1 none
      else
        let g1 := { e.g with msig := e.g.msig ^^^ foldMask m }
        let q := { e.p with joins := m :: e.p.joins, held := none }
        let tgt := e.target f.off.toInt
        if b = 0 then .goto (e.s.setGroup e.gid (g1.setIssuing { q with held := e.p.held })) tgt
        else if a = 0 then .ok (e.s.setGroup e.gid (g1.setIssuing { q with held := e.p.held }))
        else
          let g2 := g1.setIssuing { q with mask := b, pc := e.nextPc }
          .placed (e.s.setGroup e.gid
            { g2 with splits := g2.splits ++ [{ slot := g1.freeSlot, mask := a, pc := tgt, st := .ready, joins := q.joins,
                                                held := none, safeAt := none }] })) s

/-- `join` (R89): with an empty join stack it does nothing; otherwise the split parks. -/
def execJoin (f : Bare) (s : State) : Host.Outcome State Fault Refusal :=
  issue (fun _ _ => { words := [packBare 0xE0600000 f], stall := f.st, drains := true })
    (fun e => if e.p.joins = [] then .ok e.s else .park e.s .parkedJoin e.p.pc) s

/-- The 32 bytes of a kernel's live-set entry (R387). -/
def State.liveEntry (s : State) (gid : Nat) (g : Group) (l : Nat) : List Byte :=
  match checkAddr s { g.agent gid with priv := true } (g.liveset.toNat + 32 * l) 32 1 .read with
  | .ok p => s.readAt p 32
  | _ => copiesOf 32 0

/-- The registers that fit a hand: the selected ones, in ascending order, while slots remain (R82, R84). -/
def drawSet (g : Group) (b sel : Nat) : List Nat :=
  ((List.range 24).filter fun j => bit sel j && b + j ≤ 127 && b + j < g.vAlloc).map (b + ·) |>.take
    (if g.width = 64 then 12 else 24)

/-- A safe point of the issuing split with a live-set entry (R106, R387, R388). -/
def Env.safePoint (e : Env) (l : Nat) : Group :=
  ({ e.g with safeCount := 0 }).setIssuing { e.p with safeAt := some l }

/-- The hand of a group takes a working set (R84, R86). -/
def State.fillHand (s : State) (gid : Nat) (regs : List Nat) : State :=
  { s with hands := s.hands.map fun h => if h.2.st = .held gid then (h.1, { h.2 with regs := regs }) else h }

/-- `draw` (R84): the working set of the hand and a safe point. An absent entry takes trap 0x01. -/
def execDraw (f : Draw) (s : State) : Host.Outcome State Fault Refusal :=
  issue (fun _ _ => { words := [packDraw 0xE0800000 f], stall := f.st, drains := true, safePoint := true,
                      vNamed := [f.vb.toNat] })
    (fun e =>
      if e.g.liveCount ≤ f.live.toNat then e.illegal 0x01
      else
        let sel := bits (ofBytes ((e.s.liveEntry e.gid e.g f.live.toNat).drop 0x1C)) 0 24
        .ok ((e.s.setGroup e.gid { e.safePoint f.live.toNat with workSet := drawSet e.g f.vb.toNat sel }).fillHand e.gid
          (drawSet e.g f.vb.toNat sel))) s

/-- `safe` (R106): a safe point. An absent entry takes trap 0x01. -/
def execSafe (f : Safe) (s : State) : Host.Outcome State Fault Refusal :=
  issue (fun _ _ => { words := [packSafe 0xE0A00000 f], stall := f.st, drains := true, safePoint := true })
    (fun e => if e.g.liveCount ≤ f.live.toNat then e.illegal 0x01
      else .ok (e.s.setGroup e.gid (e.safePoint f.live.toNat))) s

/-- A Ready split that merges into an earlier one (R90): at the same PC, with the same join stack. -/
def Split.merges (p q : Split) : Bool :=
  p.st == .ready && q.st == .ready && p.pc == q.pc && p.joins == q.joins

/-- The Ready splits of a group at one PC with one join stack merged (R90). -/
def mergeReady : List Split → List Split
  | [] => []
  | p :: r =>
    let m := mergeReady r
    match m.find? fun q => p.merges q with
    | none => p :: m
    | some q =>
      { p with slot := min p.slot q.slot, mask := p.mask ||| q.mask, safeAt := if p.safeAt = q.safeAt then p.safeAt else none }
        :: m.filter fun x => x.slot != q.slot

/-- The slot of the first Ready split under the rotation of R93, after `slot` and through it. -/
def nextReady (ps : List Split) (slot : Nat) : Option Nat :=
  [1, 2, 3, 4].findSome? fun k => (ps.find? fun p => p.slot == (slot + k) % 4 && p.st == .ready).map (·.slot)

/-- The Current split gives way to the next Ready one (R93, R95), with which it merges if they meet (R90); alone it goes on
with its count restarted. -/
def Group.giveWay (g : Group) : Group :=
  match g.splits.find? (fun p => p.st == .current) with
  | none => g
  | some c =>
    match nextReady g.splits c.slot with
    | none => { g with issuesInTurn := 0 }
    | some _ =>
      let ps := mergeReady (g.splits.map fun p => if p.slot = c.slot then { p with st := .ready } else p)
      match nextReady ps c.slot with
      | none => { g with issuesInTurn := 0 }
      | some k => { g with issuesInTurn := 0, splits := ps.map fun p => if p.slot = k then { p with st := .current } else p }

/-- The split moves to the next word, then gives way, and its group goes behind the others (R95). -/
def Env.yielded (e : Env) : Res :=
  .placed (e.s.setGroup e.gid
    (if e.g.handler.isSome then e.g.setIssuing { e.p with pc := e.nextPc, held := none }
     else (e.g.setIssuing { e.p with pc := e.nextPc, held := none }).giveWay))

/-- `yield` (R95). -/
def execYield (f : Bare) (s : State) : Host.Outcome State Fault Refusal :=
  issue (fun _ _ => { words := [packBare 0xE0C00000 f], stall := f.st, drains := true }) (fun e => e.yielded) s

/-- `yieldc` (R97): parks on the armed condition. -/
def execYieldc (f : Fork) (s : State) : Host.Outcome State Fault Refusal :=
  issue (fun _ _ => { words := [packFork 0xE0E00000 f], stall := f.st, drains := true, reads := [pName f.p.toNat] })
    (fun e =>
      if e.p.mask &&& e.v.pred f.p.toNat = 0 then .ok e.s
      else .park e.s (.parkedCont (e.g.armed.getD .always) (e.target f.off.toInt)) e.p.pc) s

/-- `sleep` (R96); `sleep 0` behaves as `yield`. -/
def execSleep (f : Sleep) (s : State) : Host.Outcome State Fault Refusal :=
  issue (fun _ _ => { words := [packSleep 0xE1000000 f], stall := f.st, drains := true })
    (fun e => if f.n = 0 then e.yielded else .park e.s (.sleeping (e.s.clock + f.n.toNat)) e.nextPc) s

/-- `bar` (R103). -/
def execBar (f : Bar) (s : State) : Host.Outcome State Fault Refusal :=
  issue (fun _ _ => { words := [packBar 0xE1200000 f], stall := f.st, drains := true })
    (fun e => .park e.s (.parkedBarrier f.b.toNat) e.nextPc) s

/-- `cbar` (R104). -/
def execCbar (f : Bare) (s : State) : Host.Outcome State Fault Refusal :=
  issue (fun _ _ => { words := [packBare 0xE1400000 f], stall := f.st, drains := true })
    (fun e => .park e.s .parkedCohort e.nextPc) s

/-- `exit` (R107): the split's lanes join the exited-lane set; the last split holds until the counters are 0. -/
def execExit (f : Bare) (s : State) : Host.Outcome State Fault Refusal :=
  issue (fun _ _ => { words := [packBare 0xE1600000 f], stall := f.st })
    (fun e =>
      let g1 := { e.g with exited := e.g.exited ||| e.p.mask, issuesInTurn := 0 }
      if e.g.handler.isSome || e.g.splits.length ≤ 1 then
        .placed (e.s.setGroup e.gid { g1.setIssuing { e.p with st := .exiting, held := none } with blockedSince := e.s.clock })
      else .placed (e.s.setGroup e.gid
        { g1 with splits := g1.splits.filter fun q => q.slot != e.p.slot, blockedSince := e.s.clock })) s

/-- `trap` (R386): a software trap with the immediate in TVAL. -/
def execTrap (f : Imm16) (s : State) : Host.Outcome State Fault Refusal :=
  issue (fun _ _ => { words := [packImm16 0xE2600000 f], stall := f.st })
    (fun _ => .trap 0x12 (f.imm.setWidth 64) none) s

/-- `sigchk` (R398). -/
def execSigchk (f : Imm16) (s : State) : Host.Outcome State Fault Refusal :=
  issue (fun _ _ => { words := [packImm16 0xE2400000 f], stall := f.st, folds := false })
    (fun e =>
      if 1 < e.g.splits.length then .ok e.s
      else if (e.part.map (·.sen)).getD false && e.g.sig.setWidth 16 != f.imm then .kill e.s 0x0F 3
      else e.upd { e.g with sig := 0 }) s

/-- The scope code of an instruction: its own, or MODE.SCOPE (R47). -/
def Group.scopeOf (g : Group) (c : Nat) : Nat := if c = 0 then g.mScope else c

/-- The outstanding loads, stores and atomics that a split has issued (R273): those of its lanes. -/
def Group.accessesOf (g : Group) (mask : DWord) : List Nat :=
  (g.pend.filter fun q => (q.2.kind == .store || q.2.kind == .atomic || q.2.kind == .load) && q.2.mask &&& mask != 0).map (·.1)

/-- `fence` (R273): the split waits until its own earlier accesses are performed; an acquire or full fence orders its
later ones (R277). -/
def execFence (f : Fence) (s : State) : Host.Outcome State Fault Refusal :=
  issue (fun g _ => { words := [packFence 0xE2800000 f], stall := f.st, modeIll := f.scope = 0 && g.mScope = 0 })
    (fun e => if e.resumed || e.g.accessesOf e.p.mask = [] then .ok (e.s.synced e.gid)
      else .block e.s (.performed (e.g.accessesOf e.p.mask)) false) s

end Sys2Proof.Machine
end

