-- ==== Sys2Proof/Machine/Fetch.lean ====
section
/-! DEFINITION. Fetching an instruction's words (R24, R33, R98) and the traps of the words that are no
instruction (R58, R59). -/
namespace Sys2Proof.Machine

/-- How a fetch ends: the words, a fault on one of them with its address, or a wait for a page-table entry. -/
inductive Fetched where
  | words (ws : List Nat)
  | bad (cause : Nat) (addr : DWord)
  | wait (w : WaitFor)
deriving DecidableEq, Repr

/-- One word fetched from a flat address: only global memory holds code. -/
def fetchWord (s : State) (ag : Agent) (addr : DWord) : Fetched :=
  if bits addr.toNat 60 4 ≠ 0 then .bad 0x0B addr
  else
    match checkAddr s ag addr.toNat 4 1 .fetch with
    | .ok p => .words [ofBytes (s.readAt p 4)]
    | .bad _ c => .bad c addr
    | .wait w => .wait w

/-- The instruction at a split's PC: one word, or two where the first is a PREFIX or LIMM word (R33). A second word that
cannot be fetched takes the fault of its fetch, whatever the first one lacks under R58 steps 1 and 3: the spec orders the two
nowhere (the model's choice, log entry 95). -/
def fetch (s : State) (gid : Nat) (g : Group) (p : Split) : Fetched :=
  match fetchWord s (g.agent gid) p.pc with
  | .words (w :: _) =>
    if wordCount w = 2 then
      match fetchWord s (g.agent gid) (codeStep (s.textBase g) p.pc 4) with
      | .words (v :: _) => .words [w, v]
      | other => other
    else .words [w]
  | other => other

/-- The trap cause of words that are no instruction (R58 steps 1 to 4). -/
def rejectCause : DecodeReject → Nat
  | .prefixStall => 0x03
  | .prefixPair => 0x03
  | .undefinedEncoding => 0x01
  | .prefixRefused => 0x03

/-- The trap of words that are no instruction (R58, R59). -/
def State.rejectTrap (s : State) (gid : Nat) (g : Group) (p : Split) (ws : List Nat) (r : DecodeReject) : State :=
  s.takeTrap gid g p (rejectCause r) (wordsTval ws) p.mask

/-- The split waits for a page-table entry that its fetch met (R354, R357). -/
def State.fetchWait (s : State) (gid : Nat) (w : WaitFor) : State := s.modGroup gid fun g => g.waitIn w s.clock

/-- The code line's page is walked and counted as any read is (R353, R366). -/
def State.fetchMarks (s : State) (gid : Nat) (g : Group) (p : Split) : State :=
  match checkAddr s (g.agent gid) p.pc.toNat 4 1 .fetch with
  | .ok pl => (s.install g.part (coreOf gid) pl).countPage g.part (coreOf gid) pl
  | _ => s

/-- The sleeping splits that must wake by some cycle (R96): each with its group, slot and that cycle. -/
def State.sleepers (s : State) : List (Nat × Nat × Nat) :=
  (s.groups.filter fun e => e.2.splitsRun).flatMap fun e => e.2.splits.filterMap fun p =>
    match p.st with
    | .sleeping t => some (e.1, p.slot, t + 64)
    | _ => none

/-- The dirty copies that an L1 must have sent by some cycle (R360): each with its cluster, line and that cycle. -/
def State.dirtyCopies (s : State) : List (Nat × Nat × Nat) :=
  s.dir.flatMap fun e => (e.2.l1.filter fun c => c.2.dirty ≠ 0).map fun c => (c.1, e.1, c.2.since + 512)

/-- The step that is due at its latest cycle (R96, R360), which comes before everything but the issue of a group chosen. -/
def State.overdue (s : State) : Option Instr :=
  match s.sleepers.find? fun x => x.2.2 ≤ s.clock with
  | some x => some (.sleepExpire x.1 x.2.1)
  | none => (s.dirtyCopies.find? fun x => x.2.2 ≤ s.clock).map fun x => .l1DirtyFlush x.1 x.2.1

/-- The latest cycle that the clock may come to before a step that is due has been taken. -/
def State.clockLimit (s : State) (lim : Nat) : Nat :=
  (s.sleepers ++ s.dirtyCopies).foldl (fun a x => min a (max s.clock x.2.2)) lim

/-- A step count and, but for a group that joins an issue (R132), a cycle count later (R156); waits whose conditions hold are
over. -/
def State.advance (s : State) : State :=
  { s.releaseWaits with tick := s.tick + 1, joint := false,
                        clock := if s.joint then s.clock else s.clockLimit (s.clock + 1 + Config.stepCycles s.tick) }

/-- After an issue: the groups that join it issue next (R132), and then come the machine's own pending steps. -/
def State.issued (s : State) : State :=
  { s with cur := s.also.head?, also := s.also.tail, joint := s.also ≠ [], turn := true }

end Sys2Proof.Machine
end

