-- ==== Sys2Proof/Machine/Sched.lean ====
section
/-! DEFINITION. The scheduler: when a split's wait is over (R92), splits that resume, wake, merge and give way (R89, R90,
R93, R96, R97), barriers (R103, R104), hands (R86), the handler watchdog (R383) and the choice of the group that issues
next (R132, R133). -/
namespace Sys2Proof.Machine

/-- Whether a lowest-level condition of a wait holds (R92); busy entries, watched lines and PTROOT writes have steps of
their own. -/
def State.waitOver (s : State) (gid : Nat) (g : Group) (w : WaitFor) : Bool :=
  match w with
  | .cond c => s.condHolds g c
  | .counterRoom k => g.cnt.get k < 255
  | .holdRegs rs => rs.all fun r => g.holds.all fun h => h.reg != r || h.pending == 0
  | .ringFree k =>
    match (g.team.bind s.team).bind fun t => t.ring k with
    | some r => r.slotFree r.ip
    | none => true
  | .ringNext k j =>
    match (g.team.bind s.team).bind fun t => t.ring k with
    | some r => (match r.take j 17 with
        | (_, .waits) => false
        | _ => true)
    | none => true
  | .grids hs => hs.all fun h =>
    match tabGet s.grids h with
    | some x => x.complete
    | none => true
  | .locks n => n ≤ s.freeLocks (clusterOf (coreOf gid))
  | .copyRoom _ => s.engineLoad (coreOf gid) < 32
  | .matrixRoom n => g.matq.length < 8 && n ≤ s.freeLocks (clusterOf (coreOf gid))
  | .matrixIdle => g.matq == []
  | .performed ops => ops.all fun k => (tabGet g.pend k).isNone
  | .writesDone _ ls => s.linesDone ls && ls.all fun l => !s.awaited l
  | .lineBusy l => !s.lineWriting l
  | .saveTaken tid =>
    match s.team tid with
    | some t => t.saving.isNone
    | none => true
  | .island n => (s.island n).point == max (s.island n).req (s.island n).throttle
  | .frameMove f =>
    match tabGet s.pages f with
    | some r => !r.collapsing
    | none => true
  | .opDone id => (tabGet g.pend id).isNone
  | .entryBusy _ => false
  | .lineWord _ _ _ => false
  | .partWrite => false -- PTROOT_WRITE ends it (R358)

/-- Whether a table entry is claimed (R354). -/
def State.claimed (s : State) (entry : Nat) : Bool := pteM (s.memNat entry 8)

/-- A split of a group changed: the handler's, or the one of a slot. -/
def Group.modAny (g : Group) (slot : Nat) (f : Split → Split) : Group :=
  match g.handler with
  | some h => { g with handler := some { h with split := f h.split } }
  | none => g.modSplit slot f

/-- The split that a group runs in a slot: its handler's, which suspends the others (R381), or the one of the slot. -/
def Group.splitAt (g : Group) (slot : Nat) : Option Split :=
  match g.handler with
  | some h => some h.split
  | none => g.splits.find? fun p => p.slot == slot

/-- A Waiting split that has not begun its instruction goes on (R92): Current when no other split is, otherwise Ready. -/
def Group.wake (g : Group) (slot : Nat) : Group :=
  if g.handler.isSome then g.modAny slot fun p => { p with st := .current }
  else if g.splits.any fun p => p.st == .current then g.modAny slot fun p => { p with st := .ready }
  else { g.modAny slot (fun p => { p with st := .current }) with issuesInTurn := 0 }

/-- A Waiting split completes the instruction that it waited in (R92): it issues from there at once, and a split that was
Current is displaced for that step. -/
def Group.resumeSplit (g : Group) (slot : Nat) : Group :=
  if g.handler.isSome then g.modAny slot fun p => { p with st := .current }
  else
    { g with splits := g.splits.map fun p =>
               if p.slot = slot then { p with st := .current }
               else if p.st = .current then { p with st := .displaced } else p,
             issuesInTurn := if g.splits.any fun p => p.st == .current then g.issuesInTurn else 0 }

/-- The condition of a Waiting split holds (R92): it completes its instruction next, or issues it when its turn comes. -/
def State.goOn (s : State) (gid slot : Nat) (g : Group) (p : Split) : State :=
  if p.held.isNone then s.setGroup gid (g.wake slot)
  else if s.cur.isSome || s.quiet g.part then s
  else { s.setGroup gid (g.resumeSplit slot) with cur := some gid }

/-- A running group's Waiting split and what it waits for. -/
def State.waiter (s : State) (gid slot : Nat) : Option (Group × Split × WaitFor) :=
  match s.group gid with
  | none => none
  | some g =>
    if g.residency ≠ .running || s.taking g then none
    else
      match g.splitAt slot with
      | some p => (match p.st with
          | .waiting w => some (g, p, w)
          | _ => none)
      | none => none

/-- WAITING_RESUME (R92): a Waiting split whose condition holds goes on. -/
def execWaitingResume (gid slot : Nat) (s : State) : Host.Outcome State Fault Refusal :=
  .next (match s.waiter gid slot with
    | some (g, p, w) => if s.waitOver gid g w then s.goOn gid slot g p else s
    | none => s)

/-- TRANSLATION_RETRY (R354): the busy entry has been written, and the access translates again. -/
def execTranslationRetry (gid slot : Nat) (s : State) : Host.Outcome State Fault Refusal :=
  .next (match s.waiter gid slot with
    | some (g, p, .entryBusy pa) => if s.claimed pa then s else s.goOn gid slot g p
    | _ => s)

/-- The word that a `swaitl` watches (R270); none while its address does not translate. -/
def State.watchedWord (s : State) (gid : Nat) (g : Group) (addr : Nat) : Option Word :=
  match checkAddr s (g.agent gid) addr 4 4 .read with
  | .ok p => some (BitVec.ofNat 32 (ofBytes (s.readAt p 4)))
  | _ => none

/-- SWAITL_WAKE (R270): the watched line has been written and the word differs. -/
def execSwaitlWake (gid slot : Nat) (s : State) : Host.Outcome State Fault Refusal :=
  .next (match s.waiter gid slot with
    | some (g, p, .lineWord a v _) =>
      (match s.watchedWord gid g a with
       | some w => if w ≠ v then s.goOn gid slot g p else s
       | none => s)
    | _ => s)

/-- SWAITL_TIMEOUT (R270): the wait has lasted 65,536 cycles. -/
def execSwaitlTimeout (gid slot : Nat) (s : State) : Host.Outcome State Fault Refusal :=
  .next (match s.waiter gid slot with
    | some (g, p, .lineWord _ _ d) => if d ≤ s.clock then s.goOn gid slot g p else s
    | _ => s)

/-- A group changed when its splits run. -/
def State.onSplits (s : State) (gid : Nat) (f : Group → Group) : State :=
  s.modGroup gid fun g => if g.splitsRun then f g else g

/-- SLEEP_EXPIRE (R96): after n cycles, and at the latest after 64 more (`State.overdue`). -/
def execSleepExpire (gid slot : Nat) (s : State) : Host.Outcome State Fault Refusal :=
  .next (s.onSplits gid fun g => g.modSplit slot fun p =>
    match p.st with
    | .sleeping t => if t ≤ s.clock then { p with st := .ready } else p
    | _ => p)

/-- CONTINUATION_RESUME (R97). A split has given way when it parked. -/
def execContinuationResume (gid slot : Nat) (s : State) : Host.Outcome State Fault Refusal :=
  .next (s.onSplits gid fun g => g.modSplit slot fun p =>
    match p.st with
    | .parkedCont c target => if s.condHolds g c then { p with st := .ready, pc := target } else p
    | _ => p)

/-- FAIRNESS_GIVE_WAY (R93): with PP at 1 the Current split gives way after 256 issues. -/
def Group.fair (g : Group) : Group :=
  if g.handler.isNone && g.mPp && 256 ≤ g.issuesInTurn then g.giveWay else g

/-- FAIRNESS_GIVE_WAY (R93). -/
def execFairnessGiveWay (gid : Nat) (s : State) : Host.Outcome State Fault Refusal :=
  .next (s.onSplits gid fun g => g.fair)

/-- The splits parked in the join of a split: at its PC, with its top mask (R89). -/
def Group.joinSet (g : Group) (p : Split) : List Split :=
  g.splits.filter fun q => q.st == .parkedJoin && q.pc == p.pc && q.joins.head? == p.joins.head?

/-- The union of splits' masks. -/
def masksOf (ps : List Split) : DWord := ps.foldl (fun a p => a ||| p.mask) 0

/-- The lowest slot of some splits. -/
def lowSlot (ps : List Split) : Nat := ps.foldl (fun a p => min a p.slot) 3

/-- JOIN_MERGE (R89): splits whose masks, with the exited lanes, cover the top mask become one; a join that empties the
stack checks MSIG. -/
def execJoinMerge (gid slot : Nat) (s : State) : Host.Outcome State Fault Refusal :=
  .next (match s.group gid with
    | none => s
    | some g =>
      match g.splits.find? fun p => p.slot == slot && p.st == .parkedJoin with
      | none => s
      | some p =>
        match p.joins with
        | [] => s
        | t :: rest =>
          let qs := g.joinSet p
          if !g.splitsRun || masksOf qs ||| (t &&& g.exited) ≠ t then s
          else
            let m : Split :=
              { slot := lowSlot qs, mask := t &&& ~~~g.exited, pc := codeStep g.text p.pc 4, st := .ready, joins := rest,
                held := none, safeAt := none }
            let g1 := { g with msig := g.msig ^^^ foldMask t,
                               splits := m :: g.splits.filter fun q => !(qs.any fun x => x.slot == q.slot) }
            if rest = [] ∧ g1.msig ≠ 0 then
              (s.setGroup gid g1).takeTrap gid g1 { m with pc := p.pc } 0x0F 0 m.mask
            else s.setGroup gid g1)

/-- Whether every split of a group is parked on a barrier (R103). -/
def Group.arrived (g : Group) (st : SplitState) : Bool := g.splits.all fun p => p.st == st

/-- Whether every group of a team that takes part in barriers has arrived (R103, R104). -/
def State.teamArrived (s : State) (t : Team) (st : SplitState) : Bool :=
  t.groups.all fun m =>
    match m with
    | .exited => true
    | .killed => true
    | .live gid => (match s.group gid with
        | some g => g.arrived st
        | none => false)
    | _ => false

/-- A barrier's release of a team (R103): its parked splits become Ready and SCC.A is set in each group, which has then
synchronised (R278). -/
def State.releaseBarrier (s : State) (t : Team) (st : SplitState) (killed : Bool) : State :=
  t.groups.foldl (fun (u : State) m =>
    match m with
    | .live gid => u.modGroup gid fun g =>
        { g with scc := sccSetA g.scc killed, syncAt := s.tick,
                 splits := g.splits.map fun p => if p.st = st then { p with st := .ready } else p }
    | _ => u) s

/-- BARRIER_COMPLETE (R103). -/
def execBarrierComplete (tid : Nat) (b : BitVec 3) (s : State) : Host.Outcome State Fault Refusal :=
  .next (match s.team tid with
    | none => s
    | some t =>
      if s.teamArrived t (.parkedBarrier b.toNat) then s.releaseBarrier t (.parkedBarrier b.toNat) t.killed else s)

/-- The teams of a team's cohort (R117). -/
def State.cohortTeams (s : State) (t : Team) : List (Nat × Team) :=
  s.teams.filter fun e => e.2.part == t.part && e.2.grid == t.grid && e.2.leader == t.leader

/-- COHORT_BARRIER_COMPLETE (R104): a team whose groups have all exited counts as arrived. -/
def execCohortBarrierComplete (tid : Nat) (s : State) : Host.Outcome State Fault Refusal :=
  .next (match s.team tid with
    | none => s
    | some t =>
      let ts := s.cohortTeams t
      if ts.length = t.cohort && ts.all fun e => s.teamArrived e.2 .parkedCohort then
        ts.foldl (fun u e => u.releaseBarrier e.2 .parkedCohort (ts.any fun x => x.2.killed)) s
      else s)

/-- Whether the six counters are 0 (R107). -/
def Counters.zero (c : Counters) : Bool := [0, 1, 2, 3, 4, 5].all fun k => c.get k == 0

/-- GROUP_EXIT_RELEASE (R107): the last split has exited and the counters are 0. -/
def execGroupExitRelease (gid : Nat) (s : State) : Host.Outcome State Fault Refusal :=
  .next (match s.group gid with
    | none => s
    | some g =>
      let out := match g.handler with
        | some h => h.split.st == .exiting
        | none => g.splits.any fun p => p.st == .exiting
      if g.residency = .running && !s.taking g && out && g.cnt.zero then s.removeGroup gid g .exited else s)

/-- HANDLER_WATCHDOG (R383): a handler that has used 2^20 cycles is killed. -/
def execHandlerWatchdog (gid : Nat) (s : State) : Host.Outcome State Fault Refusal :=
  .next (match s.group gid with
    | none => s
    | some g =>
      match g.handler with
      | some h => if 2 ^ 20 ≤ s.hwdogOf g then s.killGroup gid 0x17 false h.split.pc 0 else s
      | none => s)

/-- The entries of the hands of a core, numbered 16 × core + hand (R82). -/
def State.handsOf (s : State) (core : Nat) : List (Nat × Hand) := s.hands.filter fun e => e.1 / 16 == core

/-- The hand of a group, in any state. -/
def State.handOf (s : State) (gid : Nat) : Option (Nat × Hand) :=
  s.hands.find? fun e =>
    match e.2.st with
    | .filling h => h == gid
    | .held h => h == gid
    | .writingBack h => h == gid
    | .free => false

/-- HAND_FILL_COMPLETE (R86). -/
def execHandFillComplete (gid : Nat) (s : State) : Host.Outcome State Fault Refusal :=
  .next (match s.handOf gid, s.group gid with
    | some (k, { st := .filling _, regs := _ }), some g =>
      { s with hands := smapInsert s.hands k { st := .held gid, regs := g.workSet } }
    | _, _ => s)

/-- HAND_WRITEBACK_COMPLETE (R86). -/
def execHandWritebackComplete (gid : Nat) (s : State) : Host.Outcome State Fault Refusal :=
  .next (match s.hands.find? fun e => e.2.st == .writingBack gid with
    | some (k, _) => { s with hands := smapErase s.hands k }
    | none => s)

/-- Whether a group has a split that may be chosen to issue, Ready or Current (R92). -/
def Group.awake (g : Group) : Bool :=
  match g.handler with
  | some h => h.split.st == .current
  | none => g.parked.isNone && g.splits.any fun p => p.st == .current || p.st == .ready

/-- Whether a split is at a safe point, or neither Ready nor Current, as a save asks of it (R388). -/
def Split.savable (p : Split) : Bool := p.safeAt.isSome || (p.st != .current && p.st != .ready)

/-- Whether a split may issue (R388): while a save of its team is pending, one at a safe point issues nothing more once every
other split is as the save asks. With PP at 1 it holds there and its siblings come to theirs (R93); with PP at 0 a sibling
that is Ready keeps the save away, and the split goes on (R94, R425; log entry 102). -/
def Group.mayIssue (g : Group) (saving : Bool) (p : Split) : Bool :=
  !(saving && p.safeAt.isSome && (g.mPp || g.splits.all fun q => q.savable))

/-- Whether a group's engine records all hold their locks (R255, R308). -/
def State.recordsHeld (s : State) (gid : Nat) (g : Group) : Bool :=
  g.matq.all (fun m => !m.waitsLocks) && s.copies.all (fun e => e.2.gid != gid || !e.2.waitsLocks)
    && s.fabric.all (fun e => e.2.gid != gid || !e.2.waitsLocks)

/-- Whether a save of a group's team is pending (R388). -/
def State.saving (s : State) (g : Group) : Bool := ((g.team.bind s.team).bind (·.saving)).isSome

/-- The island of a core (R408). -/
def islandOfCore (core : Nat) : Nat := 32 * dieOf core + 2 * (clusterOf core % 12) + core % 16 / 8

/-- Whether a core's island is stopped or off (R408). -/
def State.coreStopped (s : State) (core : Nat) : Bool := 6 ≤ (s.island (islandOfCore core)).point

/-- Whether a group's splits allow an issue (R132): its stall count has elapsed, and it is not swapped, Parked, stopped,
or waiting for its engine records. -/
def State.ready (s : State) (gid : Nat) (g : Group) : Bool :=
  g.residency == .running && !s.taking g && g.parked.isNone && g.stallUntil ≤ s.clock && !s.quiet g.part && !s.coreStopped (coreOf gid)
    && s.recordsHeld gid g
    && (match g.handler with
        | some h => h.split.st == .current && s.hwdogOf g < 2 ^ 20
        | none =>
          if !g.mPp && g.splits.any (fun p => p.st == .current) then
            g.splits.any fun p => p.st == .current && g.mayIssue (s.saving g) p
          else g.splits.any fun p => (p.st == .current || p.st == .ready) && g.mayIssue (s.saving g) p)

/-- The groups whose hands may be evicted from a core (R86): in no handler, without a Ready or Current split. -/
def State.evictable (s : State) (core : Nat) : List (Nat × Nat) :=
  (s.handsOf core).filterMap fun e =>
    match e.2.st with
    | .held gid =>
      (match s.group gid with
       | some g => if g.handler.isNone && !g.awake then some (e.1, g.blockedSince) else none
       | none => none)
    | _ => none

/-- The hand of a core whose group has had no Ready or Current split for longest (R86). -/
def State.victim (s : State) (core : Nat) : Option Nat :=
  match s.evictable core with
  | [] => none
  | e :: r => some (r.foldl (fun (a : Nat × Nat) x => if x.2 < a.2 then x else a) e).1

/-- The lowest Free hand of a core. -/
def State.freeHand (s : State) (core : Nat) : Option Nat :=
  ((List.range 16).map (16 * core + ·)).find? fun k => (tabGet s.hands k).isNone

/-- Whether a group holds or may take a hand (R86, R132). -/
def State.handReady (s : State) (gid : Nat) : Bool :=
  match s.handOf gid with
  | some (_, h) => h.st == .held gid
  | none =>
    let core := coreOf gid
    (s.freeHand core).isSome || ((s.victim core).isSome && (s.handsOf core).all fun e =>
      match e.2.st with
      | .writingBack _ => false
      | _ => true)

/-- The priority of a group for issue, lowest first (R132): handlers, the latency class, the bulk class. -/
def Group.level (g : Group) : Nat := if g.handler.isSome then 0 else if g.latency then 1 else 2

/-- The eligible groups (R132). -/
def State.eligible (s : State) : List (Nat × Group) := s.groups.filter fun e => s.ready e.1 e.2 && s.handReady e.1

/-- The issue slot of a group, numbered 2 × core + slot. -/
def slotOf (gid : Nat) (g : Group) : Nat := 2 * coreOf gid + g.issueSlot

/-- The group of a list whose last issue is oldest (R132). -/
def oldest : List (Nat × Group) → Option (Nat × Group)
  | [] => none
  | e :: r =>
    match oldest r with
    | none => some e
    | some x => if x.2.lastIssue < e.2.lastIssue then some x else some e

/-- The lock entry of a restored record, for its group on the core it came back to (R255). -/
def State.wanted (s : State) (gid : Nat) (g : Group) (w : Wanted) : RangeLock :=
  let at_ : LockSpace × Nat := match w.member with
    | none => (.virt g.part, 0)
    | some m =>
      match (g.team.bind s.team).bind fun t => s.cohortMember t m with
      | some t => (.spad t.core, t.winOff)
      | none => (.spad (coreOf gid), 0)
  { cluster := clusterOf (coreOf gid), space := at_.1, lo := at_.2 + w.lo, hi := at_.2 + w.hi, write := w.write }

/-- Lock entries entered, with their numbers. -/
def State.enterLocks (s : State) : List RangeLock → State × List Nat
  | [] => (s, [])
  | x :: r =>
    let q := State.enterLocks { s with nextId := s.nextId + 1, locks := smapInsert s.locks s.nextId x } r
    (q.1, s.nextId :: q.2)

/-- A restored record takes all its entries or none (R255): the entries, unless too few are free. -/
def State.tryLocks (s : State) (gid : Nat) (g : Group) (ws : List Wanted) : Option (State × List Nat) :=
  if s.freeLocks (clusterOf (coreOf gid)) < ws.length then none else some (s.enterLocks (ws.map (s.wanted gid g)))

/-- A group's matrix records take their locks, in order (R255). -/
def State.lockMatrix (s : State) (gid : Nat) (g : Group) : List MatOp → State × List MatOp
  | [] => (s, [])
  | m :: r =>
    if !m.waitsLocks then
      let q := s.lockMatrix gid g r
      (q.1, m :: q.2)
    else
      match s.tryLocks gid g m.wants with
      | none => (s, m :: r)
      | some (t, ids) =>
        let q := t.lockMatrix gid g r
        (q.1, { m with waitsLocks := false, wants := [], locks := ids } :: q.2)

/-- Restored engine records register their locks as entries become free (R255, R308, R344): a group's copies, then its
matrix instructions, then its transfers, each in their order. -/
def State.registerRecords (s : State) : State :=
  let s1 := s.copies.foldl (fun (t : State) e =>
    match e.2.waitsLocks, t.group e.2.gid with
    | true, some g =>
      (match t.tryLocks e.2.gid g e.2.wants with
       | some (u, ids) =>
         let c := { e.2 with waitsLocks := false, wants := [], locks := ids }
         { u with copies := smapInsert u.copies e.1 c }
       | none => t)
    | _, _ => t) s
  let s2 := s1.groups.foldl (fun (t : State) e =>
    if e.2.matq.any fun m => m.waitsLocks then
      let q := t.lockMatrix e.1 e.2 e.2.matq
      q.1.modGroup e.1 fun g => { g with matq := q.2 }
    else t) s1
  s2.fabric.foldl (fun (t : State) e =>
    match e.2.waitsLocks, t.group e.2.gid with
    | true, some g =>
      (match t.tryLocks e.2.gid g e.2.wants with
       | some (u, ids) =>
         let q := { e.2 with waitsLocks := false, wants := [], locks := ids }
         { u with fabric := smapInsert u.fabric e.1 q }
       | none => t)
    | _, _ => t) s2

/-- The choice of one slot among its eligible groups (R132, R133): the latency class takes at most 7 issues in a row while
a bulk group is eligible. -/
def State.slotChoice (s : State) (slot : Nat) (gs : List (Nat × Group)) : Option (Nat × Group) :=
  let at_ := fun k => oldest (gs.filter fun e => e.2.level == k)
  match at_ 0 with
  | some e => some e
  | none =>
    match at_ 1, at_ 2 with
    | some e, some b => if 7 ≤ smapGet 0 s.latencyRuns slot then some b else some e
    | some e, none => some e
    | none, x => x

/-- The count of R133 after an issue of a level. -/
def State.countRun (s : State) (slot level : Nat) : State :=
  let n := smapGet 0 s.latencyRuns slot
  let m := if level = 1 then min 7 (n + 1) else if level = 2 then 0 else n
  { s with latencyRuns := smapPut 0 s.latencyRuns slot m }

/-- A number for a choice among `n`, and the state after it; one choice needs no number. -/
def State.chosen (s : State) (n : Nat) : Nat × State :=
  if n ≤ 1 then (0, s) else (Config.choose s.serial % n, s.fresh)

/-- The splits of a group as its next issue finds them: merged (R90), with a Current split that may issue (R92, R93, R388);
`k` chooses among the Ready ones where none is Current. -/
def Group.settleSplits (g : Group) (saving : Bool) (k : Nat) : Group :=
  let g1 := { g with splits := mergeReady g.splits }.fair
  let stuck := fun (p : Split) => g.mPp && p.st == .current && !g.mayIssue saving p
  let g2 := if g1.splits.any stuck then
      { g1 with splits := g1.splits.map fun p => if stuck p then { p with st := .ready } else p }
    else g1
  if g2.splits.any fun p => p.st == .current then g2
  else
    let c := g2.splits.filter fun p => p.st == .ready && g.mayIssue saving p
    match (c.drop (k % c.length)).head? with
    | none => g2
    | some q => { g2.modSplit q.slot (fun p => { p with st := .current }) with issuesInTurn := 0 }

/-- The hand of a chosen group: taken when Free, else the longest idle group's is evicted (R86). -/
def State.giveHand (s : State) (gid : Nat) : State :=
  match s.freeHand (coreOf gid) with
  | some k => { s with hands := smapInsert s.hands k { st := .filling gid, regs := [] } }
  | none =>
    match s.victim (coreOf gid) with
    | none => s
    | some k =>
      match tabGet s.hands k with
      | some h =>
        (match h.st with
         | .held gid => { s with hands := smapInsert s.hands k { h with st := .writingBack gid } }
         | _ => s)
      | none => s

/-- Whether two groups' lane ranges are disjoint (R69). -/
def Group.lanesApart (g h : Group) : Bool := g.lanePos + g.width ≤ h.lanePos || h.lanePos + h.width ≤ g.lanePos

/-- The groups of a slot that join the issue of some chosen ones (R132): eligible ones, with their hands, at the same PC of the
same kernel, each with a lane range disjoint from those already chosen. -/
def State.joiners (s : State) (pc : DWord) (chosen : List Group) : List (Nat × Group) → List (Nat × Group)
  | [] => []
  | (h, g) :: r =>
    let g1 := g.settleSplits (s.saving g) 0
    let lead := chosen.headD g
    if g.handler.isNone && lead.handler.isNone && g.part = lead.part && g.text = lead.text && (s.handOf h).isSome
        && (g1.issuing.map (·.pc)) = some pc && chosen.all (fun x => x.lanesApart g) then
      (h, g1) :: s.joiners pc (chosen ++ [g1]) r
    else s.joiners pc chosen r

/-- The group of a slot becomes the one that issues next, with those that join it (R132), or takes a hand first. -/
def State.chooseGroup (s : State) (slot gid : Nat) (g : Group) (es : List (Nat × Group)) : State :=
  match s.handOf gid with
  | none => { s.giveHand gid with turn := true }
  | some _ =>
    let c := s.chosen ((g.splits.filter fun p => p.st == .ready).length)
    let g1 := if g.handler.isSome then g else g.settleSplits (s.saving g) c.1
    let js := match g1.issuing with
      | some p => s.joiners p.pc [g1] (es.filter fun e => e.1 != gid)
      | none => []
    { js.foldl (fun t j => t.setGroup j.1 j.2) ((c.2.countRun slot g.level).setGroup gid g1) with
      cur := some gid, also := js.map (·.1), turn := true }

/-- ISSUE_SELECT (R132): one issue slot with an eligible group chooses the group that issues next, and those that join its
issue. The slots of the package take turns in an order that is free (log entry 56). -/
def execIssueSelect (s0 : State) : Host.Outcome State Fault Refusal :=
  .next (if s0.cur.isSome then s0
    else
      let s := s0.registerRecords
      let es := s.eligible
      let slots := (es.map fun e => slotOf e.1 e.2).eraseDups
      match slots with
      | [] => { s with turn := true }
      | _ =>
        let c := s.chosen slots.length
        let slot := slots.getD c.1 0
        let mine := es.filter fun e => slotOf e.1 e.2 == slot
        match c.2.slotChoice slot mine with
        | none => { s with turn := true }
        | some (gid, g) => c.2.chooseGroup slot gid g mine)

/-- Whether a group's next instruction is an instruction that is neither `safe` nor `draw` (R387). -/
def issueDue (s : State) (gid : Nat) (g : Group) (p : Split) : Bool :=
  p.held.isNone && (match fetchWord s (g.agent gid) p.pc with
    | .words (w :: _) => w / 2 ^ 21 ≠ 0x704 && w / 2 ^ 21 ≠ 0x705
    | _ => false)

/-- SAFE_POINT_DISTANCE_TRAP (R387): the group chosen to issue takes trap 0x0E. An instruction's own issue makes this check
after those of R58; as a step of its own it stands for an instruction that meets none of those. -/
def execSafePointDistanceTrap (s : State) : Host.Outcome State Fault Refusal :=
  .next (match s.cur.bind fun gid => (s.group gid).map fun g => (gid, g) with
    | none => s
    | some (gid, g) =>
      match g.issuing with
      | none => s
      | some p =>
        if issueDue s gid g p && s.tooFar g { words := [], stall := 0 } then
          (s.takeTrap gid g p 0x0E 0 p.mask).issued
        else s)

end Sys2Proof.Machine
end

