-- ==== Sys2Proof/Machine/Setup.lean ====
section
/-! DEFINITION. A partition at set-up and its house program's group (R134, R379, R380, R400, R401), and a
program placed from outside (log entry 3). -/
namespace Sys2Proof.Machine

/-- A partition's registers at set-up, for a row of the partition table (R379, R380). -/
def Part.fresh (r : PartRow) : Part where
  live := true
  clust := r.clust
  region := r.region
  slots := r.slots
  eth := r.eth
  ethAddr := r.ethAddr
  streamBase := r.streamBase
  streamCount := r.streamCount
  domain := r.domain
  kitty := r.kitty
  houseCore := r.houseCore
  changes := 1
  tba := 0
  ovdef := 0x155
  safeEn := true
  safeLimit := 1024
  sen := true
  ptroot := 0
  migEn := false
  migHalf := 20
  migThresh := 0x40
  fq := 0
  rfq := 0
  kq := 0
  lost := 0
  seatBase := 0
  seatCap := 0
  saveArea := 0
  saveSlot := 0
  keystat := 0
  keys := []
  ethTx := copiesOf 8 0
  ethRx := copiesOf 8 0
  ckpt := { go := false, quiesce := false, restore := false, stage := 0 }
  pools := []
  ranks := []
  rrNext := 0
  nextHandle := 1
  halved := 0

/-- One split over the lanes of a group, at a PC (R87). -/
def Split.first (width : Nat) (pc : DWord) : Split :=
  { slot := 0, mask := maskBelow width, pc := pc, st := .ready, joins := [], held := none, safeAt := none }

/-- The house program's group (R134): privileged, vector role, width 8, latency class. It may name every vector and
uniform register; R134 gives it no grid, and its GRIDID, TEAMX to TEAMZ, DEPTH and GROUPIDX read 0 (both the model's choice, log
entry 4). -/
def houseGroup (part : Nat) (ovdef : BitVec 10) (text : DWord) : Group where
  part := part
  team := none
  index := 0
  role := .vector
  width := 8
  latency := true
  issueSlot := 0
  lanePos := 0
  vAlloc := 128
  sAlloc := 56
  tAlloc := 0
  aAlloc := 0
  text := text
  liveset := 0
  liveCount := 0
  data := 0
  gridId := 0
  depth := 0
  teamX := 0
  teamY := 0
  teamZ := 0
  vregs := []
  sregs := []
  preds := []
  tiles := []
  accs := []
  amax := []
  mode := 0x0063817
  scc := 0
  flags := 0
  sig := 0
  msig := 0
  lscale := 0x3F800000
  ovf := 0
  ovtab := ovdef
  amaxSel := 0
  readLatch := 0
  timeWrite := 0
  tcause := 0
  tpc := 0
  tval := 0
  tmask := 0
  hwdog := 0
  cnt := { c0 := 0, c1 := 0, c2 := 0, c3 := 0, c4 := 0, c5 := 0 }
  armed := none
  safeCount := 0
  nominal := 0
  producers := []
  stallUntil := 0
  lastIssue := 0
  issuesInTurn := 0
  workSet := []
  splits := [Split.first 8 text]
  exited := 0
  handler := none
  parked := none
  blockedSince := 0
  residency := .running
  pend := []
  matq := []
  tag := 0
  seat := 0
  holds := []
  streamSlot := none
  poisoned := []
  bad := []
  lastPc := 0
  lastPages := []
  syncAt := 0
  kitty := 0
  frameCopy := []

/-- The row of the partition that a placed program runs in: every cluster and home region. -/
def placedRow : PartRow :=
  { live := true, clust := BitVec.allOnes 48, region := BitVec.allOnes 64, slots := [], eth := 0, ethAddr := [],
    streamBase := 0, streamCount := 98304, domain := 0, kitty := 1, houseCore := 15, houseText := placedText }
where
  /-- the physical-window address of the placed program (R352) -/
  placedText : DWord := 0x0100000000010000

/-- A word, and the word after it, stored as the first instruction of the house program of partition 0, which is the
group chosen to issue (R134, R352; log entry 3). -/
def State.placeProgram (s : State) (w : Nat) : State :=
  let x := Part.fresh placedRow
  let g := { houseGroup 0 x.ovdef placedRow.houseText with
    splits := [{ Split.first 8 placedRow.houseText with st := .current }] }
  { ((s.setPart 0 x).setGroup (128 * 15) g).setBytes 0x10000 (toBytes 8 w) with cur := some (128 * 15) }

end Sys2Proof.Machine
end

