-- ==== Sys2Proof/Machine/Launch.lean ====
section
/-! DEFINITION. Launch records and `launch` (R108 to R112), `cwait` (R115), the distributor and its placement (R127, R129 to
R131), admission and what a group starts with (R113, R125, R126), and retirement (R114, R118). -/
namespace Sys2Proof.Machine

/-- A field of a launch record's bytes. -/
def recField (b : List Byte) (off n : Nat) : Nat := ofBytes ((b.drop off).take n)

/-- The role that a code of ROLES names (R108); 3 is reserved. -/
def roleOfCode (n : Nat) : Role :=
  match n with
  | 1 => .dealer
  | 2 => .matrix
  | _ => .vector

/-- Ring `k` of a record (R109): its consumer positions and slots, if it is registered. -/
def recRing (b : List Byte) (k : Nat) : Option (Nat × Nat) :=
  let r := recField b (0x40 + k) 1
  if bit r 7 then some (bits r 4 3 + 1, bits r 0 4 + 1) else none

/-- A launch record read from its 128 bytes (R108, R109). -/
def LaunchRec.ofBytes (b : List Byte) : LaunchRec where
  seq := recField b 0 4
  text := BitVec.ofNat 64 (recField b 0x08 8)
  param := BitVec.ofNat 64 (recField b 0x10 8)
  liveset := BitVec.ofNat 64 (recField b 0x18 8)
  gridX := bits (recField b 0x20 4) 0 31 + 1
  gridY := recField b 0x24 2 + 1
  gridZ := recField b 0x26 2 + 1
  latency := bit (recField b 0x28 4) 10
  cohort := bits (recField b 0x28 4) 6 4 + 1
  groups := bits (recField b 0x28 4) 2 4 + 1
  width := 8 * 2 ^ bits (recField b 0x28 4) 0 2
  roles := (List.range 16).map fun g => roleOfCode (bits (recField b 0x2C 4) (2 * g) 2)
  vregs := bits (recField b 0x30 4) 0 5
  sregs := bits (recField b 0x30 4) 5 3
  tiles := bits (recField b 0x30 4) 8 3
  accs := bits (recField b 0x30 4) 11 3
  scratch := recField b 0x34 4
  mode0 := BitVec.ofNat 25 (recField b 0x38 4)
  liveCount := recField b 0x3C 4
  rings := (List.range 8).map (recRing b)
  anchor := BitVec.ofNat 64 (recField b 0x48 8)
  asx := recField b 0x50 4
  asy := recField b 0x54 4
  asz := recField b 0x58 4
  done := BitVec.ofNat 64 (recField b 0x60 8)
  data := BitVec.ofNat 64 (recField b 0x70 8)
  raw := b

/-- The teams of a grid (R108). -/
def LaunchRec.teams (r : LaunchRec) : Nat := r.gridX * r.gridY * r.gridZ

/-- The roles of a team's groups. -/
def LaunchRec.teamRoles (r : LaunchRec) : List Role := r.roles.take r.groups

/-- The tile-and-accumulator bytes of a group of a role (R119). -/
def LaunchRec.tileBytes (r : LaunchRec) (role : Role) : Nat :=
  if role = .matrix then 2048 * r.tiles + 4096 * r.accs else 0

/-- The tile-and-accumulator bytes of a team (R110, R125). -/
def LaunchRec.teamTileBytes (r : LaunchRec) : Nat := (r.teamRoles.map r.tileBytes).sum

/-- The registered rings of a record. -/
def LaunchRec.ringCount (r : LaunchRec) : Nat := (r.rings.filter (·.isSome)).length

/-- Whether a record has a reserved bit or code (R110 reason 0x01). -/
def recReserved (b : List Byte) : Bool :=
  let g := bits (recField b 0x28 4) 2 4 + 1
  bit (recField b 0x20 4) 31 || recField b 0x28 4 / 2 ^ 11 ≠ 0 || recField b 0x30 4 / 2 ^ 14 ≠ 0
    || recField b 0x38 4 / 2 ^ 25 ≠ 0 || recField b 0x5C 4 ≠ 0 || recField b 0x78 8 ≠ 0
    || (List.range 16).any (fun k => bits (recField b 0x2C 4) (2 * k) 2 = 3 || (g ≤ k && bits (recField b 0x2C 4) (2 * k) 2 ≠ 0))
    || (List.range 8).any (fun k => !bit (recField b (0x40 + k) 1) 7 && recField b (0x40 + k) 1 ≠ 0)

/-- The lowest reason for which a record that could be read is refused (R110); `kids` are the launching team's incomplete
child grids, `kitty` the partition's kitty size. -/
def recRefusal (b : List Byte) (kitty kids : Nat) : Option Nat :=
  let r := LaunchRec.ofBytes b
  let matrix := r.teamRoles.any fun x => x == .matrix
  if recReserved b then some 0x01
  else if r.seq = 0 then some 0x02
  else if 16 < r.vregs || 4 < r.tiles || 4 < r.accs || (!matrix && (r.tiles ≠ 0 || r.accs ≠ 0)) then some 0x03
  else if 2 ^ 19 - 2 ^ 16 * kitty < r.scratch || r.rings.any (fun q => match q with
      | some x => r.groups < x.1 + 1
      | none => false) then some 0x04
  else if r.gridX % r.cohort ≠ 0 || (if r.latency then 16 else 14) < r.cohort then some 0x05
  else if r.text.toNat % 256 ≠ 0 || r.liveset.toNat % 128 ≠ 0 || r.data.toNat % 128 ≠ 0 || r.scratch % 128 ≠ 0
      || r.done.toNat % 4 ≠ 0 || 4096 < r.liveCount then some 0x06
  else if 64 ≤ kids then some 0x08
  else if 96 * 1024 < r.teamTileBytes then some 0x09
  else none

/-- The key of a grid: its partition's number and its handle. -/
def gridKey (part handle : Nat) : Nat := 2 ^ 32 * part + handle

/-- The grids that a team has launched (R115). -/
def State.childGrids (s : State) (tid : Nat) : List (Nat × Grid) := s.grids.filter fun e => e.2.parent == some tid

/-- A handle that no grid of a partition has (R111): from 1 to 2^31 − 1. -/
def State.newHandle (s : State) (part next : Nat) : Nat :=
  (((List.range (s.grids.length + 1)).map fun i => (next - 1 + i) % (2 ^ 31 - 1) + 1).find? fun h =>
    (tabGet s.grids (gridKey part h)).isNone).getD next

/-- A grid created (R111): its record waits in the distributor. -/
def State.addGrid (s : State) (part : Nat) (x : Part) (parent : Option Nat) (depth : Nat) (r : LaunchRec) : Nat × State :=
  let h := s.newHandle part x.nextHandle
  let g : Grid := { part := part, handle := h, parent := parent, depth := depth, record := r, next := 0, retired := 0,
                    killed := false, complete := false, order := s.nextId, waitDie := none }
  (h, { s with nextId := s.nextId + 1, grids := smapInsert s.grids (gridKey part h) g }.setPart part
    { x with nextHandle := h % (2 ^ 31 - 1) + 1 })

/-- The word that `launch` returns for a refusal (R110). -/
def refusalWord (x : Nat) : Word := BitVec.ofNat 32 (0x80000000 + x)

/-- `launch` (R111, R112): the release of the group's earlier accesses, the record's checks, and a new grid. -/
def execLaunch (f : Launch) (s : State) : Host.Outcome State Fault Refusal :=
  let base := 2 * f.k.toNat
  issue (fun g _ => { words := [packLaunch 0xE1800000 f], stall := f.st, roleBad := !g.priv && g.index ≠ 0,
                      sNamed := [f.sd.toNat, base, base + 1], access := true, reads := sNames base 2,
                      writes := [(sName f.sd.toNat, 0)] })
    (fun e =>
      let a := (e.v.spair base).toNat
      let ends := fun (t : State) (w : Word) => Res.ok (t.modGroup e.gid fun g => g.setSreg f.sd.toNat w)
      if !e.g.priv && e.g.depth = 9 then .trap 0x13 0 none
      else if !e.marker && e.g.accessesOf (BitVec.allOnes 64) ≠ [] then
        .block e.s (.performed (e.g.accessesOf (BitVec.allOnes 64))) true
      else if a % 128 ≠ 0 then ends e.s (refusalWord 0x06)
      else
        match checkAddr e.s (e.g.agent e.gid) a 128 1 .read, e.part with
        | .wait w, _ => .block e.s w true
        | .ok p, some x =>
          let s1 := e.s.l1FlushAll (clusterOf (coreOf e.gid)) (p.lines 128)
          let q := e.readAll s1 true false [({ lane := 0, addr := a, size := 128, align := 128 }, p)]
          let b := s1.readAt p 128
          let tid := if e.g.priv then none else e.g.team
          let kids := match tid with
            | some t => ((q.1.childGrids t).filter fun c => !c.2.complete).length
            | none => 0
          (match recRefusal b x.kitty.toNat kids with
           | some r => ends (q.1.synced e.gid) (refusalWord r)
           | none =>
             let n := q.1.addGrid e.g.part x tid (if e.g.priv then 0 else e.g.depth + 1) (LaunchRec.ofBytes b)
             ends (n.2.synced e.gid) (BitVec.ofNat 32 n.1))
        | _, _ => ends e.s (refusalWord 0x07)) s

/-- `cwait` (R115); it acquires at system scope. -/
def execCwait (f : SysDA) (s : State) : Host.Outcome State Fault Refusal :=
  issue (fun _ _ => { words := [packSysDA 0xE1A00000 f], stall := f.st, sNamed := [f.sd.toNat, f.sa.toNat],
                      reads := [sName f.sa.toNat], writes := [(sName f.sd.toNat, 0)] })
    (fun e =>
      let mine := match e.g.team with
        | some t => (e.s.childGrids t).map (·.1)
        | none => []
      let key := gridKey e.g.part (e.v.sreg f.sa.toNat).toNat
      let hs := if e.resumed then e.grids else if f.sa = 63 then mine else [key]
      if !e.resumed && f.sa ≠ 63 && !mine.contains key then e.upd (e.g.setSreg f.sd.toNat 0x800000FF)
      else if e.resumed || e.s.waitOver e.gid e.g (.grids hs) then
        let g1 : Group := { e.g with syncAt := e.s.tick }
        e.upd (g1.setSreg f.sd.toNat (if hs.any fun h => ((tabGet e.s.grids h).map (·.killed)).getD false then 2 else 1))
      else .block e.s (.grids hs) false) s

/-- A ring at its start (R120). -/
def Ring.start (q : Nat × Nat) : Ring :=
  { producer := none, closed := false, ip := 0, claimed := none,
    pos := copiesOf q.1 { owner := none, gone := false, cp := 0, phase := true, held := none },
    slots := copiesOf q.2 { phase := false, offer := 0, pass := BitVec.ofNat 8 (2 ^ q.1 - 1), hold := 0 } }

/-- The anchor address of a place in a grid (R130). -/
def LaunchRec.anchorOf (r : LaunchRec) (x y z : Nat) : Nat :=
  if r.anchor = 0 then 0 else (r.anchor.toNat + x * r.asx + y * r.asy + z * r.asz) % 2 ^ 57

/-- Whether a partition owns a package-wide cluster. -/
def Part.ownsCluster (x : Part) (c : Nat) : Bool := c < 48 && x.clust.getLsbD c

/-- The clusters of a partition on a die. -/
def Part.dieClusters (x : Part) (d : Nat) : List Nat := (upFrom (12 * d) 12).filter x.ownsCluster

/-- Where an anchor address is homed in a partition (R130): the die and the preferred cluster; none where it does not
translate or has no home in the partition. -/
def State.anchorHome (s : State) (x : Part) (a : Nat) : Option (Nat × Nat) :=
  let w := walk s x a
  match w.fin with
  | .leaf => if x.owns (leafPa w a) then some (homeDie (leafPa w a), homeSlice (leafPa w a) * 12 / 256) else none
  | _ => none

/-- Whether the translation of an anchor address waits for a claimed entry (R354) or for the write of a line (R357). -/
def State.anchorBusy (s : State) (x : Part) (a : Nat) : Bool := (walk s x a).fin == .busy || (walk s x a).fin == .writing

/-- Whether a team waits in the distributor to be admitted (R114). -/
def Team.isQueued (t : Team) : Bool := t.state == .queued || (t.state == .preempted && t.loadFrom.isSome)

/-- Whether a die is full (R131): 64 or more teams, of any partition, are queued on it. -/
def State.dieFull (s : State) (d : Nat) : Bool :=
  64 ≤ (s.teams.filter fun e => e.2.isQueued && e.2.homeDie == some d).length

/-- The die that a team homed on die `d` goes to (R131): one that is not full, or only die `d` for a team that waits for it
since every die was full; none while it waits. -/
def State.placeDie (s : State) (x : Part) (waits : Option Nat) (d : Nat) : Option Nat :=
  let ok := fun (k : Nat) => x.dieClusters k ≠ [] && !s.dieFull k
  (match waits with
   | some w => [w]
   | none => [d, d ^^^ 1, d ^^^ 2, d ^^^ 3]).find? ok

/-- The next team of a grid waits for its home die (R131), where the partition holds clusters on it. -/
def State.waitForDie (s : State) (key : Nat) (g : Grid) (x : Part) (d : Nat) : State :=
  if x.dieClusters d = [] then s else { s with grids := smapInsert s.grids key { g with waitDie := some d } }

/-- Whether a grid is the next of its class to offer a team (R127). -/
def State.offers (s : State) (g : Grid) : Bool :=
  s.grids.all fun e => !(e.2.part == g.part && e.2.record.latency == g.record.latency && e.2.order < g.order
    && e.2.next < e.2.record.teams)

/-- The member 0 of a cohort that a team joins: the team itself, or one already offered (R117). -/
def State.leaderOf (s : State) (key : Nat) (x m y z self : Nat) : Nat :=
  if m = 0 then self
  else ((s.teams.find? fun e => e.2.grid == key && e.2.x + m == x && e.2.y == y && e.2.z == z).map (·.1)).getD self

/-- The arrival number of a team queued behind all others; those re-queued at the head count down from here. -/
def arrivalBase : Nat := 2 ^ 40

/-- The next team of a grid, offered to the distributor at a home die and preferred cluster (R127, R129, R130). -/
def State.offerTeam (s : State) (key : Nat) (g : Grid) (home : Option Nat) (pref : Nat) : State :=
  let r := g.record
  let x := g.next % r.gridX
  let y := g.next / r.gridX % r.gridY
  let z := g.next / r.gridX / r.gridY
  let m := x % r.cohort
  let tid := s.nextId
  let t : Team :=
    { part := g.part, grid := key, x := x, y := y, z := z, leader := s.leaderOf key x m y z tid, member := m, cohort := r.cohort,
      state := .queued, latency := r.latency, homeDie := home, prefCluster := pref, arrival := arrivalBase + tid, core := 0,
      winOff := 0, winLen := r.scratch, killed := false, groups := copiesOf r.groups .absent,
      rings := r.rings.map (Option.map Ring.start), anchor := BitVec.ofNat 64 (r.anchorOf (x - m) y z), saving := none,
      requeue := false, named := false, image := none, loadFrom := none, taking := false, sizeAt := none }
  { s with nextId := tid + 1, teams := smapInsert s.teams tid t,
           grids := smapInsert s.grids key { g with next := g.next + 1, waitDie := none } }

/-- TEAM_DISTRIBUTE (R127, R129 to R131): the next team of a grid passes to the partition's distributor. Teams dealt
round-robin pass one at a time, a team whose home die and its alternates are full waits, and the members of a cohort
follow member 0. -/
def execTeamDistribute (key : Nat) (s : State) : Host.Outcome State Fault Refusal :=
  .next (match tabGet s.grids key with
    | none => s
    | some g =>
      match s.part g.part with
      | none => s
      | some x =>
        let r := g.record
        if r.teams ≤ g.next || !s.offers g then s
        else
          let m := g.next % r.gridX % r.cohort
          let y := g.next / r.gridX % r.gridY
          let z := g.next / r.gridX / r.gridY
          match (if m = 0 then none else s.team (s.leaderOf key (g.next % r.gridX) m y z 0)) with
          | some l => s.offerTeam key g l.homeDie l.prefCluster
          | none =>
            let a := r.anchorOf (g.next % r.gridX) y z
            if r.anchor ≠ 0 && s.anchorBusy x a then s
            else
            match (if r.anchor = 0 then none else s.anchorHome x a) with
            | some (d, c) =>
              (match s.placeDie x g.waitDie d with
               | some k => s.offerTeam key g (some k) c
               | none => s.waitForDie key g x d)
            | none =>
              if s.teams.any fun e => e.2.part == g.part && e.2.latency == r.latency && e.2.state == .queued && e.2.homeDie.isNone
                then s
              else s.offerTeam key g none 0)

/-- The clusters in the order in which the distributor searches them for a team (R129, R130): from the preferred one
outward on the home die, or in ascending order from the deal's next position. -/
def Part.search (x : Part) (t : Team) : List Nat :=
  match t.homeDie with
  | some d =>
    let c := t.prefCluster
    let near := c :: ((upFrom 1 11).flatMap fun k =>
      (if c + k < 12 then [c + k] else []) ++ (if k ≤ c then [c - k] else []))
    (near.map (12 * d + ·)).filter x.ownsCluster
  | none => ((List.range 48).map fun k => (x.rrNext + k) % 48).filter x.ownsCluster

/-- The groups of a core, leaving out those of bulk teams where `idle` says that they count as gone (R126). -/
def State.coreGroups (s : State) (core : Nat) (idle : Bool) : List (Nat × Group) :=
  s.groups.filter fun e => coreOf e.1 == core && !(idle && !e.2.latency)

/-- The teams that hold resources of a core (R114). -/
def State.coreTeams (s : State) (core : Nat) (idle : Bool) : List (Nat × Team) :=
  s.teams.filter fun e => (e.2.state == .resident || e.2.state == .held) && e.2.core == core && !(idle && !e.2.latency)

/-- The main-file bytes of a group (R125). -/
def Group.mainBytes (g : Group) : Nat := 4 * g.vAlloc * g.width

/-- Whether a group's context stands in the main file (R128). -/
def Group.inMain (g : Group) : Bool := g.residency != .swapped

/-- The main-file bytes in use on a core. -/
def State.mainUsed (s : State) (core : Nat) (idle : Bool) : Nat :=
  (((s.coreGroups core idle).filter fun e => e.2.inMain).map fun e => e.2.mainBytes).sum

/-- The tile-and-accumulator bytes of a group (R119). -/
def Group.tileBytes (g : Group) : Nat := 512 * g.tAlloc + 2048 * g.aAlloc

/-- The lowest multiple of 128 at which `n` bytes are free below a limit (R125). -/
def firstFit (used : List (Nat × Nat)) (lo limit n : Nat) : Option Nat :=
  let cands := lo :: used.map fun u => roundLine (u.1 + u.2)
  let fits := cands.filter fun c => lo ≤ c && c + n ≤ limit && used.all fun u => u.2 = 0 || c + n ≤ u.1 || u.1 + u.2 ≤ c
  match fits with
  | [] => none
  | c :: r => some (r.foldl min c)

/-- The scratchpad windows in use on a core. -/
def State.windows (s : State) (core : Nat) (idle : Bool) : List (Nat × Nat) :=
  (s.coreTeams core idle).map fun e => (e.2.winOff, e.2.winLen)

/-- The members of a team that need a place on its core: those not yet admitted, or saved. -/
def Team.waitingMembers (t : Team) : List Nat :=
  (List.range t.groups.length).filter fun i =>
    match t.groups[i]? with
    | some .absent => true
    | some (.saved _) => true
    | _ => false

/-- Whether a swapped group's wait is over (R128): a condition of a split, or the word that it is Parked on. -/
def State.waitMet (s : State) (gid : Nat) (g : Group) : Bool :=
  match g.parked with
  | some w =>
    let v := if w.spad then ofBytes (s.sbytes w.place 4)
      else ofBytes (s.readAt (.direct w.place w.key) 4)
    v == 1 || v == 2
  | none => g.splits.any fun p =>
    match p.st with
    | .waiting (.entryBusy pa) => !s.claimed pa
    | .waiting w => s.waitOver gid g w
    | .parkedCont c _ => s.condHolds g c
    | .ready => true
    | .current => true
    | _ => false

/-- Whether a core can admit a team (R125): records, window, tile space, rings and main file are free, its cluster is
ready, its island runs, and no swapped group waits to come back first (R128). -/
def State.canAdmit (s : State) (x : Part) (t : Team) (r : LaunchRec) (idle : Bool) (core : Nat) : Bool :=
  let gs := s.coreGroups core idle
  let ms := t.waitingMembers
  let tiles := (ms.map fun i => r.tileBytes (r.roles.getD i .vector)).sum
  let rings := ((s.coreTeams core idle).map fun e => (e.2.rings.filter (·.isSome)).length).sum
  s.pkg.readyC.getLsbD (clusterOf core) && !s.coreStopped core
    && gs.length + ms.length ≤ 128
    && (firstFit (s.windows core idle) 0 (kittyBase x) t.winLen).isSome
    && (gs.map fun e => e.2.tileBytes).sum + tiles ≤ 96 * 1024
    && rings + r.ringCount ≤ 8
    && s.mainUsed core idle + 32 * r.vregs * r.width * ms.length ≤ 2 ^ 19
    && gs.all (fun e => e.2.residency != .swapped || !s.waitMet e.1 e.2)

/-- The record of a team's grid. -/
def State.recordFor (s : State) (t : Team) : Option LaunchRec := (tabGet s.grids t.grid).map (·.record)

/-- The cores of a cluster that can admit every member of a cohort's teams, reserve cores only where `reserve` allows them
and, where `idle` says so, as free of bulk teams (R126). -/
def State.openCores (s : State) (x : Part) (ts : List (Nat × Team)) (r : LaunchRec) (reserve idle : Bool) (c : Nat) : List Nat :=
  (upFrom (16 * c) 16).filter fun k =>
    (k % 16 < 14 || reserve) && ts.all fun e => s.canAdmit x e.2 r (idle && 14 ≤ k % 16) k

/-- The cluster that the search selects for a queued latency team, every reserve core counted as free of bulk teams
(R126). -/
def State.latencyCluster (s : State) (x : Part) (t : Team) : Option Nat :=
  match s.recordFor t with
  | none => none
  | some r =>
    let ts := s.cohortTeams t
    (x.search t).find? fun c => ts.length ≤ (s.openCores x ts r true true c).length

/-- Whether a latency team of a partition is queued for a cluster (R126). -/
def State.latencyFor (s : State) (part : Nat) (x : Part) (c : Nat) : Bool :=
  s.teams.any fun e => e.2.part == part && e.2.latency && e.2.isQueued && s.latencyCluster x e.2 == some c

/-- The cores of a cluster that can take a team's cohort now (R125 to R127): a bulk team on a reserve core only alone and
while no latency team is queued for the cluster. -/
def State.admitCores (s : State) (x : Part) (t : Team) (r : LaunchRec) (c : Nat) : List Nat :=
  let ts := s.cohortTeams t
  let reserve := t.latency || (t.cohort = 1 && !s.latencyFor t.part x c)
  let cs := s.openCores x ts r reserve false c
  if t.latency && ts.length ≤ (cs.filter fun k => k % 16 < 14).length then cs.filter fun k => k % 16 < 14 else cs

/-- `n` cores chosen one after another, each with the fewest groups (R130); a latency team takes the other cores before
the reserve ones. Ties are the part's choice. -/
def State.pickCores (s : State) (latency : Bool) : Nat → List Nat → List Nat × State
  | 0, _ => ([], s)
  | n + 1, cs =>
    let load := fun (k : Nat) => (s.coreGroups k false).length + (if latency && 14 ≤ k % 16 then 1000 else 0)
    match cs.filter fun k => cs.all fun j => load k ≤ load j with
    | [] => ([], s)
    | best =>
      let q := s.chosen best.length
      let k := best.getD q.1 0
      let rest := q.2.pickCores latency n (cs.filter fun j => j ≠ k)
      (k :: rest.1, rest.2)

/-- What a group starts with (R113). -/
def startGroup (g : Grid) (t : Team) (tid idx : Nat) (x : Part) : Group :=
  let r := g.record
  let role : Role := r.roles.getD idx .vector
  let base := { houseGroup t.part x.ovdef r.text with
    team := some tid, index := idx, role := role, width := r.width, latency := r.latency, vAlloc := 8 * r.vregs,
    sAlloc := 8 * r.sregs, tAlloc := if role = Role.matrix then 4 * r.tiles else 0,
    aAlloc := if role = Role.matrix then 2 * r.accs else 0, text := r.text, liveset := r.liveset, liveCount := r.liveCount,
    data := r.data, gridId := BitVec.ofNat 32 g.handle, depth := g.depth, teamX := BitVec.ofNat 32 t.x,
    teamY := BitVec.ofNat 32 t.y, teamZ := BitVec.ofNat 32 t.z, mode := r.mode0, splits := [Split.first r.width r.text] }
  (base.setSpair 0 r.param).setSpair 2 t.anchor

/-- A group number free on a core (R125). -/
def State.freeRecord (s : State) (core : Nat) : Nat :=
  (((List.range 128).map (128 * core + ·)).find? fun k => (s.group k).isNone).getD (128 * core)

/-- A group given an issue slot and a lane position by its record (R69, R125). -/
def Group.placedAt (g : Group) (gid : Nat) : Group :=
  { g with issueSlot := recordOf gid % 2, lanePos := recordOf gid / 2 % (64 / max 1 g.width) }

/-- A range of a scratchpad zeroed, and no longer poisoned (R113, R400). -/
def State.zeroSpad (s : State) (k n : Nat) : State :=
  { s with spad := s.spad.filter (fun c => !(k ≤ c.1 && c.1 < k + n)),
           spadPoison := s.spadPoison.filter (fun e => !(k ≤ 16 * e.1 && 16 * e.1 < k + n)) }

/-- A team becomes resident on a core: its window is placed by first fit (R125). -/
def State.seatTeam (s : State) (x : Part) (tid : Nat) (t : Team) (core : Nat) : State :=
  s.setTeam tid { t with state := .resident, core := core,
                         winOff := (firstFit (s.windows core false) 0 (kittyBase x) t.winLen).getD 0 }

/-- The groups of a new team started in a zeroed window (R113). -/
def State.startTeam (s : State) (x : Part) (tid : Nat) (t : Team) (core : Nat) : State :=
  match tabGet s.grids t.grid with
  | none => s
  | some g =>
    let s1 := s.seatTeam x tid t core
    let s2 := match s1.team tid with
      | some u => s1.zeroSpad (u.key 0) u.winLen
      | none => s1
    t.waitingMembers.foldl (fun (u : State) i =>
      let gid := u.freeRecord core
      let q := (startGroup g t tid i x).placedAt gid
      (u.setGroup gid { q with lastIssue := u.tick, syncAt := u.tick }).modTeam tid fun v => { v with groups := listSet v.groups i (.live gid) }) s2

/-- The kill record of a completion word that cannot be stored (R114, R394). -/
def State.doneRecord (s : State) (g : Grid) (cause : Nat) : State :=
  s.killRecord g.part 0 cause false 0 g.handle 0 g.record.done

/-- How the store of a completion word ends (R114). -/
inductive DoneEnd where
  | stored (s : State)
  | waits

/-- The completion word of a grid stored (R114): it needs V and W, and U for a grid that a team launched. -/
def State.storeDone (s : State) (x : Part) (g : Grid) : DoneEnd :=
  let ag : Agent := { part := g.part, priv := g.depth = 0, core := 0, team := none }
  let a := g.record.done.toNat
  if a = 0 then .stored s
  else if a / 2 ^ 57 ≠ 0 then .stored (s.doneRecord g 0x0A)
  else
    let w := walk s x a
    match w.fin with
    | .busy => .waits
    | .writing => .waits
    | .leaf =>
      let key := if pteKey w.pte = 0 then some none else (tabGet x.keys (pteKey w.pte)).map some
      if !pteW w.pte || (g.depth ≠ 0 && !pteU w.pte) || !x.owns (leafPa w a) then .stored (s.doneRecord g 0x0B)
      else
        (match key with
         | none => .stored (s.doneRecord g 0x0B)
         | some k =>
           let p := Place.phys (leafPa w a) (pteKind w.pte) k (w.source s ag a) w.lines
           .stored ((s.installRemote g.part p).strongPut p (toBytes 4 (if g.killed then 2 else 1))))
    | .malformed => .stored (s.doneRecord g 0x0B)
    | _ => .stored (s.doneRecord g 0x0A)

/-- A complete grid (R114, R111): its teams' records go, and its own goes when no parent team can still name it. -/
def State.completeGrid (s : State) (key : Nat) (g : Grid) : State :=
  let ts := s.teams.filter fun e => e.2.grid != key
  { s with teams := ts,
           grids := if g.parent.isNone then smapErase s.grids key else smapInsert s.grids key { g with complete := true } }

/-- TEAM_RETIRE (R114, R118): a Held team retires once its child grids are complete and every member of its cohort is
Held or retired; the last team of a grid completes it. -/
def execTeamRetire (tid : Nat) (s : State) : Host.Outcome State Fault Refusal :=
  .next (match s.team tid with
    | none => s
    | some t =>
      match tabGet s.grids t.grid, s.part t.part with
      | some g, some x =>
        let ts := s.cohortTeams t
        let kids := s.childGrids tid
        if t.state ≠ .held || kids.any (fun e => !e.2.complete) || ts.length ≠ t.cohort
            || ts.any (fun e => e.2.state != .held && e.2.state != .retired) then s
        else
          let g1 := { g with retired := g.retired + 1 }
          let gs := kids.foldl (fun (m : List (Nat × Grid)) e => smapErase m e.1) s.grids
          let s1 := { s with grids := gs }.setTeam tid { t with state := .retired }
          let s2 := { s1 with grids := smapInsert s1.grids t.grid g1 }
          if g1.retired = g.record.teams then
            (match s2.storeDone x g1 with
             | .waits => s
             | .stored u => u.completeGrid t.grid g1)
          else s2
      | _, _ => s)

end Sys2Proof.Machine
end

