-- ==== Sys2Proof/Machine/Matrix.lean ====
section
/-! DEFINITION. The matrix engine: format words (R235, R236), window records (R237, R238), one accumulation step
(R241), drains (R246 to R249), and the instructions of R240 at issue and in the engine (R232, R239). -/
namespace Sys2Proof.Machine

/-- The family of an operand format code (R236): 0 the 16-bit formats, 1 the 8-bit formats, 2 BFPk. -/
def matFamily (c : Nat) : Nat := if c < 2 then 0 else if c < 4 then 1 else 2

/-- AFMT of a format word (R235). -/
def fwA (w : Word) : Nat := bits w.toNat 0 4
/-- BFMT (R235). -/
def fwB (w : Word) : Nat := bits w.toNat 4 4
/-- AK (R235). -/
def fwAK (w : Word) : Nat := bits w.toNat 8 3
/-- BK (R235). -/
def fwBK (w : Word) : Nat := bits w.toNat 11 3
/-- STILE (R235). -/
def fwStile (w : Word) : Nat := bits w.toNat 14 4
/-- RES (R235). -/
def fwRes (w : Word) : Bool := w.getLsbD 18
/-- DMODE (R235). -/
def fwDmode (w : Word) : Bool := w.getLsbD 19
/-- DFMT (R235). -/
def fwDfmt (w : Word) : Nat := bits w.toNat 20 3
/-- DK (R235). -/
def fwDK (w : Word) : Nat := bits w.toNat 23 3
/-- DFTZ (R235). -/
def fwDftz (w : Word) : Bool := w.getLsbD 26
/-- DS (R235). -/
def fwDs (w : Word) : Bool := w.getLsbD 27
/-- DRND (R235). -/
def fwRnd (w : Word) : Rnd := if w.getLsbD 28 then .rz else .rne
/-- SP (R235). -/
def fwSp (w : Word) : Bool := w.getLsbD 29

/-- Whether a format word is valid for an instruction that takes BFPk operands or not (R236 step 2). -/
def fwValid (w : Word) (bfp : Bool) : Bool :=
  bits w.toNat 30 2 = 0 && fwA w < 5 && fwB w < 5 && fwDfmt w < 6 && matFamily (fwA w) = matFamily (fwB w)
    && (if fwA w = 4 then bfp && fwAK w ≠ 7 && fwBK w ≠ 7 else fwAK w = 0 && fwBK w = 0 && fwStile w = 0)
    && (if fwDfmt w = 5 then fwDK w ≠ 7 else fwDK w = 0)

/-- The tiles of a BFPk operand of `k` bits from tile `t` (R233). -/
def planeTiles (t k : Nat) : List Nat := upFrom t ((k + 1) / 2)

/-- The tiles that an `mma` with a BFPk format word names beyond its fields (R236 step 3, R242). -/
def fwTiles (w : Word) (ta tb : Nat) : List Nat :=
  if fwA w = 4 then planeTiles ta (fwAK w + 2) ++ planeTiles tb (fwBK w + 2) ++ [fwStile w] else []

/-- The tile that a BFPk format word names by itself (R235, R236 step 3). -/
def scaleTile (w : Word) : List Nat := if fwA w = 4 then [fwStile w] else []

/-- The format word of an instruction, or how it ends instead (R236). -/
def Env.formatWord (e : Env) (vf : Nat) (bfp : Bool) (tiles : Word → List Nat) : Except Res Word :=
  match lanesOf e.active with
  | [] => .error (.ok e.s)
  | i :: r =>
    let w := e.v.vreg vf i
    match r.find? fun j => e.v.vreg vf j ≠ w with
    | some j => .error (.trap 0x05 (BitVec.ofNat 64 (vf + i * 2 ^ 16 + j * 2 ^ 24)) none)
    | none =>
      if !fwValid w bfp then .error (.trap 0x05 (BitVec.ofNat 64 (2 ^ 31 + w.toNat * 2 ^ 32)) none)
      else
        match (tiles w).find? fun t => e.g.tAlloc ≤ t with
        | some t => .error (.trap 0x14 (BitVec.ofNat 64 (t % 16)) none)
        | none => .ok w

/-- The window record of a quad (R237). -/
def Env.window (e : Env) (q : Nat) : Window :=
  { base := (e.v.sreg (4 * q)).toNat, extent := (e.v.sreg (4 * q + 1)).toNat, pitch := (e.v.sreg (4 * q + 2)).toNat,
    soff := bits (e.v.sreg (4 * q + 3)).toNat 0 16 }

/-- What an instruction accesses in a window (R238): the offsets of its rows in its row order, the bytes of a row, and
the bytes of the scale area. -/
structure WinUse where
  q : Nat
  second : Bool
  win : Window
  off : Nat
  rows : List Nat
  rowBytes : Nat
  scales : List Nat
  useScale : Bool
  write : Bool
deriving DecidableEq, Repr

/-- The check of a window (R238): the cause and the offending value of the first failure. -/
def WinUse.check (u : WinUse) (scratch : Nat) : Option (Nat × Nat) :=
  match ([u.win.base, u.win.pitch, u.off] ++ if u.useScale then [u.win.soff] else []).find? fun x => x % 16 ≠ 0 with
  | some x => some (0x09, x)
  | none =>
    if scratch < u.win.base + u.win.extent then some (0x08, u.win.base + u.win.extent)
    else if 1 < u.rows.length && u.win.pitch < u.rowBytes then some (0x08, u.rows.getD 1 0)
    else
      match (u.rows.filter fun r => u.win.extent < r + u.rowBytes) ++ u.scales.filter fun r => u.win.extent < r + 1 with
      | [] => none
      | x :: r => some (0x08, r.foldl min x)

/-- TVAL of a window trap (R238). -/
def WinUse.tval (u : WinUse) (v : Nat) : DWord :=
  BitVec.ofNat 64 (u.q + (if u.second then 16 else 0) + v % 2 ^ 32 * 2 ^ 32)

/-- The range that an instruction locks for a window (R244, R299): the whole window, BASE to BASE + EXTENT. R239 says "the
ranges it reads and writes"; R299's table and R244 say the windows, and the model follows those (log entry 112). -/
def WinUse.span (u : WinUse) (t : Team) : Span :=
  { space := .spad t.core, lo := t.winOff + u.win.base, len := u.win.extent, write := u.write }

/-- The offset that a matrix prefix carries (R240). -/
def matImm (px : Option MatPx) : Nat := (px.map fun p => p.imm.toNat).getD 0

/-- What the issue logic knows of a matrix instruction (R240): `imm` for one whose prefix it honours, `lanes` for one
that looks at the Active lanes. -/
def matSpec (g : Group) (words : List Nat) (st : BitVec 2) (px : Option MatPx) (imm lanes : Bool) (vs qs ts as : List Nat) : Spec :=
  { words := words, stall := st, role := some .matrix, mask := if lanes then .guard else .none,
    misuse := !imm && matImm px ≠ 0, access := qs ≠ [],
    vNamed := vs, sNamed := qs.flatMap fun q => upFrom (4 * q) 4, tNamed := ts, aNamed := as,
    reads := vs.map vName ++ (qs.flatMap fun q => sNames (4 * q) 4) ++ (if lanes then g.maskReads .guard else []) }

/-- The issue of an engine instruction: its windows checked, the waits of R76, R232 and R300, its locks and its
counter (R239, R256). -/
def Env.enqueue (e : Env) (kind : MatKind) (fmt : Word) (us : List WinUse) (counted : Bool) : Res :=
  match e.team with
  | none => e.illegal 0x15
  | some t =>
    match us.findSome? fun u => (u.check t.winLen).map fun c => (c, u) with
    | some (c, u) => .trap c.1 (u.tval c.2) none
    | none =>
      let core := coreOf e.gid
      let spans := us.map fun u => u.span t
      if counted && e.full 3 then e.waitRoom (.counterRoom 3)
      else if 8 ≤ e.g.matq.length || e.s.freeLocks (clusterOf core) < spans.length then
        e.waitRoom (.matrixRoom spans.length)
      else
        let q := e.s.takeLocks (clusterOf core) spans
        let win := fun (k : Nat) => (us[k]?.map (·.win)).getD { base := 0, extent := 0, pitch := 0, soff := 0 }
        let op : MatOp :=
          { kind := kind, words := match e.p.held with
              | some h => h.words
              | none => [],
            fmt := fmt, winA := win 0, winB := win 1, off := (us.head?.map (·.off)).getD 0, lscale := e.g.lscale,
            ovtab := e.g.ovtab, started := false, done := 0, locks := q.2, counted := counted, waitsLocks := false, wants := [] }
        .ok (q.1.modGroup e.gid fun g =>
          let g1 := if counted then g.countUp 3 else g
          { g1 with matq := g1.matq ++ [op] })

/-- The use of a window of plain rows. -/
def plainUse (q : Nat) (second : Bool) (w : Window) (off : Nat) (idx : List Nat) (rowBytes : Nat) (write : Bool) : WinUse :=
  { q := q, second := second, win := w, off := off, rows := idx.map fun r => off + r * w.pitch, rowBytes := rowBytes,
    scales := [], useScale := false, write := write }

/-- The gathered row numbers of a vector register (R243). -/
def Env.rowIndex (e : Env) (v : Nat) : List Nat :=
  (List.range 16).map fun m => bits (e.v.vreg v (m / 2)).toNat (16 * (m % 2)) 16

/-- `mma` (R242). -/
def execMma (f : Mma) (s : State) : Host.Outcome State Fault Refusal :=
  issue (fun g _ => matSpec g (matWords f.px (packMma 0xD4000000 f)) f.st f.px false true [f.vf.toNat] []
      [f.ta.toNat, f.tb.toNat] [f.acc.toNat])
    (fun e =>
      match e.formatWord f.vf.toNat true fun w => fwTiles w f.ta.toNat f.tb.toNat with
      | .error r => r
      | .ok w => e.enqueue (.mma f.acc.toNat f.ta.toNat f.tb.toNat) w [] false) s

/-- `mmag` (R243). -/
def execMmag (f : Mmag) (s : State) : Host.Outcome State Fault Refusal :=
  issue (fun g _ => matSpec g (matWords f.px (packMmag 0xD4200000 f)) f.st f.px true true [f.vf.toNat, f.vf.toNat + 1]
      [f.q.toNat] [f.tb.toNat] [f.acc.toNat])
    (fun e =>
      match e.formatWord f.vf.toNat false fun _ => [] with
      | .error r => r
      | .ok w =>
        let idx := e.rowIndex (f.vf.toNat + 1)
        e.enqueue (.mmag f.acc.toNat f.tb.toNat idx) w
          [plainUse f.q.toNat false (e.window f.q.toNat) (matImm f.px) idx 32 false] true) s

/-- `mmas` (R244). -/
def execMmas (f : Mmas) (s : State) : Host.Outcome State Fault Refusal :=
  issue (fun g _ => matSpec g (matWords f.px (packMmas 0xD4400000 f)) f.st f.px true true [f.vf.toNat]
      [f.qa.toNat, f.qb.toNat] [] [f.acc.toNat])
    (fun e =>
      match e.formatWord f.vf.toNat false fun _ => [] with
      | .error r => r
      | .ok w =>
        let n := matImm f.px + 1
        e.enqueue (.mmas f.acc.toNat n) w
          [plainUse f.qa.toNat false (e.window f.qa.toNat) 0 (List.range 16) (32 * n) false,
           plainUse f.qb.toNat true (e.window f.qb.toNat) 0 (List.range 16) (32 * n) false] true) s

/-- `accz` (R250). -/
def execAccz (f : AccOp) (s : State) : Host.Outcome State Fault Refusal :=
  issue (fun g _ => matSpec g (matWords f.px (packAccOp 0xD4600000 f)) f.st f.px false false [] [] [] [f.acc.toNat])
    (fun e => e.enqueue (.accz f.acc.toNat) 0 [] false) s

/-- `accld` and `accld.r` (R250). -/
def execAccld (f : Accld) (s : State) : Host.Outcome State Fault Refusal :=
  issue (fun g _ => matSpec g (matWords f.px (packAccld 0xD4800000 f)) f.st f.px true false [] [f.q.toNat] [] [f.acc.toNat])
    (fun e => e.enqueue (.accld f.acc.toNat f.res) 0
      [plainUse f.q.toNat false (e.window f.q.toNat) (matImm f.px) (List.range (if f.res then 32 else 16)) 64 false] true) s

/-- The bytes of a drain row under a format word (R247), scale byte included when it is inline. -/
def drainRowBytes (w : Word) : Nat :=
  match fwDfmt w with
  | 0 => 64
  | 1 => 32
  | 2 => 32
  | 3 => 16
  | 4 => 16
  | _ => 2 * (fwDK w + 2) + if fwSp w then 0 else 1

/-- The use of a window by a drain (R247). -/
def drainUse (q : Nat) (second : Bool) (win : Window) (off : Nat) (w : Word) : WinUse :=
  let n := if fwDmode w then 32 else 16
  let sc := fwDfmt w = 5 && fwSp w
  { q := q, second := second, win := win, off := off, rows := (List.range n).map fun r => off + r * win.pitch,
    rowBytes := drainRowBytes w, scales := if sc then (List.range n).map fun r => win.soff + r else [], useScale := sc,
    write := true }

/-- `drain` (R246). -/
def execDrain (f : Drain) (s : State) : Host.Outcome State Fault Refusal :=
  issue (fun g _ => matSpec g (matWords f.px (packDrain 0xD4A00000 f)) f.st f.px true true [f.vf.toNat] [f.q.toNat] []
      [f.acc.toNat])
    (fun e =>
      match e.formatWord f.vf.toNat true scaleTile with
      | .error r => r
      | .ok w => e.enqueue (.drain f.acc.toNat false) w [drainUse f.q.toNat false (e.window f.q.toNat) (matImm f.px) w] true) s

/-- `draint` (R248). -/
def execDraint (f : Mmas) (s : State) : Host.Outcome State Fault Refusal :=
  issue (fun g _ => matSpec g (matWords f.px (packMmas 0xD4C00000 f)) f.st f.px true true [f.vf.toNat]
      [f.qa.toNat, f.qb.toNat] [] [f.acc.toNat])
    (fun e =>
      match e.formatWord f.vf.toNat true scaleTile with
      | .error r => r
      | .ok w => e.enqueue (.drain f.acc.toNat true) w
          [drainUse f.qa.toNat false (e.window f.qa.toNat) (matImm f.px) w,
           drainUse f.qb.toNat true (e.window f.qb.toNat) (matImm f.px) w] true) s

/-- `tld` (R245). -/
def execTld (f : Tld) (s : State) : Host.Outcome State Fault Refusal :=
  issue (fun g _ => matSpec g (matWords f.px (packTld 0xD4E00000 f)) f.st f.px true false [] [f.q.toNat] [f.td.toNat] [])
    (fun e => e.enqueue (.tld f.td.toNat) 0
      [plainUse f.q.toNat false (e.window f.q.toNat) (matImm f.px) (List.range 16) 32 false] true) s

/-- `tldt` (R245). -/
def execTldt (f : Tldt) (s : State) : Host.Outcome State Fault Refusal :=
  issue (fun g _ => matSpec g (matWords f.px (packTldt 0xD5000000 f)) f.st f.px true false [] [f.q.toNat] [f.td.toNat] [])
    (fun e => e.enqueue (.tldt f.td.toNat f.esz) 0
      [plainUse f.q.toNat false (e.window f.q.toNat) (matImm f.px) (List.range (if f.esz then 16 else 32))
        (if f.esz then 32 else 16) false] true) s

/-- `tldg` (R245). -/
def execTldg (f : Tldg) (s : State) : Host.Outcome State Fault Refusal :=
  issue (fun g _ => matSpec g (matWords f.px (packTldg 0xD5200000 f)) f.st f.px true false [f.vi.toNat] [f.q.toNat]
      [f.td.toNat] [])
    (fun e =>
      let idx := e.rowIndex f.vi.toNat
      e.enqueue (.tldg f.td.toNat idx) 0
        [plainUse f.q.toNat false (e.window f.q.toNat) (matImm f.px) idx 32 false] true) s

/-- `tzero` (R245). -/
def execTzero (f : Tzero) (s : State) : Host.Outcome State Fault Refusal :=
  issue (fun g _ => matSpec g (matWords f.px (packTzero 0xD5400000 f)) f.st f.px false false [] [] [f.td.toNat] [])
    (fun e => e.enqueue (.tzero f.td.toNat) 0 [] false) s

/-- The rows done of the oldest drain of an accumulator that has issued and is not complete (R249). -/
def Group.drainInProgress (g : Group) (a : Nat) : Option Nat :=
  g.matq.findSome? fun op =>
    match op.kind with
    | .drain d _ => if d = a then some op.done else none
    | _ => none

/-- `amax sd, aD` (R249, R254): the register as the rows drained so far left it. -/
def execMatrixAmax (f : MAmax) (s : State) : Host.Outcome State Fault Refusal :=
  issue (fun g _ =>
      { matSpec g (matWords f.px (packMAmax 0xD5600000 f)) f.st f.px false false [] [] [] [f.acc.toNat] with
        sNamed := [f.sd.toNat], writes := [(sName f.sd.toNat, 4)] })
    (fun e =>
      let p := e.g.drainInProgress f.acc.toNat
      e.upd ({ e.g with amaxSel := BitVec.ofNat 9 (f.acc.toNat * 64 + (if p.isSome then 32 else 0) + p.getD 16) }.setSreg
        f.sd.toNat (smapGet 0 e.g.amax f.acc.toNat))) s

/-- The array element of lane `i` of register `k` of an `accrd` or `accwr` (R251): word 16 × row + column. -/
def accElem (width row k i : Nat) : Nat :=
  if width = 8 then 16 * row + 8 * k + i else 16 * ((row + i / 16) % 16) + i % 16

/-- The registers of an `accrd` or `accwr` (R251). -/
def accRegs (g : Group) : Nat := if g.width = 8 then 2 else 1

/-- What the issue logic knows of `accrd` and `accwr` (R251). -/
def accRowSpec (g : Group) (base : Nat) (f : AccRow) (rd : Bool) : Spec :=
  let sp := matSpec g (matWords f.px (packAccRow base f)) f.st f.px false true [] [] [] [f.acc.toNat]
  { sp with vNamed := upFrom f.v.toNat (accRegs g), ill := g.width = 8 && f.v.toNat % 2 ≠ 0,
            reads := sp.reads ++ if rd then vNames f.v.toNat (accRegs g) else [] }

/-- `accrd` (R251). -/
def execAccrd (f : AccRow) (s : State) : Host.Outcome State Fault Refusal :=
  issue (fun g _ => accRowSpec g 0xD5800000 f false)
    (fun e =>
      let id := e.s.nextId
      match e.enqueue (.accrd f.acc.toNat f.half f.row.toNat f.v.toNat e.active id) 0 [] false with
      | .ok s1 =>
        if e.full 3 then e.waitRoom (.counterRoom 3)
        else .ok (s1.owe e.gid
          { kind := .late, counter := 3,
            dests := (List.range (accRegs e.g)).flatMap fun k =>
              (lanesOf e.active).map fun i => { reg := vName (f.v.toNat + k), lane := i, val := 0 },
            clobbered := [], lines := [], walked := [], flags := 0, mask := e.p.mask, trap := none })
      | r => r) s

/-- `accwr` (R251). -/
def execAccwr (f : AccRow) (s : State) : Host.Outcome State Fault Refusal :=
  issue (fun g _ => accRowSpec g 0xD5A00000 f true)
    (fun e => e.enqueue (.accwr f.acc.toNat f.half f.row.toNat e.active
      ((List.range (64 * accRegs e.g)).map fun k => e.v.vreg (f.v.toNat + k / 64) (k % 64))) 0 [] false) s

/-- `accfold` (R250). -/
def execAccfold (f : AccOp) (s : State) : Host.Outcome State Fault Refusal :=
  issue (fun g _ => matSpec g (matWords f.px (packAccOp 0xD5C00000 f)) f.st f.px false false [] [] [] [f.acc.toNat])
    (fun e => e.enqueue (.accfold f.acc.toNat) 0 [] false) s

/-- The value of operand element `j` of a row of bytes in a format of R235 (R233). -/
def rowElem (fmt : Nat) (row : List Byte) (j : Nat) : FVal :=
  match fmt with
  | 0 => bf16.val (ofBytes ((row.drop (2 * j)).take 2))
  | 1 => fp16.val (ofBytes ((row.drop (2 * j)).take 2))
  | 2 => e4m3.val (ofBytes ((row.drop j).take 1))
  | _ => e5m2.val (ofBytes ((row.drop j).take 1))

/-- A row of a tile (R233). -/
def Group.tileRow (g : Group) (t r : Nat) : List Byte := (List.range 32).map fun b => g.tileByte t r b

/-- The value of a mantissa of `k` bits under an E8M0 scale (R161). -/
def bfpValue (k : Nat) (m scale : Nat) : FVal :=
  if scale = 0xFF then .nan false
  else
    let d := intDy (BitVec.ofNat k m).toInt
    .fin { d with e := (scale : Int) - 127 - ((k : Int) - 2) }

/-- Element `j` of row `r` of a BFPk operand from tile `t`, its scales from byte `sb` of the scale tile (R233). -/
def Group.planeElem (g : Group) (t k stile sb r j : Nat) : FVal :=
  let m := (List.range k).foldr (fun p a =>
    (if bit (g.tileByte (t + p / 2) r (16 * (p % 2) + j / 8)).toNat (j % 8) then 1 else 0) + 2 * a) 0
  bfpValue k m (g.tileByte stile r (sb + j / 16)).toNat

/-- The rows of an operand held in tiles (R242). -/
def Group.tileOperand (g : Group) (w : Word) (t : Nat) (isB : Bool) : List (List FVal) :=
  let fmt := if isB then fwB w else fwA w
  (List.range 16).map fun r =>
    if fmt = 4 then
      (List.range 128).map fun j => g.planeElem t ((if isB then fwBK w else fwAK w) + 2) (fwStile w) (if isB then 8 else 0) r j
    else
      let row := g.tileRow t r
      (List.range (if matFamily fmt = 0 then 16 else 32)).map (rowElem fmt row)

/-- The rows of an operand given as bytes (R243, R244). -/
def byteOperand (fmt : Nat) (rows : List (List Byte)) : List (List FVal) :=
  rows.map fun row => (List.range (if matFamily fmt = 0 then 16 else 32)).map (rowElem fmt row)

/-- What one element of an accumulator becomes in a step, with the OVF bits and TR (R241). -/
structure AccRes where
  m : Nat
  r : Nat
  ovf : BitVec 3
  tr : Bool
deriving DecidableEq, Repr

/-- Whether a value is a NaN. -/
def FVal.isNan : FVal → Bool
  | .nan _ => true
  | _ => false

/-- A value truncated toward zero to a multiple of 2^`q`, and whether it changed. -/
def Dy.truncAt (d : Dy) (q : Int) : Dy × Bool :=
  if q ≤ d.e then (d, false)
  else
    let sh := (q - d.e).toNat
    ({ d with m := d.m / 2 ^ sh, e := q }, d.m % 2 ^ sh != 0)

/-- One element of one step (R241): products of the rows, main and residual words. -/
def stepElem (a b : List FVal) (mv rv : Nat) (res : Bool) : AccRes :=
  let ps := (a.zip b).map fun p => p.1.mul p.2
  let terms := ps.filterMap id ++ [fp32.val mv]
  let anyNan := terms.any (·.isNan)
  let inf := infsOf terms
  if anyNan || ps.contains none || (inf.1 && inf.2) then
    { m := 0x7FC00000, r := 0, ovf := if anyNan then 0 else 2, tr := false }
  else if inf.1 || inf.2 then { m := if inf.1 then 0x7F800000 else 0xFF800000, r := 0, ovf := 0, tr := false }
  else
    let ds := finsOf terms
    let big := (ds.filter fun d => d.m != 0).map (·.lead)
    let cut : List (Dy × Bool) := match big with
      | [] => ds.map fun d => (d, false)
      | x :: r => ds.map fun d => d.truncAt (r.foldl max x - 95)
    let t := sumDy false (cut.map (·.1))
    let mr := fp32.arith .rne false t
    let m' := mr.code
    let tr := cut.any (·.2)
    if fp32.isInf m' then { m := m', r := 0, ovf := 1, tr := tr }
    else if res then
      let d := (fp32.arith .rne false (subDy t (fp32.dy m'))).code
      let r' := (evalSum fp32 .rne false [(fp32, rv), (fp32, d)] [(fp32.val rv, oneVal), (fp32.val d, oneVal)] 0).code
      { m := m', r := r', ovf := if fp32.isInf r' then 1 else 0, tr := tr }
    else { m := m', r := rv, ovf := 0, tr := tr }

/-- One step on an accumulator (R241). -/
def Group.accStep (g : Group) (d : Nat) (w : Word) (a b : List (List FVal)) : Group :=
  (List.range 256).foldl (fun (h : Group) k =>
    let x := stepElem (a.getD (k / 16) []) (b.getD (k % 16) []) (g.acc d false k).toNat (g.acc d true k).toNat (fwRes w)
    let h1 := (h.setAcc d false k (BitVec.ofNat 32 x.m)).setAcc d true k (BitVec.ofNat 32 x.r)
    { h1 with ovf := h1.ovf ||| x.ovf, flags := if x.tr then h1.flags ||| flagTR else h1.flags }) g

/-- Bytes of the group's team window. -/
def State.windowBytes (s : State) (t : Team) (off n : Nat) : List Byte := s.sbytes (t.key off) n

/-- A drained value before conversion (R246): the value, the code of a NaN, and whether it was undefined. -/
structure DrainVal where
  v : FVal
  nanc : Nat
  inv : Bool
deriving DecidableEq, Repr

/-- The value that a drain makes of accumulator words and LSCALE (R246). -/
def drainVal (srcs : List Nat) (l : Option Nat) : DrainVal :=
  match (srcs ++ l.toList).find? fp32.isNan with
  | some c => { v := .nan false, nanc := fp32.quiet c, inv := false }
  | none =>
    let bad : DrainVal := { v := .nan false, nanc := 0x7FC00000, inv := true }
    let vs := srcs.map fp32.val
    let inf := infsOf vs
    if inf.1 && inf.2 then bad
    else
      let sum : FVal := if inf.1 then .inf false else if inf.2 then .inf true else
        .fin (match finsOf vs with
          | [d] => d
          | ds => sumDy false ds)
      match l with
      | none => { v := sum, nanc := 0, inv := false }
      | some c =>
        match sum.mul (fp32.val c) with
        | some v => { v := v, nanc := 0, inv := false }
        | none => bad

/-- The drain format of a format word (R235). -/
def drainFmt (w : Word) : Fmt :=
  match fwDfmt w with
  | 1 => bf16 | 2 => fp16 | 3 => e4m3 | 4 => e5m2 | _ => fp32

/-- A drain row packed (R246, R247): its data, its scale byte for BFPk, and whether it overflowed. -/
def drainRow (w : Word) (ovtab : BitVec 10) (vs : List DrainVal) : List Byte × Option Nat × Bool :=
  if fwDfmt w = 5 then
    let k := fwDK w + 2
    let st := vs.map fun x => fp32.narrowV (fwRnd w) false 0 x.nanc x.v
    let b := bfpBlock k (bits ovtab.toNat 8 2) (fun _ => fwRnd w) (st.map (·.code))
    (toBytes (2 * k) (b.2.foldr (fun x a => (x.1 % 2 ^ k).toNat + 2 ^ k * a) 0), some b.1,
      st.any (fun x => x.flags &&& flagOF != 0) || b.2.any fun x => x.2 &&& flagOF != 0)
  else
    let fm := drainFmt w
    let rs := vs.map fun x => fm.narrowV (fwRnd w) (fwDftz w) (ovEntry ovtab fm) x.nanc x.v
    (rs.flatMap fun x => toBytes (fm.w / 8) x.code, none, rs.any fun x => x.flags &&& flagOF != 0)

/-- The larger of an amax register and a value's magnitude (R249). -/
def amaxStep (reg : Nat) (x : DrainVal) : Nat :=
  let c := match x.v with
    | .nan _ => fp32.mag x.nanc
    | .inf _ => fp32.infMag
    | .fin d => fp32.mag (fp32.arith .rne false { d with neg := false }).code
  if fp32.isNan reg then reg else max reg c

/-- The value of a drain at main or folded (`h` false) or residual (`h` true) element (m, n). In DMODE 1 each value looks at its
own array's word and LSCALE alone: a NaN in the other array's word does not reach it, on which R246 is silent (the model's choice,
log entry 109). -/
def Group.drainAt (g : Group) (op : MatOp) (d : Nat) (h : Bool) (m n : Nat) : DrainVal :=
  let k := 16 * m + n
  let l := if fwDs op.fmt then some op.lscale.toNat else none
  if fwDmode op.fmt then drainVal [(g.acc d h k).toNat] l
  else drainVal [(g.acc d false k).toNat, (g.acc d true k).toNat] l

/-- One drained row stored in a window (R247), with the OVF bits it raises. -/
def State.storeDrainRow (s : State) (t : Team) (op : MatOp) (win : Window) (row : Nat) (vs : List DrainVal) : State × BitVec 3 :=
  match drainRow op.fmt op.ovtab vs with
  | (data, sc, ovr) =>
    let at_ := win.base + op.off + row * win.pitch
    let s1 := s.setSbytes (t.key at_) data
    let s2 := match sc with
      | none => s1
      | some e =>
        if fwSp op.fmt then s1.setSbytes (t.key (win.base + win.soff + row)) [BitVec.ofNat 8 e]
        else s1.setSbytes (t.key (at_ + data.length)) [BitVec.ofNat 8 e]
    (s2, (if ovr then 4 else 0) ||| if vs.any (·.inv) then 2 else 0)

/-- Row `r` of a drain (R246 to R249): the main or folded row, the residual row, the transposed rows, and amax. -/
def State.drainRowStep (s : State) (gid : Nat) (g : Group) (t : Team) (op : MatOp) (d : Nat) (trans : Bool) (r : Nat) : State :=
  let halves := if fwDmode op.fmt then [false, true] else [false]
  let jobs := halves.flatMap fun h =>
    let row := r + if h then 16 else 0
    (op.winA, row, (List.range 16).map fun c => g.drainAt op d h r c) ::
      if trans then [(op.winB, row, (List.range 16).map fun m => g.drainAt op d h m r)] else []
  let out := jobs.foldl (fun (a : State × BitVec 3) j =>
    let q := a.1.storeDrainRow t op j.1 j.2.1 j.2.2
    (q.1, a.2 ||| q.2)) (s, 0)
  let am := (List.range 16).foldl (fun reg c => amaxStep reg (g.drainAt op d false r c)) (smapGet 0 g.amax d).toNat
  out.1.modGroup gid fun h => { h with ovf := h.ovf ||| out.2, amax := smapPut 0 h.amax d (BitVec.ofNat 32 am) }

/-- The steps that an instruction takes in the engine: accumulation steps (R241) or drain rows (R249). -/
def MatKind.steps : MatKind → Nat
  | .mma _ _ _ => 1
  | .mmag _ _ _ => 1
  | .mmas _ n => n
  | .drain _ _ => 16
  | _ => 0

/-- Row `r` of a window, from byte `col`, for an engine instruction. -/
def State.winRow (s : State) (t : Team) (w : Window) (off r col n : Nat) : List Byte :=
  s.windowBytes t (w.base + off + r * w.pitch + col) n

/-- The next step of the oldest matrix instruction. -/
def State.matStep (s : State) (gid : Nat) (g : Group) (t : Team) (op : MatOp) : State :=
  match op.kind with
  | .mma d ta tb => s.setGroup gid (g.accStep d op.fmt (g.tileOperand op.fmt ta false) (g.tileOperand op.fmt tb true))
  | .mmag d tb idx =>
    let a := byteOperand (fwA op.fmt) (idx.map fun r => s.winRow t op.winA op.off r 0 32)
    s.setGroup gid (g.accStep d op.fmt a (g.tileOperand op.fmt tb true))
  | .mmas d _ =>
    let a := byteOperand (fwA op.fmt) ((List.range 16).map fun r => s.winRow t op.winA 0 r (32 * op.done) 32)
    let b := byteOperand (fwB op.fmt) ((List.range 16).map fun r => s.winRow t op.winB 0 r (32 * op.done) 32)
    s.setGroup gid (g.accStep d op.fmt a b)
  | .drain d tr => s.drainRowStep gid g t op d tr op.done
  | _ => s

/-- A tile's rows replaced. -/
def Group.setTileRows (g : Group) (td : Nat) (rows : List (List Byte)) : Group :=
  (List.range rows.length).foldl (fun (h : Group) r => h.setTileBytes td r 0 (rows.getD r [])) g

/-- Words written to an array of an accumulator, from word `k`. -/
def Group.setAccWords (g : Group) (d : Nat) (h : Bool) (k : Nat) : List Word → Group
  | [] => g
  | x :: r => (g.setAcc d h k x).setAccWords d h (k + 1) r

/-- The 32-bit words of a list of bytes. -/
def wordsOf : List Byte → List Word
  | a :: b :: c :: d :: r => BitVec.ofNat 32 (ofBytes [a, b, c, d]) :: wordsOf r
  | _ => []

/-- What an instruction that takes no steps does as it completes (R245, R250, R251). -/
def State.matApply (s : State) (gid : Nat) (g : Group) (t : Team) (op : MatOp) : State :=
  let row := fun (r n : Nat) => s.winRow t op.winA op.off r 0 n
  match op.kind with
  | .accz d =>
    s.setGroup gid { g.setAccWords d false 0 (copiesOf 256 0) |>.setAccWords d true 0 (copiesOf 256 0) with
      amax := smapPut 0 g.amax d 0 }
  | .accld d res =>
    s.setGroup gid ((g.setAccWords d false 0 ((List.range 16).flatMap fun r => wordsOf (row r 64))).setAccWords d true 0
      (if res then (List.range 16).flatMap fun r => wordsOf (row (16 + r) 64) else copiesOf 256 0))
  | .tld td => s.setGroup gid (g.setTileRows td ((List.range 16).map fun r => row r 32))
  | .tldt td wide =>
    let src := (List.range 32).map fun r => if wide then (if r < 16 then row r 32 else []) else row r 16
    s.setGroup gid (g.setTileRows td ((List.range 16).map fun r =>
      if wide then (List.range 16).flatMap fun i => ((src.getD i []).drop (2 * r)).take 2
      else (List.range 32).map fun j => (src.getD j []).getD r 0))
  | .tldg td idx => s.setGroup gid (g.setTileRows td (idx.map fun r => row r 32))
  | .tzero td => s.setGroup gid (g.setTileRows td (copiesOf 16 (copiesOf 32 0)))
  | .accrd d res r vd mask id =>
    let hit := match tabGet g.pend id with
      | some p => p.clobbered
      | none => []
    let g1 := (List.range (accRegs g)).foldl (fun (h : Group) k =>
      h.setLanes (vd + k) (fun i =>
        if hitLane hit (vName (vd + k)) i && Config.pick (s.serial + 64 * k + i) then h.vreg (vd + k) i
        else g.acc d res (accElem g.width r k i)) (lanesOf mask)) g
    { s with serial := s.serial + 128 }.setGroup gid { g1.countDown 3 with pend := smapErase g1.pend id }
  | .accwr d res r mask ws =>
    s.setGroup gid ((List.range (accRegs g)).foldl (fun (h : Group) k =>
      (lanesOf mask).foldl (fun (u : Group) i => u.setAcc d res (accElem g.width r k i) (ws.getD (64 * k + i) 0)) h) g)
  | .accfold d =>
    s.setGroup gid ((List.range 256).foldl (fun (h : Group) k =>
      match twoSum fp32 false (g.acc d false k).toNat (g.acc d true k).toNat with
      | (x, e, _) =>
        (h.setAcc d false k (BitVec.ofNat 32 x)).setAcc d true k (if fp32.notFinite x then 0 else BitVec.ofNat 32 e)) g)
  | _ => s

/-- The rows of a window, from byte `col`, that hold poisoned bytes (R396). -/
def State.winBad (s : State) (t : Team) (w : Window) (off col n : Nat) (rows : List Nat) : Bool :=
  rows.any fun r => s.poisonAt (.spad (t.key (w.base + off + r * w.pitch + col))) n ≠ []

/-- Whether the next step of an engine instruction reads poisoned scratchpad (R396). -/
def State.matWindowBad (s : State) (t : Team) (op : MatOp) : Bool :=
  match op.kind with
  | .mmag _ _ idx => s.winBad t op.winA op.off 0 32 idx
  | .mmas _ _ =>
    s.winBad t op.winA 0 (32 * op.done) 32 (List.range 16) || s.winBad t op.winB 0 (32 * op.done) 32 (List.range 16)
  | .accld _ res => s.winBad t op.winA op.off 0 64 (List.range (if res then 32 else 16))
  | .tld _ => s.winBad t op.winA op.off 0 32 (List.range 16)
  | .tldt _ wide => s.winBad t op.winA op.off 0 (if wide then 32 else 16) (List.range (if wide then 16 else 32))
  | .tldg _ idx => s.winBad t op.winA op.off 0 32 idx
  | _ => false

/-- The tiles that an engine instruction reads (R242, R243). -/
def MatOp.tilesRead (op : MatOp) : List Nat :=
  match op.kind with
  | .mma _ ta tb => if fwA op.fmt = 4 then fwTiles op.fmt ta tb else [ta, tb]
  | .mmag _ tb _ => [tb]
  | _ => []

/-- The accumulator that an engine instruction reads (R241, R246, R250, R251). -/
def MatOp.accRead (op : MatOp) : Option Nat :=
  match op.kind with
  | .mma d _ _ => some d
  | .mmag d _ _ => some d
  | .mmas d _ => some d
  | .drain d _ => some d
  | .accrd d _ _ _ _ _ => some d
  | .accfold d => some d
  | _ => none

/-- Whether an engine instruction reads poisoned tiles or accumulators (R396). -/
def Group.matRegBad (g : Group) (op : MatOp) : Bool :=
  g.bad.any fun b =>
    match b with
    | .tile t _ => op.tilesRead.contains t
    | .acc a _ _ => op.accRead == some a
    | .reg _ _ => false

/-- An engine's read of poisoned data is noted with its group (R396). -/
def State.matNote (s : State) (gid : Nat) (g : Group) (t : Team) (op : MatOp) : State :=
  if s.matWindowBad t op then
    s.modGroup gid fun h => { h with poisoned := (windowAddr op.winA.base, 0) :: h.poisoned }
  else if g.matRegBad op then s.modGroup gid fun h => { h with poisoned := (0, 0) :: h.poisoned }
  else s

/-- Whether an engine instruction has written the whole of a poisoned row of a tile or of an accumulator (R396). -/
def MatOp.renews (op : MatOp) (width regs : Nat) (b : BadLoc) : Bool :=
  match b with
  | .tile t _ =>
    (match op.kind with
     | .tld d => d == t
     | .tldt d _ => d == t
     | .tldg d _ => d == t
     | .tzero d => d == t
     | _ => false)
  | .acc a res row =>
    (match op.kind with
     | .accz d => d == a
     | .accld d _ => d == a
     | .accwr d h r mask _ =>
       d == a && h == res && (List.range 16).all fun c => (List.range regs).any fun k =>
         (lanesOf mask).any fun i => accElem width r k i == 16 * row + c
     | _ => false)
  | .reg _ _ => false

/-- Poisoned rows that an engine instruction has written are good again (R396). -/
def Group.matRenew (g : Group) (op : MatOp) : Group :=
  if g.bad = [] then g else { g with bad := g.bad.filter fun b => !(op.renews g.width (accRegs g) b) }

/-- MATRIX_EXECUTE (R232): the engine starts a group's oldest matrix instruction, once it holds its locks. -/
def execMatrixExecute (gid : Nat) (s : State) : Host.Outcome State Fault Refusal :=
  .next (match s.group gid with
    | none => s
    | some g =>
      match g.matq with
      | op :: r => if op.started || op.waitsLocks || s.quiet g.part then s else s.setGroup gid { g with matq := { op with started := true } :: r }
      | [] => s)

/-- MATRIX_STEP (R241, R249): the oldest matrix instruction's next accumulation step, or its next drain row. -/
def execMatrixStep (gid : Nat) (s : State) : Host.Outcome State Fault Refusal :=
  .next (match s.group gid with
    | none => s
    | some g =>
      match g.matq, g.team.bind s.team with
      | op :: r, some t =>
        if op.started && !s.quiet g.part && op.done < op.kind.steps then
          (((s.matNote gid g t op).matStep gid ((s.matNote gid g t op).group gid |>.getD g) t op).modGroup gid fun h => { h with matq := { op with done := op.done + 1 } :: r }).syncImage gid
        else s
      | _, _ => s)

/-- MATRIX_COMPLETE (R239): the oldest matrix instruction completes, its locks are released and c3 falls. -/
def execMatrixComplete (gid : Nat) (s : State) : Host.Outcome State Fault Refusal :=
  .next (match s.group gid with
    | none => s
    | some g =>
      match g.matq, g.team.bind s.team with
      | op :: r, some t =>
        if op.started && !s.quiet g.part && op.done = op.kind.steps then
          let s1 := if op.kind.steps = 0 then s.matNote gid g t op else s
          (((s1.matApply gid ((s1.group gid).getD g) t op).unlock op.locks).modGroup gid fun h =>
            { (if op.counted then h.countDown 3 else h).matRenew op with matq := r }).syncImage gid
        else s
      | _, _ => s)

end Sys2Proof.Machine
end

