-- ==== Sys2Proof/Machine/Context.lean ====
section
/-! DEFINITION. Swapping to the kitty (R128), context saves and restores (R255, R308, R344, R388 to R392) with `ctxsv` and
`ctxld`, admission (R125 to R127) and the pre-emptions of the latency reserve (R126). -/
namespace Sys2Proof.Machine

/-- Whether a split is in a long wait (R97, R128, R354). -/
def Split.longWait (p : Split) : Bool :=
  match p.st with
  | .waiting (.cond (.counter k _)) => k == 5
  | .waiting (.cond (.counters m)) => m.getLsbD 5
  | .waiting (.cond (.pot _)) => true
  | .waiting (.grids _) => true
  | .waiting (.holdRegs _) => true
  | .waiting (.entryBusy _) => true
  | .parkedCont c _ => c != .always
  | _ => false

/-- Whether a group may be swapped (R128, R134, R383, R386): blocked for more than 2,000 cycles in long waits. -/
def State.swappable (s : State) (g : Group) : Bool :=
  g.residency == .running && g.team.isSome && g.handler.isNone && !s.saving g && 2000 < s.clock - g.blockedSince
    && (g.parked.isSome || g.splits.all Split.longWait)

/-- The kitty images on a core, with their sizes. -/
def State.kittyUsed (s : State) (core : Nat) : List (Nat × Nat) :=
  (s.groups.filter fun e => coreOf e.1 == core && (e.2.residency == .swappingOut || e.2.residency == .swapped
    || e.2.residency == .swappingIn)).map fun e => (e.2.kitty, e.2.sectionSize 0)

/-- The kitty offset for a group's swap image, if there is room (R128, R382). -/
def State.kittyRoom (s : State) (gid : Nat) (g : Group) (x : Part) : Option Nat :=
  firstFit (s.kittyUsed (coreOf gid)) (2 ^ 16) (2 ^ 16 * x.kitty.toNat) (g.sectionSize 0)

/-- SWAP_OUT_START (R128): the seat entry is Moving until the swap is over (R335). -/
def execSwapOutStart (gid : Nat) (s : State) : Host.Outcome State Fault Refusal :=
  .next (match s.group gid with
    | none => s
    | some g =>
      match (s.part g.part).bind fun x => if s.swappable g && !s.waitMet gid g then s.kittyRoom gid g x else none with
      | none => s
      | some k => (s.seatState gid g 4 0).setGroup gid { g with residency := .swappingOut, kitty := k })

/-- A flat kitty address (R382). -/
def flatKitty (f : Nat) : Nat := 3 * 2 ^ 60 + f

/-- SWAP_OUT_COMPLETE (R128): the image is written and the hand and main-file space are free, unless the wait has been
satisfied, which abandons the copy. -/
def execSwapOutComplete (gid : Nat) (s : State) : Host.Outcome State Fault Refusal :=
  .next (match s.group gid with
    | none => s
    | some g =>
      if g.residency ≠ .swappingOut then s
      else if s.waitMet gid g then (s.seatState gid g 1 0).setGroup gid { g with residency := .running, kitty := 0 }
      else
        (((s.setGroup gid { g with residency := .swapped }).syncImage gid).dropHand gid).seatState gid g 2 (flatKitty g.kitty))

/-- SWAP_IN_START (R128): the wait is over and the main file has room. -/
def execSwapInStart (gid : Nat) (s : State) : Host.Outcome State Fault Refusal :=
  .next (match s.group gid with
    | none => s
    | some g =>
      if g.residency = .swapped && !s.taking g && s.waitMet gid g && s.mainUsed (coreOf gid) false + g.mainBytes ≤ 2 ^ 19 then
        (s.seatState gid g 4 0).setGroup gid { g with residency := .swappingIn }
      else s)

/-- The restore of a cohort is over once none of its groups comes back any more (R389): SIZE becomes 0 in the image named. -/
def State.endRestore (s : State) (t : Team) : State :=
  let ts := s.cohortTeams t
  if s.groups.any fun e => e.2.residency == .restoring && ts.any fun x => e.2.team == some x.1 then s
  else ts.foldl (fun u x =>
    match x.2.sizeAt with
    | some p => (u.writeMem p (toBytes 4 0)).modTeam x.1 fun v => { v with sizeAt := none }
    | none => u) s

/-- A group whose context has come back runs, and its seat entry is Resident (R128, R335). -/
def State.comeBack (s : State) (gid : Nat) (g : Group) : State :=
  (s.seatState gid g 1 0).setGroup gid { g with residency := .running, kitty := 0 }

/-- SWAP_IN_COMPLETE (R128): the copy from the kitty, or from a saved image (R390), is done. -/
def execSwapInComplete (gid : Nat) (s : State) : Host.Outcome State Fault Refusal :=
  .next (match s.group gid with
    | none => s
    | some g =>
      match g.residency with
      | .swappingIn => s.comeBack gid g
      | .restoring => (match g.team.bind s.team with
          | some t => (s.comeBack gid g).endRestore t
          | none => s.comeBack gid g)
      | _ => s)

/-- Whether a fabric request is one that a freeze holds (R344), at the source or at the target. -/
def State.heldReq (s : State) (rid : Nat) (q : FabReq) : Bool :=
  (s.streamOf q).state == 1 && ((s.streamOf q).frozenBy.any (fun x => x.1 = rid) || q.heldIn q.slot q.stream) && q.sent == q.credited

/-- Whether a copy may be saved (R308): not started, published or retired. -/
def Copy.savable (c : Copy) : Bool :=
  match c.st with
  | .moving => c.pos == 0 && c.lines == [] && !c.ended
  | .reserve => !c.ended
  | .space => !c.ended
  | .complete => false
  | .published => true
  | .retired => true

/-- The accumulator that a matrix instruction reads or writes. -/
def MatKind.accs : MatKind → List Nat
  | .mma d _ _ => [d]
  | .mmag d _ _ => [d]
  | .mmas d _ => [d]
  | .accz d => [d]
  | .accld d _ => [d]
  | .drain d _ => [d]
  | .accrd d _ _ _ _ _ => [d]
  | .accwr d _ _ _ _ => [d]
  | .accfold d => [d]
  | _ => []

/-- The tiles that a matrix instruction reads or writes (R233, R242, R255). -/
def MatOp.tiles (m : MatOp) : List Nat :=
  match m.kind with
  | .mma _ ta tb => ta :: tb :: fwTiles m.fmt ta tb
  | .mmag _ tb _ => [tb]
  | .tld t => [t]
  | .tldt t _ => [t]
  | .tldg t _ => [t]
  | .tzero t => [t]
  | _ => []

/-- A mask with the tiles and accumulators of engine records added (R255). -/
def LiveMask.withEngine (m : LiveMask) (q : List MatOp) : LiveMask :=
  { m with t := (q.flatMap MatOp.tiles).foldl (fun a n => a ||| 2 ^ n) m.t,
           a := (q.flatMap fun o => o.kind.accs).foldl (fun a n => a ||| 2 ^ n) m.a }

/-- The registers that a save of a group keeps (R388). -/
def State.saveMask (s : State) (gid : Nat) (g : Group) : LiveMask :=
  if g.handler.isSome || g.parked.isSome || g.splits.any (fun p => p.safeAt.isNone) then g.allLive
  else
    (g.splits.foldl (fun (m : LiveMask) p =>
      m.join (LiveMask.ofEntry (s.liveEntry gid g (p.safeAt.getD 0)))) LiveMask.empty).withEngine g.matq

/-- Whether the engines and the endpoint let a save have a group (R255, R308, R344). -/
def State.engineSavable (s : State) (gid : Nat) (g : Group) : Bool :=
  g.pend.all (fun e => e.2.kind == .late)
    && (match g.matq with
        | [] => true
        | m :: _ => m.burst.isSome)
    && s.copies.all (fun e => e.2.gid != gid || e.2.savable)
    && s.fabric.all (fun e => e.2.gid != gid || s.heldReq e.1 e.2)

/-- Whether a pending save may take a group now (R255, R308, R344, R388). -/
def State.groupSavable (s : State) (gid : Nat) (g : Group) : Bool :=
  (g.residency == .running || g.residency == .swapped)
    && (g.handler.isSome || g.parked.isSome || g.splits.all Split.savable) && s.engineSavable gid g

/-- The lock entries of a record, as it will register them again (R255). -/
def State.wantedOf (s : State) (g : Group) (ids : List Nat) : List Wanted :=
  ids.filterMap fun id =>
    (tabGet s.locks id).map fun l =>
      match l.space with
      | .virt _ => { member := none, lo := l.lo, hi := l.hi, write := l.write }
      | .spad core =>
        match (g.team.bind s.team).bind fun t => (s.cohortTeams t).find? fun e => e.2.core == core with
        | some e => { member := some e.2.member, lo := l.lo - e.2.winOff, hi := l.hi - e.2.winOff, write := l.write }
        | none => { member := none, lo := l.lo, hi := l.hi, write := l.write }

/-- The number under which the engines keep what a saved group left with them. -/
def savedGid (tid idx : Nat) : Nat := 2 ^ 24 + 16 * tid + idx

/-- What the engines and the endpoint keep of a group renumbered. -/
def State.renumber (s : State) (old new : Nat) : State :=
  { s with copies := s.copies.map (fun e => if e.2.gid = old then (e.1, { e.2 with gid := new }) else e),
           fabric := s.fabric.map (fun e => if e.2.gid = old then (e.1, { e.2 with gid := new }) else e),
           streams := s.streams.map (fun e => if e.2.gid = old then (e.1, { e.2 with gid := new }) else e) }

/-- The engine records of a group made of its outstanding copies and requests: their locks are released (R308, R344). -/
def State.recordEngines (s : State) (gid : Nat) (g : Group) : State :=
  let copies := s.copies.map fun (e : Nat × Copy) =>
    if e.2.gid = gid && e.2.locks ≠ [] then
      (e.1, { e.2 with wants := s.wantedOf g e.2.locks, waitsLocks := true, locks := [] })
    else e
  let fabric := s.fabric.map fun (e : Nat × FabReq) =>
    if e.2.gid = gid && e.2.locks ≠ [] then
      (e.1, { e.2 with wants := s.wantedOf g e.2.locks, waitsLocks := true, locks := [] })
    else e
  let ids := (s.copies.filter fun e => e.2.gid = gid).flatMap (fun e => e.2.locks)
    ++ (s.fabric.filter fun e => e.2.gid = gid).flatMap (fun e => e.2.locks) ++ g.matq.flatMap (·.locks)
  { s with copies := copies, fabric := fabric }.unlock ids

/-- The engine records of a group (R391, R392). -/
def State.recordCount (s : State) (gid : Nat) (g : Group) : Nat :=
  g.matq.length + (s.copies.filter fun e => e.2.gid = gid && e.2.st ≠ .retired).length
    + (s.fabric.filter fun e => e.2.gid = gid).length

/-- A group's context as a save keeps it (R255, R388, R392): the burst and what is behind it as engine records, without
locks. -/
def State.savedGroup (s : State) (gid : Nat) (g : Group) (m : LiveMask) : Group :=
  let frame := match g.handler, s.part g.part with
    | some _, some x => s.sbytes (frameKey x gid) 512
    | _, _ => []
  { g.keepLive m with
    matq := g.matq.map (fun o =>
      { o with wants := s.wantedOf g o.locks, waitsLocks := o.locks ≠ [], locks := [], started := false }),
    hwdog := s.hwdogOf g, producers := [], residency := .running, kitty := 0, lastPages := [], frameCopy := frame }

/-- A group saved into its section at `sec` (R388, R392): the next section's address. -/
def State.saveGroup (s : State) (tid idx gid image sec : Nat) : State × Nat :=
  match s.group gid with
  | none => (s, sec)
  | some g =>
    let m := s.saveMask gid g
    let recs := s.recordCount gid g
    let g1 := s.savedGroup gid g m
    let s1 := (s.recordEngines gid g).seatState gid g 3 image
    let s2 := ({ s1 with serial := s1.serial + sectionFree recs }.writeMem sec (g1.section_ m recs g1.hwdog s1.serial))
    let s3 := (s2.renumber gid (savedGid tid idx)).dropHand gid
    ({ s3 with groups := smapErase s3.groups gid, cur := if s3.cur = some gid then none else s3.cur }.modTeam tid fun t =>
        { t with groups := listSet t.groups idx (.saved g1) },
     sec + g1.sectionSize recs)

/-- The header of a team's image (R391). -/
def teamHeader (size tid : Nat) (t : Team) (g : Grid) : List Byte :=
  toBytes 4 size ++ toBytes 4 1 ++ toBytes 4 tid ++ toBytes 4 g.handle ++ toBytes 4 (g.depth + 16 * t.member)
    ++ toBytes 4 t.x ++ toBytes 4 t.y ++ toBytes 4 t.z ++ (g.record.raw.drop 8).take 0x58 ++ toBytes 8 g.record.data.toNat

/-- The lowest arrival number of a partition's queued teams, less one: the head of the queue. -/
def State.headArrival (s : State) (part : Nat) : Nat :=
  (((s.teams.filter fun e => e.2.part == part && e.2.isQueued).map fun e => e.2.arrival).foldl min arrivalBase) - 1

/-- A team saved into an image (R388, R391): header, ring state, window and sections; the image's end. -/
def State.saveTeam (s : State) (tid image : Nat) : State × Nat :=
  match s.team tid with
  | none => (s, image)
  | some t =>
    match tabGet s.grids t.grid with
    | none => (s, image)
    | some g =>
      let win := s.sbytes (t.key 0) t.winLen
      let q := (List.range t.groups.length).foldl (fun (a : State × Nat) i =>
        match t.groups[i]? with
        | some (Member.live gid) => a.1.saveGroup tid i gid image a.2
        | _ => a) (s, image + 0x280 + roundLine t.winLen)
      let s1 := q.1.writeMem image (teamHeader (q.2 - image) tid t g)
      let s2 := { s1 with serial := s1.serial + 512 }.writeMem (image + 0x80) (freeBytes s1.serial 512)
      let s3 := s2.writeMem (image + 0x280) win
      (s3.modTeam tid fun u =>
        { u with state := .preempted, saving := none, taking := false, image := some image, requeue := false, named := false,
                 loadFrom := if u.requeue then some image else none,
                 arrival := if u.requeue then s3.headArrival u.part else u.arrival }, q.2)

/-- The members of a team's cohort, member 0 first (R117). -/
def State.members (s : State) (t : Team) : List (Nat × Team) :=
  (List.range t.cohort).filterMap fun m => (s.cohortTeams t).find? fun e => e.2.member == m

/-- The seat entries of the groups of some teams, Moving or as their groups stand (R335). -/
def State.moveSeats (s : State) (ms : List (Nat × Team)) (moving : Bool) : State :=
  s.groups.foldl (fun u e =>
    if ms.any fun m => e.2.team == some m.1 then
      if moving then u.seatState e.1 e.2 4 0
      else if e.2.residency == .swapped then u.seatState e.1 e.2 2 (flatKitty e.2.kitty)
      else u.seatState e.1 e.2 1 0
    else u) s

/-- The teams of a cohort, each changed. -/
def State.modTeams (s : State) (ms : List (Nat × Team)) (f : Team → Team) : State := ms.foldl (fun u m => u.modTeam m.1 f) s

/-- A save given up (R389): the team named has stopped being Resident. -/
def State.dropSave (s : State) (ms : List (Nat × Team)) : State :=
  (if ms.any fun m => m.2.taking then s.moveSeats ms false else s).modTeams ms fun v =>
    { v with saving := none, requeue := false, named := false, taking := false }

/-- CONTEXT_SAVE_TAKEN (R335, R388, R389): when every group of the cohort can be taken, nothing of it issues any more and its
seat entries are Moving; then the members' images are written back to back, or, where a request that was held has gone on
meanwhile, the save waits once more with its groups Resident. -/
def execContextSaveTaken (tid : Nat) (s : State) : Host.Outcome State Fault Refusal :=
  .next (match s.team tid with
    | none => s
    | some t =>
      match t.saving with
      | none => s
      | some p =>
        let ms := s.members t
        let all := fun (ok : Nat → Group → Bool) => s.groups.all fun e => !(ms.any fun m => e.2.team == some m.1) || ok e.1 e.2
        if ms.any fun e => e.2.named && e.2.state != .resident then s.dropSave ms
        else if t.taking then
          if all s.engineSavable then (ms.foldl (fun (a : State × Nat) m => a.1.saveTeam m.1 a.2) (s, p)).1
          else (s.moveSeats ms false).modTeams ms fun v => { v with taking := false }
        else if all s.groupSavable then (s.moveSeats ms true).modTeams ms fun v => { v with taking := true }
        else s)

/-- The bound of R391 on a team's image. -/
def State.imageBound (s : State) (t : Team) : Nat :=
  0x280 + t.winLen + (t.groups.map fun m =>
    match m with
    | .live gid => (match s.group gid with
        | some g => 0x400 + 4 * g.width * g.vAlloc + 512 * g.tAlloc + 2048 * g.aAlloc + 64 * (8 + g.cnt.c4 + g.cnt.c5)
        | none => 0)
    | _ => 0).sum

/-- Whether `n` bytes from a physical address lie in memory in home regions of a partition (R347). -/
def State.ownsSpan (s : State) (x : Part) (pa n : Nat) : Bool :=
  (List.range ((pa + n - 1) / 2 ^ 34 - pa / 2 ^ 34 + 1)).all (fun k => x.owns (pa + k * 2 ^ 34)) && x.owns (pa + n - 1)
    && holdsMemory s pa && holdsMemory s (pa + n - 1) && pa + n ≤ 2 ^ 52

/-- The bits of a locator outside the WHERE form (R364). -/
def whereBad (w : Word) : Bool := w.toNat / 2 ^ 21 ≠ 0 || w.toNat % 16 ≠ 0

/-- The group that a locator names in a partition. -/
def State.located (s : State) (part : Nat) (w : Word) : Option (Nat × Group) :=
  let gid := gidOfWhere w.toNat
  match s.group gid with
  | some g => if g.part = part && bits w.toNat 15 4 < 12 then some (gid, g) else none
  | none => none

/-- A save of a team's cohort asked for (R389). -/
def State.askSave (s : State) (tid : Nat) (t : Team) (p : Nat) (requeue : Bool) : State :=
  (s.members t).foldl (fun u e => u.modTeam e.1 fun v =>
    { v with saving := some p, requeue := requeue, named := e.1 = tid, image := none }) s

/-- `ctxsv` (R389). -/
def execCtxsv (f : SysDAB) (s : State) : Host.Outcome State Fault Refusal :=
  issue (fun _ _ => sysSpec (packSysDAB 0xF0800000 f) f.st true (upFrom f.sa.toNat 2 ++ [f.sb.toNat]) [f.sd.toNat])
    (fun e =>
      let p := (e.v.spair f.sa.toNat).toNat
      let w := e.v.sreg f.sb.toNat
      let ends := fun (x : Word) => e.upd (e.g.setSreg f.sd.toNat x)
      if e.marker then
        ends (if e.grids.any fun t => ((e.s.team t).bind (·.image)).isSome then 0 else 1)
      else if whereBad w then e.illegal 0x01
      else if p % 128 ≠ 0 then .trap 0x09 (BitVec.ofNat 64 p) none
      else
        match (e.s.located e.g.part w).bind fun x => x.2.team, e.part with
        | some tid, some x =>
          (match e.s.team tid with
           | none => ends 1
           | some t =>
             let ms := e.s.members t
             if t.state ≠ .resident then ends 1
             else if ms.any fun m => m.2.saving.isSome then ends 2
             else if !e.s.ownsSpan x p ((ms.map fun m => e.s.imageBound m.2).sum) then ends 3
             else .block (e.s.askSave tid t p false) (.saveTaken tid) true)
        | _, _ => ends 1) s

/-- `ctxld` (R389). -/
def execCtxld (f : SysDA) (s : State) : Host.Outcome State Fault Refusal :=
  issue (fun _ _ => sysSpec (packSysDA 0xF0A00000 f) f.st true (upFrom f.sa.toNat 2) [f.sd.toNat])
    (fun e =>
      let p := (e.v.spair f.sa.toNat).toNat
      let ends := fun (t : State) (x : Word) => Res.ok (t.modGroup e.gid fun g => g.setSreg f.sd.toNat x)
      match e.part with
      | none => ends e.s 1
      | some x =>
        if !e.s.ownsSpan x p 128 || e.s.memNat (p + 4) 4 ≠ 1 || e.s.memNat p 4 = 0 then ends e.s 1
        else
          let tid := e.s.memNat (p + 8) 4
          match e.s.team tid with
          | none => ends e.s 2
          | some t =>
            if t.part ≠ e.g.part || t.state ≠ .preempted || t.loadFrom.isSome then ends e.s 2
            else
              let head := e.s.headArrival e.g.part
              ends ((e.s.members t).foldl (fun u m => u.modTeam m.1 fun v =>
                { v with loadFrom := some (v.image.getD 0 + p - t.image.getD 0), arrival := head, named := m.1 = tid }) e.s) 0) s

/-- Entries of a register class read from an image, without those that hold 0. -/
def imageRegs {w : Nat} (n : Nat) (rd : Nat → BitVec w) : List (Nat × BitVec w) :=
  ((List.range n).map fun i => (i, rd i)).filter fun e => e.2 ≠ 0

/-- The registers of a group loaded from its section (R392): a vector register where its VLIVE or DELIV bit is set, a tile or
accumulator where its TLIVE or ALIVE bit is; the others hold 0. -/
def State.loadRegs (s : State) (sec : Nat) (g : Group) : Group :=
  let live := s.memNat (sec + 8) 16 ||| s.memNat (sec + 0x28) 16
  let tlive := s.memNat (sec + 0x18) 2
  let alive := s.memNat (sec + 0x1A) 2
  let tbase := sec + 0x400 + 4 * g.width * g.vAlloc
  let abase := fun (a : Nat) => tbase + 512 * g.tAlloc + 2052 * a
  let vs := (List.range g.vAlloc).flatMap fun n =>
    if bit live n then
      (imageRegs g.width fun i => (BitVec.ofNat 32 (s.memNat (sec + 0x400 + 4 * g.width * n + 4 * i) 4) : Word)).map fun e =>
        (64 * n + e.1, e.2)
    else []
  let ts := (List.range g.tAlloc).flatMap fun t =>
    if bit tlive t then (imageRegs 512 fun b => s.byte (tbase + 512 * t + b)).map fun e => (512 * t + e.1, e.2) else []
  let as := (List.range g.aAlloc).flatMap fun a =>
    if bit alive a then
      (imageRegs 512 fun w => (BitVec.ofNat 32 (s.memNat (abase a + 4 * w) 4) : Word)).map fun e => (512 * a + e.1, e.2)
    else []
  { g with vregs := vs, tiles := ts, accs := as,
           sregs := imageRegs 63 fun n => BitVec.ofNat 32 (s.memNat (sec + 0x80 + 4 * n) 4),
           preds := imageRegs 7 fun n => BitVec.ofNat 64 (s.memNat (sec + 0x180 + 8 * n) 8),
           amax := imageRegs g.aAlloc fun a =>
             if bit alive a then (BitVec.ofNat 32 (s.memNat (abase a + 2048) 4) : Word) else 0 }

/-- A split with what its section holds of it (R392): mask, code address and join stack. -/
def State.loadSplit (s : State) (sec : Nat) (base : DWord) (p : Split) : Split :=
  let at_ := sec + 0x200 + 64 * p.slot
  { p with mask := BitVec.ofNat 64 (s.memNat at_ 8), pc := base + BitVec.ofNat 64 (s.memNat (at_ + 8) 4),
           joins := ((List.range 4).map fun i => (BitVec.ofNat 64 (s.memNat (at_ + 32 + 8 * i) 8) : DWord)).takeWhile (· ≠ 0) }

/-- The hold entries of a section (R392). -/
def State.loadHolds (s : State) (sec : Nat) : List HoldEntry :=
  (List.range 8).filterMap fun i =>
    let w := s.memNat (sec + 0x300 + 8 * i) 4
    if bit w 8 then some { reg := w % 256, pending := s.memNat (sec + 0x304 + 8 * i) 4 } else none

/-- The status words, splits, hold entries and trap frame of a section (R392); the states of splits and the armed condition
are the part's own encoding. -/
def State.loadStatus (s : State) (sec : Nat) (g : Group) : Group :=
  let w := fun (o : Nat) => s.memNat (sec + 0x1C0 + o) 4
  let c := fun (k : Nat) => (s.byte (sec + 0x1E8 + k)).toNat
  { g with mode := BitVec.ofNat 25 (w 0), scc := BitVec.ofNat 5 (w 4), flags := BitVec.ofNat 7 (w 8), ovf := BitVec.ofNat 3 (w 0xC),
           lscale := BitVec.ofNat 32 (w 0x10), sig := BitVec.ofNat 32 (w 0x14), msig := BitVec.ofNat 32 (w 0x18),
           ovtab := BitVec.ofNat 10 (w 0x1C), readLatch := BitVec.ofNat 32 (w 0x24),
           cnt := { c0 := c 0, c1 := c 1, c2 := c 2, c3 := c 3, c4 := c 4, c5 := c 5 },
           hwdog := s.memNat (sec + 0x38) 4, splits := g.splits.map (s.loadSplit sec g.text), holds := s.loadHolds sec,
           frameCopy := if g.handler.isSome then
               g.frameCopy.take 0x140 ++ s.bytes (sec + 0x340) 0x30 ++ g.frameCopy.drop 0x170
             else [] }

/-- A saved group restored from its section to a core (R125, R255, R284, R383, R390, R392); its issue slot and lane position
are those that it had, and its seat entry is Moving until its context is back. -/
def State.restoreGroup (s : State) (x : Part) (tid idx core sec : Nat) (g : Group) : State :=
  let gid := s.freeRecord core
  let g1 := s.loadStatus sec (s.loadRegs sec g)
  let g2 : Group := { g1 with frameCopy := [], lastIssue := s.tick, stallUntil := 0, blockedSince := s.clock, syncAt := s.tick,
                              residency := .restoring, handler := g1.handler.map fun h => { h with entered := s.clock } }
  let s1 := if g.handler.isSome then s.setSbytes (frameKey x gid) g1.frameCopy else s
  let s2 := (s1.renumber (savedGid tid idx) gid).setGroup gid g2
  (s2.modTeam tid fun t => { t with groups := listSet t.groups idx (.live gid) }).seatState gid g2 4 0

/-- A Pre-empted team restored to a core from its image (R389, R391): window, groups and engine records. -/
def State.restoreTeam (s : State) (x : Part) (tid : Nat) (t : Team) (core p : Nat) : State :=
  let s1 := s.seatTeam x tid { t with loadFrom := none, named := false, sizeAt := if t.named then some p else none } core
  let key := match s1.team tid with
    | some u => u.key 0
    | none => 0
  let secs := s.sections p t
  let s2 := (s1.zeroSpad key t.winLen).setSbytes key (s.bytes (p + 0x280) t.winLen)
  let s3 := (List.range t.groups.length).foldl (fun (u : State) i =>
    match t.groups[i]?, tabGet secs i with
    | some (Member.saved g), some sec => u.restoreGroup x tid i core sec g
    | _, _ => u) s2
  s3.modTeam tid Team.settle

/-- The cluster that takes a queued team's cohort now: a latency team's is the one its search selected, reserve cores
counted as free (R126); a bulk team's is the first of its search with the cores (R129 to R131). -/
def State.clusterFor (s : State) (x : Part) (t : Team) (r : LaunchRec) : Option Nat :=
  let takes := fun (c : Nat) => decide (t.cohort ≤ (s.admitCores x t r c).length)
  if t.latency then (s.latencyCluster x t).filter takes else (x.search t).find? takes

/-- TEAM_ADMIT (R114, R125 to R131): a queued team's cohort goes to the first cluster of its search that can take every
member, new or restored. -/
def execTeamAdmit (tid : Nat) (s : State) : Host.Outcome State Fault Refusal :=
  .next (match s.team tid with
    | none => s
    | some t =>
      match s.part t.part, s.recordFor t with
      | some x, some r =>
        let ms := s.members t
        if ms.length ≠ t.cohort || ms.any (fun e => !e.2.isQueued) then s
        else
          (match s.clusterFor x t r with
           | none => s
           | some c =>
             let q := s.pickCores t.latency t.cohort (s.admitCores x t r c)
             let s1 := if t.homeDie.isNone then q.2.modPart t.part fun y => { y with rrNext := (c + 1) % 48 } else q.2
             ((ms.zip q.1).foldl (fun (u : State) e =>
               match e.1.2.loadFrom with
               | some p => u.restoreTeam x e.1.1 e.1.2 e.2 p
               | none => u.startTeam x e.1.1 e.1.2 e.2) s1).releaseReqs.endRestore t)
      | _, _ => s)

/-- The hardware pre-emption slots of a partition that are free, in ascending order (R389). -/
def State.freeSlots (s : State) (x : Part) (part : Nat) : List Nat :=
  ((List.range (bits x.saveSlot.toNat 0 16)).map fun i => x.saveArea.toNat + i * (2 ^ 16 * bits x.saveSlot.toNat 16 16)).filter
    fun a => s.teams.all fun e => e.2.part != part
      || !(e.2.saving == some a || (e.2.state == .preempted && e.2.image == some a))

/-- The bulk teams of a reserve core to pre-empt. -/
def State.bulkTeams (s : State) (core : Nat) : List (Nat × Team) :=
  s.teams.filter fun e => e.2.core == core && e.2.state == .resident && !e.2.latency && e.2.saving.isNone

/-- The reserve cores of a cluster that would admit a latency team but for bulk teams (R126). -/
def State.reserveCores (s : State) (x : Part) (t : Team) (r : LaunchRec) (c : Nat) : List Nat :=
  [16 * c + 14, 16 * c + 15].filter fun k =>
    s.canAdmit x t r true k && !s.canAdmit x t r false k && s.bulkTeams k ≠ []

/-- The reserve cores of a cluster whose bulk teams are already being pre-empted for a latency team. -/
def State.vacating (s : State) (x : Part) (t : Team) (r : LaunchRec) (c : Nat) : Nat :=
  ([16 * c + 14, 16 * c + 15].filter fun k => s.canAdmit x t r true k && s.bulkTeams k == []
    && (s.coreTeams k false).any fun e => e.2.saving.isSome && e.2.requeue).length

/-- LATENCY_RESERVE_PREEMPT (R126, R389): a queued latency team that no core of its cluster can admit now has the bulk teams
of a reserve core saved into free slots, all of them or none. Of two reserve cores that would do, core 14 is vacated first: R126
says only a reserve core, and the order is the model's choice (log entry 111). -/
def execLatencyReservePreempt (tid : Nat) (s : State) : Host.Outcome State Fault Refusal :=
  .next (match s.team tid with
    | none => s
    | some t =>
      match s.part t.part, s.recordFor t with
      | some x, some r =>
        if !t.latency || !t.isQueued then s
        else
          (match s.latencyCluster x t with
           | none => s
           | some c =>
             if t.cohort ≤ (s.admitCores x t r c).length + s.vacating x t r c then s
             else
               match s.reserveCores x t r c with
               | [] => s
               | k :: _ =>
                 let bs := s.bulkTeams k
                 let slots := s.freeSlots x t.part
                 let size := 2 ^ 16 * bits x.saveSlot.toNat 16 16
                 if slots.length < bs.length || (bs.zip slots).any (fun e =>
                     size < s.imageBound e.1.2 || !s.ownsSpan x e.2 (s.imageBound e.1.2)) then s
                 else (bs.zip slots).foldl (fun u e => u.askSave e.1.1 e.1.2 e.2 true) s)
      | _, _ => s)

end Sys2Proof.Machine
end

