-- ==== Sys2Proof/Machine/Cross.lean ====
section
/-! DEFINITION. The cross-lane instructions (R223 to R231). -/
namespace Sys2Proof.Machine

/-- The prefix fields that a cross-lane instruction does not honour (R223): `typed` for `lred` and `lscan`, `rounds`
for their op 8, `kinds` the fourth operands allowed. -/
def crossMisuse (px : Option AluPx) (typed rounds : Bool) (kinds : List Nat) : Bool :=
  pxXw px != 0 || (!typed && pxType px != 0) || (!rounds && pxRnd px != 0) || pxRnd px = 6
    || (pxKind px != 0 && !kinds.contains (pxKind px))

/-- What the issue logic knows of a cross-lane instruction (R223, R224): every write has a required distance of 8. -/
def crossSpec (g : Group) (words : List Nat) (st : BitVec 2) (px : Option AluPx) (kinds : List Nat) (vn sn : List Nat)
    (rs ws : List RegName) : Spec :=
  { words := words, stall := st, mask := aluMask px, misuse := crossMisuse px false false kinds,
    vNamed := vn ++ fourthV px 1, sNamed := sn ++ fourthS px,
    reads := g.maskReads (aluMask px) ++ rs ++ fourthReads px 1, writes := ws.map fun r => (r, 8), zero := aluZero px }

/-- The distance that a code of `shfl` gives a group of width `w` (R225). -/
def shflDist (c w : Nat) : Nat := if c < 8 then 2 ^ c else w / 2 ^ (c - 7)

/-- The lane that lane `i` reads under `shfl` (R225). -/
def shflLane (mode d idx w i : Nat) : Nat :=
  match mode with
  | 0 => if d ≤ i then i - d else i
  | 1 => if i + d < w then i + d else i
  | 2 => if i ^^^ d < w then i ^^^ d else i
  | _ => idx % w

/-- `shfl` (R225). -/
def execShfl (f : Shfl) (s : State) : Host.Outcome State Fault Refusal :=
  issue (fun g _ => crossSpec g (aluWords f.px (packShfl 0xE4000000 f)) f.st f.px (if f.mode = 3 then [1, 2, 3] else [])
      [f.vd.toNat, f.va.toNat] [] [vName f.va.toNat] [vName f.vd.toNat])
    (fun e => e.upd (e.g.writeV f.vd.toNat (aluZero f.px) e.active fun i =>
      e.v.vreg f.va.toNat
        (shflLane f.mode.toNat (shflDist f.dist.toNat e.g.width) (e.v.fourth f.px (fun _ => 0) i).toNat e.g.width i))) s

/-- The lane L of `bcast` and `rdlane` (R226). -/
def Env.laneOf (e : Env) (px : Option AluPx) (lane : BitVec 6) : Nat :=
  (if pxKind px = 0 then lane.toNat else (e.v.fourth px (fun _ => 0) 0).toNat) % e.g.width

/-- `bcast` (R226). -/
def execBcast (f : Bcast) (s : State) : Host.Outcome State Fault Refusal :=
  issue (fun g _ => crossSpec g (aluWords f.px (packBcast 0xE5000000 f)) f.st f.px [2, 3] [f.vd.toNat, f.va.toNat] []
      [vName f.va.toNat] [vName f.vd.toNat])
    (fun e => e.upd (e.g.writeV f.vd.toNat (aluZero f.px) e.active fun _ =>
      e.v.vreg f.va.toNat (e.laneOf f.px f.lane))) s

/-- `rdlane` (R226): written once, whatever the activity. -/
def execRdlane (f : Rdlane) (s : State) : Host.Outcome State Fault Refusal :=
  issue (fun g _ => crossSpec g (aluWords f.px (packRdlane 0xE5400000 f)) f.st f.px [2, 3] [f.va.toNat] [f.sd.toNat]
      [vName f.va.toNat] [sName f.sd.toNat])
    (fun e => e.upd (e.g.setSreg f.sd.toNat (e.v.vreg f.va.toNat (e.laneOf f.px f.lane)))) s

/-- `vote` (R227). -/
def execVote (f : Vote) (s : State) : Host.Outcome State Fault Refusal :=
  issue (fun g _ =>
      let m := f.mode.toNat
      crossSpec g (aluWords f.px (packVote 0xE4C00000 f)) f.st f.px [] (if m = 2 then [f.fa.toNat] else [])
        (if m = 3 then [f.fd.toNat, f.fd.toNat + 1] else [])
        [if m = 2 then vName f.fa.toNat else pName f.fa.toNat]
        (if m = 3 then sNames f.fd.toNat 2 else [pName f.fd.toNat]))
    (fun e =>
      let act := e.active
      let pa := e.v.pred f.fa.toNat &&& act
      let put := fun (r : Bool) => e.upd (e.g.writeP f.fd.toNat (aluZero f.px) act fun _ => r)
      match f.mode.toNat with
      | 0 => put (pa != 0)
      | 1 => put (pa == act)
      | 2 =>
        let xs := (lanesOf act).map (e.v.vreg f.fa.toNat)
        put (xs.all fun x => x == xs.headD 0)
      | _ => e.upd (e.g.setSpair f.fd.toNat pa)) s

/-- `lanes` (R229). -/
def execLanes (f : LanesF) (s : State) : Host.Outcome State Fault Refusal :=
  issue (fun g _ => crossSpec g (aluWords f.px (packLanesF 0xE5800000 f)) f.st f.px [] [f.vd.toNat] [] []
      [vName f.vd.toNat])
    (fun e =>
      let ls := lanesOf e.active
      e.upd (e.g.writeV f.vd.toNat (aluZero f.px) e.active fun i => BitVec.ofNat 32
        (match f.kind.toNat with
         | 0 => i
         | 1 => (ls.filter (· < i)).length
         | 2 => ls.length
         | _ => ls.headD 0))) s

/-- The predicate functions of `pop` (R230). -/
def popFn (fn : Nat) (a b : Bool) : Bool :=
  match fn with
  | 0 => a && b
  | 1 => a || b
  | 2 => a != b
  | 3 => a && !b
  | 4 => a || !b
  | 5 => !(a && b)
  | 6 => !(a || b)
  | _ => a == b

/-- `pop` (R230). -/
def execPop (f : Pop) (s : State) : Host.Outcome State Fault Refusal :=
  issue (fun g _ => crossSpec g (aluWords f.px (packPop 0xE5C00000 f)) f.st f.px [] [] []
      [pName f.pa.toNat, pName f.pb.toNat] [pName f.pd.toNat])
    (fun e => e.upd (e.g.writeP f.pd.toNat (aluZero f.px) e.active fun i =>
      popFn f.fn.toNat (inMask (e.v.pred f.pa.toNat) i) (inMask (e.v.pred f.pb.toNat) i))) s

/-- `pmov` (R230). -/
def execPmov (f : Pmov) (s : State) : Host.Outcome State Fault Refusal :=
  issue (fun g _ =>
      let m := f.mode.toNat
      crossSpec g (aluWords f.px (packPmov 0xE6000000 f)) f.st f.px []
        (if m = 0 then [f.fd.toNat] else if m = 1 then [f.fa.toNat] else [])
        (if m = 2 then [f.fa.toNat, f.fa.toNat + 1] else [])
        (if m = 0 then [pName f.fa.toNat] else if m = 1 then [vName f.fa.toNat] else sNames f.fa.toNat 2)
        [if m = 0 then vName f.fd.toNat else pName f.fd.toNat])
    (fun e =>
      match f.mode.toNat with
      | 0 => e.upd (e.g.writeV f.fd.toNat (aluZero f.px) e.active fun i =>
          if inMask (e.v.pred f.fa.toNat) i then 1 else 0)
      | 1 => e.upd (e.g.writeP f.fd.toNat (aluZero f.px) e.active fun i => e.v.vreg f.fa.toNat i != 0)
      | _ => e.upd (e.g.writeP f.fd.toNat (aluZero f.px) e.active fun i => inMask (e.v.spair f.fa.toNat) i)) s

/-- The last Active lane, in ascending order, that scatters to lane `j` (R231). -/
def permSource (e : Env) (px : Option AluPx) (j : Nat) : Option Nat :=
  ((lanesOf e.active).filter fun i => (e.v.fourth px (fun _ => 0) i).toNat % e.g.width = j).getLast?

/-- `perm` (R231): lanes outside the split's mask are never written. -/
def execPerm (f : Perm) (s : State) : Host.Outcome State Fault Refusal :=
  issue (fun g _ => crossSpec g (aluWords f.px (packPerm 0xE6400000 f)) f.st f.px [1] [f.vd.toNat, f.va.toNat] []
      [vName f.va.toNat] [vName f.vd.toNat])
    (fun e => e.upd (e.g.setLanes f.vd.toNat
      (fun j => match permSource e f.px j with
        | some i => e.v.vreg f.va.toNat i
        | none => 0)
      ((lanesOf (e.p.mask &&& maskBelow e.g.width)).filter fun j =>
        (permSource e f.px j).isSome || aluZero f.px))) s

/-- The integer combinations of R228. -/
def combInt (op w : Nat) (a b : BitVec w) : BitVec w :=
  match op with
  | 0 => elAdd w false a b
  | 1 => elMin w false a b
  | 2 => elMax w false a b
  | 3 => elMinu w false a b
  | 4 => elMaxu w false a b
  | 5 => elAnd w false a b
  | 6 => elOr w false a b
  | _ => elXor w false a b

/-- The identities of R228 as an element. -/
def combIdent (op w : Nat) (fm : Fmt) : BitVec w :=
  match op with
  | 1 => BitVec.ofNat w (2 ^ (w - 1) - 1)
  | 2 => BitVec.ofNat w (2 ^ (w - 1))
  | 3 => BitVec.allOnes w
  | 5 => BitVec.allOnes w
  | 8 => BitVec.ofNat w (fm.code true 0)
  | 9 => BitVec.ofNat w fm.infMag
  | 10 => BitVec.ofNat w (fm.code true fm.infMag)
  | _ => 0

/-- A word and the flags of the combinations that entered it. -/
abbrev Comb := Word × FFlags

/-- One combination of two words, `a` of the lower lane (R228). -/
def Env.combine (e : Env) (px : Option AluPx) (op : Nat) (a b : Comb) : Comb :=
  let t := e.g.effType px
  if op < 8 then (mapElems (elemWidth t) (combInt op (elemWidth t)) a.1 b.1, a.2 ||| b.2)
  else
    let fm := fmtOf t
    let fop : FOp := if op = 8 then opFadd else if op = 9 then opFmin else opFmax
    let r := packRes fm ((List.range (32 / fm.w)).map fun k =>
      fop fm (rndOf (e.g.effRnd px) 0 32) e.g.mFtz (e.elemOf fm a.1 k) (e.elemOf fm b.1 k) 0)
    (r.1, a.2 ||| b.2 ||| r.2)

/-- A combination in which either side may be absent (R228). -/
def Env.combOpt (e : Env) (px : Option AluPx) (op : Nat) (a b : Option Comb) : Option Comb :=
  match a, b with
  | none, b => b
  | a, none => a
  | some x, some y => some (e.combine px op x y)

/-- The values before the first step: absent in inactive lanes (R228). -/
def Env.combStart (e : Env) (va : Nat) : List (Option Comb) :=
  (List.range e.g.width).map fun i => if inMask e.active i then some (e.v.vreg va i, 0) else none

/-- The tree of `lred` within segments of `seg` lanes, `n` steps from distance `d` (R228). -/
def Env.reduce (e : Env) (px : Option AluPx) (op seg : Nat) : Nat → Nat → List (Option Comb) → List (Option Comb)
  | 0, _, xs => xs
  | n + 1, d, xs =>
    if d < seg then
      e.reduce px op seg n (2 * d) ((List.range xs.length).map fun i =>
        let lo := min i (i ^^^ d)
        e.combOpt px op (xs.getD lo none) (xs.getD (lo ^^^ d) none))
    else xs

/-- The tree of `lscan` (R228). -/
def Env.scan (e : Env) (px : Option AluPx) (op : Nat) : Nat → Nat → List (Option Comb) → List (Option Comb)
  | 0, _, xs => xs
  | n + 1, d, xs =>
    if d < e.g.width then
      e.scan px op n (2 * d) ((List.range xs.length).map fun i =>
        if d ≤ i then e.combOpt px op (xs.getD (i - d) none) (xs.getD i none) else xs.getD i none)
    else xs

/-- What the issue logic knows of `lred` and `lscan` (R223, R228). -/
def redSpec (g : Group) (words : List Nat) (st : BitVec 2) (px : Option AluPx) (op vd va : Nat) : Spec :=
  let ok := fun t => op < 8 || arithType t
  { words := words, stall := st, mask := aluMask px,
    misuse := crossMisuse px true (op = 8) [] || (pxType px != 0 && !ok (pxType px)),
    vNamed := [vd, va], modeIll := g.typeBad px || (pxType px = 0 && !ok g.mType) || (op = 8 && g.rndBad px),
    reads := g.maskReads (aluMask px) ++ [vName va], writes := [(vName vd, 8)], zero := aluZero px }

/-- The result of a reduction or scan: the value of each Active lane, and the flags that entered it (R228). -/
def Env.redWrite (e : Env) (px : Option AluPx) (vd : Nat) (val : Nat → Comb) : Res :=
  e.flagged ((lanesOf e.active).map fun i => (i, (val i).2))
    (e.g.writeV vd (aluZero px) e.active fun i => (val i).1)

/-- `lred` (R228). -/
def execLred (f : Lred) (s : State) : Host.Outcome State Fault Refusal :=
  issue (fun g _ => redSpec g (aluWords f.px (packLred 0xE4400000 f)) f.st f.px f.op.toNat f.vd.toNat f.va.toNat)
    (fun e =>
      let xs := e.reduce f.px f.op.toNat (e.g.width / 2 ^ f.seg.toNat) 6 1 (e.combStart f.va.toNat)
      e.redWrite f.px f.vd.toNat fun i => (xs.getD i none).getD (0, 0)) s

/-- `lscan` (R228). -/
def execLscan (f : Lscan) (s : State) : Host.Outcome State Fault Refusal :=
  issue (fun g _ => redSpec g (aluWords f.px (packLscan 0xE4800000 f)) f.st f.px f.op.toNat f.vd.toNat f.va.toNat)
    (fun e =>
      let xs := e.scan f.px f.op.toNat 6 1 (e.combStart f.va.toNat)
      let fm := fmtOf (e.g.effType f.px)
      let w := elemWidth (e.g.effType f.px)
      let ident : Comb := (packElems w (copiesOf (32 / w) (combIdent f.op.toNat w fm)), 0)
      e.redWrite f.px f.vd.toNat fun i =>
        if f.ex then
          match ((lanesOf e.active).filter (· < i)).getLast? with
          | some p => (xs.getD p none).getD (0, 0)
          | none => ident
        else (xs.getD i none).getD (0, 0)) s

end Sys2Proof.Machine
end

