-- ==== Sys2Proof/Machine/Signature.lean ====
section
/-! DEFINITION. ECDSA on P-256 with SHA-256 (R22): the curve, signatures and their verification. A point is a pair of
coordinates, and none is the point at infinity. -/
namespace Sys2Proof.Machine

/-- The prime of the field of P-256. -/
def p256P : Nat := 2 ^ 256 - 2 ^ 224 + 2 ^ 192 + 2 ^ 96 - 1

/-- The order of the base point of P-256. -/
def p256N : Nat := 0xFFFFFFFF00000000FFFFFFFFFFFFFFFFBCE6FAADA7179E84F3B9CAC2FC632551

/-- The constant term of the curve; the linear one is −3. -/
def p256B : Nat := 0x5AC635D8AA3A93E7B3EBBD55769886BC651D06B0CC53B0F63BCE3C3E27D2604B

/-- The base point of P-256. -/
def p256G : Nat × Nat :=
  (0x6B17D1F2E12C4247F8BCE6E563A440F277037D812DEB33A0F4A13945D898C296,
   0x4FE342E2FE1A7F9B8EE7EB4A7C0F9E162BCE33576B315ECECBB6406837BF51F5)

/-- A power modulo `m`; `k` counts the bits of the exponent. -/
def modPow (m : Nat) : Nat → Nat → Nat → Nat
  | 0, _, _ => 1 % m
  | k + 1, b, e => (if e % 2 = 1 then b else 1) * modPow m k (b * b % m) (e / 2) % m

/-- The inverse modulo a prime of at most 256 bits. -/
def modInv (m a : Nat) : Nat := modPow m 256 (a % m) (m - 2)

/-- A difference modulo `p256P`. -/
def fieldSub (a b : Nat) : Nat := (a + p256P - b % p256P) % p256P

/-- Whether a pair is a point of the curve. -/
def onCurve (q : Nat × Nat) : Bool :=
  q.1 < p256P && q.2 < p256P && q.2 * q.2 % p256P == fieldSub (q.1 * q.1 * q.1 + p256B) (3 * q.1)

/-- The sum of two points of P-256. -/
def pointAdd : Option (Nat × Nat) → Option (Nat × Nat) → Option (Nat × Nat)
  | none, q => q
  | p, none => p
  | some p, some q =>
    if p.1 = q.1 && (p.2 + q.2) % p256P = 0 then none
    else
      let l := if p.1 = q.1 then fieldSub (3 * p.1 * p.1) 3 * modInv p256P (2 * p.2) % p256P
        else fieldSub q.2 p.2 * modInv p256P (fieldSub q.1 p.1) % p256P
      let x := fieldSub (l * l) (p.1 + q.1)
      some (x, fieldSub (l * fieldSub p.1 x) p.2)

/-- A multiple of a point; `k` counts the bits of the factor. -/
def pointMul : Nat → Nat → Option (Nat × Nat) → Option (Nat × Nat)
  | 0, _, _ => none
  | k + 1, n, p => pointAdd (if n % 2 = 1 then p else none) (pointMul k (n / 2) (pointAdd p p))

/-- SHA-256 of bytes. -/
def digest (m : List Byte) : List Byte := (sha256 (m.map BitVec.toNat)).map (BitVec.ofNat 8)

/-- A digest as the number that ECDSA signs. -/
def digestNum (m : List Byte) : Nat := beNum (sha256 (m.map BitVec.toNat))

/-- Whether a pair is a signature of a message under a public key (R22). -/
def ecdsaVerify (key : Nat × Nat) (m : List Byte) (sig : Nat × Nat) : Bool :=
  onCurve key && 1 ≤ sig.1 && sig.1 < p256N && 1 ≤ sig.2 && sig.2 < p256N &&
    let w := modInv p256N sig.2
    (match pointAdd (pointMul 256 (digestNum m * w % p256N) (some p256G)) (pointMul 256 (sig.1 * w % p256N) (some key)) with
     | none => false
     | some q => q.1 % p256N == sig.1)

/-- The signature of a message under a private key with a nonce (R22). -/
def ecdsaSign (key nonce : Nat) (m : List Byte) : Nat × Nat :=
  let r := ((pointMul 256 nonce (some p256G)).getD (0, 0)).1 % p256N
  (r, modInv p256N nonce * (digestNum m + r * key) % p256N)

end Sys2Proof.Machine
end

