-- ==== Sys2Proof/Machine/System.lean ====
section
/-! DEFINITION. The return from a handler and parking (R386), `keyld` (R402 to R404), `halt` and the islands (R408), `sigset`
(R399) and `killg` (R395). -/
namespace Sys2Proof.Machine

/-- A free 64-bit value. -/
def freeDword (k : Nat) : DWord := pairWord (Config.freeWord k) (Config.freeWord (k + 1))

/-- The return of a handler to a PC (R386); an instruction of a group that is in no handler takes trap 0x01. -/
def Env.rfeTo (e : Env) (s : State) (pc : DWord → Nat → DWord) : Res :=
  match e.g.handler, e.part with
  | some h, some x =>
    let tpc := BitVec.ofNat 64 (ofBytes (s.sbytes (frameKey x e.gid + 0x158) 8))
    .placed (s.leaveHandler x e.gid e.g h (pc tpc s.serial))
  | _, _ => e.illegal 0x01

/-- `rfe` (R386). -/
def execRfe (f : Bare) (s : State) : Host.Outcome State Fault Refusal :=
  issue (fun _ _ => sysSpec (packBare 0xF0600000 f) f.st true [] [])
    (fun e => e.rfeTo e.s fun pc _ => pc) s

/-- The length of the instruction at an address that a group resumes at (R386): either one where the word cannot be read. -/
def State.lengthAt (s : State) (gid : Nat) (g : Group) (pc : DWord) (k : Nat) : Nat :=
  match fetchWord s (({ g with handler := none } : Group).agent gid) (pc &&& ~~~3) with
  | .words (w :: _) => 4 * wordCount w
  | _ => if Config.pick k then 8 else 4

/-- `rfe.next` (R386). -/
def execRfeNext (f : Bare) (s : State) : Host.Outcome State Fault Refusal :=
  issue (fun _ _ => sysSpec (packBare 0xF0600004 f) f.st true [] [])
    (fun e => e.rfeTo e.s.fresh fun pc k => codeStep e.g.text (pc &&& ~~~3) (e.s.lengthAt e.gid e.g pc k)) s

/-- The word that a place holds as a watch (R386). -/
def Place.watch : Place → Watch
  | .spad k => { spad := true, place := k, key := none }
  | .phys pa _ key _ _ => { spad := false, place := pa, key := key }

/-- `rfe.park` (R386): the address is read and translated before the restore. -/
def execRfePark (f : SysA) (s : State) : Host.Outcome State Fault Refusal :=
  issue (fun _ _ => sysSpec (packSysA 0xF0600008 f) f.st true (upFrom f.sa.toNat 2) [])
    (fun e =>
      if e.g.handler.isNone then e.illegal 0x01
      else
        match e.checkAll .read (some e.p.mask) [{ lane := 0, addr := (e.v.spair f.sa.toNat).toNat, size := 4, align := 4 }] with
        | .error r => r
        | .ok ps =>
          match ps with
          | [] => e.illegal 0x01
          | (a, p) :: _ =>
            match e.rfeTo (e.touch (e.s.l1FlushAll (clusterOf (coreOf e.gid)) (p.lines 4)) a p true) fun pc _ => pc with
            | .placed t => .placed (t.modGroup e.gid fun g => { g with parked := some p.watch, blockedSince := t.clock })
            | r => r) s

/-- The word that a parked group reads, and whether it is poisoned (R386, R396). -/
def State.watched (s : State) (w : Watch) : Nat × List Nat :=
  let p : Place := if w.spad then .spad w.place else .direct w.place w.key
  (ofBytes (s.readAt p 4), s.poisonAt p 4)

/-- PARK_WAKE (R386): value 1, a strong acquire, lets a parked group go on, and value 2 kills it with the cause in its frame. -/
def execParkWake (gid : Nat) (s : State) : Host.Outcome State Fault Refusal :=
  .next (match s.group gid with
    | none => s
    | some g =>
      match g.parked, s.part g.part with
      | some w, some x =>
        let v := s.watched w
        let pc := ((g.splits.find? fun p => p.st == .current).map fun p => p.pc).getD 0
        if g.residency ≠ .running then s
        else if v.2 ≠ [] then s.killGroup gid 0x10 false pc (BitVec.ofNat 64 w.place)
        else if s.taking g then s
        else if v.1 = 1 then s.setGroup gid { g with parked := none, syncAt := s.tick }
        else if v.1 = 2 then
          { s with serial := s.serial + 2 }.killGroup gid (ofBytes (s.sbytes (frameKey x gid + 0x154) 4) % 256) false pc
            (freeDword s.serial)
        else s
      | _, _ => s)

/-- The lines keyed by a key pair are written back and leave the L1s (R404). -/
def State.dropKeyed (s : State) (key : List Byte) : State :=
  s.dir.foldl (fun (t : State) e =>
    (e.2.l1.filter fun c => c.2.key = some key).foldl (fun u c => (u.l1Flush c.1 e.1).l1Drop c.1 e.1) t) s

/-- A key slot of a partition emptied (R404). -/
def State.eraseKey (s : State) (part k : Nat) : State :=
  let s1 := match (s.part part).bind fun x => tabGet x.keys k with
    | some key => s.dropKeyed key
    | none => s
  s1.modPart part fun x => { x with keys := smapErase x.keys k, keystat := x.keystat &&& ~~~(BitVec.ofNat 16 (2 ^ k)) }

/-- The load of a slot from a blob (R404): the result, the partition's slot and the session's last number with it. -/
def State.loadKey (s : State) (part k : Nat) (b : List Byte) : Word × State :=
  let at_ := fun o n => ofBytes ((b.drop o).take n)
  match s.part part with
  | none => (1, s)
  | some x =>
    if k = 0 || (tabGet x.slots k).isNone || at_ 0x14 4 ≠ k + 16 * part then (1, s)
    else
      match tabGet s.pkg.sessions (at_ 4 4) with
      | none => (2, s)
      | some n =>
        if n.part ≠ some part then (2, s)
        else if at_ 0 4 ≠ 1 || at_ 0x70 16 ≠ 0 then (4, s)
        else if (tabGet x.keys k).isSome then (5, s)
        else if n.lastSeq.any fun q => at_ 0x18 8 ≤ q then (6, s)
        else
          match gcmOpen n.key ((b.drop 8).take 12) (b.take 32) ((b.drop 0x20).take 64) ((b.drop 0x60).take 16) with
          | none => (3, s)
          | some key =>
            (0, { s with pkg := { s.pkg with sessions := smapInsert s.pkg.sessions (at_ 4 4) { n with lastSeq := some (at_ 0x18 8) } } }.modPart
              part fun y => { y with keys := smapInsert y.keys k key, keystat := y.keystat ||| BitVec.ofNat 16 (2 ^ k) })

/-- `keyld` (R404). -/
def execKeyld (f : SysDAB) (s : State) : Host.Outcome State Fault Refusal :=
  issue (fun _ _ => sysSpec (packSysDAB 0xF1000000 f) f.st true (upFrom f.sa.toNat 2 ++ [f.sb.toNat]) [f.sd.toNat])
    (fun e =>
      let c := (e.v.sreg f.sb.toNat).toNat
      if c % 16 + 256 * bits c 8 1 ≠ c then e.illegal 0x01
      else
        match e.checkAll .read (some e.p.mask) [{ lane := 0, addr := (e.v.spair f.sa.toNat).toNat, size := 128, align := 128 }] with
        | .error r => r
        | .ok ps =>
          match ps with
          | [] => e.illegal 0x01
          | (a, p) :: _ =>
            let q := e.readAll e.s true false [(a, p)]
            let b := (e.s.l1FlushAll (clusterOf (coreOf e.gid)) (p.lines 128)).readAt p 128
            let s1 := if bit c 8 then q.1.eraseKey e.g.part (c % 16) else q.1
            let r := s1.loadKey e.g.part (c % 16) b
            .ok ((r.2.synced e.gid).modGroup e.gid fun g => g.setSreg f.sd.toNat r.1)) s

/-- The half-cluster islands of a die are 0 to 23 (R408). -/
def halfCluster (n : Nat) : Bool := n % 32 < 24

/-- The cluster of a half-cluster island. -/
def islandCluster (n : Nat) : Nat := 12 * (n / 32) + n % 32 / 2

/-- Whether an island is wholly a partition's (R408). -/
def Part.ownsIsland (x : Part) (n : Nat) : Bool :=
  if halfCluster n then x.clust.getLsbD (islandCluster n)
  else x.region.getLsbD (16 * (n / 32) + 2 * (n % 32 - 24)) && x.region.getLsbD (16 * (n / 32) + 2 * (n % 32 - 24) + 1)

/-- Whether an island accepts a point (R408). -/
def pointAccepted (n p : Nat) : Bool := p = 0 || p = 6 || (halfCluster n && (p < 4 || p = 7))

/-- Whether a group stands on an island (R408). -/
def State.islandUsed (s : State) (n : Nat) : Bool := s.groups.any fun e => islandOfCore (coreOf e.1) == n

/-- An island replaced. -/
def State.setIsland (s : State) (n : Nat) (x : Island) : State := { s with pkg := { s.pkg with islands := smapInsert s.pkg.islands n x } }

/-- THROT (R380, R408): 1 while an island runs below its REQ for power or heat, and cleared when every POINT equals its REQ. -/
def State.settleThrot (s : State) : State :=
  let off := s.pkg.islands.any fun e => e.2.point != e.2.req
  let low := s.pkg.islands.any fun e => e.2.req < e.2.point && e.2.point == e.2.throttle
  { s with pkg := { s.pkg with throt := low || (s.pkg.throt && off) } }

/-- `halt` (R408). -/
def execHalt (f : SysDA) (s : State) : Host.Outcome State Fault Refusal :=
  issue (fun _ _ => sysSpec (packSysDA 0xF1200000 f) f.st true [f.sa.toNat] [f.sd.toNat])
    (fun e =>
      let w := (e.v.sreg f.sa.toNat).toNat
      let n := w % 2 ^ 7
      let p := bits w 8 3
      if e.marker then e.upd (e.g.setSreg f.sd.toNat 0)
      else if n + 2 ^ 8 * p ≠ w then e.illegal 0x01
      else
        match e.part with
        | none => e.upd (e.g.setSreg f.sd.toNat 1)
        | some x =>
          if !x.ownsIsland n then e.upd (e.g.setSreg f.sd.toNat 1)
          else if !pointAccepted n p || (6 ≤ p && e.s.islandUsed n) then e.upd (e.g.setSreg f.sd.toNat 2)
          else .block (e.s.setIsland n { e.s.island n with req := p }) (.island n) true) s

/-- A core's scratchpad lost (R408). -/
def State.loseSpad (s : State) (core : Nat) : State :=
  let bs := (upFrom s.serial (2 ^ 19)).map Config.lostByte
  { s with serial := s.serial + 2 ^ 19 }.setSbytes (spadKey core 0) bs

/-- The eight cores of a half-cluster island (R408). -/
def islandCores (n : Nat) : List Nat := upFrom (16 * islandCluster n + 8 * (n % 2)) 8

/-- ISLAND_POINT_REACHED (R408): the island runs at the higher-numbered of REQ and its throttled point. A half-cluster that
turns off loses its scratchpads. -/
def execIslandPointReached (n : Nat) (s : State) : Host.Outcome State Fault Refusal :=
  let i := s.island n
  let p := max i.req i.throttle
  .next (if 128 ≤ n || i.point = p then s
    else
      let s1 := (s.setIsland n { i with point := p }).settleThrot
      if p = 7 then (islandCores n).foldl State.loseSpad s1 else s1)

/-- THROTTLE (R408): a half-cluster island is lowered by one point, to 3 at most. -/
def execThrottle (n : Nat) (s : State) : Host.Outcome State Fault Refusal :=
  let i := s.island n
  .next (if 128 ≤ n || !halfCluster n || 3 ≤ i.point then s
    else
      (s.setIsland n { i with throttle := i.point + 1, point := i.point + 1 }).settleThrot)

/-- THROTTLE_RECOVER (R408): a throttled island is raised by one point toward its REQ. -/
def execThrottleRecover (n : Nat) (s : State) : Host.Outcome State Fault Refusal :=
  let i := s.island n
  .next (if 128 ≤ n || i.throttle = 0 || i.point ≤ i.req then s
    else
      (s.setIsland n { i with throttle := i.throttle - 1, point := max i.req (i.throttle - 1) }).settleThrot)

/-- `sigset` (R399). -/
def execSigset (f : SysA) (s : State) : Host.Outcome State Fault Refusal :=
  issue (fun _ _ => sysSpec (packSysA 0xF1A00000 f) f.st true [f.sa.toNat] [])
    (fun e =>
      let v := e.v.sreg f.sa.toNat
      if 2 ≤ v.toNat then e.illegal 0x01
      else .ok (e.s.modPart e.g.part fun x => { x with sen := v.getLsbD 0 })) s

/-- `killg` (R395): the group that the locator names, or every group of its team. -/
def execKillg (f : SysDA) (s : State) : Host.Outcome State Fault Refusal :=
  issue (fun _ _ => sysSpec (packSysDA 0xF1C00000 f) f.st true [f.sa.toNat] [f.sd.toNat])
    (fun e =>
      let w := e.v.sreg f.sa.toNat
      let whole := w.getLsbD 0
      let kill := fun (t : State) (gid : Nat) =>
        let pc := ((t.group gid).bind fun g => g.issuing.map fun p => p.pc).getD 0
        { t with serial := t.serial + 2 }.killGroup gid 0x12 false pc (freeDword t.serial)
      if whereBad (w &&& ~~~1) then e.illegal 0x01
      else
        match e.s.located e.g.part (w &&& ~~~1) with
        | none => e.upd (e.g.setSreg f.sd.toNat 1)
        | some (gid, g) =>
          let mine := gid = e.gid || (whole && g.team.isSome && g.team = e.g.team)
          if mine then e.upd (e.g.setSreg f.sd.toNat 2)
          else
            let t := if whole && g.team.isSome then
                (e.s.groups.filter fun q => q.2.team == g.team).foldl (fun t q => kill t q.1) e.s
              else kill e.s gid
            .ok (t.modGroup e.gid fun h => h.setSreg f.sd.toNat 0)) s

end Sys2Proof.Machine
end

