-- ==== Sys2Proof/Machine/Package.lean ====
section
/-! DEFINITION. The package: reset and bring-up (R406, R411), retired units (R407), uncorrectable errors (R396), checkpoints
(R409, R410), the partition table (R400, R401), expander windows (R446), attestation (R404, R405) and Ethernet (R412). -/
namespace Sys2Proof.Machine

/-- The package-wide registers changed. -/
def State.modPkg (s : State) (f : Pkg → Pkg) : State := { s with pkg := f s.pkg }

/-- POWER_GOOD (R406, R411). -/
def execPowerGood (s : State) : Host.Outcome State Fault Refusal := .next (s.modPkg fun k => { k with powered := true })

/-- Memory that a package reset keeps: the safe-tier region (R409), expanders and host memory. -/
def keptAtReset (pa : Nat) : Bool := safeTier pa || 0x1000000000000 ≤ pa

/-- PACKAGE_RESET (R409, R411, R413): the state of reset, with the memory that is kept. The package's number, power and
key remain, and so do the free values already used. -/
def execPackageReset (s : State) : Host.Outcome State Fault Refusal :=
  let k := { Pkg.reset with
    number := s.pkg.number, powered := s.pkg.powered, lostUnits := s.pkg.lostUnits, bootKey := s.pkg.bootKey,
    flash := s.pkg.flash }
  .next { State.reset with
    tick := s.tick, serial := s.serial, nextId := s.nextId, inbox := s.inbox, pkg := k,
    mem := s.mem.filter fun c => keptAtReset c.1, poison := s.poison.filter fun e => keptAtReset (128 * e.1) }

/-- The root of trust runs (R406). -/
def Pkg.rot (k : Pkg) : Bool := k.readyX.getLsbD 3

/-- Whether the root of trust accepts an image (R22, R406): the ECDSA signature `(r, v)` verifies, and it is its own
firmware, image 1, or a further image that it verifies while it runs. -/
def Pkg.accepts (k : Pkg) (index : Nat) (image : List Byte) (r v : Nat) : Bool :=
  ecdsaVerify k.bootKey image (r, v) && (index = 1 || (k.rot && (index = 2 || index = 3)))

/-- FIRMWARE_VERIFY (R22, R405, R406): the root of trust takes the next firmware image; its own, verified, makes it run, and
what it has verified it measures. -/
def execFirmwareVerify (s : State) : Host.Outcome State Fault Refusal :=
  .next (match s.pkg.flash[s.pkg.flashAt]? with
    | some (index, image, r, v) =>
      if s.pkg.powered then
        s.modPkg fun k =>
          let k' := { k with flashAt := k.flashAt + 1 }
          if k.accepts index image r v then
            { k' with readyX := k.readyX ||| 8, measured := smapInsert k.measured index (digest image) }
          else k'
      else s
    | none => s)

/-- A bit of a register written. -/
def putBit {n : Nat} (r : BitVec n) (i : Nat) (b : Bool) : BitVec n :=
  if b then r ||| BitVec.twoPow n i else r &&& ~~~(BitVec.twoPow n i)

/-- The READY bit of a unit (R379, R380). -/
def Pkg.ready (k : Pkg) : PkgUnit → Bool
  | .cluster n => k.readyC.getLsbD n
  | .sliceGroup n => k.readyS.getLsbD n
  | .stack n => n < 16 && k.readyM.getLsbD n
  | .plane n => n < 8 && k.readyM.getLsbD (16 + n)
  | .eth n => n < 8 && k.readyM.getLsbD (24 + n)
  | .dlink n => n < 14 && k.readyX.getLsbD (4 + n)
  | .rot => k.rot
  | .tier n => n < 2 && k.readyX.getLsbD (1 + n)
  | .hostLink => k.readyX.getLsbD 0

/-- The READY bit of a unit written; a number beyond the units of its kind names none. -/
def Pkg.setReady (k : Pkg) (b : Bool) : PkgUnit → Pkg
  | .cluster n => { k with readyC := putBit k.readyC n b }
  | .sliceGroup n => { k with readyS := putBit k.readyS n b }
  | .stack n => if n < 16 then { k with readyM := putBit k.readyM n b } else k
  | .plane n => if n < 8 then { k with readyM := putBit k.readyM (16 + n) b } else k
  | .eth n => if n < 8 then { k with readyM := putBit k.readyM (24 + n) b } else k
  | .dlink n => if n < 14 then { k with readyX := putBit k.readyX (4 + n) b } else k
  | .rot => { k with readyX := putBit k.readyX 3 b }
  | .tier n => if n < 2 then { k with readyX := putBit k.readyX (1 + n) b } else k
  | .hostLink => { k with readyX := putBit k.readyX 0 b }

/-- The pod number is given to the package when the first plane of its fabric is usable (R9); it is free. -/
def State.numberPod (s : State) : PkgUnit → State
  | .plane n =>
    if n < 8 && !s.pkg.numbered then
      { s.fresh with pkg := { s.pkg with number := Config.podNumber s.serial % 1024, numbered := true } }
    else s
  | _ => s

/-- UNIT_READY (R9, R406): a function has passed its training or test; the root of trust runs before any other. -/
def execUnitReady (u : PkgUnit) (s : State) : Host.Outcome State Fault Refusal :=
  .next (if s.pkg.powered && s.pkg.rot then (s.numberPod u).modPkg fun k => k.setReady true u else s)

/-- The groups of a cluster are killed with cause 0x10 (R407). -/
def State.clusterDies (s : State) (c : Nat) : State :=
  (s.groups.filter fun e => clusterOf (coreOf e.1) == c).foldl (fun (t : State) e =>
    { t with serial := t.serial + 2 }.killGroup e.1 0x10 false ((e.2.issuing.map fun (p : Split) => p.pc).getD 0) (freeDword t.serial)) s

/-- The lines of a retired slice group or stack become poisoned (R407). -/
def State.unitLost (s : State) (u : PkgUnit) : State :=
  { s.modPkg fun k => { k with lostUnits := if k.lostUnits.contains u then k.lostUnits else u :: k.lostUnits } with
    poison := s.poison.filter fun e => !unitHolds u e.1 }

/-- What the retirement of a unit does beyond its READY bit (R318, R407); a die link's changes timing only. -/
def State.unitGone (s : State) : PkgUnit → State
  | .cluster n => s.clusterDies n
  | .sliceGroup n => s.unitLost (.sliceGroup n)
  | .stack n => s.unitLost (.stack n)
  | .plane n => s.planeDies 1024 n
  | .eth _ => s
  | .dlink _ => s
  | .rot => s
  | .tier _ => s
  | .hostLink => s

/-- UNIT_RETIRE (R407). ALERT_N is asserted while REPLACE or THROT is 1. -/
def execUnitRetire (u : PkgUnit) (s : State) : Host.Outcome State Fault Refusal :=
  .next (if s.pkg.ready u then
      (s.modPkg fun k => { k.setReady false u with replace := true, retired := min 255 (k.retired + 1) }).unitGone u
    else s)

/-- CORRECTED_ERROR (R380, R396). -/
def execCorrectedError (s : State) : Host.Outcome State Fault Refusal := .next (s.modPkg fun k => { k with ce := min 255 (k.ce + 1) })

/-- A group's data poisoned where it is held (R396). -/
def Group.poison (g : Group) (held : Bool) (b : BadLoc) : Group :=
  if held && !g.bad.contains b then { g with bad := b :: g.bad } else g

/-- UNCORRECTABLE_ERROR (R396): data is poisoned where it is held. -/
def execUncorrectableError (p : PoisonLoc) (s : State) : Host.Outcome State Fault Refusal :=
  .next (match p with
    | .line pa => { s with poison := s.setPoison (pa / 128) (BitVec.allOnes 128) }
    | .spad core off =>
      if core < 768 && off < 2 ^ 19 then
        { s with spadPoison := smapPut 0 s.spadPoison (spadKey core off / 16) (BitVec.allOnes 16) }
      else s
    | .vreg gid r => s.modGroup gid fun g => g.poison (r < g.vAlloc) (.reg (vName r) (maskBelow g.width))
    | .sreg gid r => s.modGroup gid fun g => g.poison (r < g.sAlloc || r = 62) (.reg (sName r) (BitVec.allOnes 64))
    | .pred gid r => s.modGroup gid fun g => g.poison (r < 7) (.reg (pName r) (BitVec.allOnes 64))
    | .tile gid t row => s.modGroup gid fun g => g.poison (t < g.tAlloc && row < 16) (.tile t row)
    | .acc gid a res row => s.modGroup gid fun g => g.poison (a < g.aAlloc && row < 16) (.acc a res row))

/-- The second-tier address of a checkpointed byte, less its own (R409). -/
def safeBase : Nat := 0x060000000000

/-- Whether an address is HBM of a partition (R345, R409). -/
def Part.hbm (x : Part) (pa : Nat) : Bool := pa < 2 ^ 40 && x.owns pa

/-- Whether an address is a partition's part of the safe-tier region (R409). -/
def Part.safe (x : Part) (pa : Nat) : Bool := safeTier pa && x.owns pa

/-- The memory with every byte of a set replaced by the one that the same offset from another set gives: `out` is the set
written, `src` the set read, and `move` takes an address of the second to the first. -/
def copyCells (mem : List Host.Cell) (out src : Nat → Bool) (move : Nat → Nat) : List Host.Cell :=
  (mem.filter fun c => src c.1).foldl (fun m c => smapPut memDefault m (move c.1) c.2) (mem.filter fun c => !out c.1)

/-- The poison table after the same copy: a poisoned line stays poisoned where it is copied to (R410). -/
def State.copyPoison (s : State) (out src : Nat → Bool) (move : Nat → Nat) : List (Nat × BitVec 128) :=
  (s.poison.filter fun e => src (128 * e.1)).foldl
    (fun m e => smapPut 0 m (move (128 * e.1) / 128) (s.poisonMask e.1 ^^^ s.poisonBase (move (128 * e.1) / 128)))
    (s.poison.filter fun e => !out (128 * e.1))

/-- A partition's checkpoint stage replaced. -/
def State.ckptStage (s : State) (part stage : Nat) (go : Bool) : State :=
  s.modPart part fun x => { x with ckpt := { x.ckpt with stage := stage, go := go } }

/-- CKPT_N_FALL (R409, R411): every partition is checkpointed with QUIESCE. -/
def execCkptNFall (s : State) : Host.Outcome State Fault Refusal :=
  .next { s with parts := s.parts.map fun (e : Nat × Part) => (e.1, if e.2.live then e.2.writeCkpt 0xC0000000 else e.2) }

/-- Every dirty byte of a partition's HBM lines is merged at its home (R409). -/
def State.drainDirty (s : State) (x : Part) : State :=
  (s.dir.filter fun e => x.hbm (128 * e.1)).foldl (fun (t : State) e =>
    ((e.2.arriving ++ e.2.l1).map (·.1)).eraseDups.foldl (fun (u : State) c => u.l1Flush c e.1) t) s

/-- CKPT_CHECKPOINT (R409): dirty bytes are drained and the partition's HBM copied, as one step. -/
def execCkptCheckpoint (part : Nat) (s : State) : Host.Outcome State Fault Refusal :=
  .next (match s.part part with
    | none => s
    | some x =>
      if !x.ckpt.go || x.ckpt.restore || x.ckpt.stage ≠ 1 then s
      else
        let move := fun (a : Nat) => a + safeBase
        let s0 := s.drainDirty x
        { s0 with mem := copyCells s0.mem x.safe x.hbm move, poison := s0.copyPoison x.safe x.hbm move }.ckptStage part 2 true)

/-- Whether a restore of a partition is refused (R410): a team is Queued, Resident or Pre-empted, or a grid incomplete. -/
def State.restoreBarred (s : State) (part : Nat) : Bool :=
  s.teams.any (fun e => e.2.part == part && (e.2.state == .queued || e.2.state == .resident || e.2.state == .preempted))
    || s.grids.any fun e => e.2.part == part && !e.2.complete

/-- CKPT_RESTORE (R410): cached copies and translations are removed once no access uses them, and the checkpoint is copied
back, as one step. -/
def execCkptRestore (part : Nat) (s : State) : Host.Outcome State Fault Refusal :=
  .next (match s.part part with
    | none => s
    | some x =>
      if !x.ckpt.go || !x.ckpt.restore || x.ckpt.stage ≠ 1 then s
      else if s.restoreBarred part then s.ckptStage part 4 false
      else if s.dir.any fun e => x.hbm (128 * e.1) && s.transHeld e.1 && s.walkInUse 0 e.1 then s
      else
        let move := fun (a : Nat) => a - safeBase
        let s0 := s.dropTranslations part
        let s1 : State :=
          { s0 with dir := s0.dir.filter fun e => !x.hbm (128 * e.1), hist := s0.hist.filter fun h => !x.hbm h.key,
                    mem := copyCells s0.mem x.hbm x.safe move, poison := s0.copyPoison x.hbm x.safe move }
        (s1.pages.foldl (fun (t : State) r => t.checkReplicas (r.2.entry.getD 0 / 128)) s1).ckptStage part 2 true)

/-- Whether a partition's checkpoint or restore reads an uncorrectable error (R409, R410). -/
def State.ckptBad (s : State) (x : Part) : Bool :=
  s.poison.any (fun e => s.poisonMask e.1 != 0 && (if x.ckpt.restore then x.safe (128 * e.1) else x.hbm (128 * e.1)))
    || s.pkg.lostUnits.any fun u => match u with
      | .sliceGroup n => x.region.getLsbD n
      | .stack n => !x.ckpt.restore && bits x.region.toNat (16 * (n / 4)) 16 ≠ 0
      | _ => false

/-- CKPT_COMPLETE (R409, R410): STATE becomes 3, or 4 after an uncorrectable error, and ALERT_N pulses. -/
def execCkptComplete (part : Nat) (err : Bool) (s : State) : Host.Outcome State Fault Refusal :=
  .next (match s.part part with
    | none => s
    | some x =>
      if !x.ckpt.go || x.ckpt.stage ≠ 2 then s
      else
        (s.ckptStage part (if err || s.ckptBad x then 4 else 3) false).modPkg fun k => { k with alertPulses := k.alertPulses + 1 })

/-- Whether two ranges of stream slots share one. -/
def rangesMeet (a n b m : Nat) : Bool := a < b + m && b < a + n && n ≠ 0 && m ≠ 0

/-- Whether a row shares nothing with a live partition, and its non-zero domain is its own (R400). -/
def rowApart (r : PartRow) (x : Part) : Bool :=
  r.clust &&& x.clust = 0 && r.region &&& x.region = 0 && r.eth &&& x.eth = 0
    && r.slots.all (fun a => x.slots.all fun b => a.2 ≠ b.2)
    && !rangesMeet r.streamBase r.streamCount x.streamBase x.streamCount && (r.domain = 0 || r.domain ≠ x.domain)

/-- Whether the slots of a row are in rising order. -/
def risingSlots (l : List (Nat × Nat)) : Bool := (l.zip (l.drop 1)).all fun p => p.1.1 < p.2.1

/-- Whether a row's own fields are those of a partition (R134, R382, R401, R402). -/
def rowLegal (r : PartRow) : Bool :=
  r.kitty ≠ 0 && r.clust.getLsbD (clusterOf r.houseCore) && r.houseCore < 768 && r.houseCore % 16 = 15
    && r.slots.all (fun a => 1 ≤ a.1 && a.1 < 16 && a.2 < 64) && risingSlots r.slots && r.streamBase + r.streamCount ≤ 98304
/-- The clusters that a mask names. -/
def clustersOf (m : BitVec 48) : List Nat := (List.range 48).filter m.getLsbD

/-- The home regions that a mask names. -/
def regionsOf (m : BitVec 64) : List Nat := (List.range 64).filter m.getLsbD

/-- Whether a row's house program stands on its lowest-numbered cluster, as at set-up (R134). -/
def houseLowest (r : PartRow) : Bool := (List.range (clusterOf r.houseCore)).all fun c => !r.clust.getLsbD c

/-- Whether a row can be changed as asked (R400, R401): the new row is legal and apart from every other one, and no group or team
stands on what is lost (log entry 83). -/
def State.rowAllowed (s : State) (part : Nat) (r : PartRow) : Bool :=
  let others := s.parts.all fun e => e.1 == part || !e.2.live || rowApart r e.2
  match s.part part with
  | some x =>
    if x.live && r.live then
      rowLegal r && others
        && s.groups.all fun e => e.2.part != part || r.clust.getLsbD (clusterOf (coreOf e.1))
    else if x.live then s.teams.all (fun e => e.2.part != part || e.2.state == .retired) && s.grids.all fun e => e.2.part != part || e.2.complete
    else r.live && rowLegal r && houseLowest r && others
  | none => part < 16 && r.live && rowLegal r && houseLowest r && others

/-- Every byte of a home region's memory zeroed, in the package, in expanders and in the host, and its cached copies dropped
(R400). Memory lists no 0 byte (log entry 1), so the listed bytes go. -/
def State.eraseRegion (s : State) (n : Nat) : State :=
  let out := fun (pa : Nat) => homeRegion pa != n
  let kept := s.poison.filter fun e => out (128 * e.1)
  { s with mem := s.mem.filter fun c => out c.1,
           poison := if s.pkg.lostUnits = [] then kept
             else ((upFrom 0 (2 ^ 45)).filter fun l => !out (128 * l)).foldl (fun m l => smapPut 0 m l (s.poisonBase l)) kept,
           dir := s.dir.filter fun e => out (128 * e.1), hist := s.hist.filter fun h => out h.key,
           pages := s.pages.filter fun e => out (2 ^ 16 * e.1) }

/-- The scratchpads of a cluster zeroed (R400). -/
def State.eraseCluster (s : State) (c : Nat) : State :=
  let out := fun (k : Nat) => clusterOf (k / 2 ^ 19) != c
  { s with spad := s.spad.filter fun e => out e.1, spadPoison := s.spadPoison.filter fun e => out (16 * e.1),
           hands := s.hands.filter fun e => clusterOf (e.1 / 16) != c }

/-- What a partition loses by a row is erased (R400): scratchpads, memory with its cached copies, key slots, and the lost
frames of its pools. -/
def State.eraseLost (s : State) (part : Nat) (x : Part) (r : PartRow) : State :=
  let keepR := if r.live then r.region else 0
  let keepC := if r.live then r.clust else 0
  let s0 := if x.region &&& ~~~keepR = 0 then s else s.dropTranslations part
  let s1 := (clustersOf (x.clust &&& ~~~keepC)).foldl State.eraseCluster s0
  let s2 := (regionsOf (x.region &&& ~~~keepR)).foldl State.eraseRegion s1
  let gone := ((x.slots.filter fun a => !(r.live && r.slots.contains a)).map (·.1))
  let s3 := gone.foldl (fun (t : State) k => t.eraseKey part k) s2
  s3.modPart part fun y =>
    { y with pools := (y.pools.map fun (p : Nat × List Nat) => (p.1, p.2.filter fun f => keepR.getLsbD (homeRegion f))).filter fun p => p.2 ≠ [] }

/-- A partition's grants from its row (R401). -/
def Part.granted (x : Part) (r : PartRow) : Part :=
  { x with live := true, clust := r.clust, region := r.region, slots := r.slots, eth := r.eth, ethAddr := r.ethAddr,
           streamBase := r.streamBase, streamCount := r.streamCount, domain := r.domain, kitty := r.kitty, houseCore := r.houseCore }

/-- A partition set up, with its house program's group (R134, R379, R400), whose text is measured (R405). -/
def State.newPart (s : State) (part changes : Nat) (r : PartRow) : State :=
  let x := { Part.fresh r with changes := BitVec.ofNat 8 changes, halved := s.clock }
  let text := s.bytes (bits r.houseText.toNat 0 52) (Config.houseLength part)
  ((s.setPart part x).setGroup (128 * r.houseCore) { houseGroup part x.ovdef r.houseText with lastIssue := s.tick, syncAt := s.tick }).modPkg
    fun k => { k with measured := smapInsert k.measured (5 + part) (digest text) }

/-- A partition that is no more: its house program's group and everything of its engines go. -/
def State.endPart (s : State) (part : Nat) : State :=
  let s1 := (s.groups.filter fun e => e.2.part == part).foldl (fun (t : State) e => t.removeGroup e.1 e.2 .killed) s
  let s2 := s1.dropTranslations part
  { s2 with teams := s2.teams.filter fun e => e.2.part != part, grids := s2.grids.filter fun e => e.2.part != part,
            frozen := s2.frozen.filter fun e => e.2.part != part, deliveries := s2.deliveries.filter fun e => e.2.part != part,
            arrivals := s2.arrivals.filter fun e => e.2.part != part, pages := s2.pages.filter fun e => e.2.part != part,
            fabric := s2.fabric.filter fun e => e.2.part != part, foreign := s2.foreign.filter fun e => e.2.part != part,
            locks := s2.locks.filter fun e => e.2.space != .virt part }

/-- PARTCFG_CHANGE (R400, R401): the package manager changes a row, once what changes hands is erased. -/
def execPartcfgChange (part : Nat) (row : PartRow) (s : State) : Host.Outcome State Fault Refusal :=
  .next (if !s.rowAllowed part row then s
    else
      match s.part part with
      | none => s.newPart part 1 row
      | some x =>
        let n := x.changes.toNat + 1
        if !x.live then s.newPart part n row
        else if row.live then (s.eraseLost part x row).modPart part fun y => { y.granted row with changes := BitVec.ofNat 8 n }
        else
          (((s.endPart part).eraseLost part x row)).modPart part fun y =>
            { y with live := false, clust := 0, region := 0, slots := [], eth := 0, changes := BitVec.ofNat 8 n })

/-- Whether an expander window entry can hold a base and a size, in bytes (R446): bits 63:52 and 28:0 of both are reserved. -/
def windowLegal (base size : Nat) : Bool :=
  base % 2 ^ 29 = 0 && size % 2 ^ 29 = 0 && base < 2 ^ 52 && size < 2 ^ 52 && (size = 0 || (0x1000000000000 ≤ base && base + size ≤ 0x8000000000000))

/-- Whether a live partition owns a home region of a 512 MiB part of memory. -/
def State.ownedUnit (s : State) (u : Nat) : Bool := s.parts.any fun e => e.2.live && e.2.owns (2 ^ 29 * u)

/-- EXPANDER_WINDOW_CHANGE (R446): an entry rewritten, when it lies in the expander range, overlaps no other and takes no memory
from a home region that a partition owns. -/
def execExpanderWindowChange (n base size : Nat) (s : State) : Host.Outcome State Fault Refusal :=
  let old := s.window n
  let clash := s.pkg.windows.any fun w => w.1 != n && rangesMeet base size w.2.1 w.2.2
  let lost := (upFrom (old.1 / 2 ^ 29) (old.2 / 2 ^ 29)).any fun u =>
    !(base ≤ 2 ^ 29 * u && 2 ^ 29 * u < base + size) && s.ownedUnit u
  .next (if 8 ≤ n || !windowLegal base size || clash || lost then s
    else s.modPkg fun k => { k with windows := smapInsert k.windows n (base, size) })

/-- The fields of a row of the partition table (R401). -/
def Part.rowFields (x : Part) : List Nat :=
  if !x.live then []
  else [1, x.clust.toNat, x.region.toNat, x.eth.toNat, x.streamBase, x.streamCount, x.domain.toNat, x.kitty.toNat, x.houseCore]
    ++ x.slots.flatMap (fun a => [a.1, a.2]) ++ x.ethAddr.flatMap fun a => [a.1, a.2.1, a.2.2]

/-- Measurement 4 (R401, R405): the digest of all sixteen rows of the partition table, in order. -/
def State.tableDigest (s : State) : List Byte :=
  digest (Config.tableBytes ((List.range 16).map fun p => ((s.part p).map Part.rowFields).getD []))

/-- The measurements of the root of trust by index (R405). -/
def State.measurements (s : State) : List (Nat × List Byte) := smapInsert s.pkg.measured 4 s.tableDigest

/-- The answer of the root of trust to a request (R22, R405), signed under its identity key. -/
def State.spdmAnswer (s : State) (session : Nat) (request : List Byte) : SpdmAnswer :=
  { session := session, request := request, measured := s.measurements,
    sig := ecdsaSign Config.identityKey (Config.signNonce s.serial) (Config.spdmMessage request s.measurements) }

/-- SPDM_REQUEST (R405): the root of trust answers a request; the first one of a session opens it. -/
def execSpdmRequest (session : Nat) (request : List Byte) (s : State) : Host.Outcome State Fault Refusal :=
  .next (if !s.pkg.rot then s
    else s.fresh.modPkg fun k =>
      { k with spdmAnswers := k.spdmAnswers ++ [s.spdmAnswer session request],
               sessions := if (tabGet k.sessions session).isSome then k.sessions
                 else smapInsert k.sessions session { part := none, key := [], lastSeq := none } })

/-- SPDM_BIND (R404, R405): a session is bound to a partition, with the wrap key of its responder application secret. -/
def execSpdmBind (session part : Nat) (secret : List Byte) (s : State) : Host.Outcome State Fault Refusal :=
  .next (if !s.pkg.rot || 16 ≤ part then s
    else s.modPkg fun k =>
      let last := (tabGet k.sessions session).bind (·.lastSeq)
      { k with sessions := smapInsert k.sessions session { part := some part, key := wrapKey secret, lastSeq := last } })

/-- One bit of the check sequence of a frame. -/
def fcsBit (r : Nat) : Nat := if r % 2 = 1 then (r / 2) ^^^ 0xEDB88320 else r / 2

/-- The check sequence of a frame (R412), as Ethernet defines it. -/
def frameFcs (bs : List Byte) : Nat :=
  (bs.foldl (fun r b => fcsBit (fcsBit (fcsBit (fcsBit (fcsBit (fcsBit (fcsBit (fcsBit (r ^^^ b.toNat))))))))) 0xFFFFFFFF) ^^^ 0xFFFFFFFF

/-- The header of a queue of R294's form, as read. -/
structure QueueHeader where
  base : Nat
  size : Nat
  write : Nat
  read : Nat
  pot : Nat
  seat : DWord
deriving DecidableEq, Repr

/-- An Ethernet port as an agent of its partition (R412). -/
def portAgent (part : Nat) : Agent := { part := part, priv := true, core := 0, team := none }

/-- The place of bytes of a port's queue. -/
def State.portPlace (s : State) (part addr n : Nat) (acc : Acc) : Option Place :=
  match checkAddr s (portAgent part) (addr % 2 ^ 64) n n acc with
  | .ok p => (match p with
      | .phys _ _ _ _ _ => some p
      | .spad _ => none)
  | _ => none

/-- The header at an address of a partition (R294, R412). -/
def State.queueHeader (s : State) (part addr : Nat) : Option QueueHeader :=
  (s.portPlace part addr 32 .read).map fun p =>
    let b := s.readAt p 32
    let at_ := fun o n => ofBytes ((b.drop o).take n)
    { base := at_ 0 8, size := at_ 8 4, write := at_ 0x0C 4, read := at_ 0x10 4, pot := at_ 0x14 4, seat := BitVec.ofNat 64 (at_ 0x18 8) }

/-- A 16-byte unit of a queue at an offset (R412). -/
def QueueHeader.unit (h : QueueHeader) (off : Nat) : Nat := h.base + off % h.size

/-- `n` 16-byte units of a queue read from an offset. -/
def State.readUnits (s : State) (part : Nat) (h : QueueHeader) : Nat → Nat → Option (List Byte)
  | 0, _ => some []
  | n + 1, off =>
    match s.portPlace part (h.unit off) 16 .read, s.readUnits part h n (off + 16) with
    | some p, some r => some (s.readAt p 16 ++ r)
    | _, _ => none

/-- What reading the units leaves: their translations installed (R353). -/
def State.unitsRead (s : State) (part : Nat) (h : QueueHeader) : Nat → Nat → State
  | 0, _ => s
  | n + 1, off =>
    match s.portPlace part (h.unit off) 16 .read with
    | some p => (s.installRemote part p).unitsRead part h n (off + 16)
    | none => s

/-- 16-byte units of a queue written from an offset; every place is checked before any is written. -/
def State.writeUnits (s : State) (part : Nat) (h : QueueHeader) : Nat → Nat → List Byte → Option State
  | 0, _, _ => some s
  | n + 1, off, bs =>
    match s.portPlace part (h.unit off) 16 .write, s.writeUnits part h n (off + 16) (bs.drop 16) with
    | some p, some t => some ((t.installRemote part p).strongPut p (bs.take 16))
    | _, _ => none

/-- A frame with its 16-byte prefix and its padding (R412). -/
def framed (bs : List Byte) : List Byte :=
  toBytes 2 bs.length ++ toBytes 14 0 ++ bs ++ toBytes ((16 - bs.length % 16) % 16) 0

/-- The partition that a port is granted to, while the port is usable (R380, R412). -/
def State.portOwner (s : State) (port : Nat) : Option (Nat × Part) :=
  if s.pkg.ready (.eth port) then s.parts.find? fun e => e.2.live && e.2.eth.getLsbD port else none

/-- ETH_TRANSMIT (R412): the next frame of a port's transmit queue is sent with its check sequence, and READ advances. -/
def execEthTransmit (port : Nat) (s : State) : Host.Outcome State Fault Refusal :=
  .next (match s.portOwner port with
    | none => s
    | some (part, x) =>
      let hdr := (x.ethTx.getD port 0).toNat
      match if hdr = 0 then none else s.queueHeader part hdr with
      | none => s
      | some h =>
        let ready := (h.write + 2 ^ 32 - h.read) % 2 ^ 32
        if !queueOk h.base h.size 0 16 || ready < 16 then s
        else
          match s.readUnits part h 1 h.read with
          | none => s
          | some pre =>
            let len := ofBytes (pre.take 2)
            let n := (len + 15) / 16
            if ready < 16 * (n + 1) then s
            else
              match s.readUnits part h n (h.read + 16), s.portPlace part (hdr + 0x10) 4 .write with
              | some bs, some p =>
                let frame := bs.take len
                (((s.unitsRead part h (n + 1) h.read).installRemote part p).strongPut p (toBytes 4 (h.read + 16 * (n + 1)))).modPkg fun k =>
                  { k with ethSent := k.ethSent ++ [(port, frame ++ toBytes 4 (frameFcs frame))] }
              | _, _ => s)

/-- The credit of a queue's consumer (R294, R340, R412). -/
def State.creditQueue (s : State) (part : Nat) (h : QueueHeader) (n : Nat) : State :=
  let a : Arrival := { seat := h.seat, off := 0, data := [], pot := some h.pot, credit := n }
  if seatPkg h.seat ≠ s.pkg.number then s
  else
    match s.applyArrival part a false with
    | .applied t => t
    | .waits => s.holdArrival part a false none
    | .stale => s
    | .beyond => s

/-- ETH_RECEIVE (R412): a frame for the partition is written to the receive queue, WRITE advances and the pot is credited; one
with a bad check sequence, too long, for nobody, or without room is dropped. -/
def execEthReceive (port : Nat) (f : EthFrame) (s : State) : Host.Outcome State Fault Refusal :=
  .next (match s.portOwner port with
    | none => s
    | some (part, x) =>
      let hdr := (x.ethRx.getD port 0).toNat
      if !f.fcsOk || 9216 < f.data.length || !x.ethAddr.contains (port, f.dest, f.vlan) || hdr = 0 then s
      else
        match s.queueHeader part hdr with
        | none => s
        | some h =>
          let bs := framed f.data
          if !queueOk h.base h.size h.pot bs.length || h.size < (h.write + bs.length + 2 ^ 32 - h.read) % 2 ^ 32 then s
          else
            match s.writeUnits part h (bs.length / 16) h.write bs, s.portPlace part (hdr + 0x0C) 4 .write with
            | some t, some p => ((t.installRemote part p).strongPut p (toBytes 4 (h.write + bs.length))).creditQueue part h bs.length
            | _, _ => s)

end Sys2Proof.Machine
end

