-- ==== Sys2Proof/Machine/Sfu.lean ====
section
/-! DEFINITION. The special functions: the tables of R218 computed in fixed point, the procedures of R219 to R222, and
the instructions of R215. A real number is held as an integer in units of 2^-96; every table entry is irrational or
far from a tie at that precision, so its rounding is exact. -/
namespace Sys2Proof.Machine

/-- 1 in fixed point. -/
def fxOne : Int := 2 ^ 96

/-- A fixed-point product. -/
def fxMul (a b : Int) : Int := a * b / fxOne

/-- A fixed-point quotient. -/
def fxDiv (a b : Int) : Int := a * fxOne / b

/-- The nearest integer to a fixed-point number times 2^`k` (RNE_int of R218). -/
def fxNearest (x : Int) (k : Nat) : Int := (x * 2 ^ (k + 1) / fxOne + 1) / 2

/-- The integer square root of a number below 4^`n`, bit by bit, above the bits in `r`. -/
def isqrtFrom (x : Nat) : Nat → Nat → Nat
  | 0, r => r
  | n + 1, r => if (r + 2 ^ n) * (r + 2 ^ n) ≤ x then isqrtFrom x n (r + 2 ^ n) else isqrtFrom x n r

/-- The fixed-point square root of a number below 16. -/
def fxSqrt (x : Int) : Int := isqrtFrom (x * fxOne).toNat 99 0

/-- The series of e^x from its term `t` of index `k`. -/
def expSeries (x : Int) : Nat → Int → Nat → Int
  | 0, _, _ => 0
  | n + 1, t, k => t + expSeries x n (fxMul t x / k) (k + 1)

/-- e^x for 0 ≤ x < 1. -/
def fxExp (x : Int) : Int := expSeries x 40 fxOne 1

/-- The series of atanh z, or of atan z when `s` is −1, from the power `p` of index 2k + 1. -/
def atanSeries (s z2 : Int) : Nat → Int → Nat → Int
  | 0, _, _ => 0
  | n + 1, p, k => p / (2 * k + 1) + atanSeries s z2 n (s * fxMul p z2) (k + 1)

/-- ln x for 1 ≤ x ≤ 2. -/
def fxLn (x : Int) : Int :=
  let z := fxDiv (x - fxOne) (x + fxOne)
  2 * atanSeries 1 (fxMul z z) 40 z 0

/-- ln 2. -/
def fxLn2 : Int := fxLn (2 * fxOne)

/-- The arc tangent of 1/n. -/
def fxAtanInv (n : Int) : Int :=
  let z := fxOne / n
  atanSeries (-1) (fxMul z z) 40 z 0

/-- π/2, from Machin's formula. -/
def fxHalfPi : Int := (16 * fxAtanInv 5 - 4 * fxAtanInv 239) / 2

/-- The series of sin x (from t = x, k = 1) or cos x (from t = 1, k = 0). -/
def trigSeries (x2 : Int) : Nat → Int → Nat → Int
  | 0, _, _ => 0
  | n + 1, t, k => t + trigSeries x2 n (-(fxMul t x2 / ((k + 1) * (k + 2)))) (k + 2)

/-- sin x for 0 ≤ x < 2. -/
def fxSin (x : Int) : Int := trigSeries (fxMul x x) 20 x 1

/-- cos x for 0 ≤ x < 2. -/
def fxCos (x : Int) : Int := trigSeries (fxMul x x) 20 fxOne 0

/-- A number multiplied by itself, `n` times. -/
def fxSquares : Nat → Int → Int
  | 0, x => x
  | n + 1, x => fxSquares n (fxMul x x)

/-- tanh x for 0 < x < 16, as (1 − z)/(1 + z) with z = e^(−2x). -/
def fxTanh (x : Int) : Int :=
  let z := fxDiv fxOne (fxSquares 6 (fxExp (2 * x / 64)))
  fxDiv (fxOne - z) (fxOne + z)

/-- The functions g of R219; the last is tanh(2^e (1 + u)) / 2^e with e = `e12` − 12. -/
inductive GFun where
  | rcp | rsqrt (odd : Bool) | sqrt (odd : Bool) | exp2 | log2 | gs | gc
  | tanh (e12 : Nat)
deriving DecidableEq, Repr

/-- g, g′ and g″ at a centre of R218, in fixed point. -/
def GFun.at_ (fn : GFun) (m : Int) : Int × Int × Int :=
  match fn with
  | .rcp =>
    let r := fxDiv fxOne (fxOne + m)
    (r, -(fxMul r r), 2 * fxMul r (fxMul r r))
  | .rsqrt odd =>
    let c : Int := if odd then 2 else 1
    let h := c * (fxOne + m)
    let r := fxDiv fxOne (fxSqrt h)
    (r, -(c * fxDiv r h) / 2, 3 * c * c * fxDiv (fxDiv r h) h / 4)
  | .sqrt odd =>
    let c : Int := if odd then 2 else 1
    let h := c * (fxOne + m)
    let r := fxSqrt h
    (r, c * fxDiv r h / 2, -(c * c * fxDiv (fxDiv r h) h) / 4)
  | .exp2 =>
    let t := fxExp (fxMul m fxLn2)
    (t, fxMul fxLn2 t, fxMul fxLn2 (fxMul fxLn2 t))
  | .log2 =>
    let h := fxOne + m
    let d := fxDiv fxOne (fxMul h fxLn2)
    (fxDiv (fxLn h) fxLn2, d, -(fxDiv d h))
  | .gs =>
    let a := fxHalfPi
    let x := fxMul a m
    (fxSin x, fxMul a (fxCos x), -(fxMul a (fxMul a (fxSin x))))
  | .gc =>
    let a := fxHalfPi
    let x := fxMul a m
    (fxCos x, -(fxMul a (fxSin x)), -(fxMul a (fxMul a (fxCos x))))
  | .tanh e12 =>
    let t := fxTanh ((fxOne + m) * 2 ^ e12 / 2 ^ 12)
    let d := fxOne - fxMul t t
    (t * 2 ^ 12 / 2 ^ e12, d, -(2 * fxMul t d) * 2 ^ e12 / 2 ^ 12)

/-- Entry `i` of a table (R218). -/
def GFun.entry (fn : GFun) (i : Nat) : Int × Int × Int :=
  match fn.at_ (((2 * i + 1 : Nat) : Int) * 2 ^ 87) with
  | (g0, g1, g2) => (fxNearest g0 28, fxNearest g1 28, fxNearest g2 27)

/-- Y of the evaluator (R218): Eval(g, U) is Y × 2^-28. -/
def GFun.eval (fn : GFun) (u : Nat) : Int :=
  match fn.entry (u / 2 ^ 15) with
  | (c0, c1, c2) =>
    let d : Int := (u % 2 ^ 15 : Nat) - (2 ^ 14 : Int)
    c0 + c1 * d / 2 ^ 23 + c2 * (d * d) / 2 ^ 46

/-- g(0) in units of 2^-28, where R220 takes it instead of the table. -/
def GFun.zero : GFun → Option Int
  | .rcp => some (2 ^ 28)
  | .rsqrt false => some (2 ^ 28)
  | .sqrt false => some (2 ^ 28)
  | .exp2 => some (2 ^ 28)
  | .log2 => some 0
  | .gs => some 0
  | .gc => some (2 ^ 28)
  | _ => none

/-- v of R219 and R220 in units of 2^-28. -/
def GFun.v (fn : GFun) (u : Nat) : Int :=
  match u, fn.zero with
  | 0, some z => z
  | _, _ => fn.eval u

/-- What a procedure delivers before its rounding: an exact value, or an FP32 code with flags of its own. -/
inductive SVal where
  | exact (d : Dy)
  | code (c : Nat) (flags : FFlags)
deriving DecidableEq, Repr

/-- v × 2^(k − 28) with a sign. -/
def svScaled (neg : Bool) (v k : Int) : SVal := .exact { neg := neg != decide (v < 0), m := v.natAbs, e := k - 28 }

/-- A procedure's FP32 value, rounded once (R217 step 3). -/
def SVal.round : SVal → Nat
  | .exact d => (fp32.arith .rne false d).code
  | .code c _ => c

/-- E and U of a finite non-zero FP32 code (R219). -/
def sfuNorm (c : Nat) : Int × Nat :=
  let d := fp32.dy c
  let k := Nat.log2 d.m
  (d.e + k, if k ≤ 23 then d.m * 2 ^ (23 - k) - 2 ^ 23 else 0)

/-- RCP (R219). -/
def procRcp (c : Nat) : SVal :=
  match sfuNorm c with
  | (e, u) => svScaled (fp32.neg c) (GFun.rcp.v u) (-e)

/-- RSQRT (R219). -/
def procRsqrt (c : Nat) : SVal :=
  match sfuNorm c with
  | (e, u) => svScaled false ((GFun.rsqrt (e % 2 = 1)).v u) (-((e - e % 2) / 2))

/-- SQRT (R219). -/
def procSqrt (c : Nat) : SVal :=
  match sfuNorm c with
  | (e, u) => svScaled false ((GFun.sqrt (e % 2 = 1)).v u) ((e - e % 2) / 2)

/-- EXP2 (R219). -/
def procExp2 (c : Nat) : SVal :=
  let x := fp32.val c
  if x.cmp (fp32.val 0x43000000) ≠ -1 then .code 0x7F800000 0
  else if x.cmp (fp32.val 0xC3160000) = -1 then .code 0 (flagUF ||| flagNX)
  else
    let y := (fp32.dy c).scaled (-149)
    let n := y / 2 ^ 149
    svScaled false (GFun.exp2.v ((y - n * 2 ^ 149) / 2 ^ 126).toNat) n

/-- LOG2 (R219). -/
def procLog2 (c : Nat) : SVal :=
  match sfuNorm c with
  | (e, u) => svScaled false (e * 2 ^ 28 + GFun.log2.v u) 0

/-- The value of SINPI or COSPI that a quadrant gives (R219): the function and whether it is negated. -/
def trigQuad (sine : Bool) (j : Nat) : GFun × Bool :=
  match sine, j with
  | true, 0 => (.gs, false)
  | true, 1 => (.gc, false)
  | true, 2 => (.gs, true)
  | true, _ => (.gc, true)
  | false, 0 => (.gc, false)
  | false, 1 => (.gs, true)
  | false, 2 => (.gc, true)
  | false, _ => (.gs, false)

/-- SINPI and COSPI (R219). -/
def procTrig (sine : Bool) (c : Nat) : SVal :=
  let d := fp32.dy c
  let a := { d with neg := false : Dy }
  if sine && (subDy a { neg := false, m := 1, e := -12 }).neg then
    .exact { neg := d.neg, m := d.m * (fp32.dy 0x40490FDB).m, e := d.e + (fp32.dy 0x40490FDB).e }
  else
    let y := (2 * a.scaled (-149)).toNat
    let q := trigQuad sine (y / 2 ^ 149 % 4)
    let v := q.1.v (y % 2 ^ 149 / 2 ^ 126)
    if v = 0 then .code (fp32.code (sine && d.neg) 0) 0
    else svScaled (q.2 != (sine && d.neg)) v 0

/-- TANH (R219). -/
def procTanh (c : Nat) : SVal :=
  match sfuNorm c with
  | (e, u) =>
    if e < -12 then .code c 0
    else if 4 ≤ e then .code (fp32.code (fp32.neg c) 0x3F800000) 0
    else svScaled (fp32.neg c) ((GFun.tanh (e + 12).toNat).v u) e

/-- The special functions (R215). -/
inductive SfuFn where
  | rcp | rsqrt | sqrt | exp2 | log2 | sinpi | cospi | tanh | sigm | gelu | silu | softp
deriving DecidableEq, Repr

/-- The core procedure of a function; a composite one has its own sequence. -/
def SfuFn.core : SfuFn → Nat → SVal
  | .rcp => procRcp
  | .rsqrt => procRsqrt
  | .sqrt => procSqrt
  | .exp2 => procExp2
  | .log2 => procLog2
  | .sinpi => procTrig true
  | .cospi => procTrig false
  | _ => procTanh

/-- The results of R222 by the class of a source that has one: −∞, negative finite, −0, +0, +∞; none where the
procedure runs. -/
def SfuFn.special (fn : SfuFn) (c : Nat) : Option (Nat × FFlags) :=
  let nan : Nat × FFlags := (0x7FC00000, flagIV)
  let pick := fun (ni : Nat × FFlags) (nf : Option (Nat × FFlags)) (nz pz pi : Nat × FFlags) =>
    match fp32.val c with
    | .inf true => some ni
    | .inf false => some pi
    | .fin d => if d.m = 0 then some (if d.neg then nz else pz) else if d.neg then nf else none
    | .nan _ => none
  match fn with
  | .rcp => pick (0x80000000, 0) none (0xFF800000, flagDZ) (0x7F800000, flagDZ) (0, 0)
  | .rsqrt => pick nan (some nan) (0xFF800000, flagDZ) (0x7F800000, flagDZ) (0, 0)
  | .sqrt => pick nan (some nan) (0x80000000, 0) (0, 0) (0x7F800000, 0)
  | .exp2 => pick (0, 0) none (0x3F800000, 0) (0x3F800000, 0) (0x7F800000, 0)
  | .log2 => pick nan (some nan) (0xFF800000, flagDZ) (0xFF800000, flagDZ) (0x7F800000, 0)
  | .sinpi => pick nan none (0x80000000, 0) (0, 0) nan
  | .cospi => pick nan none (0x3F800000, 0) (0x3F800000, 0) nan
  | .tanh => pick (0xBF800000, 0) none (0x80000000, 0) (0, 0) (0x3F800000, 0)
  | .sigm => pick (0, 0) none (0x3F000000, 0) (0x3F000000, 0) (0x3F800000, 0)
  | .silu => pick (0x80000000, 0) none (0x80000000, 0) (0, 0) (0x7F800000, 0)
  | .gelu => pick (0x80000000, 0) none (0x80000000, 0) (0, 0) (0x7F800000, 0)
  | .softp => pick (0, 0) none (0x3F317218, 0) (0x3F317218, 0) (0x7F800000, 0)

/-- A core function of an FP32 value within a sequence: its special values and its procedure (R221, R222). -/
def SfuFn.coreVal (fn : SfuFn) (c : Nat) : SVal :=
  match fn.special c with
  | some r => .code r.1 r.2
  | none => fn.core c

/-- The last step of a sequence: a sum of products, exact where it is finite (R221). -/
def lastSum (ps : List (Nat × Nat)) : SVal :=
  let prods := ps.map fun p => (fp32.val p.1, fp32.val p.2)
  let vs := prods.map fun p => p.1.mul p.2
  match infsOf (vs.filterMap id), vs.contains none with
  | (false, false), false => .exact (sumDy false (finsOf (vs.filterMap id)))
  | _, _ => .code (evalSum fp32 .rne false (ps.flatMap fun p => [(fp32, p.1), (fp32, p.2)]) prods 0).code 0

/-- A step of a sequence, rounded (R221). -/
def stepSum (ps : List (Nat × Nat)) : Nat := (lastSum ps).round

/-- FP32 one. -/
def f32One : Nat := 0x3F800000

/-- The sequence of `fsigm` (R221). -/
def seqSigm (x : Nat) : SVal :=
  let q := (SfuFn.exp2.coreVal (stepSum [(fp32.negate x, 0x3FB8AA3B)])).round
  SfuFn.rcp.coreVal (stepSum [(f32One, f32One), (q, f32One)])

/-- The sequence of `fgelu` (R221). -/
def seqGelu (x : Nat) : SVal :=
  let t := stepSum [(x, stepSum [(stepSum [(x, x)], 0x3D372713)]), (x, f32One)]
  let h := stepSum [(x, 0x3F000000)]
  lastSum [(h, (SfuFn.tanh.coreVal (stepSum [(t, 0x3F4C422A)])).round), (h, f32One)]

/-- The sequence of `fsoftp` (R221). -/
def seqSoftp (x : Nat) : SVal :=
  if (fp32.val x).cmp (fp32.val 0x42000000) = 1 then .code x 0
  else
    let p := SfuFn.exp2.coreVal (stepSum [(x, 0x3FB8AA3B)])
    if (fp32.val x).cmp (fp32.val 0xC1A00000) = -1 then p
    else lastSum [((SfuFn.log2.coreVal (stepSum [(f32One, f32One), (p.round, f32One)])).round, 0x3F317218)]

/-- The procedure value of a function on an FP32 code that is no NaN (R219, R221, R222). -/
def SfuFn.value (fn : SfuFn) (c : Nat) : SVal :=
  match fn.special c with
  | some r => .code r.1 r.2
  | none =>
    match fn with
    | .sigm => seqSigm c
    | .silu => lastSum [(c, (seqSigm c).round)]
    | .gelu => seqGelu c
    | .softp => seqSoftp c
    | fn => fn.core c

/-- Whether a procedure value is not zero. -/
def SVal.nonzero : SVal → Bool
  | .exact d => d.m != 0
  | .code c _ => fp32.mag c != 0

/-- One element of a special function (R217). -/
def SfuFn.element (fn : SfuFn) (fm : Fmt) (daz ftz : Bool) (c0 : Nat) : FRes :=
  let c := fm.daz daz c0
  if fm.isNan c then { code := fm.quiet c, flags := if fm.isSnan c then flagIV else 0 }
  else
    let x := fm.widen c
    let p := fn.value x
    let r := p.round
    let fl0 : FFlags := match p with
      | .exact _ => 0
      | .code _ fl => fl
    let d : Nat := if fp32.isNan r then fm.nan
      else if fp32.isInf r then fm.code (fp32.neg r) fm.infMag
      else (fm.arith .rne false (fp32.dy r)).code
    let srcPole := fm.isInf c || fm.mag c = 0
    let ovr : FFlags := if fm.isInf d && !srcPole then flagOF ||| flagNX else 0
    if fm.isSub d then { code := if ftz then fm.code (fm.neg d) 0 else d, flags := fl0 ||| flagUF ||| flagNX }
    else if fm.mag d = 0 && p.nonzero then { code := d, flags := fl0 ||| flagUF ||| flagNX }
    else { code := d, flags := fl0 ||| ovr }

/-- A special function over the Active lanes: each lane's word and flags (R217). -/
def Env.sfuLanes (e : Env) (fn : SfuFn) (px : Option AluPx) (va : Nat) : List (Nat × Word × FFlags) :=
  let fm := fmtOf (e.g.effType px)
  (lanesOf e.active).map fun i =>
    (i, packRes fm ((List.range (32 / fm.w)).map fun k =>
      fn.element fm e.g.mDaz e.g.mFtz (bits (e.v.vreg va i).toNat (fm.w * k) fm.w)))

/-- A special function (R215, R216): it waits for room on c2; with FPXE non-zero its split waits until it completes, and one that
raises an enabled exception then takes trap 0x11. -/
def sfuExec (base : Nat) (f : Sfu) (fn : SfuFn) (s : State) : Host.Outcome State Fault Refusal :=
  issue (fun g _ => { fpSpec g (aluWords f.px (packSfu base f)) f.st f.px arithType false false [f.vd.toNat]
      [f.va.toNat] [] [] with misuse := fpMisuse f.px false false || (pxType f.px != 0 && !arithType (pxType f.px)) })
    (fun e =>
      if e.marker then .ok e.s
      else if e.full 2 then e.waitRoom (.counterRoom 2)
      else
        let rs := e.sfuLanes fn f.px f.va.toNat
        let all := rs.foldl (fun (a : FFlags) r => a ||| r.2.2) 0
        let op : PendOp :=
          { kind := .sfu, counter := 2, mask := e.p.mask,
            dests := e.g.owed f.vd.toNat (aluZero f.px) e.active fun i => ((tabGet rs i).map (·.1)).getD 0,
            clobbered := [], lines := [], walked := [], flags := all, trap := none }
        if e.g.mFpxe = 0 then .ok (e.s.owe e.gid op)
        else
          match e.flagged (rs.map fun r => (r.1, r.2.2)) e.g with
          | .trap _ tv m =>
            .block (e.s.owe e.gid { op with dests := [], flags := 0, trap := some (tv, m.getD e.active) }) (.opDone e.s.nextId) true
          | _ => .block (e.s.owe e.gid op) (.opDone e.s.nextId) true) s

/-- `frcp` (R219). -/
def execFrcp (f : Sfu) (s : State) : Host.Outcome State Fault Refusal := sfuExec 0xE8000000 f .rcp s
/-- `frsqrt` (R219). -/
def execFrsqrt (f : Sfu) (s : State) : Host.Outcome State Fault Refusal := sfuExec 0xE8200000 f .rsqrt s
/-- `fsqrt` (R219). -/
def execFsqrt (f : Sfu) (s : State) : Host.Outcome State Fault Refusal := sfuExec 0xE8400000 f .sqrt s
/-- `fexp2` (R219). -/
def execFexp2 (f : Sfu) (s : State) : Host.Outcome State Fault Refusal := sfuExec 0xE8600000 f .exp2 s
/-- `flog2` (R219). -/
def execFlog2 (f : Sfu) (s : State) : Host.Outcome State Fault Refusal := sfuExec 0xE8800000 f .log2 s
/-- `fsinpi` (R219). -/
def execFsinpi (f : Sfu) (s : State) : Host.Outcome State Fault Refusal := sfuExec 0xE8A00000 f .sinpi s
/-- `fcospi` (R219). -/
def execFcospi (f : Sfu) (s : State) : Host.Outcome State Fault Refusal := sfuExec 0xE8C00000 f .cospi s
/-- `ftanh` (R219). -/
def execFtanh (f : Sfu) (s : State) : Host.Outcome State Fault Refusal := sfuExec 0xE8E00000 f .tanh s
/-- `fsigm` (R221). -/
def execFsigm (f : Sfu) (s : State) : Host.Outcome State Fault Refusal := sfuExec 0xE9000000 f .sigm s
/-- `fgelu` (R221). -/
def execFgelu (f : Sfu) (s : State) : Host.Outcome State Fault Refusal := sfuExec 0xE9200000 f .gelu s
/-- `fsilu` (R221). -/
def execFsilu (f : Sfu) (s : State) : Host.Outcome State Fault Refusal := sfuExec 0xE9400000 f .silu s
/-- `fsoftp` (R221). -/
def execFsoftp (f : Sfu) (s : State) : Host.Outcome State Fault Refusal := sfuExec 0xE9600000 f .softp s

end Sys2Proof.Machine
end

