-- ==== Sys2Proof/Machine/Dispatch.lean ====
section
/-! DEFINITION. The one match from an instruction to its meaning. -/
namespace Sys2Proof.Machine

def exec (i : Instr) (s : State) : Host.Outcome State Fault Refusal :=
  match i with
  | .issueSelect => Sys2Proof.Machine.execIssueSelect s
  | .handFillComplete gid => Sys2Proof.Machine.execHandFillComplete gid s
  | .handWritebackComplete gid => Sys2Proof.Machine.execHandWritebackComplete gid s
  | .safePointDistanceTrap => Sys2Proof.Machine.execSafePointDistanceTrap s
  | .handlerWatchdog gid => Sys2Proof.Machine.execHandlerWatchdog gid s
  | .waitingResume gid slot => Sys2Proof.Machine.execWaitingResume gid slot s
  | .fairnessGiveWay gid => Sys2Proof.Machine.execFairnessGiveWay gid s
  | .sleepExpire gid slot => Sys2Proof.Machine.execSleepExpire gid slot s
  | .continuationResume gid slot => Sys2Proof.Machine.execContinuationResume gid slot s
  | .joinMerge gid slot => Sys2Proof.Machine.execJoinMerge gid slot s
  | .barrierComplete tid b => Sys2Proof.Machine.execBarrierComplete tid b s
  | .cohortBarrierComplete tid => Sys2Proof.Machine.execCohortBarrierComplete tid s
  | .groupExitRelease gid => Sys2Proof.Machine.execGroupExitRelease gid s
  | .teamDistribute grid => Sys2Proof.Machine.execTeamDistribute grid s
  | .teamAdmit tid => Sys2Proof.Machine.execTeamAdmit tid s
  | .teamRetire tid => Sys2Proof.Machine.execTeamRetire tid s
  | .latencyReservePreempt tid => Sys2Proof.Machine.execLatencyReservePreempt tid s
  | .swapOutStart gid => Sys2Proof.Machine.execSwapOutStart gid s
  | .swapOutComplete gid => Sys2Proof.Machine.execSwapOutComplete gid s
  | .swapInStart gid => Sys2Proof.Machine.execSwapInStart gid s
  | .swapInComplete gid => Sys2Proof.Machine.execSwapInComplete gid s
  | .contextSaveTaken tid => Sys2Proof.Machine.execContextSaveTaken tid s
  | .loadComplete gid id => Sys2Proof.Machine.execLoadComplete gid id s
  | .storePerformed gid id => Sys2Proof.Machine.execStorePerformed gid id s
  | .atomicComplete gid id => Sys2Proof.Machine.execAtomicComplete gid id s
  | .sfuComplete gid id => Sys2Proof.Machine.execSfuComplete gid id s
  | .matrixExecute gid => Sys2Proof.Machine.execMatrixExecute gid s
  | .matrixStep gid => Sys2Proof.Machine.execMatrixStep gid s
  | .matrixComplete gid => Sys2Proof.Machine.execMatrixComplete gid s
  | .copyChunk cid => Sys2Proof.Machine.execCopyChunk cid s
  | .copyComplete cid => Sys2Proof.Machine.execCopyComplete cid s
  | .copyRetire cid => Sys2Proof.Machine.execCopyRetire cid s
  | .cpyxReserve cid => Sys2Proof.Machine.execCpyxReserve cid s
  | .cpyxSpaceGrant cid => Sys2Proof.Machine.execCpyxSpaceGrant cid s
  | .l1DirtyFlush cluster line => Sys2Proof.Machine.execL1DirtyFlush cluster line s
  | .homeMerge h line => Sys2Proof.Machine.execHomeMerge h line s
  | .holderInvalidate h line => Sys2Proof.Machine.execHolderInvalidate h line s
  | .evictionNotice h line => Sys2Proof.Machine.execEvictionNotice h line s
  | .refillRequest h line => Sys2Proof.Machine.execRefillRequest h line s
  | .translationRetry gid slot => Sys2Proof.Machine.execTranslationRetry gid slot s
  | .pageCountHalve => Sys2Proof.Machine.execPageCountHalve s
  | .migration frame die => Sys2Proof.Machine.execMigration frame die s
  | .pageCollapse frame => Sys2Proof.Machine.execPageCollapse frame s
  | .remoteAccess r => Sys2Proof.Machine.execRemoteAccess r s
  | .remoteFaultRecord part => Sys2Proof.Machine.execRemoteFaultRecord part s
  | .streamFreeze rid serial => Sys2Proof.Machine.execStreamFreeze rid serial s
  | .fabricRequestComplete rid reply => Sys2Proof.Machine.execFabricRequestComplete rid reply s
  | .xferChunk r => Sys2Proof.Machine.execXferChunk r s
  | .xferComplete rid => Sys2Proof.Machine.execXferComplete rid s
  | .rfenceAdd rid => Sys2Proof.Machine.execRfenceAdd rid s
  | .registerDelivery d => Sys2Proof.Machine.execRegisterDelivery d s
  | .deliveryBounce did => Sys2Proof.Machine.execDeliveryBounce did s
  | .seatArrival a => Sys2Proof.Machine.execSeatArrival a s
  | .heartbeatSend => Sys2Proof.Machine.execHeartbeatSend s
  | .packageDeclaredFailed pkg => Sys2Proof.Machine.execPackageDeclaredFailed pkg s
  | .planeHeartbeatTimeout pkg plane => Sys2Proof.Machine.execPlaneHeartbeatTimeout pkg plane s
  | .linkFailure plane => Sys2Proof.Machine.execLinkFailure plane s
  | .orderingDrainEnd pkg plane => Sys2Proof.Machine.execOrderingDrainEnd pkg plane s
  | .frameAuthFail plane => Sys2Proof.Machine.execFrameAuthFail plane s
  | .undeliverableReturn rid => Sys2Proof.Machine.execUndeliverableReturn rid s
  | .swaitlWake gid slot => Sys2Proof.Machine.execSwaitlWake gid slot s
  | .swaitlTimeout gid slot => Sys2Proof.Machine.execSwaitlTimeout gid slot s
  | .parkWake gid => Sys2Proof.Machine.execParkWake gid s
  | .ethTransmit port => Sys2Proof.Machine.execEthTransmit port s
  | .ethReceive port f => Sys2Proof.Machine.execEthReceive port f s
  | .hostCxlMemWrite pa bytes => Sys2Proof.Machine.execHostCxlMemWrite pa bytes s
  | .hostOwnershipRequest line => Sys2Proof.Machine.execHostOwnershipRequest line s
  | .powerGood => Sys2Proof.Machine.execPowerGood s
  | .packageReset => Sys2Proof.Machine.execPackageReset s
  | .firmwareVerify => Sys2Proof.Machine.execFirmwareVerify s
  | .unitReady u => Sys2Proof.Machine.execUnitReady u s
  | .unitRetire u => Sys2Proof.Machine.execUnitRetire u s
  | .correctedError => Sys2Proof.Machine.execCorrectedError s
  | .poisonConsume gid => Sys2Proof.Machine.execPoisonConsume gid s
  | .throttle island => Sys2Proof.Machine.execThrottle island s
  | .throttleRecover island => Sys2Proof.Machine.execThrottleRecover island s
  | .islandPointReached island => Sys2Proof.Machine.execIslandPointReached island s
  | .ckptNFall => Sys2Proof.Machine.execCkptNFall s
  | .ckptCheckpoint part => Sys2Proof.Machine.execCkptCheckpoint part s
  | .ckptRestore part => Sys2Proof.Machine.execCkptRestore part s
  | .ckptComplete part err => Sys2Proof.Machine.execCkptComplete part err s
  | .healthCeClear => Sys2Proof.Machine.execHealthCeClear s
  | .timesetHiWrite v => Sys2Proof.Machine.execTimesetHiWrite v s
  | .timesetLoWrite v => Sys2Proof.Machine.execTimesetLoWrite v s
  | .timesetLoRead => Sys2Proof.Machine.execTimesetLoRead s
  | .clockLoRead => Sys2Proof.Machine.execClockLoRead s
  | .timeLoRead => Sys2Proof.Machine.execTimeLoRead s
  | .flagsOvfAccess => Sys2Proof.Machine.execFlagsOvfAccess s
  | .ptrootWrite part => Sys2Proof.Machine.execPtrootWrite part s
  | .partcfgChange part row => Sys2Proof.Machine.execPartcfgChange part row s
  | .expanderWindowChange n base size => Sys2Proof.Machine.execExpanderWindowChange n base size s
  | .spdmRequest session request => Sys2Proof.Machine.execSpdmRequest session request s
  | .spdmBind session part secret => Sys2Proof.Machine.execSpdmBind session part secret s
  | .uncorrectableError p => Sys2Proof.Machine.execUncorrectableError p s
  | .heartbeatArrival pkg plane => Sys2Proof.Machine.execHeartbeatArrival pkg plane s
  | .streamResume slot stream serial fail => Sys2Proof.Machine.execStreamResume slot stream serial fail s
  | .iadd f => Sys2Proof.Machine.execIadd f s
  | .iaddVu f => Sys2Proof.Machine.execIaddVu f s
  | .isub f => Sys2Proof.Machine.execIsub f s
  | .isubVu f => Sys2Proof.Machine.execIsubVu f s
  | .imul f => Sys2Proof.Machine.execImul f s
  | .imulVu f => Sys2Proof.Machine.execImulVu f s
  | .imulh f => Sys2Proof.Machine.execImulh f s
  | .imulhVu f => Sys2Proof.Machine.execImulhVu f s
  | .imulhu f => Sys2Proof.Machine.execImulhu f s
  | .imulhuVu f => Sys2Proof.Machine.execImulhuVu f s
  | .iand f => Sys2Proof.Machine.execIand f s
  | .iandVu f => Sys2Proof.Machine.execIandVu f s
  | .ior f => Sys2Proof.Machine.execIor f s
  | .iorVu f => Sys2Proof.Machine.execIorVu f s
  | .ixor f => Sys2Proof.Machine.execIxor f s
  | .ixorVu f => Sys2Proof.Machine.execIxorVu f s
  | .ishl f => Sys2Proof.Machine.execIshl f s
  | .ishlVu f => Sys2Proof.Machine.execIshlVu f s
  | .ishr f => Sys2Proof.Machine.execIshr f s
  | .ishrVu f => Sys2Proof.Machine.execIshrVu f s
  | .isra f => Sys2Proof.Machine.execIsra f s
  | .israVu f => Sys2Proof.Machine.execIsraVu f s
  | .imin f => Sys2Proof.Machine.execImin f s
  | .iminVu f => Sys2Proof.Machine.execIminVu f s
  | .imax f => Sys2Proof.Machine.execImax f s
  | .imaxVu f => Sys2Proof.Machine.execImaxVu f s
  | .iminu f => Sys2Proof.Machine.execIminu f s
  | .iminuVu f => Sys2Proof.Machine.execIminuVu f s
  | .imaxu f => Sys2Proof.Machine.execImaxu f s
  | .imaxuVu f => Sys2Proof.Machine.execImaxuVu f s
  | .iaddsat f => Sys2Proof.Machine.execIaddsat f s
  | .iaddsatVu f => Sys2Proof.Machine.execIaddsatVu f s
  | .isubsat f => Sys2Proof.Machine.execIsubsat f s
  | .isubsatVu f => Sys2Proof.Machine.execIsubsatVu f s
  | .icmp f => Sys2Proof.Machine.execIcmp f s
  | .icmpVu f => Sys2Proof.Machine.execIcmpVu f s
  | .icmpu f => Sys2Proof.Machine.execIcmpu f s
  | .icmpuVu f => Sys2Proof.Machine.execIcmpuVu f s
  | .vsel f => Sys2Proof.Machine.execVsel f s
  | .vselVu f => Sys2Proof.Machine.execVselVu f s
  | .vmov f => Sys2Proof.Machine.execVmov f s
  | .vmovVu f => Sys2Proof.Machine.execVmovVu f s
  | .ipopc f => Sys2Proof.Machine.execIpopc f s
  | .iclz f => Sys2Proof.Machine.execIclz f s
  | .ibrev f => Sys2Proof.Machine.execIbrev f s
  | .idot4 f => Sys2Proof.Machine.execIdot4 f s
  | .idot4Vu f => Sys2Proof.Machine.execIdot4Vu f s
  | .iabsdiff f => Sys2Proof.Machine.execIabsdiff f s
  | .iabsdiffVu f => Sys2Proof.Machine.execIabsdiffVu f s
  | .fadd f => Sys2Proof.Machine.execFadd f s
  | .faddVu f => Sys2Proof.Machine.execFaddVu f s
  | .fsub f => Sys2Proof.Machine.execFsub f s
  | .fsubVu f => Sys2Proof.Machine.execFsubVu f s
  | .fmul f => Sys2Proof.Machine.execFmul f s
  | .fmulVu f => Sys2Proof.Machine.execFmulVu f s
  | .ffma f => Sys2Proof.Machine.execFfma f s
  | .ffmaVu f => Sys2Proof.Machine.execFfmaVu f s
  | .fmin f => Sys2Proof.Machine.execFmin f s
  | .fminVu f => Sys2Proof.Machine.execFminVu f s
  | .fmax f => Sys2Proof.Machine.execFmax f s
  | .fmaxVu f => Sys2Proof.Machine.execFmaxVu f s
  | .fabs f => Sys2Proof.Machine.execFabs f s
  | .fneg f => Sys2Proof.Machine.execFneg f s
  | .fclass f => Sys2Proof.Machine.execFclass f s
  | .fscale f => Sys2Proof.Machine.execFscale f s
  | .fscaleVu f => Sys2Proof.Machine.execFscaleVu f s
  | .fcmp f => Sys2Proof.Machine.execFcmp f s
  | .fcmpVu f => Sys2Proof.Machine.execFcmpVu f s
  | .fdot2 f => Sys2Proof.Machine.execFdot2 f s
  | .fdot2Vu f => Sys2Proof.Machine.execFdot2Vu f s
  | .fround f => Sys2Proof.Machine.execFround f s
  | .twosum f => Sys2Proof.Machine.execTwosum f s
  | .fastsum f => Sys2Proof.Machine.execFastsum f s
  | .twodiff f => Sys2Proof.Machine.execTwodiff f s
  | .twoprod f => Sys2Proof.Machine.execTwoprod f s
  | .errfma f => Sys2Proof.Machine.execErrfma f s
  | .xadd f => Sys2Proof.Machine.execXadd f s
  | .xsub f => Sys2Proof.Machine.execXsub f s
  | .xmul f => Sys2Proof.Machine.execXmul f s
  | .xmulw f => Sys2Proof.Machine.execXmulw f s
  | .xfmaw f => Sys2Proof.Machine.execXfmaw f s
  | .xrenorm f => Sys2Proof.Machine.execXrenorm f s
  | .xcompress f => Sys2Proof.Machine.execXcompress f s
  | .xcmp f => Sys2Proof.Machine.execXcmp f s
  | .xneg f => Sys2Proof.Machine.execXneg f s
  | .xsplit f => Sys2Proof.Machine.execXsplit f s
  | .xround f => Sys2Proof.Machine.execXround f s
  | .xroundF32 f => Sys2Proof.Machine.execXroundF32 f s
  | .sadd f => Sys2Proof.Machine.execSadd f s
  | .ssub f => Sys2Proof.Machine.execSsub f s
  | .smul f => Sys2Proof.Machine.execSmul f s
  | .smulh f => Sys2Proof.Machine.execSmulh f s
  | .sand f => Sys2Proof.Machine.execSand f s
  | .sor f => Sys2Proof.Machine.execSor f s
  | .sxor f => Sys2Proof.Machine.execSxor f s
  | .sshl f => Sys2Proof.Machine.execSshl f s
  | .sshr f => Sys2Proof.Machine.execSshr f s
  | .ssra f => Sys2Proof.Machine.execSsra f s
  | .smin f => Sys2Proof.Machine.execSmin f s
  | .smax f => Sys2Proof.Machine.execSmax f s
  | .sminu f => Sys2Proof.Machine.execSminu f s
  | .smaxu f => Sys2Proof.Machine.execSmaxu f s
  | .smov f => Sys2Proof.Machine.execSmov f s
  | .ssel f => Sys2Proof.Machine.execSsel f s
  | .scmp f => Sys2Proof.Machine.execScmp f s
  | .scmpu f => Sys2Proof.Machine.execScmpu f s
  | .stest f => Sys2Proof.Machine.execStest f s
  | .sbfe f => Sys2Proof.Machine.execSbfe f s
  | .sbfi f => Sys2Proof.Machine.execSbfi f s
  | .spopc f => Sys2Proof.Machine.execSpopc f s
  | .sffs f => Sys2Proof.Machine.execSffs f s
  | .saddc f => Sys2Proof.Machine.execSaddc f s
  | .sfadd f => Sys2Proof.Machine.execSfadd f s
  | .sfmul f => Sys2Proof.Machine.execSfmul f s
  | .sffma f => Sys2Proof.Machine.execSffma f s
  | .sfcmp f => Sys2Proof.Machine.execSfcmp f s
  | .sfcvt f => Sys2Proof.Machine.execSfcvt f s
  | .br f => Sys2Proof.Machine.execBr f s
  | .brz f => Sys2Proof.Machine.execBrz f s
  | .brnz f => Sys2Proof.Machine.execBrnz f s
  | .brlt f => Sys2Proof.Machine.execBrlt f s
  | .brge f => Sys2Proof.Machine.execBrge f s
  | .brltu f => Sys2Proof.Machine.execBrltu f s
  | .brgeu f => Sys2Proof.Machine.execBrgeu f s
  | .brpz f => Sys2Proof.Machine.execBrpz f s
  | .brpnz f => Sys2Proof.Machine.execBrpnz f s
  | .brpall f => Sys2Proof.Machine.execBrpall f s
  | .call f => Sys2Proof.Machine.execCall f s
  | .ret f => Sys2Proof.Machine.execRet f s
  | .jmp f => Sys2Proof.Machine.execJmp f s
  | .adr f => Sys2Proof.Machine.execAdr f s
  | .rdsr f => Sys2Proof.Machine.execRdsr f s
  | .wrsr f => Sys2Proof.Machine.execWrsr f s
  | .setmode f => Sys2Proof.Machine.execSetmode f s
  | .movi f => Sys2Proof.Machine.execMovi f s
  | .ldB f => Sys2Proof.Machine.execLdB f s
  | .ldBs f => Sys2Proof.Machine.execLdBs f s
  | .ldH f => Sys2Proof.Machine.execLdH f s
  | .ldHs f => Sys2Proof.Machine.execLdHs f s
  | .ldW f => Sys2Proof.Machine.execLdW f s
  | .ldW2 f => Sys2Proof.Machine.execLdW2 f s
  | .ldW4 f => Sys2Proof.Machine.execLdW4 f s
  | .stB f => Sys2Proof.Machine.execStB f s
  | .stH f => Sys2Proof.Machine.execStH f s
  | .stW f => Sys2Proof.Machine.execStW f s
  | .stW2 f => Sys2Proof.Machine.execStW2 f s
  | .stW4 f => Sys2Proof.Machine.execStW4 f s
  | .ldt f => Sys2Proof.Machine.execLdt f s
  | .ldx f => Sys2Proof.Machine.execLdx f s
  | .stx f => Sys2Proof.Machine.execStx f s
  | .pfl f => Sys2Proof.Machine.execPfl f s
  | .sldW f => Sys2Proof.Machine.execSldW f s
  | .sldW2 f => Sys2Proof.Machine.execSldW2 f s
  | .sldW4 f => Sys2Proof.Machine.execSldW4 f s
  | .sldW8 f => Sys2Proof.Machine.execSldW8 f s
  | .sstW f => Sys2Proof.Machine.execSstW f s
  | .sstW2 f => Sys2Proof.Machine.execSstW2 f s
  | .sstW4 f => Sys2Proof.Machine.execSstW4 f s
  | .swaitl f => Sys2Proof.Machine.execSwaitl f s
  | .satadd f => Sys2Proof.Machine.execSatadd f s
  | .satcas f => Sys2Proof.Machine.execSatcas f s
  | .aadd f => Sys2Proof.Machine.execAadd f s
  | .asub f => Sys2Proof.Machine.execAsub f s
  | .aand f => Sys2Proof.Machine.execAand f s
  | .aor f => Sys2Proof.Machine.execAor f s
  | .axor f => Sys2Proof.Machine.execAxor f s
  | .amin f => Sys2Proof.Machine.execAmin f s
  | .atomicAmax f => Sys2Proof.Machine.execAtomicAmax f s
  | .aminu f => Sys2Proof.Machine.execAminu f s
  | .amaxu f => Sys2Proof.Machine.execAmaxu f s
  | .axchg f => Sys2Proof.Machine.execAxchg f s
  | .acas f => Sys2Proof.Machine.execAcas f s
  | .aincw f => Sys2Proof.Machine.execAincw f s
  | .afadd f => Sys2Proof.Machine.execAfadd f s
  | .afadd2 f => Sys2Proof.Machine.execAfadd2 f s
  | .afmin f => Sys2Proof.Machine.execAfmin f s
  | .afmax f => Sys2Proof.Machine.execAfmax f s
  | .aaddc f => Sys2Proof.Machine.execAaddc f s
  | .mma f => Sys2Proof.Machine.execMma f s
  | .mmag f => Sys2Proof.Machine.execMmag f s
  | .mmas f => Sys2Proof.Machine.execMmas f s
  | .accz f => Sys2Proof.Machine.execAccz f s
  | .accld f => Sys2Proof.Machine.execAccld f s
  | .drain f => Sys2Proof.Machine.execDrain f s
  | .draint f => Sys2Proof.Machine.execDraint f s
  | .tld f => Sys2Proof.Machine.execTld f s
  | .tldt f => Sys2Proof.Machine.execTldt f s
  | .tldg f => Sys2Proof.Machine.execTldg f s
  | .tzero f => Sys2Proof.Machine.execTzero f s
  | .matrixAmax f => Sys2Proof.Machine.execMatrixAmax f s
  | .accrd f => Sys2Proof.Machine.execAccrd f s
  | .accwr f => Sys2Proof.Machine.execAccwr f s
  | .accfold f => Sys2Proof.Machine.execAccfold f s
  | .cpy f => Sys2Proof.Machine.execCpy f s
  | .cpyt f => Sys2Proof.Machine.execCpyt f s
  | .cpyg f => Sys2Proof.Machine.execCpyg f s
  | .cpys f => Sys2Proof.Machine.execCpys f s
  | .cpyq f => Sys2Proof.Machine.execCpyq f s
  | .cpyx f => Sys2Proof.Machine.execCpyx f s
  | .cstat f => Sys2Proof.Machine.execCstat f s
  | .ccancel f => Sys2Proof.Machine.execCcancel f s
  | .rld f => Sys2Proof.Machine.execRld f s
  | .rst f => Sys2Proof.Machine.execRst f s
  | .ratom f => Sys2Proof.Machine.execRatom f s
  | .rstv f => Sys2Proof.Machine.execRstv f s
  | .xfer f => Sys2Proof.Machine.execXfer f s
  | .rfence f => Sys2Proof.Machine.execRfence f s
  | .xredFirst f => Sys2Proof.Machine.execXredFirst f s
  | .xredMid f => Sys2Proof.Machine.execXredMid f s
  | .xredLast f => Sys2Proof.Machine.execXredLast f s
  | .hold f => Sys2Proof.Machine.execHold f s
  | .seatget f => Sys2Proof.Machine.execSeatget f s
  | .seatfree f => Sys2Proof.Machine.execSeatfree f s
  | .rstat f => Sys2Proof.Machine.execRstat f s
  | .rstatClr f => Sys2Proof.Machine.execRstatClr f s
  | .rresume f => Sys2Proof.Machine.execRresume f s
  | .rresumeFail f => Sys2Proof.Machine.execRresumeFail f s
  | .rankmap f => Sys2Proof.Machine.execRankmap f s
  | .rankmapRd f => Sys2Proof.Machine.execRankmapRd f s
  | .nop f => Sys2Proof.Machine.execNop f s
  | .wait f => Sys2Proof.Machine.execWait f s
  | .waitAll f => Sys2Proof.Machine.execWaitAll f s
  | .fork f => Sys2Proof.Machine.execFork f s
  | .join f => Sys2Proof.Machine.execJoin f s
  | .draw f => Sys2Proof.Machine.execDraw f s
  | .safe f => Sys2Proof.Machine.execSafe f s
  | .yield f => Sys2Proof.Machine.execYield f s
  | .yieldc f => Sys2Proof.Machine.execYieldc f s
  | .sleep f => Sys2Proof.Machine.execSleep f s
  | .bar f => Sys2Proof.Machine.execBar f s
  | .cbar f => Sys2Proof.Machine.execCbar f s
  | .exit_ f => Sys2Proof.Machine.execExit f s
  | .launch f => Sys2Proof.Machine.execLaunch f s
  | .cwait f => Sys2Proof.Machine.execCwait f s
  | .rpush f => Sys2Proof.Machine.execRpush f s
  | .rpushPub f => Sys2Proof.Machine.execRpushPub f s
  | .rpushClaim f => Sys2Proof.Machine.execRpushClaim f s
  | .rpop f => Sys2Proof.Machine.execRpop f s
  | .rpopRel f => Sys2Proof.Machine.execRpopRel f s
  | .rpopTake f => Sys2Proof.Machine.execRpopTake f s
  | .potset f => Sys2Proof.Machine.execPotset f s
  | .potwait f => Sys2Proof.Machine.execPotwait f s
  | .sigchk f => Sys2Proof.Machine.execSigchk f s
  | .trap f => Sys2Proof.Machine.execTrap f s
  | .fence f => Sys2Proof.Machine.execFence f s
  | .shfl f => Sys2Proof.Machine.execShfl f s
  | .lred f => Sys2Proof.Machine.execLred f s
  | .lscan f => Sys2Proof.Machine.execLscan f s
  | .vote f => Sys2Proof.Machine.execVote f s
  | .bcast f => Sys2Proof.Machine.execBcast f s
  | .rdlane f => Sys2Proof.Machine.execRdlane f s
  | .lanes f => Sys2Proof.Machine.execLanes f s
  | .pop f => Sys2Proof.Machine.execPop f s
  | .pmov f => Sys2Proof.Machine.execPmov f s
  | .perm f => Sys2Proof.Machine.execPerm f s
  | .frcp f => Sys2Proof.Machine.execFrcp f s
  | .frsqrt f => Sys2Proof.Machine.execFrsqrt f s
  | .fsqrt f => Sys2Proof.Machine.execFsqrt f s
  | .fexp2 f => Sys2Proof.Machine.execFexp2 f s
  | .flog2 f => Sys2Proof.Machine.execFlog2 f s
  | .fsinpi f => Sys2Proof.Machine.execFsinpi f s
  | .fcospi f => Sys2Proof.Machine.execFcospi f s
  | .ftanh f => Sys2Proof.Machine.execFtanh f s
  | .fsigm f => Sys2Proof.Machine.execFsigm f s
  | .fgelu f => Sys2Proof.Machine.execFgelu f s
  | .fsilu f => Sys2Proof.Machine.execFsilu f s
  | .fsoftp f => Sys2Proof.Machine.execFsoftp f s
  | .fcvt f => Sys2Proof.Machine.execFcvt f s
  | .fcvti f => Sys2Proof.Machine.execFcvti f s
  | .icvtf f => Sys2Proof.Machine.execIcvtf f s
  | .bfpk f => Sys2Proof.Machine.execBfpk f s
  | .bfpu f => Sys2Proof.Machine.execBfpu f s
  | .unpk f => Sys2Proof.Machine.execUnpk f s
  | .sclx f => Sys2Proof.Machine.execSclx f s
  | .psrd f => Sys2Proof.Machine.execPsrd f s
  | .pswr f => Sys2Proof.Machine.execPswr f s
  | .ovtld f => Sys2Proof.Machine.execOvtld f s
  | .rfe f => Sys2Proof.Machine.execRfe f s
  | .rfeNext f => Sys2Proof.Machine.execRfeNext f s
  | .rfePark f => Sys2Proof.Machine.execRfePark f s
  | .ctxsv f => Sys2Proof.Machine.execCtxsv f s
  | .ctxld f => Sys2Proof.Machine.execCtxld f s
  | .pgmap f => Sys2Proof.Machine.execPgmap f s
  | .pgpoolAdd f => Sys2Proof.Machine.execPgpoolAdd f s
  | .pgpoolRem f => Sys2Proof.Machine.execPgpoolRem f s
  | .pgpoolCnt f => Sys2Proof.Machine.execPgpoolCnt f s
  | .keyld f => Sys2Proof.Machine.execKeyld f s
  | .halt f => Sys2Proof.Machine.execHalt f s
  | .xlat f => Sys2Proof.Machine.execXlat f s
  | .placeTo f => Sys2Proof.Machine.execPlaceTo f s
  | .placeHere f => Sys2Proof.Machine.execPlaceHere f s
  | .placeReset f => Sys2Proof.Machine.execPlaceReset f s
  | .dupset f => Sys2Proof.Machine.execDupset f s
  | .sigset f => Sys2Proof.Machine.execSigset f s
  | .killg f => Sys2Proof.Machine.execKillg f s

end Sys2Proof.Machine
end

