-- ==== Sys2Proof/Machine/Internal.lean ====
section
/-! DEFINITION. The machine's own pending steps (R92, R132, R263, R360 and the rules of each step): those that are enabled in
a state, and the choice among them. -/
namespace Sys2Proof.Machine

/-- The steps that a split may wait for (R89, R92, R96, R97, R270, R354). -/
def splitSteps (gid slot : Nat) (p : Split) : List Instr :=
  match p.st with
  | .waiting (.entryBusy _) => [.translationRetry gid slot]
  | .waiting (.lineWord _ _ _) => [.swaitlWake gid slot, .swaitlTimeout gid slot]
  | .waiting _ => [.waitingResume gid slot]
  | .sleeping _ => [.sleepExpire gid slot]
  | .parkedCont _ _ => [.continuationResume gid slot]
  | .parkedJoin => [.joinMerge gid slot]
  | _ => []

/-- The step that completes an outstanding operation (R216, R263, R311). -/
def pendSteps (gid : Nat) (e : Nat × PendOp) : List Instr :=
  match e.2.kind with
  | .load => [.loadComplete gid e.1]
  | .store => [.storePerformed gid e.1]
  | .atomic => [.atomicComplete gid e.1]
  | .sfu => [.sfuComplete gid e.1]
  | .late => []

/-- The pending steps of a group. -/
def groupSteps (gid : Nat) (g : Group) : List Instr :=
  [.handlerWatchdog gid, .poisonConsume gid, .handFillComplete gid]
    ++ g.pend.flatMap (pendSteps gid)
    ++ [.matrixComplete gid, .matrixStep gid, .matrixExecute gid]
    ++ (match g.handler with
        | some h => splitSteps gid h.split.slot h.split
        | none => g.splits.flatMap fun p => splitSteps gid p.slot p)
    ++ [.parkWake gid, .groupExitRelease gid, .fairnessGiveWay gid, .swapInComplete gid, .swapOutComplete gid, .swapInStart gid,
        .swapOutStart gid]

/-- The pending steps of a copy (R294, R295). -/
def copySteps (cid : Nat) : List Instr := [.cpyxReserve cid, .cpyxSpaceGrant cid, .copyChunk cid, .copyComplete cid, .copyRetire cid]

/-- The pending steps of a team (R103, R104, R118, R126, R388); its admission has an order. -/
def teamSteps (tid : Nat) : List Instr :=
  (List.range 8).map (fun b => Instr.barrierComplete tid (BitVec.ofNat 3 b))
    ++ [.cohortBarrierComplete tid, .contextSaveTaken tid, .latencyReservePreempt tid, .teamRetire tid]

/-- The pending steps of a fabric request (R328 to R332, R336, R337); the answer of another package comes from outside. -/
def requestSteps (home : Nat) (rid : Nat) (q : FabReq) : List Instr :=
  [.rfenceAdd rid, .remoteAccess (.own rid), .registerDelivery (.own rid), .xferChunk (.own rid), .xferComplete rid]
    ++ if q.pkg = home || q.performed then [.fabricRequestComplete rid { cause := none, vals := [] }] else []

/-- The pending steps of a frozen request (R321, R322). -/
def frozenSteps (z : Frozen) : List Instr :=
  [.remoteFaultRecord z.part]
    ++ match z.req with
      | .own rid => [.streamFreeze rid z.serial]
      | .foreign r => if z.replay then [.remoteAccess (.foreign r)] else []
      | .foreignChunk c => if z.replay then [.xferChunk (.foreignChunk c)] else []
      | .waiting _ => []

/-- The step that takes a waiting request or chunk of another package further (R319, R354, R356). -/
def foreignStep (k : Nat) (h : HeldForeign) : Instr :=
  match h.req with
  | .foreignChunk _ => .xferChunk (.waiting k)
  | _ => .remoteAccess (.waiting k)

/-- The answer to a request of the host (R358). -/
def hostStep (n : Nat) (q : HostWait) : Instr :=
  if q.owner then .hostOwnershipRequest (q.lines.headD 0) else .hostCxlMemWrite n []

/-- The end of a hand's writing back (R86), also once its group has gone. -/
def handSteps (h : Hand) : List Instr :=
  match h.st with
  | .writingBack gid => [.handWritebackComplete gid]
  | _ => []

/-- The pending steps of the directory at a line (R360 to R362). -/
def lineSteps (line : Nat) (e : DirEntry) : List Instr :=
  e.arriving.map (fun a => Instr.homeMerge (.l1 a.1) line) ++ e.invals.map (fun h => Instr.holderInvalidate h line)
    ++ (e.l1.filter fun c => c.2.dirty ≠ 0).map (fun c => Instr.l1DirtyFlush c.1 line)

/-- The evictions that a holder may make by itself (R362). -/
def evictSteps (line : Nat) (e : DirEntry) : List Instr := e.holders.map fun h => Instr.evictionNotice h line

/-- The pending steps of a page (R367, R369). -/
def pageSteps (frame : Nat) : List Instr :=
  [.pageCollapse frame] ++ (List.range 4).map fun d => Instr.migration frame d

/-- Whether a split of a partition waits for a write of PTROOT (R358). -/
def State.rootWaits (s : State) (part : Nat) : Bool :=
  s.groups.any fun e => e.2.part == part && (e.2.splits.any (fun p => p.st == .waiting .partWrite)
    || e.2.handler.any fun h => h.split.st == .waiting .partWrite)

/-- The pending steps of a partition (R358, R409, R410). -/
def State.partSteps (s : State) (part : Nat) : List Instr :=
  [.ckptCheckpoint part, .ckptRestore part, .ckptComplete part false]
    ++ if s.rootWaits part then [.ptrootWrite part] else []

/-- The steps of the package's links (R318, R342). -/
def State.linkSteps (s : State) : List Instr :=
  [.heartbeatSend, .pageCountHalve]
    ++ s.pkg.lastBeat.flatMap (fun e => [Instr.packageDeclaredFailed (e.1 / 8), Instr.planeHeartbeatTimeout (e.1 / 8) (e.1 % 8)])
    ++ s.pkg.draining.map fun d => Instr.orderingDrainEnd d.1 d.2

/-- The machine's own steps that may be pending, but for admissions. -/
def State.pending (s : State) : List Instr :=
  s.groups.flatMap (fun e => groupSteps e.1 e.2) ++ s.copies.flatMap (fun e => copySteps e.1)
    ++ s.fabric.flatMap (fun e => requestSteps s.pkg.number e.1 e.2) ++ s.frozen.flatMap (fun e => frozenSteps e.2)
    ++ s.foreign.map (fun e => foreignStep e.1 e.2) ++ s.hostWaits.map (fun e => hostStep e.1 e.2)
    ++ s.hands.flatMap (fun e => handSteps e.2)
    ++ s.deliveries.map (fun e => Instr.registerDelivery (.waiting e.1)) ++ s.arrivals.map (fun e => Instr.seatArrival e.2.arr)
    ++ s.dir.flatMap (fun e => lineSteps e.1 e.2) ++ s.teams.flatMap (fun e => teamSteps e.1)
    ++ s.grids.map (fun e => Instr.teamDistribute e.1) ++ s.parts.flatMap (fun e => s.partSteps e.1)
    ++ s.pkg.islands.map (fun e => Instr.islandPointReached e.1) ++ (List.range 8).map Instr.ethTransmit ++ s.linkSteps
    ++ s.pages.flatMap (fun e => pageSteps e.1) ++ s.dir.flatMap fun e => evictSteps e.1 e.2

/-- Whether a step changes the state. -/
noncomputable def State.enabled (s : State) (i : Instr) : Bool :=
  match exec i s with
  | .next t => t ≠ s
  | _ => false

/-- The admissions that are enabled: of each partition and class the one that has waited longest (R114, R127). -/
noncomputable def State.admissions (s : State) : List Instr :=
  let es := s.teams.filter fun e => e.2.isQueued && e.2.member == 0 && s.enabled (.teamAdmit e.1)
  (es.filter fun e => es.all fun x =>
    !(x.2.part == e.2.part && x.2.latency == e.2.latency && x.2.arrival < e.2.arrival)).map fun e => .teamAdmit e.1

/-- An entry of a list by turns. -/
def byTurn {α : Type} (n : Nat) (l : List α) : Option α := l[n % l.length]?

/-- The next pending step of the machine's own: one of those enabled, or none for now, as `Config.choose` has it. Every
sixteenth turn takes one, an admission first, by turns: none that stays enabled is passed over for ever (R107, R114, R429). -/
noncomputable def nextInternal (s : State) : Option Instr :=
  let es := s.pending.filter s.enabled
  let as := s.admissions
  if s.rota % 16 = 15 then byTurn (s.rota / 16) (if as = [] || s.rota % 32 = 31 then es ++ as else as)
  else ((es ++ as).drop (Config.choose s.tick % ((es ++ as).length + 1))).head?

end Sys2Proof.Machine
end

