-- ==== Sys2Proof/Machine/Cycle.lean ====
section
/-! DEFINITION. One cycle of the machine: the instruction of the group chosen to issue, else a step that is due, else one of the outside
world or of the machine that the inbox lists, else the machine's own next pending step, else the choice of a
group (R132). -/
namespace Sys2Proof.Machine

/-- What follows a group's instruction. -/
def afterIssue (o : Host.Outcome State Fault Refusal) : Host.Outcome State Fault Refusal :=
  match o with
  | .next t => .next t.issued
  | .fault r => .fault r
  | .refused r => .refused r

/-- The words `ws` at the PC of the issuing split, decoded and executed. -/
noncomputable def runWords (s : State) (gid : Nat) (g : Group) (p : Split) (ws : List Nat) : Host.Outcome State Fault Refusal :=
  match decodeWords ws with
  | .ok i => afterIssue (exec i s)
  | .error r => .next (s.rejectTrap gid g p ws r).issued

/-- One issue by a group: a held instruction resumes, otherwise the next one is fetched. -/
noncomputable def issueStep (s : State) (gid : Nat) : Host.Outcome State Fault Refusal :=
  match s.group gid with
  | none => .next s.issued
  | some g =>
    match g.issuing with
    | none => .next s.issued
    | some p =>
      match p.held with
      | some h => runWords s gid g p h.words
      | none =>
        match fetch s gid g p with
        | .words ws => runWords (s.fetchMarks gid g p) gid g p ws
        | .bad c a => .next (s.takeTrap gid g p c a p.mask).issued
        | .wait e => .next (s.fetchWait gid e).issued

/-- One cycle of the machine. -/
noncomputable def cycle (s : State) : Host.Outcome State Fault Refusal :=
  let s1 := s.advance
  match s1.cur with
  | some gid => issueStep s1 gid
  | none =>
    match s1.overdue with
    | some i => exec i s1
    | none =>
      match s1.inbox with
      | i :: r => exec i { s1 with inbox := r }
      | [] =>
        match (if s1.turn then nextInternal s1 else none) with
        | some i => exec i { s1 with turn := false, rota := s1.rota + 1 }
        | none => exec .issueSelect { s1 with rota := if s1.turn then s1.rota + 1 else s1.rota }

end Sys2Proof.Machine
end

