-- ==== Sys2Proof/Machine/Step.lean ====
section
/-! DEFINITION. One step of the machine, and the state that the host places an instruction in. -/
namespace Sys2Proof.Machine

/-- One step of the machine. -/
noncomputable def step (s : State) : Host.Outcome State Fault Refusal := cycle s

/-- The state with one instruction placed where the next step fetches: a partition set up, its house program's
group at the start of its text, and the words stored there (log entry 3). -/
def State.withFetchWord (s : State) (nbits w : Nat) : State := s.placeProgram (w % 2 ^ nbits)

end Sys2Proof.Machine
end

