-- ==== Sys2Proof/Safety.lean ====
section
/-! DEFINITION. The words that claims are stated in: what counts as a safe state, when a group is ready to issue an
instruction whose sources have all arrived, and what the group is after an instruction has completed. -/
namespace Sys2Proof.Machine

/-- Both memories of the state are in their canonical form. -/
def State.memOk (s : State) : Prop := Memory.wf s.mem = true ∧ Memory.wf s.spad = true

/-- Nothing that a group issued is still outstanding, so that no source is read too early (R71, R77, R338, R396). -/
def Group.Settled (g : Group) : Prop := g.producers = [] ∧ g.pend = [] ∧ g.holds = [] ∧ g.bad = []

/-- Group `gid`, which is `g`, is the one chosen to issue, its split `p` begins a new instruction, nothing of the group is
outstanding, no acquire of a remote load holds its later accesses back (R329), its width is one of R18, and the safe-point
distance allows one more issue (R92, R387). -/
structure Ready (s : State) (gid : Nat) (g : Group) (p : Split) : Prop where
  cur : s.cur = some gid
  group : s.group gid = some g
  issuing : g.issuing = some p
  fresh : p.held = none
  settled : g.Settled
  ordered : s.acquiring gid p.mask = []
  wide : g.width ≤ 64
  near : ∀ x, s.part g.part = some x → x.safeEn = true → g.handler = none → g.safeCount < x.limit

/-- Group `gid`, which is `g`, is the one chosen to issue and its split `p` begins a new instruction, as in `Ready`; but operations
of the group may be outstanding, registers may be held, and instructions may have issued too recently for their results to be
read (R71, R75, R77, R338). -/
structure Underway (s : State) (gid : Nat) (g : Group) (p : Split) : Prop where
  cur : s.cur = some gid
  group : s.group gid = some g
  issuing : g.issuing = some p
  fresh : p.held = none
  sound : g.bad = []
  wide : g.width ≤ 64
  near : ∀ x, s.part g.part = some x → x.safeEn = true → g.handler = none → g.safeCount < x.limit

/-- A register is still within the required distance of a fixed-latency producer, which replaced the values `old` (R71, R74). -/
def Group.Recent (g : Group) (r : RegName) (old : List (Nat × Word)) : Prop :=
  ∃ q ∈ g.producers, q.reg = r ∧ g.nominal < q.issued + q.dist ∧ q.old = old

/-- `f` is what an instruction may read of vector register `r` with MODE.CHK at 0 (R74, R77): in each lane what the register
holds, or what it held before a recent producer, or what an outstanding operation owes it, which for a late one is a free value. -/
def Group.ReadsEarly (g : Group) (r : Nat) (f : Nat → Word) : Prop :=
  ∀ i < g.width, f i = g.vreg r i ∨ (∃ old, g.Recent (vName r) old ∧ (i, f i) ∈ old) ∨
    (∃ e ∈ g.pend, e.2.kind ≠ .late ∧ { reg := vName r, lane := i, val := f i } ∈ e.2.dests) ∨
    ∃ e ∈ g.pend, e.2.kind = .late ∧ (∃ d ∈ e.2.dests, d.reg = vName r ∧ d.lane = i) ∧ ∃ n, f i = Config.freeWord n

/-- The vector registers of a list are allocated (R50). -/
def Group.HasV (g : Group) (rs : List Nat) : Prop := ∀ r ∈ rs, r < g.vAlloc

/-- The uniform registers of a list may be named: allocated, or the first 56 in a handler, or s62 or s63 (R50, R382). -/
def Group.HasS (g : Group) (rs : List Nat) : Prop :=
  ∀ r ∈ rs, r < (if g.handler.isSome then 56 else g.sAlloc) ∨ r = 62 ∨ r = 63

/-- The tiles of a list are allocated (R50). -/
def Group.HasT (g : Group) (rs : List Nat) : Prop := ∀ r ∈ rs, r < g.tAlloc

/-- The accumulators of a list are allocated (R50). -/
def Group.HasA (g : Group) (rs : List Nat) : Prop := ∀ r ∈ rs, r < g.aAlloc

/-- The address `n` words after the instruction of split `p` (R33, R98). -/
def State.after (s : State) (g : Group) (p : Split) (n : Nat) : DWord := codeStep (s.textBase g) p.pc (4 * n)

/-- The address that the word offset `off` names from the word after the instruction of split `p` (R24, R98). -/
def State.target (s : State) (g : Group) (p : Split) (off : Int) : DWord :=
  codeStep (s.textBase g) (s.after g p 1) (4 * off)

/-- The account of an issue (R72, R93, R157, R387) that `k` shows, entered in `h`: the signature, the distances and counts of
the issue logic, and the fixed-latency producers. Every other field is that of `h`. -/
def Group.charged (h k : Group) : Group :=
  { h with sig := k.sig, nominal := k.nominal, safeCount := k.safeCount, issuesInTurn := k.issuesInTurn,
           lastIssue := k.lastIssue, lastPc := k.lastPc, stallUntil := k.stallUntil, producers := k.producers }

/-- `k` is `h` with the account of an issue entered and with its issuing split, which was `p`, at the address `pc` and ready
for its next instruction (R33, R92). It says of every other field of the group that it is as in `h`: every register, flag,
status register, counter and split that `h` does not change. -/
def Issued (k h : Group) (p : Split) (pc : DWord) : Prop :=
  k = (h.charged k).setIssuing { p with pc := pc, held := none, safeAt := none }

/-- The lanes of vector register `vd` after a write of `f` (R5): a lane that the selection makes Active holds its value of
`f`; below the width another lane holds 0 under zeroing; and every other lane holds what it held. The other vector registers
of `k` hold what they held in `g`. -/
structure LanesWritten (g k : Group) (p : Split) (vd : Nat) (sel : MaskSel) (zero : Bool) (f : Nat → Word) : Prop where
  active : ∀ i < 64, inMask (g.activeMask p.mask sel) i = true → k.vreg vd i = f i
  zeroed : ∀ i < g.width, inMask (g.activeMask p.mask sel) i = false → zero = true → k.vreg vd i = 0
  merged : ∀ i < g.width, inMask (g.activeMask p.mask sel) i = false → zero = false → k.vreg vd i = g.vreg vd i
  above : ∀ i < 64, g.width ≤ i → k.vreg vd i = g.vreg vd i
  others : ∀ r, r ≠ vd → ∀ i < 64, k.vreg r i = g.vreg r i

/-- The lanes of predicate `pd` after a write of `f` (R5, R145), unless it is p7, which reads as ones (R49). The other
predicates of `k` hold what they held in `g`. -/
structure PredWritten (g k : Group) (p : Split) (pd : Nat) (sel : MaskSel) (zero : Bool) (f : Nat → Bool) : Prop where
  active : pd ≠ 7 → ∀ i < 64, inMask (g.activeMask p.mask sel) i = true → inMask (k.pred pd) i = f i
  zeroed : pd ≠ 7 → ∀ i < 64, inMask (g.activeMask p.mask sel) i = false → zero = true → inMask (k.pred pd) i = false
  merged : pd ≠ 7 → ∀ i < 64, inMask (g.activeMask p.mask sel) i = false → zero = false →
    inMask (k.pred pd) i = inMask (g.pred pd) i
  others : ∀ r, r ≠ pd → k.pred r = g.pred r
  ones : k.pred 7 = BitVec.allOnes 64

/-! The tables that claims quantify over. -/

/-- An exact result clamped to the range of an element of `w` bits (R143). -/
def saturate (w : Nat) (uns : Bool) (x : Int) : BitVec w :=
  if uns then BitVec.ofInt w (if x < 0 then 0 else if 2 ^ w - 1 < x then 2 ^ w - 1 else x)
  else BitVec.ofInt w (if x < -(2 ^ (w - 1)) then -(2 ^ (w - 1)) else if 2 ^ (w - 1) - 1 < x then 2 ^ (w - 1) - 1 else x)

/-- The integer instructions over elements that have both a V3 and a VU form, each with its element operation (R141 to R143):
of the element width, of whether the type is unsigned, and of the two elements. -/
def elementOps : List ((V3 → Instr) × (VU → Instr) × ((w : Nat) → Bool → BitVec w → BitVec w → BitVec w)) :=
  [(.iadd, .iaddVu, fun _ _ a b => a + b), (.isub, .isubVu, fun _ _ a b => a - b), (.imul, .imulVu, fun _ _ a b => a * b),
   (.imulh, .imulhVu, fun w _ a b => BitVec.ofInt w (a.toInt * b.toInt / 2 ^ w)),
   (.imulhu, .imulhuVu, fun w _ a b => BitVec.ofNat w (a.toNat * b.toNat / 2 ^ w)),
   (.iand, .iandVu, fun _ _ a b => a &&& b), (.ior, .iorVu, fun _ _ a b => a ||| b), (.ixor, .ixorVu, fun _ _ a b => a ^^^ b),
   (.imin, .iminVu, fun _ _ a b => if a.slt b then a else b), (.imax, .imaxVu, fun _ _ a b => if a.slt b then b else a),
   (.iminu, .iminuVu, fun _ _ a b => if a.ult b then a else b), (.imaxu, .imaxuVu, fun _ _ a b => if a.ult b then b else a),
   (.iaddsat, .iaddsatVu, fun w u a b => saturate w u (elVal w u a + elVal w u b)),
   (.isubsat, .isubsatVu, fun w u a b => saturate w u (elVal w u a - elVal w u b)),
   (.iabsdiff, .iabsdiffVu, fun w u a b => BitVec.ofInt w |elVal w u a - elVal w u b|)]

/-- The shifts (R142): the vector forms and the uniform one, each with its element operation. -/
def shiftOps : List ((V3 → Instr) × (VU → Instr) × (S3 → Instr) × ((w : Nat) → BitVec w → BitVec w → BitVec w)) :=
  [(.ishl, .ishlVu, .sshl, fun w a b => if b.toNat < w then a <<< b.toNat else 0),
   (.ishr, .ishrVu, .sshr, fun w a b => if b.toNat < w then a >>> b.toNat else 0),
   (.isra, .israVu, .ssra, fun w a b => if b.toNat < w then a.sshiftRight b.toNat else BitVec.fill w a.msb)]

/-- The vector copies and the unary integer instructions: what each makes of an element (R141). -/
def unaryOps : List ((V3Un → Instr) × ((w : Nat) → BitVec w → BitVec w)) :=
  [(.ipopc, fun w a => BitVec.ofNat w ((List.range w).countP fun j => a.getLsbD j)),
   (.iclz, fun w a => BitVec.ofNat w (((List.range w).find? fun j => a.getLsbD (w - 1 - j)).getD w)),
   (.ibrev, fun w a => BitVec.ofFnLE fun j : Fin w => a.getLsbD (w - 1 - j))]

/-- The dot product of four bytes with an accumulator, modulo 2^32 (R144). -/
def byteDot (uns : Bool) (a b c : Word) : Word :=
  let x := fun (v : Word) (k : Nat) => if uns then ((elem 8 v k).toNat : Int) else (elem 8 v k).toInt
  BitVec.ofInt 32 (c.toNat + x a 0 * x b 0 + x a 1 * x b 1 + x a 2 * x b 2 + x a 3 * x b 3)

/-- The conditions that an integer compare accepts, over two exact values (R28, R145). -/
def condTests : List (Cond × (Int → Int → Bool)) :=
  [(.eq, fun a b => a = b), (.ne, fun a b => a ≠ b), (.lt, fun a b => a < b), (.le, fun a b => a ≤ b), (.gt, fun a b => a > b),
   (.ge, fun a b => a ≥ b)]

/-- The uniform instructions of two sources that neither read nor write SCC, but the shifts: the result of each (R149, R153). -/
def uniformOps : List ((S3 → Instr) × (Word → Word → Word)) :=
  [(.sadd, fun a b => a + b), (.ssub, fun a b => a - b), (.smul, fun a b => a * b),
   (.smulh, fun a b => BitVec.ofInt 32 (a.toInt * b.toInt / 2 ^ 32)),
   (.sand, fun a b => a &&& b), (.sor, fun a b => a ||| b), (.sxor, fun a b => a ^^^ b),
   (.smin, fun a b => if a.slt b then a else b), (.smax, fun a b => if a.slt b then b else a),
   (.sminu, fun a b => if a.ult b then a else b), (.smaxu, fun a b => if a.ult b then b else a)]

/-- The length of the field that a control word names, with bits at or above 32 left out (R153). -/
def ctrlLen (c : Word) : Nat := min (if (c.extractLsb' 5 5).toNat = 0 then 32 else (c.extractLsb' 5 5).toNat) (32 - (c.extractLsb' 0 5).toNat)

/-- The exact rational value of a finite value (R159). -/
def Dy.value (d : Dy) : ℚ := (if d.neg then -1 else 1) * d.m * (2 : ℚ) ^ d.e

/-- The flags of `k` are those of `g` with those that the Active lanes raised (R175). -/
def FlagsRaised (g k : Group) (p : Split) (sel : MaskSel) (fl : Nat → FFlags) : Prop :=
  ∀ b, k.flags.getLsbD b = true ↔
    (g.flags.getLsbD b = true ∨ ∃ i < 64, inMask (g.activeMask p.mask sel) i = true ∧ (fl i).getLsbD b = true)

/-- No Active lane raises an exception that MODE.FPXE enables (R176). -/
def Group.NoFpTrap (g : Group) (p : Split) (sel : MaskSel) (fl : Nat → FFlags) : Prop :=
  ∀ i < 64, inMask (g.activeMask p.mask sel) i = true → fl i &&& BitVec.ofNat 7 g.mFpxe = 0

/-- Element `j` of a source word in a format, a subnormal read as zero under DAZ (R138, R166). -/
def Group.srcElem (g : Group) (fm : Fmt) (x : Word) (j : Nat) : Nat := fm.daz g.mDaz (bits x.toNat (fm.w * j) fm.w)

/-- An operation on the elements of three words of the effective type, each element rounded by its own part of the random
word under stochastic rounding (R164, R165, R178, R179): the word of the results and the flags raised. With `raw` the elements
of b are integers. -/
def Group.floatWord (g : Group) (px : Option AluPx) (raw : Bool) (op : FOp) (rand a b c : Word) : Word × FFlags :=
  let fm := fmtOf (g.effType px)
  packRes fm ((List.range (32 / fm.w)).map fun j =>
    op fm (rndOf (g.effRnd px) (bits rand.toNat (fm.w * j) fm.w) fm.w) g.mFtz (g.srcElem fm a j)
      (if raw then bits b.toNat (fm.w * j) fm.w else g.srcElem fm b j) (g.srcElem fm c j))

/-- The random word of a lane: the fourth operand (R165). -/
def Group.randWord (g : Group) (px : Option AluPx) (i : Nat) : Word := g.fourth px (fun _ => 0) i

/-- The second source of a VU floating-point instruction: the uniform word, or the imm7 converted exactly in every element
(R178). -/
def Group.floatSrc (g : Group) (fm : Fmt) (src : VSrc) : Word :=
  match src with
  | .u r => g.sreg r.toNat
  | .imm i => packElems fm.w (copiesOf (32 / fm.w) (BitVec.ofNat fm.w (fm.ofInt i.toInt)))

/-- The prefix of an instruction that rounds: no width, and a random word exactly under stochastic rounding (R165, R178). -/
def Group.Rounds (g : Group) (px : Option AluPx) : Prop :=
  pxXw px = 0 ∧ (pxRnd px = 6 ↔ pxKind px ≠ 0) ∧ g.rndBad px = false

/-- The prefix of an instruction that does not round: no width, no rounding code and no fourth operand (R178). -/
def NoRounding (px : Option AluPx) : Prop := pxXw px = 0 ∧ pxRnd px = 0 ∧ pxKind px = 0

/-- The operations of two sources that round, with a V3 and a VU form (R179). -/
def roundedOps : List ((V3 → Instr) × (VU → Instr) × FOp) :=
  [(.fadd, .faddVu, opFadd), (.fsub, .fsubVu, opFsub), (.fmul, .fmulVu, opFmul)]

/-- The operations of two sources that choose one of them (R181). -/
def choiceOps : List ((V3 → Instr) × (VU → Instr) × FOp) := [(.fmin, .fminVu, opFmin), (.fmax, .fmaxVu, opFmax)]

/-- The addend of `ffma` and `fdot2` in a lane: the old vd, or the fourth operand when that is not the random word; an imm7 is
converted exactly (R180). -/
def Group.addendWord (g : Group) (fm : Fmt) (px : Option AluPx) (vd i : Nat) : Word :=
  if pxRnd px = 6 ∨ pxKind px = 0 then g.vreg vd i
  else if pxKind px = 3 then g.floatSrc fm (.imm (BitVec.ofNat 7 (pxOp4 px)))
  else g.fourth px (fun _ => 0) i

/-- `fdot2` of three words (R180): the sum of two products of 16-bit elements and an FP32 addend, rounded once. -/
def Group.dotWord (g : Group) (px : Option AluPx) (rand a b c : Word) : Word × FFlags :=
  let fm := fmtOf (g.effType px)
  let x := g.srcElem fm a
  let y := g.srcElem fm b
  let z := g.srcElem fp32 c 0
  let r := evalSum fp32 (rndOf (g.effRnd px) rand.toNat 32) g.mFtz [(fm, x 0), (fm, x 1), (fm, y 0), (fm, y 1), (fp32, z)]
    [(fm.val (x 0), fm.val (y 0)), (fm.val (x 1), fm.val (y 1)), (fp32.val z, oneVal)] 0
  (BitVec.ofNat 32 r.code, r.flags)

/-- The unary instructions on codes (R179, R183): what each makes of an element. -/
def codeOps : List ((V3Un → Instr) × (Fmt → Nat → Nat)) :=
  [(.fabs, fun fm c => c % 2 ^ (fm.w - 1)), (.fneg, fun fm c => (c + 2 ^ (fm.w - 1)) % 2 ^ fm.w),
   (.fclass, fun fm c => 2 ^ fm.classBit c)]

/-- `fcmp` of two words under a condition (R182): whether every element satisfies it, and the flags raised. -/
def Group.floatTest (g : Group) (px : Option AluPx) (c : Cond) (a b : Word) : Bool × FFlags :=
  let fm := fmtOf (g.effType px)
  ((List.range (32 / fm.w)).all fun j => condFloat c (fm.val (g.srcElem fm a j)) (fm.val (g.srcElem fm b j))
      (fm.isNan (g.srcElem fm a j) || fm.isNan (g.srcElem fm b j)),
   (List.range (32 / fm.w)).foldl (fun acc j => acc ||| cmpFlags fm (condOrders c) (g.srcElem fm a j) (g.srcElem fm b j)) 0)

/-- The register groups of an instruction of R194: each allocated, and aligned to 2 for two registers and to 4 for more (R48,
R50, R194). -/
def Group.HasGroups (g : Group) (bs : List (Nat × Nat)) : Prop :=
  ∀ b ∈ bs, (b.2 = 2 → b.1 % 2 = 0) ∧ (2 < b.2 → b.1 % 4 = 0) ∧ b.1 + b.2 ≤ g.vAlloc

/-- The `n` registers from `vd` after a write of `f`, register by register and lane by lane (R5); every other vector register
of `k` holds what it held in `g`. -/
structure GroupWritten (g k : Group) (p : Split) (vd n : Nat) (sel : MaskSel) (zero : Bool) (f : Nat → Nat → Word) : Prop where
  active : ∀ q < n, ∀ i < 64, inMask (g.activeMask p.mask sel) i = true → k.vreg (vd + q) i = f q i
  zeroed : ∀ q < n, ∀ i < g.width, inMask (g.activeMask p.mask sel) i = false → zero = true → k.vreg (vd + q) i = 0
  merged : ∀ q < n, ∀ i < g.width, inMask (g.activeMask p.mask sel) i = false → zero = false →
    k.vreg (vd + q) i = g.vreg (vd + q) i
  above : ∀ q < n, ∀ i < 64, g.width ≤ i → k.vreg (vd + q) i = g.vreg (vd + q) i
  others : ∀ r, r < vd ∨ vd + n ≤ r → ∀ i < 64, k.vreg r i = g.vreg r i

/-- The words of the destination registers of an instruction of R194 in one lane, from what each element gives: its code for
each register, and the flags it raises (R195). -/
def Group.elemWords (g : Group) (px : Option AluPx) (f : Nat → List Nat × FFlags) : (Nat → Word) × FFlags :=
  let fm := fmtOf (g.effType px)
  (fun q => packElems fm.w ((List.range (32 / fm.w)).map fun j => BitVec.ofNat fm.w ((f j).1.getD q 0)),
   (List.range (32 / fm.w)).foldl (fun a j => a ||| (f j).2) 0)

/-- The codes of element `j` in the `n` registers from `r`, in lane `i`: an expansion, its first word first (R195). -/
def Group.expansion (g : Group) (px : Option AluPx) (r n i j : Nat) : List Nat :=
  (upFrom r n).map fun q => g.srcElem (fmtOf (g.effType px)) (g.vreg q i) j

/-- The transforms of two words into a sum or product and its error (R200, R201). -/
def pairOps : List ((V3 → Instr) × (Fmt → Bool → Nat → Nat → Nat × Nat × FFlags)) :=
  [(.twosum, twoSum), (.fastsum, fastSum), (.twodiff, fun fm z a b => twoSum fm z a (if fm.isNan b then b else fm.negate b)),
   (.twoprod, twoProd)]

/-- The expansion instructions of two sources, with the operation and whether the second source is one word (R206, R207). -/
def expansionOps : List ((V3 → Instr) × XOp × Bool) :=
  [(.xadd, .add, false), (.xsub, .sub, false), (.xmul, .mul, false), (.xmulw, .mulw, true)]

/-- The expansion instructions of one source (R208). -/
def expansionUnOps : List ((V3Un → Instr) × XOp) := [(.xrenorm, .renorm), (.xcompress, .compress)]

/-- A rounding mode for each element of the effective type in a lane (R164, R165). -/
def Group.elemRnd (g : Group) (px : Option AluPx) (i j : Nat) : Rnd :=
  let w := (fmtOf (g.effType px)).w
  rndOf (g.effRnd px) (bits (g.randWord px i).toNat (w * j) w) w

/-- The two FP32 words of `xround.f32` in a lane, and the flags they raise (R211). -/
def Group.roundedF32 (g : Group) (px : Option AluPx) (va i : Nat) : (Nat → Word) × FFlags :=
  let r := fun j => roundWords (fmtOf (g.effType px)) fp32 (rndOf (g.effRnd px) (g.randWord px i).toNat 32) g.mFtz
    (g.expansion px va (g.effXw px) i j)
  (fun q => BitVec.ofNat 32 (r q).code, (r 0).flags ||| (r 1).flags)

/-- The registers that hold the elements of type `td` that one register of type `ts` gives, or 1 (R187). -/
def spread (ts td : Nat) : Nat := max 1 ((32 / elemWidth ts) / (32 / elemWidth td))

/-- A conversion in a lane (R187): element `j` of the source group to element `j` of the destination group, each rounded by its
own part of the random word; the words of the destination registers and the flags raised. -/
def Group.converted (g : Group) (px : Option AluPx) (va td : Nat) (op : Rnd → Nat → Nat × FFlags) (i : Nat) :
    (Nat → Word) × FFlags :=
  let ts := g.effType px
  let ns := 32 / elemWidth ts
  let nd := 32 / elemWidth td
  let wd := elemWidth td
  let r := fun j => op (rndOf (g.effRnd px) (bits (g.randWord px i).toNat (wd * (j % nd)) wd) wd)
    (bits (g.vreg (va + j / ns) i).toNat (elemWidth ts * (j % ns)) (elemWidth ts))
  (fun q => packElems wd ((List.range nd).map fun t => BitVec.ofNat wd (r (q * nd + t)).1),
   (List.range (max ns nd)).foldl (fun a j => a ||| (r j).2) 0)

/-- A source element widened to FP32, a subnormal read as zero under DAZ (R166, R169). -/
def Group.widenElem (g : Group) (px : Option AluPx) (c : Nat) : Nat :=
  (fmtOf (g.effType px)).widen ((fmtOf (g.effType px)).daz g.mDaz c)

/-- The special functions (R215). -/
noncomputable def sfuOps : List ((Sfu → Instr) × SfuFn) :=
  [(.frcp, .rcp), (.frsqrt, .rsqrt), (.fsqrt, .sqrt), (.fexp2, .exp2), (.flog2, .log2), (.fsinpi, .sinpi), (.fcospi, .cospi),
   (.ftanh, .tanh), (.fsigm, .sigm), (.fgelu, .gelu), (.fsilu, .silu), (.fsoftp, .softp)]

/-- What an outstanding operation owes a vector destination (R5, R77): each Active lane its value of `f`, and under zeroing
each other lane below the width 0. -/
def Owes (g : Group) (p : Split) (op : PendOp) (vd : Nat) (sel : MaskSel) (zero : Bool) (f : Nat → Word) : Prop :=
  ∀ d, d ∈ op.dests ↔ d.reg = vName vd ∧ d.lane < g.width ∧
    (inMask (g.activeMask p.mask sel) d.lane = true ∧ d.val = f d.lane ∨
     inMask (g.activeMask p.mask sel) d.lane = false ∧ zero = true ∧ d.val = 0)

/-- A special function of a word: its elements, and the flags they raise (R217). -/
def Group.sfuWord (g : Group) (px : Option AluPx) (fn : SfuFn) (x : Word) : Word × FFlags :=
  packRes (fmtOf (g.effType px)) ((List.range (32 / (fmtOf (g.effType px)).w)).map fun j =>
    fn.element (fmtOf (g.effType px)) g.mDaz g.mFtz (bits x.toNat ((fmtOf (g.effType px)).w * j) (fmtOf (g.effType px)).w))

/-- The results of R222 in FP32: for −∞, −0, +0 and +∞, each with its flag. -/
def sfuSpecials : List (SfuFn × List (Nat × FFlags)) :=
  [(.rcp, [(0x80000000, 0), (0xFF800000, flagDZ), (0x7F800000, flagDZ), (0, 0)]),
   (.rsqrt, [(0x7FC00000, flagIV), (0xFF800000, flagDZ), (0x7F800000, flagDZ), (0, 0)]),
   (.sqrt, [(0x7FC00000, flagIV), (0x80000000, 0), (0, 0), (0x7F800000, 0)]),
   (.exp2, [(0, 0), (0x3F800000, 0), (0x3F800000, 0), (0x7F800000, 0)]),
   (.log2, [(0x7FC00000, flagIV), (0xFF800000, flagDZ), (0xFF800000, flagDZ), (0x7F800000, 0)]),
   (.sinpi, [(0x7FC00000, flagIV), (0x80000000, 0), (0, 0), (0x7FC00000, flagIV)]),
   (.cospi, [(0x7FC00000, flagIV), (0x3F800000, 0), (0x3F800000, 0), (0x7FC00000, flagIV)]),
   (.tanh, [(0xBF800000, 0), (0x80000000, 0), (0, 0), (0x3F800000, 0)]),
   (.sigm, [(0, 0), (0x3F000000, 0), (0x3F000000, 0), (0x3F800000, 0)]),
   (.silu, [(0x80000000, 0), (0x80000000, 0), (0, 0), (0x7F800000, 0)]),
   (.gelu, [(0x80000000, 0), (0x80000000, 0), (0, 0), (0x7F800000, 0)]),
   (.softp, [(0, 0), (0x3F317218, 0), (0x3F317218, 0), (0x7F800000, 0)])]

/-- The FP32 code that a special function delivers of an FP32 code, without DAZ and FTZ (R217). -/
def SfuFn.f32 (fn : SfuFn) (c : Nat) : Nat := (fn.element fp32 false false c).code

/-- The rebuilt value of a core procedure (R219), exact, of a value `x` with 2^e ≤ |x| < 2^(e+1), over the table evaluator
(R218, R220); none where the procedure has no table value. -/
def rebuilt (fn : SfuFn) (x : ℚ) (e : Int) : Option ℚ :=
  let u : ℚ := |x| / 2 ^ e - 1
  let sgn : ℚ := if x < 0 then -1 else 1
  let ev := fun (g : GFun) (u : ℚ) => (g.v ⌊u * 2 ^ 23⌋.toNat : ℚ) / 2 ^ 28
  let y : ℚ := 2 * |x|
  let w : ℚ := y - ⌊y⌋
  match fn with
  | .rcp => some (sgn * 2 ^ (-e) * ev .rcp u)
  | .rsqrt => if x < 0 then none
      else some (if e % 2 = 0 then 2 ^ (-(e / 2)) * ev (.rsqrt false) u else 2 ^ (-((e - 1) / 2)) * ev (.rsqrt true) u)
  | .sqrt => if x < 0 then none
      else some (if e % 2 = 0 then 2 ^ (e / 2) * ev (.sqrt false) u else 2 ^ ((e - 1) / 2) * ev (.sqrt true) u)
  | .exp2 => if -150 ≤ x ∧ x < 128 then some (2 ^ ⌊x⌋ * ev .exp2 (x - ⌊x⌋)) else none
  | .log2 => if x < 0 then none else some (e + ev .log2 u)
  | .sinpi => if |x| < 2 ^ (-12 : Int) then some (x * (fp32.dy 0x40490FDB).value)
      else some (sgn * match (⌊y⌋ % 4).toNat with
        | 0 => ev .gs w
        | 1 => ev .gc w
        | 2 => -ev .gs w
        | _ => -ev .gc w)
  | .cospi => some (match (⌊y⌋ % 4).toNat with
      | 0 => ev .gc w
      | 1 => -ev .gs w
      | 2 => -ev .gc w
      | _ => ev .gs w)
  | .tanh => some (if |x| < 2 ^ (-12 : Int) then x else if 16 ≤ |x| then sgn else sgn * 2 ^ e * ev (.tanh (e + 12).toNat) u)
  | _ => none

/-- A table entry of R218 is the nearest integer to the function, its slope and half its curvature at the centre `m`, scaled: of
1/(1 + u), and of (c(1 + u))^−1/2 and (c(1 + u))^1/2 by their squares. -/
def EntryNearest (fn : GFun) (m : ℚ) (t : Int × Int × Int) : Prop :=
  let near := fun (k : Int) (q : ℚ) => |(k : ℚ) - q| ≤ 1 / 2
  let nearRoot := fun (k : Int) (q : ℚ) => ((k : ℚ) - 1 / 2) ^ 2 ≤ q ∧ q ≤ ((k : ℚ) + 1 / 2) ^ 2 ∧ 0 < k
  match fn with
  | .rcp => near t.1 (2 ^ 28 / (1 + m)) ∧ near (-t.2.1) (2 ^ 28 / (1 + m) ^ 2) ∧ near t.2.2 (2 ^ 28 / (1 + m) ^ 3)
  | .rsqrt odd =>
    let c : ℚ := if odd then 2 else 1
    nearRoot t.1 (2 ^ 56 / (c * (1 + m))) ∧ nearRoot (-t.2.1) (2 ^ 54 / (c * (1 + m) ^ 3)) ∧
      nearRoot t.2.2 (9 * 2 ^ 50 / (c * (1 + m) ^ 5))
  | .sqrt odd =>
    let c : ℚ := if odd then 2 else 1
    nearRoot t.1 (2 ^ 56 * c * (1 + m)) ∧ nearRoot t.2.1 (2 ^ 54 * c / (1 + m)) ∧ nearRoot (-t.2.2) (2 ^ 50 * c / (1 + m) ^ 3)
  | _ => True

/-- The uniform floating-point instructions of two sources, whether each reads sd as well, and the operation (R184). -/
def uniformFloatOps : List ((S3 → Instr) × FOp) := [(.sfadd, opFadd), (.sfmul, opFmul), (.sffma, opFfma)]

/-- The second source of a uniform floating-point instruction as an FP32 code: the register, or the imm9 converted exactly
(R184). -/
def Group.floatImm (g : Group) (src : SSrc) : Nat :=
  match src with
  | .r r => (g.sreg r.toNat).toNat
  | .imm i => fp32.ofInt i.toInt

/-- The lane that `shfl` reads for lane `i`, of a width and a distance code, by mode: up, down, exclusive or, and the index of the
fourth operand (R225); a lane outside the group is replaced by `i`. -/
def shuffleFrom (mode : Nat) (w code idx i : Nat) : Nat :=
  let d := if code < 8 then 2 ^ code else w / 2 ^ (code - 7)
  let j : Int := match mode with
    | 0 => (i : Int) - d
    | 1 => i + d
    | 2 => (i ^^^ d : Nat)
    | _ => (idx % w : Nat)
  if j < 0 ∨ (w : Int) ≤ j then i else j.toNat

/-- The combination of two words of the effective type, `a` of the lower lane, with the flags that have entered each (R228). -/
def Group.combined (g : Group) (px : Option AluPx) (op : Nat) (a b : Word × FFlags) : Word × FFlags :=
  let w := elemWidth (g.effType px)
  match op with
  | 0 => (mapElems w (fun x y => x + y) a.1 b.1, a.2 ||| b.2)
  | 1 => (mapElems w (fun x y => if x.slt y then x else y) a.1 b.1, a.2 ||| b.2)
  | 2 => (mapElems w (fun x y => if x.slt y then y else x) a.1 b.1, a.2 ||| b.2)
  | 3 => (mapElems w (fun x y => if x.ult y then x else y) a.1 b.1, a.2 ||| b.2)
  | 4 => (mapElems w (fun x y => if x.ult y then y else x) a.1 b.1, a.2 ||| b.2)
  | 5 => (mapElems w (fun x y => x &&& y) a.1 b.1, a.2 ||| b.2)
  | 6 => (mapElems w (fun x y => x ||| y) a.1 b.1, a.2 ||| b.2)
  | 7 => (mapElems w (fun x y => x ^^^ y) a.1 b.1, a.2 ||| b.2)
  | 8 => ((g.floatWord px false opFadd 0 a.1 b.1 0).1, a.2 ||| b.2 ||| (g.floatWord px false opFadd 0 a.1 b.1 0).2)
  | 9 => ((g.floatWord px false opFmin 0 a.1 b.1 0).1, a.2 ||| b.2 ||| (g.floatWord px false opFmin 0 a.1 b.1 0).2)
  | _ => ((g.floatWord px false opFmax 0 a.1 b.1 0).1, a.2 ||| b.2 ||| (g.floatWord px false opFmax 0 a.1 b.1 0).2)

/-- A combination in which an absent side gives the other (R228). -/
def Group.joined (g : Group) (px : Option AluPx) (op : Nat) (a b : Option (Word × FFlags)) : Option (Word × FFlags) :=
  match a, b with
  | none, b => b
  | a, none => a
  | some x, some y => some (g.combined px op x y)

/-- The balanced tree of `lred` over the 2^n lanes from `b`: the lower half combined with the upper half (R228). -/
def Group.blockTree (g : Group) (px : Option AluPx) (op : Nat) (x : Nat → Option (Word × FFlags)) : Nat → Nat → Option (Word × FFlags)
  | 0, b => x b
  | n + 1, b => g.joined px op (g.blockTree px op x n b) (g.blockTree px op x n (b + 2 ^ n))

/-- What `lscan` holds in lane `i` after the steps with distances 1 to 2^(n−1) (R228). -/
def Group.scanned (g : Group) (px : Option AluPx) (op : Nat) (x : Nat → Option (Word × FFlags)) : Nat → Nat → Option (Word × FFlags)
  | 0, i => x i
  | n + 1, i =>
    if 2 ^ n ≤ i then g.joined px op (g.scanned px op x n (i - 2 ^ n)) (g.scanned px op x n i) else g.scanned px op x n i

/-- The identity of an operation of R228 in every element of a word. -/
def scanIdentity (op t : Nat) : Word :=
  let fm := fmtOf t
  let w := elemWidth t
  let one := fun (n : Nat) => packElems w (copiesOf (32 / w) (BitVec.ofNat w n))
  match op with
  | 1 => one (2 ^ (w - 1) - 1)
  | 2 => one (2 ^ (w - 1))
  | 3 => one (2 ^ w - 1)
  | 5 => one (2 ^ w - 1)
  | 8 => one (fm.code true 0)
  | 9 => one fm.infMag
  | 10 => one (fm.code true fm.infMag)
  | _ => 0

/-- `k` is `h` with the account of an issue entered, its issuing split, which was `p`, having left the Current state for `st` at
the address `pc` (R92). -/
def Parked (k h : Group) (p : Split) (st : SplitState) (pc : DWord) (clock : Nat) : Prop :=
  k = { (h.charged k).setIssuing { p with pc := pc, st := st, held := none, safeAt := none } with
        issuesInTurn := 0, blockedSince := clock }

/-- `k` is `g` with its issuing split, which was `p`, Waiting in its instruction for `w` (R92). The instruction has issued (R72):
its account is entered, it keeps its words and, as `marker`, whether the part of it before the wait is done, and no register or
counter has changed. SIG as it was, which a trap of the instruction would find, is kept too (log entry 91). -/
def Waits (k g : Group) (p : Split) (w : WaitFor) (ws : List Nat) (marker : Bool) (clock : Nat) : Prop :=
  ∃ h : Held, h.words = ws ∧ h.marker = marker ∧ h.since = clock ∧ h.sig = g.sig ∧ h.mode = g.mode ∧
    k = { (g.charged k).setIssuing { p with st := .waiting w, held := some h, safeAt := none } with blockedSince := clock }

/-- `k` is `g` with its issuing split, which was `p`, Waiting for `w`, and what it keeps for its instruction names `gs`: the team or
the frame that it waits for (R372, R376, R389). -/
def Keeps (k g : Group) (p : Split) (w : WaitFor) (gs : List Nat) (clock : Nat) : Prop :=
  ∃ h : Held, h.grids = gs ∧
    k = { (g.charged k).setIssuing { p with st := .waiting w, held := some h, safeAt := none } with blockedSince := clock }

/-- Split `r` is `p` with its wait over, on counters, a pot or as a parked continuation, if its condition holds (R81, R97,
R305). -/
def WaitEnded (ok : WaitCond → Bool) (p r : Split) : Prop :=
  r = { p with st := r.st } ∧
    ((∃ c, p.st = .waiting (.cond c) ∧ ok c = true ∧ r.st = .waiting (.cond .always)) ∨
     (∃ c a, p.st = .parkedCont c a ∧ ok c = true ∧ r.st = .parkedCont .always a) ∨
     r.st = p.st ∧ (∀ c, p.st = .waiting (.cond c) → ok c = false) ∧ ∀ c a, p.st = .parkedCont c a → ok c = false)

/-- The word that a fetch of a group reads at a flat address (R98). -/
def WordAt (s : State) (gid : Nat) (g : Group) (a : DWord) (w : Nat) : Prop :=
  bits a.toNat 60 4 = 0 ∧ ∃ pl, checkAddr s (g.agent gid) a.toNat 4 1 .fetch = .ok pl ∧ w = ofBytes (s.readAt pl 4)

/-- The words of the instruction at a split's PC (R24, R33): two where the first is a PREFIX or LIMM word. -/
def CodeAt (s : State) (gid : Nat) (g : Group) (p : Split) (ws : List Nat) : Prop :=
  ∃ w, WordAt s gid g p.pc w ∧
    (isPrefixWord w = false ∧ isLimmWord w = false ∧ ws = [w] ∨
     (isPrefixWord w = true ∨ isLimmWord w = true) ∧ ∃ x, WordAt s gid g (codeStep (s.textBase g) p.pc 4) x ∧ ws = [w, x])

/-- State `u` is `s` with the marks that the read of a code line makes: its translation installed and its page counted (R353,
R366). -/
def CodeMarked (s u : State) (gid : Nat) (g : Group) (p : Split) : Prop :=
  ∃ pl, checkAddr s (g.agent gid) p.pc.toNat 4 1 .fetch = .ok pl ∧
    u = (s.install g.part (coreOf gid) pl).countPage g.part (coreOf gid) pl

/-- `k` is `g` with its issuing split, which was `p`, Waiting to issue its instruction for `w` (R76, R92, R338): nothing of it has
been done, and nothing is accounted. -/
def Stands (k g : Group) (p : Split) (w : WaitFor) (clock : Nat) : Prop :=
  k = { g.setIssuing { p with st := .waiting w, held := none } with blockedSince := clock }

/-- What a trap entry makes of the state (R381, R382): the group's trap registers, its handler's split and MODE, the frame in the
kitty with every register of R382, and nothing else. -/
structure TrapEntered (s t : State) (x : Part) (gid : Nat) (g : Group) (p : Split) (cause : Nat) (tval tmask : DWord) : Prop where
  group : ∃ k, t.group gid = some k ∧ k.tcause = BitVec.ofNat 32 cause ∧ k.tpc = p.pc ∧ k.tval = tval ∧ k.tmask = tmask ∧
    k.hwdog = 0 ∧ k.safeCount = 0 ∧ k.mode = (0x0063811 ||| (g.mode &&& 0x0080000)) ∧ k.priv = true ∧
    (∃ q, k.issuing = some q ∧ q.mask = p.mask ∧ q.joins = [] ∧ q.held = none ∧ q.pc = x.tba + BitVec.ofNat 64 (256 * cause)) ∧
    k.vregs = g.vregs ∧ k.sregs = g.sregs ∧ k.preds = g.preds ∧ k.tiles = g.tiles ∧ k.accs = g.accs ∧ k.amax = g.amax ∧
    k.scc = g.scc ∧ k.flags = g.flags ∧ k.sig = g.sig ∧ k.msig = g.msig ∧ k.cnt = g.cnt ∧ k.seat = g.seat ∧
    k.splits.map (fun q => (q.slot, q.mask, q.pc, q.joins)) = g.splits.map (fun q => (q.slot, q.mask, q.pc, q.joins))
  others : ∀ id, id ≠ gid → t.group id = s.group id
  mem : t.mem = s.mem
  sreg : ∀ n < 64, ofBytes (t.sbytes (frameKey x gid + 4 * n) 4) =
    if n < g.sAlloc ∨ n = 62 then (g.sreg n).toNat else 0
  pred : ∀ n < 8, ofBytes (t.sbytes (frameKey x gid + 0x100 + 8 * n) 8) = (g.pred n &&& maskBelow g.width).toNat
  status : ofBytes (t.sbytes (frameKey x gid + 0x140) 4) = g.modeWord.toNat ∧
    ofBytes (t.sbytes (frameKey x gid + 0x144) 4) = g.scc.toNat ∧ ofBytes (t.sbytes (frameKey x gid + 0x148) 4) = g.flags.toNat ∧
    ofBytes (t.sbytes (frameKey x gid + 0x14C) 4) = g.sig.toNat ∧ ofBytes (t.sbytes (frameKey x gid + 0x150) 4) = g.msig.toNat
  cause : ofBytes (t.sbytes (frameKey x gid + 0x154) 4) = cause ∧ ofBytes (t.sbytes (frameKey x gid + 0x158) 8) = p.pc.toNat ∧
    ofBytes (t.sbytes (frameKey x gid + 0x160) 8) = tval.toNat ∧ ofBytes (t.sbytes (frameKey x gid + 0x168) 8) = tmask.toNat
  zeros : ∀ n, 0x170 ≤ n → n < 0x200 → t.sbyte (frameKey x gid + n) = 0
  spad : ∀ k, (k < frameKey x gid ∨ frameKey x gid + 512 ≤ k) → t.sbyte k = s.sbyte k

/-- The words of an illegal or misused instruction in TVAL: the first, and the second of a pair (R59). -/
def tvalWords (first second : Nat) : DWord := BitVec.ofNat 64 (first + 2 ^ 32 * second)

/-- The long branches, each with its test of SCC (R99). -/
def branchOps : List ((Br → Instr) × (BitVec 5 → Bool)) :=
  [(.br, fun _ => true), (.brz, fun c => sccZ c), (.brnz, fun c => !sccZ c), (.brlt, fun c => sccN c != sccV c),
   (.brge, fun c => sccN c == sccV c), (.brltu, fun c => !sccC c), (.brgeu, fun c => sccC c)]

/-- The status registers of the unprivileged view that a read gives, by index, as the group `k` holds them after the read: SIG
includes the word of the read (R155, R156, R157). -/
def statusView (s : State) (gid : Nat) (g k : Group) : List (Nat × Word) :=
  [(0x00, 64), (0x01, BitVec.ofNat 32 g.width), (0x02, BitVec.ofNat 32 g.index), (0x03, g.teamX), (0x04, g.teamY), (0x05, g.teamZ),
   (0x06, g.gridId), (0x07, BitVec.ofNat 32 g.depth), (0x08, loWord g.seat), (0x09, hiWord g.seat),
   (0x0A, BitVec.ofNat 32 (gid / 128 % 16)), (0x0B, BitVec.ofNat 32 (gid / 2048 % 12)), (0x0C, BitVec.ofNat 32 (gid / 24576)),
   (0x0D, BitVec.ofNat 32 s.pkg.number),
   (0x0E, match g.role with
      | .vector => 0
      | .dealer => 1
      | .matrix => 2),
   (0x0F, BitVec.ofNat 32 g.part), (0x10, (if g.priv then 0x80000000 else 0) ||| g.mode.setWidth 32), (0x11, g.flags.setWidth 32),
   (0x12, g.scc.setWidth 32), (0x13, BitVec.ofNat 32 s.clock), (0x14, g.readLatch), (0x15, BitVec.ofNat 32 s.time),
   (0x16, g.readLatch), (0x17, k.sig), (0x18, g.msig), (0x19, g.lscale), (0x1A, g.ovf.setWidth 32), (0x1B, g.cntWord),
   (0x1C, g.mprog), (0x1D, g.amaxSel.setWidth 32), (0x1E, loWord g.data), (0x1F, hiWord g.data), (0x20, g.tcause),
   (0x21, loWord g.tpc), (0x22, hiWord g.tpc), (0x23, loWord g.tval), (0x24, hiWord g.tval), (0x25, loWord g.tmask),
   (0x26, hiWord g.tmask)]

/-- The fields of MODE by their selectors: the place and the width of each (R41, R46). -/
def modeFields : List (BitVec 4 × Nat × Nat) :=
  [(0, 0, 4), (1, 4, 3), (2, 7, 1), (3, 8, 1), (4, 9, 2), (5, 11, 4), (6, 15, 1), (7, 16, 3), (8, 19, 1), (9, 20, 5)]

/-- The physical address of the leaf entry that a place was translated by, if it was (R348). -/
def Place.entryAt : Place → Option Nat
  | .phys _ _ _ src _ => src.entry
  | .spad _ => none

/-- An access of `z` bytes at a flat address passes the checks of R271 and R301 and names `pl`, and a read meets no poisoned
byte there (R396). -/
structure Reaches (s : State) (gid : Nat) (g : Group) (acc : Acc) (z addr : Nat) (pl : Place) : Prop where
  ok : checkAddr s (g.agent gid) addr z z acc = .ok pl
  free : s.rangeConflict (g.agent gid) { lane := 0, addr := addr, size := z, align := z } pl acc.writes = false
  clean : acc = .write ∨ s.poisonAt pl z = []

/-- The entry that a place was translated by has its A bit already (R353). -/
def Marked (s : State) (pl : Place) : Prop := ∀ e, pl.entryAt = some e → pteA (s.memNat e 8) = true

/-- A walk gave a core the translation of a place: neither its TLB nor its die's cache holds it (R353, R355). -/
def Place.WalkedBy (pl : Place) (s : State) (part core : Nat) : Prop :=
  ∀ pa kind key src ls e, pl = .phys pa kind key src ls → src.entry = some e →
    let t : TlbEntry := { part := part, va := src.va, level := src.level, entry := e, pte := src.pte, lines := ls }
    t ∉ smapGet [] s.tlbs core ∧ t ∉ smapGet [] s.dieTlbs (dieOf core)

/-- Byte `a` of physical memory is one that a write of `z` bytes at a place changes: one of those bytes, or, on a keyed page,
one of their lines (R403). -/
def Place.covers (pl : Place) (z a : Nat) : Prop :=
  match pl with
  | .phys pa _ none _ _ => pa ≤ a ∧ a < pa + z
  | .phys pa _ (some _) _ _ => a / 128 ∈ linesOf pa z
  | .spad _ => False

/-- Byte `a` of the scratchpads is one that a write of `z` bytes at a place changes. -/
def Place.coversSpad (pl : Place) (z a : Nat) : Prop :=
  match pl with
  | .spad k => k ≤ a ∧ a < k + z
  | _ => False

/-- Whether a lane is Active for a memory instruction (R5, R261). -/
def Group.laneOn (g : Group) (p : Split) (px : Option MemPx) (i : Nat) : Bool := inMask (g.activeMask p.mask (memMask px)) i

/-- The scope of a memory instruction is legal: none before a weak access, and for a strong one not 000 in both the prefix and
MODE (R43, R261). -/
def Group.ScopeOk (g : Group) (px : Option MemPx) (strong : Bool) : Prop :=
  (strong = false → pxScope px = 0) ∧ (strong = true → pxScope px = 0 → g.mScope ≠ 0)

/-- The flat address of a lane: a base pair, a register when it is named, and the immediate of the prefix (R261, R309). -/
def Group.laneAddr (g : Group) (px : Option MemPx) (k : Nat) (off : Option Nat) (i : Nat) : Nat :=
  (g.spair (2 * k) + (match off with
    | some r => (g.vreg r i).setWidth 64
    | none => 0) + (match px with
    | some q => q.imm.signExtend 64
    | none => 0)).toNat

/-- The groups of `t` are those of `s` with `gid` become `k`, but for last-page registers (R355). -/
structure GroupSet (s t : State) (gid : Nat) (k : Group) : Prop where
  own : ∃ q, t.group gid = some q ∧ q = { k with lastPages := q.lastPages }
  others : ∀ id, id ≠ gid → (t.group id).map (fun q => { q with lastPages := [] }) = (s.group id).map fun q => { q with lastPages := [] }

/-- `t` is `s` with group `gid` become `k` after reads: beside it only what caches and translation structures hold, the counts
of the pages, the A bits of entries, the poison of their bytes, and the numbering of operations and of free values may differ (R353,
R355, R359, R366). -/
structure Touched (s t : State) (gid : Nat) (k : Group) (n : Nat) : Prop where
  only : ∃ gs d pg tl dt m po r, t = { s with groups := gs, dir := d, pages := pg, tlbs := tl, dieTlbs := dt, mem := m, poison := po,
                                              serial := r, nextId := n }
  groups : GroupSet s t gid k

/-- `t` is `s` with group `gid` become `k` after writes: beside what `Touched` allows, only the scratchpads, the poison of their
bytes and the bytes that a racing load may still read may differ. -/
structure Wrote (s t : State) (gid : Nat) (k : Group) (n : Nat) : Prop where
  only : ∃ gs d pg tl dt m po r sp spo hi, t = { s with groups := gs, dir := d, pages := pg, tlbs := tl, dieTlbs := dt, mem := m,
                                                        poison := po, serial := r, nextId := n, spad := sp, spadPoison := spo, hist := hi }
  groups : GroupSet s t gid k

/-- The A bits after the accesses of a set by a core (R353): that of each entry that a walk was translated by is 1, and no byte
changes but by the setting of such a bit. -/
structure EntriesMarked (s t : State) (part core : Nat) (acc : Nat → Nat → Prop) (pl : Nat → Nat → Place) : Prop where
  set : ∀ i j e, acc i j → (pl i j).WalkedBy s part core → (pl i j).entryAt = some e → (t.byte e).getLsbD 6 = true
  only : ∀ a, t.byte a = s.byte a ∨ (t.byte a = s.byte a ||| 0x40 ∧ ∃ i j, acc i j ∧ (pl i j).entryAt = some a)

/-- Byte `a` of physical memory is one that a read of `z` bytes at a place takes at the home: one of those bytes, of the replica
where it reads one (R368), or, on a keyed page, one of their lines (R403). -/
def Place.readsFrom (pl : Place) (z a : Nat) : Prop :=
  match pl with
  | .phys _ _ none src _ => src.rd ≤ a ∧ a < src.rd + z
  | .phys _ _ (some _) src _ => a / 128 ∈ linesOf src.rd z
  | .spad _ => False

/-- No access of a set reads the A bit that another one sets (R353). -/
def MarksApart (s : State) (acc : Nat → Nat → Prop) (z : Nat) (pl : Nat → Nat → Place) : Prop :=
  ∀ i j i' j' e, acc i j → acc i' j' → (pl i' j').entryAt = some e → Marked s (pl i' j') ∨ ¬(pl i j).readsFrom z e

/-- The L1 of a cluster has nothing of the lines at a place for the home (R360). -/
def Unsent (s : State) (cl : Nat) (pl : Place) (z : Nat) : Prop :=
  ∀ l ∈ pl.lines z, (∀ a ∈ (s.dirEntry l).arriving, a.1 ≠ cl) ∧ ∀ c, tabGet (s.dirEntry l).l1 cl = some c → c.dirty = 0

/-- `x` is a number that a load of `z` bytes at a place may read (R259, R275, R277, R283): each byte is the one at the home for
a strong load, and for a weak one that of the cluster's L1, where it holds the line, or else of the home, or else one that a
racing store replaced since the group last synchronised. -/
def ReadsAs (s : State) (gid : Nat) (g : Group) (p : Split) (strong : Bool) (pl : Place) (z x : Nat) : Prop :=
  x < 2 ^ (8 * z) ∧ ∀ b < z,
    BitVec.ofNat 8 (x / 2 ^ (8 * b)) =
      (if strong then s.readAt pl z else s.weakBytes (clusterOf (coreOf gid)) pl z).getD b 0 ∨
    (strong = false ∧ BitVec.ofNat 8 (x / 2 ^ (8 * b)) ∈ s.staleBytes gid p.mask g.syncAt (pl.key + b))

/-- An operation just issued by a split: of a kind, on a counter, with flags to merge, and with nothing written over yet (R75, R77). -/
def Fresh (op : PendOp) (p : Split) (kind : PendKind) (counter : Nat) : Prop :=
  op.kind = kind ∧ op.counter = counter ∧ op.mask = p.mask ∧ op.clobbered = [] ∧ op.flags = 0 ∧ op.trap = none

/-- No page is duplicated (R368). -/
def State.NoReplicas (s : State) : Prop := ∀ r ∈ s.pages, r.2.replicas = []

/-- The key pair and the KIND of the page of a place. -/
def Place.page : Place → Nat × Option (List Byte)
  | .phys _ kind key _ _ => (kind, key)
  | .spad _ => (0, none)

/-- A store at a place stays in the cluster's L1 (R356, R360): it is weak, and the L1 holds the line. -/
def StaysIn (s : State) (cl : Nat) (strong : Bool) (pl : Place) (z : Nat) : Prop := strong = false ∧ s.l1Hit cl pl z true = true

/-- A store at a place goes to its home (R356, R360), for which the cluster's L1 has nothing of its lines: it is strong, or the L1
lacks one of its lines. -/
def GoesHome (s : State) (cl : Nat) (strong : Bool) (pl : Place) (z : Nat) : Prop :=
  Unsent s cl pl z ∧ (strong = true ∨ ∀ pa kind key src ls, pl = .phys pa kind key src ls →
    kind ≠ 0 ∨ ∃ l ∈ linesOf pa z, s.l1Copy l cl key = none)

/-- The accesses of a set write no line that one of them was translated from, in a keyed page or in the L1, and those in one line are
in pages of one key and KIND. -/
structure StoresApart (s : State) (core : Nat) (strong : Bool) (acc : Nat → Nat → Prop) (z : Nat) (pl : Nat → Nat → Place) : Prop where
  entries : ∀ i j i' j', acc i j → acc i' j' → ((pl i j).page.2 ≠ none ∨ StaysIn s (clusterOf core) strong (pl i j) z) →
    ∀ l ∈ (pl i j).lines z, l ∉ (pl i' j').walked
  pages : ∀ i j i' j' l, acc i j → acc i' j' → l ∈ (pl i j).lines z → l ∈ (pl i' j').lines z → (pl i j).page = (pl i' j').page

/-- What the writes of `z` bytes by the accesses of a set at their places leave (R274, R360): in home memory every byte that no
write going there stores as it was, but for A bits, and, for an access that no other one of the set meets, the bytes it writes; a
weak store whose line the cluster's L1 holds is in that copy, dirty, and not at the home; on a keyed page the home holds the
ciphertext (R403); the A bits of the entries that walks found are 1 (R353). No copy of another L1 changes. -/
structure BytesStored (s t : State) (part core : Nat) (strong : Bool) (acc : Nat → Nat → Prop) (z : Nat) (pl : Nat → Nat → Place)
    (val : Nat → Nat → Nat → Byte) : Prop where
  frame : ∀ a, (∀ i j, acc i j → ¬StaysIn s (clusterOf core) strong (pl i j) z → ¬(pl i j).covers z a) →
    t.byte a = s.byte a ∨ (t.byte a = s.byte a ||| 0x40 ∧ ∃ i j, acc i j ∧ (pl i j).entryAt = some a)
  spadFrame : ∀ a, (∀ i j, acc i j → ¬(pl i j).coversSpad z a) → t.sbyte a = s.sbyte a
  bytes : ∀ i j b pa kind src ls, acc i j → b < z → pl i j = .phys pa kind none src ls → ¬StaysIn s (clusterOf core) strong (pl i j) z →
    (∀ i' j', acc i' j' → ¬(i' = i ∧ j' = j) → ¬(pl i' j').covers z (pa + b)) → t.byte (pa + b) = val i j b ∨
      (t.byte (pa + b) = val i j b ||| 0x40 ∧ ∃ i' j', acc i' j' ∧ (pl i' j').entryAt = some (pa + b))
  marks : ∀ i j e, acc i j → (pl i j).WalkedBy s part core → (pl i j).entryAt = some e →
    (∀ i' j', acc i' j' → ¬(pl i' j').covers z e) → (t.byte e).getLsbD 6 = true
  keyed : ∀ i j pa kind key src ls, acc i j → pl i j = .phys pa kind (some key) src ls → ¬StaysIn s (clusterOf core) strong (pl i j) z →
    (∀ i' j', acc i' j' → ¬(i' = i ∧ j' = j) → pa / 128 ∉ (pl i' j').lines z) → pa % 128 + z ≤ 128 →
    t.bytes (128 * (pa / 128)) 128 = xtsEncLine key (128 * (pa / 128)) ((List.range 128).map fun b =>
      if pa % 128 ≤ b ∧ b < pa % 128 + z then val i j (b - pa % 128) else (s.plainLine (some key) (pa / 128)).getD b 0)
  copies : ∀ i j b pa kind key src ls, acc i j → b < z → pl i j = .phys pa kind key src ls → StaysIn s (clusterOf core) strong (pl i j) z →
    (∀ i' j', acc i' j' → ¬(i' = i ∧ j' = j) → ¬(pl i' j').covers z (pa + b)) →
    ∃ c, t.l1Copy ((pa + b) / 128) (clusterOf core) key = some c ∧ c.data.getD ((pa + b) % 128) 0 = val i j b ∧
      c.dirty.getLsbD ((pa + b) % 128) = true
  copyFrame : ∀ l key c, s.l1Copy l (clusterOf core) key = some c → (∀ i j, acc i j → ¬StaysIn s (clusterOf core) strong (pl i j) z → l ∉ (pl i j).lines z) →
    ∃ c', t.l1Copy l (clusterOf core) key = some c' ∧ ∀ b < 128, (∀ i j, acc i j → ∀ pa kind q src ls, pl i j = .phys pa kind q src ls →
      ¬(pa ≤ 128 * l + b ∧ 128 * l + b < pa + z)) → c'.data.getD b 0 = c.data.getD b 0 ∧ c'.dirty.getLsbD b = c.dirty.getLsbD b
  otherL1s : ∀ l x, x ≠ clusterOf core → tabGet (t.dirEntry l).l1 x = tabGet (s.dirEntry l).l1 x
  spadBytes : ∀ i j b k, acc i j → b < z → pl i j = .spad k →
    (∀ i' j', acc i' j' → ¬(i' = i ∧ j' = j) → ¬(pl i' j').coversSpad z (k + b)) → t.sbyte (k + b) = val i j b

/-- The vector loads: the bytes per lane, the registers of data, and word `j` of the number loaded (R261). -/
noncomputable def loadOps : List ((Vmem → Instr) × Nat × Nat × (Nat → Nat → Word)) :=
  [(.ldB, 1, 1, fun x _ => (BitVec.ofNat 8 x).setWidth 32), (.ldBs, 1, 1, fun x _ => (BitVec.ofNat 8 x).signExtend 32),
   (.ldH, 2, 1, fun x _ => (BitVec.ofNat 16 x).setWidth 32), (.ldHs, 2, 1, fun x _ => (BitVec.ofNat 16 x).signExtend 32),
   (.ldW, 4, 1, fun x _ => BitVec.ofNat 32 x), (.ldW2, 8, 2, fun x j => BitVec.ofNat 32 (x / 2 ^ (32 * j))),
   (.ldW4, 16, 4, fun x j => BitVec.ofNat 32 (x / 2 ^ (32 * j)))]

/-- The vector stores: the bytes per lane and the registers of data (R261). -/
noncomputable def storeOps : List ((Vmem → Instr) × Nat × Nat) :=
  [(.stB, 1, 1), (.stH, 2, 1), (.stW, 4, 1), (.stW2, 8, 2), (.stW4, 16, 4)]

/-- Byte `b` of the data that a lane stores from the registers from `vd` (R261). -/
def Group.dataByte (g : Group) (vd i b : Nat) : Byte := (g.vreg (vd + b / 4) i).extractLsb' (8 * (b % 4)) 8

/-- The address of word `j` of the `n` words of `ldx` or `stx` in a lane: the high word from the first base pair, the others,
side by side, from the second at n − 1 times the distance (R212). -/
def Group.xAddr (g : Group) (f : Vmem) (n i j : Nat) : Nat :=
  let d : DWord := (if f.en then (g.vreg f.off.toNat i).setWidth 64 else 0) + (match f.px with
    | some q => q.imm.signExtend 64
    | none => 0)
  if j = 0 then (g.spair (2 * f.k.toNat) + d).toNat
  else (g.spair (2 * f.k.toNat + 2) + BitVec.ofNat 64 (n - 1) * d + BitVec.ofNat 64 (4 * (j - 1))).toNat

/-- The flat address of a uniform memory instruction (R268). -/
def Group.uniAddr (g : Group) (f : Smem) : Nat :=
  (g.spair (2 * f.k.toNat) + BitVec.ofNat 64 (4 * f.woff.toNat) + (match f.px with
    | some q => q.imm.signExtend 64
    | none => 0)).toNat

/-- A prefix of a uniform memory instruction names no mask (R268). -/
def NoMask (px : Option MemPx) : Prop := ∀ q, px = some q → q.mask = 7 ∧ q.inv = true

/-- The one access of an instruction that makes one. -/
def OneAcc (i j : Nat) : Prop := i = 0 ∧ j = 0

/-- `t` is `s` with group `gid` become `k` after one read through a translation: what `Touched` allows, and the A bit (R353). -/
def Visited (s t : State) (gid : Nat) (g k : Group) (n : Nat) (pl : Place) : Prop :=
  Touched s t gid k n ∧ EntriesMarked s t g.part (coreOf gid) OneAcc fun _ _ => pl

/-- The words that an operation owes to `n` uniform registers from `sd`, of which s63 is owed nothing (R49, R268). -/
def OwesWords (op : PendOp) (sd n x : Nat) : Prop :=
  ∀ d, d ∈ op.dests ↔ ∃ j < n, sd + j ≠ 63 ∧ d = { reg := sName (sd + j), lane := 0, val := BitVec.ofNat 32 (x / 2 ^ (32 * j)) }

/-- The uniform atomics, with their registers and their new value from the old one and two words of data (R269). -/
noncomputable def uniformAtomics : List ((Smem → Instr) × Nat × (Word → Word → Word → Word)) :=
  [(.satadd, 1, fun old x _ => old + x), (.satcas, 2, fun old x y => if old = x then y else old)]

/-- What the write of `z` bytes at the home of one place leaves: every other byte as it was but for the A bit of the place's entry
(R353); its bytes, or the ciphertext of the line on a keyed page (R403). -/
structure PlaceStored (s t : State) (z : Nat) (pl : Place) (val : Nat → Byte) : Prop where
  frame : ∀ a, ¬pl.covers z a → t.byte a = s.byte a ∨ (pl.entryAt = some a ∧ t.byte a = s.byte a ||| 0x40)
  spadFrame : ∀ a, ¬pl.coversSpad z a → t.sbyte a = s.sbyte a
  bytes : ∀ b pa kind e ls, b < z → pl = .phys pa kind none e ls → t.byte (pa + b) = val b
  spadBytes : ∀ b k, b < z → pl = .spad k → t.sbyte (k + b) = val b
  keyed : ∀ pa kind key e ls, pl = .phys pa kind (some key) e ls → Marked s pl → pa % 128 + z ≤ 128 →
    t.bytes (128 * (pa / 128)) 128 = xtsEncLine key (128 * (pa / 128)) ((List.range 128).map fun i =>
      if pa % 128 ≤ i ∧ i < pa % 128 + z then val (i - pa % 128) else (s.plainLine (some key) (pa / 128)).getD i 0)

/-- The vector atomics of R310 and `aaddc` (R312): the bytes, the registers of data and of the result, whether MODE.TYPE must be
a 16-bit floating-point type, and the new value from the old one and two words of data. -/
noncomputable def atomOps : List ((Atom → Instr) × (Nat × Nat × Nat) × Bool × (Fmt → Nat → Nat → Nat → Nat)) :=
  let w := fun (f : Word → Word → Word) (_ : Fmt) (o x _ : Nat) => (f (BitVec.ofNat 32 o) (BitVec.ofNat 32 x)).toNat
  let add := fun (fm : Fmt) (a b : Nat) => (opFadd fm .rne false a b 0).code
  [(.aadd, (4, 1, 1), false, w fun o x => o + x), (.asub, (4, 1, 1), false, w fun o x => o - x),
   (.aand, (4, 1, 1), false, w fun o x => o &&& x), (.aor, (4, 1, 1), false, w fun o x => o ||| x),
   (.axor, (4, 1, 1), false, w fun o x => o ^^^ x),
   (.amin, (4, 1, 1), false, w fun o x => if x.slt o then x else o),
   (.atomicAmax, (4, 1, 1), false, w fun o x => if o.slt x then x else o),
   (.aminu, (4, 1, 1), false, w fun o x => if x.ult o then x else o),
   (.amaxu, (4, 1, 1), false, w fun o x => if o.ult x then x else o),
   (.axchg, (4, 1, 1), false, w fun _ x => x),
   (.acas, (4, 2, 1), false, fun _ o x y => if o = x then y else o),
   (.aincw, (4, 1, 1), false, w fun o x => if x.ule o then 0 else o + 1),
   (.afadd, (4, 1, 1), false, fun _ o x _ => add fp32 o x),
   (.afadd2, (4, 1, 1), true, fun fm o x _ => add fm (o % 2 ^ 16) (x % 2 ^ 16) + 2 ^ 16 * add fm (o / 2 ^ 16) (x / 2 ^ 16)),
   (.afmin, (4, 1, 1), false, fun _ o x _ => (opFmin fp32 .rne false o x 0).code),
   (.afmax, (4, 1, 1), false, fun _ o x _ => (opFmax fp32 .rne false o x 0).code),
   (.aaddc, (8, 2, 2), false, fun _ o x y =>
     let t := twoSum fp32 false (o % 2 ^ 32) x
     if fp32.isNan t.1 then t.1 + 2 ^ 32 * t.1
     else if fp32.isInf t.1 then t.1
     else t.1 + 2 ^ 32 * add fp32 (o / 2 ^ 32) (add fp32 t.2.1 y))]

/-- The format word `w` stands in every Active lane of a vector register, of which there is one, is valid, and names allocated
tiles (R236). -/
def Group.FormatWord (g : Group) (p : Split) (vf : Nat) (w : Word) (bfp : Bool) (tiles : List Nat) : Prop :=
  (∃ i < 64, inMask (g.activeMask p.mask .guard) i = true) ∧
    (∀ i < 64, inMask (g.activeMask p.mask .guard) i = true → g.vreg vf i = w) ∧ fwValid w bfp = true ∧ g.HasT tiles

/-- The window record that a quad of uniform registers holds (R237). -/
def Group.windowAt (g : Group) (q : Nat) : Window :=
  { base := (g.sreg (4 * q)).toNat, extent := (g.sreg (4 * q + 1)).toNat, pitch := (g.sreg (4 * q + 2)).toNat,
    soff := (g.sreg (4 * q + 3)).toNat % 2 ^ 16 }

/-- The row numbers that a vector register gathers: 16-bit elements of lanes 0 to 7 (R243). -/
def Group.gathered (g : Group) (v : Nat) : List Nat :=
  (List.range 16).map fun m => (g.vreg v (m / 2)).toNat / 2 ^ (16 * (m % 2)) % 2 ^ 16

/-- What a matrix instruction needs beside its operands: its role, a team `x` whose window its uses fit (R238), fewer than 8
outstanding (R232), free lock entries (R300) and, if it counts, room on c3 (R76). -/
structure MatrixReady (s : State) (gid : Nat) (g : Group) (x : Team) (us : List WinUse) (counted : Bool) : Prop where
  role : g.role = .matrix
  team : g.team.bind s.team = some x
  fits : ∀ u ∈ us, u.check x.winLen = none
  room : g.matq.length < 8
  locks : us.length ≤ s.freeLocks (clusterOf (coreOf gid))
  count : counted = true → g.cnt.c3 < 255

/-- `exec` has put one instruction at the end of the group's matrix queue: with what it read at issue, holding a range-lock entry
for each window it uses, BASE to BASE + EXTENT (R299, log entry 112), and counted on c3 if it counts (R232, R239). Only the lock table and the numbering differ beside the
group. -/
def Enqueued (s t : State) (gid : Nat) (g : Group) (p : Split) (n : Nat) (x : Team) (kind : MatKind) (fmt : Word) (us : List WinUse)
    (counted : Bool) : Prop :=
  ∃ k l m op, t = { s.setGroup gid k with locks := l, nextId := m } ∧
    Issued k { g with matq := g.matq ++ [op], cnt := if counted then { g.cnt with c3 := g.cnt.c3 + 1 } else g.cnt } p
      (s.after g p n) ∧
    op.kind = kind ∧ op.fmt = fmt ∧ op.lscale = g.lscale ∧ op.ovtab = g.ovtab ∧ op.started = false ∧ op.done = 0 ∧
    op.counted = counted ∧ op.waitsLocks = false ∧ (∀ u, us[0]? = some u → op.winA = u.win ∧ op.off = u.off) ∧
    (∀ u, us[1]? = some u → op.winB = u.win) ∧ op.locks.length = us.length ∧
    (∀ id, id ∉ op.locks → tabGet l id = tabGet s.locks id) ∧
    ∀ (j : Nat) u id, us[j]? = some u → op.locks[j]? = some id → tabGet l id = some
      { cluster := clusterOf (coreOf gid), space := (u.span x).space, lo := (u.span x).lo,
        hi := (u.span x).lo + (u.span x).len, write := u.write }

/-- A value truncated toward zero to a multiple of 2^(X−95) (R241). -/
def truncTo (x : Int) (d : Dy) : ℚ :=
  (if d.neg then -1 else 1) * (⌊|d.value| / (2 : ℚ) ^ (x - 95)⌋ : ℚ) * (2 : ℚ) ^ (x - 95)

/-- A matrix instruction is the oldest of a running group of a team (R232), and no checkpoint holds the partition (R409). -/
structure Oldest (s : State) (gid : Nat) (g : Group) (x : Team) (op : MatOp) (r : List MatOp) : Prop where
  group : s.group gid = some g
  team : g.team.bind s.team = some x
  head : g.matq = op :: r
  running : g.residency = .running
  awake : s.quiet g.part = false

/-- The accumulator of a product and the rows of A and B of its next step (R242 to R244). -/
def stepOperands (s : State) (g : Group) (x : Team) (op : MatOp) : Option (Nat × List (List FVal) × List (List FVal)) :=
  let row := fun (w : Window) (off r : Nat) => s.sbytes (x.key (w.base + off + r * w.pitch)) 32
  match op.kind with
  | .mma d ta tb => some (d, g.tileOperand op.fmt ta false, g.tileOperand op.fmt tb true)
  | .mmag d tb idx =>
    some (d, byteOperand (fwA op.fmt) (idx.map fun r => row op.winA op.off r), g.tileOperand op.fmt tb true)
  | .mmas d _ => some (d, byteOperand (fwA op.fmt) ((List.range 16).map fun r => row op.winA (32 * op.done) r),
      byteOperand (fwB op.fmt) ((List.range 16).map fun r => row op.winB (32 * op.done) r))
  | _ => none

/-- Byte `b` of row `r` of a window from an offset, as the scratchpad holds it (R237, R245). -/
def windowByte (s : State) (x : Team) (w : Window) (off r b : Nat) : Byte := s.sbyte (x.key (w.base + off + r * w.pitch) + b)

/-- Row `r` of a drain packs the values `vs` as row `row` of window `w` (R246 to R248): the main or folded row and, in DMODE 1, the
residual one, each for `draint` also transposed, in its second window. -/
def DrainJob (g : Group) (op : MatOp) (d : Nat) (tr : Bool) (r : Nat) (w : Window) (row : Nat) (vs : List DrainVal) : Prop :=
  ∃ h, (h = true → fwDmode op.fmt = true) ∧ row = r + (if h then 16 else 0) ∧
    ((w = op.winA ∧ vs = (List.range 16).map fun c => g.drainAt op d h r c) ∨
      (tr = true ∧ w = op.winB ∧ vs = (List.range 16).map fun m => g.drainAt op d h m r))

/-- A packed row of a drain has byte `v` at scratchpad byte `a` (R247): a byte of its data, or its scale, which follows the data, or
with SP stands in the scale area. -/
def DrainByte (x : Team) (op : MatOp) (w : Window) (row : Nat) (vs : List DrainVal) (a : Nat) (v : Byte) : Prop :=
  let q := drainRow op.fmt op.ovtab vs
  let at_ := x.key (w.base + op.off + row * w.pitch)
  (∃ k < q.1.length, a = at_ + k ∧ v = q.1.getD k 0) ∨
    ∃ e, q.2.1 = some e ∧ v = BitVec.ofNat 8 e ∧ a = if fwSp op.fmt then x.key (w.base + w.soff + row) else at_ + q.1.length

/-- `k` notes poisoned data that a matrix instruction of group `g` reads (R396), in the scratchpad at the base of its first window,
or in its tiles and accumulators. -/
def MatNotes (s : State) (g k : Group) (x : Team) (op : MatOp) : Prop :=
  k.poisoned = if s.matWindowBad x op then (windowAddr op.winA.base, 0) :: g.poisoned
    else if g.matRegBad op then (0, 0) :: g.poisoned else g.poisoned

/-- What the completion of an instruction without steps makes of its tile or accumulator (R245, R250, R251): `k` beside `g`. -/
def Loaded (s : State) (g k : Group) (x : Team) (op : MatOp) : Prop :=
  let word := fun (r c : Nat) => BitVec.ofNat 32 (ofBytes (s.sbytes (x.key (op.winA.base + op.off + r * op.winA.pitch) + 4 * c) 4))
  match op.kind with
  | .accz d => (∀ h, ∀ i < 256, k.acc d h i = 0) ∧ smapGet 0 k.amax d = 0 ∧ (∀ a, a ≠ d → smapGet 0 k.amax a = smapGet 0 g.amax a) ∧
      (∀ a, a ≠ d → ∀ h, ∀ i < 256, k.acc a h i = g.acc a h i) ∧ k.tiles = g.tiles
  | .accld d res => (∀ r < 16, ∀ c < 16, k.acc d false (16 * r + c) = word r c ∧
        k.acc d true (16 * r + c) = if res then word (16 + r) c else 0) ∧
      (∀ a, a ≠ d → ∀ h, ∀ i < 256, k.acc a h i = g.acc a h i) ∧ k.amax = g.amax ∧ k.tiles = g.tiles
  | .accfold d => (∀ i < 256, ∀ t, t = twoSum fp32 false (g.acc d false i).toNat (g.acc d true i).toNat →
        k.acc d false i = BitVec.ofNat 32 t.1 ∧
        k.acc d true i = if fp32.isNan t.1 || fp32.isInf t.1 then 0 else BitVec.ofNat 32 t.2.1) ∧
      (∀ a, a ≠ d → ∀ h, ∀ i < 256, k.acc a h i = g.acc a h i) ∧ k.amax = g.amax ∧ k.tiles = g.tiles
  | .accwr d h r m ws => r < 16 → m = m &&& maskBelow g.width →
      (∀ q < (if g.width = 8 then 2 else 1), ∀ i < 64, inMask m i = true →
        k.acc d h (if g.width = 8 then 16 * r + 8 * q + i else 16 * ((r + i / 16) % 16) + i % 16) = ws.getD (64 * q + i) 0) ∧
      (∀ a, a ≠ d → ∀ h, ∀ i < 256, k.acc a h i = g.acc a h i) ∧ (∀ i < 256, k.acc d (!h) i = g.acc d (!h) i) ∧ k.amax = g.amax ∧
      k.tiles = g.tiles
  | .tld t => (∀ r < 16, ∀ b < 32, k.tileByte t r b = windowByte s x op.winA op.off r b) ∧
      (∀ a, a ≠ t → ∀ r < 16, ∀ b < 32, k.tileByte a r b = g.tileByte a r b) ∧ k.accs = g.accs ∧ k.amax = g.amax
  | .tldt t wide => (∀ r < 16, ∀ b < 32, k.tileByte t r b =
        if wide then windowByte s x op.winA op.off (b / 2) (2 * r + b % 2) else windowByte s x op.winA op.off b r) ∧
      (∀ a, a ≠ t → ∀ r < 16, ∀ b < 32, k.tileByte a r b = g.tileByte a r b) ∧ k.accs = g.accs ∧ k.amax = g.amax
  | .tldg t idx => idx.length = 16 → (∀ r < 16, ∀ b < 32, k.tileByte t r b = windowByte s x op.winA op.off (idx.getD r 0) b) ∧
      (∀ a, a ≠ t → ∀ r < 16, ∀ b < 32, k.tileByte a r b = g.tileByte a r b) ∧ k.accs = g.accs ∧ k.amax = g.amax
  | .tzero t => (∀ r < 16, ∀ b < 32, k.tileByte t r b = 0) ∧
      (∀ a, a ≠ t → ∀ r < 16, ∀ b < 32, k.tileByte a r b = g.tileByte a r b) ∧ k.accs = g.accs ∧ k.amax = g.amax
  | _ => k.accs = g.accs ∧ k.amax = g.amax ∧ k.tiles = g.tiles

/-- A copy as its record describes it at issue (R286): what `cpy` and the other copy words read in the eight uniform registers
from 8r, OVTAB with it, under a consumer mask. -/
structure RecordRead (g : Group) (gid : Nat) (c : Copy) (kind : CopyKind) (r : Nat) (mask : BitVec 8) : Prop where
  owner : c.gid = gid ∧ c.kind = kind ∧ c.priv = g.priv ∧ c.mask = mask ∧ c.ovtab = g.ovtab
  src : c.src = g.sreg (8 * r + 1) ++ g.sreg (8 * r)
  dst : c.dst = g.sreg (8 * r + 3) ++ g.sreg (8 * r + 2)
  rows : c.rows = (g.sreg (8 * r + 4)).toNat / 2 ^ 20 + 1 ∧ c.rowBytes = (g.sreg (8 * r + 4)).toNat % 2 ^ 20
  pitch : c.dpitch = (g.sreg (8 * r + 5)).toNat / 2 ^ 16 ∧ c.spitch = (g.sreg (8 * r + 5)).toNat % 2 ^ 16
  arg : c.arg = g.sreg (8 * r + 6)
  pot : c.pot = 16 * ((g.sreg (8 * r + 7)).toNat / 2 ^ 16) ∧ c.potOn = (g.sreg (8 * r + 7)).getLsbD 15 ∧
    c.ring = (g.sreg (8 * r + 7)).toNat / 2 ^ 12 % 8
  start : c.pos = 0 ∧ c.moved = 0 ∧ c.lines = [] ∧ c.walked = [] ∧ c.cause = 0 ∧ c.cancelled = false ∧ c.dof = false ∧
    c.waitsLocks = false ∧ c.wants = [] ∧ c.badAddr = 0 ∧ c.qoff = 0 ∧ c.qbase = 0 ∧ c.qsize = 0 ∧ c.qpot = 0 ∧ c.qseat = 0 ∧
    c.header = false ∧ c.retiredAt = 0 ∧ c.st = if kind = .cpyx then .reserve else .moving

/-- A copy's record passes the checks of R287: reserved bits, regions, alignment and the bounds of each span. -/
structure CopyChecked (s : State) (gid : Nat) (g : Group) (c : Copy) (low12 : Bool) : Prop where
  arg : c.argBad low12 = false
  region : regionBad g.priv c.src.toNat = none ∧ regionBad g.priv c.dst.toNat = none
  align : c.src.toNat % 16 = 0 ∧ c.dst.toNat % (if c.kind = .cpyx then 128 else 16) = 0 ∧
    (c.kind.indexed = true → c.arg.toNat % 4 = 0)
  spans : ∀ x ∈ c.spanList, 0 < x.2.1 → ∃ q, s.spanOf (g.agent gid) x.1 x.2.1 = .ok q

/-- The copy words of R288, each with the kind of copy. -/
noncomputable def copyOps : List ((Cpy → Instr) × CopyKind) :=
  [(.cpy, .cpy), (.cpyt, .cpyt), (.cpyg, .cpyg), (.cpys, .cpys), (.cpyq, .cpyq)]

/-- A copy has started (R289): its tag is the group's next one and stands in sd, c4 counts it, it holds a range-lock entry for each
span, and only the engine, the lock table and the numbering differ beside the group. -/
def CopyStarted (s t : State) (gid : Nat) (g : Group) (p : Split) (n : Nat) (c : Copy) (sd : Nat) : Prop :=
  ∃ k l m ids, t = { s.setGroup gid k with
                       locks := l, nextId := m + 1,
                       copies := smapInsert s.copies m { c with tag := (g.tag + 1) % 2 ^ 16, locks := ids } } ∧
    Issued k ({ g with tag := (g.tag + 1) % 2 ^ 16, cnt := { g.cnt with c4 := g.cnt.c4 + 1 } }.setSreg sd
      (BitVec.ofNat 32 ((g.tag + 1) % 2 ^ 16))) p (s.after g p n) ∧
    ids.length = (s.spansOf (g.agent gid) c.spanList).length ∧ (∀ id, id ∉ ids → tabGet l id = tabGet s.locks id) ∧
    ∀ (j : Nat) (u : Span) id, (s.spansOf (g.agent gid) c.spanList)[j]? = some u → ids[j]? = some id →
      tabGet l id = some { cluster := clusterOf (coreOf gid), space := u.space, lo := u.lo, hi := u.lo + u.len, write := u.write }

/-- A copy may start (R119, R295): each earlier one of its core's engine has started, has stopped or has lost its group. -/
def MayStart (s : State) (cid : Nat) (c : Copy) : Prop :=
  ∀ e ∈ s.copies, e.1 < cid → coreOf e.2.gid = coreOf c.gid →
    e.2.started = true ∨ e.2.cause ≠ 0 ∨ e.2.cancelled = true ∨ s.group e.2.gid = none

/-- A copy of a live group may work (R295, R308): it holds its locks, has not stopped, has started or may, and no checkpoint and no
save holds its group. -/
structure Works (s : State) (cid : Nat) (c : Copy) (g : Group) : Prop where
  copy : tabGet s.copies cid = some c
  group : s.group c.gid = some g
  locks : c.waitsLocks = false
  sound : c.cause = 0 ∧ c.cancelled = false
  turn : c.started = true ∨ MayStart s cid c
  awake : s.quiet g.part = false ∧ s.taking g = false

/-- Only byte `k` of the scratchpads, and the poison there, differs, and it has its bit 0 set: FAIL of a pot's STATE (R303). -/
def SpadFail (s u : State) (k : Nat) : Prop :=
  ∃ d sp po, u = { s with dir := d, spad := sp, spadPoison := po } ∧ u.sbyte k = s.sbyte k ||| 1 ∧ ∀ a, a ≠ k → u.sbyte a = s.sbyte a

/-- FAIL is set in the pot that a copy credits (R296, R298): its own one, or, for a `cpyx` that has read its queue header, the one of
the queue's consumer, in a live team, in a saved one's image, or, while its seat is Moving, once the arrival held for it is applied
(R340). Without such a pot nothing differs. -/
structure CopyPotFailed (s u : State) (c : Copy) : Prop where
  own : ∀ k, s.copyPot c = some k → SpadFail s u (k + 8) ∧ u.dir = s.dir
  none_ : s.copyPot c = none →
    (c.kind ≠ .cpyx ∨ c.header = false ∨ c.qpot % 16 ≠ 0 ∨ seatPkg c.qseat ≠ s.pkg.number) → u = s
  live : ∀ g h q tid x, s.copyPot c = none → c.kind = .cpyx → c.header = true → c.qpot % 16 = 0 → seatPkg c.qseat = s.pkg.number →
    s.group c.gid = some g → s.seatHolder g.part c.qseat = .live h → s.group h = some q → q.team = some tid → s.team tid = some x →
    c.qpot + 16 ≤ x.winLen → SpadFail s u (x.key c.qpot + 8)
  saved : ∀ g im e, s.copyPot c = none → c.kind = .cpyx → c.header = true → c.qpot % 16 = 0 → seatPkg c.qseat = s.pkg.number →
    s.group c.gid = some g → s.seatHolder g.part c.qseat = .saved im → s.teamOfImage im = some e → c.qpot + 16 ≤ e.2.winLen →
    s.NoReplicas → (∃ d m po, u = { s with dir := d, mem := m, poison := po }) ∧
      u.byte (im + 0x280 + c.qpot + 8) = s.byte (im + 0x280 + c.qpot + 8) ||| 1 ∧
      ∀ a, a ≠ im + 0x280 + c.qpot + 8 → u.byte a = s.byte a
  moving : ∀ g, s.copyPot c = none → c.kind = .cpyx → c.header = true → c.qpot % 16 = 0 → seatPkg c.qseat = s.pkg.number →
    s.group c.gid = some g → s.seatHolder g.part c.qseat = .moving → u = { s with
      nextId := s.nextId + 1,
      arrivals := smapInsert s.arrivals s.nextId
        { part := g.part, arr := { seat := c.qseat, off := 0, data := [], pot := some c.qpot, credit := 0 }, fail := true,
          sender := none } }

/-- An engine has read ranges of bytes (R353, R355, R366): beside the A bits of the entries that the reads went through, only what
caches and translation structures hold, with the last-page registers of groups, and the counts of the pages differ. -/
def SourceRead (s s1 : State) (ag : Agent) (rs : List (Nat × Nat)) : Prop :=
  (∃ gs d pg tl dt m po, s1 = { s with groups := gs, dir := d, pages := pg, tlbs := tl, dieTlbs := dt, mem := m, poison := po }) ∧
    (∀ id, (s1.group id).map (fun q => { q with lastPages := [] }) = (s.group id).map fun q => { q with lastPages := [] }) ∧
    ∀ a, s1.byte a = s.byte a ∨ (s1.byte a = s.byte a ||| 0x40 ∧ ∃ x ∈ s.enginePlaces ag rs, x.entryAt = some a)

/-- Group `gid` has become `k` and ring `j` of team `tid`, which was `x`, has become `r`; no other team, ring or group differs,
nor anything else but the copies (R120, R122). -/
def RingSet (s t : State) (gid : Nat) (k : Group) (tid : Nat) (x : Team) (j : Nat) (r : Ring) : Prop :=
  ∃ tt cp y, t = { s.setGroup gid k with teams := tt, copies := cp } ∧ tabGet tt tid = some y ∧ y = { x with rings := y.rings } ∧
    y.ring j = some r ∧ (∀ i, i ≠ j → y.ring i = x.ring i) ∧ ∀ id, id ≠ tid → tabGet tt id = s.team id

/-- A slot after its publication (R122): the other phase, offered to a mask, and passed by the positions whose owner is gone. -/
def Ring.offered (r : Ring) (sl : RingSlot) (mask : BitVec 8) : RingSlot :=
  { sl with phase := !sl.phase, offer := mask, pass := r.goneMask }

/-- The address of a lane of a remote access: the offset of the fabric base, the lane's offset register and the immediate, modulo
2^54 (R328). -/
def Group.remoteVa (g : Group) (sb off : Nat) (px : Option MemPx) (i : Nat) : Nat :=
  ((g.spair sb).toNat + (g.vreg off i).toNat + (match px with
    | some q => (q.imm.signExtend 64).toNat
    | none => 0)) % 2 ^ 54

/-- The group's stream is not in Error (R327). -/
def StreamUsable (s : State) (g : Group) (q : Nat) : Prop := ∀ n, g.streamSlot = some n → (s.stream n q).state ≠ 2

/-- A request, whether or not it has left (R318). -/
def FabReq.unsent (q : FabReq) : FabReq := { q with left := false, planes := [] }

/-- Nothing of the table of fabric requests has changed but, of some requests other than `rid`, whether they have left, and on which
planes (R317, R318). -/
def OthersStay (s : State) (fb : List (Nat × FabReq)) (rid : Nat) : Prop :=
  ∀ id, id ≠ rid → (tabGet fb id).map FabReq.unsent = (tabGet s.fabric id).map FabReq.unsent

/-- A freeze of request `rid`, which is `q`, has come to its source (R321): the later requests of its stream to the same package
have not left, and no other request differs. -/
def OthersLeave (s : State) (fb : List (Nat × FabReq)) (rid : Nat) (q : FabReq) : Prop :=
  ∀ id e, id ≠ rid → tabGet s.fabric id = some e → tabGet fb id = some
    (if rid < id ∧ e.slot = q.slot ∧ e.stream = q.stream ∧ e.pkg = q.pkg ∧ e.performed = false then { e with left := false } else e)

/-- A fabric request has been issued (R320, R325, R328): it stands in the endpoint's table under a number of its own with what
was read at issue, the group has a stream slot, the one it had if it had one, and its counter is one higher. Of other requests
only whether they have left, and on which planes, may differ (R317, R318). -/
structure Requested (s t : State) (gid : Nat) (g : Group) (p : Split) (n : Nat) (cnt : Counters) (owes : List (Nat × PendOp))
    (q : FabReq) : Prop where
  state : ∃ k fb sm m, t = { s.setGroup gid k with fabric := fb, streams := sm, nextId := m } ∧
    ∃ sl, Issued k { g with streamSlot := some sl, cnt := cnt, pend := owes } p (s.after g p n) ∧ (∀ a, g.streamSlot = some a → sl = a) ∧
    ∃ rid q', tabGet fb rid = some q' ∧ q' = { q with slot := sl, left := q'.left, planes := q'.planes, words := q'.words } ∧ OthersStay s fb rid
  fields : q.gid = gid ∧ q.part = g.part ∧ q.priv = g.priv ∧ q.performed = false ∧ q.frozen = false ∧ q.orphan = false ∧
    q.cause = none ∧ q.sent = 0 ∧ q.credited = 0 ∧ q.vals = [] ∧ q.lines = [] ∧ q.walked = [] ∧ q.waitsLocks = false ∧ q.wants = []

/-- A request that has no target completes at once with a cause, which its stream records (R315, R323); the lanes that it owed
read 0. -/
def FailedAtOnce (s t : State) (gid : Nat) (g : Group) (p : Split) (n q cause : Nat) (zeroed : Nat → Nat → Prop) : Prop :=
  ∃ k sm sl v, t = { s.setGroup gid k with streams := sm } ∧
    Issued k { g with streamSlot := some sl, vregs := v } p (s.after g p n) ∧ (∀ a, g.streamSlot = some a → sl = a) ∧
    (∀ r, ∀ i < 64, (zeroed r i → k.vreg r i = 0) ∧ (¬zeroed r i → k.vreg r i = g.vreg r i)) ∧
    (t.stream sl q).causes.getLsbD cause = true

/-- The Active lanes of a remote access, as it sends them (R328). -/
def SendsLanes (g : Group) (p : Split) (px : Option MemPx) (q : FabReq) (va : Nat → Nat) (x y : Nat → Word) : Prop :=
  q.mask = g.activeMask p.mask (memMask px) ∧
    ∀ l, l ∈ q.lanes ↔ ∃ i < 64, g.laneOn p px i = true ∧ l = { lane := i, va := va i, x := x i, y := y i }

/-- The Active lanes of a vector register that a remote load or atomic owes (R77, R329). -/
def OwesLate (g : Group) (p : Split) (px : Option MemPx) (op : PendOp) (vd : Nat) : Prop :=
  ∀ d, d ∈ op.dests ↔ ∃ i < 64, g.laneOn p px i = true ∧ d = { reg := vName vd, lane := i, val := 0 }

/-- The pair that a link of a reduction makes of four registers in a lane: the sum of R312 of the pair from p with the pair from
p + 2 (R341). -/
def Group.linked (g : Group) (p i : Nat) : Word × Word :=
  let m := (g.vreg p i).toNat
  let t := twoSum fp32 false m (g.vreg (p + 2) i).toNat
  let add := fun (a b : Nat) => (opFadd fp32 .rne false a b 0).code
  if fp32.isNan t.1 then (BitVec.ofNat 32 t.1, BitVec.ofNat 32 t.1)
  else if fp32.isInf t.1 then (BitVec.ofNat 32 t.1, 0)
  else (BitVec.ofNat 32 t.1, BitVec.ofNat 32 (add (g.vreg (p + 1) i).toNat (add t.2.1 (g.vreg (p + 3) i).toNat)))

/-- A transfer's record passes its checks (R327, R331). -/
structure XferChecked (s : State) (gid : Nat) (g : Group) (r : Nat) : Prop where
  seat : ((g.sreg (r + 5)).getLsbD 15 = true ∨ (g.sreg (r + 5)).getLsbD 14 = true) → seatBad (g.spair (r + 6)) true = false
  none_ : (g.sreg (r + 5)).getLsbD 15 = false → (g.sreg (r + 5)).getLsbD 14 = false → g.spair (r + 6) = 0
  align : (g.spair r).toNat % 16 = 0 ∧ (g.spair (r + 2)).toNat % 16 = 0 ∧ (g.sreg (r + 4)).toNat % 16 = 0
  zero : (g.sreg (r + 5)).toNat % 2 ^ 14 = 0 ∧ ((g.sreg (r + 5)).getLsbD 14 = true → g.sreg (r + 3) = 0)
  region : regionBad g.priv (g.spair r).toNat = none
  span : 0 < (g.sreg (r + 4)).toNat → ∃ q, s.spanOf (g.agent gid) (g.spair r).toNat (g.sreg (r + 4)).toNat = .ok q

/-- A group about to issue that may hold registers for deliveries, with nothing else outstanding (R338). -/
structure Holding (s : State) (gid : Nat) (g : Group) (p : Split) : Prop where
  cur : s.cur = some gid
  group : s.group gid = some g
  issuing : g.issuing = some p
  fresh : p.held = none
  settled : g.producers = [] ∧ g.pend = [] ∧ g.bad = []
  near : ∀ x, s.part g.part = some x → x.safeEn = true → g.handler = none → g.safeCount < x.limit

/-- A stream of a group's slot, or a stream never used when the group has none (R320, R324). -/
def Group.streamOf (g : Group) (s : State) (q : Nat) : StreamState :=
  match g.streamSlot with
  | some n => s.stream n q
  | none => StreamState.open_

/-- What a group holds when it starts (R113), of grid `gr`, team `t` and group index `i`. -/
structure StartsAs (q : Group) (gr : Grid) (t : Team) (tid i : Nat) : Prop where
  place : q.part = t.part ∧ q.team = some tid ∧ q.index = i ∧ q.depth = gr.depth ∧ q.gridId = BitVec.ofNat 32 gr.handle
  code : q.text = gr.record.text ∧ ∃ sp, q.splits = [sp] ∧ sp.mask = maskBelow gr.record.width ∧ sp.pc = gr.record.text ∧
    sp.st = .ready ∧ sp.joins = [] ∧ sp.held = none
  mode : q.mode = gr.record.mode0 ∧ q.handler = none ∧ q.priv = false
  params : q.spair 0 = gr.record.param ∧ q.spair 2 = t.anchor ∧ ∀ n, 4 ≤ n → n < 64 → q.sreg n = 0
  zeros : (∀ r i, q.vreg r i = 0) ∧ (∀ n, n ≠ 7 → q.pred n = 0) ∧ (∀ a r b, q.tileByte a r b = 0) ∧ (∀ a h n, q.acc a h n = 0)
  status : q.scc = 0 ∧ q.flags = 0 ∧ q.ovf = 0 ∧ q.sig = 0 ∧ q.msig = 0 ∧ q.cntWord = 0 ∧ q.lscale = 0x3F800000 ∧ q.seat = 0
  shape : q.width = gr.record.width ∧ q.role = gr.record.roles.getD i .vector ∧ q.data = gr.record.data ∧
    q.teamX = BitVec.ofNat 32 t.x ∧ q.teamY = BitVec.ofNat 32 t.y ∧ q.teamZ = BitVec.ofNat 32 t.z ∧
    q.vAlloc = 8 * gr.record.vregs ∧ q.sAlloc = 8 * gr.record.sregs ∧
    q.tAlloc = (if q.role = Role.matrix then 4 * gr.record.tiles else 0) ∧
    q.aAlloc = if q.role = Role.matrix then 2 * gr.record.accs else 0

/-- The status registers of the privileged view by index, each with its value in group `gid`, which is `g`, of partition `x` (R379,
R380). -/
def privView (s : State) (gid : Nat) (g : Group) (x : Part) : List (Nat × Word) :=
  let bit1 := fun (b : Bool) (n : Nat) => if b then 2 ^ n else 0
  [(0x100, loWord x.tba), (0x101, hiWord x.tba), (0x102, BitVec.ofNat 32 (512 * (gid % 128))),
   (0x103, BitVec.ofNat 32 (match g.handler with
      | some h => min (2 ^ 20) (g.hwdog + (s.clock - h.entered))
      | none => g.hwdog)),
   (0x104, g.ovtab.setWidth 32), (0x105, x.ovdef.setWidth 32),
   (0x106, (if x.safeEn then 0x80000000 else 0) ||| x.safeLimit.setWidth 32), (0x107, if x.sen then 1 else 0),
   (0x108, loWord x.ptroot), (0x109, hiWord x.ptroot),
   (0x10A, BitVec.ofNat 32 (bit1 x.migEn 31 + 2 ^ 16 * x.migHalf.toNat + x.migThresh.toNat)),
   (0x10B, loWord x.fq), (0x10C, hiWord x.fq), (0x10D, loWord x.rfq), (0x10E, hiWord x.rfq), (0x10F, loWord x.kq),
   (0x110, hiWord x.kq), (0x111, loWord x.seatBase), (0x112, hiWord x.seatBase), (0x113, x.seatCap),
   (0x114, x.domain.setWidth 32), (0x115, x.kitty.setWidth 32), (0x116, loWord x.saveArea), (0x117, hiWord x.saveArea),
   (0x118, x.saveSlot), (0x119, BitVec.ofNat 32 s.time), (0x11A, g.readLatch),
   (0x120, x.clust.extractLsb' 0 32), (0x121, (x.clust.extractLsb' 32 16).setWidth 32), (0x122, loWord x.region),
   (0x123, hiWord x.region), (0x125, x.keystat.setWidth 32), (0x126, x.eth.setWidth 32),
   (0x127, BitVec.ofNat 32 (g.part + 2 ^ 4 * x.changes.toNat)),
   (0x130, s.pkg.readyC.extractLsb' 0 32), (0x131, (s.pkg.readyC.extractLsb' 32 16).setWidth 32), (0x132, loWord s.pkg.readyS),
   (0x133, hiWord s.pkg.readyS), (0x134, s.pkg.readyM), (0x135, s.pkg.readyX.setWidth 32),
   (0x136, BitVec.ofNat 32 (bit1 s.pkg.replace 31 + bit1 s.pkg.throt 30 + 2 ^ 8 * min 255 s.pkg.ce + min 255 s.pkg.retired)),
   (0x140, BitVec.ofNat 32 (bit1 x.ckpt.go 31 + bit1 x.ckpt.quiesce 30 + bit1 x.ckpt.restore 29 + x.ckpt.stage))]
  ++ (List.range 8).flatMap (fun p =>
    [(0x160 + 2 * p, loWord (x.ethTx.getD p 0)), (0x161 + 2 * p, hiWord (x.ethTx.getD p 0)),
     (0x170 + 2 * p, loWord (x.ethRx.getD p 0)), (0x171 + 2 * p, hiWord (x.ethRx.getD p 0)),
     (0x180 + 4 * p, BitVec.ofNat 32 (s.window p).1), (0x181 + 4 * p, BitVec.ofNat 32 ((s.window p).1 % 2 ^ 52 / 2 ^ 32)),
     (0x182 + 4 * p, BitVec.ofNat 32 (s.window p).2), (0x183 + 4 * p, BitVec.ofNat 32 ((s.window p).2 % 2 ^ 52 / 2 ^ 32))])
  ++ (List.range 128).map fun n => (0x200 + n, BitVec.ofNat 32 (2 ^ 3 * (s.island n).req + (s.island n).point))

/-- The registers of a partition that `pswr` writes at once, each with the partition after the write of `v` (R2, R379, R380). -/
def partWrites (x : Part) (v : Word) : List (Nat × Part) :=
  [(0x100, { x with tba := hiWord x.tba ++ (v &&& 0xFFFF0000) }), (0x101, { x with tba := v ++ loWord x.tba }),
   (0x106, { x with safeEn := v.getLsbD 31, safeLimit := v.setWidth 11 }),
   (0x10A, { x with migEn := v.getLsbD 31, migHalf := v.extractLsb' 16 5, migThresh := v.extractLsb' 0 8 }),
   (0x10B, { x with fq := hiWord x.fq ++ v }), (0x10C, { x with fq := v ++ loWord x.fq }),
   (0x10D, { x with rfq := hiWord x.rfq ++ v }), (0x10E, { x with rfq := v ++ loWord x.rfq }),
   (0x10F, { x with kq := hiWord x.kq ++ v }), (0x110, { x with kq := v ++ loWord x.kq }),
   (0x111, { x with seatBase := hiWord x.seatBase ++ (v &&& 0xFFFFFF80) }), (0x112, { x with seatBase := v ++ loWord x.seatBase }),
   (0x113, { x with seatCap := if 2 ^ 22 < v.toNat then 2 ^ 22 else v }),
   (0x116, { x with saveArea := hiWord x.saveArea ++ v }), (0x117, { x with saveArea := v ++ loWord x.saveArea }),
   (0x118, { x with saveSlot := v })]
  ++ (List.range 8).flatMap fun p =>
    [(0x160 + 2 * p, { x with ethTx := listSet x.ethTx p (hiWord (x.ethTx.getD p 0) ++ v) }),
     (0x161 + 2 * p, { x with ethTx := listSet x.ethTx p (v ++ loWord (x.ethTx.getD p 0)) }),
     (0x170 + 2 * p, { x with ethRx := listSet x.ethRx p (hiWord (x.ethRx.getD p 0) ++ v) }),
     (0x171 + 2 * p, { x with ethRx := listSet x.ethRx p (v ++ loWord (x.ethRx.getD p 0)) })]

/-- A word that OVTAB and OVDEF take (R174): bits 31 to 10 are 0, and no 2-bit field is 11. -/
def OverflowTable (v : Word) : Prop := v.toNat < 2 ^ 10 ∧ ∀ k < 5, v.extractLsb' (2 * k) 2 ≠ 3

/-- TVAL of a trap of R59: the words of the instruction. -/
def tvalOf (i : Instr) : DWord := tvalWords ((encode i).getD 0 0) ((encode i).getD 1 0)

/-- Group `gid`, which is `g`, is the one chosen to issue, and its split `p` goes on with the instruction that it waited in, of which
`h` is kept (R92); no split of the group was Current before. -/
structure Resumes (s : State) (gid : Nat) (g : Group) (p : Split) (h : Held) : Prop where
  cur : s.cur = some gid
  group : s.group gid = some g
  issuing : g.issuing = some p
  held : p.held = some h
  settled : g.Settled
  unsafe_ : p.safeAt = none
  alone : ∀ q ∈ g.splits, q.st ≠ .displaced

/-- `k` is `g` after the return of handler `h` to the address `pc` with the registers that the trap frame of its core holds (R386);
the other splits are as they were suspended, and no vector register, tile, accumulator or counter has changed. -/
structure HandlerLeft (s : State) (x : Part) (gid : Nat) (g k : Group) (h : Handler) (pc : DWord) : Prop where
  keeps : k = { g.charged k with
    sregs := k.sregs, preds := k.preds, mode := k.mode, scc := k.scc, flags := k.flags, sig := k.sig, msig := k.msig,
    safeCount := 0, handler := none, hwdog := min (2 ^ 20) (g.hwdog + (s.clock - h.entered)),
    splits := g.splits.map fun q => if q.slot = h.trapSlot then { q with pc := pc, held := none } else q }
  sregs : ∀ n < 63, k.sreg n =
    if n < g.sAlloc ∨ n = 62 then BitVec.ofNat 32 (ofBytes (s.sbytes (frameKey x gid + 4 * n) 4)) else 0
  preds : ∀ n < 7, k.pred n = BitVec.ofNat 64 (ofBytes (s.sbytes (frameKey x gid + 0x100 + 8 * n) 8))
  mode : k.mode = BitVec.ofNat 25 (ofBytes (s.sbytes (frameKey x gid + 0x140) 4))
  scc : k.scc = BitVec.ofNat 5 (ofBytes (s.sbytes (frameKey x gid + 0x144) 4))
  flags : k.flags = BitVec.ofNat 7 (ofBytes (s.sbytes (frameKey x gid + 0x148) 4))
  sigs : k.sig = BitVec.ofNat 32 (ofBytes (s.sbytes (frameKey x gid + 0x14C) 4)) ∧
    k.msig = BitVec.ofNat 32 (ofBytes (s.sbytes (frameKey x gid + 0x150) 4))
  priv : k.priv = g.team.isNone

/-- The result of `keyld` of slot `k` from a blob (R404), in the order of its checks, with the slot's key when it is 0. -/
noncomputable def keyResult (s : State) (part : Nat) (x : Part) (k : Nat) (erase : Bool) (b : List Byte) : Nat × List Byte :=
  let at_ := fun o n => ofBytes ((b.drop o).take n)
  if k = 0 ∨ tabGet x.slots k = none ∨ at_ 0x14 4 ≠ k + 16 * part then (1, [])
  else
    match tabGet s.pkg.sessions (at_ 4 4) with
    | none => (2, [])
    | some n =>
      if n.part ≠ some part then (2, [])
      else if at_ 0 4 ≠ 1 ∨ at_ 0x70 16 ≠ 0 then (4, [])
      else if erase = false ∧ tabGet x.keys k ≠ none then (5, [])
      else if ∃ q, n.lastSeq = some q ∧ at_ 0x18 8 ≤ q then (6, [])
      else
        match gcmOpen n.key ((b.drop 8).take 12) (b.take 32) ((b.drop 0x20).take 64) ((b.drop 0x60).take 16) with
        | none => (3, [])
        | some key => (0, key)

/-- A pool control word names a pool to group `gid` (R371): its die, or the issuing core's, and whether its frames are large. -/
def PoolNamed (c : Word) (gid d : Nat) (large : Bool) : Prop :=
  c.toNat < 16 ∧ c.toNat % 8 < 5 ∧ d = (if c.toNat % 8 = 4 then gid / 24576 else c.toNat % 8) ∧ (large = true ↔ 8 ≤ c.toNat)

/-- A frame that may join a pool of a die (R373, R409): a multiple of its size that holds memory, is owned, and has its home there. -/
def FrameFits (s : State) (x : Part) (d size fr : Nat) : Prop :=
  fr % size = 0 ∧ fr < 2 ^ 52 ∧ holdsMemory s fr = true ∧ safeTier fr = false ∧ x.owns fr = true ∧ homeDie fr = d

/-- The partition `y` is `x` with the pool under `k` changed to `fs` (R371). -/
def PoolSet (x y : Part) (k : Nat) (fs : List Nat) : Prop :=
  y = { x with pools := y.pools } ∧ y.pool k = fs ∧ ∀ j, j ≠ k → y.pool j = x.pool j

/-- The answer of `xlat` for a flat address (R374): its descriptor, and the physical address of the last entry that the walk
read. -/
def xlatAnswer (s : State) (x : Part) (priv : Bool) (a : Nat) : Nat × Nat :=
  let place := fun (pa : Nat) => 2 ^ 11 * tierOf pa + 2 ^ 13 * homeDie pa + 2 ^ 15 * homeSlice pa
  let flag := fun (b : Bool) (n : Nat) => if b then n else 0
  let w := walk s x a
  if 2 ^ 57 ≤ a then
    if a < 2 ^ 60 then (6, 0)
    else if (a / 2 ^ 60 = 1 ∧ a % 2 ^ 60 < 2 ^ 32) ∨ (a / 2 ^ 60 = 2 ∧ a % 2 ^ 60 < 2 ^ 28) ∨
        (a / 2 ^ 60 = 3 ∧ a % 2 ^ 60 < 2 ^ 19 ∧ priv = true) then (5, 0)
    else (6, 0)
  else if priv = true ∧ 2 ^ 56 ≤ a then
    if 2 ^ 56 + 2 ^ 52 ≤ a then (6, 0)
    else if safeTier (a - 2 ^ 56) = false ∧ holdsMemory s (a - 2 ^ 56) = true ∧ x.owns (a - 2 ^ 56) = true then (place (a - 2 ^ 56), 0)
    else (3, 0)
  else
    match w.fin with
    | .invalid => (1 + 2 ^ 9 * w.level, w.entry.getD 0)
    | .touch => (2 + 2 ^ 9 * w.level, w.entry.getD 0)
    | .malformed => (3 + 2 ^ 9 * w.level, w.entry.getD 0)
    | .outside => (3 + 2 ^ 9 * w.level, w.entry.getD 0)
    | .busy => (4 + 2 ^ 9 * w.level, w.entry.getD 0)
    | .writing => (4 + 2 ^ 9 * w.level, w.entry.getD 0)
    | .leaf =>
      if x.owns (leafPa w a) = true then
        (flag (pteW w.pte) 8 + flag (pteX w.pte) 16 + flag (pteU w.pte) 32 + flag (pteD w.pte) 64 + flag (pteKey w.pte ≠ 0) 128 +
          flag (w.level = 2) 256 + 2 ^ 9 * w.level + place (leafPa w a), w.entry.getD 0)
      else (3 + 2 ^ 9 * w.level, w.entry.getD 0)

/-- A flat address lies on a 64 KiB page of the partition (R375, R376): its frame number and the address of its entry. -/
def PlacedOn (s : State) (x : Part) (priv : Bool) (a fr entry : Nat) : Prop :=
  a < 2 ^ 57 ∧ (priv = true → a < 2 ^ 56) ∧ (walk s x a).fin = .leaf ∧ (walk s x a).level = 3 ∧
    x.owns (leafPa (walk s x a) a) = true ∧ fr = leafPa (walk s x a) a / 2 ^ 16 ∧ (walk s x a).entry = some entry

/-- `n` bytes from `a` and `m` bytes from `b` do not meet. -/
def Apart (a n b m : Nat) : Prop := a + n ≤ b ∨ b + m ≤ a

/-- The memory `m` holds at frame `f` what `s` holds at the 64 KiB page of frame number `fr`: the bytes, or, under a key, each line
encrypted again for its place (R367, R403). -/
def FrameCopied (s : State) (m : List Host.Cell) (key : Option (List Byte)) (fr f : Nat) : Prop :=
  (key = none → ∀ o < 2 ^ 16, smapGet memDefault m (f + o) = s.byte (2 ^ 16 * fr + o)) ∧
  ∀ q, key = some q → ∀ i < 512, (upFrom (f + 128 * i) 128).map (smapGet memDefault m) =
    xtsEncLine q (f + 128 * i) (s.plainLine (some q) (512 * fr + i))

/-- A write of lines begins no collapse and discards no replica record (R369): no duplicated page holds one of them, and the entry
of none but `fr` lies there. -/
def PlainBut (s : State) (fr : Option Nat) (ls : List Nat) : Prop :=
  keysRise s.pages = true ∧
    ∀ q ∈ s.pages, q.2.replicas ≠ [] → ∀ l ∈ ls, q.1 ≠ l / 512 ∧ (fr = some q.1 ∨ ∀ a, q.2.entry = some a → a / 128 ≠ l)

/-- No holder has a copy of a line, and no access that is not performed uses a translation from it, in a page of which no collapse
is in progress: nothing keeps a write of it from being performed at once but what is on its way to the home (R356, R369). -/
def Unheld (s : State) (l : Nat) : Prop :=
  (s.dirEntry l).holders = [] ∧ s.awaited l = false ∧ ∀ r, tabGet s.pages (l / 512) = some r → r.collapsing = false

/-- A write of a line is performed at once (R356): the line is unheld, and nothing is on its way to its home. -/
def Idle (s : State) (l : Nat) : Prop := Unheld s l ∧ s.lineDone l = true

/-- Byte `a` under an entry's 8 bytes at `e` that are now `x`, and otherwise as it was in `s`. -/
def entryByte (s : State) (e x a : Nat) : Byte := if e ≤ a ∧ a < e + 8 then BitVec.ofNat 8 (x / 2 ^ (8 * (a - e))) else s.byte a

/-- Only the directory's entry of one line differs between two states (R359). -/
def DirChanged (s t : State) (line : Nat) : Prop := (∃ d, t = { s with dir := d }) ∧ ∀ l, l ≠ line → t.dirEntry l = s.dirEntry l

/-- A holder has left a line (R361, R362): it holds nothing of it and owes nothing, the other holders are as they were; a TLB or a
die's cache holds no translation from the line any more (R355), and the dirty bytes of an L1 are at the home, where the other
holders of the line are then to be invalidated (R360). -/
structure HolderLeft (s t : State) (h : Holder) (line : Nat) : Prop where
  out : h ∉ (t.dirEntry line).holders ∧ h ∉ (t.dirEntry line).invals
  others : ∀ x, x ≠ h → (x ∈ (t.dirEntry line).holders ↔ x ∈ (s.dirEntry line).holders)
  tlb : (∀ c, h = .coreTlb c → ∀ e ∈ smapGet [] t.tlbs c, line ∉ e.lines) ∧
    ∀ d, h = .dieXlat d → ∀ e ∈ smapGet [] t.dieTlbs d, line ∉ e.lines
  copy : ∀ c, h = .l1 c → tabGet (t.dirEntry line).l1 c = none ∧ (∀ a ∈ (t.dirEntry line).arriving, a.1 ≠ c) ∧
    ∀ x ∈ (s.dirEntry line).arriving, x.1 ≠ c → x ∈ (t.dirEntry line).arriving
  merged : ∀ c y, h = .l1 c → tabGet (s.dirEntry line).l1 c = some y → y.key = none → ∀ i < 128,
    (y.dirty.getLsbD i = true → t.byte (128 * line + i) = y.data.getD i 0) ∧
    (y.dirty.getLsbD i = false → (∀ a ∈ (s.dirEntry line).arriving, a.1 ≠ c) → t.byte (128 * line + i) = s.byte (128 * line + i))
  wrote : ∀ c, h = .l1 c → ((∃ a ∈ (s.dirEntry line).arriving, a.1 = c) ∨
      ∃ y, tabGet (s.dirEntry line).l1 c = some y ∧ y.dirty ≠ 0) →
    ∀ x ∈ (t.dirEntry line).holders, x ∈ (t.dirEntry line).invals
  frame : (∀ a, a / 128 ≠ line → t.byte a = s.byte a) ∧ t.spad = s.spad ∧
    ∀ id, (t.group id).map (fun q => { q with lastPages := [] }) = (s.group id).map fun q => { q with lastPages := [] }

/-- `k` is `g` after its outstanding operation `op`, under `id`, has completed (R77, R263): each destination that nothing has
written since holds its value, every other register what it held, and the flags, the counter and the list of operations are
the only other changes. -/
structure Landed (g k : Group) (id : Nat) (op : PendOp) : Prop where
  only : k = { g with vregs := k.vregs, sregs := k.sregs, flags := g.flags ||| op.flags, pend := smapErase g.pend id, cnt := k.cnt }
  counts : ∀ j < 6, k.cnt.get j = if j = op.counter then g.cnt.get j - 1 else g.cnt.get j
  lanes : ∀ d ∈ op.dests, d.reg.cls = .vreg → hitLane op.clobbered d.reg d.lane = false → (∀ e ∈ op.dests, e.reg = d.reg → e.lane = d.lane → e = d) →
    k.vreg d.reg.num d.lane = d.val
  words : ∀ d ∈ op.dests, d.reg.cls = .sreg → d.reg.num < 63 → hitLane op.clobbered d.reg d.lane = false → (∀ e ∈ op.dests, e.reg = d.reg → e = d) →
    k.sreg d.reg.num = d.val
  otherLanes : ∀ r, ∀ i < 64, (∀ d ∈ op.dests, ¬(d.reg = vName r ∧ d.lane = i)) → k.vreg r i = g.vreg r i
  otherWords : ∀ r, (∀ d ∈ op.dests, d.reg ≠ sName r) → k.sreg r = g.sreg r

/-- `k` is `g` with a Waiting split gone on (R92): Current when no other split of the group is, otherwise Ready; a handler's split
runs on. Nothing else has changed but the count of R93. -/
def Woken (g k : Group) (slot : Nat) : Prop :=
  (g.handler = none → k = { g with
    issuesInTurn := k.issuesInTurn,
    splits := g.splits.map fun q => if q.slot = slot then
      { q with st := if g.splits.any (fun c => c.st == .current) then .ready else .current } else q }) ∧
  ∀ h, g.handler = some h → k = { g with handler := some { h with split := { h.split with st := .current } } }

/-- `k` is `g` with a Waiting split about to complete the instruction that it waited in (R92): it is Current for one step, and a split
that was Current is displaced until then. -/
def Returns (g k : Group) (slot : Nat) : Prop :=
  (g.handler = none → k = { g with
    issuesInTurn := k.issuesInTurn,
    splits := g.splits.map fun q => if q.slot = slot then { q with st := .current }
      else if q.st = .current then { q with st := .displaced } else q }) ∧
  ∀ h, g.handler = some h → k = { g with handler := some { h with split := { h.split with st := .current } } }

/-- Split `p` of a running group `g` is Waiting for `w` (R92): the handler's split, or the one of a slot. -/
structure WaitsIn (s : State) (gid slot : Nat) (g : Group) (p : Split) (w : WaitFor) : Prop where
  group : s.group gid = some g
  running : g.residency = .running
  split : match g.handler with
    | some h => h.split = p
    | none => g.splits.find? (fun q => q.slot == slot) = some p
  waits : p.st = .waiting w
  free : s.taking g = false

/-- Split `p` of group `gid`, in slot `slot`, goes on at a step `i` (R92): one that has not begun its instruction becomes Ready, or
Current when no other is; one that has completes it next, when no other group is about to issue and no checkpoint holds the
partition, and until then nothing changes. -/
def GoesOn (s : State) (gid slot : Nat) (g : Group) (p : Split) (i : Instr) : Prop :=
  (p.held = none → ∃ k, exec i s = .next (s.setGroup gid k) ∧ Woken g k slot) ∧
  (p.held ≠ none → s.cur = none → s.quiet g.part = false →
    ∃ k, exec i s = .next { s.setGroup gid k with cur := some gid } ∧ Returns g k slot) ∧
  (p.held ≠ none → (s.cur ≠ none ∨ s.quiet g.part = true) → exec i s = .next s)

/-- Group `id`, which is `q`, is eligible to issue (R132): it holds or may take a hand, has a Ready or Current split, and its stall
count has elapsed. -/
def Eligible (s : State) (id : Nat) (q : Group) : Prop := (id, q) ∈ s.groups ∧ s.ready id q = true ∧ s.handReady id = true

/-- The members of a team that take part in a barrier have all of their splits parked as `st` (R103, R104). -/
def Arrived (s : State) (t : Team) (st : SplitState) : Prop :=
  ∀ m ∈ t.groups, m = .exited ∨ m = .killed ∨ ∃ id q, m = .live id ∧ s.group id = some q ∧ ∀ p ∈ q.splits, p.st = st

/-- A barrier has released group `g`, now `k` (R103): each of its splits is Ready, and SCC.A says whether a group was killed. -/
def Released (g k : Group) (killed : Bool) : Prop :=
  k = { g with scc := k.scc, syncAt := k.syncAt, splits := g.splits.map fun p => { p with st := .ready } } ∧ sccA k.scc = killed ∧
    sccZ k.scc = sccZ g.scc ∧ sccN k.scc = sccN g.scc ∧ sccC k.scc = sccC g.scc ∧ sccV k.scc = sccV g.scc

/-- The address of the seat-table entry of a group that holds a seat (R335). -/
def Part.seatPlace (x : Part) (g : Group) : Nat := x.seatBase.toNat + 32 * bits g.seat.toNat 16 22

/-- The state that the seat-table entry of a group shows (R335). -/
def State.seatShows (s : State) (x : Part) (g : Group) : Nat := bits (s.memNat (x.seatPlace g) 8) 25 3

/-- The seat-table entry of a group that holds a seat is in a state (R335), and only its 32 bytes of memory differ; without a seat
no memory does. -/
def SeatMoved (s t : State) (x : Part) (g : Group) (st : Nat) : Prop :=
  (g.seat = 0 → t.mem = s.mem) ∧
  (g.seat ≠ 0 → PlainBut s none (linesOf (x.seatPlace g) 32) → t.seatShows x g = st ∧
    ∀ a, (a < x.seatPlace g ∨ x.seatPlace g + 32 ≤ a) → t.byte a = s.byte a)

/-- The groups of a team show a state in their seat-table entries (R335), each Swapped where it is swapped out and the state is
Resident; without seats no memory differs. -/
def SeatsShow (s t : State) (tid : Nat) (st : Nat) : Prop :=
  ((∀ e ∈ s.groups, e.2.team = some tid → e.2.seat = 0) → t.mem = s.mem) ∧
  ∀ x, (∀ e ∈ s.groups, e.2.team = some tid → s.part e.2.part = some x) → s.NoReplicas →
    (∀ e ∈ s.groups, e.2.team = some tid → e.1 < 4 * 24576) →
    (∀ e ∈ s.groups, ∀ f ∈ s.groups, e.2.team = some tid → f.2.team = some tid → e ≠ f → e.2.seat ≠ 0 → f.2.seat ≠ 0 →
      x.seatPlace e.2 ≠ x.seatPlace f.2) →
    ∀ e ∈ s.groups, e.2.team = some tid → e.2.seat ≠ 0 →
      t.seatShows x e.2 = if st = 1 ∧ e.2.residency = .swapped then 2 else st

/-- The word that a remote access leaves in place of an old one (R310, R328, R330); a load leaves none. -/
def remoteWord (k : RemoteKind) (o x y : Word) : Option Word :=
  match k with
  | .load => none
  | .store => some x
  | .fenceAdd => some (o + 1)
  | .atomic op => ([o + x, o &&& x, o ||| x, o ^^^ x, (if x.slt o then x else o), (if o.slt x then x else o),
      (if x.ult o then x else o), (if o.ult x then x else o), x, (if o = x then y else o)])[op.toNat]?.or
      (some (BitVec.ofNat 32 (opFadd fp32 .rne false o.toNat x.toNat 0).code))

/-- The lanes of a request are at places that do not disturb each other: no lane's bytes, where the request writes, are those of
another one, and none are those of an entry that a lane was translated by. -/
structure LanesApart (k : RemoteKind) (ps : List (RemoteLane × Place)) : Prop where
  places : k ≠ .load → ps.Pairwise fun x y => ∀ a, ¬(x.2.covers 4 a ∧ y.2.covers 4 a)
  entries : ∀ x ∈ ps, ∀ y ∈ ps, ∀ a e, x.2.covers 4 a → y.2.entryAt = some e → a < e ∨ e + 8 ≤ a

/-- The lanes of a request have been performed (R328): each lane's answer is the word that stood at its place, the word there is
now the one that the access leaves, the A bits of the entries are 1 (R353), and no other byte of memory has changed. -/
structure LanesPerformed (s t : State) (k : RemoteKind) (ps : List (RemoteLane × Place)) (vals : List (Nat × Word)) : Prop where
  answers : ∀ x ∈ ps, (x.1.lane, BitVec.ofNat 32 (ofBytes (s.readAt x.2 4))) ∈ vals
  frame : ∀ a, (∀ x ∈ ps, k ≠ .load → ¬x.2.covers 4 a) →
    t.byte a = s.byte a ∨ (t.byte a = s.byte a ||| 0x40 ∧ ∃ x ∈ ps, x.2.entryAt = some a)
  words : ∀ x ∈ ps, ∀ pa kind e ls n, x.2 = .phys pa kind none e ls →
    remoteWord k (BitVec.ofNat 32 (s.memNat pa 4)) x.1.x x.1.y = some n → t.memNat pa 4 = n.toNat

/-- Whether a request or chunk of another package is of a stream of it (R319, R321). -/
def reqOfStream (pkg slot stream : Nat) : ReqRef → Bool
  | .foreign r => decide (r.srcPkg = pkg ∧ r.slot = slot ∧ r.stream = stream)
  | .foreignChunk c => decide (c.srcPkg = pkg ∧ c.slot = slot ∧ c.stream = stream)
  | _ => false

/-- A request or chunk of another package stands in this target's table under the next number, with nothing done (R319). -/
def State.entered (s : State) (part : Nat) (r : ReqRef) : State :=
  { s with
      nextId := s.nextId + 1,
      foreign := smapInsert s.foreign s.nextId { part := part, req := r, done := false, vals := [], lines := [], walked := [] } }

/-- A message has been sent to another package about a stream of it (R314). -/
def State.told (s : State) (pkg slot stream : Nat) (m : OutMsg) : State :=
  { s with nextId := s.nextId + 1, sent := smapInsert s.sent s.nextId { pkg := pkg, slot := slot, stream := stream, msg := m } }

/-- A step `i` freezes a request of another package at this target (R321): the freeze is entered and its source is told, and what
waits here of its stream is discarded. -/
def Freezes (i : Instr) (s u : State) (part : Nat) (req : ReqRef) (pkg slot stream serial va cause access : Nat) : Prop :=
  exec i s = .next (State.told { u with
    nextId := u.nextId + 1,
    foreign := u.foreign.filter fun e => !reqOfStream pkg slot stream e.2.req,
    deliveries := u.deliveries.filter fun e => !decide (e.2.msg.srcPkg = pkg ∧ e.2.msg.slot = slot ∧ e.2.msg.stream = stream),
    frozen := smapInsert (u.frozen.filter fun e => decide (e.2.req ≠ req)) u.nextId
      { part := part, req := req, srcPkg := pkg, slot := slot, stream := stream, serial := serial, va := va, cause := cause,
        access := access, recorded := false, replay := false } } pkg slot stream (.freeze serial))

/-- A step `i` takes request `r` of another package, entered in `u` under `k` as `h`, to its homes (R321, R328): it waits for a busy
entry, is frozen by a fault, meets poison, or is performed, and its answer leaves once its writes are performed (R356). -/
structure AccessRuns (i : Instr) (s u : State) (k : Nat) (h : HeldForeign) (r : RemoteReq) : Prop where
  busy : u.remoteCheck h.part (remoteAcc r.kind) r.lanes = .busy → exec i s = .next u
  fault : ∀ va c, u.remoteCheck h.part (remoteAcc r.kind) r.lanes = .fault va c →
    Freezes i s u h.part (.foreign r) r.srcPkg r.slot r.stream r.serial va c
      (if r.kind = .load then 0 else if r.kind = .store then 1 else 2)
  poison : ∀ ps, u.remoteCheck h.part (remoteAcc r.kind) r.lanes = .ok ps → r.kind ≠ .store → (∃ x ∈ ps, u.poisonAt x.2 4 ≠ []) →
    exec i s = .next (State.told { u with
      frozen := u.frozen.filter fun e => decide (e.2.req ≠ .foreign r), foreign := smapErase u.foreign k } r.srcPkg r.slot r.stream
        (.reply (some 6) []))
  done : ∀ ps, u.remoteCheck h.part (remoteAcc r.kind) r.lanes = .ok ps → (r.kind = .store ∨ ∀ x ∈ ps, u.poisonAt x.2 4 = []) →
    u.NoReplicas → LanesApart r.kind ps →
    ∃ m po d pg dt n v ls ws w, w = { u with
        mem := m, poison := po, dir := d, pages := pg, dieTlbs := dt, serial := n,
        frozen := u.frozen.filter fun e => decide (e.2.req ≠ .foreign r),
        foreign := smapInsert u.foreign k { h with done := true, vals := v, lines := ls, walked := ws } } ∧
      LanesPerformed u { u with mem := m } r.kind ps v ∧ (r.kind = .load → ls = []) ∧
      (r.kind ≠ .load → ∀ l, l ∈ ls ↔ ∃ x ∈ ps, l ∈ x.2.lines 4) ∧ (∀ l, l ∈ ws ↔ ∃ x ∈ ps, l ∈ x.2.walked) ∧
      (w.writePerformed k ls = true → exec i s = .next (State.told { w with foreign := smapErase w.foreign k } r.srcPkg r.slot r.stream
        (.reply none v))) ∧
      (w.writePerformed k ls = false → exec i s = .next w)

/-- What an arrival leaves at a window that starts at `base` (R294, R340), of which `old` and `new` read a byte before and after: its
bytes, the COUNT of its pot higher by the credit, and every other byte as it was. -/
structure ArrivalLanded (old new : Nat → Byte) (base : Nat) (a : Arrival) : Prop where
  data : ∀ i < a.data.length, (∀ p, a.pot = some p → Apart p 4 (a.off + i) 1) → new (base + a.off + i) = a.data.getD i 0
  pot : ∀ p, a.pot = some p → Apart p 4 a.off a.data.length →
    ofBytes ((upFrom (base + p) 4).map new) = min (ofBytes ((upFrom (base + p) 4).map old) + a.credit) 0xFFFFFFFF
  frame : ∀ k, ¬(base + a.off ≤ k ∧ k < base + a.off + a.data.length) → (∀ p, a.pot = some p → ¬(base + p ≤ k ∧ k < base + p + 4)) →
    new k = old k

/-- An arrival has been applied at the window of the seat's holder (R340): in the scratchpad of a live group's team, or in the saved
image of its team. Beside it only the table of copies of lines may differ. -/
def ArrivalApplied (s t : State) (part : Nat) (a : Arrival) : Prop :=
  (∀ gid g tid x, s.seatHolder part a.seat = .live gid → s.group gid = some g → g.team = some tid → s.team tid = some x →
    ArrivalLanded s.sbyte t.sbyte (x.key 0) a ∧ t.mem = s.mem) ∧
  ∀ im e, s.seatHolder part a.seat = .saved im → s.teamOfImage im = some e → s.NoReplicas →
    ArrivalLanded s.byte t.byte (im + 0x280) a ∧ t.spad = s.spad

/-- FAIL is set in the pot of a failed transfer (R332): in the window of a live holder of its seat; while the seat is Moving, once the
arrival held for it is applied (R340); where the seat is of another package, by a message there; without a pot nothing differs. -/
structure XferPotFailed (s u : State) (rid : Nat) (q : FabReq) (pot : Option Nat) : Prop where
  none_ : pot = none → u = s
  away : ∀ p, pot = some p → seatPkg q.seat ≠ s.pkg.number → u = s.told (seatPkg q.seat) q.slot q.stream (.failPot rid)
  moving : ∀ p, pot = some p → seatPkg q.seat = s.pkg.number → s.seatHolder q.part q.seat = .moving → u = { s with
    nextId := s.nextId + 1,
    arrivals := smapInsert s.arrivals s.nextId
      { part := q.part, arr := { seat := q.seat, off := 0, data := [], pot := some p, credit := 0 }, fail := true, sender := none } }
  stale : ∀ p, pot = some p → seatPkg q.seat = s.pkg.number → s.seatHolder q.part q.seat = .stale → u = s
  live : ∀ p gid g tid x, pot = some p → seatPkg q.seat = s.pkg.number → s.seatHolder q.part q.seat = .live gid →
    s.group gid = some g → g.team = some tid → s.team tid = some x → p + 16 ≤ x.winLen → SpadFail s u (x.key p + 8)
  saved : ∀ p im e, pot = some p → seatPkg q.seat = s.pkg.number → s.seatHolder q.part q.seat = .saved im →
    s.teamOfImage im = some e → p + 16 ≤ e.2.winLen → s.NoReplicas → (∃ d m po, u = { s with dir := d, mem := m, poison := po }) ∧
      u.byte (im + 0x280 + p + 8) = s.byte (im + 0x280 + p + 8) ||| 1 ∧ ∀ a, a ≠ im + 0x280 + p + 8 → u.byte a = s.byte a
  fabric : u.fabric = s.fabric ∧ u.groups = s.groups ∧ u.teams = s.teams

/-- An arrival finds a holder whose window takes its bytes and its pot (R323, R340). -/
def ArrivalFits (s : State) (part : Nat) (a : Arrival) : Prop :=
  (∃ gid g tid x, s.seatHolder part a.seat = .live gid ∧ s.group gid = some g ∧ g.team = some tid ∧ s.team tid = some x ∧
    (a.data ≠ [] → a.off + a.data.length ≤ x.winLen) ∧ ∀ p, a.pot = some p → p + 16 ≤ x.winLen) ∨
  ∃ im e, s.seatHolder part a.seat = .saved im ∧ s.teamOfImage im = some e ∧
    (a.data ≠ [] → a.off + a.data.length ≤ e.2.winLen) ∧ ∀ p, a.pot = some p → p + 16 ≤ e.2.winLen

/-- An arrival reaches past the window of a live holder's team (R323). -/
def ArrivalBeyond (s : State) (part : Nat) (a : Arrival) : Prop :=
  ∃ gid g tid x, s.seatHolder part a.seat = .live gid ∧ s.group gid = some g ∧ g.team = some tid ∧ s.team tid = some x ∧
    ((a.data ≠ [] ∧ x.winLen < a.off + a.data.length) ∨ ∃ p, a.pot = some p ∧ x.winLen < p + 16)

/-- A step `i` takes chunk `c` of another package's transfer, entered in `u` under `k` as `h`, to its destination (R331, R332): to global
memory, where it waits for a busy entry, is frozen by a fault, or is written, its pot credited and its answer sent once the write
is performed; or to the window of the seat. A seat that is not of this package, or has no holder, answers causes 10 and 0. -/
structure ChunkRuns (i : Instr) (s u : State) (k : Nat) (h : HeldForeign) (c : XferChunkMsg) (a : Arrival) : Prop where
  away : (c.pot ≠ none ∨ c.space = true) → seatPkg c.seat ≠ s.pkg.number → exec i s = .next (State.told { u with
    frozen := u.frozen.filter fun e => decide (e.2.req ≠ .foreignChunk c), foreign := smapErase u.foreign k } c.srcPkg c.slot c.stream
      (.reply (some 10) []))
  stale : (c.pot ≠ none ∨ c.space = true) → seatPkg c.seat = s.pkg.number → u.seatHolder h.part c.seat = .stale →
    exec i s = .next (State.told { u with
      frozen := u.frozen.filter fun e => decide (e.2.req ≠ .foreignChunk c), foreign := smapErase u.foreign k } c.srcPkg c.slot c.stream
        (.reply (some 0) []))
  busy : c.space = false → c.pot = none → u.remoteCheck h.part .write [{ lane := 0, va := c.va, x := 0, y := 0 }] = .busy →
    exec i s = .next u
  fault : ∀ va x, c.space = false → c.pot = none →
    u.remoteCheck h.part .write [{ lane := 0, va := c.va, x := 0, y := 0 }] = .fault va x →
    Freezes i s u h.part (.foreignChunk c) c.srcPkg c.slot c.stream c.serial va x 1
  memory : ∀ y pl, c.space = false → (c.pot = none ∨ (seatPkg c.seat = s.pkg.number ∧ ArrivalFits u h.part a)) →
    u.remoteCheck h.part .write [{ lane := 0, va := c.va, x := 0, y := 0 }] = .ok [(y, pl)] → u.NoReplicas →
    ∃ d pg dt m po w, w = { u with
        dir := d, pages := pg, dieTlbs := dt, mem := m, poison := po,
        frozen := u.frozen.filter fun e => decide (e.2.req ≠ .foreignChunk c),
        foreign := smapInsert u.foreign k { h with done := true, vals := [], lines := pl.lines c.data.length, walked := pl.walked } } ∧
      PlaceStored u w c.data.length pl (fun b => c.data.getD b 0) ∧
      (w.writePerformed k (pl.lines c.data.length) = false → exec i s = .next w) ∧
      (w.writePerformed k (pl.lines c.data.length) = true → c.pot = none →
        exec i s = .next (State.told { w with foreign := smapErase w.foreign k } c.srcPkg c.slot c.stream (.reply none []))) ∧
      (w.writePerformed k (pl.lines c.data.length) = true → c.pot ≠ none → ArrivalFits w h.part a → ∃ v, ArrivalApplied w v h.part a ∧
        exec i s = .next (State.told { v with foreign := smapErase w.foreign k } c.srcPkg c.slot c.stream (.reply none [])))
  window : c.space = true → seatPkg c.seat = s.pkg.number → ArrivalFits u h.part a → ∃ v, ArrivalApplied u v h.part a ∧
    exec i s = .next (State.told { v with
      frozen := u.frozen.filter fun e => decide (e.2.req ≠ .foreignChunk c), foreign := smapErase u.foreign k } c.srcPkg c.slot c.stream
        (.reply none []))

/-- `k` is `g` after a delivery of one or two registers (R336 to R338, R341): the lanes that it names below the width hold their
words, the hold entry of the first register has one fewer pending and goes at 0, and beside them only what an outstanding
operation knows of writes to its destinations (R77) differs, and poisoned data that is written over goes (R396). -/
structure DeliveredTo (g k : Group) (addr lanes : DWord) (v0 : List Word) (v1 : Option (List Word)) : Prop where
  only : k = { g with vregs := k.vregs, holds := k.holds, pend := k.pend, bad := k.bad }
  sound : g.bad = [] → k.bad = []
  first : ∀ i < 64, k.vreg (seatReg addr) i =
    if inMask lanes i = true ∧ i < g.width then v0.getD i 0 else g.vreg (seatReg addr) i
  second : ∀ w, v1 = some w → ∀ i < 64, k.vreg (seatReg addr + 1) i =
    if inMask lanes i = true ∧ i < g.width then w.getD i 0 else g.vreg (seatReg addr + 1) i
  others : ∀ r, r ≠ seatReg addr → (v1 = none ∨ r ≠ seatReg addr + 1) → ∀ i < 64, k.vreg r i = g.vreg r i
  holds : ∀ h, h ∈ k.holds ↔ 0 < h.pending ∧ ((h ∈ g.holds ∧ h.reg ≠ seatReg addr) ∨
    h.reg = seatReg addr ∧ { h with pending := h.pending + 1 } ∈ g.holds)
  pend : k.pend.map (fun e => (e.1, { e.2 with clobbered := [] })) = g.pend.map fun e => (e.1, { e.2 with clobbered := [] })

/-- The number of registers of a delivery. -/
def deliveryLen (v1 : Option (List Word)) : Nat := if v1.isSome then 2 else 1

/-- No heartbeat of a package has come on a plane for 50 µs, 65,000 cycles, since it was last heard or first watched (R318, R342). -/
def Silent (s : State) (pkg plane : Nat) : Prop := ∃ c, tabGet s.pkg.lastBeat (8 * pkg + plane) = some c ∧ c + 65000 ≤ s.clock

/-- A package has been declared failed (R342): F is 1 in the rank entries that name it and no other rank entry differs; each request
in flight to it has completed with LINK, and no other request differs; the streams frozen at it are in Error. Where no such request
credits a pot, no byte of a memory or of a scratchpad has changed. -/
structure DeclaredFailed (s t : State) (pkg : Nat) : Prop where
  known : pkg ∈ t.pkg.failedPkgs ∧ ∀ n, n ≠ pkg → (n ∈ t.pkg.failedPkgs ↔ n ∈ s.pkg.failedPkgs)
  ranks : ∀ n x, s.part n = some x → ∃ y, t.part n = some y ∧ y = { x with ranks := y.ranks } ∧
    ∀ r, tabGet y.ranks r = (tabGet x.ranks r).map fun e => if e.pkg = pkg then { e with failed := true } else e
  flying : ∀ rid q, tabGet s.fabric rid = some q → q.pkg = pkg → q.performed = false → tabGet t.fabric rid = some
    { q with performed := true, cause := some 5, left := true, frozen := false, sent := q.credited, lines := [], walked := [] }
  others : ∀ rid q, tabGet s.fabric rid = some q → (∀ e ∈ s.fabric, e.1 = rid → e.2.pkg ≠ pkg ∨ e.2.performed = true) →
    tabGet t.fabric rid = some q
  streams : ∀ rid q sl n, tabGet s.fabric rid = some q → q.pkg = pkg → (rid, n) ∈ (s.stream q.slot q.stream).frozenBy →
    tabGet s.streams q.slot = some sl → q.stream < sl.streams.length → (t.stream q.slot q.stream).state = 2
  groups : t.groups = s.groups ∧ t.teams = s.teams ∧ t.clock = s.clock
  quiet : (∀ e ∈ s.fabric, (∃ f ∈ s.fabric, f.1 = e.1 ∧ f.2.pkg = pkg) → ∀ a b n sp p, e.2.kind ≠ .xfer a b n sp (some p)) → t.mem = s.mem ∧ t.spad = s.spad

/-- The place of a unit's READY bit (R379, R380): 0 for READYC, 1 for READYS, 2 for READYM and 3 for READYX, with the bit. -/
def readyBit : PkgUnit → Nat × Nat
  | .cluster n => (0, n)
  | .sliceGroup n => (1, n)
  | .stack n => (2, n)
  | .plane n => (2, 16 + n)
  | .eth n => (2, 24 + n)
  | .hostLink => (3, 0)
  | .tier n => (3, 1 + n)
  | .rot => (3, 3)
  | .dlink n => (3, 4 + n)

/-- A unit exists (R379, R380). -/
def UnitExists : PkgUnit → Prop
  | .cluster n => n < 48
  | .sliceGroup n => n < 64
  | .stack n => n < 16
  | .plane n => n < 8
  | .eth n => n < 8
  | .tier n => n < 2
  | .dlink n => n < 14
  | _ => True

/-- A bit of the four READY registers. -/
def Pkg.readyAt (k : Pkg) (b : Nat × Nat) : Bool :=
  match b.1 with
  | 0 => k.readyC.getLsbD b.2
  | 1 => k.readyS.getLsbD b.2
  | 2 => k.readyM.getLsbD b.2
  | _ => k.readyX.getLsbD b.2

/-- Only the READY bit of a unit differs between two sets of READY registers, and it is `v` in the second. -/
def ReadySet (k j : Pkg) (u : PkgUnit) (v : Bool) : Prop :=
  j.readyAt (readyBit u) = v ∧ ∀ r < 4, ∀ i < 64, (r, i) ≠ readyBit u → j.readyAt (r, i) = k.readyAt (r, i)

/-- An island has changed to `i` (R408), and no other one has; THROT is 1 when an island runs below its REQ because of its throttled
point, and 0 when each POINT equals its REQ. Beside the islands and THROT nothing differs. -/
structure IslandSet (s t : State) (n : Nat) (i : Island) : Prop where
  only : ∃ m b, t = { s with pkg := { s.pkg with islands := m, throt := b } }
  islands : ∀ m, t.island m = if m = n then i else s.island m
  high : (∃ e ∈ t.pkg.islands, e.2.req < e.2.point ∧ e.2.point = e.2.throttle) → t.pkg.throt = true
  low : (∀ e ∈ t.pkg.islands, e.2.point = e.2.req) → t.pkg.throt = false

/-- The places of the units from byte offset `off` on of a queue: reachable, unkeyed, with A set, and apart from each other. -/
structure UnitPlaces (s : State) (part : Nat) (h : QueueHeader) (off n : Nat) (acc : Acc) (pa : Nat → Nat) : Prop where
  at_ : ∀ i < n, ∃ kind e ls, s.portPlace part (h.base + (off + 16 * i) % h.size) 16 acc = some (.phys (pa i) kind none e ls) ∧
    Marked s (.phys (pa i) kind none e ls)
  apart : ∀ i < n, ∀ j < n, i ≠ j → Apart (pa i) 16 (pa j) 16

/-- The privileged instructions (R55), with a defined encoding and a prefix that they honour. -/
def Privileged : Instr → Prop
  | .psrd f => psrListed f.idx = true
  | .pswr f => psrListed f.idx = true ∧ psrWritable f.idx = true
  | .ovtld _ => True
  | .rfe _ => True
  | .rfeNext _ => True
  | .rfePark _ => True
  | .ctxsv _ => True
  | .ctxld _ => True
  | .pgmap _ => True
  | .pgpoolAdd _ => True
  | .pgpoolRem _ => True
  | .pgpoolCnt _ => True
  | .keyld _ => True
  | .halt _ => True
  | .dupset _ => True
  | .sigset _ => True
  | .killg _ => True
  | .rresume f => fabPxBad f.px false false = false
  | .rresumeFail f => fabPxBad f.px false false = false
  | .rankmap f => fabPxBad f.px false false = false
  | .rankmapRd f => fabPxBad f.px false false = false
  | _ => False

/-- Group `g` is not in a handler, and its partition is `x`. -/
def Outside (s : State) (g : Group) (x : Part) : Prop := g.handler = none ∧ s.part g.part = some x

/-- No step of the outside world is listed that is an instruction of a group: the inbox lists events only. -/
def State.eventsOnly (s : State) : Prop := ∀ i ∈ s.inbox, encode i = []

/-- What every step keeps: both memories are in canonical form, and the inbox lists events only. -/
def State.Inv (s : State) : Prop := s.memOk ∧ s.eventsOnly

end Sys2Proof.Machine
end

