-- ==== Sys2Proof/Certificates/Slice0/Obligations.lean ====
section
/-! DEFINITION. The statements about the machine, each with the rules that it rests on. -/

open Sys2Proof Sys2Proof.Machine

/-- Integer lane instructions and those that take a uniform register (R141, R143, R140, R5, R139). For every V3 integer
instruction over elements but the shifts, in every ready group, for every prefix it honours: it completes at the next word;
each Active lane of vd receives the element operation of va and vb at the effective type, zeroing and merging follow the
prefix, and nothing else of the machine changes but the account of the issue. For every VU form of an integer instruction over
elements but the shifts, in every ready group: as the V3 form, with each element of the second source that of the uniform
register, or the imm7 sign-extended to the element width. That zeroing reaches the lanes of sibling splits is the model's
choice of log entry 5. -/
def Obligations.IntegerLanes : Prop :=
  ((∀ e ∈ elementOps, ∀ (s : State) (gid : Nat) (g : Group) (p : Split) (f : V3), Ready s gid g p →
    g.HasV [f.vd.toNat, f.va.toNat, f.vb.toNat] → pxRnd f.px = 0 → pxXw f.px = 0 → pxKind f.px = 0 → g.typeBad f.px = false →
    ∃ k, exec (e.1 f) s = .next (s.setGroup gid k) ∧
      Issued k { g with vregs := k.vregs } p (s.after g p (if f.px.isSome then 2 else 1)) ∧
      LanesWritten g k p f.vd.toNat (aluMask f.px) (aluZero f.px) fun i =>
        mapElems (elemWidth (g.effType f.px)) (e.2.2 (elemWidth (g.effType f.px)) (unsignedType (g.effType f.px)))
          (g.vreg f.va.toNat i) (g.vreg f.vb.toNat i))) ∧
  ((∀ e ∈ elementOps, ∀ (s : State) (gid : Nat) (g : Group) (p : Split) (f : VU), Ready s gid g p →
    g.HasV [f.vd.toNat, f.va.toNat] → g.HasS (vsrcNamed f.src) → pxRnd f.px = 0 → pxXw f.px = 0 → pxKind f.px = 0 → g.typeBad f.px = false →
    ∃ k, exec (e.2.1 f) s = .next (s.setGroup gid k) ∧
      Issued k { g with vregs := k.vregs } p (s.after g p (if f.px.isSome then 2 else 1)) ∧
      LanesWritten g k p f.vd.toNat (aluMask f.px) (aluZero f.px) fun i =>
        mapElems (elemWidth (g.effType f.px)) (e.2.2 (elemWidth (g.effType f.px)) (unsignedType (g.effType f.px)))
          (g.vreg f.va.toNat i) (g.vsrc (elemWidth (g.effType f.px)) f.src)))

/-- The shifts (R142). For ishl, ishr and isra (both forms) and sshl, sshr and ssra, in every ready group: the amount is
the whole element, or the whole second word, read unsigned; an amount of the width or more gives 0, or all sign bits for
the arithmetic shift; and the immediate -1 is such an amount. -/
def Obligations.Shifts : Prop :=
  (∀ e ∈ shiftOps, ∀ (s : State) (gid : Nat) (g : Group) (p : Split) (f : V3), Ready s gid g p →
    g.HasV [f.vd.toNat, f.va.toNat, f.vb.toNat] → pxRnd f.px = 0 → pxXw f.px = 0 → pxKind f.px = 0 → g.typeBad f.px = false →
    ∃ k, exec (e.1 f) s = .next (s.setGroup gid k) ∧
      Issued k { g with vregs := k.vregs } p (s.after g p (if f.px.isSome then 2 else 1)) ∧
      LanesWritten g k p f.vd.toNat (aluMask f.px) (aluZero f.px) fun i =>
        mapElems (elemWidth (g.effType f.px)) (e.2.2.2 (elemWidth (g.effType f.px)))
          (g.vreg f.va.toNat i) (g.vreg f.vb.toNat i)) ∧
  (∀ e ∈ shiftOps, ∀ (s : State) (gid : Nat) (g : Group) (p : Split) (f : VU), Ready s gid g p →
    g.HasV [f.vd.toNat, f.va.toNat] → g.HasS (vsrcNamed f.src) → pxRnd f.px = 0 → pxXw f.px = 0 → pxKind f.px = 0 → g.typeBad f.px = false →
    ∃ k, exec (e.2.1 f) s = .next (s.setGroup gid k) ∧
      Issued k { g with vregs := k.vregs } p (s.after g p (if f.px.isSome then 2 else 1)) ∧
      LanesWritten g k p f.vd.toNat (aluMask f.px) (aluZero f.px) fun i =>
        mapElems (elemWidth (g.effType f.px)) (e.2.2.2 (elemWidth (g.effType f.px)))
          (g.vreg f.va.toNat i) (g.vsrc (elemWidth (g.effType f.px)) f.src)) ∧
  (∀ e ∈ shiftOps, ∀ (s : State) (gid : Nat) (g : Group) (p : Split) (f : S3), Ready s gid g p → g.HasS (f.sd.toNat :: f.sa.toNat :: ssrcNamed f.src) →
    ∃ k, exec (e.2.2.1 f) s = .next (s.setGroup gid k) ∧
      Issued k (g.setSreg f.sd.toNat (e.2.2.2 32 (g.sreg f.sa.toNat) (g.ssrc f.src))) p (s.after g p 1)) ∧
  (∀ e ∈ shiftOps, ∀ w ∈ [8, 16, 32], ∀ (g : Group) (x : Word),
    mapElems w (e.2.2.2 w) x (g.vsrc w (.imm (-1))) = mapElems w (fun a _ => e.2.2.2 w a (BitVec.allOnes w)) x 0 ∧
    ∀ a : BitVec w, e.2.2.2 w a (BitVec.allOnes w) = e.2.2.2 w a (BitVec.ofNat w w))

/-- Unary integer instructions, selection and dot products (R141, R146, R139, R144). In every ready group ipopc, iclz
and ibrev write to the Active lanes the number of 1 bits, the number of leading 0 bits and the reversed bits of each
element of va; vmov copies the second source, in both forms. In every ready group vsel writes every lane of the split
below the width from the first source where the selector of the mask field is 1 and from the second where it is 0; idot4
adds the four exact byte products to the old vd, or to the fourth operand of the prefix, modulo 2^32. -/
def Obligations.IntegerOthers : Prop :=
  (((∀ e ∈ unaryOps, ∀ (s : State) (gid : Nat) (g : Group) (p : Split) (f : V3Un), Ready s gid g p → g.HasV [f.vd.toNat, f.va.toNat] → pxRnd f.px = 0 → pxXw f.px = 0 → pxKind f.px = 0 → g.typeBad f.px = false →
    ∃ k, exec (e.1 f) s = .next (s.setGroup gid k) ∧
      Issued k { g with vregs := k.vregs } p (s.after g p (if f.px.isSome then 2 else 1)) ∧
      LanesWritten g k p f.vd.toNat (aluMask f.px) (aluZero f.px) fun i =>
        mapElems (elemWidth (g.effType f.px)) (fun a _ => e.2 (elemWidth (g.effType f.px)) a) (g.vreg f.va.toNat i) 0) ∧
  (∀ (s : State) (gid : Nat) (g : Group) (p : Split) (f : V3Mov), Ready s gid g p → g.HasV [f.vd.toNat, f.vb.toNat] → pxRnd f.px = 0 → pxXw f.px = 0 → pxKind f.px = 0 → g.typeBad f.px = false →
    ∃ k, exec (.vmov f) s = .next (s.setGroup gid k) ∧
      Issued k { g with vregs := k.vregs } p (s.after g p (if f.px.isSome then 2 else 1)) ∧
      LanesWritten g k p f.vd.toNat (aluMask f.px) (aluZero f.px) fun i => g.vreg f.vb.toNat i) ∧
  (∀ (s : State) (gid : Nat) (g : Group) (p : Split) (f : VUMov), Ready s gid g p → g.HasV [f.vd.toNat] → g.HasS (vsrcNamed f.src) → pxRnd f.px = 0 → pxXw f.px = 0 → pxKind f.px = 0 → g.typeBad f.px = false →
    ∃ k, exec (.vmovVu f) s = .next (s.setGroup gid k) ∧
      Issued k { g with vregs := k.vregs } p (s.after g p (if f.px.isSome then 2 else 1)) ∧
      LanesWritten g k p f.vd.toNat (aluMask f.px) (aluZero f.px) fun _ => g.vsrc (elemWidth (g.effType f.px)) f.src))) ∧
  (((∀ (s : State) (gid : Nat) (g : Group) (p : Split) (f : V3), Ready s gid g p → g.HasV [f.vd.toNat, f.va.toNat, f.vb.toNat] → pxRnd f.px = 0 → pxXw f.px = 0 → pxKind f.px = 0 → aluZero f.px = false →
    g.typeBad f.px = false →
    ∃ k, exec (.vsel f) s = .next (s.setGroup gid k) ∧
      Issued k { g with vregs := k.vregs } p (s.after g p (if f.px.isSome then 2 else 1)) ∧
      LanesWritten g k p f.vd.toNat .none false fun i =>
        if inMask (g.activeMask p.mask (aluMask f.px)) i then g.vreg f.va.toNat i else g.vreg f.vb.toNat i) ∧
  (∀ (s : State) (gid : Nat) (g : Group) (p : Split) (f : VU), Ready s gid g p → g.HasV [f.vd.toNat, f.va.toNat] → g.HasS (vsrcNamed f.src) → pxRnd f.px = 0 → pxXw f.px = 0 → pxKind f.px = 0 →
    aluZero f.px = false → g.typeBad f.px = false →
    ∃ k, exec (.vselVu f) s = .next (s.setGroup gid k) ∧
      Issued k { g with vregs := k.vregs } p (s.after g p (if f.px.isSome then 2 else 1)) ∧
      LanesWritten g k p f.vd.toNat .none false fun i =>
        if inMask (g.activeMask p.mask (aluMask f.px)) i then g.vreg f.va.toNat i
        else g.vsrc (elemWidth (g.effType f.px)) f.src) ∧
  (∀ (s : State) (gid : Nat) (g : Group) (p : Split) (f : V3), Ready s gid g p → g.HasV (f.vd.toNat :: [f.va.toNat, f.vb.toNat] ++ fourthV f.px 1) → g.HasS (fourthS f.px) → pxRnd f.px = 0 → pxXw f.px = 0 →
    g.typeBad f.px = false →
    ∃ k, exec (.idot4 f) s = .next (s.setGroup gid k) ∧
      Issued k { g with vregs := k.vregs } p (s.after g p (if f.px.isSome then 2 else 1)) ∧
      LanesWritten g k p f.vd.toNat (aluMask f.px) (aluZero f.px) fun i =>
        byteDot (unsignedType (g.effType f.px)) (g.vreg f.va.toNat i) (g.vreg f.vb.toNat i)
          (g.fourth f.px (g.vreg f.vd.toNat) i)) ∧
  (∀ (s : State) (gid : Nat) (g : Group) (p : Split) (f : VU), Ready s gid g p → g.HasV (f.vd.toNat :: [f.va.toNat] ++ fourthV f.px 1) → g.HasS (vsrcNamed f.src ++ fourthS f.px) →
    pxRnd f.px = 0 → pxXw f.px = 0 → g.typeBad f.px = false →
    ∃ k, exec (.idot4Vu f) s = .next (s.setGroup gid k) ∧
      Issued k { g with vregs := k.vregs } p (s.after g p (if f.px.isSome then 2 else 1)) ∧
      LanesWritten g k p f.vd.toNat (aluMask f.px) (aluZero f.px) fun i =>
        byteDot (unsignedType (g.effType f.px)) (g.vreg f.va.toNat i) (g.vsrc 8 f.src)
          (g.fourth f.px (g.vreg f.vd.toNat) i))))

/-- The integer compares (R145, R49). In every ready group icmp and icmpu, in both forms and for each of the six
conditions they accept, write to each Active lane of the destination predicate whether the condition holds of the two
words, read signed or unsigned; p7 discards the result; zeroing and merging follow the prefix. -/
def Obligations.IntegerCompare : Prop :=
  (∀ t ∈ condTests, ∀ (s : State) (gid : Nat) (g : Group) (p : Split) (f : V3Cmp), Ready s gid g p → f.cond = t.1 → g.HasV [f.va.toNat, f.vb.toNat] → pxRnd f.px = 0 → pxXw f.px = 0 → pxKind f.px = 0 → pxType f.px = 0 →
    (∃ k, exec (.icmp f) s = .next (s.setGroup gid k) ∧
      Issued k { g with preds := k.preds } p (s.after g p (if f.px.isSome then 2 else 1)) ∧
      PredWritten g k p f.pd.toNat (aluMask f.px) (aluZero f.px) fun i =>
        t.2 (g.vreg f.va.toNat i).toInt (g.vreg f.vb.toNat i).toInt) ∧
    (∃ k, exec (.icmpu f) s = .next (s.setGroup gid k) ∧
      Issued k { g with preds := k.preds } p (s.after g p (if f.px.isSome then 2 else 1)) ∧
      PredWritten g k p f.pd.toNat (aluMask f.px) (aluZero f.px) fun i =>
        t.2 (g.vreg f.va.toNat i).toNat (g.vreg f.vb.toNat i).toNat)) ∧
  (∀ t ∈ condTests, ∀ (s : State) (gid : Nat) (g : Group) (p : Split) (f : VUCmp), Ready s gid g p → f.cond = t.1 → g.HasV [f.va.toNat] → g.HasS (vsrcNamed f.src) → pxRnd f.px = 0 → pxXw f.px = 0 → pxKind f.px = 0 → pxType f.px = 0 →
    (∃ k, exec (.icmpVu f) s = .next (s.setGroup gid k) ∧
      Issued k { g with preds := k.preds } p (s.after g p (if f.px.isSome then 2 else 1)) ∧
      PredWritten g k p f.pd.toNat (aluMask f.px) (aluZero f.px) fun i =>
        t.2 (g.vreg f.va.toNat i).toInt (g.vsrc 32 f.src).toInt) ∧
    (∃ k, exec (.icmpuVu f) s = .next (s.setGroup gid k) ∧
      Issued k { g with preds := k.preds } p (s.after g p (if f.px.isSome then 2 else 1)) ∧
      PredWritten g k p f.pd.toNat (aluMask f.px) (aluZero f.px) fun i =>
        t.2 (g.vreg f.va.toNat i).toNat (g.vsrc 32 f.src).toNat))

/-- movi (R147, R49). In every ready group movi writes its literal to the lanes of a vector destination that the guard
makes Active, or once to a uniform destination, which s63 discards, and goes on after the literal. -/
def Obligations.MoviWrites : Prop :=
  (∀ (s : State) (gid : Nat) (g : Group) (p : Split) (f : Movi) (r : BitVec 7), Ready s gid g p → f.dst = .v r → g.HasV [r.toNat] →
    ∃ k, exec (.movi f) s = .next (s.setGroup gid k) ∧ Issued k { g with vregs := k.vregs } p (s.after g p 2) ∧
      LanesWritten g k p r.toNat .guard false fun _ => f.lit) ∧
  (∀ (s : State) (gid : Nat) (g : Group) (p : Split) (f : Movi) (r : BitVec 6), Ready s gid g p → f.dst = .u r → g.HasS [r.toNat] →
    ∃ k, exec (.movi f) s = .next (s.setGroup gid k) ∧ Issued k (g.setSreg r.toNat f.lit) p (s.after g p 2))

/-- Uniform results and uniform flag instructions (R149, R148, R153, R30, R152). In every ready group, whatever its
masks, each uniform instruction writes its result to sd, unless sd is s63, and goes to the next word; SCC, every other
register and every flag are unchanged. In every ready group stest sets Z and N from the conjunction and clears C and V;
saddc writes the low 32 bits of the 33-bit sum with the carry in, and sets C, Z, N and V from it; A is kept and nothing
else changes. -/
def Obligations.UniformResults : Prop :=
  (((∀ e ∈ uniformOps, ∀ (s : State) (gid : Nat) (g : Group) (p : Split) (f : S3), Ready s gid g p → g.HasS (f.sd.toNat :: f.sa.toNat :: ssrcNamed f.src) →
    ∃ k, exec (e.1 f) s = .next (s.setGroup gid k) ∧
      Issued k (g.setSreg f.sd.toNat (e.2 (g.sreg f.sa.toNat) (g.ssrc f.src))) p (s.after g p 1)) ∧
  (∀ (s : State) (gid : Nat) (g : Group) (p : Split) (f : S3), Ready s gid g p → g.HasS (f.sd.toNat :: f.sa.toNat :: ssrcNamed f.src) →
    (∃ k, exec (.ssel f) s = .next (s.setGroup gid k) ∧
      Issued k (g.setSreg f.sd.toNat (if g.scc.getLsbD 0 then g.sreg f.sa.toNat else g.ssrc f.src)) p (s.after g p 1)) ∧
    (∃ k x, exec (.sbfe f) s = .next (s.setGroup gid k) ∧ Issued k (g.setSreg f.sd.toNat x) p (s.after g p 1) ∧
      ∀ j, x.getLsbD j = (decide (j < ctrlLen (g.ssrc f.src)) &&
        (g.sreg f.sa.toNat).getLsbD (((g.ssrc f.src).extractLsb' 0 5).toNat + j))) ∧
    (∃ k x, exec (.sbfi f) s = .next (s.setGroup gid k) ∧ Issued k (g.setSreg f.sd.toNat x) p (s.after g p 1) ∧
      ∀ j < 32, x.getLsbD j =
        if ((g.ssrc f.src).extractLsb' 0 5).toNat ≤ j ∧ j < ((g.ssrc f.src).extractLsb' 0 5).toNat + ctrlLen (g.ssrc f.src)
        then (g.sreg f.sa.toNat).getLsbD (j - ((g.ssrc f.src).extractLsb' 0 5).toNat)
        else (g.sreg f.sd.toNat).getLsbD j)) ∧
  (∀ (s : State) (gid : Nat) (g : Group) (p : Split) (f : SMov), Ready s gid g p → g.HasS (f.sd.toNat :: ssrcNamed f.src) →
    ∃ k, exec (.smov f) s = .next (s.setGroup gid k) ∧ Issued k (g.setSreg f.sd.toNat (g.ssrc f.src)) p (s.after g p 1)) ∧
  (∀ (s : State) (gid : Nat) (g : Group) (p : Split) (f : SUn), Ready s gid g p → g.HasS [f.sd.toNat, f.sa.toNat] →
    (∃ k, exec (.spopc f) s = .next (s.setGroup gid k) ∧
      Issued k (g.setSreg f.sd.toNat (BitVec.ofNat 32 ((List.range 32).countP fun j => (g.sreg f.sa.toNat).getLsbD j))) p
        (s.after g p 1)) ∧
    (∃ k, exec (.sffs f) s = .next (s.setGroup gid k) ∧
      Issued k (g.setSreg f.sd.toNat
        (BitVec.ofNat 32 (((List.range 32).find? fun j => (g.sreg f.sa.toNat).getLsbD j).getD 32))) p (s.after g p 1))))) ∧
  (((∀ (s : State) (gid : Nat) (g : Group) (p : Split) (f : SCmp), Ready s gid g p → g.HasS (f.sa.toNat :: ssrcNamed f.src) →
    ∃ k, exec (.stest f) s = .next (s.setGroup gid k) ∧ Issued k { g with scc := k.scc } p (s.after g p 1) ∧
      sccZ k.scc = decide (g.sreg f.sa.toNat &&& g.ssrc f.src = 0) ∧ sccN k.scc = (g.sreg f.sa.toNat &&& g.ssrc f.src).msb ∧
      sccC k.scc = false ∧ sccV k.scc = false ∧ sccA k.scc = sccA g.scc) ∧
  (∀ (s : State) (gid : Nat) (g : Group) (p : Split) (f : S3) (t : BitVec 33), Ready s gid g p → g.HasS (f.sd.toNat :: f.sa.toNat :: ssrcNamed f.src) →
    t = (g.sreg f.sa.toNat).setWidth 33 + (g.ssrc f.src).setWidth 33 + (if sccC g.scc then 1 else 0) →
    ∃ k, exec (.saddc f) s = .next (s.setGroup gid k) ∧
      Issued k { g.setSreg f.sd.toNat (t.setWidth 32) with scc := k.scc } p (s.after g p 1) ∧
      sccC k.scc = t.getLsbD 32 ∧ sccZ k.scc = decide (t.setWidth 32 = (0 : Word)) ∧ sccN k.scc = t.getLsbD 31 ∧
      sccV k.scc = (((g.sreg f.sa.toNat).msb == (g.ssrc f.src).msb) && (t.getLsbD 31 != (g.sreg f.sa.toNat).msb)) ∧
      sccA k.scc = sccA g.scc)))

/-- scmp and scmpu (R151). In every ready group scmp and scmpu change SCC alone: Z, N, C and V are those of the exact
difference as each instruction defines them, A is kept, and after either one N xor V and not C give its own ordering; an
imm9 is sign-extended before either comparison. -/
def Obligations.UniformCompare : Prop :=
  (∀ (s : State) (gid : Nat) (g : Group) (p : Split) (f : SCmp) (a b : Word), Ready s gid g p → g.HasS (f.sa.toNat :: ssrcNamed f.src) → g.sreg f.sa.toNat = a → g.ssrc f.src = b →
    (∃ k, exec (.scmp f) s = .next (s.setGroup gid k) ∧ Issued k { g with scc := k.scc } p (s.after g p 1) ∧
      sccZ k.scc = decide (a = b) ∧ sccC k.scc = decide (b.toNat ≤ a.toNat) ∧ sccN k.scc = (a - b).msb ∧
      sccV k.scc = decide (a.toInt - b.toInt < -2 ^ 31 ∨ 2 ^ 31 ≤ a.toInt - b.toInt) ∧ sccA k.scc = sccA g.scc ∧
      (sccN k.scc != sccV k.scc) = decide (a.toInt < b.toInt) ∧ (!sccC k.scc) = decide (a.toNat < b.toNat)) ∧
    (∃ k, exec (.scmpu f) s = .next (s.setGroup gid k) ∧ Issued k { g with scc := k.scc } p (s.after g p 1) ∧
      sccZ k.scc = decide (a = b) ∧ sccC k.scc = decide (b.toNat ≤ a.toNat) ∧ sccN k.scc = decide (a.toNat < b.toNat) ∧
      sccV k.scc = false ∧ sccA k.scc = sccA g.scc ∧
      (sccN k.scc != sccV k.scc) = decide (a.toNat < b.toNat) ∧ (!sccC k.scc) = decide (a.toNat < b.toNat))) ∧
  (∀ (g : Group) (i : BitVec 9), g.ssrc (.imm i) = i.signExtend 32)

/-- fadd, fsub, fmul and fround (R178, R179, R175, R165, R166). In every ready vector group, for an arithmetic type and
a legal rounding, and when no Active lane raises an enabled exception: fadd, fsub and fmul in both forms, and fround,
write each element of the Active lanes with the result of its operation, add the flags raised to FLAGS, and go to the
next word; nothing else changes. -/
def Obligations.FloatRounded : Prop :=
  (∀ e ∈ roundedOps, ∀ (s : State) (gid : Nat) (g : Group) (p : Split) (f : V3), Ready s gid g p → g.role = .vector → g.HasV ([f.vd.toNat, f.va.toNat, f.vb.toNat] ++ fourthV f.px 1) → g.HasS (fourthS f.px) →
    g.Rounds f.px → arithType (g.effType f.px) = true →
    g.NoFpTrap p (aluMask f.px) (fun i => (g.floatWord f.px false e.2.2 (g.randWord f.px i) (g.vreg f.va.toNat i) (g.vreg f.vb.toNat i) (0)).2) →
    ∃ k, exec (e.1 f) s = .next (s.setGroup gid k) ∧
      Issued k { g with vregs := k.vregs, flags := k.flags } p (s.after g p (if f.px.isSome then 2 else 1)) ∧
      FlagsRaised g k p (aluMask f.px) (fun i => (g.floatWord f.px false e.2.2 (g.randWord f.px i) (g.vreg f.va.toNat i) (g.vreg f.vb.toNat i) (0)).2) ∧
      LanesWritten g k p f.vd.toNat (aluMask f.px) (aluZero f.px) fun i => (g.floatWord f.px false e.2.2 (g.randWord f.px i) (g.vreg f.va.toNat i) (g.vreg f.vb.toNat i) (0)).1) ∧
  (∀ e ∈ roundedOps, ∀ (s : State) (gid : Nat) (g : Group) (p : Split) (f : VU), Ready s gid g p → g.role = .vector → g.HasV ([f.vd.toNat, f.va.toNat] ++ fourthV f.px 1) → g.HasS (vsrcNamed f.src ++ fourthS f.px) →
    g.Rounds f.px → arithType (g.effType f.px) = true →
    g.NoFpTrap p (aluMask f.px) (fun i => (g.floatWord f.px false e.2.2 (g.randWord f.px i) (g.vreg f.va.toNat i) (g.floatSrc (fmtOf (g.effType f.px)) f.src) (0)).2) →
    ∃ k, exec (e.2.1 f) s = .next (s.setGroup gid k) ∧
      Issued k { g with vregs := k.vregs, flags := k.flags } p (s.after g p (if f.px.isSome then 2 else 1)) ∧
      FlagsRaised g k p (aluMask f.px) (fun i => (g.floatWord f.px false e.2.2 (g.randWord f.px i) (g.vreg f.va.toNat i) (g.floatSrc (fmtOf (g.effType f.px)) f.src) (0)).2) ∧
      LanesWritten g k p f.vd.toNat (aluMask f.px) (aluZero f.px) fun i => (g.floatWord f.px false e.2.2 (g.randWord f.px i) (g.vreg f.va.toNat i) (g.floatSrc (fmtOf (g.effType f.px)) f.src) (0)).1) ∧
  (∀ (s : State) (gid : Nat) (g : Group) (p : Split) (f : V3Un), Ready s gid g p → g.role = .vector → g.HasV ([f.vd.toNat, f.va.toNat] ++ fourthV f.px 1) → g.HasS (fourthS f.px) →
    g.Rounds f.px → arithType (g.effType f.px) = true →
    g.NoFpTrap p (aluMask f.px) (fun i => (g.floatWord f.px false opFround (g.randWord f.px i) (g.vreg f.va.toNat i) (0) (0)).2) →
    ∃ k, exec (.fround f) s = .next (s.setGroup gid k) ∧
      Issued k { g with vregs := k.vregs, flags := k.flags } p (s.after g p (if f.px.isSome then 2 else 1)) ∧
      FlagsRaised g k p (aluMask f.px) (fun i => (g.floatWord f.px false opFround (g.randWord f.px i) (g.vreg f.va.toNat i) (0) (0)).2) ∧
      LanesWritten g k p f.vd.toNat (aluMask f.px) (aluZero f.px) fun i => (g.floatWord f.px false opFround (g.randWord f.px i) (g.vreg f.va.toNat i) (0) (0)).1)

/-- Chosen floating results and instructions on codes (R181, R178, R175, R179, R182, R183). In every ready vector group,
for an arithmetic type, and when no Active lane raises an enabled exception: fmin and fmax in both forms write each
element of the Active lanes with the source that R181 chooses; a signalling NaN raises IV; nothing else changes. In
every ready vector group: fabs, fneg and fclass write the Active lanes with each element's sign cleared, its sign
inverted or its class bit, raise no flag and read no DAZ; fcmp, in both forms and under every condition, writes whether
every element of the lane satisfies the condition, with the flags of R182. -/
def Obligations.FloatChosen : Prop :=
  (((∀ e ∈ choiceOps, ∀ (s : State) (gid : Nat) (g : Group) (p : Split) (f : V3), Ready s gid g p → g.role = .vector → g.HasV [f.vd.toNat, f.va.toNat, f.vb.toNat] →
    NoRounding f.px → arithType (g.effType f.px) = true →
    g.NoFpTrap p (aluMask f.px) (fun i => (g.floatWord f.px false e.2.2 (g.randWord f.px i) (g.vreg f.va.toNat i) (g.vreg f.vb.toNat i) (0)).2) →
    ∃ k, exec (e.1 f) s = .next (s.setGroup gid k) ∧
      Issued k { g with vregs := k.vregs, flags := k.flags } p (s.after g p (if f.px.isSome then 2 else 1)) ∧
      FlagsRaised g k p (aluMask f.px) (fun i => (g.floatWord f.px false e.2.2 (g.randWord f.px i) (g.vreg f.va.toNat i) (g.vreg f.vb.toNat i) (0)).2) ∧
      LanesWritten g k p f.vd.toNat (aluMask f.px) (aluZero f.px) fun i => (g.floatWord f.px false e.2.2 (g.randWord f.px i) (g.vreg f.va.toNat i) (g.vreg f.vb.toNat i) (0)).1) ∧
  (∀ e ∈ choiceOps, ∀ (s : State) (gid : Nat) (g : Group) (p : Split) (f : VU), Ready s gid g p → g.role = .vector → g.HasV [f.vd.toNat, f.va.toNat] → g.HasS (vsrcNamed f.src) →
    NoRounding f.px → arithType (g.effType f.px) = true →
    g.NoFpTrap p (aluMask f.px) (fun i => (g.floatWord f.px false e.2.2 (g.randWord f.px i) (g.vreg f.va.toNat i) (g.floatSrc (fmtOf (g.effType f.px)) f.src) (0)).2) →
    ∃ k, exec (e.2.1 f) s = .next (s.setGroup gid k) ∧
      Issued k { g with vregs := k.vregs, flags := k.flags } p (s.after g p (if f.px.isSome then 2 else 1)) ∧
      FlagsRaised g k p (aluMask f.px) (fun i => (g.floatWord f.px false e.2.2 (g.randWord f.px i) (g.vreg f.va.toNat i) (g.floatSrc (fmtOf (g.effType f.px)) f.src) (0)).2) ∧
      LanesWritten g k p f.vd.toNat (aluMask f.px) (aluZero f.px) fun i => (g.floatWord f.px false e.2.2 (g.randWord f.px i) (g.vreg f.va.toNat i) (g.floatSrc (fmtOf (g.effType f.px)) f.src) (0)).1))) ∧
  (((∀ e ∈ codeOps, ∀ (s : State) (gid : Nat) (g : Group) (p : Split) (f : V3Un), Ready s gid g p → g.role = .vector → g.HasV [f.vd.toNat, f.va.toNat] → NoRounding f.px → arithType (g.effType f.px) = true →
    ∃ k, exec (e.1 f) s = .next (s.setGroup gid k) ∧
      Issued k { g with vregs := k.vregs } p (s.after g p (if f.px.isSome then 2 else 1)) ∧
      LanesWritten g k p f.vd.toNat (aluMask f.px) (aluZero f.px) fun i =>
        mapElems (fmtOf (g.effType f.px)).w (fun a _ => BitVec.ofNat (fmtOf (g.effType f.px)).w (e.2 (fmtOf (g.effType f.px)) a.toNat)) (g.vreg f.va.toNat i) 0) ∧
  (∀ (s : State) (gid : Nat) (g : Group) (p : Split) (f : V3Cmp), Ready s gid g p → g.role = .vector → g.HasV [f.va.toNat, f.vb.toNat] → NoRounding f.px → arithType (g.effType f.px) = true →
    g.NoFpTrap p (aluMask f.px) (fun i => (g.floatTest f.px f.cond (g.vreg f.va.toNat i) (g.vreg f.vb.toNat i)).2) →
    ∃ k, exec (.fcmp f) s = .next (s.setGroup gid k) ∧
      Issued k { g with preds := k.preds, flags := k.flags } p (s.after g p (if f.px.isSome then 2 else 1)) ∧
      FlagsRaised g k p (aluMask f.px) (fun i => (g.floatTest f.px f.cond (g.vreg f.va.toNat i) (g.vreg f.vb.toNat i)).2) ∧
      PredWritten g k p f.pd.toNat (aluMask f.px) (aluZero f.px) fun i => (g.floatTest f.px f.cond (g.vreg f.va.toNat i) (g.vreg f.vb.toNat i)).1) ∧
  (∀ (s : State) (gid : Nat) (g : Group) (p : Split) (f : VUCmp), Ready s gid g p → g.role = .vector → g.HasV [f.va.toNat] → g.HasS (vsrcNamed f.src) → NoRounding f.px → arithType (g.effType f.px) = true →
    g.NoFpTrap p (aluMask f.px) (fun i => (g.floatTest f.px f.cond (g.vreg f.va.toNat i) (g.floatSrc (fmtOf (g.effType f.px)) f.src)).2) →
    ∃ k, exec (.fcmpVu f) s = .next (s.setGroup gid k) ∧
      Issued k { g with preds := k.preds, flags := k.flags } p (s.after g p (if f.px.isSome then 2 else 1)) ∧
      FlagsRaised g k p (aluMask f.px) (fun i => (g.floatTest f.px f.cond (g.vreg f.va.toNat i) (g.floatSrc (fmtOf (g.effType f.px)) f.src)).2) ∧
      PredWritten g k p f.pd.toNat (aluMask f.px) (aluZero f.px) fun i => (g.floatTest f.px f.cond (g.vreg f.va.toNat i) (g.floatSrc (fmtOf (g.effType f.px)) f.src)).1)))

/-- ffma, fdot2 and fscale (R180, R179, R178, R165). In every ready vector group, for a type and a rounding that the
instruction takes, and when no Active lane raises an enabled exception: ffma multiplies and adds with one rounding, fdot2 adds
two products and an FP32 addend with one rounding, and fscale multiplies by a power of two given by a signed integer element;
the addend is the old vd or the fourth operand; nothing else changes. The order of the sources in which fdot2 takes a NaN, its
infinities of both signs, and those beside a NaN, are the model's choices of log entries 20, 21 and 108. -/
def Obligations.FloatFused : Prop :=
  (∀ (s : State) (gid : Nat) (g : Group) (p : Split) (f : V3), Ready s gid g p → g.role = .vector → g.HasV ([f.vd.toNat, f.va.toNat, f.vb.toNat] ++ fourthV f.px 1) → g.HasS (fourthS f.px) →
    pxXw f.px = 0 → (pxRnd f.px = 6 → pxKind f.px ≠ 0) → g.rndBad f.px = false → arithType (g.effType f.px) = true →
    g.NoFpTrap p (aluMask f.px) (fun i => (g.floatWord f.px false opFfma (g.randWord f.px i) (g.vreg f.va.toNat i) (g.vreg f.vb.toNat i) (g.addendWord (fmtOf (g.effType f.px)) f.px f.vd.toNat i)).2) →
    ∃ k, exec (.ffma f) s = .next (s.setGroup gid k) ∧
      Issued k { g with vregs := k.vregs, flags := k.flags } p (s.after g p (if f.px.isSome then 2 else 1)) ∧
      FlagsRaised g k p (aluMask f.px) (fun i => (g.floatWord f.px false opFfma (g.randWord f.px i) (g.vreg f.va.toNat i) (g.vreg f.vb.toNat i) (g.addendWord (fmtOf (g.effType f.px)) f.px f.vd.toNat i)).2) ∧
      LanesWritten g k p f.vd.toNat (aluMask f.px) (aluZero f.px) fun i => (g.floatWord f.px false opFfma (g.randWord f.px i) (g.vreg f.va.toNat i) (g.vreg f.vb.toNat i) (g.addendWord (fmtOf (g.effType f.px)) f.px f.vd.toNat i)).1) ∧
  (∀ (s : State) (gid : Nat) (g : Group) (p : Split) (f : VU), Ready s gid g p → g.role = .vector → g.HasV ([f.vd.toNat, f.va.toNat] ++ fourthV f.px 1) → g.HasS (vsrcNamed f.src ++ fourthS f.px) →
    pxXw f.px = 0 → (pxRnd f.px = 6 → pxKind f.px ≠ 0) → g.rndBad f.px = false → arithType (g.effType f.px) = true →
    g.NoFpTrap p (aluMask f.px) (fun i => (g.floatWord f.px false opFfma (g.randWord f.px i) (g.vreg f.va.toNat i) (g.floatSrc (fmtOf (g.effType f.px)) f.src) (g.addendWord (fmtOf (g.effType f.px)) f.px f.vd.toNat i)).2) →
    ∃ k, exec (.ffmaVu f) s = .next (s.setGroup gid k) ∧
      Issued k { g with vregs := k.vregs, flags := k.flags } p (s.after g p (if f.px.isSome then 2 else 1)) ∧
      FlagsRaised g k p (aluMask f.px) (fun i => (g.floatWord f.px false opFfma (g.randWord f.px i) (g.vreg f.va.toNat i) (g.floatSrc (fmtOf (g.effType f.px)) f.src) (g.addendWord (fmtOf (g.effType f.px)) f.px f.vd.toNat i)).2) ∧
      LanesWritten g k p f.vd.toNat (aluMask f.px) (aluZero f.px) fun i => (g.floatWord f.px false opFfma (g.randWord f.px i) (g.vreg f.va.toNat i) (g.floatSrc (fmtOf (g.effType f.px)) f.src) (g.addendWord (fmtOf (g.effType f.px)) f.px f.vd.toNat i)).1) ∧
  (∀ (s : State) (gid : Nat) (g : Group) (p : Split) (f : V3), Ready s gid g p → g.role = .vector → g.HasV ([f.vd.toNat, f.va.toNat, f.vb.toNat] ++ fourthV f.px 1) → g.HasS (fourthS f.px) →
    pxXw f.px = 0 → (pxRnd f.px = 6 → pxKind f.px ≠ 0) → g.rndBad f.px = false → dotType (g.effType f.px) = true →
    g.NoFpTrap p (aluMask f.px) (fun i => (g.dotWord f.px (g.randWord f.px i) (g.vreg f.va.toNat i) (g.vreg f.vb.toNat i) (g.addendWord fp32 f.px f.vd.toNat i)).2) →
    ∃ k, exec (.fdot2 f) s = .next (s.setGroup gid k) ∧
      Issued k { g with vregs := k.vregs, flags := k.flags } p (s.after g p (if f.px.isSome then 2 else 1)) ∧
      FlagsRaised g k p (aluMask f.px) (fun i => (g.dotWord f.px (g.randWord f.px i) (g.vreg f.va.toNat i) (g.vreg f.vb.toNat i) (g.addendWord fp32 f.px f.vd.toNat i)).2) ∧
      LanesWritten g k p f.vd.toNat (aluMask f.px) (aluZero f.px) fun i => (g.dotWord f.px (g.randWord f.px i) (g.vreg f.va.toNat i) (g.vreg f.vb.toNat i) (g.addendWord fp32 f.px f.vd.toNat i)).1) ∧
  (∀ (s : State) (gid : Nat) (g : Group) (p : Split) (f : VU), Ready s gid g p → g.role = .vector → g.HasV ([f.vd.toNat, f.va.toNat] ++ fourthV f.px 1) → g.HasS (vsrcNamed f.src ++ fourthS f.px) →
    pxXw f.px = 0 → (pxRnd f.px = 6 → pxKind f.px ≠ 0) → g.rndBad f.px = false → dotType (g.effType f.px) = true →
    g.NoFpTrap p (aluMask f.px) (fun i => (g.dotWord f.px (g.randWord f.px i) (g.vreg f.va.toNat i) (g.floatSrc (fmtOf (g.effType f.px)) f.src) (g.addendWord fp32 f.px f.vd.toNat i)).2) →
    ∃ k, exec (.fdot2Vu f) s = .next (s.setGroup gid k) ∧
      Issued k { g with vregs := k.vregs, flags := k.flags } p (s.after g p (if f.px.isSome then 2 else 1)) ∧
      FlagsRaised g k p (aluMask f.px) (fun i => (g.dotWord f.px (g.randWord f.px i) (g.vreg f.va.toNat i) (g.floatSrc (fmtOf (g.effType f.px)) f.src) (g.addendWord fp32 f.px f.vd.toNat i)).2) ∧
      LanesWritten g k p f.vd.toNat (aluMask f.px) (aluZero f.px) fun i => (g.dotWord f.px (g.randWord f.px i) (g.vreg f.va.toNat i) (g.floatSrc (fmtOf (g.effType f.px)) f.src) (g.addendWord fp32 f.px f.vd.toNat i)).1) ∧
  (∀ (s : State) (gid : Nat) (g : Group) (p : Split) (f : V3), Ready s gid g p → g.role = .vector → g.HasV ([f.vd.toNat, f.va.toNat, f.vb.toNat] ++ fourthV f.px 1) → g.HasS (fourthS f.px) →
    g.Rounds f.px → arithType (g.effType f.px) = true →
    g.NoFpTrap p (aluMask f.px) (fun i => (g.floatWord f.px true opFscale (g.randWord f.px i) (g.vreg f.va.toNat i) (g.vreg f.vb.toNat i) (0)).2) →
    ∃ k, exec (.fscale f) s = .next (s.setGroup gid k) ∧
      Issued k { g with vregs := k.vregs, flags := k.flags } p (s.after g p (if f.px.isSome then 2 else 1)) ∧
      FlagsRaised g k p (aluMask f.px) (fun i => (g.floatWord f.px true opFscale (g.randWord f.px i) (g.vreg f.va.toNat i) (g.vreg f.vb.toNat i) (0)).2) ∧
      LanesWritten g k p f.vd.toNat (aluMask f.px) (aluZero f.px) fun i => (g.floatWord f.px true opFscale (g.randWord f.px i) (g.vreg f.va.toNat i) (g.vreg f.vb.toNat i) (0)).1) ∧
  (∀ (s : State) (gid : Nat) (g : Group) (p : Split) (f : VU), Ready s gid g p → g.role = .vector → g.HasV ([f.vd.toNat, f.va.toNat] ++ fourthV f.px 1) → g.HasS (vsrcNamed f.src ++ fourthS f.px) →
    g.Rounds f.px → arithType (g.effType f.px) = true →
    g.NoFpTrap p (aluMask f.px) (fun i => (g.floatWord f.px true opFscale (g.randWord f.px i) (g.vreg f.va.toNat i) (g.vsrc (fmtOf (g.effType f.px)).w f.src) (0)).2) →
    ∃ k, exec (.fscaleVu f) s = .next (s.setGroup gid k) ∧
      Issued k { g with vregs := k.vregs, flags := k.flags } p (s.after g p (if f.px.isSome then 2 else 1)) ∧
      FlagsRaised g k p (aluMask f.px) (fun i => (g.floatWord f.px true opFscale (g.randWord f.px i) (g.vreg f.va.toNat i) (g.vsrc (fmtOf (g.effType f.px)).w f.src) (0)).2) ∧
      LanesWritten g k p f.vd.toNat (aluMask f.px) (aluZero f.px) fun i => (g.floatWord f.px true opFscale (g.randWord f.px i) (g.vreg f.va.toNat i) (g.vsrc (fmtOf (g.effType f.px)).w f.src) (0)).1)

/-- Rounding modes, and operations exact then rounded (R162, R45, R164, R179). For every value v and every place 2^q,
the magnitude n that rounding gives in units of 2^q is exact when v is a multiple of the place, and otherwise: it is a
nearest one under RNE and RNA, with ties to even and away from zero; it is the truncation under RZ; and it never lies
below v under RUP or above v under RDN; under SR it is the truncation raised by one exactly when the leading bits of the
discarded fraction and the random bits carry; it is never a whole unit away, and the inexact mark says whether the value
changed. For FP32, FP16 and BF16 and finite source codes, every rounding mode and FTZ: the results of fadd, fsub, fmul
and ffma are the one rounding of a value that is exactly the sum, the difference, the product, or the product plus the
addend. -/
def Obligations.RoundingModes : Prop :=
  ((∀ (d : Dy) (q : Int), ∀ x : ℚ, x = d.m * (2 : ℚ) ^ (d.e - q) →
    (∀ mode, ((d.roundAt mode q).2 = true ↔ ((d.roundAt mode q).1 : ℚ) ≠ x) ∧ |((d.roundAt mode q).1 : ℚ) - x| < 1) ∧
    |((d.roundAt .rne q).1 : ℚ) - x| ≤ 1 / 2 ∧
    (|((d.roundAt .rne q).1 : ℚ) - x| = 1 / 2 → (d.roundAt .rne q).1 % 2 = 0) ∧
    |((d.roundAt .rna q).1 : ℚ) - x| ≤ 1 / 2 ∧
    (|((d.roundAt .rna q).1 : ℚ) - x| = 1 / 2 → x < (d.roundAt .rna q).1) ∧
    ((d.roundAt .rz q).1 : ℚ) ≤ x ∧
    (if d.neg then ((d.roundAt .rup q).1 : ℚ) ≤ x else x ≤ ((d.roundAt .rup q).1 : ℚ)) ∧
    (if d.neg then x ≤ ((d.roundAt .rdn q).1 : ℚ) else ((d.roundAt .rdn q).1 : ℚ) ≤ x) ∧
    (∀ r n : ℕ, r < 2 ^ n → ((d.roundAt (.sr r n) q).1 : ℤ) =
      ⌊x⌋ + if (2 ^ n : ℤ) ≤ ⌊(x - ⌊x⌋) * 2 ^ n⌋ + r then 1 else 0))) ∧
  ((∀ fm ∈ [fp32, fp16, bf16], ∀ (r : Rnd) (z : Bool) (a b c : Nat) (x y w : Dy), a < 2 ^ fm.w → b < 2 ^ fm.w → c < 2 ^ fm.w →
    fm.val a = .fin x → fm.val b = .fin y → fm.val c = .fin w →
    (∃ d : Dy, opFadd fm r z a b c = fm.arith r z d ∧ d.value = x.value + y.value) ∧
    (∃ d : Dy, opFsub fm r z a b c = fm.arith r z d ∧ d.value = x.value - y.value) ∧
    (∃ d : Dy, opFmul fm r z a b c = fm.arith r z d ∧ d.value = x.value * y.value) ∧
    (∃ d : Dy, opFfma fm r z a b c = fm.arith r z d ∧ d.value = x.value * y.value + w.value)))

/-- Error-free pairs and sums (R200, R201, R202, R195, R197, R198, R205). In every ready vector group, for an arithmetic type
and aligned registers, and when no Active lane raises an enabled exception: each transform writes the rounded result and its
error words to consecutive registers, element by element, adds the flags raised to FLAGS and goes to the next word; nothing
else changes. For FP32, FP16 and BF16 and finite sources, with or without FTZ: twosum and twoprod give the nearest sum and
product, and when the first word is finite and EI is not raised their two words add up exactly to the sum or product; so do
the three words of errfma; and an expansion operation that raises no NX gives words that add up exactly to the sum, product or
sum of product and addend of its sources. What EI and the words are when a step overflows is the model's choice of log entry
106. -/
def Obligations.ErrorFreePairs : Prop :=
  (((∀ e ∈ pairOps, ∀ (s : State) (gid : Nat) (g : Group) (p : Split) (f : V3), Ready s gid g p → g.role = .vector →
    g.HasGroups [(f.vd.toNat, 2), (f.va.toNat, 1), (f.vb.toNat, 1)] → arithType (g.effType f.px) = true →
    pxXw f.px = 0 → pxRnd f.px < 2 → pxKind f.px = 0 →
    g.NoFpTrap p (aluMask f.px) (fun i => (g.elemWords f.px (fun j => let r := e.2 (fmtOf (g.effType f.px)) g.mFtz (g.srcElem (fmtOf (g.effType f.px)) (g.vreg f.va.toNat i) j) (g.srcElem (fmtOf (g.effType f.px)) (g.vreg f.vb.toNat i) j); ([r.1, r.2.1], r.2.2))).2) →
    ∃ k, exec (e.1 f) s = .next (s.setGroup gid k) ∧
      Issued k { g with vregs := k.vregs, flags := k.flags } p (s.after g p (if f.px.isSome then 2 else 1)) ∧
      FlagsRaised g k p (aluMask f.px) (fun i => (g.elemWords f.px (fun j => let r := e.2 (fmtOf (g.effType f.px)) g.mFtz (g.srcElem (fmtOf (g.effType f.px)) (g.vreg f.va.toNat i) j) (g.srcElem (fmtOf (g.effType f.px)) (g.vreg f.vb.toNat i) j); ([r.1, r.2.1], r.2.2))).2) ∧
      GroupWritten g k p f.vd.toNat (2) (aluMask f.px) (aluZero f.px) fun q i => (g.elemWords f.px (fun j => let r := e.2 (fmtOf (g.effType f.px)) g.mFtz (g.srcElem (fmtOf (g.effType f.px)) (g.vreg f.va.toNat i) j) (g.srcElem (fmtOf (g.effType f.px)) (g.vreg f.vb.toNat i) j); ([r.1, r.2.1], r.2.2))).1 q) ∧
  (∀ (s : State) (gid : Nat) (g : Group) (p : Split) (f : V3), Ready s gid g p → g.role = .vector →
    g.HasGroups ([(f.vd.toNat, 3), (f.va.toNat, 1), (f.vb.toNat, 1)] ++ (fourthV f.px 1).map (·, 1)) → g.HasS (fourthS f.px) →
    arithType (g.effType f.px) = true → pxXw f.px = 0 → pxRnd f.px < 2 →
    g.NoFpTrap p (aluMask f.px) (fun i => (g.elemWords f.px (fun j => errFma (fmtOf (g.effType f.px)) g.mFtz (g.srcElem (fmtOf (g.effType f.px)) (g.vreg f.va.toNat i) j) (g.srcElem (fmtOf (g.effType f.px)) (g.vreg f.vb.toNat i) j) (g.srcElem (fmtOf (g.effType f.px)) (g.addendWord (fmtOf (g.effType f.px)) f.px f.vd.toNat i) j))).2) →
    ∃ k, exec (.errfma f) s = .next (s.setGroup gid k) ∧
      Issued k { g with vregs := k.vregs, flags := k.flags } p (s.after g p (if f.px.isSome then 2 else 1)) ∧
      FlagsRaised g k p (aluMask f.px) (fun i => (g.elemWords f.px (fun j => errFma (fmtOf (g.effType f.px)) g.mFtz (g.srcElem (fmtOf (g.effType f.px)) (g.vreg f.va.toNat i) j) (g.srcElem (fmtOf (g.effType f.px)) (g.vreg f.vb.toNat i) j) (g.srcElem (fmtOf (g.effType f.px)) (g.addendWord (fmtOf (g.effType f.px)) f.px f.vd.toNat i) j))).2) ∧
      GroupWritten g k p f.vd.toNat (3) (aluMask f.px) (aluZero f.px) fun q i => (g.elemWords f.px (fun j => errFma (fmtOf (g.effType f.px)) g.mFtz (g.srcElem (fmtOf (g.effType f.px)) (g.vreg f.va.toNat i) j) (g.srcElem (fmtOf (g.effType f.px)) (g.vreg f.vb.toNat i) j) (g.srcElem (fmtOf (g.effType f.px)) (g.addendWord (fmtOf (g.effType f.px)) f.px f.vd.toNat i) j))).1 q))) ∧
  ((∀ fm ∈ [fp32, fp16, bf16], ∀ (z : Bool),
    (∀ (a b : Nat) (x y : Dy), fm.val a = .fin x → fm.val b = .fin y →
      (twoSum fm z a b).1 = (opFadd fm .rne z a b 0).code ∧ (twoProd fm z a b).1 = (opFmul fm .rne z a b 0).code ∧
      (fm.notFinite (twoSum fm z a b).1 = false → (twoSum fm z a b).2.2 &&& flagEI = 0 →
        (fm.dy (twoSum fm z a b).1).value + (fm.dy (twoSum fm z a b).2.1).value = x.value + y.value) ∧
      (fm.notFinite (twoProd fm z a b).1 = false → (twoProd fm z a b).2.2 &&& flagEI = 0 →
        (fm.dy (twoProd fm z a b).1).value + (fm.dy (twoProd fm z a b).2.1).value = x.value * y.value)) ∧
    (∀ (a b c : Nat) (x y w : Dy) (p e1 e2 : Nat) (fl : FFlags), fm.val a = .fin x → fm.val b = .fin y → fm.val c = .fin w →
      errFma fm z a b c = ([p, e1, e2], fl) → fm.notFinite p = false → fl &&& flagEI = 0 →
      (fm.dy p).value + (fm.dy e1).value + (fm.dy e2).value = x.value * y.value + w.value) ∧
    (∀ (op : XOp) (n : Nat) (a b c : List Nat), (∀ v ∈ a ++ b ++ c, fm.notFinite v = false) →
      (op.apply fm z n a b c).2 &&& flagNX = 0 →
      (((op.apply fm z n a b c).1.map fun v => (fm.dy v).value).sum =
        let v := fun (ws : List Nat) => (ws.map fun w => (fm.dy w).value).sum
        match op with
        | .add => v a + v b
        | .sub => v a - v b
        | .mul | .mulw => v a * v b
        | .fmaw => v a * v b + v c
        | .renorm | .compress => v a))))

/-- Expansions, splitting and rounding (R194, R195, R196, R197, R205, R206, R207, R208, R209, R210, R211). In every ready
vector group, for an arithmetic type, a legal width n and aligned groups, and when no Active lane raises an enabled exception:
xadd, xsub, xmul, xmulw, xfmaw, xrenorm, xcompress and xneg write n registers with the words of their result, element by
element; xcmp writes a predicate; nothing else changes but the flags raised. In every ready vector group, for a legal type,
width n and register groups, and when no Active lane raises an enabled exception: xsplit writes n words of the effective type
from two FP32 registers, xround writes the sum of the n words of each element rounded once in the effective rounding mode, and
xround.f32 rounds it to FP32 into two registers; nothing else changes but the flags raised. What EI and the words are when a
step overflows, and that xneg keeps a NaN's sign, are the model's choices of log entries 106 and 116. -/
def Obligations.Expansions : Prop :=
  (((∀ e ∈ expansionOps, ∀ (s : State) (gid : Nat) (g : Group) (p : Split) (f : V3) (n : Nat), Ready s gid g p → g.role = .vector → pxRnd f.px < 2 → g.xwBad f.px = false → g.effXw f.px = n → pxKind f.px = 0 → arithType (g.effType f.px) = true →
    g.HasGroups [(f.vd.toNat, n), (f.va.toNat, n), (f.vb.toNat, if e.2.2 then 1 else n)] →
    g.NoFpTrap p (aluMask f.px) (fun i => (g.elemWords f.px (fun j => e.2.1.apply (fmtOf (g.effType f.px)) g.mFtz n (g.expansion f.px f.va.toNat n i j) (g.expansion f.px f.vb.toNat (if e.2.2 then 1 else n) i j) [])).2) →
    ∃ k, exec (e.1 f) s = .next (s.setGroup gid k) ∧
      Issued k { g with vregs := k.vregs, flags := k.flags } p (s.after g p (if f.px.isSome then 2 else 1)) ∧
      FlagsRaised g k p (aluMask f.px) (fun i => (g.elemWords f.px (fun j => e.2.1.apply (fmtOf (g.effType f.px)) g.mFtz n (g.expansion f.px f.va.toNat n i j) (g.expansion f.px f.vb.toNat (if e.2.2 then 1 else n) i j) [])).2) ∧
      GroupWritten g k p f.vd.toNat (n) (aluMask f.px) (aluZero f.px) fun q i => (g.elemWords f.px (fun j => e.2.1.apply (fmtOf (g.effType f.px)) g.mFtz n (g.expansion f.px f.va.toNat n i j) (g.expansion f.px f.vb.toNat (if e.2.2 then 1 else n) i j) [])).1 q) ∧
  (∀ (s : State) (gid : Nat) (g : Group) (p : Split) (f : V3) (n : Nat), Ready s gid g p → g.role = .vector → pxRnd f.px < 2 → g.xwBad f.px = false → g.effXw f.px = n → (pxKind f.px = 0 ∨ pxKind f.px = 1) → arithType (g.effType f.px) = true →
    g.HasGroups ([(f.vd.toNat, n), (f.va.toNat, n), (f.vb.toNat, 1)] ++ if pxKind f.px = 1 then [(pxOp4 f.px, n)] else []) →
    g.NoFpTrap p (aluMask f.px) (fun i => (g.elemWords f.px (fun j => XOp.fmaw.apply (fmtOf (g.effType f.px)) g.mFtz n (g.expansion f.px f.va.toNat n i j) (g.expansion f.px f.vb.toNat 1 i j) (g.expansion f.px (if pxKind f.px = 0 then f.vd.toNat else pxOp4 f.px) n i j))).2) →
    ∃ k, exec (.xfmaw f) s = .next (s.setGroup gid k) ∧
      Issued k { g with vregs := k.vregs, flags := k.flags } p (s.after g p (if f.px.isSome then 2 else 1)) ∧
      FlagsRaised g k p (aluMask f.px) (fun i => (g.elemWords f.px (fun j => XOp.fmaw.apply (fmtOf (g.effType f.px)) g.mFtz n (g.expansion f.px f.va.toNat n i j) (g.expansion f.px f.vb.toNat 1 i j) (g.expansion f.px (if pxKind f.px = 0 then f.vd.toNat else pxOp4 f.px) n i j))).2) ∧
      GroupWritten g k p f.vd.toNat (n) (aluMask f.px) (aluZero f.px) fun q i => (g.elemWords f.px (fun j => XOp.fmaw.apply (fmtOf (g.effType f.px)) g.mFtz n (g.expansion f.px f.va.toNat n i j) (g.expansion f.px f.vb.toNat 1 i j) (g.expansion f.px (if pxKind f.px = 0 then f.vd.toNat else pxOp4 f.px) n i j))).1 q) ∧
  (∀ e ∈ expansionUnOps, ∀ (s : State) (gid : Nat) (g : Group) (p : Split) (f : V3Un) (n : Nat), Ready s gid g p → g.role = .vector → pxRnd f.px < 2 → g.xwBad f.px = false → g.effXw f.px = n → pxKind f.px = 0 → arithType (g.effType f.px) = true →
    g.HasGroups [(f.vd.toNat, n), (f.va.toNat, n)] →
    g.NoFpTrap p (aluMask f.px) (fun i => (g.elemWords f.px (fun j => e.2.apply (fmtOf (g.effType f.px)) g.mFtz n (g.expansion f.px f.va.toNat n i j) [] [])).2) →
    ∃ k, exec (e.1 f) s = .next (s.setGroup gid k) ∧
      Issued k { g with vregs := k.vregs, flags := k.flags } p (s.after g p (if f.px.isSome then 2 else 1)) ∧
      FlagsRaised g k p (aluMask f.px) (fun i => (g.elemWords f.px (fun j => e.2.apply (fmtOf (g.effType f.px)) g.mFtz n (g.expansion f.px f.va.toNat n i j) [] [])).2) ∧
      GroupWritten g k p f.vd.toNat (n) (aluMask f.px) (aluZero f.px) fun q i => (g.elemWords f.px (fun j => e.2.apply (fmtOf (g.effType f.px)) g.mFtz n (g.expansion f.px f.va.toNat n i j) [] [])).1 q) ∧
  (∀ (s : State) (gid : Nat) (g : Group) (p : Split) (f : V3Un) (n : Nat), Ready s gid g p → g.role = .vector → pxRnd f.px < 2 → g.xwBad f.px = false → g.effXw f.px = n → pxKind f.px = 0 → arithType (g.effType f.px) = true →
    g.HasGroups [(f.vd.toNat, n), (f.va.toNat, n)] →
    ∃ k, exec (.xneg f) s = .next (s.setGroup gid k) ∧
      Issued k { g with vregs := k.vregs } p (s.after g p (if f.px.isSome then 2 else 1)) ∧
      GroupWritten g k p f.vd.toNat n (aluMask f.px) (aluZero f.px) fun q i =>
        (g.elemWords f.px (fun j => ((g.expansion f.px f.va.toNat n i j).map fun w =>
          if (fmtOf (g.effType f.px)).isNan w then w else (fmtOf (g.effType f.px)).negate w, 0))).1 q) ∧
  (∀ (s : State) (gid : Nat) (g : Group) (p : Split) (f : V3Cmp) (n : Nat) (t : Nat → Bool × FFlags), Ready s gid g p → g.role = .vector → pxRnd f.px < 2 → g.xwBad f.px = false → g.effXw f.px = n → pxKind f.px = 0 → arithType (g.effType f.px) = true →
    g.HasGroups [(f.va.toNat, n), (f.vb.toNat, n)] →
    (∀ i, t i = (List.range (32 / (fmtOf (g.effType f.px)).w)).foldl (fun a j =>
      let r := cmpWords (fmtOf (g.effType f.px)) f.cond (g.expansion f.px f.va.toNat n i j) (g.expansion f.px f.vb.toNat n i j)
      (a.1 && r.1, a.2 ||| r.2)) (true, 0)) →
    g.NoFpTrap p (aluMask f.px) (fun i => (t i).2) →
    ∃ k, exec (.xcmp f) s = .next (s.setGroup gid k) ∧
      Issued k { g with preds := k.preds, flags := k.flags } p (s.after g p (if f.px.isSome then 2 else 1)) ∧
      FlagsRaised g k p (aluMask f.px) (fun i => (t i).2) ∧
      PredWritten g k p f.pd.toNat (aluMask f.px) (aluZero f.px) fun i => (t i).1))) ∧
  (((∀ (s : State) (gid : Nat) (g : Group) (p : Split) (f : V3Un) (n : Nat), Ready s gid g p → g.role = .vector → pxRnd f.px < 2 → g.xwBad f.px = false → g.effXw f.px = n → pxKind f.px = 0 → dotType (g.effType f.px) = true →
    g.HasGroups [(f.vd.toNat, n), (f.va.toNat, 2)] →
    g.NoFpTrap p (aluMask f.px) (fun i => (g.elemWords f.px (fun j => splitWords (fmtOf (g.effType f.px)) g.mFtz n (ovEntry g.ovtab (fmtOf (g.effType f.px))) (fp32.daz g.mDaz (g.vreg (f.va.toNat + j) i).toNat))).2) →
    ∃ k, exec (.xsplit f) s = .next (s.setGroup gid k) ∧
      Issued k { g with vregs := k.vregs, flags := k.flags } p (s.after g p (if f.px.isSome then 2 else 1)) ∧
      FlagsRaised g k p (aluMask f.px) (fun i => (g.elemWords f.px (fun j => splitWords (fmtOf (g.effType f.px)) g.mFtz n (ovEntry g.ovtab (fmtOf (g.effType f.px))) (fp32.daz g.mDaz (g.vreg (f.va.toNat + j) i).toNat))).2) ∧
      GroupWritten g k p f.vd.toNat (n) (aluMask f.px) (aluZero f.px) fun q i => (g.elemWords f.px (fun j => splitWords (fmtOf (g.effType f.px)) g.mFtz n (ovEntry g.ovtab (fmtOf (g.effType f.px))) (fp32.daz g.mDaz (g.vreg (f.va.toNat + j) i).toNat))).1 q) ∧
  (∀ (s : State) (gid : Nat) (g : Group) (p : Split) (f : V3Un) (n : Nat), Ready s gid g p → g.role = .vector → g.xwBad f.px = false → g.effXw f.px = n → (pxRnd f.px = 6 ↔ pxKind f.px ≠ 0) → g.rndBad f.px = false → arithType (g.effType f.px) = true →
    g.HasGroups ([(f.vd.toNat, 1), (f.va.toNat, n)] ++ (fourthV f.px 1).map (·, 1)) → g.HasS (fourthS f.px) →
    g.NoFpTrap p (aluMask f.px) (fun i => (g.elemWords f.px (fun j => let r := roundWords (fmtOf (g.effType f.px)) (fmtOf (g.effType f.px)) (g.elemRnd f.px i j) g.mFtz (g.expansion f.px f.va.toNat n i j); ([r.code], r.flags))).2) →
    ∃ k, exec (.xround f) s = .next (s.setGroup gid k) ∧
      Issued k { g with vregs := k.vregs, flags := k.flags } p (s.after g p (if f.px.isSome then 2 else 1)) ∧
      FlagsRaised g k p (aluMask f.px) (fun i => (g.elemWords f.px (fun j => let r := roundWords (fmtOf (g.effType f.px)) (fmtOf (g.effType f.px)) (g.elemRnd f.px i j) g.mFtz (g.expansion f.px f.va.toNat n i j); ([r.code], r.flags))).2) ∧
      GroupWritten g k p f.vd.toNat (1) (aluMask f.px) (aluZero f.px) fun q i => (g.elemWords f.px (fun j => let r := roundWords (fmtOf (g.effType f.px)) (fmtOf (g.effType f.px)) (g.elemRnd f.px i j) g.mFtz (g.expansion f.px f.va.toNat n i j); ([r.code], r.flags))).1 q) ∧
  (∀ (s : State) (gid : Nat) (g : Group) (p : Split) (f : V3Un) (n : Nat), Ready s gid g p → g.role = .vector → g.xwBad f.px = false → g.effXw f.px = n → (pxRnd f.px = 6 ↔ pxKind f.px ≠ 0) → g.rndBad f.px = false → dotType (g.effType f.px) = true →
    g.HasGroups ([(f.vd.toNat, 2), (f.va.toNat, n)] ++ (fourthV f.px 1).map (·, 1)) → g.HasS (fourthS f.px) →
    g.NoFpTrap p (aluMask f.px) (fun i => (g.roundedF32 f.px f.va.toNat i).2) →
    ∃ k, exec (.xroundF32 f) s = .next (s.setGroup gid k) ∧
      Issued k { g with vregs := k.vregs, flags := k.flags } p (s.after g p (if f.px.isSome then 2 else 1)) ∧
      FlagsRaised g k p (aluMask f.px) (fun i => (g.roundedF32 f.px f.va.toNat i).2) ∧
      GroupWritten g k p f.vd.toNat (2) (aluMask f.px) (aluZero f.px) fun q i => (g.roundedF32 f.px f.va.toNat i).1 q)))

/-- Conversions and block formats (R187, R188, R189, R166, R169, R190, R191, R192). In every ready vector group, for a source
type that the conversion takes, aligned register groups and a legal rounding, and when no Active lane raises an enabled
exception: each conversion writes every element of the destination group from the element of the same number of the source
group, adds the flags raised to FLAGS, and goes to the next word; nothing else changes. In every ready vector group: bfpk, at
a width of 16 or more and when no enabled exception is raised, writes to each Active lane the exponent of its block of sixteen
lanes and its own mantissa, inactive lanes of the block counting as zero; bfpu writes the FP32 value of a mantissa and
exponent; unpk writes the fields of a word as bytes to 8 / w registers; nothing else changes but the flags raised. That a kept
sign is that of the source element is the model's choice of log entry 22. -/
def Obligations.Conversions : Prop :=
  (((∀ (s : State) (gid : Nat) (g : Group) (p : Split) (f : Cvt) (na nd : Nat), Ready s gid g p → g.role = .vector → isFloatCode (g.effType f.px) = true → na = spread f.dty.toNat (g.effType f.px) →
    nd = spread (g.effType f.px) f.dty.toNat → f.va.toNat % na = 0 → f.vd.toNat % nd = 0 → f.vd.toNat + nd ≤ g.vAlloc →
    f.va.toNat + na ≤ g.vAlloc → g.HasV (fourthV f.px 1) → g.HasS (fourthS f.px) → g.Rounds f.px →
    g.NoFpTrap p (aluMask f.px) (fun i => (g.converted f.px f.va.toNat f.dty.toNat (fun r c => ((fmtOf f.dty.toNat).narrow r g.mFtz (ovEntry g.ovtab (fmtOf f.dty.toNat)) 0 (g.widenElem f.px c)).pair) i).2) →
    ∃ k, exec (.fcvt f) s = .next (s.setGroup gid k) ∧
      Issued k { g with vregs := k.vregs, flags := k.flags } p (s.after g p (if f.px.isSome then 2 else 1)) ∧
      FlagsRaised g k p (aluMask f.px) (fun i => (g.converted f.px f.va.toNat f.dty.toNat (fun r c => ((fmtOf f.dty.toNat).narrow r g.mFtz (ovEntry g.ovtab (fmtOf f.dty.toNat)) 0 (g.widenElem f.px c)).pair) i).2) ∧
      GroupWritten g k p f.vd.toNat nd (aluMask f.px) (aluZero f.px) fun q i => (g.converted f.px f.va.toNat f.dty.toNat (fun r c => ((fmtOf f.dty.toNat).narrow r g.mFtz (ovEntry g.ovtab (fmtOf f.dty.toNat)) 0 (g.widenElem f.px c)).pair) i).1 q) ∧
  (∀ (s : State) (gid : Nat) (g : Group) (p : Split) (f : Cvt) (na nd : Nat), Ready s gid g p → g.role = .vector → isFloatCode (g.effType f.px) = true → na = spread f.dty.toNat (g.effType f.px) →
    nd = spread (g.effType f.px) f.dty.toNat → f.va.toNat % na = 0 → f.vd.toNat % nd = 0 → f.vd.toNat + nd ≤ g.vAlloc →
    f.va.toNat + na ≤ g.vAlloc → g.HasV (fourthV f.px 1) → g.HasS (fourthS f.px) → g.Rounds f.px →
    g.NoFpTrap p (aluMask f.px) (fun i => (g.converted f.px f.va.toNat f.dty.toNat (fun r c => ((toIntSat (elemWidth f.dty.toNat) (unsignedType f.dty.toNat) r (g.widenElem f.px c)).1.toNat, (toIntSat (elemWidth f.dty.toNat) (unsignedType f.dty.toNat) r (g.widenElem f.px c)).2)) i).2) →
    ∃ k, exec (.fcvti f) s = .next (s.setGroup gid k) ∧
      Issued k { g with vregs := k.vregs, flags := k.flags } p (s.after g p (if f.px.isSome then 2 else 1)) ∧
      FlagsRaised g k p (aluMask f.px) (fun i => (g.converted f.px f.va.toNat f.dty.toNat (fun r c => ((toIntSat (elemWidth f.dty.toNat) (unsignedType f.dty.toNat) r (g.widenElem f.px c)).1.toNat, (toIntSat (elemWidth f.dty.toNat) (unsignedType f.dty.toNat) r (g.widenElem f.px c)).2)) i).2) ∧
      GroupWritten g k p f.vd.toNat nd (aluMask f.px) (aluZero f.px) fun q i => (g.converted f.px f.va.toNat f.dty.toNat (fun r c => ((toIntSat (elemWidth f.dty.toNat) (unsignedType f.dty.toNat) r (g.widenElem f.px c)).1.toNat, (toIntSat (elemWidth f.dty.toNat) (unsignedType f.dty.toNat) r (g.widenElem f.px c)).2)) i).1 q) ∧
  (∀ (s : State) (gid : Nat) (g : Group) (p : Split) (f : Cvt) (na nd : Nat), Ready s gid g p → g.role = .vector → isIntCode (g.effType f.px) = true → na = spread f.dty.toNat (g.effType f.px) →
    nd = spread (g.effType f.px) f.dty.toNat → f.va.toNat % na = 0 → f.vd.toNat % nd = 0 → f.vd.toNat + nd ≤ g.vAlloc →
    f.va.toNat + na ≤ g.vAlloc → g.HasV (fourthV f.px 1) → g.HasS (fourthS f.px) → g.Rounds f.px →
    g.NoFpTrap p (aluMask f.px) (fun i => (g.converted f.px f.va.toNat f.dty.toNat (fun r c => let x := intDy (elVal (elemWidth (g.effType f.px)) (unsignedType (g.effType f.px)) (BitVec.ofNat _ c)); ((fmtOf f.dty.toNat).deliver r g.mFtz (if (fmtOf f.dty.toNat).w = 32 then (fmtOf f.dty.toNat).overflowMag r x.neg else (fmtOf f.dty.toNat).tableMag (ovEntry g.ovtab (fmtOf f.dty.toNat))) x).pair) i).2) →
    ∃ k, exec (.icvtf f) s = .next (s.setGroup gid k) ∧
      Issued k { g with vregs := k.vregs, flags := k.flags } p (s.after g p (if f.px.isSome then 2 else 1)) ∧
      FlagsRaised g k p (aluMask f.px) (fun i => (g.converted f.px f.va.toNat f.dty.toNat (fun r c => let x := intDy (elVal (elemWidth (g.effType f.px)) (unsignedType (g.effType f.px)) (BitVec.ofNat _ c)); ((fmtOf f.dty.toNat).deliver r g.mFtz (if (fmtOf f.dty.toNat).w = 32 then (fmtOf f.dty.toNat).overflowMag r x.neg else (fmtOf f.dty.toNat).tableMag (ovEntry g.ovtab (fmtOf f.dty.toNat))) x).pair) i).2) ∧
      GroupWritten g k p f.vd.toNat nd (aluMask f.px) (aluZero f.px) fun q i => (g.converted f.px f.va.toNat f.dty.toNat (fun r c => let x := intDy (elVal (elemWidth (g.effType f.px)) (unsignedType (g.effType f.px)) (BitVec.ofNat _ c)); ((fmtOf f.dty.toNat).deliver r g.mFtz (if (fmtOf f.dty.toNat).w = 32 then (fmtOf f.dty.toNat).overflowMag r x.neg else (fmtOf f.dty.toNat).tableMag (ovEntry g.ovtab (fmtOf f.dty.toNat))) x).pair) i).1 q) ∧
  (∀ (s : State) (gid : Nat) (g : Group) (p : Split) (f : Sclx) (na nd : Nat), Ready s gid g p → g.role = .vector → isFloatCode (g.effType f.px) = true → na = spread f.dty.toNat (g.effType f.px) →
    nd = spread (g.effType f.px) f.dty.toNat → f.va.toNat % na = 0 → f.vd.toNat % nd = 0 → f.vd.toNat + nd ≤ g.vAlloc →
    f.va.toNat + na ≤ g.vAlloc → g.HasV (fourthV f.px 1) → g.HasS (fourthS f.px) → pxXw f.px = 0 → pxRnd f.px ≠ 6 → g.rndBad f.px = false →
    g.NoFpTrap p (aluMask f.px) (fun i => (g.converted f.px f.va.toNat f.dty.toNat (fun r c => let sc := (g.randWord f.px i).toNat % 256; let x := g.widenElem f.px c; if sc = 255 then ((fmtOf f.dty.toNat).code (fp32.neg x) (fmtOf f.dty.toNat).nan, flagIV) else ((fmtOf f.dty.toNat).narrow r g.mFtz (ovEntry g.ovtab (fmtOf f.dty.toNat)) (if f.dir then 127 - (sc : Int) else (sc : Int) - 127) x).pair) i).2) →
    ∃ k, exec (.sclx f) s = .next (s.setGroup gid k) ∧
      Issued k { g with vregs := k.vregs, flags := k.flags } p (s.after g p (if f.px.isSome then 2 else 1)) ∧
      FlagsRaised g k p (aluMask f.px) (fun i => (g.converted f.px f.va.toNat f.dty.toNat (fun r c => let sc := (g.randWord f.px i).toNat % 256; let x := g.widenElem f.px c; if sc = 255 then ((fmtOf f.dty.toNat).code (fp32.neg x) (fmtOf f.dty.toNat).nan, flagIV) else ((fmtOf f.dty.toNat).narrow r g.mFtz (ovEntry g.ovtab (fmtOf f.dty.toNat)) (if f.dir then 127 - (sc : Int) else (sc : Int) - 127) x).pair) i).2) ∧
      GroupWritten g k p f.vd.toNat nd (aluMask f.px) (aluZero f.px) fun q i => (g.converted f.px f.va.toNat f.dty.toNat (fun r c => let sc := (g.randWord f.px i).toNat % 256; let x := g.widenElem f.px c; if sc = 255 then ((fmtOf f.dty.toNat).code (fp32.neg x) (fmtOf f.dty.toNat).nan, flagIV) else ((fmtOf f.dty.toNat).narrow r g.mFtz (ovEntry g.ovtab (fmtOf f.dty.toNat)) (if f.dir then 127 - (sc : Int) else (sc : Int) - 127) x).pair) i).1 q))) ∧
  (((∀ (s : State) (gid : Nat) (g : Group) (p : Split) (f : Bfp) (r : Nat → (Nat × Int) × FFlags), Ready s gid g p → g.role = .vector → g.HasV ([f.vd.toNat, f.va.toNat] ++ fourthV f.px 1) → g.HasS (fourthS f.px) →
    g.effType f.px = 7 → g.Rounds f.px → g.width ∈ [16, 32, 64] →
    (∀ i, r i = let b := (bfpBlock f.k.toNat (bits g.ovtab.toNat 8 2)
        (fun j => rndOf (g.effRnd f.px) (g.randWord f.px (i / 16 * 16 + j)).toNat 32)
        ((List.range 16).map fun j => if inMask (g.activeMask p.mask (aluMask f.px)) (i / 16 * 16 + j) then
          fp32.daz g.mDaz (g.vreg f.va.toNat (i / 16 * 16 + j)).toNat else 0))
      ((b.1, (b.2.getD (i % 16) (0, 0)).1), (b.2.getD (i % 16) (0, 0)).2)) →
    g.NoFpTrap p (aluMask f.px) (fun i => (r i).2) →
    ∃ k, exec (.bfpk f) s = .next (s.setGroup gid k) ∧
      Issued k { g with vregs := k.vregs, flags := k.flags } p (s.after g p (if f.px.isSome then 2 else 1)) ∧
      FlagsRaised g k p (aluMask f.px) (fun i => (r i).2) ∧
      LanesWritten g k p f.vd.toNat (aluMask f.px) (aluZero f.px) fun i =>
        BitVec.ofNat 32 ((r i).1.1 * 2 ^ 24) + (BitVec.ofInt 24 (r i).1.2).setWidth 32) ∧
  (∀ (s : State) (gid : Nat) (g : Group) (p : Split) (f : Bfp), Ready s gid g p → g.role = .vector → g.HasV [f.vd.toNat, f.va.toNat] → NoRounding f.px → pxType f.px = 0 →
    g.NoFpTrap p (aluMask f.px) (fun i => (bfpElem f.k.toNat g.mFtz (g.vreg f.va.toNat i)).flags) →
    ∃ k, exec (.bfpu f) s = .next (s.setGroup gid k) ∧
      Issued k { g with vregs := k.vregs, flags := k.flags } p (s.after g p (if f.px.isSome then 2 else 1)) ∧
      FlagsRaised g k p (aluMask f.px) (fun i => (bfpElem f.k.toNat g.mFtz (g.vreg f.va.toNat i)).flags) ∧
      LanesWritten g k p f.vd.toNat (aluMask f.px) (aluZero f.px) fun i =>
        BitVec.ofNat 32 (bfpElem f.k.toNat g.mFtz (g.vreg f.va.toNat i)).code) ∧
  (∀ (s : State) (gid : Nat) (g : Group) (p : Split) (f : Unpk), Ready s gid g p → g.role = .vector → NoRounding f.px → pxType f.px = 0 → f.w.toNat ∈ [1, 2, 4] →
    f.vd.toNat + 8 / f.w.toNat ≤ g.vAlloc → f.va.toNat < g.vAlloc →
    ∃ k, exec (.unpk f) s = .next (s.setGroup gid k) ∧
      Issued k { g with vregs := k.vregs } p (s.after g p (if f.px.isSome then 2 else 1)) ∧
      GroupWritten g k p f.vd.toNat (8 / f.w.toNat) (aluMask f.px) (aluZero f.px) fun q i => unpackWord f.w.toNat f.sx (g.vreg f.va.toNat i) q)))

/-- The special functions (R215, R216, R217, R218, R219, R220, R221, R222, R75, R77, R176). In every ready vector group with
room on c2, for an arithmetic type: each special function counts one more on c2, and leaves one outstanding operation that
owes the lanes of vd the function of each element and FLAGS the flags raised; with MODE.FPXE 0 it goes to the next word;
otherwise its split waits for the operation, which owes nothing but the trap of R176 when an Active lane raises an enabled
exception; nothing else changes. For every FP32 code: a NaN is quieted, a signalling one raising IV; infinities, zeros and
negative numbers give the values of R222; a core procedure rounds once the value that R219 rebuilds from the table evaluator,
whose entries for the reciprocal and the square roots are nearest integers; the composite functions are the sequences of R221;
and a 16-bit element is the FP32 value narrowed. The flags of the pass-through cases of fsoftp, and of its last step when that
gives 0, are the model's choices of log entries 23 and 117. -/
def Obligations.SpecialFunctions : Prop :=
  (∀ e ∈ sfuOps, ∀ (s : State) (gid : Nat) (g : Group) (p : Split) (f : Sfu), Ready s gid g p → g.role = .vector → g.HasV [f.vd.toNat, f.va.toNat] → NoRounding f.px → arithType (g.effType f.px) = true →
    g.mFpxe = 0 → g.cnt.c2 < 255 →
    ∃ k op, exec (e.1 f) s = .next ({ s with nextId := s.nextId + 1 }.setGroup gid k) ∧
      Issued k { g with cnt := { g.cnt with c2 := g.cnt.c2 + 1 }, pend := [(s.nextId, op)] } p
        (s.after g p (if f.px.isSome then 2 else 1)) ∧
      op.kind = .sfu ∧ op.counter = 2 ∧ op.mask = p.mask ∧ op.clobbered = [] ∧ op.trap = none ∧
      Owes g p op f.vd.toNat (aluMask f.px) (aluZero f.px) (fun i => (g.sfuWord f.px e.2 (g.vreg f.va.toNat i)).1) ∧
      ∀ b, op.flags.getLsbD b = true ↔ ∃ i < 64, inMask (g.activeMask p.mask (aluMask f.px)) i = true ∧
        (g.sfuWord f.px e.2 (g.vreg f.va.toNat i)).2.getLsbD b = true) ∧
  (∀ e ∈ sfuOps, ∀ (s : State) (gid : Nat) (g : Group) (p : Split) (f : Sfu) (x : Nat → Word × FFlags), Ready s gid g p → g.role = .vector → g.HasV [f.vd.toNat, f.va.toNat] → NoRounding f.px → arithType (g.effType f.px) = true →
    g.mFpxe ≠ 0 → g.cnt.c2 < 255 → (∀ i, x i = g.sfuWord f.px e.2 (g.vreg f.va.toNat i)) →
    ∃ k op, exec (e.1 f) s = .next ({ s with nextId := s.nextId + 1 }.setGroup gid k) ∧
      Waits k { g with cnt := { g.cnt with c2 := g.cnt.c2 + 1 }, pend := [(s.nextId, op)] } p (.opDone s.nextId) (encode (e.1 f)) true
        s.clock ∧
      op.kind = .sfu ∧ op.counter = 2 ∧ op.mask = p.mask ∧ op.clobbered = [] ∧
      (g.NoFpTrap p (aluMask f.px) (fun i => (x i).2) → op.trap = none ∧
        Owes g p op f.vd.toNat (aluMask f.px) (aluZero f.px) (fun i => (x i).1) ∧
        ∀ b, op.flags.getLsbD b = true ↔ ∃ i < 64, inMask (g.activeMask p.mask (aluMask f.px)) i = true ∧ (x i).2.getLsbD b = true) ∧
      (¬g.NoFpTrap p (aluMask f.px) (fun i => (x i).2) → op.dests = [] ∧ op.flags = 0 ∧
        ∃ tv, op.trap = some (tv, g.activeMask p.mask (aluMask f.px)) ∧
          (∀ b < 5, tv.getLsbD b = true ↔ g.mFpxe.testBit b = true ∧
            ∃ i < 64, inMask (g.activeMask p.mask (aluMask f.px)) i = true ∧ (x i).2.getLsbD b = true) ∧
          ∀ i < 64, inMask (g.activeMask p.mask (aluMask f.px)) i = true → (x i).2 &&& BitVec.ofNat 7 g.mFpxe ≠ 0 →
            (∀ j < i, inMask (g.activeMask p.mask (aluMask f.px)) j = true → (x j).2 &&& BitVec.ofNat 7 g.mFpxe = 0) →
            bits tv.toNat 16 6 = i)) ∧
  (∀ (fn : SfuFn) (z : Bool), (∀ c < 2 ^ 32, fp32.isNan c = true →
      fn.element fp32 false z c = { code := fp32.quiet c, flags := if fp32.isSnan c then flagIV else 0 }) ∧
    (∀ fm ∈ [fp16, bf16], ∀ c < 2 ^ 16, fm.isNan c = false → (fn.element fm false false c).code =
      if fp32.isInf (fn.f32 (fm.widen c)) then fm.code (fp32.neg (fn.f32 (fm.widen c))) fm.infMag
      else if fp32.isNan (fn.f32 (fm.widen c)) then fm.nan
      else (fm.arith .rne false (fp32.dy (fn.f32 (fm.widen c)))).code)) ∧
  (∀ e ∈ sfuSpecials, ∀ z : Bool, [0xFF800000, 0x80000000, 0, 0x7F800000].map
      (fun c => ((e.1.element fp32 false z c).code, (e.1.element fp32 false z c).flags)) = e.2) ∧
  (∀ fn ∈ [SfuFn.rsqrt, .sqrt, .log2], ∀ (c : Nat) (d : Dy) (z : Bool), c < 2 ^ 32 → fp32.val c = .fin d → d.m ≠ 0 → d.neg = true →
    fn.element fp32 false z c = { code := 0x7FC00000, flags := flagIV }) ∧
  (∀ (fn : SfuFn) (c : Nat) (d : Dy) (e : Int) (q : ℚ), c < 2 ^ 32 → fp32.val c = .fin d → d.m ≠ 0 → (2 : ℚ) ^ e ≤ |d.value| →
    |d.value| < (2 : ℚ) ^ (e + 1) → rebuilt fn d.value e = some q → q ≠ 0 →
    (∃ t : Dy, t.value = q ∧ fn.f32 c = (fp32.arith .rne false t).code) ∧
    (fn.element fp32 false false c).flags = if fp32.isSub (fn.f32 c) ∨ fp32.mag (fn.f32 c) = 0 then flagUF ||| flagNX
      else if fp32.isInf (fn.f32 c) then flagOF ||| flagNX else 0) ∧
  (∀ (g : GFun) (u : Nat), u < 2 ^ 23 → u ≠ 0 → g.v u = (g.entry (u / 2 ^ 15)).1 +
      ⌊((g.entry (u / 2 ^ 15)).2.1 * ((u % 2 ^ 15 : Nat) - 2 ^ 14 : Int) : ℚ) / 2 ^ 23⌋ +
      ⌊((g.entry (u / 2 ^ 15)).2.2 * ((u % 2 ^ 15 : Nat) - 2 ^ 14 : Int) ^ 2 : ℚ) / 2 ^ 46⌋) ∧
  (∀ g ∈ [GFun.rcp, .rsqrt false, .rsqrt true, .sqrt false, .sqrt true], ∀ i : Nat, i < 256 →
    EntryNearest g ((2 * (i : ℚ) + 1) / 512) (g.entry i)) ∧
  (∀ (c : Nat) (d t h l q : Nat) (x : Dy) (mul add : Nat → Nat → Nat), c < 2 ^ 32 → fp32.val c = .fin x → x.m ≠ 0 →
    (∀ a b, mul a b = (opFmul fp32 .rne false a b 0).code) → (∀ a b, add a b = (opFadd fp32 .rne false a b 0).code) →
    d = mul c 0x3FB8AA3B → t = (opFfma fp32 .rne false c (mul (mul c c) 0x3D372713) c).code → h = mul c 0x3F000000 →
    l = SfuFn.exp2.f32 d → q = SfuFn.exp2.f32 (mul (fp32.negate c) 0x3FB8AA3B) →
    SfuFn.sigm.f32 c = SfuFn.rcp.f32 (add 0x3F800000 q) ∧ SfuFn.silu.f32 c = mul c (SfuFn.sigm.f32 c) ∧
    SfuFn.gelu.f32 c = (opFfma fp32 .rne false h (SfuFn.tanh.f32 (mul t 0x3F4C422A)) h).code ∧
    SfuFn.softp.f32 c = if 32 < x.value then c else if x.value < -20 then l
      else mul (SfuFn.log2.f32 (add 0x3F800000 l)) 0x3F317218)

/-- sfadd, sfmul, sffma, sfcvt and sfcmp (R184, R185, R186, R176). In every ready group with a legal MODE.RND where the
instruction rounds, and when no enabled exception is raised: sfadd, sfmul, sffma and each kind of sfcvt write their FP32
result to sd and add its flags to FLAGS; sfcmp sets V alone for unordered sources, and otherwise Z, N and C as for less, equal
or greater, keeping A; nothing else changes. The flags of a conversion that saturates a fraction, and fint of a NaN, are the
model's choice of log entry 107. -/
def Obligations.UniformFloat : Prop :=
  (∀ e ∈ uniformFloatOps, ∀ (s : State) (gid : Nat) (g : Group) (p : Split) (f : S3) (r : FRes), Ready s gid g p → g.HasS (f.sd.toNat :: f.sa.toNat :: ssrcNamed f.src) →
    g.rndBad none = false → r = e.2 fp32 (rndOf g.mRnd 0 32) g.mFtz (fp32.daz g.mDaz (g.sreg f.sa.toNat).toNat) (fp32.daz g.mDaz (g.floatImm f.src))
      (fp32.daz g.mDaz (g.sreg f.sd.toNat).toNat) →
    r.flags &&& BitVec.ofNat 7 g.mFpxe = 0 →
    ∃ k, exec (e.1 f) s = .next (s.setGroup gid k) ∧
      Issued k ({ g with flags := g.flags ||| r.flags }.setSreg f.sd.toNat (BitVec.ofNat 32 r.code)) p (s.after g p 1)) ∧
  (∀ (s : State) (gid : Nat) (g : Group) (p : Split) (f : SCvt) (r : Nat × FFlags), Ready s gid g p → g.HasS [f.sd.toNat, f.sa.toNat] → (f.kind ∉ [5, 7] → g.rndBad none = false) →
    r = sfcvtRes f.kind.toNat (rndOf g.mRnd 0 32) g.mDaz g.mFtz g.ovtab (g.sreg f.sa.toNat) →
    r.2 &&& BitVec.ofNat 7 g.mFpxe = 0 →
    ∃ k, exec (.sfcvt f) s = .next (s.setGroup gid k) ∧
      Issued k ({ g with flags := g.flags ||| r.2 }.setSreg f.sd.toNat (BitVec.ofNat 32 r.1)) p (s.after g p 1)) ∧
  (∀ (s : State) (gid : Nat) (g : Group) (p : Split) (f : SCmp) (a b : Nat), Ready s gid g p → g.HasS (f.sa.toNat :: ssrcNamed f.src) →
    a = fp32.daz g.mDaz (g.sreg f.sa.toNat).toNat → b = fp32.daz g.mDaz (g.floatImm f.src) → cmpFlags fp32 false a b &&& BitVec.ofNat 7 g.mFpxe = 0 →
    ∃ k, exec (.sfcmp f) s = .next (s.setGroup gid k) ∧
      Issued k { g with flags := g.flags ||| cmpFlags fp32 false a b, scc := k.scc } p (s.after g p 1) ∧
      sccA k.scc = sccA g.scc ∧
      sccV k.scc = (fp32.isNan a || fp32.isNan b) ∧
      sccZ k.scc = (!(fp32.isNan a || fp32.isNan b) && (fp32.val a).cmp (fp32.val b) == 0) ∧
      sccN k.scc = (!(fp32.isNan a || fp32.isNan b) && (fp32.val a).cmp (fp32.val b) == -1) ∧
      sccC k.scc = (!(fp32.isNan a || fp32.isNan b) && (fp32.val a).cmp (fp32.val b) != -1))

/-- Lane moves and lane votes (R223, R224, R225, R226, R231, R227, R229, R230). In every ready group of a width of R18:
shfl gives each Active lane the word of the lane that its mode, distance code or index names, its own where that lane is
outside the group; bcast gives every Active lane the word of one lane; rdlane writes that word to a uniform register
whatever the activity; perm scatters the words of the Active lanes in ascending order to lanes of the split, a later one
winning, and touches no lane outside the split; nothing else changes. In every ready group: vote writes to the
destination predicate whether some or every Active lane holds its source predicate, or whether the Active lanes hold one
word, and the ballot form writes the mask of R227 to a pair of uniform registers; lanes writes the index, rank, count or
first lane; pop combines two predicates; pmov copies between a predicate and a vector register or a pair of uniform
registers; nothing else changes. -/
def Obligations.LaneMoves : Prop :=
  (((∀ (s : State) (gid : Nat) (g : Group) (p : Split) (f : Shfl), Ready s gid g p → g.width ∈ [8, 16, 32, 64] → g.HasV ([f.vd.toNat, f.va.toNat] ++ fourthV f.px 1) → g.HasS (fourthS f.px) →
    pxXw f.px = 0 → pxType f.px = 0 → pxRnd f.px = 0 → (if f.mode = 3 then pxKind f.px ≠ 0 else pxKind f.px = 0) →
    ∃ k, exec (.shfl f) s = .next (s.setGroup gid k) ∧
      Issued k { g with vregs := k.vregs } p (s.after g p (if f.px.isSome then 2 else 1)) ∧
      LanesWritten g k p f.vd.toNat (aluMask f.px) (aluZero f.px) fun i =>
        g.vreg f.va.toNat (shuffleFrom f.mode.toNat g.width f.dist.toNat (g.fourth f.px (fun _ => 0) i).toNat i)) ∧
  (∀ (s : State) (gid : Nat) (g : Group) (p : Split) (f : Bcast), Ready s gid g p → g.HasV [f.vd.toNat, f.va.toNat] → g.HasS (fourthS f.px) → pxXw f.px = 0 → pxType f.px = 0 → pxRnd f.px = 0 → (pxKind f.px ≠ 1) →
    ∃ k, exec (.bcast f) s = .next (s.setGroup gid k) ∧
      Issued k { g with vregs := k.vregs } p (s.after g p (if f.px.isSome then 2 else 1)) ∧
      LanesWritten g k p f.vd.toNat (aluMask f.px) (aluZero f.px) fun _ =>
        g.vreg f.va.toNat ((if pxKind f.px = 0 then f.lane.toNat else (g.fourth f.px (fun _ => 0) 0).toNat) % g.width)) ∧
  (∀ (s : State) (gid : Nat) (g : Group) (p : Split) (f : Rdlane), Ready s gid g p → g.HasV [f.va.toNat] → g.HasS (f.sd.toNat :: fourthS f.px) → pxXw f.px = 0 → pxType f.px = 0 → pxRnd f.px = 0 → (pxKind f.px ≠ 1) →
    ∃ k, exec (.rdlane f) s = .next (s.setGroup gid k) ∧
      Issued k (g.setSreg f.sd.toNat (g.vreg f.va.toNat
        ((if pxKind f.px = 0 then f.lane.toNat else (g.fourth f.px (fun _ => 0) 0).toNat) % g.width))) p (s.after g p (if f.px.isSome then 2 else 1))) ∧
  (∀ (s : State) (gid : Nat) (g : Group) (p : Split) (f : Perm), Ready s gid g p → g.HasV [f.vd.toNat, f.va.toNat, pxOp4 f.px] → pxXw f.px = 0 → pxType f.px = 0 → pxRnd f.px = 0 → pxKind f.px = 1 →
    ∃ k, exec (.perm f) s = .next (s.setGroup gid k) ∧
      Issued k { g with vregs := k.vregs } p (s.after g p (if f.px.isSome then 2 else 1)) ∧
      (∀ r, r ≠ f.vd.toNat → ∀ i < 64, k.vreg r i = g.vreg r i) ∧
      ∀ j < 64, k.vreg f.vd.toNat j =
        if inMask (p.mask &&& maskBelow g.width) j = true then
          (match ((List.range 64).filter fun i => inMask (g.activeMask p.mask (aluMask f.px)) i && (g.vreg (pxOp4 f.px) i).toNat % g.width == j).getLast? with
           | some i => g.vreg f.va.toNat i
           | none => if aluZero f.px then 0 else g.vreg f.vd.toNat j)
        else g.vreg f.vd.toNat j))) ∧
  (((∀ (s : State) (gid : Nat) (g : Group) (p : Split) (f : Vote) (r : Bool), Ready s gid g p → pxXw f.px = 0 → pxType f.px = 0 → pxRnd f.px = 0 → pxKind f.px = 0 →
    (f.mode = 0 ∧ (r = true ↔ ∃ i < 64, inMask (g.activeMask p.mask (aluMask f.px)) i = true ∧ inMask (g.pred f.fa.toNat) i = true) ∨
     f.mode = 1 ∧ (r = true ↔ ∀ i < 64, inMask (g.activeMask p.mask (aluMask f.px)) i = true → inMask (g.pred f.fa.toNat) i = true) ∨
     f.mode = 2 ∧ g.HasV [f.fa.toNat] ∧ (r = true ↔ ∀ i < 64, ∀ j < 64, inMask (g.activeMask p.mask (aluMask f.px)) i = true → inMask (g.activeMask p.mask (aluMask f.px)) j = true →
       g.vreg f.fa.toNat i = g.vreg f.fa.toNat j)) →
    ∃ k, exec (.vote f) s = .next (s.setGroup gid k) ∧
      Issued k { g with preds := k.preds } p (s.after g p (if f.px.isSome then 2 else 1)) ∧
      PredWritten g k p f.fd.toNat (aluMask f.px) (aluZero f.px) fun _ => r) ∧
  (∀ (s : State) (gid : Nat) (g : Group) (p : Split) (f : Vote), Ready s gid g p → pxXw f.px = 0 → pxType f.px = 0 → pxRnd f.px = 0 → pxKind f.px = 0 → f.mode = 3 → g.HasS [f.fd.toNat, f.fd.toNat + 1] →
    ∃ k, exec (.vote f) s = .next (s.setGroup gid k) ∧
      Issued k (g.setSpair f.fd.toNat (g.pred f.fa.toNat &&& (g.activeMask p.mask (aluMask f.px)))) p (s.after g p (if f.px.isSome then 2 else 1))) ∧
  (∀ (s : State) (gid : Nat) (g : Group) (p : Split) (f : LanesF) (v : Nat → Nat), Ready s gid g p → pxXw f.px = 0 → pxType f.px = 0 → pxRnd f.px = 0 → pxKind f.px = 0 → g.HasV [f.vd.toNat] →
    (f.kind = 0 ∧ (∀ i, v i = i) ∨
     f.kind = 1 ∧ (∀ i, v i = (List.range 64).countP fun j => inMask (g.activeMask p.mask (aluMask f.px)) j && decide (j < i)) ∨
     f.kind = 2 ∧ (∀ i, v i = (List.range 64).countP fun j => inMask (g.activeMask p.mask (aluMask f.px)) j) ∨
     f.kind = 3 ∧ (∀ i, v i = (((List.range 64).find? fun j => inMask (g.activeMask p.mask (aluMask f.px)) j).getD 0))) →
    ∃ k, exec (.lanes f) s = .next (s.setGroup gid k) ∧
      Issued k { g with vregs := k.vregs } p (s.after g p (if f.px.isSome then 2 else 1)) ∧
      LanesWritten g k p f.vd.toNat (aluMask f.px) (aluZero f.px) fun i => BitVec.ofNat 32 (v i)) ∧
  (∀ (s : State) (gid : Nat) (g : Group) (p : Split) (f : Pop) (a b : Nat → Bool), Ready s gid g p → pxXw f.px = 0 → pxType f.px = 0 → pxRnd f.px = 0 → pxKind f.px = 0 →
    (∀ i, a i = inMask (g.pred f.pa.toNat) i ∧ b i = inMask (g.pred f.pb.toNat) i) →
    ∃ k, exec (.pop f) s = .next (s.setGroup gid k) ∧
      Issued k { g with preds := k.preds } p (s.after g p (if f.px.isSome then 2 else 1)) ∧
      PredWritten g k p f.pd.toNat (aluMask f.px) (aluZero f.px) fun i =>
        (match f.fn.toNat with
         | 0 => a i && b i
         | 1 => a i || b i
         | 2 => xor (a i) (b i)
         | 3 => a i && !b i
         | 4 => a i || !b i
         | 5 => !(a i && b i)
         | 6 => !(a i || b i)
         | _ => !(xor (a i) (b i)))) ∧
  (∀ (s : State) (gid : Nat) (g : Group) (p : Split) (f : Pmov), Ready s gid g p → pxXw f.px = 0 → pxType f.px = 0 → pxRnd f.px = 0 → pxKind f.px = 0 → f.mode = 0 → g.HasV [f.fd.toNat] →
    ∃ k, exec (.pmov f) s = .next (s.setGroup gid k) ∧
      Issued k { g with vregs := k.vregs } p (s.after g p (if f.px.isSome then 2 else 1)) ∧
      LanesWritten g k p f.fd.toNat (aluMask f.px) (aluZero f.px) fun i => if inMask (g.pred f.fa.toNat) i then 1 else 0) ∧
  (∀ (s : State) (gid : Nat) (g : Group) (p : Split) (f : Pmov), Ready s gid g p → pxXw f.px = 0 → pxType f.px = 0 → pxRnd f.px = 0 → pxKind f.px = 0 → f.mode = 1 → g.HasV [f.fa.toNat] →
    ∃ k, exec (.pmov f) s = .next (s.setGroup gid k) ∧
      Issued k { g with preds := k.preds } p (s.after g p (if f.px.isSome then 2 else 1)) ∧
      PredWritten g k p f.fd.toNat (aluMask f.px) (aluZero f.px) fun i => decide (g.vreg f.fa.toNat i ≠ 0)) ∧
  (∀ (s : State) (gid : Nat) (g : Group) (p : Split) (f : Pmov), Ready s gid g p → pxXw f.px = 0 → pxType f.px = 0 → pxRnd f.px = 0 → pxKind f.px = 0 → f.mode = 2 → g.HasS [f.fa.toNat, f.fa.toNat + 1] →
    ∃ k, exec (.pmov f) s = .next (s.setGroup gid k) ∧
      Issued k { g with preds := k.preds } p (s.after g p (if f.px.isSome then 2 else 1)) ∧
      PredWritten g k p f.fd.toNat (aluMask f.px) (aluZero f.px) fun i => (g.spair f.fa.toNat).getLsbD i)))

/-- lred and lscan (R228, R223, R224). In every ready group of a width 2^m, for every operation, a type that it takes
and a legal rounding, and when no enabled exception is raised: lred gives each Active lane the balanced tree over the
Active lanes of its aligned segment; lscan gives it the inclusive scan by doubling distances, and its exclusive form the
scan at the highest Active lane below, or the identity; the flags of the combinations that entered a written lane are
raised; nothing else changes. -/
def Obligations.LaneReductions : Prop :=
  (∀ (s : State) (gid : Nat) (g : Group) (p : Split) (f : Lred) (m : Nat) (r : Nat → Word × FFlags), Ready s gid g p → pxXw f.px = 0 → pxKind f.px = 0 → g.typeBad f.px = false →
    (if f.op.toNat = 8 then pxRnd f.px ≠ 6 ∧ g.rndBad f.px = false else pxRnd f.px = 0) →
    (8 ≤ f.op.toNat → arithType (g.effType f.px) = true) → f.op.toNat ≤ 10 → g.HasV [f.vd.toNat, f.va.toNat] →
    g.width = 2 ^ m → 3 ≤ m → m ≤ 6 →
    (∀ i, r i = (g.blockTree f.px f.op.toNat (fun j => if inMask (g.activeMask p.mask (aluMask f.px)) j then some (g.vreg f.va.toNat j, 0) else none) (m - f.seg.toNat)
      (i / 2 ^ (m - f.seg.toNat) * 2 ^ (m - f.seg.toNat))).getD (0, 0)) →
    g.NoFpTrap p (aluMask f.px) (fun i => (r i).2) →
    ∃ k, exec (.lred f) s = .next (s.setGroup gid k) ∧
      Issued k { g with vregs := k.vregs, flags := k.flags } p (s.after g p (if f.px.isSome then 2 else 1)) ∧
      FlagsRaised g k p (aluMask f.px) (fun i => (r i).2) ∧
      LanesWritten g k p f.vd.toNat (aluMask f.px) (aluZero f.px) fun i => (r i).1) ∧
  (∀ (s : State) (gid : Nat) (g : Group) (p : Split) (f : Lscan) (m : Nat) (r : Nat → Word × FFlags), Ready s gid g p → pxXw f.px = 0 → pxKind f.px = 0 → g.typeBad f.px = false →
    (if f.op.toNat = 8 then pxRnd f.px ≠ 6 ∧ g.rndBad f.px = false else pxRnd f.px = 0) →
    (8 ≤ f.op.toNat → arithType (g.effType f.px) = true) → f.op.toNat ≤ 10 → g.HasV [f.vd.toNat, f.va.toNat] →
    g.width = 2 ^ m → 3 ≤ m → m ≤ 6 →
    (∀ i, r i = if f.ex then
        (match ((List.range i).filter fun j => inMask (g.activeMask p.mask (aluMask f.px)) j).getLast? with
         | some j => (g.scanned f.px f.op.toNat (fun j => if inMask (g.activeMask p.mask (aluMask f.px)) j then some (g.vreg f.va.toNat j, 0) else none) m j).getD (0, 0)
         | none => (scanIdentity f.op.toNat (g.effType f.px), 0))
      else (g.scanned f.px f.op.toNat (fun j => if inMask (g.activeMask p.mask (aluMask f.px)) j then some (g.vreg f.va.toNat j, 0) else none) m i).getD (0, 0)) →
    g.NoFpTrap p (aluMask f.px) (fun i => (r i).2) →
    ∃ k, exec (.lscan f) s = .next (s.setGroup gid k) ∧
      Issued k { g with vregs := k.vregs, flags := k.flags } p (s.after g p (if f.px.isSome then 2 else 1)) ∧
      FlagsRaised g k p (aluMask f.px) (fun i => (r i).2) ∧
      LanesWritten g k p f.vd.toNat (aluMask f.px) (aluZero f.px) fun i => (r i).1)

/-- The long branches (R99). In every ready group each long branch goes to the address of the next word plus 4 times its
sign-extended offset when its test of SCC holds, and to the next word otherwise; it changes no register, flag or memory.
-/
def Obligations.LongBranches : Prop :=
  ∀ e ∈ branchOps, ∀ (s : State) (gid : Nat) (g : Group) (p : Split) (f : Br), Ready s gid g p →
    ∃ k, exec (e.1 f) s = .next (s.setGroup gid k) ∧
      Issued k g p (if e.2 g.scc then s.target g p f.off.toInt else s.after g p 1)

/-- The predicate branches (R100). In every ready group brpz, brpnz and brpall test their predicate over the lanes of
the issuing split alone, whatever the guard: no lane, some lane, every lane; the target is the next word plus 4 times
the sign-extended offset; with pt, brpz is never taken by a split with a lane and the others always are; nothing else
changes. -/
def Obligations.PredicateBranches : Prop :=
  (∀ (s : State) (gid : Nat) (g : Group) (p : Split) (f : BrP) (b : Bool), Ready s gid g p → (b = true ↔ ∀ i < 64, inMask p.mask i = true → inMask (g.pred f.p.toNat) i = false) →
    ∃ k, exec (.brpz f) s = .next (s.setGroup gid k) ∧
      Issued k g p (if b then s.target g p f.off.toInt else s.after g p 1)) ∧
  (∀ (s : State) (gid : Nat) (g : Group) (p : Split) (f : BrP) (b : Bool), Ready s gid g p → (b = true ↔ ∃ i < 64, inMask p.mask i = true ∧ inMask (g.pred f.p.toNat) i = true) →
    ∃ k, exec (.brpnz f) s = .next (s.setGroup gid k) ∧
      Issued k g p (if b then s.target g p f.off.toInt else s.after g p 1)) ∧
  (∀ (s : State) (gid : Nat) (g : Group) (p : Split) (f : BrP) (b : Bool), Ready s gid g p → (b = true ↔ ∀ i < 64, inMask p.mask i = true → inMask (g.pred f.p.toNat) i = true) →
    ∃ k, exec (.brpall f) s = .next (s.setGroup gid k) ∧
      Issued k g p (if b then s.target g p f.off.toInt else s.after g p 1)) ∧
  (∀ (s : State) (gid : Nat) (g : Group) (p : Split) (f : BrP), Ready s gid g p → f.p = 7 → p.mask ≠ 0 →
    (∃ k, exec (.brpz f) s = .next (s.setGroup gid k) ∧ Issued k g p (s.after g p 1)) ∧
    (∃ k, exec (.brpnz f) s = .next (s.setGroup gid k) ∧ Issued k g p (s.target g p f.off.toInt)) ∧
    (∃ k, exec (.brpall f) s = .next (s.setGroup gid k) ∧ Issued k g p (s.target g p f.off.toInt)))

/-- call, ret, jmp and adr (R101, R102, R98, R381). In every ready group call writes sl with the code address of the next word
and branches; ret and jmp go to the code address of their register when it is a multiple of 4, jmp sz to code address 0, and
otherwise take trap 0x09 with the target in TVAL and no other effect; adr writes a code address relative to the next word, and
adr sz writes nothing; nothing else changes. That the frame of trap 0x09 has SIG without the trapping word is the model's
choice of log entry 49. -/
def Obligations.CallsAndJumps : Prop :=
  (∀ (s : State) (gid : Nat) (g : Group) (p : Split) (f : Br), Ready s gid g p →
    ∃ k, exec (.call f) s = .next (s.setGroup gid k) ∧
      Issued k (g.setSreg 62 (codeAddr (s.textBase g) (s.after g p 1))) p (s.target g p f.off.toInt)) ∧
  (∀ (s : State) (gid : Nat) (g : Group) (p : Split) (f : Bare), Ready s gid g p → (g.sreg 62).toNat % 4 = 0 →
    ∃ k, exec (.ret f) s = .next (s.setGroup gid k) ∧ Issued k g p (s.textBase g + (g.sreg 62).setWidth 64)) ∧
  (∀ (s : State) (gid : Nat) (g : Group) (p : Split) (f : Jmp), Ready s gid g p → g.HasS [f.sa.toNat] → (g.sreg f.sa.toNat).toNat % 4 = 0 →
    ∃ k, exec (.jmp f) s = .next (s.setGroup gid k) ∧ Issued k g p (s.textBase g + (g.sreg f.sa.toNat).setWidth 64)) ∧
  (∀ (s : State) (gid : Nat) (g : Group) (p : Split) (f : Jmp) (x : Part), Ready s gid g p → g.HasS [f.sa.toNat] → (g.sreg f.sa.toNat).toNat % 4 ≠ 0 → g.handler = none →
    s.part g.part = some x →
    ∃ t, exec (.jmp f) s = .next t ∧ TrapEntered s t x gid g p 0x09 ((g.sreg f.sa.toNat).setWidth 64) p.mask) ∧
  (∀ (s : State) (gid : Nat) (g : Group) (p : Split) (f : Bare) (x : Part), Ready s gid g p → (g.sreg 62).toNat % 4 ≠ 0 → g.handler = none → s.part g.part = some x →
    ∃ t, exec (.ret f) s = .next t ∧ TrapEntered s t x gid g p 0x09 ((g.sreg 62).setWidth 64) p.mask) ∧
  (∀ (s : State) (gid : Nat) (g : Group) (p : Split) (f : Adr), Ready s gid g p → g.HasS [f.sd.toNat] →
    ∃ k, exec (.adr f) s = .next (s.setGroup gid k) ∧
      Issued k (g.setSreg f.sd.toNat (codeAddr (s.textBase g) (s.target g p f.off.toInt))) p (s.after g p 1))

/-- nop (R80). In every ready group nop changes nothing but the program counter and the account of its issue, and the
group may issue again after its stall count. -/
def Obligations.NopOnlyStalls : Prop :=
  ∀ (s : State) (gid : Nat) (g : Group) (p : Split) (f : Bare), Ready s gid g p →
    ∃ k, exec (.nop f) s = .next (s.setGroup gid k) ∧ Issued k g p (s.after g p 1) ∧
      k.stallUntil = s.clock + 1 + [0, 1, 3, 7].getD f.st.toNat 0

/-- rdsr, wrsr and setmode (R154, R155, R156, R157, R193, R46, R253). In every ready group: rdsr writes the value of its
register to sd, and a read of CLOCK lo or TIME lo latches the high word; wrsr writes MODE, FLAGS, SIG, MSIG, LSCALE or
OVF and leaves SIG equal to the source when it names SIG; either waits to issue on FLAGS or OVF while a matrix
instruction of the group is outstanding; a reserved index takes trap 0x01, and wrsr of a read-only one trap 0x02,
outside a handler; setmode replaces one field of MODE and no other bit; nothing else changes. The trap finds SIG as it
was before the word, which is the model's choice (log entry 49), as are the house group's own values (log entry 4). -/
def Obligations.StatusRegisters : Prop :=
  (∀ (s : State) (gid : Nat) (g : Group) (p : Split) (f : Rdsr), Ready s gid g p → g.HasS [f.sd.toNat] → (g.matq = [] ∨ (f.idx ≠ 0x11 ∧ f.idx ≠ 0x1A)) → f.idx.toNat < 0x27 →
    ∃ k v, exec (.rdsr f) s = .next (s.setGroup gid k) ∧ (f.idx.toNat, v) ∈ statusView s gid g k ∧
      Issued k ({ g with readLatch := if f.idx = 0x13 then BitVec.ofNat 32 (s.clock / 2 ^ 32)
        else if f.idx = 0x15 then BitVec.ofNat 32 (s.time / 2 ^ 32) else g.readLatch }.setSreg f.sd.toNat v) p (s.after g p 1)) ∧
  (∀ (s : State) (gid : Nat) (g : Group) (p : Split) (f : Wrsr) (v : Word), Ready s gid g p → g.HasS [f.sa.toNat] → (g.matq = [] ∨ (f.idx ≠ 0x11 ∧ f.idx ≠ 0x1A)) → v = g.sreg f.sa.toNat →
    (f.idx = 0x10 → ∃ k, exec (.wrsr f) s = .next (s.setGroup gid k) ∧
      Issued k { g with mode := v.setWidth 25 } p (s.after g p 1)) ∧
    (f.idx = 0x11 → ∃ k, exec (.wrsr f) s = .next (s.setGroup gid k) ∧
      Issued k { g with flags := v.setWidth 7 } p (s.after g p 1)) ∧
    (f.idx = 0x17 → ∃ k, exec (.wrsr f) s = .next (s.setGroup gid k) ∧ Issued k g p (s.after g p 1) ∧ k.sig = v) ∧
    (f.idx = 0x18 → ∃ k, exec (.wrsr f) s = .next (s.setGroup gid k) ∧ Issued k { g with msig := v } p (s.after g p 1)) ∧
    (f.idx = 0x19 → ∃ k, exec (.wrsr f) s = .next (s.setGroup gid k) ∧ Issued k { g with lscale := v } p (s.after g p 1)) ∧
    (f.idx = 0x1A → ∃ k, exec (.wrsr f) s = .next (s.setGroup gid k) ∧
      Issued k { g with ovf := v.setWidth 3 } p (s.after g p 1))) ∧
  (∀ (s : State) (gid : Nat) (g : Group) (p : Split) (f : Rdsr), Ready s gid g p → g.HasS [f.sd.toNat] → g.matq ≠ [] → (f.idx = 0x11 ∨ f.idx = 0x1A) →
    ∃ k, exec (.rdsr f) s = .next (s.setGroup gid k) ∧ Stands k g p .matrixIdle s.clock) ∧
  (∀ (s : State) (gid : Nat) (g : Group) (p : Split) (f : Wrsr), Ready s gid g p → g.HasS [f.sa.toNat] → g.matq ≠ [] → (f.idx = 0x11 ∨ f.idx = 0x1A) →
    ∃ k, exec (.wrsr f) s = .next (s.setGroup gid k) ∧ Stands k g p .matrixIdle s.clock) ∧
  (∀ (s : State) (gid : Nat) (g : Group) (p : Split) (f : Rdsr) (x : Part), Ready s gid g p → Outside s g x → 0x27 ≤ f.idx.toNat →
    ∃ t, exec (.rdsr f) s = .next t ∧ TrapEntered s t x gid g p 0x01 (tvalOf (.rdsr f)) p.mask) ∧
  (∀ (s : State) (gid : Nat) (g : Group) (p : Split) (f : Wrsr) (x : Part), Ready s gid g p → Outside s g x →
    (0x27 ≤ f.idx.toNat → ∃ t, exec (.wrsr f) s = .next t ∧ TrapEntered s t x gid g p 0x01 (tvalOf (.wrsr f)) p.mask) ∧
    (f.idx.toNat < 0x27 → f.idx ∉ [0x10, 0x11, 0x17, 0x18, 0x19, 0x1A] →
      ∃ t, exec (.wrsr f) s = .next t ∧ TrapEntered s t x gid g p 0x02 (tvalOf (.wrsr f)) p.mask)) ∧
  (∀ e ∈ modeFields, ∀ (s : State) (gid : Nat) (g : Group) (p : Split) (f : SetM), Ready s gid g p → f.sel = e.1 →
    ∃ k m, exec (.setmode f) s = .next (s.setGroup gid k) ∧ Issued k { g with mode := m } p (s.after g p 1) ∧
      ∀ j < 25, m.getLsbD j =
        if e.2.1 ≤ j ∧ j < e.2.1 + e.2.2 then f.val.getLsbD (j - e.2.1) else g.mode.getLsbD j)

/-- Forks, and splits that give way (R88, R89, R92, R95, R96, R97, R103, R104). In every ready group outside a handler,
with a join stack below 4 masks: fork pushes the split's mask and folds it into MSIG; a split of which every lane has
the predicate goes to the target, one of which no lane has it goes on, and one that divides leaves the lanes without the
predicate at the next word and puts the others in a new Ready split in the lowest free slot at the target; a full join
stack, or a division of a group with four splits, kills the group with cause 0x0F and the code of R88. In every ready
group: join with an empty stack goes on and otherwise parks at its own address; yield and sleep 0 go to the next word,
and the split then gives way to the next Ready one outside a handler; yieldc goes on when no lane of the split has the
predicate and otherwise parks on the armed condition, or on none, with the target as its continuation; sleep n sleeps n
cycles; bar and cbar park on their barrier; nothing else changes. -/
def Obligations.ForksAndSplits : Prop :=
  (((∀ (s : State) (gid : Nat) (g : Group) (p : Split) (f : Fork) (a b : DWord), Ready s gid g p → g.handler = none → a = p.mask &&& g.pred f.p.toNat → b = p.mask &&& ~~~(g.pred f.p.toNat) →
    p.joins.length < 4 →
    (b = 0 → ∃ k, exec (.fork f) s = .next (s.setGroup gid k) ∧
      Issued k { g with msig := g.msig ^^^ (loWord p.mask ^^^ hiWord p.mask) } { p with joins := p.mask :: p.joins }
        (s.target g p f.off.toInt)) ∧
    (a = 0 → b ≠ 0 → ∃ k, exec (.fork f) s = .next (s.setGroup gid k) ∧
      Issued k { g with msig := g.msig ^^^ (loWord p.mask ^^^ hiWord p.mask) } { p with joins := p.mask :: p.joins }
        (s.after g p 1)) ∧
    (∀ n < 4, a ≠ 0 → b ≠ 0 → g.splits.length < 4 → (∀ q ∈ g.splits, q.slot ≠ n) → (∀ j < n, ∃ q ∈ g.splits, q.slot = j) →
      ∃ h, exec (.fork f) s = .next (s.setGroup gid { h with splits := h.splits ++
          [{ slot := n, mask := a, pc := s.target g p f.off.toInt, st := .ready, joins := p.mask :: p.joins, held := none,
             safeAt := none }] }) ∧
        Issued h { g with msig := g.msig ^^^ (loWord p.mask ^^^ hiWord p.mask) }
          { p with joins := p.mask :: p.joins, mask := b } (s.after g p 1))) ∧
  (∀ (s : State) (gid : Nat) (g : Group) (p : Split) (f : Fork), Ready s gid g p → g.handler = none → p.joins.length = 4 →
    exec (.fork f) s = .next (s.killGroup gid 0x0F false p.pc 2)) ∧
  (∀ (s : State) (gid : Nat) (g : Group) (p : Split) (f : Fork), Ready s gid g p → g.handler = none → p.joins.length < 4 → p.mask &&& g.pred f.p.toNat ≠ 0 →
    p.mask &&& ~~~(g.pred f.p.toNat) ≠ 0 → g.splits.length = 4 →
    exec (.fork f) s = .next (s.killGroup gid 0x0F false p.pc 1)))) ∧
  (((∀ (s : State) (gid : Nat) (g : Group) (p : Split) (f : Bare), Ready s gid g p →
    (p.joins = [] → ∃ k, exec (.join f) s = .next (s.setGroup gid k) ∧ Issued k g p (s.after g p 1)) ∧
    (p.joins ≠ [] → ∃ k, exec (.join f) s = .next (s.setGroup gid k) ∧ Parked k g p .parkedJoin p.pc s.clock) ∧
    (∃ h, exec (.yield f) s = .next (s.setGroup gid (if g.handler.isSome then h else h.giveWay)) ∧
      Issued h g p (s.after g p 1)) ∧
    (∃ k, exec (.cbar f) s = .next (s.setGroup gid k) ∧ Parked k g p .parkedCohort (s.after g p 1) s.clock)) ∧
  (∀ (s : State) (gid : Nat) (g : Group) (p : Split) (f : Fork), Ready s gid g p →
    (p.mask &&& g.pred f.p.toNat = 0 → ∃ k, exec (.yieldc f) s = .next (s.setGroup gid k) ∧ Issued k g p (s.after g p 1)) ∧
    (p.mask &&& g.pred f.p.toNat ≠ 0 → ∃ k, exec (.yieldc f) s = .next (s.setGroup gid k) ∧
      Parked k g p (.parkedCont (g.armed.getD .always) (s.target g p f.off.toInt)) p.pc s.clock)) ∧
  (∀ (s : State) (gid : Nat) (g : Group) (p : Split) (f : Sleep), Ready s gid g p →
    (f.n ≠ 0 → ∃ k, exec (.sleep f) s = .next (s.setGroup gid k) ∧
      Parked k g p (.sleeping (s.clock + f.n.toNat)) (s.after g p 1) s.clock) ∧
    (f.n = 0 → ∃ h, exec (.sleep f) s = .next (s.setGroup gid (if g.handler.isSome then h else h.giveWay)) ∧
      Issued h g p (s.after g p 1))) ∧
  (∀ (s : State) (gid : Nat) (g : Group) (p : Split) (f : Bar), Ready s gid g p → ∃ k, exec (.bar f) s = .next (s.setGroup gid k) ∧
    Parked k g p (.parkedBarrier f.b.toNat) (s.after g p 1) s.clock)))

/-- wait, wait.all, safe, draw, sigchk, fence and exit, and registers read too early (R81, R84, R106, R398, R273, R107, R387,
R73, R74, R77, R338). In every group about to issue, whatever it has outstanding: wait and wait.all go on when their
counters are low enough, otherwise wait, and in their arming form record the condition and go on; fence goes on when no
load, store or atomic of its split is outstanding, and otherwise waits for those that are; an integer instruction over
elements waits while a register that it reads is held, takes trap 0x04 with MODE.CHK at 1 when its first source is too
recent, and with MODE.CHK at 0 uses in each lane the old or the new value of a source that is too recent or still owed. In
every ready group: safe and draw below LIVECOUNT mark a safe point with their entry, restart the distance count and, for
draw, set the working set; sigchk with one split and a matching signature or SEN at 0 clears SIG, with more splits does
nothing, and kills with cause 0x0F on a mismatch; exit of a split with siblings adds its lanes to the exited set and
removes it, and the last split stays exiting. What a waiting split keeps is the model's choice of log entry 91, and the
exiting state that of log entry 19. -/
def Obligations.WaitsAndSafePoints : Prop :=
  (∀ (s : State) (gid : Nat) (g : Group) (p : Split) (f : Wait), Underway s gid g p →
    (f.arm = true → ∃ k, exec (.wait f) s = .next (s.setGroup gid k) ∧
      Issued k { g with armed := some (.counter f.cnt.toNat f.n.toNat) } p (s.after g p 1)) ∧
    (f.arm = false → g.cnt.get f.cnt.toNat ≤ f.n.toNat →
      ∃ k, exec (.wait f) s = .next (s.setGroup gid k) ∧ Issued k { g with syncAt := s.tick } p (s.after g p 1)) ∧
    (f.arm = false → f.n.toNat < g.cnt.get f.cnt.toNat → ∃ k, exec (.wait f) s = .next (s.setGroup gid k) ∧
      Waits k g p (.cond (.counter f.cnt.toNat f.n.toNat)) (encode (.wait f)) false s.clock)) ∧
  (∀ (s : State) (gid : Nat) (g : Group) (p : Split) (f : WaitAll), Underway s gid g p →
    (f.arm = true → ∃ k, exec (.waitAll f) s = .next (s.setGroup gid k) ∧
      Issued k { g with armed := some (.counters f.cmask) } p (s.after g p 1)) ∧
    (f.arm = false → (∀ j < 6, f.cmask.getLsbD j = true → g.cnt.get j = 0) →
      ∃ k, exec (.waitAll f) s = .next (s.setGroup gid k) ∧ Issued k { g with syncAt := s.tick } p (s.after g p 1)) ∧
    (f.arm = false → (∃ j < 6, f.cmask.getLsbD j = true ∧ g.cnt.get j ≠ 0) →
      ∃ k, exec (.waitAll f) s = .next (s.setGroup gid k) ∧ Waits k g p (.cond (.counters f.cmask)) (encode (.waitAll f)) false s.clock)) ∧
  (∀ (s : State) (gid : Nat) (g : Group) (p : Split) (f : Safe), Ready s gid g p → f.live.toNat < g.liveCount →
    ∃ k, exec (.safe f) s = .next (s.setGroup gid k) ∧ k.safeCount = 0 ∧
      k = (g.charged k).setIssuing { p with pc := s.after g p 1, held := none, safeAt := some f.live.toNat }) ∧
  (∀ (s : State) (gid : Nat) (g : Group) (p : Split) (f : Draw) (e : Nat) (ws : List Nat), Ready s gid g p → f.live.toNat < g.liveCount → g.HasV [f.vb.toNat] →
    e = ofBytes ((s.liveEntry gid g f.live.toNat).drop 0x1C) →
    ws = ((List.range 24).filter fun j => Nat.testBit e j && decide (f.vb.toNat + j ≤ 127) &&
      decide (f.vb.toNat + j < g.vAlloc)).map (f.vb.toNat + ·) →
    ∃ k, exec (.draw f) s = .next ((s.setGroup gid k).fillHand gid (ws.take (if g.width = 64 then 12 else 24))) ∧
      k.safeCount = 0 ∧
      k = ({ g with workSet := ws.take (if g.width = 64 then 12 else 24) }.charged k).setIssuing
        { p with pc := s.after g p 1, held := none, safeAt := some f.live.toNat }) ∧
  (∀ (s : State) (gid : Nat) (g : Group) (p : Split) (f : Imm16) (x : Part), Ready s gid g p → s.part g.part = some x →
    (1 < g.splits.length → ∃ k, exec (.sigchk f) s = .next (s.setGroup gid k) ∧ Issued k g p (s.after g p 1) ∧ k.sig = g.sig) ∧
    (g.splits.length ≤ 1 → (x.sen = false ∨ g.sig.setWidth 16 = f.imm) →
      ∃ k, exec (.sigchk f) s = .next (s.setGroup gid k) ∧ Issued k g p (s.after g p 1) ∧ k.sig = 0) ∧
    (g.splits.length ≤ 1 → x.sen = true → g.sig.setWidth 16 ≠ f.imm →
      ∃ k, exec (.sigchk f) s = .next ((s.setGroup gid k).killGroup gid 0x0F false p.pc 3))) ∧
  (∀ (s : State) (gid : Nat) (g : Group) (p : Split) (f : Fence) (w : Nat × PendOp → Prop), Underway s gid g p → (f.scope = 0 → g.mScope ≠ 0) →
    (∀ q, w q ↔ q ∈ g.pend ∧ q.2.kind ∈ [PendKind.load, .store, .atomic] ∧ q.2.mask &&& p.mask ≠ 0) →
    ((∀ q, ¬w q) → ∃ k, exec (.fence f) s = .next (s.setGroup gid k) ∧ Issued k { g with syncAt := s.tick } p (s.after g p 1)) ∧
    ((∃ q, w q) → ∃ k ids, exec (.fence f) s = .next (s.setGroup gid k) ∧
      Waits k g p (.performed ids) (encode (.fence f)) false s.clock ∧ ∀ id, id ∈ ids ↔ ∃ q, w q ∧ q.1 = id)) ∧
  (∀ e ∈ elementOps, ∀ (s : State) (gid : Nat) (g : Group) (p : Split) (f : V3), Underway s gid g p →
    g.HasV [f.vd.toNat, f.va.toNat, f.vb.toNat] → pxRnd f.px = 0 → pxXw f.px = 0 → pxKind f.px = 0 → g.typeBad f.px = false →
    (∀ n old, ¬g.Recent (pName n) old) → (∀ q ∈ g.pend, ∀ d ∈ q.2.dests, d.reg.cls ≠ .pred) →
    (∀ old x, g.mChk = true → g.Recent (vName f.va.toNat) old → Outside s g x →
      ∃ t, exec (e.1 f) s = .next t ∧
        TrapEntered s t x gid g p 0x04 (BitVec.ofNat 64 f.va.toNat) (g.activeMask p.mask (aluMask f.px))) ∧
    ((g.mChk = false ∨ ∀ r old, ¬g.Recent r old) →
      ((∃ h ∈ g.holds, h.reg ∈ [f.va.toNat, f.vb.toNat] ∧ 0 < h.pending) →
        ∃ k rs, exec (e.1 f) s = .next (s.setGroup gid k) ∧ Stands k g p (.holdRegs rs) s.clock ∧
          ∀ r, r ∈ rs ↔ r ∈ [f.va.toNat, f.vb.toNat] ∧ ∃ h ∈ g.holds, h.reg = r ∧ 0 < h.pending) ∧
      ((∀ h ∈ g.holds, h.reg ∈ [f.va.toNat, f.vb.toNat] → h.pending = 0) →
        ∃ k n a b, exec (e.1 f) s = .next ({ s with serial := n }.setGroup gid k) ∧
          Issued k { g with vregs := k.vregs, pend := k.pend } p (s.after g p (if f.px.isSome then 2 else 1)) ∧
          k.pend.map (fun q => (q.1, { q.2 with clobbered := [] })) = g.pend.map (fun q => (q.1, { q.2 with clobbered := [] })) ∧
          g.ReadsEarly f.va.toNat a ∧ g.ReadsEarly f.vb.toNat b ∧
          LanesWritten g k p f.vd.toNat (aluMask f.px) (aluZero f.px) fun i =>
            mapElems (elemWidth (g.effType f.px)) (e.2.2 (elemWidth (g.effType f.px)) (unsignedType (g.effType f.px))) (a i) (b i)))) ∧
  (∀ (s : State) (gid : Nat) (g : Group) (p : Split) (f : Bare), Ready s gid g p →
    (g.handler = none → 1 < g.splits.length → ∃ h, exec (.exit_ f) s = .next (s.setGroup gid
        { h with splits := h.splits.filter fun q => q.slot != p.slot, exited := g.exited ||| p.mask, issuesInTurn := 0,
                 blockedSince := s.clock }) ∧ ∃ pc, Issued h g p pc) ∧
    (g.splits.length ≤ 1 → ∃ k, exec (.exit_ f) s = .next (s.setGroup gid k) ∧
      Parked k { g with exited := g.exited ||| p.mask } p .exiting p.pc s.clock))

/-- Vector loads, transposed ones among them (R260, R261, R263, R212, R213, R271, R77, R265, R266, R275, R277, R353). In every
ready group with room on c0 and a legal scope, when each Active lane's access passes the checks of R271 and no lane reads
the A bit that another one sets: each vector load and ldx goes to the next word; with no Active lane it changes nothing
else; otherwise it counts one more on c0 and leaves one outstanding operation that owes each Active lane the words it
read, and inactive lanes nothing; an acquire synchronises the group; the A bits of the entries that walks found are set;
no register, flag or other byte of memory changes. A strong load, of a cluster whose L1 has nothing for the home, reads
the home, and a weak one the L1's copy of a line or else the home, or bytes that a racing store replaced. In every ready
group: ldt, in a group wider than 8 with room on c0, whose Active lanes' rows pass the checks, counts on c0 and owes
each Active lane, in element t of register j, element c of row 4qh + qj + t of its block, or 0 when that row's lane is
not Active, where c and h are the lane's place in the block modulo and divided by 4q; pfl goes to the next word and
changes no register, no flag and no byte of memory but A bits. That the value of a load is read when it issues is the
model's choice of log entries 6 and 7, and how long a replaced byte stays readable that of log entry 103. -/
def Obligations.VectorLoads : Prop :=
  (((∀ e ∈ loadOps, ∀ (s : State) (gid : Nat) (g : Group) (p : Split) (f : Vmem) (pl : Nat → Nat → Place) (acc : Nat → Nat → Prop), Ready s gid g p →
    (∀ i j, acc i j ↔ i < 64 ∧ j = 0 ∧ g.laneOn p f.px i = true) → g.ScopeOk f.px (strongAtt f.att) →
    g.HasV (upFrom f.vd.toNat e.2.2.1) → (f.en = true → g.HasV [f.off.toNat]) → g.HasS [2 * f.k.toNat, 2 * f.k.toNat + 1] → g.cnt.c0 < 255 →
    (∀ i j, acc i j → Reaches s gid g .read e.2.1 (g.laneAddr f.px f.k.toNat (if f.en then some f.off.toNat else none) i) (pl i j) ∧
      (strongAtt f.att = true → Unsent s (clusterOf (coreOf gid)) (pl i j) e.2.1)) →
    MarksApart s acc e.2.1 pl →
    ∃ k t, exec (e.1 f) s = .next t ∧
      ((∀ i < 64, g.laneOn p f.px i = false) → t = s.setGroup gid k ∧ Issued k g p (s.after g p (if f.px.isSome then 2 else 1))) ∧
      ((∃ i < 64, g.laneOn p f.px i = true) → Touched s t gid k (s.nextId + 1) ∧ EntriesMarked s t g.part (coreOf gid) acc pl ∧
        ∃ op, ∃ x : Nat → Nat,
        Issued k { g with cnt := { g.cnt with c0 := g.cnt.c0 + 1 }, pend := [(s.nextId, op)], syncAt := if f.att = 3 then s.tick else g.syncAt } p
          (s.after g p (if f.px.isSome then 2 else 1)) ∧ Fresh op p .load 0 ∧
        (∀ i, acc i 0 → ReadsAs s gid g p (strongAtt f.att) (pl i 0) e.2.1 (x i)) ∧
        ∀ d, d ∈ op.dests ↔ ∃ i < 64, ∃ j < e.2.2.1, g.laneOn p f.px i = true ∧
          d = { reg := vName (f.vd.toNat + j), lane := i, val := e.2.2.2 (x i) j })) ∧
  (∀ (s : State) (gid : Nat) (g : Group) (p : Split) (f : Vmem) (n : Nat) (pl : Nat → Nat → Place) (acc : Nat → Nat → Prop), Ready s gid g p → n = g.mXw + 2 → g.mXw ≠ 3 →
    (∀ i j, acc i j ↔ i < 64 ∧ j < n ∧ g.laneOn p f.px i = true) → g.ScopeOk f.px (strongAtt f.att) →
    g.HasGroups [(f.vd.toNat, n)] → (f.en = true → g.HasV [f.off.toNat]) → g.HasS (upFrom (2 * f.k.toNat) 4) → g.cnt.c0 < 255 →
    (∀ i j, acc i j → Reaches s gid g .read 4 (g.xAddr f n i j) (pl i j) ∧
      (strongAtt f.att = true → Unsent s (clusterOf (coreOf gid)) (pl i j) 4)) →
    MarksApart s acc 4 pl →
    ∃ k t, exec (.ldx f) s = .next t ∧
      ((∀ i < 64, g.laneOn p f.px i = false) → t = s.setGroup gid k ∧ Issued k g p (s.after g p (if f.px.isSome then 2 else 1))) ∧
      ((∃ i < 64, g.laneOn p f.px i = true) → Touched s t gid k (s.nextId + 1) ∧ EntriesMarked s t g.part (coreOf gid) acc pl ∧
        ∃ op, ∃ x : Nat → Nat → Nat,
        Issued k { g with cnt := { g.cnt with c0 := g.cnt.c0 + 1 }, pend := [(s.nextId, op)], syncAt := if f.att = 3 then s.tick else g.syncAt } p
          (s.after g p (if f.px.isSome then 2 else 1)) ∧ Fresh op p .load 0 ∧
        (∀ i j, acc i j → ReadsAs s gid g p (strongAtt f.att) (pl i j) 4 (x i j)) ∧
        ∀ d, d ∈ op.dests ↔ ∃ i < 64, ∃ j < n, g.laneOn p f.px i = true ∧
          d = { reg := vName (f.vd.toNat + j), lane := i, val := BitVec.ofNat 32 (x i j) })))) ∧
  (((∀ (s : State) (gid : Nat) (g : Group) (p : Split) (f : Ldt) (z q : Nat) (pl : Nat → Nat → Place) (acc : Nat → Nat → Prop), Ready s gid g p → f.esz ≠ 3 → z = 2 ^ f.esz.toNat → q = 4 / z → g.width ≠ 8 →
    (∀ i j, acc i j ↔ i < 64 ∧ j = 0 ∧ g.laneOn p f.px i = true) →
    pxScope f.px = 0 → g.HasV (f.off.toNat :: upFrom f.vd.toNat 4) → g.HasS [2 * f.k.toNat, 2 * f.k.toNat + 1] → g.cnt.c0 < 255 →
    (∀ i j, acc i j → Reaches s gid g .read 16 (g.laneAddr f.px f.k.toNat (some f.off.toNat) i) (pl i j)) → MarksApart s acc 16 pl →
    ∃ k t, exec (.ldt f) s = .next t ∧
      ((∀ i < 64, g.laneOn p f.px i = false) → t = s.setGroup gid k ∧ Issued k g p (s.after g p (if f.px.isSome then 2 else 1))) ∧
      ((∃ i < 64, g.laneOn p f.px i = true) → Touched s t gid k (s.nextId + 1) ∧ EntriesMarked s t g.part (coreOf gid) acc pl ∧
        ∃ op, ∃ w : Nat → Nat → Word, ∃ x : Nat → Nat,
        Issued k { g with cnt := { g.cnt with c0 := g.cnt.c0 + 1 }, pend := [(s.nextId, op)] } p (s.after g p (if f.px.isSome then 2 else 1)) ∧ Fresh op p .load 0 ∧
        (∀ d, d ∈ op.dests ↔ ∃ i < 64, ∃ j < 4, g.laneOn p f.px i = true ∧
          d = { reg := vName (f.vd.toNat + j), lane := i, val := w i j }) ∧
        (∀ i, acc i 0 → ReadsAs s gid g p false (pl i 0) 16 (x i)) ∧
        ∀ i < 64, g.laneOn p f.px i = true → ∀ j < 4, ∀ t < q, ∀ r,
          r = 16 * (i / 16) + 4 * q * (i % 16 / (4 * q)) + q * j + t →
          bits (w i j).toNat (8 * z * t) (8 * z) =
            if g.laneOn p f.px r then bits (x r) (8 * z * (i % 16 % (4 * q))) (8 * z) else 0)) ∧
  (∀ (s : State) (gid : Nat) (g : Group) (p : Split) (f : Pfl), Ready s gid g p → pxScope f.px = 0 → (f.en = true → g.HasV [f.off.toNat]) → g.HasS [2 * f.k.toNat, 2 * f.k.toNat + 1] →
    ∃ k t, exec (.pfl f) s = .next t ∧ Touched s t gid k s.nextId ∧ Issued k g p (s.after g p (if f.px.isSome then 2 else 1)) ∧
      ∀ a, t.byte a = s.byte a ∨ t.byte a = s.byte a ||| 0x40)))

/-- The vector stores and stx (R260, R261, R263, R212, R213, R274, R277, R353, R360). In every ready group with room on c1 and
a legal scope, when each Active lane's access passes the checks, no page is duplicated, and none of its stores meets an
entry that another was translated by on a keyed page: each vector store and stx goes to the next word; with no Active
lane it changes nothing else; otherwise it counts one more on c1, the bytes at each Active lane's place are those of its
data register where no other lane stores, at the home or, for a weak store of a line that the cluster's L1 holds, in
that copy; the A bits of the entries that walks found are set; every other byte outside the stored ones reads as before,
and no register or flag changes. A store that goes to a home goes to one for which the cluster's L1 has nothing of its
lines. That a store acts when it issues is the model's choice of log entry 6. -/
def Obligations.VectorStores : Prop :=
  (∀ e ∈ storeOps, ∀ (s : State) (gid : Nat) (g : Group) (p : Split) (f : Vmem) (pl : Nat → Nat → Place) (acc : Nat → Nat → Prop), Ready s gid g p →
    (∀ i j, acc i j ↔ i < 64 ∧ j = 0 ∧ g.laneOn p f.px i = true) → g.ScopeOk f.px (strongAtt f.att) →
    g.HasV (upFrom f.vd.toNat e.2.2) → (f.en = true → g.HasV [f.off.toNat]) → g.HasS [2 * f.k.toNat, 2 * f.k.toNat + 1] → g.cnt.c1 < 255 → s.NoReplicas →
    (∀ i j, acc i j → Reaches s gid g .write e.2.1 (g.laneAddr f.px f.k.toNat (if f.en then some f.off.toNat else none) i) (pl i j) ∧
      (GoesHome s (clusterOf (coreOf gid)) (strongAtt f.att) (pl i j) e.2.1 ∨ StaysIn s (clusterOf (coreOf gid)) (strongAtt f.att) (pl i j) e.2.1)) →
    StoresApart s (coreOf gid) (strongAtt f.att) acc e.2.1 pl →
    ∃ k t, exec (e.1 f) s = .next t ∧
      ((∀ i < 64, g.laneOn p f.px i = false) → t = s.setGroup gid k ∧ Issued k g p (s.after g p (if f.px.isSome then 2 else 1))) ∧
      ((∃ i < 64, g.laneOn p f.px i = true) → Wrote s t gid k (s.nextId + 1) ∧ ∃ op,
        Issued k { g with cnt := { g.cnt with c1 := g.cnt.c1 + 1 }, pend := [(s.nextId, op)] } p (s.after g p (if f.px.isSome then 2 else 1)) ∧ Fresh op p .store 1 ∧
        op.dests = [] ∧ (∀ l, l ∈ op.lines ↔ ∃ i j, acc i j ∧ l ∈ (pl i j).lines e.2.1) ∧
        BytesStored s t g.part (coreOf gid) (strongAtt f.att) acc e.2.1 pl (fun i _ b => g.dataByte f.vd.toNat i b))) ∧
  (∀ (s : State) (gid : Nat) (g : Group) (p : Split) (f : Vmem) (n : Nat) (pl : Nat → Nat → Place) (acc : Nat → Nat → Prop), Ready s gid g p → n = g.mXw + 2 → g.mXw ≠ 3 →
    (∀ i j, acc i j ↔ i < 64 ∧ j < n ∧ g.laneOn p f.px i = true) → g.ScopeOk f.px (strongAtt f.att) →
    g.HasGroups [(f.vd.toNat, n)] → (f.en = true → g.HasV [f.off.toNat]) → g.HasS (upFrom (2 * f.k.toNat) 4) → g.cnt.c1 < 255 → s.NoReplicas →
    (∀ i j, acc i j → Reaches s gid g .write 4 (g.xAddr f n i j) (pl i j) ∧
      (GoesHome s (clusterOf (coreOf gid)) (strongAtt f.att) (pl i j) 4 ∨ StaysIn s (clusterOf (coreOf gid)) (strongAtt f.att) (pl i j) 4)) →
    StoresApart s (coreOf gid) (strongAtt f.att) acc 4 pl →
    ∃ k t, exec (.stx f) s = .next t ∧
      ((∀ i < 64, g.laneOn p f.px i = false) → t = s.setGroup gid k ∧ Issued k g p (s.after g p (if f.px.isSome then 2 else 1))) ∧
      ((∃ i < 64, g.laneOn p f.px i = true) → Wrote s t gid k (s.nextId + 1) ∧ ∃ op,
        Issued k { g with cnt := { g.cnt with c1 := g.cnt.c1 + 1 }, pend := [(s.nextId, op)] } p (s.after g p (if f.px.isSome then 2 else 1)) ∧ Fresh op p .store 1 ∧
        op.dests = [] ∧ (∀ l, l ∈ op.lines ↔ ∃ i j, acc i j ∧ l ∈ (pl i j).lines 4) ∧
        BytesStored s t g.part (coreOf gid) (strongAtt f.att) acc 4 pl (fun i j b => g.dataByte (f.vd.toNat + j) i b)))

/-- sld, sst and swaitl (R268, R270, R263, R353, R403, R77, R275, R277). In every ready group, when the one access passes the
checks: sld of n words goes to the next word, counts on c0 and owes sd and the registers after it the words that it
read; sst counts on c1, leaves the words of its registers at its place, and every other byte as before; swaitl ends at
once with the word in sd when it differs from the old value, and otherwise waits for the line; each sets the A bit of
the entry that a walk found; an acquire synchronises the group; no register or flag beside these changes. A strong
access goes to a home for which the cluster's L1 has nothing of its lines. That an access acts when it issues is the
model's choice of log entries 6 and 7. -/
def Obligations.UniformLoads : Prop :=
  (∀ e ∈ [(Instr.sldW, 1), (Instr.sldW2, 2), (Instr.sldW4, 4), (Instr.sldW8, 8)], ∀ (s : State) (gid : Nat) (g : Group) (p : Split) (f : Smem) (pl : Place), Ready s gid g p →
    g.ScopeOk f.px (strongAtt f.att) → NoMask f.px →
    g.HasS ([2 * f.k.toNat, 2 * f.k.toNat + 1] ++ upFrom f.sd.toNat e.2) → Reaches s gid g .read (4 * e.2) (g.uniAddr f) pl → g.cnt.c0 < 255 →
    (strongAtt f.att = true → Unsent s (clusterOf (coreOf gid)) pl (4 * e.2)) →
    ∃ k t op x, exec (e.1 f) s = .next t ∧ Visited s t gid g k (s.nextId + 1) pl ∧
      Issued k { g with cnt := { g.cnt with c0 := g.cnt.c0 + 1 }, pend := [(s.nextId, op)], syncAt := if f.att = 3 then s.tick else g.syncAt } p
        (s.after g p (if f.px.isSome then 2 else 1)) ∧ Fresh op p .load 0 ∧
      ReadsAs s gid g p (strongAtt f.att) pl (4 * e.2) x ∧ OwesWords op f.sd.toNat e.2 x) ∧
  (∀ e ∈ [(Instr.sstW, 1), (Instr.sstW2, 2), (Instr.sstW4, 4)], ∀ (s : State) (gid : Nat) (g : Group) (p : Split) (f : Smem) (pl : Place), Ready s gid g p →
    g.ScopeOk f.px (strongAtt f.att) → NoMask f.px →
    g.HasS ([2 * f.k.toNat, 2 * f.k.toNat + 1] ++ upFrom f.sd.toNat e.2) → Reaches s gid g .write (4 * e.2) (g.uniAddr f) pl → g.cnt.c1 < 255 → s.NoReplicas →
    (GoesHome s (clusterOf (coreOf gid)) (strongAtt f.att) pl (4 * e.2) ∨ StaysIn s (clusterOf (coreOf gid)) (strongAtt f.att) pl (4 * e.2)) →
    StoresApart s (coreOf gid) (strongAtt f.att) OneAcc (4 * e.2) (fun _ _ => pl) →
    ∃ k t op, exec (e.1 f) s = .next t ∧ Wrote s t gid k (s.nextId + 1) ∧
      Issued k { g with cnt := { g.cnt with c1 := g.cnt.c1 + 1 }, pend := [(s.nextId, op)] } p (s.after g p (if f.px.isSome then 2 else 1)) ∧ Fresh op p .store 1 ∧
      op.dests = [] ∧ BytesStored s t g.part (coreOf gid) (strongAtt f.att) OneAcc (4 * e.2) (fun _ _ => pl)
        (fun _ _ b => (g.sreg (f.sd.toNat + b / 4)).extractLsb' (8 * (b % 4)) 8)) ∧
  (∀ (s : State) (gid : Nat) (g : Group) (p : Split) (f : Smem) (pl : Place) (w : Word), Ready s gid g p →
    g.ScopeOk f.px true → NoMask f.px →
    g.HasS ([2 * f.k.toNat, 2 * f.k.toNat + 1] ++ upFrom f.sd.toNat 1) → Reaches s gid g .read 4 (g.uniAddr f) pl →
    Unsent s (clusterOf (coreOf gid)) pl 4 → w = BitVec.ofNat 32 (ofBytes (s.readAt pl 4)) →
    (w ≠ g.sreg f.sd.toNat → ∃ k t, exec (.swaitl f) s = .next t ∧ Visited s t gid g k s.nextId pl ∧
      Issued k ({ g with syncAt := if f.att = 3 then s.tick else g.syncAt }.setSreg f.sd.toNat w) p (s.after g p (if f.px.isSome then 2 else 1))) ∧
    (w = g.sreg f.sd.toNat → ∃ k, exec (.swaitl f) s = .next (s.setGroup gid k) ∧
      Waits k g p (.lineWord (g.uniAddr f) w (s.clock + 65536)) (encode (.swaitl f)) true s.clock))

/-- The atomics (R269, R309, R310, R311, R312, R77, R277, R353). In every ready group with room on c1 and a legal scope, when no
page is duplicated and each access passes the checks as a write to a home for which the cluster's L1 has nothing of its
lines: satadd, satcas and each vector atomic go to the next word, count on c1 (a vector atomic with no Active lane
changes nothing else), and the bytes at each access's place become the new value of the old one and its data where no
other lane meets it; the outstanding operation owes the old values to sd, or to vd under ret; one with both orderings
synchronises the group; the A bits of the entries that walks found are set; every other byte of memory and every
register and flag is unchanged. That an atomic acts when it issues is the model's choice of log entries 6 and 7. -/
def Obligations.Atomics : Prop :=
  (∀ e ∈ uniformAtomics, ∀ (s : State) (gid : Nat) (g : Group) (p : Split) (f : Smem) (pl : Place) (old new : Word), Ready s gid g p →
    g.ScopeOk f.px true → NoMask f.px →
    g.HasS ([2 * f.k.toNat, 2 * f.k.toNat + 1] ++ upFrom f.sd.toNat e.2.1) → Reaches s gid g .atomic 4 (g.uniAddr f) pl → g.cnt.c1 < 255 → s.NoReplicas →
    Unsent s (clusterOf (coreOf gid)) pl 4 → StoresApart s (coreOf gid) true OneAcc 4 (fun _ _ => pl) →
    MarksApart s OneAcc 4 (fun _ _ => pl) →
    old = BitVec.ofNat 32 (ofBytes (s.readAt pl 4)) →
    new = e.2.2 old (g.sreg f.sd.toNat) (g.sreg (f.sd.toNat + 1)) →
    ∃ k t op, exec (e.1 f) s = .next t ∧ Wrote s t gid k (s.nextId + 1) ∧
      Issued k { g with cnt := { g.cnt with c1 := g.cnt.c1 + 1 }, pend := [(s.nextId, op)], syncAt := if f.att = 3 then s.tick else g.syncAt } p
        (s.after g p (if f.px.isSome then 2 else 1)) ∧ Fresh op p .atomic 1 ∧
      OwesWords op f.sd.toNat 1 old.toNat ∧
      BytesStored s t g.part (coreOf gid) true OneAcc 4 (fun _ _ => pl) (fun _ _ b => new.extractLsb' (8 * b) 8)) ∧
  (∀ e ∈ atomOps, ∀ (s : State) (gid : Nat) (g : Group) (p : Split) (f : Atom) (pl : Nat → Nat → Place) (acc : Nat → Nat → Prop), Ready s gid g p →
    (∀ i j, acc i j ↔ i < 64 ∧ j = 0 ∧ g.laneOn p f.px i = true) → g.ScopeOk f.px true →
    (e.2.2.1 = true → g.mType = 8 ∨ g.mType = 9) → g.HasV (upFrom f.vd.toNat e.2.1.2.1) →
    (f.off ≠ 0 → g.HasV [f.off.toNat]) → g.HasS [2 * f.k.toNat, 2 * f.k.toNat + 1] → g.cnt.c1 < 255 → s.NoReplicas →
    (∀ i j, acc i j → Reaches s gid g .atomic e.2.1.1
      (g.laneAddr f.px f.k.toNat (if f.off = 0 then none else some f.off.toNat) i) (pl i j) ∧
      Unsent s (clusterOf (coreOf gid)) (pl i j) e.2.1.1) →
    StoresApart s (coreOf gid) true acc e.2.1.1 pl → MarksApart s acc e.2.1.1 pl →
    ∃ k t, exec (e.1 f) s = .next t ∧
      ((∀ i < 64, g.laneOn p f.px i = false) → t = s.setGroup gid k ∧ Issued k g p (s.after g p (if f.px.isSome then 2 else 1))) ∧
      ((∃ i < 64, g.laneOn p f.px i = true) → Wrote s t gid k (s.nextId + 1) ∧ ∃ op, ∃ old : Nat → Nat,
        Issued k { g with cnt := { g.cnt with c1 := g.cnt.c1 + 1 }, pend := [(s.nextId, op)], syncAt := if f.order then s.tick else g.syncAt } p
          (s.after g p (if f.px.isSome then 2 else 1)) ∧ Fresh op p .atomic 1 ∧
        (∀ d, d ∈ op.dests ↔ f.ret = true ∧ ∃ i < 64, ∃ j < e.2.1.2.2, g.laneOn p f.px i = true ∧
          d = { reg := vName (f.vd.toNat + j), lane := i, val := BitVec.ofNat 32 (old i / 2 ^ (32 * j)) }) ∧
        (∀ i < 64, g.laneOn p f.px i = true →
          (∀ i' < 64, g.laneOn p f.px i' = true → i' ≠ i →
            ∀ a, ¬((pl i 0).covers e.2.1.1 a ∧ (pl i' 0).covers e.2.1.1 a) ∧
              ¬((pl i 0).coversSpad e.2.1.1 a ∧ (pl i' 0).coversSpad e.2.1.1 a)) →
          old i = ofBytes (s.readAt (pl i 0) e.2.1.1)) ∧
        BytesStored s t g.part (coreOf gid) true acc e.2.1.1 pl (fun i _ b => BitVec.ofNat 8
          (e.2.2.2 (fmtOf g.mType) (old i) (g.vreg f.vd.toNat i).toNat (g.vreg (f.vd.toNat + 1) i).toNat / 2 ^ (8 * b)))))

/-- The matrix instructions at issue (R232, R235, R236, R237, R238, R239, R240, R244, R249, R251, R299). In every ready group
of the matrix role whose operands are allocated and whose windows pass the checks of R238, exec of each of mma, mmag, mmas,
accz, accfold, tzero, accld, drain, draint, tld, tldt, tldg, accwr, accrd and amax answers a next state: each of the first
fourteen, the engine instructions, goes to the next word and stands at the end of the group's matrix queue, unstarted, with
its format word, window records, gathered rows, LSCALE and OVTAB as they are at issue, with a lock entry for each window,
and counted on c3 where the table of R240 says so, and the engine takes it from there as MatrixEngine states; accrd also
owes its Active lanes; amax gives sd the register as drained so far and sets AMAXSEL, with the rows of the oldest drain of
the accumulator that is not complete, started or not; no register, tile, accumulator, flag or byte of memory changes
otherwise. Without an Active lane, each of the five instructions with a format word, with whatever operands and prefix it
takes, goes to the next word and changes nothing. That a lock entry covers the whole window, BASE to BASE + EXTENT, is
the model's reading of R239, R244 and R299 (log entry 112). -/
def Obligations.MatrixIssue : Prop :=
  (∀ (s : State) (gid : Nat) (g : Group) (p : Split) (f : Mma) (x : Team) (w : Word), Ready s gid g p → matImm f.px = 0 → g.HasA [f.acc.toNat] → g.HasT [f.ta.toNat, f.tb.toNat] → g.HasV [f.vf.toNat] → g.FormatWord p f.vf.toNat w true (fwTiles w f.ta.toNat f.tb.toNat) → MatrixReady s gid g x [] false →
    ∃ t, exec (.mma f) s = .next t ∧ Enqueued s t gid g p (if f.px.isSome then 2 else 1) x (.mma f.acc.toNat f.ta.toNat f.tb.toNat) w [] false) ∧
  (∀ (s : State) (gid : Nat) (g : Group) (p : Split) (f : Mmag) (x : Team) (w : Word), Ready s gid g p → g.HasA [f.acc.toNat] → g.HasT [f.tb.toNat] → g.HasV [f.vf.toNat, f.vf.toNat + 1] → g.HasS (upFrom (4 * f.q.toNat) 4) → g.FormatWord p f.vf.toNat w false [] → MatrixReady s gid g x [plainUse f.q.toNat false (g.windowAt f.q.toNat) (matImm f.px) (g.gathered (f.vf.toNat + 1)) (32) false] true →
    ∃ t, exec (.mmag f) s = .next t ∧ Enqueued s t gid g p (if f.px.isSome then 2 else 1) x (.mmag f.acc.toNat f.tb.toNat (g.gathered (f.vf.toNat + 1))) w [plainUse f.q.toNat false (g.windowAt f.q.toNat) (matImm f.px) (g.gathered (f.vf.toNat + 1)) (32) false] true) ∧
  (∀ (s : State) (gid : Nat) (g : Group) (p : Split) (f : Mmas) (x : Team) (w : Word), Ready s gid g p → g.HasA [f.acc.toNat] → g.HasV [f.vf.toNat] → g.HasS (upFrom (4 * f.qa.toNat) 4 ++ upFrom (4 * f.qb.toNat) 4) → g.FormatWord p f.vf.toNat w false [] → MatrixReady s gid g x [plainUse f.qa.toNat false (g.windowAt f.qa.toNat) 0 (List.range 16) (32 * (matImm f.px + 1)) false, plainUse f.qb.toNat true (g.windowAt f.qb.toNat) 0 (List.range 16) (32 * (matImm f.px + 1)) false] true →
    ∃ t, exec (.mmas f) s = .next t ∧ Enqueued s t gid g p (if f.px.isSome then 2 else 1) x (.mmas f.acc.toNat (matImm f.px + 1)) w [plainUse f.qa.toNat false (g.windowAt f.qa.toNat) 0 (List.range 16) (32 * (matImm f.px + 1)) false, plainUse f.qb.toNat true (g.windowAt f.qb.toNat) 0 (List.range 16) (32 * (matImm f.px + 1)) false] true) ∧
  (∀ (s : State) (gid : Nat) (g : Group) (p : Split) (f : AccOp) (x : Team) , Ready s gid g p → matImm f.px = 0 → g.HasA [f.acc.toNat] → MatrixReady s gid g x [] false →
    ∃ t, exec (.accz f) s = .next t ∧ Enqueued s t gid g p (if f.px.isSome then 2 else 1) x (.accz f.acc.toNat) 0 [] false) ∧
  (∀ (s : State) (gid : Nat) (g : Group) (p : Split) (f : AccOp) (x : Team) , Ready s gid g p → matImm f.px = 0 → g.HasA [f.acc.toNat] → MatrixReady s gid g x [] false →
    ∃ t, exec (.accfold f) s = .next t ∧ Enqueued s t gid g p (if f.px.isSome then 2 else 1) x (.accfold f.acc.toNat) 0 [] false) ∧
  (∀ (s : State) (gid : Nat) (g : Group) (p : Split) (f : Tzero) (x : Team) , Ready s gid g p → matImm f.px = 0 → g.HasT [f.td.toNat] → MatrixReady s gid g x [] false →
    ∃ t, exec (.tzero f) s = .next t ∧ Enqueued s t gid g p (if f.px.isSome then 2 else 1) x (.tzero f.td.toNat) 0 [] false) ∧
  (∀ (s : State) (gid : Nat) (g : Group) (p : Split) (f : Accld) (x : Team) , Ready s gid g p → g.HasA [f.acc.toNat] → g.HasS (upFrom (4 * f.q.toNat) 4) → MatrixReady s gid g x [plainUse f.q.toNat false (g.windowAt f.q.toNat) (matImm f.px) (List.range (if f.res then 32 else 16)) (64) false] true →
    ∃ t, exec (.accld f) s = .next t ∧ Enqueued s t gid g p (if f.px.isSome then 2 else 1) x (.accld f.acc.toNat f.res) 0 [plainUse f.q.toNat false (g.windowAt f.q.toNat) (matImm f.px) (List.range (if f.res then 32 else 16)) (64) false] true) ∧
  (∀ (s : State) (gid : Nat) (g : Group) (p : Split) (f : Drain) (x : Team) (w : Word), Ready s gid g p → g.HasA [f.acc.toNat] → g.HasV [f.vf.toNat] → g.HasS (upFrom (4 * f.q.toNat) 4) → g.FormatWord p f.vf.toNat w true (scaleTile w) → MatrixReady s gid g x [drainUse f.q.toNat false (g.windowAt f.q.toNat) (matImm f.px) w] true →
    ∃ t, exec (.drain f) s = .next t ∧ Enqueued s t gid g p (if f.px.isSome then 2 else 1) x (.drain f.acc.toNat false) w [drainUse f.q.toNat false (g.windowAt f.q.toNat) (matImm f.px) w] true) ∧
  (∀ (s : State) (gid : Nat) (g : Group) (p : Split) (f : Mmas) (x : Team) (w : Word), Ready s gid g p → g.HasA [f.acc.toNat] → g.HasV [f.vf.toNat] → g.HasS (upFrom (4 * f.qa.toNat) 4 ++ upFrom (4 * f.qb.toNat) 4) → g.FormatWord p f.vf.toNat w true (scaleTile w) → MatrixReady s gid g x [drainUse f.qa.toNat false (g.windowAt f.qa.toNat) (matImm f.px) w, drainUse f.qb.toNat true (g.windowAt f.qb.toNat) (matImm f.px) w] true →
    ∃ t, exec (.draint f) s = .next t ∧ Enqueued s t gid g p (if f.px.isSome then 2 else 1) x (.drain f.acc.toNat true) w [drainUse f.qa.toNat false (g.windowAt f.qa.toNat) (matImm f.px) w, drainUse f.qb.toNat true (g.windowAt f.qb.toNat) (matImm f.px) w] true) ∧
  (∀ (s : State) (gid : Nat) (g : Group) (p : Split) (f : Tld) (x : Team) , Ready s gid g p → g.HasT [f.td.toNat] → g.HasS (upFrom (4 * f.q.toNat) 4) → MatrixReady s gid g x [plainUse f.q.toNat false (g.windowAt f.q.toNat) (matImm f.px) (List.range 16) (32) false] true →
    ∃ t, exec (.tld f) s = .next t ∧ Enqueued s t gid g p (if f.px.isSome then 2 else 1) x (.tld f.td.toNat) 0 [plainUse f.q.toNat false (g.windowAt f.q.toNat) (matImm f.px) (List.range 16) (32) false] true) ∧
  (∀ (s : State) (gid : Nat) (g : Group) (p : Split) (f : Tldt) (x : Team) , Ready s gid g p → g.HasT [f.td.toNat] → g.HasS (upFrom (4 * f.q.toNat) 4) → MatrixReady s gid g x [plainUse f.q.toNat false (g.windowAt f.q.toNat) (matImm f.px) (List.range (if f.esz then 16 else 32)) (if f.esz then 32 else 16) false] true →
    ∃ t, exec (.tldt f) s = .next t ∧ Enqueued s t gid g p (if f.px.isSome then 2 else 1) x (.tldt f.td.toNat f.esz) 0 [plainUse f.q.toNat false (g.windowAt f.q.toNat) (matImm f.px) (List.range (if f.esz then 16 else 32)) (if f.esz then 32 else 16) false] true) ∧
  (∀ (s : State) (gid : Nat) (g : Group) (p : Split) (f : Tldg) (x : Team) , Ready s gid g p → g.HasT [f.td.toNat] → g.HasV [f.vi.toNat] → g.HasS (upFrom (4 * f.q.toNat) 4) → MatrixReady s gid g x [plainUse f.q.toNat false (g.windowAt f.q.toNat) (matImm f.px) (g.gathered f.vi.toNat) (32) false] true →
    ∃ t, exec (.tldg f) s = .next t ∧ Enqueued s t gid g p (if f.px.isSome then 2 else 1) x (.tldg f.td.toNat (g.gathered f.vi.toNat)) 0 [plainUse f.q.toNat false (g.windowAt f.q.toNat) (matImm f.px) (g.gathered f.vi.toNat) (32) false] true) ∧
  (∀ (s : State) (gid : Nat) (g : Group) (p : Split) (f : AccRow) (x : Team), Ready s gid g p → matImm f.px = 0 → g.HasA [f.acc.toNat] →
    g.HasV (upFrom f.v.toNat (if g.width = 8 then 2 else 1)) → (g.width = 8 → f.v.toNat % 2 = 0) →
    MatrixReady s gid g x [] false →
    ∃ t ws, exec (.accwr f) s = .next t ∧
      Enqueued s t gid g p (if f.px.isSome then 2 else 1) x (.accwr f.acc.toNat f.half f.row.toNat (g.activeMask p.mask .guard) ws) 0 [] false ∧
      ∀ k < (if g.width = 8 then 2 else 1), ∀ i < 64, ws.getD (64 * k + i) 0 = g.vreg (f.v.toNat + k) i) ∧
  (∀ (s : State) (gid : Nat) (g : Group) (p : Split) (f : AccRow) (x : Team), Ready s gid g p → matImm f.px = 0 → g.HasA [f.acc.toNat] →
    g.HasV (upFrom f.v.toNat (if g.width = 8 then 2 else 1)) → (g.width = 8 → f.v.toNat % 2 = 0) →
    MatrixReady s gid g x [] true →
    ∃ k op pe, exec (.accrd f) s = .next ({ s with nextId := s.nextId + 1 }.setGroup gid k) ∧
      Issued k { g with matq := g.matq ++ [op], cnt := { g.cnt with c3 := g.cnt.c3 + 1 }, pend := [(s.nextId, pe)] } p
        (s.after g p (if f.px.isSome then 2 else 1)) ∧
      op.kind = .accrd f.acc.toNat f.half f.row.toNat f.v.toNat (g.activeMask p.mask .guard) s.nextId ∧ op.started = false ∧
      op.counted = false ∧ op.locks = [] ∧ Fresh pe p .late 3 ∧
      ∀ d, d ∈ pe.dests ↔ ∃ j < (if g.width = 8 then 2 else 1), ∃ i < 64, inMask (g.activeMask p.mask .guard) i = true ∧
        d = { reg := vName (f.v.toNat + j), lane := i, val := 0 }) ∧
  (∀ (s : State) (gid : Nat) (g : Group) (p : Split), Ready s gid g p → g.role = .matrix →
    (∀ i < 64, inMask (g.activeMask p.mask .guard) i = false) →
    (∀ f : Mma, matImm f.px = 0 → g.HasA [f.acc.toNat] → g.HasT [f.ta.toNat, f.tb.toNat] → g.HasV [f.vf.toNat] →
      ∃ k, exec (.mma f) s = .next (s.setGroup gid k) ∧ Issued k g p (s.after g p (if f.px.isSome then 2 else 1))) ∧
    (∀ f : Mmag, g.HasA [f.acc.toNat] → g.HasT [f.tb.toNat] → g.HasV [f.vf.toNat, f.vf.toNat + 1] → g.HasS (upFrom (4 * f.q.toNat) 4) →
      ∃ k, exec (.mmag f) s = .next (s.setGroup gid k) ∧ Issued k g p (s.after g p (if f.px.isSome then 2 else 1))) ∧
    (∀ c ∈ [Instr.mmas, .draint], ∀ f : Mmas, g.HasA [f.acc.toNat] → g.HasV [f.vf.toNat] →
      g.HasS (upFrom (4 * f.qa.toNat) 4 ++ upFrom (4 * f.qb.toNat) 4) →
      ∃ k, exec (c f) s = .next (s.setGroup gid k) ∧ Issued k g p (s.after g p (if f.px.isSome then 2 else 1))) ∧
    (∀ f : Drain, g.HasA [f.acc.toNat] → g.HasV [f.vf.toNat] → g.HasS (upFrom (4 * f.q.toNat) 4) →
      ∃ k, exec (.drain f) s = .next (s.setGroup gid k) ∧ Issued k g p (s.after g p (if f.px.isSome then 2 else 1)))) ∧
  (∀ (s : State) (gid : Nat) (g : Group) (p : Split) (f : MAmax), Ready s gid g p → g.role = .matrix → matImm f.px = 0 → g.HasA [f.acc.toNat] → g.HasS [f.sd.toNat] →
    ∃ k sel, exec (.matrixAmax f) s = .next (s.setGroup gid k) ∧
      Issued k ({ g with amaxSel := sel }.setSreg f.sd.toNat (smapGet 0 g.amax f.acc.toNat)) p (s.after g p (if f.px.isSome then 2 else 1)) ∧
      ((∀ op ∈ g.matq, ∀ tr, op.kind ≠ .drain f.acc.toNat tr) → sel = BitVec.ofNat 9 (64 * f.acc.toNat + 16)) ∧
      ∀ l op r tr, g.matq = l ++ op :: r → (∀ o ∈ l, ∀ tr', o.kind ≠ .drain f.acc.toNat tr') → op.kind = .drain f.acc.toNat tr →
        sel = BitVec.ofNat 9 (64 * f.acc.toNat + 32 + op.done))

/-- The matrix engine and its accumulation step (R232, R239, R241, R242, R243, R244, R245, R246, R247, R249, R250,
R251). For the oldest matrix instruction of a running group: the engine starts it once it holds its locks; a step of a
product makes every element of its accumulator what R241 says and adds OVF and TR; a step of a drain writes its packed
row, in DMODE 1 also the residual's, for draint also the transposed ones, each with its scale in the row or, with SP, in
the scale area, writes no other byte, raises the amax register and adds OVF; a completion releases the locks, counts
down c3, takes the instruction off the queue, and loads, folds, zeroes or moves what the instruction names; a read of
poisoned data is noted; nothing else of the group changes. That in DMODE 1 a NaN counts in its own array alone is the
model's choice of log entry 109. For every row of A, row of B, main and residual word: a NaN among
the terms, a product of zero and infinity, or infinities of both signs give the canonical NaN and residual +0, with
OVF.INV when no term is a NaN; infinities of one sign give that infinity; otherwise the main word is the sum of the
terms, each truncated toward zero to a multiple of 2^(X−95), rounded once, TR says whether a term changed, and the
residual takes the rounded error of the main word when RES is 1, and is +0 after an overflow. -/
def Obligations.MatrixEngine : Prop :=
  (((∀ (s : State) (gid : Nat) (g : Group) (x : Team) (op : MatOp) (r : List MatOp), Oldest s gid g x op r →
    (op.started = false → op.waitsLocks = false →
      exec (.matrixExecute gid) s = .next (s.setGroup gid { g with matq := { op with started := true } :: r })) ∧
    (op.started = true → exec (.matrixExecute gid) s = .next s)) ∧
  (∀ (s : State) (gid : Nat) (g : Group) (x : Team) (op : MatOp) (r : List MatOp), Oldest s gid g x op r → ∀ (d : Nat) (a b : List (List FVal)) (y : Nat → Nat → AccRes), stepOperands s g x op = some (d, a, b) →
    op.started = true → op.done < op.kind.steps →
    (∀ m n, y m n = stepElem (a.getD m []) (b.getD n []) (g.acc d false (16 * m + n)).toNat (g.acc d true (16 * m + n)).toNat
      (fwRes op.fmt)) →
    ∃ k, exec (.matrixStep gid) s = .next (s.setGroup gid k) ∧
      k = { g with accs := k.accs, ovf := k.ovf, flags := k.flags, poisoned := k.poisoned,
                   matq := { op with done := op.done + 1 } :: r } ∧ MatNotes s g k x op ∧
      (∀ m < 16, ∀ n < 16, k.acc d false (16 * m + n) = BitVec.ofNat 32 (y m n).m ∧
        k.acc d true (16 * m + n) = BitVec.ofNat 32 (y m n).r) ∧
      (∀ e, e ≠ d → ∀ h, ∀ i < 256, k.acc e h i = g.acc e h i) ∧
      (∀ j, k.ovf.getLsbD j = true ↔ g.ovf.getLsbD j = true ∨ ∃ m < 16, ∃ n < 16, (y m n).ovf.getLsbD j = true) ∧
      (∀ j, k.flags.getLsbD j = true ↔
        g.flags.getLsbD j = true ∨ flagTR.getLsbD j = true ∧ ∃ m < 16, ∃ n < 16, (y m n).tr = true)) ∧
  (∀ (s : State) (gid : Nat) (g : Group) (x : Team) (op : MatOp) (r : List MatOp), Oldest s gid g x op r → ∀ (d : Nat) (tr : Bool), op.kind = .drain d tr → op.started = true → op.done < 16 →
    ∃ k sp po, exec (.matrixStep gid) s = .next { s.setGroup gid k with spad := sp, spadPoison := po } ∧
      k = { g with ovf := k.ovf, amax := k.amax, poisoned := k.poisoned, matq := { op with done := op.done + 1 } :: r } ∧
      MatNotes s g k x op ∧
      (∀ a, a ≠ d → smapGet 0 k.amax a = smapGet 0 g.amax a) ∧
      (smapGet 0 k.amax d).toNat = (List.range 16).foldl (fun m c => amaxStep m (g.drainAt op d false op.done c))
        (smapGet 0 g.amax d).toNat ∧
      (∀ j, k.ovf.getLsbD j = true ↔ g.ovf.getLsbD j = true ∨ ∃ w row vs, DrainJob g op d tr op.done w row vs ∧
        ((j = 2 ∧ (drainRow op.fmt op.ovtab vs).2.2 = true) ∨ (j = 1 ∧ ∃ v ∈ vs, v.inv = true))) ∧
      (∀ w row vs a v, DrainJob g op d tr op.done w row vs → DrainByte x op w row vs a v →
        (∀ w' row' vs' v', DrainJob g op d tr op.done w' row' vs' → DrainByte x op w' row' vs' a v' → v' = v) →
        smapGet memDefault sp a = v) ∧
      ∀ a, (∀ w row vs v, DrainJob g op d tr op.done w row vs → ¬DrainByte x op w row vs a v) →
        smapGet memDefault sp a = s.sbyte a) ∧
  (∀ (s : State) (gid : Nat) (g : Group) (x : Team) (op : MatOp) (r : List MatOp), Oldest s gid g x op r → op.started = true → op.done = op.kind.steps → (∀ d h row v m id, op.kind ≠ .accrd d h row v m id) →
    ∃ k, exec (.matrixComplete gid) s =
        .next ({ s with locks := s.locks.filter fun e => !(op.locks.contains e.1) }.setGroup gid k) ∧
      k = { g with accs := k.accs, tiles := k.tiles, amax := k.amax, matq := r, bad := k.bad, poisoned := k.poisoned,
                   cnt := if op.counted then { g.cnt with c3 := g.cnt.c3 - 1 } else g.cnt } ∧
      (op.kind.steps = 0 → MatNotes s g k x op) ∧ (0 < op.kind.steps → k.poisoned = g.poisoned) ∧
      (∀ b, b ∈ k.bad ↔ b ∈ g.bad ∧ op.renews g.width (accRegs g) b = false) ∧ Loaded s g k x op) ∧
  (∀ (s : State) (gid : Nat) (g : Group) (x : Team) (op : MatOp) (r : List MatOp), Oldest s gid g x op r → ∀ (d : Nat) (h : Bool) (row v : Nat) (m : DWord) (id : Nat) (pe : PendOp), op.kind = .accrd d h row v m id →
    tabGet g.pend id = some pe → op.counted = false → op.started = true → op.done = 0 →
    m = m &&& maskBelow g.width →
    ∃ k, exec (.matrixComplete gid) s = .next ({ s with serial := s.serial + 128, locks := s.locks.filter fun e =>
          !(op.locks.contains e.1) }.setGroup gid k) ∧
      k = { g with vregs := k.vregs, matq := r, cnt := { g.cnt with c3 := g.cnt.c3 - 1 }, pend := smapErase g.pend id,
                   poisoned := k.poisoned } ∧ MatNotes s g k x op ∧
      ∀ u, ∀ i < 64, (hitLane pe.clobbered (vName u) i = true ∧ k.vreg u i = g.vreg u i) ∨ k.vreg u i =
        if inMask m i = true ∧ u = v then
          g.acc d h (if g.width = 8 then 16 * row + i else 16 * ((row + i / 16) % 16) + i % 16)
        else if inMask m i = true ∧ u = v + 1 ∧ g.width = 8 then g.acc d h (16 * row + 8 + i) else g.vreg u i))) ∧
  (((∀ (a b : List FVal) (m r : Nat) (res : Bool), ((∃ x ∈ a, x.isNan = true) ∨ (∃ x ∈ b, x.isNan = true) ∨ fp32.isNan m = true) →
    a.length = b.length → stepElem a b m r res = { m := 0x7FC00000, r := 0, ovf := 0, tr := false }) ∧
  (∀ (a b : List FVal) (m r : Nat) (res : Bool), (∀ x ∈ a, x.isNan = false) → (∀ x ∈ b, x.isNan = false) → fp32.isNan m = false →
    (∃ c ∈ a.zip b, c.1.mul c.2 = none) → stepElem a b m r res = { m := 0x7FC00000, r := 0, ovf := 2, tr := false }) ∧
  (∀ (a b : List FVal) (ps : List FVal) (m r : Nat) (res n : Bool), (a.zip b).map (fun c => c.1.mul c.2) = ps.map some →
    (∀ x ∈ ps, x.isNan = false) → fp32.isNan m = false → FVal.inf n ∈ ps ++ [fp32.val m] →
    (FVal.inf (!n) ∈ ps ++ [fp32.val m] → stepElem a b m r res = { m := 0x7FC00000, r := 0, ovf := 2, tr := false }) ∧
    (FVal.inf (!n) ∉ ps ++ [fp32.val m] →
      stepElem a b m r res = { m := if n then 0xFF800000 else 0x7F800000, r := 0, ovf := 0, tr := false })) ∧
  (∀ (a b : List FVal) (ts : List Dy) (m r : Nat) (res : Bool) (x : Int),
    (a.zip b).map (fun c => c.1.mul c.2) ++ [some (fp32.val m)] = ts.map (fun d => some (.fin d)) →
    (∃ d ∈ ts, d.m ≠ 0 ∧ d.lead = x) → (∀ d ∈ ts, d.m ≠ 0 → d.lead ≤ x) →
    ∃ t : Dy, t.value = (ts.map (truncTo x)).sum ∧ (stepElem a b m r res).m = (fp32.arith .rne false t).code ∧
      ((stepElem a b m r res).tr = true ↔ ∃ d ∈ ts, truncTo x d ≠ d.value) ∧
      (fp32.isInf (stepElem a b m r res).m = true → (stepElem a b m r res).r = 0 ∧ (stepElem a b m r res).ovf = 1) ∧
      (fp32.isInf (stepElem a b m r res).m = false → res = false →
        (stepElem a b m r res).r = r ∧ (stepElem a b m r res).ovf = 0) ∧
      (fp32.isInf (stepElem a b m r res).m = false → res = true →
        ∃ e : Dy, e.value = t.value - (fp32.dy (stepElem a b m r res).m).value ∧
          (stepElem a b m r res).r = (opFadd fp32 .rne false r (fp32.arith .rne false e).code 0).code ∧
          (stepElem a b m r res).ovf = if fp32.isInf (stepElem a b m r res).r then 1 else 0)) ∧
  (∀ (a b : List FVal) (ts : List Dy) (m r : Nat),
    (a.zip b).map (fun c => c.1.mul c.2) ++ [some (fp32.val m)] = ts.map (fun d => some (.fin d)) → (∀ d ∈ ts, d.m = 0) →
    stepElem a b m r false = { m := if ts.all (·.neg) then 0x80000000 else 0, r := r, ovf := 0, tr := false })))

/-- The copy words, cstat and ccancel (R286, R287, R288, R289, R296, R297, R298, R299, R340). In every ready group of the
dealer role whose record passes the checks of R287, with room on c4, in the engine and in the lock table: each copy word goes
to the next word, gives sd the next tag, counts on c4, locks its spans and starts a copy as its record describes it, which
with a consumer mask takes over the claimed slot of its ring; cstat gives four registers the state, the bytes moved and a
failing address of the copy with a tag, or state 6; ccancel gives sd the state of the copy with a tag, or 6; an incomplete
copy without a mask it stops, which releases its locks and sets FAIL in the pot that it credits; one with a mask, or
published, takes trap 0x16; one that is retired, has failed or was cancelled it leaves as it is; no other register, flag or
byte of memory changes. That a copy keeps the privilege of its issue, that empty spans take no lock, which copies fill the
engine, that ccancel returns the state alone, and that a cancelled copy stays in state 4, are the model's choices of log
entries 25, 26, 31, 28 and 53. -/
def Obligations.CopiesStart : Prop :=
  (∀ e ∈ copyOps, ∀ (s : State) (gid : Nat) (g : Group) (p : Split) (f : Cpy) (c : Copy), Ready s gid g p → f.mask = 0 → c.slot = 0 → g.role = .dealer → matImm f.px = 0 → g.HasS (upFrom (8 * f.cr.toNat) 8 ++ [f.sd.toNat]) →
    RecordRead g gid c e.2 f.cr.toNat 0 →
    CopyChecked s gid g c (decide ((g.sreg (8 * f.cr.toNat + 7)).toNat % 2 ^ 12 ≠ 0)) → g.cnt.c4 < 255 →
    s.engineLoad (coreOf gid) < 32 →
    (s.spansOf (g.agent gid) c.spanList).length ≤ s.freeLocks (clusterOf (coreOf gid)) →
    ∃ t c', exec (e.1 f) s = .next t ∧ c' = { c with words := c'.words } ∧
      CopyStarted s t gid g p (if f.px.isSome then 2 else 1) c' f.sd.toNat) ∧
  (∀ e ∈ copyOps, ∀ (s : State) (gid : Nat) (g : Group) (p : Split) (f : Cpy) (c : Copy) (tid : Nat) (x : Team) (r : Ring), Ready s gid g p → f.mask ≠ 0 → g.team = some tid →
    s.team tid = some x → x.ring c.ring = some r → r.producer = some g.index → r.claimed = some c.slot →
    f.mask.toNat < 2 ^ r.pos.length → g.role = .dealer → matImm f.px = 0 → g.HasS (upFrom (8 * f.cr.toNat) 8 ++ [f.sd.toNat]) →
    RecordRead g gid c e.2 f.cr.toNat f.mask →
    CopyChecked s gid g c (decide ((g.sreg (8 * f.cr.toNat + 7)).toNat % 2 ^ 12 ≠ 0)) → g.cnt.c4 < 255 →
    s.engineLoad (coreOf gid) < 32 →
    (s.spansOf (g.agent gid) c.spanList).length ≤ s.freeLocks (clusterOf (coreOf gid)) →
    ∃ t c', exec (e.1 f) s = .next t ∧ c' = { c with words := c'.words } ∧
      CopyStarted (s.modRing tid c.ring fun q => { q with claimed := none }) t gid g p (if f.px.isSome then 2 else 1) c' f.sd.toNat) ∧
  (∀ (s : State) (gid : Nat) (g : Group) (p : Split) (f : Cpyx) (c : Copy), Ready s gid g p → c.slot = 0 → g.role = .dealer → matImm f.px = 0 → g.HasS (upFrom (8 * f.cr.toNat) 8 ++ [f.sd.toNat]) →
    RecordRead g gid c .cpyx f.cr.toNat 0 →
    CopyChecked s gid g c (decide ((g.sreg (8 * f.cr.toNat + 7)).toNat % 2 ^ 12 ≠ 0)) → g.cnt.c4 < 255 →
    s.engineLoad (coreOf gid) < 32 →
    (s.spansOf (g.agent gid) c.spanList).length ≤ s.freeLocks (clusterOf (coreOf gid)) →
    ∃ t c', exec (.cpyx f) s = .next t ∧ c' = { c with words := c'.words } ∧
      CopyStarted s t gid g p (if f.px.isSome then 2 else 1) c' f.sd.toNat) ∧
  (∀ (s : State) (gid : Nat) (g : Group) (p : Split) (f : CTag), Ready s gid g p → g.role = .dealer → matImm f.px = 0 → g.HasS (upFrom f.sd.toNat 4 ++ [f.sa.toNat]) →
    ((∀ e ∈ s.copies, e.2.gid = gid → e.2.tag ≠ (g.sreg f.sa.toNat).toNat) →
      ∃ k, exec (.cstat f) s = .next (s.setGroup gid k) ∧ Issued k (g.setSregs f.sd.toNat [6, 0, 0, 0]) p (s.after g p (if f.px.isSome then 2 else 1))) ∧
    (∀ e ∈ s.copies, e.2.gid = gid → e.2.tag = (g.sreg f.sa.toNat).toNat → e.2.tag < 2 ^ 16 →
      (∀ q ∈ s.copies, q.2.gid = gid → q.2.tag = e.2.tag → q = e) →
      ∃ k, exec (.cstat f) s = .next (s.setGroup gid k) ∧ Issued k (g.setSregs f.sd.toNat
        [BitVec.ofNat 32 (e.2.code + 2 ^ 8 * e.2.cause), BitVec.ofNat 32 e.2.pos,
         if e.2.cause = 0 then 0 else loWord e.2.badAddr, if e.2.cause = 0 then 0 else hiWord e.2.badAddr]) p
        (s.after g p (if f.px.isSome then 2 else 1)))) ∧
  (∀ (s : State) (gid : Nat) (g : Group) (p : Split) (f : CTag), Ready s gid g p → g.role = .dealer → matImm f.px = 0 → g.HasS [f.sd.toNat, f.sa.toNat] →
    ((∀ e ∈ s.copies, e.2.gid = gid → e.2.tag ≠ (g.sreg f.sa.toNat).toNat % 2 ^ 16) →
      ∃ k, exec (.ccancel f) s = .next (s.setGroup gid k) ∧ Issued k (g.setSreg f.sd.toNat 6) p (s.after g p (if f.px.isSome then 2 else 1))) ∧
    (∀ e ∈ s.copies, e.2.gid = gid → e.2.tag = (g.sreg f.sa.toNat).toNat % 2 ^ 16 →
      (∀ q ∈ s.copies, q.2.gid = gid → q.2.tag = e.2.tag → q = e) →
      (e.2.mask = 0 → e.2.cause = 0 → e.2.cancelled = false → (e.2.st = .moving ∨ e.2.st = .space ∨ e.2.st = .reserve) →
        ∃ k u, CopyPotFailed s u e.2 ∧ exec (.ccancel f) s = .next { u.setGroup gid k with
            locks := s.locks.filter (fun l => !(e.2.locks.contains l.1)),
            copies := smapInsert s.copies e.1 { e.2 with cancelled := true, locks := [] } } ∧
          Issued k (g.setSreg f.sd.toNat (if e.2.st = .space then 3 else 1)) p (s.after g p (if f.px.isSome then 2 else 1))) ∧
      ((e.2.st = .retired ∨ (e.2.mask = 0 ∧ e.2.st ≠ .published ∧ (e.2.cause ≠ 0 ∨ e.2.cancelled = true))) →
        ∃ k, exec (.ccancel f) s = .next (s.setGroup gid k) ∧ Issued k (g.setSreg f.sd.toNat
          (if e.2.cause ≠ 0 then 5 else if e.2.cancelled then 4 else 0)) p (s.after g p (if f.px.isSome then 2 else 1))) ∧
      ∀ x, Outside s g x → e.2.st ≠ .retired → (e.2.mask ≠ 0 ∨ e.2.st = .published) →
        ∃ t, exec (.ccancel f) s = .next t ∧ TrapEntered s t x gid g p 0x16 (tvalOf (.ccancel f)) p.mask))

/-- The copy engine (R119, R122, R290, R291, R292, R293, R294, R295, R296, R297, R340). For a copy that may work, whose core's
earlier ones have started: the next chunk of a moving one is at most 128 bytes within a line of its destination row, is
written at the place that the row names and every other byte stays, beside the A bits of the entries that its place and its
sources were translated by; a chunk that fails stops the copy with its cause and address and sets FAIL in its pot; once its
writes are performed the bytes are credited to its pot, those of a cpyx to the pot of the queue's consumer, in a live team, or
not before its seat stops Moving; a copy whose last chunk is credited, or one that has stopped, releases its locks and
retires, so that c4 falls, or, with a consumer mask, offers its slot of the ring to the mask and is published; a published one
retires once its slot has been taken; a cpyx adds its length to WRITE of its queue header and reads the header, and moves once
the queue has room.  That a chunk's bytes are read and written at one moment, that WRITE is added to before the header is
checked, and when QSEAT is checked, are the model's choices of log entries 6, 27 and 29. -/
def Obligations.CopyEngine : Prop :=
  (∀ (s : State) (cid : Nat) (c : Copy) (g : Group), Works s cid c g → ∀ (d col len addr : Nat) (bs : List Byte) (ovr : Bool) (pl : Place), c.st = .moving → c.moved = c.pos → c.pos < c.total →
    s.NoReplicas → d = c.pos / c.dstRowBytes → col = c.pos % c.dstRowBytes → c.rowDst s d col = .ok addr →
    len = min (c.dstRowBytes - col) (128 - addr % 128) → c.rowData s d col len = .ok (bs, ovr) → bs.length = len →
    s.engineCheck (s.copyAgent c) addr len .write = .ok pl →
    ∃ s1 t ws, exec (.copyChunk cid) s = .next t ∧ SourceRead s s1 (s.copyAgent c) (c.ranges s d col len) ∧
      PlaceStored s1 t len pl (fun b => bs.getD b 0) ∧
      (∀ l, l ∈ ws ↔ l ∈ pl.walked ∨ ∃ x ∈ s.enginePlaces (s.copyAgent c) (c.ranges s d col len), l ∈ x.walked) ∧
      ∃ gs tl dt di pg m sp po spo, t = { s with
        groups := gs, tlbs := tl, dieTlbs := dt, dir := di, pages := pg, mem := m, spad := sp, poison := po, spadPoison := spo,
        copies := smapInsert s.copies cid { c with
          pos := c.pos + len, lines := pl.lines len, walked := ws, dof := c.dof || ovr } } ∧
        ∀ id, (t.group id).map (fun q => { q with lastPages := [] }) = (s.group id).map fun q => { q with lastPages := [] }) ∧
  (∀ (s : State) (cid : Nat) (c : Copy) (g : Group), Works s cid c g → ∀ (d col cause a : Nat), c.st = .moving → c.moved = c.pos →
    c.pos < c.total → d = c.pos / c.dstRowBytes → col = c.pos % c.dstRowBytes →
    (c.rowDst s d col = .error (.fail cause a) ∨ ∃ addr len, c.rowDst s d col = .ok addr ∧
      len = min (c.dstRowBytes - col) (128 - addr % 128) ∧ (c.rowData s d col len = .error (.fail cause a) ∨
        ∃ bs, c.rowData s d col len = .ok bs ∧ s.engineCheck (s.copyAgent c) addr len .write = .error (.fail cause a))) →
    ∃ u, CopyPotFailed s u c ∧ exec (.copyChunk cid) s = .next { u with copies := smapInsert s.copies cid { c with
      cause := cause, badAddr := BitVec.ofNat 64 a, lines := [], walked := [] } }) ∧
  (∀ (s : State) (cid : Nat) (c : Copy) (g : Group), Works s cid c g → c.st = .moving → c.moved < c.pos → c.pos < c.total → s.writePerformed cid c.lines = true → c.kind ≠ .cpyx →
    ∀ u, u = (match s.copyPot c with
        | some k => s.creditPot k (c.pos - c.moved)
        | none => s) →
    exec (.copyChunk cid) s =
      .next { u with copies := smapInsert s.copies cid { c with moved := c.pos, lines := [], walked := [] } }) ∧
  (∀ (s : State) (cid : Nat) (c : Copy) (g : Group), Works s cid c g → c.st = .moving → c.moved < c.pos → c.pos = c.total →
    s.writePerformed cid c.lines = true → c.kind ≠ .cpyx → g.residency = .running → c.mask = 0 →
    (s.copies.filter fun e => e.2.gid = c.gid && e.2.st = .retired).length < 32 →
    ∀ u, u = (match s.copyPot c with
        | some k => s.creditPot k (c.pos - c.moved)
        | none => s) →
    exec (.copyChunk cid) s = .next { u.setGroup c.gid { g with
          cnt := { g.cnt with c4 := g.cnt.c4 - 1 }, ovf := if c.dof then g.ovf ||| 4 else g.ovf } with
        locks := s.locks.filter (fun l => !(c.locks.contains l.1)),
        copies := smapInsert s.copies cid { c with
          moved := c.pos, lines := [], walked := [], locks := [], st := .retired, retiredAt := s.tick } }) ∧
  (∀ (s : State) (cid : Nat) (c : Copy) (g : Group), Works s cid c g → c.st = .moving → c.moved < c.pos → c.pos < c.total →
    s.writePerformed cid c.lines = true → c.kind = .cpyx →
    (∀ h q tid x, s.seatHolder g.part c.qseat = .live h → s.group h = some q → q.team = some tid → s.team tid = some x →
      c.qpot + 16 ≤ x.winLen →
      ∃ d sp po t, exec (.copyChunk cid) s = .next t ∧ t = { s with
          dir := d, spad := sp, spadPoison := po,
          copies := smapInsert s.copies cid { c with moved := c.pos, lines := [], walked := [] } } ∧
        ofBytes (t.sbytes (x.key c.qpot) 4) = min (ofBytes (s.sbytes (x.key c.qpot) 4) + (c.pos - c.moved)) 0xFFFFFFFF ∧
        ∀ a, ¬(x.key c.qpot ≤ a ∧ a < x.key c.qpot + 4) → t.sbyte a = s.sbyte a) ∧
    (s.seatHolder g.part c.qseat = .moving → exec (.copyChunk cid) s = .next s)) ∧
  (∀ (s : State) (cid : Nat) (c : Copy) (g : Group), Works s cid c g → c.st = .moving → c.moved < c.pos → s.writePerformed cid c.lines = false → exec (.copyChunk cid) s = .next s) ∧
  (∀ (s : State) (cid : Nat) (c : Copy) (g : Group), tabGet s.copies cid = some c → s.group c.gid = some g → c.ended = true →
    (c.cause ≠ 0 ∨ c.cancelled = true ∨ MayStart s cid c) → g.residency = .running → c.mask = 0 → (s.copies.filter fun e => e.2.gid = c.gid && e.2.st = .retired).length < 32 →
    ∃ k, exec (.copyComplete cid) s = .next { s.setGroup c.gid k with
        locks := s.locks.filter (fun l => !(c.locks.contains l.1)),
        copies := smapInsert s.copies cid { c with locks := [], st := .retired, retiredAt := s.tick } } ∧
      k = { g with cnt := { g.cnt with c4 := g.cnt.c4 - 1 }, ovf := if c.dof then g.ovf ||| 4 else g.ovf }) ∧
  (∀ (s : State) (cid : Nat) (c : Copy) (g : Group) (tid : Nat) (x : Team) (r : Ring) (sl : RingSlot),
    tabGet s.copies cid = some c → s.group c.gid = some g → g.team = some tid → s.team tid = some x → x.ring c.ring = some r →
    r.slots[c.slot]? = some sl → c.mask ≠ 0 → c.ended = true → (c.cause ≠ 0 ∨ c.cancelled = true ∨ MayStart s cid c) →
    g.residency = .running → ∃ t, exec (.copyComplete cid) s = .next t ∧
      RingSet { s with locks := s.locks.filter fun l => !(c.locks.contains l.1) } t c.gid
        { g with ovf := if c.dof then g.ovf ||| 4 else g.ovf } tid x c.ring
        { r with slots := listSet r.slots c.slot (r.offered sl c.mask) } ∧
      tabGet t.copies cid = some { c with locks := [], st := .published }) ∧
  (∀ (s : State) (cid : Nat) (c : Copy) (g : Group) (tid : Nat) (x : Team) (r : Ring) (sl : RingSlot),
    tabGet s.copies cid = some c → s.group c.gid = some g → g.team = some tid → s.team tid = some x → x.ring c.ring = some r →
    r.slots[c.slot]? = some sl → c.st = .published → g.residency = .running →
    (s.copies.filter fun e => e.2.gid = c.gid && e.2.st = .retired).length < 32 →
    (c.mask &&& ~~~sl.pass = 0 →
      exec (.copyRetire cid) s = .next { s.setGroup c.gid { g with cnt := { g.cnt with c4 := g.cnt.c4 - 1 } } with
        copies := smapInsert s.copies cid { c with st := .retired, retiredAt := s.tick } }) ∧
    (c.mask &&& ~~~sl.pass ≠ 0 → exec (.copyRetire cid) s = .next s)) ∧
  (∀ (s : State) (cid : Nat) (c : Copy) (g : Group), Works s cid c g → ∀ (pa kind : Nat) (src src' : Source) (ls ls' : List Nat) (h : Nat → Nat → Nat), c.st = .reserve → s.NoReplicas →
    s.engineCheck (s.copyAgent c) c.dst.toNat 128 .atomic = .ok (.phys pa kind none src ls) →
    s.engineCheck (s.copyAgent c) (c.dst.toNat + 0x0C) 4 .atomic = .ok (.phys (pa + 0x0C) kind none src' ls') →
    s.poisonAt (.phys pa kind none src ls) 32 = [] → (∀ o n, h o n = ofBytes (((s.readAt (.phys pa kind none src ls) 32).drop o).take n)) →
    queueOk (h 0 8) (h 8 4) (h 0x14 4) c.total = true → seatPkg (BitVec.ofNat 64 (h 0x18 8)) = s.pkg.number →
    s.seatHolder g.part (BitVec.ofNat 64 (h 0x18 8)) ≠ .stale →
    ∃ t, exec (.cpyxReserve cid) s = .next t ∧
      PlaceStored s t 4 (.phys (pa + 0x0C) kind none src' ls') (fun b => BitVec.ofNat 8 ((h 0x0C 4 + c.total) / 2 ^ (8 * b))) ∧
      tabGet t.copies cid = some { c with
        qoff := h 0x0C 4, qbase := BitVec.ofNat 64 (h 0 8), qsize := h 8 4, qpot := h 0x14 4,
        qseat := BitVec.ofNat 64 (h 0x18 8), header := true, st := .space } ∧
      ∀ id, (t.group id).map (fun q => { q with lastPages := [] }) = (s.group id).map fun q => { q with lastPages := [] }) ∧
  (∀ (s : State) (cid : Nat) (c : Copy) (g : Group), Works s cid c g → ∀ (bs : List Byte), c.st = .space → s.engineRead (s.copyAgent c) 2 (c.dst.toNat + 0x10) 4 = .ok bs →
    (c.qsize < (c.qoff + c.total + 2 ^ 32 - ofBytes bs) % 2 ^ 32 → exec (.cpyxSpaceGrant cid) s = .next s) ∧
    ((c.qoff + c.total + 2 ^ 32 - ofBytes bs) % 2 ^ 32 ≤ c.qsize →
      ∃ s1, SourceRead s s1 (s.copyAgent c) [(c.dst.toNat + 0x10, 4)] ∧
        exec (.cpyxSpaceGrant cid) s = .next { s1 with copies := smapInsert s.copies cid { c with st := .moving } }))

/-- potset, potwait, rpush and rpop (R120, R122, R123, R124, R303, R304, R305). In every ready group of a team: potset
leaves COUNT 0, its target and STATE 0 in a pot within the window; potwait gives sd the COUNT of a reached pot, or all
ones when its FAIL bit is set, waits for one that is not reached, and in its arming form records it; rpush.pub offers
the claimed slot to its mask, rpush.claim claims a free slot ip, gives sd its number and moves ip on, and rpush does
both; rpop.rel releases the held slot, rpop.take takes the next published slot offered to its position, gives all ones
at the end of a closed ring and waits otherwise, and rpop does both; a ring that is not the group's to use traps;
what observes a pot or takes a slot synchronises the group; nothing else changes. What a waiting split keeps is the
model's choice of log entry 91. -/
def Obligations.PotsAndRings : Prop :=
  (∀ (s : State) (gid : Nat) (g : Group) (p : Split) (f : SysAB) (tid : Nat) (x : Team) (o : Nat), Ready s gid g p → g.HasS [f.sa.toNat, f.sb.toNat] → g.team = some tid →
    s.team tid = some x → o = (g.sreg f.sa.toNat).toNat → o % 16 = 0 → o + 16 ≤ x.winLen →
    ∃ k sp po, exec (.potset f) s = .next { s.setGroup gid k with spad := sp, spadPoison := po } ∧
      Issued k g p (s.after g p 1) ∧ ∀ a, smapGet memDefault sp a =
        if x.key o ≤ a ∧ a < x.key o + 12 then
          (if x.key o + 4 ≤ a ∧ a < x.key o + 8 then (g.sreg f.sb.toNat).extractLsb' (8 * (a - x.key o - 4)) 8 else 0)
        else s.sbyte a) ∧
  (∀ (s : State) (gid : Nat) (g : Group) (p : Split) (f : Potwait) (tid : Nat) (x : Team) (o : Nat), Ready s gid g p → g.HasS [f.sd.toNat, f.sa.toNat] → g.team = some tid →
    s.team tid = some x → o = (g.sreg f.sa.toNat).toNat → o % 16 = 0 → o + 16 ≤ x.winLen →
    (f.arm = true → ∃ k, exec (.potwait f) s = .next (s.setGroup gid k) ∧
      Issued k { g with armed := some (.pot o) } p (s.after g p 1)) ∧
    (f.arm = false → (s.sbyte (x.key o + 8)).getLsbD 0 = true → ∃ k, exec (.potwait f) s = .next (s.setGroup gid k) ∧
      Issued k ({ g with syncAt := s.tick }.setSreg f.sd.toNat 0xFFFFFFFF) p (s.after g p 1)) ∧
    (f.arm = false → (s.sbyte (x.key o + 8)).getLsbD 0 = false →
      ofBytes (s.sbytes (x.key o + 4) 4) ≤ ofBytes (s.sbytes (x.key o) 4) → ∃ k,
      exec (.potwait f) s = .next (s.setGroup gid k) ∧
      Issued k ({ g with syncAt := s.tick }.setSreg f.sd.toNat (BitVec.ofNat 32 (ofBytes (s.sbytes (x.key o) 4)))) p (s.after g p 1)) ∧
    (f.arm = false → (s.sbyte (x.key o + 8)).getLsbD 0 = false →
      ofBytes (s.sbytes (x.key o) 4) < ofBytes (s.sbytes (x.key o + 4) 4) →
      ∃ k, exec (.potwait f) s = .next (s.setGroup gid k) ∧ Waits k g p (.cond (.pot o)) (encode (.potwait f)) false s.clock)) ∧
  (∀ (s : State) (gid : Nat) (g : Group) (p : Split) (f : RpushPub) (tid : Nat) (x : Team) (r : Ring) (c : Nat) (sl : RingSlot), Ready s gid g p → g.team = some tid → s.team tid = some x → x.ring f.ring.toNat = some r →
    (r.producer = none ∨ r.producer = some g.index) → r.claimed = some c → r.slots[c]? = some sl → f.mask ≠ 0 →
    f.mask.toNat < 2 ^ r.pos.length →
    ∃ k t, exec (.rpushPub f) s = .next t ∧ Issued k g p (s.after g p 1) ∧ RingSet s t gid k tid x f.ring.toNat
      { r with producer := some g.index, claimed := none, slots := listSet r.slots c (r.offered sl f.mask) }) ∧
  (∀ (s : State) (gid : Nat) (g : Group) (p : Split) (f : Rpush) (tid : Nat) (x : Team) (r : Ring), Ready s gid g p → g.team = some tid → s.team tid = some x → x.ring f.ring.toNat = some r →
    (r.producer = none ∨ r.producer = some g.index) → r.claimed = none → g.HasS [f.sd.toNat] →
    (r.slotFree r.ip = true → ∃ k t, exec (.rpushClaim f) s = .next t ∧
      Issued k (g.setSreg f.sd.toNat (BitVec.ofNat 32 r.ip)) p (s.after g p 1) ∧ RingSet s t gid k tid x f.ring.toNat
        { r with producer := some g.index, claimed := some r.ip, ip := (r.ip + 1) % r.slots.length }) ∧
    (r.slotFree r.ip = false → ∃ k t, exec (.rpushClaim f) s = .next t ∧
      Waits k g p (.ringFree f.ring.toNat) (encode (.rpushClaim f)) false s.clock ∧ RingSet s t gid k tid x f.ring.toNat { r with producer := some g.index })) ∧
  (∀ (s : State) (gid : Nat) (g : Group) (p : Split) (f : Rpush) (tid : Nat) (x : Team) (r r1 : Ring) (c : Nat) (sl : RingSlot), Ready s gid g p → g.team = some tid → s.team tid = some x → x.ring f.ring.toNat = some r →
    (r.producer = none ∨ r.producer = some g.index) → r.claimed = some c → r.slots[c]? = some sl → f.mask ≠ 0 →
    f.mask.toNat < 2 ^ r.pos.length → g.HasS [f.sd.toNat] →
    r1 = { r with producer := some g.index, claimed := none, slots := listSet r.slots c (r.offered sl f.mask) } →
    (r1.slotFree r.ip = true → ∃ k t, exec (.rpush f) s = .next t ∧
      Issued k (g.setSreg f.sd.toNat (BitVec.ofNat 32 r.ip)) p (s.after g p 1) ∧ RingSet s t gid k tid x f.ring.toNat
        { r1 with claimed := some r.ip, ip := (r.ip + 1) % r.slots.length }) ∧
    (r1.slotFree r.ip = false → ∃ k t, exec (.rpush f) s = .next t ∧
      Waits k g p (.ringFree f.ring.toNat) (encode (.rpush f)) true s.clock ∧ RingSet s t gid k tid x f.ring.toNat r1)) ∧
  (∀ (s : State) (gid : Nat) (g : Group) (p : Split) (f : RpopRel) (tid : Nat) (x : Team) (r : Ring) (q : RingPos) (h : Nat) (sl : RingSlot), Ready s gid g p → g.team = some tid → s.team tid = some x → x.ring f.ring.toNat = some r →
    r.pos[f.pos.toNat]? = some q → (q.owner = none ∨ q.owner = some g.index) → q.held = some h → r.slots[h]? = some sl →
    ∃ k t, exec (.rpopRel f) s = .next t ∧ Issued k g p (s.after g p 1) ∧ RingSet s t gid k tid x f.ring.toNat
      { r with pos := listSet r.pos f.pos.toNat { q with owner := some g.index, held := none },
               slots := listSet r.slots h { sl with hold := sl.hold &&& ~~~(BitVec.twoPow 8 f.pos.toNat) } }) ∧
  (∀ (s : State) (gid : Nat) (g : Group) (p : Split) (f : Rpop) (tid : Nat) (x : Team) (r : Ring) (q : RingPos) (sl : RingSlot), Ready s gid g p → g.team = some tid → s.team tid = some x → x.ring f.ring.toNat = some r →
    r.pos[f.pos.toNat]? = some q → (q.owner = none ∨ q.owner = some g.index) → q.held = none → r.slots[q.cp]? = some sl →
    g.HasS [f.sd.toNat] →
    (sl.phase = q.phase → sl.offer.getLsbD f.pos.toNat = true → ∃ k t, exec (.rpopTake f) s = .next t ∧
      Issued k ({ g with syncAt := s.tick }.setSreg f.sd.toNat (BitVec.ofNat 32 q.cp)) p (s.after g p 1) ∧ RingSet s t gid k tid x f.ring.toNat
        { r with pos := listSet r.pos f.pos.toNat { q with
                   owner := some g.index, held := some q.cp, cp := (q.cp + 1) % r.slots.length,
                   phase := if (q.cp + 1) % r.slots.length = 0 then !q.phase else q.phase },
                 slots := listSet r.slots q.cp { sl with
                   pass := sl.pass ||| BitVec.twoPow 8 f.pos.toNat, hold := sl.hold ||| BitVec.twoPow 8 f.pos.toNat } }) ∧
    (sl.phase ≠ q.phase → r.closed = true → ∃ k t, exec (.rpopTake f) s = .next t ∧
      Issued k (g.setSreg f.sd.toNat 0xFFFFFFFF) p (s.after g p 1) ∧ RingSet s t gid k tid x f.ring.toNat
        { r with pos := listSet r.pos f.pos.toNat { q with owner := some g.index } }) ∧
    (sl.phase ≠ q.phase → r.closed = false → ∃ k t, exec (.rpopTake f) s = .next t ∧
      Waits k g p (.ringNext f.ring.toNat f.pos.toNat) (encode (.rpopTake f)) false s.clock ∧ RingSet s t gid k tid x f.ring.toNat
        { r with pos := listSet r.pos f.pos.toNat { q with owner := some g.index } })) ∧
  (∀ (s : State) (gid : Nat) (g : Group) (p : Split) (f : Rpop) (tid : Nat) (x : Team) (r : Ring) (q : RingPos) (h : Nat) (sl nx : RingSlot), Ready s gid g p → g.team = some tid → s.team tid = some x → x.ring f.ring.toNat = some r →
    r.pos[f.pos.toNat]? = some q → (q.owner = none ∨ q.owner = some g.index) → q.held = some h → r.slots[h]? = some sl →
    h ≠ q.cp → r.slots[q.cp]? = some nx → nx.phase = q.phase → nx.offer.getLsbD f.pos.toNat = true → g.HasS [f.sd.toNat] →
    ∃ k t, exec (.rpop f) s = .next t ∧
      Issued k ({ g with syncAt := s.tick }.setSreg f.sd.toNat (BitVec.ofNat 32 q.cp)) p (s.after g p 1) ∧ RingSet s t gid k tid x f.ring.toNat
        { r with pos := listSet r.pos f.pos.toNat { q with
                   owner := some g.index, held := some q.cp, cp := (q.cp + 1) % r.slots.length,
                   phase := if (q.cp + 1) % r.slots.length = 0 then !q.phase else q.phase },
                 slots := listSet (listSet r.slots h { sl with hold := sl.hold &&& ~~~(BitVec.twoPow 8 f.pos.toNat) }) q.cp
                   { nx with pass := nx.pass ||| BitVec.twoPow 8 f.pos.toNat, hold := nx.hold ||| BitVec.twoPow 8 f.pos.toNat } }) ∧
  (∀ (s : State) (gid : Nat) (g : Group) (p : Split) (f : Rpop) (tid : Nat) (x : Team) (y : Part), Ready s gid g p → g.team = some tid → s.team tid = some x → x.ring f.ring.toNat = none →
    g.HasS [f.sd.toNat] → g.handler = none → s.part g.part = some y → ∀ i, (i = Instr.rpop f ∨ i = Instr.rpopTake f) →
    ∃ t w, exec i s = .next t ∧ encode i = [w] ∧ TrapEntered s t y gid g p 0x16 (tvalWords w 0) p.mask)

/-- Remote accesses, deliveries and transfers at issue (R315, R325, R327, R328, R329, R330, R336, R341, R331, R299). In every
ready group whose stream is usable, with room on the counter and a prefix that the instruction honours: rld, rst and ratom
with aligned lane addresses, rfence with an aligned address, rstv, xred.first and xred.mid to a well-formed seat address go to
the next word, count on c0 or c5 and leave a request to the package that the rank table or the seat name gives, with what was
read at issue; rld and a returning ratom owe their Active lanes; a rank or seat without a target completes at once with its
cause in the stream; xred.last computes its pair in place, lane by lane; no byte of memory, flag or other register changes. In
every ready group: an xfer with no Active lane does nothing, and one of no bytes is performed at once; otherwise, with a
checked record, room on c5 and a free lock entry, it counts on c5 and leaves a request with the source, destination, length
and pot of its record, to the home package of its seat or the package of its rank, and at most one range-lock entry, which
covers its source span for reading; no register, flag or byte of memory changes. That an xfer without an Active lane checks
nothing is the model's reading of log entry 36. That a failure at issue sets no pot's FAIL is that of log entry 41. -/
def Obligations.RemoteRequests : Prop :=
  (((∀ (s : State) (gid : Nat) (g : Group) (p : Split) (f : Rld) (pkg : Nat), Ready s gid g p → fabPxBad f.px true true = false → g.HasV (upFrom f.vd.toNat 2) → g.HasS (upFrom f.sb.toNat 2) →
    StreamUsable s g f.stream.toNat → g.cnt.c0 < 255 →
    (∀ i < 64, g.laneOn p f.px i = true → g.remoteVa f.sb.toNat (f.vd.toNat + 1) f.px i % 4 = 0) → s.rankTarget g.part (bits (g.spair f.sb.toNat).toNat 54 10) = .send pkg →
    (∃ i < 64, g.laneOn p f.px i = true) →
    ∃ t pe q, exec (.rld f) s = .next t ∧ Requested s t gid g p (if f.px.isSome then 2 else 1) { g.cnt with c0 := g.cnt.c0 + 1 } [(s.nextId, pe)] q ∧ Fresh pe p .late 0 ∧
      OwesLate g p f.px pe f.vd.toNat ∧ q.kind = .rld f.acq ∧ q.stream = f.stream.toNat ∧ q.counter = 0 ∧ q.pkg = pkg ∧
      q.pend = some s.nextId ∧ SendsLanes g p f.px q (g.remoteVa f.sb.toNat (f.vd.toNat + 1) f.px) (fun _ => 0) (fun _ => 0)) ∧
  (∀ (s : State) (gid : Nat) (g : Group) (p : Split) (f : Rst) (pkg : Nat), Ready s gid g p → fabPxBad f.px true true = false → g.HasV (upFrom f.vs.toNat 2) → g.HasS (upFrom f.sb.toNat 2) →
    StreamUsable s g f.stream.toNat → g.cnt.c5 < 255 →
    (∀ i < 64, g.laneOn p f.px i = true → g.remoteVa f.sb.toNat (f.vs.toNat + 1) f.px i % 4 = 0) → s.rankTarget g.part (bits (g.spair f.sb.toNat).toNat 54 10) = .send pkg →
    ∃ t q, exec (.rst f) s = .next t ∧ Requested s t gid g p (if f.px.isSome then 2 else 1) { g.cnt with c5 := g.cnt.c5 + 1 } [] q ∧ q.kind = .rst ∧
      q.stream = f.stream.toNat ∧ q.counter = 5 ∧ q.pkg = pkg ∧ q.pend = none ∧
      SendsLanes g p f.px q (g.remoteVa f.sb.toNat (f.vs.toNat + 1) f.px) (g.vreg f.vs.toNat) (fun _ => 0)) ∧
  (∀ (s : State) (gid : Nat) (g : Group) (p : Split) (f : Ratom) (pkg : Nat), Ready s gid g p → fabPxBad f.px true true = false → g.HasV (upFrom f.vd.toNat (if f.op = 9 then 3 else 2)) → g.HasS (upFrom f.sb.toNat 2) →
    StreamUsable s g f.stream.toNat → g.cnt.c5 < 255 →
    (∀ i < 64, g.laneOn p f.px i = true → g.remoteVa f.sb.toNat (f.vd.toNat + 1) f.px i % 4 = 0) → s.rankTarget g.part (bits (g.spair f.sb.toNat).toNat 54 10) = .send pkg →
    (f.ret = true → ∃ i < 64, g.laneOn p f.px i = true) →
    ∃ t pe q, exec (.ratom f) s = .next t ∧
      Requested s t gid g p (if f.px.isSome then 2 else 1) { g.cnt with c5 := g.cnt.c5 + 1 } (if f.ret then [(s.nextId, pe)] else []) q ∧ Fresh pe p .late 5 ∧
      OwesLate g p f.px pe f.vd.toNat ∧ q.kind = .ratom f.op f.ret ∧ q.stream = f.stream.toNat ∧ q.counter = 5 ∧ q.pkg = pkg ∧
      q.pend = (if f.ret then some s.nextId else none) ∧
      SendsLanes g p f.px q (g.remoteVa f.sb.toNat (f.vd.toNat + 1) f.px) (g.vreg f.vd.toNat)
        (fun i => if f.op = 9 then g.vreg (f.vd.toNat + 2) i else 0)) ∧
  (∀ (s : State) (gid : Nat) (g : Group) (p : Split) (f : Rst) (c : Nat), Ready s gid g p → fabPxBad f.px true true = false → g.HasV (upFrom f.vs.toNat 2) → g.HasS (upFrom f.sb.toNat 2) →
    StreamUsable s g f.stream.toNat → g.cnt.c5 < 255 →
    (∀ i < 64, g.laneOn p f.px i = true → g.remoteVa f.sb.toNat (f.vs.toNat + 1) f.px i % 4 = 0) → s.rankTarget g.part (bits (g.spair f.sb.toNat).toNat 54 10) = .fails c → f.stream.toNat < 4 →
    (∀ a x, g.streamSlot = some a → tabGet s.streams a = some x → x.streams.length = 4) →
    (∀ a, g.streamSlot = some a → (tabGet s.streams a).isSome = true) →
    ∃ t, exec (.rst f) s = .next t ∧ FailedAtOnce s t gid g p (if f.px.isSome then 2 else 1) f.stream.toNat c (fun _ _ => False)) ∧
  (∀ (s : State) (gid : Nat) (g : Group) (p : Split) (f : Rld) (c : Nat), Ready s gid g p → fabPxBad f.px true true = false → g.HasV (upFrom f.vd.toNat 2) → g.HasS (upFrom f.sb.toNat 2) →
    StreamUsable s g f.stream.toNat → g.cnt.c0 < 255 →
    (∀ i < 64, g.laneOn p f.px i = true → g.remoteVa f.sb.toNat (f.vd.toNat + 1) f.px i % 4 = 0) → s.rankTarget g.part (bits (g.spair f.sb.toNat).toNat 54 10) = .fails c →
    (∀ a x, g.streamSlot = some a → tabGet s.streams a = some x → x.streams.length = 4) →
    (∀ a, g.streamSlot = some a → (tabGet s.streams a).isSome = true) →
    ∃ t, exec (.rld f) s = .next t ∧
      FailedAtOnce s t gid g p (if f.px.isSome then 2 else 1) f.stream.toNat c (fun r i => r = f.vd.toNat ∧ g.laneOn p f.px i = true)) ∧
  (∀ (s : State) (gid : Nat) (g : Group) (p : Split) (f : Rfence) (pkg : Nat), Ready s gid g p → fabPxBad f.px false false = false → g.HasV [] → g.HasS (upFrom f.sb.toNat 2) →
    StreamUsable s g f.stream.toNat → g.cnt.c5 < 255 →
    (g.spair f.sb.toNat).toNat % 4 = 0 → s.rankTarget g.part (bits (g.spair f.sb.toNat).toNat 54 10) = .send pkg →
    ∃ t q, exec (.rfence f) s = .next t ∧ Requested s t gid g p (if f.px.isSome then 2 else 1) { g.cnt with c5 := g.cnt.c5 + 1 } [] q ∧ q.kind = .rfence ∧
      q.stream = f.stream.toNat ∧ q.counter = 5 ∧ q.pkg = pkg ∧ q.pend = none ∧ q.after = [] ∧
      q.lanes = [{ lane := 0, va := (g.spair f.sb.toNat).toNat % 2 ^ 54, x := 0, y := 0 }]) ∧
  (∀ (s : State) (gid : Nat) (g : Group) (p : Split) (f : Rstv) (pkg : Nat), Ready s gid g p → fabPxBad f.px false true = false → g.HasV [f.vs.toNat] → g.HasS (upFrom f.sa.toNat 2) →
    StreamUsable s g f.stream.toNat → g.cnt.c5 < 255 →
    seatBad (g.spair f.sa.toNat) false = false → s.seatTarget g.part (g.spair f.sa.toNat) = .send pkg →
    ∃ t q v, exec (.rstv f) s = .next t ∧ Requested s t gid g p (if f.px.isSome then 2 else 1) { g.cnt with c5 := g.cnt.c5 + 1 } [] q ∧ q.kind = .rstv v none ∧
      (∀ i < 64, v.getD i 0 = g.vreg f.vs.toNat i) ∧ q.stream = f.stream.toNat ∧ q.counter = 5 ∧ q.pkg = pkg ∧ q.pend = none ∧
      q.lanes = [] ∧ q.mask = g.activeMask p.mask (memMask f.px) ∧ q.seat = g.spair f.sa.toNat) ∧
  (∀ e ∈ [(Instr.xredFirst, true), (Instr.xredMid, false)], ∀ (s : State) (gid : Nat) (g : Group) (p : Split) (f : Xred) (pkg : Nat), Ready s gid g p →
    fabPxBad f.px false true = false → g.HasV (upFrom f.vp.toNat 4) → g.HasS (upFrom f.sa.toNat 2) →
    StreamUsable s g f.stream.toNat → g.cnt.c5 < 255 →
    seatBad (g.spair f.sa.toNat) false = false → seatReg (g.spair f.sa.toNat) % 2 = 0 →
    s.seatTarget g.part (g.spair f.sa.toNat) = .send pkg →
    ∃ t q v w, exec (e.1 f) s = .next t ∧ Requested s t gid g p (if f.px.isSome then 2 else 1) { g.cnt with c5 := g.cnt.c5 + 1 } [] q ∧ q.kind = .rstv v (some w) ∧
      (∀ i < 64, g.laneOn p f.px i = true →
        (v.getD i 0, w.getD i 0) = if e.2 then (g.vreg (f.vp.toNat + 2) i, g.vreg (f.vp.toNat + 3) i)
          else g.linked f.vp.toNat i) ∧
      q.stream = f.stream.toNat ∧ q.counter = 5 ∧ q.pkg = pkg ∧ q.pend = none ∧ q.lanes = [] ∧
      q.mask = g.activeMask p.mask (memMask f.px) ∧ q.seat = g.spair f.sa.toNat) ∧
  (∀ (s : State) (gid : Nat) (g : Group) (p : Split) (f : XredLast), Ready s gid g p → fabPxBad f.px false true = false → g.HasV (upFrom f.vp.toNat 4) →
    ∃ k v, exec (.xredLast f) s = .next (s.setGroup gid k) ∧ Issued k { g with vregs := v } p (s.after g p (if f.px.isSome then 2 else 1)) ∧
      ∀ r, ∀ i < 64, k.vreg r i =
        if g.laneOn p f.px i = true ∧ r = f.vp.toNat then (g.linked f.vp.toNat i).1
        else if g.laneOn p f.px i = true ∧ r = f.vp.toNat + 1 then (g.linked f.vp.toNat i).2 else g.vreg r i))) ∧
  (((∀ (s : State) (gid : Nat) (g : Group) (p : Split) (f : Xfer), Ready s gid g p → fabPxBad f.px false true = false → g.HasS (upFrom f.cr.toNat 8) →
    (g.activeMask p.mask (memMask f.px) = 0 → ∃ k, exec (.xfer f) s = .next (s.setGroup gid k) ∧ Issued k g p (s.after g p (if f.px.isSome then 2 else 1))) ∧
    (g.activeMask p.mask (memMask f.px) ≠ 0 → XferChecked s gid g f.cr.toNat → StreamUsable s g f.stream.toNat → g.cnt.c5 < 255 →
      g.sreg (f.cr.toNat + 4) = 0 → ∃ k, exec (.xfer f) s = .next (s.setGroup gid k) ∧ Issued k g p (s.after g p (if f.px.isSome then 2 else 1))) ∧
    ∀ pkg, g.activeMask p.mask (memMask f.px) ≠ 0 → XferChecked s gid g f.cr.toNat → StreamUsable s g f.stream.toNat →
      g.cnt.c5 < 255 → 0 < s.freeLocks (clusterOf (coreOf gid)) → g.sreg (f.cr.toNat + 4) ≠ 0 →
      (if (g.sreg (f.cr.toNat + 5)).getLsbD 14 then s.seatTarget g.part (g.spair (f.cr.toNat + 6))
       else s.rankTarget g.part (bits (g.spair (f.cr.toNat + 2)).toNat 54 10)) = .send pkg →
      ∃ t q l, exec (.xfer f) s = .next t ∧ t.locks = l ∧
        Requested { s with locks := l } t gid g p (if f.px.isSome then 2 else 1) { g.cnt with c5 := g.cnt.c5 + 1 } [] q ∧
        q.kind = .xfer (g.spair f.cr.toNat) (g.spair (f.cr.toNat + 2)) (g.sreg (f.cr.toNat + 4)).toNat
          ((g.sreg (f.cr.toNat + 5)).getLsbD 14)
          (if (g.sreg (f.cr.toNat + 5)).getLsbD 15 then some (16 * ((g.sreg (f.cr.toNat + 5)).toNat / 2 ^ 16)) else none) ∧
        q.stream = f.stream.toNat ∧ q.counter = 5 ∧ q.pkg = pkg ∧ q.pend = none ∧ q.seat = g.spair (f.cr.toNat + 6) ∧
        (∀ id, id ∉ q.locks → tabGet l id = tabGet s.locks id) ∧ q.locks.length ≤ 1 ∧
        (∀ sp lo, s.spanOf (g.agent gid) (g.spair f.cr.toNat).toNat (g.sreg (f.cr.toNat + 4)).toNat = .ok (some (sp, lo)) →
          q.locks.length = 1) ∧
        ∀ id ∈ q.locks, ∃ sp lo, s.spanOf (g.agent gid) (g.spair f.cr.toNat).toNat (g.sreg (f.cr.toNat + 4)).toNat =
            .ok (some (sp, lo)) ∧
          tabGet l id = some { cluster := clusterOf (coreOf gid), space := sp, lo := lo,
                               hi := lo + (g.sreg (f.cr.toNat + 4)).toNat, write := false })))

/-- hold, seatget, seatfree, rstat, rresume and rankmap (R315, R316, R320, R322, R324, R334, R335, R338). In every group
that is about to issue: hold adds to its register's hold entry up to 255, or takes a free one of the 8; seatget of a
group without a seat takes the lowest Free entry of the table, with the next generation and the group's place, and gives
its name, or 0; seatfree frees it; rstat gives the stream's state, causes and count, and rstat.clr clears the causes and
opens an Error stream; rankmap sets a rank-table entry and rankmap.rd reads one; rresume of an unknown handle does
nothing, of one from another package marks the frozen request for replay, or discards it, and sends the answer, and of
one of this package frees the request, or completes it with RESFAIL, and tells the stream; nothing else changes. That a
freeze of this package whose notice has not arrived is entered in its stream by rresume, and that a handle counts for
the group's own partition only, is the model's choice of log entries 34 and 40. -/
def Obligations.SeatsAndRanks : Prop :=
  (∀ (s : State) (gid : Nat) (g : Group) (p : Split) (f : Hold), Holding s gid g p → fabPxBad f.px false false = false → g.HasV [f.vd.toNat] →
    (∀ h ∈ g.holds, h.reg = f.vd.toNat → (∀ j ∈ g.holds, j.reg = f.vd.toNat → j = h) →
      ∃ k, exec (.hold f) s = .next (s.setGroup gid k) ∧ Issued k { g with holds := g.holds.map fun j =>
        if j.reg = f.vd.toNat then { j with pending := min (j.pending + (f.n.toNat + 1)) 255 } else j } p (s.after g p (if f.px.isSome then 2 else 1))) ∧
    ((∀ h ∈ g.holds, h.reg ≠ f.vd.toNat) → g.holds.length < 8 → ∃ k, exec (.hold f) s = .next (s.setGroup gid k) ∧
      Issued k { g with holds := g.holds ++ [{ reg := f.vd.toNat, pending := f.n.toNat + 1 }] } p (s.after g p (if f.px.isSome then 2 else 1)))) ∧
  (∀ (s : State) (gid : Nat) (g : Group) (p : Split) (f : SeatGet) (x : Part) (idx gen : Nat) (a : Nat) (name : DWord), Ready s gid g p → fabPxBad f.px false false = false → g.HasS (upFrom f.sd.toNat 2) →
    g.seat = 0 → s.part g.part = some x → idx < x.seatCap.toNat → bits (s.seatWord x idx) 25 3 = 0 →
    (∀ j < idx, bits (s.seatWord x j) 25 3 ≠ 0) → a = x.seatBase.toNat + 32 * idx →
    gen = (if (bits (s.seatWord x idx) 32 16 + 1) % 2 ^ 16 = 0 then 1 else bits (s.seatWord x idx) 32 16 + 1) → s.NoReplicas →
    name = BitVec.ofNat 64 (gen + idx * 2 ^ 16 + s.pkg.number * 2 ^ 38) →
    ∃ k m po d, exec (.seatget f) s = .next { s.setGroup gid k with mem := m, poison := po, dir := d } ∧
      Issued k ({ g with seat := name }.setSpair f.sd.toNat name) p (s.after g p (if f.px.isSome then 2 else 1)) ∧
      (∀ b < 32, smapGet memDefault m (a + b) = (toBytes 8 (gen * 2 ^ 32 + g.part * 2 ^ 28 + 2 ^ 25 + whereOf gid) ++
        toBytes 24 0).getD b 0) ∧
      ∀ b, (b < a ∨ a + 32 ≤ b) → smapGet memDefault m b = s.byte b) ∧
  (∀ (s : State) (gid : Nat) (g : Group) (p : Split) (f : SeatGet) (x : Part), Ready s gid g p → fabPxBad f.px false false = false → g.HasS (upFrom f.sd.toNat 2) → g.seat = 0 → s.part g.part = some x →
    (∀ j < x.seatCap.toNat, bits (s.seatWord x j) 25 3 ≠ 0) → ∃ k, exec (.seatget f) s = .next (s.setGroup gid k) ∧
      Issued k (g.setSpair f.sd.toNat 0) p (s.after g p (if f.px.isSome then 2 else 1))) ∧
  (∀ (s : State) (gid : Nat) (g : Group) (p : Split) (f : FBare) (x : Part) (a : Nat), Ready s gid g p → fabPxBad f.px false false = false → s.part g.part = some x → a = x.seatBase.toNat + 32 * seatIndex g.seat → s.NoReplicas →
    (g.seat = 0 → ∃ k, exec (.seatfree f) s = .next (s.setGroup gid k) ∧ Issued k g p (s.after g p (if f.px.isSome then 2 else 1))) ∧
    (g.seat ≠ 0 → ∃ k m po d, exec (.seatfree f) s = .next { s.setGroup gid k with mem := m, poison := po, dir := d } ∧
      Issued k { g with seat := 0 } p (s.after g p (if f.px.isSome then 2 else 1)) ∧
      (∀ b < 32, smapGet memDefault m (a + b) = (toBytes 8 (seatGen g.seat * 2 ^ 32) ++ toBytes 24 0).getD b 0) ∧
      ∀ b, (b < a ∨ a + 32 ≤ b) → smapGet memDefault m b = s.byte b)) ∧
  (∀ (s : State) (gid : Nat) (g : Group) (p : Split) (f : Rstat) (y : StreamState) (n : Nat), Ready s gid g p → fabPxBad f.px false false = false → g.HasS (upFrom f.sd.toNat 2) → y = g.streamOf s f.stream.toNat →
    n = (match g.streamSlot with
      | some _ => (s.fabric.filter fun r => r.2.gid = gid && !r.2.orphan && r.2.stream = f.stream.toNat).length
      | none => 0) →
    (∃ k, exec (.rstat f) s = .next (s.setGroup gid k) ∧
      Issued k (g.setSregs f.sd.toNat [BitVec.ofNat 32 (y.first * 2 ^ 24 + y.causes.toNat * 2 ^ 8 + y.state), BitVec.ofNat 32 n]) p
        (s.after g p (if f.px.isSome then 2 else 1))) ∧
    ∃ k fb sm, exec (.rstatClr f) s = .next { s.setGroup gid k with fabric := fb, streams := sm } ∧
      Issued k (g.setSregs f.sd.toNat [BitVec.ofNat 32 (y.first * 2 ^ 24 + y.causes.toNat * 2 ^ 8 + y.state), BitVec.ofNat 32 n]) p
        (s.after g p (if f.px.isSome then 2 else 1)) ∧
      (∀ a e, g.streamSlot = some a → tabGet s.streams a = some e → e.streams.length = 4 →
        ∃ e', tabGet sm a = some e' ∧ e'.streams.getD f.stream.toNat StreamState.open_ =
          { y with causes := 0, first := 0, state := if y.state = 2 then 0 else y.state }) ∧
      ∀ id, (tabGet fb id).map FabReq.unsent = (tabGet s.fabric id).map FabReq.unsent) ∧
  (∀ (s : State) (gid : Nat) (g : Group) (p : Split) (f : Rankmap) (x : Part) (w : Word), Ready s gid g p → fabPxBad f.px false false = false → g.HasS [f.sa.toNat] → g.priv = true → s.part g.part = some x →
    w = g.sreg f.sa.toNat →
    (bits w.toNat 20 11 = 0 → ∃ k pk, exec (.rankmap f) s = .next { (s.setGroup gid k).setPart g.part { x with
          ranks := smapInsert x.ranks (bits w.toNat 0 10)
            { valid := w.getLsbD 31, failed := false, pkg := bits w.toNat 10 10 } } with pkg := pk } ∧
      Issued k g p (s.after g p (if f.px.isSome then 2 else 1)) ∧ pk = { s.pkg with lastBeat := pk.lastBeat } ∧
      ((w.getLsbD 31 = false ∨ bits w.toNat 10 10 = s.pkg.number) → pk = s.pkg)) ∧
    ∃ k, exec (.rankmapRd f) s = .next (s.setGroup gid k) ∧
      Issued k (g.setSreg f.sa.toNat (match tabGet x.ranks (bits w.toNat 0 10) with
        | some e => BitVec.ofNat 32 ((if e.valid then 2 ^ 31 else 0) + (if e.failed then 2 ^ 30 else 0) + e.pkg * 2 ^ 10 +
            bits w.toNat 0 10)
        | none => BitVec.ofNat 32 (bits w.toNat 0 10))) p (s.after g p (if f.px.isSome then 2 else 1))) ∧
  (∀ e ∈ [(Instr.rresume, false), (Instr.rresumeFail, true)], ∀ (s : State) (gid : Nat) (g : Group) (p : Split) (f : Rresume) (x : Part), Ready s gid g p → fabPxBad f.px false false = false →
    g.HasS (upFrom f.sb.toNat 2) → g.priv = true → s.part g.part = some x →
    (s.frozenByHandle g.part (g.spair f.sb.toNat) = none →
      ∃ k, exec (e.1 f) s = .next (s.setGroup gid k) ∧ Issued k g p (s.after g p (if f.px.isSome then 2 else 1))) ∧
    (∀ n z, s.frozenByHandle g.part (g.spair f.sb.toNat) = some (n, z) → z.srcPkg ≠ s.pkg.number →
      ∃ k, exec (e.1 f) s = .next { s.setGroup gid k with
          nextId := s.nextId + 1,
          sent := smapInsert s.sent s.nextId
            { pkg := z.srcPkg, slot := z.slot, stream := z.stream, msg := .resume z.serial e.2 },
          frozen := if e.2 then smapErase s.frozen n else smapInsert s.frozen n { z with replay := true } } ∧
        Issued k g p (s.after g p (if f.px.isSome then 2 else 1))) ∧
    (∀ n z, s.frozenByHandle g.part (g.spair f.sb.toNat) = some (n, z) → z.srcPkg = s.pkg.number →
      (∀ rid, z.req = .own rid → tabGet s.fabric rid = none) →
      ∃ k, exec (e.1 f) s = .next { s.setGroup gid k with
          frozen := smapErase s.frozen n, inbox := s.inbox ++ [.streamResume z.slot z.stream z.serial e.2] } ∧
        Issued k g p (s.after g p (if f.px.isSome then 2 else 1))) ∧
    (∀ n z rid q, s.frozenByHandle g.part (g.spair f.sb.toNat) = some (n, z) → z.srcPkg = s.pkg.number → z.req = .own rid →
      tabGet s.fabric rid = some q → q.performed = false → (∀ a b l sp pot, q.kind ≠ .xfer a b l sp (some pot)) →
      ∃ k fb sm, exec (e.1 f) s = .next { s.setGroup gid k with
          fabric := fb, streams := sm, frozen := smapErase s.frozen n,
          inbox := s.inbox ++ [.streamResume z.slot z.stream z.serial e.2] } ∧
        Issued k g p (s.after g p (if f.px.isSome then 2 else 1)) ∧
        tabGet fb rid = some (if e.2 then
            { q with performed := true, cause := some 4, left := true, frozen := false, sent := q.credited, lines := [], walked := [] }
          else { q with frozen := false }) ∧
        ((∃ y ∈ (s.stream z.slot z.stream).frozenBy, y.2 = z.serial) →
          sm = s.streams ∧ ∀ id, id ≠ rid → tabGet fb id = tabGet s.fabric id) ∧
        ((∀ y ∈ (s.stream z.slot z.stream).frozenBy, y.2 ≠ z.serial) → q.slot = z.slot → q.stream = z.stream →
          OthersLeave s fb rid q ∧ ∀ y ss, tabGet s.streams z.slot = some ss → y = ss.streams.getD z.stream StreamState.open_ →
            z.stream < ss.streams.length →
            ∃ u, tabGet sm z.slot = some u ∧ u.streams.getD z.stream StreamState.open_ =
              { y with state := if y.state = 2 then 2 else 1, serial := z.serial, frozenBy := y.frozenBy ++ [(rid, z.serial)] })))

/-- launch and cwait (R108, R110, R111, R112, R115). In every ready group: launch, by the house program or by group 0 of a
team below depth 9, of a record that passes the checks of R110 gives sd a handle and creates a grid of that record, one level
deeper, which its team has launched; a record that fails gives the lowest reason, a misaligned one reason 6 and an unreachable
one reason 7; launch at depth 9 takes trap 0x13; cwait gives 0x800000FF for a grid that the team has not launched, 1 or 2 once
the grids are complete, and waits until then; a launch whose record's translation is being changed waits; no register, flag or
byte of memory changes otherwise, beside the A bit of an entry.  That launch waits for the group's earlier accesses, reads the
record at one moment, and what a waiting split keeps, are the model's choices of log entries 65, 99 and 91. -/
def Obligations.LaunchAndWait : Prop :=
  (∀ (s : State) (gid : Nat) (g : Group) (p : Split) (f : Launch) (x : Part) (a : Nat) (pl : Place) (b : List Byte) (tid : Option Nat) (kids h : Nat), Ready s gid g p →
    g.HasS [f.sd.toNat, 2 * f.k.toNat, 2 * f.k.toNat + 1] → (g.priv = true ∨ g.index = 0 ∧ g.depth ≠ 9) → s.part g.part = some x →
    a = (g.spair (2 * f.k.toNat)).toNat → a % 128 = 0 → checkAddr s (g.agent gid) a 128 1 .read = .ok pl →
    s.poisonAt pl 128 = [] → Unsent s (clusterOf (coreOf gid)) pl 128 → b = s.readAt pl 128 → tid = (if g.priv then none else g.team) →
    kids = (match tid with
      | some t => ((s.grids.filter fun e => e.2.parent = some t).filter fun e => !e.2.complete).length
      | none => 0) →
    h = x.nextHandle → 0 < h → h < 2 ^ 31 → tabGet s.grids (gridKey g.part h) = none →
    (∀ r, recRefusal b x.kitty.toNat kids = some r → ∃ k t, exec (.launch f) s = .next t ∧ Visited s t gid g k s.nextId pl ∧
      Issued k ({ g with syncAt := s.tick }.setSreg f.sd.toNat (BitVec.ofNat 32 (0x80000000 + r))) p (s.after g p 1)) ∧
    (recRefusal b x.kitty.toNat kids = none →
      ∃ k u, Visited s u gid g k s.nextId pl ∧
        exec (.launch f) s = .next { u.setPart g.part { x with nextHandle := h % (2 ^ 31 - 1) + 1 } with
          nextId := s.nextId + 1,
          grids := smapInsert s.grids (gridKey g.part h)
                 { part := g.part, handle := h, parent := tid, depth := if g.priv then 0 else g.depth + 1,
                   record := LaunchRec.ofBytes b, next := 0, retired := 0, killed := false, complete := false,
                   order := s.nextId, waitDie := none } } ∧
        Issued k ({ g with syncAt := s.tick }.setSreg f.sd.toNat (BitVec.ofNat 32 h)) p (s.after g p 1))) ∧
  (∀ (s : State) (gid : Nat) (g : Group) (p : Split) (f : Launch) (x : Part), Ready s gid g p → g.HasS [f.sd.toNat, 2 * f.k.toNat, 2 * f.k.toNat + 1] →
    (g.priv = true ∨ g.index = 0 ∧ g.depth ≠ 9) → s.part g.part = some x →
    ((g.spair (2 * f.k.toNat)).toNat % 128 ≠ 0 → ∃ k, exec (.launch f) s = .next (s.setGroup gid k) ∧
      Issued k (g.setSreg f.sd.toNat 0x80000006) p (s.after g p 1)) ∧
    (∀ w, (g.spair (2 * f.k.toNat)).toNat % 128 = 0 →
      checkAddr s (g.agent gid) (g.spair (2 * f.k.toNat)).toNat 128 1 .read = .wait w →
      ∃ k, exec (.launch f) s = .next (s.setGroup gid k) ∧ Waits k g p w (encode (.launch f)) true s.clock) ∧
    ∀ r c, (g.spair (2 * f.k.toNat)).toNat % 128 = 0 →
      checkAddr s (g.agent gid) (g.spair (2 * f.k.toNat)).toNat 128 1 .read = .bad r c →
      ∃ k, exec (.launch f) s = .next (s.setGroup gid k) ∧ Issued k (g.setSreg f.sd.toNat 0x80000007) p (s.after g p 1)) ∧
  (∀ (s : State) (gid : Nat) (g : Group) (p : Split) (f : Launch) (x : Part), Ready s gid g p → g.HasS [f.sd.toNat, 2 * f.k.toNat, 2 * f.k.toNat + 1] → g.priv = false → g.index = 0 →
    g.depth = 9 → s.part g.part = some x → ∃ t, exec (.launch f) s = .next t ∧ TrapEntered s t x gid g p 0x13 0 p.mask) ∧
  (∀ (s : State) (gid : Nat) (g : Group) (p : Split) (f : SysDA) (tid : Nat), Ready s gid g p → g.HasS [f.sd.toNat, f.sa.toNat] → g.team = some tid → f.sa ≠ 63 →
    ((∀ e ∈ s.grids, e.2.parent = some tid → e.1 ≠ gridKey g.part (g.sreg f.sa.toNat).toNat) →
      ∃ k, exec (.cwait f) s = .next (s.setGroup gid k) ∧ Issued k (g.setSreg f.sd.toNat 0x800000FF) p (s.after g p 1)) ∧
    ∀ e, tabGet s.grids (gridKey g.part (g.sreg f.sa.toNat).toNat) = some e → e.parent = some tid →
      (e.complete = true → ∃ k, exec (.cwait f) s = .next (s.setGroup gid k) ∧
        Issued k ({ g with syncAt := s.tick }.setSreg f.sd.toNat (if e.killed then 2 else 1)) p (s.after g p 1)) ∧
      (e.complete = false → ∃ k, exec (.cwait f) s = .next (s.setGroup gid k) ∧
        Waits k g p (.grids [gridKey g.part (g.sreg f.sa.toNat).toNat]) (encode (.cwait f)) false s.clock)) ∧
  (∀ (s : State) (gid : Nat) (g : Group) (p : Split) (f : SysDA) (tid : Nat), Ready s gid g p → g.HasS [f.sd.toNat, f.sa.toNat] → g.team = some tid → f.sa = 63 →
    (∀ e ∈ s.grids, tabGet s.grids e.1 = some e.2) → (∀ e ∈ s.grids, e.2.parent = some tid → e.2.complete = true) →
    ∃ k v, exec (.cwait f) s = .next (s.setGroup gid k) ∧ Issued k ({ g with syncAt := s.tick }.setSreg f.sd.toNat v) p (s.after g p 1) ∧
      ((∃ e ∈ s.grids, e.2.parent = some tid ∧ e.2.killed = true) → v = 2) ∧
      ((∀ e ∈ s.grids, e.2.parent = some tid → e.2.killed = false) → v = 1))

/-- The distributor, admission and retirement (R113, R114, R118, R125, R127, R129, R130, R131). For every grid and team: the
next team of a grid whose turn it is enters the distributor, queued, at its place in the grid, dealt round-robin without an
anchor, or to the home die and cluster of its anchor where that die or an alternate has room, or waits for that die from then
on when all are full; a queued team without a cohort that a cluster can take becomes resident on one of that cluster's cores
in a zeroed window, each of its groups starting as R113 says; a Held team whose child grids are complete and whose cohort is
Held or retired retires, and the last one of a grid completes it. That round-robin teams are offered one at a time, that a
full die is one with 64 queued teams, and how an anchor that does not translate is taken, are the model's choices of log
entries 61, 62 and 63. -/
def Obligations.TeamsComeAndGo : Prop :=
  (∀ (s : State) (key : Nat) (gr : Grid) (x : Part) (pos : Nat × Nat × Nat), tabGet s.grids key = some gr →
    s.part gr.part = some x → gr.next < gr.record.teams → s.offers gr = true → gr.record.cohort = 1 → 0 < gr.record.gridX →
    pos = (gr.next % gr.record.gridX, gr.next / gr.record.gridX % gr.record.gridY,
      gr.next / gr.record.gridX / gr.record.gridY) →
    (∀ (home : Option Nat) (pref : Nat),
      (gr.record.anchor = 0 ∧ home = none ∧ pref = 0 ∧ (∀ e ∈ s.teams, e.2.part = gr.part →
          e.2.latency = gr.record.latency → e.2.state = .queued → e.2.homeDie ≠ none) ∨
        gr.record.anchor ≠ 0 ∧ s.anchorBusy x (gr.record.anchorOf pos.1 pos.2.1 pos.2.2) = false ∧
          ∃ d k, s.anchorHome x (gr.record.anchorOf pos.1 pos.2.1 pos.2.2) = some (d, pref) ∧
            s.placeDie x gr.waitDie d = some k ∧ home = some k) →
      ∃ t, exec (.teamDistribute key) s = .next { s with
          nextId := s.nextId + 1, teams := smapInsert s.teams s.nextId t,
          grids := smapInsert s.grids key { gr with next := gr.next + 1, waitDie := none } } ∧
        t.part = gr.part ∧ t.grid = key ∧ (t.x, t.y, t.z) = pos ∧ t.state = .queued ∧ t.latency = gr.record.latency ∧
        t.homeDie = home ∧ t.prefCluster = pref ∧ t.cohort = 1 ∧ t.winLen = gr.record.scratch ∧ t.killed = false ∧
        t.groups = List.replicate gr.record.groups .absent ∧
        t.anchor = BitVec.ofNat 64 (gr.record.anchorOf pos.1 pos.2.1 pos.2.2)) ∧
    (∀ d pref, gr.record.anchor ≠ 0 → s.anchorBusy x (gr.record.anchorOf pos.1 pos.2.1 pos.2.2) = false →
      s.anchorHome x (gr.record.anchorOf pos.1 pos.2.1 pos.2.2) = some (d, pref) → s.placeDie x gr.waitDie d = none →
      x.dieClusters d ≠ [] →
      exec (.teamDistribute key) s = .next { s with grids := smapInsert s.grids key { gr with waitDie := some d } }) ∧
    (gr.record.anchor = 0 → (∃ e ∈ s.teams, e.2.part = gr.part ∧ e.2.latency = gr.record.latency ∧ e.2.state = .queued ∧
      e.2.homeDie = none) → exec (.teamDistribute key) s = .next s)) ∧
  (∀ (s : State) (tid : Nat) (t : Team) (x : Part) (gr : Grid) (c : Nat), s.team tid = some t → s.part t.part = some x →
    tabGet s.grids t.grid = some gr → t.state = .queued → t.loadFrom = none → t.sizeAt = none → t.cohort = 1 → s.members t = [(tid, t)] →
    s.cohortTeams t = [(tid, t)] →
    t.groups = List.replicate gr.record.groups .absent → s.clusterFor x t gr.record = some c →
    (∀ core ∈ s.admitCores x t gr.record c, (s.coreGroups core false).length + gr.record.groups ≤ 128) →
    ∃ u core v, exec (.teamAdmit tid) s = .next u ∧ core ∈ s.admitCores x t gr.record c ∧ u.team tid = some v ∧
      v = { t with state := .resident, core := core, winOff := v.winOff, groups := v.groups } ∧
      v.groups.length = gr.record.groups ∧ (∀ b < t.winLen, u.sbyte (v.key b) = 0) ∧ u.mem = s.mem ∧
      (∀ i < gr.record.groups, ∃ gid q, v.groups[i]? = some (.live gid) ∧ coreOf gid = core ∧ s.group gid = none ∧
        u.group gid = some q ∧ StartsAs q gr t tid i) ∧
      ∀ gid, (s.group gid).isSome → u.group gid = s.group gid) ∧
  (∀ (s : State) (tid : Nat) (t : Team) (x : Part) (gr : Grid), s.team tid = some t → s.part t.part = some x →
    tabGet s.grids t.grid = some gr → s.childGrids tid = [] → (s.cohortTeams t).length = t.cohort →
    (t.state ≠ .held → exec (.teamRetire tid) s = .next s) ∧
    ((∃ e ∈ s.cohortTeams t, e.2.state ≠ .held ∧ e.2.state ≠ .retired) → exec (.teamRetire tid) s = .next s) ∧
    (t.state = .held → (∀ e ∈ s.cohortTeams t, e.2.state = .held ∨ e.2.state = .retired) →
      (gr.retired + 1 ≠ gr.record.teams →
        exec (.teamRetire tid) s = .next { s with
          teams := smapInsert s.teams tid { t with state := .retired },
          grids := smapInsert s.grids t.grid { gr with retired := gr.retired + 1 } }) ∧
      (gr.retired + 1 = gr.record.teams → gr.record.done = 0 → gr.parent ≠ none →
        exec (.teamRetire tid) s = .next { s with
          teams := (smapInsert s.teams tid { t with state := .retired }).filter fun e => e.2.grid != t.grid,
          grids := smapInsert s.grids t.grid { gr with retired := gr.retired + 1, complete := true } }) ∧
      (∀ w pa, gr.retired + 1 = gr.record.teams → gr.record.done ≠ 0 → gr.record.done.toNat < 2 ^ 57 → s.NoReplicas →
        w = walk s x gr.record.done.toNat → w.fin = .leaf → pteW w.pte = true → (gr.depth = 0 ∨ pteU w.pte = true) →
        pteKey w.pte = 0 → pa = leafPa w gr.record.done.toNat → x.owns pa = true →
        ∃ u, exec (.teamRetire tid) s = .next u ∧
          u.bytes pa 4 = toBytes 4 (if gr.killed then 2 else 1) ∧ (∀ a, (a < pa ∨ pa + 4 ≤ a) →
            u.byte a = if w.entry = some a then s.byte a ||| 0x40 else s.byte a) ∧
          u.groups = s.groups ∧ (∀ e ∈ u.teams, e.2.grid ≠ t.grid) ∧
          (gr.parent ≠ none → ∃ e, tabGet u.grids t.grid = some e ∧ e.complete = true) ∧
          (gr.parent = none → tabGet u.grids t.grid = none))))

/-- psrd and pswr (R377, R378, R379, R380, R156, R174, R253, R358, R409, R413). In every ready privileged group: psrd
writes the value of any register of both views to sd, and a read of CLOCK lo, TIME lo or TIMESET lo latches the high
word; pswr writes the registers of the group and of the partition that R378 and R379 make writable, and no bit that is
reserved; a write of TIMESET sets TIME unless it would go back; OVDEF takes a legal table only; a write of HEALTH clears
CE; a write of CKPT starts a checkpoint unless one is running; a write of PTROOT waits and then goes on; each step of
R156, R253, R380 and R413 taken alone does its part of this. Nothing else changes. The bits that a TBA and a SEATBASE
drop, the bound of SEATCAP and the moment at which a write is seen are the model's choices of log entries 110 and 94. -/
def Obligations.PrivilegedRegisters : Prop :=
  (∀ (s : State) (gid : Nat) (g : Group) (p : Split) (f : Psrd) (x : Part), Ready s gid g p → g.HasS [f.sd.toNat] → g.priv = true → (g.matq = [] ∨ (f.idx ≠ 0x11 ∧ f.idx ≠ 0x1A)) → s.part g.part = some x →
    (f.idx.toNat < 0x27 → ∃ k v, exec (.psrd f) s = .next (s.setGroup gid k) ∧ (f.idx.toNat, v) ∈ statusView s gid g k ∧
      Issued k ({ g with readLatch := if f.idx = 0x13 then BitVec.ofNat 32 (s.clock / 2 ^ 32)
        else if f.idx = 0x15 then BitVec.ofNat 32 (s.time / 2 ^ 32) else g.readLatch }.setSreg f.sd.toNat v) p (s.after g p 1)) ∧
    ∀ v, (f.idx.toNat, v) ∈ privView s gid g x → ∃ k, exec (.psrd f) s = .next (s.setGroup gid k) ∧
      Issued k ({ g with readLatch := if f.idx = 0x119 then BitVec.ofNat 32 (s.time / 2 ^ 32) else g.readLatch }.setSreg
        f.sd.toNat v) p (s.after g p 1)) ∧
  (∀ (s : State) (gid : Nat) (g : Group) (p : Split) (f : Psrd) (x : Part), Ready s gid g p → g.HasS [f.sd.toNat] → g.priv = true → s.part g.part = some x →
    g.matq ≠ [] → (f.idx = 0x11 ∨ f.idx = 0x1A) → ∃ k, exec (.psrd f) s = .next (s.setGroup gid k) ∧ Stands k g p .matrixIdle s.clock) ∧
  (∀ (s : State) (gid : Nat) (g : Group) (p : Split) (f : Psrd) (x : Part), Ready s gid g p → g.HasS [f.sd.toNat] → g.priv = true → s.part g.part = some x → f.idx = 0x124 →
    ∃ k v, exec (.psrd f) s = .next (s.setGroup gid k) ∧ Issued k (g.setSreg f.sd.toNat v) p (s.after g p 1) ∧
      v.toNat < 2 ^ 16 ∧ ∀ n < 16, v.getLsbD n = true ↔ ∃ y, (n, y) ∈ x.slots) ∧
  (∀ (s : State) (gid : Nat) (g : Group) (p : Split) (f : Pswr) (x : Part) (v : Word), Ready s gid g p → g.HasS [f.sa.toNat] → g.priv = true → s.part g.part = some x → v = g.sreg f.sa.toNat →
    (g.matq ≠ [] → (f.idx = 0x11 ∨ f.idx = 0x1A) → ∃ k, exec (.pswr f) s = .next (s.setGroup gid k) ∧ Stands k g p .matrixIdle s.clock) ∧
    (∀ h, (g.matq = [] ∨ (f.idx ≠ 0x11 ∧ f.idx ≠ 0x1A)) → (f.idx.toNat, h) ∈ ([(0x10, { g with mode := v.setWidth 25 }), (0x11, { g with flags := v.setWidth 7 }),
        (0x12, { g with scc := v.setWidth 5 }), (0x17, g), (0x18, { g with msig := v }), (0x19, { g with lscale := v }),
        (0x1A, { g with ovf := v.setWidth 3 }), (0x11A, { g with timeWrite := v })] : List (Nat × Group)) →
      ∃ k, exec (.pswr f) s = .next (s.setGroup gid k) ∧ Issued k h p (s.after g p 1) ∧ (f.idx = 0x17 → k.sig = v)) ∧
    (∀ y, (f.idx.toNat, y) ∈ partWrites x v →
      ∃ k, exec (.pswr f) s = .next ((s.setPart g.part y).setGroup gid k) ∧ Issued k g p (s.after g p 1)) ∧
    (f.idx = 0x105 → OverflowTable v →
      ∃ k, exec (.pswr f) s = .next ((s.setPart g.part { x with ovdef := v.setWidth 10 }).setGroup gid k) ∧
        Issued k g p (s.after g p 1)) ∧
    (f.idx = 0x105 → ¬OverflowTable v → g.handler = none →
      ∃ t, exec (.pswr f) s = .next t ∧ TrapEntered s t x gid g p 0x01 (v.setWidth 64) p.mask) ∧
    (f.idx = 0x119 → ∃ k u, exec (.pswr f) s = .next u ∧ Issued k g p (s.after g p 1) ∧
      u = { s.setGroup gid k with pkg := { s.pkg with timeBase := u.pkg.timeBase, timeClock := u.pkg.timeClock } } ∧
      u.time = max s.time (g.timeWrite ++ v : BitVec 64).toNat) ∧
    (f.idx = 0x136 → ∃ k, exec (.pswr f) s = .next { s.setGroup gid k with pkg := { s.pkg with ce := 0 } } ∧
      Issued k g p (s.after g p 1)) ∧
    (f.idx = 0x140 → ∃ k c, exec (.pswr f) s = .next ((s.setPart g.part { x with ckpt := c }).setGroup gid k) ∧
      Issued k g p (s.after g p 1) ∧ (x.ckpt.go = true → c = x.ckpt) ∧
      (x.ckpt.go = false → c = {
        go := v.getLsbD 31, quiesce := v.getLsbD 30, restore := v.getLsbD 29,
        stage := if v.getLsbD 31 then 1 else x.ckpt.stage })) ∧
    (f.idx = 0x108 ∨ f.idx = 0x109 → ∃ k, Waits k g p .partWrite (encode (.pswr f)) true s.clock ∧
      exec (.pswr f) s = .next ((s.setPart g.part { x with
        ptroot := if f.idx = 0x108 then hiWord x.ptroot ++ (v &&& 0xFFFF0001) else (v &&& 0x000FFFFF) ++ loWord x.ptroot }).setGroup
          gid k))) ∧
  (∀ (s : State) (gid : Nat) (g : Group) (p : Split) (h : Held) (f : Pswr) (x : Part), Resumes s gid g p h → h.marker = true →
    s.part g.part = some x → (f.idx = 0x108 ∨ f.idx = 0x109) →
    ∃ k, exec (.pswr f) s = .next (s.setGroup gid k) ∧ Issued k g p (s.after g p 1)) ∧
  (∀ (s : State) (gid : Nat) (g : Group) (v : Word), s.cur = some gid → s.group gid = some g →
    exec .clockLoRead s = .next (s.setGroup gid { g with readLatch := BitVec.ofNat 32 (s.clock / 2 ^ 32) }) ∧
    exec .timeLoRead s = .next (s.setGroup gid { g with readLatch := BitVec.ofNat 32 (s.time / 2 ^ 32) }) ∧
    exec .timesetLoRead s = .next (s.setGroup gid { g with readLatch := BitVec.ofNat 32 (s.time / 2 ^ 32) }) ∧
    exec (.timesetHiWrite v) s = .next (s.setGroup gid { g with timeWrite := v }) ∧
    (∃ u, exec (.timesetLoWrite v) s = .next u ∧ u.time = max s.time (g.timeWrite ++ v : BitVec 64).toNat ∧
      u = { s with pkg := { s.pkg with timeBase := u.pkg.timeBase, timeClock := u.pkg.timeClock } }) ∧
    exec .healthCeClear s = .next { s with pkg := { s.pkg with ce := 0 } } ∧
    ∀ q, g.issuing = some q →
      (g.matq ≠ [] → exec .flagsOvfAccess s = .next (s.setGroup gid (g.setIssuing { q with st := .waiting .matrixIdle }))) ∧
      (g.matq = [] → exec .flagsOvfAccess s = .next (s.setGroup gid g)))

/-- trap, rfe, rfe.next, rfe.park and PARK_WAKE (R381, R382, R386). In every ready group: trap outside a handler takes
trap 0x12 with its immediate in TVAL; rfe in a handler restores s0 to s62, p0 to p6, MODE, SCC, FLAGS, SIG and MSIG from
the frame, resumes the trapped split at the frame's TPC and the others as they were, and restarts the safe-point count;
rfe.next resumes after the instruction at TPC, 8 bytes on where it is a PREFIX or LIMM word and 4 bytes on otherwise;
rfe.park leaves the group Parked on the word that its address pair names, read before the restore; outside a handler, in
the house program, each takes trap 0x01; a Parked group goes on when its word is 1, is killed with the cause in its
frame when it is 2, and otherwise, and while a save of its team is being taken, keeps waiting. The kill of a group whose
word is poisoned, and a free TVAL of a kill, are the model's choices of log entries 78 and 67. -/
def Obligations.LeavingHandlers : Prop :=
  (∀ (s : State) (gid : Nat) (g : Group) (p : Split) (f : Imm16) (x : Part), Ready s gid g p → g.handler = none → s.part g.part = some x →
    ∃ t, exec (.trap f) s = .next t ∧ TrapEntered s t x gid g p 0x12 (f.imm.setWidth 64) p.mask) ∧
  (∀ (s : State) (gid : Nat) (g : Group) (p : Split) (f : Bare) (x : Part) (h : Handler) (tpc : DWord), Ready s gid g p → g.handler = some h → s.part g.part = some x →
    tpc = BitVec.ofNat 64 (ofBytes (s.sbytes (frameKey x gid + 0x158) 8)) &&& ~~~3 →
    (∃ k, exec (.rfe f) s = .next (s.setGroup gid k) ∧ HandlerLeft s x gid g k h tpc) ∧
    ∀ w r, fetchWord s ({ g with handler := none }.agent gid) tpc = .words (w :: r) →
      ∃ k, exec (.rfeNext f) s = .next ({ s with serial := s.serial + 1 }.setGroup gid k) ∧
        HandlerLeft s x gid g k h (codeStep g.text tpc (if isPrefixWord w || isLimmWord w then 8 else 4) &&& ~~~3)) ∧
  (∀ (s : State) (gid : Nat) (g : Group) (p : Split) (f : SysA) (x : Part) (h : Handler) (pl : Place), Ready s gid g p → g.handler = some h → s.part g.part = some x →
    g.HasS [f.sa.toNat, f.sa.toNat + 1] → Reaches s gid g .read 4 (g.spair f.sa.toNat).toNat pl → Unsent s (clusterOf (coreOf gid)) pl 4 →
    ∃ t k, exec (.rfePark f) s = .next t ∧
      Visited s t gid g { k with parked := some (match pl with
        | .spad a => { spad := true, place := a, key := none }
        | .phys a _ key _ _ => { spad := false, place := a, key := key }), blockedSince := s.clock } s.nextId pl ∧
      HandlerLeft s x gid g k h
        (BitVec.ofNat 64 (ofBytes (s.sbytes (frameKey x gid + 0x158) 8)) &&& ~~~3)) ∧
  (∀ (s : State) (gid : Nat) (g : Group) (p : Split) (f : Bare) (y : SysA) (x : Part), Ready s gid g p → g.handler = none → g.priv = true → s.part g.part = some x →
    g.HasS [y.sa.toNat, y.sa.toNat + 1] → ∀ i ∈ [Instr.rfe f, .rfeNext f, .rfePark y],
    ∃ t, exec i s = .next t ∧ TrapEntered s t x gid g p 0x01 (tvalOf i) p.mask) ∧
  (∀ (s : State) (gid : Nat) (g : Group) (w : Watch) (x : Part) (v : Nat), s.group gid = some g → s.part g.part = some x →
    g.parked = some w → g.residency = .running → s.watched w = (v, []) →
    (s.taking g = true → exec (.parkWake gid) s = .next s) ∧ (s.taking g = false →
    (v = 1 → exec (.parkWake gid) s = .next (s.setGroup gid { g with parked := none, syncAt := s.tick })) ∧
    (v = 2 → ∃ pc tval, exec (.parkWake gid) s = .next ({ s with serial := s.serial + 2 }.killGroup gid
      (ofBytes (s.sbytes (frameKey x gid + 0x154) 4) % 256) false pc tval)) ∧
    (v ≠ 1 → v ≠ 2 → exec (.parkWake gid) s = .next s))) ∧
  (∀ (s : State) (gid : Nat) (g : Group) (w : Watch) (x : Part), s.group gid = some g → s.part g.part = some x → g.parked = some w →
    g.residency = .running → (s.watched w).2 ≠ [] →
    ∃ pc, exec (.parkWake gid) s = .next (s.killGroup gid 0x10 false pc (BitVec.ofNat 64 w.place)))

/-- sigset, ovtld, halt, killg, keyld, ctxsv and ctxld (R399, R174, R408, R395, R402, R404, R388, R389). In every ready
privileged group: sigset of 0 or 1 writes SEN; ovtld of a legal table writes OVTAB; halt gives 1 or 2 for an island or point
refused and otherwise writes REQ, waits, and gives 0 once the point is reached; killg gives 1 or 2 for a locator refused and
otherwise kills the group named, or every group of its team, with cause 0x12 and gives 0; keyld gives the result of R404's
checks and, with 0, loads the slot; ctxsv gives 1, 2 or 3 for a save refused and otherwise asks for it, waits, and gives 0
once an image is written or 1 where none was; ctxld gives 1 or 2 for an image refused and otherwise queues its team at the
head of its class. An operand outside its form takes trap 0x01, and a misaligned image trap 0x09. Nothing else changes. That
halt refuses points 6 and 7 where any group stands, that TVAL of a kill is free, and the order of keyld are the model's
choices of log entries 54, 67 and 77. That ctxld of an image outside the regions gives 1 is that of entry 45, and what
a restore does with SIZE of its image that of entry 66. -/
def Obligations.SystemCalls : Prop :=
  (∀ (s : State) (gid : Nat) (g : Group) (p : Split) (f : SysA) (x : Part) (v : Word), Ready s gid g p → g.HasS [f.sa.toNat] → g.priv = true → s.part g.part = some x → v = g.sreg f.sa.toNat →
    (v.toNat < 2 → ∃ k, exec (.sigset f) s = .next ((s.setPart g.part { x with sen := v.getLsbD 0 }).setGroup gid k) ∧
      Issued k g p (s.after g p 1)) ∧
    (2 ≤ v.toNat → g.handler = none → ∃ t, exec (.sigset f) s = .next t ∧ TrapEntered s t x gid g p 0x01 (tvalOf (.sigset f)) p.mask) ∧
    (OverflowTable v → ∃ k, exec (.ovtld f) s = .next (s.setGroup gid k) ∧
      Issued k { g with ovtab := v.setWidth 10 } p (s.after g p 1)) ∧
    (¬OverflowTable v → g.handler = none →
      ∃ t, exec (.ovtld f) s = .next t ∧ TrapEntered s t x gid g p 0x01 (v.setWidth 64) p.mask)) ∧
  (∀ (s : State) (gid : Nat) (g : Group) (p : Split) (f : SysDA) (x : Part) (n q : Nat), Ready s gid g p → g.HasS [f.sd.toNat, f.sa.toNat] → g.priv = true → s.part g.part = some x → n < 128 →
    q < 8 → (g.sreg f.sa.toNat).toNat = n + 2 ^ 8 * q →
    (x.ownsIsland n = false → ∃ k, exec (.halt f) s = .next (s.setGroup gid k) ∧
      Issued k (g.setSreg f.sd.toNat 1) p (s.after g p 1)) ∧
    (x.ownsIsland n = true → (pointAccepted n q = false ∨ 6 ≤ q ∧ ∃ e ∈ s.groups, islandOfCore (coreOf e.1) = n) →
      ∃ k, exec (.halt f) s = .next (s.setGroup gid k) ∧ Issued k (g.setSreg f.sd.toNat 2) p (s.after g p 1)) ∧
    (x.ownsIsland n = true → pointAccepted n q = true → (6 ≤ q → ∀ e ∈ s.groups, islandOfCore (coreOf e.1) ≠ n) →
      ∃ k, exec (.halt f) s = .next ((s.setIsland n { s.island n with req := q }).setGroup gid k) ∧
        Waits k g p (.island n) (encode (.halt f)) true s.clock)) ∧
  (∀ (s : State) (gid : Nat) (g : Group) (p : Split) (h : Held) (f : SysDA), Resumes s gid g p h → h.marker = true →
    ∃ k, exec (.halt f) s = .next (s.setGroup gid k) ∧ Issued k (g.setSreg f.sd.toNat 0) p (s.after g p 1)) ∧
  (∀ (s : State) (gid : Nat) (g : Group) (p : Split) (f : SysDA) (x : Part) (w : Word), Ready s gid g p → g.HasS [f.sd.toNat, f.sa.toNat] → g.priv = true → s.part g.part = some x →
    w = g.sreg f.sa.toNat → w.toNat / 2 ^ 21 = 0 → w.toNat % 16 < 2 →
    (s.located g.part (w &&& ~~~1) = none → ∃ k, exec (.killg f) s = .next (s.setGroup gid k) ∧
      Issued k (g.setSreg f.sd.toNat 1) p (s.after g p 1)) ∧
    ∀ id q, s.located g.part (w &&& ~~~1) = some (id, q) →
      ((id = gid ∨ w.getLsbD 0 = true ∧ q.team ≠ none ∧ q.team = g.team) → ∃ k, exec (.killg f) s = .next (s.setGroup gid k) ∧
        Issued k (g.setSreg f.sd.toNat 2) p (s.after g p 1)) ∧
      (id ≠ gid → w.getLsbD 0 = false → ∃ h k pc tval, (∃ hh, h = (g.charged h).setIssuing { p with held := some hh, safeAt := none }) ∧
        exec (.killg f) s =
          .next ((({ s with serial := s.serial + 2 }.setGroup gid h).killGroup id 0x12 false pc tval).setGroup gid k) ∧
        Issued k (g.setSreg f.sd.toNat 0) p (s.after g p 1)) ∧
      (id ≠ gid → w.getLsbD 0 = true → q.team ≠ none → q.team ≠ g.team → ∃ t k, exec (.killg f) s = .next t ∧ t.group gid = some k ∧
        Issued k (g.setSreg f.sd.toNat 0) p (s.after g p 1) ∧ ∀ e ∈ s.groups, e.2.team = q.team → t.group e.1 = none)) ∧
  (∀ (s : State) (gid : Nat) (g : Group) (p : Split) (f : SysDAB) (x : Part) (n : Nat) (er : Bool) (pl : Place) (r : Nat × List Byte) (b : List Byte), Ready s gid g p →
    g.HasS [f.sd.toNat, f.sa.toNat, f.sa.toNat + 1, f.sb.toNat] → g.priv = true → s.part g.part = some x → n < 16 →
    (g.sreg f.sb.toNat).toNat = n + (if er then 256 else 0) → Reaches s gid g .read 128 (g.spair f.sa.toNat).toNat pl →
    Unsent s (clusterOf (coreOf gid)) pl 128 → b = s.readAt pl 128 → r = keyResult s g.part x n er b →
    (∃ t k y, exec (.keyld f) s = .next t ∧ (∃ q, t.group gid = some q ∧ q = { k with lastPages := q.lastPages }) ∧
      Issued k ({ g with syncAt := s.tick }.setSreg f.sd.toNat (BitVec.ofNat 32 r.1)) p (s.after g p 1) ∧ t.part g.part = some y ∧
      (∀ j, j ≠ n → tabGet y.keys j = tabGet x.keys j) ∧
      tabGet y.keys n = (if r.1 = 0 then some r.2 else if er then none else tabGet x.keys n)) ∧
    ((er = true → ∀ q, tabGet x.keys n = some q → ∀ e ∈ s.dir, ∀ c ∈ e.2.l1, c.2.key ≠ some q) →
    ∃ t k u pp y, exec (.keyld f) s = .next t ∧ Visited s u gid g k s.nextId pl ∧
      Issued k ({ g with syncAt := s.tick }.setSreg f.sd.toNat (BitVec.ofNat 32 r.1)) p (s.after g p 1) ∧
      tabGet pp g.part = some y ∧ (∀ j, j ≠ g.part → tabGet pp j = s.part j) ∧ y = { x with keys := y.keys, keystat := y.keystat } ∧
      (∀ j, j ≠ n → tabGet y.keys j = tabGet x.keys j) ∧
      (r.1 = 0 → tabGet y.keys n = some r.2 ∧ y.keystat = (x.keystat ||| BitVec.ofNat 16 (2 ^ n)) ∧ ∃ e,
        tabGet s.pkg.sessions (ofBytes ((b.drop 4).take 4)) = some e ∧
        t = { u with
                parts := pp,
                pkg := { s.pkg with
                            sessions := smapInsert s.pkg.sessions (ofBytes ((b.drop 4).take 4))
                              { e with lastSeq := some (ofBytes ((b.drop 0x18).take 8)) } } }) ∧
      (r.1 ≠ 0 → t = { u with parts := pp } ∧ tabGet y.keys n = (if er then none else tabGet x.keys n) ∧
        y.keystat = if er then x.keystat &&& ~~~(BitVec.ofNat 16 (2 ^ n)) else x.keystat))) ∧
  (∀ (s : State) (gid : Nat) (g : Group) (p : Split) (f : SysDAB) (x : Part) (w : Word) (a : Nat), Ready s gid g p → g.HasS [f.sd.toNat, f.sa.toNat, f.sa.toNat + 1, f.sb.toNat] → g.priv = true →
    s.part g.part = some x → w = g.sreg f.sb.toNat → a = (g.spair f.sa.toNat).toNat →
    ((w.toNat / 2 ^ 21 ≠ 0 ∨ w.toNat % 16 ≠ 0) → g.handler = none → ∃ t, exec (.ctxsv f) s = .next t ∧
      TrapEntered s t x gid g p 0x01 (tvalOf (.ctxsv f)) p.mask) ∧
    (w.toNat / 2 ^ 21 = 0 → w.toNat % 16 = 0 →
      (a % 128 ≠ 0 → g.handler = none → ∃ t, exec (.ctxsv f) s = .next t ∧ TrapEntered s t x gid g p 0x09 (BitVec.ofNat 64 a) p.mask) ∧
      (a % 128 = 0 →
        ((s.located g.part w = none ∨ ∃ id q, s.located g.part w = some (id, q) ∧
            (q.team.bind s.team = none ∨ ∃ t, q.team.bind s.team = some t ∧ t.state ≠ .resident)) →
          ∃ k, exec (.ctxsv f) s = .next (s.setGroup gid k) ∧ Issued k (g.setSreg f.sd.toNat 1) p (s.after g p 1)) ∧
        ∀ id q tid t, s.located g.part w = some (id, q) → q.team = some tid → s.team tid = some t → t.state = .resident →
          ((∃ m ∈ s.members t, m.2.saving ≠ none) → ∃ k, exec (.ctxsv f) s = .next (s.setGroup gid k) ∧
            Issued k (g.setSreg f.sd.toNat 2) p (s.after g p 1)) ∧
          ((∀ m ∈ s.members t, m.2.saving = none) →
            (s.ownsSpan x a (((s.members t).map fun m => s.imageBound m.2).sum) = false →
              ∃ k, exec (.ctxsv f) s = .next (s.setGroup gid k) ∧ Issued k (g.setSreg f.sd.toNat 3) p (s.after g p 1)) ∧
            (s.ownsSpan x a (((s.members t).map fun m => s.imageBound m.2).sum) = true →
              ∃ k, exec (.ctxsv f) s = .next ((s.askSave tid t a false).setGroup gid k) ∧
                Waits k g p (.saveTaken tid) (encode (.ctxsv f)) true s.clock ∧ Keeps k g p (.saveTaken tid) [tid] s.clock))))) ∧
  (∀ (s : State) (gid : Nat) (g : Group) (p : Split) (h : Held) (f : SysDAB) (tid : Nat), Resumes s gid g p h → h.marker = true →
    h.grids = [tid] → ∃ k, exec (.ctxsv f) s = .next (s.setGroup gid k) ∧ Issued k (g.setSreg f.sd.toNat
      (if ((s.team tid).bind fun t => t.image).isSome then 0 else 1)) p (s.after g p 1)) ∧
  (∀ (s : State) (gid : Nat) (g : Group) (p : Split) (f : SysDA) (x : Part) (a : Nat), Ready s gid g p → g.HasS [f.sd.toNat, f.sa.toNat, f.sa.toNat + 1] → g.priv = true →
    s.part g.part = some x → a = (g.spair f.sa.toNat).toNat →
    ((s.ownsSpan x a 128 = false ∨ s.memNat (a + 4) 4 ≠ 1 ∨ s.memNat a 4 = 0) → ∃ k, exec (.ctxld f) s = .next (s.setGroup gid k) ∧
      Issued k (g.setSreg f.sd.toNat 1) p (s.after g p 1)) ∧
    (s.ownsSpan x a 128 = true → s.memNat (a + 4) 4 = 1 → s.memNat a 4 ≠ 0 →
      ((∀ t, s.team (s.memNat (a + 8) 4) = some t → t.part ≠ g.part ∨ t.state ≠ .preempted ∨ t.loadFrom ≠ none) →
        ∃ k, exec (.ctxld f) s = .next (s.setGroup gid k) ∧ Issued k (g.setSreg f.sd.toNat 2) p (s.after g p 1)) ∧
      ∀ t, s.team (s.memNat (a + 8) 4) = some t → t.part = g.part → t.state = .preempted → t.loadFrom = none →
        (∀ m ∈ s.members t, s.team m.1 = some m.2) →
        ∃ k tt, exec (.ctxld f) s = .next { s.setGroup gid k with teams := tt } ∧
          Issued k (g.setSreg f.sd.toNat 0) p (s.after g p 1) ∧
          (∀ m ∈ s.members t, tabGet tt m.1 = some { m.2 with
            loadFrom := some (m.2.image.getD 0 + a - t.image.getD 0), arrival := s.headArrival g.part,
            named := decide (m.1 = s.memNat (a + 8) 4) }) ∧
          ∀ id, (∀ m ∈ s.members t, m.1 ≠ id) → tabGet tt id = s.team id))

/-- pgmap, pgpool, xlat, place and dupset (R371, R372, R373, R374, R375, R376, R356, R357, R367, R403). In every ready
group: pgmap takes the last frame added to its pool, sets its bytes to 0 and its cached copies to be invalidated, waits
until those writes are performed, and gives the frame's address, or 0 when the pool is empty; pgpool.add pushes a frame that fits and gives the count, or an error code;
pgpool.rem pops without zeroing, and pgpool.cnt counts; xlat gives the descriptor and, to privileged code, the entry
address, and changes no memory; place.to and place.here leave at most a request on the page's record, place.reset zeroes
its counts, and an address that is no valid 64 KiB page is ignored; dupset gives 1, 2 or 3 for a page refused, claims
the entry, copies the page into a frame of each other die that the partition owns and sets D, each write performed before
the next, and gives 0, or 4 where the entry has changed; or it begins a collapse, waits, and gives 0; xlat and dupset
wait where their walk does (R357). A control word outside its form takes trap 0x01. Nothing else changes. That a home
may drop a placement request, and the steps of a duplication, are the model's choices of log entries 44 and 13. -/
def Obligations.PagesAndPools : Prop :=
  (∀ (s : State) (gid : Nat) (g : Group) (p : Split) (f : SysDA) (x : Part) (c : Word) (d : Nat) (large : Bool), Ready s gid g p → g.priv = true → s.part g.part = some x → c = g.sreg f.sa.toNat →
    g.HasS [f.sd.toNat, f.sd.toNat + 1, f.sa.toNat] → PoolNamed c gid d large →
    (x.pool (poolKey d large) = [] → (∃ k, exec (.pgmap f) s = .next (s.setGroup gid k) ∧
        Issued k (g.setSpair f.sd.toNat 0) p (s.after g p 1)) ∧
      ∃ k, exec (.pgpoolRem f) s = .next (s.setGroup gid k) ∧ Issued k (g.setSpair f.sd.toNat 0) p (s.after g p 1)) ∧
    ∀ fr r, x.pool (poolKey d large) = fr :: r →
      (∃ k y, exec (.pgpoolRem f) s = .next ((s.setPart g.part y).setGroup gid k) ∧ PoolSet x y (poolKey d large) r ∧
        Issued k (g.setSpair f.sd.toNat (BitVec.ofNat 64 fr)) p (s.after g p 1)) ∧
      ∀ inside : Nat → Prop, (∀ l, inside l ↔ (tabGet s.dir l).isSome = true ∧ fr ≤ 128 * l ∧
          128 * l < fr + (if large then 2 ^ 29 else 2 ^ 16)) →
      ∃ k y m po dr hi, exec (.pgmap f) s =
          .next { (s.setPart g.part y).setGroup gid k with mem := m, poison := po, dir := dr, hist := hi } ∧
        PoolSet x y (poolKey d large) r ∧
        ((∀ l, inside l → Unheld s l) → Issued k (g.setSpair f.sd.toNat (BitVec.ofNat 64 fr)) p (s.after g p 1)) ∧
        (∀ l, inside l → ¬Unheld s l → ∃ ls, (∀ j, j ∈ ls ↔ inside j) ∧
          Waits k g p (.writesDone fr ls) (encode (.pgmap f)) true s.clock ∧ Keeps k g p (.writesDone fr ls) [fr] s.clock) ∧
        (∀ a, smapGet memDefault m a = if fr ≤ a ∧ a < fr + (if large then 2 ^ 29 else 2 ^ 16) then 0 else s.byte a) ∧
        (∀ h, h ∈ hi ↔ h ∈ s.hist ∧ ¬(fr ≤ h.key ∧ h.key < fr + (if large then 2 ^ 29 else 2 ^ 16))) ∧
        ∀ l, tabGet dr l = (tabGet s.dir l).map fun e =>
          if fr ≤ 128 * l ∧ 128 * l < fr + (if large then 2 ^ 29 else 2 ^ 16) then
            { e with invals := e.holders, arriving := [], l1 := e.l1.map fun c => (c.1, { c.2 with dirty := 0 }) }
          else e) ∧
  (∀ (s : State) (gid : Nat) (g : Group) (p : Split) (h : Held) (f : SysDA) (fr : Nat), Resumes s gid g p h → h.marker = true →
    h.grids = [fr] → ∃ k, exec (.pgmap f) s = .next (s.setGroup gid k) ∧
      Issued k (g.setSpair f.sd.toNat (BitVec.ofNat 64 fr)) p (s.after g p 1)) ∧
  (∀ (s : State) (gid : Nat) (g : Group) (p : Split) (f : SysDA) (x : Part) (c : Word) (d : Nat) (large : Bool), Ready s gid g p → g.priv = true → s.part g.part = some x →
    g.HasS [f.sd.toNat, f.sa.toNat, f.sa.toNat + 1, f.sa.toNat + 2, f.sa.toNat + 3] →
    (c = g.sreg f.sa.toNat → PoolNamed c gid d large → ∃ k, exec (.pgpoolCnt f) s = .next (s.setGroup gid k) ∧
      Issued k (g.setSreg f.sd.toNat (BitVec.ofNat 32 (x.pool (poolKey d large)).length)) p (s.after g p 1)) ∧
    (c = g.sreg (f.sa.toNat + 2) → PoolNamed c gid d large → ∀ fr, fr = (g.spair f.sa.toNat).toNat →
      (¬FrameFits s x d (if large then 2 ^ 29 else 2 ^ 16) fr → ∃ k, exec (.pgpoolAdd f) s = .next (s.setGroup gid k) ∧
        Issued k (g.setSreg f.sd.toNat 0xFFFFFFFE) p (s.after g p 1)) ∧
      (FrameFits s x d (if large then 2 ^ 29 else 2 ^ 16) fr → 65536 ≤ (x.pool (poolKey d large)).length →
        ∃ k, exec (.pgpoolAdd f) s = .next (s.setGroup gid k) ∧ Issued k (g.setSreg f.sd.toNat 0xFFFFFFFF) p (s.after g p 1)) ∧
      (FrameFits s x d (if large then 2 ^ 29 else 2 ^ 16) fr → (x.pool (poolKey d large)).length < 65536 →
        ∃ k y, exec (.pgpoolAdd f) s = .next ((s.setPart g.part y).setGroup gid k) ∧
          PoolSet x y (poolKey d large) (fr :: x.pool (poolKey d large)) ∧
          Issued k (g.setSreg f.sd.toNat (BitVec.ofNat 32 ((x.pool (poolKey d large)).length + 1))) p (s.after g p 1))) ∧
    (g.handler = none → c = g.sreg f.sa.toNat → (16 ≤ c.toNat ∨ 5 ≤ c.toNat % 8) →
      ∃ t, exec (.pgpoolCnt f) s = .next t ∧ TrapEntered s t x gid g p 0x01 (c.setWidth 64) p.mask)) ∧
  (∀ (s : State) (gid : Nat) (g : Group) (p : Split) (f : SysDA) (x : Part) (r : Nat × Nat), Ready s gid g p → s.part g.part = some x →
    g.HasS [f.sd.toNat, f.sd.toNat + 1, f.sd.toNat + 2, f.sd.toNat + 3, f.sa.toNat, f.sa.toNat + 1] →
    r = xlatAnswer s x g.priv (g.spair f.sa.toNat).toNat →
    (∀ l, s.xlatWaits x g.priv (g.spair f.sa.toNat).toNat = some l → ∃ k, exec (.xlat f) s = .next (s.setGroup gid k) ∧
      Stands k g p (.lineBusy l) s.clock) ∧
    (s.xlatWaits x g.priv (g.spair f.sa.toNat).toNat = none → ∃ k, exec (.xlat f) s = .next (s.setGroup gid k) ∧
      Issued k (((g.setSreg f.sd.toNat (BitVec.ofNat 32 r.1)).setSreg (f.sd.toNat + 1) 0).setSpair (f.sd.toNat + 2)
        (if g.priv then BitVec.ofNat 64 r.2 else 0)) p (s.after g p 1))) ∧
  (∀ (s : State) (gid : Nat) (g : Group) (p : Split) (i : Instr) (sa : Nat) (x : Part) (want : Option Nat), Ready s gid g p → s.part g.part = some x →
    ((∃ f : SysAB, i = .placeTo f ∧ sa = f.sa.toNat ∧ g.HasS [sa, sa + 1, f.sb.toNat] ∧ (g.sreg f.sb.toNat).toNat < 4 ∧
        want = some (g.sreg f.sb.toNat).toNat) ∨
      (∃ f : SysA, i = .placeHere f ∧ sa = f.sa.toNat ∧ g.HasS [sa, sa + 1] ∧ want = some (gid / 24576)) ∨
      ∃ f : SysA, i = .placeReset f ∧ sa = f.sa.toNat ∧ g.HasS [sa, sa + 1] ∧ want = none) →
    ((∀ fr entry, ¬PlacedOn s x g.priv (g.spair sa).toNat fr entry) → ∃ k, exec i s = .next (s.setGroup gid k) ∧
      Issued k g p (s.after g p 1)) ∧
    ∀ fr entry, PlacedOn s x g.priv (g.spair sa).toNat fr entry →
      ∃ k pg r, exec i s = .next { s.setGroup gid k with pages := pg, serial := r } ∧ Issued k g p (s.after g p 1) ∧
        (want ≠ none → pg = s.pages ∨ pg = smapInsert s.pages fr { s.pageRec g.part fr entry with want := want }) ∧
        (want = none → pg = smapInsert s.pages fr { s.pageRec g.part fr entry with counts := [0, 0, 0, 0] })) ∧
  (∀ (s : State) (gid : Nat) (g : Group) (p : Split) (f : SysAB) (x : Part), Ready s gid g p → s.part g.part = some x → g.HasS [f.sa.toNat, f.sa.toNat + 1, f.sb.toNat] →
    4 ≤ (g.sreg f.sb.toNat).toNat → g.handler = none →
    ∃ t, exec (.placeTo f) s = .next t ∧ TrapEntered s t x gid g p 0x01 (tvalOf (.placeTo f)) p.mask) ∧
  (∀ (s : State) (gid : Nat) (g : Group) (p : Split) (f : SysDAB) (x : Part) (b : Nat), Ready s gid g p → g.priv = true → s.part g.part = some x →
    g.HasS [f.sd.toNat, f.sa.toNat, f.sa.toNat + 1, f.sb.toNat] → b = (g.sreg f.sb.toNat).toNat →
    (2 ≤ b → g.handler = none → ∃ t, exec (.dupset f) s = .next t ∧ TrapEntered s t x gid g p 0x01 (tvalOf (.dupset f)) p.mask) ∧
    (∀ l, b < 2 → s.xlatWaits x g.priv (g.spair f.sa.toNat).toNat = some l →
      ∃ k, exec (.dupset f) s = .next (s.setGroup gid k) ∧ Stands k g p (.lineBusy l) s.clock) ∧
    (b < 2 → s.xlatWaits x g.priv (g.spair f.sa.toNat).toNat = none → (∀ fr entry, PlacedOn s x g.priv (g.spair f.sa.toNat).toNat fr entry → pteKind (s.memNat entry 8) ≠ 0) →
      ∃ k, exec (.dupset f) s = .next (s.setGroup gid k) ∧ Issued k (g.setSreg f.sd.toNat 1) p (s.after g p 1)) ∧
    ∀ fr entry old r, PlacedOn s x g.priv (g.spair f.sa.toNat).toNat fr entry → old = s.memNat entry 8 → pteKind old = 0 →
      r = s.pageRec g.part fr entry →
      ((b = 1 ∧ pteD old = true ∧ r.replicas ≠ [] ∨ b = 0 ∧ pteD old = false ∧ r.replicas = []) →
        ∃ k, exec (.dupset f) s = .next (s.setGroup gid k) ∧ Issued k (g.setSreg f.sd.toNat 3) p (s.after g p 1)) ∧
      (b = 0 → (pteD old = true ∨ r.replicas ≠ []) → r.collapsing = true → ∃ k, exec (.dupset f) s = .next (s.setGroup gid k) ∧
        Waits k g p (.frameMove fr) (encode (.dupset f)) true s.clock) ∧
      (∀ e v, b = 0 → (pteD old = true ∨ r.replicas ≠ []) → r.collapsing = false → r.entry = some e → v = s.memNat e 8 →
        ∃ k m po dr, exec (.dupset f) s = .next { s.setGroup gid k with
            pages := smapInsert s.pages fr { r with collapsing := true }, mem := m, poison := po, dir := dr } ∧
          Waits k g p (.frameMove fr) (encode (.dupset f)) true s.clock ∧
          (∀ a, smapGet memDefault m a =
            if pteFrame v = 2 ^ 16 * fr ∧ pteD v = true then entryByte s e (v - 2 ^ 4) a else s.byte a) ∧
          (∀ l, l ≠ e / 128 → tabGet dr l = tabGet s.dir l) ∧
          (pteFrame v = 2 ^ 16 * fr → pteD v = true → ∀ h ∈ (s.dirEntry (e / 128)).holders,
            h ∈ ((tabGet dr (e / 128)).map fun d => d.invals).getD [])) ∧
      ∀ ds : List Nat, ds = ([0, 1, 2, 3].filter fun d =>
          decide (bits x.region.toNat (16 * d) 16 ≠ 0) && decide (d ≠ homeDie (2 ^ 16 * fr))) →
        b = 1 → (pteD old = false ∨ r.replicas = []) → r.collapsing = false → PlainBut s (some fr) [entry / 128] →
        (¬Idle s (entry / 128) → ∃ k m po dr, exec (.dupset f) s = .next { s.setGroup gid k with
            pages := smapInsert s.pages fr { r with entry := some entry, moving := some (.dupClaimed (old ||| 2 ^ 7)) },
            mem := m, poison := po, dir := dr } ∧
          Waits k g p (.writesDone fr [entry / 128]) (encode (.dupset f)) true s.clock ∧
          Keeps k g p (.writesDone fr [entry / 128]) [fr] s.clock ∧
          (∀ a, smapGet memDefault m a = entryByte s entry (old ||| 2 ^ 7) a) ∧
          (∀ h ∈ (s.dirEntry (entry / 128)).holders, h ∈ ((tabGet dr (entry / 128)).map fun d => d.invals).getD [])) ∧
        (Idle s (entry / 128) → (∃ d ∈ ds, x.pool (poolKey d false) = []) →
          ∃ k m po dr pg pp, exec (.dupset f) s = .next { s.setGroup gid k with
              pages := pg, parts := pp, mem := m, poison := po, dir := dr } ∧
            Issued k (g.setSreg f.sd.toNat 2) p (s.after g p 1) ∧ (∀ a, smapGet memDefault m a = s.byte a) ∧
            (r.replicas = [] → pp = s.parts ∧ pg = smapInsert s.pages fr { r with entry := some entry, moving := none })) ∧
        ∀ fs : List (Nat × Nat), fs = ds.map (fun d => (d, (x.pool (poolKey d false)).headD 0)) → Idle s (entry / 128) →
          (∀ d ∈ ds, x.pool (poolKey d false) ≠ []) →
          (∀ e ∈ fs, Apart e.2 (2 ^ 16) (2 ^ 16 * fr) (2 ^ 16) ∧ Apart e.2 (2 ^ 16) entry 8 ∧ e.2 % 128 = 0) →
          Apart (2 ^ 16 * fr) (2 ^ 16) entry 8 → fs.Pairwise (fun e e' => Apart e.2 (2 ^ 16) e'.2 (2 ^ 16)) →
          (∀ e ∈ fs, ∀ l, (tabGet s.dir l).isSome = true → e.2 ≤ 128 * l → 128 * l < e.2 + 2 ^ 16 → Idle s l) →
          ∃ k m po dr y pp, exec (.dupset f) s = .next { s.setGroup gid k with
              parts := pp, mem := m, poison := po, dir := dr,
              pages := smapInsert s.pages fr { r with entry := some entry, replicas := fs, moving := none } } ∧
            Issued k (g.setSreg f.sd.toNat 0) p (s.after g p 1) ∧ y = { x with pools := y.pools } ∧
            tabGet pp g.part = some y ∧ (∀ j, j ≠ g.part → tabGet pp j = s.part j) ∧
            (∀ d ∈ ds, y.pool (poolKey d false) = (x.pool (poolKey d false)).tail) ∧
            (∀ e ∈ fs, FrameCopied s m (x.keyFor old) fr e.2) ∧
            (upFrom entry 8).map (smapGet memDefault m) = toBytes 8 (old ||| 0x10) ∧
            ∀ a, (a < entry ∨ entry + 8 ≤ a) → (∀ e ∈ fs, a < e.2 ∨ e.2 + 2 ^ 16 ≤ a) → smapGet memDefault m a = s.byte a) ∧
  (∀ (s : State) (gid : Nat) (g : Group) (p : Split) (h : Held) (f : SysDAB) (x : Part) (b : Word), Resumes s gid g p h → h.marker = true →
    s.part g.part = some x → b = (h.view g).sreg f.sb.toNat →
    (b = 0 → ∃ k, exec (.dupset f) s = .next (s.setGroup gid k) ∧ Issued k (g.setSreg f.sd.toNat 0) p (s.after g p 1)) ∧
    ∀ fr r e, b = 1 → h.grids = [fr] → tabGet s.pages fr = some r → r.entry = some e →
      (r.moving = some .dupSet → ∃ k, exec (.dupset f) s =
          .next { s.setGroup gid k with pages := smapInsert s.pages fr { r with moving := none } } ∧
        Issued k (g.setSreg f.sd.toNat 0) p (s.after g p 1)) ∧
      (∀ busy, r.moving = some (.dupCopied busy) → s.memNat e 8 ≠ busy → r.part = g.part →
        ∃ k y pp, exec (.dupset f) s = .next { s.setGroup gid k with
            parts := pp, pages := smapInsert s.pages fr { r with moving := none, replicas := [] } } ∧
          Issued k (g.setSreg f.sd.toNat 4) p (s.after g p 1) ∧ y = { x with pools := y.pools } ∧
          tabGet pp g.part = some y ∧ (∀ j, j ≠ g.part → tabGet pp j = s.part j) ∧
          ∀ d, (x.pool (poolKey d false)).length + r.replicas.length ≤ 65536 → y.pool (poolKey d false) =
            ((r.replicas.filter fun e => decide (e.1 = d)).map fun e => e.2).reverse ++ x.pool (poolKey d false)) ∧
      (∀ busy, r.moving = some (.dupCopied busy) → s.memNat e 8 = busy → e % 8 = 0 → Idle s (e / 128) → r.collapsing = false →
        PlainBut s (some fr) [e / 128] →
        ∃ k m po dr, exec (.dupset f) s = .next { s.setGroup gid k with
            pages := smapInsert s.pages fr { r with moving := none }, mem := m, poison := po, dir := dr } ∧
          Issued k (g.setSreg f.sd.toNat 0) p (s.after g p 1) ∧
          ∀ a, smapGet memDefault m a = entryByte s e ((busy - 2 ^ 7) ||| 0x10) a))

/-- The steps of the directory, the pages and the host (R355, R356, R357, R358, R359, R360, R361, R362, R366, R367, R369,
R403). In every state: an L1 with dirty bytes of a line sends them home, the home merges the bytes sent first into its own and
is to invalidate every other holder, a holder whose invalidation is outstanding or which evicts leaves the line, unless it
holds translations that an access in progress uses, and a refill makes the requester a holder, an L1 with the home's bytes,
unless a walk must wait for a write; a host write stores its bytes and no others, where memory is held outside the safe tier,
and a host ownership request invalidates the device's copies, and each is answered once its writes are performed, which makes
the owner a holder; a migration that its page allows claims the entry, copies the page's bytes to a frame of the target die,
rewrites the entry and returns the old frame, each step once the writes of the last are performed, and ends without effect
where the page does not allow it, its pool is empty or software has rewritten the entry; a collapse whose entry is written
returns the replica frames and performs the writes held for it; counts halve when their period has passed; a write of PTROOT
completes when no access uses a translation of the partition, and removes those translations. The division of a migration into
these steps, the caches that the walks of others than threads install in, and that a strong write merges what the L1s hold,
are the model's choices of log entries 13, 90 and 97. -/
def Obligations.HomesAndPages : Prop :=
  (∀ (s : State) (c line : Nat), ((∀ y, tabGet (s.dirEntry line).l1 c = some y → y.dirty = 0) → exec (.l1DirtyFlush c line) s = .next s) ∧
    ∀ y, tabGet (s.dirEntry line).l1 c = some y → y.dirty ≠ 0 → ∃ t, exec (.l1DirtyFlush c line) s = .next t ∧ DirChanged s t line ∧
      t.dirEntry line = { s.dirEntry line with
        l1 := smapInsert (s.dirEntry line).l1 c { y with dirty := 0 }, arriving := (s.dirEntry line).arriving ++ [(c, y)] }) ∧
  (∀ (s : State) (h : Holder) (line : Nat), (∀ c, h = .l1 c → ∀ a ∈ (s.dirEntry line).arriving, a.1 ≠ c) → exec (.homeMerge h line) s = .next s) ∧
  (∀ (s : State) (c line : Nat) (y : L1Copy) (pre post : List (Nat × L1Copy)), (s.dirEntry line).arriving = pre ++ (c, y) :: post →
    (∀ a ∈ pre, a.1 ≠ c) → PlainBut s none [line] →
    ∃ m po dr t, exec (.homeMerge (.l1 c) line) s = .next t ∧ t = { s with mem := m, poison := po, dir := dr } ∧
      (∀ l, l ≠ line → t.dirEntry l = s.dirEntry l) ∧ (t.dirEntry line).arriving = pre ++ post ∧
      (t.dirEntry line).holders = (s.dirEntry line).holders ∧ (t.dirEntry line).l1 = (s.dirEntry line).l1 ∧
      (∀ x ∈ (s.dirEntry line).holders, x ≠ .l1 c → x ∈ (t.dirEntry line).invals) ∧ (∀ a, a / 128 ≠ line → t.byte a = s.byte a) ∧
      (y.key = none → ∀ i < 128, t.byte (128 * line + i) = if y.dirty.getLsbD i then y.data.getD i 0 else s.byte (128 * line + i)) ∧
      ∀ q, y.key = some q → t.bytes (128 * line) 128 = xtsEncLine q (128 * line) ((List.range 128).map fun i =>
        if y.dirty.getLsbD i then y.data.getD i 0 else (s.plainLine (some q) line).getD i 0)) ∧
  (∀ (s : State) (h : Holder) (line : Nat),
    ((∀ c, h ≠ .coreTlb c) ∧ (∀ d, h ≠ .dieXlat d) ∨ s.awaited line = false) →
    (h ∈ (s.dirEntry line).invals → ∃ t, exec (.holderInvalidate h line) s = .next t ∧ HolderLeft s t h line) ∧
    (h ∈ (s.dirEntry line).holders → ∃ t, exec (.evictionNotice h line) s = .next t ∧ HolderLeft s t h line)) ∧
  (∀ (s : State) (h : Holder) (line : Nat), ((∃ c, h = .coreTlb c) ∨ ∃ d, h = .dieXlat d) →
    (s.awaited line = true → exec (.holderInvalidate h line) s = .next s ∧
      (h ∈ (s.dirEntry line).invals → exec (.evictionNotice h line) s = .next s)) ∧
    ((s.dirEntry line).invals ≠ [] ∨ (s.dirEntry line).arriving ≠ [] → exec (.refillRequest h line) s = .next s)) ∧
  (∀ (s : State) (h : Holder) (line : Nat), (∀ c, h ≠ .l1 c) → ((∀ c, h ≠ .coreTlb c) ∧ (∀ d, h ≠ .dieXlat d) ∨
      (s.dirEntry line).invals = [] ∧ (s.dirEntry line).arriving = []) →
    ∃ t, exec (.refillRequest h line) s = .next t ∧ DirChanged s t line ∧
      (∀ x, x ∈ (t.dirEntry line).holders ↔ x = h ∨ x ∈ (s.dirEntry line).holders) ∧ (t.dirEntry line).l1 = (s.dirEntry line).l1 ∧
      (t.dirEntry line).invals = (s.dirEntry line).invals ∧ (t.dirEntry line).arriving = (s.dirEntry line).arriving) ∧
  (∀ (s : State) (c line : Nat) (r : PageRec) (a : Nat) (x : Part), tabGet s.pages (line / 512) = some r → r.entry = some a → s.part r.part = some x →
    .l1 c ∉ (s.dirEntry line).holders → ∃ t, exec (.refillRequest (.l1 c) line) s = .next t ∧ DirChanged s t line ∧
      t.dirEntry line = { s.dirEntry line with
        holders := .l1 c :: (s.dirEntry line).holders,
        l1 := smapInsert (s.dirEntry line).l1 c
          { key := x.keyFor (s.memNat a 8), data := s.plainLine (x.keyFor (s.memNat a 8)) line, dirty := 0, since := 0 } }) ∧
  (∀ (s : State) (pa : Nat) (bs : List Byte), bs ≠ [] →
    ((holdsMemory s pa = false ∨ safeTier pa = true) → exec (.hostCxlMemWrite pa bs) s = .next s) ∧
    (holdsMemory s pa = true → holdsMemory s (pa + bs.length - 1) = true → safeTier pa = false → PlainBut s none (linesOf pa bs.length) →
      ∃ m po dr, exec (.hostCxlMemWrite pa bs) s = .next { s with
          mem := m, poison := po, dir := dr, nextId := s.nextId + 1,
          hostWaits := smapInsert s.hostWaits s.nextId { owner := false, lines := linesOf pa bs.length } } ∧
        (upFrom pa bs.length).map (smapGet memDefault m) = bs ∧
        (∀ a, (a < pa ∨ pa + bs.length ≤ a) → smapGet memDefault m a = s.byte a) ∧
        ∀ l ∈ linesOf pa bs.length, ∀ h ∈ (s.dirEntry l).holders,
          h ∈ (((tabGet dr l).map fun e => e.invals).getD []))) ∧
  (∀ (s : State) (n : Nat) (q : HostWait), tabGet s.hostWaits n = some q → q.owner = false →
    ((∃ l ∈ q.lines, s.lineDone l = false ∨ s.walkInUse 0 l = true) → exec (.hostCxlMemWrite n []) s = .next s) ∧
    (s.writePerformed 0 q.lines = true → exec (.hostCxlMemWrite n []) s = .next { s with
      hostWaits := smapErase s.hostWaits n, pkg := { s.pkg with hostAnswered := q :: s.pkg.hostAnswered } })) ∧
  (∀ (s : State) (line : Nat), (∀ e ∈ s.hostWaits, e.2 ≠ { owner := true, lines := [line] }) →
    ∃ dr t, exec (.hostOwnershipRequest line) s = .next t ∧
      t = { s with dir := dr, nextId := s.nextId + 1,
                   hostWaits := smapInsert s.hostWaits s.nextId { owner := true, lines := [line] } } ∧
      (∀ l, l ≠ line → t.dirEntry l = s.dirEntry l) ∧ (t.dirEntry line).holders = (s.dirEntry line).holders ∧
      ∀ h ∈ (s.dirEntry line).holders, h ≠ .host → h ∈ (t.dirEntry line).invals) ∧
  (∀ (s : State) (line n : Nat), s.hostWaits.find? (fun e => e.2 = { owner := true, lines := [line] }) = some (n, { owner := true, lines := [line] }) →
    (s.lineDone line = false ∨ s.walkInUse 0 line = true → exec (.hostOwnershipRequest line) s = .next s) ∧
    (s.writePerformed 0 [line] = true → ∃ dr t, exec (.hostOwnershipRequest line) s = .next t ∧
      t = { s with dir := dr, hostWaits := smapErase s.hostWaits n,
                   pkg := { s.pkg with hostAnswered := { owner := true, lines := [line] } :: s.pkg.hostAnswered } } ∧
      (∀ l, l ≠ line → t.dirEntry l = s.dirEntry l) ∧ .host ∈ (t.dirEntry line).holders)) ∧
  (∀ (s : State) (fr d a old : Nat) (r : PageRec) (x : Part), tabGet s.pages fr = some r → s.part r.part = some x → r.entry = some a →
    old = s.memNat a 8 →
    (r.moving = none → (r.want = some d ∨ x.migEn = true ∧ homeDie (2 ^ 16 * fr) ≠ d ∧ x.migThresh.toNat ≤ r.counts.getD d 0 ∧
        4 * r.counts.getD (homeDie (2 ^ 16 * fr)) 0 ≤ r.counts.getD d 0) →
      ((r.alias_ = true ∨ pteV old = false ∨ pteM old = true ∨ pteD old = true ∨ pteKind old ≠ 0 ∨ r.level ≠ 3 ∨
          pteFrame old ≠ 2 ^ 16 * fr ∨ homeDie (2 ^ 16 * fr) = d ∨ r.collapsing = true) →
        exec (.migration fr d) s = .next { s with pages := smapInsert s.pages fr { r with want := none } }) ∧
      (r.alias_ = false → pteV old = true → pteM old = false → pteD old = false → pteKind old = 0 → r.level = 3 →
        pteFrame old = 2 ^ 16 * fr → homeDie (2 ^ 16 * fr) ≠ d → r.collapsing = false → a % 8 = 0 → PlainBut s (some fr) [a / 128] →
        ∃ m po dr, exec (.migration fr d) s = .next { s with
            mem := m, poison := po, dir := dr,
            pages := smapInsert s.pages fr { r with want := none, moving := some (.claimed (old ||| 2 ^ 7) d) } } ∧
          (∀ b, smapGet memDefault m b = entryByte s a (old ||| 2 ^ 7) b) ∧
          ∀ h ∈ (s.dirEntry (a / 128)).holders, h ∈ (((tabGet dr (a / 128)).map fun e => e.invals).getD []))) ∧
    (r.moving = none → r.want ≠ some d → (x.migEn = false ∨ homeDie (2 ^ 16 * fr) = d ∨ r.counts.getD d 0 < x.migThresh.toNat ∨
      r.counts.getD d 0 < 4 * r.counts.getD (homeDie (2 ^ 16 * fr)) 0) → exec (.migration fr d) s = .next s) ∧
    (∀ busy, r.moving = some (.claimed busy d) → (s.lineDone (a / 128) = false ∨ s.awaited (a / 128) = true) →
      exec (.migration fr d) s = .next s) ∧
    (∀ busy, r.moving = some (.claimed busy d) → s.lineDone (a / 128) = true → s.awaited (a / 128) = false →
      (old ≠ busy → exec (.migration fr d) s = .next { s with
        pages := smapInsert s.pages fr { r with want := none, moving := none, counts := [0, 0, 0, 0] } }) ∧
      (old = busy → pteM busy = true → x.pool (poolKey d false) = [] → r.replicas = [] → a % 8 = 0 → PlainBut s (some fr) [a / 128] →
        ∃ m po dr, exec (.migration fr d) s = .next { s with
            mem := m, poison := po, dir := dr, pages := smapInsert s.pages fr { r with moving := none } } ∧
          ∀ b, smapGet memDefault m b = entryByte s a (busy - 2 ^ 7) b) ∧
      ∀ f1 rest, old = busy → x.pool (poolKey d false) = f1 :: rest → f1 % 2 ^ 16 = 0 → Apart f1 (2 ^ 16) (2 ^ 16 * fr) (2 ^ 16) →
        ∃ m po dr y, exec (.migration fr d) s = .next { s.setPart r.part y with
            mem := m, poison := po, dir := dr, pages := smapInsert s.pages fr { r with moving := some (.copied busy f1 d) } } ∧
          PoolSet x y (poolKey d false) rest ∧ FrameCopied s m (x.keyFor busy) fr f1 ∧
          ∀ b, (b < f1 ∨ f1 + 2 ^ 16 ≤ b) → smapGet memDefault m b = s.byte b) ∧
    (∀ busy f1, r.moving = some (.copied busy f1 d) →
      (∃ l, (tabGet s.dir l).isSome = true ∧ f1 ≤ 128 * l ∧ 128 * l < f1 + 65536 ∧ s.lineDone l = false) →
      exec (.migration fr d) s = .next s) ∧
    (∀ busy f1, r.moving = some (.copied busy f1 d) →
      (∀ l, (tabGet s.dir l).isSome = true → f1 ≤ 128 * l → 128 * l < f1 + 65536 → s.linesDone [l] = true) →
      (old = busy → pteM busy = true → pteFrame busy = 2 ^ 16 * fr → f1 % 2 ^ 16 = 0 → f1 < 2 ^ 52 → a % 8 = 0 → PlainBut s (some fr) [a / 128] →
        ∃ m po dr, exec (.migration fr d) s = .next { s with
            mem := m, poison := po, dir := dr,
            pages := smapInsert s.pages fr { r with want := none, moving := some (.rewritten d), counts := [0, 0, 0, 0] } } ∧
          ∀ b, smapGet memDefault m b = entryByte s a (busy - 2 ^ 7 - 2 ^ 16 * fr + f1) b) ∧
      (old ≠ busy → (x.pool (poolKey d false)).length < 65536 → ∃ y, exec (.migration fr d) s = .next { s.setPart r.part y with
          pages := smapInsert s.pages fr { r with want := none, moving := none, counts := [0, 0, 0, 0] } } ∧
        PoolSet x y (poolKey d false) (f1 :: x.pool (poolKey d false)))) ∧
    (r.moving = some (.rewritten d) → s.lineDone (a / 128) = true → s.awaited (a / 128) = false →
      (x.pool (poolKey (homeDie (2 ^ 16 * fr)) false)).length < 65536 →
      ∃ y, exec (.migration fr d) s = .next { s.setPart r.part y with pages := smapErase s.pages fr } ∧
        PoolSet x y (poolKey (homeDie (2 ^ 16 * fr)) false) (2 ^ 16 * fr :: x.pool (poolKey (homeDie (2 ^ 16 * fr)) false)))) ∧
  (∀ (s : State) (fr a : Nat) (r : PageRec) (x : Part), tabGet s.pages fr = some r → s.part r.part = some x → r.entry = some a →
    ((r.collapsing = false ∨ s.lineDone (a / 128) = false ∨ s.awaited (a / 128) = true) → exec (.pageCollapse fr) s = .next s) ∧
    (r.collapsing = true → s.lineDone (a / 128) = true → s.awaited (a / 128) = false →
      keysRise s.pages = true → (∀ h ∈ r.held, h.key = none ∧ ∀ q ∈ s.pages, q.1 ≠ fr → q.2.replicas ≠ [] → ∀ e, q.2.entry = some e →
        e / 128 ∉ linesOf h.pa h.bytes.length) →
      r.held.Pairwise (fun h h' => Apart h.pa h.bytes.length h'.pa h'.bytes.length) →
      ∃ m po dr y pp, exec (.pageCollapse fr) s = .next { s with
          parts := pp, mem := m, poison := po, dir := dr,
          pages := smapInsert s.pages fr { r with replicas := [], collapsing := false, held := [] } } ∧
        tabGet pp r.part = some y ∧ (∀ j, j ≠ r.part → tabGet pp j = s.part j) ∧ y = { x with pools := y.pools } ∧
        (∀ d, (x.pool (poolKey d false)).length + r.replicas.length ≤ 65536 → y.pool (poolKey d false) =
          ((r.replicas.filter fun e => decide (e.1 = d)).map fun e => e.2).reverse ++ x.pool (poolKey d false)) ∧
        (∀ h ∈ r.held, (upFrom h.pa h.bytes.length).map (smapGet memDefault m) = h.bytes) ∧
        ∀ b, (∀ h ∈ r.held, b < h.pa ∨ h.pa + h.bytes.length ≤ b) → smapGet memDefault m b = s.byte b)) ∧
  (∀ (s : State), ∃ pg pp, exec .pageCountHalve s = .next { s with pages := pg, parts := pp } ∧
    (∀ fr r, tabGet s.pages fr = some r → tabGet pg fr = some { r with
      counts := if ∃ e ∈ s.parts, e.1 = r.part ∧ e.2.halved + 2 ^ max 10 e.2.migHalf.toNat ≤ s.clock then r.counts.map (· / 2)
        else r.counts }) ∧
    ∀ n x, s.part n = some x → (∀ e ∈ s.parts, e.1 = n → e.2 = x) → tabGet pp n = some { x with
      halved := if x.halved + 2 ^ max 10 x.migHalf.toNat ≤ s.clock then s.clock else x.halved }) ∧
  (∀ (s : State) (n : Nat) (x : Part), s.part n = some x →
    ((∃ c ∈ s.tlbs ++ s.dieTlbs, ∃ e ∈ c.2, e.part = n ∧ ∃ l ∈ e.lines, s.walkInUse 0 l = true) → exec (.ptrootWrite n) s = .next s) ∧
    ((∀ c ∈ s.tlbs ++ s.dieTlbs, ∀ e ∈ c.2, e.part = n → ∀ l ∈ e.lines, s.walkInUse 0 l = false) →
      ∃ tl dt d gs, exec (.ptrootWrite n) s = .next { s with tlbs := tl, dieTlbs := dt, dir := d, groups := gs } ∧
        (∀ c, ∀ e ∈ smapGet [] tl c, e.part ≠ n ∧ e ∈ smapGet [] s.tlbs c) ∧ (∀ c, ∀ e ∈ smapGet [] dt c, e.part ≠ n ∧ e ∈ smapGet [] s.dieTlbs c) ∧
        (∀ c, ∀ e ∈ smapGet [] s.tlbs c, e.part ≠ n → e ∈ smapGet [] tl c) ∧
        ∀ id, (tabGet gs id).map (fun g => { g with lastPages := [] }) = (s.group id).map fun g =>
          if g.part = n then
            { g with
                lastPages := [],
                splits := g.splits.map fun q => if q.st = .waiting .partWrite then { q with st := .waiting (.cond .always) } else q,
                handler := g.handler.map fun h =>
                  if h.split.st = .waiting .partWrite then { h with split := { h.split with st := .waiting (.cond .always) } } else h }
          else { g with lastPages := [] }))

/-- The completions of loads, stores, atomics and special functions, and poisoned data (R77, R216, R263, R311, R356,
R396). In every state: an outstanding load or special function completes, and a store or atomic does once its writes are
performed and not before; its destinations are written but where another instruction has written them since, its flags
merge, its counter falls by one and no other register, group or byte changes, but for the image of a swapped group; a
write is performed once its invalidations are acknowledged, no L1 and no merge on its way holds bytes of its lines, no
page of them collapses and no outstanding access uses a translation from them; a special function that raised an enabled
exception has no effect but on its counter, and the split that waits for it takes trap 0x11; a group that has read poisoned
data is killed with cause 0x10 and its address once it issues again. SIG in that trap and TPC of that kill are the model's
choice of log entries 91 and 39. -/
def Obligations.Completions : Prop :=
  (∀ (s : State) (gid id : Nat) (g : Group) (op : PendOp) (i : Instr), s.group gid = some g → tabGet g.pend id = some op →
    op.counter < 6 → (∀ d ∈ op.dests, d.lane < 64 ∧ (d.reg.cls = .vreg ∨ d.reg.cls = .sreg)) →
    (i = .loadComplete gid id ∧ op.kind = .load ∨ i = .sfuComplete gid id ∧ op.kind = .sfu ∧ op.trap = none ∨
      i = .storePerformed gid id ∧ op.kind = .store ∧ s.writePerformed id op.lines = true ∨
      i = .atomicComplete gid id ∧ op.kind = .atomic ∧ s.writePerformed id op.lines = true) →
    ∃ t k, exec i s = .next t ∧ Landed g k id op ∧ t.group gid = some k ∧ (∀ j, j ≠ gid → t.group j = s.group j) ∧ t.mem = s.mem ∧
      (g.residency ≠ .swapped → t = { s with serial := s.serial + op.dests.length }.setGroup gid k)) ∧
  (∀ (s : State) (gid id : Nat) (g : Group) (op : PendOp), s.group gid = some g → tabGet g.pend id = some op →
    (∀ l ∈ op.lines, (s.dirEntry l).invals = [] ∧ (s.dirEntry l).arriving = [] ∧ (∀ c ∈ (s.dirEntry l).l1, c.2.dirty = 0) ∧
      (∀ r, tabGet s.pages (l / 512) = some r → r.collapsing = false) ∧ s.walkInUse id l = false) →
    s.writePerformed id op.lines = true) ∧
  (∀ (s : State) (gid id : Nat) (g : Group) (op : PendOp), s.group gid = some g → tabGet g.pend id = some op →
    (∃ l ∈ op.lines, (s.dirEntry l).invals ≠ [] ∨ (s.dirEntry l).arriving ≠ [] ∨ (∃ c ∈ (s.dirEntry l).l1, c.2.dirty ≠ 0) ∨
      (∃ r, tabGet s.pages (l / 512) = some r ∧ r.collapsing = true) ∨ s.walkInUse id l = true) →
    exec (.storePerformed gid id) s = .next s ∧ exec (.atomicComplete gid id) s = .next s) ∧
  (∀ (s : State) (gid id : Nat) (g : Group) (op : PendOp) (t : DWord × DWord), s.group gid = some g → tabGet g.pend id = some op →
    op.counter < 6 → op.kind = .sfu → op.trap = some t → ∃ c : Counters,
      (∀ j < 6, c.get j = if j = op.counter then g.cnt.get j - 1 else g.cnt.get j) ∧
      (g.handler = none → (∀ p ∈ g.splits, p.st ≠ .waiting (.opDone id)) →
        exec (.sfuComplete gid id) s = .next (s.setGroup gid { g with pend := smapErase g.pend id, cnt := c })) ∧
      ∀ p h x, g.handler = none → g.splits.find? (fun p => p.st == .waiting (.opDone id)) = some p → p.held = some h →
        s.part g.part = some x → ∃ u, exec (.sfuComplete gid id) s = .next u ∧
          TrapEntered s u x gid { g with pend := smapErase g.pend id, cnt := c, sig := h.sig } p 0x11 t.1 t.2) ∧
  (∀ (s : State) (gid : Nat) (g : Group), s.group gid = some g → (g.poisoned = [] → exec (.poisonConsume gid) s = .next s) ∧
    ∀ a r, g.poisoned = a :: r →
      (g.lastIssue ≤ a.2 → exec (.poisonConsume gid) s = .next s) ∧
      (a.2 < g.lastIssue → exec (.poisonConsume gid) s = .next (s.killGroup gid 0x10 false g.lastPc (BitVec.ofNat 64 a.1))))

/-- The choice of the group that issues, hands, the handler watchdog and the safe-point distance (R86, R132, R133, R383,
R387). In every state without a chosen group or engine records that wait for locks: with no eligible group nothing is
chosen; otherwise one slot chooses an eligible group of its highest level, the one whose last issue is oldest, the
latency class giving way to a bulk group after 7 issues, counted as log entry 75 has it; a chosen group that holds its
hand issues next, with a Current split, and with it join eligible groups of its slot at the same PC of the same text with
lanes apart, each with its hand, one after the other, which is the model's choice of log entry 56; a group without a hand
takes a Free one or has the longest idle one evicted; a filled hand is Held with the working
set, and one written back is Free; a handler that has used 2^20 cycles is killed with cause 0x17; an instruction that
would take the distance above the limit, and is neither safe nor draw, takes trap 0x0E. No register or byte of memory
changes. -/
def Obligations.IssueChoice : Prop :=
  (∀ (s : State), s.cur = none → (∀ e ∈ s.copies, e.2.waitsLocks = false) → (∀ e ∈ s.fabric, e.2.waitsLocks = false) →
    (∀ e ∈ s.groups, ∀ m ∈ e.2.matq, m.waitsLocks = false) →
    ((∀ id q, ¬Eligible s id q) → exec .issueSelect s = .next { s with turn := true }) ∧
    ((∃ id q, Eligible s id q) → ∃ gid g t, exec .issueSelect s = .next t ∧ Eligible s gid g ∧
      (∀ id q, Eligible s id q → slotOf id q = slotOf gid g →
        (q.handler ≠ none → g.handler ≠ none) ∧ (q.level = g.level → g.lastIssue ≤ q.lastIssue) ∧
        (q.level = 1 → g.level = 2 → 7 ≤ smapGet 0 s.latencyRuns (slotOf gid g)) ∧
        (q.level = 2 → g.level = 1 → smapGet 0 s.latencyRuns (slotOf gid g) < 7)) ∧
      (s.handOf gid ≠ none → ∃ js k n r, t = { js.foldl (fun u (j : Nat × Group) => u.setGroup j.1 j.2) (s.setGroup gid k) with
          serial := n, latencyRuns := r, cur := some gid, also := js.map (·.1), turn := true } ∧
        (∀ j ∈ js, ∃ q, Eligible s j.1 q ∧ j.1 ≠ gid ∧ slotOf j.1 q = slotOf gid g ∧ s.handOf j.1 ≠ none ∧ q.handler = none ∧
          g.handler = none ∧ q.part = g.part ∧ q.text = g.text ∧
          j.2 = { q with splits := j.2.splits, issuesInTurn := j.2.issuesInTurn } ∧ j.2.issuing.map (·.pc) = k.issuing.map (·.pc)) ∧
        ((gid, k) :: js).Pairwise (fun a b => a.2.lanePos + a.2.width ≤ b.2.lanePos ∨ b.2.lanePos + b.2.width ≤ a.2.lanePos) ∧
        k = { g with splits := k.splits, issuesInTurn := k.issuesInTurn } ∧ (g.handler ≠ none → k = g) ∧
        (g.handler = none → s.saving g = false → ∃ p, k.issuing = some p ∧ p.st = .current) ∧
        smapGet 0 r (slotOf gid g) =
          (if g.level = 1 then min 7 (smapGet 0 s.latencyRuns (slotOf gid g) + 1) else if g.level = 2 then 0
            else smapGet 0 s.latencyRuns (slotOf gid g))) ∧
      (s.handOf gid = none → ∃ n hh, t = { s with serial := n, hands := hh, turn := true } ∧
        (∀ j, s.freeHand (gid / 128) = some j → tabGet hh j = some { st := .filling gid, regs := [] }) ∧
        (∀ j v rs, s.freeHand (gid / 128) = none → s.victim (gid / 128) = some j → tabGet s.hands j = some { st := .held v, regs := rs } →
          tabGet hh j = some { st := .writingBack v, regs := rs })))) ∧
  (∀ (s : State) (gid : Nat), s.cur = some gid → exec .issueSelect s = .next s) ∧
  (∀ (s : State) (gid j : Nat) (rs : List Nat) (g : Group), s.group gid = some g →
    (s.handOf gid = some (j, { st := .filling gid, regs := rs }) →
      exec (.handFillComplete gid) s = .next { s with hands := smapInsert s.hands j { st := .held gid, regs := g.workSet } }) ∧
    (s.handOf gid = some (j, { st := .writingBack gid, regs := rs }) →
      exec (.handWritebackComplete gid) s = .next { s with hands := smapErase s.hands j })) ∧
  (∀ (s : State) (gid : Nat) (g : Group) (h : Handler), s.group gid = some g → g.handler = some h →
    (2 ^ 20 ≤ g.hwdog + (s.clock - h.entered) → exec (.handlerWatchdog gid) s = .next (s.killGroup gid 0x17 false h.split.pc 0)) ∧
    (g.hwdog + (s.clock - h.entered) < 2 ^ 20 → exec (.handlerWatchdog gid) s = .next s)) ∧
  (∀ (s : State) (gid : Nat) (g : Group) (p : Split) (x : Part) (w : Nat) (r : List Nat), s.cur = some gid → s.group gid = some g →
    g.issuing = some p → p.held = none → s.part g.part = some x → fetchWord s (g.agent gid) p.pc = .words (w :: r) →
    w / 2 ^ 21 ≠ 0x704 → w / 2 ^ 21 ≠ 0x705 → g.handler = none →
    (x.safeEn = true → max 16 (min 1024 x.safeLimit.toNat) < g.safeCount + 1 →
      ∃ t, exec .safePointDistanceTrap s = .next t ∧ TrapEntered s t x gid g p 0x0E 0 p.mask ∧ t.cur = s.also.head?) ∧
    ((x.safeEn = false ∨ g.safeCount + 1 ≤ max 16 (min 1024 x.safeLimit.toNat)) → exec .safePointDistanceTrap s = .next s))

/-- Splits that go on, wake, merge and give way, barriers, and the exit of a group (R89, R90, R92, R93, R96, R97, R103,
R104, R107, R270, R354). In every state: a Waiting split whose condition holds goes on, in the instruction that it
waits in, or, where that has not begun, Current when no other split is and otherwise Ready; a retry does once its busy entry
is written, and a swaitl once its word differs or 65,536 cycles have passed; a Sleeping split wakes when its cycles are over and a parked continuation becomes Ready at its target; with PP
at 1 the Current split gives way after 256 issues; splits parked in one join that cover its mask merge into one in the
lowest slot, MSIG folds the mask, and a join that empties the stack with MSIG not 0 kills the group; a barrier at which
every live group has arrived makes every split Ready and sets SCC.A; a group whose last split has exited is gone once
its counters are 0. Each of these changes nothing before its condition holds, and nothing else then. -/
def Obligations.SplitsAndBarriers : Prop :=
  (∀ (s : State) (gid slot : Nat) (g : Group) (p : Split) (w : WaitFor), WaitsIn s gid slot g p w →
    (s.waitOver gid g w = true → GoesOn s gid slot g p (.waitingResume gid slot)) ∧
    (s.waitOver gid g w = false → exec (.waitingResume gid slot) s = .next s) ∧
    (∀ pa, w = .entryBusy pa →
      (pteM (s.memNat pa 8) = false → GoesOn s gid slot g p (.translationRetry gid slot)) ∧
      (pteM (s.memNat pa 8) = true → exec (.translationRetry gid slot) s = .next s)) ∧
    ∀ a v d, w = .lineWord a v d →
      (∀ pl, checkAddr s (g.agent gid) a 4 4 .read = .ok pl →
        (BitVec.ofNat 32 (ofBytes (s.readAt pl 4)) ≠ v → GoesOn s gid slot g p (.swaitlWake gid slot)) ∧
        (BitVec.ofNat 32 (ofBytes (s.readAt pl 4)) = v → exec (.swaitlWake gid slot) s = .next s)) ∧
      (d ≤ s.clock → GoesOn s gid slot g p (.swaitlTimeout gid slot)) ∧
      (s.clock < d → exec (.swaitlTimeout gid slot) s = .next s)) ∧
  (∀ (s : State) (gid : Nat) (g : Group) (c : WaitCond),
    (∀ k n, c = .counter k n → (s.waitOver gid g (.cond c) = true ↔ g.cnt.get k ≤ n)) ∧
    (∀ m, c = .counters m → (s.waitOver gid g (.cond c) = true ↔ ∀ j < 6, m.getLsbD j = true → g.cnt.get j = 0)) ∧
    (∀ off t, c = .pot off → g.team.bind s.team = some t → (s.waitOver gid g (.cond c) = true ↔ s.potReached (t.key off) = true)) ∧
    (∀ rs, s.waitOver gid g (.holdRegs rs) = true ↔ ∀ h ∈ g.holds, h.reg ∈ rs → h.pending = 0) ∧
    (∀ ops, s.waitOver gid g (.performed ops) = true ↔ ∀ id ∈ ops, tabGet g.pend id = none) ∧
    (∀ id, s.waitOver gid g (.opDone id) = true ↔ tabGet g.pend id = none) ∧
    (∀ n ls, s.waitOver gid g (.writesDone n ls) = true ↔ s.linesDone ls = true ∧ ∀ l ∈ ls, s.awaited l = false) ∧
    (∀ l, s.waitOver gid g (.lineBusy l) = true ↔ (s.dirEntry l).invals = []) ∧
    (∀ fr, s.waitOver gid g (.frameMove fr) = true ↔ ∀ r, tabGet s.pages fr = some r → r.collapsing = false) ∧
    s.waitOver gid g (.cond .always) = true ∧
    (∀ k, s.waitOver gid g (.counterRoom k) = true ↔ g.cnt.get k < 255) ∧
    (∀ hs, s.waitOver gid g (.grids hs) = true ↔ ∀ h ∈ hs, ∀ x, tabGet s.grids h = some x → x.complete = true)) ∧
  (∀ (s : State) (gid slot : Nat) (g : Group) (q : Split), s.group gid = some g → g.residency = .running → g.handler = none →
    (∀ p ∈ g.splits, p.slot = slot → p = q) → q ∈ g.splits → q.slot = slot →
    (∀ n, q.st = .sleeping n → exec (.sleepExpire gid slot) s = .next (s.setGroup gid { g with
      splits := g.splits.map fun p => if p.slot = slot ∧ n ≤ s.clock then { p with st := .ready } else p })) ∧
    ∀ c pc, q.st = .parkedCont c pc → exec (.continuationResume gid slot) s = .next (s.setGroup gid { g with
      splits := g.splits.map fun p => if p.slot = slot ∧ s.condHolds g c = true then { p with st := .ready, pc := pc } else p })) ∧
  (∀ (s : State) (gid : Nat) (g : Group) (c r : Split), s.group gid = some g → g.residency = .running → g.handler = none →
    ((g.mPp = false ∨ g.issuesInTurn < 256) → exec (.fairnessGiveWay gid) s = .next (s.setGroup gid g)) ∧
    (g.mPp = true → 256 ≤ g.issuesInTurn → c ∈ g.splits → c.st = .current → (∀ p ∈ g.splits, p.st = .current → p = c) →
      (∀ p ∈ g.splits, p.slot < 4) → (∀ p ∈ g.splits, ∀ q ∈ g.splits, p.slot = q.slot → p = q) →
      ((∀ p ∈ g.splits, p.st ≠ .ready) → exec (.fairnessGiveWay gid) s = .next (s.setGroup gid { g with issuesInTurn := 0 })) ∧
      (r ∈ g.splits → r.st = .ready → (∀ p ∈ g.splits, p.st = .ready → (r.slot + 3 - c.slot) % 4 ≤ (p.slot + 3 - c.slot) % 4) →
        (∀ p ∈ g.splits, ∀ q ∈ g.splits, p ≠ q → p.pc ≠ q.pc) →
        exec (.fairnessGiveWay gid) s = .next (s.setGroup gid { g with
          issuesInTurn := 0,
          splits := g.splits.map fun p => if p.slot = r.slot then { p with st := .current }
            else if p.slot = c.slot then { p with st := .ready } else p })))) ∧
  (∀ (s : State) (gid slot n : Nat) (g : Group) (p : Split) (a : DWord) (rest : List DWord) (qs : List Split), s.group gid = some g →
    g.residency = .running → g.handler = none → p ∈ g.splits → (∀ q ∈ g.splits, q.slot = slot → q = p) → p.slot = slot →
    p.st = .parkedJoin → p.joins = a :: rest →
    qs = g.splits.filter (fun q => q.st == .parkedJoin && q.pc == p.pc && q.joins.head? == some a) →
    (qs.foldl (fun m q => m ||| q.mask) 0 ||| (a &&& g.exited) ≠ a → exec (.joinMerge gid slot) s = .next s) ∧
    (qs.foldl (fun m q => m ||| q.mask) 0 ||| (a &&& g.exited) = a → (∃ q ∈ qs, q.slot = n) → (∀ q ∈ qs, n ≤ q.slot) → n < 4 →
      ∀ k, k = { g with
          msig := g.msig ^^^ (loWord a ^^^ hiWord a),
          splits := { slot := n, mask := a &&& ~~~g.exited, pc := codeStep g.text p.pc 4, st := .ready, joins := rest, held := none,
                      safeAt := none } :: g.splits.filter fun q => decide (∀ x ∈ qs, x.slot ≠ q.slot) } →
      ((rest ≠ [] ∨ k.msig = 0) → exec (.joinMerge gid slot) s = .next (s.setGroup gid k)) ∧
      (rest = [] → k.msig ≠ 0 → exec (.joinMerge gid slot) s = .next ((s.setGroup gid k).killGroup gid 0x0F false p.pc 0)))) ∧
  (∀ (s : State) (tid : Nat) (t : Team) (b : BitVec 3), s.team tid = some t →
    (¬Arrived s t (.parkedBarrier b.toNat) → exec (.barrierComplete tid b) s = .next s) ∧
    (Arrived s t (.parkedBarrier b.toNat) → ∃ gs, exec (.barrierComplete tid b) s = .next { s with groups := gs } ∧
      (∀ id g, .live id ∈ t.groups → s.group id = some g → ∃ k, tabGet gs id = some k ∧ Released g k t.killed) ∧
      ∀ id, .live id ∉ t.groups → tabGet gs id = s.group id)) ∧
  (∀ (s : State) (tid : Nat) (t : Team) (ts : List (Nat × Team)), s.team tid = some t →
    ts = s.teams.filter (fun e => e.2.part == t.part && e.2.grid == t.grid && e.2.leader == t.leader) →
    ((ts.length ≠ t.cohort ∨ ∃ e ∈ ts, ¬Arrived s e.2 .parkedCohort) → exec (.cohortBarrierComplete tid) s = .next s) ∧
    (ts.length = t.cohort → (∀ e ∈ ts, Arrived s e.2 .parkedCohort) →
      ∃ gs, exec (.cohortBarrierComplete tid) s = .next { s with groups := gs } ∧
        (∀ e ∈ ts, ∀ id g, .live id ∈ e.2.groups → s.group id = some g → ∃ k, tabGet gs id = some k ∧
          Released g k (ts.any fun y => y.2.killed)) ∧
        ∀ id, (∀ e ∈ ts, .live id ∉ e.2.groups) → tabGet gs id = s.group id)) ∧
  (∀ (s : State) (gid : Nat) (g : Group), s.group gid = some g → g.residency = .running →
    s.taking g = false →
    (match g.handler with
      | some h => h.split.st = .exiting
      | none => ∃ p ∈ g.splits, p.st = .exiting) →
    ((∃ j < 6, g.cnt.get j ≠ 0) → exec (.groupExitRelease gid) s = .next s) ∧
    ((∀ j < 6, g.cnt.get j = 0) → ∃ t, exec (.groupExitRelease gid) s = .next t ∧ t.group gid = none ∧
      (∀ id, id ≠ gid → t.group id = s.group id) ∧ t.spad = s.spad ∧ (g.seat = 0 → t.mem = s.mem) ∧
      (∀ e ∈ t.hands, e.2.st ≠ .held gid ∧ e.2.st ≠ .filling gid) ∧
      (∀ e ∈ s.hands, e.2.st = .held gid → (e.1, { e.2 with st := .writingBack gid }) ∈ t.hands) ∧
      ∀ tid x, g.team = some tid → s.team tid = some x → ∃ y, t.team tid = some y ∧ y.groups = listSet x.groups g.index .exited ∧
        y.killed = x.killed))

/-- Swapping to the kitty, context saves and the latency reserve (R126, R128, R335, R387, R388, R389, R391, R392). In
every state: a group that may be swapped, with room in the kitty and its wait not over, begins to be swapped out, its
seat Moving; when the copy is done it is Swapped, with its registers in the layout of R392 in the kitty and no hand,
unless its wait is over, which abandons the copy; it begins to come back when its wait is over and the main file has
room, and then runs; a restored group's context comes back likewise, and with the last one of its cohort SIZE becomes 0 in
the image named (log entry 66); a save asked for is taken when every group of the cohort may be taken, and not before: its
seats are then Moving, and at a second step, unless its engines have gone on, the team becomes Pre-empted, its window and
header stand in the image, its groups leave their core with the registers that the live sets name, or all of them, and the
save is dropped when the team named is no longer Resident; a queued latency team that nothing can admit has the bulk teams
of a reserve core saved into free slots, or changes nothing. That a save takes two steps, that core 14 is vacated before
core 15, and what fills the places of an image that R391 leaves to the part are the model's choice of log entries 60, 111
and 57. -/
def Obligations.SwapAndSave : Prop :=
  (∀ (s : State) (gid : Nat) (g : Group) (x : Part), s.group gid = some g → s.part g.part = some x → gid < 4 * 24576 →
    ((s.swappable g = false ∨ s.waitMet gid g = true ∨ s.kittyRoom gid g x = none) → exec (.swapOutStart gid) s = .next s) ∧
    (∀ k, s.swappable g = true → s.waitMet gid g = false → s.kittyRoom gid g x = some k →
      ∃ t, exec (.swapOutStart gid) s = .next t ∧ t.group gid = some { g with residency := .swappingOut, kitty := k } ∧
        (∀ j, j ≠ gid → t.group j = s.group j) ∧ t.spad = s.spad ∧ SeatMoved s t x g 4) ∧
    (g.residency = .swappingOut → s.waitMet gid g = true → ∃ t, exec (.swapOutComplete gid) s = .next t ∧
      t.group gid = some { g with residency := .running, kitty := 0 } ∧ (∀ j, j ≠ gid → t.group j = s.group j) ∧ t.spad = s.spad ∧
      SeatMoved s t x g 1) ∧
    (g.residency = .swappingOut → s.waitMet gid g = false → g.handler = none → ∃ t, exec (.swapOutComplete gid) s = .next t ∧
      t.group gid = some { g with residency := .swapped } ∧ (∀ j, j ≠ gid → t.group j = s.group j) ∧ SeatMoved s t x g 2 ∧
      (∀ e ∈ t.hands, e.2.st ≠ .held gid) ∧
      (∀ r < g.vAlloc, ∀ i < g.width, ofBytes (t.sbytes (spadKey (coreOf gid) (kittyBase x + g.kitty) + 0x400 + 4 * (g.width * r + i)) 4) =
        (g.vreg r i).toNat) ∧
      ∀ n < 64, ofBytes (t.sbytes (spadKey (coreOf gid) (kittyBase x + g.kitty) + 0x80 + 4 * n) 4) =
        if n < g.sAlloc ∨ n = 62 then (g.sreg n).toNat else 0) ∧
    (g.residency = .swapped → s.taking g = false → s.waitMet gid g = true → s.mainUsed (coreOf gid) false + 4 * g.vAlloc * g.width ≤ 2 ^ 19 →
      ∃ t, exec (.swapInStart gid) s = .next t ∧ t.group gid = some { g with residency := .swappingIn } ∧
        (∀ j, j ≠ gid → t.group j = s.group j) ∧ t.spad = s.spad ∧ SeatMoved s t x g 4) ∧
    ((g.residency ≠ .swapped ∨ s.taking g = true ∨ s.waitMet gid g = false ∨ 2 ^ 19 < s.mainUsed (coreOf gid) false + 4 * g.vAlloc * g.width) →
      exec (.swapInStart gid) s = .next s) ∧
    (g.residency = .swappingIn → ∃ t, exec (.swapInComplete gid) s = .next t ∧
      t.group gid = some { g with residency := .running, kitty := 0 } ∧ (∀ j, j ≠ gid → t.group j = s.group j) ∧ t.spad = s.spad ∧
      SeatMoved s t x g 1) ∧
    (g.residency = .restoring → ∃ t, exec (.swapInComplete gid) s = .next t ∧
      t.group gid = some { g with residency := .running, kitty := 0 } ∧ (∀ j, j ≠ gid → t.group j = s.group j) ∧ t.spad = s.spad ∧
      ∀ tid v, g.team = some tid → s.team tid = some v →
        ((∃ id q, id ≠ gid ∧ s.group id = some q ∧ q.residency = .restoring ∧ q.team = some tid) →
          t.teams = s.teams ∧ SeatMoved s t x g 1) ∧
        ∀ p, s.cohortTeams v = [(tid, v)] → (∀ e ∈ s.groups, e.1 ≠ gid → e.2.team = some tid → e.2.residency ≠ .restoring) →
          keysRise s.groups = true → v.sizeAt = some p → s.NoReplicas →
          t.memNat p 4 = 0 ∧ t.team tid = some { v with sizeAt := none } ∧ ∀ j, j ≠ tid → t.team j = s.team j)) ∧
  (∀ (s : State) (g : Group), s.swappable g = true ↔ (g.residency = .running ∧ g.team ≠ none ∧ g.handler = none ∧
    s.saving g = false ∧ 2000 < s.clock - g.blockedSince ∧ (g.parked ≠ none ∨ ∀ p ∈ g.splits, p.longWait = true))) ∧
  (∀ (s : State) (tid a : Nat) (t : Team) (gr : Grid), s.team tid = some t → t.saving = some a → tabGet s.grids t.grid = some gr →
    s.members t = [(tid, t)] →
    (t.named = true → t.state ≠ .resident → ∃ u, exec (.contextSaveTaken tid) s = .next u ∧ u.groups = s.groups ∧ u.spad = s.spad ∧
      u.team tid = some { t with saving := none, requeue := false, named := false, taking := false } ∧
      (∀ j, j ≠ tid → u.team j = s.team j) ∧ (t.taking = false → u.mem = s.mem) ∧ (t.taking = true → SeatsShow s u tid 1)) ∧
    ((t.named = false ∨ t.state = .resident) → t.taking = false →
      (∃ e ∈ s.groups, e.2.team = some tid ∧ s.groupSavable e.1 e.2 = false) → exec (.contextSaveTaken tid) s = .next s) ∧
    ((t.named = false ∨ t.state = .resident) → t.taking = false →
      (∀ e ∈ s.groups, e.2.team = some tid → s.groupSavable e.1 e.2 = true) →
      ∃ u, exec (.contextSaveTaken tid) s = .next u ∧ u.groups = s.groups ∧ u.spad = s.spad ∧
        u.team tid = some { t with taking := true } ∧ (∀ j, j ≠ tid → u.team j = s.team j) ∧ SeatsShow s u tid 4) ∧
    ((t.named = false ∨ t.state = .resident) → t.taking = true →
      (∃ e ∈ s.groups, e.2.team = some tid ∧ s.engineSavable e.1 e.2 = false) →
      ∃ u, exec (.contextSaveTaken tid) s = .next u ∧ u.groups = s.groups ∧ u.spad = s.spad ∧
        u.team tid = some { t with taking := false } ∧ (∀ j, j ≠ tid → u.team j = s.team j) ∧ SeatsShow s u tid 1) ∧
    ((t.named = false ∨ t.state = .resident) → t.taking = true →
      (∀ e ∈ s.groups, e.2.team = some tid → s.engineSavable e.1 e.2 = true) → s.NoReplicas →
      (∀ e ∈ s.groups, e.2.team = some tid → e.2.seat = 0) → (∀ m ∈ t.groups, ∀ id, m = .live id → ∃ g, s.group id = some g) →
      (∀ (i j id : Nat), t.groups[i]? = some (Member.live id) → t.groups[j]? = some (Member.live id) → i = j) →
      (∀ id, Member.live id ∈ t.groups → ∀ g, s.group id = some g → g.team = some tid) →
      ∃ u v, exec (.contextSaveTaken tid) s = .next u ∧ u.team tid = some v ∧ v.state = .preempted ∧ v.saving = none ∧
        v.image = some a ∧ v.requeue = false ∧ v.loadFrom = (if t.requeue then some a else none) ∧ u.spad = s.spad ∧
        u.memNat (a + 4) 4 = 1 ∧ u.memNat (a + 8) 4 = tid % 2 ^ 32 ∧ u.memNat (a + 0xC) 4 = gr.handle % 2 ^ 32 ∧
        u.memNat (a + 0x14) 4 = t.x % 2 ^ 32 ∧ u.memNat (a + 0x18) 4 = t.y % 2 ^ 32 ∧ u.memNat (a + 0x1C) 4 = t.z % 2 ^ 32 ∧
        u.bytes (a + 0x280) t.winLen = s.sbytes (t.key 0) t.winLen ∧ (∀ b < a, u.byte b = s.byte b) ∧
        ∀ (i id : Nat) g, t.groups[i]? = some (Member.live id) → s.group id = some g →
          u.group id = none ∧ ∃ q, v.groups[i]? = some (.saved q) ∧ q.mode = g.mode ∧ q.scc = g.scc ∧ q.flags = g.flags ∧
            q.sig = g.sig ∧ q.msig = g.msig ∧ q.cnt = g.cnt ∧ q.splits = g.splits ∧ q.exited = g.exited ∧
            ((g.handler ≠ none ∨ g.parked ≠ none ∨ ∃ p ∈ g.splits, p.safeAt = none) →
              (∀ r < g.vAlloc, ∀ l < 64, q.vreg r l = g.vreg r l) ∧ (∀ n < 64, q.sreg n = g.sreg n) ∧ ∀ n < 8, q.pred n = g.pred n) ∧
            (g.handler = none → g.parked = none → (∀ (j id' : Nat), t.groups[j]? = some (Member.live id') → j = i) → ∀ p L, g.splits = [p] → p.safeAt = some L →
              (∀ r < 128, ∀ l < 64, q.vreg r l = if bit (ofBytes ((s.liveEntry id g L).take 16)) r then g.vreg r l else 0) ∧
              ∀ n < 63, q.sreg n = if bit (ofBytes (((s.liveEntry id g L).drop 0x10).take 8)) n then g.sreg n else 0))) ∧
  (∀ (s : State) (tid c : Nat) (t : Team) (x : Part) (r : LaunchRec), s.team tid = some t → s.part t.part = some x →
    s.recordFor t = some r →
    ((t.latency = false ∨ t.isQueued = false ∨ s.latencyCluster x t = none) → exec (.latencyReservePreempt tid) s = .next s) ∧
    (t.latency = true → t.isQueued = true → s.latencyCluster x t = some c →
      (t.cohort ≤ (s.admitCores x t r c).length + s.vacating x t r c ∨ s.reserveCores x t r c = []) →
      exec (.latencyReservePreempt tid) s = .next s) ∧
    (t.latency = true → t.isQueued = true → s.latencyCluster x t = some c →
      (s.admitCores x t r c).length + s.vacating x t r c < t.cohort →
      ∀ k ks id b a as, s.reserveCores x t r c = k :: ks → s.bulkTeams k = [(id, b)] → s.members b = [(id, b)] → s.team id = some b →
        s.freeSlots x t.part = a :: as → s.imageBound b ≤ 2 ^ 16 * bits x.saveSlot.toNat 16 16 →
        s.ownsSpan x a (s.imageBound b) = true →
        ∃ tt, exec (.latencyReservePreempt tid) s = .next { s with teams := tt } ∧
          tabGet tt id = some { b with saving := some a, requeue := true, named := true, image := none } ∧
          ∀ j, j ≠ id → tabGet tt j = s.team j))

/-- Remote accesses at their target, freezes, fault records and completions (R310, R319, R320, R321, R322, R323, R328,
R329, R330, R353, R356, R385). In every state: a request that is next at its target is performed there, lane by lane,
when every lane passes its check and no load or atomic meets poison: each lane answers the word that stood at its place,
and the words and A bits alone change; poison completes it with cause 6; a lane that fails freezes the request under the
next number of its stream with the address, cause and access; it waits while an entry is busy or the request is not
next; a request of another package goes the same way, behind what waits here of its stream, its answer a message once its
writes are performed, with cause 2 where no partition has its domain, and one of a frozen stream is discarded. The oldest unrecorded fault is written to the queue at RFQ, 32 bytes with the handle, address, cause and access,
and WRITE advances by 32, when there is room; without room or queue nothing changes. A freeze that reaches its source
makes the stream Frozen and takes back the later requests of the stream to that package. A request performed whose
writes are performed leaves the table, its locks free, its cause recorded, its counter one lower and its destinations
written; a request not yet performed stays. The add of an rfence leaves once the earlier requests of its stream and the
accesses before it are performed. The end of a freeze at the source takes its number from the stream, which opens with the
last one, and its requests leave again, or puts the stream in Error and completes every request held with cause 4; a number
that the stream does not hold changes nothing. That several freezes of a stream end one by one, and that the lowest lane
that fails is recorded, are the model's choice of log entries 34 and 35. -/
def Obligations.FabricTarget : Prop :=
  (∀ (s : State) (rid : Nat) (q : FabReq) (k : RemoteKind), tabGet s.fabric rid = some q → q.kind.remote = some k →
    (s.reqReady rid q = false → exec (.remoteAccess (.own rid)) s = .next s) ∧
    (s.remoteCheck q.part (remoteAcc k) q.lanes = .busy → exec (.remoteAccess (.own rid)) s = .next s) ∧
    (∀ va c, s.reqReady rid q = true → s.remoteCheck q.part (remoteAcc k) q.lanes = .fault va c →
      (tabGet s.streams q.slot).isSome = true → q.stream < 4 →
      (∀ x, tabGet s.streams q.slot = some x → x.streams.length = 4) →
      ∃ sm n, n = ((s.stream q.slot q.stream).serial + 1) % 2 ^ 32 ∧
        exec (.remoteAccess (.own rid)) s = .next { s with
          streams := sm, fabric := smapInsert s.fabric rid { q with frozen := true }, nextId := s.nextId + 1,
          frozen := smapInsert s.frozen s.nextId
            { part := q.part, req := .own rid, srcPkg := s.pkg.number, slot := q.slot, stream := q.stream, serial := n, va := va,
              cause := c, access := if k = .load then 0 else if k = .store then 1 else 2, recorded := false, replay := false } } ∧
        (∀ m, m ≠ q.slot → tabGet sm m = tabGet s.streams m) ∧
        ∀ x, tabGet s.streams q.slot = some x → tabGet sm q.slot = some { x with
          streams := listSet x.streams q.stream { s.stream q.slot q.stream with serial := n } }) ∧
    (∀ ps, s.reqReady rid q = true → s.remoteCheck q.part (remoteAcc k) q.lanes = .ok ps → k ≠ .store →
      (∃ x ∈ ps, s.poisonAt x.2 4 ≠ []) → exec (.remoteAccess (.own rid)) s = .next { s with
        fabric := smapInsert s.fabric rid { q with
          performed := true, cause := some 6, left := true, frozen := false, sent := q.credited, lines := [], walked := [] } }) ∧
    (∀ ps, s.reqReady rid q = true → s.remoteCheck q.part (remoteAcc k) q.lanes = .ok ps →
      (k = .store ∨ ∀ x ∈ ps, s.poisonAt x.2 4 = []) → s.NoReplicas → LanesApart k ps →
      ∃ m po d pg dt n v ls ws, exec (.remoteAccess (.own rid)) s = .next { s with
          mem := m, poison := po, dir := d, pages := pg, dieTlbs := dt, serial := n,
          fabric := smapInsert s.fabric rid { q with performed := true, vals := v, lines := ls, walked := ws } } ∧
        LanesPerformed s { s with mem := m } k ps v ∧ (k = .load → ls = []) ∧
        (k ≠ .load → ∀ l, l ∈ ls ↔ ∃ x ∈ ps, l ∈ x.2.lines 4) ∧ ∀ l, l ∈ ws ↔ ∃ x ∈ ps, l ∈ x.2.walked)) ∧
  (∀ (s : State) (r : RemoteReq),
    (s.frozenHere r.srcPkg r.slot r.stream (.foreign r) = true → exec (.remoteAccess (.foreign r)) s = .next s) ∧
    (s.frozenHere r.srcPkg r.slot r.stream (.foreign r) = false →
      ((∀ e ∈ s.parts, ¬(e.2.live = true ∧ e.2.domain.toNat = r.domain ∧ r.domain ≠ 0)) →
        exec (.remoteAccess (.foreign r)) s = .next (s.told r.srcPkg r.slot r.stream (.reply (some 2) []))) ∧
      ∀ part, s.domainPart r.domain = some part →
        (s.heldBefore s.nextId r.srcPkg r.slot r.stream = true →
          exec (.remoteAccess (.foreign r)) s = .next (s.entered part (.foreign r))) ∧
        (s.heldBefore s.nextId r.srcPkg r.slot r.stream = false →
          AccessRuns (.remoteAccess (.foreign r)) s (s.entered part (.foreign r)) s.nextId
            { part := part, req := .foreign r, done := false, vals := [], lines := [], walked := [] } r))) ∧
  (∀ (s : State) (k : Nat) (h : HeldForeign) (r : RemoteReq), tabGet s.foreign k = some h → h.req = .foreign r →
    (h.done = true → s.writePerformed k h.lines = false → exec (.remoteAccess (.waiting k)) s = .next s) ∧
    (h.done = true → s.writePerformed k h.lines = true → exec (.remoteAccess (.waiting k)) s =
      .next (State.told { s with foreign := smapErase s.foreign k } r.srcPkg r.slot r.stream (.reply none h.vals))) ∧
    (h.done = false → s.heldBefore k r.srcPkg r.slot r.stream = true → exec (.remoteAccess (.waiting k)) s = .next s) ∧
    (h.done = false → s.heldBefore k r.srcPkg r.slot r.stream = false → AccessRuns (.remoteAccess (.waiting k)) s s k h r)) ∧
  (∀ (s : State) (part : Nat) (x : Part), s.part part = some x →
    ((x.rfq = 0 ∨ ∀ e ∈ s.frozen, e.2.part = part → e.2.recorded = true) → exec (.remoteFaultRecord part) s = .next s) ∧
    ∀ k z hdr base size wr rd, s.frozen.find? (fun e => decide (e.2.part = part) && !e.2.recorded) = some (k, z) → x.rfq ≠ 0 →
      hdr = x.rfq.toNat → base = s.memNat hdr 8 → size = s.memNat (hdr + 8) 4 → wr = s.memNat (hdr + 12) 4 →
      rd = s.memNat (hdr + 16) 4 →
      ((size = 0 ∨ tableOk s x (base + wr % size) = false ∨ size < (wr + 2 ^ 32 - rd) % 2 ^ 32 + 32) → exec (.remoteFaultRecord part) s = .next s) ∧
      (size ≠ 0 → tableOk s x (base + wr % size) = true → (wr + 2 ^ 32 - rd) % 2 ^ 32 + 32 ≤ size →
        Apart (base + wr % size) 32 (hdr + 12) 4 → PlainBut s none (linesOf (base + wr % size) 32 ++ linesOf (hdr + 12) 4) →
        ∃ m po d, exec (.remoteFaultRecord part) s = .next { s with
            mem := m, poison := po, dir := d, frozen := smapInsert s.frozen k { z with recorded := true } } ∧
          (upFrom (base + wr % size) 32).map (smapGet memDefault m) =
            toBytes 8 (z.serial * 2 ^ 32 + z.slot * 2 ^ 14 + z.stream * 2 ^ 10 + z.srcPkg) ++ toBytes 8 z.va ++
              toBytes 4 (z.cause + z.access * 2 ^ 8) ++ toBytes 12 0 ∧
          (upFrom (hdr + 12) 4).map (smapGet memDefault m) = toBytes 4 (wr + 32) ∧
          ∀ a, ¬(base + wr % size ≤ a ∧ a < base + wr % size + 32) → ¬(hdr + 12 ≤ a ∧ a < hdr + 16) →
            smapGet memDefault m a = s.byte a)) ∧
  (∀ (s : State) (rid n : Nat) (q : FabReq) (sl : StreamSlot), tabGet s.fabric rid = some q → tabGet s.streams q.slot = some sl →
    q.stream < sl.streams.length →
    ((q.performed = true ∨ (q.pkg ≠ s.pkg.number ∧ q.left = false) ∨
      (q.pkg = s.pkg.number ∧ ∀ e ∈ s.frozen, ¬(e.2.req = .own rid ∧ e.2.serial = n))) → exec (.streamFreeze rid n) s = .next s) ∧
    (q.performed = false → (∀ x ∈ (s.stream q.slot q.stream).frozenBy, x.1 ≠ rid) →
      ((q.pkg ≠ s.pkg.number ∧ q.left = true) ∨ (q.pkg = s.pkg.number ∧ ∃ e ∈ s.frozen, e.2.req = .own rid ∧ e.2.serial = n)) →
      exec (.streamFreeze rid n) s = .next { s with
        streams := smapInsert s.streams q.slot { sl with
          streams := listSet sl.streams q.stream { s.stream q.slot q.stream with
            state := if (s.stream q.slot q.stream).state = 2 then 2 else 1, serial := n,
            frozenBy := (s.stream q.slot q.stream).frozenBy ++ [(rid, n)] } },
        fabric := s.fabric.map fun e => if rid < e.1 ∧ e.2.slot = q.slot ∧ e.2.stream = q.stream ∧ e.2.pkg = q.pkg ∧
          e.2.performed = false then (e.1, { e.2 with left := false }) else e })) ∧
  (∀ (s : State) (rid : Nat) (q : FabReq) (g : Group) (r : Reply) (cause : Option Nat) (vals : List (Nat × Word)),
    tabGet s.fabric rid = some q → q.kind.remote ≠ none ∨ (∃ v w, q.kind = .rstv v w) → s.group q.gid = some g →
    g.residency = .running → q.orphan = false → q.counter < 6 →
    ((q.performed = true ∧ s.writePerformed rid q.lines = true ∧ cause = q.cause ∧ vals = q.vals) ∨
      (q.performed = false ∧ q.pkg ≠ s.pkg.number ∧ q.left = true ∧ (∀ x ∈ (s.stream q.slot q.stream).frozenBy, x.1 ≠ rid) ∧
        cause = r.cause.map (fun c => c.toNat) ∧
        vals = (List.range q.lanes.length).map fun j => ((q.lanes.map (fun l => l.lane)).getD j 0, r.vals.getD j 0))) →
    ∃ t k, exec (.fabricRequestComplete rid r) s = .next t ∧ tabGet t.fabric rid = none ∧ OthersStay s t.fabric rid ∧
      t.locks = s.locks.filter (fun e => decide (e.1 ∉ q.locks)) ∧ t.mem = s.mem ∧ t.spad = s.spad ∧
      t.group q.gid = some k ∧ (∀ j, j ≠ q.gid → t.group j = s.group j) ∧
      (∀ sl, tabGet s.streams q.slot = some sl → q.stream < sl.streams.length → ∀ c < 16, cause = some c →
        (t.stream q.slot q.stream).causes.getLsbD c = true) ∧
      (cause = none → t.streams = s.streams) ∧
      (q.pend = none → k = { g with cnt := k.cnt } ∧ ∀ j < 6, k.cnt.get j = if j = q.counter then g.cnt.get j - 1 else g.cnt.get j) ∧
      ∀ id op, q.pend = some id → tabGet g.pend id = some op → op.counter < 6 →
        (∀ d ∈ op.dests, d.lane < 64 ∧ (d.reg.cls = .vreg ∨ d.reg.cls = .sreg)) →
        Landed g k id { op with
          dests := op.dests.map fun d => { d with val := if cause = none then smapGet 0 vals d.lane else 0 } }) ∧
  (∀ (s : State) (rid : Nat) (q : FabReq) (r : Reply), tabGet s.fabric rid = some q → q.kind.remote ≠ none → q.performed = false →
    (q.pkg = s.pkg.number ∨ q.left = false) → exec (.fabricRequestComplete rid r) s = .next s) ∧
  (∀ (s : State) (rid : Nat) (q : FabReq) (g : Group), tabGet s.fabric rid = some q → q.kind = .rfence → s.group q.gid = some g →
    ((q.left = true ∨ q.performed = true ∨ (s.stream q.slot q.stream).state ≠ 0 ∨ s.drained q = true ∨
      (∃ e ∈ s.fabric, e.1 < rid ∧ e.2.slot = q.slot ∧ e.2.stream = q.stream ∧
        (e.2.performed = false ∨ (e.2.cause = none ∧ s.writePerformed e.1 e.2.lines = false))) ∨
      ∃ id ∈ q.after, tabGet g.pend id ≠ none) → exec (.rfenceAdd rid) s = .next s) ∧
    (q.left = false → q.performed = false → (s.stream q.slot q.stream).state = 0 → s.drained q = false →
      (∀ e ∈ s.fabric, e.1 < rid → e.2.slot = q.slot → e.2.stream = q.stream →
        e.2.performed = true ∧ (e.2.cause ≠ none ∨ s.writePerformed e.1 e.2.lines = true)) →
      (∀ id ∈ q.after, tabGet g.pend id = none) →
      ∃ fb, exec (.rfenceAdd rid) s = .next { s with fabric := fb } ∧
        tabGet fb rid = some { q with left := true, planes := s.planesOf q } ∧ OthersStay s fb rid)) ∧
  (∀ (s : State) (slot stream serial : Nat) (fail : Bool) (x : StreamState), x = s.stream slot stream →
    ((∀ e ∈ x.frozenBy, e.2 ≠ serial) → (fail = false ∨ tabGet s.streams slot ≠ none) →
      exec (.streamResume slot stream serial fail) s = .next s) ∧
    ((∃ e ∈ x.frozenBy, e.2 = serial) → fail = false → ∃ sl sm fb, tabGet s.streams slot = some sl ∧
      exec (.streamResume slot stream serial fail) s = .next { s with streams := sm, fabric := fb } ∧
      tabGet sm slot = some { sl with streams := listSet sl.streams stream { x with
        frozenBy := x.frozenBy.filter fun e => decide (e.2 ≠ serial),
        state := if (∀ e ∈ x.frozenBy, e.2 = serial) ∧ x.state = 1 then 0 else x.state } } ∧
      (∀ j, j ≠ slot → tabGet sm j = tabGet s.streams j) ∧
      (∀ id, (tabGet fb id).map FabReq.unsent = (tabGet s.fabric id).map FabReq.unsent) ∧
      (keysRise s.fabric = true → ∀ id q, tabGet fb id = some q → q.left = false → q.performed = false →
        State.mayLeave { s with streams := sm, fabric := fb } id q = false)) ∧
    (fail = true → keysRise s.fabric = true → (∀ e ∈ s.fabric, ∀ a b n sp p, e.2.kind ≠ .xfer a b n sp (some p)) →
      ((∃ e ∈ x.frozenBy, e.2 = serial) → ∃ sl sm fb, tabGet s.streams slot = some sl ∧
        exec (.streamResume slot stream serial fail) s = .next { s with
          streams := sm, fabric := fb,
          frozen := s.frozen.filter fun e => !decide (e.2.srcPkg = s.pkg.number ∧ e.2.slot = slot ∧ e.2.stream = stream) } ∧
        tabGet sm slot = some { sl with streams := listSet sl.streams stream { x with state := 2, frozenBy := [] } } ∧
        (∀ j, j ≠ slot → tabGet sm j = tabGet s.streams j) ∧
        ∀ id q, tabGet s.fabric id = some q → tabGet fb id = some
          (if q.performed = false ∧ (q.heldIn slot stream = true ∨ ∃ e ∈ x.frozenBy, e.1 = id) then
            { q with performed := true, cause := some 4, left := true, frozen := false, sent := q.credited, lines := [], walked := [] }
          else q)) ∧
      (tabGet s.streams slot = none → ∃ fb, exec (.streamResume slot stream serial fail) s = .next { s with fabric := fb } ∧
        ∀ id q, tabGet s.fabric id = some q → tabGet fb id = some
          (if q.orphan = true ∧ q.heldIn slot stream = true then
            { q with performed := true, cause := some 4, left := true, frozen := false, sent := q.credited, lines := [], walked := [] }
          else q))))

/-- The chunks of transfers, register deliveries and arrivals in windows (R331, R332, R323, R336, R337, R338, R340,
R341, R335, R391, R353, R299). In every state: the next chunk of a transfer is at most 128 bytes within a line of its
destination; its source is read, and it is written to global memory, to the window of the seat, or sent to the other
package; a chunk whose writes are performed, or which the other package has answered, is credited to the pot; a source that
fails completes the transfer with SRCFAULT, a chunk that fails with its cause, and each sets FAIL in the pot; a transfer completes, c5 falls and its locks are free once every byte is credited, it has failed, or its group
was killed and no chunk is out. A delivery is applied to the group that the seat entry names: the lanes below its width,
with the count of its hold entry; an entry Moving makes it wait, a stale one drops it with cause 0, a register beyond
the allocation with cause 9, and lanes at or above the width record cause 1. A delivery or an arrival that waits is
applied by the entry as it then reads, and its sender is answered. Where the walks of a transfer's accesses are held, that other
packages act by events whose answers are recorded, and that what is delivered to a saved group goes to its image at once, are
the model's choices of log entries 90, 93 and 100. -/
def Obligations.TransfersAndDeliveries : Prop :=
  (∀ (s : State) (rid : Nat) (q : FabReq) (g : Group) (src dst : DWord) (len from_ at_ n : Nat) (space : Bool) (pot : Option Nat)
    (ag : Agent), tabGet s.fabric rid = some q → s.group q.gid = some g → q.kind = .xfer src dst len space pot → q.performed = false →
    (q.credited < q.sent → q.pkg = s.pkg.number → s.writePerformed rid q.lines = false → exec (.xferChunk (.own rid)) s = .next s) ∧
    (q.credited < q.sent → q.pkg = s.pkg.number → s.writePerformed rid q.lines = true → pot = none →
      exec (.xferChunk (.own rid)) s = .next { s with
        fabric := smapInsert s.fabric rid { q with
          credited := q.sent, performed := decide (q.sent = len), lines := [], walked := [] } }) ∧
    (q.credited < q.sent → q.pkg = s.pkg.number → s.writePerformed rid q.lines = true → ∀ p a, pot = some p →
      a = { seat := q.seat, off := 0, data := [], pot := some p, credit := q.sent - q.credited } → ArrivalFits s q.part a →
      ∃ u, ArrivalApplied s u q.part a ∧ u.fabric = s.fabric ∧ u.groups = s.groups ∧
        exec (.xferChunk (.own rid)) s = .next { u with
          fabric := smapInsert s.fabric rid { q with
            credited := q.sent, performed := decide (q.sent = len), lines := [], walked := [] } }) ∧
    (q.credited = q.sent → q.orphan = false → q.waitsLocks = false → s.quiet q.part = false → q.frozen = false → q.left = true →
      (s.stream q.slot q.stream).state = 0 → s.drained q = false →
      (∀ e ∈ s.fabric, e.1 < rid → e.2.slot = q.slot → e.2.stream = q.stream → e.2.pkg = q.pkg → e.2.performed = true) →
      (q.pkg = s.pkg.number → s.frozenHere q.pkg q.slot q.stream (.own rid) = false) →
      at_ = (if space then dst.toNat + q.sent else (dst.toNat + q.sent) % 2 ^ 54) → n = min (len - q.sent) (128 - at_ % 128) →
      ag = { part := q.part, priv := q.priv, core := coreOf q.gid, team := g.team, cached := true } → from_ = (src.toNat + q.sent) % 2 ^ 64 →
      (s.engineRead ag 3 from_ n = .error .busy → exec (.xferChunk (.own rid)) s = .next s) ∧
      (∀ x a, s.engineRead ag 3 from_ n = .error (.fail x a) → ∃ u, XferPotFailed s u rid q pot ∧
        exec (.xferChunk (.own rid)) s = .next { u with
          fabric := smapInsert s.fabric rid { q with
            performed := true, cause := some 7, left := true, frozen := false, sent := q.credited, lines := [], walked := [] } }) ∧
      (∀ bs, s.engineRead ag 3 from_ n = .ok bs → q.pkg ≠ s.pkg.number → ∃ s1 fb, SourceRead s s1 ag [(from_, n)] ∧
        exec (.xferChunk (.own rid)) s = .next { s1 with
          nextId := s.nextId + 1, fabric := fb,
          sent := smapInsert s.sent s.nextId
            { pkg := q.pkg, slot := q.slot, stream := q.stream, msg := .chunk rid at_ (s.planeOf q.pkg at_) bs } } ∧
        tabGet fb rid = some { q with sent := q.sent + n, planes := [s.planeOf q.pkg at_] } ∧ OthersStay s fb rid) ∧
      (∀ bs y pl, s.engineRead ag 3 from_ n = .ok bs → bs.length = n → q.pkg = s.pkg.number → space = false → s.NoReplicas →
        (∀ p, pot = some p → seatPkg q.seat = s.pkg.number ∧
          ArrivalFits s q.part { seat := q.seat, off := 0, data := [], pot := some p, credit := n }) →
        s.remoteCheck q.part .write [{ lane := 0, va := at_, x := 0, y := 0 }] = .ok [(y, pl)] →
        ∃ s1 t ws, SourceRead s s1 ag [(from_, n)] ∧ exec (.xferChunk (.own rid)) s = .next t ∧
          PlaceStored s1 t n pl (fun b => bs.getD b 0) ∧
          (∀ l, l ∈ ws ↔ l ∈ pl.walked ∨ ∃ x ∈ s.enginePlaces ag [(from_, n)], l ∈ x.walked) ∧
          ∃ d pg dt m po, t = { s1 with
            dir := d, pages := pg, dieTlbs := dt, mem := m, poison := po,
            fabric := smapInsert s.fabric rid { q with sent := q.sent + n, lines := pl.lines n, walked := ws } }) ∧
      (∀ bs a, s.engineRead ag 3 from_ n = .ok bs → bs.length = n → q.pkg = s.pkg.number → seatPkg q.seat = s.pkg.number → space = true →
        a = { seat := q.seat, off := at_, data := bs, pot := pot, credit := n } → ArrivalFits s q.part a →
        ∃ t, exec (.xferChunk (.own rid)) s = .next t ∧
          (∀ id, (t.group id).map (fun q => { q with lastPages := [] }) = (s.group id).map fun q => { q with lastPages := [] }) ∧
          (∀ gid h tid x, s.seatHolder q.part a.seat = .live gid → s.group gid = some h → h.team = some tid → s.team tid = some x →
            ArrivalLanded s.sbyte t.sbyte (x.key 0) a) ∧
          ((∀ x ∈ s.enginePlaces ag [(from_, n)], Marked s x ∧ ∀ im e, s.seatHolder q.part a.seat = .saved im →
            s.teamOfImage im = some e → ∀ c, x.entryAt = some c → Apart c 8 (im + 0x280) e.2.winLen) → ArrivalApplied s t q.part a) ∧
          tabGet t.fabric rid = some { q with
            sent := q.sent + n, credited := q.sent + n, performed := decide (q.sent + n = len) }))) ∧
  (∀ (s : State) (rid : Nat) (q : FabReq) (g : Group) (r : Reply) (src dst : DWord) (len : Nat) (space : Bool) (pot : Option Nat),
    tabGet s.fabric rid = some q → q.kind = .xfer src dst len space pot →
    (q.performed = false → q.pkg ≠ s.pkg.number → q.credited < q.sent →
      (r.cause = none → exec (.fabricRequestComplete rid r) s = .next { s with
        fabric := smapInsert s.fabric rid { q with credited := q.sent, performed := decide (q.sent = len) } }) ∧
      ∀ c, r.cause = some c → ∃ u, XferPotFailed s u rid q pot ∧ exec (.fabricRequestComplete rid r) s = .next { u with
        fabric := smapInsert s.fabric rid { q with performed := true, cause := some c.toNat, credited := q.sent } }) ∧
    ((q.performed = false ∧ (q.orphan = false ∨ q.credited ≠ q.sent)) → exec (.xferComplete rid) s = .next s) ∧
    (q.performed = true → q.orphan = false → s.group q.gid = some g → g.residency = .running → q.pend = none → q.counter = 5 →
      ∃ t, exec (.xferComplete rid) s = .next t ∧ tabGet t.fabric rid = none ∧ OthersStay s t.fabric rid ∧
        t.locks = s.locks.filter (fun e => decide (e.1 ∉ q.locks)) ∧ t.mem = s.mem ∧ t.spad = s.spad ∧
        t.group q.gid = some { g with cnt := { g.cnt with c5 := g.cnt.c5 - 1 } } ∧ (∀ j, j ≠ q.gid → t.group j = s.group j) ∧
        ∀ sl, tabGet s.streams q.slot = some sl → q.stream < sl.streams.length → ∀ c < 16, q.cause = some c →
          (t.stream q.slot q.stream).causes.getLsbD c = true) ∧
    (q.orphan = true → q.credited = q.sent →
      ∃ fb, exec (.xferComplete rid) s = .next { s with
        fabric := fb, locks := s.locks.filter fun e => decide (e.1 ∉ q.locks) } ∧ tabGet fb rid = none ∧ OthersStay s fb rid)) ∧
  (∀ (s : State) (c : XferChunkMsg) (a : Arrival),
    a = { seat := c.seat, off := if c.space then c.va else 0, data := if c.space then c.data else [], pot := c.pot, credit := c.data.length } →
    (s.frozenHere c.srcPkg c.slot c.stream (.foreignChunk c) = true → exec (.xferChunk (.foreignChunk c)) s = .next s) ∧
    (s.frozenHere c.srcPkg c.slot c.stream (.foreignChunk c) = false →
      (s.domainPart c.domain = none →
        exec (.xferChunk (.foreignChunk c)) s = .next (s.told c.srcPkg c.slot c.stream (.reply (some 2) []))) ∧
      ∀ part, s.domainPart c.domain = some part → c.fail = false →
        (s.heldBefore s.nextId c.srcPkg c.slot c.stream = true →
          exec (.xferChunk (.foreignChunk c)) s = .next (s.entered part (.foreignChunk c))) ∧
        (s.heldBefore s.nextId c.srcPkg c.slot c.stream = false →
          ChunkRuns (.xferChunk (.foreignChunk c)) s (s.entered part (.foreignChunk c)) s.nextId
            { part := part, req := .foreignChunk c, done := false, vals := [], lines := [], walked := [] } c a)) ∧
    ∀ k h, tabGet s.foreign k = some h → h.req = .foreignChunk c →
      ((h.done = true ∧ s.writePerformed k h.lines = false) ∨ (h.done = false ∧ s.heldBefore k c.srcPkg c.slot c.stream = true) →
        exec (.xferChunk (.waiting k)) s = .next s) ∧
      (h.done = true → s.writePerformed k h.lines = true → c.pot = none → exec (.xferChunk (.waiting k)) s =
        .next (State.told { s with foreign := smapErase s.foreign k } c.srcPkg c.slot c.stream (.reply none []))) ∧
      (h.done = false → s.heldBefore k c.srcPkg c.slot c.stream = false → ChunkRuns (.xferChunk (.waiting k)) s s k h c a)) ∧
  (∀ (s : State) (rid : Nat) (q : FabReq) (v0 : List Word) (v1 : Option (List Word)), tabGet s.fabric rid = some q →
    q.kind = .rstv v0 v1 →
    (s.reqReady rid q = false → exec (.registerDelivery (.own rid)) s = .next s) ∧
    (s.reqReady rid q = true → 
    (s.seatHolder q.part (seatNameOf q.seat) = .stale → exec (.registerDelivery (.own rid)) s = .next ({ s with fabric := smapInsert s.fabric rid { q with performed := true, cause := some 0 } })) ∧
    (s.seatHolder q.part (seatNameOf q.seat) = .moving → exec (.registerDelivery (.own rid)) s = .next (s)) ∧
    (∀ gid g, s.seatHolder q.part (seatNameOf q.seat) = .live gid → s.group gid = some g → g.width ≤ 64 →
      (g.vAlloc < seatReg q.seat + deliveryLen v1 → exec (.registerDelivery (.own rid)) s = .next ({ s with fabric := smapInsert s.fabric rid { q with performed := true, cause := some 9 } })) ∧
      (seatReg q.seat + deliveryLen v1 ≤ g.vAlloc → g.residency ≠ .swapped →
        ∃ k d, DeliveredTo g k q.seat q.mask v0 v1 ∧
          exec (.registerDelivery (.own rid)) s = .next ({ s.setGroup gid k with dir := d, fabric := smapInsert s.fabric rid { q with performed := true, cause := if q.mask >>> g.width ≠ 0 then some 1 else none } }))))) ∧
  (∀ (s : State) (m : DeliveryMsg) (out : Option Nat → State → State),
    out = (fun c t => { t with
      nextId := t.nextId + 1, sent := smapInsert t.sent t.nextId { pkg := m.srcPkg, slot := m.slot, stream := m.stream, msg := .reply c [] } }) →
    (s.frozenHere m.srcPkg m.slot m.stream (.waiting 0) = true → exec (.registerDelivery (.foreign m)) s = .next s) ∧
    (s.frozenHere m.srcPkg m.slot m.stream (.waiting 0) = false → s.domainPart m.domain = none →
      exec (.registerDelivery (.foreign m)) s = .next (out (some 2) s)) ∧
    (∀ part, s.frozenHere m.srcPkg m.slot m.stream (.waiting 0) = false → s.domainPart m.domain = some part →
      s.heldBefore s.nextId m.srcPkg m.slot m.stream = true → exec (.registerDelivery (.foreign m)) s = .next { s with
        nextId := s.nextId + 1, deliveries := smapInsert s.deliveries s.nextId { part := part, msg := m } }) ∧
    (∀ part, s.frozenHere m.srcPkg m.slot m.stream (.waiting 0) = false → s.domainPart m.domain = some part →
      s.heldBefore s.nextId m.srcPkg m.slot m.stream = false →
    (s.seatHolder part (seatNameOf m.seat) = .stale → exec (.registerDelivery (.foreign m)) s = .next (out (some 0) s)) ∧
    (s.seatHolder part (seatNameOf m.seat) = .moving → exec (.registerDelivery (.foreign m)) s = .next ({ s with nextId := s.nextId + 1, deliveries := smapInsert s.deliveries s.nextId { part := part, msg := m } })) ∧
    (∀ gid g, s.seatHolder part (seatNameOf m.seat) = .live gid → s.group gid = some g → g.width ≤ 64 →
      (g.vAlloc < seatReg m.seat + deliveryLen m.v1 → exec (.registerDelivery (.foreign m)) s = .next (out (some 9) s)) ∧
      (seatReg m.seat + deliveryLen m.v1 ≤ g.vAlloc → g.residency ≠ .swapped →
        ∃ k d, DeliveredTo g k m.seat m.lanes m.v0 m.v1 ∧
          exec (.registerDelivery (.foreign m)) s =
            .next (out (if m.lanes >>> g.width ≠ 0 then some 1 else none) { s.setGroup gid k with dir := d })))) ∧
    ∀ did part (i : Instr), tabGet s.deliveries did = some { part := part, msg := m } →
      i = .registerDelivery (.waiting did) ∨ i = .deliveryBounce did →
    (s.heldBefore did m.srcPkg m.slot m.stream = true → exec i s = .next s) ∧ (s.heldBefore did m.srcPkg m.slot m.stream = false →
    (s.seatHolder part (seatNameOf m.seat) = .stale → exec i s = .next (out (some 0) { s with deliveries := smapErase s.deliveries did })) ∧
    (s.seatHolder part (seatNameOf m.seat) = .moving → exec i s = .next (s)) ∧
    (∀ gid g, s.seatHolder part (seatNameOf m.seat) = .live gid → s.group gid = some g → g.width ≤ 64 →
      (g.vAlloc < seatReg m.seat + deliveryLen m.v1 → exec i s = .next (out (some 9) { s with deliveries := smapErase s.deliveries did })) ∧
      (seatReg m.seat + deliveryLen m.v1 ≤ g.vAlloc → g.residency ≠ .swapped →
        ∃ k d, DeliveredTo g k m.seat m.lanes m.v0 m.v1 ∧
          exec i s = .next (out (if m.lanes >>> g.width ≠ 0 then some 1 else none)
            { s.setGroup gid k with dir := d, deliveries := smapErase s.deliveries did }))))) ∧
  (∀ (s : State) (a : Arrival) (k : Nat) (h : HeldArrival) (out : Option Nat → State → State),
    s.arrivals.find? (fun e => decide (e.2.arr = a)) = some (k, h) →
    out = (fun c t => match h.sender with
      | some x => { t with
          nextId := t.nextId + 1, arrivals := smapErase s.arrivals k,
          sent := smapInsert t.sent t.nextId { pkg := x.1, slot := x.2.1, stream := x.2.2, msg := .reply c [] } }
      | none => { t with arrivals := smapErase s.arrivals k }) →
    ((∃ x, h.sender = some x ∧ s.heldBefore k x.1 x.2.1 x.2.2 = true) → exec (.seatArrival a) s = .next s) ∧
    ((∀ x, h.sender = some x → s.heldBefore k x.1 x.2.1 x.2.2 = false) →
      (s.seatHolder h.part a.seat = .stale → exec (.seatArrival a) s = .next (out (some 0) s)) ∧
      (s.seatHolder h.part a.seat = .moving → exec (.seatArrival a) s = .next s) ∧
      (ArrivalBeyond s h.part a → exec (.seatArrival a) s = .next (out (some 8) s)) ∧
      (ArrivalFits s h.part a → h.fail = false → ∃ u, exec (.seatArrival a) s = .next (out none u) ∧ ArrivalApplied s u h.part a ∧
        u.groups = s.groups ∧ u.teams = s.teams) ∧
      ∀ p gid g tid x, h.fail = true → a.data = [] → a.pot = some p → s.seatHolder h.part a.seat = .live gid → s.group gid = some g →
        g.team = some tid → s.team tid = some x → p + 16 ≤ x.winLen →
        ∃ u, exec (.seatArrival a) s = .next (out none u) ∧ SpadFail s u (x.key p + 8)))

/-- Heartbeats, failed packages, dead planes and ordering drains (R10, R315, R317, R318, R319, R342, R406, R407). In every
state: heartbeats go out when 13,000 cycles, 10 µs, have passed since the last ones, and not before, one on every live plane
to every other package that a valid rank entry names; one that arrives is noted for its package and plane; a package that a
valid rank entry without F names and that has been silent on every plane for 50 µs is declared failed, and so is one of
which a request comes back as undeliverable: F is set in every rank entry that names it, each request in flight to it
completes with LINK, and the streams frozen at it are in Error; otherwise nothing changes. A plane that alone is silent, or
that its link reports failed, becomes dead and drains, in the second case with its READY bit 0, REPLACE set and RETIRED one
higher; when the drain ends, what travelled on the dead plane and is not complete travels on the planes that its lines have
now, and requests that the drain held leave; a frame that fails authentication changes nothing. That a silent plane keeps
its READY bit, and that an Error stream's held requests wait for `rstat.clr`, are the model's choice of log entries 43 and
37. -/
def Obligations.LinksAndPlanes : Prop :=
  (∀ (s : State),
    (s.clock < s.pkg.lastBeatSent + 13000 → exec .heartbeatSend s = .next s) ∧
    (s.pkg.lastBeatSent + 13000 ≤ s.clock → ∃ b, exec .heartbeatSend s = .next { s with
        pkg := { s.pkg with lastBeatSent := s.clock, beatsSent := b } } ∧
      ∀ n, ∀ p < 8, (((∃ e ∈ s.parts, ∃ r ∈ e.2.ranks, r.2.valid = true ∧ r.2.pkg = n) ∧ n ≠ s.pkg.number ∧
          ∀ d ∈ s.pkg.deadPlanes, ¬((d.1 = n ∨ d.1 = 1024) ∧ d.2 = p)) →
            smapGet 0 b (8 * n + p) = smapGet 0 s.pkg.beatsSent (8 * n + p) + 1) ∧
        (¬((∃ e ∈ s.parts, ∃ r ∈ e.2.ranks, r.2.valid = true ∧ r.2.pkg = n) ∧ n ≠ s.pkg.number ∧
          ∀ d ∈ s.pkg.deadPlanes, ¬((d.1 = n ∨ d.1 = 1024) ∧ d.2 = p)) →
            smapGet 0 b (8 * n + p) = smapGet 0 s.pkg.beatsSent (8 * n + p)))) ∧
  (∀ (s : State) (pkg plane : Nat), plane < 8 → ∃ lb, exec (.heartbeatArrival pkg plane) s = .next { s with
      pkg := { s.pkg with lastBeat := lb } } ∧ ∀ k, tabGet lb k = if k = 8 * pkg + plane then some s.clock else tabGet s.pkg.lastBeat k) ∧
  (∀ (s : State) (pkg : Nat),
    (((∀ e ∈ s.parts, ∀ r ∈ e.2.ranks, ¬(r.2.valid = true ∧ r.2.failed = false ∧ r.2.pkg = pkg)) ∨ ∃ p < 8, ¬Silent s pkg p) →
      exec (.packageDeclaredFailed pkg) s = .next s) ∧
    ((∃ e ∈ s.parts, ∃ r ∈ e.2.ranks, r.2.valid = true ∧ r.2.failed = false ∧ r.2.pkg = pkg) → (∀ p < 8, Silent s pkg p) →
      ∃ t, exec (.packageDeclaredFailed pkg) s = .next t ∧ DeclaredFailed s t pkg)) ∧
  (∀ (s : State) (rid : Nat) (q : FabReq), tabGet s.fabric rid = some q →
    ((q.left = false ∨ q.performed = true ∨ q.pkg = s.pkg.number) → exec (.undeliverableReturn rid) s = .next s) ∧
    (q.left = true → q.performed = false → q.pkg ≠ s.pkg.number →
      ∃ t, exec (.undeliverableReturn rid) s = .next t ∧ DeclaredFailed s t q.pkg)) ∧
  (∀ (s : State) (pkg plane : Nat),
    ((¬Silent s pkg plane ∨ (pkg, plane) ∈ s.pkg.deadPlanes ∨ ∀ p < 8, tabGet s.pkg.lastBeat (8 * pkg + p) = none ∨ Silent s pkg p) →
      exec (.planeHeartbeatTimeout pkg plane) s = .next s) ∧
    (Silent s pkg plane → (pkg, plane) ∉ s.pkg.deadPlanes → (∃ p < 8, tabGet s.pkg.lastBeat (8 * pkg + p) ≠ none ∧ ¬Silent s pkg p) →
      exec (.planeHeartbeatTimeout pkg plane) s = .next { s with pkg := { s.pkg with
        deadPlanes := (pkg, plane) :: s.pkg.deadPlanes, draining := (pkg, plane) :: s.pkg.draining } })) ∧
  (∀ (s : State) (plane : Nat), plane < 8 →
    ((1024, plane) ∈ s.pkg.deadPlanes → exec (.linkFailure plane) s = .next s) ∧
    ((1024, plane) ∉ s.pkg.deadPlanes → ∃ r, exec (.linkFailure plane) s = .next { s with pkg := { s.pkg with
        deadPlanes := (1024, plane) :: s.pkg.deadPlanes, draining := (1024, plane) :: s.pkg.draining, readyM := r,
        replace := true,
        retired := if s.pkg.readyM.getLsbD (16 + plane) = true then min 255 (s.pkg.retired + 1) else s.pkg.retired } } ∧
      ∀ i < 32, r.getLsbD i = (s.pkg.readyM.getLsbD i && decide (i ≠ 16 + plane)))) ∧
  (∀ (s : State) (pkg plane : Nat) (k : Pkg), k = { s.pkg with draining := s.pkg.draining.filter fun d => decide (d ≠ (pkg, plane)) } →
    ∃ fb sn, exec (.orderingDrainEnd pkg plane) s = .next { s with pkg := k, fabric := fb, sent := sn } ∧
      (∀ id, (tabGet fb id).map FabReq.unsent = (tabGet s.fabric id).map FabReq.unsent) ∧
      (∀ id q, tabGet s.fabric id = some q → q.left = true → tabGet fb id = some
        (if (pkg = q.pkg ∨ pkg = 1024) ∧ q.performed = false ∧ plane ∈ q.planes then { q with planes := s.planesOf q } else q)) ∧
      (∀ id q, tabGet s.fabric id = some q → q.performed = false → q.left = false → { s with pkg := k }.mayLeave id q = true →
        tabGet fb id = some { q with left := true, planes := s.planesOf q }) ∧
      (∀ id e rid a bs q, tabGet s.sent id = some e → e.msg = .chunk rid a plane bs → (pkg = e.pkg ∨ pkg = 1024) →
        tabGet s.fabric rid = some q → q.performed = false → q.credited < q.sent →
        tabGet sn id = some { e with msg := .chunk rid a (s.planeOf e.pkg a) bs }) ∧
      ∀ id e, tabGet s.sent id = some e → (∀ rid a bs, e.msg = .chunk rid a plane bs → (pkg ≠ e.pkg ∧ pkg ≠ 1024) ∨
          ∀ q, tabGet s.fabric rid = some q → q.performed = true ∨ q.sent ≤ q.credited) → tabGet sn id = some e) ∧
  (∀ (s : State) (plane : Nat), exec (.frameAuthFail plane) s = .next s)

/-- Power, units, errors, islands, windows and attestation (R9, R22, R379, R380, R396, R404, R405, R406, R407, R408, R409,
R446). In every state: power-good is noted; under power the next firmware image is taken, and where its ECDSA signature
verifies under the package's firmware key, it sets the bit of the root of trust and is measured; a unit that is then trained sets its own READY bit, and the first
plane brings a pod number, a free one (log entry 113); a package reset leaves the state of reset but for the memory of the
safe tier, expanders and host, which it keeps with the firmware key and images; a ready unit that retires loses its READY bit, sets REPLACE and counts in
RETIRED, and beyond that the lines of a slice group or stack are poisoned, a plane is dead and drains, and the other units but
clusters change nothing; a retired cluster loses its groups. A corrected error counts in CE; an uncorrectable one poisons a
whole line, a 16-byte part of a scratchpad, a register, or a row of a tile or an accumulator. An island that is throttled goes
down one point, to 3 at most, one that recovers goes up one toward its REQ, and one that reaches its point runs there and,
turned off, loses its scratchpads. An expander window is rewritten only in the expander range, apart from the others and from
memory that a partition owns. An SPDM request is answered with the measurements, of which index 4 is that of the partition
table, signed under the identity key, and opens its session; a bind names its partition and its wrap key. That units are
brought up one by one, what a package reset keeps, the parts that poison is held for, the encodings of messages and of the
table, and that the firmware key and images are a part of the state, are the model's choice of log entries 82, 81, 39, 71, 114 and 119. -/
def Obligations.PackageUnits : Prop :=
  (∀ (s : State), exec .powerGood s = .next { s with pkg := { s.pkg with powered := true } }) ∧
  (∀ (s : State), (s.pkg.powered = false ∨ s.pkg.flash.length ≤ s.pkg.flashAt) → exec .firmwareVerify s = .next s) ∧
  (∀ (s : State) (n r v : Nat) (im : List Byte), s.pkg.powered = true → s.pkg.flash[s.pkg.flashAt]? = some (n, im, r, v) →
    ((ecdsaVerify s.pkg.bootKey im (r, v) = false ∨ ¬(n = 1 ∨ s.pkg.readyAt (3, 3) = true ∧ (n = 2 ∨ n = 3))) →
      exec .firmwareVerify s = .next { s with pkg := { s.pkg with flashAt := s.pkg.flashAt + 1 } }) ∧
    (ecdsaVerify s.pkg.bootKey im (r, v) = true → (n = 1 ∨ s.pkg.readyAt (3, 3) = true ∧ (n = 2 ∨ n = 3)) →
      ∃ x ms, exec .firmwareVerify s = .next { s with
          pkg := { s.pkg with flashAt := s.pkg.flashAt + 1, readyX := x, measured := ms } } ∧
        ReadySet s.pkg { s.pkg with readyX := x, measured := ms } .rot true ∧
        ∀ k, tabGet ms k = if k = n then some (digest im) else tabGet s.pkg.measured k)) ∧
  (∀ (s : State) (u : PkgUnit), UnitExists u →
    ((s.pkg.powered = false ∨ s.pkg.readyAt (3, 3) = false) → exec (.unitReady u) s = .next s) ∧
    (s.pkg.powered = true → s.pkg.readyAt (3, 3) = true → ∃ c sg m x pod nb k, exec (.unitReady u) s = .next { s with
        serial := k, pkg := { s.pkg with readyC := c, readyS := sg, readyM := m, readyX := x, number := pod, numbered := nb } } ∧
      ReadySet s.pkg { s.pkg with readyC := c, readyS := sg, readyM := m, readyX := x, number := pod, numbered := nb } u true ∧
      ((s.pkg.numbered = true ∨ ∀ n, u ≠ .plane n) → pod = s.pkg.number ∧ nb = s.pkg.numbered ∧ k = s.serial) ∧
      (s.pkg.numbered = false → (∃ n, u = .plane n) → pod < 1024 ∧ nb = true))) ∧
  (∀ (s : State), ∃ m po, exec .packageReset s = .next { State.reset with
      tick := s.tick, serial := s.serial, nextId := s.nextId, inbox := s.inbox, mem := m, poison := po,
      pkg := { Pkg.reset with
        number := s.pkg.number, powered := s.pkg.powered, lostUnits := s.pkg.lostUnits, bootKey := s.pkg.bootKey,
        flash := s.pkg.flash } } ∧
    ∀ a, smapGet memDefault m a =
      if (0x060000000000 ≤ a ∧ a < 0x070000000000) ∨ 0x1000000000000 ≤ a then s.byte a else memDefault) ∧
  (∀ (s : State) (u : PkgUnit), UnitExists u →
    (s.pkg.readyAt (readyBit u) = false → exec (.unitRetire u) s = .next s) ∧
    (s.pkg.readyAt (readyBit u) = true → ∃ t, exec (.unitRetire u) s = .next t ∧ ReadySet s.pkg t.pkg u false ∧
      t.pkg.replace = true ∧ t.pkg.retired = min 255 (s.pkg.retired + 1) ∧
      (∀ n, (u = .sliceGroup n ∨ u = .stack n) → ∃ k po, t = { s with pkg := k, poison := po } ∧
        ∀ l, unitHolds u l = true → t.poisonMask l = BitVec.allOnes 128) ∧
      (∀ n, u = .plane n → ∃ k, t = { s with pkg := k } ∧ k.deadPlanes = (1024, n) :: s.pkg.deadPlanes ∧
        k.draining = (1024, n) :: s.pkg.draining) ∧
      ((∀ n, u ≠ .cluster n ∧ u ≠ .sliceGroup n ∧ u ≠ .stack n ∧ u ≠ .plane n) → ∃ k, t = { s with pkg := k }) ∧
      ∀ n, u = .cluster n → (∀ e ∈ s.groups, s.group e.1 = some e.2) → ∀ id g, s.group id = some g → clusterOf (coreOf id) = n →
        t.group id = none)) ∧
  (∀ (s : State), exec .correctedError s = .next { s with pkg := { s.pkg with ce := min 255 (s.pkg.ce + 1) } }) ∧
  (∀ (s : State),
    (∀ pa, ∃ po, exec (.uncorrectableError (.line pa)) s = .next { s with poison := po } ∧
      ∀ l, { s with poison := po }.poisonMask l = if l = pa / 128 then BitVec.allOnes 128 else s.poisonMask l) ∧
    (∀ core off, core < 768 → off < 2 ^ 19 → ∃ po, exec (.uncorrectableError (.spad core off)) s = .next { s with spadPoison := po } ∧
      ∀ l, smapGet 0 po l = if l = spadKey core off / 16 then BitVec.allOnes 16 else smapGet 0 s.spadPoison l) ∧
    (∀ gid r g, s.group gid = some g → r < g.vAlloc → exec (.uncorrectableError (.vreg gid r)) s = .next (s.setGroup gid
      { g with bad := if BadLoc.reg (vName r) (maskBelow g.width) ∈ g.bad then g.bad else .reg (vName r) (maskBelow g.width) :: g.bad })) ∧
    (∀ gid r g, s.group gid = some g → r < g.sAlloc ∨ r = 62 → exec (.uncorrectableError (.sreg gid r)) s = .next (s.setGroup gid
      { g with bad := if BadLoc.reg (sName r) (BitVec.allOnes 64) ∈ g.bad then g.bad else .reg (sName r) (BitVec.allOnes 64) :: g.bad })) ∧
    (∀ gid r g, s.group gid = some g → r < 7 → exec (.uncorrectableError (.pred gid r)) s = .next (s.setGroup gid
      { g with bad := if BadLoc.reg (pName r) (BitVec.allOnes 64) ∈ g.bad then g.bad else .reg (pName r) (BitVec.allOnes 64) :: g.bad })) ∧
    (∀ gid t row g, s.group gid = some g → t < g.tAlloc → row < 16 → exec (.uncorrectableError (.tile gid t row)) s = .next (s.setGroup gid
      { g with bad := if BadLoc.tile t row ∈ g.bad then g.bad else .tile t row :: g.bad })) ∧
    ∀ gid a res row g, s.group gid = some g → a < g.aAlloc → row < 16 →
      exec (.uncorrectableError (.acc gid a res row)) s = .next (s.setGroup gid
        { g with bad := if BadLoc.acc a res row ∈ g.bad then g.bad else .acc a res row :: g.bad })) ∧
  (∀ (s : State) (n : Nat) (i : Island), i = s.island n → n < 128 →
    ((24 ≤ n % 32 ∨ 3 ≤ i.point) → exec (.throttle n) s = .next s) ∧
    (n % 32 < 24 → i.point < 3 → ∃ t, exec (.throttle n) s = .next t ∧
      IslandSet s t n { i with point := i.point + 1, throttle := i.point + 1 }) ∧
    ((i.throttle = 0 ∨ i.point ≤ i.req) → exec (.throttleRecover n) s = .next s) ∧
    (i.throttle ≠ 0 → i.req < i.point → ∃ t, exec (.throttleRecover n) s = .next t ∧
      IslandSet s t n { i with point := max i.req (i.throttle - 1), throttle := i.throttle - 1 }) ∧
    (i.point = max i.req i.throttle → exec (.islandPointReached n) s = .next s) ∧
    (i.point ≠ max i.req i.throttle → max i.req i.throttle ≠ 7 → ∃ t, exec (.islandPointReached n) s = .next t ∧
      IslandSet s t n { i with point := max i.req i.throttle }) ∧
    (i.point ≠ 7 → max i.req i.throttle = 7 → n % 32 < 24 → ∃ u sp po r, IslandSet s u n { i with point := 7 } ∧
      exec (.islandPointReached n) s = .next { u with spad := sp, spadPoison := po, serial := r } ∧
      ∀ k, k / 2 ^ 19 / 8 ≠ 2 * (12 * (n / 32) + n % 32 / 2) + n % 2 → smapGet memDefault sp k = s.sbyte k)) ∧
  (∀ (s : State) (n base size : Nat),
    (n < 8 → base % 2 ^ 29 = 0 → size % 2 ^ 29 = 0 → base < 2 ^ 52 → size < 2 ^ 52 → (size ≠ 0 → 0x1000000000000 ≤ base ∧ base + size ≤ 0x8000000000000) →
      (∀ w ∈ s.pkg.windows, w.1 ≠ n → Apart base size w.2.1 w.2.2 ∨ size = 0 ∨ w.2.2 = 0) →
      (∀ u, (s.window n).1 / 2 ^ 29 ≤ u → u < (s.window n).1 / 2 ^ 29 + (s.window n).2 / 2 ^ 29 →
        (base ≤ 2 ^ 29 * u ∧ 2 ^ 29 * u < base + size) ∨ ∀ e ∈ s.parts, e.2.live = true → e.2.owns (2 ^ 29 * u) = false) →
      ∃ w, exec (.expanderWindowChange n base size) s = .next { s with pkg := { s.pkg with windows := w } } ∧
        ∀ m, tabGet w m = if m = n then some (base, size) else tabGet s.pkg.windows m) ∧
    ((8 ≤ n ∨ base % 2 ^ 29 ≠ 0 ∨ size % 2 ^ 29 ≠ 0 ∨ 2 ^ 52 ≤ base ∨ 2 ^ 52 ≤ size ∨ (size ≠ 0 ∧ (base < 0x1000000000000 ∨ 0x8000000000000 < base + size))) →
      exec (.expanderWindowChange n base size) s = .next s)) ∧
  (∀ (s : State) (id part : Nat) (req secret : List Byte),
    (s.pkg.readyAt (3, 3) = false → exec (.spdmRequest id req) s = .next s ∧ exec (.spdmBind id part secret) s = .next s) ∧
    (16 ≤ part → exec (.spdmBind id part secret) s = .next s) ∧
    (s.pkg.readyAt (3, 3) = true → ∃ ss a n, exec (.spdmRequest id req) s = .next { s with
        serial := s.serial + 1, pkg := { s.pkg with spdmAnswers := s.pkg.spdmAnswers ++ [a], sessions := ss } } ∧
      a.session = id ∧ a.request = req ∧ a.sig = ecdsaSign Config.identityKey n (Config.spdmMessage req a.measured) ∧
      (∀ k, k ≠ 4 → tabGet a.measured k = tabGet s.pkg.measured k) ∧
      tabGet a.measured 4 = some (digest (Config.tableBytes ((List.range 16).map fun p => ((s.part p).map Part.rowFields).getD []))) ∧
      ∀ m, tabGet ss m = if m = id ∧ tabGet s.pkg.sessions m = none then some { part := none, key := [], lastSeq := none }
        else tabGet s.pkg.sessions m) ∧
    (s.pkg.readyAt (3, 3) = true → part < 16 → ∃ ss, exec (.spdmBind id part secret) s = .next { s with
        pkg := { s.pkg with sessions := ss } } ∧
      ∀ m, tabGet ss m = if m = id then some
          { part := some part, key := wrapKey secret, lastSeq := (tabGet s.pkg.sessions id).bind fun x => x.lastSeq }
        else tabGet s.pkg.sessions m))

/-- Checkpoints and restores, the partition table and Ethernet (R134, R294, R340, R345, R379, R380, R400, R401, R409,
R410, R411, R412). In every state: a falling CKPT_N starts a checkpoint with QUIESCE of every live partition that has
none in progress. A checkpoint that is asked for copies every byte of the partition's HBM to its address in the safe
tier and changes no other; a restore is refused, STATE 4, while a team or an incomplete grid stands, waits while a
translation of the partition's HBM is in use, and otherwise copies each byte back and drops the cached copies; when it
is complete, STATE becomes 3, or 4 after an uncorrectable error, GO clears and ALERT_N pulses. A row of the partition
table that is not allowed changes nothing; a partition set up, for the first time or again after it has ended, begins with the
registers of R379 and R380 and with its house program alone, whose text is measured; a live one takes its grants, its kitty and
its house core, and the memory, scratchpads and keys that it loses read as zero or are gone; one that ends loses its groups and
teams. A frame that is ready goes out with its check sequence and READ advances; one
that arrives for the partition is written with its prefix, WRITE advances and the consumer is credited; a frame that is
bad, too long, not for it or without room changes nothing. When a checkpoint copies, what a reset keeps, which changes are legal,
what of a region is zeroed, the frame check sequence, the access of the ports and how long a house program's text is, are the
model's choices of log entries 69, 81, 83, 84, 85, 86 and 114. -/
def Obligations.CheckpointsAndPorts : Prop :=
  (∀ (s : State), ∃ pp, exec .ckptNFall s = .next { s with parts := pp } ∧ ∀ n, tabGet pp n = (s.part n).map fun x =>
    if x.live = true ∧ x.ckpt.go = false then { x with ckpt := { go := true, quiesce := true, restore := false, stage := 1 } } else x) ∧
  (∀ (s : State) (part : Nat) (x : Part), s.part part = some x → Memory.wf s.mem = true →
    ((x.ckpt.go = false ∨ x.ckpt.restore = true ∨ x.ckpt.stage ≠ 1) → exec (.ckptCheckpoint part) s = .next s) ∧
    (x.ckpt.go = true → x.ckpt.restore = false → x.ckpt.stage = 1 → s.NoReplicas →
      ∃ d m po, exec (.ckptCheckpoint part) s = .next ({ s with dir := d, mem := m, poison := po }.setPart part
          { x with ckpt := { x.ckpt with stage := 2, go := true } }) ∧
        (∀ a, a < 2 ^ 40 → x.owns a = true → smapGet memDefault m (0x060000000000 + a) = smapGet memDefault m a) ∧
        (∀ a, a < 2 ^ 40 → x.owns a = true → (s.dirEntry (a / 128)).arriving = [] →
          (∀ c ∈ (s.dirEntry (a / 128)).l1, c.2.dirty = 0) → smapGet memDefault m a = s.byte a) ∧
        (∀ a c y, a < 2 ^ 40 → x.owns a = true → (s.dirEntry (a / 128)).arriving = [] → (s.dirEntry (a / 128)).l1 = [(c, y)] →
          y.key = none → smapGet memDefault m a = if y.dirty.getLsbD (a % 128) then y.data.getD (a % 128) 0 else s.byte a) ∧
        ∀ a, ¬(0x060000000000 ≤ a ∧ a < 0x070000000000 ∧ x.owns a = true) → ¬(a < 2 ^ 40 ∧ x.owns a = true) →
          smapGet memDefault m a = s.byte a)) ∧
  (∀ (s : State) (part : Nat) (x : Part), s.part part = some x → Memory.wf s.mem = true →
    ((x.ckpt.go = false ∨ x.ckpt.restore = false ∨ x.ckpt.stage ≠ 1) → exec (.ckptRestore part) s = .next s) ∧
    (x.ckpt.go = true → x.ckpt.restore = true → x.ckpt.stage = 1 →
      (((∃ e ∈ s.teams, e.2.part = part ∧ (e.2.state = .queued ∨ e.2.state = .resident ∨ e.2.state = .preempted)) ∨
          ∃ e ∈ s.grids, e.2.part = part ∧ e.2.complete = false) →
        exec (.ckptRestore part) s = .next (s.setPart part { x with ckpt := { x.ckpt with stage := 4, go := false } })) ∧
      ((∀ e ∈ s.teams, e.2.part = part → e.2.state = .held ∨ e.2.state = .retired) →
        (∀ e ∈ s.grids, e.2.part = part → e.2.complete = true) →
        ((∃ e ∈ s.dir, 128 * e.1 < 2 ^ 40 ∧ x.owns (128 * e.1) = true ∧ s.transHeld e.1 = true ∧ s.walkInUse 0 e.1 = true) →
          exec (.ckptRestore part) s = .next s) ∧
        ((∀ e ∈ s.dir, 128 * e.1 < 2 ^ 40 → x.owns (128 * e.1) = true → s.transHeld e.1 = true → s.walkInUse 0 e.1 = false) →
          s.NoReplicas → ∃ d m po tl dt gs hi, exec (.ckptRestore part) s = .next ({ s with
                dir := d, mem := m, poison := po, tlbs := tl, dieTlbs := dt, groups := gs, hist := hi }.setPart part
              { x with ckpt := { x.ckpt with stage := 2, go := true } }) ∧
            (∀ id, (tabGet gs id).map (fun q => { q with lastPages := [] }) = (s.group id).map fun q => { q with lastPages := [] }) ∧
            (∀ c, ∀ e ∈ smapGet [] tl c ++ smapGet [] dt c, e.part ≠ part) ∧
            (∀ a, a < 2 ^ 40 → x.owns a = true → smapGet memDefault m a = s.byte (0x060000000000 + a)) ∧
            (∀ a, ¬(a < 2 ^ 40 ∧ x.owns a = true) → smapGet memDefault m a = s.byte a) ∧
            ∀ l, 128 * l < 2 ^ 40 → x.owns (128 * l) = true → tabGet d l = none)))) ∧
  (∀ (s : State) (part : Nat) (x : Part) (err : Bool), s.part part = some x →
    ((x.ckpt.go = false ∨ x.ckpt.stage ≠ 2) → exec (.ckptComplete part err) s = .next s) ∧
    (x.ckpt.go = true → x.ckpt.stage = 2 → ∃ st, exec (.ckptComplete part err) s =
        .next { s.setPart part { x with ckpt := { x.ckpt with stage := st, go := false } } with
          pkg := { s.pkg with alertPulses := s.pkg.alertPulses + 1 } } ∧
      (err = true → st = 4) ∧ (err = false → s.poison = [] → s.pkg.lostUnits = [] → st = 3))) ∧
  (∀ (s : State) (part : Nat) (row : PartRow),
    (∀ n y, s.part n = some y → n ≠ part → y.live = true → row.live = true →
      (row.clust &&& y.clust ≠ 0 ∨ row.region &&& y.region ≠ 0 ∨ row.eth &&& y.eth ≠ 0 ∨ (row.domain ≠ 0 ∧ row.domain = y.domain)) →
      exec (.partcfgChange part row) s = .next s) ∧
    (∀ n, s.rowAllowed part row = true →
      (s.part part = none ∧ n = 1 ∨ ∃ x, s.part part = some x ∧ x.live = false ∧ row.live = true ∧ n = x.changes.toNat + 1) →
      ∃ g ms, exec (.partcfgChange part row) s = .next { (s.setPart part
          { Part.fresh row with changes := BitVec.ofNat 8 n, halved := s.clock }).setGroup (128 * row.houseCore) g with
            pkg := { s.pkg with measured := ms } } ∧
        (∀ k, k ≠ 5 + part → tabGet ms k = tabGet s.pkg.measured k) ∧
        tabGet ms (5 + part) = some (digest (s.bytes (row.houseText.toNat % 2 ^ 52) (Config.houseLength part))) ∧
        g.part = part ∧ g.team = none ∧ g.width = 8 ∧ g.latency = true ∧ g.role = .vector ∧ g.priv = true ∧ g.ovtab = 0x155 ∧
        g.splits = [{ slot := 0, mask := 0xFF, pc := row.houseText, st := .ready, joins := [], held := none, safeAt := none }]) ∧
    (∀ x, s.rowAllowed part row = true → s.part part = some x → x.live = true → row.live = true →
      ∃ t y, exec (.partcfgChange part row) s = .next t ∧ t.part part = some y ∧
        y = { x with
          clust := row.clust, region := row.region, slots := row.slots, eth := row.eth, ethAddr := row.ethAddr,
          streamBase := row.streamBase, streamCount := row.streamCount, domain := row.domain, kitty := row.kitty,
          houseCore := row.houseCore,
          changes := BitVec.ofNat 8 (x.changes.toNat + 1), keys := y.keys, keystat := y.keystat, pools := y.pools } ∧
        (∀ k ∈ x.slots, k ∉ row.slots → tabGet y.keys k.1 = none) ∧
        (∀ k, (∀ j ∈ x.slots, j.1 = k → j ∈ row.slots) → tabGet y.keys k = tabGet x.keys k) ∧
        ((∀ e ∈ s.dir, ∀ c ∈ e.2.l1, c.2.key ≠ none → c.2.dirty = 0) → (∀ e ∈ s.dir, e.2.arriving = []) →
          ∀ a, t.byte a = if x.owns a = true ∧ row.region.getLsbD (homeRegion a) = false then 0 else s.byte a) ∧
        (∀ a, x.owns a = true → row.region.getLsbD (homeRegion a) = false → t.byte a = 0) ∧
        (∀ k, k / 2 ^ 19 < 768 → t.sbyte k = if x.clust.getLsbD (clusterOf (k / 2 ^ 19)) = true ∧
          row.clust.getLsbD (clusterOf (k / 2 ^ 19)) = false then 0 else s.sbyte k) ∧
        (∀ id, (t.group id).map (fun q => { q with lastPages := [] }) = (s.group id).map fun q => { q with lastPages := [] }) ∧
        t.teams = s.teams ∧ (s.NoReplicas → ∀ n, n ≠ part → t.part n = s.part n)) ∧
    ∀ x, s.rowAllowed part row = true → s.part part = some x → x.live = true → row.live = false →
      ∃ t y, exec (.partcfgChange part row) s = .next t ∧ t.part part = some y ∧ y.live = false ∧ y.clust = 0 ∧ y.region = 0 ∧
        y.changes = BitVec.ofNat 8 (x.changes.toNat + 1) ∧ (∀ e ∈ t.teams, e.2.part ≠ part) ∧
        (∀ id g, s.group id = some g → g.part = part → t.group id = none)) ∧
  (∀ (s : State) (port : Nat) (f : EthFrame), s.portOwner port = none →
    exec (.ethTransmit port) s = .next s ∧ exec (.ethReceive port f) s = .next s) ∧
  (∀ (s : State) (port part : Nat) (x : Part) (h : QueueHeader) (hdr len : Nat) (pa : Nat → Nat) (p : Place) (bs : List Byte),
    s.portOwner port = some (part, x) → hdr = (x.ethTx.getD port 0).toNat → hdr ≠ 0 → s.queueHeader part hdr = some h →
    ((h.write + 2 ^ 32 - h.read) % 2 ^ 32 < 16 → exec (.ethTransmit port) s = .next s) ∧
    (queueOk h.base h.size 0 16 = true → UnitPlaces s part h h.read ((len + 15) / 16 + 1) .read pa → s.NoReplicas →
      len = ofBytes (s.bytes (pa 0) 2) → 16 * ((len + 15) / 16 + 1) ≤ (h.write + 2 ^ 32 - h.read) % 2 ^ 32 →
      s.portPlace part (hdr + 0x10) 4 .write = some p → Marked s p →
      bs = ((List.range ((len + 15) / 16)).flatMap fun i => s.bytes (pa (i + 1)) 16).take len →
      ∃ t, exec (.ethTransmit port) s = .next t ∧
        t.pkg = { s.pkg with ethSent := s.pkg.ethSent ++ [(port, bs ++ toBytes 4 (frameFcs bs))] } ∧
        PlaceStored s t 4 p (fun b => (toBytes 4 (h.read + 16 * ((len + 15) / 16 + 1))).getD b 0) ∧ t.groups = s.groups)) ∧
  (∀ (s : State) (port part : Nat) (x : Part) (f : EthFrame) (h : QueueHeader) (hdr n : Nat) (pa : Nat → Nat) (bs : List Byte),
    s.portOwner port = some (part, x) → hdr = (x.ethRx.getD port 0).toNat →
    ((f.fcsOk = false ∨ 9216 < f.data.length ∨ (port, f.dest, f.vlan) ∉ x.ethAddr ∨ hdr = 0) → exec (.ethReceive port f) s = .next s) ∧
    (hdr ≠ 0 → s.queueHeader part hdr = some h →
      bs = toBytes 2 f.data.length ++ toBytes 14 0 ++ f.data ++ toBytes ((16 - f.data.length % 16) % 16) 0 →
      (h.size < (h.write + bs.length + 2 ^ 32 - h.read) % 2 ^ 32 → exec (.ethReceive port f) s = .next s) ∧
      (f.fcsOk = true → f.data.length ≤ 9216 → (port, f.dest, f.vlan) ∈ x.ethAddr → queueOk h.base h.size h.pot bs.length = true →
        (h.write + bs.length + 2 ^ 32 - h.read) % 2 ^ 32 ≤ h.size → n = bs.length / 16 → UnitPlaces s part h h.write n .write pa →
        s.NoReplicas → ∀ hp kind e ls, s.portPlace part (hdr + 0x0C) 4 .write = some (.phys hp kind none e ls) →
        Marked s (.phys hp kind none e ls) → (∀ i < n, Apart (pa i) 16 hp 4) →
        (∀ i < n, ∀ j ≤ n, ∀ q, (if j = n then s.portPlace part (hdr + 0x0C) 4 .write
          else s.portPlace part (h.base + (h.write + 16 * j) % h.size) 16 .write) = some q → ∀ c, q.entryAt = some c →
          Apart (pa i) 16 c 8) →
        ∃ u : State, exec (.ethReceive port f) s = .next (u.creditQueue part h bs.length) ∧ u.bytes hp 4 = toBytes 4 (h.write + bs.length) ∧
          (∀ i < n, u.bytes (pa i) 16 = (bs.drop (16 * i)).take 16) ∧
          (∀ a, (∀ i < n, ¬(pa i ≤ a ∧ a < pa i + 16)) → ¬(hp ≤ a ∧ a < hp + 4) → u.byte a = s.byte a) ∧ u.groups = s.groups ∧
          u.spad = s.spad))) ∧
  (∀ (s : State) (part n : Nat) (h : QueueHeader) (a : Arrival),
    a = { seat := h.seat, off := 0, data := [], pot := some h.pot, credit := n } →
    (seatPkg h.seat ≠ s.pkg.number → s.creditQueue part h n = s) ∧
    (seatPkg h.seat = s.pkg.number → ArrivalFits s part a → ArrivalApplied s (s.creditQueue part h n) part a) ∧
    (seatPkg h.seat = s.pkg.number → s.seatHolder part h.seat = .moving → s.creditQueue part h n = { s with
      nextId := s.nextId + 1, arrivals := smapInsert s.arrivals s.nextId { part := part, arr := a, fail := false, sender := none } }))

/-- The traps that instructions take before they have an effect (R55, R56, R58, R59, R176, R271, R348, R351, R352, R354,
R381, R393). In every group that is about to issue, outside a handler: a privileged instruction of a team takes trap
0x02; an integer instruction with a register beyond the allocation takes trap 0x14, and with a prefix field that it does
not honour trap 0x03; a special function of another role than vector takes trap 0x15; an operation that rounds takes
trap 0x11 when an Active lane raises an enabled exception, with the exceptions raised and the lowest such lane in TVAL;
a uniform load or store whose address fails a check takes the cause of that check, and on a range conflict 0x07, with
the address in TVAL and the split's mask in TMASK, and it waits on a busy entry and on the line of an entry whose write is not
performed yet. A check takes the first of the causes of its walk or of the translation that the core's TLB or the die's cache
holds: a walk goes down from the root through the entries of its tables, malformed before busy before invalid. The physical window names memory that exists and that the partition owns, without a key. Each trap leaves
the registers, the flags and the counters as they were. The same traps of a group in a handler kill it. That the frame has SIG
without the trapping word is the model's choice of log entry 49, that a table outside the regions traps 0x18 that of entry 45,
that a busy entry comes before the traps of later causes that of entry 52, and what a waiting instruction keeps that of entry 91. -/
def Obligations.Traps : Prop :=
  (∀ (i : Instr), Privileged i → ∀ (s : State) (gid : Nat) (g : Group) (p : Split) , Ready s gid g p → ∀ (x : Part), Outside s g x → g.team ≠ none →
    ∃ t, exec i s = .next t ∧ TrapEntered s t x gid g p 0x02 (tvalOf i) p.mask) ∧
  (∀ e ∈ elementOps, ∀ (s : State) (gid : Nat) (g : Group) (p : Split) (f : V3), Ready s gid g p → f.px = none → ¬g.HasV [f.vd.toNat, f.va.toNat, f.vb.toNat] →
    (∀ (x : Part), Outside s g x → ∃ t, exec (e.1 f) s = .next t ∧
      TrapEntered s t x gid g p 0x14 (tvalOf (e.1 f)) (g.activeMask p.mask .guard)) ∧
    (g.handler ≠ none → exec (e.1 f) s = .next (s.killGroup gid 0x14 true p.pc (tvalOf (e.1 f))))) ∧
  (∀ e ∈ elementOps, ∀ (s : State) (gid : Nat) (g : Group) (p : Split) (f : V3), Ready s gid g p → (pxRnd f.px ≠ 0 ∨ pxXw f.px ≠ 0) →
    (∀ (x : Part), Outside s g x → ∃ t, exec (e.1 f) s = .next t ∧ TrapEntered s t x gid g p 0x03 (tvalOf (e.1 f)) p.mask) ∧
    (g.handler ≠ none → exec (e.1 f) s = .next (s.killGroup gid 0x03 true p.pc (tvalOf (e.1 f))))) ∧
  (∀ e ∈ uniformOps, ∀ (s : State) (gid : Nat) (g : Group) (p : Split) (f : S3), Ready s gid g p → ¬g.HasS [f.sd.toNat, f.sa.toNat] →
    (∀ (x : Part), Outside s g x → ∃ t, exec (e.1 f) s = .next t ∧ TrapEntered s t x gid g p 0x14 (tvalOf (e.1 f)) p.mask) ∧
    (g.handler ≠ none → exec (e.1 f) s = .next (s.killGroup gid 0x14 true p.pc (tvalOf (e.1 f))))) ∧
  (∀ e ∈ sfuOps, ∀ (s : State) (gid : Nat) (g : Group) (p : Split) (f : Sfu), Ready s gid g p → ∀ (x : Part), Outside s g x → f.px = none → g.role ≠ .vector →
    ∃ t, exec (e.1 f) s = .next t ∧ TrapEntered s t x gid g p 0x15 (tvalOf (e.1 f)) (g.activeMask p.mask .guard)) ∧
  (∀ e ∈ roundedOps, ∀ (s : State) (gid : Nat) (g : Group) (p : Split) (f : V3) (l : Nat) (w : Nat → Word × FFlags), Ready s gid g p → ∀ (x : Part), Outside s g x → g.role = .vector →
    g.HasV ([f.vd.toNat, f.va.toNat, f.vb.toNat] ++ fourthV f.px 1) → g.HasS (fourthS f.px) → g.Rounds f.px →
    arithType (g.effType f.px) = true →
    w = (fun i => g.floatWord f.px false e.2.2 (g.randWord f.px i) (g.vreg f.va.toNat i) (g.vreg f.vb.toNat i) 0) →
    l < 64 → inMask (g.activeMask p.mask (aluMask f.px)) l = true → (w l).2 &&& BitVec.ofNat 7 g.mFpxe ≠ 0 →
    (∀ i < l, inMask (g.activeMask p.mask (aluMask f.px)) i = true → (w i).2 &&& BitVec.ofNat 7 g.mFpxe = 0) →
    ∃ t en, exec (e.1 f) s = .next t ∧
      TrapEntered s t x gid g p 0x11 (BitVec.ofNat 64 (en + 2 ^ 16 * l)) (g.activeMask p.mask (aluMask f.px)) ∧ en < 2 ^ 7 ∧
      ∀ b < 7, bit en b = true ↔ bit g.mFpxe b = true ∧
        ∃ i < 64, inMask (g.activeMask p.mask (aluMask f.px)) i = true ∧ (w i).2.getLsbD b = true) ∧
  (∀ e ∈ [(Instr.sldW, 1), (Instr.sldW2, 2), (Instr.sldW4, 4), (Instr.sldW8, 8)], ∀ (s : State) (gid : Nat) (g : Group) (p : Split) (f : Smem), Ready s gid g p → ∀ (x : Part), Outside s g x →
    g.ScopeOk f.px (strongAtt f.att) → NoMask f.px → g.HasS ([2 * f.k.toNat, 2 * f.k.toNat + 1] ++ upFrom f.sd.toNat e.2) →
    g.cnt.c0 < 255 →
    (∀ r c, checkAddr s (g.agent gid) (g.uniAddr f) (4 * e.2) (4 * e.2) .read = .bad r c → c ∉ [0x0F, 0x10, 0x17] →
      ∃ t, exec (e.1 f) s = .next t ∧ TrapEntered s t x gid g p c (BitVec.ofNat 64 (g.uniAddr f)) p.mask) ∧
    (∀ pl, checkAddr s (g.agent gid) (g.uniAddr f) (4 * e.2) (4 * e.2) .read = .ok pl →
      s.rangeConflict (g.agent gid) { lane := 0, addr := g.uniAddr f, size := 4 * e.2, align := 4 * e.2 } pl false = true →
      ∃ t, exec (e.1 f) s = .next t ∧ TrapEntered s t x gid g p 0x07 (BitVec.ofNat 64 (g.uniAddr f)) p.mask) ∧
    ∀ w, checkAddr s (g.agent gid) (g.uniAddr f) (4 * e.2) (4 * e.2) .read = .wait w →
      ∃ k, exec (e.1 f) s = .next (s.setGroup gid k) ∧ Waits k g p w (encode (e.1 f)) false s.clock) ∧
  (∀ (s : State) (x : Part) (ag : Agent) (a z : Nat) (acc : Acc) (w : Walk), s.part ag.part = some x → a < 2 ^ 57 → ag.priv = false →
    w = translate s x ag a →
    (a % z ≠ 0 → checkAddr s ag a z z acc = .bad rankAlign 0x09) ∧
    (a % z = 0 → w.fin = .invalid ∨ w.fin = .touch → checkAddr s ag a z z acc = .bad rankInvalid 0x0A) ∧
    (a % z = 0 → w.fin = .malformed → checkAddr s ag a z z acc = .bad rankMalformed 0x0B) ∧
    (a % z = 0 → w.fin = .busy → ∀ pa, w.entry = some pa → checkAddr s ag a z z acc = .wait (.entryBusy pa)) ∧
    (a % z = 0 → w.fin = .writing → ∀ l ls, w.lines = l :: ls → checkAddr s ag a z z acc = .wait (.lineBusy l)) ∧
    (a % z = 0 → w.fin = .outside → checkAddr s ag a z z acc = .bad rankOutside 0x18) ∧
    (a % z = 0 → w.fin = .leaf →
      (pteU w.pte = false ∨ (acc ≠ .read ∧ acc ≠ .fetch ∧ pteW w.pte = false) ∨ (acc = .fetch ∧ pteX w.pte = false)) →
      checkAddr s ag a z z acc = .bad rankPerm 0x0B) ∧
    (a % z = 0 → w.fin = .leaf → pteU w.pte = true → pteW w.pte = true → pteX w.pte = true →
      (x.owns (leafPa w a) = false → checkAddr s ag a z z acc = .bad rankOutside 0x18) ∧
      (x.owns (leafPa w a) = true →
        (pteKey w.pte = 0 → checkAddr s ag a z z acc = .ok (.phys (leafPa w a) (pteKind w.pte) none (w.source s ag a) w.lines)) ∧
        (pteKey w.pte ≠ 0 → tabGet x.keys (pteKey w.pte) = none → checkAddr s ag a z z acc = .bad rankOutside 0x18) ∧
        ∀ k, pteKey w.pte ≠ 0 → tabGet x.keys (pteKey w.pte) = some k →
          checkAddr s ag a z z acc = .ok (.phys (leafPa w a) (pteKind w.pte) (some k) (w.source s ag a) w.lines)))) ∧
  (∀ (s : State) (x : Part) (ag : Agent) (a z pa : Nat) (acc : Acc), s.part ag.part = some x → a < 2 ^ 57 → ag.priv = true → 2 ^ 56 ≤ a →
    pa = a % 2 ^ 52 →
    (a % 2 ^ 56 ≠ pa → checkAddr s ag a z z acc = .bad rankRegion 0x0B) ∧
    (a % 2 ^ 56 = pa → a % z ≠ 0 → checkAddr s ag a z z acc = .bad rankAlign 0x09) ∧
    (a % 2 ^ 56 = pa → a % z = 0 →
      (safeTier pa = true → checkAddr s ag a z z acc = .bad rankOutside 0x18) ∧
      (safeTier pa = false → holdsMemory s pa = false → checkAddr s ag a z z acc = .bad rankPerm 0x0B) ∧
      (safeTier pa = false → holdsMemory s pa = true →
        (x.owns pa = false → checkAddr s ag a z z acc = .bad rankOutside 0x18) ∧
        (x.owns pa = true → checkAddr s ag a z z acc = .ok (.phys pa 0 none { entry := none, level := 0, pte := 0, va := 0, rd := pa } []))))) ∧
  (∀ (s : State) (x : Part) (ag : Agent) (a : Nat) (core die : List TlbEntry), core = smapGet [] s.tlbs ag.core →
    die = smapGet [] s.dieTlbs (dieOf ag.core) →
    (ag.cached = false ∨ (∀ e ∈ core ++ die, e.part = ag.part → e.va ≠ pageVa e.level a) → translate s x ag a = walk s x a) ∧
    ∀ e, ag.cached = true → e.part = ag.part → e.va = pageVa e.level a →
      (e ∈ core ∧ (∀ q ∈ core, q.part = ag.part → q.va = pageVa q.level a → q = e) ∨
        (∀ q ∈ core, q.part = ag.part → q.va ≠ pageVa q.level a) ∧ e ∈ die ∧
        ∀ q ∈ die, q.part = ag.part → q.va = pageVa q.level a → q = e) →
      translate s x ag a = { fin := .leaf, entry := some e.entry, level := e.level, pte := e.pte, lines := e.lines }) ∧
  (∀ (s : State) (x : Part) (va base n : Nat) (w : Walk) (level pa e : Nat) (w1 : Walk), level = 3 - n → n < 4 →
    pa = base + 8 * walkIndex va level → e = s.memNat pa 8 →
    w1 = { fin := .invalid, entry := some pa, level := level, pte := e, lines := pa / 128 :: w.lines } →
    (x.ptroot.getLsbD 0 = false → (walk s x va).fin = .invalid) ∧
    (tableOk s x pa = false → walkFrom s x va (n + 1) base w = { w with fin := .outside }) ∧
    (tableOk s x pa = true → (s.dirEntry (pa / 128)).invals ≠ [] → walkFrom s x va (n + 1) base w = { w1 with fin := .writing }) ∧
    (tableOk s x pa = true → (s.dirEntry (pa / 128)).invals = [] →
      (pteV e = true → pteMalformed s level e = true → walkFrom s x va (n + 1) base w = { w1 with fin := .malformed }) ∧
      ((pteV e = false ∨ pteMalformed s level e = false) →
        (2 ≤ level → pteM e = true → walkFrom s x va (n + 1) base w = { w1 with fin := .busy }) ∧
        ((level < 2 ∨ pteM e = false) →
          (pteV e = false → walkFrom s x va (n + 1) base w = { w1 with fin := if level = 3 ∧ pteZ e = true then .touch else .invalid }) ∧
          (pteV e = true → pteKind e = 7 → walkFrom s x va (n + 1) base w = walkFrom s x va n (pteFrame e) w1) ∧
          (pteV e = true → pteKind e ≠ 7 → walkFrom s x va (n + 1) base w = { w1 with fin := .leaf })))))

/-- The machine after package reset (R377, R379, R380, R406, R413, R446). After package reset no partition, team, grid
or group exists; no unit is ready, HEALTH and RETIRED are 0, every island is at 0, no expander window is set, TIME is 0;
no copy, range lock, fabric request, stream or delivery exists; both memories are in canonical form and the state
satisfies the invariant that steps keep. Memory that nothing has written reads 0, which is the choice of log entry 1. -/
def Obligations.Reset : Prop :=
  State.reset.parts = [] ∧ State.reset.groups = [] ∧ State.reset.teams = [] ∧ State.reset.grids = [] ∧
  State.reset.cur = none ∧ State.reset.inbox = [] ∧ State.reset.pkg.readyC = 0 ∧ State.reset.pkg.readyS = 0 ∧
  State.reset.pkg.readyM = 0 ∧ State.reset.pkg.readyX = 0 ∧ State.reset.pkg.replace = false ∧
  State.reset.pkg.throt = false ∧ State.reset.pkg.ce = 0 ∧ State.reset.pkg.retired = 0 ∧
  State.reset.pkg.islands = [] ∧ State.reset.pkg.windows = [] ∧ State.reset.time = 0 ∧
  State.reset.copies = [] ∧ State.reset.locks = [] ∧ State.reset.fabric = [] ∧ State.reset.streams = [] ∧
  State.reset.frozen = [] ∧ State.reset.deliveries = [] ∧ State.reset.arrivals = [] ∧ State.reset.hands = [] ∧
  State.reset.dir = [] ∧ State.reset.pages = [] ∧ State.reset.poison = [] ∧ State.reset.spadPoison = [] ∧
  State.reset.tlbs = [] ∧ State.reset.dieTlbs = [] ∧ State.reset.hist = [] ∧ State.reset.foreign = [] ∧
  State.reset.hostWaits = [] ∧ State.reset.pkg.measured = [] ∧
  (∀ a, smapGet memDefault State.reset.mem a = 0 ∧ smapGet memDefault State.reset.spad a = 0) ∧ State.reset.Inv

/-- The registers of a partition at set-up, and its house program (R134, R377, R379, R380, R366, R173). A partition is
set up with the reset values of R379, R380 and R366 in its registers, its grants as its row of the table names them, no
key and no pool entry. Its house program is one vector-role group of width 8, privileged, in latency class, with no
team, with one split over its eight lanes at its text, and OVTAB at OVDEF. Its first MODE, its allocation, and that its grid,
team and group registers read 0, are the model's choice of log entry 4. -/
def Obligations.FreshPartition : Prop :=
  ∀ (r : PartRow) (part : Nat) (text : DWord), ∃ (x : Part) (g : Group), x = Part.fresh r ∧ g = houseGroup part x.ovdef text ∧
    x.live = true ∧ x.clust = r.clust ∧ x.region = r.region ∧ x.slots = r.slots ∧ x.eth = r.eth ∧ x.domain = r.domain ∧
    x.kitty = r.kitty ∧ x.tba = 0 ∧ x.ovdef = 0x155 ∧ x.safeEn = true ∧ x.safeLimit = 1024 ∧ x.sen = true ∧ x.ptroot = 0 ∧
    x.migEn = false ∧ x.migHalf = 20 ∧ x.migThresh = 0x40 ∧ x.fq = 0 ∧ x.rfq = 0 ∧ x.kq = 0 ∧ x.seatBase = 0 ∧ x.seatCap = 0 ∧
    x.saveArea = 0 ∧ x.saveSlot = 0 ∧ x.keystat = 0 ∧ x.keys = [] ∧ (∀ p < 8, x.ethTx[p]? = some 0 ∧ x.ethRx[p]? = some 0) ∧
    x.ckpt.go = false ∧ x.ckpt.quiesce = false ∧ x.ckpt.restore = false ∧ x.ckpt.stage = 0 ∧ x.pools = [] ∧ x.ranks = [] ∧
    g.part = part ∧ g.team = none ∧ g.role = .vector ∧ g.width = 8 ∧ g.latency = true ∧ g.ovtab = 0x155 ∧ g.text = text ∧
    (g.agent 0).priv = true ∧ g.handler = none ∧ g.exited = 0 ∧ g.flags = 0 ∧ g.sig = 0 ∧ g.scc = 0 ∧ g.hwdog = 0 ∧
    (∀ i < 128, ∀ l < 64, g.vreg i l = 0) ∧ g.gridId = 0 ∧ g.teamX = 0 ∧ g.teamY = 0 ∧ g.teamZ = 0 ∧ g.depth = 0 ∧ g.index = 0 ∧
    g.vAlloc = 128 ∧ g.sAlloc = 56 ∧ g.modeWord = 0x80063817 ∧
    ∃ q, g.splits = [q] ∧ q.mask = 0xFF ∧ q.pc = text ∧ q.st = .ready ∧ q.joins = [] ∧ q.held = none

/-- A step runs the instruction that the words at the PC decode to (R24, R33, R40, R58, R59, R81, R96, R98, R132, R353,
R360, R429). A step first ends the waits on counters and pots whose condition holds, and advances the clock, past no cycle by
which a sleeper must wake or a dirty copy must be sent, or not at all for a group that joins an issue. When a
group is chosen to issue, the step reads the word at the issuing split's PC, and
a second word where the first is a PREFIX or LIMM word, and is the execution of the instruction that the words decode
to, after the marks that a read of code makes; then the group that joins the issue is chosen, or none, and the machine's own
pending steps come before the next choice. A held instruction runs again from its own words. Words that are no instruction take
trap 0x01 or 0x03 with TVAL the words, a word that may not be fetched takes the cause of that check with its address,
whatever the first word of its pair lacks, and a fetch that must wait makes its split wait. With no group
chosen, a step is the one that is overdue, else the first step that the inbox lists, else a pending step of the machine's own that
changes the state, which none that stays enabled is passed over for, else the choice of a group. How far the clock moves, that
events come first, which pending step is taken, the words of a prefix pair in TVAL, the order of the traps of a pair and
that code is read from the one image are the model's choices of log entries 15, 9, 88, 47, 95 and 96. -/
def Obligations.StepRunsDecoded : Prop :=
  (∀ (s v : State), v = s.advance →
    v = { s with groups := v.groups, tick := s.tick + 1, joint := false, clock := v.clock } ∧
    (s.joint = true → v.clock = s.clock) ∧
    (s.joint = false → s.clock ≤ v.clock ∧ v.clock ≤ s.clock + 1 + Config.stepCycles s.tick ∧
      (∀ x ∈ v.sleepers ++ v.dirtyCopies, v.clock ≤ max s.clock x.2.2) ∧
      (v.clock < s.clock + 1 + Config.stepCycles s.tick → ∃ x ∈ v.sleepers ++ v.dirtyCopies, v.clock = max s.clock x.2.2)) ∧
    ∀ (id : Nat), (s.group id = none → v.group id = none) ∧
      ∀ (q : Group), s.group id = some q → ∃ k, v.group id = some k ∧
        k = { q with splits := k.splits, handler := k.handler } ∧ k.splits.length = q.splits.length ∧
        (∀ (i : Nat) (p r : Split), q.splits[i]? = some p → k.splits[i]? = some r → WaitEnded (s.condHolds q) p r) ∧
        (q.handler = none → k.handler = none) ∧
        ∀ h, q.handler = some h → ∃ r, k.handler = some { h with split := r } ∧ WaitEnded (s.condHolds q) h.split r) ∧
  (∀ (s v : State) (gid : Nat) (g : Group) (p : Split), v = s.advance → s.cur = some gid → v.group gid = some g → g.issuing = some p →
    (∀ (ws : List Nat) (u : State), (p.held.map (·.words) = some ws ∧ u = v ∨ p.held = none ∧ CodeAt v gid g p ws ∧ CodeMarked v u gid g p) →
      (∀ i t, decodeWords ws = .ok i → exec i u = .next t → step s = .next
        { t with cur := t.also.head?, also := t.also.tail, joint := decide (t.also ≠ []), turn := true }) ∧
      ∀ r t, decodeWords ws = .error r → t = u.takeTrap gid g p (if r = .undefinedEncoding then 0x01 else 0x03) (wordsTval ws) p.mask →
        step s = .next { t with cur := t.also.head?, also := t.also.tail, joint := decide (t.also ≠ []), turn := true }) ∧
    (p.held = none → ∀ (a : DWord), (a = p.pc ∨ a = codeStep (v.textBase g) p.pc 4 ∧
        ∃ w, WordAt v gid g p.pc w ∧ (isPrefixWord w = true ∨ isLimmWord w = true)) →
      (∀ c t, (bits a.toNat 60 4 ≠ 0 ∧ c = 0x0B ∨ bits a.toNat 60 4 = 0 ∧ ∃ rank, checkAddr v (g.agent gid) a.toNat 4 1 .fetch = .bad rank c) →
        t = v.takeTrap gid g p c a p.mask →
        step s = .next { t with cur := t.also.head?, also := t.also.tail, joint := decide (t.also ≠ []), turn := true }) ∧
      ∀ w, bits a.toNat 60 4 = 0 → checkAddr v (g.agent gid) a.toNat 4 1 .fetch = .wait w →
        ∃ k, step s = .next { v.setGroup gid k with
            cur := v.also.head?, also := v.also.tail, joint := decide (v.also ≠ []), turn := true } ∧ Stands k g p w v.clock)) ∧
  (∀ (s v : State), v = s.advance → s.cur = none →
    ((∃ x ∈ v.sleepers, x.2.2 ≤ v.clock) → ∃ x ∈ v.sleepers, x.2.2 ≤ v.clock ∧ step s = exec (.sleepExpire x.1 x.2.1) v) ∧
    ((∀ x ∈ v.sleepers, v.clock < x.2.2) → (∃ x ∈ v.dirtyCopies, x.2.2 ≤ v.clock) →
      ∃ x ∈ v.dirtyCopies, x.2.2 ≤ v.clock ∧ step s = exec (.l1DirtyFlush x.1 x.2.1) v) ∧
    ((∀ x ∈ v.sleepers ++ v.dirtyCopies, v.clock < x.2.2) →
      (∀ i r, s.inbox = i :: r → step s = exec i { v with inbox := r }) ∧
      (s.inbox = [] →
        (∀ i, s.turn = true → nextInternal v = some i → step s = exec i { v with turn := false, rota := v.rota + 1 }) ∧
        (s.turn = true → nextInternal v = none → step s = exec .issueSelect { v with rota := v.rota + 1 }) ∧
        (s.turn = false → step s = exec .issueSelect v)))) ∧
  (∀ (v : State),
    (∀ i, nextInternal v = some i → (i ∈ v.pending ∨ ∃ id t, v.team id = some t ∧ i = .teamAdmit id) ∧ exec i v ≠ .next v) ∧
    (v.rota % 16 = 15 → (∃ i ∈ v.pending, ∃ t, exec i v = .next t ∧ t ≠ v) → (∃ i, nextInternal v = some i)) ∧
    (v.rota % 16 = 15 → v.rota % 32 ≠ 31 → (∃ id t, v.team id = some t ∧ t.isQueued = true ∧ t.member = 0 ∧ ∃ u, exec (.teamAdmit id) v = .next u ∧ u ≠ v) →
      ∃ id, nextInternal v = some (.teamAdmit id)))

/-- Words written out from the encodings decode to their instructions (R26, R27, R28, R29, R30, R31, R32, R33, R34, R35,
R37, R57). One or more words of each class and sub-class, with their fields written out bit by bit, decode to the
instruction and operands that they stand for: words alone, a LIMM pair, and words under a prefix. Words of a reserved
sub-class or opcode, or with a reserved code in a field, are undefined encodings; a prefix with a stall count, before
another prefix, or before a word that takes none is refused by name. -/
def Obligations.DecodeWords : Prop :=
  decodeWords [0b00_0000000_0001111_0101010_1111011_11] = .ok (.iadd { px := none, vd := 15, va := 42, vb := 123, st := 3 }) ∧
  decodeWords [0b01_000001_1101001_0001010_00111001_11] = .ok (.isubVu { px := none, vd := 105, va := 10, src := .u 57, st := 3 }) ∧
  decodeWords [0b00_0010001_0001_001_1000101_0011011_11] = .ok (.icmp { px := none, cond := .ne, pd := 1, va := 69, vb := 27, st := 3 }) ∧
  decodeWords [0b01_100011_0001110_0110001_00000100_00] = .ok (.ffmaVu { px := none, vd := 14, va := 49, src := .u 4, st := 0 }) ∧
  decodeWords [0b00_0101010_0101_110_1101111_1001111_10] = .ok (.fcmp { px := none, cond := .ge, pd := 6, va := 111, vb := 79, st := 2 }) ∧
  decodeWords [0b00_1000000_1010010_1011000_1000100_11] = .ok (.twosum { px := none, vd := 82, va := 88, vb := 68, st := 3 }) ∧
  decodeWords [0b00_1001110_1110001_1011100_0000000_10] = .ok (.xsplit { px := none, vd := 113, va := 92, st := 2 }) ∧
  decodeWords [0b10_000000_001011_111100_0000100010_01] = .ok (.sadd { sd := 11, sa := 60, src := .r 34, st := 1 }) ∧
  decodeWords [0b10_001110_101011_000000_1110010001_00] = .ok (.smov { sd := 43, src := .imm 401, st := 0 }) ∧
  decodeWords [0b10_100011_0100101101000000111100_01] = .ok (.brlt { off := 1232956, st := 1 }) ∧
  decodeWords [0b10_100111_100_1100001011010011001_11] = .ok (.brpz { p := 4, off := 399001, st := 3 }) ∧
  decodeWords [0b10_101101_100101_0110001000111000_10] = .ok (.adr { sd := 37, off := 25144, st := 2 }) ∧
  decodeWords [0b10_110010_0101_000000000000001001_01] = .ok (.setmode { sel := 5, val := 9, st := 1 }) ∧
  decodeWords [0b11_0010_0100_1010000_1010000_1_010_10_11] = .ok (.ldW { px := none, vd := 80, off := 80, en := true, k := 2, att := 2, st := 3 }) ∧
  decodeWords [0b11_0011_0001_110000_1000_11000000_11_10] = .ok (.sldW2 { px := none, sd := 48, k := 8, woff := 192, att := 3, st := 2 }) ∧
  decodeWords [0b11_0100_00100_0001001_1000011_000_0_1_11] = .ok (.axor { px := none, vd := 9, off := 67, k := 0, ret := false, order := true, st := 3 }) ∧
  decodeWords [0b11_0101_00000_110_0100_1011_1010110_0_00] = .ok (.mma { px := none, acc := 6, ta := 4, tb := 11, vf := 86, st := 0 }) ∧
  decodeWords [0b11_0110_0001_101_00001011_111100_000_01] = .ok (.cpyt { px := none, cr := 5, mask := 11, sd := 60, st := 1 }) ∧
  decodeWords [0b11_0111_01000000000_000000_00_00000_00] = .ok (.xfer { px := none, cr := 0, stream := 0, st := 0 }) ∧
  decodeWords [0b11_1000_00001_011_11111111_0000000_1_00] = .ok (.wait { cnt := 3, n := 255, arm := true, st := 0 }) ∧
  decodeWords [0b11_1000_00010_011_1111010111101001_00] = .ok (.fork { p := 3, off := 62953, st := 0 }) ∧
  decodeWords [0b11_1000_01110_001_10100010_100011_11_00] = .ok (.rpush { ring := 1, mask := 162, sd := 35, st := 0 }) ∧
  decodeWords [0b11_1001_0001_0011010_0101101_0001_00_01] = .ok (.lred { px := none, vd := 26, va := 45, op := 1, seg := 0, st := 1 }) ∧
  decodeWords [0b11_1010_00001_0100110_0101110_00000_00] = .ok (.frsqrt { px := none, vd := 38, va := 46, st := 0 }) ∧
  decodeWords [0b11_1011_0000_0110111_0110001_1000_00_01] = .ok (.fcvt { px := none, vd := 55, va := 49, dty := 8, st := 1 }) ∧
  decodeWords [0b11_1100_00000_110101_000_0000100011_11] = .ok (.psrd { sd := 53, idx := 35, st := 3 }) ∧
  decodeWords [0b11_1100_01000_001110_111110_001000_0_00] = .ok (.keyld { sd := 14, sa := 62, sb := 8, st := 0 }) ∧
  decodeWords [0b11_0001_0_0000101_0000000000000000_10, 0x12345678] =
    .ok (.movi { dst := .v 5, lit := 0x12345678, st := 2 }) ∧
  decodeWords [0b11_0000_011_1_0_010_0111_01_1010101_000_00, 0b00_0100011_0000001_0000010_0000011_01] =
    .ok (.ffma { px := some { mask := 3, inv := true, zero := false, rnd := 2, ty := 7, kind4 := 1, op4 := 85, xw := 0 }, vd := 1, va := 2, vb := 3, st := 1 }) ∧
  decodeWords [0b11_0000_101_1111111111110000_010_1_0_00, 0b11_0010_0100_0000111_0000000_0_011_00_10] =
    .ok (.ldW { px := some { scope := 5, imm := 0xFFF0, mask := 2, inv := true }, vd := 7, off := 0, en := false, k := 3, att := 0, st := 2 }) ∧
  decodeWords [0b11_1101_00000000000000000000000000] = .error .undefinedEncoding ∧
  decodeWords [0b00_0011010_0000000_0000000_0000000_00] = .error .undefinedEncoding ∧
  decodeWords [0b11_0010_0100_0000111_0000001_0_011_00_10] = .error .undefinedEncoding ∧
  decodeWords [0b10_110010_1010_000000000000000000_00] = .error .undefinedEncoding ∧
  decodeWords [0b11_0000_000_0_0_000_0000_00_0000000_000_01, 0] = .error .prefixStall ∧
  decodeWords [0b11_0000_000_0_0_000_0000_00_0000000_000_00, 0b11_0000_000_0_0_000_0000_00_0000000_000_00] = .error .prefixPair ∧
  decodeWords [0b11_0000_000_0_0_000_0000_00_0000000_000_00, 0b10_000000_001011_111100_0000100010_01] = .error .prefixRefused ∧
  decodeWords [0b11_0000_000_0_0_111_0000_00_0000000_000_00, 0b00_0000000_0000001_0000010_0000011_01] = .error .undefinedEncoding

/-- Decoding an encoded instruction gives it back (R24, R26, R27, R28, R29, R30, R31, R32, R33, R35, R37, R38). For
every instruction that is well formed and has an encoding, decoding its words gives that instruction with every operand
and every prefix field. -/
def Obligations.RoundTrip : Prop :=
  ∀ i : Instr, i.WellFormed → encode i ≠ [] → decodeWords (encode i) = .ok i

/-- Every step of the machine goes on (R58, R59, R92, R132, R381, R394). In every state whose inbox lists events only, a
step answers a next state: every instruction completes, waits or takes its trap, a group is killed where its handler or
its words leave it no other way, and nothing of ordinary data stops the machine. -/
def Obligations.StepNeverStops : Prop :=
  ∀ s : State, s.eventsOnly → ∃ t, step s = .next t

/-- Every step keeps the canonical form of the memories (R1, R257, R132). In every state that satisfies the invariant, a
step leaves a state that satisfies it: the memories list rising addresses and no byte equal to what an unlisted one
reads as, and the inbox lists events only. So equal memories are equal data, and no step can stop the machine. -/
def Obligations.StepKeepsInvariant : Prop :=
  ∀ s t : State, s.Inv → step s = .next t → t.Inv
end

