-- ==== Sys2Proof/Laws/Sparse.lean ====
section
/-! SUPPORT. Laws of sparse data: what a read after a write gives, and that writes keep the canonical form. -/
namespace Sys2Proof.Machine

section
variable {α : Type}

@[simp] theorem smapGet_insert (d : α) (m : List (Nat × α)) (a b : Nat) (x : α) :
    smapGet d (smapInsert m a x) b = if b = a then x else smapGet d m b := by
  induction m with
  | nil => simp [smapInsert, smapGet]
  | cons e r ih =>
    obtain ⟨k, v⟩ := e
    simp only [smapInsert]
    split
    · simp [smapGet]
    · split
      · next h => subst h; simp only [smapGet]; split <;> rfl
      · simp only [smapGet, ih]
        split
        · next h => subst h; split
                    · next h2 => omega
                    · rfl
        · rfl

@[simp] theorem smapGet_erase (d : α) (m : List (Nat × α)) (a b : Nat) :
    smapGet d (smapErase m a) b = if b = a then d else smapGet d m b := by
  induction m with
  | nil => simp [smapErase, smapGet]
  | cons e r ih =>
    obtain ⟨k, v⟩ := e
    simp only [smapErase]
    split
    · next h => subst h; rw [ih]; split
                · rfl
                · next h2 => simp [smapGet, h2]
    · simp only [smapGet, ih]
      split
      · next h => subst h; split
                  · next h2 => omega
                  · rfl
      · rfl

/-- A read after a write gives the value written under the same key, and the old value under any other. -/
@[simp] theorem smapGet_put [DecidableEq α] (d : α) (m : List (Nat × α)) (a b : Nat) (x : α) :
    smapGet d (smapPut d m a x) b = if b = a then x else smapGet d m b := by
  unfold smapPut
  split
  · next h => subst h; simp
  · simp

@[simp] theorem tabGet_insert (m : List (Nat × α)) (a b : Nat) (x : α) :
    tabGet (smapInsert m a x) b = if b = a then some x else tabGet m b := by
  induction m with
  | nil => simp [smapInsert, tabGet]
  | cons e r ih =>
    obtain ⟨k, v⟩ := e
    simp only [smapInsert]
    split
    · simp [tabGet]
    · split
      · next h => subst h; simp only [tabGet]; split <;> rfl
      · simp only [tabGet, ih]
        split
        · next h => subst h; split
                    · next h2 => omega
                    · rfl
        · rfl

@[simp] theorem tabGet_erase (m : List (Nat × α)) (a b : Nat) :
    tabGet (smapErase m a) b = if b = a then none else tabGet m b := by
  induction m with
  | nil => simp [smapErase, tabGet]
  | cons e r ih =>
    obtain ⟨k, v⟩ := e
    simp only [smapErase]
    split
    · next h => subst h; rw [ih]; split
                · rfl
                · next h2 => simp [tabGet, h2]
    · simp only [tabGet, ih]
      split
      · next h => subst h; split
                  · next h2 => omega
                  · rfl
      · rfl

/-- The later of two entries under one key is the one that stays. -/
@[simp] theorem smapInsert_insert (m : List (Nat × α)) (a : Nat) (x y : α) :
    smapInsert (smapInsert m a x) a y = smapInsert m a y := by
  induction m with
  | nil => simp [smapInsert]
  | cons e r ih =>
    obtain ⟨k, v⟩ := e
    by_cases h1 : a < k
    · simp [smapInsert, h1]
    · by_cases h2 : a = k
      · subst h2; simp [smapInsert]
      · simp [smapInsert, h1, h2, ih]

theorem keysRise_cons (e : Nat × α) (m : List (Nat × α)) :
    keysRise (e :: m) = true ↔ (∀ x ∈ m, e.1 < x.1) ∧ keysRise m = true := by
  induction m generalizing e with
  | nil => simp [keysRise]
  | cons f r ih =>
    obtain ⟨k, v⟩ := e
    obtain ⟨j, w⟩ := f
    simp only [keysRise, Bool.and_eq_true, decide_eq_true_eq]
    constructor
    · rintro ⟨h1, h2⟩
      refine ⟨?_, h2⟩
      intro x hx
      simp only [List.mem_cons] at hx
      rcases hx with rfl | hx
      · exact h1
      · exact Nat.lt_trans h1 (((ih (j, w)).1 h2).1 x hx)
    · rintro ⟨h1, h2⟩
      exact ⟨h1 (j, w) (by simp), h2⟩

theorem mem_smapInsert {m : List (Nat × α)} {a : Nat} {x : α} {e : Nat × α} (h : e ∈ smapInsert m a x) :
    e = (a, x) ∨ e ∈ m := by
  induction m with
  | nil => simpa [smapInsert] using h
  | cons f r ih =>
    obtain ⟨k, v⟩ := f
    simp only [smapInsert] at h
    split at h
    · simpa using h
    · split at h
      · simp only [List.mem_cons] at h ⊢; tauto
      · simp only [List.mem_cons] at h ⊢
        rcases h with h | h
        · tauto
        · rcases ih h with h | h <;> tauto

theorem keysRise_insert (m : List (Nat × α)) (a : Nat) (x : α) (h : keysRise m = true) :
    keysRise (smapInsert m a x) = true := by
  induction m with
  | nil => rfl
  | cons f r ih =>
    obtain ⟨k, v⟩ := f
    have hc := (keysRise_cons _ _).1 h
    simp only [smapInsert]
    split
    · next h1 =>
      refine (keysRise_cons _ _).2 ⟨?_, h⟩
      intro y hy
      simp only [List.mem_cons] at hy
      rcases hy with rfl | hy
      · exact h1
      · exact Nat.lt_trans h1 (hc.1 y hy)
    · split
      · next h2 =>
        subst h2
        exact (keysRise_cons _ _).2 hc
      · next h1 h2 =>
        refine (keysRise_cons _ _).2 ⟨?_, ih hc.2⟩
        intro y hy
        rcases mem_smapInsert hy with rfl | hy
        · show k < a; omega
        · exact hc.1 y hy

theorem mem_smapErase {m : List (Nat × α)} {a : Nat} {e : Nat × α} (h : e ∈ smapErase m a) : e ∈ m := by
  induction m with
  | nil => simp [smapErase] at h
  | cons f r ih =>
    obtain ⟨k, v⟩ := f
    simp only [smapErase] at h
    split at h
    · exact List.mem_cons_of_mem _ (ih h)
    · simp only [List.mem_cons] at h ⊢
      rcases h with h | h
      · exact Or.inl h
      · exact Or.inr (ih h)

theorem keysRise_erase (m : List (Nat × α)) (a : Nat) (h : keysRise m = true) : keysRise (smapErase m a) = true := by
  induction m with
  | nil => rfl
  | cons f r ih =>
    obtain ⟨k, v⟩ := f
    have hc := (keysRise_cons _ _).1 h
    simp only [smapErase]
    split
    · exact ih hc.2
    · exact (keysRise_cons _ _).2 ⟨fun y hy => hc.1 y (mem_smapErase hy), ih hc.2⟩

theorem keysRise_filter (m : List (Nat × α)) (f : Nat × α → Bool) (h : keysRise m = true) :
    keysRise (m.filter f) = true := by
  induction m with
  | nil => rfl
  | cons e r ih =>
    have hc := (keysRise_cons _ _).1 h
    by_cases hf : f e = true
    · rw [List.filter_cons_of_pos hf]
      exact (keysRise_cons _ _).2 ⟨fun y hy => hc.1 y (List.mem_filter.1 hy).1, ih hc.2⟩
    · rw [List.filter_cons_of_neg hf]
      exact ih hc.2

/-- A write keeps sparse data in its canonical form. -/
theorem smapWf_put [DecidableEq α] (d : α) (m : List (Nat × α)) (a : Nat) (x : α) (h : smapWf d m = true) :
    smapWf d (smapPut d m a x) = true := by
  simp only [smapWf, Bool.and_eq_true, List.all_eq_true, decide_eq_true_eq] at h ⊢
  unfold smapPut
  split
  · exact ⟨keysRise_erase m a h.1, fun e he => h.2 e (mem_smapErase he)⟩
  · next hx =>
    refine ⟨keysRise_insert m a x h.1, fun e he => ?_⟩
    rcases mem_smapInsert he with rfl | he
    · exact hx
    · exact h.2 e he

/-- Dropping entries keeps sparse data in its canonical form. -/
theorem smapWf_filter [DecidableEq α] (d : α) (m : List (Nat × α)) (f : Nat × α → Bool) (h : smapWf d m = true) :
    smapWf d (m.filter f) = true := by
  simp only [smapWf, Bool.and_eq_true, List.all_eq_true, decide_eq_true_eq] at h ⊢
  exact ⟨keysRise_filter m f h.1, fun e he => h.2 e (List.mem_filter.1 he).1⟩

end

end Sys2Proof.Machine
end

