-- ==== Sys2Proof/Laws/State.lean ====
section
/-! SUPPORT. What each update of the state leaves in each field, so that no proof unfolds a record update. -/
namespace Sys2Proof.Machine

@[simp] theorem State.setGroup_tick (s : State) (gid : Nat) (g : Group) : (s.setGroup gid g).tick = s.tick := rfl
@[simp] theorem State.setGroup_clock (s : State) (gid : Nat) (g : Group) : (s.setGroup gid g).clock = s.clock := rfl
@[simp] theorem State.setGroup_serial (s : State) (gid : Nat) (g : Group) : (s.setGroup gid g).serial = s.serial := rfl
@[simp] theorem State.setGroup_cur (s : State) (gid : Nat) (g : Group) : (s.setGroup gid g).cur = s.cur := rfl
@[simp] theorem State.setGroup_also (s : State) (gid : Nat) (g : Group) : (s.setGroup gid g).also = s.also := rfl
@[simp] theorem State.setGroup_joint (s : State) (gid : Nat) (g : Group) : (s.setGroup gid g).joint = s.joint := rfl
@[simp] theorem State.setGroup_turn (s : State) (gid : Nat) (g : Group) : (s.setGroup gid g).turn = s.turn := rfl
@[simp] theorem State.setGroup_rota (s : State) (gid : Nat) (g : Group) : (s.setGroup gid g).rota = s.rota := rfl
@[simp] theorem State.setGroup_inbox (s : State) (gid : Nat) (g : Group) : (s.setGroup gid g).inbox = s.inbox := rfl
@[simp] theorem State.setGroup_pkg (s : State) (gid : Nat) (g : Group) : (s.setGroup gid g).pkg = s.pkg := rfl
@[simp] theorem State.setGroup_parts (s : State) (gid : Nat) (g : Group) : (s.setGroup gid g).parts = s.parts := rfl
@[simp] theorem State.setGroup_groups (s : State) (gid : Nat) (g : Group) : (s.setGroup gid g).groups = smapInsert s.groups gid g := rfl
@[simp] theorem State.setGroup_teams (s : State) (gid : Nat) (g : Group) : (s.setGroup gid g).teams = s.teams := rfl
@[simp] theorem State.setGroup_grids (s : State) (gid : Nat) (g : Group) : (s.setGroup gid g).grids = s.grids := rfl
@[simp] theorem State.setGroup_hands (s : State) (gid : Nat) (g : Group) : (s.setGroup gid g).hands = s.hands := rfl
@[simp] theorem State.setGroup_latencyRuns (s : State) (gid : Nat) (g : Group) : (s.setGroup gid g).latencyRuns = s.latencyRuns := rfl
@[simp] theorem State.setGroup_mem (s : State) (gid : Nat) (g : Group) : (s.setGroup gid g).mem = s.mem := rfl
@[simp] theorem State.setGroup_spad (s : State) (gid : Nat) (g : Group) : (s.setGroup gid g).spad = s.spad := rfl
@[simp] theorem State.setGroup_poison (s : State) (gid : Nat) (g : Group) : (s.setGroup gid g).poison = s.poison := rfl
@[simp] theorem State.setGroup_spadPoison (s : State) (gid : Nat) (g : Group) : (s.setGroup gid g).spadPoison = s.spadPoison := rfl
@[simp] theorem State.setGroup_dir (s : State) (gid : Nat) (g : Group) : (s.setGroup gid g).dir = s.dir := rfl
@[simp] theorem State.setGroup_tlbs (s : State) (gid : Nat) (g : Group) : (s.setGroup gid g).tlbs = s.tlbs := rfl
@[simp] theorem State.setGroup_dieTlbs (s : State) (gid : Nat) (g : Group) : (s.setGroup gid g).dieTlbs = s.dieTlbs := rfl
@[simp] theorem State.setGroup_hist (s : State) (gid : Nat) (g : Group) : (s.setGroup gid g).hist = s.hist := rfl
@[simp] theorem State.setGroup_pages (s : State) (gid : Nat) (g : Group) : (s.setGroup gid g).pages = s.pages := rfl
@[simp] theorem State.setGroup_copies (s : State) (gid : Nat) (g : Group) : (s.setGroup gid g).copies = s.copies := rfl
@[simp] theorem State.setGroup_locks (s : State) (gid : Nat) (g : Group) : (s.setGroup gid g).locks = s.locks := rfl
@[simp] theorem State.setGroup_fabric (s : State) (gid : Nat) (g : Group) : (s.setGroup gid g).fabric = s.fabric := rfl
@[simp] theorem State.setGroup_streams (s : State) (gid : Nat) (g : Group) : (s.setGroup gid g).streams = s.streams := rfl
@[simp] theorem State.setGroup_frozen (s : State) (gid : Nat) (g : Group) : (s.setGroup gid g).frozen = s.frozen := rfl
@[simp] theorem State.setGroup_foreign (s : State) (gid : Nat) (g : Group) : (s.setGroup gid g).foreign = s.foreign := rfl
@[simp] theorem State.setGroup_deliveries (s : State) (gid : Nat) (g : Group) : (s.setGroup gid g).deliveries = s.deliveries := rfl
@[simp] theorem State.setGroup_arrivals (s : State) (gid : Nat) (g : Group) : (s.setGroup gid g).arrivals = s.arrivals := rfl
@[simp] theorem State.setGroup_sent (s : State) (gid : Nat) (g : Group) : (s.setGroup gid g).sent = s.sent := rfl
@[simp] theorem State.setGroup_hostWaits (s : State) (gid : Nat) (g : Group) : (s.setGroup gid g).hostWaits = s.hostWaits := rfl
@[simp] theorem State.setGroup_nextId (s : State) (gid : Nat) (g : Group) : (s.setGroup gid g).nextId = s.nextId := rfl

@[simp] theorem State.setPart_tick (s : State) (p : Nat) (x : Part) : (s.setPart p x).tick = s.tick := rfl
@[simp] theorem State.setPart_clock (s : State) (p : Nat) (x : Part) : (s.setPart p x).clock = s.clock := rfl
@[simp] theorem State.setPart_serial (s : State) (p : Nat) (x : Part) : (s.setPart p x).serial = s.serial := rfl
@[simp] theorem State.setPart_cur (s : State) (p : Nat) (x : Part) : (s.setPart p x).cur = s.cur := rfl
@[simp] theorem State.setPart_also (s : State) (p : Nat) (x : Part) : (s.setPart p x).also = s.also := rfl
@[simp] theorem State.setPart_joint (s : State) (p : Nat) (x : Part) : (s.setPart p x).joint = s.joint := rfl
@[simp] theorem State.setPart_turn (s : State) (p : Nat) (x : Part) : (s.setPart p x).turn = s.turn := rfl
@[simp] theorem State.setPart_rota (s : State) (p : Nat) (x : Part) : (s.setPart p x).rota = s.rota := rfl
@[simp] theorem State.setPart_inbox (s : State) (p : Nat) (x : Part) : (s.setPart p x).inbox = s.inbox := rfl
@[simp] theorem State.setPart_pkg (s : State) (p : Nat) (x : Part) : (s.setPart p x).pkg = s.pkg := rfl
@[simp] theorem State.setPart_parts (s : State) (p : Nat) (x : Part) : (s.setPart p x).parts = smapInsert s.parts p x := rfl
@[simp] theorem State.setPart_groups (s : State) (p : Nat) (x : Part) : (s.setPart p x).groups = s.groups := rfl
@[simp] theorem State.setPart_teams (s : State) (p : Nat) (x : Part) : (s.setPart p x).teams = s.teams := rfl
@[simp] theorem State.setPart_grids (s : State) (p : Nat) (x : Part) : (s.setPart p x).grids = s.grids := rfl
@[simp] theorem State.setPart_hands (s : State) (p : Nat) (x : Part) : (s.setPart p x).hands = s.hands := rfl
@[simp] theorem State.setPart_latencyRuns (s : State) (p : Nat) (x : Part) : (s.setPart p x).latencyRuns = s.latencyRuns := rfl
@[simp] theorem State.setPart_mem (s : State) (p : Nat) (x : Part) : (s.setPart p x).mem = s.mem := rfl
@[simp] theorem State.setPart_spad (s : State) (p : Nat) (x : Part) : (s.setPart p x).spad = s.spad := rfl
@[simp] theorem State.setPart_poison (s : State) (p : Nat) (x : Part) : (s.setPart p x).poison = s.poison := rfl
@[simp] theorem State.setPart_spadPoison (s : State) (p : Nat) (x : Part) : (s.setPart p x).spadPoison = s.spadPoison := rfl
@[simp] theorem State.setPart_dir (s : State) (p : Nat) (x : Part) : (s.setPart p x).dir = s.dir := rfl
@[simp] theorem State.setPart_tlbs (s : State) (p : Nat) (x : Part) : (s.setPart p x).tlbs = s.tlbs := rfl
@[simp] theorem State.setPart_dieTlbs (s : State) (p : Nat) (x : Part) : (s.setPart p x).dieTlbs = s.dieTlbs := rfl
@[simp] theorem State.setPart_hist (s : State) (p : Nat) (x : Part) : (s.setPart p x).hist = s.hist := rfl
@[simp] theorem State.setPart_pages (s : State) (p : Nat) (x : Part) : (s.setPart p x).pages = s.pages := rfl
@[simp] theorem State.setPart_copies (s : State) (p : Nat) (x : Part) : (s.setPart p x).copies = s.copies := rfl
@[simp] theorem State.setPart_locks (s : State) (p : Nat) (x : Part) : (s.setPart p x).locks = s.locks := rfl
@[simp] theorem State.setPart_fabric (s : State) (p : Nat) (x : Part) : (s.setPart p x).fabric = s.fabric := rfl
@[simp] theorem State.setPart_streams (s : State) (p : Nat) (x : Part) : (s.setPart p x).streams = s.streams := rfl
@[simp] theorem State.setPart_frozen (s : State) (p : Nat) (x : Part) : (s.setPart p x).frozen = s.frozen := rfl
@[simp] theorem State.setPart_foreign (s : State) (p : Nat) (x : Part) : (s.setPart p x).foreign = s.foreign := rfl
@[simp] theorem State.setPart_deliveries (s : State) (p : Nat) (x : Part) : (s.setPart p x).deliveries = s.deliveries := rfl
@[simp] theorem State.setPart_arrivals (s : State) (p : Nat) (x : Part) : (s.setPart p x).arrivals = s.arrivals := rfl
@[simp] theorem State.setPart_sent (s : State) (p : Nat) (x : Part) : (s.setPart p x).sent = s.sent := rfl
@[simp] theorem State.setPart_hostWaits (s : State) (p : Nat) (x : Part) : (s.setPart p x).hostWaits = s.hostWaits := rfl
@[simp] theorem State.setPart_nextId (s : State) (p : Nat) (x : Part) : (s.setPart p x).nextId = s.nextId := rfl

@[simp] theorem State.setTeam_tick (s : State) (t : Nat) (x : Team) : (s.setTeam t x).tick = s.tick := rfl
@[simp] theorem State.setTeam_clock (s : State) (t : Nat) (x : Team) : (s.setTeam t x).clock = s.clock := rfl
@[simp] theorem State.setTeam_serial (s : State) (t : Nat) (x : Team) : (s.setTeam t x).serial = s.serial := rfl
@[simp] theorem State.setTeam_cur (s : State) (t : Nat) (x : Team) : (s.setTeam t x).cur = s.cur := rfl
@[simp] theorem State.setTeam_also (s : State) (t : Nat) (x : Team) : (s.setTeam t x).also = s.also := rfl
@[simp] theorem State.setTeam_joint (s : State) (t : Nat) (x : Team) : (s.setTeam t x).joint = s.joint := rfl
@[simp] theorem State.setTeam_turn (s : State) (t : Nat) (x : Team) : (s.setTeam t x).turn = s.turn := rfl
@[simp] theorem State.setTeam_rota (s : State) (t : Nat) (x : Team) : (s.setTeam t x).rota = s.rota := rfl
@[simp] theorem State.setTeam_inbox (s : State) (t : Nat) (x : Team) : (s.setTeam t x).inbox = s.inbox := rfl
@[simp] theorem State.setTeam_pkg (s : State) (t : Nat) (x : Team) : (s.setTeam t x).pkg = s.pkg := rfl
@[simp] theorem State.setTeam_parts (s : State) (t : Nat) (x : Team) : (s.setTeam t x).parts = s.parts := rfl
@[simp] theorem State.setTeam_groups (s : State) (t : Nat) (x : Team) : (s.setTeam t x).groups = s.groups := rfl
@[simp] theorem State.setTeam_teams (s : State) (t : Nat) (x : Team) : (s.setTeam t x).teams = smapInsert s.teams t x := rfl
@[simp] theorem State.setTeam_grids (s : State) (t : Nat) (x : Team) : (s.setTeam t x).grids = s.grids := rfl
@[simp] theorem State.setTeam_hands (s : State) (t : Nat) (x : Team) : (s.setTeam t x).hands = s.hands := rfl
@[simp] theorem State.setTeam_latencyRuns (s : State) (t : Nat) (x : Team) : (s.setTeam t x).latencyRuns = s.latencyRuns := rfl
@[simp] theorem State.setTeam_mem (s : State) (t : Nat) (x : Team) : (s.setTeam t x).mem = s.mem := rfl
@[simp] theorem State.setTeam_spad (s : State) (t : Nat) (x : Team) : (s.setTeam t x).spad = s.spad := rfl
@[simp] theorem State.setTeam_poison (s : State) (t : Nat) (x : Team) : (s.setTeam t x).poison = s.poison := rfl
@[simp] theorem State.setTeam_spadPoison (s : State) (t : Nat) (x : Team) : (s.setTeam t x).spadPoison = s.spadPoison := rfl
@[simp] theorem State.setTeam_dir (s : State) (t : Nat) (x : Team) : (s.setTeam t x).dir = s.dir := rfl
@[simp] theorem State.setTeam_tlbs (s : State) (t : Nat) (x : Team) : (s.setTeam t x).tlbs = s.tlbs := rfl
@[simp] theorem State.setTeam_dieTlbs (s : State) (t : Nat) (x : Team) : (s.setTeam t x).dieTlbs = s.dieTlbs := rfl
@[simp] theorem State.setTeam_hist (s : State) (t : Nat) (x : Team) : (s.setTeam t x).hist = s.hist := rfl
@[simp] theorem State.setTeam_pages (s : State) (t : Nat) (x : Team) : (s.setTeam t x).pages = s.pages := rfl
@[simp] theorem State.setTeam_copies (s : State) (t : Nat) (x : Team) : (s.setTeam t x).copies = s.copies := rfl
@[simp] theorem State.setTeam_locks (s : State) (t : Nat) (x : Team) : (s.setTeam t x).locks = s.locks := rfl
@[simp] theorem State.setTeam_fabric (s : State) (t : Nat) (x : Team) : (s.setTeam t x).fabric = s.fabric := rfl
@[simp] theorem State.setTeam_streams (s : State) (t : Nat) (x : Team) : (s.setTeam t x).streams = s.streams := rfl
@[simp] theorem State.setTeam_frozen (s : State) (t : Nat) (x : Team) : (s.setTeam t x).frozen = s.frozen := rfl
@[simp] theorem State.setTeam_foreign (s : State) (t : Nat) (x : Team) : (s.setTeam t x).foreign = s.foreign := rfl
@[simp] theorem State.setTeam_deliveries (s : State) (t : Nat) (x : Team) : (s.setTeam t x).deliveries = s.deliveries := rfl
@[simp] theorem State.setTeam_arrivals (s : State) (t : Nat) (x : Team) : (s.setTeam t x).arrivals = s.arrivals := rfl
@[simp] theorem State.setTeam_sent (s : State) (t : Nat) (x : Team) : (s.setTeam t x).sent = s.sent := rfl
@[simp] theorem State.setTeam_hostWaits (s : State) (t : Nat) (x : Team) : (s.setTeam t x).hostWaits = s.hostWaits := rfl
@[simp] theorem State.setTeam_nextId (s : State) (t : Nat) (x : Team) : (s.setTeam t x).nextId = s.nextId := rfl

@[simp] theorem State.fresh_tick (s : State) : (s.fresh).tick = s.tick := rfl
@[simp] theorem State.fresh_clock (s : State) : (s.fresh).clock = s.clock := rfl
@[simp] theorem State.fresh_serial (s : State) : (s.fresh).serial = s.serial + 1 := rfl
@[simp] theorem State.fresh_cur (s : State) : (s.fresh).cur = s.cur := rfl
@[simp] theorem State.fresh_also (s : State) : (s.fresh).also = s.also := rfl
@[simp] theorem State.fresh_joint (s : State) : (s.fresh).joint = s.joint := rfl
@[simp] theorem State.fresh_turn (s : State) : (s.fresh).turn = s.turn := rfl
@[simp] theorem State.fresh_rota (s : State) : (s.fresh).rota = s.rota := rfl
@[simp] theorem State.fresh_inbox (s : State) : (s.fresh).inbox = s.inbox := rfl
@[simp] theorem State.fresh_pkg (s : State) : (s.fresh).pkg = s.pkg := rfl
@[simp] theorem State.fresh_parts (s : State) : (s.fresh).parts = s.parts := rfl
@[simp] theorem State.fresh_groups (s : State) : (s.fresh).groups = s.groups := rfl
@[simp] theorem State.fresh_teams (s : State) : (s.fresh).teams = s.teams := rfl
@[simp] theorem State.fresh_grids (s : State) : (s.fresh).grids = s.grids := rfl
@[simp] theorem State.fresh_hands (s : State) : (s.fresh).hands = s.hands := rfl
@[simp] theorem State.fresh_latencyRuns (s : State) : (s.fresh).latencyRuns = s.latencyRuns := rfl
@[simp] theorem State.fresh_mem (s : State) : (s.fresh).mem = s.mem := rfl
@[simp] theorem State.fresh_spad (s : State) : (s.fresh).spad = s.spad := rfl
@[simp] theorem State.fresh_poison (s : State) : (s.fresh).poison = s.poison := rfl
@[simp] theorem State.fresh_spadPoison (s : State) : (s.fresh).spadPoison = s.spadPoison := rfl
@[simp] theorem State.fresh_dir (s : State) : (s.fresh).dir = s.dir := rfl
@[simp] theorem State.fresh_tlbs (s : State) : (s.fresh).tlbs = s.tlbs := rfl
@[simp] theorem State.fresh_dieTlbs (s : State) : (s.fresh).dieTlbs = s.dieTlbs := rfl
@[simp] theorem State.fresh_hist (s : State) : (s.fresh).hist = s.hist := rfl
@[simp] theorem State.fresh_pages (s : State) : (s.fresh).pages = s.pages := rfl
@[simp] theorem State.fresh_copies (s : State) : (s.fresh).copies = s.copies := rfl
@[simp] theorem State.fresh_locks (s : State) : (s.fresh).locks = s.locks := rfl
@[simp] theorem State.fresh_fabric (s : State) : (s.fresh).fabric = s.fabric := rfl
@[simp] theorem State.fresh_streams (s : State) : (s.fresh).streams = s.streams := rfl
@[simp] theorem State.fresh_frozen (s : State) : (s.fresh).frozen = s.frozen := rfl
@[simp] theorem State.fresh_foreign (s : State) : (s.fresh).foreign = s.foreign := rfl
@[simp] theorem State.fresh_deliveries (s : State) : (s.fresh).deliveries = s.deliveries := rfl
@[simp] theorem State.fresh_arrivals (s : State) : (s.fresh).arrivals = s.arrivals := rfl
@[simp] theorem State.fresh_sent (s : State) : (s.fresh).sent = s.sent := rfl
@[simp] theorem State.fresh_hostWaits (s : State) : (s.fresh).hostWaits = s.hostWaits := rfl
@[simp] theorem State.fresh_nextId (s : State) : (s.fresh).nextId = s.nextId := rfl

@[simp] theorem State.setByte_tick (s : State) (pa : Nat) (b : Byte) : (s.setByte pa b).tick = s.tick := rfl
@[simp] theorem State.setByte_clock (s : State) (pa : Nat) (b : Byte) : (s.setByte pa b).clock = s.clock := rfl
@[simp] theorem State.setByte_serial (s : State) (pa : Nat) (b : Byte) : (s.setByte pa b).serial = s.serial := rfl
@[simp] theorem State.setByte_cur (s : State) (pa : Nat) (b : Byte) : (s.setByte pa b).cur = s.cur := rfl
@[simp] theorem State.setByte_also (s : State) (pa : Nat) (b : Byte) : (s.setByte pa b).also = s.also := rfl
@[simp] theorem State.setByte_joint (s : State) (pa : Nat) (b : Byte) : (s.setByte pa b).joint = s.joint := rfl
@[simp] theorem State.setByte_turn (s : State) (pa : Nat) (b : Byte) : (s.setByte pa b).turn = s.turn := rfl
@[simp] theorem State.setByte_rota (s : State) (pa : Nat) (b : Byte) : (s.setByte pa b).rota = s.rota := rfl
@[simp] theorem State.setByte_inbox (s : State) (pa : Nat) (b : Byte) : (s.setByte pa b).inbox = s.inbox := rfl
@[simp] theorem State.setByte_pkg (s : State) (pa : Nat) (b : Byte) : (s.setByte pa b).pkg = s.pkg := rfl
@[simp] theorem State.setByte_parts (s : State) (pa : Nat) (b : Byte) : (s.setByte pa b).parts = s.parts := rfl
@[simp] theorem State.setByte_groups (s : State) (pa : Nat) (b : Byte) : (s.setByte pa b).groups = s.groups := rfl
@[simp] theorem State.setByte_teams (s : State) (pa : Nat) (b : Byte) : (s.setByte pa b).teams = s.teams := rfl
@[simp] theorem State.setByte_grids (s : State) (pa : Nat) (b : Byte) : (s.setByte pa b).grids = s.grids := rfl
@[simp] theorem State.setByte_hands (s : State) (pa : Nat) (b : Byte) : (s.setByte pa b).hands = s.hands := rfl
@[simp] theorem State.setByte_latencyRuns (s : State) (pa : Nat) (b : Byte) : (s.setByte pa b).latencyRuns = s.latencyRuns := rfl
@[simp] theorem State.setByte_mem (s : State) (pa : Nat) (b : Byte) : (s.setByte pa b).mem = smapPut memDefault s.mem pa b := rfl
@[simp] theorem State.setByte_spad (s : State) (pa : Nat) (b : Byte) : (s.setByte pa b).spad = s.spad := rfl
@[simp] theorem State.setByte_poison (s : State) (pa : Nat) (b : Byte) : (s.setByte pa b).poison = s.clearPoison pa := rfl
@[simp] theorem State.setByte_spadPoison (s : State) (pa : Nat) (b : Byte) : (s.setByte pa b).spadPoison = s.spadPoison := rfl
@[simp] theorem State.setByte_dir (s : State) (pa : Nat) (b : Byte) : (s.setByte pa b).dir = s.dir := rfl
@[simp] theorem State.setByte_tlbs (s : State) (pa : Nat) (b : Byte) : (s.setByte pa b).tlbs = s.tlbs := rfl
@[simp] theorem State.setByte_dieTlbs (s : State) (pa : Nat) (b : Byte) : (s.setByte pa b).dieTlbs = s.dieTlbs := rfl
@[simp] theorem State.setByte_hist (s : State) (pa : Nat) (b : Byte) : (s.setByte pa b).hist = s.hist := rfl
@[simp] theorem State.setByte_pages (s : State) (pa : Nat) (b : Byte) : (s.setByte pa b).pages = s.pages := rfl
@[simp] theorem State.setByte_copies (s : State) (pa : Nat) (b : Byte) : (s.setByte pa b).copies = s.copies := rfl
@[simp] theorem State.setByte_locks (s : State) (pa : Nat) (b : Byte) : (s.setByte pa b).locks = s.locks := rfl
@[simp] theorem State.setByte_fabric (s : State) (pa : Nat) (b : Byte) : (s.setByte pa b).fabric = s.fabric := rfl
@[simp] theorem State.setByte_streams (s : State) (pa : Nat) (b : Byte) : (s.setByte pa b).streams = s.streams := rfl
@[simp] theorem State.setByte_frozen (s : State) (pa : Nat) (b : Byte) : (s.setByte pa b).frozen = s.frozen := rfl
@[simp] theorem State.setByte_foreign (s : State) (pa : Nat) (b : Byte) : (s.setByte pa b).foreign = s.foreign := rfl
@[simp] theorem State.setByte_deliveries (s : State) (pa : Nat) (b : Byte) : (s.setByte pa b).deliveries = s.deliveries := rfl
@[simp] theorem State.setByte_arrivals (s : State) (pa : Nat) (b : Byte) : (s.setByte pa b).arrivals = s.arrivals := rfl
@[simp] theorem State.setByte_sent (s : State) (pa : Nat) (b : Byte) : (s.setByte pa b).sent = s.sent := rfl
@[simp] theorem State.setByte_hostWaits (s : State) (pa : Nat) (b : Byte) : (s.setByte pa b).hostWaits = s.hostWaits := rfl
@[simp] theorem State.setByte_nextId (s : State) (pa : Nat) (b : Byte) : (s.setByte pa b).nextId = s.nextId := rfl

@[simp] theorem State.setSbyte_tick (s : State) (k : Nat) (b : Byte) : (s.setSbyte k b).tick = s.tick := rfl
@[simp] theorem State.setSbyte_clock (s : State) (k : Nat) (b : Byte) : (s.setSbyte k b).clock = s.clock := rfl
@[simp] theorem State.setSbyte_serial (s : State) (k : Nat) (b : Byte) : (s.setSbyte k b).serial = s.serial := rfl
@[simp] theorem State.setSbyte_cur (s : State) (k : Nat) (b : Byte) : (s.setSbyte k b).cur = s.cur := rfl
@[simp] theorem State.setSbyte_also (s : State) (k : Nat) (b : Byte) : (s.setSbyte k b).also = s.also := rfl
@[simp] theorem State.setSbyte_joint (s : State) (k : Nat) (b : Byte) : (s.setSbyte k b).joint = s.joint := rfl
@[simp] theorem State.setSbyte_turn (s : State) (k : Nat) (b : Byte) : (s.setSbyte k b).turn = s.turn := rfl
@[simp] theorem State.setSbyte_rota (s : State) (k : Nat) (b : Byte) : (s.setSbyte k b).rota = s.rota := rfl
@[simp] theorem State.setSbyte_inbox (s : State) (k : Nat) (b : Byte) : (s.setSbyte k b).inbox = s.inbox := rfl
@[simp] theorem State.setSbyte_pkg (s : State) (k : Nat) (b : Byte) : (s.setSbyte k b).pkg = s.pkg := rfl
@[simp] theorem State.setSbyte_parts (s : State) (k : Nat) (b : Byte) : (s.setSbyte k b).parts = s.parts := rfl
@[simp] theorem State.setSbyte_groups (s : State) (k : Nat) (b : Byte) : (s.setSbyte k b).groups = s.groups := rfl
@[simp] theorem State.setSbyte_teams (s : State) (k : Nat) (b : Byte) : (s.setSbyte k b).teams = s.teams := rfl
@[simp] theorem State.setSbyte_grids (s : State) (k : Nat) (b : Byte) : (s.setSbyte k b).grids = s.grids := rfl
@[simp] theorem State.setSbyte_hands (s : State) (k : Nat) (b : Byte) : (s.setSbyte k b).hands = s.hands := rfl
@[simp] theorem State.setSbyte_latencyRuns (s : State) (k : Nat) (b : Byte) : (s.setSbyte k b).latencyRuns = s.latencyRuns := rfl
@[simp] theorem State.setSbyte_mem (s : State) (k : Nat) (b : Byte) : (s.setSbyte k b).mem = s.mem := rfl
@[simp] theorem State.setSbyte_spad (s : State) (k : Nat) (b : Byte) : (s.setSbyte k b).spad = smapPut memDefault s.spad k b := rfl
@[simp] theorem State.setSbyte_poison (s : State) (k : Nat) (b : Byte) : (s.setSbyte k b).poison = s.poison := rfl
@[simp] theorem State.setSbyte_dir (s : State) (k : Nat) (b : Byte) : (s.setSbyte k b).dir = s.dir := rfl
@[simp] theorem State.setSbyte_tlbs (s : State) (k : Nat) (b : Byte) : (s.setSbyte k b).tlbs = s.tlbs := rfl
@[simp] theorem State.setSbyte_dieTlbs (s : State) (k : Nat) (b : Byte) : (s.setSbyte k b).dieTlbs = s.dieTlbs := rfl
@[simp] theorem State.setSbyte_hist (s : State) (k : Nat) (b : Byte) : (s.setSbyte k b).hist = s.hist := rfl
@[simp] theorem State.setSbyte_pages (s : State) (k : Nat) (b : Byte) : (s.setSbyte k b).pages = s.pages := rfl
@[simp] theorem State.setSbyte_copies (s : State) (k : Nat) (b : Byte) : (s.setSbyte k b).copies = s.copies := rfl
@[simp] theorem State.setSbyte_locks (s : State) (k : Nat) (b : Byte) : (s.setSbyte k b).locks = s.locks := rfl
@[simp] theorem State.setSbyte_fabric (s : State) (k : Nat) (b : Byte) : (s.setSbyte k b).fabric = s.fabric := rfl
@[simp] theorem State.setSbyte_streams (s : State) (k : Nat) (b : Byte) : (s.setSbyte k b).streams = s.streams := rfl
@[simp] theorem State.setSbyte_frozen (s : State) (k : Nat) (b : Byte) : (s.setSbyte k b).frozen = s.frozen := rfl
@[simp] theorem State.setSbyte_foreign (s : State) (k : Nat) (b : Byte) : (s.setSbyte k b).foreign = s.foreign := rfl
@[simp] theorem State.setSbyte_deliveries (s : State) (k : Nat) (b : Byte) : (s.setSbyte k b).deliveries = s.deliveries := rfl
@[simp] theorem State.setSbyte_arrivals (s : State) (k : Nat) (b : Byte) : (s.setSbyte k b).arrivals = s.arrivals := rfl
@[simp] theorem State.setSbyte_sent (s : State) (k : Nat) (b : Byte) : (s.setSbyte k b).sent = s.sent := rfl
@[simp] theorem State.setSbyte_hostWaits (s : State) (k : Nat) (b : Byte) : (s.setSbyte k b).hostWaits = s.hostWaits := rfl
@[simp] theorem State.setSbyte_nextId (s : State) (k : Nat) (b : Byte) : (s.setSbyte k b).nextId = s.nextId := rfl

@[simp] theorem State.setDir_tick (s : State) (line : Nat) (e : DirEntry) : (s.setDir line e).tick = s.tick := rfl
@[simp] theorem State.setDir_clock (s : State) (line : Nat) (e : DirEntry) : (s.setDir line e).clock = s.clock := rfl
@[simp] theorem State.setDir_serial (s : State) (line : Nat) (e : DirEntry) : (s.setDir line e).serial = s.serial := rfl
@[simp] theorem State.setDir_cur (s : State) (line : Nat) (e : DirEntry) : (s.setDir line e).cur = s.cur := rfl
@[simp] theorem State.setDir_also (s : State) (line : Nat) (e : DirEntry) : (s.setDir line e).also = s.also := rfl
@[simp] theorem State.setDir_joint (s : State) (line : Nat) (e : DirEntry) : (s.setDir line e).joint = s.joint := rfl
@[simp] theorem State.setDir_turn (s : State) (line : Nat) (e : DirEntry) : (s.setDir line e).turn = s.turn := rfl
@[simp] theorem State.setDir_rota (s : State) (line : Nat) (e : DirEntry) : (s.setDir line e).rota = s.rota := rfl
@[simp] theorem State.setDir_inbox (s : State) (line : Nat) (e : DirEntry) : (s.setDir line e).inbox = s.inbox := rfl
@[simp] theorem State.setDir_pkg (s : State) (line : Nat) (e : DirEntry) : (s.setDir line e).pkg = s.pkg := rfl
@[simp] theorem State.setDir_parts (s : State) (line : Nat) (e : DirEntry) : (s.setDir line e).parts = s.parts := rfl
@[simp] theorem State.setDir_groups (s : State) (line : Nat) (e : DirEntry) : (s.setDir line e).groups = s.groups := rfl
@[simp] theorem State.setDir_teams (s : State) (line : Nat) (e : DirEntry) : (s.setDir line e).teams = s.teams := rfl
@[simp] theorem State.setDir_grids (s : State) (line : Nat) (e : DirEntry) : (s.setDir line e).grids = s.grids := rfl
@[simp] theorem State.setDir_hands (s : State) (line : Nat) (e : DirEntry) : (s.setDir line e).hands = s.hands := rfl
@[simp] theorem State.setDir_latencyRuns (s : State) (line : Nat) (e : DirEntry) : (s.setDir line e).latencyRuns = s.latencyRuns := rfl
@[simp] theorem State.setDir_mem (s : State) (line : Nat) (e : DirEntry) : (s.setDir line e).mem = s.mem := rfl
@[simp] theorem State.setDir_spad (s : State) (line : Nat) (e : DirEntry) : (s.setDir line e).spad = s.spad := rfl
@[simp] theorem State.setDir_poison (s : State) (line : Nat) (e : DirEntry) : (s.setDir line e).poison = s.poison := rfl
@[simp] theorem State.setDir_spadPoison (s : State) (line : Nat) (e : DirEntry) : (s.setDir line e).spadPoison = s.spadPoison := rfl
@[simp] theorem State.setDir_tlbs (s : State) (line : Nat) (e : DirEntry) : (s.setDir line e).tlbs = s.tlbs := rfl
@[simp] theorem State.setDir_dieTlbs (s : State) (line : Nat) (e : DirEntry) : (s.setDir line e).dieTlbs = s.dieTlbs := rfl
@[simp] theorem State.setDir_hist (s : State) (line : Nat) (e : DirEntry) : (s.setDir line e).hist = s.hist := rfl
@[simp] theorem State.setDir_pages (s : State) (line : Nat) (e : DirEntry) : (s.setDir line e).pages = s.pages := rfl
@[simp] theorem State.setDir_copies (s : State) (line : Nat) (e : DirEntry) : (s.setDir line e).copies = s.copies := rfl
@[simp] theorem State.setDir_locks (s : State) (line : Nat) (e : DirEntry) : (s.setDir line e).locks = s.locks := rfl
@[simp] theorem State.setDir_fabric (s : State) (line : Nat) (e : DirEntry) : (s.setDir line e).fabric = s.fabric := rfl
@[simp] theorem State.setDir_streams (s : State) (line : Nat) (e : DirEntry) : (s.setDir line e).streams = s.streams := rfl
@[simp] theorem State.setDir_frozen (s : State) (line : Nat) (e : DirEntry) : (s.setDir line e).frozen = s.frozen := rfl
@[simp] theorem State.setDir_foreign (s : State) (line : Nat) (e : DirEntry) : (s.setDir line e).foreign = s.foreign := rfl
@[simp] theorem State.setDir_deliveries (s : State) (line : Nat) (e : DirEntry) : (s.setDir line e).deliveries = s.deliveries := rfl
@[simp] theorem State.setDir_arrivals (s : State) (line : Nat) (e : DirEntry) : (s.setDir line e).arrivals = s.arrivals := rfl
@[simp] theorem State.setDir_sent (s : State) (line : Nat) (e : DirEntry) : (s.setDir line e).sent = s.sent := rfl
@[simp] theorem State.setDir_hostWaits (s : State) (line : Nat) (e : DirEntry) : (s.setDir line e).hostWaits = s.hostWaits := rfl
@[simp] theorem State.setDir_nextId (s : State) (line : Nat) (e : DirEntry) : (s.setDir line e).nextId = s.nextId := rfl

@[simp] theorem State.unlock_tick (s : State) (ids : List Nat) : (s.unlock ids).tick = s.tick := rfl
@[simp] theorem State.unlock_clock (s : State) (ids : List Nat) : (s.unlock ids).clock = s.clock := rfl
@[simp] theorem State.unlock_serial (s : State) (ids : List Nat) : (s.unlock ids).serial = s.serial := rfl
@[simp] theorem State.unlock_cur (s : State) (ids : List Nat) : (s.unlock ids).cur = s.cur := rfl
@[simp] theorem State.unlock_also (s : State) (ids : List Nat) : (s.unlock ids).also = s.also := rfl
@[simp] theorem State.unlock_joint (s : State) (ids : List Nat) : (s.unlock ids).joint = s.joint := rfl
@[simp] theorem State.unlock_turn (s : State) (ids : List Nat) : (s.unlock ids).turn = s.turn := rfl
@[simp] theorem State.unlock_rota (s : State) (ids : List Nat) : (s.unlock ids).rota = s.rota := rfl
@[simp] theorem State.unlock_inbox (s : State) (ids : List Nat) : (s.unlock ids).inbox = s.inbox := rfl
@[simp] theorem State.unlock_pkg (s : State) (ids : List Nat) : (s.unlock ids).pkg = s.pkg := rfl
@[simp] theorem State.unlock_parts (s : State) (ids : List Nat) : (s.unlock ids).parts = s.parts := rfl
@[simp] theorem State.unlock_groups (s : State) (ids : List Nat) : (s.unlock ids).groups = s.groups := rfl
@[simp] theorem State.unlock_teams (s : State) (ids : List Nat) : (s.unlock ids).teams = s.teams := rfl
@[simp] theorem State.unlock_grids (s : State) (ids : List Nat) : (s.unlock ids).grids = s.grids := rfl
@[simp] theorem State.unlock_hands (s : State) (ids : List Nat) : (s.unlock ids).hands = s.hands := rfl
@[simp] theorem State.unlock_latencyRuns (s : State) (ids : List Nat) : (s.unlock ids).latencyRuns = s.latencyRuns := rfl
@[simp] theorem State.unlock_mem (s : State) (ids : List Nat) : (s.unlock ids).mem = s.mem := rfl
@[simp] theorem State.unlock_spad (s : State) (ids : List Nat) : (s.unlock ids).spad = s.spad := rfl
@[simp] theorem State.unlock_poison (s : State) (ids : List Nat) : (s.unlock ids).poison = s.poison := rfl
@[simp] theorem State.unlock_spadPoison (s : State) (ids : List Nat) : (s.unlock ids).spadPoison = s.spadPoison := rfl
@[simp] theorem State.unlock_dir (s : State) (ids : List Nat) : (s.unlock ids).dir = s.dir := rfl
@[simp] theorem State.unlock_tlbs (s : State) (ids : List Nat) : (s.unlock ids).tlbs = s.tlbs := rfl
@[simp] theorem State.unlock_dieTlbs (s : State) (ids : List Nat) : (s.unlock ids).dieTlbs = s.dieTlbs := rfl
@[simp] theorem State.unlock_hist (s : State) (ids : List Nat) : (s.unlock ids).hist = s.hist := rfl
@[simp] theorem State.unlock_pages (s : State) (ids : List Nat) : (s.unlock ids).pages = s.pages := rfl
@[simp] theorem State.unlock_copies (s : State) (ids : List Nat) : (s.unlock ids).copies = s.copies := rfl
@[simp] theorem State.unlock_locks (s : State) (ids : List Nat) : (s.unlock ids).locks = s.locks.filter fun e => !(ids.contains e.1) := rfl
@[simp] theorem State.unlock_fabric (s : State) (ids : List Nat) : (s.unlock ids).fabric = s.fabric := rfl
@[simp] theorem State.unlock_streams (s : State) (ids : List Nat) : (s.unlock ids).streams = s.streams := rfl
@[simp] theorem State.unlock_frozen (s : State) (ids : List Nat) : (s.unlock ids).frozen = s.frozen := rfl
@[simp] theorem State.unlock_foreign (s : State) (ids : List Nat) : (s.unlock ids).foreign = s.foreign := rfl
@[simp] theorem State.unlock_deliveries (s : State) (ids : List Nat) : (s.unlock ids).deliveries = s.deliveries := rfl
@[simp] theorem State.unlock_arrivals (s : State) (ids : List Nat) : (s.unlock ids).arrivals = s.arrivals := rfl
@[simp] theorem State.unlock_sent (s : State) (ids : List Nat) : (s.unlock ids).sent = s.sent := rfl
@[simp] theorem State.unlock_hostWaits (s : State) (ids : List Nat) : (s.unlock ids).hostWaits = s.hostWaits := rfl
@[simp] theorem State.unlock_nextId (s : State) (ids : List Nat) : (s.unlock ids).nextId = s.nextId := rfl

@[simp] theorem State.setCopy_tick (s : State) (cid : Nat) (c : Copy) : (s.setCopy cid c).tick = s.tick := rfl
@[simp] theorem State.setCopy_clock (s : State) (cid : Nat) (c : Copy) : (s.setCopy cid c).clock = s.clock := rfl
@[simp] theorem State.setCopy_serial (s : State) (cid : Nat) (c : Copy) : (s.setCopy cid c).serial = s.serial := rfl
@[simp] theorem State.setCopy_cur (s : State) (cid : Nat) (c : Copy) : (s.setCopy cid c).cur = s.cur := rfl
@[simp] theorem State.setCopy_also (s : State) (cid : Nat) (c : Copy) : (s.setCopy cid c).also = s.also := rfl
@[simp] theorem State.setCopy_joint (s : State) (cid : Nat) (c : Copy) : (s.setCopy cid c).joint = s.joint := rfl
@[simp] theorem State.setCopy_turn (s : State) (cid : Nat) (c : Copy) : (s.setCopy cid c).turn = s.turn := rfl
@[simp] theorem State.setCopy_rota (s : State) (cid : Nat) (c : Copy) : (s.setCopy cid c).rota = s.rota := rfl
@[simp] theorem State.setCopy_inbox (s : State) (cid : Nat) (c : Copy) : (s.setCopy cid c).inbox = s.inbox := rfl
@[simp] theorem State.setCopy_pkg (s : State) (cid : Nat) (c : Copy) : (s.setCopy cid c).pkg = s.pkg := rfl
@[simp] theorem State.setCopy_parts (s : State) (cid : Nat) (c : Copy) : (s.setCopy cid c).parts = s.parts := rfl
@[simp] theorem State.setCopy_groups (s : State) (cid : Nat) (c : Copy) : (s.setCopy cid c).groups = s.groups := rfl
@[simp] theorem State.setCopy_teams (s : State) (cid : Nat) (c : Copy) : (s.setCopy cid c).teams = s.teams := rfl
@[simp] theorem State.setCopy_grids (s : State) (cid : Nat) (c : Copy) : (s.setCopy cid c).grids = s.grids := rfl
@[simp] theorem State.setCopy_hands (s : State) (cid : Nat) (c : Copy) : (s.setCopy cid c).hands = s.hands := rfl
@[simp] theorem State.setCopy_latencyRuns (s : State) (cid : Nat) (c : Copy) : (s.setCopy cid c).latencyRuns = s.latencyRuns := rfl
@[simp] theorem State.setCopy_mem (s : State) (cid : Nat) (c : Copy) : (s.setCopy cid c).mem = s.mem := rfl
@[simp] theorem State.setCopy_spad (s : State) (cid : Nat) (c : Copy) : (s.setCopy cid c).spad = s.spad := rfl
@[simp] theorem State.setCopy_poison (s : State) (cid : Nat) (c : Copy) : (s.setCopy cid c).poison = s.poison := rfl
@[simp] theorem State.setCopy_spadPoison (s : State) (cid : Nat) (c : Copy) : (s.setCopy cid c).spadPoison = s.spadPoison := rfl
@[simp] theorem State.setCopy_dir (s : State) (cid : Nat) (c : Copy) : (s.setCopy cid c).dir = s.dir := rfl
@[simp] theorem State.setCopy_tlbs (s : State) (cid : Nat) (c : Copy) : (s.setCopy cid c).tlbs = s.tlbs := rfl
@[simp] theorem State.setCopy_dieTlbs (s : State) (cid : Nat) (c : Copy) : (s.setCopy cid c).dieTlbs = s.dieTlbs := rfl
@[simp] theorem State.setCopy_hist (s : State) (cid : Nat) (c : Copy) : (s.setCopy cid c).hist = s.hist := rfl
@[simp] theorem State.setCopy_pages (s : State) (cid : Nat) (c : Copy) : (s.setCopy cid c).pages = s.pages := rfl
@[simp] theorem State.setCopy_copies (s : State) (cid : Nat) (c : Copy) : (s.setCopy cid c).copies = smapInsert s.copies cid c := rfl
@[simp] theorem State.setCopy_locks (s : State) (cid : Nat) (c : Copy) : (s.setCopy cid c).locks = s.locks := rfl
@[simp] theorem State.setCopy_fabric (s : State) (cid : Nat) (c : Copy) : (s.setCopy cid c).fabric = s.fabric := rfl
@[simp] theorem State.setCopy_streams (s : State) (cid : Nat) (c : Copy) : (s.setCopy cid c).streams = s.streams := rfl
@[simp] theorem State.setCopy_frozen (s : State) (cid : Nat) (c : Copy) : (s.setCopy cid c).frozen = s.frozen := rfl
@[simp] theorem State.setCopy_foreign (s : State) (cid : Nat) (c : Copy) : (s.setCopy cid c).foreign = s.foreign := rfl
@[simp] theorem State.setCopy_deliveries (s : State) (cid : Nat) (c : Copy) : (s.setCopy cid c).deliveries = s.deliveries := rfl
@[simp] theorem State.setCopy_arrivals (s : State) (cid : Nat) (c : Copy) : (s.setCopy cid c).arrivals = s.arrivals := rfl
@[simp] theorem State.setCopy_sent (s : State) (cid : Nat) (c : Copy) : (s.setCopy cid c).sent = s.sent := rfl
@[simp] theorem State.setCopy_hostWaits (s : State) (cid : Nat) (c : Copy) : (s.setCopy cid c).hostWaits = s.hostWaits := rfl
@[simp] theorem State.setCopy_nextId (s : State) (cid : Nat) (c : Copy) : (s.setCopy cid c).nextId = s.nextId := rfl

@[simp] theorem State.setReq_tick (s : State) (rid : Nat) (q : FabReq) : (s.setReq rid q).tick = s.tick := rfl
@[simp] theorem State.setReq_clock (s : State) (rid : Nat) (q : FabReq) : (s.setReq rid q).clock = s.clock := rfl
@[simp] theorem State.setReq_serial (s : State) (rid : Nat) (q : FabReq) : (s.setReq rid q).serial = s.serial := rfl
@[simp] theorem State.setReq_cur (s : State) (rid : Nat) (q : FabReq) : (s.setReq rid q).cur = s.cur := rfl
@[simp] theorem State.setReq_also (s : State) (rid : Nat) (q : FabReq) : (s.setReq rid q).also = s.also := rfl
@[simp] theorem State.setReq_joint (s : State) (rid : Nat) (q : FabReq) : (s.setReq rid q).joint = s.joint := rfl
@[simp] theorem State.setReq_turn (s : State) (rid : Nat) (q : FabReq) : (s.setReq rid q).turn = s.turn := rfl
@[simp] theorem State.setReq_rota (s : State) (rid : Nat) (q : FabReq) : (s.setReq rid q).rota = s.rota := rfl
@[simp] theorem State.setReq_inbox (s : State) (rid : Nat) (q : FabReq) : (s.setReq rid q).inbox = s.inbox := rfl
@[simp] theorem State.setReq_pkg (s : State) (rid : Nat) (q : FabReq) : (s.setReq rid q).pkg = s.pkg := rfl
@[simp] theorem State.setReq_parts (s : State) (rid : Nat) (q : FabReq) : (s.setReq rid q).parts = s.parts := rfl
@[simp] theorem State.setReq_groups (s : State) (rid : Nat) (q : FabReq) : (s.setReq rid q).groups = s.groups := rfl
@[simp] theorem State.setReq_teams (s : State) (rid : Nat) (q : FabReq) : (s.setReq rid q).teams = s.teams := rfl
@[simp] theorem State.setReq_grids (s : State) (rid : Nat) (q : FabReq) : (s.setReq rid q).grids = s.grids := rfl
@[simp] theorem State.setReq_hands (s : State) (rid : Nat) (q : FabReq) : (s.setReq rid q).hands = s.hands := rfl
@[simp] theorem State.setReq_latencyRuns (s : State) (rid : Nat) (q : FabReq) : (s.setReq rid q).latencyRuns = s.latencyRuns := rfl
@[simp] theorem State.setReq_mem (s : State) (rid : Nat) (q : FabReq) : (s.setReq rid q).mem = s.mem := rfl
@[simp] theorem State.setReq_spad (s : State) (rid : Nat) (q : FabReq) : (s.setReq rid q).spad = s.spad := rfl
@[simp] theorem State.setReq_poison (s : State) (rid : Nat) (q : FabReq) : (s.setReq rid q).poison = s.poison := rfl
@[simp] theorem State.setReq_spadPoison (s : State) (rid : Nat) (q : FabReq) : (s.setReq rid q).spadPoison = s.spadPoison := rfl
@[simp] theorem State.setReq_dir (s : State) (rid : Nat) (q : FabReq) : (s.setReq rid q).dir = s.dir := rfl
@[simp] theorem State.setReq_tlbs (s : State) (rid : Nat) (q : FabReq) : (s.setReq rid q).tlbs = s.tlbs := rfl
@[simp] theorem State.setReq_dieTlbs (s : State) (rid : Nat) (q : FabReq) : (s.setReq rid q).dieTlbs = s.dieTlbs := rfl
@[simp] theorem State.setReq_hist (s : State) (rid : Nat) (q : FabReq) : (s.setReq rid q).hist = s.hist := rfl
@[simp] theorem State.setReq_pages (s : State) (rid : Nat) (q : FabReq) : (s.setReq rid q).pages = s.pages := rfl
@[simp] theorem State.setReq_copies (s : State) (rid : Nat) (q : FabReq) : (s.setReq rid q).copies = s.copies := rfl
@[simp] theorem State.setReq_locks (s : State) (rid : Nat) (q : FabReq) : (s.setReq rid q).locks = s.locks := rfl
@[simp] theorem State.setReq_fabric (s : State) (rid : Nat) (q : FabReq) : (s.setReq rid q).fabric = smapInsert s.fabric rid q := rfl
@[simp] theorem State.setReq_streams (s : State) (rid : Nat) (q : FabReq) : (s.setReq rid q).streams = s.streams := rfl
@[simp] theorem State.setReq_frozen (s : State) (rid : Nat) (q : FabReq) : (s.setReq rid q).frozen = s.frozen := rfl
@[simp] theorem State.setReq_foreign (s : State) (rid : Nat) (q : FabReq) : (s.setReq rid q).foreign = s.foreign := rfl
@[simp] theorem State.setReq_deliveries (s : State) (rid : Nat) (q : FabReq) : (s.setReq rid q).deliveries = s.deliveries := rfl
@[simp] theorem State.setReq_arrivals (s : State) (rid : Nat) (q : FabReq) : (s.setReq rid q).arrivals = s.arrivals := rfl
@[simp] theorem State.setReq_sent (s : State) (rid : Nat) (q : FabReq) : (s.setReq rid q).sent = s.sent := rfl
@[simp] theorem State.setReq_hostWaits (s : State) (rid : Nat) (q : FabReq) : (s.setReq rid q).hostWaits = s.hostWaits := rfl
@[simp] theorem State.setReq_nextId (s : State) (rid : Nat) (q : FabReq) : (s.setReq rid q).nextId = s.nextId := rfl

@[simp] theorem State.advance_tick (s : State) : (s.advance).tick = s.tick + 1 := rfl
@[simp] theorem State.advance_serial (s : State) : (s.advance).serial = s.serial := rfl
@[simp] theorem State.advance_cur (s : State) : (s.advance).cur = s.cur := rfl
@[simp] theorem State.advance_also (s : State) : (s.advance).also = s.also := rfl
@[simp] theorem State.advance_joint (s : State) : (s.advance).joint = false := rfl
@[simp] theorem State.advance_turn (s : State) : (s.advance).turn = s.turn := rfl
@[simp] theorem State.advance_rota (s : State) : (s.advance).rota = s.rota := rfl
@[simp] theorem State.advance_inbox (s : State) : (s.advance).inbox = s.inbox := rfl
@[simp] theorem State.advance_pkg (s : State) : (s.advance).pkg = s.pkg := rfl
@[simp] theorem State.advance_parts (s : State) : (s.advance).parts = s.parts := rfl
@[simp] theorem State.advance_teams (s : State) : (s.advance).teams = s.teams := rfl
@[simp] theorem State.advance_grids (s : State) : (s.advance).grids = s.grids := rfl
@[simp] theorem State.advance_hands (s : State) : (s.advance).hands = s.hands := rfl
@[simp] theorem State.advance_latencyRuns (s : State) : (s.advance).latencyRuns = s.latencyRuns := rfl
@[simp] theorem State.advance_mem (s : State) : (s.advance).mem = s.mem := rfl
@[simp] theorem State.advance_spad (s : State) : (s.advance).spad = s.spad := rfl
@[simp] theorem State.advance_poison (s : State) : (s.advance).poison = s.poison := rfl
@[simp] theorem State.advance_spadPoison (s : State) : (s.advance).spadPoison = s.spadPoison := rfl
@[simp] theorem State.advance_dir (s : State) : (s.advance).dir = s.dir := rfl
@[simp] theorem State.advance_tlbs (s : State) : (s.advance).tlbs = s.tlbs := rfl
@[simp] theorem State.advance_dieTlbs (s : State) : (s.advance).dieTlbs = s.dieTlbs := rfl
@[simp] theorem State.advance_hist (s : State) : (s.advance).hist = s.hist := rfl
@[simp] theorem State.advance_pages (s : State) : (s.advance).pages = s.pages := rfl
@[simp] theorem State.advance_copies (s : State) : (s.advance).copies = s.copies := rfl
@[simp] theorem State.advance_locks (s : State) : (s.advance).locks = s.locks := rfl
@[simp] theorem State.advance_fabric (s : State) : (s.advance).fabric = s.fabric := rfl
@[simp] theorem State.advance_streams (s : State) : (s.advance).streams = s.streams := rfl
@[simp] theorem State.advance_frozen (s : State) : (s.advance).frozen = s.frozen := rfl
@[simp] theorem State.advance_foreign (s : State) : (s.advance).foreign = s.foreign := rfl
@[simp] theorem State.advance_deliveries (s : State) : (s.advance).deliveries = s.deliveries := rfl
@[simp] theorem State.advance_arrivals (s : State) : (s.advance).arrivals = s.arrivals := rfl
@[simp] theorem State.advance_sent (s : State) : (s.advance).sent = s.sent := rfl
@[simp] theorem State.advance_hostWaits (s : State) : (s.advance).hostWaits = s.hostWaits := rfl
@[simp] theorem State.advance_nextId (s : State) : (s.advance).nextId = s.nextId := rfl

@[simp] theorem State.issued_tick (s : State) : (s.issued).tick = s.tick := rfl
@[simp] theorem State.issued_clock (s : State) : (s.issued).clock = s.clock := rfl
@[simp] theorem State.issued_serial (s : State) : (s.issued).serial = s.serial := rfl
@[simp] theorem State.issued_cur (s : State) : (s.issued).cur = s.also.head? := rfl
@[simp] theorem State.issued_also (s : State) : (s.issued).also = s.also.tail := rfl
@[simp] theorem State.issued_joint (s : State) : (s.issued).joint = decide (s.also ≠ []) := rfl
@[simp] theorem State.issued_turn (s : State) : (s.issued).turn = true := rfl
@[simp] theorem State.issued_rota (s : State) : (s.issued).rota = s.rota := rfl
@[simp] theorem State.issued_inbox (s : State) : (s.issued).inbox = s.inbox := rfl
@[simp] theorem State.issued_pkg (s : State) : (s.issued).pkg = s.pkg := rfl
@[simp] theorem State.issued_parts (s : State) : (s.issued).parts = s.parts := rfl
@[simp] theorem State.issued_groups (s : State) : (s.issued).groups = s.groups := rfl
@[simp] theorem State.issued_teams (s : State) : (s.issued).teams = s.teams := rfl
@[simp] theorem State.issued_grids (s : State) : (s.issued).grids = s.grids := rfl
@[simp] theorem State.issued_hands (s : State) : (s.issued).hands = s.hands := rfl
@[simp] theorem State.issued_latencyRuns (s : State) : (s.issued).latencyRuns = s.latencyRuns := rfl
@[simp] theorem State.issued_mem (s : State) : (s.issued).mem = s.mem := rfl
@[simp] theorem State.issued_spad (s : State) : (s.issued).spad = s.spad := rfl
@[simp] theorem State.issued_poison (s : State) : (s.issued).poison = s.poison := rfl
@[simp] theorem State.issued_spadPoison (s : State) : (s.issued).spadPoison = s.spadPoison := rfl
@[simp] theorem State.issued_dir (s : State) : (s.issued).dir = s.dir := rfl
@[simp] theorem State.issued_tlbs (s : State) : (s.issued).tlbs = s.tlbs := rfl
@[simp] theorem State.issued_dieTlbs (s : State) : (s.issued).dieTlbs = s.dieTlbs := rfl
@[simp] theorem State.issued_hist (s : State) : (s.issued).hist = s.hist := rfl
@[simp] theorem State.issued_pages (s : State) : (s.issued).pages = s.pages := rfl
@[simp] theorem State.issued_copies (s : State) : (s.issued).copies = s.copies := rfl
@[simp] theorem State.issued_locks (s : State) : (s.issued).locks = s.locks := rfl
@[simp] theorem State.issued_fabric (s : State) : (s.issued).fabric = s.fabric := rfl
@[simp] theorem State.issued_streams (s : State) : (s.issued).streams = s.streams := rfl
@[simp] theorem State.issued_frozen (s : State) : (s.issued).frozen = s.frozen := rfl
@[simp] theorem State.issued_foreign (s : State) : (s.issued).foreign = s.foreign := rfl
@[simp] theorem State.issued_deliveries (s : State) : (s.issued).deliveries = s.deliveries := rfl
@[simp] theorem State.issued_arrivals (s : State) : (s.issued).arrivals = s.arrivals := rfl
@[simp] theorem State.issued_sent (s : State) : (s.issued).sent = s.sent := rfl
@[simp] theorem State.issued_hostWaits (s : State) : (s.issued).hostWaits = s.hostWaits := rfl
@[simp] theorem State.issued_nextId (s : State) : (s.issued).nextId = s.nextId := rfl

@[simp] theorem State.modGroup_tick (s : State) (gid : Nat) (f : Group → Group) : (s.modGroup gid f).tick = s.tick := by
  unfold State.modGroup; cases s.group gid <;> rfl
@[simp] theorem State.modGroup_clock (s : State) (gid : Nat) (f : Group → Group) : (s.modGroup gid f).clock = s.clock := by
  unfold State.modGroup; cases s.group gid <;> rfl
@[simp] theorem State.modGroup_serial (s : State) (gid : Nat) (f : Group → Group) : (s.modGroup gid f).serial = s.serial := by
  unfold State.modGroup; cases s.group gid <;> rfl
@[simp] theorem State.modGroup_cur (s : State) (gid : Nat) (f : Group → Group) : (s.modGroup gid f).cur = s.cur := by
  unfold State.modGroup; cases s.group gid <;> rfl
@[simp] theorem State.modGroup_also (s : State) (gid : Nat) (f : Group → Group) : (s.modGroup gid f).also = s.also := by
  unfold State.modGroup; cases s.group gid <;> rfl
@[simp] theorem State.modGroup_joint (s : State) (gid : Nat) (f : Group → Group) : (s.modGroup gid f).joint = s.joint := by
  unfold State.modGroup; cases s.group gid <;> rfl
@[simp] theorem State.modGroup_turn (s : State) (gid : Nat) (f : Group → Group) : (s.modGroup gid f).turn = s.turn := by
  unfold State.modGroup; cases s.group gid <;> rfl
@[simp] theorem State.modGroup_rota (s : State) (gid : Nat) (f : Group → Group) : (s.modGroup gid f).rota = s.rota := by
  unfold State.modGroup; cases s.group gid <;> rfl
@[simp] theorem State.modGroup_inbox (s : State) (gid : Nat) (f : Group → Group) : (s.modGroup gid f).inbox = s.inbox := by
  unfold State.modGroup; cases s.group gid <;> rfl
@[simp] theorem State.modGroup_pkg (s : State) (gid : Nat) (f : Group → Group) : (s.modGroup gid f).pkg = s.pkg := by
  unfold State.modGroup; cases s.group gid <;> rfl
@[simp] theorem State.modGroup_parts (s : State) (gid : Nat) (f : Group → Group) : (s.modGroup gid f).parts = s.parts := by
  unfold State.modGroup; cases s.group gid <;> rfl
@[simp] theorem State.modGroup_teams (s : State) (gid : Nat) (f : Group → Group) : (s.modGroup gid f).teams = s.teams := by
  unfold State.modGroup; cases s.group gid <;> rfl
@[simp] theorem State.modGroup_grids (s : State) (gid : Nat) (f : Group → Group) : (s.modGroup gid f).grids = s.grids := by
  unfold State.modGroup; cases s.group gid <;> rfl
@[simp] theorem State.modGroup_hands (s : State) (gid : Nat) (f : Group → Group) : (s.modGroup gid f).hands = s.hands := by
  unfold State.modGroup; cases s.group gid <;> rfl
@[simp] theorem State.modGroup_latencyRuns (s : State) (gid : Nat) (f : Group → Group) : (s.modGroup gid f).latencyRuns = s.latencyRuns := by
  unfold State.modGroup; cases s.group gid <;> rfl
@[simp] theorem State.modGroup_mem (s : State) (gid : Nat) (f : Group → Group) : (s.modGroup gid f).mem = s.mem := by
  unfold State.modGroup; cases s.group gid <;> rfl
@[simp] theorem State.modGroup_spad (s : State) (gid : Nat) (f : Group → Group) : (s.modGroup gid f).spad = s.spad := by
  unfold State.modGroup; cases s.group gid <;> rfl
@[simp] theorem State.modGroup_poison (s : State) (gid : Nat) (f : Group → Group) : (s.modGroup gid f).poison = s.poison := by
  unfold State.modGroup; cases s.group gid <;> rfl
@[simp] theorem State.modGroup_spadPoison (s : State) (gid : Nat) (f : Group → Group) : (s.modGroup gid f).spadPoison = s.spadPoison := by
  unfold State.modGroup; cases s.group gid <;> rfl
@[simp] theorem State.modGroup_dir (s : State) (gid : Nat) (f : Group → Group) : (s.modGroup gid f).dir = s.dir := by
  unfold State.modGroup; cases s.group gid <;> rfl
@[simp] theorem State.modGroup_tlbs (s : State) (gid : Nat) (f : Group → Group) : (s.modGroup gid f).tlbs = s.tlbs := by
  unfold State.modGroup; cases s.group gid <;> rfl
@[simp] theorem State.modGroup_dieTlbs (s : State) (gid : Nat) (f : Group → Group) : (s.modGroup gid f).dieTlbs = s.dieTlbs := by
  unfold State.modGroup; cases s.group gid <;> rfl
@[simp] theorem State.modGroup_hist (s : State) (gid : Nat) (f : Group → Group) : (s.modGroup gid f).hist = s.hist := by
  unfold State.modGroup; cases s.group gid <;> rfl
@[simp] theorem State.modGroup_pages (s : State) (gid : Nat) (f : Group → Group) : (s.modGroup gid f).pages = s.pages := by
  unfold State.modGroup; cases s.group gid <;> rfl
@[simp] theorem State.modGroup_copies (s : State) (gid : Nat) (f : Group → Group) : (s.modGroup gid f).copies = s.copies := by
  unfold State.modGroup; cases s.group gid <;> rfl
@[simp] theorem State.modGroup_locks (s : State) (gid : Nat) (f : Group → Group) : (s.modGroup gid f).locks = s.locks := by
  unfold State.modGroup; cases s.group gid <;> rfl
@[simp] theorem State.modGroup_fabric (s : State) (gid : Nat) (f : Group → Group) : (s.modGroup gid f).fabric = s.fabric := by
  unfold State.modGroup; cases s.group gid <;> rfl
@[simp] theorem State.modGroup_streams (s : State) (gid : Nat) (f : Group → Group) : (s.modGroup gid f).streams = s.streams := by
  unfold State.modGroup; cases s.group gid <;> rfl
@[simp] theorem State.modGroup_frozen (s : State) (gid : Nat) (f : Group → Group) : (s.modGroup gid f).frozen = s.frozen := by
  unfold State.modGroup; cases s.group gid <;> rfl
@[simp] theorem State.modGroup_foreign (s : State) (gid : Nat) (f : Group → Group) : (s.modGroup gid f).foreign = s.foreign := by
  unfold State.modGroup; cases s.group gid <;> rfl
@[simp] theorem State.modGroup_deliveries (s : State) (gid : Nat) (f : Group → Group) : (s.modGroup gid f).deliveries = s.deliveries := by
  unfold State.modGroup; cases s.group gid <;> rfl
@[simp] theorem State.modGroup_arrivals (s : State) (gid : Nat) (f : Group → Group) : (s.modGroup gid f).arrivals = s.arrivals := by
  unfold State.modGroup; cases s.group gid <;> rfl
@[simp] theorem State.modGroup_sent (s : State) (gid : Nat) (f : Group → Group) : (s.modGroup gid f).sent = s.sent := by
  unfold State.modGroup; cases s.group gid <;> rfl
@[simp] theorem State.modGroup_hostWaits (s : State) (gid : Nat) (f : Group → Group) : (s.modGroup gid f).hostWaits = s.hostWaits := by
  unfold State.modGroup; cases s.group gid <;> rfl
@[simp] theorem State.modGroup_nextId (s : State) (gid : Nat) (f : Group → Group) : (s.modGroup gid f).nextId = s.nextId := by
  unfold State.modGroup; cases s.group gid <;> rfl

@[simp] theorem State.modPart_tick (s : State) (p : Nat) (f : Part → Part) : (s.modPart p f).tick = s.tick := by
  unfold State.modPart; cases s.part p <;> rfl
@[simp] theorem State.modPart_clock (s : State) (p : Nat) (f : Part → Part) : (s.modPart p f).clock = s.clock := by
  unfold State.modPart; cases s.part p <;> rfl
@[simp] theorem State.modPart_serial (s : State) (p : Nat) (f : Part → Part) : (s.modPart p f).serial = s.serial := by
  unfold State.modPart; cases s.part p <;> rfl
@[simp] theorem State.modPart_cur (s : State) (p : Nat) (f : Part → Part) : (s.modPart p f).cur = s.cur := by
  unfold State.modPart; cases s.part p <;> rfl
@[simp] theorem State.modPart_also (s : State) (p : Nat) (f : Part → Part) : (s.modPart p f).also = s.also := by
  unfold State.modPart; cases s.part p <;> rfl
@[simp] theorem State.modPart_joint (s : State) (p : Nat) (f : Part → Part) : (s.modPart p f).joint = s.joint := by
  unfold State.modPart; cases s.part p <;> rfl
@[simp] theorem State.modPart_turn (s : State) (p : Nat) (f : Part → Part) : (s.modPart p f).turn = s.turn := by
  unfold State.modPart; cases s.part p <;> rfl
@[simp] theorem State.modPart_rota (s : State) (p : Nat) (f : Part → Part) : (s.modPart p f).rota = s.rota := by
  unfold State.modPart; cases s.part p <;> rfl
@[simp] theorem State.modPart_inbox (s : State) (p : Nat) (f : Part → Part) : (s.modPart p f).inbox = s.inbox := by
  unfold State.modPart; cases s.part p <;> rfl
@[simp] theorem State.modPart_pkg (s : State) (p : Nat) (f : Part → Part) : (s.modPart p f).pkg = s.pkg := by
  unfold State.modPart; cases s.part p <;> rfl
@[simp] theorem State.modPart_groups (s : State) (p : Nat) (f : Part → Part) : (s.modPart p f).groups = s.groups := by
  unfold State.modPart; cases s.part p <;> rfl
@[simp] theorem State.modPart_teams (s : State) (p : Nat) (f : Part → Part) : (s.modPart p f).teams = s.teams := by
  unfold State.modPart; cases s.part p <;> rfl
@[simp] theorem State.modPart_grids (s : State) (p : Nat) (f : Part → Part) : (s.modPart p f).grids = s.grids := by
  unfold State.modPart; cases s.part p <;> rfl
@[simp] theorem State.modPart_hands (s : State) (p : Nat) (f : Part → Part) : (s.modPart p f).hands = s.hands := by
  unfold State.modPart; cases s.part p <;> rfl
@[simp] theorem State.modPart_latencyRuns (s : State) (p : Nat) (f : Part → Part) : (s.modPart p f).latencyRuns = s.latencyRuns := by
  unfold State.modPart; cases s.part p <;> rfl
@[simp] theorem State.modPart_mem (s : State) (p : Nat) (f : Part → Part) : (s.modPart p f).mem = s.mem := by
  unfold State.modPart; cases s.part p <;> rfl
@[simp] theorem State.modPart_spad (s : State) (p : Nat) (f : Part → Part) : (s.modPart p f).spad = s.spad := by
  unfold State.modPart; cases s.part p <;> rfl
@[simp] theorem State.modPart_poison (s : State) (p : Nat) (f : Part → Part) : (s.modPart p f).poison = s.poison := by
  unfold State.modPart; cases s.part p <;> rfl
@[simp] theorem State.modPart_spadPoison (s : State) (p : Nat) (f : Part → Part) : (s.modPart p f).spadPoison = s.spadPoison := by
  unfold State.modPart; cases s.part p <;> rfl
@[simp] theorem State.modPart_dir (s : State) (p : Nat) (f : Part → Part) : (s.modPart p f).dir = s.dir := by
  unfold State.modPart; cases s.part p <;> rfl
@[simp] theorem State.modPart_tlbs (s : State) (p : Nat) (f : Part → Part) : (s.modPart p f).tlbs = s.tlbs := by
  unfold State.modPart; cases s.part p <;> rfl
@[simp] theorem State.modPart_dieTlbs (s : State) (p : Nat) (f : Part → Part) : (s.modPart p f).dieTlbs = s.dieTlbs := by
  unfold State.modPart; cases s.part p <;> rfl
@[simp] theorem State.modPart_hist (s : State) (p : Nat) (f : Part → Part) : (s.modPart p f).hist = s.hist := by
  unfold State.modPart; cases s.part p <;> rfl
@[simp] theorem State.modPart_pages (s : State) (p : Nat) (f : Part → Part) : (s.modPart p f).pages = s.pages := by
  unfold State.modPart; cases s.part p <;> rfl
@[simp] theorem State.modPart_copies (s : State) (p : Nat) (f : Part → Part) : (s.modPart p f).copies = s.copies := by
  unfold State.modPart; cases s.part p <;> rfl
@[simp] theorem State.modPart_locks (s : State) (p : Nat) (f : Part → Part) : (s.modPart p f).locks = s.locks := by
  unfold State.modPart; cases s.part p <;> rfl
@[simp] theorem State.modPart_fabric (s : State) (p : Nat) (f : Part → Part) : (s.modPart p f).fabric = s.fabric := by
  unfold State.modPart; cases s.part p <;> rfl
@[simp] theorem State.modPart_streams (s : State) (p : Nat) (f : Part → Part) : (s.modPart p f).streams = s.streams := by
  unfold State.modPart; cases s.part p <;> rfl
@[simp] theorem State.modPart_frozen (s : State) (p : Nat) (f : Part → Part) : (s.modPart p f).frozen = s.frozen := by
  unfold State.modPart; cases s.part p <;> rfl
@[simp] theorem State.modPart_foreign (s : State) (p : Nat) (f : Part → Part) : (s.modPart p f).foreign = s.foreign := by
  unfold State.modPart; cases s.part p <;> rfl
@[simp] theorem State.modPart_deliveries (s : State) (p : Nat) (f : Part → Part) : (s.modPart p f).deliveries = s.deliveries := by
  unfold State.modPart; cases s.part p <;> rfl
@[simp] theorem State.modPart_arrivals (s : State) (p : Nat) (f : Part → Part) : (s.modPart p f).arrivals = s.arrivals := by
  unfold State.modPart; cases s.part p <;> rfl
@[simp] theorem State.modPart_sent (s : State) (p : Nat) (f : Part → Part) : (s.modPart p f).sent = s.sent := by
  unfold State.modPart; cases s.part p <;> rfl
@[simp] theorem State.modPart_hostWaits (s : State) (p : Nat) (f : Part → Part) : (s.modPart p f).hostWaits = s.hostWaits := by
  unfold State.modPart; cases s.part p <;> rfl
@[simp] theorem State.modPart_nextId (s : State) (p : Nat) (f : Part → Part) : (s.modPart p f).nextId = s.nextId := by
  unfold State.modPart; cases s.part p <;> rfl

@[simp] theorem State.modTeam_tick (s : State) (t : Nat) (f : Team → Team) : (s.modTeam t f).tick = s.tick := by
  unfold State.modTeam; cases s.team t <;> rfl
@[simp] theorem State.modTeam_clock (s : State) (t : Nat) (f : Team → Team) : (s.modTeam t f).clock = s.clock := by
  unfold State.modTeam; cases s.team t <;> rfl
@[simp] theorem State.modTeam_serial (s : State) (t : Nat) (f : Team → Team) : (s.modTeam t f).serial = s.serial := by
  unfold State.modTeam; cases s.team t <;> rfl
@[simp] theorem State.modTeam_cur (s : State) (t : Nat) (f : Team → Team) : (s.modTeam t f).cur = s.cur := by
  unfold State.modTeam; cases s.team t <;> rfl
@[simp] theorem State.modTeam_also (s : State) (t : Nat) (f : Team → Team) : (s.modTeam t f).also = s.also := by
  unfold State.modTeam; cases s.team t <;> rfl
@[simp] theorem State.modTeam_joint (s : State) (t : Nat) (f : Team → Team) : (s.modTeam t f).joint = s.joint := by
  unfold State.modTeam; cases s.team t <;> rfl
@[simp] theorem State.modTeam_turn (s : State) (t : Nat) (f : Team → Team) : (s.modTeam t f).turn = s.turn := by
  unfold State.modTeam; cases s.team t <;> rfl
@[simp] theorem State.modTeam_rota (s : State) (t : Nat) (f : Team → Team) : (s.modTeam t f).rota = s.rota := by
  unfold State.modTeam; cases s.team t <;> rfl
@[simp] theorem State.modTeam_inbox (s : State) (t : Nat) (f : Team → Team) : (s.modTeam t f).inbox = s.inbox := by
  unfold State.modTeam; cases s.team t <;> rfl
@[simp] theorem State.modTeam_pkg (s : State) (t : Nat) (f : Team → Team) : (s.modTeam t f).pkg = s.pkg := by
  unfold State.modTeam; cases s.team t <;> rfl
@[simp] theorem State.modTeam_parts (s : State) (t : Nat) (f : Team → Team) : (s.modTeam t f).parts = s.parts := by
  unfold State.modTeam; cases s.team t <;> rfl
@[simp] theorem State.modTeam_groups (s : State) (t : Nat) (f : Team → Team) : (s.modTeam t f).groups = s.groups := by
  unfold State.modTeam; cases s.team t <;> rfl
@[simp] theorem State.modTeam_grids (s : State) (t : Nat) (f : Team → Team) : (s.modTeam t f).grids = s.grids := by
  unfold State.modTeam; cases s.team t <;> rfl
@[simp] theorem State.modTeam_hands (s : State) (t : Nat) (f : Team → Team) : (s.modTeam t f).hands = s.hands := by
  unfold State.modTeam; cases s.team t <;> rfl
@[simp] theorem State.modTeam_latencyRuns (s : State) (t : Nat) (f : Team → Team) : (s.modTeam t f).latencyRuns = s.latencyRuns := by
  unfold State.modTeam; cases s.team t <;> rfl
@[simp] theorem State.modTeam_mem (s : State) (t : Nat) (f : Team → Team) : (s.modTeam t f).mem = s.mem := by
  unfold State.modTeam; cases s.team t <;> rfl
@[simp] theorem State.modTeam_spad (s : State) (t : Nat) (f : Team → Team) : (s.modTeam t f).spad = s.spad := by
  unfold State.modTeam; cases s.team t <;> rfl
@[simp] theorem State.modTeam_poison (s : State) (t : Nat) (f : Team → Team) : (s.modTeam t f).poison = s.poison := by
  unfold State.modTeam; cases s.team t <;> rfl
@[simp] theorem State.modTeam_spadPoison (s : State) (t : Nat) (f : Team → Team) : (s.modTeam t f).spadPoison = s.spadPoison := by
  unfold State.modTeam; cases s.team t <;> rfl
@[simp] theorem State.modTeam_dir (s : State) (t : Nat) (f : Team → Team) : (s.modTeam t f).dir = s.dir := by
  unfold State.modTeam; cases s.team t <;> rfl
@[simp] theorem State.modTeam_tlbs (s : State) (t : Nat) (f : Team → Team) : (s.modTeam t f).tlbs = s.tlbs := by
  unfold State.modTeam; cases s.team t <;> rfl
@[simp] theorem State.modTeam_dieTlbs (s : State) (t : Nat) (f : Team → Team) : (s.modTeam t f).dieTlbs = s.dieTlbs := by
  unfold State.modTeam; cases s.team t <;> rfl
@[simp] theorem State.modTeam_hist (s : State) (t : Nat) (f : Team → Team) : (s.modTeam t f).hist = s.hist := by
  unfold State.modTeam; cases s.team t <;> rfl
@[simp] theorem State.modTeam_pages (s : State) (t : Nat) (f : Team → Team) : (s.modTeam t f).pages = s.pages := by
  unfold State.modTeam; cases s.team t <;> rfl
@[simp] theorem State.modTeam_copies (s : State) (t : Nat) (f : Team → Team) : (s.modTeam t f).copies = s.copies := by
  unfold State.modTeam; cases s.team t <;> rfl
@[simp] theorem State.modTeam_locks (s : State) (t : Nat) (f : Team → Team) : (s.modTeam t f).locks = s.locks := by
  unfold State.modTeam; cases s.team t <;> rfl
@[simp] theorem State.modTeam_fabric (s : State) (t : Nat) (f : Team → Team) : (s.modTeam t f).fabric = s.fabric := by
  unfold State.modTeam; cases s.team t <;> rfl
@[simp] theorem State.modTeam_streams (s : State) (t : Nat) (f : Team → Team) : (s.modTeam t f).streams = s.streams := by
  unfold State.modTeam; cases s.team t <;> rfl
@[simp] theorem State.modTeam_frozen (s : State) (t : Nat) (f : Team → Team) : (s.modTeam t f).frozen = s.frozen := by
  unfold State.modTeam; cases s.team t <;> rfl
@[simp] theorem State.modTeam_foreign (s : State) (t : Nat) (f : Team → Team) : (s.modTeam t f).foreign = s.foreign := by
  unfold State.modTeam; cases s.team t <;> rfl
@[simp] theorem State.modTeam_deliveries (s : State) (t : Nat) (f : Team → Team) : (s.modTeam t f).deliveries = s.deliveries := by
  unfold State.modTeam; cases s.team t <;> rfl
@[simp] theorem State.modTeam_arrivals (s : State) (t : Nat) (f : Team → Team) : (s.modTeam t f).arrivals = s.arrivals := by
  unfold State.modTeam; cases s.team t <;> rfl
@[simp] theorem State.modTeam_sent (s : State) (t : Nat) (f : Team → Team) : (s.modTeam t f).sent = s.sent := by
  unfold State.modTeam; cases s.team t <;> rfl
@[simp] theorem State.modTeam_hostWaits (s : State) (t : Nat) (f : Team → Team) : (s.modTeam t f).hostWaits = s.hostWaits := by
  unfold State.modTeam; cases s.team t <;> rfl
@[simp] theorem State.modTeam_nextId (s : State) (t : Nat) (f : Team → Team) : (s.modTeam t f).nextId = s.nextId := by
  unfold State.modTeam; cases s.team t <;> rfl

@[simp] theorem State.modGrid_tick (s : State) (h : Nat) (f : Grid → Grid) : (s.modGrid h f).tick = s.tick := by
  unfold State.modGrid; cases tabGet s.grids h <;> rfl
@[simp] theorem State.modGrid_clock (s : State) (h : Nat) (f : Grid → Grid) : (s.modGrid h f).clock = s.clock := by
  unfold State.modGrid; cases tabGet s.grids h <;> rfl
@[simp] theorem State.modGrid_serial (s : State) (h : Nat) (f : Grid → Grid) : (s.modGrid h f).serial = s.serial := by
  unfold State.modGrid; cases tabGet s.grids h <;> rfl
@[simp] theorem State.modGrid_cur (s : State) (h : Nat) (f : Grid → Grid) : (s.modGrid h f).cur = s.cur := by
  unfold State.modGrid; cases tabGet s.grids h <;> rfl
@[simp] theorem State.modGrid_also (s : State) (h : Nat) (f : Grid → Grid) : (s.modGrid h f).also = s.also := by
  unfold State.modGrid; cases tabGet s.grids h <;> rfl
@[simp] theorem State.modGrid_joint (s : State) (h : Nat) (f : Grid → Grid) : (s.modGrid h f).joint = s.joint := by
  unfold State.modGrid; cases tabGet s.grids h <;> rfl
@[simp] theorem State.modGrid_turn (s : State) (h : Nat) (f : Grid → Grid) : (s.modGrid h f).turn = s.turn := by
  unfold State.modGrid; cases tabGet s.grids h <;> rfl
@[simp] theorem State.modGrid_rota (s : State) (h : Nat) (f : Grid → Grid) : (s.modGrid h f).rota = s.rota := by
  unfold State.modGrid; cases tabGet s.grids h <;> rfl
@[simp] theorem State.modGrid_inbox (s : State) (h : Nat) (f : Grid → Grid) : (s.modGrid h f).inbox = s.inbox := by
  unfold State.modGrid; cases tabGet s.grids h <;> rfl
@[simp] theorem State.modGrid_pkg (s : State) (h : Nat) (f : Grid → Grid) : (s.modGrid h f).pkg = s.pkg := by
  unfold State.modGrid; cases tabGet s.grids h <;> rfl
@[simp] theorem State.modGrid_parts (s : State) (h : Nat) (f : Grid → Grid) : (s.modGrid h f).parts = s.parts := by
  unfold State.modGrid; cases tabGet s.grids h <;> rfl
@[simp] theorem State.modGrid_groups (s : State) (h : Nat) (f : Grid → Grid) : (s.modGrid h f).groups = s.groups := by
  unfold State.modGrid; cases tabGet s.grids h <;> rfl
@[simp] theorem State.modGrid_teams (s : State) (h : Nat) (f : Grid → Grid) : (s.modGrid h f).teams = s.teams := by
  unfold State.modGrid; cases tabGet s.grids h <;> rfl
@[simp] theorem State.modGrid_hands (s : State) (h : Nat) (f : Grid → Grid) : (s.modGrid h f).hands = s.hands := by
  unfold State.modGrid; cases tabGet s.grids h <;> rfl
@[simp] theorem State.modGrid_latencyRuns (s : State) (h : Nat) (f : Grid → Grid) : (s.modGrid h f).latencyRuns = s.latencyRuns := by
  unfold State.modGrid; cases tabGet s.grids h <;> rfl
@[simp] theorem State.modGrid_mem (s : State) (h : Nat) (f : Grid → Grid) : (s.modGrid h f).mem = s.mem := by
  unfold State.modGrid; cases tabGet s.grids h <;> rfl
@[simp] theorem State.modGrid_spad (s : State) (h : Nat) (f : Grid → Grid) : (s.modGrid h f).spad = s.spad := by
  unfold State.modGrid; cases tabGet s.grids h <;> rfl
@[simp] theorem State.modGrid_poison (s : State) (h : Nat) (f : Grid → Grid) : (s.modGrid h f).poison = s.poison := by
  unfold State.modGrid; cases tabGet s.grids h <;> rfl
@[simp] theorem State.modGrid_spadPoison (s : State) (h : Nat) (f : Grid → Grid) : (s.modGrid h f).spadPoison = s.spadPoison := by
  unfold State.modGrid; cases tabGet s.grids h <;> rfl
@[simp] theorem State.modGrid_dir (s : State) (h : Nat) (f : Grid → Grid) : (s.modGrid h f).dir = s.dir := by
  unfold State.modGrid; cases tabGet s.grids h <;> rfl
@[simp] theorem State.modGrid_tlbs (s : State) (h : Nat) (f : Grid → Grid) : (s.modGrid h f).tlbs = s.tlbs := by
  unfold State.modGrid; cases tabGet s.grids h <;> rfl
@[simp] theorem State.modGrid_dieTlbs (s : State) (h : Nat) (f : Grid → Grid) : (s.modGrid h f).dieTlbs = s.dieTlbs := by
  unfold State.modGrid; cases tabGet s.grids h <;> rfl
@[simp] theorem State.modGrid_hist (s : State) (h : Nat) (f : Grid → Grid) : (s.modGrid h f).hist = s.hist := by
  unfold State.modGrid; cases tabGet s.grids h <;> rfl
@[simp] theorem State.modGrid_pages (s : State) (h : Nat) (f : Grid → Grid) : (s.modGrid h f).pages = s.pages := by
  unfold State.modGrid; cases tabGet s.grids h <;> rfl
@[simp] theorem State.modGrid_copies (s : State) (h : Nat) (f : Grid → Grid) : (s.modGrid h f).copies = s.copies := by
  unfold State.modGrid; cases tabGet s.grids h <;> rfl
@[simp] theorem State.modGrid_locks (s : State) (h : Nat) (f : Grid → Grid) : (s.modGrid h f).locks = s.locks := by
  unfold State.modGrid; cases tabGet s.grids h <;> rfl
@[simp] theorem State.modGrid_fabric (s : State) (h : Nat) (f : Grid → Grid) : (s.modGrid h f).fabric = s.fabric := by
  unfold State.modGrid; cases tabGet s.grids h <;> rfl
@[simp] theorem State.modGrid_streams (s : State) (h : Nat) (f : Grid → Grid) : (s.modGrid h f).streams = s.streams := by
  unfold State.modGrid; cases tabGet s.grids h <;> rfl
@[simp] theorem State.modGrid_frozen (s : State) (h : Nat) (f : Grid → Grid) : (s.modGrid h f).frozen = s.frozen := by
  unfold State.modGrid; cases tabGet s.grids h <;> rfl
@[simp] theorem State.modGrid_foreign (s : State) (h : Nat) (f : Grid → Grid) : (s.modGrid h f).foreign = s.foreign := by
  unfold State.modGrid; cases tabGet s.grids h <;> rfl
@[simp] theorem State.modGrid_deliveries (s : State) (h : Nat) (f : Grid → Grid) : (s.modGrid h f).deliveries = s.deliveries := by
  unfold State.modGrid; cases tabGet s.grids h <;> rfl
@[simp] theorem State.modGrid_arrivals (s : State) (h : Nat) (f : Grid → Grid) : (s.modGrid h f).arrivals = s.arrivals := by
  unfold State.modGrid; cases tabGet s.grids h <;> rfl
@[simp] theorem State.modGrid_sent (s : State) (h : Nat) (f : Grid → Grid) : (s.modGrid h f).sent = s.sent := by
  unfold State.modGrid; cases tabGet s.grids h <;> rfl
@[simp] theorem State.modGrid_hostWaits (s : State) (h : Nat) (f : Grid → Grid) : (s.modGrid h f).hostWaits = s.hostWaits := by
  unfold State.modGrid; cases tabGet s.grids h <;> rfl
@[simp] theorem State.modGrid_nextId (s : State) (h : Nat) (f : Grid → Grid) : (s.modGrid h f).nextId = s.nextId := by
  unfold State.modGrid; cases tabGet s.grids h <;> rfl

@[simp] theorem Group.setVreg_part (g : Group) (r i : Nat) (x : Word) : (g.setVreg r i x).part = g.part := rfl
@[simp] theorem Group.setVreg_team (g : Group) (r i : Nat) (x : Word) : (g.setVreg r i x).team = g.team := rfl
@[simp] theorem Group.setVreg_index (g : Group) (r i : Nat) (x : Word) : (g.setVreg r i x).index = g.index := rfl
@[simp] theorem Group.setVreg_role (g : Group) (r i : Nat) (x : Word) : (g.setVreg r i x).role = g.role := rfl
@[simp] theorem Group.setVreg_width (g : Group) (r i : Nat) (x : Word) : (g.setVreg r i x).width = g.width := rfl
@[simp] theorem Group.setVreg_latency (g : Group) (r i : Nat) (x : Word) : (g.setVreg r i x).latency = g.latency := rfl
@[simp] theorem Group.setVreg_issueSlot (g : Group) (r i : Nat) (x : Word) : (g.setVreg r i x).issueSlot = g.issueSlot := rfl
@[simp] theorem Group.setVreg_lanePos (g : Group) (r i : Nat) (x : Word) : (g.setVreg r i x).lanePos = g.lanePos := rfl
@[simp] theorem Group.setVreg_vAlloc (g : Group) (r i : Nat) (x : Word) : (g.setVreg r i x).vAlloc = g.vAlloc := rfl
@[simp] theorem Group.setVreg_sAlloc (g : Group) (r i : Nat) (x : Word) : (g.setVreg r i x).sAlloc = g.sAlloc := rfl
@[simp] theorem Group.setVreg_tAlloc (g : Group) (r i : Nat) (x : Word) : (g.setVreg r i x).tAlloc = g.tAlloc := rfl
@[simp] theorem Group.setVreg_aAlloc (g : Group) (r i : Nat) (x : Word) : (g.setVreg r i x).aAlloc = g.aAlloc := rfl
@[simp] theorem Group.setVreg_text (g : Group) (r i : Nat) (x : Word) : (g.setVreg r i x).text = g.text := rfl
@[simp] theorem Group.setVreg_liveset (g : Group) (r i : Nat) (x : Word) : (g.setVreg r i x).liveset = g.liveset := rfl
@[simp] theorem Group.setVreg_liveCount (g : Group) (r i : Nat) (x : Word) : (g.setVreg r i x).liveCount = g.liveCount := rfl
@[simp] theorem Group.setVreg_data (g : Group) (r i : Nat) (x : Word) : (g.setVreg r i x).data = g.data := rfl
@[simp] theorem Group.setVreg_gridId (g : Group) (r i : Nat) (x : Word) : (g.setVreg r i x).gridId = g.gridId := rfl
@[simp] theorem Group.setVreg_depth (g : Group) (r i : Nat) (x : Word) : (g.setVreg r i x).depth = g.depth := rfl
@[simp] theorem Group.setVreg_teamX (g : Group) (r i : Nat) (x : Word) : (g.setVreg r i x).teamX = g.teamX := rfl
@[simp] theorem Group.setVreg_teamY (g : Group) (r i : Nat) (x : Word) : (g.setVreg r i x).teamY = g.teamY := rfl
@[simp] theorem Group.setVreg_teamZ (g : Group) (r i : Nat) (x : Word) : (g.setVreg r i x).teamZ = g.teamZ := rfl
@[simp] theorem Group.setVreg_vregs (g : Group) (r i : Nat) (x : Word) : (g.setVreg r i x).vregs = smapPut 0 g.vregs (64 * r + i) x := rfl
@[simp] theorem Group.setVreg_sregs (g : Group) (r i : Nat) (x : Word) : (g.setVreg r i x).sregs = g.sregs := rfl
@[simp] theorem Group.setVreg_preds (g : Group) (r i : Nat) (x : Word) : (g.setVreg r i x).preds = g.preds := rfl
@[simp] theorem Group.setVreg_tiles (g : Group) (r i : Nat) (x : Word) : (g.setVreg r i x).tiles = g.tiles := rfl
@[simp] theorem Group.setVreg_accs (g : Group) (r i : Nat) (x : Word) : (g.setVreg r i x).accs = g.accs := rfl
@[simp] theorem Group.setVreg_amax (g : Group) (r i : Nat) (x : Word) : (g.setVreg r i x).amax = g.amax := rfl
@[simp] theorem Group.setVreg_mode (g : Group) (r i : Nat) (x : Word) : (g.setVreg r i x).mode = g.mode := rfl
@[simp] theorem Group.setVreg_scc (g : Group) (r i : Nat) (x : Word) : (g.setVreg r i x).scc = g.scc := rfl
@[simp] theorem Group.setVreg_flags (g : Group) (r i : Nat) (x : Word) : (g.setVreg r i x).flags = g.flags := rfl
@[simp] theorem Group.setVreg_sig (g : Group) (r i : Nat) (x : Word) : (g.setVreg r i x).sig = g.sig := rfl
@[simp] theorem Group.setVreg_msig (g : Group) (r i : Nat) (x : Word) : (g.setVreg r i x).msig = g.msig := rfl
@[simp] theorem Group.setVreg_lscale (g : Group) (r i : Nat) (x : Word) : (g.setVreg r i x).lscale = g.lscale := rfl
@[simp] theorem Group.setVreg_ovf (g : Group) (r i : Nat) (x : Word) : (g.setVreg r i x).ovf = g.ovf := rfl
@[simp] theorem Group.setVreg_ovtab (g : Group) (r i : Nat) (x : Word) : (g.setVreg r i x).ovtab = g.ovtab := rfl
@[simp] theorem Group.setVreg_amaxSel (g : Group) (r i : Nat) (x : Word) : (g.setVreg r i x).amaxSel = g.amaxSel := rfl
@[simp] theorem Group.setVreg_readLatch (g : Group) (r i : Nat) (x : Word) : (g.setVreg r i x).readLatch = g.readLatch := rfl
@[simp] theorem Group.setVreg_timeWrite (g : Group) (r i : Nat) (x : Word) : (g.setVreg r i x).timeWrite = g.timeWrite := rfl
@[simp] theorem Group.setVreg_tcause (g : Group) (r i : Nat) (x : Word) : (g.setVreg r i x).tcause = g.tcause := rfl
@[simp] theorem Group.setVreg_tpc (g : Group) (r i : Nat) (x : Word) : (g.setVreg r i x).tpc = g.tpc := rfl
@[simp] theorem Group.setVreg_tval (g : Group) (r i : Nat) (x : Word) : (g.setVreg r i x).tval = g.tval := rfl
@[simp] theorem Group.setVreg_tmask (g : Group) (r i : Nat) (x : Word) : (g.setVreg r i x).tmask = g.tmask := rfl
@[simp] theorem Group.setVreg_hwdog (g : Group) (r i : Nat) (x : Word) : (g.setVreg r i x).hwdog = g.hwdog := rfl
@[simp] theorem Group.setVreg_cnt (g : Group) (r i : Nat) (x : Word) : (g.setVreg r i x).cnt = g.cnt := rfl
@[simp] theorem Group.setVreg_armed (g : Group) (r i : Nat) (x : Word) : (g.setVreg r i x).armed = g.armed := rfl
@[simp] theorem Group.setVreg_safeCount (g : Group) (r i : Nat) (x : Word) : (g.setVreg r i x).safeCount = g.safeCount := rfl
@[simp] theorem Group.setVreg_nominal (g : Group) (r i : Nat) (x : Word) : (g.setVreg r i x).nominal = g.nominal := rfl
@[simp] theorem Group.setVreg_producers (g : Group) (r i : Nat) (x : Word) : (g.setVreg r i x).producers = g.producers := rfl
@[simp] theorem Group.setVreg_stallUntil (g : Group) (r i : Nat) (x : Word) : (g.setVreg r i x).stallUntil = g.stallUntil := rfl
@[simp] theorem Group.setVreg_lastIssue (g : Group) (r i : Nat) (x : Word) : (g.setVreg r i x).lastIssue = g.lastIssue := rfl
@[simp] theorem Group.setVreg_issuesInTurn (g : Group) (r i : Nat) (x : Word) : (g.setVreg r i x).issuesInTurn = g.issuesInTurn := rfl
@[simp] theorem Group.setVreg_workSet (g : Group) (r i : Nat) (x : Word) : (g.setVreg r i x).workSet = g.workSet := rfl
@[simp] theorem Group.setVreg_splits (g : Group) (r i : Nat) (x : Word) : (g.setVreg r i x).splits = g.splits := rfl
@[simp] theorem Group.setVreg_exited (g : Group) (r i : Nat) (x : Word) : (g.setVreg r i x).exited = g.exited := rfl
@[simp] theorem Group.setVreg_handler (g : Group) (r i : Nat) (x : Word) : (g.setVreg r i x).handler = g.handler := rfl
@[simp] theorem Group.setVreg_parked (g : Group) (r i : Nat) (x : Word) : (g.setVreg r i x).parked = g.parked := rfl
@[simp] theorem Group.setVreg_blockedSince (g : Group) (r i : Nat) (x : Word) : (g.setVreg r i x).blockedSince = g.blockedSince := rfl
@[simp] theorem Group.setVreg_residency (g : Group) (r i : Nat) (x : Word) : (g.setVreg r i x).residency = g.residency := rfl
@[simp] theorem Group.setVreg_pend (g : Group) (r i : Nat) (x : Word) : (g.setVreg r i x).pend = g.pend := rfl
@[simp] theorem Group.setVreg_matq (g : Group) (r i : Nat) (x : Word) : (g.setVreg r i x).matq = g.matq := rfl
@[simp] theorem Group.setVreg_tag (g : Group) (r i : Nat) (x : Word) : (g.setVreg r i x).tag = g.tag := rfl
@[simp] theorem Group.setVreg_seat (g : Group) (r i : Nat) (x : Word) : (g.setVreg r i x).seat = g.seat := rfl
@[simp] theorem Group.setVreg_holds (g : Group) (r i : Nat) (x : Word) : (g.setVreg r i x).holds = g.holds := rfl
@[simp] theorem Group.setVreg_streamSlot (g : Group) (r i : Nat) (x : Word) : (g.setVreg r i x).streamSlot = g.streamSlot := rfl
@[simp] theorem Group.setVreg_poisoned (g : Group) (r i : Nat) (x : Word) : (g.setVreg r i x).poisoned = g.poisoned := rfl
@[simp] theorem Group.setVreg_bad (g : Group) (r i : Nat) (x : Word) : (g.setVreg r i x).bad = g.bad := rfl
@[simp] theorem Group.setVreg_lastPc (g : Group) (r i : Nat) (x : Word) : (g.setVreg r i x).lastPc = g.lastPc := rfl
@[simp] theorem Group.setVreg_lastPages (g : Group) (r i : Nat) (x : Word) : (g.setVreg r i x).lastPages = g.lastPages := rfl
@[simp] theorem Group.setVreg_syncAt (g : Group) (r i : Nat) (x : Word) : (g.setVreg r i x).syncAt = g.syncAt := rfl
@[simp] theorem Group.setVreg_kitty (g : Group) (r i : Nat) (x : Word) : (g.setVreg r i x).kitty = g.kitty := rfl
@[simp] theorem Group.setVreg_frameCopy (g : Group) (r i : Nat) (x : Word) : (g.setVreg r i x).frameCopy = g.frameCopy := rfl

@[simp] theorem Group.setAcc_part (g : Group) (a : Nat) (h : Bool) (k : Nat) (x : Word) : (g.setAcc a h k x).part = g.part := rfl
@[simp] theorem Group.setAcc_team (g : Group) (a : Nat) (h : Bool) (k : Nat) (x : Word) : (g.setAcc a h k x).team = g.team := rfl
@[simp] theorem Group.setAcc_index (g : Group) (a : Nat) (h : Bool) (k : Nat) (x : Word) : (g.setAcc a h k x).index = g.index := rfl
@[simp] theorem Group.setAcc_role (g : Group) (a : Nat) (h : Bool) (k : Nat) (x : Word) : (g.setAcc a h k x).role = g.role := rfl
@[simp] theorem Group.setAcc_width (g : Group) (a : Nat) (h : Bool) (k : Nat) (x : Word) : (g.setAcc a h k x).width = g.width := rfl
@[simp] theorem Group.setAcc_latency (g : Group) (a : Nat) (h : Bool) (k : Nat) (x : Word) : (g.setAcc a h k x).latency = g.latency := rfl
@[simp] theorem Group.setAcc_issueSlot (g : Group) (a : Nat) (h : Bool) (k : Nat) (x : Word) : (g.setAcc a h k x).issueSlot = g.issueSlot := rfl
@[simp] theorem Group.setAcc_lanePos (g : Group) (a : Nat) (h : Bool) (k : Nat) (x : Word) : (g.setAcc a h k x).lanePos = g.lanePos := rfl
@[simp] theorem Group.setAcc_vAlloc (g : Group) (a : Nat) (h : Bool) (k : Nat) (x : Word) : (g.setAcc a h k x).vAlloc = g.vAlloc := rfl
@[simp] theorem Group.setAcc_sAlloc (g : Group) (a : Nat) (h : Bool) (k : Nat) (x : Word) : (g.setAcc a h k x).sAlloc = g.sAlloc := rfl
@[simp] theorem Group.setAcc_tAlloc (g : Group) (a : Nat) (h : Bool) (k : Nat) (x : Word) : (g.setAcc a h k x).tAlloc = g.tAlloc := rfl
@[simp] theorem Group.setAcc_aAlloc (g : Group) (a : Nat) (h : Bool) (k : Nat) (x : Word) : (g.setAcc a h k x).aAlloc = g.aAlloc := rfl
@[simp] theorem Group.setAcc_text (g : Group) (a : Nat) (h : Bool) (k : Nat) (x : Word) : (g.setAcc a h k x).text = g.text := rfl
@[simp] theorem Group.setAcc_liveset (g : Group) (a : Nat) (h : Bool) (k : Nat) (x : Word) : (g.setAcc a h k x).liveset = g.liveset := rfl
@[simp] theorem Group.setAcc_liveCount (g : Group) (a : Nat) (h : Bool) (k : Nat) (x : Word) : (g.setAcc a h k x).liveCount = g.liveCount := rfl
@[simp] theorem Group.setAcc_data (g : Group) (a : Nat) (h : Bool) (k : Nat) (x : Word) : (g.setAcc a h k x).data = g.data := rfl
@[simp] theorem Group.setAcc_gridId (g : Group) (a : Nat) (h : Bool) (k : Nat) (x : Word) : (g.setAcc a h k x).gridId = g.gridId := rfl
@[simp] theorem Group.setAcc_depth (g : Group) (a : Nat) (h : Bool) (k : Nat) (x : Word) : (g.setAcc a h k x).depth = g.depth := rfl
@[simp] theorem Group.setAcc_teamX (g : Group) (a : Nat) (h : Bool) (k : Nat) (x : Word) : (g.setAcc a h k x).teamX = g.teamX := rfl
@[simp] theorem Group.setAcc_teamY (g : Group) (a : Nat) (h : Bool) (k : Nat) (x : Word) : (g.setAcc a h k x).teamY = g.teamY := rfl
@[simp] theorem Group.setAcc_teamZ (g : Group) (a : Nat) (h : Bool) (k : Nat) (x : Word) : (g.setAcc a h k x).teamZ = g.teamZ := rfl
@[simp] theorem Group.setAcc_vregs (g : Group) (a : Nat) (h : Bool) (k : Nat) (x : Word) : (g.setAcc a h k x).vregs = g.vregs := rfl
@[simp] theorem Group.setAcc_sregs (g : Group) (a : Nat) (h : Bool) (k : Nat) (x : Word) : (g.setAcc a h k x).sregs = g.sregs := rfl
@[simp] theorem Group.setAcc_preds (g : Group) (a : Nat) (h : Bool) (k : Nat) (x : Word) : (g.setAcc a h k x).preds = g.preds := rfl
@[simp] theorem Group.setAcc_tiles (g : Group) (a : Nat) (h : Bool) (k : Nat) (x : Word) : (g.setAcc a h k x).tiles = g.tiles := rfl
@[simp] theorem Group.setAcc_amax (g : Group) (a : Nat) (h : Bool) (k : Nat) (x : Word) : (g.setAcc a h k x).amax = g.amax := rfl
@[simp] theorem Group.setAcc_mode (g : Group) (a : Nat) (h : Bool) (k : Nat) (x : Word) : (g.setAcc a h k x).mode = g.mode := rfl
@[simp] theorem Group.setAcc_scc (g : Group) (a : Nat) (h : Bool) (k : Nat) (x : Word) : (g.setAcc a h k x).scc = g.scc := rfl
@[simp] theorem Group.setAcc_flags (g : Group) (a : Nat) (h : Bool) (k : Nat) (x : Word) : (g.setAcc a h k x).flags = g.flags := rfl
@[simp] theorem Group.setAcc_sig (g : Group) (a : Nat) (h : Bool) (k : Nat) (x : Word) : (g.setAcc a h k x).sig = g.sig := rfl
@[simp] theorem Group.setAcc_msig (g : Group) (a : Nat) (h : Bool) (k : Nat) (x : Word) : (g.setAcc a h k x).msig = g.msig := rfl
@[simp] theorem Group.setAcc_lscale (g : Group) (a : Nat) (h : Bool) (k : Nat) (x : Word) : (g.setAcc a h k x).lscale = g.lscale := rfl
@[simp] theorem Group.setAcc_ovf (g : Group) (a : Nat) (h : Bool) (k : Nat) (x : Word) : (g.setAcc a h k x).ovf = g.ovf := rfl
@[simp] theorem Group.setAcc_ovtab (g : Group) (a : Nat) (h : Bool) (k : Nat) (x : Word) : (g.setAcc a h k x).ovtab = g.ovtab := rfl
@[simp] theorem Group.setAcc_amaxSel (g : Group) (a : Nat) (h : Bool) (k : Nat) (x : Word) : (g.setAcc a h k x).amaxSel = g.amaxSel := rfl
@[simp] theorem Group.setAcc_readLatch (g : Group) (a : Nat) (h : Bool) (k : Nat) (x : Word) : (g.setAcc a h k x).readLatch = g.readLatch := rfl
@[simp] theorem Group.setAcc_timeWrite (g : Group) (a : Nat) (h : Bool) (k : Nat) (x : Word) : (g.setAcc a h k x).timeWrite = g.timeWrite := rfl
@[simp] theorem Group.setAcc_tcause (g : Group) (a : Nat) (h : Bool) (k : Nat) (x : Word) : (g.setAcc a h k x).tcause = g.tcause := rfl
@[simp] theorem Group.setAcc_tpc (g : Group) (a : Nat) (h : Bool) (k : Nat) (x : Word) : (g.setAcc a h k x).tpc = g.tpc := rfl
@[simp] theorem Group.setAcc_tval (g : Group) (a : Nat) (h : Bool) (k : Nat) (x : Word) : (g.setAcc a h k x).tval = g.tval := rfl
@[simp] theorem Group.setAcc_tmask (g : Group) (a : Nat) (h : Bool) (k : Nat) (x : Word) : (g.setAcc a h k x).tmask = g.tmask := rfl
@[simp] theorem Group.setAcc_hwdog (g : Group) (a : Nat) (h : Bool) (k : Nat) (x : Word) : (g.setAcc a h k x).hwdog = g.hwdog := rfl
@[simp] theorem Group.setAcc_cnt (g : Group) (a : Nat) (h : Bool) (k : Nat) (x : Word) : (g.setAcc a h k x).cnt = g.cnt := rfl
@[simp] theorem Group.setAcc_armed (g : Group) (a : Nat) (h : Bool) (k : Nat) (x : Word) : (g.setAcc a h k x).armed = g.armed := rfl
@[simp] theorem Group.setAcc_safeCount (g : Group) (a : Nat) (h : Bool) (k : Nat) (x : Word) : (g.setAcc a h k x).safeCount = g.safeCount := rfl
@[simp] theorem Group.setAcc_nominal (g : Group) (a : Nat) (h : Bool) (k : Nat) (x : Word) : (g.setAcc a h k x).nominal = g.nominal := rfl
@[simp] theorem Group.setAcc_producers (g : Group) (a : Nat) (h : Bool) (k : Nat) (x : Word) : (g.setAcc a h k x).producers = g.producers := rfl
@[simp] theorem Group.setAcc_stallUntil (g : Group) (a : Nat) (h : Bool) (k : Nat) (x : Word) : (g.setAcc a h k x).stallUntil = g.stallUntil := rfl
@[simp] theorem Group.setAcc_lastIssue (g : Group) (a : Nat) (h : Bool) (k : Nat) (x : Word) : (g.setAcc a h k x).lastIssue = g.lastIssue := rfl
@[simp] theorem Group.setAcc_issuesInTurn (g : Group) (a : Nat) (h : Bool) (k : Nat) (x : Word) : (g.setAcc a h k x).issuesInTurn = g.issuesInTurn := rfl
@[simp] theorem Group.setAcc_workSet (g : Group) (a : Nat) (h : Bool) (k : Nat) (x : Word) : (g.setAcc a h k x).workSet = g.workSet := rfl
@[simp] theorem Group.setAcc_splits (g : Group) (a : Nat) (h : Bool) (k : Nat) (x : Word) : (g.setAcc a h k x).splits = g.splits := rfl
@[simp] theorem Group.setAcc_exited (g : Group) (a : Nat) (h : Bool) (k : Nat) (x : Word) : (g.setAcc a h k x).exited = g.exited := rfl
@[simp] theorem Group.setAcc_handler (g : Group) (a : Nat) (h : Bool) (k : Nat) (x : Word) : (g.setAcc a h k x).handler = g.handler := rfl
@[simp] theorem Group.setAcc_parked (g : Group) (a : Nat) (h : Bool) (k : Nat) (x : Word) : (g.setAcc a h k x).parked = g.parked := rfl
@[simp] theorem Group.setAcc_blockedSince (g : Group) (a : Nat) (h : Bool) (k : Nat) (x : Word) : (g.setAcc a h k x).blockedSince = g.blockedSince := rfl
@[simp] theorem Group.setAcc_residency (g : Group) (a : Nat) (h : Bool) (k : Nat) (x : Word) : (g.setAcc a h k x).residency = g.residency := rfl
@[simp] theorem Group.setAcc_pend (g : Group) (a : Nat) (h : Bool) (k : Nat) (x : Word) : (g.setAcc a h k x).pend = g.pend := rfl
@[simp] theorem Group.setAcc_matq (g : Group) (a : Nat) (h : Bool) (k : Nat) (x : Word) : (g.setAcc a h k x).matq = g.matq := rfl
@[simp] theorem Group.setAcc_tag (g : Group) (a : Nat) (h : Bool) (k : Nat) (x : Word) : (g.setAcc a h k x).tag = g.tag := rfl
@[simp] theorem Group.setAcc_seat (g : Group) (a : Nat) (h : Bool) (k : Nat) (x : Word) : (g.setAcc a h k x).seat = g.seat := rfl
@[simp] theorem Group.setAcc_holds (g : Group) (a : Nat) (h : Bool) (k : Nat) (x : Word) : (g.setAcc a h k x).holds = g.holds := rfl
@[simp] theorem Group.setAcc_streamSlot (g : Group) (a : Nat) (h : Bool) (k : Nat) (x : Word) : (g.setAcc a h k x).streamSlot = g.streamSlot := rfl
@[simp] theorem Group.setAcc_poisoned (g : Group) (a : Nat) (h : Bool) (k : Nat) (x : Word) : (g.setAcc a h k x).poisoned = g.poisoned := rfl
@[simp] theorem Group.setAcc_bad (g : Group) (a : Nat) (h : Bool) (k : Nat) (x : Word) : (g.setAcc a h k x).bad = g.bad := rfl
@[simp] theorem Group.setAcc_lastPc (g : Group) (a : Nat) (h : Bool) (k : Nat) (x : Word) : (g.setAcc a h k x).lastPc = g.lastPc := rfl
@[simp] theorem Group.setAcc_lastPages (g : Group) (a : Nat) (h : Bool) (k : Nat) (x : Word) : (g.setAcc a h k x).lastPages = g.lastPages := rfl
@[simp] theorem Group.setAcc_syncAt (g : Group) (a : Nat) (h : Bool) (k : Nat) (x : Word) : (g.setAcc a h k x).syncAt = g.syncAt := rfl
@[simp] theorem Group.setAcc_kitty (g : Group) (a : Nat) (h : Bool) (k : Nat) (x : Word) : (g.setAcc a h k x).kitty = g.kitty := rfl
@[simp] theorem Group.setAcc_frameCopy (g : Group) (a : Nat) (h : Bool) (k : Nat) (x : Word) : (g.setAcc a h k x).frameCopy = g.frameCopy := rfl

@[simp] theorem Group.countUp_part (g : Group) (k : Nat) : (g.countUp k).part = g.part := rfl
@[simp] theorem Group.countUp_team (g : Group) (k : Nat) : (g.countUp k).team = g.team := rfl
@[simp] theorem Group.countUp_index (g : Group) (k : Nat) : (g.countUp k).index = g.index := rfl
@[simp] theorem Group.countUp_role (g : Group) (k : Nat) : (g.countUp k).role = g.role := rfl
@[simp] theorem Group.countUp_width (g : Group) (k : Nat) : (g.countUp k).width = g.width := rfl
@[simp] theorem Group.countUp_latency (g : Group) (k : Nat) : (g.countUp k).latency = g.latency := rfl
@[simp] theorem Group.countUp_issueSlot (g : Group) (k : Nat) : (g.countUp k).issueSlot = g.issueSlot := rfl
@[simp] theorem Group.countUp_lanePos (g : Group) (k : Nat) : (g.countUp k).lanePos = g.lanePos := rfl
@[simp] theorem Group.countUp_vAlloc (g : Group) (k : Nat) : (g.countUp k).vAlloc = g.vAlloc := rfl
@[simp] theorem Group.countUp_sAlloc (g : Group) (k : Nat) : (g.countUp k).sAlloc = g.sAlloc := rfl
@[simp] theorem Group.countUp_tAlloc (g : Group) (k : Nat) : (g.countUp k).tAlloc = g.tAlloc := rfl
@[simp] theorem Group.countUp_aAlloc (g : Group) (k : Nat) : (g.countUp k).aAlloc = g.aAlloc := rfl
@[simp] theorem Group.countUp_text (g : Group) (k : Nat) : (g.countUp k).text = g.text := rfl
@[simp] theorem Group.countUp_liveset (g : Group) (k : Nat) : (g.countUp k).liveset = g.liveset := rfl
@[simp] theorem Group.countUp_liveCount (g : Group) (k : Nat) : (g.countUp k).liveCount = g.liveCount := rfl
@[simp] theorem Group.countUp_data (g : Group) (k : Nat) : (g.countUp k).data = g.data := rfl
@[simp] theorem Group.countUp_gridId (g : Group) (k : Nat) : (g.countUp k).gridId = g.gridId := rfl
@[simp] theorem Group.countUp_depth (g : Group) (k : Nat) : (g.countUp k).depth = g.depth := rfl
@[simp] theorem Group.countUp_teamX (g : Group) (k : Nat) : (g.countUp k).teamX = g.teamX := rfl
@[simp] theorem Group.countUp_teamY (g : Group) (k : Nat) : (g.countUp k).teamY = g.teamY := rfl
@[simp] theorem Group.countUp_teamZ (g : Group) (k : Nat) : (g.countUp k).teamZ = g.teamZ := rfl
@[simp] theorem Group.countUp_vregs (g : Group) (k : Nat) : (g.countUp k).vregs = g.vregs := rfl
@[simp] theorem Group.countUp_sregs (g : Group) (k : Nat) : (g.countUp k).sregs = g.sregs := rfl
@[simp] theorem Group.countUp_preds (g : Group) (k : Nat) : (g.countUp k).preds = g.preds := rfl
@[simp] theorem Group.countUp_tiles (g : Group) (k : Nat) : (g.countUp k).tiles = g.tiles := rfl
@[simp] theorem Group.countUp_accs (g : Group) (k : Nat) : (g.countUp k).accs = g.accs := rfl
@[simp] theorem Group.countUp_amax (g : Group) (k : Nat) : (g.countUp k).amax = g.amax := rfl
@[simp] theorem Group.countUp_mode (g : Group) (k : Nat) : (g.countUp k).mode = g.mode := rfl
@[simp] theorem Group.countUp_scc (g : Group) (k : Nat) : (g.countUp k).scc = g.scc := rfl
@[simp] theorem Group.countUp_flags (g : Group) (k : Nat) : (g.countUp k).flags = g.flags := rfl
@[simp] theorem Group.countUp_sig (g : Group) (k : Nat) : (g.countUp k).sig = g.sig := rfl
@[simp] theorem Group.countUp_msig (g : Group) (k : Nat) : (g.countUp k).msig = g.msig := rfl
@[simp] theorem Group.countUp_lscale (g : Group) (k : Nat) : (g.countUp k).lscale = g.lscale := rfl
@[simp] theorem Group.countUp_ovf (g : Group) (k : Nat) : (g.countUp k).ovf = g.ovf := rfl
@[simp] theorem Group.countUp_ovtab (g : Group) (k : Nat) : (g.countUp k).ovtab = g.ovtab := rfl
@[simp] theorem Group.countUp_amaxSel (g : Group) (k : Nat) : (g.countUp k).amaxSel = g.amaxSel := rfl
@[simp] theorem Group.countUp_readLatch (g : Group) (k : Nat) : (g.countUp k).readLatch = g.readLatch := rfl
@[simp] theorem Group.countUp_timeWrite (g : Group) (k : Nat) : (g.countUp k).timeWrite = g.timeWrite := rfl
@[simp] theorem Group.countUp_tcause (g : Group) (k : Nat) : (g.countUp k).tcause = g.tcause := rfl
@[simp] theorem Group.countUp_tpc (g : Group) (k : Nat) : (g.countUp k).tpc = g.tpc := rfl
@[simp] theorem Group.countUp_tval (g : Group) (k : Nat) : (g.countUp k).tval = g.tval := rfl
@[simp] theorem Group.countUp_tmask (g : Group) (k : Nat) : (g.countUp k).tmask = g.tmask := rfl
@[simp] theorem Group.countUp_hwdog (g : Group) (k : Nat) : (g.countUp k).hwdog = g.hwdog := rfl
@[simp] theorem Group.countUp_cnt (g : Group) (k : Nat) : (g.countUp k).cnt = g.cnt.set k (g.cnt.get k + 1) := rfl
@[simp] theorem Group.countUp_armed (g : Group) (k : Nat) : (g.countUp k).armed = g.armed := rfl
@[simp] theorem Group.countUp_safeCount (g : Group) (k : Nat) : (g.countUp k).safeCount = g.safeCount := rfl
@[simp] theorem Group.countUp_nominal (g : Group) (k : Nat) : (g.countUp k).nominal = g.nominal := rfl
@[simp] theorem Group.countUp_producers (g : Group) (k : Nat) : (g.countUp k).producers = g.producers := rfl
@[simp] theorem Group.countUp_stallUntil (g : Group) (k : Nat) : (g.countUp k).stallUntil = g.stallUntil := rfl
@[simp] theorem Group.countUp_lastIssue (g : Group) (k : Nat) : (g.countUp k).lastIssue = g.lastIssue := rfl
@[simp] theorem Group.countUp_issuesInTurn (g : Group) (k : Nat) : (g.countUp k).issuesInTurn = g.issuesInTurn := rfl
@[simp] theorem Group.countUp_workSet (g : Group) (k : Nat) : (g.countUp k).workSet = g.workSet := rfl
@[simp] theorem Group.countUp_splits (g : Group) (k : Nat) : (g.countUp k).splits = g.splits := rfl
@[simp] theorem Group.countUp_exited (g : Group) (k : Nat) : (g.countUp k).exited = g.exited := rfl
@[simp] theorem Group.countUp_handler (g : Group) (k : Nat) : (g.countUp k).handler = g.handler := rfl
@[simp] theorem Group.countUp_parked (g : Group) (k : Nat) : (g.countUp k).parked = g.parked := rfl
@[simp] theorem Group.countUp_blockedSince (g : Group) (k : Nat) : (g.countUp k).blockedSince = g.blockedSince := rfl
@[simp] theorem Group.countUp_residency (g : Group) (k : Nat) : (g.countUp k).residency = g.residency := rfl
@[simp] theorem Group.countUp_pend (g : Group) (k : Nat) : (g.countUp k).pend = g.pend := rfl
@[simp] theorem Group.countUp_matq (g : Group) (k : Nat) : (g.countUp k).matq = g.matq := rfl
@[simp] theorem Group.countUp_tag (g : Group) (k : Nat) : (g.countUp k).tag = g.tag := rfl
@[simp] theorem Group.countUp_seat (g : Group) (k : Nat) : (g.countUp k).seat = g.seat := rfl
@[simp] theorem Group.countUp_holds (g : Group) (k : Nat) : (g.countUp k).holds = g.holds := rfl
@[simp] theorem Group.countUp_streamSlot (g : Group) (k : Nat) : (g.countUp k).streamSlot = g.streamSlot := rfl
@[simp] theorem Group.countUp_poisoned (g : Group) (k : Nat) : (g.countUp k).poisoned = g.poisoned := rfl
@[simp] theorem Group.countUp_bad (g : Group) (k : Nat) : (g.countUp k).bad = g.bad := rfl
@[simp] theorem Group.countUp_lastPc (g : Group) (k : Nat) : (g.countUp k).lastPc = g.lastPc := rfl
@[simp] theorem Group.countUp_lastPages (g : Group) (k : Nat) : (g.countUp k).lastPages = g.lastPages := rfl
@[simp] theorem Group.countUp_syncAt (g : Group) (k : Nat) : (g.countUp k).syncAt = g.syncAt := rfl
@[simp] theorem Group.countUp_kitty (g : Group) (k : Nat) : (g.countUp k).kitty = g.kitty := rfl
@[simp] theorem Group.countUp_frameCopy (g : Group) (k : Nat) : (g.countUp k).frameCopy = g.frameCopy := rfl

@[simp] theorem Group.countDown_part (g : Group) (k : Nat) : (g.countDown k).part = g.part := rfl
@[simp] theorem Group.countDown_team (g : Group) (k : Nat) : (g.countDown k).team = g.team := rfl
@[simp] theorem Group.countDown_index (g : Group) (k : Nat) : (g.countDown k).index = g.index := rfl
@[simp] theorem Group.countDown_role (g : Group) (k : Nat) : (g.countDown k).role = g.role := rfl
@[simp] theorem Group.countDown_width (g : Group) (k : Nat) : (g.countDown k).width = g.width := rfl
@[simp] theorem Group.countDown_latency (g : Group) (k : Nat) : (g.countDown k).latency = g.latency := rfl
@[simp] theorem Group.countDown_issueSlot (g : Group) (k : Nat) : (g.countDown k).issueSlot = g.issueSlot := rfl
@[simp] theorem Group.countDown_lanePos (g : Group) (k : Nat) : (g.countDown k).lanePos = g.lanePos := rfl
@[simp] theorem Group.countDown_vAlloc (g : Group) (k : Nat) : (g.countDown k).vAlloc = g.vAlloc := rfl
@[simp] theorem Group.countDown_sAlloc (g : Group) (k : Nat) : (g.countDown k).sAlloc = g.sAlloc := rfl
@[simp] theorem Group.countDown_tAlloc (g : Group) (k : Nat) : (g.countDown k).tAlloc = g.tAlloc := rfl
@[simp] theorem Group.countDown_aAlloc (g : Group) (k : Nat) : (g.countDown k).aAlloc = g.aAlloc := rfl
@[simp] theorem Group.countDown_text (g : Group) (k : Nat) : (g.countDown k).text = g.text := rfl
@[simp] theorem Group.countDown_liveset (g : Group) (k : Nat) : (g.countDown k).liveset = g.liveset := rfl
@[simp] theorem Group.countDown_liveCount (g : Group) (k : Nat) : (g.countDown k).liveCount = g.liveCount := rfl
@[simp] theorem Group.countDown_data (g : Group) (k : Nat) : (g.countDown k).data = g.data := rfl
@[simp] theorem Group.countDown_gridId (g : Group) (k : Nat) : (g.countDown k).gridId = g.gridId := rfl
@[simp] theorem Group.countDown_depth (g : Group) (k : Nat) : (g.countDown k).depth = g.depth := rfl
@[simp] theorem Group.countDown_teamX (g : Group) (k : Nat) : (g.countDown k).teamX = g.teamX := rfl
@[simp] theorem Group.countDown_teamY (g : Group) (k : Nat) : (g.countDown k).teamY = g.teamY := rfl
@[simp] theorem Group.countDown_teamZ (g : Group) (k : Nat) : (g.countDown k).teamZ = g.teamZ := rfl
@[simp] theorem Group.countDown_vregs (g : Group) (k : Nat) : (g.countDown k).vregs = g.vregs := rfl
@[simp] theorem Group.countDown_sregs (g : Group) (k : Nat) : (g.countDown k).sregs = g.sregs := rfl
@[simp] theorem Group.countDown_preds (g : Group) (k : Nat) : (g.countDown k).preds = g.preds := rfl
@[simp] theorem Group.countDown_tiles (g : Group) (k : Nat) : (g.countDown k).tiles = g.tiles := rfl
@[simp] theorem Group.countDown_accs (g : Group) (k : Nat) : (g.countDown k).accs = g.accs := rfl
@[simp] theorem Group.countDown_amax (g : Group) (k : Nat) : (g.countDown k).amax = g.amax := rfl
@[simp] theorem Group.countDown_mode (g : Group) (k : Nat) : (g.countDown k).mode = g.mode := rfl
@[simp] theorem Group.countDown_scc (g : Group) (k : Nat) : (g.countDown k).scc = g.scc := rfl
@[simp] theorem Group.countDown_flags (g : Group) (k : Nat) : (g.countDown k).flags = g.flags := rfl
@[simp] theorem Group.countDown_sig (g : Group) (k : Nat) : (g.countDown k).sig = g.sig := rfl
@[simp] theorem Group.countDown_msig (g : Group) (k : Nat) : (g.countDown k).msig = g.msig := rfl
@[simp] theorem Group.countDown_lscale (g : Group) (k : Nat) : (g.countDown k).lscale = g.lscale := rfl
@[simp] theorem Group.countDown_ovf (g : Group) (k : Nat) : (g.countDown k).ovf = g.ovf := rfl
@[simp] theorem Group.countDown_ovtab (g : Group) (k : Nat) : (g.countDown k).ovtab = g.ovtab := rfl
@[simp] theorem Group.countDown_amaxSel (g : Group) (k : Nat) : (g.countDown k).amaxSel = g.amaxSel := rfl
@[simp] theorem Group.countDown_readLatch (g : Group) (k : Nat) : (g.countDown k).readLatch = g.readLatch := rfl
@[simp] theorem Group.countDown_timeWrite (g : Group) (k : Nat) : (g.countDown k).timeWrite = g.timeWrite := rfl
@[simp] theorem Group.countDown_tcause (g : Group) (k : Nat) : (g.countDown k).tcause = g.tcause := rfl
@[simp] theorem Group.countDown_tpc (g : Group) (k : Nat) : (g.countDown k).tpc = g.tpc := rfl
@[simp] theorem Group.countDown_tval (g : Group) (k : Nat) : (g.countDown k).tval = g.tval := rfl
@[simp] theorem Group.countDown_tmask (g : Group) (k : Nat) : (g.countDown k).tmask = g.tmask := rfl
@[simp] theorem Group.countDown_hwdog (g : Group) (k : Nat) : (g.countDown k).hwdog = g.hwdog := rfl
@[simp] theorem Group.countDown_cnt (g : Group) (k : Nat) : (g.countDown k).cnt = g.cnt.set k (g.cnt.get k - 1) := rfl
@[simp] theorem Group.countDown_armed (g : Group) (k : Nat) : (g.countDown k).armed = g.armed := rfl
@[simp] theorem Group.countDown_safeCount (g : Group) (k : Nat) : (g.countDown k).safeCount = g.safeCount := rfl
@[simp] theorem Group.countDown_nominal (g : Group) (k : Nat) : (g.countDown k).nominal = g.nominal := rfl
@[simp] theorem Group.countDown_producers (g : Group) (k : Nat) : (g.countDown k).producers = g.producers := rfl
@[simp] theorem Group.countDown_stallUntil (g : Group) (k : Nat) : (g.countDown k).stallUntil = g.stallUntil := rfl
@[simp] theorem Group.countDown_lastIssue (g : Group) (k : Nat) : (g.countDown k).lastIssue = g.lastIssue := rfl
@[simp] theorem Group.countDown_issuesInTurn (g : Group) (k : Nat) : (g.countDown k).issuesInTurn = g.issuesInTurn := rfl
@[simp] theorem Group.countDown_workSet (g : Group) (k : Nat) : (g.countDown k).workSet = g.workSet := rfl
@[simp] theorem Group.countDown_splits (g : Group) (k : Nat) : (g.countDown k).splits = g.splits := rfl
@[simp] theorem Group.countDown_exited (g : Group) (k : Nat) : (g.countDown k).exited = g.exited := rfl
@[simp] theorem Group.countDown_handler (g : Group) (k : Nat) : (g.countDown k).handler = g.handler := rfl
@[simp] theorem Group.countDown_parked (g : Group) (k : Nat) : (g.countDown k).parked = g.parked := rfl
@[simp] theorem Group.countDown_blockedSince (g : Group) (k : Nat) : (g.countDown k).blockedSince = g.blockedSince := rfl
@[simp] theorem Group.countDown_residency (g : Group) (k : Nat) : (g.countDown k).residency = g.residency := rfl
@[simp] theorem Group.countDown_pend (g : Group) (k : Nat) : (g.countDown k).pend = g.pend := rfl
@[simp] theorem Group.countDown_matq (g : Group) (k : Nat) : (g.countDown k).matq = g.matq := rfl
@[simp] theorem Group.countDown_tag (g : Group) (k : Nat) : (g.countDown k).tag = g.tag := rfl
@[simp] theorem Group.countDown_seat (g : Group) (k : Nat) : (g.countDown k).seat = g.seat := rfl
@[simp] theorem Group.countDown_holds (g : Group) (k : Nat) : (g.countDown k).holds = g.holds := rfl
@[simp] theorem Group.countDown_streamSlot (g : Group) (k : Nat) : (g.countDown k).streamSlot = g.streamSlot := rfl
@[simp] theorem Group.countDown_poisoned (g : Group) (k : Nat) : (g.countDown k).poisoned = g.poisoned := rfl
@[simp] theorem Group.countDown_bad (g : Group) (k : Nat) : (g.countDown k).bad = g.bad := rfl
@[simp] theorem Group.countDown_lastPc (g : Group) (k : Nat) : (g.countDown k).lastPc = g.lastPc := rfl
@[simp] theorem Group.countDown_lastPages (g : Group) (k : Nat) : (g.countDown k).lastPages = g.lastPages := rfl
@[simp] theorem Group.countDown_syncAt (g : Group) (k : Nat) : (g.countDown k).syncAt = g.syncAt := rfl
@[simp] theorem Group.countDown_kitty (g : Group) (k : Nat) : (g.countDown k).kitty = g.kitty := rfl
@[simp] theorem Group.countDown_frameCopy (g : Group) (k : Nat) : (g.countDown k).frameCopy = g.frameCopy := rfl

@[simp] theorem Group.modSplit_part (g : Group) (slot : Nat) (f : Split → Split) : (g.modSplit slot f).part = g.part := rfl
@[simp] theorem Group.modSplit_team (g : Group) (slot : Nat) (f : Split → Split) : (g.modSplit slot f).team = g.team := rfl
@[simp] theorem Group.modSplit_index (g : Group) (slot : Nat) (f : Split → Split) : (g.modSplit slot f).index = g.index := rfl
@[simp] theorem Group.modSplit_role (g : Group) (slot : Nat) (f : Split → Split) : (g.modSplit slot f).role = g.role := rfl
@[simp] theorem Group.modSplit_width (g : Group) (slot : Nat) (f : Split → Split) : (g.modSplit slot f).width = g.width := rfl
@[simp] theorem Group.modSplit_latency (g : Group) (slot : Nat) (f : Split → Split) : (g.modSplit slot f).latency = g.latency := rfl
@[simp] theorem Group.modSplit_issueSlot (g : Group) (slot : Nat) (f : Split → Split) : (g.modSplit slot f).issueSlot = g.issueSlot := rfl
@[simp] theorem Group.modSplit_lanePos (g : Group) (slot : Nat) (f : Split → Split) : (g.modSplit slot f).lanePos = g.lanePos := rfl
@[simp] theorem Group.modSplit_vAlloc (g : Group) (slot : Nat) (f : Split → Split) : (g.modSplit slot f).vAlloc = g.vAlloc := rfl
@[simp] theorem Group.modSplit_sAlloc (g : Group) (slot : Nat) (f : Split → Split) : (g.modSplit slot f).sAlloc = g.sAlloc := rfl
@[simp] theorem Group.modSplit_tAlloc (g : Group) (slot : Nat) (f : Split → Split) : (g.modSplit slot f).tAlloc = g.tAlloc := rfl
@[simp] theorem Group.modSplit_aAlloc (g : Group) (slot : Nat) (f : Split → Split) : (g.modSplit slot f).aAlloc = g.aAlloc := rfl
@[simp] theorem Group.modSplit_text (g : Group) (slot : Nat) (f : Split → Split) : (g.modSplit slot f).text = g.text := rfl
@[simp] theorem Group.modSplit_liveset (g : Group) (slot : Nat) (f : Split → Split) : (g.modSplit slot f).liveset = g.liveset := rfl
@[simp] theorem Group.modSplit_liveCount (g : Group) (slot : Nat) (f : Split → Split) : (g.modSplit slot f).liveCount = g.liveCount := rfl
@[simp] theorem Group.modSplit_data (g : Group) (slot : Nat) (f : Split → Split) : (g.modSplit slot f).data = g.data := rfl
@[simp] theorem Group.modSplit_gridId (g : Group) (slot : Nat) (f : Split → Split) : (g.modSplit slot f).gridId = g.gridId := rfl
@[simp] theorem Group.modSplit_depth (g : Group) (slot : Nat) (f : Split → Split) : (g.modSplit slot f).depth = g.depth := rfl
@[simp] theorem Group.modSplit_teamX (g : Group) (slot : Nat) (f : Split → Split) : (g.modSplit slot f).teamX = g.teamX := rfl
@[simp] theorem Group.modSplit_teamY (g : Group) (slot : Nat) (f : Split → Split) : (g.modSplit slot f).teamY = g.teamY := rfl
@[simp] theorem Group.modSplit_teamZ (g : Group) (slot : Nat) (f : Split → Split) : (g.modSplit slot f).teamZ = g.teamZ := rfl
@[simp] theorem Group.modSplit_vregs (g : Group) (slot : Nat) (f : Split → Split) : (g.modSplit slot f).vregs = g.vregs := rfl
@[simp] theorem Group.modSplit_sregs (g : Group) (slot : Nat) (f : Split → Split) : (g.modSplit slot f).sregs = g.sregs := rfl
@[simp] theorem Group.modSplit_preds (g : Group) (slot : Nat) (f : Split → Split) : (g.modSplit slot f).preds = g.preds := rfl
@[simp] theorem Group.modSplit_tiles (g : Group) (slot : Nat) (f : Split → Split) : (g.modSplit slot f).tiles = g.tiles := rfl
@[simp] theorem Group.modSplit_accs (g : Group) (slot : Nat) (f : Split → Split) : (g.modSplit slot f).accs = g.accs := rfl
@[simp] theorem Group.modSplit_amax (g : Group) (slot : Nat) (f : Split → Split) : (g.modSplit slot f).amax = g.amax := rfl
@[simp] theorem Group.modSplit_mode (g : Group) (slot : Nat) (f : Split → Split) : (g.modSplit slot f).mode = g.mode := rfl
@[simp] theorem Group.modSplit_scc (g : Group) (slot : Nat) (f : Split → Split) : (g.modSplit slot f).scc = g.scc := rfl
@[simp] theorem Group.modSplit_flags (g : Group) (slot : Nat) (f : Split → Split) : (g.modSplit slot f).flags = g.flags := rfl
@[simp] theorem Group.modSplit_sig (g : Group) (slot : Nat) (f : Split → Split) : (g.modSplit slot f).sig = g.sig := rfl
@[simp] theorem Group.modSplit_msig (g : Group) (slot : Nat) (f : Split → Split) : (g.modSplit slot f).msig = g.msig := rfl
@[simp] theorem Group.modSplit_lscale (g : Group) (slot : Nat) (f : Split → Split) : (g.modSplit slot f).lscale = g.lscale := rfl
@[simp] theorem Group.modSplit_ovf (g : Group) (slot : Nat) (f : Split → Split) : (g.modSplit slot f).ovf = g.ovf := rfl
@[simp] theorem Group.modSplit_ovtab (g : Group) (slot : Nat) (f : Split → Split) : (g.modSplit slot f).ovtab = g.ovtab := rfl
@[simp] theorem Group.modSplit_amaxSel (g : Group) (slot : Nat) (f : Split → Split) : (g.modSplit slot f).amaxSel = g.amaxSel := rfl
@[simp] theorem Group.modSplit_readLatch (g : Group) (slot : Nat) (f : Split → Split) : (g.modSplit slot f).readLatch = g.readLatch := rfl
@[simp] theorem Group.modSplit_timeWrite (g : Group) (slot : Nat) (f : Split → Split) : (g.modSplit slot f).timeWrite = g.timeWrite := rfl
@[simp] theorem Group.modSplit_tcause (g : Group) (slot : Nat) (f : Split → Split) : (g.modSplit slot f).tcause = g.tcause := rfl
@[simp] theorem Group.modSplit_tpc (g : Group) (slot : Nat) (f : Split → Split) : (g.modSplit slot f).tpc = g.tpc := rfl
@[simp] theorem Group.modSplit_tval (g : Group) (slot : Nat) (f : Split → Split) : (g.modSplit slot f).tval = g.tval := rfl
@[simp] theorem Group.modSplit_tmask (g : Group) (slot : Nat) (f : Split → Split) : (g.modSplit slot f).tmask = g.tmask := rfl
@[simp] theorem Group.modSplit_hwdog (g : Group) (slot : Nat) (f : Split → Split) : (g.modSplit slot f).hwdog = g.hwdog := rfl
@[simp] theorem Group.modSplit_cnt (g : Group) (slot : Nat) (f : Split → Split) : (g.modSplit slot f).cnt = g.cnt := rfl
@[simp] theorem Group.modSplit_armed (g : Group) (slot : Nat) (f : Split → Split) : (g.modSplit slot f).armed = g.armed := rfl
@[simp] theorem Group.modSplit_safeCount (g : Group) (slot : Nat) (f : Split → Split) : (g.modSplit slot f).safeCount = g.safeCount := rfl
@[simp] theorem Group.modSplit_nominal (g : Group) (slot : Nat) (f : Split → Split) : (g.modSplit slot f).nominal = g.nominal := rfl
@[simp] theorem Group.modSplit_producers (g : Group) (slot : Nat) (f : Split → Split) : (g.modSplit slot f).producers = g.producers := rfl
@[simp] theorem Group.modSplit_stallUntil (g : Group) (slot : Nat) (f : Split → Split) : (g.modSplit slot f).stallUntil = g.stallUntil := rfl
@[simp] theorem Group.modSplit_lastIssue (g : Group) (slot : Nat) (f : Split → Split) : (g.modSplit slot f).lastIssue = g.lastIssue := rfl
@[simp] theorem Group.modSplit_issuesInTurn (g : Group) (slot : Nat) (f : Split → Split) : (g.modSplit slot f).issuesInTurn = g.issuesInTurn := rfl
@[simp] theorem Group.modSplit_workSet (g : Group) (slot : Nat) (f : Split → Split) : (g.modSplit slot f).workSet = g.workSet := rfl
@[simp] theorem Group.modSplit_splits (g : Group) (slot : Nat) (f : Split → Split) : (g.modSplit slot f).splits = g.splits.map fun p => if p.slot = slot then f p else p := rfl
@[simp] theorem Group.modSplit_exited (g : Group) (slot : Nat) (f : Split → Split) : (g.modSplit slot f).exited = g.exited := rfl
@[simp] theorem Group.modSplit_handler (g : Group) (slot : Nat) (f : Split → Split) : (g.modSplit slot f).handler = g.handler := rfl
@[simp] theorem Group.modSplit_parked (g : Group) (slot : Nat) (f : Split → Split) : (g.modSplit slot f).parked = g.parked := rfl
@[simp] theorem Group.modSplit_blockedSince (g : Group) (slot : Nat) (f : Split → Split) : (g.modSplit slot f).blockedSince = g.blockedSince := rfl
@[simp] theorem Group.modSplit_residency (g : Group) (slot : Nat) (f : Split → Split) : (g.modSplit slot f).residency = g.residency := rfl
@[simp] theorem Group.modSplit_pend (g : Group) (slot : Nat) (f : Split → Split) : (g.modSplit slot f).pend = g.pend := rfl
@[simp] theorem Group.modSplit_matq (g : Group) (slot : Nat) (f : Split → Split) : (g.modSplit slot f).matq = g.matq := rfl
@[simp] theorem Group.modSplit_tag (g : Group) (slot : Nat) (f : Split → Split) : (g.modSplit slot f).tag = g.tag := rfl
@[simp] theorem Group.modSplit_seat (g : Group) (slot : Nat) (f : Split → Split) : (g.modSplit slot f).seat = g.seat := rfl
@[simp] theorem Group.modSplit_holds (g : Group) (slot : Nat) (f : Split → Split) : (g.modSplit slot f).holds = g.holds := rfl
@[simp] theorem Group.modSplit_streamSlot (g : Group) (slot : Nat) (f : Split → Split) : (g.modSplit slot f).streamSlot = g.streamSlot := rfl
@[simp] theorem Group.modSplit_poisoned (g : Group) (slot : Nat) (f : Split → Split) : (g.modSplit slot f).poisoned = g.poisoned := rfl
@[simp] theorem Group.modSplit_bad (g : Group) (slot : Nat) (f : Split → Split) : (g.modSplit slot f).bad = g.bad := rfl
@[simp] theorem Group.modSplit_lastPc (g : Group) (slot : Nat) (f : Split → Split) : (g.modSplit slot f).lastPc = g.lastPc := rfl
@[simp] theorem Group.modSplit_lastPages (g : Group) (slot : Nat) (f : Split → Split) : (g.modSplit slot f).lastPages = g.lastPages := rfl
@[simp] theorem Group.modSplit_syncAt (g : Group) (slot : Nat) (f : Split → Split) : (g.modSplit slot f).syncAt = g.syncAt := rfl
@[simp] theorem Group.modSplit_kitty (g : Group) (slot : Nat) (f : Split → Split) : (g.modSplit slot f).kitty = g.kitty := rfl
@[simp] theorem Group.modSplit_frameCopy (g : Group) (slot : Nat) (f : Split → Split) : (g.modSplit slot f).frameCopy = g.frameCopy := rfl

@[simp] theorem Group.setSreg_part (g : Group) (n : Nat) (x : Word) : (g.setSreg n x).part = g.part := by
  unfold Group.setSreg; split <;> rfl
@[simp] theorem Group.setSreg_team (g : Group) (n : Nat) (x : Word) : (g.setSreg n x).team = g.team := by
  unfold Group.setSreg; split <;> rfl
@[simp] theorem Group.setSreg_index (g : Group) (n : Nat) (x : Word) : (g.setSreg n x).index = g.index := by
  unfold Group.setSreg; split <;> rfl
@[simp] theorem Group.setSreg_role (g : Group) (n : Nat) (x : Word) : (g.setSreg n x).role = g.role := by
  unfold Group.setSreg; split <;> rfl
@[simp] theorem Group.setSreg_width (g : Group) (n : Nat) (x : Word) : (g.setSreg n x).width = g.width := by
  unfold Group.setSreg; split <;> rfl
@[simp] theorem Group.setSreg_latency (g : Group) (n : Nat) (x : Word) : (g.setSreg n x).latency = g.latency := by
  unfold Group.setSreg; split <;> rfl
@[simp] theorem Group.setSreg_issueSlot (g : Group) (n : Nat) (x : Word) : (g.setSreg n x).issueSlot = g.issueSlot := by
  unfold Group.setSreg; split <;> rfl
@[simp] theorem Group.setSreg_lanePos (g : Group) (n : Nat) (x : Word) : (g.setSreg n x).lanePos = g.lanePos := by
  unfold Group.setSreg; split <;> rfl
@[simp] theorem Group.setSreg_vAlloc (g : Group) (n : Nat) (x : Word) : (g.setSreg n x).vAlloc = g.vAlloc := by
  unfold Group.setSreg; split <;> rfl
@[simp] theorem Group.setSreg_sAlloc (g : Group) (n : Nat) (x : Word) : (g.setSreg n x).sAlloc = g.sAlloc := by
  unfold Group.setSreg; split <;> rfl
@[simp] theorem Group.setSreg_tAlloc (g : Group) (n : Nat) (x : Word) : (g.setSreg n x).tAlloc = g.tAlloc := by
  unfold Group.setSreg; split <;> rfl
@[simp] theorem Group.setSreg_aAlloc (g : Group) (n : Nat) (x : Word) : (g.setSreg n x).aAlloc = g.aAlloc := by
  unfold Group.setSreg; split <;> rfl
@[simp] theorem Group.setSreg_text (g : Group) (n : Nat) (x : Word) : (g.setSreg n x).text = g.text := by
  unfold Group.setSreg; split <;> rfl
@[simp] theorem Group.setSreg_liveset (g : Group) (n : Nat) (x : Word) : (g.setSreg n x).liveset = g.liveset := by
  unfold Group.setSreg; split <;> rfl
@[simp] theorem Group.setSreg_liveCount (g : Group) (n : Nat) (x : Word) : (g.setSreg n x).liveCount = g.liveCount := by
  unfold Group.setSreg; split <;> rfl
@[simp] theorem Group.setSreg_data (g : Group) (n : Nat) (x : Word) : (g.setSreg n x).data = g.data := by
  unfold Group.setSreg; split <;> rfl
@[simp] theorem Group.setSreg_gridId (g : Group) (n : Nat) (x : Word) : (g.setSreg n x).gridId = g.gridId := by
  unfold Group.setSreg; split <;> rfl
@[simp] theorem Group.setSreg_depth (g : Group) (n : Nat) (x : Word) : (g.setSreg n x).depth = g.depth := by
  unfold Group.setSreg; split <;> rfl
@[simp] theorem Group.setSreg_teamX (g : Group) (n : Nat) (x : Word) : (g.setSreg n x).teamX = g.teamX := by
  unfold Group.setSreg; split <;> rfl
@[simp] theorem Group.setSreg_teamY (g : Group) (n : Nat) (x : Word) : (g.setSreg n x).teamY = g.teamY := by
  unfold Group.setSreg; split <;> rfl
@[simp] theorem Group.setSreg_teamZ (g : Group) (n : Nat) (x : Word) : (g.setSreg n x).teamZ = g.teamZ := by
  unfold Group.setSreg; split <;> rfl
@[simp] theorem Group.setSreg_vregs (g : Group) (n : Nat) (x : Word) : (g.setSreg n x).vregs = g.vregs := by
  unfold Group.setSreg; split <;> rfl
@[simp] theorem Group.setSreg_preds (g : Group) (n : Nat) (x : Word) : (g.setSreg n x).preds = g.preds := by
  unfold Group.setSreg; split <;> rfl
@[simp] theorem Group.setSreg_tiles (g : Group) (n : Nat) (x : Word) : (g.setSreg n x).tiles = g.tiles := by
  unfold Group.setSreg; split <;> rfl
@[simp] theorem Group.setSreg_accs (g : Group) (n : Nat) (x : Word) : (g.setSreg n x).accs = g.accs := by
  unfold Group.setSreg; split <;> rfl
@[simp] theorem Group.setSreg_amax (g : Group) (n : Nat) (x : Word) : (g.setSreg n x).amax = g.amax := by
  unfold Group.setSreg; split <;> rfl
@[simp] theorem Group.setSreg_mode (g : Group) (n : Nat) (x : Word) : (g.setSreg n x).mode = g.mode := by
  unfold Group.setSreg; split <;> rfl
@[simp] theorem Group.setSreg_scc (g : Group) (n : Nat) (x : Word) : (g.setSreg n x).scc = g.scc := by
  unfold Group.setSreg; split <;> rfl
@[simp] theorem Group.setSreg_flags (g : Group) (n : Nat) (x : Word) : (g.setSreg n x).flags = g.flags := by
  unfold Group.setSreg; split <;> rfl
@[simp] theorem Group.setSreg_sig (g : Group) (n : Nat) (x : Word) : (g.setSreg n x).sig = g.sig := by
  unfold Group.setSreg; split <;> rfl
@[simp] theorem Group.setSreg_msig (g : Group) (n : Nat) (x : Word) : (g.setSreg n x).msig = g.msig := by
  unfold Group.setSreg; split <;> rfl
@[simp] theorem Group.setSreg_lscale (g : Group) (n : Nat) (x : Word) : (g.setSreg n x).lscale = g.lscale := by
  unfold Group.setSreg; split <;> rfl
@[simp] theorem Group.setSreg_ovf (g : Group) (n : Nat) (x : Word) : (g.setSreg n x).ovf = g.ovf := by
  unfold Group.setSreg; split <;> rfl
@[simp] theorem Group.setSreg_ovtab (g : Group) (n : Nat) (x : Word) : (g.setSreg n x).ovtab = g.ovtab := by
  unfold Group.setSreg; split <;> rfl
@[simp] theorem Group.setSreg_amaxSel (g : Group) (n : Nat) (x : Word) : (g.setSreg n x).amaxSel = g.amaxSel := by
  unfold Group.setSreg; split <;> rfl
@[simp] theorem Group.setSreg_readLatch (g : Group) (n : Nat) (x : Word) : (g.setSreg n x).readLatch = g.readLatch := by
  unfold Group.setSreg; split <;> rfl
@[simp] theorem Group.setSreg_timeWrite (g : Group) (n : Nat) (x : Word) : (g.setSreg n x).timeWrite = g.timeWrite := by
  unfold Group.setSreg; split <;> rfl
@[simp] theorem Group.setSreg_tcause (g : Group) (n : Nat) (x : Word) : (g.setSreg n x).tcause = g.tcause := by
  unfold Group.setSreg; split <;> rfl
@[simp] theorem Group.setSreg_tpc (g : Group) (n : Nat) (x : Word) : (g.setSreg n x).tpc = g.tpc := by
  unfold Group.setSreg; split <;> rfl
@[simp] theorem Group.setSreg_tval (g : Group) (n : Nat) (x : Word) : (g.setSreg n x).tval = g.tval := by
  unfold Group.setSreg; split <;> rfl
@[simp] theorem Group.setSreg_tmask (g : Group) (n : Nat) (x : Word) : (g.setSreg n x).tmask = g.tmask := by
  unfold Group.setSreg; split <;> rfl
@[simp] theorem Group.setSreg_hwdog (g : Group) (n : Nat) (x : Word) : (g.setSreg n x).hwdog = g.hwdog := by
  unfold Group.setSreg; split <;> rfl
@[simp] theorem Group.setSreg_cnt (g : Group) (n : Nat) (x : Word) : (g.setSreg n x).cnt = g.cnt := by
  unfold Group.setSreg; split <;> rfl
@[simp] theorem Group.setSreg_armed (g : Group) (n : Nat) (x : Word) : (g.setSreg n x).armed = g.armed := by
  unfold Group.setSreg; split <;> rfl
@[simp] theorem Group.setSreg_safeCount (g : Group) (n : Nat) (x : Word) : (g.setSreg n x).safeCount = g.safeCount := by
  unfold Group.setSreg; split <;> rfl
@[simp] theorem Group.setSreg_nominal (g : Group) (n : Nat) (x : Word) : (g.setSreg n x).nominal = g.nominal := by
  unfold Group.setSreg; split <;> rfl
@[simp] theorem Group.setSreg_producers (g : Group) (n : Nat) (x : Word) : (g.setSreg n x).producers = g.producers := by
  unfold Group.setSreg; split <;> rfl
@[simp] theorem Group.setSreg_stallUntil (g : Group) (n : Nat) (x : Word) : (g.setSreg n x).stallUntil = g.stallUntil := by
  unfold Group.setSreg; split <;> rfl
@[simp] theorem Group.setSreg_lastIssue (g : Group) (n : Nat) (x : Word) : (g.setSreg n x).lastIssue = g.lastIssue := by
  unfold Group.setSreg; split <;> rfl
@[simp] theorem Group.setSreg_issuesInTurn (g : Group) (n : Nat) (x : Word) : (g.setSreg n x).issuesInTurn = g.issuesInTurn := by
  unfold Group.setSreg; split <;> rfl
@[simp] theorem Group.setSreg_workSet (g : Group) (n : Nat) (x : Word) : (g.setSreg n x).workSet = g.workSet := by
  unfold Group.setSreg; split <;> rfl
@[simp] theorem Group.setSreg_splits (g : Group) (n : Nat) (x : Word) : (g.setSreg n x).splits = g.splits := by
  unfold Group.setSreg; split <;> rfl
@[simp] theorem Group.setSreg_exited (g : Group) (n : Nat) (x : Word) : (g.setSreg n x).exited = g.exited := by
  unfold Group.setSreg; split <;> rfl
@[simp] theorem Group.setSreg_handler (g : Group) (n : Nat) (x : Word) : (g.setSreg n x).handler = g.handler := by
  unfold Group.setSreg; split <;> rfl
@[simp] theorem Group.setSreg_parked (g : Group) (n : Nat) (x : Word) : (g.setSreg n x).parked = g.parked := by
  unfold Group.setSreg; split <;> rfl
@[simp] theorem Group.setSreg_blockedSince (g : Group) (n : Nat) (x : Word) : (g.setSreg n x).blockedSince = g.blockedSince := by
  unfold Group.setSreg; split <;> rfl
@[simp] theorem Group.setSreg_residency (g : Group) (n : Nat) (x : Word) : (g.setSreg n x).residency = g.residency := by
  unfold Group.setSreg; split <;> rfl
@[simp] theorem Group.setSreg_pend (g : Group) (n : Nat) (x : Word) : (g.setSreg n x).pend = g.pend := by
  unfold Group.setSreg; split <;> rfl
@[simp] theorem Group.setSreg_matq (g : Group) (n : Nat) (x : Word) : (g.setSreg n x).matq = g.matq := by
  unfold Group.setSreg; split <;> rfl
@[simp] theorem Group.setSreg_tag (g : Group) (n : Nat) (x : Word) : (g.setSreg n x).tag = g.tag := by
  unfold Group.setSreg; split <;> rfl
@[simp] theorem Group.setSreg_seat (g : Group) (n : Nat) (x : Word) : (g.setSreg n x).seat = g.seat := by
  unfold Group.setSreg; split <;> rfl
@[simp] theorem Group.setSreg_holds (g : Group) (n : Nat) (x : Word) : (g.setSreg n x).holds = g.holds := by
  unfold Group.setSreg; split <;> rfl
@[simp] theorem Group.setSreg_streamSlot (g : Group) (n : Nat) (x : Word) : (g.setSreg n x).streamSlot = g.streamSlot := by
  unfold Group.setSreg; split <;> rfl
@[simp] theorem Group.setSreg_poisoned (g : Group) (n : Nat) (x : Word) : (g.setSreg n x).poisoned = g.poisoned := by
  unfold Group.setSreg; split <;> rfl
@[simp] theorem Group.setSreg_bad (g : Group) (n : Nat) (x : Word) : (g.setSreg n x).bad = g.bad := by
  unfold Group.setSreg; split <;> rfl
@[simp] theorem Group.setSreg_lastPc (g : Group) (n : Nat) (x : Word) : (g.setSreg n x).lastPc = g.lastPc := by
  unfold Group.setSreg; split <;> rfl
@[simp] theorem Group.setSreg_lastPages (g : Group) (n : Nat) (x : Word) : (g.setSreg n x).lastPages = g.lastPages := by
  unfold Group.setSreg; split <;> rfl
@[simp] theorem Group.setSreg_syncAt (g : Group) (n : Nat) (x : Word) : (g.setSreg n x).syncAt = g.syncAt := by
  unfold Group.setSreg; split <;> rfl
@[simp] theorem Group.setSreg_kitty (g : Group) (n : Nat) (x : Word) : (g.setSreg n x).kitty = g.kitty := by
  unfold Group.setSreg; split <;> rfl
@[simp] theorem Group.setSreg_frameCopy (g : Group) (n : Nat) (x : Word) : (g.setSreg n x).frameCopy = g.frameCopy := by
  unfold Group.setSreg; split <;> rfl

@[simp] theorem Group.setPred_part (g : Group) (n : Nat) (m : DWord) : (g.setPred n m).part = g.part := by
  unfold Group.setPred; split <;> rfl
@[simp] theorem Group.setPred_team (g : Group) (n : Nat) (m : DWord) : (g.setPred n m).team = g.team := by
  unfold Group.setPred; split <;> rfl
@[simp] theorem Group.setPred_index (g : Group) (n : Nat) (m : DWord) : (g.setPred n m).index = g.index := by
  unfold Group.setPred; split <;> rfl
@[simp] theorem Group.setPred_role (g : Group) (n : Nat) (m : DWord) : (g.setPred n m).role = g.role := by
  unfold Group.setPred; split <;> rfl
@[simp] theorem Group.setPred_width (g : Group) (n : Nat) (m : DWord) : (g.setPred n m).width = g.width := by
  unfold Group.setPred; split <;> rfl
@[simp] theorem Group.setPred_latency (g : Group) (n : Nat) (m : DWord) : (g.setPred n m).latency = g.latency := by
  unfold Group.setPred; split <;> rfl
@[simp] theorem Group.setPred_issueSlot (g : Group) (n : Nat) (m : DWord) : (g.setPred n m).issueSlot = g.issueSlot := by
  unfold Group.setPred; split <;> rfl
@[simp] theorem Group.setPred_lanePos (g : Group) (n : Nat) (m : DWord) : (g.setPred n m).lanePos = g.lanePos := by
  unfold Group.setPred; split <;> rfl
@[simp] theorem Group.setPred_vAlloc (g : Group) (n : Nat) (m : DWord) : (g.setPred n m).vAlloc = g.vAlloc := by
  unfold Group.setPred; split <;> rfl
@[simp] theorem Group.setPred_sAlloc (g : Group) (n : Nat) (m : DWord) : (g.setPred n m).sAlloc = g.sAlloc := by
  unfold Group.setPred; split <;> rfl
@[simp] theorem Group.setPred_tAlloc (g : Group) (n : Nat) (m : DWord) : (g.setPred n m).tAlloc = g.tAlloc := by
  unfold Group.setPred; split <;> rfl
@[simp] theorem Group.setPred_aAlloc (g : Group) (n : Nat) (m : DWord) : (g.setPred n m).aAlloc = g.aAlloc := by
  unfold Group.setPred; split <;> rfl
@[simp] theorem Group.setPred_text (g : Group) (n : Nat) (m : DWord) : (g.setPred n m).text = g.text := by
  unfold Group.setPred; split <;> rfl
@[simp] theorem Group.setPred_liveset (g : Group) (n : Nat) (m : DWord) : (g.setPred n m).liveset = g.liveset := by
  unfold Group.setPred; split <;> rfl
@[simp] theorem Group.setPred_liveCount (g : Group) (n : Nat) (m : DWord) : (g.setPred n m).liveCount = g.liveCount := by
  unfold Group.setPred; split <;> rfl
@[simp] theorem Group.setPred_data (g : Group) (n : Nat) (m : DWord) : (g.setPred n m).data = g.data := by
  unfold Group.setPred; split <;> rfl
@[simp] theorem Group.setPred_gridId (g : Group) (n : Nat) (m : DWord) : (g.setPred n m).gridId = g.gridId := by
  unfold Group.setPred; split <;> rfl
@[simp] theorem Group.setPred_depth (g : Group) (n : Nat) (m : DWord) : (g.setPred n m).depth = g.depth := by
  unfold Group.setPred; split <;> rfl
@[simp] theorem Group.setPred_teamX (g : Group) (n : Nat) (m : DWord) : (g.setPred n m).teamX = g.teamX := by
  unfold Group.setPred; split <;> rfl
@[simp] theorem Group.setPred_teamY (g : Group) (n : Nat) (m : DWord) : (g.setPred n m).teamY = g.teamY := by
  unfold Group.setPred; split <;> rfl
@[simp] theorem Group.setPred_teamZ (g : Group) (n : Nat) (m : DWord) : (g.setPred n m).teamZ = g.teamZ := by
  unfold Group.setPred; split <;> rfl
@[simp] theorem Group.setPred_vregs (g : Group) (n : Nat) (m : DWord) : (g.setPred n m).vregs = g.vregs := by
  unfold Group.setPred; split <;> rfl
@[simp] theorem Group.setPred_sregs (g : Group) (n : Nat) (m : DWord) : (g.setPred n m).sregs = g.sregs := by
  unfold Group.setPred; split <;> rfl
@[simp] theorem Group.setPred_tiles (g : Group) (n : Nat) (m : DWord) : (g.setPred n m).tiles = g.tiles := by
  unfold Group.setPred; split <;> rfl
@[simp] theorem Group.setPred_accs (g : Group) (n : Nat) (m : DWord) : (g.setPred n m).accs = g.accs := by
  unfold Group.setPred; split <;> rfl
@[simp] theorem Group.setPred_amax (g : Group) (n : Nat) (m : DWord) : (g.setPred n m).amax = g.amax := by
  unfold Group.setPred; split <;> rfl
@[simp] theorem Group.setPred_mode (g : Group) (n : Nat) (m : DWord) : (g.setPred n m).mode = g.mode := by
  unfold Group.setPred; split <;> rfl
@[simp] theorem Group.setPred_scc (g : Group) (n : Nat) (m : DWord) : (g.setPred n m).scc = g.scc := by
  unfold Group.setPred; split <;> rfl
@[simp] theorem Group.setPred_flags (g : Group) (n : Nat) (m : DWord) : (g.setPred n m).flags = g.flags := by
  unfold Group.setPred; split <;> rfl
@[simp] theorem Group.setPred_sig (g : Group) (n : Nat) (m : DWord) : (g.setPred n m).sig = g.sig := by
  unfold Group.setPred; split <;> rfl
@[simp] theorem Group.setPred_msig (g : Group) (n : Nat) (m : DWord) : (g.setPred n m).msig = g.msig := by
  unfold Group.setPred; split <;> rfl
@[simp] theorem Group.setPred_lscale (g : Group) (n : Nat) (m : DWord) : (g.setPred n m).lscale = g.lscale := by
  unfold Group.setPred; split <;> rfl
@[simp] theorem Group.setPred_ovf (g : Group) (n : Nat) (m : DWord) : (g.setPred n m).ovf = g.ovf := by
  unfold Group.setPred; split <;> rfl
@[simp] theorem Group.setPred_ovtab (g : Group) (n : Nat) (m : DWord) : (g.setPred n m).ovtab = g.ovtab := by
  unfold Group.setPred; split <;> rfl
@[simp] theorem Group.setPred_amaxSel (g : Group) (n : Nat) (m : DWord) : (g.setPred n m).amaxSel = g.amaxSel := by
  unfold Group.setPred; split <;> rfl
@[simp] theorem Group.setPred_readLatch (g : Group) (n : Nat) (m : DWord) : (g.setPred n m).readLatch = g.readLatch := by
  unfold Group.setPred; split <;> rfl
@[simp] theorem Group.setPred_timeWrite (g : Group) (n : Nat) (m : DWord) : (g.setPred n m).timeWrite = g.timeWrite := by
  unfold Group.setPred; split <;> rfl
@[simp] theorem Group.setPred_tcause (g : Group) (n : Nat) (m : DWord) : (g.setPred n m).tcause = g.tcause := by
  unfold Group.setPred; split <;> rfl
@[simp] theorem Group.setPred_tpc (g : Group) (n : Nat) (m : DWord) : (g.setPred n m).tpc = g.tpc := by
  unfold Group.setPred; split <;> rfl
@[simp] theorem Group.setPred_tval (g : Group) (n : Nat) (m : DWord) : (g.setPred n m).tval = g.tval := by
  unfold Group.setPred; split <;> rfl
@[simp] theorem Group.setPred_tmask (g : Group) (n : Nat) (m : DWord) : (g.setPred n m).tmask = g.tmask := by
  unfold Group.setPred; split <;> rfl
@[simp] theorem Group.setPred_hwdog (g : Group) (n : Nat) (m : DWord) : (g.setPred n m).hwdog = g.hwdog := by
  unfold Group.setPred; split <;> rfl
@[simp] theorem Group.setPred_cnt (g : Group) (n : Nat) (m : DWord) : (g.setPred n m).cnt = g.cnt := by
  unfold Group.setPred; split <;> rfl
@[simp] theorem Group.setPred_armed (g : Group) (n : Nat) (m : DWord) : (g.setPred n m).armed = g.armed := by
  unfold Group.setPred; split <;> rfl
@[simp] theorem Group.setPred_safeCount (g : Group) (n : Nat) (m : DWord) : (g.setPred n m).safeCount = g.safeCount := by
  unfold Group.setPred; split <;> rfl
@[simp] theorem Group.setPred_nominal (g : Group) (n : Nat) (m : DWord) : (g.setPred n m).nominal = g.nominal := by
  unfold Group.setPred; split <;> rfl
@[simp] theorem Group.setPred_producers (g : Group) (n : Nat) (m : DWord) : (g.setPred n m).producers = g.producers := by
  unfold Group.setPred; split <;> rfl
@[simp] theorem Group.setPred_stallUntil (g : Group) (n : Nat) (m : DWord) : (g.setPred n m).stallUntil = g.stallUntil := by
  unfold Group.setPred; split <;> rfl
@[simp] theorem Group.setPred_lastIssue (g : Group) (n : Nat) (m : DWord) : (g.setPred n m).lastIssue = g.lastIssue := by
  unfold Group.setPred; split <;> rfl
@[simp] theorem Group.setPred_issuesInTurn (g : Group) (n : Nat) (m : DWord) : (g.setPred n m).issuesInTurn = g.issuesInTurn := by
  unfold Group.setPred; split <;> rfl
@[simp] theorem Group.setPred_workSet (g : Group) (n : Nat) (m : DWord) : (g.setPred n m).workSet = g.workSet := by
  unfold Group.setPred; split <;> rfl
@[simp] theorem Group.setPred_splits (g : Group) (n : Nat) (m : DWord) : (g.setPred n m).splits = g.splits := by
  unfold Group.setPred; split <;> rfl
@[simp] theorem Group.setPred_exited (g : Group) (n : Nat) (m : DWord) : (g.setPred n m).exited = g.exited := by
  unfold Group.setPred; split <;> rfl
@[simp] theorem Group.setPred_handler (g : Group) (n : Nat) (m : DWord) : (g.setPred n m).handler = g.handler := by
  unfold Group.setPred; split <;> rfl
@[simp] theorem Group.setPred_parked (g : Group) (n : Nat) (m : DWord) : (g.setPred n m).parked = g.parked := by
  unfold Group.setPred; split <;> rfl
@[simp] theorem Group.setPred_blockedSince (g : Group) (n : Nat) (m : DWord) : (g.setPred n m).blockedSince = g.blockedSince := by
  unfold Group.setPred; split <;> rfl
@[simp] theorem Group.setPred_residency (g : Group) (n : Nat) (m : DWord) : (g.setPred n m).residency = g.residency := by
  unfold Group.setPred; split <;> rfl
@[simp] theorem Group.setPred_pend (g : Group) (n : Nat) (m : DWord) : (g.setPred n m).pend = g.pend := by
  unfold Group.setPred; split <;> rfl
@[simp] theorem Group.setPred_matq (g : Group) (n : Nat) (m : DWord) : (g.setPred n m).matq = g.matq := by
  unfold Group.setPred; split <;> rfl
@[simp] theorem Group.setPred_tag (g : Group) (n : Nat) (m : DWord) : (g.setPred n m).tag = g.tag := by
  unfold Group.setPred; split <;> rfl
@[simp] theorem Group.setPred_seat (g : Group) (n : Nat) (m : DWord) : (g.setPred n m).seat = g.seat := by
  unfold Group.setPred; split <;> rfl
@[simp] theorem Group.setPred_holds (g : Group) (n : Nat) (m : DWord) : (g.setPred n m).holds = g.holds := by
  unfold Group.setPred; split <;> rfl
@[simp] theorem Group.setPred_streamSlot (g : Group) (n : Nat) (m : DWord) : (g.setPred n m).streamSlot = g.streamSlot := by
  unfold Group.setPred; split <;> rfl
@[simp] theorem Group.setPred_poisoned (g : Group) (n : Nat) (m : DWord) : (g.setPred n m).poisoned = g.poisoned := by
  unfold Group.setPred; split <;> rfl
@[simp] theorem Group.setPred_bad (g : Group) (n : Nat) (m : DWord) : (g.setPred n m).bad = g.bad := by
  unfold Group.setPred; split <;> rfl
@[simp] theorem Group.setPred_lastPc (g : Group) (n : Nat) (m : DWord) : (g.setPred n m).lastPc = g.lastPc := by
  unfold Group.setPred; split <;> rfl
@[simp] theorem Group.setPred_lastPages (g : Group) (n : Nat) (m : DWord) : (g.setPred n m).lastPages = g.lastPages := by
  unfold Group.setPred; split <;> rfl
@[simp] theorem Group.setPred_syncAt (g : Group) (n : Nat) (m : DWord) : (g.setPred n m).syncAt = g.syncAt := by
  unfold Group.setPred; split <;> rfl
@[simp] theorem Group.setPred_kitty (g : Group) (n : Nat) (m : DWord) : (g.setPred n m).kitty = g.kitty := by
  unfold Group.setPred; split <;> rfl
@[simp] theorem Group.setPred_frameCopy (g : Group) (n : Nat) (m : DWord) : (g.setPred n m).frameCopy = g.frameCopy := by
  unfold Group.setPred; split <;> rfl

@[simp] theorem Group.setLanes_part (g : Group) (r : Nat) (f : Nat → Word) (ls : List Nat) :
    (g.setLanes r f ls).part = g.part := by
  induction ls with
  | nil => rfl
  | cons i ls ih => simp [Group.setLanes, ih]
@[simp] theorem Group.setLanes_team (g : Group) (r : Nat) (f : Nat → Word) (ls : List Nat) :
    (g.setLanes r f ls).team = g.team := by
  induction ls with
  | nil => rfl
  | cons i ls ih => simp [Group.setLanes, ih]
@[simp] theorem Group.setLanes_index (g : Group) (r : Nat) (f : Nat → Word) (ls : List Nat) :
    (g.setLanes r f ls).index = g.index := by
  induction ls with
  | nil => rfl
  | cons i ls ih => simp [Group.setLanes, ih]
@[simp] theorem Group.setLanes_role (g : Group) (r : Nat) (f : Nat → Word) (ls : List Nat) :
    (g.setLanes r f ls).role = g.role := by
  induction ls with
  | nil => rfl
  | cons i ls ih => simp [Group.setLanes, ih]
@[simp] theorem Group.setLanes_width (g : Group) (r : Nat) (f : Nat → Word) (ls : List Nat) :
    (g.setLanes r f ls).width = g.width := by
  induction ls with
  | nil => rfl
  | cons i ls ih => simp [Group.setLanes, ih]
@[simp] theorem Group.setLanes_latency (g : Group) (r : Nat) (f : Nat → Word) (ls : List Nat) :
    (g.setLanes r f ls).latency = g.latency := by
  induction ls with
  | nil => rfl
  | cons i ls ih => simp [Group.setLanes, ih]
@[simp] theorem Group.setLanes_issueSlot (g : Group) (r : Nat) (f : Nat → Word) (ls : List Nat) :
    (g.setLanes r f ls).issueSlot = g.issueSlot := by
  induction ls with
  | nil => rfl
  | cons i ls ih => simp [Group.setLanes, ih]
@[simp] theorem Group.setLanes_lanePos (g : Group) (r : Nat) (f : Nat → Word) (ls : List Nat) :
    (g.setLanes r f ls).lanePos = g.lanePos := by
  induction ls with
  | nil => rfl
  | cons i ls ih => simp [Group.setLanes, ih]
@[simp] theorem Group.setLanes_vAlloc (g : Group) (r : Nat) (f : Nat → Word) (ls : List Nat) :
    (g.setLanes r f ls).vAlloc = g.vAlloc := by
  induction ls with
  | nil => rfl
  | cons i ls ih => simp [Group.setLanes, ih]
@[simp] theorem Group.setLanes_sAlloc (g : Group) (r : Nat) (f : Nat → Word) (ls : List Nat) :
    (g.setLanes r f ls).sAlloc = g.sAlloc := by
  induction ls with
  | nil => rfl
  | cons i ls ih => simp [Group.setLanes, ih]
@[simp] theorem Group.setLanes_tAlloc (g : Group) (r : Nat) (f : Nat → Word) (ls : List Nat) :
    (g.setLanes r f ls).tAlloc = g.tAlloc := by
  induction ls with
  | nil => rfl
  | cons i ls ih => simp [Group.setLanes, ih]
@[simp] theorem Group.setLanes_aAlloc (g : Group) (r : Nat) (f : Nat → Word) (ls : List Nat) :
    (g.setLanes r f ls).aAlloc = g.aAlloc := by
  induction ls with
  | nil => rfl
  | cons i ls ih => simp [Group.setLanes, ih]
@[simp] theorem Group.setLanes_text (g : Group) (r : Nat) (f : Nat → Word) (ls : List Nat) :
    (g.setLanes r f ls).text = g.text := by
  induction ls with
  | nil => rfl
  | cons i ls ih => simp [Group.setLanes, ih]
@[simp] theorem Group.setLanes_liveset (g : Group) (r : Nat) (f : Nat → Word) (ls : List Nat) :
    (g.setLanes r f ls).liveset = g.liveset := by
  induction ls with
  | nil => rfl
  | cons i ls ih => simp [Group.setLanes, ih]
@[simp] theorem Group.setLanes_liveCount (g : Group) (r : Nat) (f : Nat → Word) (ls : List Nat) :
    (g.setLanes r f ls).liveCount = g.liveCount := by
  induction ls with
  | nil => rfl
  | cons i ls ih => simp [Group.setLanes, ih]
@[simp] theorem Group.setLanes_data (g : Group) (r : Nat) (f : Nat → Word) (ls : List Nat) :
    (g.setLanes r f ls).data = g.data := by
  induction ls with
  | nil => rfl
  | cons i ls ih => simp [Group.setLanes, ih]
@[simp] theorem Group.setLanes_gridId (g : Group) (r : Nat) (f : Nat → Word) (ls : List Nat) :
    (g.setLanes r f ls).gridId = g.gridId := by
  induction ls with
  | nil => rfl
  | cons i ls ih => simp [Group.setLanes, ih]
@[simp] theorem Group.setLanes_depth (g : Group) (r : Nat) (f : Nat → Word) (ls : List Nat) :
    (g.setLanes r f ls).depth = g.depth := by
  induction ls with
  | nil => rfl
  | cons i ls ih => simp [Group.setLanes, ih]
@[simp] theorem Group.setLanes_teamX (g : Group) (r : Nat) (f : Nat → Word) (ls : List Nat) :
    (g.setLanes r f ls).teamX = g.teamX := by
  induction ls with
  | nil => rfl
  | cons i ls ih => simp [Group.setLanes, ih]
@[simp] theorem Group.setLanes_teamY (g : Group) (r : Nat) (f : Nat → Word) (ls : List Nat) :
    (g.setLanes r f ls).teamY = g.teamY := by
  induction ls with
  | nil => rfl
  | cons i ls ih => simp [Group.setLanes, ih]
@[simp] theorem Group.setLanes_teamZ (g : Group) (r : Nat) (f : Nat → Word) (ls : List Nat) :
    (g.setLanes r f ls).teamZ = g.teamZ := by
  induction ls with
  | nil => rfl
  | cons i ls ih => simp [Group.setLanes, ih]
@[simp] theorem Group.setLanes_sregs (g : Group) (r : Nat) (f : Nat → Word) (ls : List Nat) :
    (g.setLanes r f ls).sregs = g.sregs := by
  induction ls with
  | nil => rfl
  | cons i ls ih => simp [Group.setLanes, ih]
@[simp] theorem Group.setLanes_preds (g : Group) (r : Nat) (f : Nat → Word) (ls : List Nat) :
    (g.setLanes r f ls).preds = g.preds := by
  induction ls with
  | nil => rfl
  | cons i ls ih => simp [Group.setLanes, ih]
@[simp] theorem Group.setLanes_tiles (g : Group) (r : Nat) (f : Nat → Word) (ls : List Nat) :
    (g.setLanes r f ls).tiles = g.tiles := by
  induction ls with
  | nil => rfl
  | cons i ls ih => simp [Group.setLanes, ih]
@[simp] theorem Group.setLanes_accs (g : Group) (r : Nat) (f : Nat → Word) (ls : List Nat) :
    (g.setLanes r f ls).accs = g.accs := by
  induction ls with
  | nil => rfl
  | cons i ls ih => simp [Group.setLanes, ih]
@[simp] theorem Group.setLanes_amax (g : Group) (r : Nat) (f : Nat → Word) (ls : List Nat) :
    (g.setLanes r f ls).amax = g.amax := by
  induction ls with
  | nil => rfl
  | cons i ls ih => simp [Group.setLanes, ih]
@[simp] theorem Group.setLanes_mode (g : Group) (r : Nat) (f : Nat → Word) (ls : List Nat) :
    (g.setLanes r f ls).mode = g.mode := by
  induction ls with
  | nil => rfl
  | cons i ls ih => simp [Group.setLanes, ih]
@[simp] theorem Group.setLanes_scc (g : Group) (r : Nat) (f : Nat → Word) (ls : List Nat) :
    (g.setLanes r f ls).scc = g.scc := by
  induction ls with
  | nil => rfl
  | cons i ls ih => simp [Group.setLanes, ih]
@[simp] theorem Group.setLanes_flags (g : Group) (r : Nat) (f : Nat → Word) (ls : List Nat) :
    (g.setLanes r f ls).flags = g.flags := by
  induction ls with
  | nil => rfl
  | cons i ls ih => simp [Group.setLanes, ih]
@[simp] theorem Group.setLanes_sig (g : Group) (r : Nat) (f : Nat → Word) (ls : List Nat) :
    (g.setLanes r f ls).sig = g.sig := by
  induction ls with
  | nil => rfl
  | cons i ls ih => simp [Group.setLanes, ih]
@[simp] theorem Group.setLanes_msig (g : Group) (r : Nat) (f : Nat → Word) (ls : List Nat) :
    (g.setLanes r f ls).msig = g.msig := by
  induction ls with
  | nil => rfl
  | cons i ls ih => simp [Group.setLanes, ih]
@[simp] theorem Group.setLanes_lscale (g : Group) (r : Nat) (f : Nat → Word) (ls : List Nat) :
    (g.setLanes r f ls).lscale = g.lscale := by
  induction ls with
  | nil => rfl
  | cons i ls ih => simp [Group.setLanes, ih]
@[simp] theorem Group.setLanes_ovf (g : Group) (r : Nat) (f : Nat → Word) (ls : List Nat) :
    (g.setLanes r f ls).ovf = g.ovf := by
  induction ls with
  | nil => rfl
  | cons i ls ih => simp [Group.setLanes, ih]
@[simp] theorem Group.setLanes_ovtab (g : Group) (r : Nat) (f : Nat → Word) (ls : List Nat) :
    (g.setLanes r f ls).ovtab = g.ovtab := by
  induction ls with
  | nil => rfl
  | cons i ls ih => simp [Group.setLanes, ih]
@[simp] theorem Group.setLanes_amaxSel (g : Group) (r : Nat) (f : Nat → Word) (ls : List Nat) :
    (g.setLanes r f ls).amaxSel = g.amaxSel := by
  induction ls with
  | nil => rfl
  | cons i ls ih => simp [Group.setLanes, ih]
@[simp] theorem Group.setLanes_readLatch (g : Group) (r : Nat) (f : Nat → Word) (ls : List Nat) :
    (g.setLanes r f ls).readLatch = g.readLatch := by
  induction ls with
  | nil => rfl
  | cons i ls ih => simp [Group.setLanes, ih]
@[simp] theorem Group.setLanes_timeWrite (g : Group) (r : Nat) (f : Nat → Word) (ls : List Nat) :
    (g.setLanes r f ls).timeWrite = g.timeWrite := by
  induction ls with
  | nil => rfl
  | cons i ls ih => simp [Group.setLanes, ih]
@[simp] theorem Group.setLanes_tcause (g : Group) (r : Nat) (f : Nat → Word) (ls : List Nat) :
    (g.setLanes r f ls).tcause = g.tcause := by
  induction ls with
  | nil => rfl
  | cons i ls ih => simp [Group.setLanes, ih]
@[simp] theorem Group.setLanes_tpc (g : Group) (r : Nat) (f : Nat → Word) (ls : List Nat) :
    (g.setLanes r f ls).tpc = g.tpc := by
  induction ls with
  | nil => rfl
  | cons i ls ih => simp [Group.setLanes, ih]
@[simp] theorem Group.setLanes_tval (g : Group) (r : Nat) (f : Nat → Word) (ls : List Nat) :
    (g.setLanes r f ls).tval = g.tval := by
  induction ls with
  | nil => rfl
  | cons i ls ih => simp [Group.setLanes, ih]
@[simp] theorem Group.setLanes_tmask (g : Group) (r : Nat) (f : Nat → Word) (ls : List Nat) :
    (g.setLanes r f ls).tmask = g.tmask := by
  induction ls with
  | nil => rfl
  | cons i ls ih => simp [Group.setLanes, ih]
@[simp] theorem Group.setLanes_hwdog (g : Group) (r : Nat) (f : Nat → Word) (ls : List Nat) :
    (g.setLanes r f ls).hwdog = g.hwdog := by
  induction ls with
  | nil => rfl
  | cons i ls ih => simp [Group.setLanes, ih]
@[simp] theorem Group.setLanes_cnt (g : Group) (r : Nat) (f : Nat → Word) (ls : List Nat) :
    (g.setLanes r f ls).cnt = g.cnt := by
  induction ls with
  | nil => rfl
  | cons i ls ih => simp [Group.setLanes, ih]
@[simp] theorem Group.setLanes_armed (g : Group) (r : Nat) (f : Nat → Word) (ls : List Nat) :
    (g.setLanes r f ls).armed = g.armed := by
  induction ls with
  | nil => rfl
  | cons i ls ih => simp [Group.setLanes, ih]
@[simp] theorem Group.setLanes_safeCount (g : Group) (r : Nat) (f : Nat → Word) (ls : List Nat) :
    (g.setLanes r f ls).safeCount = g.safeCount := by
  induction ls with
  | nil => rfl
  | cons i ls ih => simp [Group.setLanes, ih]
@[simp] theorem Group.setLanes_nominal (g : Group) (r : Nat) (f : Nat → Word) (ls : List Nat) :
    (g.setLanes r f ls).nominal = g.nominal := by
  induction ls with
  | nil => rfl
  | cons i ls ih => simp [Group.setLanes, ih]
@[simp] theorem Group.setLanes_producers (g : Group) (r : Nat) (f : Nat → Word) (ls : List Nat) :
    (g.setLanes r f ls).producers = g.producers := by
  induction ls with
  | nil => rfl
  | cons i ls ih => simp [Group.setLanes, ih]
@[simp] theorem Group.setLanes_stallUntil (g : Group) (r : Nat) (f : Nat → Word) (ls : List Nat) :
    (g.setLanes r f ls).stallUntil = g.stallUntil := by
  induction ls with
  | nil => rfl
  | cons i ls ih => simp [Group.setLanes, ih]
@[simp] theorem Group.setLanes_lastIssue (g : Group) (r : Nat) (f : Nat → Word) (ls : List Nat) :
    (g.setLanes r f ls).lastIssue = g.lastIssue := by
  induction ls with
  | nil => rfl
  | cons i ls ih => simp [Group.setLanes, ih]
@[simp] theorem Group.setLanes_issuesInTurn (g : Group) (r : Nat) (f : Nat → Word) (ls : List Nat) :
    (g.setLanes r f ls).issuesInTurn = g.issuesInTurn := by
  induction ls with
  | nil => rfl
  | cons i ls ih => simp [Group.setLanes, ih]
@[simp] theorem Group.setLanes_workSet (g : Group) (r : Nat) (f : Nat → Word) (ls : List Nat) :
    (g.setLanes r f ls).workSet = g.workSet := by
  induction ls with
  | nil => rfl
  | cons i ls ih => simp [Group.setLanes, ih]
@[simp] theorem Group.setLanes_splits (g : Group) (r : Nat) (f : Nat → Word) (ls : List Nat) :
    (g.setLanes r f ls).splits = g.splits := by
  induction ls with
  | nil => rfl
  | cons i ls ih => simp [Group.setLanes, ih]
@[simp] theorem Group.setLanes_exited (g : Group) (r : Nat) (f : Nat → Word) (ls : List Nat) :
    (g.setLanes r f ls).exited = g.exited := by
  induction ls with
  | nil => rfl
  | cons i ls ih => simp [Group.setLanes, ih]
@[simp] theorem Group.setLanes_handler (g : Group) (r : Nat) (f : Nat → Word) (ls : List Nat) :
    (g.setLanes r f ls).handler = g.handler := by
  induction ls with
  | nil => rfl
  | cons i ls ih => simp [Group.setLanes, ih]
@[simp] theorem Group.setLanes_parked (g : Group) (r : Nat) (f : Nat → Word) (ls : List Nat) :
    (g.setLanes r f ls).parked = g.parked := by
  induction ls with
  | nil => rfl
  | cons i ls ih => simp [Group.setLanes, ih]
@[simp] theorem Group.setLanes_blockedSince (g : Group) (r : Nat) (f : Nat → Word) (ls : List Nat) :
    (g.setLanes r f ls).blockedSince = g.blockedSince := by
  induction ls with
  | nil => rfl
  | cons i ls ih => simp [Group.setLanes, ih]
@[simp] theorem Group.setLanes_residency (g : Group) (r : Nat) (f : Nat → Word) (ls : List Nat) :
    (g.setLanes r f ls).residency = g.residency := by
  induction ls with
  | nil => rfl
  | cons i ls ih => simp [Group.setLanes, ih]
@[simp] theorem Group.setLanes_pend (g : Group) (r : Nat) (f : Nat → Word) (ls : List Nat) :
    (g.setLanes r f ls).pend = g.pend := by
  induction ls with
  | nil => rfl
  | cons i ls ih => simp [Group.setLanes, ih]
@[simp] theorem Group.setLanes_matq (g : Group) (r : Nat) (f : Nat → Word) (ls : List Nat) :
    (g.setLanes r f ls).matq = g.matq := by
  induction ls with
  | nil => rfl
  | cons i ls ih => simp [Group.setLanes, ih]
@[simp] theorem Group.setLanes_tag (g : Group) (r : Nat) (f : Nat → Word) (ls : List Nat) :
    (g.setLanes r f ls).tag = g.tag := by
  induction ls with
  | nil => rfl
  | cons i ls ih => simp [Group.setLanes, ih]
@[simp] theorem Group.setLanes_seat (g : Group) (r : Nat) (f : Nat → Word) (ls : List Nat) :
    (g.setLanes r f ls).seat = g.seat := by
  induction ls with
  | nil => rfl
  | cons i ls ih => simp [Group.setLanes, ih]
@[simp] theorem Group.setLanes_holds (g : Group) (r : Nat) (f : Nat → Word) (ls : List Nat) :
    (g.setLanes r f ls).holds = g.holds := by
  induction ls with
  | nil => rfl
  | cons i ls ih => simp [Group.setLanes, ih]
@[simp] theorem Group.setLanes_streamSlot (g : Group) (r : Nat) (f : Nat → Word) (ls : List Nat) :
    (g.setLanes r f ls).streamSlot = g.streamSlot := by
  induction ls with
  | nil => rfl
  | cons i ls ih => simp [Group.setLanes, ih]
@[simp] theorem Group.setLanes_poisoned (g : Group) (r : Nat) (f : Nat → Word) (ls : List Nat) :
    (g.setLanes r f ls).poisoned = g.poisoned := by
  induction ls with
  | nil => rfl
  | cons i ls ih => simp [Group.setLanes, ih]
@[simp] theorem Group.setLanes_bad (g : Group) (r : Nat) (f : Nat → Word) (ls : List Nat) :
    (g.setLanes r f ls).bad = g.bad := by
  induction ls with
  | nil => rfl
  | cons i ls ih => simp [Group.setLanes, ih]
@[simp] theorem Group.setLanes_lastPc (g : Group) (r : Nat) (f : Nat → Word) (ls : List Nat) :
    (g.setLanes r f ls).lastPc = g.lastPc := by
  induction ls with
  | nil => rfl
  | cons i ls ih => simp [Group.setLanes, ih]
@[simp] theorem Group.setLanes_lastPages (g : Group) (r : Nat) (f : Nat → Word) (ls : List Nat) :
    (g.setLanes r f ls).lastPages = g.lastPages := by
  induction ls with
  | nil => rfl
  | cons i ls ih => simp [Group.setLanes, ih]
@[simp] theorem Group.setLanes_syncAt (g : Group) (r : Nat) (f : Nat → Word) (ls : List Nat) :
    (g.setLanes r f ls).syncAt = g.syncAt := by
  induction ls with
  | nil => rfl
  | cons i ls ih => simp [Group.setLanes, ih]
@[simp] theorem Group.setLanes_kitty (g : Group) (r : Nat) (f : Nat → Word) (ls : List Nat) :
    (g.setLanes r f ls).kitty = g.kitty := by
  induction ls with
  | nil => rfl
  | cons i ls ih => simp [Group.setLanes, ih]
@[simp] theorem Group.setLanes_frameCopy (g : Group) (r : Nat) (f : Nat → Word) (ls : List Nat) :
    (g.setLanes r f ls).frameCopy = g.frameCopy := by
  induction ls with
  | nil => rfl
  | cons i ls ih => simp [Group.setLanes, ih]
@[simp] theorem Group.setSregs_part (g : Group) (n : Nat) (l : List Word) :
    (g.setSregs n l).part = g.part := by
  induction l generalizing g n with
  | nil => rfl
  | cons x l ih => simp [Group.setSregs, ih]
@[simp] theorem Group.setSregs_team (g : Group) (n : Nat) (l : List Word) :
    (g.setSregs n l).team = g.team := by
  induction l generalizing g n with
  | nil => rfl
  | cons x l ih => simp [Group.setSregs, ih]
@[simp] theorem Group.setSregs_index (g : Group) (n : Nat) (l : List Word) :
    (g.setSregs n l).index = g.index := by
  induction l generalizing g n with
  | nil => rfl
  | cons x l ih => simp [Group.setSregs, ih]
@[simp] theorem Group.setSregs_role (g : Group) (n : Nat) (l : List Word) :
    (g.setSregs n l).role = g.role := by
  induction l generalizing g n with
  | nil => rfl
  | cons x l ih => simp [Group.setSregs, ih]
@[simp] theorem Group.setSregs_width (g : Group) (n : Nat) (l : List Word) :
    (g.setSregs n l).width = g.width := by
  induction l generalizing g n with
  | nil => rfl
  | cons x l ih => simp [Group.setSregs, ih]
@[simp] theorem Group.setSregs_latency (g : Group) (n : Nat) (l : List Word) :
    (g.setSregs n l).latency = g.latency := by
  induction l generalizing g n with
  | nil => rfl
  | cons x l ih => simp [Group.setSregs, ih]
@[simp] theorem Group.setSregs_issueSlot (g : Group) (n : Nat) (l : List Word) :
    (g.setSregs n l).issueSlot = g.issueSlot := by
  induction l generalizing g n with
  | nil => rfl
  | cons x l ih => simp [Group.setSregs, ih]
@[simp] theorem Group.setSregs_lanePos (g : Group) (n : Nat) (l : List Word) :
    (g.setSregs n l).lanePos = g.lanePos := by
  induction l generalizing g n with
  | nil => rfl
  | cons x l ih => simp [Group.setSregs, ih]
@[simp] theorem Group.setSregs_vAlloc (g : Group) (n : Nat) (l : List Word) :
    (g.setSregs n l).vAlloc = g.vAlloc := by
  induction l generalizing g n with
  | nil => rfl
  | cons x l ih => simp [Group.setSregs, ih]
@[simp] theorem Group.setSregs_sAlloc (g : Group) (n : Nat) (l : List Word) :
    (g.setSregs n l).sAlloc = g.sAlloc := by
  induction l generalizing g n with
  | nil => rfl
  | cons x l ih => simp [Group.setSregs, ih]
@[simp] theorem Group.setSregs_tAlloc (g : Group) (n : Nat) (l : List Word) :
    (g.setSregs n l).tAlloc = g.tAlloc := by
  induction l generalizing g n with
  | nil => rfl
  | cons x l ih => simp [Group.setSregs, ih]
@[simp] theorem Group.setSregs_aAlloc (g : Group) (n : Nat) (l : List Word) :
    (g.setSregs n l).aAlloc = g.aAlloc := by
  induction l generalizing g n with
  | nil => rfl
  | cons x l ih => simp [Group.setSregs, ih]
@[simp] theorem Group.setSregs_text (g : Group) (n : Nat) (l : List Word) :
    (g.setSregs n l).text = g.text := by
  induction l generalizing g n with
  | nil => rfl
  | cons x l ih => simp [Group.setSregs, ih]
@[simp] theorem Group.setSregs_liveset (g : Group) (n : Nat) (l : List Word) :
    (g.setSregs n l).liveset = g.liveset := by
  induction l generalizing g n with
  | nil => rfl
  | cons x l ih => simp [Group.setSregs, ih]
@[simp] theorem Group.setSregs_liveCount (g : Group) (n : Nat) (l : List Word) :
    (g.setSregs n l).liveCount = g.liveCount := by
  induction l generalizing g n with
  | nil => rfl
  | cons x l ih => simp [Group.setSregs, ih]
@[simp] theorem Group.setSregs_data (g : Group) (n : Nat) (l : List Word) :
    (g.setSregs n l).data = g.data := by
  induction l generalizing g n with
  | nil => rfl
  | cons x l ih => simp [Group.setSregs, ih]
@[simp] theorem Group.setSregs_gridId (g : Group) (n : Nat) (l : List Word) :
    (g.setSregs n l).gridId = g.gridId := by
  induction l generalizing g n with
  | nil => rfl
  | cons x l ih => simp [Group.setSregs, ih]
@[simp] theorem Group.setSregs_depth (g : Group) (n : Nat) (l : List Word) :
    (g.setSregs n l).depth = g.depth := by
  induction l generalizing g n with
  | nil => rfl
  | cons x l ih => simp [Group.setSregs, ih]
@[simp] theorem Group.setSregs_teamX (g : Group) (n : Nat) (l : List Word) :
    (g.setSregs n l).teamX = g.teamX := by
  induction l generalizing g n with
  | nil => rfl
  | cons x l ih => simp [Group.setSregs, ih]
@[simp] theorem Group.setSregs_teamY (g : Group) (n : Nat) (l : List Word) :
    (g.setSregs n l).teamY = g.teamY := by
  induction l generalizing g n with
  | nil => rfl
  | cons x l ih => simp [Group.setSregs, ih]
@[simp] theorem Group.setSregs_teamZ (g : Group) (n : Nat) (l : List Word) :
    (g.setSregs n l).teamZ = g.teamZ := by
  induction l generalizing g n with
  | nil => rfl
  | cons x l ih => simp [Group.setSregs, ih]
@[simp] theorem Group.setSregs_vregs (g : Group) (n : Nat) (l : List Word) :
    (g.setSregs n l).vregs = g.vregs := by
  induction l generalizing g n with
  | nil => rfl
  | cons x l ih => simp [Group.setSregs, ih]
@[simp] theorem Group.setSregs_preds (g : Group) (n : Nat) (l : List Word) :
    (g.setSregs n l).preds = g.preds := by
  induction l generalizing g n with
  | nil => rfl
  | cons x l ih => simp [Group.setSregs, ih]
@[simp] theorem Group.setSregs_tiles (g : Group) (n : Nat) (l : List Word) :
    (g.setSregs n l).tiles = g.tiles := by
  induction l generalizing g n with
  | nil => rfl
  | cons x l ih => simp [Group.setSregs, ih]
@[simp] theorem Group.setSregs_accs (g : Group) (n : Nat) (l : List Word) :
    (g.setSregs n l).accs = g.accs := by
  induction l generalizing g n with
  | nil => rfl
  | cons x l ih => simp [Group.setSregs, ih]
@[simp] theorem Group.setSregs_amax (g : Group) (n : Nat) (l : List Word) :
    (g.setSregs n l).amax = g.amax := by
  induction l generalizing g n with
  | nil => rfl
  | cons x l ih => simp [Group.setSregs, ih]
@[simp] theorem Group.setSregs_mode (g : Group) (n : Nat) (l : List Word) :
    (g.setSregs n l).mode = g.mode := by
  induction l generalizing g n with
  | nil => rfl
  | cons x l ih => simp [Group.setSregs, ih]
@[simp] theorem Group.setSregs_scc (g : Group) (n : Nat) (l : List Word) :
    (g.setSregs n l).scc = g.scc := by
  induction l generalizing g n with
  | nil => rfl
  | cons x l ih => simp [Group.setSregs, ih]
@[simp] theorem Group.setSregs_flags (g : Group) (n : Nat) (l : List Word) :
    (g.setSregs n l).flags = g.flags := by
  induction l generalizing g n with
  | nil => rfl
  | cons x l ih => simp [Group.setSregs, ih]
@[simp] theorem Group.setSregs_sig (g : Group) (n : Nat) (l : List Word) :
    (g.setSregs n l).sig = g.sig := by
  induction l generalizing g n with
  | nil => rfl
  | cons x l ih => simp [Group.setSregs, ih]
@[simp] theorem Group.setSregs_msig (g : Group) (n : Nat) (l : List Word) :
    (g.setSregs n l).msig = g.msig := by
  induction l generalizing g n with
  | nil => rfl
  | cons x l ih => simp [Group.setSregs, ih]
@[simp] theorem Group.setSregs_lscale (g : Group) (n : Nat) (l : List Word) :
    (g.setSregs n l).lscale = g.lscale := by
  induction l generalizing g n with
  | nil => rfl
  | cons x l ih => simp [Group.setSregs, ih]
@[simp] theorem Group.setSregs_ovf (g : Group) (n : Nat) (l : List Word) :
    (g.setSregs n l).ovf = g.ovf := by
  induction l generalizing g n with
  | nil => rfl
  | cons x l ih => simp [Group.setSregs, ih]
@[simp] theorem Group.setSregs_ovtab (g : Group) (n : Nat) (l : List Word) :
    (g.setSregs n l).ovtab = g.ovtab := by
  induction l generalizing g n with
  | nil => rfl
  | cons x l ih => simp [Group.setSregs, ih]
@[simp] theorem Group.setSregs_amaxSel (g : Group) (n : Nat) (l : List Word) :
    (g.setSregs n l).amaxSel = g.amaxSel := by
  induction l generalizing g n with
  | nil => rfl
  | cons x l ih => simp [Group.setSregs, ih]
@[simp] theorem Group.setSregs_readLatch (g : Group) (n : Nat) (l : List Word) :
    (g.setSregs n l).readLatch = g.readLatch := by
  induction l generalizing g n with
  | nil => rfl
  | cons x l ih => simp [Group.setSregs, ih]
@[simp] theorem Group.setSregs_timeWrite (g : Group) (n : Nat) (l : List Word) :
    (g.setSregs n l).timeWrite = g.timeWrite := by
  induction l generalizing g n with
  | nil => rfl
  | cons x l ih => simp [Group.setSregs, ih]
@[simp] theorem Group.setSregs_tcause (g : Group) (n : Nat) (l : List Word) :
    (g.setSregs n l).tcause = g.tcause := by
  induction l generalizing g n with
  | nil => rfl
  | cons x l ih => simp [Group.setSregs, ih]
@[simp] theorem Group.setSregs_tpc (g : Group) (n : Nat) (l : List Word) :
    (g.setSregs n l).tpc = g.tpc := by
  induction l generalizing g n with
  | nil => rfl
  | cons x l ih => simp [Group.setSregs, ih]
@[simp] theorem Group.setSregs_tval (g : Group) (n : Nat) (l : List Word) :
    (g.setSregs n l).tval = g.tval := by
  induction l generalizing g n with
  | nil => rfl
  | cons x l ih => simp [Group.setSregs, ih]
@[simp] theorem Group.setSregs_tmask (g : Group) (n : Nat) (l : List Word) :
    (g.setSregs n l).tmask = g.tmask := by
  induction l generalizing g n with
  | nil => rfl
  | cons x l ih => simp [Group.setSregs, ih]
@[simp] theorem Group.setSregs_hwdog (g : Group) (n : Nat) (l : List Word) :
    (g.setSregs n l).hwdog = g.hwdog := by
  induction l generalizing g n with
  | nil => rfl
  | cons x l ih => simp [Group.setSregs, ih]
@[simp] theorem Group.setSregs_cnt (g : Group) (n : Nat) (l : List Word) :
    (g.setSregs n l).cnt = g.cnt := by
  induction l generalizing g n with
  | nil => rfl
  | cons x l ih => simp [Group.setSregs, ih]
@[simp] theorem Group.setSregs_armed (g : Group) (n : Nat) (l : List Word) :
    (g.setSregs n l).armed = g.armed := by
  induction l generalizing g n with
  | nil => rfl
  | cons x l ih => simp [Group.setSregs, ih]
@[simp] theorem Group.setSregs_safeCount (g : Group) (n : Nat) (l : List Word) :
    (g.setSregs n l).safeCount = g.safeCount := by
  induction l generalizing g n with
  | nil => rfl
  | cons x l ih => simp [Group.setSregs, ih]
@[simp] theorem Group.setSregs_nominal (g : Group) (n : Nat) (l : List Word) :
    (g.setSregs n l).nominal = g.nominal := by
  induction l generalizing g n with
  | nil => rfl
  | cons x l ih => simp [Group.setSregs, ih]
@[simp] theorem Group.setSregs_producers (g : Group) (n : Nat) (l : List Word) :
    (g.setSregs n l).producers = g.producers := by
  induction l generalizing g n with
  | nil => rfl
  | cons x l ih => simp [Group.setSregs, ih]
@[simp] theorem Group.setSregs_stallUntil (g : Group) (n : Nat) (l : List Word) :
    (g.setSregs n l).stallUntil = g.stallUntil := by
  induction l generalizing g n with
  | nil => rfl
  | cons x l ih => simp [Group.setSregs, ih]
@[simp] theorem Group.setSregs_lastIssue (g : Group) (n : Nat) (l : List Word) :
    (g.setSregs n l).lastIssue = g.lastIssue := by
  induction l generalizing g n with
  | nil => rfl
  | cons x l ih => simp [Group.setSregs, ih]
@[simp] theorem Group.setSregs_issuesInTurn (g : Group) (n : Nat) (l : List Word) :
    (g.setSregs n l).issuesInTurn = g.issuesInTurn := by
  induction l generalizing g n with
  | nil => rfl
  | cons x l ih => simp [Group.setSregs, ih]
@[simp] theorem Group.setSregs_workSet (g : Group) (n : Nat) (l : List Word) :
    (g.setSregs n l).workSet = g.workSet := by
  induction l generalizing g n with
  | nil => rfl
  | cons x l ih => simp [Group.setSregs, ih]
@[simp] theorem Group.setSregs_splits (g : Group) (n : Nat) (l : List Word) :
    (g.setSregs n l).splits = g.splits := by
  induction l generalizing g n with
  | nil => rfl
  | cons x l ih => simp [Group.setSregs, ih]
@[simp] theorem Group.setSregs_exited (g : Group) (n : Nat) (l : List Word) :
    (g.setSregs n l).exited = g.exited := by
  induction l generalizing g n with
  | nil => rfl
  | cons x l ih => simp [Group.setSregs, ih]
@[simp] theorem Group.setSregs_handler (g : Group) (n : Nat) (l : List Word) :
    (g.setSregs n l).handler = g.handler := by
  induction l generalizing g n with
  | nil => rfl
  | cons x l ih => simp [Group.setSregs, ih]
@[simp] theorem Group.setSregs_parked (g : Group) (n : Nat) (l : List Word) :
    (g.setSregs n l).parked = g.parked := by
  induction l generalizing g n with
  | nil => rfl
  | cons x l ih => simp [Group.setSregs, ih]
@[simp] theorem Group.setSregs_blockedSince (g : Group) (n : Nat) (l : List Word) :
    (g.setSregs n l).blockedSince = g.blockedSince := by
  induction l generalizing g n with
  | nil => rfl
  | cons x l ih => simp [Group.setSregs, ih]
@[simp] theorem Group.setSregs_residency (g : Group) (n : Nat) (l : List Word) :
    (g.setSregs n l).residency = g.residency := by
  induction l generalizing g n with
  | nil => rfl
  | cons x l ih => simp [Group.setSregs, ih]
@[simp] theorem Group.setSregs_pend (g : Group) (n : Nat) (l : List Word) :
    (g.setSregs n l).pend = g.pend := by
  induction l generalizing g n with
  | nil => rfl
  | cons x l ih => simp [Group.setSregs, ih]
@[simp] theorem Group.setSregs_matq (g : Group) (n : Nat) (l : List Word) :
    (g.setSregs n l).matq = g.matq := by
  induction l generalizing g n with
  | nil => rfl
  | cons x l ih => simp [Group.setSregs, ih]
@[simp] theorem Group.setSregs_tag (g : Group) (n : Nat) (l : List Word) :
    (g.setSregs n l).tag = g.tag := by
  induction l generalizing g n with
  | nil => rfl
  | cons x l ih => simp [Group.setSregs, ih]
@[simp] theorem Group.setSregs_seat (g : Group) (n : Nat) (l : List Word) :
    (g.setSregs n l).seat = g.seat := by
  induction l generalizing g n with
  | nil => rfl
  | cons x l ih => simp [Group.setSregs, ih]
@[simp] theorem Group.setSregs_holds (g : Group) (n : Nat) (l : List Word) :
    (g.setSregs n l).holds = g.holds := by
  induction l generalizing g n with
  | nil => rfl
  | cons x l ih => simp [Group.setSregs, ih]
@[simp] theorem Group.setSregs_streamSlot (g : Group) (n : Nat) (l : List Word) :
    (g.setSregs n l).streamSlot = g.streamSlot := by
  induction l generalizing g n with
  | nil => rfl
  | cons x l ih => simp [Group.setSregs, ih]
@[simp] theorem Group.setSregs_poisoned (g : Group) (n : Nat) (l : List Word) :
    (g.setSregs n l).poisoned = g.poisoned := by
  induction l generalizing g n with
  | nil => rfl
  | cons x l ih => simp [Group.setSregs, ih]
@[simp] theorem Group.setSregs_bad (g : Group) (n : Nat) (l : List Word) :
    (g.setSregs n l).bad = g.bad := by
  induction l generalizing g n with
  | nil => rfl
  | cons x l ih => simp [Group.setSregs, ih]
@[simp] theorem Group.setSregs_lastPc (g : Group) (n : Nat) (l : List Word) :
    (g.setSregs n l).lastPc = g.lastPc := by
  induction l generalizing g n with
  | nil => rfl
  | cons x l ih => simp [Group.setSregs, ih]
@[simp] theorem Group.setSregs_lastPages (g : Group) (n : Nat) (l : List Word) :
    (g.setSregs n l).lastPages = g.lastPages := by
  induction l generalizing g n with
  | nil => rfl
  | cons x l ih => simp [Group.setSregs, ih]
@[simp] theorem Group.setSregs_syncAt (g : Group) (n : Nat) (l : List Word) :
    (g.setSregs n l).syncAt = g.syncAt := by
  induction l generalizing g n with
  | nil => rfl
  | cons x l ih => simp [Group.setSregs, ih]
@[simp] theorem Group.setSregs_kitty (g : Group) (n : Nat) (l : List Word) :
    (g.setSregs n l).kitty = g.kitty := by
  induction l generalizing g n with
  | nil => rfl
  | cons x l ih => simp [Group.setSregs, ih]
@[simp] theorem Group.setSregs_frameCopy (g : Group) (n : Nat) (l : List Word) :
    (g.setSregs n l).frameCopy = g.frameCopy := by
  induction l generalizing g n with
  | nil => rfl
  | cons x l ih => simp [Group.setSregs, ih]

@[simp] theorem State.setBytes_tick (s : State) (pa : Nat) (bs : List Byte) : (s.setBytes pa bs).tick = s.tick := by
  induction bs generalizing s pa with
  | nil => rfl
  | cons b r ih => simp [State.setBytes, ih]
@[simp] theorem State.setSbytes_tick (s : State) (k : Nat) (bs : List Byte) : (s.setSbytes k bs).tick = s.tick := by
  induction bs generalizing s k with
  | nil => rfl
  | cons b r ih => simp [State.setSbytes, ih]
@[simp] theorem State.setBytes_clock (s : State) (pa : Nat) (bs : List Byte) : (s.setBytes pa bs).clock = s.clock := by
  induction bs generalizing s pa with
  | nil => rfl
  | cons b r ih => simp [State.setBytes, ih]
@[simp] theorem State.setSbytes_clock (s : State) (k : Nat) (bs : List Byte) : (s.setSbytes k bs).clock = s.clock := by
  induction bs generalizing s k with
  | nil => rfl
  | cons b r ih => simp [State.setSbytes, ih]
@[simp] theorem State.setBytes_serial (s : State) (pa : Nat) (bs : List Byte) : (s.setBytes pa bs).serial = s.serial := by
  induction bs generalizing s pa with
  | nil => rfl
  | cons b r ih => simp [State.setBytes, ih]
@[simp] theorem State.setSbytes_serial (s : State) (k : Nat) (bs : List Byte) : (s.setSbytes k bs).serial = s.serial := by
  induction bs generalizing s k with
  | nil => rfl
  | cons b r ih => simp [State.setSbytes, ih]
@[simp] theorem State.setBytes_cur (s : State) (pa : Nat) (bs : List Byte) : (s.setBytes pa bs).cur = s.cur := by
  induction bs generalizing s pa with
  | nil => rfl
  | cons b r ih => simp [State.setBytes, ih]
@[simp] theorem State.setSbytes_cur (s : State) (k : Nat) (bs : List Byte) : (s.setSbytes k bs).cur = s.cur := by
  induction bs generalizing s k with
  | nil => rfl
  | cons b r ih => simp [State.setSbytes, ih]
@[simp] theorem State.setBytes_also (s : State) (pa : Nat) (bs : List Byte) : (s.setBytes pa bs).also = s.also := by
  induction bs generalizing s pa with
  | nil => rfl
  | cons b r ih => simp [State.setBytes, ih]
@[simp] theorem State.setSbytes_also (s : State) (k : Nat) (bs : List Byte) : (s.setSbytes k bs).also = s.also := by
  induction bs generalizing s k with
  | nil => rfl
  | cons b r ih => simp [State.setSbytes, ih]
@[simp] theorem State.setBytes_joint (s : State) (pa : Nat) (bs : List Byte) : (s.setBytes pa bs).joint = s.joint := by
  induction bs generalizing s pa with
  | nil => rfl
  | cons b r ih => simp [State.setBytes, ih]
@[simp] theorem State.setSbytes_joint (s : State) (k : Nat) (bs : List Byte) : (s.setSbytes k bs).joint = s.joint := by
  induction bs generalizing s k with
  | nil => rfl
  | cons b r ih => simp [State.setSbytes, ih]
@[simp] theorem State.setBytes_turn (s : State) (pa : Nat) (bs : List Byte) : (s.setBytes pa bs).turn = s.turn := by
  induction bs generalizing s pa with
  | nil => rfl
  | cons b r ih => simp [State.setBytes, ih]
@[simp] theorem State.setSbytes_turn (s : State) (k : Nat) (bs : List Byte) : (s.setSbytes k bs).turn = s.turn := by
  induction bs generalizing s k with
  | nil => rfl
  | cons b r ih => simp [State.setSbytes, ih]
@[simp] theorem State.setBytes_rota (s : State) (pa : Nat) (bs : List Byte) : (s.setBytes pa bs).rota = s.rota := by
  induction bs generalizing s pa with
  | nil => rfl
  | cons b r ih => simp [State.setBytes, ih]
@[simp] theorem State.setSbytes_rota (s : State) (k : Nat) (bs : List Byte) : (s.setSbytes k bs).rota = s.rota := by
  induction bs generalizing s k with
  | nil => rfl
  | cons b r ih => simp [State.setSbytes, ih]
@[simp] theorem State.setBytes_inbox (s : State) (pa : Nat) (bs : List Byte) : (s.setBytes pa bs).inbox = s.inbox := by
  induction bs generalizing s pa with
  | nil => rfl
  | cons b r ih => simp [State.setBytes, ih]
@[simp] theorem State.setSbytes_inbox (s : State) (k : Nat) (bs : List Byte) : (s.setSbytes k bs).inbox = s.inbox := by
  induction bs generalizing s k with
  | nil => rfl
  | cons b r ih => simp [State.setSbytes, ih]
@[simp] theorem State.setBytes_pkg (s : State) (pa : Nat) (bs : List Byte) : (s.setBytes pa bs).pkg = s.pkg := by
  induction bs generalizing s pa with
  | nil => rfl
  | cons b r ih => simp [State.setBytes, ih]
@[simp] theorem State.setSbytes_pkg (s : State) (k : Nat) (bs : List Byte) : (s.setSbytes k bs).pkg = s.pkg := by
  induction bs generalizing s k with
  | nil => rfl
  | cons b r ih => simp [State.setSbytes, ih]
@[simp] theorem State.setBytes_parts (s : State) (pa : Nat) (bs : List Byte) : (s.setBytes pa bs).parts = s.parts := by
  induction bs generalizing s pa with
  | nil => rfl
  | cons b r ih => simp [State.setBytes, ih]
@[simp] theorem State.setSbytes_parts (s : State) (k : Nat) (bs : List Byte) : (s.setSbytes k bs).parts = s.parts := by
  induction bs generalizing s k with
  | nil => rfl
  | cons b r ih => simp [State.setSbytes, ih]
@[simp] theorem State.setBytes_groups (s : State) (pa : Nat) (bs : List Byte) : (s.setBytes pa bs).groups = s.groups := by
  induction bs generalizing s pa with
  | nil => rfl
  | cons b r ih => simp [State.setBytes, ih]
@[simp] theorem State.setSbytes_groups (s : State) (k : Nat) (bs : List Byte) : (s.setSbytes k bs).groups = s.groups := by
  induction bs generalizing s k with
  | nil => rfl
  | cons b r ih => simp [State.setSbytes, ih]
@[simp] theorem State.setBytes_teams (s : State) (pa : Nat) (bs : List Byte) : (s.setBytes pa bs).teams = s.teams := by
  induction bs generalizing s pa with
  | nil => rfl
  | cons b r ih => simp [State.setBytes, ih]
@[simp] theorem State.setSbytes_teams (s : State) (k : Nat) (bs : List Byte) : (s.setSbytes k bs).teams = s.teams := by
  induction bs generalizing s k with
  | nil => rfl
  | cons b r ih => simp [State.setSbytes, ih]
@[simp] theorem State.setBytes_grids (s : State) (pa : Nat) (bs : List Byte) : (s.setBytes pa bs).grids = s.grids := by
  induction bs generalizing s pa with
  | nil => rfl
  | cons b r ih => simp [State.setBytes, ih]
@[simp] theorem State.setSbytes_grids (s : State) (k : Nat) (bs : List Byte) : (s.setSbytes k bs).grids = s.grids := by
  induction bs generalizing s k with
  | nil => rfl
  | cons b r ih => simp [State.setSbytes, ih]
@[simp] theorem State.setBytes_hands (s : State) (pa : Nat) (bs : List Byte) : (s.setBytes pa bs).hands = s.hands := by
  induction bs generalizing s pa with
  | nil => rfl
  | cons b r ih => simp [State.setBytes, ih]
@[simp] theorem State.setSbytes_hands (s : State) (k : Nat) (bs : List Byte) : (s.setSbytes k bs).hands = s.hands := by
  induction bs generalizing s k with
  | nil => rfl
  | cons b r ih => simp [State.setSbytes, ih]
@[simp] theorem State.setBytes_latencyRuns (s : State) (pa : Nat) (bs : List Byte) : (s.setBytes pa bs).latencyRuns = s.latencyRuns := by
  induction bs generalizing s pa with
  | nil => rfl
  | cons b r ih => simp [State.setBytes, ih]
@[simp] theorem State.setSbytes_latencyRuns (s : State) (k : Nat) (bs : List Byte) : (s.setSbytes k bs).latencyRuns = s.latencyRuns := by
  induction bs generalizing s k with
  | nil => rfl
  | cons b r ih => simp [State.setSbytes, ih]
@[simp] theorem State.setSbytes_mem (s : State) (k : Nat) (bs : List Byte) : (s.setSbytes k bs).mem = s.mem := by
  induction bs generalizing s k with
  | nil => rfl
  | cons b r ih => simp [State.setSbytes, ih]
@[simp] theorem State.setBytes_spad (s : State) (pa : Nat) (bs : List Byte) : (s.setBytes pa bs).spad = s.spad := by
  induction bs generalizing s pa with
  | nil => rfl
  | cons b r ih => simp [State.setBytes, ih]
@[simp] theorem State.setSbytes_poison (s : State) (k : Nat) (bs : List Byte) : (s.setSbytes k bs).poison = s.poison := by
  induction bs generalizing s k with
  | nil => rfl
  | cons b r ih => simp [State.setSbytes, ih]
@[simp] theorem State.setBytes_spadPoison (s : State) (pa : Nat) (bs : List Byte) : (s.setBytes pa bs).spadPoison = s.spadPoison := by
  induction bs generalizing s pa with
  | nil => rfl
  | cons b r ih => simp [State.setBytes, ih]
@[simp] theorem State.setBytes_dir (s : State) (pa : Nat) (bs : List Byte) : (s.setBytes pa bs).dir = s.dir := by
  induction bs generalizing s pa with
  | nil => rfl
  | cons b r ih => simp [State.setBytes, ih]
@[simp] theorem State.setSbytes_dir (s : State) (k : Nat) (bs : List Byte) : (s.setSbytes k bs).dir = s.dir := by
  induction bs generalizing s k with
  | nil => rfl
  | cons b r ih => simp [State.setSbytes, ih]
@[simp] theorem State.setBytes_tlbs (s : State) (pa : Nat) (bs : List Byte) : (s.setBytes pa bs).tlbs = s.tlbs := by
  induction bs generalizing s pa with
  | nil => rfl
  | cons b r ih => simp [State.setBytes, ih]
@[simp] theorem State.setSbytes_tlbs (s : State) (k : Nat) (bs : List Byte) : (s.setSbytes k bs).tlbs = s.tlbs := by
  induction bs generalizing s k with
  | nil => rfl
  | cons b r ih => simp [State.setSbytes, ih]
@[simp] theorem State.setBytes_dieTlbs (s : State) (pa : Nat) (bs : List Byte) : (s.setBytes pa bs).dieTlbs = s.dieTlbs := by
  induction bs generalizing s pa with
  | nil => rfl
  | cons b r ih => simp [State.setBytes, ih]
@[simp] theorem State.setSbytes_dieTlbs (s : State) (k : Nat) (bs : List Byte) : (s.setSbytes k bs).dieTlbs = s.dieTlbs := by
  induction bs generalizing s k with
  | nil => rfl
  | cons b r ih => simp [State.setSbytes, ih]
@[simp] theorem State.setBytes_hist (s : State) (pa : Nat) (bs : List Byte) : (s.setBytes pa bs).hist = s.hist := by
  induction bs generalizing s pa with
  | nil => rfl
  | cons b r ih => simp [State.setBytes, ih]
@[simp] theorem State.setSbytes_hist (s : State) (k : Nat) (bs : List Byte) : (s.setSbytes k bs).hist = s.hist := by
  induction bs generalizing s k with
  | nil => rfl
  | cons b r ih => simp [State.setSbytes, ih]
@[simp] theorem State.setBytes_pages (s : State) (pa : Nat) (bs : List Byte) : (s.setBytes pa bs).pages = s.pages := by
  induction bs generalizing s pa with
  | nil => rfl
  | cons b r ih => simp [State.setBytes, ih]
@[simp] theorem State.setSbytes_pages (s : State) (k : Nat) (bs : List Byte) : (s.setSbytes k bs).pages = s.pages := by
  induction bs generalizing s k with
  | nil => rfl
  | cons b r ih => simp [State.setSbytes, ih]
@[simp] theorem State.setBytes_copies (s : State) (pa : Nat) (bs : List Byte) : (s.setBytes pa bs).copies = s.copies := by
  induction bs generalizing s pa with
  | nil => rfl
  | cons b r ih => simp [State.setBytes, ih]
@[simp] theorem State.setSbytes_copies (s : State) (k : Nat) (bs : List Byte) : (s.setSbytes k bs).copies = s.copies := by
  induction bs generalizing s k with
  | nil => rfl
  | cons b r ih => simp [State.setSbytes, ih]
@[simp] theorem State.setBytes_locks (s : State) (pa : Nat) (bs : List Byte) : (s.setBytes pa bs).locks = s.locks := by
  induction bs generalizing s pa with
  | nil => rfl
  | cons b r ih => simp [State.setBytes, ih]
@[simp] theorem State.setSbytes_locks (s : State) (k : Nat) (bs : List Byte) : (s.setSbytes k bs).locks = s.locks := by
  induction bs generalizing s k with
  | nil => rfl
  | cons b r ih => simp [State.setSbytes, ih]
@[simp] theorem State.setBytes_fabric (s : State) (pa : Nat) (bs : List Byte) : (s.setBytes pa bs).fabric = s.fabric := by
  induction bs generalizing s pa with
  | nil => rfl
  | cons b r ih => simp [State.setBytes, ih]
@[simp] theorem State.setSbytes_fabric (s : State) (k : Nat) (bs : List Byte) : (s.setSbytes k bs).fabric = s.fabric := by
  induction bs generalizing s k with
  | nil => rfl
  | cons b r ih => simp [State.setSbytes, ih]
@[simp] theorem State.setBytes_streams (s : State) (pa : Nat) (bs : List Byte) : (s.setBytes pa bs).streams = s.streams := by
  induction bs generalizing s pa with
  | nil => rfl
  | cons b r ih => simp [State.setBytes, ih]
@[simp] theorem State.setSbytes_streams (s : State) (k : Nat) (bs : List Byte) : (s.setSbytes k bs).streams = s.streams := by
  induction bs generalizing s k with
  | nil => rfl
  | cons b r ih => simp [State.setSbytes, ih]
@[simp] theorem State.setBytes_frozen (s : State) (pa : Nat) (bs : List Byte) : (s.setBytes pa bs).frozen = s.frozen := by
  induction bs generalizing s pa with
  | nil => rfl
  | cons b r ih => simp [State.setBytes, ih]
@[simp] theorem State.setSbytes_frozen (s : State) (k : Nat) (bs : List Byte) : (s.setSbytes k bs).frozen = s.frozen := by
  induction bs generalizing s k with
  | nil => rfl
  | cons b r ih => simp [State.setSbytes, ih]
@[simp] theorem State.setBytes_foreign (s : State) (pa : Nat) (bs : List Byte) : (s.setBytes pa bs).foreign = s.foreign := by
  induction bs generalizing s pa with
  | nil => rfl
  | cons b r ih => simp [State.setBytes, ih]
@[simp] theorem State.setSbytes_foreign (s : State) (k : Nat) (bs : List Byte) : (s.setSbytes k bs).foreign = s.foreign := by
  induction bs generalizing s k with
  | nil => rfl
  | cons b r ih => simp [State.setSbytes, ih]
@[simp] theorem State.setBytes_deliveries (s : State) (pa : Nat) (bs : List Byte) : (s.setBytes pa bs).deliveries = s.deliveries := by
  induction bs generalizing s pa with
  | nil => rfl
  | cons b r ih => simp [State.setBytes, ih]
@[simp] theorem State.setSbytes_deliveries (s : State) (k : Nat) (bs : List Byte) : (s.setSbytes k bs).deliveries = s.deliveries := by
  induction bs generalizing s k with
  | nil => rfl
  | cons b r ih => simp [State.setSbytes, ih]
@[simp] theorem State.setBytes_arrivals (s : State) (pa : Nat) (bs : List Byte) : (s.setBytes pa bs).arrivals = s.arrivals := by
  induction bs generalizing s pa with
  | nil => rfl
  | cons b r ih => simp [State.setBytes, ih]
@[simp] theorem State.setSbytes_arrivals (s : State) (k : Nat) (bs : List Byte) : (s.setSbytes k bs).arrivals = s.arrivals := by
  induction bs generalizing s k with
  | nil => rfl
  | cons b r ih => simp [State.setSbytes, ih]
@[simp] theorem State.setBytes_sent (s : State) (pa : Nat) (bs : List Byte) : (s.setBytes pa bs).sent = s.sent := by
  induction bs generalizing s pa with
  | nil => rfl
  | cons b r ih => simp [State.setBytes, ih]
@[simp] theorem State.setSbytes_sent (s : State) (k : Nat) (bs : List Byte) : (s.setSbytes k bs).sent = s.sent := by
  induction bs generalizing s k with
  | nil => rfl
  | cons b r ih => simp [State.setSbytes, ih]
@[simp] theorem State.setBytes_hostWaits (s : State) (pa : Nat) (bs : List Byte) : (s.setBytes pa bs).hostWaits = s.hostWaits := by
  induction bs generalizing s pa with
  | nil => rfl
  | cons b r ih => simp [State.setBytes, ih]
@[simp] theorem State.setSbytes_hostWaits (s : State) (k : Nat) (bs : List Byte) : (s.setSbytes k bs).hostWaits = s.hostWaits := by
  induction bs generalizing s k with
  | nil => rfl
  | cons b r ih => simp [State.setSbytes, ih]
@[simp] theorem State.setBytes_nextId (s : State) (pa : Nat) (bs : List Byte) : (s.setBytes pa bs).nextId = s.nextId := by
  induction bs generalizing s pa with
  | nil => rfl
  | cons b r ih => simp [State.setBytes, ih]
@[simp] theorem State.setSbytes_nextId (s : State) (k : Nat) (bs : List Byte) : (s.setSbytes k bs).nextId = s.nextId := by
  induction bs generalizing s k with
  | nil => rfl
  | cons b r ih => simp [State.setSbytes, ih]

end Sys2Proof.Machine
end

