-- ==== Sys2Proof/Laws/Access.lean ====
section
/-! SUPPORT. What the named reads and writes of the state give one after another. -/
namespace Sys2Proof.Machine

@[simp] theorem State.group_setGroup (s : State) (gid k : Nat) (g : Group) :
    (s.setGroup gid g).group k = if k = gid then some g else s.group k := by
  simp [State.group]

@[simp] theorem State.part_setPart (s : State) (p k : Nat) (x : Part) :
    (s.setPart p x).part k = if k = p then some x else s.part k := by
  simp [State.part]

@[simp] theorem State.team_setTeam (s : State) (t k : Nat) (x : Team) :
    (s.setTeam t x).team k = if k = t then some x else s.team k := by
  simp [State.team]

@[simp] theorem State.part_setGroup (s : State) (gid k : Nat) (g : Group) : (s.setGroup gid g).part k = s.part k := rfl

@[simp] theorem State.team_setGroup (s : State) (gid k : Nat) (g : Group) : (s.setGroup gid g).team k = s.team k := rfl

@[simp] theorem State.setGroup_setGroup (s : State) (gid : Nat) (g h : Group) :
    (s.setGroup gid g).setGroup gid h = s.setGroup gid h := by
  simp [State.setGroup]

theorem State.modGroup_some {s : State} {gid : Nat} {g : Group} (h : s.group gid = some g) (f : Group → Group) :
    s.modGroup gid f = s.setGroup gid (f g) := by
  simp [State.modGroup, h]

@[simp] theorem State.modGroup_setGroup (s : State) (gid : Nat) (g : Group) (f : Group → Group) :
    (s.setGroup gid g).modGroup gid f = s.setGroup gid (f g) := by
  rw [State.modGroup_some (g := g) (by simp)]; simp

theorem State.group_modGroup (s : State) (gid k : Nat) (f : Group → Group) :
    (s.modGroup gid f).group k = if k = gid then (s.group gid).map f else s.group k := by
  unfold State.modGroup
  cases h : s.group gid with
  | none =>
    simp only [Option.map_none]
    split
    · next e => rw [e, h]
    · rfl
  | some g => simp

/-- s63 reads 0 and discards writes; another register reads as last written (R49). -/
@[simp] theorem Group.sreg_setSreg (g : Group) (n m : Nat) (x : Word) :
    (g.setSreg n x).sreg m = if m = 63 then 0 else if m = n then x else g.sreg m := by
  unfold Group.setSreg Group.sreg
  by_cases h1 : m = 63
  · simp [h1]
  · by_cases h2 : n = 63
    · subst h2; simp [h1]
    · simp [h1, h2]

/-- p7 reads all ones and discards writes; another predicate reads as last written (R49). -/
@[simp] theorem Group.pred_setPred (g : Group) (n k : Nat) (m : DWord) :
    (g.setPred n m).pred k = if k = 7 then BitVec.allOnes 64 else if k = n then m else g.pred k := by
  unfold Group.setPred Group.pred
  by_cases h1 : k = 7
  · simp [h1]
  · by_cases h2 : n = 7
    · subst h2; simp [h1]
    · simp [h1, h2]

@[simp] theorem Group.vreg_setSreg (g : Group) (n : Nat) (x : Word) (r i : Nat) : (g.setSreg n x).vreg r i = g.vreg r i := by
  simp [Group.vreg]

@[simp] theorem Group.pred_setSreg (g : Group) (n : Nat) (x : Word) (k : Nat) : (g.setSreg n x).pred k = g.pred k := by
  simp [Group.pred]

@[simp] theorem Group.vreg_setPred (g : Group) (n : Nat) (m : DWord) (r i : Nat) : (g.setPred n m).vreg r i = g.vreg r i := by
  simp [Group.vreg]

@[simp] theorem Group.sreg_setPred (g : Group) (n : Nat) (m : DWord) (k : Nat) : (g.setPred n m).sreg k = g.sreg k := by
  simp [Group.sreg]

theorem Group.vreg_setVreg (g : Group) (r i q j : Nat) (x : Word) (hi : i < 64) (hj : j < 64) :
    (g.setVreg r i x).vreg q j = if q = r ∧ j = i then x else g.vreg q j := by
  unfold Group.vreg
  simp only [Group.setVreg_vregs, smapGet_put]
  by_cases h : q = r ∧ j = i
  · simp [h.1, h.2]
  · rw [if_neg h, if_neg]
    omega

/-- The lanes of a list written in a vector register: those lanes read as written, everything else as before. -/
theorem Group.vreg_setLanes (g : Group) (r : Nat) (f : Nat → Word) (ls : List Nat) (hl : ∀ i ∈ ls, i < 64) (q j : Nat)
    (hj : j < 64) : (g.setLanes r f ls).vreg q j = if q = r ∧ j ∈ ls then f j else g.vreg q j := by
  induction ls with
  | nil => simp [Group.setLanes]
  | cons i ls ih =>
    have hi : i < 64 := hl i (by simp)
    simp only [Group.setLanes]
    rw [Group.vreg_setVreg _ _ _ _ _ _ hi hj, ih (fun k hk => hl k (by simp [hk]))]
    by_cases hq : q = r
    · by_cases hji : j = i
      · simp [hq, hji]
      · simp [hq, hji]
    · simp [hq]

@[simp] theorem Group.sreg_setLanes (g : Group) (r : Nat) (f : Nat → Word) (ls : List Nat) (k : Nat) :
    (g.setLanes r f ls).sreg k = g.sreg k := by
  simp [Group.sreg]

@[simp] theorem Group.pred_setLanes (g : Group) (r : Nat) (f : Nat → Word) (ls : List Nat) (k : Nat) :
    (g.setLanes r f ls).pred k = g.pred k := by
  simp [Group.pred]

theorem laneList_eq : laneList = List.range 64 := by decide

@[simp] theorem mem_lanesOf (m : DWord) (i : Nat) : i ∈ lanesOf m ↔ i < 64 ∧ inMask m i = true := by
  simp [lanesOf, laneList_eq]

theorem mem_take_lanes (n i : Nat) (h : n ≤ 64) : i ∈ laneList.take n ↔ i < n := by
  rw [laneList_eq, List.take_range]
  simp; omega

/-- A vector destination under merging and zeroing (R5): Active lanes take the result; every other lane of the group keeps
its value, or takes 0 where the prefix zeroes. -/
theorem Group.vreg_writeV (g : Group) (vd : Nat) (zero : Bool) (act : DWord) (f : Nat → Word) (q i : Nat)
    (hw : g.width ≤ 64) (hi : i < g.width) :
    (g.writeV vd zero act f).vreg q i =
      if q = vd then (if inMask act i then f i else if zero then 0 else g.vreg q i) else g.vreg q i := by
  have hi64 : i < 64 := Nat.lt_of_lt_of_le hi hw
  unfold Group.writeV
  cases zero with
  | true =>
    simp only [if_true]
    rw [Group.vreg_setLanes _ _ _ _ (fun k hk => ((mem_take_lanes _ _ hw).1 hk).trans_le hw) _ _ hi64]
    by_cases hq : q = vd <;> simp [hq, mem_take_lanes _ _ hw, hi]
  | false =>
    simp only [Bool.false_eq_true, if_false]
    rw [Group.vreg_setLanes _ _ _ _ (fun k hk => ((mem_lanesOf _ _).1 hk).1) _ _ hi64]
    by_cases hq : q = vd <;> simp [hq, hi64]

/-- A vector destination leaves every register but itself as it was. -/
theorem Group.vreg_writeV_other (g : Group) (vd : Nat) (zero : Bool) (act : DWord) (f : Nat → Word) (q i : Nat)
    (hw : g.width ≤ 64) (hi : i < 64) (hq : q ≠ vd) : (g.writeV vd zero act f).vreg q i = g.vreg q i := by
  unfold Group.writeV
  cases zero with
  | true =>
    simp only [if_true]
    rw [Group.vreg_setLanes _ _ _ _ (fun k hk => ((mem_take_lanes _ _ hw).1 hk).trans_le hw) _ _ hi]
    simp [hq]
  | false =>
    simp only [Bool.false_eq_true, if_false]
    rw [Group.vreg_setLanes _ _ _ _ (fun k hk => ((mem_lanesOf _ _).1 hk).1) _ _ hi]
    simp [hq]

/-- A byte of memory reads as last written. -/
@[simp] theorem State.byte_setByte (s : State) (pa k : Nat) (b : Byte) :
    (s.setByte pa b).byte k = if k = pa then b else s.byte k := by
  simp [State.byte]

/-- A byte of a scratchpad reads as last written. -/
@[simp] theorem State.sbyte_setSbyte (s : State) (k j : Nat) (b : Byte) :
    (s.setSbyte k b).sbyte j = if j = k then b else s.sbyte j := by
  simp [State.sbyte]

/-- Bytes written one after another read as written, and every other byte as before. -/
theorem State.byte_setBytes (s : State) (pa : Nat) (bs : List Byte) (k : Nat) :
    (s.setBytes pa bs).byte k = if h : pa ≤ k ∧ k < pa + bs.length then bs[k - pa]'(by omega) else s.byte k := by
  induction bs generalizing s pa with
  | nil => simp [State.setBytes]
  | cons b r ih =>
    simp only [State.setBytes]
    rw [ih]
    by_cases h1 : pa + 1 ≤ k ∧ k < pa + 1 + r.length
    · have h2 : pa ≤ k ∧ k < pa + (b :: r).length := by simp; omega
      rw [dif_pos h1, dif_pos h2]
      have h3 : k - pa = (k - (pa + 1)) + 1 := by omega
      simp [h3]
    · rw [dif_neg h1, State.byte_setByte]
      by_cases h2 : k = pa
      · subst h2; simp
      · have h3 : ¬(pa ≤ k ∧ k < pa + (b :: r).length) := by simp; omega
        rw [if_neg h2, dif_neg h3]

theorem State.sbyte_setSbytes (s : State) (pa : Nat) (bs : List Byte) (k : Nat) :
    (s.setSbytes pa bs).sbyte k = if h : pa ≤ k ∧ k < pa + bs.length then bs[k - pa]'(by omega) else s.sbyte k := by
  induction bs generalizing s pa with
  | nil => simp [State.setSbytes]
  | cons b r ih =>
    simp only [State.setSbytes]
    rw [ih]
    by_cases h1 : pa + 1 ≤ k ∧ k < pa + 1 + r.length
    · have h2 : pa ≤ k ∧ k < pa + (b :: r).length := by simp; omega
      rw [dif_pos h1, dif_pos h2]
      have h3 : k - pa = (k - (pa + 1)) + 1 := by omega
      simp [h3]
    · rw [dif_neg h1, State.sbyte_setSbyte]
      by_cases h2 : k = pa
      · subst h2; simp
      · have h3 : ¬(pa ≤ k ∧ k < pa + (b :: r).length) := by simp; omega
        rw [if_neg h2, dif_neg h3]

end Sys2Proof.Machine
end

