-- ==== Sys2Proof/Laws/Issue.lean ====
section
/-! SUPPORT. What an issue does, said once: for a group that is ready (`Ready`) and an instruction that no check stops, `issue`
runs the meaning on one known view and places what the meaning answers. Proofs about an instruction cite these instead of
unfolding `issue`. -/
namespace Sys2Proof.Machine

/-- The split that issues, holding the words of its instruction. -/
def holding (s : State) (g : Group) (p : Split) (sp : Spec) : Split :=
  let h : Held := { words := sp.words, since := s.clock, marker := false, keep := 0, grids := [], ops := [], mode := g.mode,
                    sig := g.sig }
  { p with held := some h, safeAt := none }

/-- The group as a meaning finds it. -/
def issuer (s : State) (g : Group) (p : Split) (sp : Spec) : Group := (g.account sp p.pc s.tick s.clock).setIssuing (holding s g p sp)

/-- What a meaning works on, for a group that is ready. -/
def envOf (s : State) (gid : Nat) (g : Group) (p : Split) (sp : Spec) : Env :=
  { s := s.setGroup gid (issuer s g p sp), gid := gid, g := issuer s g p sp, v := issuer s g p sp, p := holding s g p sp,
    sel := sp.mask, resumed := false, marker := false, since := s.clock, keep := 0, grids := [] }

@[simp] theorem Group.setIssuing_keeps (g : Group) (p : Split) :
    (g.setIssuing p).producers = g.producers ∧ (g.setIssuing p).pend = g.pend ∧ (g.setIssuing p).bad = g.bad
      ∧ (g.setIssuing p).holds = g.holds := by
  unfold Group.setIssuing; cases g.handler <;> simp

theorem viewOf_settled (g : Group) (k : Nat) (rs : List RegName) (h1 : g.producers = []) (h2 : g.pend = []) :
    viewOf g k rs = (g, k) := by
  have ha : ∀ n r, g.alternatives n r = [] := by
    intro n r; simp [Group.alternatives, Group.early, h1, h2]
  induction rs with
  | nil => rfl
  | cons r rs ih => simp [viewOf, ih, ha]

theorem Group.consume_clean (g : Group) (rs : List RegName) (m : DWord) (h : g.bad = []) : g.consume rs m = g := by
  simp [Group.consume, h]

theorem Ready.notFar {s : State} {gid : Nat} {g : Group} {p : Split} (h : Ready s gid g p) (sp : Spec) :
    s.tooFar g sp = false := by
  have hn := h.near
  unfold State.tooFar
  cases hx : s.part g.part with
  | none => rfl
  | some x =>
    have := hn x hx
    cases h1 : x.safeEn <;> cases h2 : g.handler <;> simp_all

theorem Ready.noTrap {s : State} {gid : Nat} {g : Group} {p : Split} (h : Ready s gid g p) (sp : Spec)
    (h58 : g.r58 sp = none) (hw : sp.widthIll = false) : s.preTrap g sp = none := by
  have hp := h.settled.1
  have hf : ∀ rs, g.firstEarly rs = none := by
    intro rs; simp [Group.firstEarly, Group.early, hp, List.find?_eq_none]
  simp [State.preTrap, h58, h.notFar, hw, hf]

/-- The one law of `issue` for a group that is ready: no check stops the instruction, so its meaning runs on `envOf`. -/
theorem issue_ready {s : State} {gid : Nat} {g : Group} {p : Split} (h : Ready s gid g p) (sp : Group → Split → Spec)
    (body : Env → Res) (h58 : g.r58 (sp g p) = none) (hw : (sp g p).widthIll = false) :
    issue sp body s = .next (s.finish gid g p (sp g p) (envOf s gid g p (sp g p)) (body (envOf s gid g p (sp g p)))) := by
  obtain ⟨hp, hd, hh, hb⟩ := h.settled
  have hc : ((g.account (sp g p) p.pc s.tick s.clock).setIssuing (holding s g p (sp g p))).consume (sp g p).reads p.mask
      = issuer s g p (sp g p) := by
    apply Group.consume_clean
    simp [Group.account, hb]
  have hv : ∀ k rs, viewOf { issuer s g p (sp g p) with nominal := g.nominal } k rs
      = ({ issuer s g p (sp g p) with nominal := g.nominal }, k) := by
    intro k rs
    apply viewOf_settled <;> simp [issuer, Group.account, hp, hd]
  have hheld : g.heldOf (sp g p).reads = [] := by simp [Group.heldOf, hh]
  unfold issue
  simp only [h.cur, h.group, h.issuing]
  unfold State.issueAt
  simp only [h.fresh, h.noTrap _ h58 hw, h.ordered]
  simp only [holding] at hc
  simp only [hc, hv, hheld, ne_eq, not_true_eq_false, decide_false, Bool.and_false, Bool.false_eq_true, if_false]
  rfl

/-- An instruction that a check of R58 stops takes its trap, with the words of R59 in TVAL. -/
theorem issue_traps {s : State} {gid : Nat} {g : Group} {p : Split} (hc : s.cur = some gid) (hg : s.group gid = some g)
    (hi : g.issuing = some p) (hf : p.held = none) (sp : Group → Split → Spec) (body : Env → Res) (c : Nat)
    (h58 : g.r58 (sp g p) = some c) :
    issue sp body s = .next (s.takeTrap gid g p c (wordsTval (sp g p).words) (match (sp g p).mask with
      | .none => p.mask
      | m => if (sp g p).ill || (sp g p).misuse then p.mask else g.activeMask p.mask m)) := by
  unfold issue
  simp only [hc, hg, hi, hf]
  unfold State.issueAt
  simp only [State.preTrap, h58]
  all_goals rfl

/-- An instruction that no check of R58 stops goes on to its meaning: each condition of the list in turn. -/
theorem Group.r58_none {g : Group} {sp : Spec} (h1 : sp.ill = false) (h2 : sp.misuse = false) (h3 : sp.readOnly = false)
    (h4 : sp.privileged = true → g.priv = true) (h5 : ∀ r, sp.role = some r → r = g.role) (h6 : sp.roleBad = false)
    (h7 : g.HasV sp.vNamed) (h8 : g.HasS sp.sNamed) (h9 : g.HasT sp.tNamed) (h10 : g.HasA sp.aNamed)
    (h11 : sp.modeIll = false) : g.r58 sp = none := by
  have hb : g.beyond sp = false := by
    unfold Group.beyond
    simp only [Bool.or_eq_false_iff, List.any_eq_false, decide_eq_true_eq, Bool.and_eq_true, bne_iff_ne, ne_eq, not_le]
    refine ⟨⟨⟨fun r hr => h7 r hr, fun r hr => ?_⟩, fun r hr => h9 r hr⟩, fun r hr => h10 r hr⟩
    rintro ⟨⟨hle, h62⟩, h63⟩
    rcases h8 r hr with h | h | h
    · omega
    · exact h62 h
    · exact h63 h
  unfold Group.r58
  cases hp : sp.privileged with
  | false =>
    cases hrole : sp.role with
    | none => simp [h1, h2, h3, h6, hb, h11]
    | some r => simp [h1, h2, h3, h6, hb, h11, h5 r hrole]
  | true =>
    cases hrole : sp.role with
    | none => simp [h1, h2, h3, h6, hb, h11, h4 hp]
    | some r => simp [h1, h2, h3, h6, hb, h11, h4 hp, h5 r hrole]

/-- What the scoreboard leaves of a group whose instruction completed. -/
def Group.settle (g g0 : Group) (sp : Spec) (e : Env) : Group :=
  let ws := sp.writes.map fun w => (w.1, e.lanesWritten sp w.1)
  { (g.clobber ws).cleanse ws with
    producers := if sp.drains && !e.resumed then [] else newProducers g0 g.producers sp.writes }

theorem Group.clobber_eq (g : Group) (ws : List (RegName × DWord)) :
    g.clobber ws = { g with pend := (g.clobber ws).pend } := by
  unfold Group.clobber; split <;> rfl

theorem Group.cleanse_eq (g : Group) (ws : List (RegName × DWord)) : g.cleanse ws = { g with bad := (g.cleanse ws).bad } := by
  unfold Group.cleanse; split <;> rfl

theorem Group.cleanse_clean (g : Group) (ws : List (RegName × DWord)) (h : g.bad = []) : g.cleanse ws = g := by
  simp [Group.cleanse, h]

@[simp] theorem Group.clobber_issuing (g : Group) (ws : List (RegName × DWord)) : (g.clobber ws).issuing = g.issuing := by
  rw [Group.clobber_eq]; rfl

@[simp] theorem Group.cleanse_issuing (g : Group) (ws : List (RegName × DWord)) : (g.cleanse ws).issuing = g.issuing := by
  rw [Group.cleanse_eq]; rfl

@[simp] theorem Group.settle_issuing (g g0 : Group) (sp : Spec) (e : Env) : (g.settle g0 sp e).issuing = g.issuing := by
  unfold Group.settle
  show ((g.clobber _).cleanse _).issuing = _
  simp

/-- A meaning that ends at the next word leaves the state it answers, with the issuing split of the group moved on. -/
theorem finish_ok (s0 s : State) (gid : Nat) (g0 g : Group) (p q : Split) (sp : Spec) (e : Env) (he : e.resumed = false)
    (hg : s.group gid = some g) (hi : g.issuing = some q) :
    s0.finish gid g0 p sp e (.ok s) =
      s.setGroup gid ((g.settle g0 sp e).setIssuing { q with pc := e.nextPc, held := none }) := by
  unfold State.finish State.ended State.scoreboard
  simp only [he, Bool.false_eq_true, if_false, State.modGroup_some hg]
  rw [State.modGroup_some (g := g.settle g0 sp e) (by simp [Group.settle, he])]
  simp [Group.leaveAt, hi]

/-- A meaning that ends at another address. -/
theorem finish_goto (s0 s : State) (gid : Nat) (g0 g : Group) (p q : Split) (sp : Spec) (e : Env) (pc : DWord)
    (he : e.resumed = false) (hg : s.group gid = some g) (hi : g.issuing = some q) :
    s0.finish gid g0 p sp e (.goto s pc) =
      s.setGroup gid ((g.settle g0 sp e).setIssuing { q with pc := pc, held := none }) := by
  unfold State.finish State.ended State.scoreboard
  simp only [he, Bool.false_eq_true, if_false, State.modGroup_some hg]
  rw [State.modGroup_some (g := g.settle g0 sp e) (by simp [Group.settle, he])]
  simp [Group.leaveAt, hi]

theorem Group.issuing_congr {g h : Group} (h1 : h.handler = g.handler) (h2 : h.splits = g.splits) : h.issuing = g.issuing := by
  unfold Group.issuing; rw [h1, h2]

theorem Group.issuing_current {g : Group} {p : Split} (h : g.issuing = some p) (hn : g.handler = none) :
    (p.st == .current) = true := by
  unfold Group.issuing at h
  rw [hn] at h
  have := List.find?_some h
  simpa using this

/-- The issuing split of a group, replaced, is the one that issues. -/
theorem Group.issuing_setIssuing {g : Group} {p q : Split} (h : g.issuing = some p)
    (hq : g.handler = none → (q.st == .current) = true) : (g.setIssuing q).issuing = some q := by
  cases hh : g.handler with
  | some x => simp [Group.issuing, Group.setIssuing, hh]
  | none =>
    have hc := hq hh
    unfold Group.issuing at h
    simp only [hh] at h
    have key : ∀ l : List Split, l.find? (fun p => p.st == .current) = some p →
        (l.map fun r => if r.st == .current then q else r).find? (fun p => p.st == .current) = some q := by
      intro l
      induction l with
      | nil => intro hl; simp at hl
      | cons a l ih =>
        intro hl
        by_cases ha : (a.st == .current) = true
        · simp only [List.map_cons, ha, if_true, List.find?_cons, hc]
        · have hl' : l.find? (fun p => p.st == .current) = some p := by
            simpa [List.find?_cons, ha] using hl
          simp only [List.map_cons, ha, Bool.false_eq_true, if_false, List.find?_cons]
          exact ih hl'
    have := key _ h
    unfold Group.issuing Group.setIssuing
    simp only [hh]
    exact this

theorem Group.setIssuing_eq (g : Group) (p : Split) :
    g.setIssuing p = { g with splits := (g.setIssuing p).splits, handler := (g.setIssuing p).handler } := by
  unfold Group.setIssuing; cases g.handler <;> rfl

theorem issuer_eq (s : State) (g : Group) (p : Split) (sp : Spec) :
    ∃ ss hd, issuer s g p sp = { g.account sp p.pc s.tick s.clock with splits := ss, handler := hd } :=
  ⟨_, _, Group.setIssuing_eq _ _⟩

theorem Ready.issuer_issuing {s : State} {gid : Nat} {g : Group} {p : Split} (h : Ready s gid g p) (sp : Spec) :
    (issuer s g p sp).issuing = some (holding s g p sp) := by
  apply Group.issuing_setIssuing (p := p)
  · exact (Group.issuing_congr rfl rfl).trans h.issuing
  · intro hn
    have hn' : g.handler = none := hn
    exact (Group.issuing_current h.issuing hn' :)

theorem envOf_nextPc (s : State) (gid : Nat) (g : Group) (p : Split) (sp : Spec) :
    (envOf s gid g p sp).nextPc = s.after g p sp.words.length := by
  unfold Env.nextPc envOf State.after
  have hb : (s.setGroup gid (issuer s g p sp)).textBase (issuer s g p sp) = s.textBase g := by
    unfold State.textBase issuer Group.setIssuing
    cases hh : g.handler <;> simp [Group.account, hh]
  simp [holding, hb]

/-- A group as its issue leaves it, apart from what its instruction does: `g` with the account of the issue and the split
of `i`. -/
def Group.rebase (g i : Group) : Group := { g.charged i with producers := g.producers, splits := i.splits, handler := i.handler }

theorem issuer_rebase (s : State) (g : Group) (p : Split) (sp : Spec) : issuer s g p sp = g.rebase (issuer s g p sp) := by
  unfold issuer Group.setIssuing Group.rebase Group.charged Group.account
  cases g.handler <;> rfl

@[simp] theorem Group.rebase_setSreg (g i : Group) (n : Nat) (x : Word) :
    (g.rebase i).setSreg n x = (g.setSreg n x).rebase i := by unfold Group.setSreg; split <;> rfl

@[simp] theorem Group.rebase_setPred (g i : Group) (n : Nat) (x : DWord) :
    (g.rebase i).setPred n x = (g.setPred n x).rebase i := by unfold Group.setPred; split <;> rfl

theorem Group.setLanes_eq (g : Group) (r : Nat) (f : Nat → Word) (ls : List Nat) :
    g.setLanes r f ls = { g with vregs := (g.setLanes r f ls).vregs } := by
  induction ls with
  | nil => rfl
  | cons a l ih => rw [Group.setLanes, ih]; rfl

theorem Group.rebase_setLanes (g i : Group) (r : Nat) (f : Nat → Word) (ls : List Nat) :
    (g.rebase i).setLanes r f ls = (g.setLanes r f ls).rebase i := by
  induction ls with
  | nil => rfl
  | cons a l ih => simp only [Group.setLanes, ih]; rfl

@[simp] theorem Group.rebase_writeV (g i : Group) (vd : Nat) (z : Bool) (act : DWord) (f : Nat → Word) :
    (g.rebase i).writeV vd z act f = (g.writeV vd z act f).rebase i := by
  unfold Group.writeV
  split
  · exact Group.rebase_setLanes ..
  · exact Group.rebase_setLanes ..

@[simp] theorem Group.rebase_writeP (g i : Group) (pd : Nat) (z : Bool) (act : DWord) (f : Nat → Bool) :
    (g.rebase i).writeP pd z act f = (g.writeP pd z act f).rebase i := by
  unfold Group.writeP
  simp only [Group.rebase_setPred]
  rfl

theorem Group.clobber_none (g : Group) (ws : List (RegName × DWord)) (h : g.pend = []) : g.clobber ws = g := by
  unfold Group.clobber; split
  · rfl
  · simp [h]; rw [← h]

theorem Group.setIssuing_splits_eq (a b : Group) (q : Split) (ss : List Split) (hd : Option Handler)
    (hab : a = { b with splits := ss, handler := hd })
    (hss : (a.setIssuing q).splits = (b.setIssuing q).splits) (hhd : (a.setIssuing q).handler = (b.setIssuing q).handler) :
    a.setIssuing q = b.setIssuing q := by
  rw [Group.setIssuing_eq a, Group.setIssuing_eq b, hss, hhd, hab]

theorem Group.issuer_parts (s : State) (g : Group) (p : Split) (sp : Spec) :
    (issuer s g p sp).splits = (g.setIssuing (holding s g p sp)).splits ∧
      (issuer s g p sp).handler = (g.setIssuing (holding s g p sp)).handler := by
  unfold issuer Group.setIssuing Group.account
  cases g.handler <;> exact ⟨rfl, rfl⟩

theorem Group.setIssuing_parts (a b : Group) (q : Split) (hs : a.splits = b.splits) (hh : a.handler = b.handler) :
    (a.setIssuing q).splits = (b.setIssuing q).splits ∧ (a.setIssuing q).handler = (b.setIssuing q).handler := by
  unfold Group.setIssuing
  rw [hh]
  cases b.handler <;> simp [hs]

theorem Group.setIssuing_twice (g : Group) (p q : Split) (hp : (p.st == .current) = true) :
    ((g.setIssuing p).setIssuing q).splits = (g.setIssuing q).splits ∧
      ((g.setIssuing p).setIssuing q).handler = (g.setIssuing q).handler := by
  unfold Group.setIssuing
  cases g.handler with
  | some x => exact ⟨rfl, rfl⟩
  | none =>
    refine ⟨?_, rfl⟩
    simp only [List.map_map]
    apply List.map_congr_left
    intro a _
    simp only [Function.comp]
    by_cases ha : (a.st == .current) = true
    · simp [ha, hp]
    · simp [ha]

theorem Group.setIssuing_rebase {s : State} {gid : Nat} {g : Group} {p : Split} (hr : Ready s gid g p) (sp : Spec)
    (h : Group) (ps : List Producer) (hs : h.splits = g.splits) (hh : h.handler = g.handler) (q : Split) :
    ({ h.rebase (issuer s g p sp) with producers := ps } : Group).setIssuing q =
      ({ h.charged (issuer s g p sp) with producers := ps } : Group).setIssuing q := by
  obtain ⟨hi, hj⟩ := Group.issuer_parts s g p sp
  have e1 := Group.setIssuing_parts ({ h.rebase (issuer s g p sp) with producers := ps } : Group)
    (g.setIssuing (holding s g p sp)) q hi hj
  have e2 := Group.setIssuing_parts ({ h.charged (issuer s g p sp) with producers := ps } : Group) g q hs hh
  have e3 : ((g.setIssuing (holding s g p sp)).setIssuing q).splits = (g.setIssuing q).splits ∧
      ((g.setIssuing (holding s g p sp)).setIssuing q).handler = (g.setIssuing q).handler := by
    cases hg : g.handler with
    | some x => unfold Group.setIssuing; simp [hg]
    | none => exact Group.setIssuing_twice g _ q (show (p.st == .current) = true from Group.issuing_current hr.issuing hg)
  exact Group.setIssuing_splits_eq ({ h.rebase (issuer s g p sp) with producers := ps } : Group)
    ({ h.charged (issuer s g p sp) with producers := ps } : Group) q (issuer s g p sp).splits (issuer s g p sp).handler rfl
    (e1.1.trans (e3.1.trans e2.1.symm)) (e1.2.trans (e3.2.trans e2.2.symm))

theorem Group.setIssuing_charged (g : Group) (q : Split) :
    (g.setIssuing q).sig = g.sig ∧ (g.setIssuing q).nominal = g.nominal ∧ (g.setIssuing q).safeCount = g.safeCount ∧
      (g.setIssuing q).issuesInTurn = g.issuesInTurn ∧ (g.setIssuing q).lastIssue = g.lastIssue ∧
      (g.setIssuing q).lastPc = g.lastPc ∧ (g.setIssuing q).stallUntil = g.stallUntil ∧
      (g.setIssuing q).producers = g.producers := by
  unfold Group.setIssuing; cases g.handler <;> simp

/-- A group that differs from `h` by the account of an issue and by its issuing split is `Issued`. -/
theorem issued_of {h i : Group} {p : Split} {pc : DWord} (k : Group) (ps : List Producer)
    (hk : k = ({ h.charged i with producers := ps } : Group).setIssuing { p with pc := pc, held := none, safeAt := none }) :
    Issued k h p pc := by
  obtain ⟨h1, h2, h3, h4, h5, h6, h7, h8⟩ := Group.setIssuing_charged ({ h.charged i with producers := ps } : Group)
    { p with pc := pc, held := none, safeAt := none }
  rw [← hk] at h1 h2 h3 h4 h5 h6 h7 h8
  unfold Issued Group.charged
  rw [h1, h2, h3, h4, h5, h6, h7, h8]
  exact hk

theorem Group.clobber_rebase (g i : Group) (ws : List (RegName × DWord)) :
    (g.rebase i).clobber ws = (g.clobber ws).rebase i := by
  unfold Group.clobber; split <;> rfl

theorem Group.clobber_nothing (g : Group) : g.clobber [] = g := rfl

theorem Group.settle_keeps (g g0 : Group) (sp : Spec) (e : Env)
    (h1 : ∀ ls : RegName → DWord, g.clobber (sp.writes.map fun w => (w.1, ls w.1)) = g) (h2 : g.bad = []) :
    g.settle g0 sp e = { g with producers := (g.settle g0 sp e).producers } := by
  unfold Group.settle
  simp only [h1, Group.cleanse_clean g _ h2]

/-- The law of an instruction of a ready group that goes on, perhaps owing a value: `s1` is what its meaning leaves, with `h`
for its group before the account of the issue, and the split goes to `pc`. Of what the group of `h` owes, nothing is among
the registers that the instruction writes at once. -/
theorem issue_owes {s s1 : State} {gid : Nat} {g : Group} {p : Split} (hr : Ready s gid g p) (sp : Group → Split → Spec)
    (body : Env → Res) (h58 : g.r58 (sp g p) = none) (hw : (sp g p).widthIll = false) (h : Group) (pc : DWord)
    (hbody : body (envOf s gid g p (sp g p)) = .goto s1 pc ∨
      (body (envOf s gid g p (sp g p)) = .ok s1 ∧ pc = s.after g p (sp g p).words.length))
    (h1 : s1.group gid = some (h.rebase (issuer s g p (sp g p))))
    (hs : h.splits = g.splits) (hh : h.handler = g.handler)
    (hp : ∀ ls : RegName → DWord, h.clobber ((sp g p).writes.map fun w => (w.1, ls w.1)) = h) (hb : h.bad = []) :
    ∃ k, issue sp body s = .next (s1.setGroup gid k) ∧ Issued k h p pc := by
  have hi : (h.rebase (issuer s g p (sp g p))).issuing = some (holding s g p (sp g p)) :=
    (Group.issuing_congr rfl rfl).trans (hr.issuer_issuing _)
  have key : s.finish gid g p (sp g p) (envOf s gid g p (sp g p)) (body (envOf s gid g p (sp g p))) =
      s1.setGroup gid (((h.rebase (issuer s g p (sp g p))).settle g (sp g p) (envOf s gid g p (sp g p))).setIssuing
        { holding s g p (sp g p) with pc := pc, held := none }) := by
    rcases hbody with hb | ⟨hb, rfl⟩
    · rw [hb, finish_goto (he := rfl) (hg := h1) (hi := hi)]
    · rw [hb, finish_ok (he := rfl) (hg := h1) (hi := hi), envOf_nextPc]
  refine ⟨_, (issue_ready hr sp body h58 hw).trans (congrArg _ key), ?_⟩
  rw [Group.settle_keeps _ _ _ _ (fun ls => by rw [Group.clobber_rebase, hp]) (by exact hb)]
  rw [Group.setIssuing_rebase hr _ _ _ hs hh]
  exact issued_of _ _ rfl

/-- The same law where nothing is owed. -/
theorem issue_on {s s1 : State} {gid : Nat} {g : Group} {p : Split} (hr : Ready s gid g p) (sp : Group → Split → Spec)
    (body : Env → Res) (h58 : g.r58 (sp g p) = none) (hw : (sp g p).widthIll = false) (h : Group) (pc : DWord)
    (hbody : body (envOf s gid g p (sp g p)) = .goto s1 pc ∨
      (body (envOf s gid g p (sp g p)) = .ok s1 ∧ pc = s.after g p (sp g p).words.length))
    (h1 : s1.group gid = some (h.rebase (issuer s g p (sp g p))))
    (hs : h.splits = g.splits) (hh : h.handler = g.handler) (hp : h.pend = []) (hb : h.bad = []) :
    ∃ k, issue sp body s = .next (s1.setGroup gid k) ∧ Issued k h p pc :=
  issue_owes hr sp body h58 hw h pc hbody h1 hs hh (fun _ => Group.clobber_none h _ hp) hb

/-- The law of an instruction in which only the group changes. -/
theorem issue_upd {s : State} {gid : Nat} {g : Group} {p : Split} (hr : Ready s gid g p) (sp : Group → Split → Spec)
    (body : Env → Res) (h58 : g.r58 (sp g p) = none) (hw : (sp g p).widthIll = false) (h : Group)
    (hbody : body (envOf s gid g p (sp g p)) = (envOf s gid g p (sp g p)).upd (h.rebase (issuer s g p (sp g p))))
    (hs : h.splits = g.splits) (hh : h.handler = g.handler) (hp : h.pend = []) (hb : h.bad = []) :
    ∃ k, issue sp body s = .next (s.setGroup gid k) ∧ Issued k h p (s.after g p (sp g p).words.length) := by
  obtain ⟨k, h1, h2⟩ := issue_on hr sp body h58 hw h (s.after g p (sp g p).words.length)
    (s1 := (envOf s gid g p (sp g p)).s.setGroup gid (h.rebase (issuer s g p (sp g p)))) (.inr ⟨hbody, rfl⟩)
    (by simp) hs hh hp hb
  refine ⟨k, ?_, h2⟩
  rw [h1]
  simp [envOf]

end Sys2Proof.Machine
end

