-- ==== Sys2Proof/Laws/Views.lean ====
section
/-! SUPPORT. What the group that a meaning works on holds: what the group held before the issue, field by field. -/
namespace Sys2Proof.Machine

@[simp] theorem issuer_part (s : State) (g : Group) (p : Split) (sp : Spec) : (issuer s g p sp).part = g.part := by
  unfold issuer Group.setIssuing; split <;> rfl
@[simp] theorem issuer_team (s : State) (g : Group) (p : Split) (sp : Spec) : (issuer s g p sp).team = g.team := by
  unfold issuer Group.setIssuing; split <;> rfl
@[simp] theorem issuer_index (s : State) (g : Group) (p : Split) (sp : Spec) : (issuer s g p sp).index = g.index := by
  unfold issuer Group.setIssuing; split <;> rfl
@[simp] theorem issuer_role (s : State) (g : Group) (p : Split) (sp : Spec) : (issuer s g p sp).role = g.role := by
  unfold issuer Group.setIssuing; split <;> rfl
@[simp] theorem issuer_width (s : State) (g : Group) (p : Split) (sp : Spec) : (issuer s g p sp).width = g.width := by
  unfold issuer Group.setIssuing; split <;> rfl
@[simp] theorem issuer_latency (s : State) (g : Group) (p : Split) (sp : Spec) : (issuer s g p sp).latency = g.latency := by
  unfold issuer Group.setIssuing; split <;> rfl
@[simp] theorem issuer_issueSlot (s : State) (g : Group) (p : Split) (sp : Spec) : (issuer s g p sp).issueSlot = g.issueSlot := by
  unfold issuer Group.setIssuing; split <;> rfl
@[simp] theorem issuer_lanePos (s : State) (g : Group) (p : Split) (sp : Spec) : (issuer s g p sp).lanePos = g.lanePos := by
  unfold issuer Group.setIssuing; split <;> rfl
@[simp] theorem issuer_vAlloc (s : State) (g : Group) (p : Split) (sp : Spec) : (issuer s g p sp).vAlloc = g.vAlloc := by
  unfold issuer Group.setIssuing; split <;> rfl
@[simp] theorem issuer_sAlloc (s : State) (g : Group) (p : Split) (sp : Spec) : (issuer s g p sp).sAlloc = g.sAlloc := by
  unfold issuer Group.setIssuing; split <;> rfl
@[simp] theorem issuer_tAlloc (s : State) (g : Group) (p : Split) (sp : Spec) : (issuer s g p sp).tAlloc = g.tAlloc := by
  unfold issuer Group.setIssuing; split <;> rfl
@[simp] theorem issuer_aAlloc (s : State) (g : Group) (p : Split) (sp : Spec) : (issuer s g p sp).aAlloc = g.aAlloc := by
  unfold issuer Group.setIssuing; split <;> rfl
@[simp] theorem issuer_text (s : State) (g : Group) (p : Split) (sp : Spec) : (issuer s g p sp).text = g.text := by
  unfold issuer Group.setIssuing; split <;> rfl
@[simp] theorem issuer_liveset (s : State) (g : Group) (p : Split) (sp : Spec) : (issuer s g p sp).liveset = g.liveset := by
  unfold issuer Group.setIssuing; split <;> rfl
@[simp] theorem issuer_liveCount (s : State) (g : Group) (p : Split) (sp : Spec) : (issuer s g p sp).liveCount = g.liveCount := by
  unfold issuer Group.setIssuing; split <;> rfl
@[simp] theorem issuer_data (s : State) (g : Group) (p : Split) (sp : Spec) : (issuer s g p sp).data = g.data := by
  unfold issuer Group.setIssuing; split <;> rfl
@[simp] theorem issuer_gridId (s : State) (g : Group) (p : Split) (sp : Spec) : (issuer s g p sp).gridId = g.gridId := by
  unfold issuer Group.setIssuing; split <;> rfl
@[simp] theorem issuer_depth (s : State) (g : Group) (p : Split) (sp : Spec) : (issuer s g p sp).depth = g.depth := by
  unfold issuer Group.setIssuing; split <;> rfl
@[simp] theorem issuer_teamX (s : State) (g : Group) (p : Split) (sp : Spec) : (issuer s g p sp).teamX = g.teamX := by
  unfold issuer Group.setIssuing; split <;> rfl
@[simp] theorem issuer_teamY (s : State) (g : Group) (p : Split) (sp : Spec) : (issuer s g p sp).teamY = g.teamY := by
  unfold issuer Group.setIssuing; split <;> rfl
@[simp] theorem issuer_teamZ (s : State) (g : Group) (p : Split) (sp : Spec) : (issuer s g p sp).teamZ = g.teamZ := by
  unfold issuer Group.setIssuing; split <;> rfl
@[simp] theorem issuer_vregs (s : State) (g : Group) (p : Split) (sp : Spec) : (issuer s g p sp).vregs = g.vregs := by
  unfold issuer Group.setIssuing; split <;> rfl
@[simp] theorem issuer_sregs (s : State) (g : Group) (p : Split) (sp : Spec) : (issuer s g p sp).sregs = g.sregs := by
  unfold issuer Group.setIssuing; split <;> rfl
@[simp] theorem issuer_preds (s : State) (g : Group) (p : Split) (sp : Spec) : (issuer s g p sp).preds = g.preds := by
  unfold issuer Group.setIssuing; split <;> rfl
@[simp] theorem issuer_tiles (s : State) (g : Group) (p : Split) (sp : Spec) : (issuer s g p sp).tiles = g.tiles := by
  unfold issuer Group.setIssuing; split <;> rfl
@[simp] theorem issuer_accs (s : State) (g : Group) (p : Split) (sp : Spec) : (issuer s g p sp).accs = g.accs := by
  unfold issuer Group.setIssuing; split <;> rfl
@[simp] theorem issuer_amax (s : State) (g : Group) (p : Split) (sp : Spec) : (issuer s g p sp).amax = g.amax := by
  unfold issuer Group.setIssuing; split <;> rfl
@[simp] theorem issuer_mode (s : State) (g : Group) (p : Split) (sp : Spec) : (issuer s g p sp).mode = g.mode := by
  unfold issuer Group.setIssuing; split <;> rfl
@[simp] theorem issuer_scc (s : State) (g : Group) (p : Split) (sp : Spec) : (issuer s g p sp).scc = g.scc := by
  unfold issuer Group.setIssuing; split <;> rfl
@[simp] theorem issuer_flags (s : State) (g : Group) (p : Split) (sp : Spec) : (issuer s g p sp).flags = g.flags := by
  unfold issuer Group.setIssuing; split <;> rfl
@[simp] theorem issuer_msig (s : State) (g : Group) (p : Split) (sp : Spec) : (issuer s g p sp).msig = g.msig := by
  unfold issuer Group.setIssuing; split <;> rfl
@[simp] theorem issuer_lscale (s : State) (g : Group) (p : Split) (sp : Spec) : (issuer s g p sp).lscale = g.lscale := by
  unfold issuer Group.setIssuing; split <;> rfl
@[simp] theorem issuer_ovf (s : State) (g : Group) (p : Split) (sp : Spec) : (issuer s g p sp).ovf = g.ovf := by
  unfold issuer Group.setIssuing; split <;> rfl
@[simp] theorem issuer_ovtab (s : State) (g : Group) (p : Split) (sp : Spec) : (issuer s g p sp).ovtab = g.ovtab := by
  unfold issuer Group.setIssuing; split <;> rfl
@[simp] theorem issuer_amaxSel (s : State) (g : Group) (p : Split) (sp : Spec) : (issuer s g p sp).amaxSel = g.amaxSel := by
  unfold issuer Group.setIssuing; split <;> rfl
@[simp] theorem issuer_readLatch (s : State) (g : Group) (p : Split) (sp : Spec) : (issuer s g p sp).readLatch = g.readLatch := by
  unfold issuer Group.setIssuing; split <;> rfl
@[simp] theorem issuer_timeWrite (s : State) (g : Group) (p : Split) (sp : Spec) : (issuer s g p sp).timeWrite = g.timeWrite := by
  unfold issuer Group.setIssuing; split <;> rfl
@[simp] theorem issuer_tcause (s : State) (g : Group) (p : Split) (sp : Spec) : (issuer s g p sp).tcause = g.tcause := by
  unfold issuer Group.setIssuing; split <;> rfl
@[simp] theorem issuer_tpc (s : State) (g : Group) (p : Split) (sp : Spec) : (issuer s g p sp).tpc = g.tpc := by
  unfold issuer Group.setIssuing; split <;> rfl
@[simp] theorem issuer_tval (s : State) (g : Group) (p : Split) (sp : Spec) : (issuer s g p sp).tval = g.tval := by
  unfold issuer Group.setIssuing; split <;> rfl
@[simp] theorem issuer_tmask (s : State) (g : Group) (p : Split) (sp : Spec) : (issuer s g p sp).tmask = g.tmask := by
  unfold issuer Group.setIssuing; split <;> rfl
@[simp] theorem issuer_hwdog (s : State) (g : Group) (p : Split) (sp : Spec) : (issuer s g p sp).hwdog = g.hwdog := by
  unfold issuer Group.setIssuing; split <;> rfl
@[simp] theorem issuer_cnt (s : State) (g : Group) (p : Split) (sp : Spec) : (issuer s g p sp).cnt = g.cnt := by
  unfold issuer Group.setIssuing; split <;> rfl
@[simp] theorem issuer_armed (s : State) (g : Group) (p : Split) (sp : Spec) : (issuer s g p sp).armed = g.armed := by
  unfold issuer Group.setIssuing; split <;> rfl
@[simp] theorem issuer_producers (s : State) (g : Group) (p : Split) (sp : Spec) : (issuer s g p sp).producers = g.producers := by
  unfold issuer Group.setIssuing; split <;> rfl
@[simp] theorem issuer_workSet (s : State) (g : Group) (p : Split) (sp : Spec) : (issuer s g p sp).workSet = g.workSet := by
  unfold issuer Group.setIssuing; split <;> rfl
@[simp] theorem issuer_exited (s : State) (g : Group) (p : Split) (sp : Spec) : (issuer s g p sp).exited = g.exited := by
  unfold issuer Group.setIssuing; split <;> rfl
@[simp] theorem issuer_parked (s : State) (g : Group) (p : Split) (sp : Spec) : (issuer s g p sp).parked = g.parked := by
  unfold issuer Group.setIssuing; split <;> rfl
@[simp] theorem issuer_blockedSince (s : State) (g : Group) (p : Split) (sp : Spec) : (issuer s g p sp).blockedSince = g.blockedSince := by
  unfold issuer Group.setIssuing; split <;> rfl
@[simp] theorem issuer_residency (s : State) (g : Group) (p : Split) (sp : Spec) : (issuer s g p sp).residency = g.residency := by
  unfold issuer Group.setIssuing; split <;> rfl
@[simp] theorem issuer_pend (s : State) (g : Group) (p : Split) (sp : Spec) : (issuer s g p sp).pend = g.pend := by
  unfold issuer Group.setIssuing; split <;> rfl
@[simp] theorem issuer_matq (s : State) (g : Group) (p : Split) (sp : Spec) : (issuer s g p sp).matq = g.matq := by
  unfold issuer Group.setIssuing; split <;> rfl
@[simp] theorem issuer_tag (s : State) (g : Group) (p : Split) (sp : Spec) : (issuer s g p sp).tag = g.tag := by
  unfold issuer Group.setIssuing; split <;> rfl
@[simp] theorem issuer_seat (s : State) (g : Group) (p : Split) (sp : Spec) : (issuer s g p sp).seat = g.seat := by
  unfold issuer Group.setIssuing; split <;> rfl
@[simp] theorem issuer_holds (s : State) (g : Group) (p : Split) (sp : Spec) : (issuer s g p sp).holds = g.holds := by
  unfold issuer Group.setIssuing; split <;> rfl
@[simp] theorem issuer_streamSlot (s : State) (g : Group) (p : Split) (sp : Spec) : (issuer s g p sp).streamSlot = g.streamSlot := by
  unfold issuer Group.setIssuing; split <;> rfl
@[simp] theorem issuer_poisoned (s : State) (g : Group) (p : Split) (sp : Spec) : (issuer s g p sp).poisoned = g.poisoned := by
  unfold issuer Group.setIssuing; split <;> rfl
@[simp] theorem issuer_bad (s : State) (g : Group) (p : Split) (sp : Spec) : (issuer s g p sp).bad = g.bad := by
  unfold issuer Group.setIssuing; split <;> rfl
@[simp] theorem issuer_lastPages (s : State) (g : Group) (p : Split) (sp : Spec) : (issuer s g p sp).lastPages = g.lastPages := by
  unfold issuer Group.setIssuing; split <;> rfl
@[simp] theorem issuer_syncAt (s : State) (g : Group) (p : Split) (sp : Spec) : (issuer s g p sp).syncAt = g.syncAt := by
  unfold issuer Group.setIssuing; split <;> rfl
@[simp] theorem issuer_kitty (s : State) (g : Group) (p : Split) (sp : Spec) : (issuer s g p sp).kitty = g.kitty := by
  unfold issuer Group.setIssuing; split <;> rfl
@[simp] theorem issuer_frameCopy (s : State) (g : Group) (p : Split) (sp : Spec) : (issuer s g p sp).frameCopy = g.frameCopy := by
  unfold issuer Group.setIssuing; split <;> rfl
@[simp] theorem Group.writeV_part (g : Group) (vd : Nat) (z : Bool) (act : DWord) (f : Nat → Word) :
    (g.writeV vd z act f).part = g.part := by
  unfold Group.writeV; split <;> simp
@[simp] theorem Group.writeV_team (g : Group) (vd : Nat) (z : Bool) (act : DWord) (f : Nat → Word) :
    (g.writeV vd z act f).team = g.team := by
  unfold Group.writeV; split <;> simp
@[simp] theorem Group.writeV_index (g : Group) (vd : Nat) (z : Bool) (act : DWord) (f : Nat → Word) :
    (g.writeV vd z act f).index = g.index := by
  unfold Group.writeV; split <;> simp
@[simp] theorem Group.writeV_role (g : Group) (vd : Nat) (z : Bool) (act : DWord) (f : Nat → Word) :
    (g.writeV vd z act f).role = g.role := by
  unfold Group.writeV; split <;> simp
@[simp] theorem Group.writeV_width (g : Group) (vd : Nat) (z : Bool) (act : DWord) (f : Nat → Word) :
    (g.writeV vd z act f).width = g.width := by
  unfold Group.writeV; split <;> simp
@[simp] theorem Group.writeV_latency (g : Group) (vd : Nat) (z : Bool) (act : DWord) (f : Nat → Word) :
    (g.writeV vd z act f).latency = g.latency := by
  unfold Group.writeV; split <;> simp
@[simp] theorem Group.writeV_issueSlot (g : Group) (vd : Nat) (z : Bool) (act : DWord) (f : Nat → Word) :
    (g.writeV vd z act f).issueSlot = g.issueSlot := by
  unfold Group.writeV; split <;> simp
@[simp] theorem Group.writeV_lanePos (g : Group) (vd : Nat) (z : Bool) (act : DWord) (f : Nat → Word) :
    (g.writeV vd z act f).lanePos = g.lanePos := by
  unfold Group.writeV; split <;> simp
@[simp] theorem Group.writeV_vAlloc (g : Group) (vd : Nat) (z : Bool) (act : DWord) (f : Nat → Word) :
    (g.writeV vd z act f).vAlloc = g.vAlloc := by
  unfold Group.writeV; split <;> simp
@[simp] theorem Group.writeV_sAlloc (g : Group) (vd : Nat) (z : Bool) (act : DWord) (f : Nat → Word) :
    (g.writeV vd z act f).sAlloc = g.sAlloc := by
  unfold Group.writeV; split <;> simp
@[simp] theorem Group.writeV_tAlloc (g : Group) (vd : Nat) (z : Bool) (act : DWord) (f : Nat → Word) :
    (g.writeV vd z act f).tAlloc = g.tAlloc := by
  unfold Group.writeV; split <;> simp
@[simp] theorem Group.writeV_aAlloc (g : Group) (vd : Nat) (z : Bool) (act : DWord) (f : Nat → Word) :
    (g.writeV vd z act f).aAlloc = g.aAlloc := by
  unfold Group.writeV; split <;> simp
@[simp] theorem Group.writeV_text (g : Group) (vd : Nat) (z : Bool) (act : DWord) (f : Nat → Word) :
    (g.writeV vd z act f).text = g.text := by
  unfold Group.writeV; split <;> simp
@[simp] theorem Group.writeV_liveset (g : Group) (vd : Nat) (z : Bool) (act : DWord) (f : Nat → Word) :
    (g.writeV vd z act f).liveset = g.liveset := by
  unfold Group.writeV; split <;> simp
@[simp] theorem Group.writeV_liveCount (g : Group) (vd : Nat) (z : Bool) (act : DWord) (f : Nat → Word) :
    (g.writeV vd z act f).liveCount = g.liveCount := by
  unfold Group.writeV; split <;> simp
@[simp] theorem Group.writeV_data (g : Group) (vd : Nat) (z : Bool) (act : DWord) (f : Nat → Word) :
    (g.writeV vd z act f).data = g.data := by
  unfold Group.writeV; split <;> simp
@[simp] theorem Group.writeV_gridId (g : Group) (vd : Nat) (z : Bool) (act : DWord) (f : Nat → Word) :
    (g.writeV vd z act f).gridId = g.gridId := by
  unfold Group.writeV; split <;> simp
@[simp] theorem Group.writeV_depth (g : Group) (vd : Nat) (z : Bool) (act : DWord) (f : Nat → Word) :
    (g.writeV vd z act f).depth = g.depth := by
  unfold Group.writeV; split <;> simp
@[simp] theorem Group.writeV_teamX (g : Group) (vd : Nat) (z : Bool) (act : DWord) (f : Nat → Word) :
    (g.writeV vd z act f).teamX = g.teamX := by
  unfold Group.writeV; split <;> simp
@[simp] theorem Group.writeV_teamY (g : Group) (vd : Nat) (z : Bool) (act : DWord) (f : Nat → Word) :
    (g.writeV vd z act f).teamY = g.teamY := by
  unfold Group.writeV; split <;> simp
@[simp] theorem Group.writeV_teamZ (g : Group) (vd : Nat) (z : Bool) (act : DWord) (f : Nat → Word) :
    (g.writeV vd z act f).teamZ = g.teamZ := by
  unfold Group.writeV; split <;> simp
@[simp] theorem Group.writeV_sregs (g : Group) (vd : Nat) (z : Bool) (act : DWord) (f : Nat → Word) :
    (g.writeV vd z act f).sregs = g.sregs := by
  unfold Group.writeV; split <;> simp
@[simp] theorem Group.writeV_preds (g : Group) (vd : Nat) (z : Bool) (act : DWord) (f : Nat → Word) :
    (g.writeV vd z act f).preds = g.preds := by
  unfold Group.writeV; split <;> simp
@[simp] theorem Group.writeV_tiles (g : Group) (vd : Nat) (z : Bool) (act : DWord) (f : Nat → Word) :
    (g.writeV vd z act f).tiles = g.tiles := by
  unfold Group.writeV; split <;> simp
@[simp] theorem Group.writeV_accs (g : Group) (vd : Nat) (z : Bool) (act : DWord) (f : Nat → Word) :
    (g.writeV vd z act f).accs = g.accs := by
  unfold Group.writeV; split <;> simp
@[simp] theorem Group.writeV_amax (g : Group) (vd : Nat) (z : Bool) (act : DWord) (f : Nat → Word) :
    (g.writeV vd z act f).amax = g.amax := by
  unfold Group.writeV; split <;> simp
@[simp] theorem Group.writeV_mode (g : Group) (vd : Nat) (z : Bool) (act : DWord) (f : Nat → Word) :
    (g.writeV vd z act f).mode = g.mode := by
  unfold Group.writeV; split <;> simp
@[simp] theorem Group.writeV_scc (g : Group) (vd : Nat) (z : Bool) (act : DWord) (f : Nat → Word) :
    (g.writeV vd z act f).scc = g.scc := by
  unfold Group.writeV; split <;> simp
@[simp] theorem Group.writeV_flags (g : Group) (vd : Nat) (z : Bool) (act : DWord) (f : Nat → Word) :
    (g.writeV vd z act f).flags = g.flags := by
  unfold Group.writeV; split <;> simp
@[simp] theorem Group.writeV_sig (g : Group) (vd : Nat) (z : Bool) (act : DWord) (f : Nat → Word) :
    (g.writeV vd z act f).sig = g.sig := by
  unfold Group.writeV; split <;> simp
@[simp] theorem Group.writeV_msig (g : Group) (vd : Nat) (z : Bool) (act : DWord) (f : Nat → Word) :
    (g.writeV vd z act f).msig = g.msig := by
  unfold Group.writeV; split <;> simp
@[simp] theorem Group.writeV_lscale (g : Group) (vd : Nat) (z : Bool) (act : DWord) (f : Nat → Word) :
    (g.writeV vd z act f).lscale = g.lscale := by
  unfold Group.writeV; split <;> simp
@[simp] theorem Group.writeV_ovf (g : Group) (vd : Nat) (z : Bool) (act : DWord) (f : Nat → Word) :
    (g.writeV vd z act f).ovf = g.ovf := by
  unfold Group.writeV; split <;> simp
@[simp] theorem Group.writeV_ovtab (g : Group) (vd : Nat) (z : Bool) (act : DWord) (f : Nat → Word) :
    (g.writeV vd z act f).ovtab = g.ovtab := by
  unfold Group.writeV; split <;> simp
@[simp] theorem Group.writeV_amaxSel (g : Group) (vd : Nat) (z : Bool) (act : DWord) (f : Nat → Word) :
    (g.writeV vd z act f).amaxSel = g.amaxSel := by
  unfold Group.writeV; split <;> simp
@[simp] theorem Group.writeV_readLatch (g : Group) (vd : Nat) (z : Bool) (act : DWord) (f : Nat → Word) :
    (g.writeV vd z act f).readLatch = g.readLatch := by
  unfold Group.writeV; split <;> simp
@[simp] theorem Group.writeV_timeWrite (g : Group) (vd : Nat) (z : Bool) (act : DWord) (f : Nat → Word) :
    (g.writeV vd z act f).timeWrite = g.timeWrite := by
  unfold Group.writeV; split <;> simp
@[simp] theorem Group.writeV_tcause (g : Group) (vd : Nat) (z : Bool) (act : DWord) (f : Nat → Word) :
    (g.writeV vd z act f).tcause = g.tcause := by
  unfold Group.writeV; split <;> simp
@[simp] theorem Group.writeV_tpc (g : Group) (vd : Nat) (z : Bool) (act : DWord) (f : Nat → Word) :
    (g.writeV vd z act f).tpc = g.tpc := by
  unfold Group.writeV; split <;> simp
@[simp] theorem Group.writeV_tval (g : Group) (vd : Nat) (z : Bool) (act : DWord) (f : Nat → Word) :
    (g.writeV vd z act f).tval = g.tval := by
  unfold Group.writeV; split <;> simp
@[simp] theorem Group.writeV_tmask (g : Group) (vd : Nat) (z : Bool) (act : DWord) (f : Nat → Word) :
    (g.writeV vd z act f).tmask = g.tmask := by
  unfold Group.writeV; split <;> simp
@[simp] theorem Group.writeV_hwdog (g : Group) (vd : Nat) (z : Bool) (act : DWord) (f : Nat → Word) :
    (g.writeV vd z act f).hwdog = g.hwdog := by
  unfold Group.writeV; split <;> simp
@[simp] theorem Group.writeV_cnt (g : Group) (vd : Nat) (z : Bool) (act : DWord) (f : Nat → Word) :
    (g.writeV vd z act f).cnt = g.cnt := by
  unfold Group.writeV; split <;> simp
@[simp] theorem Group.writeV_armed (g : Group) (vd : Nat) (z : Bool) (act : DWord) (f : Nat → Word) :
    (g.writeV vd z act f).armed = g.armed := by
  unfold Group.writeV; split <;> simp
@[simp] theorem Group.writeV_safeCount (g : Group) (vd : Nat) (z : Bool) (act : DWord) (f : Nat → Word) :
    (g.writeV vd z act f).safeCount = g.safeCount := by
  unfold Group.writeV; split <;> simp
@[simp] theorem Group.writeV_nominal (g : Group) (vd : Nat) (z : Bool) (act : DWord) (f : Nat → Word) :
    (g.writeV vd z act f).nominal = g.nominal := by
  unfold Group.writeV; split <;> simp
@[simp] theorem Group.writeV_producers (g : Group) (vd : Nat) (z : Bool) (act : DWord) (f : Nat → Word) :
    (g.writeV vd z act f).producers = g.producers := by
  unfold Group.writeV; split <;> simp
@[simp] theorem Group.writeV_stallUntil (g : Group) (vd : Nat) (z : Bool) (act : DWord) (f : Nat → Word) :
    (g.writeV vd z act f).stallUntil = g.stallUntil := by
  unfold Group.writeV; split <;> simp
@[simp] theorem Group.writeV_lastIssue (g : Group) (vd : Nat) (z : Bool) (act : DWord) (f : Nat → Word) :
    (g.writeV vd z act f).lastIssue = g.lastIssue := by
  unfold Group.writeV; split <;> simp
@[simp] theorem Group.writeV_issuesInTurn (g : Group) (vd : Nat) (z : Bool) (act : DWord) (f : Nat → Word) :
    (g.writeV vd z act f).issuesInTurn = g.issuesInTurn := by
  unfold Group.writeV; split <;> simp
@[simp] theorem Group.writeV_workSet (g : Group) (vd : Nat) (z : Bool) (act : DWord) (f : Nat → Word) :
    (g.writeV vd z act f).workSet = g.workSet := by
  unfold Group.writeV; split <;> simp
@[simp] theorem Group.writeV_splits (g : Group) (vd : Nat) (z : Bool) (act : DWord) (f : Nat → Word) :
    (g.writeV vd z act f).splits = g.splits := by
  unfold Group.writeV; split <;> simp
@[simp] theorem Group.writeV_exited (g : Group) (vd : Nat) (z : Bool) (act : DWord) (f : Nat → Word) :
    (g.writeV vd z act f).exited = g.exited := by
  unfold Group.writeV; split <;> simp
@[simp] theorem Group.writeV_handler (g : Group) (vd : Nat) (z : Bool) (act : DWord) (f : Nat → Word) :
    (g.writeV vd z act f).handler = g.handler := by
  unfold Group.writeV; split <;> simp
@[simp] theorem Group.writeV_parked (g : Group) (vd : Nat) (z : Bool) (act : DWord) (f : Nat → Word) :
    (g.writeV vd z act f).parked = g.parked := by
  unfold Group.writeV; split <;> simp
@[simp] theorem Group.writeV_blockedSince (g : Group) (vd : Nat) (z : Bool) (act : DWord) (f : Nat → Word) :
    (g.writeV vd z act f).blockedSince = g.blockedSince := by
  unfold Group.writeV; split <;> simp
@[simp] theorem Group.writeV_residency (g : Group) (vd : Nat) (z : Bool) (act : DWord) (f : Nat → Word) :
    (g.writeV vd z act f).residency = g.residency := by
  unfold Group.writeV; split <;> simp
@[simp] theorem Group.writeV_pend (g : Group) (vd : Nat) (z : Bool) (act : DWord) (f : Nat → Word) :
    (g.writeV vd z act f).pend = g.pend := by
  unfold Group.writeV; split <;> simp
@[simp] theorem Group.writeV_matq (g : Group) (vd : Nat) (z : Bool) (act : DWord) (f : Nat → Word) :
    (g.writeV vd z act f).matq = g.matq := by
  unfold Group.writeV; split <;> simp
@[simp] theorem Group.writeV_tag (g : Group) (vd : Nat) (z : Bool) (act : DWord) (f : Nat → Word) :
    (g.writeV vd z act f).tag = g.tag := by
  unfold Group.writeV; split <;> simp
@[simp] theorem Group.writeV_seat (g : Group) (vd : Nat) (z : Bool) (act : DWord) (f : Nat → Word) :
    (g.writeV vd z act f).seat = g.seat := by
  unfold Group.writeV; split <;> simp
@[simp] theorem Group.writeV_holds (g : Group) (vd : Nat) (z : Bool) (act : DWord) (f : Nat → Word) :
    (g.writeV vd z act f).holds = g.holds := by
  unfold Group.writeV; split <;> simp
@[simp] theorem Group.writeV_streamSlot (g : Group) (vd : Nat) (z : Bool) (act : DWord) (f : Nat → Word) :
    (g.writeV vd z act f).streamSlot = g.streamSlot := by
  unfold Group.writeV; split <;> simp
@[simp] theorem Group.writeV_poisoned (g : Group) (vd : Nat) (z : Bool) (act : DWord) (f : Nat → Word) :
    (g.writeV vd z act f).poisoned = g.poisoned := by
  unfold Group.writeV; split <;> simp
@[simp] theorem Group.writeV_bad (g : Group) (vd : Nat) (z : Bool) (act : DWord) (f : Nat → Word) :
    (g.writeV vd z act f).bad = g.bad := by
  unfold Group.writeV; split <;> simp
@[simp] theorem Group.writeV_lastPages (g : Group) (vd : Nat) (z : Bool) (act : DWord) (f : Nat → Word) :
    (g.writeV vd z act f).lastPages = g.lastPages := by
  unfold Group.writeV; split <;> simp
@[simp] theorem Group.writeV_syncAt (g : Group) (vd : Nat) (z : Bool) (act : DWord) (f : Nat → Word) :
    (g.writeV vd z act f).syncAt = g.syncAt := by
  unfold Group.writeV; split <;> simp
@[simp] theorem Group.writeV_lastPc (g : Group) (vd : Nat) (z : Bool) (act : DWord) (f : Nat → Word) :
    (g.writeV vd z act f).lastPc = g.lastPc := by
  unfold Group.writeV; split <;> simp
@[simp] theorem Group.writeV_kitty (g : Group) (vd : Nat) (z : Bool) (act : DWord) (f : Nat → Word) :
    (g.writeV vd z act f).kitty = g.kitty := by
  unfold Group.writeV; split <;> simp
@[simp] theorem Group.writeV_frameCopy (g : Group) (vd : Nat) (z : Bool) (act : DWord) (f : Nat → Word) :
    (g.writeV vd z act f).frameCopy = g.frameCopy := by
  unfold Group.writeV; split <;> simp
@[simp] theorem Group.writeP_part (g : Group) (pd : Nat) (z : Bool) (act : DWord) (f : Nat → Bool) :
    (g.writeP pd z act f).part = g.part := by
  simp [Group.writeP]
@[simp] theorem Group.writeP_team (g : Group) (pd : Nat) (z : Bool) (act : DWord) (f : Nat → Bool) :
    (g.writeP pd z act f).team = g.team := by
  simp [Group.writeP]
@[simp] theorem Group.writeP_index (g : Group) (pd : Nat) (z : Bool) (act : DWord) (f : Nat → Bool) :
    (g.writeP pd z act f).index = g.index := by
  simp [Group.writeP]
@[simp] theorem Group.writeP_role (g : Group) (pd : Nat) (z : Bool) (act : DWord) (f : Nat → Bool) :
    (g.writeP pd z act f).role = g.role := by
  simp [Group.writeP]
@[simp] theorem Group.writeP_width (g : Group) (pd : Nat) (z : Bool) (act : DWord) (f : Nat → Bool) :
    (g.writeP pd z act f).width = g.width := by
  simp [Group.writeP]
@[simp] theorem Group.writeP_latency (g : Group) (pd : Nat) (z : Bool) (act : DWord) (f : Nat → Bool) :
    (g.writeP pd z act f).latency = g.latency := by
  simp [Group.writeP]
@[simp] theorem Group.writeP_issueSlot (g : Group) (pd : Nat) (z : Bool) (act : DWord) (f : Nat → Bool) :
    (g.writeP pd z act f).issueSlot = g.issueSlot := by
  simp [Group.writeP]
@[simp] theorem Group.writeP_lanePos (g : Group) (pd : Nat) (z : Bool) (act : DWord) (f : Nat → Bool) :
    (g.writeP pd z act f).lanePos = g.lanePos := by
  simp [Group.writeP]
@[simp] theorem Group.writeP_vAlloc (g : Group) (pd : Nat) (z : Bool) (act : DWord) (f : Nat → Bool) :
    (g.writeP pd z act f).vAlloc = g.vAlloc := by
  simp [Group.writeP]
@[simp] theorem Group.writeP_sAlloc (g : Group) (pd : Nat) (z : Bool) (act : DWord) (f : Nat → Bool) :
    (g.writeP pd z act f).sAlloc = g.sAlloc := by
  simp [Group.writeP]
@[simp] theorem Group.writeP_tAlloc (g : Group) (pd : Nat) (z : Bool) (act : DWord) (f : Nat → Bool) :
    (g.writeP pd z act f).tAlloc = g.tAlloc := by
  simp [Group.writeP]
@[simp] theorem Group.writeP_aAlloc (g : Group) (pd : Nat) (z : Bool) (act : DWord) (f : Nat → Bool) :
    (g.writeP pd z act f).aAlloc = g.aAlloc := by
  simp [Group.writeP]
@[simp] theorem Group.writeP_text (g : Group) (pd : Nat) (z : Bool) (act : DWord) (f : Nat → Bool) :
    (g.writeP pd z act f).text = g.text := by
  simp [Group.writeP]
@[simp] theorem Group.writeP_liveset (g : Group) (pd : Nat) (z : Bool) (act : DWord) (f : Nat → Bool) :
    (g.writeP pd z act f).liveset = g.liveset := by
  simp [Group.writeP]
@[simp] theorem Group.writeP_liveCount (g : Group) (pd : Nat) (z : Bool) (act : DWord) (f : Nat → Bool) :
    (g.writeP pd z act f).liveCount = g.liveCount := by
  simp [Group.writeP]
@[simp] theorem Group.writeP_data (g : Group) (pd : Nat) (z : Bool) (act : DWord) (f : Nat → Bool) :
    (g.writeP pd z act f).data = g.data := by
  simp [Group.writeP]
@[simp] theorem Group.writeP_gridId (g : Group) (pd : Nat) (z : Bool) (act : DWord) (f : Nat → Bool) :
    (g.writeP pd z act f).gridId = g.gridId := by
  simp [Group.writeP]
@[simp] theorem Group.writeP_depth (g : Group) (pd : Nat) (z : Bool) (act : DWord) (f : Nat → Bool) :
    (g.writeP pd z act f).depth = g.depth := by
  simp [Group.writeP]
@[simp] theorem Group.writeP_teamX (g : Group) (pd : Nat) (z : Bool) (act : DWord) (f : Nat → Bool) :
    (g.writeP pd z act f).teamX = g.teamX := by
  simp [Group.writeP]
@[simp] theorem Group.writeP_teamY (g : Group) (pd : Nat) (z : Bool) (act : DWord) (f : Nat → Bool) :
    (g.writeP pd z act f).teamY = g.teamY := by
  simp [Group.writeP]
@[simp] theorem Group.writeP_teamZ (g : Group) (pd : Nat) (z : Bool) (act : DWord) (f : Nat → Bool) :
    (g.writeP pd z act f).teamZ = g.teamZ := by
  simp [Group.writeP]
@[simp] theorem Group.writeP_vregs (g : Group) (pd : Nat) (z : Bool) (act : DWord) (f : Nat → Bool) :
    (g.writeP pd z act f).vregs = g.vregs := by
  simp [Group.writeP]
@[simp] theorem Group.writeP_sregs (g : Group) (pd : Nat) (z : Bool) (act : DWord) (f : Nat → Bool) :
    (g.writeP pd z act f).sregs = g.sregs := by
  simp [Group.writeP]
@[simp] theorem Group.writeP_tiles (g : Group) (pd : Nat) (z : Bool) (act : DWord) (f : Nat → Bool) :
    (g.writeP pd z act f).tiles = g.tiles := by
  simp [Group.writeP]
@[simp] theorem Group.writeP_accs (g : Group) (pd : Nat) (z : Bool) (act : DWord) (f : Nat → Bool) :
    (g.writeP pd z act f).accs = g.accs := by
  simp [Group.writeP]
@[simp] theorem Group.writeP_amax (g : Group) (pd : Nat) (z : Bool) (act : DWord) (f : Nat → Bool) :
    (g.writeP pd z act f).amax = g.amax := by
  simp [Group.writeP]
@[simp] theorem Group.writeP_mode (g : Group) (pd : Nat) (z : Bool) (act : DWord) (f : Nat → Bool) :
    (g.writeP pd z act f).mode = g.mode := by
  simp [Group.writeP]
@[simp] theorem Group.writeP_scc (g : Group) (pd : Nat) (z : Bool) (act : DWord) (f : Nat → Bool) :
    (g.writeP pd z act f).scc = g.scc := by
  simp [Group.writeP]
@[simp] theorem Group.writeP_flags (g : Group) (pd : Nat) (z : Bool) (act : DWord) (f : Nat → Bool) :
    (g.writeP pd z act f).flags = g.flags := by
  simp [Group.writeP]
@[simp] theorem Group.writeP_sig (g : Group) (pd : Nat) (z : Bool) (act : DWord) (f : Nat → Bool) :
    (g.writeP pd z act f).sig = g.sig := by
  simp [Group.writeP]
@[simp] theorem Group.writeP_msig (g : Group) (pd : Nat) (z : Bool) (act : DWord) (f : Nat → Bool) :
    (g.writeP pd z act f).msig = g.msig := by
  simp [Group.writeP]
@[simp] theorem Group.writeP_lscale (g : Group) (pd : Nat) (z : Bool) (act : DWord) (f : Nat → Bool) :
    (g.writeP pd z act f).lscale = g.lscale := by
  simp [Group.writeP]
@[simp] theorem Group.writeP_ovf (g : Group) (pd : Nat) (z : Bool) (act : DWord) (f : Nat → Bool) :
    (g.writeP pd z act f).ovf = g.ovf := by
  simp [Group.writeP]
@[simp] theorem Group.writeP_ovtab (g : Group) (pd : Nat) (z : Bool) (act : DWord) (f : Nat → Bool) :
    (g.writeP pd z act f).ovtab = g.ovtab := by
  simp [Group.writeP]
@[simp] theorem Group.writeP_amaxSel (g : Group) (pd : Nat) (z : Bool) (act : DWord) (f : Nat → Bool) :
    (g.writeP pd z act f).amaxSel = g.amaxSel := by
  simp [Group.writeP]
@[simp] theorem Group.writeP_readLatch (g : Group) (pd : Nat) (z : Bool) (act : DWord) (f : Nat → Bool) :
    (g.writeP pd z act f).readLatch = g.readLatch := by
  simp [Group.writeP]
@[simp] theorem Group.writeP_timeWrite (g : Group) (pd : Nat) (z : Bool) (act : DWord) (f : Nat → Bool) :
    (g.writeP pd z act f).timeWrite = g.timeWrite := by
  simp [Group.writeP]
@[simp] theorem Group.writeP_tcause (g : Group) (pd : Nat) (z : Bool) (act : DWord) (f : Nat → Bool) :
    (g.writeP pd z act f).tcause = g.tcause := by
  simp [Group.writeP]
@[simp] theorem Group.writeP_tpc (g : Group) (pd : Nat) (z : Bool) (act : DWord) (f : Nat → Bool) :
    (g.writeP pd z act f).tpc = g.tpc := by
  simp [Group.writeP]
@[simp] theorem Group.writeP_tval (g : Group) (pd : Nat) (z : Bool) (act : DWord) (f : Nat → Bool) :
    (g.writeP pd z act f).tval = g.tval := by
  simp [Group.writeP]
@[simp] theorem Group.writeP_tmask (g : Group) (pd : Nat) (z : Bool) (act : DWord) (f : Nat → Bool) :
    (g.writeP pd z act f).tmask = g.tmask := by
  simp [Group.writeP]
@[simp] theorem Group.writeP_hwdog (g : Group) (pd : Nat) (z : Bool) (act : DWord) (f : Nat → Bool) :
    (g.writeP pd z act f).hwdog = g.hwdog := by
  simp [Group.writeP]
@[simp] theorem Group.writeP_cnt (g : Group) (pd : Nat) (z : Bool) (act : DWord) (f : Nat → Bool) :
    (g.writeP pd z act f).cnt = g.cnt := by
  simp [Group.writeP]
@[simp] theorem Group.writeP_armed (g : Group) (pd : Nat) (z : Bool) (act : DWord) (f : Nat → Bool) :
    (g.writeP pd z act f).armed = g.armed := by
  simp [Group.writeP]
@[simp] theorem Group.writeP_safeCount (g : Group) (pd : Nat) (z : Bool) (act : DWord) (f : Nat → Bool) :
    (g.writeP pd z act f).safeCount = g.safeCount := by
  simp [Group.writeP]
@[simp] theorem Group.writeP_nominal (g : Group) (pd : Nat) (z : Bool) (act : DWord) (f : Nat → Bool) :
    (g.writeP pd z act f).nominal = g.nominal := by
  simp [Group.writeP]
@[simp] theorem Group.writeP_producers (g : Group) (pd : Nat) (z : Bool) (act : DWord) (f : Nat → Bool) :
    (g.writeP pd z act f).producers = g.producers := by
  simp [Group.writeP]
@[simp] theorem Group.writeP_stallUntil (g : Group) (pd : Nat) (z : Bool) (act : DWord) (f : Nat → Bool) :
    (g.writeP pd z act f).stallUntil = g.stallUntil := by
  simp [Group.writeP]
@[simp] theorem Group.writeP_lastIssue (g : Group) (pd : Nat) (z : Bool) (act : DWord) (f : Nat → Bool) :
    (g.writeP pd z act f).lastIssue = g.lastIssue := by
  simp [Group.writeP]
@[simp] theorem Group.writeP_issuesInTurn (g : Group) (pd : Nat) (z : Bool) (act : DWord) (f : Nat → Bool) :
    (g.writeP pd z act f).issuesInTurn = g.issuesInTurn := by
  simp [Group.writeP]
@[simp] theorem Group.writeP_workSet (g : Group) (pd : Nat) (z : Bool) (act : DWord) (f : Nat → Bool) :
    (g.writeP pd z act f).workSet = g.workSet := by
  simp [Group.writeP]
@[simp] theorem Group.writeP_splits (g : Group) (pd : Nat) (z : Bool) (act : DWord) (f : Nat → Bool) :
    (g.writeP pd z act f).splits = g.splits := by
  simp [Group.writeP]
@[simp] theorem Group.writeP_exited (g : Group) (pd : Nat) (z : Bool) (act : DWord) (f : Nat → Bool) :
    (g.writeP pd z act f).exited = g.exited := by
  simp [Group.writeP]
@[simp] theorem Group.writeP_handler (g : Group) (pd : Nat) (z : Bool) (act : DWord) (f : Nat → Bool) :
    (g.writeP pd z act f).handler = g.handler := by
  simp [Group.writeP]
@[simp] theorem Group.writeP_parked (g : Group) (pd : Nat) (z : Bool) (act : DWord) (f : Nat → Bool) :
    (g.writeP pd z act f).parked = g.parked := by
  simp [Group.writeP]
@[simp] theorem Group.writeP_blockedSince (g : Group) (pd : Nat) (z : Bool) (act : DWord) (f : Nat → Bool) :
    (g.writeP pd z act f).blockedSince = g.blockedSince := by
  simp [Group.writeP]
@[simp] theorem Group.writeP_residency (g : Group) (pd : Nat) (z : Bool) (act : DWord) (f : Nat → Bool) :
    (g.writeP pd z act f).residency = g.residency := by
  simp [Group.writeP]
@[simp] theorem Group.writeP_pend (g : Group) (pd : Nat) (z : Bool) (act : DWord) (f : Nat → Bool) :
    (g.writeP pd z act f).pend = g.pend := by
  simp [Group.writeP]
@[simp] theorem Group.writeP_matq (g : Group) (pd : Nat) (z : Bool) (act : DWord) (f : Nat → Bool) :
    (g.writeP pd z act f).matq = g.matq := by
  simp [Group.writeP]
@[simp] theorem Group.writeP_tag (g : Group) (pd : Nat) (z : Bool) (act : DWord) (f : Nat → Bool) :
    (g.writeP pd z act f).tag = g.tag := by
  simp [Group.writeP]
@[simp] theorem Group.writeP_seat (g : Group) (pd : Nat) (z : Bool) (act : DWord) (f : Nat → Bool) :
    (g.writeP pd z act f).seat = g.seat := by
  simp [Group.writeP]
@[simp] theorem Group.writeP_holds (g : Group) (pd : Nat) (z : Bool) (act : DWord) (f : Nat → Bool) :
    (g.writeP pd z act f).holds = g.holds := by
  simp [Group.writeP]
@[simp] theorem Group.writeP_streamSlot (g : Group) (pd : Nat) (z : Bool) (act : DWord) (f : Nat → Bool) :
    (g.writeP pd z act f).streamSlot = g.streamSlot := by
  simp [Group.writeP]
@[simp] theorem Group.writeP_poisoned (g : Group) (pd : Nat) (z : Bool) (act : DWord) (f : Nat → Bool) :
    (g.writeP pd z act f).poisoned = g.poisoned := by
  simp [Group.writeP]
@[simp] theorem Group.writeP_bad (g : Group) (pd : Nat) (z : Bool) (act : DWord) (f : Nat → Bool) :
    (g.writeP pd z act f).bad = g.bad := by
  simp [Group.writeP]
@[simp] theorem Group.writeP_lastPages (g : Group) (pd : Nat) (z : Bool) (act : DWord) (f : Nat → Bool) :
    (g.writeP pd z act f).lastPages = g.lastPages := by
  simp [Group.writeP]
@[simp] theorem Group.writeP_syncAt (g : Group) (pd : Nat) (z : Bool) (act : DWord) (f : Nat → Bool) :
    (g.writeP pd z act f).syncAt = g.syncAt := by
  simp [Group.writeP]
@[simp] theorem Group.writeP_lastPc (g : Group) (pd : Nat) (z : Bool) (act : DWord) (f : Nat → Bool) :
    (g.writeP pd z act f).lastPc = g.lastPc := by
  simp [Group.writeP]
@[simp] theorem Group.writeP_kitty (g : Group) (pd : Nat) (z : Bool) (act : DWord) (f : Nat → Bool) :
    (g.writeP pd z act f).kitty = g.kitty := by
  simp [Group.writeP]
@[simp] theorem Group.writeP_frameCopy (g : Group) (pd : Nat) (z : Bool) (act : DWord) (f : Nat → Bool) :
    (g.writeP pd z act f).frameCopy = g.frameCopy := by
  simp [Group.writeP]
@[simp] theorem issuer_vreg (s : State) (g : Group) (p : Split) (sp : Spec) (r i : Nat) : (issuer s g p sp).vreg r i = g.vreg r i := by
  simp [Group.vreg]
@[simp] theorem issuer_sreg (s : State) (g : Group) (p : Split) (sp : Spec) (n : Nat) : (issuer s g p sp).sreg n = g.sreg n := by
  simp [Group.sreg]
@[simp] theorem issuer_pred (s : State) (g : Group) (p : Split) (sp : Spec) (n : Nat) : (issuer s g p sp).pred n = g.pred n := by
  simp [Group.pred]
@[simp] theorem issuer_spair (s : State) (g : Group) (p : Split) (sp : Spec) (n : Nat) : (issuer s g p sp).spair n = g.spair n := by
  simp [Group.spair, Group.sreg]
@[simp] theorem issuer_mType (s : State) (g : Group) (p : Split) (sp : Spec)  : (issuer s g p sp).mType  = g.mType  := by
  simp [Group.mType]
@[simp] theorem issuer_mRnd (s : State) (g : Group) (p : Split) (sp : Spec)  : (issuer s g p sp).mRnd  = g.mRnd  := by
  simp [Group.mRnd]
@[simp] theorem issuer_mFtz (s : State) (g : Group) (p : Split) (sp : Spec)  : (issuer s g p sp).mFtz  = g.mFtz  := by
  simp [Group.mFtz]
@[simp] theorem issuer_mDaz (s : State) (g : Group) (p : Split) (sp : Spec)  : (issuer s g p sp).mDaz  = g.mDaz  := by
  simp [Group.mDaz]
@[simp] theorem issuer_mGuard (s : State) (g : Group) (p : Split) (sp : Spec)  : (issuer s g p sp).mGuard  = g.mGuard  := by
  simp [Group.mGuard]
@[simp] theorem issuer_mGinv (s : State) (g : Group) (p : Split) (sp : Spec)  : (issuer s g p sp).mGinv  = g.mGinv  := by
  simp [Group.mGinv]
@[simp] theorem issuer_mChk (s : State) (g : Group) (p : Split) (sp : Spec)  : (issuer s g p sp).mChk  = g.mChk  := by
  simp [Group.mChk]
@[simp] theorem issuer_mScope (s : State) (g : Group) (p : Split) (sp : Spec)  : (issuer s g p sp).mScope  = g.mScope  := by
  simp [Group.mScope]
@[simp] theorem issuer_mFpxe (s : State) (g : Group) (p : Split) (sp : Spec)  : (issuer s g p sp).mFpxe  = g.mFpxe  := by
  simp [Group.mFpxe]
@[simp] theorem issuer_mXw (s : State) (g : Group) (p : Split) (sp : Spec)  : (issuer s g p sp).mXw  = g.mXw  := by
  simp [Group.mXw]
@[simp] theorem issuer_mPp (s : State) (g : Group) (p : Split) (sp : Spec)  : (issuer s g p sp).mPp  = g.mPp  := by
  simp [Group.mPp]
@[simp] theorem issuer_activeMask (s : State) (g : Group) (p : Split) (sp : Spec) (m : DWord) (sel : MaskSel) :
    (issuer s g p sp).activeMask m sel = g.activeMask m sel := by
  cases sel <;> simp only [Group.activeMask, Group.maskPred, issuer_pred, issuer_width, issuer_mGuard, issuer_mGinv] <;> rfl

@[simp] theorem issuer_effType (s : State) (g : Group) (p : Split) (sp : Spec) (px : Option AluPx) :
    (issuer s g p sp).effType px = g.effType px := by
  simp [Group.effType]

@[simp] theorem envOf_g (s : State) (gid : Nat) (g : Group) (p : Split) (sp : Spec) : (envOf s gid g p sp).g = issuer s g p sp := rfl
@[simp] theorem envOf_v (s : State) (gid : Nat) (g : Group) (p : Split) (sp : Spec) : (envOf s gid g p sp).v = issuer s g p sp := rfl
@[simp] theorem envOf_p (s : State) (gid : Nat) (g : Group) (p : Split) (sp : Spec) : (envOf s gid g p sp).p = holding s g p sp := rfl
@[simp] theorem envOf_gid (s : State) (gid : Nat) (g : Group) (p : Split) (sp : Spec) : (envOf s gid g p sp).gid = gid := rfl
@[simp] theorem envOf_s (s : State) (gid : Nat) (g : Group) (p : Split) (sp : Spec) :
    (envOf s gid g p sp).s = s.setGroup gid (issuer s g p sp) := rfl
@[simp] theorem envOf_sel (s : State) (gid : Nat) (g : Group) (p : Split) (sp : Spec) : (envOf s gid g p sp).sel = sp.mask := rfl
@[simp] theorem envOf_resumed (s : State) (gid : Nat) (g : Group) (p : Split) (sp : Spec) : (envOf s gid g p sp).resumed = false := rfl
@[simp] theorem envOf_marker (s : State) (gid : Nat) (g : Group) (p : Split) (sp : Spec) : (envOf s gid g p sp).marker = false := rfl
@[simp] theorem holding_mask (s : State) (g : Group) (p : Split) (sp : Spec) : (holding s g p sp).mask = p.mask := rfl
@[simp] theorem holding_pc (s : State) (g : Group) (p : Split) (sp : Spec) : (holding s g p sp).pc = p.pc := rfl
@[simp] theorem holding_slot (s : State) (g : Group) (p : Split) (sp : Spec) : (holding s g p sp).slot = p.slot := rfl

@[simp] theorem envOf_active (s : State) (gid : Nat) (g : Group) (p : Split) (sp : Spec) :
    (envOf s gid g p sp).active = g.activeMask p.mask sp.mask := by
  simp [Env.active]

end Sys2Proof.Machine
end

