-- ==== Sys2Proof/Laws/Lanes.lean ====
section
/-! SUPPORT. The laws of an instruction by what it writes: the lanes of a vector register, a predicate, a uniform register, a
status field, or only the program counter. Each says once what `issue` answers for such an instruction in a ready group. -/
namespace Sys2Proof.Machine

theorem maskBelow_out (n i : Nat) (hi : n ≤ i) : (maskBelow n).getLsbD i = false := by
  have h : (2 ^ n - 1 : Nat) < 2 ^ i :=
    Nat.lt_of_lt_of_le (Nat.sub_lt (Nat.pow_pos (by omega)) (by omega)) (Nat.pow_le_pow_right (by omega) hi)
  rw [maskBelow, BitVec.getLsbD_ofNat, Nat.testBit_lt_two_pow h, Bool.and_false]

/-- A lane at or above the width is never Active (R5). -/
theorem Group.activeMask_out (g : Group) (m : DWord) (sel : MaskSel) (i : Nat) (hi : g.width ≤ i) :
    inMask (g.activeMask m sel) i = false := by
  simp [inMask, Group.activeMask, maskBelow_out _ _ hi]

/-- A vector destination leaves its lanes at or above the width as they were. -/
theorem Group.vreg_writeV_above (g : Group) (vd : Nat) (zero : Bool) (act : DWord) (f : Nat → Word) (i : Nat)
    (hw : g.width ≤ 64) (hi : i < 64) (hg : g.width ≤ i) (ha : inMask act i = false) :
    (g.writeV vd zero act f).vreg vd i = g.vreg vd i := by
  unfold Group.writeV
  cases zero with
  | true =>
    simp only [if_true]
    rw [Group.vreg_setLanes _ _ _ _ (fun k hk => ((mem_take_lanes _ _ hw).1 hk).trans_le hw) _ _ hi]
    simp [mem_take_lanes _ _ hw]; omega
  | false =>
    simp only [Bool.false_eq_true, if_false]
    rw [Group.vreg_setLanes _ _ _ _ (fun k hk => ((mem_lanesOf _ _).1 hk).1) _ _ hi]
    simp [ha]

/-- What a group reads after a vector destination was written. -/
theorem lanesWritten_of {g k : Group} {p : Split} {vd : Nat} {sel : MaskSel} {zero : Bool} {f : Nat → Word}
    (hw : g.width ≤ 64) (h : k.vregs = (g.writeV vd zero (g.activeMask p.mask sel) f).vregs) :
    LanesWritten g k p vd sel zero f := by
  have e : ∀ r i, k.vreg r i = (g.writeV vd zero (g.activeMask p.mask sel) f).vreg r i := by
    intro r i; unfold Group.vreg; rw [h]
  constructor
  · intro i hi ha
    have hg : i < g.width := by
      by_contra hc
      have := Group.activeMask_out g p.mask sel i (by omega)
      simp [this] at ha
    rw [e, Group.vreg_writeV _ _ _ _ _ _ _ hw hg]; simp [ha]
  · intro i hi ha hz
    rw [e, Group.vreg_writeV _ _ _ _ _ _ _ hw hi]; simp [ha, hz]
  · intro i hi ha hz
    rw [e, Group.vreg_writeV _ _ _ _ _ _ _ hw hi]; simp [ha, hz]
  · intro i hi hg
    rw [e, Group.vreg_writeV_above _ _ _ _ _ _ hw hi hg (Group.activeMask_out g p.mask sel i hg)]
  · intro r hr i hi
    rw [e, Group.vreg_writeV_other _ _ _ _ _ _ _ hw hi hr]

theorem maskWhere_get (q : Nat → Bool) (i : Nat) (hi : i < 64) : inMask (maskWhere q) i = q i := by
  have key : ∀ n, (List.range n).foldl (fun a i => if q i then a + 2 ^ i else a) 0 < 2 ^ n ∧
      ∀ j < n, ((List.range n).foldl (fun a i => if q i then a + 2 ^ i else a) 0).testBit j = q j := by
    intro n
    induction n with
    | zero => simp
    | succ n ih =>
      obtain ⟨h1, h2⟩ := ih
      rw [List.range_succ, List.foldl_append]
      simp only [List.foldl_cons, List.foldl_nil]
      generalize hx : (List.range n).foldl (fun a i => if q i then a + 2 ^ i else a) 0 = x at h1 h2
      cases hq : q n with
      | false =>
        simp only [Bool.false_eq_true, if_false]
        refine ⟨by rw [Nat.pow_succ]; omega, fun j hj => ?_⟩
        rcases Nat.lt_succ_iff_lt_or_eq.1 hj with h | rfl
        · exact h2 j h
        · rw [Nat.testBit_lt_two_pow h1, hq]
      | true =>
        simp only [if_true]
        refine ⟨by rw [Nat.pow_succ]; omega, fun j hj => ?_⟩
        rw [Nat.add_comm]
        rcases Nat.lt_succ_iff_lt_or_eq.1 hj with h | rfl
        · rw [Nat.testBit_two_pow_add_gt h]; exact h2 j h
        · rw [Nat.testBit_two_pow_add_eq, Nat.testBit_lt_two_pow h1, hq]; rfl
  have := (key 64).2 i hi
  unfold inMask maskWhere
  rw [laneList_eq]
  simp only [BitVec.getLsbD_ofNat, hi, decide_true, Bool.true_and]
  exact this

/-- What a group reads after a predicate was written. -/
theorem predWritten_of {g k : Group} {p : Split} {pd : Nat} {sel : MaskSel} {zero : Bool} {f : Nat → Bool}
    (h : k.preds = (g.writeP pd zero (g.activeMask p.mask sel) f).preds) : PredWritten g k p pd sel zero f := by
  have e : ∀ r, k.pred r = (g.writeP pd zero (g.activeMask p.mask sel) f).pred r := by
    intro r; unfold Group.pred; rw [h]
  have b : pd ≠ 7 → ∀ i < 64, inMask (k.pred pd) i =
      (inMask (g.activeMask p.mask sel) i && f i ||
        (if zero then false else inMask (g.pred pd) i && !inMask (g.activeMask p.mask sel) i)) := by
    intro hp i hi
    rw [e]
    unfold Group.writeP
    rw [Group.pred_setPred]
    simp only [hp, if_false, if_true]
    have hm := maskWhere_get (fun i => inMask (g.activeMask p.mask sel) i && f i) i hi
    unfold inMask at hm ⊢
    simp only [BitVec.getLsbD_or, hm]
    cases zero <;> simp [hi]
  constructor
  · intro hp i hi ha; rw [b hp i hi]; cases zero <;> simp [ha]
  · intro hp i hi ha hz; rw [b hp i hi]; simp [ha, hz]
  · intro hp i hi ha hz; rw [b hp i hi]; simp [ha, hz]
  · intro r hr
    rw [e]; unfold Group.writeP; rw [Group.pred_setPred]
    by_cases h7 : r = 7
    · simp [h7, Group.pred]
    · simp [hr, h7]
  · simp [Group.pred]

theorem Issued.fields {k h : Group} {p : Split} {pc : DWord} (H : Issued k h p pc) :
    k.vregs = h.vregs ∧ k.preds = h.preds ∧ k.sregs = h.sregs ∧ k.scc = h.scc := by
  rw [H]; unfold Group.setIssuing; split <;> exact ⟨rfl, rfl, rfl, rfl⟩

theorem Group.writeV_eq (g : Group) (vd : Nat) (z : Bool) (act : DWord) (f : Nat → Word) :
    g.writeV vd z act f = { g with vregs := (g.writeV vd z act f).vregs } := by
  unfold Group.writeV; split <;> rw [Group.setLanes_eq]

theorem Group.writeP_eq (g : Group) (pd : Nat) (z : Bool) (act : DWord) (f : Nat → Bool) :
    g.writeP pd z act f = { g with preds := (g.writeP pd z act f).preds } := by
  unfold Group.writeP Group.setPred; split <;> rfl

/-- An instruction that writes the lanes of a vector register. -/
theorem issue_lanes {s : State} {gid : Nat} {g : Group} {p : Split} (hr : Ready s gid g p) (sp : Group → Split → Spec)
    (body : Env → Res) (h58 : g.r58 (sp g p) = none) (hw : (sp g p).widthIll = false) (vd : Nat) (zero : Bool)
    (sel : MaskSel) (f : Nat → Word) (n : Nat)
    (hbody : body (envOf s gid g p (sp g p)) = (envOf s gid g p (sp g p)).upd
      ((issuer s g p (sp g p)).writeV vd zero (g.activeMask p.mask sel) f))
    (hn : (sp g p).words.length = n) :
    ∃ k, issue sp body s = .next (s.setGroup gid k) ∧ Issued k { g with vregs := k.vregs } p (s.after g p n) ∧
      LanesWritten g k p vd sel zero f := by
  obtain ⟨k, h1, h2⟩ := issue_upd hr sp body h58 hw (g.writeV vd zero (g.activeMask p.mask sel) f)
    (by rw [hbody]; congr 1; conv_lhs => rw [issuer_rebase]
        simp)
    (by simp) (by simp) (by simpa using hr.settled.2.1) (by simpa using hr.settled.2.2.2)
  have hv := (Issued.fields h2).1
  refine ⟨k, h1, ?_, lanesWritten_of hr.wide hv⟩
  rw [hn, Group.writeV_eq] at h2
  rw [hv]; exact h2

/-- An instruction that writes a predicate. -/
theorem issue_pred {s : State} {gid : Nat} {g : Group} {p : Split} (hr : Ready s gid g p) (sp : Group → Split → Spec)
    (body : Env → Res) (h58 : g.r58 (sp g p) = none) (hw : (sp g p).widthIll = false) (pd : Nat) (zero : Bool)
    (sel : MaskSel) (f : Nat → Bool) (n : Nat)
    (hbody : body (envOf s gid g p (sp g p)) = (envOf s gid g p (sp g p)).upd
      ((issuer s g p (sp g p)).writeP pd zero (g.activeMask p.mask sel) f))
    (hn : (sp g p).words.length = n) :
    ∃ k, issue sp body s = .next (s.setGroup gid k) ∧ Issued k { g with preds := k.preds } p (s.after g p n) ∧
      PredWritten g k p pd sel zero f := by
  obtain ⟨k, h1, h2⟩ := issue_upd hr sp body h58 hw (g.writeP pd zero (g.activeMask p.mask sel) f)
    (by rw [hbody]; congr 1; conv_lhs => rw [issuer_rebase]
        simp)
    (by simp) (by simp) (by simpa using hr.settled.2.1) (by simpa using hr.settled.2.2.2)
  have hv := (Issued.fields h2).2.1
  refine ⟨k, h1, ?_, predWritten_of hv⟩
  rw [hn, Group.writeP_eq] at h2
  rw [hv]; exact h2

/-- An instruction that writes a uniform register. -/
theorem issue_sreg {s : State} {gid : Nat} {g : Group} {p : Split} (hr : Ready s gid g p) (sp : Group → Split → Spec)
    (body : Env → Res) (h58 : g.r58 (sp g p) = none) (hw : (sp g p).widthIll = false) (r : Nat) (x : Word) (n : Nat)
    (hbody : body (envOf s gid g p (sp g p)) = (envOf s gid g p (sp g p)).upd ((issuer s g p (sp g p)).setSreg r x))
    (hn : (sp g p).words.length = n) :
    ∃ k, issue sp body s = .next (s.setGroup gid k) ∧ Issued k (g.setSreg r x) p (s.after g p n) := by
  obtain ⟨k, h1, h2⟩ := issue_upd hr sp body h58 hw (g.setSreg r x)
    (by rw [hbody]; congr 1; conv_lhs => rw [issuer_rebase]
        simp)
    (by simp) (by simp) (by simpa using hr.settled.2.1) (by simpa using hr.settled.2.2.2)
  exact ⟨k, h1, hn ▸ h2⟩

/-- An instruction that changes the group in any other way, said by a function that does not touch what the issue does. -/
theorem issue_fun {s : State} {gid : Nat} {g : Group} {p : Split} (hr : Ready s gid g p) (sp : Group → Split → Spec)
    (body : Env → Res) (h58 : g.r58 (sp g p) = none) (hw : (sp g p).widthIll = false) (F : Group → Group) (n : Nat)
    (hbody : body (envOf s gid g p (sp g p)) = (envOf s gid g p (sp g p)).upd (F (issuer s g p (sp g p))))
    (hF : ∀ i : Group, F (g.rebase i) = (F g).rebase i)
    (hs : (F g).splits = g.splits) (hh : (F g).handler = g.handler) (hp : (F g).pend = g.pend)
    (hb : (F g).bad = g.bad) (hn : (sp g p).words.length = n) :
    ∃ k, issue sp body s = .next (s.setGroup gid k) ∧ Issued k (F g) p (s.after g p n) := by
  obtain ⟨k, h1, h2⟩ := issue_upd hr sp body h58 hw (F g)
    (by rw [hbody]; congr 1; conv_lhs => rw [issuer_rebase]
        exact hF _)
    hs hh (hp.trans hr.settled.2.1) (hb.trans hr.settled.2.2.2)
  exact ⟨k, h1, hn ▸ h2⟩

theorem aluWords_length (px : Option AluPx) (w : Nat) : (aluWords px w).length = if px.isSome then 2 else 1 := by
  cases px <;> rfl

@[simp] theorem issuer_vsrc (s : State) (g : Group) (p : Split) (sp : Spec) (w : Nat) (src : VSrc) :
    (issuer s g p sp).vsrc w src = g.vsrc w src := by cases src <;> simp [Group.vsrc]

@[simp] theorem issuer_ssrc (s : State) (g : Group) (p : Split) (sp : Spec) (src : SSrc) :
    (issuer s g p sp).ssrc src = g.ssrc src := by cases src <;> simp [Group.ssrc]

@[simp] theorem issuer_fourth (s : State) (g : Group) (p : Split) (sp : Spec) (px : Option AluPx) (f : Nat → Word) (i : Nat) :
    (issuer s g p sp).fourth px f i = g.fourth px f i := by
  unfold Group.fourth; split <;> simp

@[simp] theorem issuer_effRnd (s : State) (g : Group) (p : Split) (sp : Spec) (px : Option AluPx) :
    (issuer s g p sp).effRnd px = g.effRnd px := by simp [Group.effRnd]

theorem elemWidth_mem (t : Nat) : elemWidth t ∈ [8, 16, 32] := by unfold elemWidth; split <;> simp

end Sys2Proof.Machine
end

