-- ==== Sys2Proof/Laws/Flagged.lean ====
section
/-! SUPPORT. The laws of instructions that raise floating-point flags, and of those that write several registers. -/
namespace Sys2Proof.Machine

theorem orAll_spec {α : Type} (l : List α) (f : α → FFlags) (a : FFlags) (b : Nat) :
    (l.foldl (fun (x : FFlags) y => x ||| f y) a).getLsbD b = true ↔
      a.getLsbD b = true ∨ ∃ y ∈ l, (f y).getLsbD b = true := by
  induction l generalizing a with
  | nil => simp
  | cons h t ih =>
    simp only [List.foldl_cons, ih, BitVec.getLsbD_or, Bool.or_eq_true, List.mem_cons, exists_eq_or_imp]
    tauto

/-- An instruction that raises no enabled exception adds its flags to FLAGS (R175, R176). -/
theorem flagged_ok (e : Env) (lf : List (Nat × FFlags)) (g : Group)
    (h : ∀ q ∈ lf, q.2 &&& BitVec.ofNat 7 e.g.mFpxe = 0) :
    e.flagged lf g = e.upd { g with flags := g.flags ||| lf.foldl (fun (a : FFlags) q => a ||| q.2) 0 } := by
  unfold Env.flagged
  have : (lf.find? fun q => q.2 &&& BitVec.ofNat 7 e.g.mFpxe != 0) = none := by
    rw [List.find?_eq_none]
    intro q hq
    simp [h q hq]
  simp only [this]

theorem LanesWritten.congr {g k : Group} {p : Split} {vd : Nat} {sel : MaskSel} {zero : Bool} {f f' : Nat → Word}
    (h : LanesWritten g k p vd sel zero f)
    (e : ∀ i < 64, inMask (g.activeMask p.mask sel) i = true → f i = f' i) : LanesWritten g k p vd sel zero f' :=
  { h with active := fun i hi ha => (h.active i hi ha).trans (e i hi ha) }

/-- Several registers written from `vd` on (R5, R187): what a group reads afterwards. -/
theorem Group.writeVs_eq (g : Group) (vd : Nat) (z : Bool) (act : DWord) (f : Nat → Nat → Word) (n : Nat) :
    g.writeVs vd z act f n = { g with vregs := (g.writeVs vd z act f n).vregs } := by
  induction n with
  | zero => rfl
  | succ n ih => rw [Group.writeVs, Group.writeV_eq, ih]

@[simp] theorem Group.rebase_writeVs (g i : Group) (vd : Nat) (z : Bool) (act : DWord) (f : Nat → Nat → Word) (n : Nat) :
    (g.rebase i).writeVs vd z act f n = (g.writeVs vd z act f n).rebase i := by
  induction n with
  | zero => rfl
  | succ n ih => rw [Group.writeVs, ih, Group.rebase_writeV]; rfl

theorem Group.vreg_writeVs (g : Group) (p : Split) (sel : MaskSel) (vd : Nat) (z : Bool) (f : Nat → Nat → Word) (n : Nat)
    (hw : g.width ≤ 64) :
    GroupWritten g (g.writeVs vd z (g.activeMask p.mask sel) f n) p vd n sel z f := by
  induction n with
  | zero => constructor <;> simp [Group.writeVs]
  | succ n ih =>
    have e := Group.writeVs_eq g vd z (g.activeMask p.mask sel) f n
    have hwid : (g.writeVs vd z (g.activeMask p.mask sel) f n).width = g.width := by rw [e]
    have hact : ∀ m s, (g.writeVs vd z (g.activeMask p.mask sel) f n).activeMask m s = g.activeMask m s := by
      intro m s; rw [e]; rfl
    have hl : LanesWritten (g.writeVs vd z (g.activeMask p.mask sel) f n)
        (g.writeVs vd z (g.activeMask p.mask sel) f (n + 1)) p (vd + n) sel z (f n) := by
      apply lanesWritten_of (hwid ▸ hw)
      rw [Group.writeVs, hact]
    have ho : ∀ q < n, ∀ i < 64, (g.writeVs vd z (g.activeMask p.mask sel) f (n + 1)).vreg (vd + q) i =
        (g.writeVs vd z (g.activeMask p.mask sel) f n).vreg (vd + q) i := by
      intro q hq i hi
      exact hl.others (vd + q) (by omega) i hi
    constructor
    · intro q hq i hi ha
      rcases Nat.lt_succ_iff_lt_or_eq.1 hq with h | rfl
      · rw [ho q h i hi]; exact ih.active q h i hi ha
      · exact hl.active i hi (by rw [hact]; exact ha)
    · intro q hq i hi ha hz
      rcases Nat.lt_succ_iff_lt_or_eq.1 hq with h | rfl
      · rw [ho q h i (by omega)]; exact ih.zeroed q h i hi ha hz
      · exact hl.zeroed i (by rw [hwid]; exact hi) (by rw [hact]; exact ha) hz
    · intro q hq i hi ha hz
      rcases Nat.lt_succ_iff_lt_or_eq.1 hq with h | rfl
      · rw [ho q h i (by omega)]; exact ih.merged q h i hi ha hz
      · rw [hl.merged i (by rw [hwid]; exact hi) (by rw [hact]; exact ha) hz]
        exact ih.others (vd + q) (by omega) i (by omega)
    · intro q hq i hi hg
      rcases Nat.lt_succ_iff_lt_or_eq.1 hq with h | rfl
      · rw [ho q h i hi]; exact ih.above q h i hi hg
      · rw [hl.above i hi (by rw [hwid]; exact hg)]
        exact ih.others (vd + q) (by omega) i hi
    · intro r hr i hi
      rw [hl.others r (by omega) i hi]
      exact ih.others r (by omega) i hi

theorem GroupWritten.vregs {g k k' : Group} {p : Split} {vd n : Nat} {sel : MaskSel} {zero : Bool} {f : Nat → Nat → Word}
    (h : GroupWritten g k p vd n sel zero f) (e : k'.vregs = k.vregs) : GroupWritten g k' p vd n sel zero f := by
  have v : ∀ r i, k'.vreg r i = k.vreg r i := by intro r i; unfold Group.vreg; rw [e]
  constructor
  · intro q hq i hi ha; rw [v]; exact h.active q hq i hi ha
  · intro q hq i hi ha hz; rw [v]; exact h.zeroed q hq i hi ha hz
  · intro q hq i hi ha hz; rw [v]; exact h.merged q hq i hi ha hz
  · intro q hq i hi hg; rw [v]; exact h.above q hq i hi hg
  · intro r hr i hi; rw [v]; exact h.others r hr i hi

theorem GroupWritten.congr {g k : Group} {p : Split} {vd n : Nat} {sel : MaskSel} {zero : Bool} {f f' : Nat → Nat → Word}
    (h : GroupWritten g k p vd n sel zero f)
    (e : ∀ q < n, ∀ i < 64, inMask (g.activeMask p.mask sel) i = true → f q i = f' q i) :
    GroupWritten g k p vd n sel zero f' :=
  { h with active := fun q hq i hi ha => (h.active q hq i hi ha).trans (e q hq i hi ha) }

/-- The flags that the lanes of a mask raise. -/
abbrev raisedBy (m : DWord) (fl : Nat → FFlags) : FFlags :=
  ((lanesOf m).map fun i => (i, fl i)).foldl (fun (a : FFlags) q => a ||| q.2) 0

/-- The flags that the lanes of a list raise. -/
theorem flagsRaised_of {g k : Group} {p : Split} {sel : MaskSel} {fl : Nat → FFlags}
    (h : k.flags = g.flags ||| raisedBy (g.activeMask p.mask sel) fl) : FlagsRaised g k p sel fl := by
  intro b
  rw [h]
  simp only [BitVec.getLsbD_or, Bool.or_eq_true, raisedBy, orAll_spec, List.mem_map, mem_lanesOf]
  constructor
  · rintro (h | h | ⟨_, ⟨i, hi, rfl⟩, hb⟩)
    · exact .inl h
    · simp at h
    · exact .inr ⟨i, hi.1, hi.2, hb⟩
  · rintro (h | ⟨i, hi, ha, hb⟩)
    · exact .inl h
    · exact .inr (.inr ⟨_, ⟨i, ⟨hi, ha⟩, rfl⟩, hb⟩)

/-- An instruction that raises flags lane by lane and writes vector registers. -/
theorem issue_flagged {s : State} {gid : Nat} {g : Group} {p : Split} (hr : Ready s gid g p) (sp : Group → Split → Spec)
    (body : Env → Res) (h58 : g.r58 (sp g p) = none) (hw : (sp g p).widthIll = false) (sel : MaskSel) (fl : Nat → FFlags)
    (F : Group → Group) (n : Nat)
    (hbody : body (envOf s gid g p (sp g p)) = (envOf s gid g p (sp g p)).flagged
      ((lanesOf (g.activeMask p.mask sel)).map fun i => (i, fl i)) (F (issuer s g p (sp g p))))
    (hq : g.NoFpTrap p sel fl) (hF : ∀ i : Group, F (g.rebase i) = (F g).rebase i)
    (hFs : F g = { g with vregs := (F g).vregs, preds := (F g).preds })
    (hn : (sp g p).words.length = n) :
    ∃ k, issue sp body s = .next (s.setGroup gid k) ∧
      Issued k { g with vregs := (F g).vregs, preds := (F g).preds, flags := k.flags } p (s.after g p n) ∧
      FlagsRaised g k p sel fl ∧ k.vregs = (F g).vregs ∧ k.preds = (F g).preds := by
  have hok := flagged_ok (envOf s gid g p (sp g p)) ((lanesOf (g.activeMask p.mask sel)).map fun i => (i, fl i))
    (F (issuer s g p (sp g p))) (by
      intro q hm
      simp only [List.mem_map, mem_lanesOf] at hm
      obtain ⟨i, ⟨hi, ha⟩, rfl⟩ := hm
      simpa using hq i hi ha)
  obtain ⟨k, h1, h2⟩ := issue_upd hr sp body h58 hw
    { F g with flags := (F g).flags ||| raisedBy (g.activeMask p.mask sel) fl }
    (by rw [hbody, hok]; congr 1
        conv_lhs => rw [issuer_rebase, hF]
        rfl)
    (by rw [hFs]) (by rw [hFs]) (by rw [hFs]; simpa using hr.settled.2.1) (by rw [hFs]; simpa using hr.settled.2.2.2)
  have hf : k.flags = (F g).flags ||| raisedBy (g.activeMask p.mask sel) fl := by
    rw [h2]; unfold Group.setIssuing; split <;> rfl
  have hg : (F g).flags = g.flags := by rw [hFs]
  have hv := Issued.fields h2
  refine ⟨k, h1, ?_, flagsRaised_of (hg ▸ hf), hv.1, hv.2.1⟩
  rw [hn] at h2
  rw [hf]
  rw [hFs] at h2 ⊢
  exact h2

end Sys2Proof.Machine
end

