-- ==== Sys2Proof/Laws/Forms.lean ====
section
/-! SUPPORT. The checks of R58 for the operand forms of the floating-point, expansion and conversion instructions, and the
law of an instruction that writes lanes and raises flags. -/
namespace Sys2Proof.Machine

theorem tabGet_map {α : Type} (l : List Nat) (f : Nat → α) (i : Nat) (h : i ∈ l) :
    tabGet (l.map fun i => (i, f i)) i = some (f i) := by
  induction l with
  | nil => simp at h
  | cons a l ih =>
    simp only [List.map_cons, tabGet]
    split
    · next h => rw [h]
    · next hn => exact ih (by simpa [hn] using h)

theorem mem_upFrom (r a n : Nat) : r ∈ upFrom a n ↔ a ≤ r ∧ r < a + n := by
  induction n generalizing a with
  | zero => simp [upFrom]
  | succ n ih => simp [upFrom, ih]; omega

/-- An instruction that writes lanes of a vector register and raises flags, and takes no exception trap (R186). -/
theorem issue_floatV {s : State} {gid : Nat} {g : Group} {p : Split} (hr : Ready s gid g p) (sp : Group → Split → Spec)
    (body : Env → Res) (h58 : g.r58 (sp g p) = none) (hw : (sp g p).widthIll = false) (px : Option AluPx)
    (f : Nat → Word × FFlags) (vd : Nat) (n : Nat) (hm : (sp g p).mask = aluMask px)
    (hbody : body (envOf s gid g p (sp g p)) = (envOf s gid g p (sp g p)).fpWrite px vd f)
    (hq : g.NoFpTrap p (aluMask px) fun i => (f i).2) (hn : (sp g p).words.length = n) :
    ∃ k, issue sp body s = .next (s.setGroup gid k) ∧
      Issued k { g with vregs := k.vregs, flags := k.flags } p (s.after g p n) ∧
      FlagsRaised g k p (aluMask px) (fun i => (f i).2) ∧ LanesWritten g k p vd (aluMask px) (aluZero px) fun i => (f i).1 := by
  obtain ⟨k, h1, h2, h3, h4, h5⟩ := issue_flagged hr sp body h58 hw (aluMask px) (fun i => (f i).2)
    (fun G => G.writeV vd (aluZero px) (g.activeMask p.mask (aluMask px)) fun i =>
      ((tabGet ((lanesOf (g.activeMask p.mask (aluMask px))).map fun i => (i, f i)) i).map (·.1)).getD 0) n
    (by rw [hbody]; unfold Env.fpWrite; simp only [envOf_active, hm, envOf_g, List.map_map]; rfl)
    hq (by simp) (by rw [Group.writeV_eq]) hn
  refine ⟨k, h1, ?_, h3, (lanesWritten_of hr.wide h4).congr ?_⟩
  · rw [← h4, ← h5] at h2
    have hp : k.preds = g.preds := by rw [h5, Group.writeV_eq]
    rw [hp] at h2; exact h2
  · intro i hi ha
    rw [tabGet_map _ _ _ (by simp [hi, ha])]; rfl

theorem r58_fpSpec (g : Group) (w : List Nat) (st : BitVec 2) (px : Option AluPx) (ok : Nat → Bool) (rounds fourth : Bool)
    (vn vs ss : List Nat) (wr : List (RegName × Nat)) (h1 : g.role = .vector) (hv : g.HasV (vn ++ vs ++ fourthV px 1))
    (hs : g.HasS (ss ++ fourthS px)) (ht : ok (g.effType px) = true) (hm : fpMisuse px rounds fourth = false)
    (hr : rounds = true → g.rndBad px = false) : g.r58 (fpSpec g w st px ok rounds fourth vn vs ss wr) = none := by
  apply Group.r58_none <;> try rfl
  · simp only [fpSpec, hm, Group.effType] at ht ⊢
    split at ht <;> simp_all
  · simp [fpSpec]
  · simp [fpSpec, h1]
  · exact hv
  · exact hs
  · simp [fpSpec, Group.HasT]
  · simp [fpSpec, Group.HasA]
  · simp only [fpSpec, Group.effType] at ht ⊢
    split at ht <;> cases rounds <;> simp_all

theorem r58_ufpSpec (g : Group) (w : Nat) (st : BitVec 2) (named : List Nat) (rs ws : List RegName) (rounds : Bool)
    (hs : g.HasS named) (hr : rounds = true → g.rndBad none = false) :
    g.r58 (ufpSpec g w st named rs ws rounds) = none := by
  apply Group.r58_none <;> try rfl
  all_goals cases rounds <;> simp_all [ufpSpec, Group.HasV, Group.HasS, Group.HasT, Group.HasA]

/-- What a lane of a floating-point operation computes is read from the group before the issue. -/
theorem envOf_fpLane (s : State) (gid : Nat) (g : Group) (p : Split) (sp : Spec) (px : Option AluPx) (raw : Bool)
    (op : FOp) (a b c : Word) (i : Nat)
    (ht : arithType (g.effType px) = true) :
    (envOf s gid g p sp).fpLane px raw op a b c i = g.floatWord px raw op (g.randWord px i) a b c := by
  have : g.effType px = 7 ∨ g.effType px = 8 ∨ g.effType px = 9 := by simpa [arithType, or_assoc] using ht
  unfold Env.fpLane Group.floatWord Env.rndAt randomBits Env.elemOf Group.srcElem Group.randWord
  simp only [envOf_g, envOf_v, issuer_effType, issuer_effRnd, issuer_fourth, issuer_mFtz, issuer_mDaz]
  rcases this with h | h | h <;> rw [h] <;> rfl

/-- Aligned and allocated register groups pass the checks of R57 and R50. -/
theorem Group.HasGroups.ok {g : Group} {bs : List (Nat × Nat)} (h : g.HasGroups bs) :
    (bs.any fun b => groupBad b.1 b.2) = false ∧ g.HasV (bs.flatMap fun b => upFrom b.1 b.2) := by
  constructor
  · rw [List.any_eq_false]
    intro b hb
    obtain ⟨h1, h2, h3⟩ := h b hb
    unfold groupBad
    split
    · simp
    · split
      · next h => simp [h1 h]
      · simp; apply h2; omega
  · intro r hr
    simp only [List.mem_flatMap, mem_upFrom] at hr
    obtain ⟨b, hb, h1⟩ := hr
    have := (h b hb).2.2
    omega

theorem r58_xSpec (g : Group) (words : List Nat) (st : BitVec 2) (px : Option AluPx) (x : XForm) (srcs : List RegName)
    (ill : Bool) (h1 : g.role = .vector) (ho : x.ok (g.effType px) = true) (hw : x.wide = true → g.xwBad px = false)
    (hnw : x.wide = false → pxXw px = 0) (hi : ill = false)
    (hb : g.HasGroups (x.groups.map (fun b => (b.1, b.2.1)) ++ (if pxKind px = 1 then [(pxOp4 px, x.fourth)] else []))) (hs : g.HasS (fourthS px))
    (hr : if x.rounds then (pxRnd px = 6 ↔ pxKind px ≠ 0) ∧ g.rndBad px = false else pxRnd px < 2 ∧ pxKind px ∈ x.kinds) :
    g.r58 (xSpec g words st px x srcs ill) = none := by
  have hall : ∀ b ∈ x.groups ++ (if (pxKind px = 1 && (x.rounds || x.kinds.contains 1)) = true then
      [(pxOp4 px, x.fourth, x.wide && !x.rounds)] else []),
      (b.1, b.2.1) ∈ x.groups.map (fun b => (b.1, b.2.1)) ++ (if pxKind px = 1 then [(pxOp4 px, x.fourth)] else []) := by
    intro b hm
    rcases List.mem_append.1 hm with hm | hm
    · exact List.mem_append_left _ (List.mem_map_of_mem hm)
    · split at hm
      · next hk =>
        rw [List.mem_singleton.1 hm]
        simp only [Bool.and_eq_true, decide_eq_true_eq] at hk
        simp [hk.1]
      · simp at hm
  obtain ⟨hb1, hb2⟩ := hb.ok
  rw [List.any_eq_false] at hb1
  have hbad : (((x.groups ++ (if (pxKind px = 1 && (x.rounds || x.kinds.contains 1)) = true then
      [(pxOp4 px, x.fourth, x.wide && !x.rounds)] else [])).filter fun b => x.ok (g.effType px) || !b.2.2).any
      fun b => groupBad b.1 b.2.1) = false := by
    rw [List.any_eq_false]
    exact fun b hm => hb1 _ (hall b (List.mem_of_mem_filter hm))
  apply Group.r58_none <;> try rfl
  · unfold xSpec; simp only [hbad]; cases h : x.wide <;> simp_all
  · unfold xSpec; simp only [ho]
    cases h : x.wide <;> cases h' : x.rounds <;> simp_all
    all_goals by_cases h6 : pxRnd px = 6 <;> simp_all
  · simp [xSpec]
  · simp [xSpec, h1]
  · intro r hr
    simp only [xSpec, List.mem_flatMap] at hr
    obtain ⟨b, hm, h1⟩ := hr
    exact hb2 r (List.mem_flatMap.2 ⟨_, hall b (List.mem_of_mem_filter hm), h1⟩)
  · exact hs
  · simp [xSpec, Group.HasT]
  · simp [xSpec, Group.HasA]
  · unfold xSpec; cases h' : x.rounds <;> simp_all

theorem r58_cvtSpec (g : Group) (words : List Nat) (st : BitVec 2) (px : Option AluPx) (vd va td : Nat) (ok : Nat → Bool)
    (plain : Bool) (na nd : Nat) (h1 : g.role = .vector) (ho : ok (g.effType px) = true) (ha : na = spread td (g.effType px))
    (hd : nd = spread (g.effType px) td) (h2 : va % na = 0) (h3 : vd % nd = 0) (h4 : vd + nd ≤ g.vAlloc)
    (h5 : va + na ≤ g.vAlloc) (h6 : g.HasV (fourthV px 1)) (h7 : g.HasS (fourthS px))
    (h8 : if plain then g.Rounds px else pxXw px = 0 ∧ pxRnd px ≠ 6 ∧ g.rndBad px = false) :
    g.r58 (cvtSpec g words st px vd va td ok plain) = none := by
  have ea : srcCount (g.effType px) td = na := ha ▸ rfl
  have ed : dstCount (g.effType px) td = nd := hd ▸ rfl
  apply Group.r58_none <;> try rfl
  · simp [cvtSpec, ho, ea, ed, h2, h3]
  · cases plain
    · simp_all [cvtSpec]
    · simp only [if_true, Group.Rounds] at h8
      by_cases h : pxRnd px = 6 <;> simp_all [cvtSpec, fpMisuse]
  · simp [cvtSpec]
  · simp [cvtSpec, h1]
  · simp only [cvtSpec, ho, ea, ed, if_true]
    intro r hr
    simp only [List.mem_append, mem_upFrom] at hr
    rcases hr with (hr | hr) | hr
    · omega
    · omega
    · exact h6 r hr
  · exact h7
  · simp [cvtSpec, Group.HasT]
  · simp [cvtSpec, Group.HasA]
  · cases plain <;> simp_all [cvtSpec, Group.Rounds]

end Sys2Proof.Machine
end

