-- ==== Sys2Proof/Laws/Memory.lean ====
section
/-! SUPPORT. Every operation that writes a memory keeps both memories in their canonical form. -/
namespace Sys2Proof.Machine

/-- The canonical form speaks of the two memories alone. -/
theorem State.memOk_congr {s t : State} (hm : t.mem = s.mem) (hs : t.spad = s.spad) (h : s.memOk) : t.memOk := by
  unfold State.memOk at *; rw [hm, hs]; exact h

/-- A chain of operations that each keep the form keeps it. -/
theorem State.memOk_foldl {α : Type} (f : State → α → State) (hf : ∀ s a, s.memOk → (f s a).memOk) (l : List α)
    (s : State) (h : s.memOk) : (l.foldl f s).memOk := by
  induction l generalizing s with
  | nil => exact h
  | cons a r ih => exact ih _ (hf s a h)

theorem State.memOk_setByte {s : State} (pa : Nat) (b : Byte) (h : s.memOk) : (s.setByte pa b).memOk :=
  ⟨smapWf_put memDefault s.mem pa b h.1, h.2⟩

theorem State.memOk_setSbyte {s : State} (k : Nat) (b : Byte) (h : s.memOk) : (s.setSbyte k b).memOk :=
  ⟨h.1, smapWf_put memDefault s.spad k b h.2⟩

theorem State.memOk_setBytes {s : State} (pa : Nat) (bs : List Byte) (h : s.memOk) : (s.setBytes pa bs).memOk := by
  induction bs generalizing s pa with
  | nil => exact h
  | cons b r ih => exact ih (pa + 1) (State.memOk_setByte pa b h)

theorem State.memOk_setSbytes {s : State} (k : Nat) (bs : List Byte) (h : s.memOk) : (s.setSbytes k bs).memOk := by
  induction bs generalizing s k with
  | nil => exact h
  | cons b r ih => exact ih (k + 1) (State.memOk_setSbyte k b h)

theorem State.memOk_setDir {s : State} (line : Nat) (e : DirEntry) (h : s.memOk) : (s.setDir line e).memOk :=
  State.memOk_congr rfl rfl h

theorem State.memOk_dirMerge {s : State} (line : Nat) (w : Option Holder) (h : s.memOk) : (s.dirMerge line w).memOk := by
  unfold State.dirMerge
  simp only
  split
  · exact h
  · exact State.memOk_setDir _ _ h

theorem State.memOk_dirStrong {s : State} (ls : List Nat) (h : s.memOk) : (s.dirStrong ls).memOk :=
  State.memOk_foldl _ (fun _ _ k => State.memOk_dirMerge _ _ k) ls s h

theorem State.memOk_modGroup {s : State} (gid : Nat) (f : Group → Group) (h : s.memOk) : (s.modGroup gid f).memOk := by
  unfold State.modGroup
  split
  · exact h
  · exact State.memOk_congr rfl rfl h

theorem State.memOk_modPart {s : State} (p : Nat) (f : Part → Part) (h : s.memOk) : (s.modPart p f).memOk := by
  unfold State.modPart
  split
  · exact h
  · exact State.memOk_congr rfl rfl h

theorem State.memOk_pushFrame {s : State} (p k fr : Nat) (h : s.memOk) : (s.pushFrame p k fr).memOk :=
  State.memOk_modPart _ _ h

theorem State.memOk_setPage {s : State} (f : Nat) (r : PageRec) (h : s.memOk) : (s.setPage f r).memOk :=
  State.memOk_congr rfl rfl h

theorem State.memOk_storeBytes {s : State} (pa : Nat) (key : Option (List Byte)) (bs : List Byte) (h : s.memOk) :
    (s.storeBytes pa key bs).memOk := by
  unfold State.storeBytes
  split
  · exact State.memOk_setBytes _ _ h
  · exact State.memOk_foldl _ (fun _ _ k => State.memOk_setBytes _ _ k) _ _ h

theorem State.memOk_collapse {s : State} (f : Nat) (r : PageRec) (h : s.memOk) : (s.collapse f r).memOk := by
  unfold State.collapse
  simp only
  split
  · exact State.memOk_setPage _ _ h
  · split
    · exact State.memOk_dirMerge _ _ (State.memOk_setBytes _ _ (State.memOk_setPage _ _ h))
    · exact State.memOk_setPage _ _ h

theorem State.memOk_putMem {s : State} (pa : Nat) (key : Option (List Byte)) (bs : List Byte) (h : s.memOk) :
    (s.putMem pa key bs).memOk := by
  unfold State.putMem
  split
  · exact State.memOk_storeBytes _ _ _ h
  · refine State.memOk_setPage _ _ ?_
    split
    · exact h
    · exact State.memOk_collapse _ _ h

theorem State.memOk_putAt {s : State} (p : Place) (bs : List Byte) (h : s.memOk) : (s.putAt p bs).memOk := by
  unfold State.putAt
  split
  · exact State.memOk_setSbytes _ _ h
  · exact State.memOk_putMem _ _ _ h

theorem State.memOk_checkReplicas {s : State} (line : Nat) (h : s.memOk) : (s.checkReplicas line).memOk := by
  unfold State.checkReplicas
  refine State.memOk_foldl _ (fun u r k => ?_) _ _ h
  split
  · simp only
    split
    · exact k
    · exact State.memOk_setPage _ _ (State.memOk_foldl _ (fun _ _ k => State.memOk_pushFrame _ _ _ k) _ _ k)
  · exact k

theorem State.memOk_writeMem {s : State} (pa : Nat) (bs : List Byte) (h : s.memOk) : (s.writeMem pa bs).memOk :=
  State.memOk_foldl _ (fun _ _ k => State.memOk_checkReplicas _ k) _ _ (State.memOk_dirStrong _ (State.memOk_putMem _ _ _ h))

theorem State.memOk_strongPut {s : State} (p : Place) (bs : List Byte) (h : s.memOk) : (s.strongPut p bs).memOk :=
  State.memOk_foldl _ (fun _ _ k => State.memOk_checkReplicas _ k) _ _ (State.memOk_dirStrong _ (State.memOk_putAt p bs h))

theorem State.memOk_mergeCopy {s : State} (line cluster : Nat) (c : L1Copy) (h : s.memOk) : (s.mergeCopy line cluster c).memOk := by
  unfold State.mergeCopy
  refine State.memOk_checkReplicas _ (State.memOk_dirMerge _ _ ?_)
  split
  · refine State.memOk_foldl _ (fun u i k => ?_) _ _ h
    split
    · exact State.memOk_setByte _ _ k
    · exact k
  · exact State.memOk_setBytes _ _ h

theorem State.memOk_l1Flush {s : State} (cluster line : Nat) (h : s.memOk) : (s.l1Flush cluster line).memOk := by
  unfold State.l1Flush
  simp only
  split
  · exact h
  · exact State.memOk_foldl _ (fun _ _ k => State.memOk_mergeCopy _ _ _ k) _ _ (State.memOk_setDir _ _ h)

theorem State.memOk_l1FlushAll {s : State} (cluster : Nat) (ls : List Nat) (h : s.memOk) : (s.l1FlushAll cluster ls).memOk :=
  State.memOk_foldl _ (fun _ _ k => State.memOk_l1Flush _ _ k) ls s h

theorem State.memOk_l1Drop {s : State} (cluster line : Nat) (h : s.memOk) : (s.l1Drop cluster line).memOk :=
  State.memOk_setDir _ _ h

theorem State.memOk_coreStrongPut {s : State} (cluster : Nat) (p : Place) (bs : List Byte) (h : s.memOk) :
    (s.coreStrongPut cluster p bs).memOk :=
  State.memOk_strongPut _ _ (State.memOk_foldl _ (fun _ _ k => State.memOk_l1Drop _ _ k) _ _ (State.memOk_l1FlushAll _ _ h))

theorem State.memOk_weakPut {s : State} (cluster : Nat) (p : Place) (bs : List Byte) (h : s.memOk) :
    (s.weakPut cluster p bs).memOk := by
  unfold State.weakPut
  split
  · exact State.memOk_setSbytes _ _ h
  · split
    · exact State.memOk_foldl _ (fun _ _ k => State.memOk_setDir _ _ k) _ _ h
    · exact State.memOk_coreStrongPut _ _ _ h

theorem State.memOk_dirFill {s : State} (line : Nat) (w : Holder) (h : s.memOk) : (s.dirFill line w).memOk := by
  unfold State.dirFill
  simp only
  split
  · exact h
  · exact State.memOk_setDir _ _ h

theorem State.memOk_l1Fill {s : State} (line cluster : Nat) (key : Option (List Byte)) (data : List Byte) (h : s.memOk) :
    (s.l1Fill line cluster key data).memOk := by
  unfold State.l1Fill
  simp only
  split
  · exact h
  · exact State.memOk_setDir _ _ h

theorem State.memOk_readFill {s : State} (cluster : Nat) (p : Place) (n : Nat) (noAlloc : Bool) (h : s.memOk) :
    (s.readFill cluster p n noAlloc).memOk := by
  unfold State.readFill
  split
  · exact h
  · split
    · exact State.memOk_foldl _ (fun _ _ k => State.memOk_l1Fill _ _ _ _ k) _ _ h
    · exact h

theorem State.memOk_dropHolder {s : State} (w : Holder) (left : List TlbEntry) (ls : List Nat) (h : s.memOk) :
    (s.dropHolder w left ls).memOk := by
  refine State.memOk_foldl _ (fun u l k => ?_) _ _ h
  split
  · exact k
  · exact State.memOk_setDir _ _ k

theorem State.memOk_tlbDrop {s : State} (core : Nat) (out : TlbEntry → Bool) (h : s.memOk) : (s.tlbDrop core out).memOk :=
  State.memOk_dropHolder _ _ _ (State.memOk_congr rfl rfl h)

theorem State.memOk_dieTlbDrop {s : State} (die : Nat) (out : TlbEntry → Bool) (h : s.memOk) : (s.dieTlbDrop die out).memOk :=
  State.memOk_dropHolder _ _ _ (State.memOk_congr rfl rfl h)

theorem State.memOk_dieTlbAdd {s : State} (die : Nat) (e : TlbEntry) (h : s.memOk) : (s.dieTlbAdd die e).memOk := by
  unfold State.dieTlbAdd
  simp only
  split
  · exact h
  · refine State.memOk_foldl _ (fun _ _ k => State.memOk_dirFill _ _ k) _ _ ?_
    split
    · exact State.memOk_congr rfl rfl h
    · exact State.memOk_congr rfl rfl (State.memOk_dieTlbDrop die _ h)

theorem State.memOk_tlbAdd {s : State} (core : Nat) (e : TlbEntry) (h : s.memOk) : (s.tlbAdd core e).memOk := by
  unfold State.tlbAdd
  simp only
  split
  · exact h
  · refine State.memOk_foldl _ (fun _ _ k => State.memOk_dirFill _ _ k) _ _ ?_
    split
    · exact State.memOk_congr rfl rfl h
    · exact State.memOk_congr rfl rfl (State.memOk_tlbDrop core _ h)

theorem State.memOk_markEntry {s : State} (part pa : Nat) (src : Source) (entry : Nat) (h : s.memOk) :
    (s.markEntry part pa src entry).memOk := by
  unfold State.markEntry
  refine State.memOk_setPage _ _ ?_
  split
  · exact h
  · exact State.memOk_setByte _ _ h

theorem State.memOk_install {s : State} (part core : Nat) (p : Place) (h : s.memOk) : (s.install part core p).memOk := by
  unfold State.install
  split
  · exact h
  · split
    · exact h
    · simp only
      split
      · exact h
      · split
        · exact State.memOk_tlbAdd _ _ h
        · exact State.memOk_tlbAdd _ _ (State.memOk_dieTlbAdd _ _ (State.memOk_markEntry _ _ _ _ h))

theorem State.memOk_installRemote {s : State} (part : Nat) (p : Place) (h : s.memOk) : (s.installRemote part p).memOk := by
  unfold State.installRemote
  split
  · exact h
  · split
    · exact h
    · exact State.memOk_dieTlbAdd _ _ (State.memOk_markEntry _ _ _ _ h)

theorem State.memOk_lastPage {s : State} (gid lane : Nat) (p : Place) (h : s.memOk) : (s.lastPage gid lane p).memOk := by
  unfold State.lastPage
  split
  · exact h
  · split
    · exact h
    · exact State.memOk_modGroup _ _ h

theorem State.memOk_countPage {s : State} (part core : Nat) (p : Place) (h : s.memOk) : (s.countPage part core p).memOk := by
  unfold State.countPage
  split
  · exact h
  · exact State.memOk_setPage _ _ h

theorem State.memOk_holderGone {s : State} (w : Holder) (line : Nat) (h : s.memOk) : (s.holderGone w line).memOk := by
  unfold State.holderGone
  refine State.memOk_dropHolder _ _ _ ?_
  split
  · exact State.memOk_l1Drop _ _ (State.memOk_l1Flush _ _ h)
  · exact State.memOk_tlbDrop _ _ h
  · exact State.memOk_dieTlbDrop _ _ h
  · exact h

theorem State.memOk_settleLines {s : State} (cluster : Nat) (ls : List Nat) (h : s.memOk) : (s.settleLines cluster ls).memOk := by
  refine State.memOk_foldl _ (fun u l k => State.memOk_foldl _ (fun v w j => ?_) _ _ k) _ _ (State.memOk_l1FlushAll _ _ h)
  split
  · exact State.memOk_holderGone _ _ j
  · exact j

theorem State.memOk_failPot {s : State} (k : Nat) (h : s.memOk) : (s.failPot k).memOk := State.memOk_setSbyte _ _ h

theorem State.memOk_creditPot {s : State} (k n : Nat) (h : s.memOk) : (s.creditPot k n).memOk :=
  State.memOk_setSbytes _ _ h

theorem State.memOk_zeroSpad {s : State} (k n : Nat) (h : s.memOk) : (s.zeroSpad k n).memOk :=
  ⟨h.1, smapWf_filter memDefault s.spad _ h.2⟩

theorem State.memOk_zeroRange {s : State} (pa n : Nat) (h : s.memOk) : (s.zeroRange pa n).memOk :=
  ⟨smapWf_filter memDefault s.mem _ h.1, h.2⟩

theorem State.memOk_eraseCluster {s : State} (c : Nat) (h : s.memOk) : (s.eraseCluster c).memOk :=
  ⟨h.1, smapWf_filter memDefault s.spad _ h.2⟩

theorem State.memOk_eraseRegion {s : State} (n : Nat) (h : s.memOk) : (s.eraseRegion n).memOk :=
  ⟨smapWf_filter memDefault s.mem _ h.1, h.2⟩

/-- A copy of a set of bytes to another place keeps a memory in its canonical form. -/
theorem wf_copyCells (mem : List Host.Cell) (out src : Nat → Bool) (move : Nat → Nat) (h : Memory.wf mem = true) :
    Memory.wf (copyCells mem out src move) = true := by
  have key : ∀ (l m : List Host.Cell), Memory.wf m = true →
      Memory.wf (l.foldl (fun m c => smapPut memDefault m (move c.1) c.2) m) = true := by
    intro l
    induction l with
    | nil => exact fun _ k => k
    | cons c r ih => exact fun m k => ih _ (smapWf_put memDefault m _ _ k)
  exact key _ _ (smapWf_filter memDefault mem _ h)

/-- Both memories of the reset state are in canonical form. -/
theorem State.memOk_reset : State.reset.memOk := ⟨rfl, rfl⟩

end Sys2Proof.Machine
end

