-- ==== Sys2Proof/Laws/PerInstr.lean ====
section
/-! SUPPORT. What each constructor of the instruction set is: an instruction that groups issue, of one or two words, or a
step of the machine or of the outside world, which has none. -/
namespace Sys2Proof.Laws.Coded

/-- An instruction of one or two words, or a step without words. -/
def Statement (i : Instr) : Prop := (encode i).length ≤ 2 ∧ (encode i = [] ↔ encodeWord i = none ∧ ∀ f, i ≠ .movi f)

theorem statement_of_word {i : Instr} {w : Nat} (h : encodeWord i = some w) (hm : ∀ f, i ≠ .movi f) : Statement i := by
  have hw : encode i = (match encodePx i, encodeWord i with
    | some p, some w => [p, w]
    | none, some w => [w]
    | _, none => []) := by
    unfold encode; split
    · next f => exact absurd rfl (hm f)
    · rfl
  unfold Statement
  rw [hw, h]
  cases encodePx i <;> simp

theorem statement_of_none {i : Instr} (h : encodeWord i = none) (hm : ∀ f, i ≠ .movi f) : Statement i := by
  have hw : encode i = [] := by
    unfold encode; split
    · next f => exact absurd rfl (hm f)
    · rw [h]; cases encodePx i <;> rfl
  unfold Statement
  simp [hw, h]
  exact hm

theorem issueSelect : Statement (.issueSelect) :=
  statement_of_none rfl nofun

theorem handFillComplete (gid : Nat) : Statement (.handFillComplete gid) :=
  statement_of_none rfl nofun

theorem handWritebackComplete (gid : Nat) : Statement (.handWritebackComplete gid) :=
  statement_of_none rfl nofun

theorem safePointDistanceTrap : Statement (.safePointDistanceTrap) :=
  statement_of_none rfl nofun

theorem handlerWatchdog (gid : Nat) : Statement (.handlerWatchdog gid) :=
  statement_of_none rfl nofun

theorem waitingResume (gid slot : Nat) : Statement (.waitingResume gid slot) :=
  statement_of_none rfl nofun

theorem fairnessGiveWay (gid : Nat) : Statement (.fairnessGiveWay gid) :=
  statement_of_none rfl nofun

theorem sleepExpire (gid slot : Nat) : Statement (.sleepExpire gid slot) :=
  statement_of_none rfl nofun

theorem continuationResume (gid slot : Nat) : Statement (.continuationResume gid slot) :=
  statement_of_none rfl nofun

theorem joinMerge (gid slot : Nat) : Statement (.joinMerge gid slot) :=
  statement_of_none rfl nofun

theorem barrierComplete (tid : Nat) (b : BitVec 3) : Statement (.barrierComplete tid b) :=
  statement_of_none rfl nofun

theorem cohortBarrierComplete (tid : Nat) : Statement (.cohortBarrierComplete tid) :=
  statement_of_none rfl nofun

theorem groupExitRelease (gid : Nat) : Statement (.groupExitRelease gid) :=
  statement_of_none rfl nofun

theorem teamDistribute (grid : Nat) : Statement (.teamDistribute grid) :=
  statement_of_none rfl nofun

theorem teamAdmit (tid : Nat) : Statement (.teamAdmit tid) :=
  statement_of_none rfl nofun

theorem teamRetire (tid : Nat) : Statement (.teamRetire tid) :=
  statement_of_none rfl nofun

theorem latencyReservePreempt (tid : Nat) : Statement (.latencyReservePreempt tid) :=
  statement_of_none rfl nofun

theorem swapOutStart (gid : Nat) : Statement (.swapOutStart gid) :=
  statement_of_none rfl nofun

theorem swapOutComplete (gid : Nat) : Statement (.swapOutComplete gid) :=
  statement_of_none rfl nofun

theorem swapInStart (gid : Nat) : Statement (.swapInStart gid) :=
  statement_of_none rfl nofun

theorem swapInComplete (gid : Nat) : Statement (.swapInComplete gid) :=
  statement_of_none rfl nofun

theorem contextSaveTaken (tid : Nat) : Statement (.contextSaveTaken tid) :=
  statement_of_none rfl nofun

theorem loadComplete (gid id : Nat) : Statement (.loadComplete gid id) :=
  statement_of_none rfl nofun

theorem storePerformed (gid id : Nat) : Statement (.storePerformed gid id) :=
  statement_of_none rfl nofun

theorem atomicComplete (gid id : Nat) : Statement (.atomicComplete gid id) :=
  statement_of_none rfl nofun

theorem sfuComplete (gid id : Nat) : Statement (.sfuComplete gid id) :=
  statement_of_none rfl nofun

theorem matrixExecute (gid : Nat) : Statement (.matrixExecute gid) :=
  statement_of_none rfl nofun

theorem matrixStep (gid : Nat) : Statement (.matrixStep gid) :=
  statement_of_none rfl nofun

theorem matrixComplete (gid : Nat) : Statement (.matrixComplete gid) :=
  statement_of_none rfl nofun

theorem copyChunk (cid : Nat) : Statement (.copyChunk cid) :=
  statement_of_none rfl nofun

theorem copyComplete (cid : Nat) : Statement (.copyComplete cid) :=
  statement_of_none rfl nofun

theorem copyRetire (cid : Nat) : Statement (.copyRetire cid) :=
  statement_of_none rfl nofun

theorem cpyxReserve (cid : Nat) : Statement (.cpyxReserve cid) :=
  statement_of_none rfl nofun

theorem cpyxSpaceGrant (cid : Nat) : Statement (.cpyxSpaceGrant cid) :=
  statement_of_none rfl nofun

theorem l1DirtyFlush (cluster line : Nat) : Statement (.l1DirtyFlush cluster line) :=
  statement_of_none rfl nofun

theorem homeMerge (h : Holder) (line : Nat) : Statement (.homeMerge h line) :=
  statement_of_none rfl nofun

theorem holderInvalidate (h : Holder) (line : Nat) : Statement (.holderInvalidate h line) :=
  statement_of_none rfl nofun

theorem evictionNotice (h : Holder) (line : Nat) : Statement (.evictionNotice h line) :=
  statement_of_none rfl nofun

theorem refillRequest (h : Holder) (line : Nat) : Statement (.refillRequest h line) :=
  statement_of_none rfl nofun

theorem translationRetry (gid slot : Nat) : Statement (.translationRetry gid slot) :=
  statement_of_none rfl nofun

theorem pageCountHalve : Statement (.pageCountHalve) :=
  statement_of_none rfl nofun

theorem migration (frame die : Nat) : Statement (.migration frame die) :=
  statement_of_none rfl nofun

theorem pageCollapse (frame : Nat) : Statement (.pageCollapse frame) :=
  statement_of_none rfl nofun

theorem remoteAccess (r : ReqRef) : Statement (.remoteAccess r) :=
  statement_of_none rfl nofun

theorem remoteFaultRecord (part : Nat) : Statement (.remoteFaultRecord part) :=
  statement_of_none rfl nofun

theorem streamFreeze (rid serial : Nat) : Statement (.streamFreeze rid serial) :=
  statement_of_none rfl nofun

theorem fabricRequestComplete (rid : Nat) (reply : Reply) : Statement (.fabricRequestComplete rid reply) :=
  statement_of_none rfl nofun

theorem xferChunk (r : ReqRef) : Statement (.xferChunk r) :=
  statement_of_none rfl nofun

theorem xferComplete (rid : Nat) : Statement (.xferComplete rid) :=
  statement_of_none rfl nofun

theorem rfenceAdd (rid : Nat) : Statement (.rfenceAdd rid) :=
  statement_of_none rfl nofun

theorem registerDelivery (d : DeliveryRef) : Statement (.registerDelivery d) :=
  statement_of_none rfl nofun

theorem deliveryBounce (did : Nat) : Statement (.deliveryBounce did) :=
  statement_of_none rfl nofun

theorem seatArrival (a : Arrival) : Statement (.seatArrival a) :=
  statement_of_none rfl nofun

theorem heartbeatSend : Statement (.heartbeatSend) :=
  statement_of_none rfl nofun

theorem packageDeclaredFailed (pkg : Nat) : Statement (.packageDeclaredFailed pkg) :=
  statement_of_none rfl nofun

theorem planeHeartbeatTimeout (pkg plane : Nat) : Statement (.planeHeartbeatTimeout pkg plane) :=
  statement_of_none rfl nofun

theorem linkFailure (plane : Nat) : Statement (.linkFailure plane) :=
  statement_of_none rfl nofun

theorem orderingDrainEnd (pkg plane : Nat) : Statement (.orderingDrainEnd pkg plane) :=
  statement_of_none rfl nofun

theorem frameAuthFail (plane : Nat) : Statement (.frameAuthFail plane) :=
  statement_of_none rfl nofun

theorem undeliverableReturn (rid : Nat) : Statement (.undeliverableReturn rid) :=
  statement_of_none rfl nofun

theorem swaitlWake (gid slot : Nat) : Statement (.swaitlWake gid slot) :=
  statement_of_none rfl nofun

theorem swaitlTimeout (gid slot : Nat) : Statement (.swaitlTimeout gid slot) :=
  statement_of_none rfl nofun

theorem parkWake (gid : Nat) : Statement (.parkWake gid) :=
  statement_of_none rfl nofun

theorem ethTransmit (port : Nat) : Statement (.ethTransmit port) :=
  statement_of_none rfl nofun

theorem ethReceive (port : Nat) (f : EthFrame) : Statement (.ethReceive port f) :=
  statement_of_none rfl nofun

theorem hostCxlMemWrite (pa : Nat) (bytes : List Byte) : Statement (.hostCxlMemWrite pa bytes) :=
  statement_of_none rfl nofun

theorem hostOwnershipRequest (line : Nat) : Statement (.hostOwnershipRequest line) :=
  statement_of_none rfl nofun

theorem powerGood : Statement (.powerGood) :=
  statement_of_none rfl nofun

theorem packageReset : Statement (.packageReset) :=
  statement_of_none rfl nofun

theorem firmwareVerify : Statement (.firmwareVerify) :=
  statement_of_none rfl nofun

theorem unitReady (u : PkgUnit) : Statement (.unitReady u) :=
  statement_of_none rfl nofun

theorem unitRetire (u : PkgUnit) : Statement (.unitRetire u) :=
  statement_of_none rfl nofun

theorem correctedError : Statement (.correctedError) :=
  statement_of_none rfl nofun

theorem poisonConsume (gid : Nat) : Statement (.poisonConsume gid) :=
  statement_of_none rfl nofun

theorem throttle (island : Nat) : Statement (.throttle island) :=
  statement_of_none rfl nofun

theorem throttleRecover (island : Nat) : Statement (.throttleRecover island) :=
  statement_of_none rfl nofun

theorem islandPointReached (island : Nat) : Statement (.islandPointReached island) :=
  statement_of_none rfl nofun

theorem ckptNFall : Statement (.ckptNFall) :=
  statement_of_none rfl nofun

theorem ckptCheckpoint (part : Nat) : Statement (.ckptCheckpoint part) :=
  statement_of_none rfl nofun

theorem ckptRestore (part : Nat) : Statement (.ckptRestore part) :=
  statement_of_none rfl nofun

theorem ckptComplete (part : Nat) (err : Bool) : Statement (.ckptComplete part err) :=
  statement_of_none rfl nofun

theorem healthCeClear : Statement (.healthCeClear) :=
  statement_of_none rfl nofun

theorem timesetHiWrite (v : Word) : Statement (.timesetHiWrite v) :=
  statement_of_none rfl nofun

theorem timesetLoWrite (v : Word) : Statement (.timesetLoWrite v) :=
  statement_of_none rfl nofun

theorem timesetLoRead : Statement (.timesetLoRead) :=
  statement_of_none rfl nofun

theorem clockLoRead : Statement (.clockLoRead) :=
  statement_of_none rfl nofun

theorem timeLoRead : Statement (.timeLoRead) :=
  statement_of_none rfl nofun

theorem flagsOvfAccess : Statement (.flagsOvfAccess) :=
  statement_of_none rfl nofun

theorem ptrootWrite (part : Nat) : Statement (.ptrootWrite part) :=
  statement_of_none rfl nofun

theorem partcfgChange (part : Nat) (row : PartRow) : Statement (.partcfgChange part row) :=
  statement_of_none rfl nofun

theorem expanderWindowChange (n base size : Nat) : Statement (.expanderWindowChange n base size) :=
  statement_of_none rfl nofun

theorem spdmRequest (session : Nat) (request : List Byte) : Statement (.spdmRequest session request) :=
  statement_of_none rfl nofun

theorem spdmBind (session part : Nat) (secret : List Byte) : Statement (.spdmBind session part secret) :=
  statement_of_none rfl nofun

theorem uncorrectableError (p : PoisonLoc) : Statement (.uncorrectableError p) :=
  statement_of_none rfl nofun

theorem heartbeatArrival (pkg plane : Nat) : Statement (.heartbeatArrival pkg plane) :=
  statement_of_none rfl nofun

theorem streamResume (slot stream serial : Nat) (fail : Bool) : Statement (.streamResume slot stream serial fail) :=
  statement_of_none rfl nofun

theorem iadd (f : V3) : Statement (.iadd f) :=
  statement_of_word rfl nofun

theorem iaddVu (f : VU) : Statement (.iaddVu f) :=
  statement_of_word rfl nofun

theorem isub (f : V3) : Statement (.isub f) :=
  statement_of_word rfl nofun

theorem isubVu (f : VU) : Statement (.isubVu f) :=
  statement_of_word rfl nofun

theorem imul (f : V3) : Statement (.imul f) :=
  statement_of_word rfl nofun

theorem imulVu (f : VU) : Statement (.imulVu f) :=
  statement_of_word rfl nofun

theorem imulh (f : V3) : Statement (.imulh f) :=
  statement_of_word rfl nofun

theorem imulhVu (f : VU) : Statement (.imulhVu f) :=
  statement_of_word rfl nofun

theorem imulhu (f : V3) : Statement (.imulhu f) :=
  statement_of_word rfl nofun

theorem imulhuVu (f : VU) : Statement (.imulhuVu f) :=
  statement_of_word rfl nofun

theorem iand (f : V3) : Statement (.iand f) :=
  statement_of_word rfl nofun

theorem iandVu (f : VU) : Statement (.iandVu f) :=
  statement_of_word rfl nofun

theorem ior (f : V3) : Statement (.ior f) :=
  statement_of_word rfl nofun

theorem iorVu (f : VU) : Statement (.iorVu f) :=
  statement_of_word rfl nofun

theorem ixor (f : V3) : Statement (.ixor f) :=
  statement_of_word rfl nofun

theorem ixorVu (f : VU) : Statement (.ixorVu f) :=
  statement_of_word rfl nofun

theorem ishl (f : V3) : Statement (.ishl f) :=
  statement_of_word rfl nofun

theorem ishlVu (f : VU) : Statement (.ishlVu f) :=
  statement_of_word rfl nofun

theorem ishr (f : V3) : Statement (.ishr f) :=
  statement_of_word rfl nofun

theorem ishrVu (f : VU) : Statement (.ishrVu f) :=
  statement_of_word rfl nofun

theorem isra (f : V3) : Statement (.isra f) :=
  statement_of_word rfl nofun

theorem israVu (f : VU) : Statement (.israVu f) :=
  statement_of_word rfl nofun

theorem imin (f : V3) : Statement (.imin f) :=
  statement_of_word rfl nofun

theorem iminVu (f : VU) : Statement (.iminVu f) :=
  statement_of_word rfl nofun

theorem imax (f : V3) : Statement (.imax f) :=
  statement_of_word rfl nofun

theorem imaxVu (f : VU) : Statement (.imaxVu f) :=
  statement_of_word rfl nofun

theorem iminu (f : V3) : Statement (.iminu f) :=
  statement_of_word rfl nofun

theorem iminuVu (f : VU) : Statement (.iminuVu f) :=
  statement_of_word rfl nofun

theorem imaxu (f : V3) : Statement (.imaxu f) :=
  statement_of_word rfl nofun

theorem imaxuVu (f : VU) : Statement (.imaxuVu f) :=
  statement_of_word rfl nofun

theorem iaddsat (f : V3) : Statement (.iaddsat f) :=
  statement_of_word rfl nofun

theorem iaddsatVu (f : VU) : Statement (.iaddsatVu f) :=
  statement_of_word rfl nofun

theorem isubsat (f : V3) : Statement (.isubsat f) :=
  statement_of_word rfl nofun

theorem isubsatVu (f : VU) : Statement (.isubsatVu f) :=
  statement_of_word rfl nofun

theorem icmp (f : V3Cmp) : Statement (.icmp f) :=
  statement_of_word rfl nofun

theorem icmpVu (f : VUCmp) : Statement (.icmpVu f) :=
  statement_of_word rfl nofun

theorem icmpu (f : V3Cmp) : Statement (.icmpu f) :=
  statement_of_word rfl nofun

theorem icmpuVu (f : VUCmp) : Statement (.icmpuVu f) :=
  statement_of_word rfl nofun

theorem vsel (f : V3) : Statement (.vsel f) :=
  statement_of_word rfl nofun

theorem vselVu (f : VU) : Statement (.vselVu f) :=
  statement_of_word rfl nofun

theorem vmov (f : V3Mov) : Statement (.vmov f) :=
  statement_of_word rfl nofun

theorem vmovVu (f : VUMov) : Statement (.vmovVu f) :=
  statement_of_word rfl nofun

theorem ipopc (f : V3Un) : Statement (.ipopc f) :=
  statement_of_word rfl nofun

theorem iclz (f : V3Un) : Statement (.iclz f) :=
  statement_of_word rfl nofun

theorem ibrev (f : V3Un) : Statement (.ibrev f) :=
  statement_of_word rfl nofun

theorem idot4 (f : V3) : Statement (.idot4 f) :=
  statement_of_word rfl nofun

theorem idot4Vu (f : VU) : Statement (.idot4Vu f) :=
  statement_of_word rfl nofun

theorem iabsdiff (f : V3) : Statement (.iabsdiff f) :=
  statement_of_word rfl nofun

theorem iabsdiffVu (f : VU) : Statement (.iabsdiffVu f) :=
  statement_of_word rfl nofun

theorem fadd (f : V3) : Statement (.fadd f) :=
  statement_of_word rfl nofun

theorem faddVu (f : VU) : Statement (.faddVu f) :=
  statement_of_word rfl nofun

theorem fsub (f : V3) : Statement (.fsub f) :=
  statement_of_word rfl nofun

theorem fsubVu (f : VU) : Statement (.fsubVu f) :=
  statement_of_word rfl nofun

theorem fmul (f : V3) : Statement (.fmul f) :=
  statement_of_word rfl nofun

theorem fmulVu (f : VU) : Statement (.fmulVu f) :=
  statement_of_word rfl nofun

theorem ffma (f : V3) : Statement (.ffma f) :=
  statement_of_word rfl nofun

theorem ffmaVu (f : VU) : Statement (.ffmaVu f) :=
  statement_of_word rfl nofun

theorem fmin (f : V3) : Statement (.fmin f) :=
  statement_of_word rfl nofun

theorem fminVu (f : VU) : Statement (.fminVu f) :=
  statement_of_word rfl nofun

theorem fmax (f : V3) : Statement (.fmax f) :=
  statement_of_word rfl nofun

theorem fmaxVu (f : VU) : Statement (.fmaxVu f) :=
  statement_of_word rfl nofun

theorem fabs (f : V3Un) : Statement (.fabs f) :=
  statement_of_word rfl nofun

theorem fneg (f : V3Un) : Statement (.fneg f) :=
  statement_of_word rfl nofun

theorem fclass (f : V3Un) : Statement (.fclass f) :=
  statement_of_word rfl nofun

theorem fscale (f : V3) : Statement (.fscale f) :=
  statement_of_word rfl nofun

theorem fscaleVu (f : VU) : Statement (.fscaleVu f) :=
  statement_of_word rfl nofun

theorem fcmp (f : V3Cmp) : Statement (.fcmp f) :=
  statement_of_word rfl nofun

theorem fcmpVu (f : VUCmp) : Statement (.fcmpVu f) :=
  statement_of_word rfl nofun

theorem fdot2 (f : V3) : Statement (.fdot2 f) :=
  statement_of_word rfl nofun

theorem fdot2Vu (f : VU) : Statement (.fdot2Vu f) :=
  statement_of_word rfl nofun

theorem fround (f : V3Un) : Statement (.fround f) :=
  statement_of_word rfl nofun

theorem twosum (f : V3) : Statement (.twosum f) :=
  statement_of_word rfl nofun

theorem fastsum (f : V3) : Statement (.fastsum f) :=
  statement_of_word rfl nofun

theorem twodiff (f : V3) : Statement (.twodiff f) :=
  statement_of_word rfl nofun

theorem twoprod (f : V3) : Statement (.twoprod f) :=
  statement_of_word rfl nofun

theorem errfma (f : V3) : Statement (.errfma f) :=
  statement_of_word rfl nofun

theorem xadd (f : V3) : Statement (.xadd f) :=
  statement_of_word rfl nofun

theorem xsub (f : V3) : Statement (.xsub f) :=
  statement_of_word rfl nofun

theorem xmul (f : V3) : Statement (.xmul f) :=
  statement_of_word rfl nofun

theorem xmulw (f : V3) : Statement (.xmulw f) :=
  statement_of_word rfl nofun

theorem xfmaw (f : V3) : Statement (.xfmaw f) :=
  statement_of_word rfl nofun

theorem xrenorm (f : V3Un) : Statement (.xrenorm f) :=
  statement_of_word rfl nofun

theorem xcompress (f : V3Un) : Statement (.xcompress f) :=
  statement_of_word rfl nofun

theorem xcmp (f : V3Cmp) : Statement (.xcmp f) :=
  statement_of_word rfl nofun

theorem xneg (f : V3Un) : Statement (.xneg f) :=
  statement_of_word rfl nofun

theorem xsplit (f : V3Un) : Statement (.xsplit f) :=
  statement_of_word rfl nofun

theorem xround (f : V3Un) : Statement (.xround f) :=
  statement_of_word rfl nofun

theorem xroundF32 (f : V3Un) : Statement (.xroundF32 f) :=
  statement_of_word rfl nofun

theorem sadd (f : S3) : Statement (.sadd f) :=
  statement_of_word rfl nofun

theorem ssub (f : S3) : Statement (.ssub f) :=
  statement_of_word rfl nofun

theorem smul (f : S3) : Statement (.smul f) :=
  statement_of_word rfl nofun

theorem smulh (f : S3) : Statement (.smulh f) :=
  statement_of_word rfl nofun

theorem sand (f : S3) : Statement (.sand f) :=
  statement_of_word rfl nofun

theorem sor (f : S3) : Statement (.sor f) :=
  statement_of_word rfl nofun

theorem sxor (f : S3) : Statement (.sxor f) :=
  statement_of_word rfl nofun

theorem sshl (f : S3) : Statement (.sshl f) :=
  statement_of_word rfl nofun

theorem sshr (f : S3) : Statement (.sshr f) :=
  statement_of_word rfl nofun

theorem ssra (f : S3) : Statement (.ssra f) :=
  statement_of_word rfl nofun

theorem smin (f : S3) : Statement (.smin f) :=
  statement_of_word rfl nofun

theorem smax (f : S3) : Statement (.smax f) :=
  statement_of_word rfl nofun

theorem sminu (f : S3) : Statement (.sminu f) :=
  statement_of_word rfl nofun

theorem smaxu (f : S3) : Statement (.smaxu f) :=
  statement_of_word rfl nofun

theorem smov (f : SMov) : Statement (.smov f) :=
  statement_of_word rfl nofun

theorem ssel (f : S3) : Statement (.ssel f) :=
  statement_of_word rfl nofun

theorem scmp (f : SCmp) : Statement (.scmp f) :=
  statement_of_word rfl nofun

theorem scmpu (f : SCmp) : Statement (.scmpu f) :=
  statement_of_word rfl nofun

theorem stest (f : SCmp) : Statement (.stest f) :=
  statement_of_word rfl nofun

theorem sbfe (f : S3) : Statement (.sbfe f) :=
  statement_of_word rfl nofun

theorem sbfi (f : S3) : Statement (.sbfi f) :=
  statement_of_word rfl nofun

theorem spopc (f : SUn) : Statement (.spopc f) :=
  statement_of_word rfl nofun

theorem sffs (f : SUn) : Statement (.sffs f) :=
  statement_of_word rfl nofun

theorem saddc (f : S3) : Statement (.saddc f) :=
  statement_of_word rfl nofun

theorem sfadd (f : S3) : Statement (.sfadd f) :=
  statement_of_word rfl nofun

theorem sfmul (f : S3) : Statement (.sfmul f) :=
  statement_of_word rfl nofun

theorem sffma (f : S3) : Statement (.sffma f) :=
  statement_of_word rfl nofun

theorem sfcmp (f : SCmp) : Statement (.sfcmp f) :=
  statement_of_word rfl nofun

theorem sfcvt (f : SCvt) : Statement (.sfcvt f) :=
  statement_of_word rfl nofun

theorem br (f : Br) : Statement (.br f) :=
  statement_of_word rfl nofun

theorem brz (f : Br) : Statement (.brz f) :=
  statement_of_word rfl nofun

theorem brnz (f : Br) : Statement (.brnz f) :=
  statement_of_word rfl nofun

theorem brlt (f : Br) : Statement (.brlt f) :=
  statement_of_word rfl nofun

theorem brge (f : Br) : Statement (.brge f) :=
  statement_of_word rfl nofun

theorem brltu (f : Br) : Statement (.brltu f) :=
  statement_of_word rfl nofun

theorem brgeu (f : Br) : Statement (.brgeu f) :=
  statement_of_word rfl nofun

theorem brpz (f : BrP) : Statement (.brpz f) :=
  statement_of_word rfl nofun

theorem brpnz (f : BrP) : Statement (.brpnz f) :=
  statement_of_word rfl nofun

theorem brpall (f : BrP) : Statement (.brpall f) :=
  statement_of_word rfl nofun

theorem call (f : Br) : Statement (.call f) :=
  statement_of_word rfl nofun

theorem ret (f : Bare) : Statement (.ret f) :=
  statement_of_word rfl nofun

theorem jmp (f : Jmp) : Statement (.jmp f) :=
  statement_of_word rfl nofun

theorem adr (f : Adr) : Statement (.adr f) :=
  statement_of_word rfl nofun

theorem rdsr (f : Rdsr) : Statement (.rdsr f) :=
  statement_of_word rfl nofun

theorem wrsr (f : Wrsr) : Statement (.wrsr f) :=
  statement_of_word rfl nofun

theorem setmode (f : SetM) : Statement (.setmode f) :=
  statement_of_word rfl nofun

theorem movi (f : Movi) : Statement (.movi f) := by
  simp [Statement, encode]

theorem ldB (f : Vmem) : Statement (.ldB f) :=
  statement_of_word rfl nofun

theorem ldBs (f : Vmem) : Statement (.ldBs f) :=
  statement_of_word rfl nofun

theorem ldH (f : Vmem) : Statement (.ldH f) :=
  statement_of_word rfl nofun

theorem ldHs (f : Vmem) : Statement (.ldHs f) :=
  statement_of_word rfl nofun

theorem ldW (f : Vmem) : Statement (.ldW f) :=
  statement_of_word rfl nofun

theorem ldW2 (f : Vmem) : Statement (.ldW2 f) :=
  statement_of_word rfl nofun

theorem ldW4 (f : Vmem) : Statement (.ldW4 f) :=
  statement_of_word rfl nofun

theorem stB (f : Vmem) : Statement (.stB f) :=
  statement_of_word rfl nofun

theorem stH (f : Vmem) : Statement (.stH f) :=
  statement_of_word rfl nofun

theorem stW (f : Vmem) : Statement (.stW f) :=
  statement_of_word rfl nofun

theorem stW2 (f : Vmem) : Statement (.stW2 f) :=
  statement_of_word rfl nofun

theorem stW4 (f : Vmem) : Statement (.stW4 f) :=
  statement_of_word rfl nofun

theorem ldt (f : Ldt) : Statement (.ldt f) :=
  statement_of_word rfl nofun

theorem ldx (f : Vmem) : Statement (.ldx f) :=
  statement_of_word rfl nofun

theorem stx (f : Vmem) : Statement (.stx f) :=
  statement_of_word rfl nofun

theorem pfl (f : Pfl) : Statement (.pfl f) :=
  statement_of_word rfl nofun

theorem sldW (f : Smem) : Statement (.sldW f) :=
  statement_of_word rfl nofun

theorem sldW2 (f : Smem) : Statement (.sldW2 f) :=
  statement_of_word rfl nofun

theorem sldW4 (f : Smem) : Statement (.sldW4 f) :=
  statement_of_word rfl nofun

theorem sldW8 (f : Smem) : Statement (.sldW8 f) :=
  statement_of_word rfl nofun

theorem sstW (f : Smem) : Statement (.sstW f) :=
  statement_of_word rfl nofun

theorem sstW2 (f : Smem) : Statement (.sstW2 f) :=
  statement_of_word rfl nofun

theorem sstW4 (f : Smem) : Statement (.sstW4 f) :=
  statement_of_word rfl nofun

theorem swaitl (f : Smem) : Statement (.swaitl f) :=
  statement_of_word rfl nofun

theorem satadd (f : Smem) : Statement (.satadd f) :=
  statement_of_word rfl nofun

theorem satcas (f : Smem) : Statement (.satcas f) :=
  statement_of_word rfl nofun

theorem aadd (f : Atom) : Statement (.aadd f) :=
  statement_of_word rfl nofun

theorem asub (f : Atom) : Statement (.asub f) :=
  statement_of_word rfl nofun

theorem aand (f : Atom) : Statement (.aand f) :=
  statement_of_word rfl nofun

theorem aor (f : Atom) : Statement (.aor f) :=
  statement_of_word rfl nofun

theorem axor (f : Atom) : Statement (.axor f) :=
  statement_of_word rfl nofun

theorem amin (f : Atom) : Statement (.amin f) :=
  statement_of_word rfl nofun

theorem atomicAmax (f : Atom) : Statement (.atomicAmax f) :=
  statement_of_word rfl nofun

theorem aminu (f : Atom) : Statement (.aminu f) :=
  statement_of_word rfl nofun

theorem amaxu (f : Atom) : Statement (.amaxu f) :=
  statement_of_word rfl nofun

theorem axchg (f : Atom) : Statement (.axchg f) :=
  statement_of_word rfl nofun

theorem acas (f : Atom) : Statement (.acas f) :=
  statement_of_word rfl nofun

theorem aincw (f : Atom) : Statement (.aincw f) :=
  statement_of_word rfl nofun

theorem afadd (f : Atom) : Statement (.afadd f) :=
  statement_of_word rfl nofun

theorem afadd2 (f : Atom) : Statement (.afadd2 f) :=
  statement_of_word rfl nofun

theorem afmin (f : Atom) : Statement (.afmin f) :=
  statement_of_word rfl nofun

theorem afmax (f : Atom) : Statement (.afmax f) :=
  statement_of_word rfl nofun

theorem aaddc (f : Atom) : Statement (.aaddc f) :=
  statement_of_word rfl nofun

theorem mma (f : Mma) : Statement (.mma f) :=
  statement_of_word rfl nofun

theorem mmag (f : Mmag) : Statement (.mmag f) :=
  statement_of_word rfl nofun

theorem mmas (f : Mmas) : Statement (.mmas f) :=
  statement_of_word rfl nofun

theorem accz (f : AccOp) : Statement (.accz f) :=
  statement_of_word rfl nofun

theorem accld (f : Accld) : Statement (.accld f) :=
  statement_of_word rfl nofun

theorem drain (f : Drain) : Statement (.drain f) :=
  statement_of_word rfl nofun

theorem draint (f : Mmas) : Statement (.draint f) :=
  statement_of_word rfl nofun

theorem tld (f : Tld) : Statement (.tld f) :=
  statement_of_word rfl nofun

theorem tldt (f : Tldt) : Statement (.tldt f) :=
  statement_of_word rfl nofun

theorem tldg (f : Tldg) : Statement (.tldg f) :=
  statement_of_word rfl nofun

theorem tzero (f : Tzero) : Statement (.tzero f) :=
  statement_of_word rfl nofun

theorem matrixAmax (f : MAmax) : Statement (.matrixAmax f) :=
  statement_of_word rfl nofun

theorem accrd (f : AccRow) : Statement (.accrd f) :=
  statement_of_word rfl nofun

theorem accwr (f : AccRow) : Statement (.accwr f) :=
  statement_of_word rfl nofun

theorem accfold (f : AccOp) : Statement (.accfold f) :=
  statement_of_word rfl nofun

theorem cpy (f : Cpy) : Statement (.cpy f) :=
  statement_of_word rfl nofun

theorem cpyt (f : Cpy) : Statement (.cpyt f) :=
  statement_of_word rfl nofun

theorem cpyg (f : Cpy) : Statement (.cpyg f) :=
  statement_of_word rfl nofun

theorem cpys (f : Cpy) : Statement (.cpys f) :=
  statement_of_word rfl nofun

theorem cpyq (f : Cpy) : Statement (.cpyq f) :=
  statement_of_word rfl nofun

theorem cpyx (f : Cpyx) : Statement (.cpyx f) :=
  statement_of_word rfl nofun

theorem cstat (f : CTag) : Statement (.cstat f) :=
  statement_of_word rfl nofun

theorem ccancel (f : CTag) : Statement (.ccancel f) :=
  statement_of_word rfl nofun

theorem rld (f : Rld) : Statement (.rld f) :=
  statement_of_word rfl nofun

theorem rst (f : Rst) : Statement (.rst f) :=
  statement_of_word rfl nofun

theorem ratom (f : Ratom) : Statement (.ratom f) :=
  statement_of_word rfl nofun

theorem rstv (f : Rstv) : Statement (.rstv f) :=
  statement_of_word rfl nofun

theorem xfer (f : Xfer) : Statement (.xfer f) :=
  statement_of_word rfl nofun

theorem rfence (f : Rfence) : Statement (.rfence f) :=
  statement_of_word rfl nofun

theorem xredFirst (f : Xred) : Statement (.xredFirst f) :=
  statement_of_word rfl nofun

theorem xredMid (f : Xred) : Statement (.xredMid f) :=
  statement_of_word rfl nofun

theorem xredLast (f : XredLast) : Statement (.xredLast f) :=
  statement_of_word rfl nofun

theorem hold (f : Hold) : Statement (.hold f) :=
  statement_of_word rfl nofun

theorem seatget (f : SeatGet) : Statement (.seatget f) :=
  statement_of_word rfl nofun

theorem seatfree (f : FBare) : Statement (.seatfree f) :=
  statement_of_word rfl nofun

theorem rstat (f : Rstat) : Statement (.rstat f) :=
  statement_of_word rfl nofun

theorem rstatClr (f : Rstat) : Statement (.rstatClr f) :=
  statement_of_word rfl nofun

theorem rresume (f : Rresume) : Statement (.rresume f) :=
  statement_of_word rfl nofun

theorem rresumeFail (f : Rresume) : Statement (.rresumeFail f) :=
  statement_of_word rfl nofun

theorem rankmap (f : Rankmap) : Statement (.rankmap f) :=
  statement_of_word rfl nofun

theorem rankmapRd (f : Rankmap) : Statement (.rankmapRd f) :=
  statement_of_word rfl nofun

theorem nop (f : Bare) : Statement (.nop f) :=
  statement_of_word rfl nofun

theorem wait (f : Wait) : Statement (.wait f) :=
  statement_of_word rfl nofun

theorem waitAll (f : WaitAll) : Statement (.waitAll f) :=
  statement_of_word rfl nofun

theorem fork (f : Fork) : Statement (.fork f) :=
  statement_of_word rfl nofun

theorem join (f : Bare) : Statement (.join f) :=
  statement_of_word rfl nofun

theorem draw (f : Draw) : Statement (.draw f) :=
  statement_of_word rfl nofun

theorem safe (f : Safe) : Statement (.safe f) :=
  statement_of_word rfl nofun

theorem yield (f : Bare) : Statement (.yield f) :=
  statement_of_word rfl nofun

theorem yieldc (f : Fork) : Statement (.yieldc f) :=
  statement_of_word rfl nofun

theorem sleep (f : Sleep) : Statement (.sleep f) :=
  statement_of_word rfl nofun

theorem bar (f : Bar) : Statement (.bar f) :=
  statement_of_word rfl nofun

theorem cbar (f : Bare) : Statement (.cbar f) :=
  statement_of_word rfl nofun

theorem exit_ (f : Bare) : Statement (.exit_ f) :=
  statement_of_word rfl nofun

theorem launch (f : Launch) : Statement (.launch f) :=
  statement_of_word rfl nofun

theorem cwait (f : SysDA) : Statement (.cwait f) :=
  statement_of_word rfl nofun

theorem rpush (f : Rpush) : Statement (.rpush f) :=
  statement_of_word rfl nofun

theorem rpushPub (f : RpushPub) : Statement (.rpushPub f) :=
  statement_of_word rfl nofun

theorem rpushClaim (f : Rpush) : Statement (.rpushClaim f) :=
  statement_of_word rfl nofun

theorem rpop (f : Rpop) : Statement (.rpop f) :=
  statement_of_word rfl nofun

theorem rpopRel (f : RpopRel) : Statement (.rpopRel f) :=
  statement_of_word rfl nofun

theorem rpopTake (f : Rpop) : Statement (.rpopTake f) :=
  statement_of_word rfl nofun

theorem potset (f : SysAB) : Statement (.potset f) :=
  statement_of_word rfl nofun

theorem potwait (f : Potwait) : Statement (.potwait f) :=
  statement_of_word rfl nofun

theorem sigchk (f : Imm16) : Statement (.sigchk f) :=
  statement_of_word rfl nofun

theorem trap (f : Imm16) : Statement (.trap f) :=
  statement_of_word rfl nofun

theorem fence (f : Fence) : Statement (.fence f) :=
  statement_of_word rfl nofun

theorem shfl (f : Shfl) : Statement (.shfl f) :=
  statement_of_word rfl nofun

theorem lred (f : Lred) : Statement (.lred f) :=
  statement_of_word rfl nofun

theorem lscan (f : Lscan) : Statement (.lscan f) :=
  statement_of_word rfl nofun

theorem vote (f : Vote) : Statement (.vote f) :=
  statement_of_word rfl nofun

theorem bcast (f : Bcast) : Statement (.bcast f) :=
  statement_of_word rfl nofun

theorem rdlane (f : Rdlane) : Statement (.rdlane f) :=
  statement_of_word rfl nofun

theorem lanes (f : LanesF) : Statement (.lanes f) :=
  statement_of_word rfl nofun

theorem pop (f : Pop) : Statement (.pop f) :=
  statement_of_word rfl nofun

theorem pmov (f : Pmov) : Statement (.pmov f) :=
  statement_of_word rfl nofun

theorem perm (f : Perm) : Statement (.perm f) :=
  statement_of_word rfl nofun

theorem frcp (f : Sfu) : Statement (.frcp f) :=
  statement_of_word rfl nofun

theorem frsqrt (f : Sfu) : Statement (.frsqrt f) :=
  statement_of_word rfl nofun

theorem fsqrt (f : Sfu) : Statement (.fsqrt f) :=
  statement_of_word rfl nofun

theorem fexp2 (f : Sfu) : Statement (.fexp2 f) :=
  statement_of_word rfl nofun

theorem flog2 (f : Sfu) : Statement (.flog2 f) :=
  statement_of_word rfl nofun

theorem fsinpi (f : Sfu) : Statement (.fsinpi f) :=
  statement_of_word rfl nofun

theorem fcospi (f : Sfu) : Statement (.fcospi f) :=
  statement_of_word rfl nofun

theorem ftanh (f : Sfu) : Statement (.ftanh f) :=
  statement_of_word rfl nofun

theorem fsigm (f : Sfu) : Statement (.fsigm f) :=
  statement_of_word rfl nofun

theorem fgelu (f : Sfu) : Statement (.fgelu f) :=
  statement_of_word rfl nofun

theorem fsilu (f : Sfu) : Statement (.fsilu f) :=
  statement_of_word rfl nofun

theorem fsoftp (f : Sfu) : Statement (.fsoftp f) :=
  statement_of_word rfl nofun

theorem fcvt (f : Cvt) : Statement (.fcvt f) :=
  statement_of_word rfl nofun

theorem fcvti (f : Cvt) : Statement (.fcvti f) :=
  statement_of_word rfl nofun

theorem icvtf (f : Cvt) : Statement (.icvtf f) :=
  statement_of_word rfl nofun

theorem bfpk (f : Bfp) : Statement (.bfpk f) :=
  statement_of_word rfl nofun

theorem bfpu (f : Bfp) : Statement (.bfpu f) :=
  statement_of_word rfl nofun

theorem unpk (f : Unpk) : Statement (.unpk f) :=
  statement_of_word rfl nofun

theorem sclx (f : Sclx) : Statement (.sclx f) :=
  statement_of_word rfl nofun

theorem psrd (f : Psrd) : Statement (.psrd f) :=
  statement_of_word rfl nofun

theorem pswr (f : Pswr) : Statement (.pswr f) :=
  statement_of_word rfl nofun

theorem ovtld (f : SysA) : Statement (.ovtld f) :=
  statement_of_word rfl nofun

theorem rfe (f : Bare) : Statement (.rfe f) :=
  statement_of_word rfl nofun

theorem rfeNext (f : Bare) : Statement (.rfeNext f) :=
  statement_of_word rfl nofun

theorem rfePark (f : SysA) : Statement (.rfePark f) :=
  statement_of_word rfl nofun

theorem ctxsv (f : SysDAB) : Statement (.ctxsv f) :=
  statement_of_word rfl nofun

theorem ctxld (f : SysDA) : Statement (.ctxld f) :=
  statement_of_word rfl nofun

theorem pgmap (f : SysDA) : Statement (.pgmap f) :=
  statement_of_word rfl nofun

theorem pgpoolAdd (f : SysDA) : Statement (.pgpoolAdd f) :=
  statement_of_word rfl nofun

theorem pgpoolRem (f : SysDA) : Statement (.pgpoolRem f) :=
  statement_of_word rfl nofun

theorem pgpoolCnt (f : SysDA) : Statement (.pgpoolCnt f) :=
  statement_of_word rfl nofun

theorem keyld (f : SysDAB) : Statement (.keyld f) :=
  statement_of_word rfl nofun

theorem halt (f : SysDA) : Statement (.halt f) :=
  statement_of_word rfl nofun

theorem xlat (f : SysDA) : Statement (.xlat f) :=
  statement_of_word rfl nofun

theorem placeTo (f : SysAB) : Statement (.placeTo f) :=
  statement_of_word rfl nofun

theorem placeHere (f : SysA) : Statement (.placeHere f) :=
  statement_of_word rfl nofun

theorem placeReset (f : SysA) : Statement (.placeReset f) :=
  statement_of_word rfl nofun

theorem dupset (f : SysDAB) : Statement (.dupset f) :=
  statement_of_word rfl nofun

theorem sigset (f : SysA) : Statement (.sigset f) :=
  statement_of_word rfl nofun

theorem killg (f : SysDA) : Statement (.killg f) :=
  statement_of_word rfl nofun

end Sys2Proof.Laws.Coded
end

