-- ==== Sys2Proof/Tests/Slice0.lean ====
section
/-! SUPPORT. Small tests: words written out from the encodings, ill-formed instructions, single steps with results worked out by
hand, and for each statement a state and operands that meet its hypotheses. -/
namespace Sys2Proof.Tests
open Sys2Proof.Machine

set_option maxRecDepth 100000
set_option linter.unusedVariables false

/-! The states of the tests. -/

/-- A split over eight lanes, the Current one. -/
def split : Split := { slot := 0, mask := 0xFF, pc := 0x1000, st := .current, joins := [], held := none, safeAt := none }

/-- A partition at set-up that owns everything. -/
def part : Part := Part.fresh placedRow

/-- A team resident on core 0 with a window of 4096 bytes. -/
def team : Team :=
  { part := 0, grid := 1, x := 0, y := 0, z := 0, leader := 1, member := 0, cohort := 1, state := .resident, latency := false,
    homeDie := none, prefCluster := 0, arrival := 0, core := 0, winOff := 0, winLen := 4096, killed := false, groups := [.live 0],
    rings := [none, none, none, none, none, none, none, none], anchor := 0, saving := none, requeue := false, named := false,
    image := none, loadFrom := none, taking := false, sizeAt := none }

/-- A vector group of eight lanes of team 1, with f32 as its type and rounding to nearest even. -/
def group : Group := { houseGroup 0 0x155 0x1000 with team := some 1, splits := [split], tAlloc := 16, aAlloc := 8 }

/-- A state in which group 0, which is `g`, issues next. -/
def at_ (g : Group) : State :=
  { State.reset with cur := some 0, parts := [(0, part)], teams := [(1, team)], groups := [(0, g)] }

/-- A ready group from facts that compute. -/
theorem mkReady {s : State} {gid : Nat} {g : Group} {p : Split} (x : Part) (h1 : s.cur = some gid) (h2 : s.group gid = some g)
    (h3 : g.issuing = some p) (h4 : p.held = none) (h5 : g.Settled) (ho : s.acquiring gid p.mask = []) (h6 : g.width ≤ 64) (h7 : s.part g.part = some x)
    (h8 : g.safeCount < x.limit) : Ready s gid g p :=
  ⟨h1, h2, h3, h4, h5, ho, h6, fun y hy _ _ => Option.some.inj (h7.symm.trans hy) ▸ h8⟩


/-- The state with another partition 0. -/
def placed (x : Part) (g : Group) : State := { at_ g with parts := [(0, x)] }

/-- The house program's group, its split Current. -/
def house : Group := { houseGroup 0 0x155 0x1000 with splits := [split] }

/-- A group that may hold registers, from facts that compute. -/
theorem mkHolding {s : State} {gid : Nat} {g : Group} {p : Split} (x : Part) (h1 : s.cur = some gid) (h2 : s.group gid = some g)
    (h3 : g.issuing = some p) (h4 : p.held = none) (h5 : g.producers = [] ∧ g.pend = [] ∧ g.bad = []) (h7 : s.part g.part = some x)
    (h8 : g.safeCount < x.limit) : Holding s gid g p :=
  ⟨h1, h2, h3, h4, h5, fun y hy _ _ => Option.some.inj (h7.symm.trans hy) ▸ h8⟩

/-- Spans within their bounds, from a fact that computes. -/
theorem spansFit {s : State} {ag : Agent} {l : List (Nat × Nat × Option Bool)}
    (h : (l.all fun x => match s.spanOf ag x.1 x.2.1 with
      | .ok _ => true
      | .error _ => false) = true) : ∀ x ∈ l, 0 < x.2.1 → ∃ q, s.spanOf ag x.1 x.2.1 = .ok q := by
  intro x hx _
  have := List.all_eq_true.mp h x hx
  cases hq : s.spanOf ag x.1 x.2.1 with
  | ok q => exact ⟨q, rfl⟩
  | error e => simp [hq] at this


/-- The same group with f16x2 as its type. -/
def half : Group := { group with mode := 0x0063818 }

/-- The same group with i32 as its type. -/
def ints : Group := { group with mode := 0x0063811 }

/-- The same group with sixteen lanes, all of its split. -/
def wide : Group := { group with width := 16, splits := [{ split with mask := 0xFFFF }] }

/-- The group with uniform registers. -/
def withS (l : List (Nat × Word)) : Group := { group with sregs := l }

/-- The group with predicate p1 over the lower four lanes. -/
def masked : Group := { group with preds := [(1, 0x0F)] }

/-- The group with its split changed. -/
def withSplit (p : Split) : Group := { group with splits := [p] }

/-- A group with two splits. -/
def twoSplits : Group :=
  { group with splits := [{ split with mask := 0x0F }, { split with slot := 1, mask := 0xF0, st := .ready }] }

/-- The group with loads outstanding on c0. -/
def busy : Group := { group with cnt := { group.cnt with c0 := 5 } }

/-- The group with a live-set table of four entries in the text of its program. -/
def listed : Group := { group with liveCount := 4 }

/-- The group with the start of its window in s0 to s3. -/
def pointed : Group := { group with sregs := [(1, 0x10000000), (3, 0x10000000)] }

/-- An access at the start of the team's window is allowed. -/
theorem reach (g : Group) (acc : Acc) (z : Nat)
    (h : checkAddr (at_ g) (g.agent 0) 0x1000000000000000 z z acc = .ok (.spad 0)) (hp : (at_ g).poisonAt (.spad 0) z = []) {a : Nat} (ha : a = 0x1000000000000000) :
    Reaches (at_ g) 0 g acc z a (.spad 0) ∧ Marked (at_ g) (.spad 0) :=
  ha ▸ ⟨⟨h, rfl, .inr hp⟩, nofun⟩

/-- A matrix group with two windows, of q0 and q1. -/
def matrix : Group :=
  { group with role := .matrix, sregs := [(1, 2048), (2, 64), (4, 2048), (5, 2048), (6, 64)] }

/-- A matrix instruction with window q0. -/
def matOp (k : MatKind) (started : Bool) (done : Nat) : MatOp :=
  { kind := k, words := [], fmt := 0, winA := matrix.windowAt 0, winB := matrix.windowAt 1, off := 0, lscale := 0x3F800000, ovtab := 0,
    started := started, done := done, locks := [], counted := false, waitsLocks := false, wants := [] }

/-- The matrix group with an instruction outstanding. -/
def working (k : MatKind) (started : Bool) (done : Nat) : Group := { matrix with matq := [matOp k started done] }

/-- A dealer with a record in s0 to s7: 128 bytes from the start of the window to its byte 0x400. -/
def dealer : Group :=
  { group with role := .dealer, sregs := [(1, 0x10000000), (2, 0x400), (3, 0x10000000), (4, 128)] }

/-- The copy of that record. -/
def copyRec (k : CopyKind) (mask : BitVec 8) : Copy :=
  { gid := 0, tag := 0, kind := k, priv := false, words := [], src := 0x1000000000000000, dst := 0x1000000000000400, rows := 1,
    rowBytes := 128, dpitch := 0, spitch := 0, arg := 0, pot := 0, potOn := false, ovtab := 0x155, mask := mask, ring := 0, slot := 0,
    st := if k = .cpyx then .reserve else .moving, pos := 0, moved := 0, lines := [], walked := [], qoff := 0, qbase := 0, qsize := 0,
    qpot := 0, qseat := 0, header := false, retiredAt := 0, cancelled := false, cause := 0, badAddr := 0, dof := false, locks := [], waitsLocks := false, wants := [] }

/-- The dealer with that copy in the engine. -/
def copying (c : Copy) : State := { at_ dealer with copies := [(5, c)] }

/-- A slot of a ring with one position. -/
def slot (phase : Bool) (offer pass : BitVec 8) : RingSlot := { phase := phase, offer := offer, pass := pass, hold := 0 }

/-- A ring with one position and two slots. -/
def ring (claimed held : Option Nat) (phase closed : Bool) (a b : RingSlot) : Ring :=
  { producer := some 0, closed := closed, ip := 1, claimed := claimed,
    pos := [{ owner := some 0, gone := false, cp := 0, phase := phase, held := held }], slots := [a, b] }

/-- The team with that ring. -/
def ringed (r : Ring) : Team := { team with rings := [some r, none, none, none, none, none, none, none] }

/-- The state with that ring. -/
def withRing (g : Group) (r : Ring) : State := { at_ g with teams := [(1, ringed r)] }

/-- A partition with rank 0 here. -/
def ranked : Part := { part with ranks := [(0, { valid := true, failed := false, pkg := 0 })] }

/-- A partition with a seat table of one entry. -/
def seated : Part := { part with seatBase := 0x30000, seatCap := 1 }

/-- A queue whose header is at 0x20000, with a seat that a group holds. -/
def cpyxState : State :=
  { (((placed seated dealer).setBytes 0x20004 [0]).setBytes 0x20008 (toBytes 4 128)).setBytes 0x20018 (toBytes 8 1) with copies := [(5, { copyRec .cpyx 0 with priv := true, dst := 0x0100000000020000 })] }.setBytes 0x30000 (toBytes 8 0x102000000)

/-- A grid with a record of zeros, but for its SEQ. -/
def grid (parent : Option Nat) (complete : Bool) : Grid :=
  { part := 0, handle := 0, parent := parent, depth := 0, record := LaunchRec.ofBytes (1 :: List.replicate 127 0), next := 0, retired := 0,
    killed := false, complete := complete, order := 0, waitDie := none }

/-- A partition with a page table at 0x100000. -/
def paged : Part := { part with ptroot := 0x100001 }

/-- The memory of a page table in which virtual address 0 has a 64 KiB page at 0x140000, with an entry of low byte `b`. -/
def table (b : Byte) : List Host.Cell :=
  [(0x100000, 1), (0x100001, 7), (0x100002, 0x11), (0x110000, 1), (0x110001, 7), (0x110002, 0x12), (0x120000, 1), (0x120001, 7),
   (0x120002, 0x13), (0x130000, b), (0x130002, 0x14)]

/-- The state with that page table. -/
def mapped (x : Part) (b : Byte) (g : Group) : State := { placed x g with mem := table b }

/-- The house program's group with uniform registers. -/
def houseS (l : List (Nat × Word)) : Group := { house with sregs := l }

/-- The house program's group and a group of team 1. -/
def pair (g : Group) (x : Part) (t : Team) : State := { placed x g with groups := [(0, g), (1, group)], teams := [(1, t)] }

/-- A split that goes on with an instruction. -/
def resumed (l : List Nat) : Split :=
  { split with held := some { words := [], since := 0, marker := true, keep := 0, grids := l, ops := [], mode := 0x0063817, sig := 0 } }

/-- A group in its handler. -/
def handling (g : Group) : Group := { g with handler := some { split := split, trapSlot := 0, entered := 0 } }

/-- A partition that owns nothing. -/
def nothing : Part := { part with clust := 0, region := 0 }

/-- A partition with frames of 64 KiB in three pools. -/
def pooled : Part :=
  { paged with pools := [(poolKey 1 false, [0x200000]), (poolKey 2 false, [0x210000]), (poolKey 3 false, [0x220000])] }

/-- A directory entry of line 7. -/
def lined (holders : List Holder) (arriving : List (Nat × L1Copy)) (invals : List Holder) (l1 : List (Nat × L1Copy)) : State :=
  { at_ group with dir := [(7, { holders := holders, l1 := l1, arriving := arriving, invals := invals })] }

/-- A copy of a line of zeros in an L1, with dirty bytes. -/
def copyOf (dirty : BitVec 128) : L1Copy := { data := List.replicate 128 0, dirty := dirty, since := 0, key := none }

/-- A page record of the page of virtual address 0. -/
def page (want : Option Nat) (c : Bool) : PageRec :=
  { entry := some 0x130000, level := 3, part := 0, alias_ := false, counts := [], replicas := [], want := want, moving := none,
    collapsing := c, held := [] }

/-- The mapped page with its record. -/
def recorded (x : Part) (r : PageRec) : State := { mapped x 0x4B group with pages := [(0x14, r)] }

/-- An outstanding operation that owes lane 3 of v4. -/
def owed (k : PendKind) : PendOp :=
  { kind := k, counter := 0, dests := [{ reg := { cls := .vreg, num := 4 }, lane := 3, val := 9 }], clobbered := [], lines := [],
    walked := [], flags := 0, mask := 0xFF, trap := none }

/-- A split in a state. -/
def inState (st : SplitState) : Split := { split with st := st }

/-- A split parked at a join of eight lanes. -/
def joining (mask : DWord) : Split := { split with mask := mask, st := .parkedJoin, joins := [0xFF] }

/-- A team whose groups have all exited. -/
def gone : Team := { team with groups := [.exited] }

/-- The group not running. -/
def away (r : Residency) (st : SplitState) : Group := { group with residency := r, splits := [inState st] }

/-- A bulk team of a core with all of its scratchpad. -/
def bulk (core : Nat) : Team :=
  { team with leader := core + 1, core := core, winLen := 458752, groups := [.absent] }

/-- A latency team that waits for that much. -/
def urgent : Team := { team with leader := 17, winLen := 458752, state := .queued, latency := true, groups := [.absent] }

/-- A partition with one pre-emption slot of 6.25 MiB. -/
def slotted : Part := { part with saveArea := 0x400000, saveSlot := 0x00640001 }

/-- Sixteen bulk teams in cluster 0, and the latency team. -/
def crowded : State :=
  { placed slotted group with
    grids := [(1, grid none false)], groups := [], pkg := { Pkg.reset with readyC := 1 },
    teams := (List.range 16).map (fun k => (k + 1, bulk k)) ++ [(17, urgent)] }

/-- A fabric request of group 0 on stream 0 of slot 0, in the endpoint under 9. -/
def reqOf (k : FabKind) (va : Nat) : FabReq :=
  { gid := 0, slot := 0, stream := 0, part := 0, kind := k, words := [], priv := false, pkg := 0,
    lanes := [{ lane := 3, va := va, x := 5, y := 0 }], mask := 8, seat := 1, counter := 5, pend := none, after := [], sent := 0,
    credited := 0, lines := [], walked := [], locks := [], waitsLocks := false, wants := [], left := true, planes := [], orphan := false,
    performed := false, frozen := false, cause := none, vals := [] }

/-- A state with a request and its stream slot, in a partition with the page table. -/
def requesting (x : Part) (b : Byte) (q : FabReq) : State :=
  { mapped x b group with
    fabric := [(9, q)],
    streams := [(0, { gid := 0, part := 0, streams := List.replicate 4 StreamState.open_ })] }

/-- The partition with the page table, in fabric domain 5. -/
def shared : Part := { paged with domain := 5 }

/-- A request of package 2. -/
def foreign (k : RemoteKind) (va : Nat) : RemoteReq :=
  { srcPkg := 2, slot := 0, stream := 0, domain := 5, serial := 0, kind := k, lanes := [{ lane := 3, va := va, x := 5, y := 0 }] }

/-- A request frozen at this target. -/
def frozenOf (r : ReqRef) (pkg serial : Nat) : Frozen :=
  { part := 0, req := r, srcPkg := pkg, slot := 0, stream := 0, serial := serial, va := 0, cause := 4, access := 0, recorded := false,
    replay := false }

/-- A seat table at 0x30000 whose entry 0 has generation 1 and a state, in fabric domain 5. -/
def seatState (st : Nat) (g : Group) : State :=
  (placed { seated with domain := 5 } g).setBytes 0x30000 (toBytes 8 (2 ^ 32 + st * 2 ^ 25))

/-- A seated state with a request. -/
def delivering (st : Nat) (g : Group) (q : FabReq) : State :=
  { seatState st g with
    fabric := [(9, q)],
    streams := [(0, { gid := 0, part := 0, streams := List.replicate 4 StreamState.open_ })] }

/-- A delivery of package 2 to v4 of seat 1. -/
def delivery (r : Nat) : DeliveryMsg :=
  { srcPkg := 2, slot := 0, stream := 0, domain := 5, seat := BitVec.ofNat 64 (1 + 2 ^ 48 * r), lanes := 0xFF, v0 := [7], v1 := none }

/-- An arrival at byte `off` of the window of seat 1. -/
def arrival (off : Nat) : Arrival := { seat := 1, off := off, data := [7], pot := none, credit := 1 }

/-- The state with the package-wide units changed. -/
def withPkg (k : Pkg) : State := { at_ group with pkg := k }

/-- A partition at a step of a checkpoint. -/
def ckpt (q r : Bool) (n : Nat) : Part := { part with ckpt := { go := true, quiesce := q, restore := r, stage := n } }

/-- A partition with port 0 and its two queues' headers at 0x20000. -/
def ported : Part :=
  { part with eth := 1, ethTx := copiesOf 8 0x0100000000020000, ethRx := copiesOf 8 0x0100000000020000, ethAddr := [(0, 5, 0)] }

/-- Port 0 ready, and a queue of 128 bytes at 0x40000 whose WRITE is `wr`. -/
def portState (wr : Nat) : State :=
  { (((placed ported group).setBytes 0x20000 (toBytes 8 0x0100000000040000)).setBytes 0x20008 (toBytes 4 128)).setBytes 0x2000C
      (toBytes 4 wr) with
    pkg := { Pkg.reset with readyM := 0x01000000 } }

/-- A frame of 16 bytes to address 5. -/
def frame : EthFrame := { data := List.replicate 16 7, dest := 5, vlan := 0, fcsOk := true }

/-- The house program's group at its text, with a word as its first instruction. -/
def text (ws : List Nat) : State :=
  (at_ { house with text := 0x0100000000010000, splits := [{ split with pc := 0x0100000000010000 }] }).setBytes 0x10000 (ws.flatMap (toBytes 4))


/-- The working group whose s8 names MODE's register. -/
def working0 : Group := working (.accz 0) false 0

/-- The group with an operation outstanding. -/
def pending (k : PendKind) : Group := { group with pend := [(7, owed k)] }

/-- The group a cycle after a producer of v8 at distance 4, with CHK. -/
def early : Group :=
  { group with mode := 0x006B817, nominal := 11, producers := [{ reg := vName 8, issued := 10, dist := 4, old := [(0, 5)] }] }

/-- An access at the start of the team's window, of which no L1 has a copy. -/
theorem reach0 (g : Group) (acc : Acc) (z : Nat)
    (h : checkAddr (at_ g) (g.agent 0) 0x1000000000000000 z z acc = .ok (.spad 0)) (hp : (at_ g).poisonAt (.spad 0) z = []) {a : Nat}
    (ha : a = 0x1000000000000000) : Reaches (at_ g) 0 g acc z a (.spad 0) ∧ Unsent (at_ g) 0 (.spad 0) z :=
  ⟨(reach g acc z h hp ha).1, fun _ h => nomatch h⟩

/-- The entry that a directory holds of the line of the page's entry. -/
def entryLine (holders invals : List Holder) : Nat × DirEntry := (0x2600, { holders := holders, l1 := [], arriving := [], invals := invals })

/-- A page record that a duplication or migration is doing something to. -/
def moved (m : Option PageMove) (c : Bool) : PageRec := { page none c with moving := m }

/-- The page with an entry of low byte `b` and its record. -/
def paged_ (x : Part) (b : Byte) (g : Group) (r : PageRec) : State := { mapped x b g with pages := [(0x14, r)] }

/-- A request of package 2 that waits at this target. -/
def waiting (done : Bool) (ls : List Nat) : HeldForeign :=
  { part := 0, req := .foreign (foreign .load 0), done := done, vals := [], lines := ls, walked := [] }

/-- A state in which that request waits, with a line 7 of which a copy is yet to be invalidated. -/
def awaitingLine (id : Nat) (h : HeldForeign) : State := { lined [] [] [.l1 3] [] with foreign := [(id, h)] }

/-- A chunk of 16 bytes of a transfer of package 2. -/
def chunk : XferChunkMsg :=
  { srcPkg := 2, slot := 0, stream := 0, domain := 5, serial := 0, space := false, va := 0, data := List.replicate 16 7, pot := none,
    seat := 0, fail := false }

/-- That chunk waiting at this target. -/
def chunkHeld (done : Bool) : HeldForeign :=
  { part := 0, req := .foreignChunk chunk, done := done, vals := [], lines := [], walked := [] }

/-- A public key of firmware images under which the digest of the image of one byte 0 is half of its own signature. -/
def imageKey : Nat × Nat :=
  (0x82AC2EEC7A72AC40BC4BBD8B885530620755E3AC4E15D121C491AB4E9257F108, 0x2158D1A997B199EBFDCB727BB977B8BE8F9F27F7E5C7C60C61FBBEA43F0E7DE9)

/-- The SHA-256 digest of one byte 0 as a number. -/
def imageDigest : Nat := 0x6E340B9CFFB37A989CA544E6BB780A2C78901D3FB33738768511A30617AFA01D


/-! Words written out field by field from the encodings of the spec (bits 31 downwards), and what they stand for. -/

/-- Each word of a list decodes to the instruction beside it. -/
abbrev DecodesTo (l : List (List Nat × Instr)) : Prop := ∀ e ∈ l, decodeWords e.1 = .ok e.2

/-- V3 words (R27, R28): IADD, ISUB, IMUL, IMULH, IMULHU, IAND, IOR, IXOR, ISHL, ISHR, ISRA, IMIN, IMAX, IMINU, IMAXU, IADDSAT, ISUBSAT, ICMP, ICMPU, VSEL, VMOV, IPOPC, ICLZ, IBREV. -/
theorem test_decode1 : DecodesTo [
    ([0b00_0000000_0001111_0101010_1111011_11], .iadd { px := none, vd := 15, va := 42, vb := 123, st := 3 }),
    ([0b00_0000001_1001011_0011101_1000000_00], .isub { px := none, vd := 75, va := 29, vb := 64, st := 0 }),
    ([0b00_0000010_0000111_0101101_0011110_11], .imul { px := none, vd := 7, va := 45, vb := 30, st := 3 }),
    ([0b00_0000011_1101010_1000101_0100101_11], .imulh { px := none, vd := 106, va := 69, vb := 37, st := 3 }),
    ([0b00_0000100_1010100_0001111_1101000_01], .imulhu { px := none, vd := 84, va := 15, vb := 104, st := 1 }),
    ([0b00_0000101_1011010_1010100_1110101_01], .iand { px := none, vd := 90, va := 84, vb := 117, st := 1 }),
    ([0b00_0000110_1011001_0111010_0111100_01], .ior { px := none, vd := 89, va := 58, vb := 60, st := 1 }),
    ([0b00_0000111_1101101_1010101_1110100_01], .ixor { px := none, vd := 109, va := 85, vb := 116, st := 1 }),
    ([0b00_0001000_0111010_1010001_1001000_10], .ishl { px := none, vd := 58, va := 81, vb := 72, st := 2 }),
    ([0b00_0001001_1100001_1010011_1111011_00], .ishr { px := none, vd := 97, va := 83, vb := 123, st := 0 }),
    ([0b00_0001010_0011011_0010101_1111011_11], .isra { px := none, vd := 27, va := 21, vb := 123, st := 3 }),
    ([0b00_0001011_0100000_0111001_1100110_10], .imin { px := none, vd := 32, va := 57, vb := 102, st := 2 }),
    ([0b00_0001100_1001110_1101111_1001100_00], .imax { px := none, vd := 78, va := 111, vb := 76, st := 0 }),
    ([0b00_0001101_1011111_0101110_0110110_10], .iminu { px := none, vd := 95, va := 46, vb := 54, st := 2 }),
    ([0b00_0001110_1011000_1011010_0001010_00], .imaxu { px := none, vd := 88, va := 90, vb := 10, st := 0 }),
    ([0b00_0001111_0110111_1111001_1001100_01], .iaddsat { px := none, vd := 55, va := 121, vb := 76, st := 1 }),
    ([0b00_0010000_1001100_1011001_0101111_11], .isubsat { px := none, vd := 76, va := 89, vb := 47, st := 3 }),
    ([0b00_0010001_0001_001_1000101_0011011_11], .icmp { px := none, cond := .ne, pd := 1, va := 69, vb := 27, st := 3 }),
    ([0b00_0010010_0000_000_1111010_1111110_10], .icmpu { px := none, cond := .eq, pd := 0, va := 122, vb := 126, st := 2 }),
    ([0b00_0010011_0000100_0101110_0101101_10], .vsel { px := none, vd := 4, va := 46, vb := 45, st := 2 }),
    ([0b00_0010100_0000100_0000000_1001001_01], .vmov { px := none, vd := 4, vb := 73, st := 1 }),
    ([0b00_0010101_0011001_1011011_0000000_00], .ipopc { px := none, vd := 25, va := 91, st := 0 }),
    ([0b00_0010110_0001010_0101010_0000000_00], .iclz { px := none, vd := 10, va := 42, st := 0 }),
    ([0b00_0010111_0100100_1100011_0000000_11], .ibrev { px := none, vd := 36, va := 99, st := 3 })] := by decide

/-- V3 words (R27, R28): IDOT4, IABSDIFF, FADD, FSUB, FMUL, FFMA, FMIN, FMAX, FABS, FNEG, FCLASS, FSCALE, FCMP, FDOT2, FROUND, TWOSUM, FASTSUM, TWOPROD, XADD, XSUB, XMUL, XMULW, XFMAW, XRENORM. -/
theorem test_decode2 : DecodesTo [
    ([0b00_0011000_1111101_0100001_1001001_10], .idot4 { px := none, vd := 125, va := 33, vb := 73, st := 2 }),
    ([0b00_0011001_1111000_1011011_0011001_01], .iabsdiff { px := none, vd := 120, va := 91, vb := 25, st := 1 }),
    ([0b00_0100000_1110000_0001011_1000101_01], .fadd { px := none, vd := 112, va := 11, vb := 69, st := 1 }),
    ([0b00_0100001_1100000_1100101_0111001_11], .fsub { px := none, vd := 96, va := 101, vb := 57, st := 3 }),
    ([0b00_0100010_1100101_1001010_1111101_10], .fmul { px := none, vd := 101, va := 74, vb := 125, st := 2 }),
    ([0b00_0100011_0100010_0111011_0010011_11], .ffma { px := none, vd := 34, va := 59, vb := 19, st := 3 }),
    ([0b00_0100100_1000011_0101111_0010011_11], .fmin { px := none, vd := 67, va := 47, vb := 19, st := 3 }),
    ([0b00_0100101_1000011_1000101_0001100_01], .fmax { px := none, vd := 67, va := 69, vb := 12, st := 1 }),
    ([0b00_0100110_1010010_0011111_0000000_00], .fabs { px := none, vd := 82, va := 31, st := 0 }),
    ([0b00_0100111_0110111_1110110_0000000_11], .fneg { px := none, vd := 55, va := 118, st := 3 }),
    ([0b00_0101000_0010110_1011101_0000000_00], .fclass { px := none, vd := 22, va := 93, st := 0 }),
    ([0b00_0101001_0011010_1001000_1001111_01], .fscale { px := none, vd := 26, va := 72, vb := 79, st := 1 }),
    ([0b00_0101010_0101_110_1101111_1001111_10], .fcmp { px := none, cond := .ge, pd := 6, va := 111, vb := 79, st := 2 }),
    ([0b00_0101011_0001111_0010110_1100011_00], .fdot2 { px := none, vd := 15, va := 22, vb := 99, st := 0 }),
    ([0b00_0101100_0100110_0101000_0000000_10], .fround { px := none, vd := 38, va := 40, st := 2 }),
    ([0b00_1000000_1010010_1011000_1000100_11], .twosum { px := none, vd := 82, va := 88, vb := 68, st := 3 }),
    ([0b00_1000001_0111110_1100011_1101101_10], .fastsum { px := none, vd := 62, va := 99, vb := 109, st := 2 }),
    ([0b00_1000011_1101000_1000010_0000011_00], .twoprod { px := none, vd := 104, va := 66, vb := 3, st := 0 }),
    ([0b00_1000101_1100011_0100101_0000100_00], .xadd { px := none, vd := 99, va := 37, vb := 4, st := 0 }),
    ([0b00_1000110_0011110_0011101_1110111_11], .xsub { px := none, vd := 30, va := 29, vb := 119, st := 3 }),
    ([0b00_1000111_1100010_0100110_1101100_01], .xmul { px := none, vd := 98, va := 38, vb := 108, st := 1 }),
    ([0b00_1001000_0010001_1110101_1011100_10], .xmulw { px := none, vd := 17, va := 117, vb := 92, st := 2 }),
    ([0b00_1001001_0110000_0010011_1100011_10], .xfmaw { px := none, vd := 48, va := 19, vb := 99, st := 2 }),
    ([0b00_1001010_0000011_1000100_0000000_11], .xrenorm { px := none, vd := 3, va := 68, st := 3 })] := by decide

/-- V3 words (R27, R28): XCOMPRESS, XCMP, XNEG, XSPLIT, XROUND, XROUND_F32, TWODIFF, ERRFMA. -/
theorem test_decode3 : DecodesTo [
    ([0b00_1001011_0010011_0000011_0000000_01], .xcompress { px := none, vd := 19, va := 3, st := 1 }),
    ([0b00_1001100_1010_100_1011000_0000010_11], .xcmp { px := none, cond := .ult, pd := 4, va := 88, vb := 2, st := 3 }),
    ([0b00_1001101_1010010_0000010_0000000_11], .xneg { px := none, vd := 82, va := 2, st := 3 }),
    ([0b00_1001110_1110001_1011100_0000000_10], .xsplit { px := none, vd := 113, va := 92, st := 2 }),
    ([0b00_1001111_1011111_1001101_0000000_10], .xround { px := none, vd := 95, va := 77, st := 2 }),
    ([0b00_1001111_1100100_0010011_0000111_10], .xroundF32 { px := none, vd := 100, va := 19, st := 2 }),
    ([0b00_1000010_0000010_1001100_0100000_00], .twodiff { px := none, vd := 2, va := 76, vb := 32, st := 0 }),
    ([0b00_1000100_1110100_1000000_1011100_10], .errfma { px := none, vd := 116, va := 64, vb := 92, st := 2 })] := by decide

/-- VU words (R29): IADD_VU, ISUB_VU, IMUL_VU, IMULH_VU, IMULHU_VU, IAND_VU, IOR_VU, IXOR_VU, ISHL_VU, ISHR_VU, ISRA_VU, IMIN_VU, IMAX_VU, IMINU_VU, IMAXU_VU, IADDSAT_VU, ISUBSAT_VU, ICMP_VU, ICMPU_VU, VSEL_VU, VMOV_VU, IDOT4_VU, IABSDIFF_VU, FADD_VU. -/
theorem test_decode4 : DecodesTo [
    ([0b01_000000_1011100_0111110_11111100_00], .iaddVu { px := none, vd := 92, va := 62, src := .imm 124, st := 0 }),
    ([0b01_000001_1101001_0001010_00111001_11], .isubVu { px := none, vd := 105, va := 10, src := .u 57, st := 3 }),
    ([0b01_000010_1001100_0100001_00111000_00], .imulVu { px := none, vd := 76, va := 33, src := .u 56, st := 0 }),
    ([0b01_000011_0111011_0010100_00110101_10], .imulhVu { px := none, vd := 59, va := 20, src := .u 53, st := 2 }),
    ([0b01_000100_1110100_0000111_00111000_10], .imulhuVu { px := none, vd := 116, va := 7, src := .u 56, st := 2 }),
    ([0b01_000101_1000100_1010101_00000101_10], .iandVu { px := none, vd := 68, va := 85, src := .u 5, st := 2 }),
    ([0b01_000110_1000111_0001000_10001010_00], .iorVu { px := none, vd := 71, va := 8, src := .imm 10, st := 0 }),
    ([0b01_000111_1001101_1010100_11011100_00], .ixorVu { px := none, vd := 77, va := 84, src := .imm 92, st := 0 }),
    ([0b01_001000_1001110_1000010_00100101_11], .ishlVu { px := none, vd := 78, va := 66, src := .u 37, st := 3 }),
    ([0b01_001001_0101010_0001100_11011111_11], .ishrVu { px := none, vd := 42, va := 12, src := .imm 95, st := 3 }),
    ([0b01_001010_0100101_0101110_10110001_11], .israVu { px := none, vd := 37, va := 46, src := .imm 49, st := 3 }),
    ([0b01_001011_0001011_1000100_10110011_00], .iminVu { px := none, vd := 11, va := 68, src := .imm 51, st := 0 }),
    ([0b01_001100_0100000_1001110_11001110_11], .imaxVu { px := none, vd := 32, va := 78, src := .imm 78, st := 3 }),
    ([0b01_001101_0011100_0100111_00100101_00], .iminuVu { px := none, vd := 28, va := 39, src := .u 37, st := 0 }),
    ([0b01_001110_1110101_1101001_00110101_01], .imaxuVu { px := none, vd := 117, va := 105, src := .u 53, st := 1 }),
    ([0b01_001111_0001110_0110011_00001011_01], .iaddsatVu { px := none, vd := 14, va := 51, src := .u 11, st := 1 }),
    ([0b01_010000_1110011_1101000_10011000_10], .isubsatVu { px := none, vd := 115, va := 104, src := .imm 24, st := 2 }),
    ([0b01_010001_0000_000_1001100_00110001_00], .icmpVu { px := none, cond := .eq, pd := 0, va := 76, src := .u 49, st := 0 }),
    ([0b01_010010_0000_100_0001101_11011000_10], .icmpuVu { px := none, cond := .eq, pd := 4, va := 13, src := .imm 88, st := 2 }),
    ([0b01_010011_0101111_1110110_00100101_01], .vselVu { px := none, vd := 47, va := 118, src := .u 37, st := 1 }),
    ([0b01_010100_0011101_0000000_00110011_10], .vmovVu { px := none, vd := 29, src := .u 51, st := 2 }),
    ([0b01_011000_1011010_1001010_00000010_11], .idot4Vu { px := none, vd := 90, va := 74, src := .u 2, st := 3 }),
    ([0b01_011001_0010110_0100001_00010011_00], .iabsdiffVu { px := none, vd := 22, va := 33, src := .u 19, st := 0 }),
    ([0b01_100000_0111001_1001101_00011101_11], .faddVu { px := none, vd := 57, va := 77, src := .u 29, st := 3 })] := by decide

/-- VU words (R29): FSUB_VU, FMUL_VU, FFMA_VU, FMIN_VU, FMAX_VU, FSCALE_VU, FCMP_VU, FDOT2_VU. -/
theorem test_decode5 : DecodesTo [
    ([0b01_100001_0111000_1110100_11011010_10], .fsubVu { px := none, vd := 56, va := 116, src := .imm 90, st := 2 }),
    ([0b01_100010_1110100_0101101_00101100_11], .fmulVu { px := none, vd := 116, va := 45, src := .u 44, st := 3 }),
    ([0b01_100011_0001110_0110001_00000100_00], .ffmaVu { px := none, vd := 14, va := 49, src := .u 4, st := 0 }),
    ([0b01_100100_0110101_0111010_00011111_01], .fminVu { px := none, vd := 53, va := 58, src := .u 31, st := 1 }),
    ([0b01_100101_1010010_0010110_00110000_00], .fmaxVu { px := none, vd := 82, va := 22, src := .u 48, st := 0 }),
    ([0b01_101001_0010010_1000110_10101110_00], .fscaleVu { px := none, vd := 18, va := 70, src := .imm 46, st := 0 }),
    ([0b01_101010_0111_111_1100111_00010111_10], .fcmpVu { px := none, cond := .uno, pd := 7, va := 103, src := .u 23, st := 2 }),
    ([0b01_101011_1011111_0101001_00111010_00], .fdot2Vu { px := none, vd := 95, va := 41, src := .u 58, st := 0 })] := by decide

/-- S words (R30): SADD, SSUB, SMUL, SMULH, SAND, SOR, SXOR, SSHL, SSHR, SSRA, SMIN, SMAX, SMINU, SMAXU, SMOV, SSEL, SCMP, SCMPU, STEST, SBFE, SBFI, SPOPC, SFFS, SADDC. -/
theorem test_decode6 : DecodesTo [
    ([0b10_000000_001011_111100_0000100010_01], .sadd { sd := 11, sa := 60, src := .r 34, st := 1 }),
    ([0b10_000001_011111_010000_1010110010_00], .ssub { sd := 31, sa := 16, src := .imm 178, st := 0 }),
    ([0b10_000010_000100_011011_1110010001_11], .smul { sd := 4, sa := 27, src := .imm 401, st := 3 }),
    ([0b10_000011_101011_100111_0000000110_10], .smulh { sd := 43, sa := 39, src := .r 6, st := 2 }),
    ([0b10_000100_111100_111000_0000011011_11], .sand { sd := 60, sa := 56, src := .r 27, st := 3 }),
    ([0b10_000101_110110_111001_1001000011_00], .sor { sd := 54, sa := 57, src := .imm 67, st := 0 }),
    ([0b10_000110_100101_010000_0000011001_11], .sxor { sd := 37, sa := 16, src := .r 25, st := 3 }),
    ([0b10_000111_111101_000001_1011010011_00], .sshl { sd := 61, sa := 1, src := .imm 211, st := 0 }),
    ([0b10_001000_101011_011010_0000010110_00], .sshr { sd := 43, sa := 26, src := .r 22, st := 0 }),
    ([0b10_001001_000101_110001_0000100100_11], .ssra { sd := 5, sa := 49, src := .r 36, st := 3 }),
    ([0b10_001010_100110_101110_1111010100_11], .smin { sd := 38, sa := 46, src := .imm 468, st := 3 }),
    ([0b10_001011_100100_010001_0000000100_11], .smax { sd := 36, sa := 17, src := .r 4, st := 3 }),
    ([0b10_001100_100100_010000_0000010110_11], .sminu { sd := 36, sa := 16, src := .r 22, st := 3 }),
    ([0b10_001101_110100_101110_1101110101_10], .smaxu { sd := 52, sa := 46, src := .imm 373, st := 2 }),
    ([0b10_001110_101011_000000_1110010001_00], .smov { sd := 43, src := .imm 401, st := 0 }),
    ([0b10_001111_111011_010010_1101010001_11], .ssel { sd := 59, sa := 18, src := .imm 337, st := 3 }),
    ([0b10_010000000000_111111_1010101110_10], .scmp { sa := 63, src := .imm 174, st := 2 }),
    ([0b10_010001000000_101001_1111101100_10], .scmpu { sa := 41, src := .imm 492, st := 2 }),
    ([0b10_010010000000_001101_1100111000_11], .stest { sa := 13, src := .imm 312, st := 3 }),
    ([0b10_010011_001001_110110_1000111000_11], .sbfe { sd := 9, sa := 54, src := .imm 56, st := 3 }),
    ([0b10_010100_000111_100101_1001100010_11], .sbfi { sd := 7, sa := 37, src := .imm 98, st := 3 }),
    ([0b10_010101_001001_010111_0000000000_10], .spopc { sd := 9, sa := 23, st := 2 }),
    ([0b10_010110_001101_110001_0000000000_11], .sffs { sd := 13, sa := 49, st := 3 }),
    ([0b10_010111_100111_000110_0000110010_10], .saddc { sd := 39, sa := 6, src := .r 50, st := 2 })] := by decide

/-- S words (R30): SFADD, SFMUL, SFFMA, SFCMP, BR, BRZ, BRNZ, BRLT, BRGE, BRLTU, BRGEU, BRPZ, BRPNZ, BRPALL, CALL, RET, JMP, ADR, SFCVT, RDSR, WRSR, SETMODE. -/
theorem test_decode7 : DecodesTo [
    ([0b10_011000_101011_101101_1011110011_10], .sfadd { sd := 43, sa := 45, src := .imm 243, st := 2 }),
    ([0b10_011001_111011_011100_1000100000_10], .sfmul { sd := 59, sa := 28, src := .imm 32, st := 2 }),
    ([0b10_011010_011011_000101_1001000001_10], .sffma { sd := 27, sa := 5, src := .imm 65, st := 2 }),
    ([0b10_011011000000_100011_0000110101_01], .sfcmp { sa := 35, src := .r 53, st := 1 }),
    ([0b10_100000_1110110110111000110001_01], .br { off := 3894833, st := 1 }),
    ([0b10_100001_0010101101001001000111_00], .brz { off := 709191, st := 0 }),
    ([0b10_100010_0010010001001110011111_01], .brnz { off := 594847, st := 1 }),
    ([0b10_100011_0100101101000000111100_01], .brlt { off := 1232956, st := 1 }),
    ([0b10_100100_0011001001111101110100_11], .brge { off := 827252, st := 3 }),
    ([0b10_100101_0101001100000110011111_11], .brltu { off := 1360287, st := 3 }),
    ([0b10_100110_0110000001111101011100_01], .brgeu { off := 1580892, st := 1 }),
    ([0b10_100111_100_1100001011010011001_11], .brpz { p := 4, off := 399001, st := 3 }),
    ([0b10_101000_101_1010100000010111011_01], .brpnz { p := 5, off := 344251, st := 1 }),
    ([0b10_101001_100_1111000100100101010_11], .brpall { p := 4, off := 493866, st := 3 }),
    ([0b10_101010_1011000110000010001111_01], .call { off := 2908303, st := 1 }),
    ([0b10_1010110000000000000000000000_11], .ret { st := 3 }),
    ([0b10_101100000000_010111_0000000000_10], .jmp { sa := 23, st := 2 }),
    ([0b10_101101_100101_0110001000111000_10], .adr { sd := 37, off := 25144, st := 2 }),
    ([0b10_011100_101110_000110_000000_0111_11], .sfcvt { sd := 46, sa := 6, kind := 7, st := 3 }),
    ([0b10_110000_110000_000000_0000000000_01], .rdsr { sd := 48, idx := 0, st := 1 }),
    ([0b10_110001_000000_000101_0000010000_10], .wrsr { sa := 5, idx := 0x10, st := 2 }),
    ([0b10_110010_0101_000000000000001001_01], .setmode { sel := 5, val := 9, st := 1 })] := by decide

/-- Words of class 11, sub-class 0010 (R26): LD_BS, LD_H, LD_HS, ST_B, ST_W, ST_W2, LDT, LDX, PFL, LD_W4, LD_W, ST_W4, LD_B, STX, LD_W2, ST_H. -/
theorem test_decode8 : DecodesTo [
    ([0b11_0010_0001_1000001_1010111_1_100_10_01], .ldBs { px := none, vd := 65, off := 87, en := true, k := 4, att := 2, st := 1 }),
    ([0b11_0010_0010_1001000_1001111_1_111_00_01], .ldH { px := none, vd := 72, off := 79, en := true, k := 7, att := 0, st := 1 }),
    ([0b11_0010_0011_1001101_0100001_1_010_01_01], .ldHs { px := none, vd := 77, off := 33, en := true, k := 2, att := 1, st := 1 }),
    ([0b11_0010_0111_1011001_1100100_1_111_10_11], .stB { px := none, vd := 89, off := 100, en := true, k := 7, att := 2, st := 3 }),
    ([0b11_0010_1001_1010111_1011010_1_101_11_11], .stW { px := none, vd := 87, off := 90, en := true, k := 5, att := 3, st := 3 }),
    ([0b11_0010_1010_1010000_1111011_1_011_01_10], .stW2 { px := none, vd := 80, off := 123, en := true, k := 3, att := 1, st := 2 }),
    ([0b11_0010_1100_1110100_0111010_1_111_00_01], .ldt { px := none, vd := 116, off := 58, k := 7, esz := 0, st := 1 }),
    ([0b11_0010_1101_0011111_0111010_1_110_10_01], .ldx { px := none, vd := 31, off := 58, en := true, k := 6, att := 2, st := 1 }),
    ([0b11_0010_11110000000_0001001_1_111_00_01], .pfl { px := none, off := 9, en := true, k := 7, lvl := 0, st := 1 }),
    ([0b11_0010_0110_1011100_0001100_1_110_00_11], .ldW4 { px := none, vd := 92, off := 12, en := true, k := 6, att := 0, st := 3 }),
    ([0b11_0010_0100_1010000_1010000_1_010_10_11], .ldW { px := none, vd := 80, off := 80, en := true, k := 2, att := 2, st := 3 }),
    ([0b11_0010_1011_1100000_1001010_1_101_00_00], .stW4 { px := none, vd := 96, off := 74, en := true, k := 5, att := 0, st := 0 }),
    ([0b11_0010_0000_0101110_0110010_1_000_00_10], .ldB { px := none, vd := 46, off := 50, en := true, k := 0, att := 0, st := 2 }),
    ([0b11_0010_1110_1000000_0110100_1_100_10_10], .stx { px := none, vd := 64, off := 52, en := true, k := 4, att := 2, st := 2 }),
    ([0b11_0010_0101_0010100_1011000_1_100_11_01], .ldW2 { px := none, vd := 20, off := 88, en := true, k := 4, att := 3, st := 1 }),
    ([0b11_0010_1000_1000000_0101000_1_001_10_01], .stH { px := none, vd := 64, off := 40, en := true, k := 1, att := 2, st := 1 })] := by decide

/-- Words of class 11, sub-class 0011 (R26): SLD_W, SLD_W8, SST_W, SST_W2, SST_W4, SWAITL, SATCAS, SLD_W2, SLD_W4, SATADD. -/
theorem test_decode9 : DecodesTo [
    ([0b11_0011_0000_011000_0110_10111100_11_10], .sldW { px := none, sd := 24, k := 6, woff := 188, att := 3, st := 2 }),
    ([0b11_0011_0011_101000_1110_00011011_10_11], .sldW8 { px := none, sd := 40, k := 14, woff := 27, att := 2, st := 3 }),
    ([0b11_0011_0100_110000_0011_00101111_01_11], .sstW { px := none, sd := 48, k := 3, woff := 47, att := 1, st := 3 }),
    ([0b11_0011_0101_110000_0110_10000101_11_10], .sstW2 { px := none, sd := 48, k := 6, woff := 133, att := 3, st := 2 }),
    ([0b11_0011_0110_011100_0110_01110001_11_11], .sstW4 { px := none, sd := 28, k := 6, woff := 113, att := 3, st := 3 }),
    ([0b11_0011_0111_001000_1111_01000100_11_10], .swaitl { px := none, sd := 8, k := 15, woff := 68, att := 3, st := 2 }),
    ([0b11_0011_1001_010010_0010_01111111_10_00], .satcas { px := none, sd := 18, k := 2, woff := 127, att := 2, st := 0 }),
    ([0b11_0011_0001_110000_1000_11000000_11_10], .sldW2 { px := none, sd := 48, k := 8, woff := 192, att := 3, st := 2 }),
    ([0b11_0011_0010_110100_1101_10010100_11_11], .sldW4 { px := none, sd := 52, k := 13, woff := 148, att := 3, st := 3 }),
    ([0b11_0011_1000_100000_0011_10111100_10_11], .satadd { px := none, sd := 32, k := 3, woff := 188, att := 2, st := 3 })] := by decide

/-- Words of class 11, sub-class 0100 (R26): AADD, ASUB, AAND, AOR, AXOR, AMIN, ATOMIC_AMAX, AMINU, AMAXU, AXCHG, ACAS, AINCW, AFADD, AFADD2, AFMIN, AFMAX, AADDC. -/
theorem test_decode10 : DecodesTo [
    ([0b11_0100_00000_1110100_1100110_010_0_1_00], .aadd { px := none, vd := 116, off := 102, k := 2, ret := false, order := true, st := 0 }),
    ([0b11_0100_00001_1000101_1100111_100_0_0_01], .asub { px := none, vd := 69, off := 103, k := 4, ret := false, order := false, st := 1 }),
    ([0b11_0100_00010_1001110_0101100_101_1_1_11], .aand { px := none, vd := 78, off := 44, k := 5, ret := true, order := true, st := 3 }),
    ([0b11_0100_00011_0011011_1010111_110_0_0_11], .aor { px := none, vd := 27, off := 87, k := 6, ret := false, order := false, st := 3 }),
    ([0b11_0100_00100_0001001_1000011_000_0_1_11], .axor { px := none, vd := 9, off := 67, k := 0, ret := false, order := true, st := 3 }),
    ([0b11_0100_00101_0010100_1000011_001_0_0_00], .amin { px := none, vd := 20, off := 67, k := 1, ret := false, order := false, st := 0 }),
    ([0b11_0100_00110_1001010_1101011_110_1_1_10], .atomicAmax { px := none, vd := 74, off := 107, k := 6, ret := true, order := true, st := 2 }),
    ([0b11_0100_00111_1100010_0000111_100_0_0_10], .aminu { px := none, vd := 98, off := 7, k := 4, ret := false, order := false, st := 2 }),
    ([0b11_0100_01000_0100100_0110111_000_1_1_10], .amaxu { px := none, vd := 36, off := 55, k := 0, ret := true, order := true, st := 2 }),
    ([0b11_0100_01001_1000001_0100001_000_0_0_00], .axchg { px := none, vd := 65, off := 33, k := 0, ret := false, order := false, st := 0 }),
    ([0b11_0100_01010_1010110_0100000_001_1_1_10], .acas { px := none, vd := 86, off := 32, k := 1, ret := true, order := true, st := 2 }),
    ([0b11_0100_01011_1000000_0111001_101_0_0_01], .aincw { px := none, vd := 64, off := 57, k := 5, ret := false, order := false, st := 1 }),
    ([0b11_0100_01100_1010000_1001100_100_0_0_01], .afadd { px := none, vd := 80, off := 76, k := 4, ret := false, order := false, st := 1 }),
    ([0b11_0100_01101_1000001_1111010_101_1_0_10], .afadd2 { px := none, vd := 65, off := 122, k := 5, ret := true, order := false, st := 2 }),
    ([0b11_0100_01110_0110110_0001001_100_0_1_01], .afmin { px := none, vd := 54, off := 9, k := 4, ret := false, order := true, st := 1 }),
    ([0b11_0100_01111_1001001_1011110_100_1_1_01], .afmax { px := none, vd := 73, off := 94, k := 4, ret := true, order := true, st := 1 }),
    ([0b11_0100_10000_0011010_0101110_110_0_1_11], .aaddc { px := none, vd := 26, off := 46, k := 6, ret := false, order := true, st := 3 })] := by decide

/-- Words of class 11, sub-class 0101 (R26): MMA, MMAS, ACCZ, ACCLD, DRAIN, DRAINT, TLD, TLDT, TLDG, TZERO, MATRIX_AMAX, ACCRD, ACCWR, ACCFOLD, MMAG. -/
theorem test_decode11 : DecodesTo [
    ([0b11_0101_00000_110_0100_1011_1010110_0_00], .mma { px := none, acc := 6, ta := 4, tb := 11, vf := 86, st := 0 }),
    ([0b11_0101_00010_110_0110_0110_1000000_0_01], .mmas { px := none, acc := 6, qa := 6, qb := 6, vf := 64, st := 1 }),
    ([0b11_0101_00011_111_0000000000000000_00], .accz { px := none, acc := 7, st := 0 }),
    ([0b11_0101_00100_010_1100_1_00000000000_11], .accld { px := none, acc := 2, q := 12, res := true, st := 3 }),
    ([0b11_0101_00101_000_0011_0000_0101110_0_01], .drain { px := none, acc := 0, q := 3, vf := 46, st := 1 }),
    ([0b11_0101_00110_101_0010_0000_1100111_0_01], .draint { px := none, acc := 5, qa := 2, qb := 0, vf := 103, st := 1 }),
    ([0b11_0101_00111_1110_1000_00000000000_00], .tld { px := none, td := 14, q := 8, st := 0 }),
    ([0b11_0101_01000_0101_0010_1_0000000000_10], .tldt { px := none, td := 5, q := 2, esz := true, st := 2 }),
    ([0b11_0101_01001_0100_1101_0010111_0000_11], .tldg { px := none, td := 4, q := 13, vi := 23, st := 3 }),
    ([0b11_0101_01010_1000_000000000000000_00], .tzero { px := none, td := 8, st := 0 }),
    ([0b11_0101_01011_101_001101_0000000000_10], .matrixAmax { px := none, acc := 5, sd := 13, st := 2 }),
    ([0b11_0101_01100_111_0_1011_1010110_0000_01], .accrd { px := none, acc := 7, half := false, row := 11, v := 86, st := 1 }),
    ([0b11_0101_01101_001_0_1110_1110111_0000_00], .accwr { px := none, acc := 1, half := false, row := 14, v := 119, st := 0 }),
    ([0b11_0101_01110_101_0000000000000000_10], .accfold { px := none, acc := 5, st := 2 }),
    ([0b11_0101_00001_101_1001_0111_1011100_0_01], .mmag { px := none, acc := 5, q := 9, tb := 7, vf := 92, st := 1 })] := by decide

/-- Words of class 11, sub-class 0110 (R26): CPYT, CPYS, CPYQ, CPYX, CCANCEL, CPY, CPYG, CSTAT. -/
theorem test_decode12 : DecodesTo [
    ([0b11_0110_0001_101_00001011_111100_000_01], .cpyt { px := none, cr := 5, mask := 11, sd := 60, st := 1 }),
    ([0b11_0110_0011_100_11101101_000011_000_00], .cpys { px := none, cr := 4, mask := 237, sd := 3, st := 0 }),
    ([0b11_0110_0100_101_01110111_001100_000_00], .cpyq { px := none, cr := 5, mask := 119, sd := 12, st := 0 }),
    ([0b11_0110_0101_000_00000000_110011_000_11], .cpyx { px := none, cr := 0, sd := 51, st := 3 }),
    ([0b11_0110_011100000_011000_110000_000_00], .ccancel { px := none, sa := 24, sd := 48, st := 0 }),
    ([0b11_0110_0000_100_00101010_011110_000_11], .cpy { px := none, cr := 4, mask := 42, sd := 30, st := 3 }),
    ([0b11_0110_0010_100_11110100_011010_000_10], .cpyg { px := none, cr := 4, mask := 244, sd := 26, st := 2 }),
    ([0b11_0110_011000000_100010_111000_000_01], .cstat { px := none, sa := 34, sd := 56, st := 1 })] := by decide

/-- Words of class 11, sub-class 0111 (R26): RLD, XRED_FIRST, HOLD, SEATFREE, RRESUME_FAIL, RANKMAP, RANKMAP_RD, RST, RSTV, XFER, RFENCE, SEATGET, RSTAT, RSTAT_CLR, RRESUME, RATOM, XRED_LAST, XRED_MID. -/
theorem test_decode13 : DecodesTo [
    ([0b11_0111_0000_1010110_011010_11_0000_0_00], .rld { px := none, vd := 86, sb := 26, stream := 3, acq := false, st := 0 }),
    ([0b11_0111_0110_0111100_110010_00_00001_10], .xredFirst { px := none, vp := 60, sa := 50, stream := 0, st := 2 }),
    ([0b11_0111_0111_0111010_00000000_01101_01], .hold { px := none, vd := 58, n := 13, st := 1 }),
    ([0b11_0111_100100000000000000000000_11], .seatfree { px := none, st := 3 }),
    ([0b11_0111_10110000000_100110_0000001_11], .rresumeFail { px := none, sb := 38, st := 3 }),
    ([0b11_0111_11000000000_100100_0000000_01], .rankmap { px := none, sa := 36, st := 1 }),
    ([0b11_0111_11000000000_101100_0000001_11], .rankmapRd { px := none, sa := 44, st := 3 }),
    ([0b11_0111_0001_0100110_100000_10_0000_0_00], .rst { px := none, vs := 38, sb := 32, stream := 2, rel := false, st := 0 }),
    ([0b11_0111_0011_0110110_111100_11_0000_0_10], .rstv { px := none, vs := 54, sa := 60, stream := 3, rel := false, st := 2 }),
    ([0b11_0111_01000000000_000000_00_00000_00], .xfer { px := none, cr := 0, stream := 0, st := 0 }),
    ([0b11_0111_01010000000_110110_00_00000_10], .rfence { px := none, sb := 54, stream := 0, st := 2 }),
    ([0b11_0111_10000000000_110000_0000000_11], .seatget { px := none, sd := 48, st := 3 }),
    ([0b11_0111_10100000000_011000_01_00000_01], .rstat { px := none, sd := 24, stream := 1, st := 1 }),
    ([0b11_0111_10100000000_001010_01_00001_10], .rstatClr { px := none, sd := 10, stream := 1, st := 2 }),
    ([0b11_0111_10110000000_110110_0000000_11], .rresume { px := none, sb := 54, st := 3 }),
    ([0b11_0111_0010_1110110_000110_10_1000_0_10], .ratom { px := none, vd := 118, sb := 6, stream := 2, op := 8, ret := false, st := 2 }),
    ([0b11_0111_0110_0101000_0000000000010_01], .xredLast { px := none, vp := 40, st := 1 }),
    ([0b11_0111_0110_1101000_010000_01_00000_10], .xredMid { px := none, vp := 104, sa := 16, stream := 1, st := 2 })] := by decide

/-- Words of class 11, sub-class 1000 (R26): NOP, WAIT, WAIT_ALL, FORK, JOIN, DRAW, SAFE, YIELD, YIELDC, SLEEP, BAR, CBAR, EXIT, LAUNCH, CWAIT, RPUSH, RPUSH_PUB, RPUSH_CLAIM, RPOP, RPOP_REL, RPOP_TAKE, POTSET, POTWAIT, SIGCHK. -/
theorem test_decode14 : DecodesTo [
    ([0b11_1000_000000000000000000000000_10], .nop { st := 2 }),
    ([0b11_1000_00001_011_11111111_0000000_1_00], .wait { cnt := 3, n := 255, arm := true, st := 0 }),
    ([0b11_1000_0000111100_100100_0000000_0_10], .waitAll { cmask := 36, arm := false, st := 2 }),
    ([0b11_1000_00010_011_1111010111101001_00], .fork { p := 3, off := 62953, st := 0 }),
    ([0b11_1000_000110000000000000000000_00], .join { st := 0 }),
    ([0b11_1000_00100_1110101_110010011101_11], .draw { vb := 117, live := 3229, st := 3 }),
    ([0b11_1000_0010100000000000_10111000_01], .safe { live := 184, st := 1 }),
    ([0b11_1000_001100000000000000000000_01], .yield { st := 1 }),
    ([0b11_1000_00111_111_0001101010111011_01], .yieldc { p := 7, off := 6843, st := 1 }),
    ([0b11_1000_01000000_0111111110000101_11], .sleep { n := 32645, st := 3 }),
    ([0b11_1000_01001_110_0000000000000000_00], .bar { b := 6, st := 0 }),
    ([0b11_1000_010100000000000000000000_00], .cbar { st := 0 }),
    ([0b11_1000_010110000000000000000000_10], .exit_ { st := 2 }),
    ([0b11_1000_01100_1110_010111_000000000_11], .launch { k := 14, sd := 23, st := 3 }),
    ([0b11_1000_01101_000001_100100_0000000_10], .cwait { sd := 1, sa := 36, st := 2 }),
    ([0b11_1000_01110_001_10100010_100011_11_00], .rpush { ring := 1, mask := 162, sd := 35, st := 0 }),
    ([0b11_1000_01110_011_10010010_00000010_00], .rpushPub { ring := 3, mask := 146, st := 0 }),
    ([0b11_1000_01110_011_10010000_101011_01_10], .rpushClaim { ring := 3, mask := 144, sd := 43, st := 2 }),
    ([0b11_1000_01111_000_110_00000_010001_11_00], .rpop { ring := 0, pos := 6, sd := 17, st := 0 }),
    ([0b11_1000_01111_011_000_0000000000010_00], .rpopRel { ring := 3, pos := 0, st := 0 }),
    ([0b11_1000_01111_011_010_00000_101111_01_01], .rpopTake { ring := 3, pos := 2, sd := 47, st := 1 }),
    ([0b11_1000_10000_010110_111110_0000000_01], .potset { sa := 22, sb := 62, st := 1 }),
    ([0b11_1000_10001_011100_001110_000000_0_00], .potwait { sd := 28, sa := 14, arm := false, st := 0 }),
    ([0b11_1000_10010000_1110001101100000_11], .sigchk { imm := 58208, st := 3 })] := by decide

/-- Words of class 11, sub-class 1000 (R26): TRAP, FENCE. -/
theorem test_decode15 : DecodesTo [
    ([0b11_1000_10011000_1000011101100100_10], .trap { imm := 34660, st := 2 }),
    ([0b11_1000_10100_101_01_00000000000000_00], .fence { scope := 5, kind := 1, st := 0 })] := by decide

/-- Words of class 11, sub-class 1001 (R26): SHFL, LRED, BCAST, RDLANE, POP, LSCAN, LANES, VOTE, PMOV. -/
theorem test_decode16 : DecodesTo [
    ([0b11_1001_0000_1111101_1111010_01_1001_11], .shfl { px := none, vd := 125, va := 122, mode := 1, dist := 9, st := 3 }),
    ([0b11_1001_0001_0011010_0101101_0001_00_01], .lred { px := none, vd := 26, va := 45, op := 1, seg := 0, st := 1 }),
    ([0b11_1001_0100_0000101_1011010_001100_01], .bcast { px := none, vd := 5, va := 90, lane := 12, st := 1 }),
    ([0b11_1001_01010_001101_1010111_000110_01], .rdlane { px := none, sd := 13, va := 87, lane := 6, st := 1 }),
    ([0b11_1001_01110000_010_0000_000_010_000_10], .pop { px := none, pd := 2, pa := 0, pb := 2, fn := 0, st := 2 }),
    ([0b11_1001_0010_0110000_1100000_1001_0_0_00], .lscan { px := none, vd := 48, va := 96, op := 9, ex := false, st := 0 }),
    ([0b11_1001_0110_1010000_0000000_000000_01], .lanes { px := none, vd := 80, kind := 0, st := 1 }),
    ([0b11_1001_0011_0000101_0000010_00_0000_11], .vote { px := none, fd := 5, fa := 2, mode := 0, st := 3 }),
    ([0b11_1001_1000_0000011_0000101_000000_01], .pmov { px := none, fd := 3, fa := 5, mode := 0, st := 1 })] := by decide

/-- Words of class 11, sub-class 1010 (R26): FRCP, FRSQRT, FSQRT, FEXP2, FLOG2, FSINPI, FCOSPI, FTANH, FSIGM, FGELU, FSILU, FSOFTP. -/
theorem test_decode17 : DecodesTo [
    ([0b11_1010_00000_1000101_1010110_00000_11], .frcp { px := none, vd := 69, va := 86, st := 3 }),
    ([0b11_1010_00001_0100110_0101110_00000_00], .frsqrt { px := none, vd := 38, va := 46, st := 0 }),
    ([0b11_1010_00010_1100000_0111100_00000_11], .fsqrt { px := none, vd := 96, va := 60, st := 3 }),
    ([0b11_1010_00011_0000010_1110010_00000_10], .fexp2 { px := none, vd := 2, va := 114, st := 2 }),
    ([0b11_1010_00100_0110110_0111010_00000_01], .flog2 { px := none, vd := 54, va := 58, st := 1 }),
    ([0b11_1010_00101_1100001_0000100_00000_00], .fsinpi { px := none, vd := 97, va := 4, st := 0 }),
    ([0b11_1010_00110_1101011_0110001_00000_01], .fcospi { px := none, vd := 107, va := 49, st := 1 }),
    ([0b11_1010_00111_0111100_0010110_00000_11], .ftanh { px := none, vd := 60, va := 22, st := 3 }),
    ([0b11_1010_01000_0001101_1010000_00000_01], .fsigm { px := none, vd := 13, va := 80, st := 1 }),
    ([0b11_1010_01001_1101011_1100111_00000_11], .fgelu { px := none, vd := 107, va := 103, st := 3 }),
    ([0b11_1010_01010_0110111_1101000_00000_11], .fsilu { px := none, vd := 55, va := 104, st := 3 }),
    ([0b11_1010_01011_0111001_1000110_00000_10], .fsoftp { px := none, vd := 57, va := 70, st := 2 })] := by decide

/-- Words of class 11, sub-class 1011 (R26): FCVT, BFPU, FCVTI, BFPK, UNPK, ICVTF. -/
theorem test_decode18 : DecodesTo [
    ([0b11_1011_0000_0110111_0110001_1000_00_01], .fcvt { px := none, vd := 55, va := 49, dty := 8, st := 1 }),
    ([0b11_1011_0100_1100000_0110110_0100_00_10], .bfpu { px := none, vd := 96, va := 54, k := 4, st := 2 }),
    ([0b11_1011_0001_1010110_0101110_0100_00_01], .fcvti { px := none, vd := 86, va := 46, dty := 4, st := 1 }),
    ([0b11_1011_0011_0010000_1010110_0100_00_00], .bfpk { px := none, vd := 16, va := 86, k := 4, st := 0 }),
    ([0b11_1011_0101_1011000_1101100_0100_0_0_10], .unpk { px := none, vd := 88, va := 108, w := 4, sx := false, st := 2 }),
    ([0b11_1011_0010_0010001_0100010_1001_00_10], .icvtf { px := none, vd := 17, va := 34, dty := 9, st := 2 })] := by decide

/-- Words of class 11, sub-class 1100 (R26): PSRD, OVTLD, RFE, RFE_NEXT, CTXSV, CTXLD, PGPOOL_REM, PGPOOL_CNT, HALT, PLACE_TO, SIGSET, KILLG, RFE_PARK, PGMAP, KEYLD, PLACE_HERE, PLACE_RESET, DUPSET, PGPOOL_ADD, XLAT, PSWR. -/
theorem test_decode19 : DecodesTo [
    ([0b11_1100_00000_110101_000_0000100011_11], .psrd { sd := 53, idx := 35, st := 3 }),
    ([0b11_1100_00010_110101_0000000000000_11], .ovtld { sa := 53, st := 3 }),
    ([0b11_1100_000110000000000000000000_11], .rfe { st := 3 }),
    ([0b11_1100_000110000000000000000001_10], .rfeNext { st := 2 }),
    ([0b11_1100_00100_001001_110100_001000_0_01], .ctxsv { sd := 9, sa := 52, sb := 8, st := 1 }),
    ([0b11_1100_00101_001011_011000_0000000_10], .ctxld { sd := 11, sa := 24, st := 2 }),
    ([0b11_1100_00111_000000_110111_0000001_10], .pgpoolRem { sd := 0, sa := 55, st := 2 }),
    ([0b11_1100_00111_001000_001010_0000010_10], .pgpoolCnt { sd := 8, sa := 10, st := 2 }),
    ([0b11_1100_01001_001101_000100_0000000_11], .halt { sd := 13, sa := 4, st := 3 }),
    ([0b11_1100_01011_111110_011010_0000000_01], .placeTo { sa := 62, sb := 26, st := 1 }),
    ([0b11_1100_01101_111001_0000000000000_10], .sigset { sa := 57, st := 2 }),
    ([0b11_1100_01110_111010_001000_0000000_10], .killg { sd := 58, sa := 8, st := 2 }),
    ([0b11_1100_00011_000010_0000000000010_10], .rfePark { sa := 2, st := 2 }),
    ([0b11_1100_00110_011110_110000_0000000_10], .pgmap { sd := 30, sa := 48, st := 2 }),
    ([0b11_1100_01000_001110_111110_001000_0_00], .keyld { sd := 14, sa := 62, sb := 8, st := 0 }),
    ([0b11_1100_01011_001010_0000000000001_01], .placeHere { sa := 10, st := 1 }),
    ([0b11_1100_01011_010000_0000000000010_10], .placeReset { sa := 16, st := 2 }),
    ([0b11_1100_01100_001110_110110_001000_0_11], .dupset { sd := 14, sa := 54, sb := 8, st := 3 }),
    ([0b11_1100_00111_010000_000100_0000000_00], .pgpoolAdd { sd := 16, sa := 4, st := 0 }),
    ([0b11_1100_01010_000100_111110_0000000_11], .xlat { sd := 4, sa := 62, st := 3 }),
    ([0b11_1100_00001_001000_000_0101100000_00], .pswr { sa := 8, idx := 352, st := 0 })] := by decide

/-- A literal, and words that need a prefix (R32, R35, R231, R189): MOVI, PERM, SCLX. -/
theorem test_decodePairs : DecodesTo [
    ([0b11_0001_0_0000101_0000000000000000_10, 0x12345678], .movi { dst := .v 5, lit := 0x12345678, st := 2 }),
    ([0b11_0000_111_1_0_000_0000_01_0001100_000_00, 0b11_1001_1001_0000100_0001000_000000_10],
      .perm { px := some { mask := 7, inv := true, zero := false, rnd := 0, ty := 0, kind4 := 1, op4 := 12, xw := 0 }, vd := 4, va := 8,
              st := 2 }),
    ([0b11_0000_010_0_1_001_1000_01_0001100_000_00, 0b11_1011_0110_0000100_0001000_0111_1_0_01],
      .sclx { px := some { mask := 2, inv := false, zero := true, rnd := 1, ty := 8, kind4 := 1, op4 := 12, xw := 0 }, vd := 4, va := 8,
              dty := 7, dir := true, st := 1 })] := by decide

/-! Ill-formed instructions are refused. -/

/-- Conditions of integer compares beyond 5 (R28). -/
theorem test_illFormed0 : ∀ i ∈ ([.icmp { cond := .ord, pd := 0, va := 0, vb := 0, st := 0, px := none },
    .icmpu { cond := .uno, pd := 0, va := 0, vb := 0, st := 0, px := none },
    .icmpVu { cond := .ueq, pd := 0, va := 0, src := .u 12, st := 0, px := none },
    .icmpuVu { cond := .uge, pd := 0, va := 0, src := .u 12, st := 0, px := none }] : List Instr), ¬i.WellFormed := by decide

/-- Reserved codes of an ALU prefix (R35, R39). -/
theorem test_illFormed1 : ∀ i ∈ ([.fcmp { cond := .lt, pd := 0, va := 0, vb := 0, st := 0, px := some { mask := 7, inv := true, zero := false, rnd := 7, ty := 0, kind4 := 0, op4 := 0, xw := 0 } },
    .fcmpVu { cond := .lt, pd := 0, va := 0, src := .u 12, st := 0, px := some { mask := 7, inv := true, zero := false, rnd := 0, ty := 12, kind4 := 0, op4 := 0, xw := 0 } },
    .xcmp { cond := .lt, pd := 0, va := 0, vb := 0, st := 0, px := some { mask := 7, inv := true, zero := false, rnd := 0, ty := 0, kind4 := 0, op4 := 0, xw := 1 } },
    .iadd { vd := 0, va := 0, vb := 0, st := 0, px := some { mask := 7, inv := true, zero := false, rnd := 0, ty := 0, kind4 := 0, op4 := 0, xw := 5 } },
    .iaddVu { vd := 0, va := 0, src := .u 12, st := 0, px := some { mask := 7, inv := true, zero := false, rnd := 0, ty := 0, kind4 := 0, op4 := 0, xw := 6 } },
    .vmov { vd := 0, vb := 0, st := 0, px := some { mask := 7, inv := true, zero := false, rnd := 0, ty := 0, kind4 := 0, op4 := 0, xw := 7 } },
    .vmovVu { vd := 0, src := .u 12, st := 0, px := some { mask := 7, inv := true, zero := false, rnd := 0, ty := 0, kind4 := 0, op4 := 1, xw := 0 } },
    .ipopc { vd := 0, va := 0, st := 0, px := some { mask := 7, inv := true, zero := false, rnd := 0, ty := 0, kind4 := 2, op4 := 64, xw := 0 } },
    .twosum { vd := 0, va := 0, vb := 0, st := 0, px := some { mask := 7, inv := true, zero := false, rnd := 7, ty := 0, kind4 := 0, op4 := 0, xw := 0 } },
    .frcp { vd := 0, va := 0, st := 0, px := some { mask := 7, inv := true, zero := false, rnd := 0, ty := 15, kind4 := 0, op4 := 0, xw := 0 } },
    .pop { pd := 0, pa := 0, pb := 0, fn := 0, st := 0, px := some { mask := 7, inv := true, zero := false, rnd := 7, ty := 0, kind4 := 0, op4 := 0, xw := 0 } },
    .lanes { vd := 0, kind := 0, st := 0, px := some { mask := 7, inv := true, zero := false, rnd := 7, ty := 0, kind4 := 0, op4 := 0, xw := 0 } },
    .fcvt { vd := 0, va := 0, dty := 7, st := 0, px := some { mask := 7, inv := true, zero := false, rnd := 7, ty := 0, kind4 := 0, op4 := 0, xw := 0 } }] : List Instr), ¬i.WellFormed := by decide

/-- Register groups that do not start at a multiple of their size (R48). -/
theorem test_illFormed2 : ∀ i ∈ ([.twosum { vd := 3, va := 0, vb := 0, st := 0, px := none },
    .errfma { vd := 2, va := 0, vb := 0, st := 0, px := none },
    .ldW2 { vd := 1, off := 0, en := false, k := 0, att := 0, st := 0, px := none },
    .stW4 { vd := 2, off := 0, en := false, k := 0, att := 0, st := 0, px := none },
    .ldx { vd := 0, off := 0, en := false, k := 1, att := 0, st := 0, px := none },
    .ldt { vd := 2, off := 0, k := 0, esz := 0, st := 0, px := none },
    .sldW2 { sd := 1, k := 0, woff := 0, att := 0, st := 0, px := none },
    .sstW4 { sd := 2, k := 0, woff := 0, att := 0, st := 0, px := none },
    .sldW8 { sd := 4, k := 0, woff := 0, att := 0, st := 0, px := none },
    .satcas { sd := 1, k := 0, woff := 0, att := 2, st := 0, px := none },
    .acas { vd := 1, off := 0, k := 0, ret := false, order := false, st := 0, px := none },
    .aaddc { vd := 3, off := 0, k := 0, ret := false, order := false, st := 0, px := none },
    .mmag { acc := 0, q := 0, tb := 0, vf := 1, st := 0, px := none },
    .cstat { sa := 0, sd := 2, st := 0, px := none },
    .unpk { vd := 1, va := 0, w := 4, sx := false, st := 0, px := none },
    .unpk { vd := 2, va := 0, w := 2, sx := false, st := 0, px := none }] : List Instr), ¬i.WellFormed := by decide

/-- The same of fabric, seat and system instructions. -/
theorem test_illFormed3 : ∀ i ∈ ([.rld { vd := 1, sb := 0, stream := 0, acq := false, st := 0, px := none },
    .rld { vd := 0, sb := 1, stream := 0, acq := false, st := 0, px := none },
    .rst { vs := 1, sb := 0, stream := 0, rel := false, st := 0, px := none },
    .rst { vs := 0, sb := 1, stream := 0, rel := false, st := 0, px := none },
    .ratom { vd := 1, sb := 0, stream := 0, op := 0, ret := false, st := 0, px := none },
    .ratom { vd := 2, sb := 0, stream := 0, op := 9, ret := false, st := 0, px := none },
    .ratom { vd := 0, sb := 1, stream := 0, op := 0, ret := false, st := 0, px := none },
    .rstv { vs := 0, sa := 1, stream := 0, rel := false, st := 0, px := none },
    .xfer { cr := 4, stream := 0, st := 0, px := none },
    .rfence { sb := 1, stream := 0, st := 0, px := none },
    .xredFirst { vp := 2, sa := 0, stream := 0, st := 0, px := none },
    .xredMid { vp := 0, sa := 1, stream := 0, st := 0, px := none },
    .xredLast { vp := 2, st := 0, px := none },
    .seatget { sd := 1, st := 0, px := none },
    .rstat { sd := 1, stream := 0, st := 0, px := none },
    .rstatClr { sd := 1, stream := 0, st := 0, px := none },
    .rresume { sb := 1, st := 0, px := none },
    .rresumeFail { sb := 1, st := 0, px := none },
    .rfePark { sa := 1, st := 0 },
    .ctxsv { sd := 0, sa := 1, sb := 0, st := 0 },
    .ctxld { sd := 0, sa := 1, st := 0 },
    .pgmap { sd := 1, sa := 0, st := 0 },
    .pgpoolAdd { sd := 0, sa := 2, st := 0 },
    .pgpoolRem { sd := 1, sa := 0, st := 0 },
    .keyld { sd := 0, sa := 1, sb := 0, st := 0 },
    .xlat { sd := 2, sa := 0, st := 0 },
    .xlat { sd := 0, sa := 1, st := 0 },
    .placeTo { sa := 1, sb := 0, st := 0 },
    .placeHere { sa := 1, st := 0 },
    .placeReset { sa := 1, st := 0 },
    .dupset { sd := 0, sa := 1, sb := 0, st := 0 }] : List Instr), ¬i.WellFormed := by decide

/-- Status registers that a view does not list, or that it does not write (R155, R379, R380). -/
theorem test_illFormed4 : ∀ i ∈ ([.rdsr { sd := 0, idx := 0x27, st := 0 },
    .wrsr { sa := 0, idx := 0x27, st := 0 },
    .psrd { sd := 0, idx := 0x11B, st := 0 },
    .pswr { sa := 0, idx := 0x11B, st := 0 },
    .pswr { sa := 0, idx := 0x102, st := 0 }] : List Instr), ¬i.WellFormed := by decide

/-- Reserved codes and fields that must be 0. -/
theorem test_illFormed5 : ∀ i ∈ ([.sfcvt { sd := 0, sa := 0, kind := 9, st := 0 },
    .setmode { sel := 10, val := 0, st := 0 },
    .setmode { sel := 1, val := 8, st := 0 },
    .ldB { vd := 0, off := 1, en := false, k := 0, att := 0, st := 0, px := none },
    .stW { vd := 0, off := 1, en := false, k := 0, att := 0, st := 0, px := none },
    .ldt { vd := 4, off := 0, k := 0, esz := 3, st := 0, px := none },
    .pfl { off := 0, en := false, k := 0, lvl := 2, st := 0, px := none },
    .pfl { off := 1, en := false, k := 0, lvl := 0, st := 0, px := none },
    .swaitl { sd := 0, k := 0, woff := 0, att := 1, st := 0, px := none },
    .satadd { sd := 0, k := 0, woff := 0, att := 0, st := 0, px := none },
    .satcas { sd := 0, k := 0, woff := 0, att := 1, st := 0, px := none },
    .cpy { cr := 7, mask := 0, sd := 0, st := 0, px := none },
    .cpyx { cr := 7, sd := 0, st := 0, px := none },
    .ratom { vd := 0, sb := 0, stream := 0, op := 11, ret := false, st := 0, px := none },
    .xfer { cr := 56, stream := 0, st := 0, px := none },
    .wait { cnt := 6, n := 0, arm := false, st := 0 },
    .waitAll { cmask := 0, arm := false, st := 0 },
    .fence { scope := 0, kind := 0, st := 0 },
    .potwait { sd := 1, sa := 0, arm := true, st := 0 }] : List Instr), ¬i.WellFormed := by decide

/-- The same of lane and conversion instructions. -/
theorem test_illFormed6 : ∀ i ∈ ([.shfl { vd := 0, va := 0, mode := 3, dist := 1, st := 0, px := none },
    .shfl { vd := 0, va := 0, mode := 3, dist := 0, st := 0, px := none },
    .lred { vd := 0, va := 0, op := 11, seg := 0, st := 0, px := none },
    .lscan { vd := 0, va := 0, op := 11, ex := false, st := 0, px := none },
    .vote { fd := 8, fa := 0, mode := 0, st := 0, px := none },
    .vote { fd := 0, fa := 8, mode := 0, st := 0, px := none },
    .vote { fd := 1, fa := 0, mode := 3, st := 0, px := none },
    .vote { fd := 64, fa := 0, mode := 3, st := 0, px := none },
    .bcast { vd := 0, va := 0, lane := 1, st := 0, px := some { mask := 7, inv := true, zero := false, rnd := 0, ty := 0, kind4 := 1, op4 := 0, xw := 0 } },
    .rdlane { sd := 0, va := 0, lane := 1, st := 0, px := some { mask := 7, inv := true, zero := false, rnd := 0, ty := 0, kind4 := 1, op4 := 0, xw := 0 } },
    .lanes { vd := 0, kind := 4, st := 0, px := none },
    .pmov { fd := 0, fa := 0, mode := 3, st := 0, px := none },
    .pmov { fd := 0, fa := 8, mode := 0, st := 0, px := none },
    .pmov { fd := 8, fa := 0, mode := 1, st := 0, px := none },
    .pmov { fd := 0, fa := 1, mode := 2, st := 0, px := none },
    .perm { vd := 0, va := 0, st := 0, px := none },
    .fcvt { vd := 0, va := 0, dty := 1, st := 0, px := none },
    .fcvti { vd := 0, va := 0, dty := 7, st := 0, px := none },
    .icvtf { vd := 0, va := 0, dty := 1, st := 0, px := none },
    .sclx { vd := 0, va := 0, dty := 7, dir := false, st := 0, px := none },
    .bfpk { vd := 0, va := 0, k := 1, st := 0, px := none },
    .bfpu { vd := 0, va := 0, k := 9, st := 0, px := none },
    .unpk { vd := 4, va := 0, w := 3, sx := false, st := 0, px := none }] : List Instr), ¬i.WellFormed := by decide

/-! Single steps, with results worked out by hand from the rules named. -/

/-- The group with the words of v8 and v12 in lane 0, of i32 type. -/
def ops (a b : Word) : Group := { group with mode := 0x0063811, vregs := [(512, a), (768, b)] }

/-- The same, of f32 type. -/
def opsF (a b : Word) : Group := { group with vregs := [(512, a), (768, b)] }

/-- Lane 0 of v4 after an instruction of a group. -/
def lane0 (i : Instr) (g : Group) : Option Word :=
  match exec i (at_ g) with
  | .next t => (t.group 0).map fun k => k.vreg 4 0
  | _ => none

/-- s4 and SCC after an instruction of a group. -/
def uni (i : Instr) (g : Group) : Option (Word × BitVec 5) :=
  match exec i (at_ g) with
  | .next t => (t.group 0).map fun k => (k.sreg 4, k.scc)
  | _ => none

/-- The splits' PCs after an instruction of a group. -/
def pcs (i : Instr) (g : Group) : Option (List DWord) :=
  match exec i (at_ g) with
  | .next t => (t.group 0).map fun k => k.splits.map (·.pc)
  | _ => none

/-- 2^32 − 1 + 1 is 0 modulo 2^32 (R141). -/
theorem test_iadd_wraps : lane0 (.iadd { vd := 4, va := 8, vb := 12, st := 0, px := none }) (ops 0xFFFFFFFF 1) = some 0 := by decide

/-- 0 − 1 is 2^32 − 1 (R141). -/
theorem test_isub_borrows : lane0 (.isub { vd := 4, va := 8, vb := 12, st := 0, px := none }) (ops 0 1) = some 0xFFFFFFFF := by decide

/-- 2^16 · 2^16 has low half 0 (R141). -/
theorem test_imul_low : lane0 (.imul { vd := 4, va := 8, vb := 12, st := 0, px := none }) (ops 0x10000 0x10000) = some 0 := by decide

/-- (−1) · (−1) = 1 has high half 0 (R141). -/
theorem test_imulh_signed : lane0 (.imulh { vd := 4, va := 8, vb := 12, st := 0, px := none }) (ops 0xFFFFFFFF 0xFFFFFFFF) = some 0 := by decide

/-- (2^32 − 1)² has high half 2^32 − 2 (R141). -/
theorem test_imulhu_unsigned : lane0 (.imulhu { vd := 4, va := 8, vb := 12, st := 0, px := none }) (ops 0xFFFFFFFF 0xFFFFFFFF) = some 0xFFFFFFFE := by decide

/-- −1 is less than 0 (R141). -/
theorem test_imin_signed : lane0 (.imin { vd := 4, va := 8, vb := 12, st := 0, px := none }) (ops 0xFFFFFFFF 0) = some 0xFFFFFFFF := by decide

/-- 0 is less than 2^32 − 1 (R141). -/
theorem test_iminu_unsigned : lane0 (.iminu { vd := 4, va := 8, vb := 12, st := 0, px := none }) (ops 0xFFFFFFFF 0) = some 0 := by decide

/-- The sign fills a right shift of a signed value (R142). -/
theorem test_isra_sign : lane0 (.isra { vd := 4, va := 8, vb := 12, st := 0, px := none }) (ops 0x80000000 31) = some 0xFFFFFFFF := by decide

/-- A logical shift brings in zeros (R142). -/
theorem test_ishr_zero : lane0 (.ishr { vd := 4, va := 8, vb := 12, st := 0, px := none }) (ops 0x80000000 31) = some 1 := by decide

/-- A signed sum saturates at 2^31 − 1 (R143). -/
theorem test_iaddsat_top : lane0 (.iaddsat { vd := 4, va := 8, vb := 12, st := 0, px := none }) (ops 0x7FFFFFFF 1) = some 0x7FFFFFFF := by decide

/-- 0xF0F0 has eight 1 bits (R141). -/
theorem test_ipopc : lane0 (.ipopc { vd := 4, va := 8, st := 0, px := none }) (ops 0xF0F0 0) = some 8 := by decide

/-- 1 has 31 leading zeros (R141). -/
theorem test_iclz : lane0 (.iclz { vd := 4, va := 8, st := 0, px := none }) (ops 1 0) = some 31 := by decide

/-- Bit 0 goes to bit 31 (R141). -/
theorem test_ibrev : lane0 (.ibrev { vd := 4, va := 8, st := 0, px := none }) (ops 1 0) = some 0x80000000 := by decide

/-- 1 + 1 = 2 (R179). -/
theorem test_fadd : lane0 (.fadd { vd := 4, va := 8, vb := 12, st := 0, px := none }) (opsF 0x3F800000 0x3F800000) = some 0x40000000 := by decide

/-- 1 − 1 is +0 under rounding to nearest even (R162). -/
theorem test_fsub_zero : lane0 (.fsub { vd := 4, va := 8, vb := 12, st := 0, px := none }) (opsF 0x3F800000 0x3F800000) = some 0 := by decide

/-- 1.5 · 1.5 = 2.25 (R179). -/
theorem test_fmul : lane0 (.fmul { vd := 4, va := 8, vb := 12, st := 0, px := none }) (opsF 0x3FC00000 0x3FC00000) = some 0x40100000 := by decide

/-- 1 + 2^−24 lies halfway and rounds to the even 1 (R162). -/
theorem test_fadd_even : lane0 (.fadd { vd := 4, va := 8, vb := 12, st := 0, px := none }) (opsF 0x3F800000 0x33800000) = some 0x3F800000 := by decide

/-- The sum of two largest f32 values overflows to infinity (R163). -/
theorem test_fadd_overflow : lane0 (.fadd { vd := 4, va := 8, vb := 12, st := 0, px := none }) (opsF 0x7F7FFFFF 0x7F7FFFFF) = some 0x7F800000 := by decide

/-- A literal goes to every Active lane (R147). -/
theorem test_movi : lane0 (.movi { dst := .v 4, lit := 0x12345678, st := 0 }) (group) = some 0x12345678 := by decide

/-- A uniform sum with an immediate of −1; SCC keeps its value (R149). -/
theorem test_sadd : uni (.sadd { sd := 4, sa := 8, src := .imm 0x1FF, st := 0 }) (withS [(8, 0)]) = some (0xFFFFFFFF, 0) := by decide

/-- 0xFFFFFFFF · 0xFFFFFFFF as signed values has high half 0 (R149). -/
theorem test_smulh : uni (.smulh { sd := 4, sa := 8, src := .r 12, st := 0 }) (withS [(8, 0xFFFFFFFF), (12, 0xFFFFFFFF)]) =
    some (0, 0) := by decide

/-- The lowest 1 bit of 0x60 is bit 5 (R149). -/
theorem test_sffs : uni (.sffs { sd := 4, sa := 8, st := 0 }) (withS [(8, 0x60)]) = some (5, 0) := by decide

/-- s63 takes no value (R49). -/
theorem test_s63 : uni (.sadd { sd := 63, sa := 8, src := .imm 1, st := 0 }) (withS [(4, 9), (8, 1)]) = some (9, 0) := by decide

/-- A branch of −1 words from 0x1000 goes to 0x1000 again (R24, R99). -/
theorem test_br_back : pcs (.br { off := 0x3FFFFF, st := 0 }) group = some [0x1000] := by decide

/-- A branch of 3 words from 0x1000 goes to 0x1010 (R24, R99). -/
theorem test_br : pcs (.br { off := 3, st := 0 }) group = some [0x1010] := by decide

/-- Under MODE.GUARD = 1, a lane whose bit of p1 is 0 keeps its word (R5, R41). -/
theorem test_masked : lane0 (.movi { dst := .v 4, lit := 7, st := 0 }) { group with mode := 0x0060817, preds := [(1, 0xFE)] } =
    some 0 := by decide

/-- A stored word lies least significant byte first in the window (R1). -/
theorem test_sst_bytes : (match exec (.sstW { sd := 8, k := 0, woff := 0, att := 0, st := 0, px := none })
      (at_ { group with sregs := [(1, 0x10000000), (8, 0x11223344)] }) with
    | .next t => t.spad
    | _ => []) = [(0, 0x44), (1, 0x33), (2, 0x22), (3, 0x11)] := by decide

/-- `trap` enters the handler with its cause and the address of its word (R381, R384). -/
theorem test_trap : (match exec (.trap { imm := 7, st := 0 }) (at_ group) with
    | .next t => (t.group 0).map fun k => (k.handler.isSome, k.tpc)
    | _ => none) = some (true, 0x1000) := by decide

/-- A privileged instruction of a group without privilege traps with cause 0x02 (R55). -/
theorem test_privileged : (match exec (.halt { sd := 4, sa := 8, st := 0 }) (at_ group) with
    | .next t => (t.group 0).map fun k => (k.handler.isSome, k.tcause &&& 0xFF)
    | _ => none) = some (true, 0x02) := by decide

/-! For each statement, states and operands that meet its hypotheses: one conjunct for each of its clauses that has any. -/

/-- IntegerLanes. -/
theorem wit_integerLanes :
    (∀ e ∈ elementOps, ∃ (s : State) (gid : Nat) (g : Group) (p : Split) (f : V3), Ready s gid g p ∧
      g.HasV [f.vd.toNat, f.va.toNat, f.vb.toNat] ∧
      pxRnd f.px = 0 ∧
      pxXw f.px = 0 ∧
      pxKind f.px = 0 ∧
      g.typeBad f.px = false) ∧
    (∀ e ∈ elementOps, ∃ (s : State) (gid : Nat) (g : Group) (p : Split) (f : VU), Ready s gid g p ∧
      g.HasV [f.vd.toNat, f.va.toNat] ∧
      g.HasS (vsrcNamed f.src) ∧
      pxRnd f.px = 0 ∧
      pxXw f.px = 0 ∧
      pxKind f.px = 0 ∧
      g.typeBad f.px = false) :=
  ⟨(fun e he => ⟨at_ group,
    0,
    group,
    split,
    { vd := 4, va := 8, vb := 12, st := 0, px := none },
    mkReady part rfl rfl rfl rfl ⟨rfl, rfl, rfl, rfl⟩ rfl (by decide) rfl (by decide),
    by unfold Group.HasV; decide,
    by decide,
    by decide,
    by decide,
    by decide⟩),
  (fun e he => ⟨at_ group,
    0,
    group,
    split,
    { vd := 4, va := 8, src := .u 12, st := 0, px := none },
    mkReady part rfl rfl rfl rfl ⟨rfl, rfl, rfl, rfl⟩ rfl (by decide) rfl (by decide),
    by unfold Group.HasV; decide,
    by unfold Group.HasS; decide,
    by decide,
    by decide,
    by decide,
    by decide⟩)⟩

/-- Shifts. -/
theorem wit_shifts :
    (∀ e ∈ shiftOps, ∃ (s : State) (gid : Nat) (g : Group) (p : Split) (f : V3), Ready s gid g p ∧
      g.HasV [f.vd.toNat, f.va.toNat, f.vb.toNat] ∧
      pxRnd f.px = 0 ∧
      pxXw f.px = 0 ∧
      pxKind f.px = 0 ∧
      g.typeBad f.px = false) ∧
    (∀ e ∈ shiftOps, ∃ (s : State) (gid : Nat) (g : Group) (p : Split) (f : VU), Ready s gid g p ∧
      g.HasV [f.vd.toNat, f.va.toNat] ∧
      g.HasS (vsrcNamed f.src) ∧
      pxRnd f.px = 0 ∧
      pxXw f.px = 0 ∧
      pxKind f.px = 0 ∧
      g.typeBad f.px = false) ∧
    (∀ e ∈ shiftOps, ∃ (s : State) (gid : Nat) (g : Group) (p : Split) (f : S3), Ready s gid g p ∧
      g.HasS (f.sd.toNat :: f.sa.toNat :: ssrcNamed f.src)) :=
  ⟨(fun e he => ⟨at_ group,
    0,
    group,
    split,
    { vd := 4, va := 8, vb := 12, st := 0, px := none },
    mkReady part rfl rfl rfl rfl ⟨rfl, rfl, rfl, rfl⟩ rfl (by decide) rfl (by decide),
    by unfold Group.HasV; decide,
    by decide,
    by decide,
    by decide,
    by decide⟩),
  (fun e he => ⟨at_ group,
    0,
    group,
    split,
    { vd := 4, va := 8, src := .u 12, st := 0, px := none },
    mkReady part rfl rfl rfl rfl ⟨rfl, rfl, rfl, rfl⟩ rfl (by decide) rfl (by decide),
    by unfold Group.HasV; decide,
    by unfold Group.HasS; decide,
    by decide,
    by decide,
    by decide,
    by decide⟩),
  (fun e he => ⟨at_ group,
    0,
    group,
    split,
    { sd := 4, sa := 8, src := .r 12, st := 0 },
    mkReady part rfl rfl rfl rfl ⟨rfl, rfl, rfl, rfl⟩ rfl (by decide) rfl (by decide),
    by unfold Group.HasS; decide⟩)⟩

/-- IntegerOthers. -/
theorem wit_integerOthers :
    (∀ e ∈ unaryOps, ∃ (s : State) (gid : Nat) (g : Group) (p : Split) (f : V3Un), Ready s gid g p ∧
      g.HasV [f.vd.toNat, f.va.toNat] ∧
      pxRnd f.px = 0 ∧
      pxXw f.px = 0 ∧
      pxKind f.px = 0 ∧
      g.typeBad f.px = false) ∧
    (∃ (s : State) (gid : Nat) (g : Group) (p : Split) (f : V3Mov), Ready s gid g p ∧
      g.HasV [f.vd.toNat, f.vb.toNat] ∧
      pxRnd f.px = 0 ∧
      pxXw f.px = 0 ∧
      pxKind f.px = 0 ∧
      g.typeBad f.px = false) ∧
    (∃ (s : State) (gid : Nat) (g : Group) (p : Split) (f : VUMov), Ready s gid g p ∧
      g.HasV [f.vd.toNat] ∧
      g.HasS (vsrcNamed f.src) ∧
      pxRnd f.px = 0 ∧
      pxXw f.px = 0 ∧
      pxKind f.px = 0 ∧
      g.typeBad f.px = false) ∧
    (∃ (s : State) (gid : Nat) (g : Group) (p : Split) (f : V3), Ready s gid g p ∧
      g.HasV [f.vd.toNat, f.va.toNat, f.vb.toNat] ∧
      pxRnd f.px = 0 ∧
      pxXw f.px = 0 ∧
      pxKind f.px = 0 ∧
      aluZero f.px = false ∧
      g.typeBad f.px = false) ∧
    (∃ (s : State) (gid : Nat) (g : Group) (p : Split) (f : VU), Ready s gid g p ∧
      g.HasV [f.vd.toNat, f.va.toNat] ∧
      g.HasS (vsrcNamed f.src) ∧
      pxRnd f.px = 0 ∧
      pxXw f.px = 0 ∧
      pxKind f.px = 0 ∧
      aluZero f.px = false ∧
      g.typeBad f.px = false) ∧
    (∃ (s : State) (gid : Nat) (g : Group) (p : Split) (f : V3), Ready s gid g p ∧
      g.HasV (f.vd.toNat :: [f.va.toNat, f.vb.toNat] ++ fourthV f.px 1) ∧
      g.HasS (fourthS f.px) ∧
      pxRnd f.px = 0 ∧
      pxXw f.px = 0 ∧
      g.typeBad f.px = false) ∧
    (∃ (s : State) (gid : Nat) (g : Group) (p : Split) (f : VU), Ready s gid g p ∧
      g.HasV (f.vd.toNat :: [f.va.toNat] ++ fourthV f.px 1) ∧
      g.HasS (vsrcNamed f.src ++ fourthS f.px) ∧
      pxRnd f.px = 0 ∧
      pxXw f.px = 0 ∧
      g.typeBad f.px = false) :=
  ⟨(fun e he => ⟨at_ group,
    0,
    group,
    split,
    { vd := 4, va := 8, st := 0, px := none },
    mkReady part rfl rfl rfl rfl ⟨rfl, rfl, rfl, rfl⟩ rfl (by decide) rfl (by decide),
    by unfold Group.HasV; decide,
    by decide,
    by decide,
    by decide,
    by decide⟩),
  ⟨at_ group,
    0,
    group,
    split,
    { vd := 4, vb := 12, st := 0, px := none },
    mkReady part rfl rfl rfl rfl ⟨rfl, rfl, rfl, rfl⟩ rfl (by decide) rfl (by decide),
    by unfold Group.HasV; decide,
    by decide,
    by decide,
    by decide,
    by decide⟩,
  ⟨at_ group,
    0,
    group,
    split,
    { vd := 4, src := .u 12, st := 0, px := none },
    mkReady part rfl rfl rfl rfl ⟨rfl, rfl, rfl, rfl⟩ rfl (by decide) rfl (by decide),
    by unfold Group.HasV; decide,
    by unfold Group.HasS; decide,
    by decide,
    by decide,
    by decide,
    by decide⟩,
  ⟨at_ group,
    0,
    group,
    split,
    { vd := 4, va := 8, vb := 12, st := 0, px := none },
    mkReady part rfl rfl rfl rfl ⟨rfl, rfl, rfl, rfl⟩ rfl (by decide) rfl (by decide),
    by unfold Group.HasV; decide,
    by decide,
    by decide,
    by decide,
    by decide,
    by decide⟩,
  ⟨at_ group,
    0,
    group,
    split,
    { vd := 4, va := 8, src := .u 12, st := 0, px := none },
    mkReady part rfl rfl rfl rfl ⟨rfl, rfl, rfl, rfl⟩ rfl (by decide) rfl (by decide),
    by unfold Group.HasV; decide,
    by unfold Group.HasS; decide,
    by decide,
    by decide,
    by decide,
    by decide,
    by decide⟩,
  ⟨at_ group,
    0,
    group,
    split,
    { vd := 4, va := 8, vb := 12, st := 0, px := none },
    mkReady part rfl rfl rfl rfl ⟨rfl, rfl, rfl, rfl⟩ rfl (by decide) rfl (by decide),
    by unfold Group.HasV; decide,
    by unfold Group.HasS; decide,
    by decide,
    by decide,
    by decide⟩,
  ⟨at_ group,
    0,
    group,
    split,
    { vd := 4, va := 8, src := .u 12, st := 0, px := none },
    mkReady part rfl rfl rfl rfl ⟨rfl, rfl, rfl, rfl⟩ rfl (by decide) rfl (by decide),
    by unfold Group.HasV; decide,
    by unfold Group.HasS; decide,
    by decide,
    by decide,
    by decide⟩⟩

/-- IntegerCompare. -/
theorem wit_integerCompare :
    (∃ t, t ∈ condTests ∧
      ∃ (s : State) (gid : Nat) (g : Group) (p : Split) (f : V3Cmp), Ready s gid g p ∧
      f.cond = t.1 ∧
      g.HasV [f.va.toNat, f.vb.toNat] ∧
      pxRnd f.px = 0 ∧
      pxXw f.px = 0 ∧
      pxKind f.px = 0 ∧
      pxType f.px = 0) ∧
    (∃ t, t ∈ condTests ∧
      ∃ (s : State) (gid : Nat) (g : Group) (p : Split) (f : VUCmp), Ready s gid g p ∧
      f.cond = t.1 ∧
      g.HasV [f.va.toNat] ∧
      g.HasS (vsrcNamed f.src) ∧
      pxRnd f.px = 0 ∧
      pxXw f.px = 0 ∧
      pxKind f.px = 0 ∧
      pxType f.px = 0) :=
  ⟨⟨condTests[2],
    List.getElem_mem _,
    at_ group,
    0,
    group,
    split,
    { cond := condTests[2].1, pd := 0, va := 8, vb := 12, st := 0, px := none },
    mkReady part rfl rfl rfl rfl ⟨rfl, rfl, rfl, rfl⟩ rfl (by decide) rfl (by decide),
    rfl,
    by unfold Group.HasV; decide,
    by decide,
    by decide,
    by decide,
    by decide⟩,
  ⟨condTests[2],
    List.getElem_mem _,
    at_ group,
    0,
    group,
    split,
    { cond := condTests[2].1, pd := 0, va := 8, src := .u 12, st := 0, px := none },
    mkReady part rfl rfl rfl rfl ⟨rfl, rfl, rfl, rfl⟩ rfl (by decide) rfl (by decide),
    rfl,
    by unfold Group.HasV; decide,
    by unfold Group.HasS; decide,
    by decide,
    by decide,
    by decide,
    by decide⟩⟩

/-- MoviWrites. -/
theorem wit_moviWrites :
    (∃ (s : State) (gid : Nat) (g : Group) (p : Split) (f : Movi) (r : BitVec 7), Ready s gid g p ∧
      f.dst = .v r ∧
      g.HasV [r.toNat]) ∧
    (∃ (s : State) (gid : Nat) (g : Group) (p : Split) (f : Movi) (r : BitVec 6), Ready s gid g p ∧
      f.dst = .u r ∧
      g.HasS [r.toNat]) :=
  ⟨⟨at_ group,
    0,
    group,
    split,
    { dst := .v 4, lit := 0, st := 0 },
    4,
    mkReady part rfl rfl rfl rfl ⟨rfl, rfl, rfl, rfl⟩ rfl (by decide) rfl (by decide),
    by decide,
    by unfold Group.HasV; decide⟩,
  ⟨at_ group,
    0,
    group,
    split,
    { dst := .u 4, lit := 7, st := 0 },
    4,
    mkReady part rfl rfl rfl rfl ⟨rfl, rfl, rfl, rfl⟩ rfl (by decide) rfl (by decide),
    by decide,
    by unfold Group.HasS; decide⟩⟩

/-- UniformResults. -/
theorem wit_uniformResults :
    (∀ e ∈ uniformOps, ∃ (s : State) (gid : Nat) (g : Group) (p : Split) (f : S3), Ready s gid g p ∧
      g.HasS (f.sd.toNat :: f.sa.toNat :: ssrcNamed f.src)) ∧
    (∃ (s : State) (gid : Nat) (g : Group) (p : Split) (f : S3), Ready s gid g p ∧
      g.HasS (f.sd.toNat :: f.sa.toNat :: ssrcNamed f.src)) ∧
    (∃ (s : State) (gid : Nat) (g : Group) (p : Split) (f : SMov), Ready s gid g p ∧
      g.HasS (f.sd.toNat :: ssrcNamed f.src)) ∧
    (∃ (s : State) (gid : Nat) (g : Group) (p : Split) (f : SUn), Ready s gid g p ∧
      g.HasS [f.sd.toNat, f.sa.toNat]) ∧
    (∃ (s : State) (gid : Nat) (g : Group) (p : Split) (f : SCmp), Ready s gid g p ∧
      g.HasS (f.sa.toNat :: ssrcNamed f.src)) ∧
    (∃ (s : State) (gid : Nat) (g : Group) (p : Split) (f : S3) (t : BitVec 33), Ready s gid g p ∧
      g.HasS (f.sd.toNat :: f.sa.toNat :: ssrcNamed f.src) ∧
      t = (g.sreg f.sa.toNat).setWidth 33 + (g.ssrc f.src).setWidth 33 + (if sccC g.scc then 1 else 0)) :=
  ⟨(fun e he => ⟨at_ group,
    0,
    group,
    split,
    { sd := 4, sa := 8, src := .r 12, st := 0 },
    mkReady part rfl rfl rfl rfl ⟨rfl, rfl, rfl, rfl⟩ rfl (by decide) rfl (by decide),
    by unfold Group.HasS; decide⟩),
  ⟨at_ group,
    0,
    group,
    split,
    { sd := 4, sa := 8, src := .r 12, st := 0 },
    mkReady part rfl rfl rfl rfl ⟨rfl, rfl, rfl, rfl⟩ rfl (by decide) rfl (by decide),
    by unfold Group.HasS; decide⟩,
  ⟨at_ group,
    0,
    group,
    split,
    { sd := 4, src := .r 12, st := 0 },
    mkReady part rfl rfl rfl rfl ⟨rfl, rfl, rfl, rfl⟩ rfl (by decide) rfl (by decide),
    by unfold Group.HasS; decide⟩,
  ⟨at_ group,
    0,
    group,
    split,
    { sd := 4, sa := 8, st := 0 },
    mkReady part rfl rfl rfl rfl ⟨rfl, rfl, rfl, rfl⟩ rfl (by decide) rfl (by decide),
    by unfold Group.HasS; decide⟩,
  ⟨at_ group,
    0,
    group,
    split,
    { sa := 8, src := .r 12, st := 0 },
    mkReady part rfl rfl rfl rfl ⟨rfl, rfl, rfl, rfl⟩ rfl (by decide) rfl (by decide),
    by unfold Group.HasS; decide⟩,
  ⟨at_ group,
    0,
    group,
    split,
    { sd := 4, sa := 8, src := .r 12, st := 0 },
    _,
    mkReady part rfl rfl rfl rfl ⟨rfl, rfl, rfl, rfl⟩ rfl (by decide) rfl (by decide),
    by unfold Group.HasS; decide,
    rfl⟩⟩

/-- UniformCompare. -/
theorem wit_uniformCompare : ∃ (s : State) (gid : Nat) (g : Group) (p : Split) (f : SCmp) (a : Word) (b : Word), Ready s gid g p ∧
      g.HasS (f.sa.toNat :: ssrcNamed f.src) ∧
      g.sreg f.sa.toNat = a ∧
      g.ssrc f.src = b :=
  ⟨at_ group,
    0,
    group,
    split,
    { sa := 8, src := .r 12, st := 0 },
    _,
    _,
    mkReady part rfl rfl rfl rfl ⟨rfl, rfl, rfl, rfl⟩ rfl (by decide) rfl (by decide),
    by unfold Group.HasS; decide,
    rfl,
    rfl⟩

/-- FloatRounded. -/
theorem wit_floatRounded :
    (∀ e ∈ roundedOps, ∃ (s : State) (gid : Nat) (g : Group) (p : Split) (f : V3), Ready s gid g p ∧
      g.role = .vector ∧
      g.HasV ([f.vd.toNat, f.va.toNat, f.vb.toNat] ++ fourthV f.px 1) ∧
      g.HasS (fourthS f.px) ∧
      g.Rounds f.px ∧
      arithType (g.effType f.px) = true ∧
      (g.NoFpTrap p (aluMask f.px) (fun i => (g.floatWord f.px false e.2.2 (g.randWord f.px i) (g.vreg f.va.toNat i) (g.vreg f.vb.toNat i) (0)).2))) ∧
    (∀ e ∈ roundedOps, ∃ (s : State) (gid : Nat) (g : Group) (p : Split) (f : VU), Ready s gid g p ∧
      g.role = .vector ∧
      g.HasV ([f.vd.toNat, f.va.toNat] ++ fourthV f.px 1) ∧
      g.HasS (vsrcNamed f.src ++ fourthS f.px) ∧
      g.Rounds f.px ∧
      arithType (g.effType f.px) = true ∧
      (g.NoFpTrap p (aluMask f.px) (fun i => (g.floatWord f.px false e.2.2 (g.randWord f.px i) (g.vreg f.va.toNat i) (g.floatSrc (fmtOf (g.effType f.px)) f.src) (0)).2))) ∧
    (∃ (s : State) (gid : Nat) (g : Group) (p : Split) (f : V3Un), Ready s gid g p ∧
      g.role = .vector ∧
      g.HasV ([f.vd.toNat, f.va.toNat] ++ fourthV f.px 1) ∧
      g.HasS (fourthS f.px) ∧
      g.Rounds f.px ∧
      arithType (g.effType f.px) = true ∧
      (g.NoFpTrap p (aluMask f.px) (fun i => (g.floatWord f.px false opFround (g.randWord f.px i) (g.vreg f.va.toNat i) (0) (0)).2))) :=
  ⟨(fun e he => ⟨at_ group,
    0,
    group,
    split,
    { vd := 4, va := 8, vb := 12, st := 0, px := none },
    mkReady part rfl rfl rfl rfl ⟨rfl, rfl, rfl, rfl⟩ rfl (by decide) rfl (by decide),
    rfl,
    by unfold Group.HasV; decide,
    by unfold Group.HasS; decide,
    by unfold Group.Rounds; decide,
    by decide,
    (fun _ _ _ => BitVec.and_zero)⟩),
  (fun e he => ⟨at_ group,
    0,
    group,
    split,
    { vd := 4, va := 8, src := .u 12, st := 0, px := none },
    mkReady part rfl rfl rfl rfl ⟨rfl, rfl, rfl, rfl⟩ rfl (by decide) rfl (by decide),
    rfl,
    by unfold Group.HasV; decide,
    by unfold Group.HasS; decide,
    by unfold Group.Rounds; decide,
    by decide,
    (fun _ _ _ => BitVec.and_zero)⟩),
  ⟨at_ group,
    0,
    group,
    split,
    { vd := 4, va := 8, st := 0, px := none },
    mkReady part rfl rfl rfl rfl ⟨rfl, rfl, rfl, rfl⟩ rfl (by decide) rfl (by decide),
    rfl,
    by unfold Group.HasV; decide,
    by unfold Group.HasS; decide,
    by unfold Group.Rounds; decide,
    by decide,
    (fun _ _ _ => BitVec.and_zero)⟩⟩

/-- FloatChosen. -/
theorem wit_floatChosen :
    (∀ e ∈ choiceOps, ∃ (s : State) (gid : Nat) (g : Group) (p : Split) (f : V3), Ready s gid g p ∧
      g.role = .vector ∧
      g.HasV [f.vd.toNat, f.va.toNat, f.vb.toNat] ∧
      NoRounding f.px ∧
      arithType (g.effType f.px) = true ∧
      (g.NoFpTrap p (aluMask f.px) (fun i => (g.floatWord f.px false e.2.2 (g.randWord f.px i) (g.vreg f.va.toNat i) (g.vreg f.vb.toNat i) (0)).2))) ∧
    (∀ e ∈ choiceOps, ∃ (s : State) (gid : Nat) (g : Group) (p : Split) (f : VU), Ready s gid g p ∧
      g.role = .vector ∧
      g.HasV [f.vd.toNat, f.va.toNat] ∧
      g.HasS (vsrcNamed f.src) ∧
      NoRounding f.px ∧
      arithType (g.effType f.px) = true ∧
      (g.NoFpTrap p (aluMask f.px) (fun i => (g.floatWord f.px false e.2.2 (g.randWord f.px i) (g.vreg f.va.toNat i) (g.floatSrc (fmtOf (g.effType f.px)) f.src) (0)).2))) ∧
    (∀ e ∈ codeOps, ∃ (s : State) (gid : Nat) (g : Group) (p : Split) (f : V3Un), Ready s gid g p ∧
      g.role = .vector ∧
      g.HasV [f.vd.toNat, f.va.toNat] ∧
      NoRounding f.px ∧
      arithType (g.effType f.px) = true) ∧
    (∃ (s : State) (gid : Nat) (g : Group) (p : Split) (f : V3Cmp), Ready s gid g p ∧
      g.role = .vector ∧
      g.HasV [f.va.toNat, f.vb.toNat] ∧
      NoRounding f.px ∧
      arithType (g.effType f.px) = true ∧
      (g.NoFpTrap p (aluMask f.px) (fun i => (g.floatTest f.px f.cond (g.vreg f.va.toNat i) (g.vreg f.vb.toNat i)).2))) ∧
    (∃ (s : State) (gid : Nat) (g : Group) (p : Split) (f : VUCmp), Ready s gid g p ∧
      g.role = .vector ∧
      g.HasV [f.va.toNat] ∧
      g.HasS (vsrcNamed f.src) ∧
      NoRounding f.px ∧
      arithType (g.effType f.px) = true ∧
      (g.NoFpTrap p (aluMask f.px) (fun i => (g.floatTest f.px f.cond (g.vreg f.va.toNat i) (g.floatSrc (fmtOf (g.effType f.px)) f.src)).2))) :=
  ⟨(fun e he => ⟨at_ group,
    0,
    group,
    split,
    { vd := 4, va := 8, vb := 12, st := 0, px := none },
    mkReady part rfl rfl rfl rfl ⟨rfl, rfl, rfl, rfl⟩ rfl (by decide) rfl (by decide),
    rfl,
    by unfold Group.HasV; decide,
    by unfold NoRounding; decide,
    by decide,
    (fun _ _ _ => BitVec.and_zero)⟩),
  (fun e he => ⟨at_ group,
    0,
    group,
    split,
    { vd := 4, va := 8, src := .u 12, st := 0, px := none },
    mkReady part rfl rfl rfl rfl ⟨rfl, rfl, rfl, rfl⟩ rfl (by decide) rfl (by decide),
    rfl,
    by unfold Group.HasV; decide,
    by unfold Group.HasS; decide,
    by unfold NoRounding; decide,
    by decide,
    (fun _ _ _ => BitVec.and_zero)⟩),
  (fun e he => ⟨at_ group,
    0,
    group,
    split,
    { vd := 4, va := 8, st := 0, px := none },
    mkReady part rfl rfl rfl rfl ⟨rfl, rfl, rfl, rfl⟩ rfl (by decide) rfl (by decide),
    rfl,
    by unfold Group.HasV; decide,
    by unfold NoRounding; decide,
    by decide⟩),
  ⟨at_ group,
    0,
    group,
    split,
    { cond := .lt, pd := 0, va := 8, vb := 12, st := 0, px := none },
    mkReady part rfl rfl rfl rfl ⟨rfl, rfl, rfl, rfl⟩ rfl (by decide) rfl (by decide),
    rfl,
    by unfold Group.HasV; decide,
    by unfold NoRounding; decide,
    by decide,
    (fun _ _ _ => BitVec.and_zero)⟩,
  ⟨at_ group,
    0,
    group,
    split,
    { cond := .lt, pd := 0, va := 8, src := .u 12, st := 0, px := none },
    mkReady part rfl rfl rfl rfl ⟨rfl, rfl, rfl, rfl⟩ rfl (by decide) rfl (by decide),
    rfl,
    by unfold Group.HasV; decide,
    by unfold Group.HasS; decide,
    by unfold NoRounding; decide,
    by decide,
    (fun _ _ _ => BitVec.and_zero)⟩⟩

/-- FloatFused. -/
theorem wit_floatFused :
    (∃ (s : State) (gid : Nat) (g : Group) (p : Split) (f : V3), Ready s gid g p ∧
      g.role = .vector ∧
      g.HasV ([f.vd.toNat, f.va.toNat, f.vb.toNat] ++ fourthV f.px 1) ∧
      g.HasS (fourthS f.px) ∧
      pxXw f.px = 0 ∧
      (pxRnd f.px = 6 → pxKind f.px ≠ 0) ∧
      g.rndBad f.px = false ∧
      arithType (g.effType f.px) = true ∧
      (g.NoFpTrap p (aluMask f.px) (fun i => (g.floatWord f.px false opFfma (g.randWord f.px i) (g.vreg f.va.toNat i) (g.vreg f.vb.toNat i) (g.addendWord (fmtOf (g.effType f.px)) f.px f.vd.toNat i)).2))) ∧
    (∃ (s : State) (gid : Nat) (g : Group) (p : Split) (f : VU), Ready s gid g p ∧
      g.role = .vector ∧
      g.HasV ([f.vd.toNat, f.va.toNat] ++ fourthV f.px 1) ∧
      g.HasS (vsrcNamed f.src ++ fourthS f.px) ∧
      pxXw f.px = 0 ∧
      (pxRnd f.px = 6 → pxKind f.px ≠ 0) ∧
      g.rndBad f.px = false ∧
      arithType (g.effType f.px) = true ∧
      (g.NoFpTrap p (aluMask f.px) (fun i => (g.floatWord f.px false opFfma (g.randWord f.px i) (g.vreg f.va.toNat i) (g.floatSrc (fmtOf (g.effType f.px)) f.src) (g.addendWord (fmtOf (g.effType f.px)) f.px f.vd.toNat i)).2))) ∧
    (∃ (s : State) (gid : Nat) (g : Group) (p : Split) (f : V3), Ready s gid g p ∧
      g.role = .vector ∧
      g.HasV ([f.vd.toNat, f.va.toNat, f.vb.toNat] ++ fourthV f.px 1) ∧
      g.HasS (fourthS f.px) ∧
      pxXw f.px = 0 ∧
      (pxRnd f.px = 6 → pxKind f.px ≠ 0) ∧
      g.rndBad f.px = false ∧
      dotType (g.effType f.px) = true ∧
      (g.NoFpTrap p (aluMask f.px) (fun i => (g.dotWord f.px (g.randWord f.px i) (g.vreg f.va.toNat i) (g.vreg f.vb.toNat i) (g.addendWord fp32 f.px f.vd.toNat i)).2))) ∧
    (∃ (s : State) (gid : Nat) (g : Group) (p : Split) (f : VU), Ready s gid g p ∧
      g.role = .vector ∧
      g.HasV ([f.vd.toNat, f.va.toNat] ++ fourthV f.px 1) ∧
      g.HasS (vsrcNamed f.src ++ fourthS f.px) ∧
      pxXw f.px = 0 ∧
      (pxRnd f.px = 6 → pxKind f.px ≠ 0) ∧
      g.rndBad f.px = false ∧
      dotType (g.effType f.px) = true ∧
      (g.NoFpTrap p (aluMask f.px) (fun i => (g.dotWord f.px (g.randWord f.px i) (g.vreg f.va.toNat i) (g.floatSrc (fmtOf (g.effType f.px)) f.src) (g.addendWord fp32 f.px f.vd.toNat i)).2))) ∧
    (∃ (s : State) (gid : Nat) (g : Group) (p : Split) (f : V3), Ready s gid g p ∧
      g.role = .vector ∧
      g.HasV ([f.vd.toNat, f.va.toNat, f.vb.toNat] ++ fourthV f.px 1) ∧
      g.HasS (fourthS f.px) ∧
      g.Rounds f.px ∧
      arithType (g.effType f.px) = true ∧
      (g.NoFpTrap p (aluMask f.px) (fun i => (g.floatWord f.px true opFscale (g.randWord f.px i) (g.vreg f.va.toNat i) (g.vreg f.vb.toNat i) (0)).2))) ∧
    (∃ (s : State) (gid : Nat) (g : Group) (p : Split) (f : VU), Ready s gid g p ∧
      g.role = .vector ∧
      g.HasV ([f.vd.toNat, f.va.toNat] ++ fourthV f.px 1) ∧
      g.HasS (vsrcNamed f.src ++ fourthS f.px) ∧
      g.Rounds f.px ∧
      arithType (g.effType f.px) = true ∧
      (g.NoFpTrap p (aluMask f.px) (fun i => (g.floatWord f.px true opFscale (g.randWord f.px i) (g.vreg f.va.toNat i) (g.vsrc (fmtOf (g.effType f.px)).w f.src) (0)).2))) :=
  ⟨⟨at_ group,
    0,
    group,
    split,
    { vd := 4, va := 8, vb := 12, st := 0, px := none },
    mkReady part rfl rfl rfl rfl ⟨rfl, rfl, rfl, rfl⟩ rfl (by decide) rfl (by decide),
    rfl,
    by unfold Group.HasV; decide,
    by unfold Group.HasS; decide,
    by decide,
    by decide,
    by decide,
    by decide,
    (fun _ _ _ => BitVec.and_zero)⟩,
  ⟨at_ group,
    0,
    group,
    split,
    { vd := 4, va := 8, src := .u 12, st := 0, px := none },
    mkReady part rfl rfl rfl rfl ⟨rfl, rfl, rfl, rfl⟩ rfl (by decide) rfl (by decide),
    rfl,
    by unfold Group.HasV; decide,
    by unfold Group.HasS; decide,
    by decide,
    by decide,
    by decide,
    by decide,
    (fun _ _ _ => BitVec.and_zero)⟩,
  ⟨at_ half,
    0,
    half,
    split,
    { vd := 4, va := 8, vb := 12, st := 0, px := none },
    mkReady part rfl rfl rfl rfl ⟨rfl, rfl, rfl, rfl⟩ rfl (by decide) rfl (by decide),
    rfl,
    by unfold Group.HasV; decide,
    by unfold Group.HasS; decide,
    by decide,
    by decide,
    by decide,
    by decide,
    (fun _ _ _ => BitVec.and_zero)⟩,
  ⟨at_ half,
    0,
    half,
    split,
    { vd := 4, va := 8, src := .u 12, st := 0, px := none },
    mkReady part rfl rfl rfl rfl ⟨rfl, rfl, rfl, rfl⟩ rfl (by decide) rfl (by decide),
    rfl,
    by unfold Group.HasV; decide,
    by unfold Group.HasS; decide,
    by decide,
    by decide,
    by decide,
    by decide,
    (fun _ _ _ => BitVec.and_zero)⟩,
  ⟨at_ group,
    0,
    group,
    split,
    { vd := 4, va := 8, vb := 12, st := 0, px := none },
    mkReady part rfl rfl rfl rfl ⟨rfl, rfl, rfl, rfl⟩ rfl (by decide) rfl (by decide),
    rfl,
    by unfold Group.HasV; decide,
    by unfold Group.HasS; decide,
    by unfold Group.Rounds; decide,
    by decide,
    (fun _ _ _ => BitVec.and_zero)⟩,
  ⟨at_ group,
    0,
    group,
    split,
    { vd := 4, va := 8, src := .u 12, st := 0, px := none },
    mkReady part rfl rfl rfl rfl ⟨rfl, rfl, rfl, rfl⟩ rfl (by decide) rfl (by decide),
    rfl,
    by unfold Group.HasV; decide,
    by unfold Group.HasS; decide,
    by unfold Group.Rounds; decide,
    by decide,
    (fun _ _ _ => BitVec.and_zero)⟩⟩

/-- RoundingModes. -/
theorem wit_roundingModes :
    (∃ (d : Dy) (q : Int) (x : ℚ), x = d.m * (2 : ℚ) ^ (d.e - q)) ∧
    (∃ (d : Dy) (q : Int) (x : ℚ), x = d.m * (2 : ℚ) ^ (d.e - q) ∧
      |((d.roundAt .rne q).1 : ℚ) - x| = 1 / 2) ∧
    (∃ (d : Dy) (q : Int) (x : ℚ), x = d.m * (2 : ℚ) ^ (d.e - q) ∧
      |((d.roundAt .rna q).1 : ℚ) - x| = 1 / 2) ∧
    (∃ (d : Dy) (q : Int) (x : ℚ), x = d.m * (2 : ℚ) ^ (d.e - q) ∧
      ∃ (r : ℕ) (n : ℕ), r < 2 ^ n) ∧
    (∃ fm, fm ∈ [fp32, fp16, bf16] ∧
      ∃ (r : Rnd) (z : Bool) (a : Nat) (b : Nat) (c : Nat) (x : Dy) (y : Dy) (w : Dy), a < 2 ^ fm.w ∧
      b < 2 ^ fm.w ∧
      c < 2 ^ fm.w ∧
      fm.val a = .fin x ∧
      fm.val b = .fin y ∧
      fm.val c = .fin w) :=
  ⟨⟨{ neg := false, m := 3, e := -1 },
    0,
    _,
    rfl⟩,
  ⟨{ neg := false, m := 3, e := -1 },
    0,
    _,
    rfl,
    by norm_num [Dy.roundAt, roundsUp]⟩,
  ⟨{ neg := false, m := 3, e := -1 },
    0,
    _,
    rfl,
    by norm_num [Dy.roundAt, roundsUp]⟩,
  ⟨{ neg := false, m := 3, e := -1 },
    0,
    _,
    rfl,
    1,
    2,
    by decide⟩,
  ⟨fp32,
    by decide,
    .rne,
    false,
    0,
    0,
    0,
    _,
    _,
    _,
    by decide,
    by decide,
    by decide,
    rfl,
    rfl,
    rfl⟩⟩

/-- ErrorFreePairs. -/
theorem wit_errorFreePairs :
    (∀ e ∈ pairOps, ∃ (s : State) (gid : Nat) (g : Group) (p : Split) (f : V3), Ready s gid g p ∧
      g.role = .vector ∧
      g.HasGroups [(f.vd.toNat, 2), (f.va.toNat, 1), (f.vb.toNat, 1)] ∧
      arithType (g.effType f.px) = true ∧
      pxXw f.px = 0 ∧
      pxRnd f.px < 2 ∧
      pxKind f.px = 0 ∧
      (g.NoFpTrap p (aluMask f.px) (fun i => (g.elemWords f.px (fun j => let r := e.2 (fmtOf (g.effType f.px)) g.mFtz (g.srcElem (fmtOf (g.effType f.px)) (g.vreg f.va.toNat i) j) (g.srcElem (fmtOf (g.effType f.px)) (g.vreg f.vb.toNat i) j); ([r.1, r.2.1], r.2.2))).2))) ∧
    (∃ (s : State) (gid : Nat) (g : Group) (p : Split) (f : V3), Ready s gid g p ∧
      g.role = .vector ∧
      g.HasGroups ([(f.vd.toNat, 3), (f.va.toNat, 1), (f.vb.toNat, 1)] ++ (fourthV f.px 1).map (·, 1)) ∧
      g.HasS (fourthS f.px) ∧
      arithType (g.effType f.px) = true ∧
      pxXw f.px = 0 ∧
      pxRnd f.px < 2 ∧
      (g.NoFpTrap p (aluMask f.px) (fun i => (g.elemWords f.px (fun j => errFma (fmtOf (g.effType f.px)) g.mFtz (g.srcElem (fmtOf (g.effType f.px)) (g.vreg f.va.toNat i) j) (g.srcElem (fmtOf (g.effType f.px)) (g.vreg f.vb.toNat i) j) (g.srcElem (fmtOf (g.effType f.px)) (g.addendWord (fmtOf (g.effType f.px)) f.px f.vd.toNat i) j))).2))) ∧
    (∃ fm, fm ∈ [fp32, fp16, bf16] ∧
      ∃ (z : Bool) (a : Nat) (b : Nat) (x : Dy) (y : Dy), fm.val a = .fin x ∧
      fm.val b = .fin y) ∧
    (∃ fm, fm ∈ [fp32, fp16, bf16] ∧
      ∃ (z : Bool) (a : Nat) (b : Nat) (x : Dy) (y : Dy), fm.val a = .fin x ∧
      fm.val b = .fin y ∧
      fm.notFinite (twoSum fm z a b).1 = false ∧
      (twoSum fm z a b).2.2 &&& flagEI = 0) ∧
    (∃ fm, fm ∈ [fp32, fp16, bf16] ∧
      ∃ (z : Bool) (a : Nat) (b : Nat) (x : Dy) (y : Dy), fm.val a = .fin x ∧
      fm.val b = .fin y ∧
      fm.notFinite (twoProd fm z a b).1 = false ∧
      (twoProd fm z a b).2.2 &&& flagEI = 0) ∧
    (∃ fm, fm ∈ [fp32, fp16, bf16] ∧
      ∃ (z : Bool) (a : Nat) (b : Nat) (c : Nat) (x : Dy) (y : Dy) (w : Dy) (p : Nat) (e1 : Nat) (e2 : Nat) (fl : FFlags), fm.val a = .fin x ∧
      fm.val b = .fin y ∧
      fm.val c = .fin w ∧
      errFma fm z a b c = ([p, e1, e2], fl) ∧
      fm.notFinite p = false ∧
      fl &&& flagEI = 0) ∧
    (∃ fm, fm ∈ [fp32, fp16, bf16] ∧
      ∃ (z : Bool) (op : XOp) (n : Nat) (a : List Nat) (b : List Nat) (c : List Nat), (∀ v ∈ a ++ b ++ c, fm.notFinite v = false) ∧
      (op.apply fm z n a b c).2 &&& flagNX = 0) :=
  ⟨(fun e he => ⟨at_ group,
    0,
    group,
    split,
    { vd := 4, va := 8, vb := 12, st := 0, px := none },
    mkReady part rfl rfl rfl rfl ⟨rfl, rfl, rfl, rfl⟩ rfl (by decide) rfl (by decide),
    rfl,
    by unfold Group.HasGroups; decide,
    by decide,
    by decide,
    by decide,
    by decide,
    (fun _ _ _ => BitVec.and_zero)⟩),
  ⟨at_ group,
    0,
    group,
    split,
    { vd := 4, va := 8, vb := 12, st := 0, px := none },
    mkReady part rfl rfl rfl rfl ⟨rfl, rfl, rfl, rfl⟩ rfl (by decide) rfl (by decide),
    rfl,
    by unfold Group.HasGroups; decide,
    by unfold Group.HasS; decide,
    by decide,
    by decide,
    by decide,
    (fun _ _ _ => BitVec.and_zero)⟩,
  ⟨fp32,
    by decide,
    false,
    0x3F800000,
    0x3F800000,
    _,
    _,
    rfl,
    rfl⟩,
  ⟨fp32,
    by decide,
    false,
    0x3F800000,
    0x3F800000,
    _,
    _,
    rfl,
    rfl,
    by decide,
    by decide⟩,
  ⟨fp32,
    by decide,
    false,
    0x3F800000,
    0x3F800000,
    _,
    _,
    rfl,
    rfl,
    by decide,
    by decide⟩,
  ⟨fp32,
    by decide,
    false,
    0x3F800000,
    0x3F800000,
    0x3F800000,
    _,
    _,
    _,
    _,
    _,
    _,
    _,
    rfl,
    rfl,
    rfl,
    rfl,
    by decide,
    by decide⟩,
  ⟨fp32,
    by decide,
    false,
    .add,
    2,
    [0x3F800000, 0],
    [0x3F800000, 0],
    [],
    by decide,
    by decide⟩⟩

/-- Expansions. -/
theorem wit_expansions :
    (∃ e, e ∈ expansionOps ∧
      ∃ (s : State) (gid : Nat) (g : Group) (p : Split) (f : V3) (n : Nat), Ready s gid g p ∧
      g.role = .vector ∧
      pxRnd f.px < 2 ∧
      g.xwBad f.px = false ∧
      g.effXw f.px = n ∧
      pxKind f.px = 0 ∧
      arithType (g.effType f.px) = true ∧
      g.HasGroups [(f.vd.toNat, n), (f.va.toNat, n), (f.vb.toNat, if e.2.2 then 1 else n)] ∧
      (g.NoFpTrap p (aluMask f.px) (fun i => (g.elemWords f.px (fun j => e.2.1.apply (fmtOf (g.effType f.px)) g.mFtz n (g.expansion f.px f.va.toNat n i j) (g.expansion f.px f.vb.toNat (if e.2.2 then 1 else n) i j) [])).2))) ∧
    (∃ (s : State) (gid : Nat) (g : Group) (p : Split) (f : V3) (n : Nat), Ready s gid g p ∧
      g.role = .vector ∧
      pxRnd f.px < 2 ∧
      g.xwBad f.px = false ∧
      g.effXw f.px = n ∧
      (pxKind f.px = 0 ∨ pxKind f.px = 1) ∧
      arithType (g.effType f.px) = true ∧
      g.HasGroups ([(f.vd.toNat, n), (f.va.toNat, n), (f.vb.toNat, 1)] ++ if pxKind f.px = 1 then [(pxOp4 f.px, n)] else []) ∧
      (g.NoFpTrap p (aluMask f.px) (fun i => (g.elemWords f.px (fun j => XOp.fmaw.apply (fmtOf (g.effType f.px)) g.mFtz n (g.expansion f.px f.va.toNat n i j) (g.expansion f.px f.vb.toNat 1 i j) (g.expansion f.px (if pxKind f.px = 0 then f.vd.toNat else pxOp4 f.px) n i j))).2))) ∧
    (∀ e ∈ expansionUnOps, ∃ (s : State) (gid : Nat) (g : Group) (p : Split) (f : V3Un) (n : Nat), Ready s gid g p ∧
      g.role = .vector ∧
      pxRnd f.px < 2 ∧
      g.xwBad f.px = false ∧
      g.effXw f.px = n ∧
      pxKind f.px = 0 ∧
      arithType (g.effType f.px) = true ∧
      g.HasGroups [(f.vd.toNat, n), (f.va.toNat, n)] ∧
      (g.NoFpTrap p (aluMask f.px) (fun i => (g.elemWords f.px (fun j => e.2.apply (fmtOf (g.effType f.px)) g.mFtz n (g.expansion f.px f.va.toNat n i j) [] [])).2))) ∧
    (∃ (s : State) (gid : Nat) (g : Group) (p : Split) (f : V3Un) (n : Nat), Ready s gid g p ∧
      g.role = .vector ∧
      pxRnd f.px < 2 ∧
      g.xwBad f.px = false ∧
      g.effXw f.px = n ∧
      pxKind f.px = 0 ∧
      arithType (g.effType f.px) = true ∧
      g.HasGroups [(f.vd.toNat, n), (f.va.toNat, n)]) ∧
    (∃ (s : State) (gid : Nat) (g : Group) (p : Split) (f : V3Cmp) (n : Nat) (t : Nat → Bool × FFlags), Ready s gid g p ∧
      g.role = .vector ∧
      pxRnd f.px < 2 ∧
      g.xwBad f.px = false ∧
      g.effXw f.px = n ∧
      pxKind f.px = 0 ∧
      arithType (g.effType f.px) = true ∧
      g.HasGroups [(f.va.toNat, n), (f.vb.toNat, n)] ∧
      (∀ i, t i = (List.range (32 / (fmtOf (g.effType f.px)).w)).foldl (fun a j =>
      let r := cmpWords (fmtOf (g.effType f.px)) f.cond (g.expansion f.px f.va.toNat n i j) (g.expansion f.px f.vb.toNat n i j)
      (a.1 && r.1, a.2 ||| r.2)) (true, 0)) ∧
      (g.NoFpTrap p (aluMask f.px) (fun i => (t i).2))) ∧
    (∃ (s : State) (gid : Nat) (g : Group) (p : Split) (f : V3Un) (n : Nat), Ready s gid g p ∧
      g.role = .vector ∧
      pxRnd f.px < 2 ∧
      g.xwBad f.px = false ∧
      g.effXw f.px = n ∧
      pxKind f.px = 0 ∧
      dotType (g.effType f.px) = true ∧
      g.HasGroups [(f.vd.toNat, n), (f.va.toNat, 2)] ∧
      (g.NoFpTrap p (aluMask f.px) (fun i => (g.elemWords f.px (fun j => splitWords (fmtOf (g.effType f.px)) g.mFtz n (ovEntry g.ovtab (fmtOf (g.effType f.px))) (fp32.daz g.mDaz (g.vreg (f.va.toNat + j) i).toNat))).2))) ∧
    (∃ (s : State) (gid : Nat) (g : Group) (p : Split) (f : V3Un) (n : Nat), Ready s gid g p ∧
      g.role = .vector ∧
      g.xwBad f.px = false ∧
      g.effXw f.px = n ∧
      (pxRnd f.px = 6 ↔ pxKind f.px ≠ 0) ∧
      g.rndBad f.px = false ∧
      arithType (g.effType f.px) = true ∧
      g.HasGroups ([(f.vd.toNat, 1), (f.va.toNat, n)] ++ (fourthV f.px 1).map (·, 1)) ∧
      g.HasS (fourthS f.px) ∧
      (g.NoFpTrap p (aluMask f.px) (fun i => (g.elemWords f.px (fun j => let r := roundWords (fmtOf (g.effType f.px)) (fmtOf (g.effType f.px)) (g.elemRnd f.px i j) g.mFtz (g.expansion f.px f.va.toNat n i j); ([r.code], r.flags))).2))) ∧
    (∃ (s : State) (gid : Nat) (g : Group) (p : Split) (f : V3Un) (n : Nat), Ready s gid g p ∧
      g.role = .vector ∧
      g.xwBad f.px = false ∧
      g.effXw f.px = n ∧
      (pxRnd f.px = 6 ↔ pxKind f.px ≠ 0) ∧
      g.rndBad f.px = false ∧
      dotType (g.effType f.px) = true ∧
      g.HasGroups ([(f.vd.toNat, 2), (f.va.toNat, n)] ++ (fourthV f.px 1).map (·, 1)) ∧
      g.HasS (fourthS f.px) ∧
      (g.NoFpTrap p (aluMask f.px) (fun i => (g.roundedF32 f.px f.va.toNat i).2))) :=
  ⟨⟨expansionOps[0],
    List.getElem_mem _,
    at_ group,
    0,
    group,
    split,
    { vd := 4, va := 8, vb := 12, st := 0, px := none },
    2,
    mkReady part rfl rfl rfl rfl ⟨rfl, rfl, rfl, rfl⟩ rfl (by decide) rfl (by decide),
    rfl,
    by decide,
    by decide,
    rfl,
    by decide,
    by decide,
    by unfold Group.HasGroups; decide,
    (fun _ _ _ => BitVec.and_zero)⟩,
  ⟨at_ group,
    0,
    group,
    split,
    { vd := 4, va := 8, vb := 12, st := 0, px := none },
    2,
    mkReady part rfl rfl rfl rfl ⟨rfl, rfl, rfl, rfl⟩ rfl (by decide) rfl (by decide),
    rfl,
    by decide,
    by decide,
    rfl,
    .inl rfl,
    by decide,
    by unfold Group.HasGroups; decide,
    (fun _ _ _ => BitVec.and_zero)⟩,
  (fun e he => ⟨at_ group,
    0,
    group,
    split,
    { vd := 4, va := 8, st := 0, px := none },
    2,
    mkReady part rfl rfl rfl rfl ⟨rfl, rfl, rfl, rfl⟩ rfl (by decide) rfl (by decide),
    rfl,
    by decide,
    by decide,
    rfl,
    by decide,
    by decide,
    by unfold Group.HasGroups; decide,
    (fun _ _ _ => BitVec.and_zero)⟩),
  ⟨at_ group,
    0,
    group,
    split,
    { vd := 4, va := 8, st := 0, px := none },
    2,
    mkReady part rfl rfl rfl rfl ⟨rfl, rfl, rfl, rfl⟩ rfl (by decide) rfl (by decide),
    rfl,
    by decide,
    by decide,
    rfl,
    by decide,
    by decide,
    by unfold Group.HasGroups; decide⟩,
  ⟨at_ group,
    0,
    group,
    split,
    { cond := .lt, pd := 0, va := 8, vb := 12, st := 0, px := none },
    2,
    _,
    mkReady part rfl rfl rfl rfl ⟨rfl, rfl, rfl, rfl⟩ rfl (by decide) rfl (by decide),
    rfl,
    by decide,
    by decide,
    rfl,
    by decide,
    by decide,
    by unfold Group.HasGroups; decide,
    (fun _ => rfl),
    (fun _ _ _ => BitVec.and_zero)⟩,
  ⟨at_ half,
    0,
    half,
    split,
    { vd := 4, va := 8, st := 0, px := none },
    2,
    mkReady part rfl rfl rfl rfl ⟨rfl, rfl, rfl, rfl⟩ rfl (by decide) rfl (by decide),
    rfl,
    by decide,
    by decide,
    rfl,
    by decide,
    by decide,
    by unfold Group.HasGroups; decide,
    (fun _ _ _ => BitVec.and_zero)⟩,
  ⟨at_ group,
    0,
    group,
    split,
    { vd := 4, va := 8, st := 0, px := none },
    2,
    mkReady part rfl rfl rfl rfl ⟨rfl, rfl, rfl, rfl⟩ rfl (by decide) rfl (by decide),
    rfl,
    by decide,
    rfl,
    by decide,
    by decide,
    by decide,
    by unfold Group.HasGroups; decide,
    by unfold Group.HasS; decide,
    (fun _ _ _ => BitVec.and_zero)⟩,
  ⟨at_ half,
    0,
    half,
    split,
    { vd := 4, va := 8, st := 0, px := none },
    2,
    mkReady part rfl rfl rfl rfl ⟨rfl, rfl, rfl, rfl⟩ rfl (by decide) rfl (by decide),
    rfl,
    by decide,
    rfl,
    by decide,
    by decide,
    by decide,
    by unfold Group.HasGroups; decide,
    by unfold Group.HasS; decide,
    (fun _ _ _ => BitVec.and_zero)⟩⟩

/-- Conversions. -/
theorem wit_conversions :
    (∃ (s : State) (gid : Nat) (g : Group) (p : Split) (f : Cvt) (na : Nat) (nd : Nat), Ready s gid g p ∧
      g.role = .vector ∧
      isFloatCode (g.effType f.px) = true ∧
      na = spread f.dty.toNat (g.effType f.px) ∧
      nd = spread (g.effType f.px) f.dty.toNat ∧
      f.va.toNat % na = 0 ∧
      f.vd.toNat % nd = 0 ∧
      f.vd.toNat + nd ≤ g.vAlloc ∧
      f.va.toNat + na ≤ g.vAlloc ∧
      g.HasV (fourthV f.px 1) ∧
      g.HasS (fourthS f.px) ∧
      g.Rounds f.px ∧
      (g.NoFpTrap p (aluMask f.px) (fun i => (g.converted f.px f.va.toNat f.dty.toNat (fun r c => ((fmtOf f.dty.toNat).narrow r g.mFtz (ovEntry g.ovtab (fmtOf f.dty.toNat)) 0 (g.widenElem f.px c)).pair) i).2))) ∧
    (∃ (s : State) (gid : Nat) (g : Group) (p : Split) (f : Cvt) (na : Nat) (nd : Nat), Ready s gid g p ∧
      g.role = .vector ∧
      isFloatCode (g.effType f.px) = true ∧
      na = spread f.dty.toNat (g.effType f.px) ∧
      nd = spread (g.effType f.px) f.dty.toNat ∧
      f.va.toNat % na = 0 ∧
      f.vd.toNat % nd = 0 ∧
      f.vd.toNat + nd ≤ g.vAlloc ∧
      f.va.toNat + na ≤ g.vAlloc ∧
      g.HasV (fourthV f.px 1) ∧
      g.HasS (fourthS f.px) ∧
      g.Rounds f.px ∧
      (g.NoFpTrap p (aluMask f.px) (fun i => (g.converted f.px f.va.toNat f.dty.toNat (fun r c => ((toIntSat (elemWidth f.dty.toNat) (unsignedType f.dty.toNat) r (g.widenElem f.px c)).1.toNat, (toIntSat (elemWidth f.dty.toNat) (unsignedType f.dty.toNat) r (g.widenElem f.px c)).2)) i).2))) ∧
    (∃ (s : State) (gid : Nat) (g : Group) (p : Split) (f : Cvt) (na : Nat) (nd : Nat), Ready s gid g p ∧
      g.role = .vector ∧
      isIntCode (g.effType f.px) = true ∧
      na = spread f.dty.toNat (g.effType f.px) ∧
      nd = spread (g.effType f.px) f.dty.toNat ∧
      f.va.toNat % na = 0 ∧
      f.vd.toNat % nd = 0 ∧
      f.vd.toNat + nd ≤ g.vAlloc ∧
      f.va.toNat + na ≤ g.vAlloc ∧
      g.HasV (fourthV f.px 1) ∧
      g.HasS (fourthS f.px) ∧
      g.Rounds f.px ∧
      (g.NoFpTrap p (aluMask f.px) (fun i => (g.converted f.px f.va.toNat f.dty.toNat (fun r c => let x := intDy (elVal (elemWidth (g.effType f.px)) (unsignedType (g.effType f.px)) (BitVec.ofNat _ c)); ((fmtOf f.dty.toNat).deliver r g.mFtz (if (fmtOf f.dty.toNat).w = 32 then (fmtOf f.dty.toNat).overflowMag r x.neg else (fmtOf f.dty.toNat).tableMag (ovEntry g.ovtab (fmtOf f.dty.toNat))) x).pair) i).2))) ∧
    (∃ (s : State) (gid : Nat) (g : Group) (p : Split) (f : Sclx) (na : Nat) (nd : Nat), Ready s gid g p ∧
      g.role = .vector ∧
      isFloatCode (g.effType f.px) = true ∧
      na = spread f.dty.toNat (g.effType f.px) ∧
      nd = spread (g.effType f.px) f.dty.toNat ∧
      f.va.toNat % na = 0 ∧
      f.vd.toNat % nd = 0 ∧
      f.vd.toNat + nd ≤ g.vAlloc ∧
      f.va.toNat + na ≤ g.vAlloc ∧
      g.HasV (fourthV f.px 1) ∧
      g.HasS (fourthS f.px) ∧
      pxXw f.px = 0 ∧
      pxRnd f.px ≠ 6 ∧
      g.rndBad f.px = false ∧
      (g.NoFpTrap p (aluMask f.px) (fun i => (g.converted f.px f.va.toNat f.dty.toNat (fun r c => let sc := (g.randWord f.px i).toNat % 256; let x := g.widenElem f.px c; if sc = 255 then ((fmtOf f.dty.toNat).code (fp32.neg x) (fmtOf f.dty.toNat).nan, flagIV) else ((fmtOf f.dty.toNat).narrow r g.mFtz (ovEntry g.ovtab (fmtOf f.dty.toNat)) (if f.dir then 127 - (sc : Int) else (sc : Int) - 127) x).pair) i).2))) ∧
    (∃ (s : State) (gid : Nat) (g : Group) (p : Split) (f : Bfp) (r : Nat → (Nat × Int) × FFlags), Ready s gid g p ∧
      g.role = .vector ∧
      g.HasV ([f.vd.toNat, f.va.toNat] ++ fourthV f.px 1) ∧
      g.HasS (fourthS f.px) ∧
      g.effType f.px = 7 ∧
      g.Rounds f.px ∧
      g.width ∈ [16, 32, 64] ∧
      (∀ i, r i = let b := (bfpBlock f.k.toNat (bits g.ovtab.toNat 8 2)
        (fun j => rndOf (g.effRnd f.px) (g.randWord f.px (i / 16 * 16 + j)).toNat 32)
        ((List.range 16).map fun j => if inMask (g.activeMask p.mask (aluMask f.px)) (i / 16 * 16 + j) then
          fp32.daz g.mDaz (g.vreg f.va.toNat (i / 16 * 16 + j)).toNat else 0))
      ((b.1, (b.2.getD (i % 16) (0, 0)).1), (b.2.getD (i % 16) (0, 0)).2)) ∧
      (g.NoFpTrap p (aluMask f.px) (fun i => (r i).2))) ∧
    (∃ (s : State) (gid : Nat) (g : Group) (p : Split) (f : Bfp), Ready s gid g p ∧
      g.role = .vector ∧
      g.HasV [f.vd.toNat, f.va.toNat] ∧
      NoRounding f.px ∧
      pxType f.px = 0 ∧
      (g.NoFpTrap p (aluMask f.px) (fun i => (bfpElem f.k.toNat g.mFtz (g.vreg f.va.toNat i)).flags))) ∧
    (∃ (s : State) (gid : Nat) (g : Group) (p : Split) (f : Unpk), Ready s gid g p ∧
      g.role = .vector ∧
      NoRounding f.px ∧
      pxType f.px = 0 ∧
      f.w.toNat ∈ [1, 2, 4] ∧
      f.vd.toNat + 8 / f.w.toNat ≤ g.vAlloc ∧
      f.va.toNat < g.vAlloc) :=
  ⟨⟨at_ group,
    0,
    group,
    split,
    { vd := 4, va := 8, dty := 8, st := 0, px := none },
    _,
    _,
    mkReady part rfl rfl rfl rfl ⟨rfl, rfl, rfl, rfl⟩ rfl (by decide) rfl (by decide),
    rfl,
    by decide,
    rfl,
    rfl,
    by decide,
    by decide,
    by decide,
    by decide,
    by unfold Group.HasV; decide,
    by unfold Group.HasS; decide,
    by unfold Group.Rounds; decide,
    (fun _ _ _ => BitVec.and_zero)⟩,
  ⟨at_ group,
    0,
    group,
    split,
    { vd := 4, va := 8, dty := 3, st := 0, px := none },
    _,
    _,
    mkReady part rfl rfl rfl rfl ⟨rfl, rfl, rfl, rfl⟩ rfl (by decide) rfl (by decide),
    rfl,
    by decide,
    rfl,
    rfl,
    by decide,
    by decide,
    by decide,
    by decide,
    by unfold Group.HasV; decide,
    by unfold Group.HasS; decide,
    by unfold Group.Rounds; decide,
    (fun _ _ _ => BitVec.and_zero)⟩,
  ⟨at_ ints,
    0,
    ints,
    split,
    { vd := 4, va := 8, dty := 8, st := 0, px := none },
    _,
    _,
    mkReady part rfl rfl rfl rfl ⟨rfl, rfl, rfl, rfl⟩ rfl (by decide) rfl (by decide),
    rfl,
    by decide,
    rfl,
    rfl,
    by decide,
    by decide,
    by decide,
    by decide,
    by unfold Group.HasV; decide,
    by unfold Group.HasS; decide,
    by unfold Group.Rounds; decide,
    (fun _ _ _ => BitVec.and_zero)⟩,
  ⟨at_ group,
    0,
    group,
    split,
    { vd := 4, va := 8, dty := 10, dir := false, st := 0, px := some { mask := 7, inv := true, zero := false, rnd := 0, ty := 0, kind4 := 2, op4 := 5, xw := 0 } },
    _,
    _,
    mkReady part rfl rfl rfl rfl ⟨rfl, rfl, rfl, rfl⟩ rfl (by decide) rfl (by decide),
    rfl,
    by decide,
    rfl,
    rfl,
    by decide,
    by decide,
    by decide,
    by decide,
    by unfold Group.HasV; decide,
    by unfold Group.HasS; decide,
    by decide,
    by decide,
    by decide,
    (fun _ _ _ => BitVec.and_zero)⟩,
  ⟨at_ wide,
    0,
    wide,
    { split with mask := 0xFFFF },
    { vd := 4, va := 8, k := 8, st := 0, px := none },
    _,
    mkReady part rfl rfl rfl rfl ⟨rfl, rfl, rfl, rfl⟩ rfl (by decide) rfl (by decide),
    rfl,
    by unfold Group.HasV; decide,
    by unfold Group.HasS; decide,
    rfl,
    by unfold Group.Rounds; decide,
    by decide,
    (fun _ => rfl),
    (fun _ _ _ => BitVec.and_zero)⟩,
  ⟨at_ group,
    0,
    group,
    split,
    { vd := 4, va := 8, k := 8, st := 0, px := none },
    mkReady part rfl rfl rfl rfl ⟨rfl, rfl, rfl, rfl⟩ rfl (by decide) rfl (by decide),
    rfl,
    by unfold Group.HasV; decide,
    by unfold NoRounding; decide,
    by decide,
    (fun _ _ _ => BitVec.and_zero)⟩,
  ⟨at_ group,
    0,
    group,
    split,
    { vd := 4, va := 8, w := 4, sx := false, st := 0, px := none },
    mkReady part rfl rfl rfl rfl ⟨rfl, rfl, rfl, rfl⟩ rfl (by decide) rfl (by decide),
    rfl,
    by unfold NoRounding; decide,
    by decide,
    by decide,
    by decide,
    by decide⟩⟩

/-- SpecialFunctions. -/
theorem wit_specialFunctions_1 :
    (∀ e ∈ sfuOps, ∃ (s : State) (gid : Nat) (g : Group) (p : Split) (f : Sfu), Ready s gid g p ∧
      g.role = .vector ∧
      g.HasV [f.vd.toNat, f.va.toNat] ∧
      NoRounding f.px ∧
      arithType (g.effType f.px) = true ∧
      g.mFpxe = 0 ∧
      g.cnt.c2 < 255) ∧
    (∀ e ∈ sfuOps, ∃ (s : State) (gid : Nat) (g : Group) (p : Split) (f : Sfu) (x : Nat → Word × FFlags), Ready s gid g p ∧
      g.role = .vector ∧
      g.HasV [f.vd.toNat, f.va.toNat] ∧
      NoRounding f.px ∧
      arithType (g.effType f.px) = true ∧
      g.mFpxe ≠ 0 ∧
      g.cnt.c2 < 255 ∧
      (∀ i, x i = g.sfuWord f.px e.2 (g.vreg f.va.toNat i))) ∧
    (∃ (fn : SfuFn) (z : Bool) (c : Nat), c < 2 ^ 32 ∧
      fp32.isNan c = true) ∧
    (∃ (fn : SfuFn) (z : Bool), ∃ fm, fm ∈ [fp16, bf16] ∧
      ∃ (c : Nat), c < 2 ^ 16 ∧
      fm.isNan c = false) ∧
    (∀ fn ∈ [SfuFn.rsqrt, .sqrt, .log2], ∃ (c : Nat) (d : Dy) (z : Bool), c < 2 ^ 32 ∧
      fp32.val c = .fin d ∧
      d.m ≠ 0 ∧
      d.neg = true) ∧
    (∃ (fn : SfuFn) (c : Nat) (d : Dy) (e : Int) (q : ℚ), c < 2 ^ 32 ∧
      fp32.val c = .fin d ∧
      d.m ≠ 0 ∧
      (2 : ℚ) ^ e ≤ |d.value| ∧
      |d.value| < (2 : ℚ) ^ (e + 1) ∧
      rebuilt fn d.value e = some q ∧
      q ≠ 0) ∧
    (∃ (g : GFun) (u : Nat), u < 2 ^ 23 ∧
      u ≠ 0) ∧
    (∀ g ∈ [GFun.rcp, .rsqrt false, .rsqrt true, .sqrt false, .sqrt true], ∃ (i : Nat), i < 256) :=
  ⟨(fun e he => ⟨at_ group,
    0,
    group,
    split,
    { vd := 4, va := 8, st := 0, px := none },
    mkReady part rfl rfl rfl rfl ⟨rfl, rfl, rfl, rfl⟩ rfl (by decide) rfl (by decide),
    rfl,
    by unfold Group.HasV; decide,
    by unfold NoRounding; decide,
    by decide,
    by decide,
    by decide⟩),
  (fun e he => ⟨at_ { group with mode := group.mode ||| 0x1F00000 },
    0,
    { group with mode := group.mode ||| 0x1F00000 },
    split,
    { vd := 4, va := 8, st := 0, px := none },
    _,
    mkReady part rfl rfl rfl rfl ⟨rfl, rfl, rfl, rfl⟩ rfl (by decide) rfl (by decide),
    rfl,
    by unfold Group.HasV; decide,
    by unfold NoRounding; decide,
    by decide,
    by decide,
    by decide,
    (fun _ => rfl)⟩),
  ⟨.rcp,
    false,
    0x7F800001,
    by decide,
    by decide⟩,
  ⟨.rcp,
    false,
    fp16,
    by decide,
    0,
    by decide,
    by decide⟩,
  (fun fn hfn => ⟨0xC1800000,
    _,
    false,
    by decide,
    rfl,
    by decide,
    by decide⟩),
  ⟨.tanh,
    0x41800000,
    { neg := false, m := 0x800000, e := -19 },
    4,
    1,
    by decide,
    by decide,
    by decide,
    by norm_num [Dy.value],
    by norm_num [Dy.value],
    by norm_num [Dy.value, rebuilt],
    one_ne_zero⟩,
  ⟨.rcp,
    1,
    by decide,
    by decide⟩,
  (fun g hg => ⟨255,
    by decide⟩)⟩

/-- SpecialFunctions. -/
theorem wit_specialFunctions_2 : ∃ (c : Nat) (d : Nat) (t : Nat) (h : Nat) (l : Nat) (q : Nat) (x : Dy) (mul : Nat → Nat → Nat) (add : Nat → Nat → Nat), c < 2 ^ 32 ∧
      fp32.val c = .fin x ∧
      x.m ≠ 0 ∧
      (∀ a b, mul a b = (opFmul fp32 .rne false a b 0).code) ∧
      (∀ a b, add a b = (opFadd fp32 .rne false a b 0).code) ∧
      d = mul c 0x3FB8AA3B ∧
      t = (opFfma fp32 .rne false c (mul (mul c c) 0x3D372713) c).code ∧
      h = mul c 0x3F000000 ∧
      l = SfuFn.exp2.f32 d ∧
      q = SfuFn.exp2.f32 (mul (fp32.negate c) 0x3FB8AA3B) :=
  ⟨0x3F800000,
    _,
    _,
    _,
    _,
    _,
    _,
    _,
    _,
    by decide,
    rfl,
    by decide,
    (fun _ _ => rfl),
    (fun _ _ => rfl),
    rfl,
    rfl,
    rfl,
    rfl,
    rfl⟩

/-- UniformFloat. -/
theorem wit_uniformFloat :
    (∀ e ∈ uniformFloatOps, ∃ (s : State) (gid : Nat) (g : Group) (p : Split) (f : S3) (r : FRes), Ready s gid g p ∧
      g.HasS (f.sd.toNat :: f.sa.toNat :: ssrcNamed f.src) ∧
      g.rndBad none = false ∧
      r = e.2 fp32 (rndOf g.mRnd 0 32) g.mFtz (fp32.daz g.mDaz (g.sreg f.sa.toNat).toNat) (fp32.daz g.mDaz (g.floatImm f.src))
      (fp32.daz g.mDaz (g.sreg f.sd.toNat).toNat) ∧
      r.flags &&& BitVec.ofNat 7 g.mFpxe = 0) ∧
    (∃ (s : State) (gid : Nat) (g : Group) (p : Split) (f : SCvt) (r : Nat × FFlags), Ready s gid g p ∧
      g.HasS [f.sd.toNat, f.sa.toNat] ∧
      (f.kind ∉ [5, 7] → g.rndBad none = false) ∧
      r = sfcvtRes f.kind.toNat (rndOf g.mRnd 0 32) g.mDaz g.mFtz g.ovtab (g.sreg f.sa.toNat) ∧
      r.2 &&& BitVec.ofNat 7 g.mFpxe = 0) ∧
    (∃ (s : State) (gid : Nat) (g : Group) (p : Split) (f : SCmp) (a : Nat) (b : Nat), Ready s gid g p ∧
      g.HasS (f.sa.toNat :: ssrcNamed f.src) ∧
      a = fp32.daz g.mDaz (g.sreg f.sa.toNat).toNat ∧
      b = fp32.daz g.mDaz (g.floatImm f.src) ∧
      cmpFlags fp32 false a b &&& BitVec.ofNat 7 g.mFpxe = 0) :=
  ⟨(fun e he => ⟨at_ group,
    0,
    group,
    split,
    { sd := 4, sa := 8, src := .r 12, st := 0 },
    _,
    mkReady part rfl rfl rfl rfl ⟨rfl, rfl, rfl, rfl⟩ rfl (by decide) rfl (by decide),
    by unfold Group.HasS; decide,
    by decide,
    rfl,
    BitVec.and_zero⟩),
  ⟨at_ group,
    0,
    group,
    split,
    { sd := 4, sa := 8, kind := 0, st := 0 },
    _,
    mkReady part rfl rfl rfl rfl ⟨rfl, rfl, rfl, rfl⟩ rfl (by decide) rfl (by decide),
    by unfold Group.HasS; decide,
    by decide,
    rfl,
    BitVec.and_zero⟩,
  ⟨at_ group,
    0,
    group,
    split,
    { sa := 8, src := .r 12, st := 0 },
    _,
    _,
    mkReady part rfl rfl rfl rfl ⟨rfl, rfl, rfl, rfl⟩ rfl (by decide) rfl (by decide),
    by unfold Group.HasS; decide,
    rfl,
    rfl,
    BitVec.and_zero⟩⟩

/-- LaneMoves. -/
theorem wit_laneMoves_1 :
    (∃ (s : State) (gid : Nat) (g : Group) (p : Split) (f : Shfl), Ready s gid g p ∧
      g.width ∈ [8, 16, 32, 64] ∧
      g.HasV ([f.vd.toNat, f.va.toNat] ++ fourthV f.px 1) ∧
      g.HasS (fourthS f.px) ∧
      pxXw f.px = 0 ∧
      pxType f.px = 0 ∧
      pxRnd f.px = 0 ∧
      (if f.mode = 3 then pxKind f.px ≠ 0 else pxKind f.px = 0)) ∧
    (∃ (s : State) (gid : Nat) (g : Group) (p : Split) (f : Bcast), Ready s gid g p ∧
      g.HasV [f.vd.toNat, f.va.toNat] ∧
      g.HasS (fourthS f.px) ∧
      pxXw f.px = 0 ∧
      pxType f.px = 0 ∧
      pxRnd f.px = 0 ∧
      (pxKind f.px ≠ 1)) ∧
    (∃ (s : State) (gid : Nat) (g : Group) (p : Split) (f : Rdlane), Ready s gid g p ∧
      g.HasV [f.va.toNat] ∧
      g.HasS (f.sd.toNat :: fourthS f.px) ∧
      pxXw f.px = 0 ∧
      pxType f.px = 0 ∧
      pxRnd f.px = 0 ∧
      (pxKind f.px ≠ 1)) ∧
    (∃ (s : State) (gid : Nat) (g : Group) (p : Split) (f : Perm), Ready s gid g p ∧
      g.HasV [f.vd.toNat, f.va.toNat, pxOp4 f.px] ∧
      pxXw f.px = 0 ∧
      pxType f.px = 0 ∧
      pxRnd f.px = 0 ∧
      pxKind f.px = 1) ∧
    (∃ (s : State) (gid : Nat) (g : Group) (p : Split) (f : Vote) (r : Bool), Ready s gid g p ∧
      pxXw f.px = 0 ∧
      pxType f.px = 0 ∧
      pxRnd f.px = 0 ∧
      pxKind f.px = 0 ∧
      (f.mode = 0 ∧ (r = true ↔ ∃ i < 64, inMask (g.activeMask p.mask (aluMask f.px)) i = true ∧ inMask (g.pred f.fa.toNat) i = true) ∨
     f.mode = 1 ∧ (r = true ↔ ∀ i < 64, inMask (g.activeMask p.mask (aluMask f.px)) i = true → inMask (g.pred f.fa.toNat) i = true) ∨
     f.mode = 2 ∧ g.HasV [f.fa.toNat] ∧ (r = true ↔ ∀ i < 64, ∀ j < 64, inMask (g.activeMask p.mask (aluMask f.px)) i = true → inMask (g.activeMask p.mask (aluMask f.px)) j = true →
       g.vreg f.fa.toNat i = g.vreg f.fa.toNat j))) ∧
    (∃ (s : State) (gid : Nat) (g : Group) (p : Split) (f : Vote), Ready s gid g p ∧
      pxXw f.px = 0 ∧
      pxType f.px = 0 ∧
      pxRnd f.px = 0 ∧
      pxKind f.px = 0 ∧
      f.mode = 3 ∧
      g.HasS [f.fd.toNat, f.fd.toNat + 1]) ∧
    (∃ (s : State) (gid : Nat) (g : Group) (p : Split) (f : LanesF) (v : Nat → Nat), Ready s gid g p ∧
      pxXw f.px = 0 ∧
      pxType f.px = 0 ∧
      pxRnd f.px = 0 ∧
      pxKind f.px = 0 ∧
      g.HasV [f.vd.toNat] ∧
      (f.kind = 0 ∧ (∀ i, v i = i) ∨
     f.kind = 1 ∧ (∀ i, v i = (List.range 64).countP fun j => inMask (g.activeMask p.mask (aluMask f.px)) j && decide (j < i)) ∨
     f.kind = 2 ∧ (∀ i, v i = (List.range 64).countP fun j => inMask (g.activeMask p.mask (aluMask f.px)) j) ∨
     f.kind = 3 ∧ (∀ i, v i = (((List.range 64).find? fun j => inMask (g.activeMask p.mask (aluMask f.px)) j).getD 0)))) ∧
    (∃ (s : State) (gid : Nat) (g : Group) (p : Split) (f : Pop) (a : Nat → Bool) (b : Nat → Bool), Ready s gid g p ∧
      pxXw f.px = 0 ∧
      pxType f.px = 0 ∧
      pxRnd f.px = 0 ∧
      pxKind f.px = 0 ∧
      (∀ i, a i = inMask (g.pred f.pa.toNat) i ∧ b i = inMask (g.pred f.pb.toNat) i)) :=
  ⟨⟨at_ group,
    0,
    group,
    split,
    { vd := 4, va := 8, mode := 3, dist := 0, st := 0, px := some { mask := 7, inv := true, zero := false, rnd := 0, ty := 0, kind4 := 1, op4 := 20, xw := 0 } },
    mkReady part rfl rfl rfl rfl ⟨rfl, rfl, rfl, rfl⟩ rfl (by decide) rfl (by decide),
    by decide,
    by unfold Group.HasV; decide,
    by unfold Group.HasS; decide,
    by decide,
    by decide,
    by decide,
    by decide⟩,
  ⟨at_ group,
    0,
    group,
    split,
    { vd := 4, va := 8, lane := 0, st := 0, px := none },
    mkReady part rfl rfl rfl rfl ⟨rfl, rfl, rfl, rfl⟩ rfl (by decide) rfl (by decide),
    by unfold Group.HasV; decide,
    by unfold Group.HasS; decide,
    by decide,
    by decide,
    by decide,
    by decide⟩,
  ⟨at_ group,
    0,
    group,
    split,
    { sd := 4, va := 8, lane := 0, st := 0, px := none },
    mkReady part rfl rfl rfl rfl ⟨rfl, rfl, rfl, rfl⟩ rfl (by decide) rfl (by decide),
    by unfold Group.HasV; decide,
    by unfold Group.HasS; decide,
    by decide,
    by decide,
    by decide,
    by decide⟩,
  ⟨at_ group,
    0,
    group,
    split,
    { vd := 4, va := 8, st := 0, px := some { mask := 7, inv := true, zero := false, rnd := 0, ty := 0, kind4 := 1, op4 := 20, xw := 0 } },
    mkReady part rfl rfl rfl rfl ⟨rfl, rfl, rfl, rfl⟩ rfl (by decide) rfl (by decide),
    by unfold Group.HasV; decide,
    by decide,
    by decide,
    by decide,
    by decide⟩,
  ⟨at_ group,
    0,
    group,
    split,
    { fd := 0, fa := 1, mode := 0, st := 0, px := none },
    false,
    mkReady part rfl rfl rfl rfl ⟨rfl, rfl, rfl, rfl⟩ rfl (by decide) rfl (by decide),
    by decide,
    by decide,
    by decide,
    by decide,
    .inl ⟨rfl, by decide⟩⟩,
  ⟨at_ group,
    0,
    group,
    split,
    { fd := 4, fa := 0, mode := 3, st := 0, px := none },
    mkReady part rfl rfl rfl rfl ⟨rfl, rfl, rfl, rfl⟩ rfl (by decide) rfl (by decide),
    by decide,
    by decide,
    by decide,
    by decide,
    by decide,
    by unfold Group.HasS; decide⟩,
  ⟨at_ group,
    0,
    group,
    split,
    { vd := 4, kind := 0, st := 0, px := none },
    id,
    mkReady part rfl rfl rfl rfl ⟨rfl, rfl, rfl, rfl⟩ rfl (by decide) rfl (by decide),
    by decide,
    by decide,
    by decide,
    by decide,
    by unfold Group.HasV; decide,
    .inl ⟨rfl, fun _ => rfl⟩⟩,
  ⟨at_ group,
    0,
    group,
    split,
    { pd := 0, pa := 1, pb := 2, fn := 0, st := 0, px := none },
    _,
    _,
    mkReady part rfl rfl rfl rfl ⟨rfl, rfl, rfl, rfl⟩ rfl (by decide) rfl (by decide),
    by decide,
    by decide,
    by decide,
    by decide,
    (fun _ => ⟨rfl, rfl⟩)⟩⟩

/-- LaneMoves. -/
theorem wit_laneMoves_2 :
    (∃ (s : State) (gid : Nat) (g : Group) (p : Split) (f : Pmov), Ready s gid g p ∧
      pxXw f.px = 0 ∧
      pxType f.px = 0 ∧
      pxRnd f.px = 0 ∧
      pxKind f.px = 0 ∧
      f.mode = 0 ∧
      g.HasV [f.fd.toNat]) ∧
    (∃ (s : State) (gid : Nat) (g : Group) (p : Split) (f : Pmov), Ready s gid g p ∧
      pxXw f.px = 0 ∧
      pxType f.px = 0 ∧
      pxRnd f.px = 0 ∧
      pxKind f.px = 0 ∧
      f.mode = 1 ∧
      g.HasV [f.fa.toNat]) ∧
    (∃ (s : State) (gid : Nat) (g : Group) (p : Split) (f : Pmov), Ready s gid g p ∧
      pxXw f.px = 0 ∧
      pxType f.px = 0 ∧
      pxRnd f.px = 0 ∧
      pxKind f.px = 0 ∧
      f.mode = 2 ∧
      g.HasS [f.fa.toNat, f.fa.toNat + 1]) :=
  ⟨⟨at_ group,
    0,
    group,
    split,
    { fd := 4, fa := 1, mode := 0, st := 0, px := none },
    mkReady part rfl rfl rfl rfl ⟨rfl, rfl, rfl, rfl⟩ rfl (by decide) rfl (by decide),
    by decide,
    by decide,
    by decide,
    by decide,
    by decide,
    by unfold Group.HasV; decide⟩,
  ⟨at_ group,
    0,
    group,
    split,
    { fd := 1, fa := 4, mode := 1, st := 0, px := none },
    mkReady part rfl rfl rfl rfl ⟨rfl, rfl, rfl, rfl⟩ rfl (by decide) rfl (by decide),
    by decide,
    by decide,
    by decide,
    by decide,
    by decide,
    by unfold Group.HasV; decide⟩,
  ⟨at_ group,
    0,
    group,
    split,
    { fd := 1, fa := 4, mode := 2, st := 0, px := none },
    mkReady part rfl rfl rfl rfl ⟨rfl, rfl, rfl, rfl⟩ rfl (by decide) rfl (by decide),
    by decide,
    by decide,
    by decide,
    by decide,
    by decide,
    by unfold Group.HasS; decide⟩⟩

/-- LaneReductions. -/
theorem wit_laneReductions :
    (∃ (s : State) (gid : Nat) (g : Group) (p : Split) (f : Lred) (m : Nat) (r : Nat → Word × FFlags), Ready s gid g p ∧
      pxXw f.px = 0 ∧
      pxKind f.px = 0 ∧
      g.typeBad f.px = false ∧
      (if f.op.toNat = 8 then pxRnd f.px ≠ 6 ∧ g.rndBad f.px = false else pxRnd f.px = 0) ∧
      (8 ≤ f.op.toNat → arithType (g.effType f.px) = true) ∧
      f.op.toNat ≤ 10 ∧
      g.HasV [f.vd.toNat, f.va.toNat] ∧
      g.width = 2 ^ m ∧
      3 ≤ m ∧
      m ≤ 6 ∧
      (∀ i, r i = (g.blockTree f.px f.op.toNat (fun j => if inMask (g.activeMask p.mask (aluMask f.px)) j then some (g.vreg f.va.toNat j, 0) else none) (m - f.seg.toNat)
      (i / 2 ^ (m - f.seg.toNat) * 2 ^ (m - f.seg.toNat))).getD (0, 0)) ∧
      (g.NoFpTrap p (aluMask f.px) (fun i => (r i).2))) ∧
    (∃ (s : State) (gid : Nat) (g : Group) (p : Split) (f : Lscan) (m : Nat) (r : Nat → Word × FFlags), Ready s gid g p ∧
      pxXw f.px = 0 ∧
      pxKind f.px = 0 ∧
      g.typeBad f.px = false ∧
      (if f.op.toNat = 8 then pxRnd f.px ≠ 6 ∧ g.rndBad f.px = false else pxRnd f.px = 0) ∧
      (8 ≤ f.op.toNat → arithType (g.effType f.px) = true) ∧
      f.op.toNat ≤ 10 ∧
      g.HasV [f.vd.toNat, f.va.toNat] ∧
      g.width = 2 ^ m ∧
      3 ≤ m ∧
      m ≤ 6 ∧
      (∀ i, r i = if f.ex then
        (match ((List.range i).filter fun j => inMask (g.activeMask p.mask (aluMask f.px)) j).getLast? with
         | some j => (g.scanned f.px f.op.toNat (fun j => if inMask (g.activeMask p.mask (aluMask f.px)) j then some (g.vreg f.va.toNat j, 0) else none) m j).getD (0, 0)
         | none => (scanIdentity f.op.toNat (g.effType f.px), 0))
      else (g.scanned f.px f.op.toNat (fun j => if inMask (g.activeMask p.mask (aluMask f.px)) j then some (g.vreg f.va.toNat j, 0) else none) m i).getD (0, 0)) ∧
      (g.NoFpTrap p (aluMask f.px) (fun i => (r i).2))) :=
  ⟨⟨at_ group,
    0,
    group,
    split,
    { vd := 4, va := 8, op := 0, seg := 0, st := 0, px := none },
    3,
    _,
    mkReady part rfl rfl rfl rfl ⟨rfl, rfl, rfl, rfl⟩ rfl (by decide) rfl (by decide),
    by decide,
    by decide,
    by decide,
    by decide,
    by decide,
    by decide,
    by unfold Group.HasV; decide,
    rfl,
    by decide,
    by decide,
    (fun _ => rfl),
    (fun _ _ _ => BitVec.and_zero)⟩,
  ⟨at_ group,
    0,
    group,
    split,
    { vd := 4, va := 8, op := 0, ex := false, st := 0, px := none },
    3,
    _,
    mkReady part rfl rfl rfl rfl ⟨rfl, rfl, rfl, rfl⟩ rfl (by decide) rfl (by decide),
    by decide,
    by decide,
    by decide,
    by decide,
    by decide,
    by decide,
    by unfold Group.HasV; decide,
    rfl,
    by decide,
    by decide,
    (fun _ => rfl),
    (fun _ _ _ => BitVec.and_zero)⟩⟩

/-- LongBranches. -/
theorem wit_longBranches : ∀ e ∈ branchOps, ∃ (s : State) (gid : Nat) (g : Group) (p : Split) (f : Br), Ready s gid g p :=
  fun e he => ⟨at_ group,
    0,
    group,
    split,
    { off := 0, st := 0 },
    mkReady part rfl rfl rfl rfl ⟨rfl, rfl, rfl, rfl⟩ rfl (by decide) rfl (by decide)⟩

/-- PredicateBranches. -/
theorem wit_predicateBranches :
    (∃ (s : State) (gid : Nat) (g : Group) (p : Split) (f : BrP) (b : Bool), Ready s gid g p ∧
      (b = true ↔ ∀ i < 64, inMask p.mask i = true → inMask (g.pred f.p.toNat) i = false)) ∧
    (∃ (s : State) (gid : Nat) (g : Group) (p : Split) (f : BrP) (b : Bool), Ready s gid g p ∧
      (b = true ↔ ∃ i < 64, inMask p.mask i = true ∧ inMask (g.pred f.p.toNat) i = true)) ∧
    (∃ (s : State) (gid : Nat) (g : Group) (p : Split) (f : BrP) (b : Bool), Ready s gid g p ∧
      (b = true ↔ ∀ i < 64, inMask p.mask i = true → inMask (g.pred f.p.toNat) i = true)) ∧
    (∃ (s : State) (gid : Nat) (g : Group) (p : Split) (f : BrP), Ready s gid g p ∧
      f.p = 7 ∧
      p.mask ≠ 0) :=
  ⟨⟨at_ group,
    0,
    group,
    split,
    { p := 1, off := 0, st := 0 },
    true,
    mkReady part rfl rfl rfl rfl ⟨rfl, rfl, rfl, rfl⟩ rfl (by decide) rfl (by decide),
    by decide⟩,
  ⟨at_ group,
    0,
    group,
    split,
    { p := 1, off := 0, st := 0 },
    false,
    mkReady part rfl rfl rfl rfl ⟨rfl, rfl, rfl, rfl⟩ rfl (by decide) rfl (by decide),
    by decide⟩,
  ⟨at_ group,
    0,
    group,
    split,
    { p := 7, off := 0, st := 0 },
    true,
    mkReady part rfl rfl rfl rfl ⟨rfl, rfl, rfl, rfl⟩ rfl (by decide) rfl (by decide),
    by decide⟩,
  ⟨at_ group,
    0,
    group,
    split,
    { p := 7, off := 0, st := 0 },
    mkReady part rfl rfl rfl rfl ⟨rfl, rfl, rfl, rfl⟩ rfl (by decide) rfl (by decide),
    by decide,
    by decide⟩⟩

/-- CallsAndJumps. -/
theorem wit_callsAndJumps :
    (∃ (s : State) (gid : Nat) (g : Group) (p : Split) (f : Br), Ready s gid g p) ∧
    (∃ (s : State) (gid : Nat) (g : Group) (p : Split) (f : Bare), Ready s gid g p ∧
      (g.sreg 62).toNat % 4 = 0) ∧
    (∃ (s : State) (gid : Nat) (g : Group) (p : Split) (f : Jmp), Ready s gid g p ∧
      g.HasS [f.sa.toNat] ∧
      (g.sreg f.sa.toNat).toNat % 4 = 0) ∧
    (∃ (s : State) (gid : Nat) (g : Group) (p : Split) (f : Jmp) (x : Part), Ready s gid g p ∧
      g.HasS [f.sa.toNat] ∧
      (g.sreg f.sa.toNat).toNat % 4 ≠ 0 ∧
      g.handler = none ∧
      s.part g.part = some x) ∧
    (∃ (s : State) (gid : Nat) (g : Group) (p : Split) (f : Bare) (x : Part), Ready s gid g p ∧
      (g.sreg 62).toNat % 4 ≠ 0 ∧
      g.handler = none ∧
      s.part g.part = some x) ∧
    (∃ (s : State) (gid : Nat) (g : Group) (p : Split) (f : Adr), Ready s gid g p ∧
      g.HasS [f.sd.toNat]) :=
  ⟨⟨at_ group,
    0,
    group,
    split,
    { off := 0, st := 0 },
    mkReady part rfl rfl rfl rfl ⟨rfl, rfl, rfl, rfl⟩ rfl (by decide) rfl (by decide)⟩,
  ⟨at_ group,
    0,
    group,
    split,
    { st := 0 },
    mkReady part rfl rfl rfl rfl ⟨rfl, rfl, rfl, rfl⟩ rfl (by decide) rfl (by decide),
    by decide⟩,
  ⟨at_ group,
    0,
    group,
    split,
    { sa := 8, st := 0 },
    mkReady part rfl rfl rfl rfl ⟨rfl, rfl, rfl, rfl⟩ rfl (by decide) rfl (by decide),
    by unfold Group.HasS; decide,
    by decide⟩,
  ⟨at_ (withS [(8, 2), (62, 2)]),
    0,
    (withS [(8, 2), (62, 2)]),
    split,
    { sa := 8, st := 0 },
    part,
    mkReady part rfl rfl rfl rfl ⟨rfl, rfl, rfl, rfl⟩ rfl (by decide) rfl (by decide),
    by unfold Group.HasS; decide,
    by decide,
    by decide,
    rfl⟩,
  ⟨at_ (withS [(8, 2), (62, 2)]),
    0,
    (withS [(8, 2), (62, 2)]),
    split,
    { st := 0 },
    part,
    mkReady part rfl rfl rfl rfl ⟨rfl, rfl, rfl, rfl⟩ rfl (by decide) rfl (by decide),
    by decide,
    by decide,
    rfl⟩,
  ⟨at_ group,
    0,
    group,
    split,
    { sd := 4, off := 0, st := 0 },
    mkReady part rfl rfl rfl rfl ⟨rfl, rfl, rfl, rfl⟩ rfl (by decide) rfl (by decide),
    by unfold Group.HasS; decide⟩⟩

/-- NopOnlyStalls. -/
theorem wit_nopOnlyStalls : ∃ (s : State) (gid : Nat) (g : Group) (p : Split) (f : Bare), Ready s gid g p :=
  ⟨at_ group,
    0,
    group,
    split,
    { st := 0 },
    mkReady part rfl rfl rfl rfl ⟨rfl, rfl, rfl, rfl⟩ rfl (by decide) rfl (by decide)⟩

/-- StatusRegisters. -/
theorem wit_statusRegisters_1 :
    (∃ (s : State) (gid : Nat) (g : Group) (p : Split) (f : Rdsr), Ready s gid g p ∧
      g.HasS [f.sd.toNat] ∧
      (g.matq = [] ∨ (f.idx ≠ 0x11 ∧ f.idx ≠ 0x1A)) ∧
      f.idx.toNat < 0x27) ∧
    (∃ (s : State) (gid : Nat) (g : Group) (p : Split) (f : Wrsr) (v : Word), Ready s gid g p ∧
      g.HasS [f.sa.toNat] ∧
      (g.matq = [] ∨ (f.idx ≠ 0x11 ∧ f.idx ≠ 0x1A)) ∧
      v = g.sreg f.sa.toNat ∧
      f.idx = 0x10) ∧
    (∃ (s : State) (gid : Nat) (g : Group) (p : Split) (f : Wrsr) (v : Word), Ready s gid g p ∧
      g.HasS [f.sa.toNat] ∧
      (g.matq = [] ∨ (f.idx ≠ 0x11 ∧ f.idx ≠ 0x1A)) ∧
      v = g.sreg f.sa.toNat ∧
      f.idx = 0x11) ∧
    (∃ (s : State) (gid : Nat) (g : Group) (p : Split) (f : Wrsr) (v : Word), Ready s gid g p ∧
      g.HasS [f.sa.toNat] ∧
      (g.matq = [] ∨ (f.idx ≠ 0x11 ∧ f.idx ≠ 0x1A)) ∧
      v = g.sreg f.sa.toNat ∧
      f.idx = 0x17) ∧
    (∃ (s : State) (gid : Nat) (g : Group) (p : Split) (f : Wrsr) (v : Word), Ready s gid g p ∧
      g.HasS [f.sa.toNat] ∧
      (g.matq = [] ∨ (f.idx ≠ 0x11 ∧ f.idx ≠ 0x1A)) ∧
      v = g.sreg f.sa.toNat ∧
      f.idx = 0x18) ∧
    (∃ (s : State) (gid : Nat) (g : Group) (p : Split) (f : Wrsr) (v : Word), Ready s gid g p ∧
      g.HasS [f.sa.toNat] ∧
      (g.matq = [] ∨ (f.idx ≠ 0x11 ∧ f.idx ≠ 0x1A)) ∧
      v = g.sreg f.sa.toNat ∧
      f.idx = 0x19) ∧
    (∃ (s : State) (gid : Nat) (g : Group) (p : Split) (f : Wrsr) (v : Word), Ready s gid g p ∧
      g.HasS [f.sa.toNat] ∧
      (g.matq = [] ∨ (f.idx ≠ 0x11 ∧ f.idx ≠ 0x1A)) ∧
      v = g.sreg f.sa.toNat ∧
      f.idx = 0x1A) ∧
    (∃ (s : State) (gid : Nat) (g : Group) (p : Split) (f : Rdsr), Ready s gid g p ∧
      g.HasS [f.sd.toNat] ∧
      g.matq ≠ [] ∧
      (f.idx = 0x11 ∨ f.idx = 0x1A)) :=
  ⟨⟨at_ group,
    0,
    group,
    split,
    { sd := 4, idx := 0x26, st := 0 },
    mkReady part rfl rfl rfl rfl ⟨rfl, rfl, rfl, rfl⟩ rfl (by decide) rfl (by decide),
    by unfold Group.HasS; decide,
    by decide,
    by decide⟩,
  ⟨at_ group,
    0,
    group,
    split,
    { sa := 8, idx := 0x10, st := 0 },
    _,
    mkReady part rfl rfl rfl rfl ⟨rfl, rfl, rfl, rfl⟩ rfl (by decide) rfl (by decide),
    by unfold Group.HasS; decide,
    by decide,
    rfl,
    by decide⟩,
  ⟨at_ group,
    0,
    group,
    split,
    { sa := 8, idx := 0x11, st := 0 },
    _,
    mkReady part rfl rfl rfl rfl ⟨rfl, rfl, rfl, rfl⟩ rfl (by decide) rfl (by decide),
    by unfold Group.HasS; decide,
    by decide,
    rfl,
    by decide⟩,
  ⟨at_ group,
    0,
    group,
    split,
    { sa := 8, idx := 0x17, st := 0 },
    _,
    mkReady part rfl rfl rfl rfl ⟨rfl, rfl, rfl, rfl⟩ rfl (by decide) rfl (by decide),
    by unfold Group.HasS; decide,
    by decide,
    rfl,
    by decide⟩,
  ⟨at_ group,
    0,
    group,
    split,
    { sa := 8, idx := 0x18, st := 0 },
    _,
    mkReady part rfl rfl rfl rfl ⟨rfl, rfl, rfl, rfl⟩ rfl (by decide) rfl (by decide),
    by unfold Group.HasS; decide,
    by decide,
    rfl,
    by decide⟩,
  ⟨at_ group,
    0,
    group,
    split,
    { sa := 8, idx := 0x19, st := 0 },
    _,
    mkReady part rfl rfl rfl rfl ⟨rfl, rfl, rfl, rfl⟩ rfl (by decide) rfl (by decide),
    by unfold Group.HasS; decide,
    by decide,
    rfl,
    by decide⟩,
  ⟨at_ group,
    0,
    group,
    split,
    { sa := 8, idx := 0x1A, st := 0 },
    _,
    mkReady part rfl rfl rfl rfl ⟨rfl, rfl, rfl, rfl⟩ rfl (by decide) rfl (by decide),
    by unfold Group.HasS; decide,
    by decide,
    rfl,
    by decide⟩,
  ⟨at_ working0,
    0,
    working0,
    split,
    { sd := 4, idx := 0x11, st := 0 },
    mkReady part rfl rfl rfl rfl ⟨rfl, rfl, rfl, rfl⟩ rfl (by decide) rfl (by decide),
    by unfold Group.HasS; decide,
    by decide,
    by decide⟩⟩

/-- StatusRegisters. -/
theorem wit_statusRegisters_2 :
    (∃ (s : State) (gid : Nat) (g : Group) (p : Split) (f : Wrsr), Ready s gid g p ∧
      g.HasS [f.sa.toNat] ∧
      g.matq ≠ [] ∧
      (f.idx = 0x11 ∨ f.idx = 0x1A)) ∧
    (∃ (s : State) (gid : Nat) (g : Group) (p : Split) (f : Rdsr) (x : Part), Ready s gid g p ∧
      Outside s g x ∧
      0x27 ≤ f.idx.toNat) ∧
    (∃ (s : State) (gid : Nat) (g : Group) (p : Split) (f : Wrsr) (x : Part), Ready s gid g p ∧
      Outside s g x ∧
      0x27 ≤ f.idx.toNat) ∧
    (∃ (s : State) (gid : Nat) (g : Group) (p : Split) (f : Wrsr) (x : Part), Ready s gid g p ∧
      Outside s g x ∧
      f.idx.toNat < 0x27 ∧
      f.idx ∉ [0x10, 0x11, 0x17, 0x18, 0x19, 0x1A]) ∧
    (∃ e, e ∈ modeFields ∧
      ∃ (s : State) (gid : Nat) (g : Group) (p : Split) (f : SetM), Ready s gid g p ∧
      f.sel = e.1) :=
  ⟨⟨at_ working0,
    0,
    working0,
    split,
    { sa := 8, idx := 0x1A, st := 0 },
    mkReady part rfl rfl rfl rfl ⟨rfl, rfl, rfl, rfl⟩ rfl (by decide) rfl (by decide),
    by unfold Group.HasS; decide,
    by decide,
    by decide⟩,
  ⟨at_ group,
    0,
    group,
    split,
    { sd := 4, idx := 0x27, st := 0 },
    part,
    mkReady part rfl rfl rfl rfl ⟨rfl, rfl, rfl, rfl⟩ rfl (by decide) rfl (by decide),
    ⟨rfl, rfl⟩,
    by decide⟩,
  ⟨at_ group,
    0,
    group,
    split,
    { sa := 8, idx := 0x1FF, st := 0 },
    part,
    mkReady part rfl rfl rfl rfl ⟨rfl, rfl, rfl, rfl⟩ rfl (by decide) rfl (by decide),
    ⟨rfl, rfl⟩,
    by decide⟩,
  ⟨at_ group,
    0,
    group,
    split,
    { sa := 8, idx := 0x26, st := 0 },
    part,
    mkReady part rfl rfl rfl rfl ⟨rfl, rfl, rfl, rfl⟩ rfl (by decide) rfl (by decide),
    ⟨rfl, rfl⟩,
    by decide,
    by decide⟩,
  ⟨modeFields[0],
    List.getElem_mem _,
    at_ group,
    0,
    group,
    split,
    { sel := modeFields[0].1, val := 0, st := 0 },
    mkReady part rfl rfl rfl rfl ⟨rfl, rfl, rfl, rfl⟩ rfl (by decide) rfl (by decide),
    by decide⟩⟩

/-- ForksAndSplits. -/
theorem wit_forksAndSplits_1 :
    (∃ (s : State) (gid : Nat) (g : Group) (p : Split) (f : Fork) (a : DWord) (b : DWord), Ready s gid g p ∧
      g.handler = none ∧
      a = p.mask &&& g.pred f.p.toNat ∧
      b = p.mask &&& ~~~(g.pred f.p.toNat) ∧
      p.joins.length < 4 ∧
      b = 0) ∧
    (∃ (s : State) (gid : Nat) (g : Group) (p : Split) (f : Fork) (a : DWord) (b : DWord), Ready s gid g p ∧
      g.handler = none ∧
      a = p.mask &&& g.pred f.p.toNat ∧
      b = p.mask &&& ~~~(g.pred f.p.toNat) ∧
      p.joins.length < 4 ∧
      a = 0 ∧
      b ≠ 0) ∧
    (∃ (s : State) (gid : Nat) (g : Group) (p : Split) (f : Fork) (a : DWord) (b : DWord), Ready s gid g p ∧
      g.handler = none ∧
      a = p.mask &&& g.pred f.p.toNat ∧
      b = p.mask &&& ~~~(g.pred f.p.toNat) ∧
      p.joins.length < 4 ∧
      ∃ (n : Nat), n < 4 ∧
      a ≠ 0 ∧
      b ≠ 0 ∧
      g.splits.length < 4 ∧
      (∀ q ∈ g.splits, q.slot ≠ n) ∧
      (∀ j < n, ∃ q ∈ g.splits, q.slot = j)) ∧
    (∃ (s : State) (gid : Nat) (g : Group) (p : Split) (f : Fork), Ready s gid g p ∧
      g.handler = none ∧
      p.joins.length = 4) ∧
    (∃ (s : State) (gid : Nat) (g : Group) (p : Split) (f : Fork), Ready s gid g p ∧
      g.handler = none ∧
      p.joins.length < 4 ∧
      p.mask &&& g.pred f.p.toNat ≠ 0 ∧
      p.mask &&& ~~~(g.pred f.p.toNat) ≠ 0 ∧
      g.splits.length = 4) ∧
    (∃ (s : State) (gid : Nat) (g : Group) (p : Split) (f : Bare), Ready s gid g p) ∧
    (∃ (s : State) (gid : Nat) (g : Group) (p : Split) (f : Bare), Ready s gid g p ∧
      p.joins = []) ∧
    (∃ (s : State) (gid : Nat) (g : Group) (p : Split) (f : Bare), Ready s gid g p ∧
      p.joins ≠ []) :=
  ⟨⟨at_ masked,
    0,
    masked,
    split,
    { p := 7, off := 0, st := 0 },
    _,
    _,
    mkReady part rfl rfl rfl rfl ⟨rfl, rfl, rfl, rfl⟩ rfl (by decide) rfl (by decide),
    rfl,
    rfl,
    rfl,
    by decide,
    rfl⟩,
  ⟨at_ masked,
    0,
    masked,
    split,
    { p := 2, off := 0, st := 0 },
    _,
    _,
    mkReady part rfl rfl rfl rfl ⟨rfl, rfl, rfl, rfl⟩ rfl (by decide) rfl (by decide),
    rfl,
    rfl,
    rfl,
    by decide,
    rfl,
    by decide⟩,
  ⟨at_ masked,
    0,
    masked,
    split,
    { p := 1, off := 0, st := 0 },
    _,
    _,
    mkReady part rfl rfl rfl rfl ⟨rfl, rfl, rfl, rfl⟩ rfl (by decide) rfl (by decide),
    rfl,
    rfl,
    rfl,
    by decide,
    1,
    by decide,
    by decide,
    by decide,
    by decide,
    by decide,
    by decide⟩,
  ⟨at_ (withSplit { split with joins := [0, 0, 0, 0] }),
    0,
    (withSplit { split with joins := [0, 0, 0, 0] }),
    { split with joins := [0, 0, 0, 0] },
    { p := 0, off := 0, st := 0 },
    mkReady part rfl rfl rfl rfl ⟨rfl, rfl, rfl, rfl⟩ rfl (by decide) rfl (by decide),
    rfl,
    by decide⟩,
  ⟨at_ { group with preds := [(1, 0x01)], splits := [{ split with mask := 0x03 }, { split with slot := 1, mask := 0x0C, st := .ready }, { split with slot := 2, mask := 0x30, st := .ready }, { split with slot := 3, mask := 0xC0, st := .ready }] },
    0,
    { group with preds := [(1, 0x01)], splits := [{ split with mask := 0x03 }, { split with slot := 1, mask := 0x0C, st := .ready }, { split with slot := 2, mask := 0x30, st := .ready }, { split with slot := 3, mask := 0xC0, st := .ready }] },
    { split with mask := 0x03 },
    { p := 1, off := 0, st := 0 },
    mkReady part rfl rfl rfl rfl ⟨rfl, rfl, rfl, rfl⟩ rfl (by decide) rfl (by decide),
    rfl,
    by decide,
    by decide,
    by decide,
    by decide⟩,
  ⟨at_ group,
    0,
    group,
    split,
    { st := 0 },
    mkReady part rfl rfl rfl rfl ⟨rfl, rfl, rfl, rfl⟩ rfl (by decide) rfl (by decide)⟩,
  ⟨at_ group,
    0,
    group,
    split,
    { st := 0 },
    mkReady part rfl rfl rfl rfl ⟨rfl, rfl, rfl, rfl⟩ rfl (by decide) rfl (by decide),
    by decide⟩,
  ⟨at_ (withSplit { split with joins := [0x0F] }),
    0,
    (withSplit { split with joins := [0x0F] }),
    { split with joins := [0x0F] },
    { st := 0 },
    mkReady part rfl rfl rfl rfl ⟨rfl, rfl, rfl, rfl⟩ rfl (by decide) rfl (by decide),
    by decide⟩⟩

/-- ForksAndSplits. -/
theorem wit_forksAndSplits_2 :
    (∃ (s : State) (gid : Nat) (g : Group) (p : Split) (f : Fork), Ready s gid g p ∧
      p.mask &&& g.pred f.p.toNat = 0) ∧
    (∃ (s : State) (gid : Nat) (g : Group) (p : Split) (f : Fork), Ready s gid g p ∧
      p.mask &&& g.pred f.p.toNat ≠ 0) ∧
    (∃ (s : State) (gid : Nat) (g : Group) (p : Split) (f : Sleep), Ready s gid g p ∧
      f.n ≠ 0) ∧
    (∃ (s : State) (gid : Nat) (g : Group) (p : Split) (f : Sleep), Ready s gid g p ∧
      f.n = 0) ∧
    (∃ (s : State) (gid : Nat) (g : Group) (p : Split) (f : Bar), Ready s gid g p) :=
  ⟨⟨at_ masked,
    0,
    masked,
    split,
    { p := 2, off := 0, st := 0 },
    mkReady part rfl rfl rfl rfl ⟨rfl, rfl, rfl, rfl⟩ rfl (by decide) rfl (by decide),
    by decide⟩,
  ⟨at_ masked,
    0,
    masked,
    split,
    { p := 1, off := 0, st := 0 },
    mkReady part rfl rfl rfl rfl ⟨rfl, rfl, rfl, rfl⟩ rfl (by decide) rfl (by decide),
    by decide⟩,
  ⟨at_ group,
    0,
    group,
    split,
    { n := 0xFFFF, st := 0 },
    mkReady part rfl rfl rfl rfl ⟨rfl, rfl, rfl, rfl⟩ rfl (by decide) rfl (by decide),
    by decide⟩,
  ⟨at_ group,
    0,
    group,
    split,
    { n := 0, st := 0 },
    mkReady part rfl rfl rfl rfl ⟨rfl, rfl, rfl, rfl⟩ rfl (by decide) rfl (by decide),
    by decide⟩,
  ⟨at_ group,
    0,
    group,
    split,
    { b := 0, st := 0 },
    mkReady part rfl rfl rfl rfl ⟨rfl, rfl, rfl, rfl⟩ rfl (by decide) rfl (by decide)⟩⟩

/-- WaitsAndSafePoints. -/
theorem wit_waitsAndSafePoints_1 :
    (∃ (s : State) (gid : Nat) (g : Group) (p : Split) (f : Wait), Underway s gid g p ∧
      f.arm = true) ∧
    (∃ (s : State) (gid : Nat) (g : Group) (p : Split) (f : Wait), Underway s gid g p ∧
      f.arm = false ∧
      g.cnt.get f.cnt.toNat ≤ f.n.toNat) ∧
    (∃ (s : State) (gid : Nat) (g : Group) (p : Split) (f : Wait), Underway s gid g p ∧
      f.arm = false ∧
      f.n.toNat < g.cnt.get f.cnt.toNat) ∧
    (∃ (s : State) (gid : Nat) (g : Group) (p : Split) (f : WaitAll), Underway s gid g p ∧
      f.arm = true) ∧
    (∃ (s : State) (gid : Nat) (g : Group) (p : Split) (f : WaitAll), Underway s gid g p ∧
      f.arm = false ∧
      (∀ j < 6, f.cmask.getLsbD j = true → g.cnt.get j = 0)) ∧
    (∃ (s : State) (gid : Nat) (g : Group) (p : Split) (f : WaitAll), Underway s gid g p ∧
      f.arm = false ∧
      (∃ j < 6, f.cmask.getLsbD j = true ∧ g.cnt.get j ≠ 0)) ∧
    (∃ (s : State) (gid : Nat) (g : Group) (p : Split) (f : Safe), Ready s gid g p ∧
      f.live.toNat < g.liveCount) ∧
    (∃ (s : State) (gid : Nat) (g : Group) (p : Split) (f : Draw) (e : Nat) (ws : List Nat), Ready s gid g p ∧
      f.live.toNat < g.liveCount ∧
      g.HasV [f.vb.toNat] ∧
      e = ofBytes ((s.liveEntry gid g f.live.toNat).drop 0x1C) ∧
      (ws = ((List.range 24).filter fun j => Nat.testBit e j && decide (f.vb.toNat + j ≤ 127) &&
      decide (f.vb.toNat + j < g.vAlloc)).map (f.vb.toNat + ·))) :=
  ⟨⟨at_ group,
    0,
    group,
    split,
    { cnt := 0, n := 0, arm := true, st := 0 },
    ⟨rfl, rfl, rfl, rfl, rfl, by decide, fun y hy _ _ => by cases hy; decide⟩,
    by decide⟩,
  ⟨at_ busy,
    0,
    busy,
    split,
    { cnt := 0, n := 5, arm := false, st := 0 },
    ⟨rfl, rfl, rfl, rfl, rfl, by decide, fun y hy _ _ => by cases hy; decide⟩,
    by decide,
    by decide⟩,
  ⟨at_ busy,
    0,
    busy,
    split,
    { cnt := 0, n := 4, arm := false, st := 0 },
    ⟨rfl, rfl, rfl, rfl, rfl, by decide, fun y hy _ _ => by cases hy; decide⟩,
    by decide,
    by decide⟩,
  ⟨at_ group,
    0,
    group,
    split,
    { cmask := 0, arm := true, st := 0 },
    ⟨rfl, rfl, rfl, rfl, rfl, by decide, fun y hy _ _ => by cases hy; decide⟩,
    by decide⟩,
  ⟨at_ busy,
    0,
    busy,
    split,
    { cmask := 0x3E, arm := false, st := 0 },
    ⟨rfl, rfl, rfl, rfl, rfl, by decide, fun y hy _ _ => by cases hy; decide⟩,
    by decide,
    by decide⟩,
  ⟨at_ busy,
    0,
    busy,
    split,
    { cmask := 1, arm := false, st := 0 },
    ⟨rfl, rfl, rfl, rfl, rfl, by decide, fun y hy _ _ => by cases hy; decide⟩,
    by decide,
    by decide⟩,
  ⟨at_ listed,
    0,
    listed,
    split,
    { live := 3, st := 0 },
    mkReady part rfl rfl rfl rfl ⟨rfl, rfl, rfl, rfl⟩ rfl (by decide) rfl (by decide),
    by decide⟩,
  ⟨at_ listed,
    0,
    listed,
    split,
    { vb := 4, live := 3, st := 0 },
    _,
    _,
    mkReady part rfl rfl rfl rfl ⟨rfl, rfl, rfl, rfl⟩ rfl (by decide) rfl (by decide),
    by decide,
    by unfold Group.HasV; decide,
    rfl,
    rfl⟩⟩

/-- WaitsAndSafePoints. -/
theorem wit_waitsAndSafePoints_2 :
    (∃ (s : State) (gid : Nat) (g : Group) (p : Split) (f : Imm16) (x : Part), Ready s gid g p ∧
      s.part g.part = some x ∧
      1 < g.splits.length) ∧
    (∃ (s : State) (gid : Nat) (g : Group) (p : Split) (f : Imm16) (x : Part), Ready s gid g p ∧
      s.part g.part = some x ∧
      g.splits.length ≤ 1 ∧
      (x.sen = false ∨ g.sig.setWidth 16 = f.imm)) ∧
    (∃ (s : State) (gid : Nat) (g : Group) (p : Split) (f : Imm16) (x : Part), Ready s gid g p ∧
      s.part g.part = some x ∧
      g.splits.length ≤ 1 ∧
      x.sen = true ∧
      g.sig.setWidth 16 ≠ f.imm) ∧
    (∃ (s : State) (gid : Nat) (g : Group) (p : Split) (f : Fence) (w : Nat × PendOp → Prop), Underway s gid g p ∧
      (f.scope = 0 → g.mScope ≠ 0) ∧
      (∀ q, w q ↔ q ∈ g.pend ∧ q.2.kind ∈ [PendKind.load, .store, .atomic] ∧ q.2.mask &&& p.mask ≠ 0) ∧
      (∀ q, ¬w q)) ∧
    (∃ (s : State) (gid : Nat) (g : Group) (p : Split) (f : Fence) (w : Nat × PendOp → Prop), Underway s gid g p ∧
      (f.scope = 0 → g.mScope ≠ 0) ∧
      (∀ q, w q ↔ q ∈ g.pend ∧ q.2.kind ∈ [PendKind.load, .store, .atomic] ∧ q.2.mask &&& p.mask ≠ 0) ∧
      (∃ q, w q)) ∧
    (∀ e ∈ elementOps, ∃ (s : State) (gid : Nat) (g : Group) (p : Split) (f : V3), Underway s gid g p ∧
      g.HasV [f.vd.toNat, f.va.toNat, f.vb.toNat] ∧
      pxRnd f.px = 0 ∧
      pxXw f.px = 0 ∧
      pxKind f.px = 0 ∧
      g.typeBad f.px = false ∧
      (∀ n old, ¬g.Recent (pName n) old) ∧
      (∀ q ∈ g.pend, ∀ d ∈ q.2.dests, d.reg.cls ≠ .pred) ∧
      ∃ old, ∃ x, g.mChk = true ∧
      g.Recent (vName f.va.toNat) old ∧
      Outside s g x) ∧
    (∀ e ∈ elementOps, ∃ (s : State) (gid : Nat) (g : Group) (p : Split) (f : V3), Underway s gid g p ∧
      g.HasV [f.vd.toNat, f.va.toNat, f.vb.toNat] ∧
      pxRnd f.px = 0 ∧
      pxXw f.px = 0 ∧
      pxKind f.px = 0 ∧
      g.typeBad f.px = false ∧
      (∀ n old, ¬g.Recent (pName n) old) ∧
      (∀ q ∈ g.pend, ∀ d ∈ q.2.dests, d.reg.cls ≠ .pred) ∧
      (g.mChk = false ∨ ∀ r old, ¬g.Recent r old) ∧
      (∃ h ∈ g.holds, h.reg ∈ [f.va.toNat, f.vb.toNat] ∧ 0 < h.pending)) ∧
    (∀ e ∈ elementOps, ∃ (s : State) (gid : Nat) (g : Group) (p : Split) (f : V3), Underway s gid g p ∧
      g.HasV [f.vd.toNat, f.va.toNat, f.vb.toNat] ∧
      pxRnd f.px = 0 ∧
      pxXw f.px = 0 ∧
      pxKind f.px = 0 ∧
      g.typeBad f.px = false ∧
      (∀ n old, ¬g.Recent (pName n) old) ∧
      (∀ q ∈ g.pend, ∀ d ∈ q.2.dests, d.reg.cls ≠ .pred) ∧
      (g.mChk = false ∨ ∀ r old, ¬g.Recent r old) ∧
      (∀ h ∈ g.holds, h.reg ∈ [f.va.toNat, f.vb.toNat] → h.pending = 0)) :=
  ⟨⟨at_ twoSplits,
    0,
    twoSplits,
    { split with mask := 0x0F },
    { imm := 0, st := 0 },
    part,
    mkReady part rfl rfl rfl rfl ⟨rfl, rfl, rfl, rfl⟩ rfl (by decide) rfl (by decide),
    rfl,
    by decide⟩,
  ⟨at_ group,
    0,
    group,
    split,
    { imm := 0, st := 0 },
    part,
    mkReady part rfl rfl rfl rfl ⟨rfl, rfl, rfl, rfl⟩ rfl (by decide) rfl (by decide),
    rfl,
    by decide,
    .inr rfl⟩,
  ⟨at_ group,
    0,
    group,
    split,
    { imm := 5, st := 0 },
    part,
    mkReady part rfl rfl rfl rfl ⟨rfl, rfl, rfl, rfl⟩ rfl (by decide) rfl (by decide),
    rfl,
    by decide,
    by decide,
    by decide⟩,
  ⟨at_ group,
    0,
    group,
    split,
    { scope := 0, kind := 0, st := 0 },
    _,
    ⟨rfl, rfl, rfl, rfl, rfl, by decide, fun y hy _ _ => by cases hy; decide⟩,
    by decide,
    (fun _ => Iff.rfl),
    (fun _ h => List.not_mem_nil h.1)⟩,
  ⟨at_ (pending .store),
    0,
    (pending .store),
    split,
    { scope := 0, kind := 0, st := 0 },
    _,
    ⟨rfl, rfl, rfl, rfl, rfl, by decide, fun y hy _ _ => by cases hy; decide⟩,
    by decide,
    (fun _ => Iff.rfl),
    ⟨_, List.mem_singleton.mpr rfl, by decide, by decide⟩⟩,
  (fun e he => ⟨at_ early,
    0,
    early,
    split,
    { vd := 4, va := 8, vb := 12, st := 0, px := none },
    ⟨rfl, rfl, rfl, rfl, rfl, by decide, fun y hy _ _ => by cases hy; decide⟩,
    by unfold Group.HasV; decide,
    by decide,
    by decide,
    by decide,
    by decide,
    (fun n old h => by obtain ⟨q, hq, h1, _⟩ := h; cases List.mem_singleton.mp hq; cases h1),
    (fun _ h => absurd h List.not_mem_nil),
    [(0, 5)],
    part,
    by decide,
    ⟨_, List.mem_singleton.mpr rfl, rfl, by decide, rfl⟩,
    ⟨rfl, rfl⟩⟩),
  (fun e he => ⟨at_ { group with holds := [{ reg := 8, pending := 2 }] },
    0,
    { group with holds := [{ reg := 8, pending := 2 }] },
    split,
    { vd := 4, va := 8, vb := 12, st := 0, px := none },
    ⟨rfl, rfl, rfl, rfl, rfl, by decide, fun y hy _ _ => by cases hy; decide⟩,
    by unfold Group.HasV; decide,
    by decide,
    by decide,
    by decide,
    by decide,
    (fun n old h => by obtain ⟨q, hq, _⟩ := h; cases hq),
    (fun _ h => absurd h List.not_mem_nil),
    .inl (by decide),
    by decide⟩),
  (fun e he => ⟨at_ { early with mode := 0x0063817 },
    0,
    { early with mode := 0x0063817 },
    split,
    { vd := 4, va := 8, vb := 12, st := 0, px := none },
    ⟨rfl, rfl, rfl, rfl, rfl, by decide, fun y hy _ _ => by cases hy; decide⟩,
    by unfold Group.HasV; decide,
    by decide,
    by decide,
    by decide,
    by decide,
    (fun n old h => by obtain ⟨q, hq, h1, _⟩ := h; cases List.mem_singleton.mp hq; cases h1),
    (fun _ h => absurd h List.not_mem_nil),
    .inl (by decide),
    by decide⟩)⟩

/-- WaitsAndSafePoints. -/
theorem wit_waitsAndSafePoints_3 :
    (∃ (s : State) (gid : Nat) (g : Group) (p : Split) (f : Bare), Ready s gid g p ∧
      g.handler = none ∧
      1 < g.splits.length) ∧
    (∃ (s : State) (gid : Nat) (g : Group) (p : Split) (f : Bare), Ready s gid g p ∧
      g.splits.length ≤ 1) :=
  ⟨⟨at_ twoSplits,
    0,
    twoSplits,
    { split with mask := 0x0F },
    { st := 0 },
    mkReady part rfl rfl rfl rfl ⟨rfl, rfl, rfl, rfl⟩ rfl (by decide) rfl (by decide),
    rfl,
    by decide⟩,
  ⟨at_ group,
    0,
    group,
    split,
    { st := 0 },
    mkReady part rfl rfl rfl rfl ⟨rfl, rfl, rfl, rfl⟩ rfl (by decide) rfl (by decide),
    by decide⟩⟩

/-- VectorLoads. -/
theorem wit_vectorLoads :
    (∃ e, e ∈ loadOps ∧
      ∃ (s : State) (gid : Nat) (g : Group) (p : Split) (f : Vmem) (pl : Nat → Nat → Place) (acc : Nat → Nat → Prop), Ready s gid g p ∧
      (∀ i j, acc i j ↔ i < 64 ∧ j = 0 ∧ g.laneOn p f.px i = true) ∧
      g.ScopeOk f.px (strongAtt f.att) ∧
      g.HasV (upFrom f.vd.toNat e.2.2.1) ∧
      (f.en = true → g.HasV [f.off.toNat]) ∧
      g.HasS [2 * f.k.toNat, 2 * f.k.toNat + 1] ∧
      g.cnt.c0 < 255 ∧
      (∀ i j, acc i j → Reaches s gid g .read e.2.1 (g.laneAddr f.px f.k.toNat (if f.en then some f.off.toNat else none) i) (pl i j) ∧
      (strongAtt f.att = true → Unsent s (clusterOf (coreOf gid)) (pl i j) e.2.1)) ∧
      MarksApart s acc e.2.1 pl) ∧
    (∃ (s : State) (gid : Nat) (g : Group) (p : Split) (f : Vmem) (n : Nat) (pl : Nat → Nat → Place) (acc : Nat → Nat → Prop), Ready s gid g p ∧
      n = g.mXw + 2 ∧
      g.mXw ≠ 3 ∧
      (∀ i j, acc i j ↔ i < 64 ∧ j < n ∧ g.laneOn p f.px i = true) ∧
      g.ScopeOk f.px (strongAtt f.att) ∧
      g.HasGroups [(f.vd.toNat, n)] ∧
      (f.en = true → g.HasV [f.off.toNat]) ∧
      g.HasS (upFrom (2 * f.k.toNat) 4) ∧
      g.cnt.c0 < 255 ∧
      (∀ i j, acc i j → Reaches s gid g .read 4 (g.xAddr f n i j) (pl i j) ∧
      (strongAtt f.att = true → Unsent s (clusterOf (coreOf gid)) (pl i j) 4)) ∧
      MarksApart s acc 4 pl) ∧
    (∃ (s : State) (gid : Nat) (g : Group) (p : Split) (f : Ldt) (z : Nat) (q : Nat) (pl : Nat → Nat → Place) (acc : Nat → Nat → Prop), Ready s gid g p ∧
      f.esz ≠ 3 ∧
      z = 2 ^ f.esz.toNat ∧
      q = 4 / z ∧
      g.width ≠ 8 ∧
      (∀ i j, acc i j ↔ i < 64 ∧ j = 0 ∧ g.laneOn p f.px i = true) ∧
      pxScope f.px = 0 ∧
      g.HasV (f.off.toNat :: upFrom f.vd.toNat 4) ∧
      g.HasS [2 * f.k.toNat, 2 * f.k.toNat + 1] ∧
      g.cnt.c0 < 255 ∧
      (∀ i j, acc i j → Reaches s gid g .read 16 (g.laneAddr f.px f.k.toNat (some f.off.toNat) i) (pl i j)) ∧
      MarksApart s acc 16 pl) ∧
    (∃ (s : State) (gid : Nat) (g : Group) (p : Split) (f : Pfl), Ready s gid g p ∧
      pxScope f.px = 0 ∧
      (f.en = true → g.HasV [f.off.toNat]) ∧
      g.HasS [2 * f.k.toNat, 2 * f.k.toNat + 1]) :=
  ⟨⟨loadOps[6],
    List.getElem_mem _,
    at_ pointed,
    0,
    pointed,
    split,
    { vd := 4, off := 0, en := false, k := 0, att := 0, st := 0, px := none },
    fun _ _ => .spad 0,
    _,
    mkReady part rfl rfl rfl rfl ⟨rfl, rfl, rfl, rfl⟩ rfl (by decide) rfl (by decide),
    (fun _ _ => Iff.rfl),
    ⟨fun _ => rfl, fun _ _ => by decide⟩,
    by unfold Group.HasV; decide,
    nofun,
    by unfold Group.HasS; decide,
    by decide,
    (fun _ _ _ => ⟨(reach0 _ _ _ rfl rfl rfl).1, fun _ _ h => (nomatch h)⟩),
    (by unfold MarksApart; exact fun _ _ _ _ _ _ _ h => (nomatch h))⟩,
  ⟨at_ pointed,
    0,
    pointed,
    split,
    { vd := 4, off := 0, en := false, k := 0, att := 0, st := 0, px := none },
    _,
    fun _ _ => .spad 0,
    _,
    mkReady part rfl rfl rfl rfl ⟨rfl, rfl, rfl, rfl⟩ rfl (by decide) rfl (by decide),
    rfl,
    by decide,
    (fun _ _ => Iff.rfl),
    ⟨fun _ => rfl, fun _ _ => by decide⟩,
    by unfold Group.HasGroups; decide,
    nofun,
    by unfold Group.HasS; decide,
    by decide,
    (fun i j h => by obtain ⟨_, hj, _⟩ := h; match j, hj with | 0, _ => exact ⟨(reach0 _ _ _ rfl rfl rfl).1, fun _ _ h => (nomatch h)⟩ | 1, _ => exact ⟨(reach0 _ _ _ rfl rfl rfl).1, fun _ _ h => (nomatch h)⟩),
    (by unfold MarksApart; exact fun _ _ _ _ _ _ _ h => (nomatch h))⟩,
  ⟨at_ { wide with sregs := [(1, 0x10000000)] },
    0,
    { wide with sregs := [(1, 0x10000000)] },
    { split with mask := 0xFFFF },
    { vd := 4, off := 0, k := 0, esz := 1, st := 0, px := none },
    _,
    _,
    fun _ _ => .spad 0,
    _,
    mkReady part rfl rfl rfl rfl ⟨rfl, rfl, rfl, rfl⟩ rfl (by decide) rfl (by decide),
    by decide,
    rfl,
    rfl,
    by decide,
    (fun _ _ => Iff.rfl),
    by decide,
    by unfold Group.HasV; decide,
    by unfold Group.HasS; decide,
    by decide,
    (fun _ _ _ => (reach0 _ _ _ rfl rfl rfl).1),
    (by unfold MarksApart; exact fun _ _ _ _ _ _ _ h => (nomatch h))⟩,
  ⟨at_ pointed,
    0,
    pointed,
    split,
    { off := 0, en := false, k := 0, lvl := 0, st := 0, px := none },
    mkReady part rfl rfl rfl rfl ⟨rfl, rfl, rfl, rfl⟩ rfl (by decide) rfl (by decide),
    by decide,
    nofun,
    by unfold Group.HasS; decide⟩⟩

/-- VectorStores. -/
theorem wit_vectorStores :
    (∃ e, e ∈ storeOps ∧
      ∃ (s : State) (gid : Nat) (g : Group) (p : Split) (f : Vmem) (pl : Nat → Nat → Place) (acc : Nat → Nat → Prop), Ready s gid g p ∧
      (∀ i j, acc i j ↔ i < 64 ∧ j = 0 ∧ g.laneOn p f.px i = true) ∧
      g.ScopeOk f.px (strongAtt f.att) ∧
      g.HasV (upFrom f.vd.toNat e.2.2) ∧
      (f.en = true → g.HasV [f.off.toNat]) ∧
      g.HasS [2 * f.k.toNat, 2 * f.k.toNat + 1] ∧
      g.cnt.c1 < 255 ∧
      s.NoReplicas ∧
      (∀ i j, acc i j → Reaches s gid g .write e.2.1 (g.laneAddr f.px f.k.toNat (if f.en then some f.off.toNat else none) i) (pl i j) ∧
      (GoesHome s (clusterOf (coreOf gid)) (strongAtt f.att) (pl i j) e.2.1 ∨ StaysIn s (clusterOf (coreOf gid)) (strongAtt f.att) (pl i j) e.2.1)) ∧
      StoresApart s (coreOf gid) (strongAtt f.att) acc e.2.1 pl) ∧
    (∃ (s : State) (gid : Nat) (g : Group) (p : Split) (f : Vmem) (n : Nat) (pl : Nat → Nat → Place) (acc : Nat → Nat → Prop), Ready s gid g p ∧
      n = g.mXw + 2 ∧
      g.mXw ≠ 3 ∧
      (∀ i j, acc i j ↔ i < 64 ∧ j < n ∧ g.laneOn p f.px i = true) ∧
      g.ScopeOk f.px (strongAtt f.att) ∧
      g.HasGroups [(f.vd.toNat, n)] ∧
      (f.en = true → g.HasV [f.off.toNat]) ∧
      g.HasS (upFrom (2 * f.k.toNat) 4) ∧
      g.cnt.c1 < 255 ∧
      s.NoReplicas ∧
      (∀ i j, acc i j → Reaches s gid g .write 4 (g.xAddr f n i j) (pl i j) ∧
      (GoesHome s (clusterOf (coreOf gid)) (strongAtt f.att) (pl i j) 4 ∨ StaysIn s (clusterOf (coreOf gid)) (strongAtt f.att) (pl i j) 4)) ∧
      StoresApart s (coreOf gid) (strongAtt f.att) acc 4 pl) :=
  ⟨⟨storeOps[4],
    List.getElem_mem _,
    at_ pointed,
    0,
    pointed,
    split,
    { vd := 4, off := 0, en := false, k := 0, att := 0, st := 0, px := none },
    fun _ _ => .spad 0,
    _,
    mkReady part rfl rfl rfl rfl ⟨rfl, rfl, rfl, rfl⟩ rfl (by decide) rfl (by decide),
    (fun _ _ => Iff.rfl),
    ⟨fun _ => rfl, fun _ _ => by decide⟩,
    by unfold Group.HasV; decide,
    nofun,
    by unfold Group.HasS; decide,
    by decide,
    nofun,
    (fun _ _ _ => ⟨(reach0 _ _ _ rfl rfl rfl).1, .inl ⟨fun _ h => (nomatch h), .inr fun _ _ _ _ _ h => (nomatch h)⟩⟩),
    ⟨fun _ _ _ _ _ _ _ _ h => (nomatch h), fun _ _ _ _ _ _ _ h => (nomatch h)⟩⟩,
  ⟨at_ pointed,
    0,
    pointed,
    split,
    { vd := 4, off := 0, en := false, k := 0, att := 0, st := 0, px := none },
    _,
    fun _ _ => .spad 0,
    _,
    mkReady part rfl rfl rfl rfl ⟨rfl, rfl, rfl, rfl⟩ rfl (by decide) rfl (by decide),
    rfl,
    by decide,
    (fun _ _ => Iff.rfl),
    ⟨fun _ => rfl, fun _ _ => by decide⟩,
    by unfold Group.HasGroups; decide,
    nofun,
    by unfold Group.HasS; decide,
    by decide,
    nofun,
    (fun i j h => by obtain ⟨_, hj, _⟩ := h; match j, hj with | 0, _ => exact ⟨(reach0 _ _ _ rfl rfl rfl).1, .inl ⟨fun _ h => (nomatch h), .inr fun _ _ _ _ _ h => (nomatch h)⟩⟩ | 1, _ => exact ⟨(reach0 _ _ _ rfl rfl rfl).1, .inl ⟨fun _ h => (nomatch h), .inr fun _ _ _ _ _ h => (nomatch h)⟩⟩),
    ⟨fun _ _ _ _ _ _ _ _ h => (nomatch h), fun _ _ _ _ _ _ _ h => (nomatch h)⟩⟩⟩

/-- UniformLoads. -/
theorem wit_uniformLoads :
    (∃ e, e ∈ [(Instr.sldW, 1), (Instr.sldW2, 2), (Instr.sldW4, 4), (Instr.sldW8, 8)] ∧
      ∃ (s : State) (gid : Nat) (g : Group) (p : Split) (f : Smem) (pl : Place), Ready s gid g p ∧
      g.ScopeOk f.px (strongAtt f.att) ∧
      NoMask f.px ∧
      g.HasS ([2 * f.k.toNat, 2 * f.k.toNat + 1] ++ upFrom f.sd.toNat e.2) ∧
      Reaches s gid g .read (4 * e.2) (g.uniAddr f) pl ∧
      g.cnt.c0 < 255 ∧
      (strongAtt f.att = true → Unsent s (clusterOf (coreOf gid)) pl (4 * e.2))) ∧
    (∃ e, e ∈ [(Instr.sstW, 1), (Instr.sstW2, 2), (Instr.sstW4, 4)] ∧
      ∃ (s : State) (gid : Nat) (g : Group) (p : Split) (f : Smem) (pl : Place), Ready s gid g p ∧
      g.ScopeOk f.px (strongAtt f.att) ∧
      NoMask f.px ∧
      g.HasS ([2 * f.k.toNat, 2 * f.k.toNat + 1] ++ upFrom f.sd.toNat e.2) ∧
      Reaches s gid g .write (4 * e.2) (g.uniAddr f) pl ∧
      g.cnt.c1 < 255 ∧
      s.NoReplicas ∧
      (GoesHome s (clusterOf (coreOf gid)) (strongAtt f.att) pl (4 * e.2) ∨ StaysIn s (clusterOf (coreOf gid)) (strongAtt f.att) pl (4 * e.2)) ∧
      (StoresApart s (coreOf gid) (strongAtt f.att) OneAcc (4 * e.2) (fun _ _ => pl))) ∧
    (∃ (s : State) (gid : Nat) (g : Group) (p : Split) (f : Smem) (pl : Place) (w : Word), Ready s gid g p ∧
      g.ScopeOk f.px true ∧
      NoMask f.px ∧
      g.HasS ([2 * f.k.toNat, 2 * f.k.toNat + 1] ++ upFrom f.sd.toNat 1) ∧
      Reaches s gid g .read 4 (g.uniAddr f) pl ∧
      Unsent s (clusterOf (coreOf gid)) pl 4 ∧
      w = BitVec.ofNat 32 (ofBytes (s.readAt pl 4)) ∧
      w ≠ g.sreg f.sd.toNat) ∧
    (∃ (s : State) (gid : Nat) (g : Group) (p : Split) (f : Smem) (pl : Place) (w : Word), Ready s gid g p ∧
      g.ScopeOk f.px true ∧
      NoMask f.px ∧
      g.HasS ([2 * f.k.toNat, 2 * f.k.toNat + 1] ++ upFrom f.sd.toNat 1) ∧
      Reaches s gid g .read 4 (g.uniAddr f) pl ∧
      Unsent s (clusterOf (coreOf gid)) pl 4 ∧
      w = BitVec.ofNat 32 (ofBytes (s.readAt pl 4)) ∧
      w = g.sreg f.sd.toNat) :=
  ⟨⟨(Instr.sldW8, 8),
    by simp,
    at_ pointed,
    0,
    pointed,
    split,
    { sd := 8, k := 0, woff := 0, att := 0, st := 0, px := none },
    .spad 0,
    mkReady part rfl rfl rfl rfl ⟨rfl, rfl, rfl, rfl⟩ rfl (by decide) rfl (by decide),
    ⟨fun _ => rfl, fun _ _ => by decide⟩,
    nofun,
    by unfold Group.HasS; decide,
    ⟨rfl, rfl, .inr rfl⟩,
    by decide,
    (fun _ _ h => (nomatch h))⟩,
  ⟨(Instr.sstW4, 4),
    by simp,
    at_ pointed,
    0,
    pointed,
    split,
    { sd := 8, k := 0, woff := 0, att := 0, st := 0, px := none },
    .spad 0,
    mkReady part rfl rfl rfl rfl ⟨rfl, rfl, rfl, rfl⟩ rfl (by decide) rfl (by decide),
    ⟨fun _ => rfl, fun _ _ => by decide⟩,
    nofun,
    by unfold Group.HasS; decide,
    ⟨rfl, rfl, .inr rfl⟩,
    by decide,
    nofun,
    .inl ⟨fun _ h => (nomatch h), .inr fun _ _ _ _ _ h => (nomatch h)⟩,
    ⟨fun _ _ _ _ _ _ _ _ h => (nomatch h), fun _ _ _ _ _ _ _ h => (nomatch h)⟩⟩,
  ⟨at_ { pointed with sregs := [(1, 0x10000000), (8, 5)] },
    0,
    { pointed with sregs := [(1, 0x10000000), (8, 5)] },
    split,
    { sd := 8, k := 0, woff := 0, att := 0, st := 0, px := none },
    .spad 0,
    _,
    mkReady part rfl rfl rfl rfl ⟨rfl, rfl, rfl, rfl⟩ rfl (by decide) rfl (by decide),
    ⟨fun _ => rfl, fun _ _ => by decide⟩,
    nofun,
    by unfold Group.HasS; decide,
    ⟨rfl, rfl, .inr rfl⟩,
    (fun _ h => (nomatch h)),
    rfl,
    by decide⟩,
  ⟨at_ pointed,
    0,
    pointed,
    split,
    { sd := 8, k := 0, woff := 0, att := 0, st := 0, px := none },
    .spad 0,
    _,
    mkReady part rfl rfl rfl rfl ⟨rfl, rfl, rfl, rfl⟩ rfl (by decide) rfl (by decide),
    ⟨fun _ => rfl, fun _ _ => by decide⟩,
    nofun,
    by unfold Group.HasS; decide,
    ⟨rfl, rfl, .inr rfl⟩,
    (fun _ h => (nomatch h)),
    rfl,
    rfl⟩⟩

/-- Atomics. -/
theorem wit_atomics :
    (∃ e, e ∈ uniformAtomics ∧
      ∃ (s : State) (gid : Nat) (g : Group) (p : Split) (f : Smem) (pl : Place) (old : Word) (new : Word), Ready s gid g p ∧
      g.ScopeOk f.px true ∧
      NoMask f.px ∧
      g.HasS ([2 * f.k.toNat, 2 * f.k.toNat + 1] ++ upFrom f.sd.toNat e.2.1) ∧
      Reaches s gid g .atomic 4 (g.uniAddr f) pl ∧
      g.cnt.c1 < 255 ∧
      s.NoReplicas ∧
      Unsent s (clusterOf (coreOf gid)) pl 4 ∧
      (StoresApart s (coreOf gid) true OneAcc 4 (fun _ _ => pl)) ∧
      (MarksApart s OneAcc 4 (fun _ _ => pl)) ∧
      old = BitVec.ofNat 32 (ofBytes (s.readAt pl 4)) ∧
      new = e.2.2 old (g.sreg f.sd.toNat) (g.sreg (f.sd.toNat + 1))) ∧
    (∃ e, e ∈ atomOps ∧
      ∃ (s : State) (gid : Nat) (g : Group) (p : Split) (f : Atom) (pl : Nat → Nat → Place) (acc : Nat → Nat → Prop), Ready s gid g p ∧
      (∀ i j, acc i j ↔ i < 64 ∧ j = 0 ∧ g.laneOn p f.px i = true) ∧
      g.ScopeOk f.px true ∧
      (e.2.2.1 = true → g.mType = 8 ∨ g.mType = 9) ∧
      g.HasV (upFrom f.vd.toNat e.2.1.2.1) ∧
      (f.off ≠ 0 → g.HasV [f.off.toNat]) ∧
      g.HasS [2 * f.k.toNat, 2 * f.k.toNat + 1] ∧
      g.cnt.c1 < 255 ∧
      s.NoReplicas ∧
      (∀ i j, acc i j → Reaches s gid g .atomic e.2.1.1
      (g.laneAddr f.px f.k.toNat (if f.off = 0 then none else some f.off.toNat) i) (pl i j) ∧
      Unsent s (clusterOf (coreOf gid)) (pl i j) e.2.1.1) ∧
      StoresApart s (coreOf gid) true acc e.2.1.1 pl ∧
      MarksApart s acc e.2.1.1 pl) :=
  ⟨⟨uniformAtomics[1],
    List.getElem_mem _,
    at_ pointed,
    0,
    pointed,
    split,
    { sd := 8, k := 0, woff := 0, att := 0, st := 0, px := none },
    .spad 0,
    _,
    _,
    mkReady part rfl rfl rfl rfl ⟨rfl, rfl, rfl, rfl⟩ rfl (by decide) rfl (by decide),
    ⟨fun _ => rfl, fun _ _ => by decide⟩,
    nofun,
    by unfold Group.HasS; decide,
    ⟨rfl, rfl, .inr rfl⟩,
    by decide,
    nofun,
    (fun _ h => (nomatch h)),
    ⟨fun _ _ _ _ _ _ _ _ h => (nomatch h), fun _ _ _ _ _ _ _ h => (nomatch h)⟩,
    (by unfold MarksApart; exact fun _ _ _ _ _ _ _ h => (nomatch h)),
    rfl,
    rfl⟩,
  ⟨atomOps[16],
    List.getElem_mem _,
    at_ pointed,
    0,
    pointed,
    split,
    { vd := 4, off := 0, k := 0, ret := false, order := false, st := 0, px := none },
    fun _ _ => .spad 0,
    _,
    mkReady part rfl rfl rfl rfl ⟨rfl, rfl, rfl, rfl⟩ rfl (by decide) rfl (by decide),
    (fun _ _ => Iff.rfl),
    ⟨fun _ => rfl, fun _ _ => by decide⟩,
    by decide,
    by unfold Group.HasV; decide,
    (fun h => absurd rfl h),
    by unfold Group.HasS; decide,
    by decide,
    nofun,
    (fun _ _ _ => reach0 _ _ _ rfl rfl rfl),
    ⟨fun _ _ _ _ _ _ _ _ h => (nomatch h), fun _ _ _ _ _ _ _ h => (nomatch h)⟩,
    (by unfold MarksApart; exact fun _ _ _ _ _ _ _ h => (nomatch h))⟩⟩

/-- MatrixIssue. -/
theorem wit_matrixIssue_1 :
    (∃ (s : State) (gid : Nat) (g : Group) (p : Split) (f : Mma) (x : Team) (w : Word), Ready s gid g p ∧
      matImm f.px = 0 ∧
      g.HasA [f.acc.toNat] ∧
      g.HasT [f.ta.toNat, f.tb.toNat] ∧
      g.HasV [f.vf.toNat] ∧
      g.FormatWord p f.vf.toNat w true (fwTiles w f.ta.toNat f.tb.toNat) ∧
      MatrixReady s gid g x [] false) ∧
    (∃ (s : State) (gid : Nat) (g : Group) (p : Split) (f : Mmag) (x : Team) (w : Word), Ready s gid g p ∧
      g.HasA [f.acc.toNat] ∧
      g.HasT [f.tb.toNat] ∧
      g.HasV [f.vf.toNat, f.vf.toNat + 1] ∧
      g.HasS (upFrom (4 * f.q.toNat) 4) ∧
      g.FormatWord p f.vf.toNat w false [] ∧
      MatrixReady s gid g x [plainUse f.q.toNat false (g.windowAt f.q.toNat) (matImm f.px) (g.gathered (f.vf.toNat + 1)) (32) false] true) ∧
    (∃ (s : State) (gid : Nat) (g : Group) (p : Split) (f : Mmas) (x : Team) (w : Word), Ready s gid g p ∧
      g.HasA [f.acc.toNat] ∧
      g.HasV [f.vf.toNat] ∧
      g.HasS (upFrom (4 * f.qa.toNat) 4 ++ upFrom (4 * f.qb.toNat) 4) ∧
      g.FormatWord p f.vf.toNat w false [] ∧
      MatrixReady s gid g x [plainUse f.qa.toNat false (g.windowAt f.qa.toNat) 0 (List.range 16) (32 * (matImm f.px + 1)) false, plainUse f.qb.toNat true (g.windowAt f.qb.toNat) 0 (List.range 16) (32 * (matImm f.px + 1)) false] true) ∧
    (∃ (s : State) (gid : Nat) (g : Group) (p : Split) (f : AccOp) (x : Team), Ready s gid g p ∧
      matImm f.px = 0 ∧
      g.HasA [f.acc.toNat] ∧
      MatrixReady s gid g x [] false) ∧
    (∃ (s : State) (gid : Nat) (g : Group) (p : Split) (f : AccOp) (x : Team), Ready s gid g p ∧
      matImm f.px = 0 ∧
      g.HasA [f.acc.toNat] ∧
      MatrixReady s gid g x [] false) ∧
    (∃ (s : State) (gid : Nat) (g : Group) (p : Split) (f : Tzero) (x : Team), Ready s gid g p ∧
      matImm f.px = 0 ∧
      g.HasT [f.td.toNat] ∧
      MatrixReady s gid g x [] false) ∧
    (∃ (s : State) (gid : Nat) (g : Group) (p : Split) (f : Accld) (x : Team), Ready s gid g p ∧
      g.HasA [f.acc.toNat] ∧
      g.HasS (upFrom (4 * f.q.toNat) 4) ∧
      MatrixReady s gid g x [plainUse f.q.toNat false (g.windowAt f.q.toNat) (matImm f.px) (List.range (if f.res then 32 else 16)) (64) false] true) ∧
    (∃ (s : State) (gid : Nat) (g : Group) (p : Split) (f : Drain) (x : Team) (w : Word), Ready s gid g p ∧
      g.HasA [f.acc.toNat] ∧
      g.HasV [f.vf.toNat] ∧
      g.HasS (upFrom (4 * f.q.toNat) 4) ∧
      g.FormatWord p f.vf.toNat w true (scaleTile w) ∧
      MatrixReady s gid g x [drainUse f.q.toNat false (g.windowAt f.q.toNat) (matImm f.px) w] true) :=
  ⟨⟨at_ matrix,
    0,
    matrix,
    split,
    { acc := 0, ta := 0, tb := 0, vf := 16, st := 0, px := none },
    team,
    0,
    mkReady part rfl rfl rfl rfl ⟨rfl, rfl, rfl, rfl⟩ rfl (by decide) rfl (by decide),
    by decide,
    by unfold Group.HasA; decide,
    by unfold Group.HasT; decide,
    by unfold Group.HasV; decide,
    ⟨⟨0, by decide, by decide⟩, by decide, by decide, by unfold Group.HasT; decide⟩,
    ⟨rfl, rfl, by decide, by decide, by decide, by decide⟩⟩,
  ⟨at_ matrix,
    0,
    matrix,
    split,
    { acc := 0, q := 0, tb := 0, vf := 16, st := 0, px := none },
    team,
    0,
    mkReady part rfl rfl rfl rfl ⟨rfl, rfl, rfl, rfl⟩ rfl (by decide) rfl (by decide),
    by unfold Group.HasA; decide,
    by unfold Group.HasT; decide,
    by unfold Group.HasV; decide,
    by unfold Group.HasS; decide,
    ⟨⟨0, by decide, by decide⟩, by decide, by decide, by unfold Group.HasT; decide⟩,
    ⟨rfl, rfl, by decide, by decide, by decide, by decide⟩⟩,
  ⟨at_ matrix,
    0,
    matrix,
    split,
    { acc := 0, qa := 0, qb := 1, vf := 16, st := 0, px := none },
    team,
    0,
    mkReady part rfl rfl rfl rfl ⟨rfl, rfl, rfl, rfl⟩ rfl (by decide) rfl (by decide),
    by unfold Group.HasA; decide,
    by unfold Group.HasV; decide,
    by unfold Group.HasS; decide,
    ⟨⟨0, by decide, by decide⟩, by decide, by decide, by unfold Group.HasT; decide⟩,
    ⟨rfl, rfl, by decide, by decide, by decide, by decide⟩⟩,
  ⟨at_ matrix,
    0,
    matrix,
    split,
    { acc := 0, st := 0, px := none },
    team,
    mkReady part rfl rfl rfl rfl ⟨rfl, rfl, rfl, rfl⟩ rfl (by decide) rfl (by decide),
    by decide,
    by unfold Group.HasA; decide,
    ⟨rfl, rfl, by decide, by decide, by decide, by decide⟩⟩,
  ⟨at_ matrix,
    0,
    matrix,
    split,
    { acc := 0, st := 0, px := none },
    team,
    mkReady part rfl rfl rfl rfl ⟨rfl, rfl, rfl, rfl⟩ rfl (by decide) rfl (by decide),
    by decide,
    by unfold Group.HasA; decide,
    ⟨rfl, rfl, by decide, by decide, by decide, by decide⟩⟩,
  ⟨at_ matrix,
    0,
    matrix,
    split,
    { td := 0, st := 0, px := none },
    team,
    mkReady part rfl rfl rfl rfl ⟨rfl, rfl, rfl, rfl⟩ rfl (by decide) rfl (by decide),
    by decide,
    by unfold Group.HasT; decide,
    ⟨rfl, rfl, by decide, by decide, by decide, by decide⟩⟩,
  ⟨at_ matrix,
    0,
    matrix,
    split,
    { acc := 0, q := 0, res := false, st := 0, px := none },
    team,
    mkReady part rfl rfl rfl rfl ⟨rfl, rfl, rfl, rfl⟩ rfl (by decide) rfl (by decide),
    by unfold Group.HasA; decide,
    by unfold Group.HasS; decide,
    ⟨rfl, rfl, by decide, by decide, by decide, by decide⟩⟩,
  ⟨at_ matrix,
    0,
    matrix,
    split,
    { acc := 0, q := 0, vf := 16, st := 0, px := none },
    team,
    0,
    mkReady part rfl rfl rfl rfl ⟨rfl, rfl, rfl, rfl⟩ rfl (by decide) rfl (by decide),
    by unfold Group.HasA; decide,
    by unfold Group.HasV; decide,
    by unfold Group.HasS; decide,
    ⟨⟨0, by decide, by decide⟩, by decide, by decide, by unfold Group.HasT; decide⟩,
    ⟨rfl, rfl, by decide, by decide, by decide, by decide⟩⟩⟩

/-- MatrixIssue. -/
theorem wit_matrixIssue_2 :
    (∃ (s : State) (gid : Nat) (g : Group) (p : Split) (f : Mmas) (x : Team) (w : Word), Ready s gid g p ∧
      g.HasA [f.acc.toNat] ∧
      g.HasV [f.vf.toNat] ∧
      g.HasS (upFrom (4 * f.qa.toNat) 4 ++ upFrom (4 * f.qb.toNat) 4) ∧
      g.FormatWord p f.vf.toNat w true (scaleTile w) ∧
      MatrixReady s gid g x [drainUse f.qa.toNat false (g.windowAt f.qa.toNat) (matImm f.px) w, drainUse f.qb.toNat true (g.windowAt f.qb.toNat) (matImm f.px) w] true) ∧
    (∃ (s : State) (gid : Nat) (g : Group) (p : Split) (f : Tld) (x : Team), Ready s gid g p ∧
      g.HasT [f.td.toNat] ∧
      g.HasS (upFrom (4 * f.q.toNat) 4) ∧
      MatrixReady s gid g x [plainUse f.q.toNat false (g.windowAt f.q.toNat) (matImm f.px) (List.range 16) (32) false] true) ∧
    (∃ (s : State) (gid : Nat) (g : Group) (p : Split) (f : Tldt) (x : Team), Ready s gid g p ∧
      g.HasT [f.td.toNat] ∧
      g.HasS (upFrom (4 * f.q.toNat) 4) ∧
      MatrixReady s gid g x [plainUse f.q.toNat false (g.windowAt f.q.toNat) (matImm f.px) (List.range (if f.esz then 16 else 32)) (if f.esz then 32 else 16) false] true) ∧
    (∃ (s : State) (gid : Nat) (g : Group) (p : Split) (f : Tldg) (x : Team), Ready s gid g p ∧
      g.HasT [f.td.toNat] ∧
      g.HasV [f.vi.toNat] ∧
      g.HasS (upFrom (4 * f.q.toNat) 4) ∧
      MatrixReady s gid g x [plainUse f.q.toNat false (g.windowAt f.q.toNat) (matImm f.px) (g.gathered f.vi.toNat) (32) false] true) ∧
    (∃ (s : State) (gid : Nat) (g : Group) (p : Split) (f : AccRow) (x : Team), Ready s gid g p ∧
      matImm f.px = 0 ∧
      g.HasA [f.acc.toNat] ∧
      g.HasV (upFrom f.v.toNat (if g.width = 8 then 2 else 1)) ∧
      (g.width = 8 → f.v.toNat % 2 = 0) ∧
      MatrixReady s gid g x [] false) ∧
    (∃ (s : State) (gid : Nat) (g : Group) (p : Split) (f : AccRow) (x : Team), Ready s gid g p ∧
      matImm f.px = 0 ∧
      g.HasA [f.acc.toNat] ∧
      g.HasV (upFrom f.v.toNat (if g.width = 8 then 2 else 1)) ∧
      (g.width = 8 → f.v.toNat % 2 = 0) ∧
      MatrixReady s gid g x [] true) ∧
    (∃ (s : State) (gid : Nat) (g : Group) (p : Split), Ready s gid g p ∧
      g.role = .matrix ∧
      (∀ i < 64, inMask (g.activeMask p.mask .guard) i = false) ∧
      ∃ (f : Mma), matImm f.px = 0 ∧
      g.HasA [f.acc.toNat] ∧
      g.HasT [f.ta.toNat, f.tb.toNat] ∧
      g.HasV [f.vf.toNat]) ∧
    (∃ (s : State) (gid : Nat) (g : Group) (p : Split), Ready s gid g p ∧
      g.role = .matrix ∧
      (∀ i < 64, inMask (g.activeMask p.mask .guard) i = false) ∧
      ∃ (f : Mmag), g.HasA [f.acc.toNat] ∧
      g.HasT [f.tb.toNat] ∧
      g.HasV [f.vf.toNat, f.vf.toNat + 1] ∧
      g.HasS (upFrom (4 * f.q.toNat) 4)) :=
  ⟨⟨at_ matrix,
    0,
    matrix,
    split,
    { acc := 0, qa := 0, qb := 1, vf := 16, st := 0, px := none },
    team,
    0,
    mkReady part rfl rfl rfl rfl ⟨rfl, rfl, rfl, rfl⟩ rfl (by decide) rfl (by decide),
    by unfold Group.HasA; decide,
    by unfold Group.HasV; decide,
    by unfold Group.HasS; decide,
    ⟨⟨0, by decide, by decide⟩, by decide, by decide, by unfold Group.HasT; decide⟩,
    ⟨rfl, rfl, by decide, by decide, by decide, by decide⟩⟩,
  ⟨at_ matrix,
    0,
    matrix,
    split,
    { td := 0, q := 0, st := 0, px := none },
    team,
    mkReady part rfl rfl rfl rfl ⟨rfl, rfl, rfl, rfl⟩ rfl (by decide) rfl (by decide),
    by unfold Group.HasT; decide,
    by unfold Group.HasS; decide,
    ⟨rfl, rfl, by decide, by decide, by decide, by decide⟩⟩,
  ⟨at_ matrix,
    0,
    matrix,
    split,
    { td := 0, q := 0, esz := false, st := 0, px := none },
    team,
    mkReady part rfl rfl rfl rfl ⟨rfl, rfl, rfl, rfl⟩ rfl (by decide) rfl (by decide),
    by unfold Group.HasT; decide,
    by unfold Group.HasS; decide,
    ⟨rfl, rfl, by decide, by decide, by decide, by decide⟩⟩,
  ⟨at_ matrix,
    0,
    matrix,
    split,
    { td := 0, q := 0, vi := 4, st := 0, px := none },
    team,
    mkReady part rfl rfl rfl rfl ⟨rfl, rfl, rfl, rfl⟩ rfl (by decide) rfl (by decide),
    by unfold Group.HasT; decide,
    by unfold Group.HasV; decide,
    by unfold Group.HasS; decide,
    ⟨rfl, rfl, by decide, by decide, by decide, by decide⟩⟩,
  ⟨at_ matrix,
    0,
    matrix,
    split,
    { acc := 0, half := false, row := 0, v := 4, st := 0, px := none },
    team,
    mkReady part rfl rfl rfl rfl ⟨rfl, rfl, rfl, rfl⟩ rfl (by decide) rfl (by decide),
    by decide,
    by unfold Group.HasA; decide,
    by unfold Group.HasV; decide,
    by decide,
    ⟨rfl, rfl, by decide, by decide, by decide, by decide⟩⟩,
  ⟨at_ matrix,
    0,
    matrix,
    split,
    { acc := 0, half := false, row := 0, v := 4, st := 0, px := none },
    team,
    mkReady part rfl rfl rfl rfl ⟨rfl, rfl, rfl, rfl⟩ rfl (by decide) rfl (by decide),
    by decide,
    by unfold Group.HasA; decide,
    by unfold Group.HasV; decide,
    by decide,
    ⟨rfl, rfl, by decide, by decide, by decide, by decide⟩⟩,
  ⟨at_ ({ matrix with mode := 0x0063816, sregs := [], splits := [{ split with mask := 0x300 }] }),
    0,
    ({ matrix with mode := 0x0063816, sregs := [], splits := [{ split with mask := 0x300 }] }),
    { split with mask := 0x300 },
    mkReady part rfl rfl rfl rfl ⟨rfl, rfl, rfl, rfl⟩ rfl (by decide) rfl (by decide),
    rfl,
    by decide,
    { acc := 0, ta := 0, tb := 0, vf := 16, st := 0, px := none },
    by decide,
    by unfold Group.HasA; decide,
    by unfold Group.HasT; decide,
    by unfold Group.HasV; decide⟩,
  ⟨at_ ({ matrix with mode := 0x0063816, sregs := [], splits := [{ split with mask := 0x300 }] }),
    0,
    ({ matrix with mode := 0x0063816, sregs := [], splits := [{ split with mask := 0x300 }] }),
    { split with mask := 0x300 },
    mkReady part rfl rfl rfl rfl ⟨rfl, rfl, rfl, rfl⟩ rfl (by decide) rfl (by decide),
    rfl,
    by decide,
    { acc := 0, q := 0, tb := 0, vf := 16, st := 0, px := none },
    by unfold Group.HasA; decide,
    by unfold Group.HasT; decide,
    by unfold Group.HasV; decide,
    by unfold Group.HasS; decide⟩⟩

/-- MatrixIssue. -/
theorem wit_matrixIssue_3 :
    (∀ c ∈ [Instr.mmas, .draint], ∃ (s : State) (gid : Nat) (g : Group) (p : Split), Ready s gid g p ∧
      g.role = .matrix ∧
      (∀ i < 64, inMask (g.activeMask p.mask .guard) i = false) ∧
      ∃ (f : Mmas), g.HasA [f.acc.toNat] ∧
      g.HasV [f.vf.toNat] ∧
      g.HasS (upFrom (4 * f.qa.toNat) 4 ++ upFrom (4 * f.qb.toNat) 4)) ∧
    (∃ (s : State) (gid : Nat) (g : Group) (p : Split), Ready s gid g p ∧
      g.role = .matrix ∧
      (∀ i < 64, inMask (g.activeMask p.mask .guard) i = false) ∧
      ∃ (f : Drain), g.HasA [f.acc.toNat] ∧
      g.HasV [f.vf.toNat] ∧
      g.HasS (upFrom (4 * f.q.toNat) 4)) ∧
    (∃ (s : State) (gid : Nat) (g : Group) (p : Split) (f : MAmax), Ready s gid g p ∧
      g.role = .matrix ∧
      matImm f.px = 0 ∧
      g.HasA [f.acc.toNat] ∧
      g.HasS [f.sd.toNat]) :=
  ⟨(fun c hc => ⟨at_ ({ matrix with mode := 0x0063816, sregs := [], splits := [{ split with mask := 0x300 }] }),
    0,
    ({ matrix with mode := 0x0063816, sregs := [], splits := [{ split with mask := 0x300 }] }),
    { split with mask := 0x300 },
    mkReady part rfl rfl rfl rfl ⟨rfl, rfl, rfl, rfl⟩ rfl (by decide) rfl (by decide),
    rfl,
    by decide,
    { acc := 0, qa := 0, qb := 0, vf := 16, st := 0, px := none },
    by unfold Group.HasA; decide,
    by unfold Group.HasV; decide,
    by unfold Group.HasS; decide⟩),
  ⟨at_ ({ matrix with mode := 0x0063816, sregs := [], splits := [{ split with mask := 0x300 }] }),
    0,
    ({ matrix with mode := 0x0063816, sregs := [], splits := [{ split with mask := 0x300 }] }),
    { split with mask := 0x300 },
    mkReady part rfl rfl rfl rfl ⟨rfl, rfl, rfl, rfl⟩ rfl (by decide) rfl (by decide),
    rfl,
    by decide,
    { acc := 0, q := 0, vf := 16, st := 0, px := none },
    by unfold Group.HasA; decide,
    by unfold Group.HasV; decide,
    by unfold Group.HasS; decide⟩,
  ⟨at_ matrix,
    0,
    matrix,
    split,
    { acc := 0, sd := 4, st := 0, px := none },
    mkReady part rfl rfl rfl rfl ⟨rfl, rfl, rfl, rfl⟩ rfl (by decide) rfl (by decide),
    rfl,
    by decide,
    by unfold Group.HasA; decide,
    by unfold Group.HasS; decide⟩⟩

/-- MatrixEngine. -/
theorem wit_matrixEngine_1 :
    (∃ (s : State) (gid : Nat) (g : Group) (x : Team) (op : MatOp) (r : List MatOp), Oldest s gid g x op r ∧
      op.started = false ∧
      op.waitsLocks = false) ∧
    (∃ (s : State) (gid : Nat) (g : Group) (x : Team) (op : MatOp) (r : List MatOp), Oldest s gid g x op r ∧
      op.started = true) ∧
    (∃ (s : State) (gid : Nat) (g : Group) (x : Team) (op : MatOp) (r : List MatOp), Oldest s gid g x op r ∧
      ∃ (d : Nat) (a : List (List FVal)) (b : List (List FVal)) (y : Nat → Nat → AccRes), stepOperands s g x op = some (d, a, b) ∧
      op.started = true ∧
      op.done < op.kind.steps ∧
      (∀ m n, y m n = stepElem (a.getD m []) (b.getD n []) (g.acc d false (16 * m + n)).toNat (g.acc d true (16 * m + n)).toNat
      (fwRes op.fmt))) ∧
    (∃ (s : State) (gid : Nat) (g : Group) (x : Team) (op : MatOp) (r : List MatOp), Oldest s gid g x op r ∧
      ∃ (d : Nat) (tr : Bool), op.kind = .drain d tr ∧
      op.started = true ∧
      op.done < 16) ∧
    (∃ (s : State) (gid : Nat) (g : Group) (x : Team) (op : MatOp) (r : List MatOp), Oldest s gid g x op r ∧
      op.started = true ∧
      op.done = op.kind.steps ∧
      (∀ d h row v m id, op.kind ≠ .accrd d h row v m id)) ∧
    (∃ (s : State) (gid : Nat) (g : Group) (x : Team) (op : MatOp) (r : List MatOp), Oldest s gid g x op r ∧
      ∃ (d : Nat) (h : Bool) (row : Nat) (v : Nat) (m : DWord) (id : Nat) (pe : PendOp), op.kind = .accrd d h row v m id ∧
      tabGet g.pend id = some pe ∧
      op.counted = false ∧
      op.started = true ∧
      op.done = 0 ∧
      m = m &&& maskBelow g.width) ∧
    (∃ (a : List FVal) (b : List FVal) (m : Nat) (r : Nat) (res : Bool), ((∃ x ∈ a, x.isNan = true) ∨ (∃ x ∈ b, x.isNan = true) ∨ fp32.isNan m = true) ∧
      a.length = b.length) ∧
    (∃ (a : List FVal) (b : List FVal) (m : Nat) (r : Nat) (res : Bool), (∀ x ∈ a, x.isNan = false) ∧
      (∀ x ∈ b, x.isNan = false) ∧
      fp32.isNan m = false ∧
      (∃ c ∈ a.zip b, c.1.mul c.2 = none)) :=
  ⟨⟨at_ (working (.accz 0) false 0),
    0,
    (working (.accz 0) false 0),
    team,
    matOp (.accz 0) false 0,
    [],
    ⟨rfl, rfl, rfl, rfl, rfl⟩,
    by decide,
    by decide⟩,
  ⟨at_ (working (.accz 0) true 0),
    0,
    (working (.accz 0) true 0),
    team,
    matOp (.accz 0) true 0,
    [],
    ⟨rfl, rfl, rfl, rfl, rfl⟩,
    by decide⟩,
  ⟨at_ (working (.mma 0 0 1) true 0),
    0,
    (working (.mma 0 0 1) true 0),
    team,
    matOp (.mma 0 0 1) true 0,
    [],
    ⟨rfl, rfl, rfl, rfl, rfl⟩,
    0,
    _,
    _,
    _,
    rfl,
    by decide,
    by decide,
    (fun _ _ => rfl)⟩,
  ⟨at_ (working (.drain 0 false) true 3),
    0,
    (working (.drain 0 false) true 3),
    team,
    matOp (.drain 0 false) true 3,
    [],
    ⟨rfl, rfl, rfl, rfl, rfl⟩,
    0,
    false,
    by decide,
    by decide,
    by decide⟩,
  ⟨at_ (working (.accz 0) true 0),
    0,
    (working (.accz 0) true 0),
    team,
    matOp (.accz 0) true 0,
    [],
    ⟨rfl, rfl, rfl, rfl, rfl⟩,
    by decide,
    by decide,
    nofun⟩,
  ⟨at_ { (working (.accrd 0 false 2 4 0xFF 7) true 0) with pend := [(7, { kind := .late, counter := 3, dests := [], clobbered := [], lines := [], walked := [], flags := 0, mask := 0xFF, trap := none })] },
    0,
    { (working (.accrd 0 false 2 4 0xFF 7) true 0) with pend := [(7, { kind := .late, counter := 3, dests := [], clobbered := [], lines := [], walked := [], flags := 0, mask := 0xFF, trap := none })] },
    team,
    matOp (.accrd 0 false 2 4 0xFF 7) true 0,
    [],
    ⟨rfl, rfl, rfl, rfl, rfl⟩,
    0,
    false,
    2,
    4,
    0xFF,
    7,
    { kind := .late, counter := 3, dests := [], clobbered := [], lines := [], walked := [], flags := 0, mask := 0xFF, trap := none },
    by decide,
    by decide,
    by decide,
    by decide,
    by decide,
    by decide⟩,
  ⟨[.fin { neg := false, m := 1, e := 0 }],
    [.fin { neg := false, m := 1, e := 0 }],
    0x7FC00000,
    0,
    false,
    .inr (.inr (by decide)),
    by decide⟩,
  ⟨[.inf false],
    [.fin { neg := false, m := 0, e := 0 }],
    0,
    0,
    false,
    by decide,
    by decide,
    by decide,
    ⟨_, List.mem_singleton.mpr rfl, by decide⟩⟩⟩

/-- MatrixEngine. -/
theorem wit_matrixEngine_2 :
    (∃ (a : List FVal) (b : List FVal) (ps : List FVal) (m : Nat) (r : Nat) (res : Bool) (n : Bool), ((a.zip b).map (fun c => c.1.mul c.2) = ps.map some) ∧
      (∀ x ∈ ps, x.isNan = false) ∧
      fp32.isNan m = false ∧
      FVal.inf n ∈ ps ++ [fp32.val m] ∧
      FVal.inf (!n) ∈ ps ++ [fp32.val m]) ∧
    (∃ (a : List FVal) (b : List FVal) (ps : List FVal) (m : Nat) (r : Nat) (res : Bool) (n : Bool), ((a.zip b).map (fun c => c.1.mul c.2) = ps.map some) ∧
      (∀ x ∈ ps, x.isNan = false) ∧
      fp32.isNan m = false ∧
      FVal.inf n ∈ ps ++ [fp32.val m] ∧
      FVal.inf (!n) ∉ ps ++ [fp32.val m]) ∧
    (∃ (a : List FVal) (b : List FVal) (ts : List Dy) (m : Nat) (r : Nat) (res : Bool) (x : Int), ((a.zip b).map (fun c => c.1.mul c.2) ++ [some (fp32.val m)] = ts.map (fun d => some (.fin d))) ∧
      (∃ d ∈ ts, d.m ≠ 0 ∧ d.lead = x) ∧
      (∀ d ∈ ts, d.m ≠ 0 → d.lead ≤ x)) ∧
    (∃ (a : List FVal) (b : List FVal) (ts : List Dy) (m : Nat) (r : Nat), ((a.zip b).map (fun c => c.1.mul c.2) ++ [some (fp32.val m)] = ts.map (fun d => some (.fin d))) ∧
      (∀ d ∈ ts, d.m = 0)) :=
  ⟨⟨[.inf false],
    [.fin { neg := false, m := 1, e := 0 }],
    [.inf false],
    0xFF800000,
    0,
    false,
    false,
    by decide,
    by decide,
    by decide,
    by decide,
    by decide⟩,
  ⟨[.inf false],
    [.fin { neg := false, m := 1, e := 0 }],
    [.inf false],
    0,
    0,
    false,
    false,
    by decide,
    by decide,
    by decide,
    by decide,
    by decide⟩,
  ⟨[.fin { neg := false, m := 1, e := 0 }],
    [.fin { neg := false, m := 1, e := 0 }],
    [{ neg := false, m := 1, e := 0 }, { neg := false, m := 0, e := -149 }],
    0,
    0,
    false,
    0,
    by decide,
    by decide,
    by decide⟩,
  ⟨[],
    [],
    [{ neg := false, m := 0, e := -149 }],
    0,
    0,
    by decide,
    by decide⟩⟩

/-- CopiesStart. -/
theorem wit_copiesStart_1 :
    (∃ e, e ∈ copyOps ∧
      ∃ (s : State) (gid : Nat) (g : Group) (p : Split) (f : Cpy) (c : Copy), Ready s gid g p ∧
      f.mask = 0 ∧
      c.slot = 0 ∧
      g.role = .dealer ∧
      matImm f.px = 0 ∧
      g.HasS (upFrom (8 * f.cr.toNat) 8 ++ [f.sd.toNat]) ∧
      RecordRead g gid c e.2 f.cr.toNat 0 ∧
      CopyChecked s gid g c (decide ((g.sreg (8 * f.cr.toNat + 7)).toNat % 2 ^ 12 ≠ 0)) ∧
      g.cnt.c4 < 255 ∧
      s.engineLoad (coreOf gid) < 32 ∧
      (s.spansOf (g.agent gid) c.spanList).length ≤ s.freeLocks (clusterOf (coreOf gid))) ∧
    (∃ e, e ∈ copyOps ∧
      ∃ (s : State) (gid : Nat) (g : Group) (p : Split) (f : Cpy) (c : Copy) (tid : Nat) (x : Team) (r : Ring), Ready s gid g p ∧
      f.mask ≠ 0 ∧
      g.team = some tid ∧
      s.team tid = some x ∧
      x.ring c.ring = some r ∧
      r.producer = some g.index ∧
      r.claimed = some c.slot ∧
      f.mask.toNat < 2 ^ r.pos.length ∧
      g.role = .dealer ∧
      matImm f.px = 0 ∧
      g.HasS (upFrom (8 * f.cr.toNat) 8 ++ [f.sd.toNat]) ∧
      RecordRead g gid c e.2 f.cr.toNat f.mask ∧
      CopyChecked s gid g c (decide ((g.sreg (8 * f.cr.toNat + 7)).toNat % 2 ^ 12 ≠ 0)) ∧
      g.cnt.c4 < 255 ∧
      s.engineLoad (coreOf gid) < 32 ∧
      (s.spansOf (g.agent gid) c.spanList).length ≤ s.freeLocks (clusterOf (coreOf gid))) :=
  ⟨⟨copyOps[0],
    List.getElem_mem _,
    at_ dealer,
    0,
    dealer,
    split,
    { cr := 0, mask := 0, sd := 4, st := 0, px := none },
    copyRec .cpy 0,
    mkReady part rfl rfl rfl rfl ⟨rfl, rfl, rfl, rfl⟩ rfl (by decide) rfl (by decide),
    by decide,
    by decide,
    rfl,
    by decide,
    by unfold Group.HasS; decide,
    ⟨⟨rfl, rfl, rfl, rfl, rfl⟩, rfl, rfl, ⟨rfl, rfl⟩, ⟨rfl, rfl⟩, rfl, ⟨rfl, rfl, rfl⟩, ⟨rfl, rfl, rfl, rfl, rfl, rfl, rfl, rfl, rfl, rfl, rfl, rfl, rfl, rfl, rfl, rfl, rfl, rfl⟩⟩,
    ⟨by decide, ⟨by decide, by decide⟩, ⟨by decide, by decide, by decide⟩, spansFit (by decide)⟩,
    by decide,
    by decide,
    by decide⟩,
  ⟨copyOps[0],
    List.getElem_mem _,
    withRing dealer (ring (some 0) none true false (slot false 0 1) (slot false 0 1)),
    0,
    dealer,
    split,
    { cr := 0, mask := 1, sd := 4, st := 0, px := none },
    copyRec .cpy 1,
    1,
    ringed (ring (some 0) none true false (slot false 0 1) (slot false 0 1)),
    (ring (some 0) none true false (slot false 0 1) (slot false 0 1)),
    mkReady part rfl rfl rfl rfl ⟨rfl, rfl, rfl, rfl⟩ rfl (by decide) rfl (by decide),
    by decide,
    by decide,
    by decide,
    by decide,
    by decide,
    by decide,
    by decide,
    rfl,
    by decide,
    by unfold Group.HasS; decide,
    ⟨⟨rfl, rfl, rfl, rfl, rfl⟩, rfl, rfl, ⟨rfl, rfl⟩, ⟨rfl, rfl⟩, rfl, ⟨rfl, rfl, rfl⟩, ⟨rfl, rfl, rfl, rfl, rfl, rfl, rfl, rfl, rfl, rfl, rfl, rfl, rfl, rfl, rfl, rfl, rfl, rfl⟩⟩,
    ⟨by decide, ⟨by decide, by decide⟩, ⟨by decide, by decide, by decide⟩, spansFit (by decide)⟩,
    by decide,
    by decide,
    by decide⟩⟩

/-- CopiesStart. -/
theorem wit_copiesStart_2 :
    (∃ (s : State) (gid : Nat) (g : Group) (p : Split) (f : Cpyx) (c : Copy), Ready s gid g p ∧
      c.slot = 0 ∧
      g.role = .dealer ∧
      matImm f.px = 0 ∧
      g.HasS (upFrom (8 * f.cr.toNat) 8 ++ [f.sd.toNat]) ∧
      RecordRead g gid c .cpyx f.cr.toNat 0 ∧
      CopyChecked s gid g c (decide ((g.sreg (8 * f.cr.toNat + 7)).toNat % 2 ^ 12 ≠ 0)) ∧
      g.cnt.c4 < 255 ∧
      s.engineLoad (coreOf gid) < 32 ∧
      (s.spansOf (g.agent gid) c.spanList).length ≤ s.freeLocks (clusterOf (coreOf gid))) ∧
    (∃ (s : State) (gid : Nat) (g : Group) (p : Split) (f : CTag), Ready s gid g p ∧
      g.role = .dealer ∧
      matImm f.px = 0 ∧
      g.HasS (upFrom f.sd.toNat 4 ++ [f.sa.toNat]) ∧
      (∀ e ∈ s.copies, e.2.gid = gid → e.2.tag ≠ (g.sreg f.sa.toNat).toNat)) :=
  ⟨⟨at_ dealer,
    0,
    dealer,
    split,
    { cr := 0, sd := 4, st := 0, px := none },
    copyRec .cpyx 0,
    mkReady part rfl rfl rfl rfl ⟨rfl, rfl, rfl, rfl⟩ rfl (by decide) rfl (by decide),
    by decide,
    rfl,
    by decide,
    by unfold Group.HasS; decide,
    ⟨⟨rfl, rfl, rfl, rfl, rfl⟩, rfl, rfl, ⟨rfl, rfl⟩, ⟨rfl, rfl⟩, rfl, ⟨rfl, rfl, rfl⟩, ⟨rfl, rfl, rfl, rfl, rfl, rfl, rfl, rfl, rfl, rfl, rfl, rfl, rfl, rfl, rfl, rfl, rfl, rfl⟩⟩,
    ⟨by decide, ⟨by decide, by decide⟩, ⟨by decide, by decide, by decide⟩, spansFit (by decide)⟩,
    by decide,
    by decide,
    by decide⟩,
  ⟨at_ dealer,
    0,
    dealer,
    split,
    { sa := 8, sd := 4, st := 0, px := none },
    mkReady part rfl rfl rfl rfl ⟨rfl, rfl, rfl, rfl⟩ rfl (by decide) rfl (by decide),
    rfl,
    by decide,
    by unfold Group.HasS; decide,
    (fun _ h => absurd h List.not_mem_nil)⟩⟩

/-- CopiesStart. -/
theorem wit_copiesStart_3 :
    (∃ (s : State) (gid : Nat) (g : Group) (p : Split) (f : CTag), Ready s gid g p ∧
      g.role = .dealer ∧
      matImm f.px = 0 ∧
      g.HasS (upFrom f.sd.toNat 4 ++ [f.sa.toNat]) ∧
      ∃ e, e ∈ s.copies ∧
      e.2.gid = gid ∧
      e.2.tag = (g.sreg f.sa.toNat).toNat ∧
      e.2.tag < 2 ^ 16 ∧
      (∀ q ∈ s.copies, q.2.gid = gid → q.2.tag = e.2.tag → q = e)) ∧
    (∃ (s : State) (gid : Nat) (g : Group) (p : Split) (f : CTag), Ready s gid g p ∧
      g.role = .dealer ∧
      matImm f.px = 0 ∧
      g.HasS [f.sd.toNat, f.sa.toNat] ∧
      (∀ e ∈ s.copies, e.2.gid = gid → e.2.tag ≠ (g.sreg f.sa.toNat).toNat % 2 ^ 16)) :=
  ⟨⟨copying { copyRec .cpy 0 with tag := 0 },
    0,
    dealer,
    split,
    { sa := 8, sd := 4, st := 0, px := none },
    mkReady part rfl rfl rfl rfl ⟨rfl, rfl, rfl, rfl⟩ rfl (by decide) rfl (by decide),
    rfl,
    by decide,
    by unfold Group.HasS; decide,
    (5, copyRec .cpy 0),
    List.mem_singleton.mpr rfl,
    by decide,
    by decide,
    by decide,
    (fun q hq _ _ => List.mem_singleton.mp hq)⟩,
  ⟨at_ dealer,
    0,
    dealer,
    split,
    { sa := 8, sd := 4, st := 0, px := none },
    mkReady part rfl rfl rfl rfl ⟨rfl, rfl, rfl, rfl⟩ rfl (by decide) rfl (by decide),
    rfl,
    by decide,
    by unfold Group.HasS; decide,
    (fun _ h => absurd h List.not_mem_nil)⟩⟩

/-- CopiesStart. -/
theorem wit_copiesStart_4 :
    (∃ (s : State) (gid : Nat) (g : Group) (p : Split) (f : CTag), Ready s gid g p ∧
      g.role = .dealer ∧
      matImm f.px = 0 ∧
      g.HasS [f.sd.toNat, f.sa.toNat] ∧
      ∃ e, e ∈ s.copies ∧
      e.2.gid = gid ∧
      e.2.tag = (g.sreg f.sa.toNat).toNat % 2 ^ 16 ∧
      (∀ q ∈ s.copies, q.2.gid = gid → q.2.tag = e.2.tag → q = e) ∧
      e.2.mask = 0 ∧
      e.2.cause = 0 ∧
      e.2.cancelled = false ∧
      (e.2.st = .moving ∨ e.2.st = .space ∨ e.2.st = .reserve)) ∧
    (∃ (s : State) (gid : Nat) (g : Group) (p : Split) (f : CTag), Ready s gid g p ∧
      g.role = .dealer ∧
      matImm f.px = 0 ∧
      g.HasS [f.sd.toNat, f.sa.toNat] ∧
      ∃ e, e ∈ s.copies ∧
      e.2.gid = gid ∧
      e.2.tag = (g.sreg f.sa.toNat).toNat % 2 ^ 16 ∧
      (∀ q ∈ s.copies, q.2.gid = gid → q.2.tag = e.2.tag → q = e) ∧
      (e.2.st = .retired ∨ (e.2.mask = 0 ∧ e.2.st ≠ .published ∧ (e.2.cause ≠ 0 ∨ e.2.cancelled = true)))) :=
  ⟨⟨copying { copyRec .cpy 0 with tag := 0 },
    0,
    dealer,
    split,
    { sa := 8, sd := 4, st := 0, px := none },
    mkReady part rfl rfl rfl rfl ⟨rfl, rfl, rfl, rfl⟩ rfl (by decide) rfl (by decide),
    rfl,
    by decide,
    by unfold Group.HasS; decide,
    (5, copyRec .cpy 0),
    List.mem_singleton.mpr rfl,
    by decide,
    by decide,
    (fun q hq _ _ => List.mem_singleton.mp hq),
    by decide,
    by decide,
    by decide,
    .inl rfl⟩,
  ⟨copying { copyRec .cpy 0 with tag := 0, st := .retired },
    0,
    dealer,
    split,
    { sa := 8, sd := 4, st := 0, px := none },
    mkReady part rfl rfl rfl rfl ⟨rfl, rfl, rfl, rfl⟩ rfl (by decide) rfl (by decide),
    rfl,
    by decide,
    by unfold Group.HasS; decide,
    (5, { copyRec .cpy 0 with tag := 0, st := .retired }),
    List.mem_singleton.mpr rfl,
    by decide,
    by decide,
    (fun q hq _ _ => List.mem_singleton.mp hq),
    .inl rfl⟩⟩

/-- CopiesStart. -/
theorem wit_copiesStart_5 : ∃ (s : State) (gid : Nat) (g : Group) (p : Split) (f : CTag), Ready s gid g p ∧
      g.role = .dealer ∧
      matImm f.px = 0 ∧
      g.HasS [f.sd.toNat, f.sa.toNat] ∧
      ∃ e, e ∈ s.copies ∧
      e.2.gid = gid ∧
      e.2.tag = (g.sreg f.sa.toNat).toNat % 2 ^ 16 ∧
      (∀ q ∈ s.copies, q.2.gid = gid → q.2.tag = e.2.tag → q = e) ∧
      ∃ x, Outside s g x ∧
      e.2.st ≠ .retired ∧
      (e.2.mask ≠ 0 ∨ e.2.st = .published) :=
  ⟨copying { copyRec .cpy 1 with tag := 0 },
    0,
    dealer,
    split,
    { sa := 8, sd := 4, st := 0, px := none },
    mkReady part rfl rfl rfl rfl ⟨rfl, rfl, rfl, rfl⟩ rfl (by decide) rfl (by decide),
    rfl,
    by decide,
    by unfold Group.HasS; decide,
    (5, { copyRec .cpy 1 with tag := 0 }),
    List.mem_singleton.mpr rfl,
    by decide,
    by decide,
    (fun q hq _ _ => List.mem_singleton.mp hq),
    part,
    ⟨rfl, rfl⟩,
    by decide,
    .inl (by decide)⟩

/-- CopyEngine. -/
theorem wit_copyEngine_1 :
    (∃ (s : State) (cid : Nat) (c : Copy) (g : Group), Works s cid c g ∧
      ∃ (d : Nat) (col : Nat) (len : Nat) (addr : Nat) (bs : List Byte) (ovr : Bool) (pl : Place), c.st = .moving ∧
      c.moved = c.pos ∧
      c.pos < c.total ∧
      s.NoReplicas ∧
      d = c.pos / c.dstRowBytes ∧
      col = c.pos % c.dstRowBytes ∧
      c.rowDst s d col = .ok addr ∧
      len = min (c.dstRowBytes - col) (128 - addr % 128) ∧
      c.rowData s d col len = .ok (bs, ovr) ∧
      bs.length = len ∧
      s.engineCheck (s.copyAgent c) addr len .write = .ok pl) ∧
    (∃ (s : State) (cid : Nat) (c : Copy) (g : Group), Works s cid c g ∧
      ∃ (d : Nat) (col : Nat) (cause : Nat) (a : Nat), c.st = .moving ∧
      c.moved = c.pos ∧
      c.pos < c.total ∧
      d = c.pos / c.dstRowBytes ∧
      col = c.pos % c.dstRowBytes ∧
      (c.rowDst s d col = .error (.fail cause a) ∨ ∃ addr len, c.rowDst s d col = .ok addr ∧
      len = min (c.dstRowBytes - col) (128 - addr % 128) ∧ (c.rowData s d col len = .error (.fail cause a) ∨
        ∃ bs, c.rowData s d col len = .ok bs ∧ s.engineCheck (s.copyAgent c) addr len .write = .error (.fail cause a)))) ∧
    (∃ (s : State) (cid : Nat) (c : Copy) (g : Group), Works s cid c g ∧
      c.st = .moving ∧
      c.moved < c.pos ∧
      c.pos < c.total ∧
      s.writePerformed cid c.lines = true ∧
      c.kind ≠ .cpyx ∧
      ∃ u, (u = (match s.copyPot c with
        | some k => s.creditPot k (c.pos - c.moved)
        | none => s))) ∧
    (∃ (s : State) (cid : Nat) (c : Copy) (g : Group), Works s cid c g ∧
      c.st = .moving ∧
      c.moved < c.pos ∧
      c.pos = c.total ∧
      s.writePerformed cid c.lines = true ∧
      c.kind ≠ .cpyx ∧
      g.residency = .running ∧
      c.mask = 0 ∧
      ((s.copies.filter fun e => e.2.gid = c.gid && e.2.st = .retired).length < 32) ∧
      ∃ u, (u = (match s.copyPot c with
        | some k => s.creditPot k (c.pos - c.moved)
        | none => s))) ∧
    (∃ (s : State) (cid : Nat) (c : Copy) (g : Group), Works s cid c g ∧
      c.st = .moving ∧
      c.moved < c.pos ∧
      c.pos < c.total ∧
      s.writePerformed cid c.lines = true ∧
      c.kind = .cpyx ∧
      ∃ h, ∃ q, ∃ tid, ∃ x, s.seatHolder g.part c.qseat = .live h ∧
      s.group h = some q ∧
      q.team = some tid ∧
      s.team tid = some x ∧
      c.qpot + 16 ≤ x.winLen) ∧
    (∃ (s : State) (cid : Nat) (c : Copy) (g : Group), Works s cid c g ∧
      c.st = .moving ∧
      c.moved < c.pos ∧
      c.pos < c.total ∧
      s.writePerformed cid c.lines = true ∧
      c.kind = .cpyx ∧
      s.seatHolder g.part c.qseat = .moving) ∧
    (∃ (s : State) (cid : Nat) (c : Copy) (g : Group), Works s cid c g ∧
      c.st = .moving ∧
      c.moved < c.pos ∧
      s.writePerformed cid c.lines = false) ∧
    (∃ (s : State) (cid : Nat) (c : Copy) (g : Group), tabGet s.copies cid = some c ∧
      s.group c.gid = some g ∧
      c.ended = true ∧
      (c.cause ≠ 0 ∨ c.cancelled = true ∨ MayStart s cid c) ∧
      g.residency = .running ∧
      c.mask = 0 ∧
      ((s.copies.filter fun e => e.2.gid = c.gid && e.2.st = .retired).length < 32)) :=
  ⟨⟨copying (copyRec .cpy 0),
    5,
    (copyRec .cpy 0),
    dealer,
    ⟨rfl, rfl, rfl, ⟨rfl, rfl⟩, .inr (by unfold MayStart; decide), rfl, rfl⟩,
    _,
    _,
    _,
    _,
    _,
    _,
    _,
    by decide,
    by decide,
    by decide,
    nofun,
    rfl,
    rfl,
    rfl,
    rfl,
    rfl,
    rfl,
    rfl⟩,
  ⟨copying ({ copyRec .cpy 0 with src := 0 }),
    5,
    ({ copyRec .cpy 0 with src := 0 }),
    dealer,
    ⟨rfl, rfl, rfl, ⟨rfl, rfl⟩, .inr (by unfold MayStart; decide), rfl, rfl⟩,
    _,
    _,
    _,
    _,
    by decide,
    by decide,
    by decide,
    rfl,
    rfl,
    .inr ⟨_, _, rfl, rfl, .inl rfl⟩⟩,
  ⟨copying ({ copyRec .cpy 0 with pos := 64 }),
    5,
    ({ copyRec .cpy 0 with pos := 64 }),
    dealer,
    ⟨rfl, rfl, rfl, ⟨rfl, rfl⟩, .inr (by unfold MayStart; decide), rfl, rfl⟩,
    by decide,
    by decide,
    by decide,
    by decide,
    by decide,
    _,
    rfl⟩,
  ⟨copying ({ copyRec .cpy 0 with pos := 128, moved := 64 }),
    5,
    ({ copyRec .cpy 0 with pos := 128, moved := 64 }),
    dealer,
    ⟨rfl, rfl, rfl, ⟨rfl, rfl⟩, .inr (by unfold MayStart; decide), rfl, rfl⟩,
    by decide,
    by decide,
    by decide,
    by decide,
    by decide,
    by decide,
    by decide,
    by decide,
    _,
    rfl⟩,
  ⟨{ seatState 1 dealer with copies := [(5, ({ copyRec .cpyx 0 with st := .moving, pos := 64, qsize := 128, qseat := 1 }))] },
    5,
    ({ copyRec .cpyx 0 with st := .moving, pos := 64, qsize := 128, qseat := 1 }),
    dealer,
    ⟨rfl, rfl, rfl, ⟨rfl, rfl⟩, .inr (by unfold MayStart; decide), rfl, rfl⟩,
    by decide,
    by decide,
    by decide,
    by decide,
    by decide,
    0,
    dealer,
    1,
    team,
    rfl,
    rfl,
    rfl,
    rfl,
    by decide⟩,
  ⟨{ seatState 4 dealer with copies := [(5, ({ copyRec .cpyx 0 with st := .moving, pos := 64, qsize := 128, qseat := 1 }))] },
    5,
    ({ copyRec .cpyx 0 with st := .moving, pos := 64, qsize := 128, qseat := 1 }),
    dealer,
    ⟨rfl, rfl, rfl, ⟨rfl, rfl⟩, .inr (by unfold MayStart; decide), rfl, rfl⟩,
    by decide,
    by decide,
    by decide,
    by decide,
    by decide,
    rfl⟩,
  ⟨{ copying ({ { copyRec .cpy 0 with pos := 64 } with lines := [7] }) with dir := [(7, { holders := [], l1 := [], arriving := [(3, { data := List.replicate 128 0, dirty := 1, since := 0, key := none })], invals := [] })] },
    5,
    ({ { copyRec .cpy 0 with pos := 64 } with lines := [7] }),
    dealer,
    ⟨rfl, rfl, rfl, ⟨rfl, rfl⟩, .inr (by unfold MayStart; decide), rfl, rfl⟩,
    by decide,
    by decide,
    by decide⟩,
  ⟨copying ({ copyRec .cpy 0 with pos := 128, moved := 128 }),
    5,
    ({ copyRec .cpy 0 with pos := 128, moved := 128 }),
    dealer,
    rfl,
    rfl,
    by decide,
    .inr (.inr (by unfold MayStart; decide)),
    by decide,
    by decide,
    by decide⟩⟩

/-- CopyEngine. -/
theorem wit_copyEngine_2 :
    (∃ (s : State) (cid : Nat) (c : Copy) (g : Group) (tid : Nat) (x : Team) (r : Ring) (sl : RingSlot), tabGet s.copies cid = some c ∧
      s.group c.gid = some g ∧
      g.team = some tid ∧
      s.team tid = some x ∧
      x.ring c.ring = some r ∧
      r.slots[c.slot]? = some sl ∧
      c.mask ≠ 0 ∧
      c.ended = true ∧
      (c.cause ≠ 0 ∨ c.cancelled = true ∨ MayStart s cid c) ∧
      g.residency = .running) ∧
    (∃ (s : State) (cid : Nat) (c : Copy) (g : Group) (tid : Nat) (x : Team) (r : Ring) (sl : RingSlot), tabGet s.copies cid = some c ∧
      s.group c.gid = some g ∧
      g.team = some tid ∧
      s.team tid = some x ∧
      x.ring c.ring = some r ∧
      r.slots[c.slot]? = some sl ∧
      c.st = .published ∧
      g.residency = .running ∧
      ((s.copies.filter fun e => e.2.gid = c.gid && e.2.st = .retired).length < 32) ∧
      c.mask &&& ~~~sl.pass = 0) ∧
    (∃ (s : State) (cid : Nat) (c : Copy) (g : Group) (tid : Nat) (x : Team) (r : Ring) (sl : RingSlot), tabGet s.copies cid = some c ∧
      s.group c.gid = some g ∧
      g.team = some tid ∧
      s.team tid = some x ∧
      x.ring c.ring = some r ∧
      r.slots[c.slot]? = some sl ∧
      c.st = .published ∧
      g.residency = .running ∧
      ((s.copies.filter fun e => e.2.gid = c.gid && e.2.st = .retired).length < 32) ∧
      c.mask &&& ~~~sl.pass ≠ 0) ∧
    (∃ (s : State) (cid : Nat) (c : Copy) (g : Group), Works s cid c g ∧
      ∃ (pa : Nat) (kind : Nat) (src : Source) (src' : Source) (ls : List Nat) (ls' : List Nat) (h : Nat → Nat → Nat), c.st = .reserve ∧
      s.NoReplicas ∧
      s.engineCheck (s.copyAgent c) c.dst.toNat 128 .atomic = .ok (.phys pa kind none src ls) ∧
      s.engineCheck (s.copyAgent c) (c.dst.toNat + 0x0C) 4 .atomic = .ok (.phys (pa + 0x0C) kind none src' ls') ∧
      s.poisonAt (.phys pa kind none src ls) 32 = [] ∧
      (∀ o n, h o n = ofBytes (((s.readAt (.phys pa kind none src ls) 32).drop o).take n)) ∧
      queueOk (h 0 8) (h 8 4) (h 0x14 4) c.total = true ∧
      seatPkg (BitVec.ofNat 64 (h 0x18 8)) = s.pkg.number ∧
      s.seatHolder g.part (BitVec.ofNat 64 (h 0x18 8)) ≠ .stale) ∧
    (∃ (s : State) (cid : Nat) (c : Copy) (g : Group), Works s cid c g ∧
      ∃ (bs : List Byte), c.st = .space ∧
      s.engineRead (s.copyAgent c) 2 (c.dst.toNat + 0x10) 4 = .ok bs ∧
      c.qsize < (c.qoff + c.total + 2 ^ 32 - ofBytes bs) % 2 ^ 32) ∧
    (∃ (s : State) (cid : Nat) (c : Copy) (g : Group), Works s cid c g ∧
      ∃ (bs : List Byte), c.st = .space ∧
      s.engineRead (s.copyAgent c) 2 (c.dst.toNat + 0x10) 4 = .ok bs ∧
      (c.qoff + c.total + 2 ^ 32 - ofBytes bs) % 2 ^ 32 ≤ c.qsize) :=
  ⟨⟨{ copying ({ copyRec .cpy 1 with pos := 128, moved := 128 }) with teams := [(1, ringed (ring (some 0) none true false (slot false 0 1) (slot false 0 1)))] },
    5,
    ({ copyRec .cpy 1 with pos := 128, moved := 128 }),
    dealer,
    1,
    ringed (ring (some 0) none true false (slot false 0 1) (slot false 0 1)),
    (ring (some 0) none true false (slot false 0 1) (slot false 0 1)),
    _,
    rfl,
    rfl,
    rfl,
    rfl,
    rfl,
    rfl,
    by decide,
    by decide,
    .inr (.inr (by unfold MayStart; decide)),
    by decide⟩,
  ⟨{ copying { copyRec .cpy 1 with st := .published } with teams := [(1, ringed (ring (some 0) none true false (slot false 0 1) (slot false 0 1)))] },
    5,
    ({ copyRec .cpy 1 with st := .published }),
    dealer,
    1,
    ringed (ring (some 0) none true false (slot false 0 1) (slot false 0 1)),
    (ring (some 0) none true false (slot false 0 1) (slot false 0 1)),
    _,
    rfl,
    rfl,
    rfl,
    rfl,
    rfl,
    rfl,
    by decide,
    by decide,
    by decide,
    by decide⟩,
  ⟨{ copying { copyRec .cpy 1 with st := .published } with teams := [(1, ringed (ring (some 0) none true false (slot false 1 0) (slot false 0 1)))] },
    5,
    ({ copyRec .cpy 1 with st := .published }),
    dealer,
    1,
    ringed (ring (some 0) none true false (slot false 1 0) (slot false 0 1)),
    (ring (some 0) none true false (slot false 1 0) (slot false 0 1)),
    _,
    rfl,
    rfl,
    rfl,
    rfl,
    rfl,
    rfl,
    by decide,
    by decide,
    by decide,
    by decide⟩,
  ⟨cpyxState,
    5,
    ({ copyRec .cpyx 0 with priv := true, dst := 0x0100000000020000 }),
    dealer,
    ⟨rfl, rfl, rfl, ⟨rfl, rfl⟩, .inr (by unfold MayStart; decide), rfl, rfl⟩,
    0x20000,
    _,
    _,
    _,
    _,
    _,
    _,
    by decide,
    (fun e (he : e ∈ ([] : List (Nat × PageRec))) => nomatch he),
    rfl,
    rfl,
    by decide,
    (fun _ _ => rfl),
    by decide,
    rfl,
    by decide⟩,
  ⟨copying ({ copyRec .cpyx 0 with st := .space, qsize := 64 }),
    5,
    ({ copyRec .cpyx 0 with st := .space, qsize := 64 }),
    dealer,
    ⟨rfl, rfl, rfl, ⟨rfl, rfl⟩, .inr (by unfold MayStart; decide), rfl, rfl⟩,
    _,
    by decide,
    rfl,
    by decide⟩,
  ⟨copying ({ copyRec .cpyx 0 with st := .space, qsize := 128 }),
    5,
    ({ copyRec .cpyx 0 with st := .space, qsize := 128 }),
    dealer,
    ⟨rfl, rfl, rfl, ⟨rfl, rfl⟩, .inr (by unfold MayStart; decide), rfl, rfl⟩,
    _,
    by decide,
    rfl,
    by decide⟩⟩

/-- PotsAndRings. -/
theorem wit_potsAndRings_1 :
    (∃ (s : State) (gid : Nat) (g : Group) (p : Split) (f : SysAB) (tid : Nat) (x : Team) (o : Nat), Ready s gid g p ∧
      g.HasS [f.sa.toNat, f.sb.toNat] ∧
      g.team = some tid ∧
      s.team tid = some x ∧
      o = (g.sreg f.sa.toNat).toNat ∧
      o % 16 = 0 ∧
      o + 16 ≤ x.winLen) ∧
    (∃ (s : State) (gid : Nat) (g : Group) (p : Split) (f : Potwait) (tid : Nat) (x : Team) (o : Nat), Ready s gid g p ∧
      g.HasS [f.sd.toNat, f.sa.toNat] ∧
      g.team = some tid ∧
      s.team tid = some x ∧
      o = (g.sreg f.sa.toNat).toNat ∧
      o % 16 = 0 ∧
      o + 16 ≤ x.winLen ∧
      f.arm = true) ∧
    (∃ (s : State) (gid : Nat) (g : Group) (p : Split) (f : Potwait) (tid : Nat) (x : Team) (o : Nat), Ready s gid g p ∧
      g.HasS [f.sd.toNat, f.sa.toNat] ∧
      g.team = some tid ∧
      s.team tid = some x ∧
      o = (g.sreg f.sa.toNat).toNat ∧
      o % 16 = 0 ∧
      o + 16 ≤ x.winLen ∧
      f.arm = false ∧
      (s.sbyte (x.key o + 8)).getLsbD 0 = true) ∧
    (∃ (s : State) (gid : Nat) (g : Group) (p : Split) (f : Potwait) (tid : Nat) (x : Team) (o : Nat), Ready s gid g p ∧
      g.HasS [f.sd.toNat, f.sa.toNat] ∧
      g.team = some tid ∧
      s.team tid = some x ∧
      o = (g.sreg f.sa.toNat).toNat ∧
      o % 16 = 0 ∧
      o + 16 ≤ x.winLen ∧
      f.arm = false ∧
      (s.sbyte (x.key o + 8)).getLsbD 0 = false ∧
      ofBytes (s.sbytes (x.key o + 4) 4) ≤ ofBytes (s.sbytes (x.key o) 4)) ∧
    (∃ (s : State) (gid : Nat) (g : Group) (p : Split) (f : Potwait) (tid : Nat) (x : Team) (o : Nat), Ready s gid g p ∧
      g.HasS [f.sd.toNat, f.sa.toNat] ∧
      g.team = some tid ∧
      s.team tid = some x ∧
      o = (g.sreg f.sa.toNat).toNat ∧
      o % 16 = 0 ∧
      o + 16 ≤ x.winLen ∧
      f.arm = false ∧
      (s.sbyte (x.key o + 8)).getLsbD 0 = false ∧
      ofBytes (s.sbytes (x.key o) 4) < ofBytes (s.sbytes (x.key o + 4) 4)) ∧
    (∃ (s : State) (gid : Nat) (g : Group) (p : Split) (f : RpushPub) (tid : Nat) (x : Team) (r : Ring) (c : Nat) (sl : RingSlot), Ready s gid g p ∧
      g.team = some tid ∧
      s.team tid = some x ∧
      x.ring f.ring.toNat = some r ∧
      (r.producer = none ∨ r.producer = some g.index) ∧
      r.claimed = some c ∧
      r.slots[c]? = some sl ∧
      f.mask ≠ 0 ∧
      f.mask.toNat < 2 ^ r.pos.length) ∧
    (∃ (s : State) (gid : Nat) (g : Group) (p : Split) (f : Rpush) (tid : Nat) (x : Team) (r : Ring), Ready s gid g p ∧
      g.team = some tid ∧
      s.team tid = some x ∧
      x.ring f.ring.toNat = some r ∧
      (r.producer = none ∨ r.producer = some g.index) ∧
      r.claimed = none ∧
      g.HasS [f.sd.toNat] ∧
      r.slotFree r.ip = true) ∧
    (∃ (s : State) (gid : Nat) (g : Group) (p : Split) (f : Rpush) (tid : Nat) (x : Team) (r : Ring), Ready s gid g p ∧
      g.team = some tid ∧
      s.team tid = some x ∧
      x.ring f.ring.toNat = some r ∧
      (r.producer = none ∨ r.producer = some g.index) ∧
      r.claimed = none ∧
      g.HasS [f.sd.toNat] ∧
      r.slotFree r.ip = false) :=
  ⟨⟨at_ group,
    0,
    group,
    split,
    { sa := 8, sb := 12, st := 0 },
    1,
    team,
    _,
    mkReady part rfl rfl rfl rfl ⟨rfl, rfl, rfl, rfl⟩ rfl (by decide) rfl (by decide),
    by unfold Group.HasS; decide,
    rfl,
    rfl,
    rfl,
    by decide,
    by decide⟩,
  ⟨at_ group,
    0,
    group,
    split,
    { sd := 4, sa := 8, arm := true, st := 0 },
    1,
    team,
    _,
    mkReady part rfl rfl rfl rfl ⟨rfl, rfl, rfl, rfl⟩ rfl (by decide) rfl (by decide),
    by unfold Group.HasS; decide,
    rfl,
    rfl,
    rfl,
    by decide,
    by decide,
    by decide⟩,
  ⟨{ at_ group with spad := [(8, 1)] },
    0,
    group,
    split,
    { sd := 4, sa := 8, arm := false, st := 0 },
    1,
    team,
    _,
    mkReady part rfl rfl rfl rfl ⟨rfl, rfl, rfl, rfl⟩ rfl (by decide) rfl (by decide),
    by unfold Group.HasS; decide,
    rfl,
    rfl,
    rfl,
    by decide,
    by decide,
    by decide,
    by decide⟩,
  ⟨at_ group,
    0,
    group,
    split,
    { sd := 4, sa := 8, arm := false, st := 0 },
    1,
    team,
    _,
    mkReady part rfl rfl rfl rfl ⟨rfl, rfl, rfl, rfl⟩ rfl (by decide) rfl (by decide),
    by unfold Group.HasS; decide,
    rfl,
    rfl,
    rfl,
    by decide,
    by decide,
    by decide,
    by decide,
    by decide⟩,
  ⟨{ at_ group with spad := [(4, 1)] },
    0,
    group,
    split,
    { sd := 4, sa := 8, arm := false, st := 0 },
    1,
    team,
    _,
    mkReady part rfl rfl rfl rfl ⟨rfl, rfl, rfl, rfl⟩ rfl (by decide) rfl (by decide),
    by unfold Group.HasS; decide,
    rfl,
    rfl,
    rfl,
    by decide,
    by decide,
    by decide,
    by decide,
    by decide⟩,
  ⟨withRing group (ring (some 0) none true false (slot false 0 1) (slot false 0 1)),
    0,
    group,
    split,
    { ring := 0, mask := 1, st := 0 },
    1,
    ringed (ring (some 0) none true false (slot false 0 1) (slot false 0 1)),
    (ring (some 0) none true false (slot false 0 1) (slot false 0 1)),
    0,
    _,
    mkReady part rfl rfl rfl rfl ⟨rfl, rfl, rfl, rfl⟩ rfl (by decide) rfl (by decide),
    rfl,
    rfl,
    rfl,
    .inr rfl,
    by decide,
    rfl,
    by decide,
    by decide⟩,
  ⟨withRing group (ring none none true false (slot false 0 1) (slot false 0 1)),
    0,
    group,
    split,
    { ring := 0, mask := 0, sd := 4, st := 0 },
    1,
    ringed (ring none none true false (slot false 0 1) (slot false 0 1)),
    (ring none none true false (slot false 0 1) (slot false 0 1)),
    mkReady part rfl rfl rfl rfl ⟨rfl, rfl, rfl, rfl⟩ rfl (by decide) rfl (by decide),
    rfl,
    rfl,
    rfl,
    .inr rfl,
    by decide,
    by unfold Group.HasS; decide,
    by decide⟩,
  ⟨withRing group (ring none none true false (slot false 0 1) (slot false 0 0)),
    0,
    group,
    split,
    { ring := 0, mask := 0, sd := 4, st := 0 },
    1,
    ringed (ring none none true false (slot false 0 1) (slot false 0 0)),
    (ring none none true false (slot false 0 1) (slot false 0 0)),
    mkReady part rfl rfl rfl rfl ⟨rfl, rfl, rfl, rfl⟩ rfl (by decide) rfl (by decide),
    rfl,
    rfl,
    rfl,
    .inr rfl,
    by decide,
    by unfold Group.HasS; decide,
    by decide⟩⟩

/-- PotsAndRings. -/
theorem wit_potsAndRings_2 :
    (∃ (s : State) (gid : Nat) (g : Group) (p : Split) (f : Rpush) (tid : Nat) (x : Team) (r : Ring) (r1 : Ring) (c : Nat) (sl : RingSlot), Ready s gid g p ∧
      g.team = some tid ∧
      s.team tid = some x ∧
      x.ring f.ring.toNat = some r ∧
      (r.producer = none ∨ r.producer = some g.index) ∧
      r.claimed = some c ∧
      r.slots[c]? = some sl ∧
      f.mask ≠ 0 ∧
      f.mask.toNat < 2 ^ r.pos.length ∧
      g.HasS [f.sd.toNat] ∧
      r1 = { r with producer := some g.index, claimed := none, slots := listSet r.slots c (r.offered sl f.mask) } ∧
      r1.slotFree r.ip = true) ∧
    (∃ (s : State) (gid : Nat) (g : Group) (p : Split) (f : Rpush) (tid : Nat) (x : Team) (r : Ring) (r1 : Ring) (c : Nat) (sl : RingSlot), Ready s gid g p ∧
      g.team = some tid ∧
      s.team tid = some x ∧
      x.ring f.ring.toNat = some r ∧
      (r.producer = none ∨ r.producer = some g.index) ∧
      r.claimed = some c ∧
      r.slots[c]? = some sl ∧
      f.mask ≠ 0 ∧
      f.mask.toNat < 2 ^ r.pos.length ∧
      g.HasS [f.sd.toNat] ∧
      r1 = { r with producer := some g.index, claimed := none, slots := listSet r.slots c (r.offered sl f.mask) } ∧
      r1.slotFree r.ip = false) ∧
    (∃ (s : State) (gid : Nat) (g : Group) (p : Split) (f : RpopRel) (tid : Nat) (x : Team) (r : Ring) (q : RingPos) (h : Nat) (sl : RingSlot), Ready s gid g p ∧
      g.team = some tid ∧
      s.team tid = some x ∧
      x.ring f.ring.toNat = some r ∧
      r.pos[f.pos.toNat]? = some q ∧
      (q.owner = none ∨ q.owner = some g.index) ∧
      q.held = some h ∧
      r.slots[h]? = some sl) ∧
    (∃ (s : State) (gid : Nat) (g : Group) (p : Split) (f : Rpop) (tid : Nat) (x : Team) (r : Ring) (q : RingPos) (sl : RingSlot), Ready s gid g p ∧
      g.team = some tid ∧
      s.team tid = some x ∧
      x.ring f.ring.toNat = some r ∧
      r.pos[f.pos.toNat]? = some q ∧
      (q.owner = none ∨ q.owner = some g.index) ∧
      q.held = none ∧
      r.slots[q.cp]? = some sl ∧
      g.HasS [f.sd.toNat] ∧
      sl.phase = q.phase ∧
      sl.offer.getLsbD f.pos.toNat = true) ∧
    (∃ (s : State) (gid : Nat) (g : Group) (p : Split) (f : Rpop) (tid : Nat) (x : Team) (r : Ring) (q : RingPos) (sl : RingSlot), Ready s gid g p ∧
      g.team = some tid ∧
      s.team tid = some x ∧
      x.ring f.ring.toNat = some r ∧
      r.pos[f.pos.toNat]? = some q ∧
      (q.owner = none ∨ q.owner = some g.index) ∧
      q.held = none ∧
      r.slots[q.cp]? = some sl ∧
      g.HasS [f.sd.toNat] ∧
      sl.phase ≠ q.phase ∧
      r.closed = true) ∧
    (∃ (s : State) (gid : Nat) (g : Group) (p : Split) (f : Rpop) (tid : Nat) (x : Team) (r : Ring) (q : RingPos) (sl : RingSlot), Ready s gid g p ∧
      g.team = some tid ∧
      s.team tid = some x ∧
      x.ring f.ring.toNat = some r ∧
      r.pos[f.pos.toNat]? = some q ∧
      (q.owner = none ∨ q.owner = some g.index) ∧
      q.held = none ∧
      r.slots[q.cp]? = some sl ∧
      g.HasS [f.sd.toNat] ∧
      sl.phase ≠ q.phase ∧
      r.closed = false) ∧
    (∃ (s : State) (gid : Nat) (g : Group) (p : Split) (f : Rpop) (tid : Nat) (x : Team) (r : Ring) (q : RingPos) (h : Nat) (sl : RingSlot) (nx : RingSlot), Ready s gid g p ∧
      g.team = some tid ∧
      s.team tid = some x ∧
      x.ring f.ring.toNat = some r ∧
      r.pos[f.pos.toNat]? = some q ∧
      (q.owner = none ∨ q.owner = some g.index) ∧
      q.held = some h ∧
      r.slots[h]? = some sl ∧
      h ≠ q.cp ∧
      r.slots[q.cp]? = some nx ∧
      nx.phase = q.phase ∧
      nx.offer.getLsbD f.pos.toNat = true ∧
      g.HasS [f.sd.toNat]) ∧
    (∃ (s : State) (gid : Nat) (g : Group) (p : Split) (f : Rpop) (tid : Nat) (x : Team) (y : Part), Ready s gid g p ∧
      g.team = some tid ∧
      s.team tid = some x ∧
      x.ring f.ring.toNat = none ∧
      g.HasS [f.sd.toNat] ∧
      g.handler = none ∧
      s.part g.part = some y ∧
      ∃ i, (i = Instr.rpop f ∨ i = Instr.rpopTake f)) :=
  ⟨⟨withRing group (ring (some 0) none true false (slot false 0 1) (slot false 0 1)),
    0,
    group,
    split,
    { ring := 0, mask := 1, sd := 4, st := 0 },
    1,
    ringed (ring (some 0) none true false (slot false 0 1) (slot false 0 1)),
    (ring (some 0) none true false (slot false 0 1) (slot false 0 1)),
    _,
    0,
    _,
    mkReady part rfl rfl rfl rfl ⟨rfl, rfl, rfl, rfl⟩ rfl (by decide) rfl (by decide),
    rfl,
    rfl,
    rfl,
    .inr rfl,
    by decide,
    rfl,
    by decide,
    by decide,
    by unfold Group.HasS; decide,
    rfl,
    by decide⟩,
  ⟨withRing group (ring (some 0) none true false (slot false 0 1) (slot false 0 0)),
    0,
    group,
    split,
    { ring := 0, mask := 1, sd := 4, st := 0 },
    1,
    ringed (ring (some 0) none true false (slot false 0 1) (slot false 0 0)),
    (ring (some 0) none true false (slot false 0 1) (slot false 0 0)),
    _,
    0,
    _,
    mkReady part rfl rfl rfl rfl ⟨rfl, rfl, rfl, rfl⟩ rfl (by decide) rfl (by decide),
    rfl,
    rfl,
    rfl,
    .inr rfl,
    by decide,
    rfl,
    by decide,
    by decide,
    by unfold Group.HasS; decide,
    rfl,
    by decide⟩,
  ⟨withRing group (ring none (some 0) true false (slot true 1 0) (slot false 0 1)),
    0,
    group,
    split,
    { ring := 0, pos := 0, st := 0 },
    1,
    ringed (ring none (some 0) true false (slot true 1 0) (slot false 0 1)),
    (ring none (some 0) true false (slot true 1 0) (slot false 0 1)),
    _,
    0,
    _,
    mkReady part rfl rfl rfl rfl ⟨rfl, rfl, rfl, rfl⟩ rfl (by decide) rfl (by decide),
    rfl,
    rfl,
    rfl,
    rfl,
    .inr rfl,
    by decide,
    rfl⟩,
  ⟨withRing group (ring none none true false (slot true 1 0) (slot false 0 1)),
    0,
    group,
    split,
    { ring := 0, pos := 0, sd := 4, st := 0 },
    1,
    ringed (ring none none true false (slot true 1 0) (slot false 0 1)),
    (ring none none true false (slot true 1 0) (slot false 0 1)),
    _,
    _,
    mkReady part rfl rfl rfl rfl ⟨rfl, rfl, rfl, rfl⟩ rfl (by decide) rfl (by decide),
    rfl,
    rfl,
    rfl,
    rfl,
    .inr rfl,
    by decide,
    rfl,
    by unfold Group.HasS; decide,
    by decide,
    by decide⟩,
  ⟨withRing group (ring none none true true (slot false 1 1) (slot false 0 1)),
    0,
    group,
    split,
    { ring := 0, pos := 0, sd := 4, st := 0 },
    1,
    ringed (ring none none true true (slot false 1 1) (slot false 0 1)),
    (ring none none true true (slot false 1 1) (slot false 0 1)),
    _,
    _,
    mkReady part rfl rfl rfl rfl ⟨rfl, rfl, rfl, rfl⟩ rfl (by decide) rfl (by decide),
    rfl,
    rfl,
    rfl,
    rfl,
    .inr rfl,
    by decide,
    rfl,
    by unfold Group.HasS; decide,
    by decide,
    by decide⟩,
  ⟨withRing group (ring none none true false (slot false 1 1) (slot false 0 1)),
    0,
    group,
    split,
    { ring := 0, pos := 0, sd := 4, st := 0 },
    1,
    ringed (ring none none true false (slot false 1 1) (slot false 0 1)),
    (ring none none true false (slot false 1 1) (slot false 0 1)),
    _,
    _,
    mkReady part rfl rfl rfl rfl ⟨rfl, rfl, rfl, rfl⟩ rfl (by decide) rfl (by decide),
    rfl,
    rfl,
    rfl,
    rfl,
    .inr rfl,
    by decide,
    rfl,
    by unfold Group.HasS; decide,
    by decide,
    by decide⟩,
  ⟨withRing group (ring none (some 1) true false (slot true 1 0) (slot false 1 0)),
    0,
    group,
    split,
    { ring := 0, pos := 0, sd := 4, st := 0 },
    1,
    ringed (ring none (some 1) true false (slot true 1 0) (slot false 1 0)),
    (ring none (some 1) true false (slot true 1 0) (slot false 1 0)),
    _,
    1,
    _,
    _,
    mkReady part rfl rfl rfl rfl ⟨rfl, rfl, rfl, rfl⟩ rfl (by decide) rfl (by decide),
    rfl,
    rfl,
    rfl,
    rfl,
    .inr rfl,
    by decide,
    rfl,
    by decide,
    rfl,
    by decide,
    by decide,
    by unfold Group.HasS; decide⟩,
  ⟨at_ group,
    0,
    group,
    split,
    { ring := 0, pos := 0, sd := 4, st := 0 },
    1,
    team,
    part,
    mkReady part rfl rfl rfl rfl ⟨rfl, rfl, rfl, rfl⟩ rfl (by decide) rfl (by decide),
    rfl,
    rfl,
    by decide,
    by unfold Group.HasS; decide,
    by decide,
    rfl,
    _,
    .inl rfl⟩⟩

/-- RemoteRequests. -/
theorem wit_remoteRequests_1 :
    (∃ (s : State) (gid : Nat) (g : Group) (p : Split) (f : Rld) (pkg : Nat), Ready s gid g p ∧
      fabPxBad f.px true true = false ∧
      g.HasV (upFrom f.vd.toNat 2) ∧
      g.HasS (upFrom f.sb.toNat 2) ∧
      StreamUsable s g f.stream.toNat ∧
      g.cnt.c0 < 255 ∧
      (∀ i < 64, g.laneOn p f.px i = true → g.remoteVa f.sb.toNat (f.vd.toNat + 1) f.px i % 4 = 0) ∧
      s.rankTarget g.part (bits (g.spair f.sb.toNat).toNat 54 10) = .send pkg ∧
      (∃ i < 64, g.laneOn p f.px i = true)) ∧
    (∃ (s : State) (gid : Nat) (g : Group) (p : Split) (f : Rst) (pkg : Nat), Ready s gid g p ∧
      fabPxBad f.px true true = false ∧
      g.HasV (upFrom f.vs.toNat 2) ∧
      g.HasS (upFrom f.sb.toNat 2) ∧
      StreamUsable s g f.stream.toNat ∧
      g.cnt.c5 < 255 ∧
      (∀ i < 64, g.laneOn p f.px i = true → g.remoteVa f.sb.toNat (f.vs.toNat + 1) f.px i % 4 = 0) ∧
      s.rankTarget g.part (bits (g.spair f.sb.toNat).toNat 54 10) = .send pkg) ∧
    (∃ (s : State) (gid : Nat) (g : Group) (p : Split) (f : Ratom) (pkg : Nat), Ready s gid g p ∧
      fabPxBad f.px true true = false ∧
      g.HasV (upFrom f.vd.toNat (if f.op = 9 then 3 else 2)) ∧
      g.HasS (upFrom f.sb.toNat 2) ∧
      StreamUsable s g f.stream.toNat ∧
      g.cnt.c5 < 255 ∧
      (∀ i < 64, g.laneOn p f.px i = true → g.remoteVa f.sb.toNat (f.vd.toNat + 1) f.px i % 4 = 0) ∧
      s.rankTarget g.part (bits (g.spair f.sb.toNat).toNat 54 10) = .send pkg ∧
      (f.ret = true → ∃ i < 64, g.laneOn p f.px i = true)) ∧
    (∃ (s : State) (gid : Nat) (g : Group) (p : Split) (f : Rst) (c : Nat), Ready s gid g p ∧
      fabPxBad f.px true true = false ∧
      g.HasV (upFrom f.vs.toNat 2) ∧
      g.HasS (upFrom f.sb.toNat 2) ∧
      StreamUsable s g f.stream.toNat ∧
      g.cnt.c5 < 255 ∧
      (∀ i < 64, g.laneOn p f.px i = true → g.remoteVa f.sb.toNat (f.vs.toNat + 1) f.px i % 4 = 0) ∧
      s.rankTarget g.part (bits (g.spair f.sb.toNat).toNat 54 10) = .fails c ∧
      f.stream.toNat < 4 ∧
      (∀ a x, g.streamSlot = some a → tabGet s.streams a = some x → x.streams.length = 4) ∧
      (∀ a, g.streamSlot = some a → (tabGet s.streams a).isSome = true)) ∧
    (∃ (s : State) (gid : Nat) (g : Group) (p : Split) (f : Rld) (c : Nat), Ready s gid g p ∧
      fabPxBad f.px true true = false ∧
      g.HasV (upFrom f.vd.toNat 2) ∧
      g.HasS (upFrom f.sb.toNat 2) ∧
      StreamUsable s g f.stream.toNat ∧
      g.cnt.c0 < 255 ∧
      (∀ i < 64, g.laneOn p f.px i = true → g.remoteVa f.sb.toNat (f.vd.toNat + 1) f.px i % 4 = 0) ∧
      s.rankTarget g.part (bits (g.spair f.sb.toNat).toNat 54 10) = .fails c ∧
      (∀ a x, g.streamSlot = some a → tabGet s.streams a = some x → x.streams.length = 4) ∧
      (∀ a, g.streamSlot = some a → (tabGet s.streams a).isSome = true)) ∧
    (∃ (s : State) (gid : Nat) (g : Group) (p : Split) (f : Rfence) (pkg : Nat), Ready s gid g p ∧
      fabPxBad f.px false false = false ∧
      g.HasV [] ∧
      g.HasS (upFrom f.sb.toNat 2) ∧
      StreamUsable s g f.stream.toNat ∧
      g.cnt.c5 < 255 ∧
      (g.spair f.sb.toNat).toNat % 4 = 0 ∧
      s.rankTarget g.part (bits (g.spair f.sb.toNat).toNat 54 10) = .send pkg) ∧
    (∃ (s : State) (gid : Nat) (g : Group) (p : Split) (f : Rstv) (pkg : Nat), Ready s gid g p ∧
      fabPxBad f.px false true = false ∧
      g.HasV [f.vs.toNat] ∧
      g.HasS (upFrom f.sa.toNat 2) ∧
      StreamUsable s g f.stream.toNat ∧
      g.cnt.c5 < 255 ∧
      seatBad (g.spair f.sa.toNat) false = false ∧
      s.seatTarget g.part (g.spair f.sa.toNat) = .send pkg) ∧
    (∃ e, e ∈ [(Instr.xredFirst, true), (Instr.xredMid, false)] ∧
      ∃ (s : State) (gid : Nat) (g : Group) (p : Split) (f : Xred) (pkg : Nat), Ready s gid g p ∧
      fabPxBad f.px false true = false ∧
      g.HasV (upFrom f.vp.toNat 4) ∧
      g.HasS (upFrom f.sa.toNat 2) ∧
      StreamUsable s g f.stream.toNat ∧
      g.cnt.c5 < 255 ∧
      seatBad (g.spair f.sa.toNat) false = false ∧
      seatReg (g.spair f.sa.toNat) % 2 = 0 ∧
      s.seatTarget g.part (g.spair f.sa.toNat) = .send pkg) :=
  ⟨⟨placed ranked group,
    0,
    group,
    split,
    { vd := 4, sb := 12, stream := 0, acq := false, st := 0, px := none },
    0,
    mkReady ranked rfl rfl rfl rfl ⟨rfl, rfl, rfl, rfl⟩ rfl (by decide) rfl (by decide),
    by decide,
    by unfold Group.HasV; decide,
    by unfold Group.HasS; decide,
    nofun,
    by decide,
    by decide,
    by decide,
    ⟨0, by decide, by decide⟩⟩,
  ⟨placed ranked group,
    0,
    group,
    split,
    { vs := 4, sb := 12, stream := 0, rel := false, st := 0, px := none },
    0,
    mkReady ranked rfl rfl rfl rfl ⟨rfl, rfl, rfl, rfl⟩ rfl (by decide) rfl (by decide),
    by decide,
    by unfold Group.HasV; decide,
    by unfold Group.HasS; decide,
    nofun,
    by decide,
    by decide,
    by decide⟩,
  ⟨placed ranked group,
    0,
    group,
    split,
    { vd := 4, sb := 12, stream := 0, op := 0, ret := false, st := 0, px := none },
    0,
    mkReady ranked rfl rfl rfl rfl ⟨rfl, rfl, rfl, rfl⟩ rfl (by decide) rfl (by decide),
    by decide,
    by unfold Group.HasV; decide,
    by unfold Group.HasS; decide,
    nofun,
    by decide,
    by decide,
    by decide,
    nofun⟩,
  ⟨at_ group,
    0,
    group,
    split,
    { vs := 4, sb := 12, stream := 0, rel := false, st := 0, px := none },
    3,
    mkReady part rfl rfl rfl rfl ⟨rfl, rfl, rfl, rfl⟩ rfl (by decide) rfl (by decide),
    by decide,
    by unfold Group.HasV; decide,
    by unfold Group.HasS; decide,
    nofun,
    by decide,
    by decide,
    by decide,
    by decide,
    nofun,
    nofun⟩,
  ⟨at_ group,
    0,
    group,
    split,
    { vd := 4, sb := 12, stream := 0, acq := false, st := 0, px := none },
    3,
    mkReady part rfl rfl rfl rfl ⟨rfl, rfl, rfl, rfl⟩ rfl (by decide) rfl (by decide),
    by decide,
    by unfold Group.HasV; decide,
    by unfold Group.HasS; decide,
    nofun,
    by decide,
    by decide,
    by decide,
    nofun,
    nofun⟩,
  ⟨placed ranked group,
    0,
    group,
    split,
    { sb := 12, stream := 0, st := 0, px := none },
    0,
    mkReady ranked rfl rfl rfl rfl ⟨rfl, rfl, rfl, rfl⟩ rfl (by decide) rfl (by decide),
    by decide,
    by unfold Group.HasV; decide,
    by unfold Group.HasS; decide,
    nofun,
    by decide,
    by decide,
    by decide⟩,
  ⟨placed ranked (withS [(12, 1), (8, 1)]),
    0,
    (withS [(12, 1), (8, 1)]),
    split,
    { vs := 4, sa := 8, stream := 0, rel := false, st := 0, px := none },
    0,
    mkReady ranked rfl rfl rfl rfl ⟨rfl, rfl, rfl, rfl⟩ rfl (by decide) rfl (by decide),
    by decide,
    by unfold Group.HasV; decide,
    by unfold Group.HasS; decide,
    nofun,
    by decide,
    by decide,
    by decide⟩,
  ⟨(Instr.xredFirst, true),
    by simp,
    placed ranked (withS [(12, 1), (8, 1)]),
    0,
    (withS [(12, 1), (8, 1)]),
    split,
    { vp := 4, sa := 8, stream := 0, st := 0, px := none },
    0,
    mkReady ranked rfl rfl rfl rfl ⟨rfl, rfl, rfl, rfl⟩ rfl (by decide) rfl (by decide),
    by decide,
    by unfold Group.HasV; decide,
    by unfold Group.HasS; decide,
    nofun,
    by decide,
    by decide,
    by decide,
    by decide⟩⟩

/-- RemoteRequests. -/
theorem wit_remoteRequests_2 :
    (∃ (s : State) (gid : Nat) (g : Group) (p : Split) (f : XredLast), Ready s gid g p ∧
      fabPxBad f.px false true = false ∧
      g.HasV (upFrom f.vp.toNat 4)) ∧
    (∃ (s : State) (gid : Nat) (g : Group) (p : Split) (f : Xfer), Ready s gid g p ∧
      fabPxBad f.px false true = false ∧
      g.HasS (upFrom f.cr.toNat 8) ∧
      g.activeMask p.mask (memMask f.px) = 0) ∧
    (∃ (s : State) (gid : Nat) (g : Group) (p : Split) (f : Xfer), Ready s gid g p ∧
      fabPxBad f.px false true = false ∧
      g.HasS (upFrom f.cr.toNat 8) ∧
      g.activeMask p.mask (memMask f.px) ≠ 0 ∧
      XferChecked s gid g f.cr.toNat ∧
      StreamUsable s g f.stream.toNat ∧
      g.cnt.c5 < 255 ∧
      g.sreg (f.cr.toNat + 4) = 0) ∧
    (∃ (s : State) (gid : Nat) (g : Group) (p : Split) (f : Xfer), Ready s gid g p ∧
      fabPxBad f.px false true = false ∧
      g.HasS (upFrom f.cr.toNat 8) ∧
      ∃ pkg, g.activeMask p.mask (memMask f.px) ≠ 0 ∧
      XferChecked s gid g f.cr.toNat ∧
      StreamUsable s g f.stream.toNat ∧
      g.cnt.c5 < 255 ∧
      0 < s.freeLocks (clusterOf (coreOf gid)) ∧
      g.sreg (f.cr.toNat + 4) ≠ 0 ∧
      (if (g.sreg (f.cr.toNat + 5)).getLsbD 14 then s.seatTarget g.part (g.spair (f.cr.toNat + 6))
       else s.rankTarget g.part (bits (g.spair (f.cr.toNat + 2)).toNat 54 10)) = .send pkg) :=
  ⟨⟨at_ group,
    0,
    group,
    split,
    { vp := 4, st := 0, px := none },
    mkReady part rfl rfl rfl rfl ⟨rfl, rfl, rfl, rfl⟩ rfl (by decide) rfl (by decide),
    by decide,
    by unfold Group.HasV; decide⟩,
  ⟨at_ group,
    0,
    group,
    split,
    { cr := 0, stream := 0, st := 0, px := some { mask := 1, inv := false, scope := 0, imm := 0 } },
    mkReady part rfl rfl rfl rfl ⟨rfl, rfl, rfl, rfl⟩ rfl (by decide) rfl (by decide),
    by decide,
    by unfold Group.HasS; decide,
    by decide⟩,
  ⟨placed ranked group,
    0,
    group,
    split,
    { cr := 0, stream := 0, st := 0, px := none },
    mkReady ranked rfl rfl rfl rfl ⟨rfl, rfl, rfl, rfl⟩ rfl (by decide) rfl (by decide),
    by decide,
    by unfold Group.HasS; decide,
    by decide,
    ⟨nofun, fun _ _ => rfl, by decide, by decide, by decide, nofun⟩,
    nofun,
    by decide,
    by decide⟩,
  ⟨placed ranked (withS [(1, 0x10000000), (4, 16)]),
    0,
    (withS [(1, 0x10000000), (4, 16)]),
    split,
    { cr := 0, stream := 0, st := 0, px := none },
    mkReady ranked rfl rfl rfl rfl ⟨rfl, rfl, rfl, rfl⟩ rfl (by decide) rfl (by decide),
    by decide,
    by unfold Group.HasS; decide,
    0,
    by decide,
    ⟨nofun, fun _ _ => rfl, by decide, by decide, by decide, fun _ => ⟨_, rfl⟩⟩,
    nofun,
    by decide,
    by decide,
    by decide,
    by decide⟩⟩

/-- SeatsAndRanks. -/
theorem wit_seatsAndRanks_1 :
    (∃ (s : State) (gid : Nat) (g : Group) (p : Split) (f : Hold), Holding s gid g p ∧
      fabPxBad f.px false false = false ∧
      g.HasV [f.vd.toNat] ∧
      ∃ h, h ∈ g.holds ∧
      h.reg = f.vd.toNat ∧
      (∀ j ∈ g.holds, j.reg = f.vd.toNat → j = h)) ∧
    (∃ (s : State) (gid : Nat) (g : Group) (p : Split) (f : Hold), Holding s gid g p ∧
      fabPxBad f.px false false = false ∧
      g.HasV [f.vd.toNat] ∧
      (∀ h ∈ g.holds, h.reg ≠ f.vd.toNat) ∧
      g.holds.length < 8) ∧
    (∃ (s : State) (gid : Nat) (g : Group) (p : Split) (f : SeatGet) (x : Part) (idx : Nat) (gen : Nat) (a : Nat) (name : DWord), Ready s gid g p ∧
      fabPxBad f.px false false = false ∧
      g.HasS (upFrom f.sd.toNat 2) ∧
      g.seat = 0 ∧
      s.part g.part = some x ∧
      idx < x.seatCap.toNat ∧
      bits (s.seatWord x idx) 25 3 = 0 ∧
      (∀ j < idx, bits (s.seatWord x j) 25 3 ≠ 0) ∧
      a = x.seatBase.toNat + 32 * idx ∧
      gen = (if (bits (s.seatWord x idx) 32 16 + 1) % 2 ^ 16 = 0 then 1 else bits (s.seatWord x idx) 32 16 + 1) ∧
      s.NoReplicas ∧
      name = BitVec.ofNat 64 (gen + idx * 2 ^ 16 + s.pkg.number * 2 ^ 38)) ∧
    (∃ (s : State) (gid : Nat) (g : Group) (p : Split) (f : SeatGet) (x : Part), Ready s gid g p ∧
      fabPxBad f.px false false = false ∧
      g.HasS (upFrom f.sd.toNat 2) ∧
      g.seat = 0 ∧
      s.part g.part = some x ∧
      (∀ j < x.seatCap.toNat, bits (s.seatWord x j) 25 3 ≠ 0)) ∧
    (∃ (s : State) (gid : Nat) (g : Group) (p : Split) (f : FBare) (x : Part) (a : Nat), Ready s gid g p ∧
      fabPxBad f.px false false = false ∧
      s.part g.part = some x ∧
      a = x.seatBase.toNat + 32 * seatIndex g.seat ∧
      s.NoReplicas ∧
      g.seat = 0) ∧
    (∃ (s : State) (gid : Nat) (g : Group) (p : Split) (f : FBare) (x : Part) (a : Nat), Ready s gid g p ∧
      fabPxBad f.px false false = false ∧
      s.part g.part = some x ∧
      a = x.seatBase.toNat + 32 * seatIndex g.seat ∧
      s.NoReplicas ∧
      g.seat ≠ 0) ∧
    (∃ (s : State) (gid : Nat) (g : Group) (p : Split) (f : Rstat) (y : StreamState) (n : Nat), Ready s gid g p ∧
      fabPxBad f.px false false = false ∧
      g.HasS (upFrom f.sd.toNat 2) ∧
      y = g.streamOf s f.stream.toNat ∧
      (n = (match g.streamSlot with
      | some _ => (s.fabric.filter fun r => r.2.gid = gid && !r.2.orphan && r.2.stream = f.stream.toNat).length
      | none => 0))) ∧
    (∃ (s : State) (gid : Nat) (g : Group) (p : Split) (f : Rankmap) (x : Part) (w : Word), Ready s gid g p ∧
      fabPxBad f.px false false = false ∧
      g.HasS [f.sa.toNat] ∧
      g.priv = true ∧
      s.part g.part = some x ∧
      w = g.sreg f.sa.toNat) :=
  ⟨⟨at_ { group with holds := [{ reg := 4, pending := 2 }] },
    0,
    { group with holds := [{ reg := 4, pending := 2 }] },
    split,
    { vd := 4, n := 0, st := 0, px := none },
    mkHolding part rfl rfl rfl rfl ⟨rfl, rfl, rfl⟩ rfl (by decide),
    by decide,
    by unfold Group.HasV; decide,
    { reg := 4, pending := 2 },
    List.mem_singleton.mpr rfl,
    by decide,
    (fun j hj _ => List.mem_singleton.mp hj)⟩,
  ⟨at_ group,
    0,
    group,
    split,
    { vd := 4, n := 0, st := 0, px := none },
    mkHolding part rfl rfl rfl rfl ⟨rfl, rfl, rfl⟩ rfl (by decide),
    by decide,
    by unfold Group.HasV; decide,
    (fun _ h => absurd h List.not_mem_nil),
    by decide⟩,
  ⟨placed seated group,
    0,
    group,
    split,
    { sd := 4, st := 0, px := none },
    seated,
    0,
    _,
    _,
    _,
    mkReady seated rfl rfl rfl rfl ⟨rfl, rfl, rfl, rfl⟩ rfl (by decide) rfl (by decide),
    by decide,
    by unfold Group.HasS; decide,
    by decide,
    rfl,
    by decide,
    by decide,
    by decide,
    rfl,
    rfl,
    (fun e (he : e ∈ ([] : List (Nat × PageRec))) => nomatch he),
    rfl⟩,
  ⟨at_ group,
    0,
    group,
    split,
    { sd := 4, st := 0, px := none },
    part,
    mkReady part rfl rfl rfl rfl ⟨rfl, rfl, rfl, rfl⟩ rfl (by decide) rfl (by decide),
    by decide,
    by unfold Group.HasS; decide,
    by decide,
    rfl,
    by decide⟩,
  ⟨at_ group,
    0,
    group,
    split,
    { st := 0, px := none },
    part,
    _,
    mkReady part rfl rfl rfl rfl ⟨rfl, rfl, rfl, rfl⟩ rfl (by decide) rfl (by decide),
    by decide,
    rfl,
    rfl,
    (fun e (he : e ∈ ([] : List (Nat × PageRec))) => nomatch he),
    by decide⟩,
  ⟨at_ { group with seat := 0x10001 },
    0,
    { group with seat := 0x10001 },
    split,
    { st := 0, px := none },
    part,
    _,
    mkReady part rfl rfl rfl rfl ⟨rfl, rfl, rfl, rfl⟩ rfl (by decide) rfl (by decide),
    by decide,
    rfl,
    rfl,
    (fun e (he : e ∈ ([] : List (Nat × PageRec))) => nomatch he),
    by decide⟩,
  ⟨at_ group,
    0,
    group,
    split,
    { sd := 4, stream := 0, st := 0, px := none },
    _,
    _,
    mkReady part rfl rfl rfl rfl ⟨rfl, rfl, rfl, rfl⟩ rfl (by decide) rfl (by decide),
    by decide,
    by unfold Group.HasS; decide,
    rfl,
    rfl⟩,
  ⟨at_ house,
    0,
    house,
    split,
    { sa := 8, st := 0, px := none },
    part,
    _,
    mkReady part rfl rfl rfl rfl ⟨rfl, rfl, rfl, rfl⟩ rfl (by decide) rfl (by decide),
    by decide,
    by unfold Group.HasS; decide,
    by decide,
    rfl,
    rfl⟩⟩

/-- SeatsAndRanks. -/
theorem wit_seatsAndRanks_2 :
    (∃ (s : State) (gid : Nat) (g : Group) (p : Split) (f : Rankmap) (x : Part) (w : Word), Ready s gid g p ∧
      fabPxBad f.px false false = false ∧
      g.HasS [f.sa.toNat] ∧
      g.priv = true ∧
      s.part g.part = some x ∧
      w = g.sreg f.sa.toNat ∧
      bits w.toNat 20 11 = 0) ∧
    (∃ e, e ∈ [(Instr.rresume, false), (Instr.rresumeFail, true)] ∧
      ∃ (s : State) (gid : Nat) (g : Group) (p : Split) (f : Rresume) (x : Part), Ready s gid g p ∧
      fabPxBad f.px false false = false ∧
      g.HasS (upFrom f.sb.toNat 2) ∧
      g.priv = true ∧
      s.part g.part = some x ∧
      s.frozenByHandle g.part (g.spair f.sb.toNat) = none) ∧
    (∃ e, e ∈ [(Instr.rresume, false), (Instr.rresumeFail, true)] ∧
      ∃ (s : State) (gid : Nat) (g : Group) (p : Split) (f : Rresume) (x : Part), Ready s gid g p ∧
      fabPxBad f.px false false = false ∧
      g.HasS (upFrom f.sb.toNat 2) ∧
      g.priv = true ∧
      s.part g.part = some x ∧
      ∃ n, ∃ z, s.frozenByHandle g.part (g.spair f.sb.toNat) = some (n, z) ∧
      z.srcPkg ≠ s.pkg.number) ∧
    (∃ e, e ∈ [(Instr.rresume, false), (Instr.rresumeFail, true)] ∧
      ∃ (s : State) (gid : Nat) (g : Group) (p : Split) (f : Rresume) (x : Part), Ready s gid g p ∧
      fabPxBad f.px false false = false ∧
      g.HasS (upFrom f.sb.toNat 2) ∧
      g.priv = true ∧
      s.part g.part = some x ∧
      ∃ n, ∃ z, s.frozenByHandle g.part (g.spair f.sb.toNat) = some (n, z) ∧
      z.srcPkg = s.pkg.number ∧
      (∀ rid, z.req = .own rid → tabGet s.fabric rid = none)) ∧
    (∃ e, e ∈ [(Instr.rresume, false), (Instr.rresumeFail, true)] ∧
      ∃ (s : State) (gid : Nat) (g : Group) (p : Split) (f : Rresume) (x : Part), Ready s gid g p ∧
      fabPxBad f.px false false = false ∧
      g.HasS (upFrom f.sb.toNat 2) ∧
      g.priv = true ∧
      s.part g.part = some x ∧
      ∃ n, ∃ z, ∃ rid, ∃ q, s.frozenByHandle g.part (g.spair f.sb.toNat) = some (n, z) ∧
      z.srcPkg = s.pkg.number ∧
      z.req = .own rid ∧
      tabGet s.fabric rid = some q ∧
      q.performed = false ∧
      (∀ a b l sp pot, q.kind ≠ .xfer a b l sp (some pot))) :=
  ⟨⟨at_ house,
    0,
    house,
    split,
    { sa := 8, st := 0, px := none },
    part,
    _,
    mkReady part rfl rfl rfl rfl ⟨rfl, rfl, rfl, rfl⟩ rfl (by decide) rfl (by decide),
    by decide,
    by unfold Group.HasS; decide,
    by decide,
    rfl,
    rfl,
    by decide⟩,
  ⟨(Instr.rresume, false),
    by simp,
    at_ house,
    0,
    house,
    split,
    { sb := 12, st := 0, px := none },
    part,
    mkReady part rfl rfl rfl rfl ⟨rfl, rfl, rfl, rfl⟩ rfl (by decide) rfl (by decide),
    by decide,
    by unfold Group.HasS; decide,
    by decide,
    rfl,
    rfl⟩,
  ⟨(Instr.rresume, false),
    by simp,
    { at_ { house with sregs := [(12, 5)] } with frozen := [(9, { part := 0, req := .own 5, srcPkg := 5, slot := 0, stream := 0, serial := 0, va := 0, cause := 4, access := 0, recorded := true, replay := false })] },
    0,
    { house with sregs := [(12, 5)] },
    split,
    { sb := 12, st := 0, px := none },
    part,
    mkReady part rfl rfl rfl rfl ⟨rfl, rfl, rfl, rfl⟩ rfl (by decide) rfl (by decide),
    by decide,
    by unfold Group.HasS; decide,
    by decide,
    rfl,
    _,
    _,
    rfl,
    by decide⟩,
  ⟨(Instr.rresume, false),
    by simp,
    { at_ house with frozen := [(9, { part := 0, req := .own 5, srcPkg := 0, slot := 0, stream := 0, serial := 0, va := 0, cause := 4, access := 0, recorded := true, replay := false })] },
    0,
    house,
    split,
    { sb := 12, st := 0, px := none },
    part,
    mkReady part rfl rfl rfl rfl ⟨rfl, rfl, rfl, rfl⟩ rfl (by decide) rfl (by decide),
    by decide,
    by unfold Group.HasS; decide,
    by decide,
    rfl,
    _,
    _,
    rfl,
    by decide,
    (fun _ _ => rfl)⟩,
  ⟨(Instr.rresume, false),
    by simp,
    { at_ house with fabric := [(5, reqOf .rst 0)], frozen := [(9, { part := 0, req := .own 5, srcPkg := 0, slot := 0, stream := 0, serial := 0, va := 0, cause := 4, access := 0, recorded := true, replay := false })] },
    0,
    house,
    split,
    { sb := 12, st := 0, px := none },
    part,
    mkReady part rfl rfl rfl rfl ⟨rfl, rfl, rfl, rfl⟩ rfl (by decide) rfl (by decide),
    by decide,
    by unfold Group.HasS; decide,
    by decide,
    rfl,
    _,
    _,
    5,
    reqOf .rst 0,
    rfl,
    by decide,
    rfl,
    rfl,
    by decide,
    nofun⟩⟩

/-- LaunchAndWait. -/
theorem wit_launchAndWait_1 :
    (∃ (s : State) (gid : Nat) (g : Group) (p : Split) (f : Launch) (x : Part) (a : Nat) (pl : Place) (b : List Byte) (tid : Option Nat) (kids : Nat) (h : Nat), Ready s gid g p ∧
      g.HasS [f.sd.toNat, 2 * f.k.toNat, 2 * f.k.toNat + 1] ∧
      (g.priv = true ∨ g.index = 0 ∧ g.depth ≠ 9) ∧
      s.part g.part = some x ∧
      a = (g.spair (2 * f.k.toNat)).toNat ∧
      a % 128 = 0 ∧
      checkAddr s (g.agent gid) a 128 1 .read = .ok pl ∧
      s.poisonAt pl 128 = [] ∧
      Unsent s (clusterOf (coreOf gid)) pl 128 ∧
      b = s.readAt pl 128 ∧
      tid = (if g.priv then none else g.team) ∧
      (kids = (match tid with
      | some t => ((s.grids.filter fun e => e.2.parent = some t).filter fun e => !e.2.complete).length
      | none => 0)) ∧
      h = x.nextHandle ∧
      0 < h ∧
      h < 2 ^ 31 ∧
      tabGet s.grids (gridKey g.part h) = none ∧
      ∃ r, recRefusal b x.kitty.toNat kids = some r) ∧
    (∃ (s : State) (gid : Nat) (g : Group) (p : Split) (f : Launch) (x : Part) (a : Nat) (pl : Place) (b : List Byte) (tid : Option Nat) (kids : Nat) (h : Nat), Ready s gid g p ∧
      g.HasS [f.sd.toNat, 2 * f.k.toNat, 2 * f.k.toNat + 1] ∧
      (g.priv = true ∨ g.index = 0 ∧ g.depth ≠ 9) ∧
      s.part g.part = some x ∧
      a = (g.spair (2 * f.k.toNat)).toNat ∧
      a % 128 = 0 ∧
      checkAddr s (g.agent gid) a 128 1 .read = .ok pl ∧
      s.poisonAt pl 128 = [] ∧
      Unsent s (clusterOf (coreOf gid)) pl 128 ∧
      b = s.readAt pl 128 ∧
      tid = (if g.priv then none else g.team) ∧
      (kids = (match tid with
      | some t => ((s.grids.filter fun e => e.2.parent = some t).filter fun e => !e.2.complete).length
      | none => 0)) ∧
      h = x.nextHandle ∧
      0 < h ∧
      h < 2 ^ 31 ∧
      tabGet s.grids (gridKey g.part h) = none ∧
      recRefusal b x.kitty.toNat kids = none) ∧
    (∃ (s : State) (gid : Nat) (g : Group) (p : Split) (f : Launch) (x : Part), Ready s gid g p ∧
      g.HasS [f.sd.toNat, 2 * f.k.toNat, 2 * f.k.toNat + 1] ∧
      (g.priv = true ∨ g.index = 0 ∧ g.depth ≠ 9) ∧
      s.part g.part = some x ∧
      (g.spair (2 * f.k.toNat)).toNat % 128 ≠ 0) ∧
    (∃ (s : State) (gid : Nat) (g : Group) (p : Split) (f : Launch) (x : Part), Ready s gid g p ∧
      g.HasS [f.sd.toNat, 2 * f.k.toNat, 2 * f.k.toNat + 1] ∧
      (g.priv = true ∨ g.index = 0 ∧ g.depth ≠ 9) ∧
      s.part g.part = some x ∧
      ∃ w, (g.spair (2 * f.k.toNat)).toNat % 128 = 0 ∧
      checkAddr s (g.agent gid) (g.spair (2 * f.k.toNat)).toNat 128 1 .read = .wait w) :=
  ⟨⟨at_ pointed,
    0,
    pointed,
    split,
    { k := 0, sd := 10, st := 0 },
    part,
    _,
    _,
    _,
    _,
    _,
    _,
    mkReady part rfl rfl rfl rfl ⟨rfl, rfl, rfl, rfl⟩ rfl (by decide) rfl (by decide),
    by unfold Group.HasS; decide,
    .inr ⟨rfl, by decide⟩,
    rfl,
    rfl,
    by decide,
    rfl,
    by decide,
    (fun _ h => (nomatch h)),
    rfl,
    rfl,
    rfl,
    rfl,
    by decide,
    by decide,
    rfl,
    _,
    rfl⟩,
  ⟨{ at_ pointed with spad := [(0, 1)] },
    0,
    pointed,
    split,
    { k := 0, sd := 10, st := 0 },
    part,
    _,
    _,
    1 :: List.replicate 127 0,
    _,
    _,
    _,
    mkReady part rfl rfl rfl rfl ⟨rfl, rfl, rfl, rfl⟩ rfl (by decide) rfl (by decide),
    by unfold Group.HasS; decide,
    .inr ⟨rfl, by decide⟩,
    rfl,
    rfl,
    by decide,
    rfl,
    by decide,
    (fun _ h => (nomatch h)),
    by decide,
    rfl,
    rfl,
    rfl,
    by decide,
    by decide,
    rfl,
    by decide⟩,
  ⟨at_ (withS [(0, 8)]),
    0,
    (withS [(0, 8)]),
    split,
    { k := 0, sd := 4, st := 0 },
    part,
    mkReady part rfl rfl rfl rfl ⟨rfl, rfl, rfl, rfl⟩ rfl (by decide) rfl (by decide),
    by unfold Group.HasS; decide,
    .inr ⟨rfl, by decide⟩,
    rfl,
    by decide⟩,
  ⟨mapped paged 0xCB group,
    0,
    group,
    split,
    { k := 0, sd := 4, st := 0 },
    paged,
    mkReady paged rfl rfl rfl rfl ⟨rfl, rfl, rfl, rfl⟩ rfl (by decide) rfl (by decide),
    by unfold Group.HasS; decide,
    .inr ⟨rfl, by decide⟩,
    rfl,
    _,
    by decide,
    rfl⟩⟩

/-- LaunchAndWait. -/
theorem wit_launchAndWait_2 :
    (∃ (s : State) (gid : Nat) (g : Group) (p : Split) (f : Launch) (x : Part), Ready s gid g p ∧
      g.HasS [f.sd.toNat, 2 * f.k.toNat, 2 * f.k.toNat + 1] ∧
      (g.priv = true ∨ g.index = 0 ∧ g.depth ≠ 9) ∧
      s.part g.part = some x ∧
      ∃ r, ∃ c, (g.spair (2 * f.k.toNat)).toNat % 128 = 0 ∧
      checkAddr s (g.agent gid) (g.spair (2 * f.k.toNat)).toNat 128 1 .read = .bad r c) ∧
    (∃ (s : State) (gid : Nat) (g : Group) (p : Split) (f : Launch) (x : Part), Ready s gid g p ∧
      g.HasS [f.sd.toNat, 2 * f.k.toNat, 2 * f.k.toNat + 1] ∧
      g.priv = false ∧
      g.index = 0 ∧
      g.depth = 9 ∧
      s.part g.part = some x) ∧
    (∃ (s : State) (gid : Nat) (g : Group) (p : Split) (f : SysDA) (tid : Nat), Ready s gid g p ∧
      g.HasS [f.sd.toNat, f.sa.toNat] ∧
      g.team = some tid ∧
      f.sa ≠ 63 ∧
      (∀ e ∈ s.grids, e.2.parent = some tid → e.1 ≠ gridKey g.part (g.sreg f.sa.toNat).toNat)) ∧
    (∃ (s : State) (gid : Nat) (g : Group) (p : Split) (f : SysDA) (tid : Nat), Ready s gid g p ∧
      g.HasS [f.sd.toNat, f.sa.toNat] ∧
      g.team = some tid ∧
      f.sa ≠ 63 ∧
      ∃ e, tabGet s.grids (gridKey g.part (g.sreg f.sa.toNat).toNat) = some e ∧
      e.parent = some tid ∧
      (e.complete = true)) :=
  ⟨⟨at_ (withS [(0, 0x1000), (1, 0x10000000)]),
    0,
    (withS [(0, 0x1000), (1, 0x10000000)]),
    split,
    { k := 0, sd := 4, st := 0 },
    part,
    mkReady part rfl rfl rfl rfl ⟨rfl, rfl, rfl, rfl⟩ rfl (by decide) rfl (by decide),
    by unfold Group.HasS; decide,
    .inr ⟨rfl, by decide⟩,
    rfl,
    _,
    _,
    by decide,
    rfl⟩,
  ⟨at_ { group with depth := 9 },
    0,
    { group with depth := 9 },
    split,
    { k := 0, sd := 4, st := 0 },
    part,
    mkReady part rfl rfl rfl rfl ⟨rfl, rfl, rfl, rfl⟩ rfl (by decide) rfl (by decide),
    by unfold Group.HasS; decide,
    by decide,
    by decide,
    by decide,
    rfl⟩,
  ⟨at_ group,
    0,
    group,
    split,
    { sd := 4, sa := 8, st := 0 },
    1,
    mkReady part rfl rfl rfl rfl ⟨rfl, rfl, rfl, rfl⟩ rfl (by decide) rfl (by decide),
    by unfold Group.HasS; decide,
    rfl,
    by decide,
    (fun _ h => absurd h List.not_mem_nil)⟩,
  ⟨{ at_ group with grids := [(0, grid (some 1) true)] },
    0,
    group,
    split,
    { sd := 4, sa := 8, st := 0 },
    1,
    mkReady part rfl rfl rfl rfl ⟨rfl, rfl, rfl, rfl⟩ rfl (by decide) rfl (by decide),
    by unfold Group.HasS; decide,
    rfl,
    by decide,
    _,
    rfl,
    rfl,
    rfl⟩⟩

/-- LaunchAndWait. -/
theorem wit_launchAndWait_3 :
    (∃ (s : State) (gid : Nat) (g : Group) (p : Split) (f : SysDA) (tid : Nat), Ready s gid g p ∧
      g.HasS [f.sd.toNat, f.sa.toNat] ∧
      g.team = some tid ∧
      f.sa ≠ 63 ∧
      ∃ e, tabGet s.grids (gridKey g.part (g.sreg f.sa.toNat).toNat) = some e ∧
      e.parent = some tid ∧
      (e.complete = false)) ∧
    (∃ (s : State) (gid : Nat) (g : Group) (p : Split) (f : SysDA) (tid : Nat), Ready s gid g p ∧
      g.HasS [f.sd.toNat, f.sa.toNat] ∧
      g.team = some tid ∧
      f.sa = 63 ∧
      (∀ e ∈ s.grids, tabGet s.grids e.1 = some e.2) ∧
      (∀ e ∈ s.grids, e.2.parent = some tid → e.2.complete = true)) :=
  ⟨⟨{ at_ group with grids := [(0, grid (some 1) false)] },
    0,
    group,
    split,
    { sd := 4, sa := 8, st := 0 },
    1,
    mkReady part rfl rfl rfl rfl ⟨rfl, rfl, rfl, rfl⟩ rfl (by decide) rfl (by decide),
    by unfold Group.HasS; decide,
    rfl,
    by decide,
    _,
    rfl,
    rfl,
    rfl⟩,
  ⟨{ at_ group with grids := [(0, grid (some 1) true)] },
    0,
    group,
    split,
    { sd := 4, sa := 63, st := 0 },
    1,
    mkReady part rfl rfl rfl rfl ⟨rfl, rfl, rfl, rfl⟩ rfl (by decide) rfl (by decide),
    by unfold Group.HasS; decide,
    rfl,
    by decide,
    (fun e he => by cases List.mem_singleton.mp he; rfl),
    (fun e he _ => by cases List.mem_singleton.mp he; rfl)⟩⟩

/-- TeamsComeAndGo. -/
theorem wit_teamsComeAndGo_1 : ∃ (s : State) (key : Nat) (gr : Grid) (x : Part) (pos : Nat × Nat × Nat), tabGet s.grids key = some gr ∧
      s.part gr.part = some x ∧
      gr.next < gr.record.teams ∧
      s.offers gr = true ∧
      gr.record.cohort = 1 ∧
      0 < gr.record.gridX ∧
      pos = (gr.next % gr.record.gridX, gr.next / gr.record.gridX % gr.record.gridY,
      gr.next / gr.record.gridX / gr.record.gridY) ∧
      ∃ (home : Option Nat) (pref : Nat), (gr.record.anchor = 0 ∧ home = none ∧ pref = 0 ∧ (∀ e ∈ s.teams, e.2.part = gr.part →
          e.2.latency = gr.record.latency → e.2.state = .queued → e.2.homeDie ≠ none) ∨
        gr.record.anchor ≠ 0 ∧ s.anchorBusy x (gr.record.anchorOf pos.1 pos.2.1 pos.2.2) = false ∧
          ∃ d k, s.anchorHome x (gr.record.anchorOf pos.1 pos.2.1 pos.2.2) = some (d, pref) ∧
            s.placeDie x gr.waitDie d = some k ∧ home = some k) :=
  ⟨{ at_ group with grids := [(1, grid none false)], teams := [] },
    1,
    grid none false,
    part,
    _,
    rfl,
    rfl,
    by decide,
    by decide,
    by decide,
    by decide,
    rfl,
    none,
    0,
    .inl ⟨rfl, rfl, rfl, fun _ h => absurd h List.not_mem_nil⟩⟩

/-- TeamsComeAndGo. -/
theorem wit_teamsComeAndGo_2 : ∃ (s : State) (key : Nat) (gr : Grid) (x : Part) (pos : Nat × Nat × Nat), tabGet s.grids key = some gr ∧
      s.part gr.part = some x ∧
      gr.next < gr.record.teams ∧
      s.offers gr = true ∧
      gr.record.cohort = 1 ∧
      0 < gr.record.gridX ∧
      pos = (gr.next % gr.record.gridX, gr.next / gr.record.gridX % gr.record.gridY,
      gr.next / gr.record.gridX / gr.record.gridY) ∧
      ∃ d, ∃ pref, gr.record.anchor ≠ 0 ∧
      s.anchorBusy x (gr.record.anchorOf pos.1 pos.2.1 pos.2.2) = false ∧
      s.anchorHome x (gr.record.anchorOf pos.1 pos.2.1 pos.2.2) = some (d, pref) ∧
      s.placeDie x gr.waitDie d = none ∧
      x.dieClusters d ≠ [] :=
  ⟨{ mapped ({ paged with clust := 0xFFF }) 0x4B group with grids := [(1, { grid none false with record := { LaunchRec.ofBytes (1 :: List.replicate 127 0) with anchor := 0x10 } })], teams := (List.range 64).map fun k => (k + 1, { team with state := .queued, homeDie := some 0 }) },
    1,
    { grid none false with record := { LaunchRec.ofBytes (1 :: List.replicate 127 0) with anchor := 0x10 } },
    { paged with clust := 0xFFF },
    _,
    rfl,
    rfl,
    by decide,
    by decide,
    by decide,
    by decide,
    rfl,
    _,
    _,
    by decide,
    by decide,
    rfl,
    by decide,
    by decide⟩

/-- TeamsComeAndGo. -/
theorem wit_teamsComeAndGo_3 : ∃ (s : State) (key : Nat) (gr : Grid) (x : Part) (pos : Nat × Nat × Nat), tabGet s.grids key = some gr ∧
      s.part gr.part = some x ∧
      gr.next < gr.record.teams ∧
      s.offers gr = true ∧
      gr.record.cohort = 1 ∧
      0 < gr.record.gridX ∧
      pos = (gr.next % gr.record.gridX, gr.next / gr.record.gridX % gr.record.gridY,
      gr.next / gr.record.gridX / gr.record.gridY) ∧
      gr.record.anchor = 0 ∧
      (∃ e ∈ s.teams, e.2.part = gr.part ∧ e.2.latency = gr.record.latency ∧ e.2.state = .queued ∧
      e.2.homeDie = none) :=
  ⟨{ at_ group with grids := [(1, grid none false)], teams := [(1, { team with state := .queued, groups := [.absent] })] },
    1,
    grid none false,
    part,
    _,
    rfl,
    rfl,
    by decide,
    by decide,
    by decide,
    by decide,
    rfl,
    by decide,
    ⟨_, List.mem_singleton.mpr rfl, rfl, rfl, rfl, rfl⟩⟩

/-- TeamsComeAndGo. -/
theorem wit_teamsComeAndGo_4 : ∃ (s : State) (tid : Nat) (t : Team) (x : Part) (gr : Grid) (c : Nat), s.team tid = some t ∧
      s.part t.part = some x ∧
      tabGet s.grids t.grid = some gr ∧
      t.state = .queued ∧
      t.loadFrom = none ∧
      t.sizeAt = none ∧
      t.cohort = 1 ∧
      s.members t = [(tid, t)] ∧
      s.cohortTeams t = [(tid, t)] ∧
      t.groups = List.replicate gr.record.groups .absent ∧
      s.clusterFor x t gr.record = some c ∧
      (∀ core ∈ s.admitCores x t gr.record c, (s.coreGroups core false).length + gr.record.groups ≤ 128) :=
  ⟨{ at_ group with grids := [(1, grid none false)], teams := [(1, { team with state := .queued, groups := [.absent] })], pkg := { Pkg.reset with readyC := BitVec.allOnes 48 } },
    1,
    { team with state := .queued, groups := [.absent] },
    part,
    grid none false,
    0,
    rfl,
    rfl,
    rfl,
    by decide,
    by decide,
    by decide,
    by decide,
    rfl,
    by decide,
    rfl,
    by decide,
    by decide⟩

/-- TeamsComeAndGo. -/
theorem wit_teamsComeAndGo_5 : ∃ (s : State) (tid : Nat) (t : Team) (x : Part) (gr : Grid), s.team tid = some t ∧
      s.part t.part = some x ∧
      tabGet s.grids t.grid = some gr ∧
      s.childGrids tid = [] ∧
      (s.cohortTeams t).length = t.cohort ∧
      t.state ≠ .held :=
  ⟨{ at_ group with grids := [(1, grid none false)] },
    1,
    team,
    part,
    grid none false,
    rfl,
    rfl,
    rfl,
    rfl,
    by decide,
    by decide⟩

/-- TeamsComeAndGo. -/
theorem wit_teamsComeAndGo_6 : ∃ (s : State) (tid : Nat) (t : Team) (x : Part) (gr : Grid), s.team tid = some t ∧
      s.part t.part = some x ∧
      tabGet s.grids t.grid = some gr ∧
      s.childGrids tid = [] ∧
      (s.cohortTeams t).length = t.cohort ∧
      (∃ e ∈ s.cohortTeams t, e.2.state ≠ .held ∧ e.2.state ≠ .retired) :=
  ⟨{ at_ group with grids := [(1, grid none false)] },
    1,
    team,
    part,
    grid none false,
    rfl,
    rfl,
    rfl,
    rfl,
    by decide,
    ⟨(1, team), by decide, by decide, by decide⟩⟩

/-- TeamsComeAndGo. -/
theorem wit_teamsComeAndGo_7 : ∃ (s : State) (tid : Nat) (t : Team) (x : Part) (gr : Grid), s.team tid = some t ∧
      s.part t.part = some x ∧
      tabGet s.grids t.grid = some gr ∧
      s.childGrids tid = [] ∧
      (s.cohortTeams t).length = t.cohort ∧
      t.state = .held ∧
      (∀ e ∈ s.cohortTeams t, e.2.state = .held ∨ e.2.state = .retired) ∧
      gr.retired + 1 ≠ gr.record.teams :=
  ⟨{ at_ group with grids := [(1, { grid none false with retired := 5 })], teams := [(1, { team with state := .held })] },
    1,
    { team with state := .held },
    part,
    { grid none false with retired := 5 },
    rfl,
    rfl,
    rfl,
    by decide,
    by decide,
    by decide,
    by decide,
    by decide⟩

/-- TeamsComeAndGo. -/
theorem wit_teamsComeAndGo_8 : ∃ (s : State) (tid : Nat) (t : Team) (x : Part) (gr : Grid), s.team tid = some t ∧
      s.part t.part = some x ∧
      tabGet s.grids t.grid = some gr ∧
      s.childGrids tid = [] ∧
      (s.cohortTeams t).length = t.cohort ∧
      t.state = .held ∧
      (∀ e ∈ s.cohortTeams t, e.2.state = .held ∨ e.2.state = .retired) ∧
      gr.retired + 1 = gr.record.teams ∧
      gr.record.done = 0 ∧
      gr.parent ≠ none :=
  ⟨{ at_ group with grids := [(1, grid (some 2) false)], teams := [(1, { team with state := .held })] },
    1,
    { team with state := .held },
    part,
    grid (some 2) false,
    rfl,
    rfl,
    rfl,
    by decide,
    by decide,
    by decide,
    by decide,
    by decide,
    by decide,
    by decide⟩

/-- TeamsComeAndGo. -/
theorem wit_teamsComeAndGo_9 : ∃ (s : State) (tid : Nat) (t : Team) (x : Part) (gr : Grid), s.team tid = some t ∧
      s.part t.part = some x ∧
      tabGet s.grids t.grid = some gr ∧
      s.childGrids tid = [] ∧
      (s.cohortTeams t).length = t.cohort ∧
      t.state = .held ∧
      (∀ e ∈ s.cohortTeams t, e.2.state = .held ∨ e.2.state = .retired) ∧
      ∃ w, ∃ pa, gr.retired + 1 = gr.record.teams ∧
      gr.record.done ≠ 0 ∧
      gr.record.done.toNat < 2 ^ 57 ∧
      s.NoReplicas ∧
      w = walk s x gr.record.done.toNat ∧
      w.fin = .leaf ∧
      pteW w.pte = true ∧
      (gr.depth = 0 ∨ pteU w.pte = true) ∧
      pteKey w.pte = 0 ∧
      pa = leafPa w gr.record.done.toNat ∧
      x.owns pa = true :=
  ⟨{ mapped paged 0x4B group with grids := [(1, { grid none false with record := { LaunchRec.ofBytes (1 :: List.replicate 127 0) with done := 0x10 } })], teams := [(1, { team with state := .held })] },
    1,
    { team with state := .held },
    paged,
    { grid none false with record := { LaunchRec.ofBytes (1 :: List.replicate 127 0) with done := 0x10 } },
    rfl,
    rfl,
    rfl,
    by decide,
    by decide,
    by decide,
    by decide,
    _,
    _,
    by decide,
    by decide,
    by decide,
    nofun,
    rfl,
    rfl,
    by decide,
    .inl rfl,
    by decide,
    rfl,
    by decide⟩

/-- PrivilegedRegisters. -/
theorem wit_privilegedRegisters_1 :
    (∃ (s : State) (gid : Nat) (g : Group) (p : Split) (f : Psrd) (x : Part), Ready s gid g p ∧
      g.HasS [f.sd.toNat] ∧
      g.priv = true ∧
      (g.matq = [] ∨ (f.idx ≠ 0x11 ∧ f.idx ≠ 0x1A)) ∧
      s.part g.part = some x ∧
      f.idx.toNat < 0x27) ∧
    (∃ (s : State) (gid : Nat) (g : Group) (p : Split) (f : Psrd) (x : Part), Ready s gid g p ∧
      g.HasS [f.sd.toNat] ∧
      g.priv = true ∧
      (g.matq = [] ∨ (f.idx ≠ 0x11 ∧ f.idx ≠ 0x1A)) ∧
      s.part g.part = some x ∧
      ∃ v, (f.idx.toNat, v) ∈ privView s gid g x) ∧
    (∃ (s : State) (gid : Nat) (g : Group) (p : Split) (f : Psrd) (x : Part), Ready s gid g p ∧
      g.HasS [f.sd.toNat] ∧
      g.priv = true ∧
      s.part g.part = some x ∧
      g.matq ≠ [] ∧
      (f.idx = 0x11 ∨ f.idx = 0x1A)) ∧
    (∃ (s : State) (gid : Nat) (g : Group) (p : Split) (f : Psrd) (x : Part), Ready s gid g p ∧
      g.HasS [f.sd.toNat] ∧
      g.priv = true ∧
      s.part g.part = some x ∧
      f.idx = 0x124) ∧
    (∃ (s : State) (gid : Nat) (g : Group) (p : Split) (f : Pswr) (x : Part) (v : Word), Ready s gid g p ∧
      g.HasS [f.sa.toNat] ∧
      g.priv = true ∧
      s.part g.part = some x ∧
      v = g.sreg f.sa.toNat ∧
      g.matq ≠ [] ∧
      (f.idx = 0x11 ∨ f.idx = 0x1A)) ∧
    (∃ (s : State) (gid : Nat) (g : Group) (p : Split) (f : Pswr) (x : Part) (v : Word), Ready s gid g p ∧
      g.HasS [f.sa.toNat] ∧
      g.priv = true ∧
      s.part g.part = some x ∧
      v = g.sreg f.sa.toNat ∧
      ∃ h, (g.matq = [] ∨ (f.idx ≠ 0x11 ∧ f.idx ≠ 0x1A)) ∧
      (f.idx.toNat, h) ∈ ([(0x10, { g with mode := v.setWidth 25 }), (0x11, { g with flags := v.setWidth 7 }),
        (0x12, { g with scc := v.setWidth 5 }), (0x17, g), (0x18, { g with msig := v }), (0x19, { g with lscale := v }),
        (0x1A, { g with ovf := v.setWidth 3 }), (0x11A, { g with timeWrite := v })] : List (Nat × Group))) ∧
    (∃ (s : State) (gid : Nat) (g : Group) (p : Split) (f : Pswr) (x : Part) (v : Word), Ready s gid g p ∧
      g.HasS [f.sa.toNat] ∧
      g.priv = true ∧
      s.part g.part = some x ∧
      v = g.sreg f.sa.toNat ∧
      ∃ y, (f.idx.toNat, y) ∈ partWrites x v) ∧
    (∃ (s : State) (gid : Nat) (g : Group) (p : Split) (f : Pswr) (x : Part) (v : Word), Ready s gid g p ∧
      g.HasS [f.sa.toNat] ∧
      g.priv = true ∧
      s.part g.part = some x ∧
      v = g.sreg f.sa.toNat ∧
      f.idx = 0x105 ∧
      OverflowTable v) :=
  ⟨⟨at_ house,
    0,
    house,
    split,
    { sd := 4, idx := 0x10, st := 0 },
    part,
    mkReady part rfl rfl rfl rfl ⟨rfl, rfl, rfl, rfl⟩ rfl (by decide) rfl (by decide),
    by unfold Group.HasS; decide,
    by decide,
    by decide,
    rfl,
    by decide⟩,
  ⟨at_ house,
    0,
    house,
    split,
    { sd := 4, idx := 0x100, st := 0 },
    part,
    mkReady part rfl rfl rfl rfl ⟨rfl, rfl, rfl, rfl⟩ rfl (by decide) rfl (by decide),
    by unfold Group.HasS; decide,
    by decide,
    by decide,
    rfl,
    _,
    List.mem_append_left _ (List.mem_append_left _ List.mem_cons_self)⟩,
  ⟨at_ { house with matq := [matOp (.accz 0) false 0] },
    0,
    { house with matq := [matOp (.accz 0) false 0] },
    split,
    { sd := 4, idx := 0x1A, st := 0 },
    part,
    mkReady part rfl rfl rfl rfl ⟨rfl, rfl, rfl, rfl⟩ rfl (by decide) rfl (by decide),
    by unfold Group.HasS; decide,
    by decide,
    rfl,
    by decide,
    by decide⟩,
  ⟨at_ house,
    0,
    house,
    split,
    { sd := 4, idx := 0x124, st := 0 },
    part,
    mkReady part rfl rfl rfl rfl ⟨rfl, rfl, rfl, rfl⟩ rfl (by decide) rfl (by decide),
    by unfold Group.HasS; decide,
    by decide,
    rfl,
    by decide⟩,
  ⟨at_ { house with matq := [matOp (.accz 0) false 0] },
    0,
    { house with matq := [matOp (.accz 0) false 0] },
    split,
    { sa := 8, idx := 0x11, st := 0 },
    part,
    _,
    mkReady part rfl rfl rfl rfl ⟨rfl, rfl, rfl, rfl⟩ rfl (by decide) rfl (by decide),
    by unfold Group.HasS; decide,
    by decide,
    rfl,
    rfl,
    by decide,
    .inl rfl⟩,
  ⟨at_ house,
    0,
    house,
    split,
    { sa := 8, idx := 0x10, st := 0 },
    part,
    _,
    mkReady part rfl rfl rfl rfl ⟨rfl, rfl, rfl, rfl⟩ rfl (by decide) rfl (by decide),
    by unfold Group.HasS; decide,
    by decide,
    rfl,
    rfl,
    _,
    by decide,
    List.mem_cons_self⟩,
  ⟨at_ house,
    0,
    house,
    split,
    { sa := 8, idx := 0x100, st := 0 },
    part,
    _,
    mkReady part rfl rfl rfl rfl ⟨rfl, rfl, rfl, rfl⟩ rfl (by decide) rfl (by decide),
    by unfold Group.HasS; decide,
    by decide,
    rfl,
    rfl,
    _,
    List.mem_append_left _ List.mem_cons_self⟩,
  ⟨at_ house,
    0,
    house,
    split,
    { sa := 8, idx := 0x105, st := 0 },
    part,
    _,
    mkReady part rfl rfl rfl rfl ⟨rfl, rfl, rfl, rfl⟩ rfl (by decide) rfl (by decide),
    by unfold Group.HasS; decide,
    by decide,
    rfl,
    rfl,
    by decide,
    ⟨by decide, by decide⟩⟩⟩

/-- PrivilegedRegisters. -/
theorem wit_privilegedRegisters_2 :
    (∃ (s : State) (gid : Nat) (g : Group) (p : Split) (f : Pswr) (x : Part) (v : Word), Ready s gid g p ∧
      g.HasS [f.sa.toNat] ∧
      g.priv = true ∧
      s.part g.part = some x ∧
      v = g.sreg f.sa.toNat ∧
      f.idx = 0x105 ∧
      ¬OverflowTable v ∧
      g.handler = none) ∧
    (∃ (s : State) (gid : Nat) (g : Group) (p : Split) (f : Pswr) (x : Part) (v : Word), Ready s gid g p ∧
      g.HasS [f.sa.toNat] ∧
      g.priv = true ∧
      s.part g.part = some x ∧
      v = g.sreg f.sa.toNat ∧
      f.idx = 0x119) ∧
    (∃ (s : State) (gid : Nat) (g : Group) (p : Split) (f : Pswr) (x : Part) (v : Word), Ready s gid g p ∧
      g.HasS [f.sa.toNat] ∧
      g.priv = true ∧
      s.part g.part = some x ∧
      v = g.sreg f.sa.toNat ∧
      f.idx = 0x136) ∧
    (∃ (s : State) (gid : Nat) (g : Group) (p : Split) (f : Pswr) (x : Part) (v : Word), Ready s gid g p ∧
      g.HasS [f.sa.toNat] ∧
      g.priv = true ∧
      s.part g.part = some x ∧
      v = g.sreg f.sa.toNat ∧
      f.idx = 0x140) ∧
    (∃ (s : State) (gid : Nat) (g : Group) (p : Split) (f : Pswr) (x : Part) (v : Word), Ready s gid g p ∧
      g.HasS [f.sa.toNat] ∧
      g.priv = true ∧
      s.part g.part = some x ∧
      v = g.sreg f.sa.toNat ∧
      (f.idx = 0x108 ∨ f.idx = 0x109)) ∧
    (∃ (s : State) (gid : Nat) (g : Group) (p : Split) (h : Held) (f : Pswr) (x : Part), Resumes s gid g p h ∧
      h.marker = true ∧
      s.part g.part = some x ∧
      (f.idx = 0x108 ∨ f.idx = 0x109)) ∧
    (∃ (s : State) (gid : Nat) (g : Group) (v : Word), s.cur = some gid ∧
      s.group gid = some g) ∧
    (∃ (s : State) (gid : Nat) (g : Group) (v : Word), s.cur = some gid ∧
      s.group gid = some g ∧
      ∃ q, g.issuing = some q ∧
      g.matq ≠ []) :=
  ⟨⟨at_ (houseS [(8, 3)]),
    0,
    (houseS [(8, 3)]),
    split,
    { sa := 8, idx := 0x105, st := 0 },
    part,
    _,
    mkReady part rfl rfl rfl rfl ⟨rfl, rfl, rfl, rfl⟩ rfl (by decide) rfl (by decide),
    by unfold Group.HasS; decide,
    by decide,
    rfl,
    rfl,
    by decide,
    (fun h => absurd (h.2 0 (by decide)) (by decide)),
    by decide⟩,
  ⟨at_ house,
    0,
    house,
    split,
    { sa := 8, idx := 0x119, st := 0 },
    part,
    _,
    mkReady part rfl rfl rfl rfl ⟨rfl, rfl, rfl, rfl⟩ rfl (by decide) rfl (by decide),
    by unfold Group.HasS; decide,
    by decide,
    rfl,
    rfl,
    by decide⟩,
  ⟨at_ house,
    0,
    house,
    split,
    { sa := 8, idx := 0x136, st := 0 },
    part,
    _,
    mkReady part rfl rfl rfl rfl ⟨rfl, rfl, rfl, rfl⟩ rfl (by decide) rfl (by decide),
    by unfold Group.HasS; decide,
    by decide,
    rfl,
    rfl,
    by decide⟩,
  ⟨at_ house,
    0,
    house,
    split,
    { sa := 8, idx := 0x140, st := 0 },
    part,
    _,
    mkReady part rfl rfl rfl rfl ⟨rfl, rfl, rfl, rfl⟩ rfl (by decide) rfl (by decide),
    by unfold Group.HasS; decide,
    by decide,
    rfl,
    rfl,
    by decide⟩,
  ⟨at_ house,
    0,
    house,
    split,
    { sa := 8, idx := 0x108, st := 0 },
    part,
    _,
    mkReady part rfl rfl rfl rfl ⟨rfl, rfl, rfl, rfl⟩ rfl (by decide) rfl (by decide),
    by unfold Group.HasS; decide,
    by decide,
    rfl,
    rfl,
    .inl rfl⟩,
  ⟨at_ { house with splits := [resumed []] },
    0,
    { house with splits := [resumed []] },
    resumed [],
    _,
    { sa := 8, idx := 0x108, st := 0 },
    part,
    ⟨rfl, rfl, rfl, rfl, ⟨rfl, rfl, rfl, rfl⟩, rfl, by decide⟩,
    rfl,
    rfl,
    .inl rfl⟩,
  ⟨at_ group,
    0,
    group,
    0,
    rfl,
    rfl⟩,
  ⟨at_ (working (.accz 0) false 0),
    0,
    (working (.accz 0) false 0),
    0,
    rfl,
    rfl,
    split,
    rfl,
    by decide⟩⟩

/-- PrivilegedRegisters. -/
theorem wit_privilegedRegisters_3 : ∃ (s : State) (gid : Nat) (g : Group) (v : Word), s.cur = some gid ∧
      s.group gid = some g ∧
      ∃ q, g.issuing = some q ∧
      g.matq = [] :=
  ⟨at_ group,
    0,
    group,
    0,
    rfl,
    rfl,
    split,
    rfl,
    by decide⟩

/-- LeavingHandlers. -/
theorem wit_leavingHandlers_1 :
    (∃ (s : State) (gid : Nat) (g : Group) (p : Split) (f : Imm16) (x : Part), Ready s gid g p ∧
      g.handler = none ∧
      s.part g.part = some x) ∧
    (∃ (s : State) (gid : Nat) (g : Group) (p : Split) (f : Bare) (x : Part) (h : Handler) (tpc : DWord), Ready s gid g p ∧
      g.handler = some h ∧
      s.part g.part = some x ∧
      tpc = BitVec.ofNat 64 (ofBytes (s.sbytes (frameKey x gid + 0x158) 8)) &&& ~~~3) ∧
    (∃ (s : State) (gid : Nat) (g : Group) (p : Split) (f : Bare) (x : Part) (h : Handler) (tpc : DWord), Ready s gid g p ∧
      g.handler = some h ∧
      s.part g.part = some x ∧
      tpc = BitVec.ofNat 64 (ofBytes (s.sbytes (frameKey x gid + 0x158) 8)) &&& ~~~3 ∧
      ∃ w, ∃ r, fetchWord s ({ g with handler := none }.agent gid) tpc = .words (w :: r)) ∧
    (∃ (s : State) (gid : Nat) (g : Group) (p : Split) (f : SysA) (x : Part) (h : Handler) (pl : Place), Ready s gid g p ∧
      g.handler = some h ∧
      s.part g.part = some x ∧
      g.HasS [f.sa.toNat, f.sa.toNat + 1] ∧
      Reaches s gid g .read 4 (g.spair f.sa.toNat).toNat pl ∧
      Unsent s (clusterOf (coreOf gid)) pl 4) ∧
    (∃ (s : State) (gid : Nat) (g : Group) (p : Split) (f : Bare) (y : SysA) (x : Part), Ready s gid g p ∧
      g.handler = none ∧
      g.priv = true ∧
      s.part g.part = some x ∧
      g.HasS [y.sa.toNat, y.sa.toNat + 1] ∧
      ∃ i, i ∈ [Instr.rfe f, .rfeNext f, .rfePark y]) ∧
    (∃ (s : State) (gid : Nat) (g : Group) (w : Watch) (x : Part) (v : Nat), s.group gid = some g ∧
      s.part g.part = some x ∧
      g.parked = some w ∧
      g.residency = .running ∧
      s.watched w = (v, []) ∧
      s.taking g = true) ∧
    (∃ (s : State) (gid : Nat) (g : Group) (w : Watch) (x : Part) (v : Nat), s.group gid = some g ∧
      s.part g.part = some x ∧
      g.parked = some w ∧
      g.residency = .running ∧
      s.watched w = (v, []) ∧
      s.taking g = false ∧
      v = 1) ∧
    (∃ (s : State) (gid : Nat) (g : Group) (w : Watch) (x : Part) (v : Nat), s.group gid = some g ∧
      s.part g.part = some x ∧
      g.parked = some w ∧
      g.residency = .running ∧
      s.watched w = (v, []) ∧
      s.taking g = false ∧
      v = 2) :=
  ⟨⟨at_ group,
    0,
    group,
    split,
    { imm := 0, st := 0 },
    part,
    mkReady part rfl rfl rfl rfl ⟨rfl, rfl, rfl, rfl⟩ rfl (by decide) rfl (by decide),
    by decide,
    rfl⟩,
  ⟨at_ (handling group),
    0,
    (handling group),
    split,
    { st := 0 },
    part,
    _,
    _,
    mkReady part rfl rfl rfl rfl ⟨rfl, rfl, rfl, rfl⟩ rfl (by decide) rfl (by decide),
    rfl,
    rfl,
    rfl⟩,
  ⟨(at_ (handling house)).setSbytes (frameKey part 0 + 0x158) (toBytes 8 0x0100000000010000),
    0,
    (handling house),
    split,
    { st := 0 },
    part,
    _,
    _,
    mkReady part rfl rfl rfl rfl ⟨rfl, rfl, rfl, rfl⟩ rfl (by decide) rfl (by decide),
    rfl,
    rfl,
    rfl,
    _,
    _,
    rfl⟩,
  ⟨at_ (handling (withS [(9, 0x10000000)])),
    0,
    (handling (withS [(9, 0x10000000)])),
    split,
    { sa := 8, st := 0 },
    part,
    _,
    _,
    mkReady part rfl rfl rfl rfl ⟨rfl, rfl, rfl, rfl⟩ rfl (by decide) rfl (by decide),
    rfl,
    rfl,
    by unfold Group.HasS; decide,
    ⟨rfl, rfl, .inr rfl⟩,
    (fun _ h => (nomatch h))⟩,
  ⟨at_ house,
    0,
    house,
    split,
    { st := 0 },
    { sa := 8, st := 0 },
    part,
    mkReady part rfl rfl rfl rfl ⟨rfl, rfl, rfl, rfl⟩ rfl (by decide) rfl (by decide),
    by decide,
    by decide,
    rfl,
    by unfold Group.HasS; decide,
    Instr.rfe { st := 0 },
    by simp⟩,
  ⟨{ at_ ({ group with parked := some { spad := true, place := 0, key := none } }) with spad := [(0, 1)], teams := [(1, { team with taking := true })] },
    0,
    { group with parked := some { spad := true, place := 0, key := none } },
    _,
    part,
    1,
    rfl,
    rfl,
    rfl,
    rfl,
    rfl,
    by decide⟩,
  ⟨{ at_ ({ group with parked := some { spad := true, place := 0, key := none } }) with spad := [(0, 1)] },
    0,
    { group with parked := some { spad := true, place := 0, key := none } },
    _,
    part,
    1,
    rfl,
    rfl,
    rfl,
    rfl,
    rfl,
    by decide,
    by decide⟩,
  ⟨{ at_ ({ group with parked := some { spad := true, place := 0, key := none } }) with spad := [(0, 2)] },
    0,
    { group with parked := some { spad := true, place := 0, key := none } },
    _,
    part,
    2,
    rfl,
    rfl,
    rfl,
    rfl,
    rfl,
    by decide,
    by decide⟩⟩

/-- LeavingHandlers. -/
theorem wit_leavingHandlers_2 :
    (∃ (s : State) (gid : Nat) (g : Group) (w : Watch) (x : Part) (v : Nat), s.group gid = some g ∧
      s.part g.part = some x ∧
      g.parked = some w ∧
      g.residency = .running ∧
      s.watched w = (v, []) ∧
      s.taking g = false ∧
      v ≠ 1 ∧
      v ≠ 2) ∧
    (∃ (s : State) (gid : Nat) (g : Group) (w : Watch) (x : Part), s.group gid = some g ∧
      s.part g.part = some x ∧
      g.parked = some w ∧
      g.residency = .running ∧
      (s.watched w).2 ≠ []) :=
  ⟨⟨{ at_ ({ group with parked := some { spad := true, place := 0, key := none } }) with spad := [(0, 3)] },
    0,
    { group with parked := some { spad := true, place := 0, key := none } },
    _,
    part,
    3,
    rfl,
    rfl,
    rfl,
    rfl,
    rfl,
    by decide,
    by decide,
    by decide⟩,
  ⟨{ at_ ({ group with parked := some { spad := true, place := 0, key := none } }) with spadPoison := [(0, 1)] },
    0,
    { group with parked := some { spad := true, place := 0, key := none } },
    _,
    part,
    rfl,
    rfl,
    rfl,
    rfl,
    by decide⟩⟩

/-- SystemCalls. -/
theorem wit_systemCalls_1 :
    (∃ (s : State) (gid : Nat) (g : Group) (p : Split) (f : SysA) (x : Part) (v : Word), Ready s gid g p ∧
      g.HasS [f.sa.toNat] ∧
      g.priv = true ∧
      s.part g.part = some x ∧
      v = g.sreg f.sa.toNat ∧
      v.toNat < 2) ∧
    (∃ (s : State) (gid : Nat) (g : Group) (p : Split) (f : SysA) (x : Part) (v : Word), Ready s gid g p ∧
      g.HasS [f.sa.toNat] ∧
      g.priv = true ∧
      s.part g.part = some x ∧
      v = g.sreg f.sa.toNat ∧
      2 ≤ v.toNat ∧
      g.handler = none) ∧
    (∃ (s : State) (gid : Nat) (g : Group) (p : Split) (f : SysA) (x : Part) (v : Word), Ready s gid g p ∧
      g.HasS [f.sa.toNat] ∧
      g.priv = true ∧
      s.part g.part = some x ∧
      v = g.sreg f.sa.toNat ∧
      OverflowTable v) ∧
    (∃ (s : State) (gid : Nat) (g : Group) (p : Split) (f : SysA) (x : Part) (v : Word), Ready s gid g p ∧
      g.HasS [f.sa.toNat] ∧
      g.priv = true ∧
      s.part g.part = some x ∧
      v = g.sreg f.sa.toNat ∧
      ¬OverflowTable v ∧
      g.handler = none) ∧
    (∃ (s : State) (gid : Nat) (g : Group) (p : Split) (f : SysDA) (x : Part) (n : Nat) (q : Nat), Ready s gid g p ∧
      g.HasS [f.sd.toNat, f.sa.toNat] ∧
      g.priv = true ∧
      s.part g.part = some x ∧
      n < 128 ∧
      q < 8 ∧
      (g.sreg f.sa.toNat).toNat = n + 2 ^ 8 * q ∧
      x.ownsIsland n = false) ∧
    (∃ (s : State) (gid : Nat) (g : Group) (p : Split) (f : SysDA) (x : Part) (n : Nat) (q : Nat), Ready s gid g p ∧
      g.HasS [f.sd.toNat, f.sa.toNat] ∧
      g.priv = true ∧
      s.part g.part = some x ∧
      n < 128 ∧
      q < 8 ∧
      (g.sreg f.sa.toNat).toNat = n + 2 ^ 8 * q ∧
      x.ownsIsland n = true ∧
      (pointAccepted n q = false ∨ 6 ≤ q ∧ ∃ e ∈ s.groups, islandOfCore (coreOf e.1) = n)) ∧
    (∃ (s : State) (gid : Nat) (g : Group) (p : Split) (f : SysDA) (x : Part) (n : Nat) (q : Nat), Ready s gid g p ∧
      g.HasS [f.sd.toNat, f.sa.toNat] ∧
      g.priv = true ∧
      s.part g.part = some x ∧
      n < 128 ∧
      q < 8 ∧
      (g.sreg f.sa.toNat).toNat = n + 2 ^ 8 * q ∧
      x.ownsIsland n = true ∧
      pointAccepted n q = true ∧
      (6 ≤ q → ∀ e ∈ s.groups, islandOfCore (coreOf e.1) ≠ n)) ∧
    (∃ (s : State) (gid : Nat) (g : Group) (p : Split) (h : Held) (f : SysDA), Resumes s gid g p h ∧
      h.marker = true) :=
  ⟨⟨at_ house,
    0,
    house,
    split,
    { sa := 8, st := 0 },
    part,
    _,
    mkReady part rfl rfl rfl rfl ⟨rfl, rfl, rfl, rfl⟩ rfl (by decide) rfl (by decide),
    by unfold Group.HasS; decide,
    by decide,
    rfl,
    rfl,
    by decide⟩,
  ⟨at_ (houseS [(8, 2)]),
    0,
    (houseS [(8, 2)]),
    split,
    { sa := 8, st := 0 },
    part,
    _,
    mkReady part rfl rfl rfl rfl ⟨rfl, rfl, rfl, rfl⟩ rfl (by decide) rfl (by decide),
    by unfold Group.HasS; decide,
    by decide,
    rfl,
    rfl,
    by decide,
    by decide⟩,
  ⟨at_ house,
    0,
    house,
    split,
    { sa := 8, st := 0 },
    part,
    _,
    mkReady part rfl rfl rfl rfl ⟨rfl, rfl, rfl, rfl⟩ rfl (by decide) rfl (by decide),
    by unfold Group.HasS; decide,
    by decide,
    rfl,
    rfl,
    ⟨by decide, by decide⟩⟩,
  ⟨at_ (houseS [(8, 3)]),
    0,
    (houseS [(8, 3)]),
    split,
    { sa := 8, st := 0 },
    part,
    _,
    mkReady part rfl rfl rfl rfl ⟨rfl, rfl, rfl, rfl⟩ rfl (by decide) rfl (by decide),
    by unfold Group.HasS; decide,
    by decide,
    rfl,
    rfl,
    (fun h => absurd (h.2 0 (by decide)) (by decide)),
    by decide⟩,
  ⟨placed nothing house,
    0,
    house,
    split,
    { sd := 4, sa := 8, st := 0 },
    nothing,
    0,
    0,
    mkReady nothing rfl rfl rfl rfl ⟨rfl, rfl, rfl, rfl⟩ rfl (by decide) rfl (by decide),
    by unfold Group.HasS; decide,
    by decide,
    rfl,
    by decide,
    by decide,
    by decide,
    rfl⟩,
  ⟨at_ (houseS [(8, 0x700)]),
    0,
    (houseS [(8, 0x700)]),
    split,
    { sd := 4, sa := 8, st := 0 },
    part,
    0,
    7,
    mkReady part rfl rfl rfl rfl ⟨rfl, rfl, rfl, rfl⟩ rfl (by decide) rfl (by decide),
    by unfold Group.HasS; decide,
    by decide,
    rfl,
    by decide,
    by decide,
    by decide,
    rfl,
    .inr ⟨by decide, _, List.mem_singleton.mpr rfl, by decide⟩⟩,
  ⟨at_ house,
    0,
    house,
    split,
    { sd := 4, sa := 8, st := 0 },
    part,
    0,
    0,
    mkReady part rfl rfl rfl rfl ⟨rfl, rfl, rfl, rfl⟩ rfl (by decide) rfl (by decide),
    by unfold Group.HasS; decide,
    by decide,
    rfl,
    by decide,
    by decide,
    by decide,
    rfl,
    by decide,
    (fun h => absurd h (by decide))⟩,
  ⟨at_ { house with splits := [resumed []] },
    0,
    { house with splits := [resumed []] },
    resumed [],
    _,
    { sd := 4, sa := 8, st := 0 },
    ⟨rfl, rfl, rfl, rfl, ⟨rfl, rfl, rfl, rfl⟩, rfl, by decide⟩,
    rfl⟩⟩

/-- SystemCalls. -/
theorem wit_systemCalls_2 :
    (∃ (s : State) (gid : Nat) (g : Group) (p : Split) (f : SysDA) (x : Part) (w : Word), Ready s gid g p ∧
      g.HasS [f.sd.toNat, f.sa.toNat] ∧
      g.priv = true ∧
      s.part g.part = some x ∧
      w = g.sreg f.sa.toNat ∧
      w.toNat / 2 ^ 21 = 0 ∧
      w.toNat % 16 < 2 ∧
      s.located g.part (w &&& ~~~1) = none) ∧
    (∃ (s : State) (gid : Nat) (g : Group) (p : Split) (f : SysDA) (x : Part) (w : Word), Ready s gid g p ∧
      g.HasS [f.sd.toNat, f.sa.toNat] ∧
      g.priv = true ∧
      s.part g.part = some x ∧
      w = g.sreg f.sa.toNat ∧
      w.toNat / 2 ^ 21 = 0 ∧
      w.toNat % 16 < 2 ∧
      ∃ id, ∃ q, s.located g.part (w &&& ~~~1) = some (id, q) ∧
      (id = gid ∨ w.getLsbD 0 = true ∧ q.team ≠ none ∧ q.team = g.team)) ∧
    (∃ (s : State) (gid : Nat) (g : Group) (p : Split) (f : SysDA) (x : Part) (w : Word), Ready s gid g p ∧
      g.HasS [f.sd.toNat, f.sa.toNat] ∧
      g.priv = true ∧
      s.part g.part = some x ∧
      w = g.sreg f.sa.toNat ∧
      w.toNat / 2 ^ 21 = 0 ∧
      w.toNat % 16 < 2 ∧
      ∃ id, ∃ q, s.located g.part (w &&& ~~~1) = some (id, q) ∧
      id ≠ gid ∧
      w.getLsbD 0 = false) ∧
    (∃ (s : State) (gid : Nat) (g : Group) (p : Split) (f : SysDA) (x : Part) (w : Word), Ready s gid g p ∧
      g.HasS [f.sd.toNat, f.sa.toNat] ∧
      g.priv = true ∧
      s.part g.part = some x ∧
      w = g.sreg f.sa.toNat ∧
      w.toNat / 2 ^ 21 = 0 ∧
      w.toNat % 16 < 2 ∧
      ∃ id, ∃ q, s.located g.part (w &&& ~~~1) = some (id, q) ∧
      id ≠ gid ∧
      w.getLsbD 0 = true ∧
      q.team ≠ none ∧
      q.team ≠ g.team) ∧
    (∃ (s : State) (gid : Nat) (g : Group) (p : Split) (f : SysDAB) (x : Part) (n : Nat) (er : Bool) (pl : Place) (r : Nat × List Byte) (b : List Byte), Ready s gid g p ∧
      g.HasS [f.sd.toNat, f.sa.toNat, f.sa.toNat + 1, f.sb.toNat] ∧
      g.priv = true ∧
      s.part g.part = some x ∧
      n < 16 ∧
      (g.sreg f.sb.toNat).toNat = n + (if er then 256 else 0) ∧
      Reaches s gid g .read 128 (g.spair f.sa.toNat).toNat pl ∧
      Unsent s (clusterOf (coreOf gid)) pl 128 ∧
      b = s.readAt pl 128 ∧
      r = keyResult s g.part x n er b) ∧
    (∃ (s : State) (gid : Nat) (g : Group) (p : Split) (f : SysDAB) (x : Part) (n : Nat) (er : Bool) (pl : Place) (r : Nat × List Byte) (b : List Byte), Ready s gid g p ∧
      g.HasS [f.sd.toNat, f.sa.toNat, f.sa.toNat + 1, f.sb.toNat] ∧
      g.priv = true ∧
      s.part g.part = some x ∧
      n < 16 ∧
      (g.sreg f.sb.toNat).toNat = n + (if er then 256 else 0) ∧
      Reaches s gid g .read 128 (g.spair f.sa.toNat).toNat pl ∧
      Unsent s (clusterOf (coreOf gid)) pl 128 ∧
      b = s.readAt pl 128 ∧
      r = keyResult s g.part x n er b ∧
      (er = true → ∀ q, tabGet x.keys n = some q → ∀ e ∈ s.dir, ∀ c ∈ e.2.l1, c.2.key ≠ some q)) ∧
    (∃ (s : State) (gid : Nat) (g : Group) (p : Split) (f : SysDAB) (x : Part) (w : Word) (a : Nat), Ready s gid g p ∧
      g.HasS [f.sd.toNat, f.sa.toNat, f.sa.toNat + 1, f.sb.toNat] ∧
      g.priv = true ∧
      s.part g.part = some x ∧
      w = g.sreg f.sb.toNat ∧
      a = (g.spair f.sa.toNat).toNat ∧
      (w.toNat / 2 ^ 21 ≠ 0 ∨ w.toNat % 16 ≠ 0) ∧
      g.handler = none) ∧
    (∃ (s : State) (gid : Nat) (g : Group) (p : Split) (f : SysDAB) (x : Part) (w : Word) (a : Nat), Ready s gid g p ∧
      g.HasS [f.sd.toNat, f.sa.toNat, f.sa.toNat + 1, f.sb.toNat] ∧
      g.priv = true ∧
      s.part g.part = some x ∧
      w = g.sreg f.sb.toNat ∧
      a = (g.spair f.sa.toNat).toNat ∧
      w.toNat / 2 ^ 21 = 0 ∧
      w.toNat % 16 = 0 ∧
      a % 128 ≠ 0 ∧
      g.handler = none) :=
  ⟨⟨at_ (houseS [(8, 0x10)]),
    0,
    (houseS [(8, 0x10)]),
    split,
    { sd := 4, sa := 8, st := 0 },
    part,
    _,
    mkReady part rfl rfl rfl rfl ⟨rfl, rfl, rfl, rfl⟩ rfl (by decide) rfl (by decide),
    by unfold Group.HasS; decide,
    by decide,
    rfl,
    rfl,
    by decide,
    by decide,
    rfl⟩,
  ⟨at_ house,
    0,
    house,
    split,
    { sd := 4, sa := 8, st := 0 },
    part,
    _,
    mkReady part rfl rfl rfl rfl ⟨rfl, rfl, rfl, rfl⟩ rfl (by decide) rfl (by decide),
    by unfold Group.HasS; decide,
    by decide,
    rfl,
    rfl,
    by decide,
    by decide,
    _,
    _,
    rfl,
    .inl rfl⟩,
  ⟨pair (houseS [(8, 0x10)]) part team,
    0,
    (houseS [(8, 0x10)]),
    split,
    { sd := 4, sa := 8, st := 0 },
    part,
    _,
    mkReady part rfl rfl rfl rfl ⟨rfl, rfl, rfl, rfl⟩ rfl (by decide) rfl (by decide),
    by unfold Group.HasS; decide,
    by decide,
    rfl,
    rfl,
    by decide,
    by decide,
    _,
    _,
    rfl,
    by decide,
    by decide⟩,
  ⟨pair (houseS [(8, 0x11)]) part team,
    0,
    (houseS [(8, 0x11)]),
    split,
    { sd := 4, sa := 8, st := 0 },
    part,
    _,
    mkReady part rfl rfl rfl rfl ⟨rfl, rfl, rfl, rfl⟩ rfl (by decide) rfl (by decide),
    by unfold Group.HasS; decide,
    by decide,
    rfl,
    rfl,
    by decide,
    by decide,
    _,
    _,
    rfl,
    by decide,
    by decide,
    by decide,
    by decide⟩,
  ⟨at_ (houseS [(8, 0x20000), (9, 0x01000000)]),
    0,
    (houseS [(8, 0x20000), (9, 0x01000000)]),
    split,
    { sd := 4, sa := 8, sb := 12, st := 0 },
    part,
    0,
    false,
    _,
    _,
    _,
    mkReady part rfl rfl rfl rfl ⟨rfl, rfl, rfl, rfl⟩ rfl (by decide) rfl (by decide),
    by unfold Group.HasS; decide,
    by decide,
    rfl,
    by decide,
    by decide,
    ⟨rfl, rfl, .inr rfl⟩,
    (fun l _ => ⟨fun a h => (nomatch h), fun c h => (nomatch h)⟩),
    rfl,
    rfl⟩,
  ⟨at_ (houseS [(8, 0x20000), (9, 0x01000000)]),
    0,
    (houseS [(8, 0x20000), (9, 0x01000000)]),
    split,
    { sd := 4, sa := 8, sb := 12, st := 0 },
    part,
    0,
    false,
    _,
    _,
    _,
    mkReady part rfl rfl rfl rfl ⟨rfl, rfl, rfl, rfl⟩ rfl (by decide) rfl (by decide),
    by unfold Group.HasS; decide,
    by decide,
    rfl,
    by decide,
    by decide,
    ⟨rfl, rfl, .inr rfl⟩,
    (fun l _ => ⟨fun a h => (nomatch h), fun c h => (nomatch h)⟩),
    rfl,
    rfl,
    (fun h => by cases h)⟩,
  ⟨at_ (houseS [(12, 1)]),
    0,
    (houseS [(12, 1)]),
    split,
    { sd := 4, sa := 8, sb := 12, st := 0 },
    part,
    _,
    _,
    mkReady part rfl rfl rfl rfl ⟨rfl, rfl, rfl, rfl⟩ rfl (by decide) rfl (by decide),
    by unfold Group.HasS; decide,
    by decide,
    rfl,
    rfl,
    rfl,
    by decide,
    by decide⟩,
  ⟨at_ (houseS [(8, 8)]),
    0,
    (houseS [(8, 8)]),
    split,
    { sd := 4, sa := 8, sb := 12, st := 0 },
    part,
    _,
    _,
    mkReady part rfl rfl rfl rfl ⟨rfl, rfl, rfl, rfl⟩ rfl (by decide) rfl (by decide),
    by unfold Group.HasS; decide,
    by decide,
    rfl,
    rfl,
    rfl,
    by decide,
    by decide,
    by decide,
    by decide⟩⟩

/-- SystemCalls. -/
theorem wit_systemCalls_3 :
    (∃ (s : State) (gid : Nat) (g : Group) (p : Split) (f : SysDAB) (x : Part) (w : Word) (a : Nat), Ready s gid g p ∧
      g.HasS [f.sd.toNat, f.sa.toNat, f.sa.toNat + 1, f.sb.toNat] ∧
      g.priv = true ∧
      s.part g.part = some x ∧
      w = g.sreg f.sb.toNat ∧
      a = (g.spair f.sa.toNat).toNat ∧
      w.toNat / 2 ^ 21 = 0 ∧
      w.toNat % 16 = 0 ∧
      a % 128 = 0 ∧
      (s.located g.part w = none ∨ ∃ id q, s.located g.part w = some (id, q) ∧
            (q.team.bind s.team = none ∨ ∃ t, q.team.bind s.team = some t ∧ t.state ≠ .resident))) ∧
    (∃ (s : State) (gid : Nat) (g : Group) (p : Split) (f : SysDAB) (x : Part) (w : Word) (a : Nat), Ready s gid g p ∧
      g.HasS [f.sd.toNat, f.sa.toNat, f.sa.toNat + 1, f.sb.toNat] ∧
      g.priv = true ∧
      s.part g.part = some x ∧
      w = g.sreg f.sb.toNat ∧
      a = (g.spair f.sa.toNat).toNat ∧
      w.toNat / 2 ^ 21 = 0 ∧
      w.toNat % 16 = 0 ∧
      a % 128 = 0 ∧
      ∃ id, ∃ q, ∃ tid, ∃ t, s.located g.part w = some (id, q) ∧
      q.team = some tid ∧
      s.team tid = some t ∧
      t.state = .resident ∧
      (∃ m ∈ s.members t, m.2.saving ≠ none)) ∧
    (∃ (s : State) (gid : Nat) (g : Group) (p : Split) (f : SysDAB) (x : Part) (w : Word) (a : Nat), Ready s gid g p ∧
      g.HasS [f.sd.toNat, f.sa.toNat, f.sa.toNat + 1, f.sb.toNat] ∧
      g.priv = true ∧
      s.part g.part = some x ∧
      w = g.sreg f.sb.toNat ∧
      a = (g.spair f.sa.toNat).toNat ∧
      w.toNat / 2 ^ 21 = 0 ∧
      w.toNat % 16 = 0 ∧
      a % 128 = 0 ∧
      ∃ id, ∃ q, ∃ tid, ∃ t, s.located g.part w = some (id, q) ∧
      q.team = some tid ∧
      s.team tid = some t ∧
      t.state = .resident ∧
      (∀ m ∈ s.members t, m.2.saving = none) ∧
      (s.ownsSpan x a (((s.members t).map fun m => s.imageBound m.2).sum) = false)) ∧
    (∃ (s : State) (gid : Nat) (g : Group) (p : Split) (f : SysDAB) (x : Part) (w : Word) (a : Nat), Ready s gid g p ∧
      g.HasS [f.sd.toNat, f.sa.toNat, f.sa.toNat + 1, f.sb.toNat] ∧
      g.priv = true ∧
      s.part g.part = some x ∧
      w = g.sreg f.sb.toNat ∧
      a = (g.spair f.sa.toNat).toNat ∧
      w.toNat / 2 ^ 21 = 0 ∧
      w.toNat % 16 = 0 ∧
      a % 128 = 0 ∧
      ∃ id, ∃ q, ∃ tid, ∃ t, s.located g.part w = some (id, q) ∧
      q.team = some tid ∧
      s.team tid = some t ∧
      t.state = .resident ∧
      (∀ m ∈ s.members t, m.2.saving = none) ∧
      (s.ownsSpan x a (((s.members t).map fun m => s.imageBound m.2).sum) = true)) ∧
    (∃ (s : State) (gid : Nat) (g : Group) (p : Split) (h : Held) (f : SysDAB) (tid : Nat), Resumes s gid g p h ∧
      h.marker = true ∧
      h.grids = [tid]) ∧
    (∃ (s : State) (gid : Nat) (g : Group) (p : Split) (f : SysDA) (x : Part) (a : Nat), Ready s gid g p ∧
      g.HasS [f.sd.toNat, f.sa.toNat, f.sa.toNat + 1] ∧
      g.priv = true ∧
      s.part g.part = some x ∧
      a = (g.spair f.sa.toNat).toNat ∧
      (s.ownsSpan x a 128 = false ∨ s.memNat (a + 4) 4 ≠ 1 ∨ s.memNat a 4 = 0)) ∧
    (∃ (s : State) (gid : Nat) (g : Group) (p : Split) (f : SysDA) (x : Part) (a : Nat), Ready s gid g p ∧
      g.HasS [f.sd.toNat, f.sa.toNat, f.sa.toNat + 1] ∧
      g.priv = true ∧
      s.part g.part = some x ∧
      a = (g.spair f.sa.toNat).toNat ∧
      s.ownsSpan x a 128 = true ∧
      s.memNat (a + 4) 4 = 1 ∧
      s.memNat a 4 ≠ 0 ∧
      (∀ t, s.team (s.memNat (a + 8) 4) = some t → t.part ≠ g.part ∨ t.state ≠ .preempted ∨ t.loadFrom ≠ none)) ∧
    (∃ (s : State) (gid : Nat) (g : Group) (p : Split) (f : SysDA) (x : Part) (a : Nat), Ready s gid g p ∧
      g.HasS [f.sd.toNat, f.sa.toNat, f.sa.toNat + 1] ∧
      g.priv = true ∧
      s.part g.part = some x ∧
      a = (g.spair f.sa.toNat).toNat ∧
      s.ownsSpan x a 128 = true ∧
      s.memNat (a + 4) 4 = 1 ∧
      s.memNat a 4 ≠ 0 ∧
      ∃ t, s.team (s.memNat (a + 8) 4) = some t ∧
      t.part = g.part ∧
      t.state = .preempted ∧
      t.loadFrom = none ∧
      (∀ m ∈ s.members t, s.team m.1 = some m.2)) :=
  ⟨⟨at_ (houseS [(12, 0x10)]),
    0,
    (houseS [(12, 0x10)]),
    split,
    { sd := 4, sa := 8, sb := 12, st := 0 },
    part,
    _,
    _,
    mkReady part rfl rfl rfl rfl ⟨rfl, rfl, rfl, rfl⟩ rfl (by decide) rfl (by decide),
    by unfold Group.HasS; decide,
    by decide,
    rfl,
    rfl,
    rfl,
    by decide,
    by decide,
    by decide,
    .inl rfl⟩,
  ⟨pair (houseS [(12, 0x10)]) part ({ team with saving := some 0 }),
    0,
    (houseS [(12, 0x10)]),
    split,
    { sd := 4, sa := 8, sb := 12, st := 0 },
    part,
    _,
    _,
    mkReady (part) rfl rfl rfl rfl ⟨rfl, rfl, rfl, rfl⟩ rfl (by decide) rfl (by decide),
    by unfold Group.HasS; decide,
    by decide,
    rfl,
    rfl,
    rfl,
    by decide,
    by decide,
    by decide,
    _,
    _,
    _,
    { team with saving := some 0 },
    rfl,
    rfl,
    rfl,
    rfl,
    ⟨(1, { team with saving := some 0 }), by decide, by decide⟩⟩,
  ⟨pair (houseS [(12, 0x10)]) nothing (team),
    0,
    (houseS [(12, 0x10)]),
    split,
    { sd := 4, sa := 8, sb := 12, st := 0 },
    nothing,
    _,
    _,
    mkReady (nothing) rfl rfl rfl rfl ⟨rfl, rfl, rfl, rfl⟩ rfl (by decide) rfl (by decide),
    by unfold Group.HasS; decide,
    by decide,
    rfl,
    rfl,
    rfl,
    by decide,
    by decide,
    by decide,
    _,
    _,
    _,
    team,
    rfl,
    rfl,
    rfl,
    rfl,
    by decide,
    by decide⟩,
  ⟨pair (houseS [(12, 0x10)]) part (team),
    0,
    (houseS [(12, 0x10)]),
    split,
    { sd := 4, sa := 8, sb := 12, st := 0 },
    part,
    _,
    _,
    mkReady (part) rfl rfl rfl rfl ⟨rfl, rfl, rfl, rfl⟩ rfl (by decide) rfl (by decide),
    by unfold Group.HasS; decide,
    by decide,
    rfl,
    rfl,
    rfl,
    by decide,
    by decide,
    by decide,
    _,
    _,
    _,
    team,
    rfl,
    rfl,
    rfl,
    rfl,
    by decide,
    by decide⟩,
  ⟨at_ { house with splits := [resumed [1]] },
    0,
    { house with splits := [resumed [1]] },
    resumed [1],
    _,
    { sd := 4, sa := 8, sb := 12, st := 0 },
    1,
    ⟨rfl, rfl, rfl, rfl, ⟨rfl, rfl, rfl, rfl⟩, rfl, by decide⟩,
    rfl,
    rfl⟩,
  ⟨at_ house,
    0,
    house,
    split,
    { sd := 4, sa := 8, st := 0 },
    part,
    _,
    mkReady part rfl rfl rfl rfl ⟨rfl, rfl, rfl, rfl⟩ rfl (by decide) rfl (by decide),
    by unfold Group.HasS; decide,
    by decide,
    rfl,
    rfl,
    .inr (.inl (by decide))⟩,
  ⟨{ at_ house with mem := [(0, 1), (4, 1)] },
    0,
    house,
    split,
    { sd := 4, sa := 8, st := 0 },
    part,
    _,
    mkReady part rfl rfl rfl rfl ⟨rfl, rfl, rfl, rfl⟩ rfl (by decide) rfl (by decide),
    by unfold Group.HasS; decide,
    by decide,
    rfl,
    rfl,
    by decide,
    by decide,
    by decide,
    (fun _ h => nomatch (show (none : Option Team) = some _ from h))⟩,
  ⟨{ at_ house with mem := [(0, 1), (4, 1), (8, 1)], teams := [(1, { team with state := .preempted })] },
    0,
    house,
    split,
    { sd := 4, sa := 8, st := 0 },
    part,
    _,
    mkReady part rfl rfl rfl rfl ⟨rfl, rfl, rfl, rfl⟩ rfl (by decide) rfl (by decide),
    by unfold Group.HasS; decide,
    by decide,
    rfl,
    rfl,
    by decide,
    by decide,
    by decide,
    _,
    rfl,
    by decide,
    rfl,
    by decide,
    by decide⟩⟩

/-- PagesAndPools. -/
theorem wit_pagesAndPools_1 :
    (∃ (s : State) (gid : Nat) (g : Group) (p : Split) (f : SysDA) (x : Part) (c : Word) (d : Nat) (large : Bool), Ready s gid g p ∧
      g.priv = true ∧
      s.part g.part = some x ∧
      c = g.sreg f.sa.toNat ∧
      g.HasS [f.sd.toNat, f.sd.toNat + 1, f.sa.toNat] ∧
      PoolNamed c gid d large ∧
      x.pool (poolKey d large) = []) ∧
    (∃ (s : State) (gid : Nat) (g : Group) (p : Split) (f : SysDA) (x : Part) (c : Word) (d : Nat) (large : Bool), Ready s gid g p ∧
      g.priv = true ∧
      s.part g.part = some x ∧
      c = g.sreg f.sa.toNat ∧
      g.HasS [f.sd.toNat, f.sd.toNat + 1, f.sa.toNat] ∧
      PoolNamed c gid d large ∧
      ∃ fr, ∃ r, x.pool (poolKey d large) = fr :: r) ∧
    (∃ (s : State) (gid : Nat) (g : Group) (p : Split) (f : SysDA) (x : Part) (c : Word) (d : Nat) (large : Bool), Ready s gid g p ∧
      g.priv = true ∧
      s.part g.part = some x ∧
      c = g.sreg f.sa.toNat ∧
      g.HasS [f.sd.toNat, f.sd.toNat + 1, f.sa.toNat] ∧
      PoolNamed c gid d large ∧
      ∃ fr, ∃ r, x.pool (poolKey d large) = fr :: r ∧
      ∃ (inside : Nat → Prop), (∀ l, inside l ↔ (tabGet s.dir l).isSome = true ∧ fr ≤ 128 * l ∧
          128 * l < fr + (if large then 2 ^ 29 else 2 ^ 16))) ∧
    (∃ (s : State) (gid : Nat) (g : Group) (p : Split) (h : Held) (f : SysDA) (fr : Nat), Resumes s gid g p h ∧
      h.marker = true ∧
      h.grids = [fr]) ∧
    (∃ (s : State) (gid : Nat) (g : Group) (p : Split) (f : SysDA) (x : Part) (c : Word) (d : Nat) (large : Bool), Ready s gid g p ∧
      g.priv = true ∧
      s.part g.part = some x ∧
      g.HasS [f.sd.toNat, f.sa.toNat, f.sa.toNat + 1, f.sa.toNat + 2, f.sa.toNat + 3] ∧
      c = g.sreg f.sa.toNat ∧
      PoolNamed c gid d large) ∧
    (∃ (s : State) (gid : Nat) (g : Group) (p : Split) (f : SysDA) (x : Part) (c : Word) (d : Nat) (large : Bool), Ready s gid g p ∧
      g.priv = true ∧
      s.part g.part = some x ∧
      g.HasS [f.sd.toNat, f.sa.toNat, f.sa.toNat + 1, f.sa.toNat + 2, f.sa.toNat + 3] ∧
      c = g.sreg (f.sa.toNat + 2) ∧
      PoolNamed c gid d large ∧
      ∃ fr, fr = (g.spair f.sa.toNat).toNat ∧
      ¬FrameFits s x d (if large then 2 ^ 29 else 2 ^ 16) fr) ∧
    (∃ (s : State) (gid : Nat) (g : Group) (p : Split) (f : SysDA) (x : Part) (c : Word) (d : Nat) (large : Bool), Ready s gid g p ∧
      g.priv = true ∧
      s.part g.part = some x ∧
      g.HasS [f.sd.toNat, f.sa.toNat, f.sa.toNat + 1, f.sa.toNat + 2, f.sa.toNat + 3] ∧
      c = g.sreg (f.sa.toNat + 2) ∧
      PoolNamed c gid d large ∧
      ∃ fr, fr = (g.spair f.sa.toNat).toNat ∧
      FrameFits s x d (if large then 2 ^ 29 else 2 ^ 16) fr ∧
      65536 ≤ (x.pool (poolKey d large)).length) ∧
    (∃ (s : State) (gid : Nat) (g : Group) (p : Split) (f : SysDA) (x : Part) (c : Word) (d : Nat) (large : Bool), Ready s gid g p ∧
      g.priv = true ∧
      s.part g.part = some x ∧
      g.HasS [f.sd.toNat, f.sa.toNat, f.sa.toNat + 1, f.sa.toNat + 2, f.sa.toNat + 3] ∧
      c = g.sreg (f.sa.toNat + 2) ∧
      PoolNamed c gid d large ∧
      ∃ fr, fr = (g.spair f.sa.toNat).toNat ∧
      FrameFits s x d (if large then 2 ^ 29 else 2 ^ 16) fr ∧
      (x.pool (poolKey d large)).length < 65536) :=
  ⟨⟨at_ house,
    0,
    house,
    split,
    { sd := 4, sa := 8, st := 0 },
    part,
    _,
    0,
    false,
    mkReady part rfl rfl rfl rfl ⟨rfl, rfl, rfl, rfl⟩ rfl (by decide) rfl (by decide),
    by decide,
    rfl,
    rfl,
    by unfold Group.HasS; decide,
    ⟨by decide, by decide, by decide, by decide⟩,
    rfl⟩,
  ⟨placed ({ part with pools := [(poolKey 0 false, [0x50000])] }) house,
    0,
    house,
    split,
    { sd := 4, sa := 8, st := 0 },
    { part with pools := [(poolKey 0 false, [0x50000])] },
    _,
    0,
    false,
    mkReady ({ part with pools := [(poolKey 0 false, [0x50000])] }) rfl rfl rfl rfl ⟨rfl, rfl, rfl, rfl⟩ rfl (by decide) rfl (by decide),
    by decide,
    rfl,
    rfl,
    by unfold Group.HasS; decide,
    ⟨by decide, by decide, by decide, by decide⟩,
    0x50000,
    [],
    rfl⟩,
  ⟨placed ({ part with pools := [(poolKey 0 false, [0x50000])] }) house,
    0,
    house,
    split,
    { sd := 4, sa := 8, st := 0 },
    { part with pools := [(poolKey 0 false, [0x50000])] },
    _,
    0,
    false,
    mkReady ({ part with pools := [(poolKey 0 false, [0x50000])] }) rfl rfl rfl rfl ⟨rfl, rfl, rfl, rfl⟩ rfl (by decide) rfl (by decide),
    by decide,
    rfl,
    rfl,
    by unfold Group.HasS; decide,
    ⟨by decide, by decide, by decide, by decide⟩,
    0x50000,
    [],
    rfl,
    _,
    (fun _ => Iff.rfl)⟩,
  ⟨at_ { house with splits := [resumed [5]] },
    0,
    { house with splits := [resumed [5]] },
    resumed [5],
    _,
    { sd := 4, sa := 8, st := 0 },
    5,
    ⟨rfl, rfl, rfl, rfl, ⟨rfl, rfl, rfl, rfl⟩, rfl, by decide⟩,
    rfl,
    rfl⟩,
  ⟨at_ house,
    0,
    house,
    split,
    { sd := 4, sa := 8, st := 0 },
    part,
    _,
    0,
    false,
    mkReady part rfl rfl rfl rfl ⟨rfl, rfl, rfl, rfl⟩ rfl (by decide) rfl (by decide),
    by decide,
    rfl,
    by unfold Group.HasS; decide,
    rfl,
    ⟨by decide, by decide, by decide, by decide⟩⟩,
  ⟨at_ (houseS [(8, 1)]),
    0,
    (houseS [(8, 1)]),
    split,
    { sd := 4, sa := 8, st := 0 },
    part,
    _,
    0,
    false,
    mkReady part rfl rfl rfl rfl ⟨rfl, rfl, rfl, rfl⟩ rfl (by decide) rfl (by decide),
    by decide,
    rfl,
    by unfold Group.HasS; decide,
    rfl,
    ⟨by decide, by decide, by decide, by decide⟩,
    _,
    rfl,
    (fun h => absurd h.1 (by decide))⟩,
  ⟨placed ({ part with pools := [(poolKey 0 false, List.replicate 65536 0)] }) house,
    0,
    house,
    split,
    { sd := 4, sa := 8, st := 0 },
    { part with pools := [(poolKey 0 false, List.replicate 65536 0)] },
    _,
    0,
    false,
    mkReady ({ part with pools := [(poolKey 0 false, List.replicate 65536 0)] }) rfl rfl rfl rfl ⟨rfl, rfl, rfl, rfl⟩ rfl (by decide) rfl (by decide),
    by decide,
    rfl,
    by unfold Group.HasS; decide,
    rfl,
    ⟨by decide, by decide, by decide, by decide⟩,
    _,
    rfl,
    ⟨by decide, by decide, by decide, by decide, by decide, by decide⟩,
    le_of_eq List.length_replicate.symm⟩,
  ⟨at_ house,
    0,
    house,
    split,
    { sd := 4, sa := 8, st := 0 },
    part,
    _,
    0,
    false,
    mkReady part rfl rfl rfl rfl ⟨rfl, rfl, rfl, rfl⟩ rfl (by decide) rfl (by decide),
    by decide,
    rfl,
    by unfold Group.HasS; decide,
    rfl,
    ⟨by decide, by decide, by decide, by decide⟩,
    _,
    rfl,
    ⟨by decide, by decide, by decide, by decide, by decide, by decide⟩,
    by decide⟩⟩

/-- PagesAndPools. -/
theorem wit_pagesAndPools_2 :
    (∃ (s : State) (gid : Nat) (g : Group) (p : Split) (f : SysDA) (x : Part) (c : Word) (d : Nat) (large : Bool), Ready s gid g p ∧
      g.priv = true ∧
      s.part g.part = some x ∧
      g.HasS [f.sd.toNat, f.sa.toNat, f.sa.toNat + 1, f.sa.toNat + 2, f.sa.toNat + 3] ∧
      g.handler = none ∧
      c = g.sreg f.sa.toNat ∧
      (16 ≤ c.toNat ∨ 5 ≤ c.toNat % 8)) ∧
    (∃ (s : State) (gid : Nat) (g : Group) (p : Split) (f : SysDA) (x : Part) (r : Nat × Nat), Ready s gid g p ∧
      s.part g.part = some x ∧
      g.HasS [f.sd.toNat, f.sd.toNat + 1, f.sd.toNat + 2, f.sd.toNat + 3, f.sa.toNat, f.sa.toNat + 1] ∧
      r = xlatAnswer s x g.priv (g.spair f.sa.toNat).toNat ∧
      ∃ l, s.xlatWaits x g.priv (g.spair f.sa.toNat).toNat = some l) ∧
    (∃ (s : State) (gid : Nat) (g : Group) (p : Split) (f : SysDA) (x : Part) (r : Nat × Nat), Ready s gid g p ∧
      s.part g.part = some x ∧
      g.HasS [f.sd.toNat, f.sd.toNat + 1, f.sd.toNat + 2, f.sd.toNat + 3, f.sa.toNat, f.sa.toNat + 1] ∧
      r = xlatAnswer s x g.priv (g.spair f.sa.toNat).toNat ∧
      s.xlatWaits x g.priv (g.spair f.sa.toNat).toNat = none) ∧
    (∃ (s : State) (gid : Nat) (g : Group) (p : Split) (i : Instr) (sa : Nat) (x : Part) (want : Option Nat), Ready s gid g p ∧
      s.part g.part = some x ∧
      ((∃ f : SysAB, i = .placeTo f ∧ sa = f.sa.toNat ∧ g.HasS [sa, sa + 1, f.sb.toNat] ∧ (g.sreg f.sb.toNat).toNat < 4 ∧
        want = some (g.sreg f.sb.toNat).toNat) ∨
      (∃ f : SysA, i = .placeHere f ∧ sa = f.sa.toNat ∧ g.HasS [sa, sa + 1] ∧ want = some (gid / 24576)) ∨
      ∃ f : SysA, i = .placeReset f ∧ sa = f.sa.toNat ∧ g.HasS [sa, sa + 1] ∧ want = none) ∧
      (∀ fr entry, ¬PlacedOn s x g.priv (g.spair sa).toNat fr entry)) ∧
    (∃ (s : State) (gid : Nat) (g : Group) (p : Split) (i : Instr) (sa : Nat) (x : Part) (want : Option Nat), Ready s gid g p ∧
      s.part g.part = some x ∧
      ((∃ f : SysAB, i = .placeTo f ∧ sa = f.sa.toNat ∧ g.HasS [sa, sa + 1, f.sb.toNat] ∧ (g.sreg f.sb.toNat).toNat < 4 ∧
        want = some (g.sreg f.sb.toNat).toNat) ∨
      (∃ f : SysA, i = .placeHere f ∧ sa = f.sa.toNat ∧ g.HasS [sa, sa + 1] ∧ want = some (gid / 24576)) ∨
      ∃ f : SysA, i = .placeReset f ∧ sa = f.sa.toNat ∧ g.HasS [sa, sa + 1] ∧ want = none) ∧
      ∃ fr, ∃ entry, PlacedOn s x g.priv (g.spair sa).toNat fr entry) ∧
    (∃ (s : State) (gid : Nat) (g : Group) (p : Split) (f : SysAB) (x : Part), Ready s gid g p ∧
      s.part g.part = some x ∧
      g.HasS [f.sa.toNat, f.sa.toNat + 1, f.sb.toNat] ∧
      4 ≤ (g.sreg f.sb.toNat).toNat ∧
      g.handler = none) ∧
    (∃ (s : State) (gid : Nat) (g : Group) (p : Split) (f : SysDAB) (x : Part) (b : Nat), Ready s gid g p ∧
      g.priv = true ∧
      s.part g.part = some x ∧
      g.HasS [f.sd.toNat, f.sa.toNat, f.sa.toNat + 1, f.sb.toNat] ∧
      b = (g.sreg f.sb.toNat).toNat ∧
      2 ≤ b ∧
      g.handler = none) ∧
    (∃ (s : State) (gid : Nat) (g : Group) (p : Split) (f : SysDAB) (x : Part) (b : Nat), Ready s gid g p ∧
      g.priv = true ∧
      s.part g.part = some x ∧
      g.HasS [f.sd.toNat, f.sa.toNat, f.sa.toNat + 1, f.sb.toNat] ∧
      b = (g.sreg f.sb.toNat).toNat ∧
      ∃ l, b < 2 ∧
      s.xlatWaits x g.priv (g.spair f.sa.toNat).toNat = some l) :=
  ⟨⟨at_ (houseS [(8, 5)]),
    0,
    (houseS [(8, 5)]),
    split,
    { sd := 4, sa := 8, st := 0 },
    part,
    _,
    0,
    false,
    mkReady part rfl rfl rfl rfl ⟨rfl, rfl, rfl, rfl⟩ rfl (by decide) rfl (by decide),
    by decide,
    rfl,
    by unfold Group.HasS; decide,
    by decide,
    rfl,
    by decide⟩,
  ⟨{ mapped paged 0x4B house with dir := [(0x2000, { holders := [], l1 := [], arriving := [], invals := [.host] })] },
    0,
    house,
    split,
    { sd := 4, sa := 8, st := 0 },
    paged,
    _,
    mkReady paged rfl rfl rfl rfl ⟨rfl, rfl, rfl, rfl⟩ rfl (by decide) rfl (by decide),
    rfl,
    by unfold Group.HasS; decide,
    rfl,
    _,
    rfl⟩,
  ⟨at_ house,
    0,
    house,
    split,
    { sd := 4, sa := 8, st := 0 },
    part,
    _,
    mkReady part rfl rfl rfl rfl ⟨rfl, rfl, rfl, rfl⟩ rfl (by decide) rfl (by decide),
    rfl,
    by unfold Group.HasS; decide,
    rfl,
    by decide⟩,
  ⟨at_ house,
    0,
    house,
    split,
    .placeReset { sa := 8, st := 0 },
    8,
    part,
    none,
    mkReady part rfl rfl rfl rfl ⟨rfl, rfl, rfl, rfl⟩ rfl (by decide) rfl (by decide),
    rfl,
    .inr (.inr ⟨{ sa := 8, st := 0 }, rfl, rfl, by unfold Group.HasS; decide, rfl⟩),
    (fun _ _ h => absurd h.2.2.1 (by decide))⟩,
  ⟨mapped paged 0x4B house,
    0,
    house,
    split,
    .placeReset { sa := 8, st := 0 },
    8,
    paged,
    none,
    mkReady paged rfl rfl rfl rfl ⟨rfl, rfl, rfl, rfl⟩ rfl (by decide) rfl (by decide),
    rfl,
    .inr (.inr ⟨{ sa := 8, st := 0 }, rfl, rfl, by unfold Group.HasS; decide, rfl⟩),
    _,
    _,
    ⟨by decide, fun _ => by decide, rfl, rfl, rfl, rfl, rfl⟩⟩,
  ⟨at_ (houseS [(12, 4)]),
    0,
    (houseS [(12, 4)]),
    split,
    { sa := 8, sb := 12, st := 0 },
    part,
    mkReady part rfl rfl rfl rfl ⟨rfl, rfl, rfl, rfl⟩ rfl (by decide) rfl (by decide),
    rfl,
    by unfold Group.HasS; decide,
    by decide,
    by decide⟩,
  ⟨at_ (houseS [(12, 2)]),
    0,
    (houseS [(12, 2)]),
    split,
    { sd := 4, sa := 8, sb := 12, st := 0 },
    part,
    _,
    mkReady part rfl rfl rfl rfl ⟨rfl, rfl, rfl, rfl⟩ rfl (by decide) rfl (by decide),
    by decide,
    rfl,
    by unfold Group.HasS; decide,
    rfl,
    by decide,
    by decide⟩,
  ⟨{ mapped paged 0x4B (houseS [(12, 1)]) with dir := [(0x2000, { holders := [], l1 := [], arriving := [], invals := [.host] })] },
    0,
    (houseS [(12, 1)]),
    split,
    { sd := 4, sa := 8, sb := 12, st := 0 },
    paged,
    _,
    mkReady paged rfl rfl rfl rfl ⟨rfl, rfl, rfl, rfl⟩ rfl (by decide) rfl (by decide),
    by decide,
    rfl,
    by unfold Group.HasS; decide,
    rfl,
    _,
    by decide,
    rfl⟩⟩

/-- PagesAndPools. -/
theorem wit_pagesAndPools_3 :
    (∃ (s : State) (gid : Nat) (g : Group) (p : Split) (f : SysDAB) (x : Part) (b : Nat), Ready s gid g p ∧
      g.priv = true ∧
      s.part g.part = some x ∧
      g.HasS [f.sd.toNat, f.sa.toNat, f.sa.toNat + 1, f.sb.toNat] ∧
      b = (g.sreg f.sb.toNat).toNat ∧
      b < 2 ∧
      s.xlatWaits x g.priv (g.spair f.sa.toNat).toNat = none ∧
      (∀ fr entry, PlacedOn s x g.priv (g.spair f.sa.toNat).toNat fr entry → pteKind (s.memNat entry 8) ≠ 0)) ∧
    (∃ (s : State) (gid : Nat) (g : Group) (p : Split) (f : SysDAB) (x : Part) (b : Nat), Ready s gid g p ∧
      g.priv = true ∧
      s.part g.part = some x ∧
      g.HasS [f.sd.toNat, f.sa.toNat, f.sa.toNat + 1, f.sb.toNat] ∧
      b = (g.sreg f.sb.toNat).toNat ∧
      ∃ fr, ∃ entry, ∃ old, ∃ r, PlacedOn s x g.priv (g.spair f.sa.toNat).toNat fr entry ∧
      old = s.memNat entry 8 ∧
      pteKind old = 0 ∧
      r = s.pageRec g.part fr entry ∧
      (b = 1 ∧ pteD old = true ∧ r.replicas ≠ [] ∨ b = 0 ∧ pteD old = false ∧ r.replicas = [])) ∧
    (∃ (s : State) (gid : Nat) (g : Group) (p : Split) (f : SysDAB) (x : Part) (b : Nat), Ready s gid g p ∧
      g.priv = true ∧
      s.part g.part = some x ∧
      g.HasS [f.sd.toNat, f.sa.toNat, f.sa.toNat + 1, f.sb.toNat] ∧
      b = (g.sreg f.sb.toNat).toNat ∧
      ∃ fr, ∃ entry, ∃ old, ∃ r, PlacedOn s x g.priv (g.spair f.sa.toNat).toNat fr entry ∧
      old = s.memNat entry 8 ∧
      pteKind old = 0 ∧
      r = s.pageRec g.part fr entry ∧
      b = 0 ∧
      (pteD old = true ∨ r.replicas ≠ []) ∧
      r.collapsing = true) ∧
    (∃ (s : State) (gid : Nat) (g : Group) (p : Split) (f : SysDAB) (x : Part) (b : Nat), Ready s gid g p ∧
      g.priv = true ∧
      s.part g.part = some x ∧
      g.HasS [f.sd.toNat, f.sa.toNat, f.sa.toNat + 1, f.sb.toNat] ∧
      b = (g.sreg f.sb.toNat).toNat ∧
      ∃ fr, ∃ entry, ∃ old, ∃ r, PlacedOn s x g.priv (g.spair f.sa.toNat).toNat fr entry ∧
      old = s.memNat entry 8 ∧
      pteKind old = 0 ∧
      r = s.pageRec g.part fr entry ∧
      ∃ e, ∃ v, b = 0 ∧
      (pteD old = true ∨ r.replicas ≠ []) ∧
      r.collapsing = false ∧
      r.entry = some e ∧
      v = s.memNat e 8) ∧
    (∃ (s : State) (gid : Nat) (g : Group) (p : Split) (f : SysDAB) (x : Part) (b : Nat), Ready s gid g p ∧
      g.priv = true ∧
      s.part g.part = some x ∧
      g.HasS [f.sd.toNat, f.sa.toNat, f.sa.toNat + 1, f.sb.toNat] ∧
      b = (g.sreg f.sb.toNat).toNat ∧
      ∃ fr, ∃ entry, ∃ old, ∃ r, PlacedOn s x g.priv (g.spair f.sa.toNat).toNat fr entry ∧
      old = s.memNat entry 8 ∧
      pteKind old = 0 ∧
      r = s.pageRec g.part fr entry ∧
      ∃ (ds : List Nat), (ds = ([0, 1, 2, 3].filter fun d =>
          decide (bits x.region.toNat (16 * d) 16 ≠ 0) && decide (d ≠ homeDie (2 ^ 16 * fr)))) ∧
      b = 1 ∧
      (pteD old = false ∨ r.replicas = []) ∧
      r.collapsing = false ∧
      PlainBut s (some fr) [entry / 128] ∧
      ¬Idle s (entry / 128)) ∧
    (∃ (s : State) (gid : Nat) (g : Group) (p : Split) (f : SysDAB) (x : Part) (b : Nat), Ready s gid g p ∧
      g.priv = true ∧
      s.part g.part = some x ∧
      g.HasS [f.sd.toNat, f.sa.toNat, f.sa.toNat + 1, f.sb.toNat] ∧
      b = (g.sreg f.sb.toNat).toNat ∧
      ∃ fr, ∃ entry, ∃ old, ∃ r, PlacedOn s x g.priv (g.spair f.sa.toNat).toNat fr entry ∧
      old = s.memNat entry 8 ∧
      pteKind old = 0 ∧
      r = s.pageRec g.part fr entry ∧
      ∃ (ds : List Nat), (ds = ([0, 1, 2, 3].filter fun d =>
          decide (bits x.region.toNat (16 * d) 16 ≠ 0) && decide (d ≠ homeDie (2 ^ 16 * fr)))) ∧
      b = 1 ∧
      (pteD old = false ∨ r.replicas = []) ∧
      r.collapsing = false ∧
      PlainBut s (some fr) [entry / 128] ∧
      Idle s (entry / 128) ∧
      (∃ d ∈ ds, x.pool (poolKey d false) = [])) ∧
    (∃ (s : State) (gid : Nat) (g : Group) (p : Split) (f : SysDAB) (x : Part) (b : Nat), Ready s gid g p ∧
      g.priv = true ∧
      s.part g.part = some x ∧
      g.HasS [f.sd.toNat, f.sa.toNat, f.sa.toNat + 1, f.sb.toNat] ∧
      b = (g.sreg f.sb.toNat).toNat ∧
      ∃ fr, ∃ entry, ∃ old, ∃ r, PlacedOn s x g.priv (g.spair f.sa.toNat).toNat fr entry ∧
      old = s.memNat entry 8 ∧
      pteKind old = 0 ∧
      r = s.pageRec g.part fr entry ∧
      ∃ (ds : List Nat), (ds = ([0, 1, 2, 3].filter fun d =>
          decide (bits x.region.toNat (16 * d) 16 ≠ 0) && decide (d ≠ homeDie (2 ^ 16 * fr)))) ∧
      b = 1 ∧
      (pteD old = false ∨ r.replicas = []) ∧
      r.collapsing = false ∧
      PlainBut s (some fr) [entry / 128] ∧
      ∃ (fs : List (Nat × Nat)), (fs = ds.map (fun d => (d, (x.pool (poolKey d false)).headD 0))) ∧
      Idle s (entry / 128) ∧
      (∀ d ∈ ds, x.pool (poolKey d false) ≠ []) ∧
      (∀ e ∈ fs, Apart e.2 (2 ^ 16) (2 ^ 16 * fr) (2 ^ 16) ∧ Apart e.2 (2 ^ 16) entry 8 ∧ e.2 % 128 = 0) ∧
      Apart (2 ^ 16 * fr) (2 ^ 16) entry 8 ∧
      (fs.Pairwise (fun e e' => Apart e.2 (2 ^ 16) e'.2 (2 ^ 16))) ∧
      (∀ e ∈ fs, ∀ l, (tabGet s.dir l).isSome = true → e.2 ≤ 128 * l → 128 * l < e.2 + 2 ^ 16 → Idle s l)) ∧
    (∃ (s : State) (gid : Nat) (g : Group) (p : Split) (h : Held) (f : SysDAB) (x : Part) (b : Word), Resumes s gid g p h ∧
      h.marker = true ∧
      s.part g.part = some x ∧
      b = (h.view g).sreg f.sb.toNat ∧
      b = 0) :=
  ⟨⟨at_ house,
    0,
    house,
    split,
    { sd := 4, sa := 8, sb := 12, st := 0 },
    part,
    _,
    mkReady part rfl rfl rfl rfl ⟨rfl, rfl, rfl, rfl⟩ rfl (by decide) rfl (by decide),
    by decide,
    rfl,
    by unfold Group.HasS; decide,
    rfl,
    by decide,
    by decide,
    (fun _ _ h => absurd h.2.2.1 (by decide))⟩,
  ⟨mapped paged 0x4B house,
    0,
    house,
    split,
    { sd := 4, sa := 8, sb := 12, st := 0 },
    paged,
    _,
    mkReady paged rfl rfl rfl rfl ⟨rfl, rfl, rfl, rfl⟩ rfl (by decide) rfl (by decide),
    by decide,
    rfl,
    by unfold Group.HasS; decide,
    rfl,
    _,
    _,
    _,
    _,
    ⟨by decide, fun _ => by decide, rfl, rfl, rfl, rfl, rfl⟩,
    rfl,
    by decide,
    rfl,
    .inr ⟨rfl, rfl, rfl⟩⟩,
  ⟨paged_ paged 0x5B house (page none true),
    0,
    house,
    split,
    { sd := 4, sa := 8, sb := 12, st := 0 },
    paged,
    _,
    mkReady paged rfl rfl rfl rfl ⟨rfl, rfl, rfl, rfl⟩ rfl (by decide) rfl (by decide),
    by decide,
    rfl,
    by unfold Group.HasS; decide,
    rfl,
    _,
    _,
    _,
    _,
    ⟨by decide, fun _ => by decide, rfl, rfl, rfl, rfl, rfl⟩,
    rfl,
    by decide,
    rfl,
    rfl,
    .inl rfl,
    rfl⟩,
  ⟨paged_ paged 0x5B house (page none false),
    0,
    house,
    split,
    { sd := 4, sa := 8, sb := 12, st := 0 },
    paged,
    _,
    mkReady paged rfl rfl rfl rfl ⟨rfl, rfl, rfl, rfl⟩ rfl (by decide) rfl (by decide),
    by decide,
    rfl,
    by unfold Group.HasS; decide,
    rfl,
    _,
    _,
    _,
    _,
    ⟨by decide, fun _ => by decide, rfl, rfl, rfl, rfl, rfl⟩,
    rfl,
    by decide,
    rfl,
    _,
    _,
    rfl,
    .inl rfl,
    rfl,
    rfl,
    rfl⟩,
  ⟨{ mapped paged 0x4B (houseS [(12, 1)]) with dir := [entryLine [.coreTlb 0] []] },
    0,
    (houseS [(12, 1)]),
    split,
    { sd := 4, sa := 8, sb := 12, st := 0 },
    paged,
    _,
    mkReady paged rfl rfl rfl rfl ⟨rfl, rfl, rfl, rfl⟩ rfl (by decide) rfl (by decide),
    by decide,
    rfl,
    by unfold Group.HasS; decide,
    rfl,
    _,
    _,
    _,
    _,
    ⟨by decide, fun _ => by decide, rfl, rfl, rfl, rfl, rfl⟩,
    rfl,
    by decide,
    rfl,
    _,
    rfl,
    rfl,
    .inl rfl,
    rfl,
    ⟨by decide, nofun⟩,
    (fun h => absurd h.1.1 (by decide))⟩,
  ⟨mapped paged 0x4B (houseS [(12, 1)]),
    0,
    (houseS [(12, 1)]),
    split,
    { sd := 4, sa := 8, sb := 12, st := 0 },
    paged,
    _,
    mkReady paged rfl rfl rfl rfl ⟨rfl, rfl, rfl, rfl⟩ rfl (by decide) rfl (by decide),
    by decide,
    rfl,
    by unfold Group.HasS; decide,
    rfl,
    _,
    _,
    _,
    _,
    ⟨by decide, fun _ => by decide, rfl, rfl, rfl, rfl, rfl⟩,
    rfl,
    by decide,
    rfl,
    _,
    rfl,
    rfl,
    .inl rfl,
    rfl,
    ⟨by decide, nofun⟩,
    ⟨⟨rfl, rfl, fun r h => by cases h⟩, rfl⟩,
    ⟨1, by decide, rfl⟩⟩,
  ⟨mapped pooled 0x4B (houseS [(12, 1)]),
    0,
    (houseS [(12, 1)]),
    split,
    { sd := 4, sa := 8, sb := 12, st := 0 },
    pooled,
    _,
    mkReady pooled rfl rfl rfl rfl ⟨rfl, rfl, rfl, rfl⟩ rfl (by decide) rfl (by decide),
    by decide,
    rfl,
    by unfold Group.HasS; decide,
    rfl,
    _,
    _,
    _,
    _,
    ⟨by decide, fun _ => by decide, rfl, rfl, rfl, rfl, rfl⟩,
    rfl,
    by decide,
    rfl,
    _,
    rfl,
    rfl,
    .inl rfl,
    rfl,
    ⟨by decide, nofun⟩,
    _,
    rfl,
    ⟨⟨rfl, rfl, fun r h => by cases h⟩, rfl⟩,
    by decide,
    by unfold Apart; decide,
    by unfold Apart; decide,
    by unfold Apart; decide,
    (fun _ _ _ h => by cases h)⟩,
  ⟨at_ ({ houseS [] with splits := [resumed [0x14]] }),
    0,
    { houseS [] with splits := [resumed [0x14]] },
    resumed [0x14],
    _,
    { sd := 4, sa := 8, sb := 12, st := 0 },
    part,
    _,
    ⟨rfl, rfl, rfl, rfl, ⟨rfl, rfl, rfl, rfl⟩, rfl, by decide⟩,
    rfl,
    rfl,
    rfl,
    rfl⟩⟩

/-- PagesAndPools. -/
theorem wit_pagesAndPools_4 :
    (∃ (s : State) (gid : Nat) (g : Group) (p : Split) (h : Held) (f : SysDAB) (x : Part) (b : Word), Resumes s gid g p h ∧
      h.marker = true ∧
      s.part g.part = some x ∧
      b = (h.view g).sreg f.sb.toNat ∧
      ∃ fr, ∃ r, ∃ e, b = 1 ∧
      h.grids = [fr] ∧
      tabGet s.pages fr = some r ∧
      r.entry = some e ∧
      r.moving = some .dupSet) ∧
    (∃ (s : State) (gid : Nat) (g : Group) (p : Split) (h : Held) (f : SysDAB) (x : Part) (b : Word), Resumes s gid g p h ∧
      h.marker = true ∧
      s.part g.part = some x ∧
      b = (h.view g).sreg f.sb.toNat ∧
      ∃ fr, ∃ r, ∃ e, b = 1 ∧
      h.grids = [fr] ∧
      tabGet s.pages fr = some r ∧
      r.entry = some e ∧
      ∃ busy, r.moving = some (.dupCopied busy) ∧
      s.memNat e 8 ≠ busy ∧
      r.part = g.part) ∧
    (∃ (s : State) (gid : Nat) (g : Group) (p : Split) (h : Held) (f : SysDAB) (x : Part) (b : Word), Resumes s gid g p h ∧
      h.marker = true ∧
      s.part g.part = some x ∧
      b = (h.view g).sreg f.sb.toNat ∧
      ∃ fr, ∃ r, ∃ e, b = 1 ∧
      h.grids = [fr] ∧
      tabGet s.pages fr = some r ∧
      r.entry = some e ∧
      ∃ busy, r.moving = some (.dupCopied busy) ∧
      s.memNat e 8 = busy ∧
      e % 8 = 0 ∧
      Idle s (e / 128) ∧
      r.collapsing = false ∧
      PlainBut s (some fr) [e / 128]) :=
  ⟨⟨paged_ paged 0x4B ({ houseS [(12, 1)] with splits := [resumed [0x14]] }) (moved (some .dupSet) false),
    0,
    { houseS [(12, 1)] with splits := [resumed [0x14]] },
    resumed [0x14],
    _,
    { sd := 4, sa := 8, sb := 12, st := 0 },
    paged,
    _,
    ⟨rfl, rfl, rfl, rfl, ⟨rfl, rfl, rfl, rfl⟩, rfl, by decide⟩,
    rfl,
    rfl,
    rfl,
    0x14,
    moved (some .dupSet) false,
    _,
    rfl,
    rfl,
    rfl,
    rfl,
    rfl⟩,
  ⟨paged_ paged 0x4B ({ houseS [(12, 1)] with splits := [resumed [0x14]] }) (moved (some (.dupCopied 0x1400CB)) false),
    0,
    { houseS [(12, 1)] with splits := [resumed [0x14]] },
    resumed [0x14],
    _,
    { sd := 4, sa := 8, sb := 12, st := 0 },
    paged,
    _,
    ⟨rfl, rfl, rfl, rfl, ⟨rfl, rfl, rfl, rfl⟩, rfl, by decide⟩,
    rfl,
    rfl,
    rfl,
    0x14,
    moved (some (.dupCopied 0x1400CB)) false,
    _,
    rfl,
    rfl,
    rfl,
    rfl,
    _,
    rfl,
    by decide,
    rfl⟩,
  ⟨paged_ paged 0xCB ({ houseS [(12, 1)] with splits := [resumed [0x14]] }) (moved (some (.dupCopied 0x1400CB)) false),
    0,
    { houseS [(12, 1)] with splits := [resumed [0x14]] },
    resumed [0x14],
    _,
    { sd := 4, sa := 8, sb := 12, st := 0 },
    paged,
    _,
    ⟨rfl, rfl, rfl, rfl, ⟨rfl, rfl, rfl, rfl⟩, rfl, by decide⟩,
    rfl,
    rfl,
    rfl,
    0x14,
    moved (some (.dupCopied 0x1400CB)) false,
    _,
    rfl,
    rfl,
    rfl,
    rfl,
    _,
    rfl,
    by decide,
    by decide,
    ⟨⟨rfl, rfl, fun r h => by cases h⟩, rfl⟩,
    by decide,
    ⟨by decide, fun q hq h => absurd (by cases List.mem_singleton.mp hq; rfl) h⟩⟩⟩

/-- HomesAndPages. -/
theorem wit_homesAndPages_1 :
    (∃ (s : State) (c : Nat) (line : Nat), (∀ y, tabGet (s.dirEntry line).l1 c = some y → y.dirty = 0)) ∧
    (∃ (s : State) (c : Nat) (line : Nat), ∃ y, tabGet (s.dirEntry line).l1 c = some y ∧
      y.dirty ≠ 0) ∧
    (∃ (s : State) (h : Holder) (line : Nat), (∀ c, h = .l1 c → ∀ a ∈ (s.dirEntry line).arriving, a.1 ≠ c)) ∧
    (∃ (s : State) (c : Nat) (line : Nat) (y : L1Copy) (pre : List (Nat × L1Copy)) (post : List (Nat × L1Copy)), (s.dirEntry line).arriving = pre ++ (c, y) :: post ∧
      (∀ a ∈ pre, a.1 ≠ c) ∧
      PlainBut s none [line]) ∧
    (∃ (s : State) (h : Holder) (line : Nat), ((∀ c, h ≠ .coreTlb c) ∧ (∀ d, h ≠ .dieXlat d) ∨ s.awaited line = false) ∧
      h ∈ (s.dirEntry line).invals) ∧
    (∃ (s : State) (h : Holder) (line : Nat), ((∀ c, h ≠ .coreTlb c) ∧ (∀ d, h ≠ .dieXlat d) ∨ s.awaited line = false) ∧
      h ∈ (s.dirEntry line).holders) ∧
    (∃ (s : State) (h : Holder) (line : Nat), ((∃ c, h = .coreTlb c) ∨ ∃ d, h = .dieXlat d) ∧
      s.awaited line = true) ∧
    (∃ (s : State) (h : Holder) (line : Nat), ((∃ c, h = .coreTlb c) ∨ ∃ d, h = .dieXlat d) ∧
      s.awaited line = true ∧
      h ∈ (s.dirEntry line).invals) :=
  ⟨⟨at_ group,
    3,
    7,
    by decide⟩,
  ⟨lined [.l1 3] [] [] [(3, copyOf 1)],
    3,
    7,
    copyOf 1,
    rfl,
    by decide⟩,
  ⟨at_ group,
    .l1 3,
    7,
    (fun c _ a h => nomatch h)⟩,
  ⟨lined [.l1 4] [(3, copyOf 1)] [] [],
    3,
    7,
    copyOf 1,
    [],
    [],
    rfl,
    (fun _ h => absurd h List.not_mem_nil),
    ⟨by decide, nofun⟩⟩,
  ⟨lined [] [] [.l1 3] [],
    .l1 3,
    7,
    .inl ⟨nofun, nofun⟩,
    by decide⟩,
  ⟨lined [.l1 3] [] [] [],
    .l1 3,
    7,
    .inl ⟨nofun, nofun⟩,
    by decide⟩,
  ⟨{ at_ group with copies := [(5, { copyRec .cpy 0 with walked := [7] })] },
    .coreTlb 0,
    7,
    .inl ⟨0, rfl⟩,
    by decide⟩,
  ⟨{ lined [] [] [.coreTlb 0] [] with copies := [(5, { copyRec .cpy 0 with walked := [7] })] },
    .coreTlb 0,
    7,
    .inl ⟨0, rfl⟩,
    by decide,
    by decide⟩⟩

/-- HomesAndPages. -/
theorem wit_homesAndPages_2 :
    (∃ (s : State) (h : Holder) (line : Nat), ((∃ c, h = .coreTlb c) ∨ ∃ d, h = .dieXlat d) ∧
      ((s.dirEntry line).invals ≠ [] ∨ (s.dirEntry line).arriving ≠ [])) ∧
    (∃ (s : State) (h : Holder) (line : Nat), (∀ c, h ≠ .l1 c) ∧
      ((∀ c, h ≠ .coreTlb c) ∧ (∀ d, h ≠ .dieXlat d) ∨
      (s.dirEntry line).invals = [] ∧ (s.dirEntry line).arriving = [])) ∧
    (∃ (s : State) (c : Nat) (line : Nat) (r : PageRec) (a : Nat) (x : Part), tabGet s.pages (line / 512) = some r ∧
      r.entry = some a ∧
      s.part r.part = some x ∧
      .l1 c ∉ (s.dirEntry line).holders) ∧
    (∃ (s : State) (pa : Nat) (bs : List Byte), bs ≠ [] ∧
      (holdsMemory s pa = false ∨ safeTier pa = true)) ∧
    (∃ (s : State) (pa : Nat) (bs : List Byte), bs ≠ [] ∧
      holdsMemory s pa = true ∧
      holdsMemory s (pa + bs.length - 1) = true ∧
      safeTier pa = false ∧
      PlainBut s none (linesOf pa bs.length)) ∧
    (∃ (s : State) (n : Nat) (q : HostWait), tabGet s.hostWaits n = some q ∧
      q.owner = false ∧
      (∃ l ∈ q.lines, s.lineDone l = false ∨ s.walkInUse 0 l = true)) ∧
    (∃ (s : State) (n : Nat) (q : HostWait), tabGet s.hostWaits n = some q ∧
      q.owner = false ∧
      s.writePerformed 0 q.lines = true) ∧
    (∃ (s : State) (line : Nat), (∀ e ∈ s.hostWaits, e.2 ≠ { owner := true, lines := [line] })) :=
  ⟨⟨lined [] [] [.l1 3] [],
    .coreTlb 0,
    7,
    .inl ⟨0, rfl⟩,
    .inl (by decide)⟩,
  ⟨at_ group,
    .host,
    7,
    nofun,
    .inl ⟨nofun, nofun⟩⟩,
  ⟨recorded paged (page none false),
    3,
    0x2800,
    page none false,
    _,
    paged,
    rfl,
    rfl,
    rfl,
    by decide⟩,
  ⟨at_ group,
    0x900000000000,
    [1],
    by decide,
    .inl (by decide)⟩,
  ⟨at_ group,
    0,
    [1],
    by decide,
    by decide,
    by decide,
    by decide,
    ⟨by decide, nofun⟩⟩,
  ⟨{ lined [] [] [.l1 3] [] with hostWaits := [(4, { owner := false, lines := [7] })] },
    4,
    { owner := false, lines := [7] },
    rfl,
    by decide,
    ⟨7, by decide, .inl (by decide)⟩⟩,
  ⟨{ lined [] [] [] [] with hostWaits := [(4, { owner := false, lines := [7] })] },
    4,
    { owner := false, lines := [7] },
    rfl,
    by decide,
    by decide⟩,
  ⟨at_ group,
    7,
    by decide⟩⟩

/-- HomesAndPages. -/
theorem wit_homesAndPages_3 :
    (∃ (s : State) (line : Nat) (n : Nat), (s.hostWaits.find? (fun e => e.2 = { owner := true, lines := [line] }) = some (n, { owner := true, lines := [line] })) ∧
      (s.lineDone line = false ∨ s.walkInUse 0 line = true)) ∧
    (∃ (s : State) (line : Nat) (n : Nat), (s.hostWaits.find? (fun e => e.2 = { owner := true, lines := [line] }) = some (n, { owner := true, lines := [line] })) ∧
      s.writePerformed 0 [line] = true) ∧
    (∃ (s : State) (fr : Nat) (d : Nat) (a : Nat) (old : Nat) (r : PageRec) (x : Part), tabGet s.pages fr = some r ∧
      s.part r.part = some x ∧
      r.entry = some a ∧
      old = s.memNat a 8 ∧
      r.moving = none ∧
      (r.want = some d ∨ x.migEn = true ∧ homeDie (2 ^ 16 * fr) ≠ d ∧ x.migThresh.toNat ≤ r.counts.getD d 0 ∧
        4 * r.counts.getD (homeDie (2 ^ 16 * fr)) 0 ≤ r.counts.getD d 0) ∧
      (r.alias_ = true ∨ pteV old = false ∨ pteM old = true ∨ pteD old = true ∨ pteKind old ≠ 0 ∨ r.level ≠ 3 ∨
          pteFrame old ≠ 2 ^ 16 * fr ∨ homeDie (2 ^ 16 * fr) = d ∨ r.collapsing = true)) ∧
    (∃ (s : State) (fr : Nat) (d : Nat) (a : Nat) (old : Nat) (r : PageRec) (x : Part), tabGet s.pages fr = some r ∧
      s.part r.part = some x ∧
      r.entry = some a ∧
      old = s.memNat a 8 ∧
      r.moving = none ∧
      (r.want = some d ∨ x.migEn = true ∧ homeDie (2 ^ 16 * fr) ≠ d ∧ x.migThresh.toNat ≤ r.counts.getD d 0 ∧
        4 * r.counts.getD (homeDie (2 ^ 16 * fr)) 0 ≤ r.counts.getD d 0) ∧
      r.alias_ = false ∧
      pteV old = true ∧
      pteM old = false ∧
      pteD old = false ∧
      pteKind old = 0 ∧
      r.level = 3 ∧
      pteFrame old = 2 ^ 16 * fr ∧
      homeDie (2 ^ 16 * fr) ≠ d ∧
      r.collapsing = false ∧
      a % 8 = 0 ∧
      PlainBut s (some fr) [a / 128]) ∧
    (∃ (s : State) (fr : Nat) (d : Nat) (a : Nat) (old : Nat) (r : PageRec) (x : Part), tabGet s.pages fr = some r ∧
      s.part r.part = some x ∧
      r.entry = some a ∧
      old = s.memNat a 8 ∧
      r.moving = none ∧
      r.want ≠ some d ∧
      (x.migEn = false ∨ homeDie (2 ^ 16 * fr) = d ∨ r.counts.getD d 0 < x.migThresh.toNat ∨
      r.counts.getD d 0 < 4 * r.counts.getD (homeDie (2 ^ 16 * fr)) 0)) ∧
    (∃ (s : State) (fr : Nat) (d : Nat) (a : Nat) (old : Nat) (r : PageRec) (x : Part), tabGet s.pages fr = some r ∧
      s.part r.part = some x ∧
      r.entry = some a ∧
      old = s.memNat a 8 ∧
      ∃ busy, r.moving = some (.claimed busy d) ∧
      (s.lineDone (a / 128) = false ∨ s.awaited (a / 128) = true)) ∧
    (∃ (s : State) (fr : Nat) (d : Nat) (a : Nat) (old : Nat) (r : PageRec) (x : Part), tabGet s.pages fr = some r ∧
      s.part r.part = some x ∧
      r.entry = some a ∧
      old = s.memNat a 8 ∧
      ∃ busy, r.moving = some (.claimed busy d) ∧
      s.lineDone (a / 128) = true ∧
      s.awaited (a / 128) = false ∧
      old ≠ busy) ∧
    (∃ (s : State) (fr : Nat) (d : Nat) (a : Nat) (old : Nat) (r : PageRec) (x : Part), tabGet s.pages fr = some r ∧
      s.part r.part = some x ∧
      r.entry = some a ∧
      old = s.memNat a 8 ∧
      ∃ busy, r.moving = some (.claimed busy d) ∧
      s.lineDone (a / 128) = true ∧
      s.awaited (a / 128) = false ∧
      old = busy ∧
      pteM busy = true ∧
      x.pool (poolKey d false) = [] ∧
      r.replicas = [] ∧
      a % 8 = 0 ∧
      PlainBut s (some fr) [a / 128]) :=
  ⟨⟨{ lined [] [] [.l1 3] [] with hostWaits := [(4, { owner := true, lines := [7] })] },
    7,
    4,
    by decide,
    .inl (by decide)⟩,
  ⟨{ lined [] [] [] [] with hostWaits := [(4, { owner := true, lines := [7] })] },
    7,
    4,
    by decide,
    by decide⟩,
  ⟨{ paged_ paged 0xCB group (page (some 1) false) with dir := [] },
    0x14,
    1,
    _,
    _,
    page (some 1) false,
    paged,
    rfl,
    rfl,
    rfl,
    rfl,
    rfl,
    .inl rfl,
    by decide⟩,
  ⟨{ paged_ paged 0x4B group (page (some 1) false) with dir := [] },
    0x14,
    1,
    _,
    _,
    page (some 1) false,
    paged,
    rfl,
    rfl,
    rfl,
    rfl,
    rfl,
    .inl rfl,
    by decide,
    by decide,
    by decide,
    by decide,
    by decide,
    by decide,
    by decide,
    by decide,
    by decide,
    by decide,
    ⟨by decide, fun q hq h => absurd (by cases List.mem_singleton.mp hq; rfl) h⟩⟩,
  ⟨{ paged_ paged 0x4B group (page none false) with dir := [] },
    0x14,
    1,
    _,
    _,
    page none false,
    paged,
    rfl,
    rfl,
    rfl,
    rfl,
    rfl,
    by decide,
    .inl rfl⟩,
  ⟨{ paged_ paged 0xCB group (moved (some (.claimed 0x1400CB 1)) false) with dir := [entryLine [] [.host]] },
    0x14,
    1,
    _,
    _,
    moved (some (.claimed 0x1400CB 1)) false,
    paged,
    rfl,
    rfl,
    rfl,
    rfl,
    _,
    rfl,
    .inl (by decide)⟩,
  ⟨{ paged_ paged 0x4B group (moved (some (.claimed 0x1400CB 1)) false) with dir := [] },
    0x14,
    1,
    _,
    _,
    moved (some (.claimed 0x1400CB 1)) false,
    paged,
    rfl,
    rfl,
    rfl,
    rfl,
    _,
    rfl,
    by decide,
    by decide,
    by decide⟩,
  ⟨{ paged_ paged 0xCB group (moved (some (.claimed 0x1400CB 1)) false) with dir := [] },
    0x14,
    1,
    _,
    _,
    moved (some (.claimed 0x1400CB 1)) false,
    paged,
    rfl,
    rfl,
    rfl,
    rfl,
    _,
    rfl,
    by decide,
    by decide,
    rfl,
    by decide,
    rfl,
    by decide,
    by decide,
    ⟨by decide, fun q hq h => absurd (by cases List.mem_singleton.mp hq; rfl) h⟩⟩⟩

/-- HomesAndPages. -/
theorem wit_homesAndPages_4 :
    (∃ (s : State) (fr : Nat) (d : Nat) (a : Nat) (old : Nat) (r : PageRec) (x : Part), tabGet s.pages fr = some r ∧
      s.part r.part = some x ∧
      r.entry = some a ∧
      old = s.memNat a 8 ∧
      ∃ busy, r.moving = some (.claimed busy d) ∧
      s.lineDone (a / 128) = true ∧
      s.awaited (a / 128) = false ∧
      ∃ f1, ∃ rest, old = busy ∧
      x.pool (poolKey d false) = f1 :: rest ∧
      f1 % 2 ^ 16 = 0 ∧
      Apart f1 (2 ^ 16) (2 ^ 16 * fr) (2 ^ 16)) ∧
    (∃ (s : State) (fr : Nat) (d : Nat) (a : Nat) (old : Nat) (r : PageRec) (x : Part), tabGet s.pages fr = some r ∧
      s.part r.part = some x ∧
      r.entry = some a ∧
      old = s.memNat a 8 ∧
      ∃ busy, ∃ f1, r.moving = some (.copied busy f1 d) ∧
      (∃ l, (tabGet s.dir l).isSome = true ∧ f1 ≤ 128 * l ∧ 128 * l < f1 + 65536 ∧ s.lineDone l = false)) ∧
    (∃ (s : State) (fr : Nat) (d : Nat) (a : Nat) (old : Nat) (r : PageRec) (x : Part), tabGet s.pages fr = some r ∧
      s.part r.part = some x ∧
      r.entry = some a ∧
      old = s.memNat a 8 ∧
      ∃ busy, ∃ f1, r.moving = some (.copied busy f1 d) ∧
      (∀ l, (tabGet s.dir l).isSome = true → f1 ≤ 128 * l → 128 * l < f1 + 65536 → s.linesDone [l] = true) ∧
      old = busy ∧
      pteM busy = true ∧
      pteFrame busy = 2 ^ 16 * fr ∧
      f1 % 2 ^ 16 = 0 ∧
      f1 < 2 ^ 52 ∧
      a % 8 = 0 ∧
      PlainBut s (some fr) [a / 128]) ∧
    (∃ (s : State) (fr : Nat) (d : Nat) (a : Nat) (old : Nat) (r : PageRec) (x : Part), tabGet s.pages fr = some r ∧
      s.part r.part = some x ∧
      r.entry = some a ∧
      old = s.memNat a 8 ∧
      ∃ busy, ∃ f1, r.moving = some (.copied busy f1 d) ∧
      (∀ l, (tabGet s.dir l).isSome = true → f1 ≤ 128 * l → 128 * l < f1 + 65536 → s.linesDone [l] = true) ∧
      old ≠ busy ∧
      (x.pool (poolKey d false)).length < 65536) ∧
    (∃ (s : State) (fr : Nat) (d : Nat) (a : Nat) (old : Nat) (r : PageRec) (x : Part), tabGet s.pages fr = some r ∧
      s.part r.part = some x ∧
      r.entry = some a ∧
      old = s.memNat a 8 ∧
      r.moving = some (.rewritten d) ∧
      s.lineDone (a / 128) = true ∧
      s.awaited (a / 128) = false ∧
      (x.pool (poolKey (homeDie (2 ^ 16 * fr)) false)).length < 65536) ∧
    (∃ (s : State) (fr : Nat) (a : Nat) (r : PageRec) (x : Part), tabGet s.pages fr = some r ∧
      s.part r.part = some x ∧
      r.entry = some a ∧
      (r.collapsing = false ∨ s.lineDone (a / 128) = false ∨ s.awaited (a / 128) = true)) ∧
    (∃ (s : State) (fr : Nat) (a : Nat) (r : PageRec) (x : Part), tabGet s.pages fr = some r ∧
      s.part r.part = some x ∧
      r.entry = some a ∧
      r.collapsing = true ∧
      s.lineDone (a / 128) = true ∧
      s.awaited (a / 128) = false ∧
      keysRise s.pages = true ∧
      (∀ h ∈ r.held, h.key = none ∧ ∀ q ∈ s.pages, q.1 ≠ fr → q.2.replicas ≠ [] → ∀ e, q.2.entry = some e →
        e / 128 ∉ linesOf h.pa h.bytes.length) ∧
      (r.held.Pairwise (fun h h' => Apart h.pa h.bytes.length h'.pa h'.bytes.length))) ∧
    (∃ (s : State) (n : Nat) (x : Part), s.part n = some x ∧
      (∃ c ∈ s.tlbs ++ s.dieTlbs, ∃ e ∈ c.2, e.part = n ∧ ∃ l ∈ e.lines, s.walkInUse 0 l = true)) :=
  ⟨⟨{ paged_ pooled 0xCB group (moved (some (.claimed 0x1400CB 1)) false) with dir := [] },
    0x14,
    1,
    _,
    _,
    moved (some (.claimed 0x1400CB 1)) false,
    pooled,
    rfl,
    rfl,
    rfl,
    rfl,
    _,
    rfl,
    by decide,
    by decide,
    _,
    _,
    rfl,
    rfl,
    by decide,
    by unfold Apart; decide⟩,
  ⟨{ paged_ paged 0xCB group (moved (some (.copied 0x1400CB 0x200000 1)) false) with dir := [(0x4000, { holders := [], l1 := [], arriving := [], invals := [.host] })] },
    0x14,
    1,
    _,
    _,
    moved (some (.copied 0x1400CB 0x200000 1)) false,
    paged,
    rfl,
    rfl,
    rfl,
    rfl,
    _,
    _,
    rfl,
    ⟨0x4000, by decide, by decide, by decide, by decide⟩⟩,
  ⟨{ paged_ paged 0xCB group (moved (some (.copied 0x1400CB 0x200000 1)) false) with dir := [] },
    0x14,
    1,
    _,
    _,
    moved (some (.copied 0x1400CB 0x200000 1)) false,
    paged,
    rfl,
    rfl,
    rfl,
    rfl,
    _,
    _,
    rfl,
    (fun _ h => by cases h),
    rfl,
    by decide,
    by decide,
    by decide,
    by decide,
    by decide,
    ⟨by decide, fun q hq h => absurd (by cases List.mem_singleton.mp hq; rfl) h⟩⟩,
  ⟨{ paged_ paged 0x4B group (moved (some (.copied 0x1400CB 0x200000 1)) false) with dir := [] },
    0x14,
    1,
    _,
    _,
    moved (some (.copied 0x1400CB 0x200000 1)) false,
    paged,
    rfl,
    rfl,
    rfl,
    rfl,
    _,
    _,
    rfl,
    (fun _ h => by cases h),
    by decide,
    by decide⟩,
  ⟨{ paged_ paged 0xCB group (moved (some (.rewritten 1)) false) with dir := [] },
    0x14,
    1,
    _,
    _,
    moved (some (.rewritten 1)) false,
    paged,
    rfl,
    rfl,
    rfl,
    rfl,
    rfl,
    by decide,
    by decide,
    by decide⟩,
  ⟨{ paged_ paged 0x4B group (page none false) with dir := [] },
    0x14,
    _,
    page none false,
    paged,
    rfl,
    rfl,
    rfl,
    .inl rfl⟩,
  ⟨{ paged_ paged 0x4B group (page none true) with dir := [] },
    0x14,
    _,
    page none true,
    paged,
    rfl,
    rfl,
    rfl,
    by decide,
    by decide,
    by decide,
    by decide,
    (fun _ h => absurd h List.not_mem_nil),
    .nil⟩,
  ⟨{ lined [.coreTlb 0] [] [] [] with tlbs := [(0, [{ part := 0, va := 0, level := 3, entry := 0x130000, pte := 0x14004B, lines := [7] }])], copies := [(5, { copyRec .cpy 0 with walked := [7] })] },
    0,
    part,
    rfl,
    ⟨_, List.mem_singleton.mpr rfl, _, List.mem_singleton.mpr rfl, rfl, 7, by decide, by decide⟩⟩⟩

/-- HomesAndPages. -/
theorem wit_homesAndPages_5 : ∃ (s : State) (n : Nat) (x : Part), s.part n = some x ∧
      (∀ c ∈ s.tlbs ++ s.dieTlbs, ∀ e ∈ c.2, e.part = n → ∀ l ∈ e.lines, s.walkInUse 0 l = false) :=
  ⟨at_ group,
    0,
    part,
    rfl,
    by decide⟩

/-- Completions. -/
theorem wit_completions :
    (∃ (s : State) (gid : Nat) (id : Nat) (g : Group) (op : PendOp) (i : Instr), s.group gid = some g ∧
      tabGet g.pend id = some op ∧
      op.counter < 6 ∧
      (∀ d ∈ op.dests, d.lane < 64 ∧ (d.reg.cls = .vreg ∨ d.reg.cls = .sreg)) ∧
      (i = .loadComplete gid id ∧ op.kind = .load ∨ i = .sfuComplete gid id ∧ op.kind = .sfu ∧ op.trap = none ∨
      i = .storePerformed gid id ∧ op.kind = .store ∧ s.writePerformed id op.lines = true ∨
      i = .atomicComplete gid id ∧ op.kind = .atomic ∧ s.writePerformed id op.lines = true)) ∧
    (∃ (s : State) (gid : Nat) (id : Nat) (g : Group) (op : PendOp), s.group gid = some g ∧
      tabGet g.pend id = some op ∧
      (∀ l ∈ op.lines, (s.dirEntry l).invals = [] ∧ (s.dirEntry l).arriving = [] ∧ (∀ c ∈ (s.dirEntry l).l1, c.2.dirty = 0) ∧
      (∀ r, tabGet s.pages (l / 512) = some r → r.collapsing = false) ∧ s.walkInUse id l = false)) ∧
    (∃ (s : State) (gid : Nat) (id : Nat) (g : Group) (op : PendOp), s.group gid = some g ∧
      tabGet g.pend id = some op ∧
      (∃ l ∈ op.lines, (s.dirEntry l).invals ≠ [] ∨ (s.dirEntry l).arriving ≠ [] ∨ (∃ c ∈ (s.dirEntry l).l1, c.2.dirty ≠ 0) ∨
      (∃ r, tabGet s.pages (l / 512) = some r ∧ r.collapsing = true) ∨ s.walkInUse id l = true)) ∧
    (∃ (s : State) (gid : Nat) (id : Nat) (g : Group) (op : PendOp) (t : DWord × DWord), s.group gid = some g ∧
      tabGet g.pend id = some op ∧
      op.counter < 6 ∧
      op.kind = .sfu ∧
      op.trap = some t) ∧
    (∃ (s : State) (gid : Nat) (g : Group), s.group gid = some g ∧
      g.poisoned = []) ∧
    (∃ (s : State) (gid : Nat) (g : Group), s.group gid = some g ∧
      ∃ a, ∃ r, g.poisoned = a :: r ∧
      g.lastIssue ≤ a.2) ∧
    (∃ (s : State) (gid : Nat) (g : Group), s.group gid = some g ∧
      ∃ a, ∃ r, g.poisoned = a :: r ∧
      a.2 < g.lastIssue) :=
  ⟨⟨at_ { group with pend := [(7, owed .load)] },
    0,
    7,
    { group with pend := [(7, owed .load)] },
    owed .load,
    _,
    rfl,
    rfl,
    by decide,
    by decide,
    .inl ⟨rfl, rfl⟩⟩,
  ⟨at_ { group with pend := [(7, owed .load)] },
    0,
    7,
    { group with pend := [(7, owed .load)] },
    owed .load,
    rfl,
    rfl,
    (fun _ h => absurd h List.not_mem_nil)⟩,
  ⟨{ lined [] [(3, copyOf 1)] [] [] with groups := [(0, { group with pend := [(7, { owed .store with lines := [7] })] })] },
    0,
    7,
    { group with pend := [(7, { owed .store with lines := [7] })] },
    { owed .store with lines := [7] },
    rfl,
    rfl,
    ⟨7, by decide, .inr (.inl (by decide))⟩⟩,
  ⟨at_ { group with pend := [(7, { owed .sfu with counter := 2, trap := some (5, 8) })] },
    0,
    7,
    { group with pend := [(7, { owed .sfu with counter := 2, trap := some (5, 8) })] },
    { owed .sfu with counter := 2, trap := some (5, 8) },
    _,
    rfl,
    rfl,
    by decide,
    rfl,
    rfl⟩,
  ⟨at_ group,
    0,
    group,
    rfl,
    by decide⟩,
  ⟨at_ { group with poisoned := [7] },
    0,
    { group with poisoned := [7] },
    rfl,
    _,
    _,
    rfl,
    by decide⟩,
  ⟨at_ { group with poisoned := [(7, 0)], lastIssue := 5 },
    0,
    { group with poisoned := [(7, 0)], lastIssue := 5 },
    rfl,
    _,
    _,
    rfl,
    by decide⟩⟩

/-- IssueChoice. -/
theorem wit_issueChoice_1 :
    (∃ (s : State), s.cur = none ∧
      (∀ e ∈ s.copies, e.2.waitsLocks = false) ∧
      (∀ e ∈ s.fabric, e.2.waitsLocks = false) ∧
      (∀ e ∈ s.groups, ∀ m ∈ e.2.matq, m.waitsLocks = false) ∧
      (∀ id q, ¬Eligible s id q)) ∧
    (∃ (s : State), s.cur = none ∧
      (∀ e ∈ s.copies, e.2.waitsLocks = false) ∧
      (∀ e ∈ s.fabric, e.2.waitsLocks = false) ∧
      (∀ e ∈ s.groups, ∀ m ∈ e.2.matq, m.waitsLocks = false) ∧
      (∃ id q, Eligible s id q)) ∧
    (∃ (s : State) (gid : Nat), s.cur = some gid) ∧
    (∃ (s : State) (gid : Nat) (j : Nat) (rs : List Nat) (g : Group), s.group gid = some g ∧
      s.handOf gid = some (j, { st := .filling gid, regs := rs })) ∧
    (∃ (s : State) (gid : Nat) (j : Nat) (rs : List Nat) (g : Group), s.group gid = some g ∧
      s.handOf gid = some (j, { st := .writingBack gid, regs := rs })) ∧
    (∃ (s : State) (gid : Nat) (g : Group) (h : Handler), s.group gid = some g ∧
      g.handler = some h ∧
      2 ^ 20 ≤ g.hwdog + (s.clock - h.entered)) ∧
    (∃ (s : State) (gid : Nat) (g : Group) (h : Handler), s.group gid = some g ∧
      g.handler = some h ∧
      g.hwdog + (s.clock - h.entered) < 2 ^ 20) ∧
    (∃ (s : State) (gid : Nat) (g : Group) (p : Split) (x : Part) (w : Nat) (r : List Nat), s.cur = some gid ∧
      s.group gid = some g ∧
      g.issuing = some p ∧
      p.held = none ∧
      s.part g.part = some x ∧
      fetchWord s (g.agent gid) p.pc = .words (w :: r) ∧
      w / 2 ^ 21 ≠ 0x704 ∧
      w / 2 ^ 21 ≠ 0x705 ∧
      g.handler = none ∧
      x.safeEn = true ∧
      max 16 (min 1024 x.safeLimit.toNat) < g.safeCount + 1) :=
  ⟨⟨State.reset,
    by decide,
    by decide,
    by decide,
    by decide,
    (fun _ _ h => List.not_mem_nil h.1)⟩,
  ⟨{ at_ group with cur := none },
    by decide,
    by decide,
    by decide,
    by decide,
    ⟨0, group, List.mem_singleton.mpr rfl, by decide, by decide⟩⟩,
  ⟨at_ group,
    0,
    rfl⟩,
  ⟨{ at_ group with hands := [(2, { st := .filling 0, regs := [4] })] },
    0,
    2,
    [4],
    group,
    rfl,
    rfl⟩,
  ⟨{ at_ group with hands := [(2, { st := .writingBack 0, regs := [4] })] },
    0,
    2,
    [4],
    group,
    rfl,
    rfl⟩,
  ⟨{ at_ (handling group) with clock := 2 ^ 20 },
    0,
    (handling group),
    _,
    rfl,
    rfl,
    by decide⟩,
  ⟨{ at_ (handling group) with clock := 5 },
    0,
    (handling group),
    _,
    rfl,
    rfl,
    by decide⟩,
  ⟨at_ ({ house with splits := [{ split with pc := 0x0100000000010000 }], safeCount := 1024 }),
    0,
    { house with splits := [{ split with pc := 0x0100000000010000 }], safeCount := 1024 },
    { split with pc := 0x0100000000010000 },
    part,
    _,
    _,
    rfl,
    rfl,
    rfl,
    by decide,
    rfl,
    rfl,
    by decide,
    by decide,
    by decide,
    by decide,
    by decide⟩⟩

/-- IssueChoice. -/
theorem wit_issueChoice_2 : ∃ (s : State) (gid : Nat) (g : Group) (p : Split) (x : Part) (w : Nat) (r : List Nat), s.cur = some gid ∧
      s.group gid = some g ∧
      g.issuing = some p ∧
      p.held = none ∧
      s.part g.part = some x ∧
      fetchWord s (g.agent gid) p.pc = .words (w :: r) ∧
      w / 2 ^ 21 ≠ 0x704 ∧
      w / 2 ^ 21 ≠ 0x705 ∧
      g.handler = none ∧
      (x.safeEn = false ∨ g.safeCount + 1 ≤ max 16 (min 1024 x.safeLimit.toNat)) :=
  ⟨at_ ({ house with splits := [{ split with pc := 0x0100000000010000 }], safeCount := 3 }),
    0,
    { house with splits := [{ split with pc := 0x0100000000010000 }], safeCount := 3 },
    { split with pc := 0x0100000000010000 },
    part,
    _,
    _,
    rfl,
    rfl,
    rfl,
    by decide,
    rfl,
    rfl,
    by decide,
    by decide,
    by decide,
    .inr (by decide)⟩

/-- SplitsAndBarriers. -/
theorem wit_splitsAndBarriers_1 :
    (∃ (s : State) (gid : Nat) (slot : Nat) (g : Group) (p : Split) (w : WaitFor), WaitsIn s gid slot g p w ∧
      s.waitOver gid g w = true) ∧
    (∃ (s : State) (gid : Nat) (slot : Nat) (g : Group) (p : Split) (w : WaitFor), WaitsIn s gid slot g p w ∧
      s.waitOver gid g w = false) ∧
    (∃ (s : State) (gid : Nat) (slot : Nat) (g : Group) (p : Split) (w : WaitFor), WaitsIn s gid slot g p w ∧
      ∃ pa, w = .entryBusy pa ∧
      pteM (s.memNat pa 8) = false) ∧
    (∃ (s : State) (gid : Nat) (slot : Nat) (g : Group) (p : Split) (w : WaitFor), WaitsIn s gid slot g p w ∧
      ∃ pa, w = .entryBusy pa ∧
      pteM (s.memNat pa 8) = true) ∧
    (∃ (s : State) (gid : Nat) (slot : Nat) (g : Group) (p : Split) (w : WaitFor), WaitsIn s gid slot g p w ∧
      ∃ a, ∃ v, ∃ d, w = .lineWord a v d ∧
      ∃ pl, checkAddr s (g.agent gid) a 4 4 .read = .ok pl ∧
      BitVec.ofNat 32 (ofBytes (s.readAt pl 4)) ≠ v) ∧
    (∃ (s : State) (gid : Nat) (slot : Nat) (g : Group) (p : Split) (w : WaitFor), WaitsIn s gid slot g p w ∧
      ∃ a, ∃ v, ∃ d, w = .lineWord a v d ∧
      ∃ pl, checkAddr s (g.agent gid) a 4 4 .read = .ok pl ∧
      BitVec.ofNat 32 (ofBytes (s.readAt pl 4)) = v) ∧
    (∃ (s : State) (gid : Nat) (slot : Nat) (g : Group) (p : Split) (w : WaitFor), WaitsIn s gid slot g p w ∧
      ∃ a, ∃ v, ∃ d, w = .lineWord a v d ∧
      d ≤ s.clock) ∧
    (∃ (s : State) (gid : Nat) (slot : Nat) (g : Group) (p : Split) (w : WaitFor), WaitsIn s gid slot g p w ∧
      ∃ a, ∃ v, ∃ d, w = .lineWord a v d ∧
      s.clock < d) :=
  ⟨⟨at_ { group with splits := [inState (.waiting (.cond .always))] },
    0,
    0,
    { group with splits := [inState (.waiting (.cond .always))] },
    inState (.waiting (.cond .always)),
    .cond .always,
    ⟨rfl, rfl, rfl, rfl, rfl⟩,
    by decide⟩,
  ⟨at_ { busy with splits := [inState (.waiting (.cond (.counter 0 0)))] },
    0,
    0,
    { busy with splits := [inState (.waiting (.cond (.counter 0 0)))] },
    inState (.waiting (.cond (.counter 0 0))),
    .cond (.counter 0 0),
    ⟨rfl, rfl, rfl, rfl, rfl⟩,
    by decide⟩,
  ⟨at_ { group with splits := [inState (.waiting (.entryBusy 0))] },
    0,
    0,
    { group with splits := [inState (.waiting (.entryBusy 0))] },
    inState (.waiting (.entryBusy 0)),
    .entryBusy 0,
    ⟨rfl, rfl, rfl, rfl, rfl⟩,
    _,
    rfl,
    by decide⟩,
  ⟨{ at_ { group with splits := [inState (.waiting (.entryBusy 0))] } with mem := [(0, 0x80)] },
    0,
    0,
    { group with splits := [inState (.waiting (.entryBusy 0))] },
    inState (.waiting (.entryBusy 0)),
    .entryBusy 0,
    ⟨rfl, rfl, rfl, rfl, rfl⟩,
    _,
    rfl,
    by decide⟩,
  ⟨at_ { group with splits := [inState (.waiting (.lineWord 0x1000000000000000 5 100))] },
    0,
    0,
    { group with splits := [inState (.waiting (.lineWord 0x1000000000000000 5 100))] },
    inState (.waiting (.lineWord 0x1000000000000000 5 100)),
    .lineWord 0x1000000000000000 5 100,
    ⟨rfl, rfl, rfl, rfl, rfl⟩,
    _,
    _,
    _,
    rfl,
    _,
    rfl,
    by decide⟩,
  ⟨at_ { group with splits := [inState (.waiting (.lineWord 0x1000000000000000 0 100))] },
    0,
    0,
    { group with splits := [inState (.waiting (.lineWord 0x1000000000000000 0 100))] },
    inState (.waiting (.lineWord 0x1000000000000000 0 100)),
    .lineWord 0x1000000000000000 0 100,
    ⟨rfl, rfl, rfl, rfl, rfl⟩,
    _,
    _,
    _,
    rfl,
    _,
    rfl,
    by decide⟩,
  ⟨at_ { group with splits := [inState (.waiting (.lineWord 0x1000000000000000 0 0))] },
    0,
    0,
    { group with splits := [inState (.waiting (.lineWord 0x1000000000000000 0 0))] },
    inState (.waiting (.lineWord 0x1000000000000000 0 0)),
    .lineWord 0x1000000000000000 0 0,
    ⟨rfl, rfl, rfl, rfl, rfl⟩,
    _,
    _,
    _,
    rfl,
    by decide⟩,
  ⟨at_ { group with splits := [inState (.waiting (.lineWord 0x1000000000000000 0 100))] },
    0,
    0,
    { group with splits := [inState (.waiting (.lineWord 0x1000000000000000 0 100))] },
    inState (.waiting (.lineWord 0x1000000000000000 0 100)),
    .lineWord 0x1000000000000000 0 100,
    ⟨rfl, rfl, rfl, rfl, rfl⟩,
    _,
    _,
    _,
    rfl,
    by decide⟩⟩

/-- SplitsAndBarriers. -/
theorem wit_splitsAndBarriers_2 :
    (∃ (s : State) (gid : Nat) (g : Group) (c : WaitCond), ∃ k, ∃ n, c = .counter k n) ∧
    (∃ (s : State) (gid : Nat) (g : Group) (c : WaitCond), ∃ m, c = .counters m) ∧
    (∃ (s : State) (gid : Nat) (g : Group) (c : WaitCond), ∃ off, ∃ t, c = .pot off ∧
      g.team.bind s.team = some t) ∧
    (∃ (s : State) (gid : Nat) (slot : Nat) (g : Group) (q : Split), s.group gid = some g ∧
      g.residency = .running ∧
      g.handler = none ∧
      (∀ p ∈ g.splits, p.slot = slot → p = q) ∧
      q ∈ g.splits ∧
      q.slot = slot ∧
      ∃ n, q.st = .sleeping n) ∧
    (∃ (s : State) (gid : Nat) (slot : Nat) (g : Group) (q : Split), s.group gid = some g ∧
      g.residency = .running ∧
      g.handler = none ∧
      (∀ p ∈ g.splits, p.slot = slot → p = q) ∧
      q ∈ g.splits ∧
      q.slot = slot ∧
      ∃ c, ∃ pc, q.st = .parkedCont c pc) ∧
    (∃ (s : State) (gid : Nat) (g : Group) (c : Split) (r : Split), s.group gid = some g ∧
      g.residency = .running ∧
      g.handler = none ∧
      (g.mPp = false ∨ g.issuesInTurn < 256)) ∧
    (∃ (s : State) (gid : Nat) (g : Group) (c : Split) (r : Split), s.group gid = some g ∧
      g.residency = .running ∧
      g.handler = none ∧
      g.mPp = true ∧
      256 ≤ g.issuesInTurn ∧
      c ∈ g.splits ∧
      c.st = .current ∧
      (∀ p ∈ g.splits, p.st = .current → p = c) ∧
      (∀ p ∈ g.splits, p.slot < 4) ∧
      (∀ p ∈ g.splits, ∀ q ∈ g.splits, p.slot = q.slot → p = q) ∧
      (∀ p ∈ g.splits, p.st ≠ .ready)) ∧
    (∃ (s : State) (gid : Nat) (g : Group) (c : Split) (r : Split), s.group gid = some g ∧
      g.residency = .running ∧
      g.handler = none ∧
      g.mPp = true ∧
      256 ≤ g.issuesInTurn ∧
      c ∈ g.splits ∧
      c.st = .current ∧
      (∀ p ∈ g.splits, p.st = .current → p = c) ∧
      (∀ p ∈ g.splits, p.slot < 4) ∧
      (∀ p ∈ g.splits, ∀ q ∈ g.splits, p.slot = q.slot → p = q) ∧
      r ∈ g.splits ∧
      r.st = .ready ∧
      (∀ p ∈ g.splits, p.st = .ready → (r.slot + 3 - c.slot) % 4 ≤ (p.slot + 3 - c.slot) % 4) ∧
      (∀ p ∈ g.splits, ∀ q ∈ g.splits, p ≠ q → p.pc ≠ q.pc)) :=
  ⟨⟨at_ group,
    0,
    group,
    .counter 0 0,
    _,
    _,
    rfl⟩,
  ⟨at_ group,
    0,
    group,
    .counters 1,
    _,
    rfl⟩,
  ⟨at_ group,
    0,
    group,
    .pot 0,
    _,
    team,
    rfl,
    rfl⟩,
  ⟨at_ { group with splits := [inState (.sleeping 5)] },
    0,
    0,
    { group with splits := [inState (.sleeping 5)] },
    inState (.sleeping 5),
    rfl,
    rfl,
    rfl,
    by decide,
    by decide,
    by decide,
    _,
    rfl⟩,
  ⟨at_ { group with splits := [inState (.parkedCont .always 0x2000)] },
    0,
    0,
    { group with splits := [inState (.parkedCont .always 0x2000)] },
    inState (.parkedCont .always 0x2000),
    rfl,
    rfl,
    rfl,
    by decide,
    by decide,
    by decide,
    _,
    _,
    rfl⟩,
  ⟨at_ group,
    0,
    group,
    split,
    split,
    rfl,
    rfl,
    rfl,
    by decide⟩,
  ⟨at_ { group with mode := group.mode ||| 0x80000, issuesInTurn := 256 },
    0,
    { group with mode := group.mode ||| 0x80000, issuesInTurn := 256 },
    split,
    split,
    rfl,
    rfl,
    rfl,
    by decide,
    by decide,
    by decide,
    by decide,
    by decide,
    by decide,
    by decide,
    by decide⟩,
  ⟨at_ { group with mode := group.mode ||| 0x80000, issuesInTurn := 256, splits := [{ split with mask := 0x0F }, { split with slot := 1, mask := 0xF0, pc := 0x2000, st := .ready }] },
    0,
    { group with mode := group.mode ||| 0x80000, issuesInTurn := 256, splits := [{ split with mask := 0x0F }, { split with slot := 1, mask := 0xF0, pc := 0x2000, st := .ready }] },
    { split with mask := 0x0F },
    { split with slot := 1, mask := 0xF0, pc := 0x2000, st := .ready },
    rfl,
    rfl,
    rfl,
    by decide,
    by decide,
    by decide,
    by decide,
    by decide,
    by decide,
    by decide,
    by decide,
    by decide,
    by decide,
    by decide⟩⟩

/-- SplitsAndBarriers. -/
theorem wit_splitsAndBarriers_3 :
    (∃ (s : State) (gid : Nat) (slot : Nat) (n : Nat) (g : Group) (p : Split) (a : DWord) (rest : List DWord) (qs : List Split), s.group gid = some g ∧
      g.residency = .running ∧
      g.handler = none ∧
      p ∈ g.splits ∧
      (∀ q ∈ g.splits, q.slot = slot → q = p) ∧
      p.slot = slot ∧
      p.st = .parkedJoin ∧
      p.joins = a :: rest ∧
      (qs = g.splits.filter (fun q => q.st == .parkedJoin && q.pc == p.pc && q.joins.head? == some a)) ∧
      (qs.foldl (fun m q => m ||| q.mask) 0 ||| (a &&& g.exited) ≠ a)) ∧
    (∃ (s : State) (gid : Nat) (slot : Nat) (n : Nat) (g : Group) (p : Split) (a : DWord) (rest : List DWord) (qs : List Split), s.group gid = some g ∧
      g.residency = .running ∧
      g.handler = none ∧
      p ∈ g.splits ∧
      (∀ q ∈ g.splits, q.slot = slot → q = p) ∧
      p.slot = slot ∧
      p.st = .parkedJoin ∧
      p.joins = a :: rest ∧
      (qs = g.splits.filter (fun q => q.st == .parkedJoin && q.pc == p.pc && q.joins.head? == some a)) ∧
      (qs.foldl (fun m q => m ||| q.mask) 0 ||| (a &&& g.exited) = a) ∧
      (∃ q ∈ qs, q.slot = n) ∧
      (∀ q ∈ qs, n ≤ q.slot) ∧
      n < 4 ∧
      ∃ (k : Group), (k = { g with
          msig := g.msig ^^^ (loWord a ^^^ hiWord a),
          splits := { slot := n, mask := a &&& ~~~g.exited, pc := codeStep g.text p.pc 4, st := .ready, joins := rest, held := none,
                      safeAt := none } :: g.splits.filter fun q => decide (∀ x ∈ qs, x.slot ≠ q.slot) }) ∧
      (rest ≠ [] ∨ k.msig = 0)) ∧
    (∃ (s : State) (gid : Nat) (slot : Nat) (n : Nat) (g : Group) (p : Split) (a : DWord) (rest : List DWord) (qs : List Split), s.group gid = some g ∧
      g.residency = .running ∧
      g.handler = none ∧
      p ∈ g.splits ∧
      (∀ q ∈ g.splits, q.slot = slot → q = p) ∧
      p.slot = slot ∧
      p.st = .parkedJoin ∧
      p.joins = a :: rest ∧
      (qs = g.splits.filter (fun q => q.st == .parkedJoin && q.pc == p.pc && q.joins.head? == some a)) ∧
      (qs.foldl (fun m q => m ||| q.mask) 0 ||| (a &&& g.exited) = a) ∧
      (∃ q ∈ qs, q.slot = n) ∧
      (∀ q ∈ qs, n ≤ q.slot) ∧
      n < 4 ∧
      ∃ (k : Group), (k = { g with
          msig := g.msig ^^^ (loWord a ^^^ hiWord a),
          splits := { slot := n, mask := a &&& ~~~g.exited, pc := codeStep g.text p.pc 4, st := .ready, joins := rest, held := none,
                      safeAt := none } :: g.splits.filter fun q => decide (∀ x ∈ qs, x.slot ≠ q.slot) }) ∧
      rest = [] ∧
      k.msig ≠ 0) ∧
    (∃ (s : State) (tid : Nat) (t : Team) (b : BitVec 3), s.team tid = some t ∧
      ¬Arrived s t (.parkedBarrier b.toNat)) ∧
    (∃ (s : State) (tid : Nat) (t : Team) (b : BitVec 3), s.team tid = some t ∧
      Arrived s t (.parkedBarrier b.toNat)) ∧
    (∃ (s : State) (tid : Nat) (t : Team) (ts : List (Nat × Team)), s.team tid = some t ∧
      (ts = s.teams.filter (fun e => e.2.part == t.part && e.2.grid == t.grid && e.2.leader == t.leader)) ∧
      (ts.length ≠ t.cohort ∨ ∃ e ∈ ts, ¬Arrived s e.2 .parkedCohort)) ∧
    (∃ (s : State) (tid : Nat) (t : Team) (ts : List (Nat × Team)), s.team tid = some t ∧
      (ts = s.teams.filter (fun e => e.2.part == t.part && e.2.grid == t.grid && e.2.leader == t.leader)) ∧
      ts.length = t.cohort ∧
      (∀ e ∈ ts, Arrived s e.2 .parkedCohort)) ∧
    (∃ (s : State) (gid : Nat) (g : Group), s.group gid = some g ∧
      g.residency = .running ∧
      s.taking g = false ∧
      (match g.handler with
      | some h => h.split.st = .exiting
      | none => ∃ p ∈ g.splits, p.st = .exiting) ∧
      (∃ j < 6, g.cnt.get j ≠ 0)) :=
  ⟨⟨at_ { group with splits := [joining 0x0F] },
    0,
    0,
    0,
    { group with splits := [joining 0x0F] },
    joining 0x0F,
    0xFF,
    [],
    _,
    rfl,
    rfl,
    rfl,
    by decide,
    by decide,
    by decide,
    by decide,
    rfl,
    rfl,
    by decide⟩,
  ⟨at_ { group with splits := [joining 0xFF], msig := 0xFF },
    0,
    0,
    0,
    { group with splits := [joining 0xFF], msig := 0xFF },
    joining 0xFF,
    0xFF,
    [],
    _,
    rfl,
    rfl,
    rfl,
    by decide,
    by decide,
    by decide,
    by decide,
    rfl,
    rfl,
    by decide,
    ⟨_, List.mem_singleton.mpr rfl, rfl⟩,
    by decide,
    by decide,
    _,
    rfl,
    .inr (by decide)⟩,
  ⟨at_ { group with splits := [joining 0xFF] },
    0,
    0,
    0,
    { group with splits := [joining 0xFF] },
    joining 0xFF,
    0xFF,
    [],
    _,
    rfl,
    rfl,
    rfl,
    by decide,
    by decide,
    by decide,
    by decide,
    rfl,
    rfl,
    by decide,
    ⟨_, List.mem_singleton.mpr rfl, rfl⟩,
    by decide,
    by decide,
    _,
    rfl,
    by decide,
    by decide⟩,
  ⟨{ at_ group with teams := [(1, team)] },
    1,
    team,
    0,
    rfl,
    (fun h => by
      rcases h (.live 0) (by decide) with h | h | ⟨id, q, hm, hq, hp⟩
      · cases h
      · cases h
      · cases hm; cases hq; exact absurd (hp split (by decide)) (by decide))⟩,
  ⟨{ at_ group with teams := [(1, gone)] },
    1,
    gone,
    0,
    rfl,
    (fun m hm => .inl (List.mem_singleton.mp hm))⟩,
  ⟨{ at_ group with teams := [(1, { team with cohort := 2 })] },
    1,
    { team with cohort := 2 },
    [(1, { team with cohort := 2 })],
    rfl,
    rfl,
    .inl (by decide)⟩,
  ⟨{ at_ group with teams := [(1, gone)] },
    1,
    gone,
    [(1, gone)],
    rfl,
    rfl,
    by decide,
    (fun e he => by cases List.mem_singleton.mp he; exact fun m hm => .inl (List.mem_singleton.mp hm))⟩,
  ⟨at_ { busy with splits := [inState .exiting] },
    0,
    { busy with splits := [inState .exiting] },
    rfl,
    rfl,
    by decide,
    ⟨_, List.mem_singleton.mpr rfl, rfl⟩,
    ⟨0, by decide, by decide⟩⟩⟩

/-- SplitsAndBarriers. -/
theorem wit_splitsAndBarriers_4 : ∃ (s : State) (gid : Nat) (g : Group), s.group gid = some g ∧
      g.residency = .running ∧
      s.taking g = false ∧
      (match g.handler with
      | some h => h.split.st = .exiting
      | none => ∃ p ∈ g.splits, p.st = .exiting) ∧
      (∀ j < 6, g.cnt.get j = 0) :=
  ⟨at_ { group with splits := [inState .exiting] },
    0,
    { group with splits := [inState .exiting] },
    rfl,
    rfl,
    by decide,
    ⟨_, List.mem_singleton.mpr rfl, rfl⟩,
    by decide⟩

/-- SwapAndSave. -/
theorem wit_swapAndSave_1 :
    (∃ (s : State) (gid : Nat) (g : Group) (x : Part), s.group gid = some g ∧
      s.part g.part = some x ∧
      gid < 4 * 24576 ∧
      (s.swappable g = false ∨ s.waitMet gid g = true ∨ s.kittyRoom gid g x = none)) ∧
    (∃ (s : State) (gid : Nat) (g : Group) (x : Part), s.group gid = some g ∧
      s.part g.part = some x ∧
      gid < 4 * 24576 ∧
      ∃ k, s.swappable g = true ∧
      s.waitMet gid g = false ∧
      s.kittyRoom gid g x = some k) ∧
    (∃ (s : State) (gid : Nat) (g : Group) (x : Part), s.group gid = some g ∧
      s.part g.part = some x ∧
      gid < 4 * 24576 ∧
      g.residency = .swappingOut ∧
      s.waitMet gid g = true) ∧
    (∃ (s : State) (gid : Nat) (g : Group) (x : Part), s.group gid = some g ∧
      s.part g.part = some x ∧
      gid < 4 * 24576 ∧
      g.residency = .swappingOut ∧
      s.waitMet gid g = false ∧
      g.handler = none) ∧
    (∃ (s : State) (gid : Nat) (g : Group) (x : Part), s.group gid = some g ∧
      s.part g.part = some x ∧
      gid < 4 * 24576 ∧
      g.residency = .swapped ∧
      s.taking g = false ∧
      s.waitMet gid g = true ∧
      s.mainUsed (coreOf gid) false + 4 * g.vAlloc * g.width ≤ 2 ^ 19) ∧
    (∃ (s : State) (gid : Nat) (g : Group) (x : Part), s.group gid = some g ∧
      s.part g.part = some x ∧
      gid < 4 * 24576 ∧
      (g.residency ≠ .swapped ∨ s.taking g = true ∨ s.waitMet gid g = false ∨ 2 ^ 19 < s.mainUsed (coreOf gid) false + 4 * g.vAlloc * g.width)) ∧
    (∃ (s : State) (gid : Nat) (g : Group) (x : Part), s.group gid = some g ∧
      s.part g.part = some x ∧
      gid < 4 * 24576 ∧
      g.residency = .swappingIn) ∧
    (∃ (s : State) (gid : Nat) (g : Group) (x : Part), s.group gid = some g ∧
      s.part g.part = some x ∧
      gid < 4 * 24576 ∧
      g.residency = .restoring) :=
  ⟨⟨at_ group,
    0,
    group,
    part,
    rfl,
    rfl,
    by decide,
    .inl (by decide)⟩,
  ⟨{ placed { part with kitty := 2 } { busy with splits := [inState (.parkedCont (.counter 0 0) 0)] } with clock := 5000 },
    0,
    { busy with splits := [inState (.parkedCont (.counter 0 0) 0)] },
    { part with kitty := 2 },
    rfl,
    rfl,
    by decide,
    65536,
    by decide,
    by decide,
    by decide⟩,
  ⟨at_ (away .swappingOut .ready),
    0,
    (away .swappingOut .ready),
    part,
    rfl,
    rfl,
    by decide,
    rfl,
    by decide⟩,
  ⟨at_ (away .swappingOut (.parkedBarrier 0)),
    0,
    (away .swappingOut (.parkedBarrier 0)),
    part,
    rfl,
    rfl,
    by decide,
    rfl,
    by decide,
    rfl⟩,
  ⟨at_ (away .swapped .ready),
    0,
    (away .swapped .ready),
    part,
    rfl,
    rfl,
    by decide,
    rfl,
    by decide,
    by decide,
    by decide⟩,
  ⟨at_ group,
    0,
    group,
    part,
    rfl,
    rfl,
    by decide,
    .inl (by decide)⟩,
  ⟨at_ (away .swappingIn .ready),
    0,
    (away .swappingIn .ready),
    part,
    rfl,
    rfl,
    by decide,
    rfl⟩,
  ⟨at_ (away .restoring .ready),
    0,
    (away .restoring .ready),
    part,
    rfl,
    rfl,
    by decide,
    rfl⟩⟩

/-- SwapAndSave. -/
theorem wit_swapAndSave_2 :
    (∃ (s : State) (tid : Nat) (a : Nat) (t : Team) (gr : Grid), s.team tid = some t ∧
      t.saving = some a ∧
      tabGet s.grids t.grid = some gr ∧
      s.members t = [(tid, t)] ∧
      t.named = true ∧
      t.state ≠ .resident) ∧
    (∃ (s : State) (tid : Nat) (a : Nat) (t : Team) (gr : Grid), s.team tid = some t ∧
      t.saving = some a ∧
      tabGet s.grids t.grid = some gr ∧
      s.members t = [(tid, t)] ∧
      (t.named = false ∨ t.state = .resident) ∧
      t.taking = false ∧
      (∃ e ∈ s.groups, e.2.team = some tid ∧ s.groupSavable e.1 e.2 = false)) ∧
    (∃ (s : State) (tid : Nat) (a : Nat) (t : Team) (gr : Grid), s.team tid = some t ∧
      t.saving = some a ∧
      tabGet s.grids t.grid = some gr ∧
      s.members t = [(tid, t)] ∧
      (t.named = false ∨ t.state = .resident) ∧
      t.taking = false ∧
      (∀ e ∈ s.groups, e.2.team = some tid → s.groupSavable e.1 e.2 = true)) ∧
    (∃ (s : State) (tid : Nat) (a : Nat) (t : Team) (gr : Grid), s.team tid = some t ∧
      t.saving = some a ∧
      tabGet s.grids t.grid = some gr ∧
      s.members t = [(tid, t)] ∧
      (t.named = false ∨ t.state = .resident) ∧
      t.taking = true ∧
      (∃ e ∈ s.groups, e.2.team = some tid ∧ s.engineSavable e.1 e.2 = false)) ∧
    (∃ (s : State) (tid : Nat) (a : Nat) (t : Team) (gr : Grid), s.team tid = some t ∧
      t.saving = some a ∧
      tabGet s.grids t.grid = some gr ∧
      s.members t = [(tid, t)] ∧
      (t.named = false ∨ t.state = .resident) ∧
      t.taking = true ∧
      (∀ e ∈ s.groups, e.2.team = some tid → s.engineSavable e.1 e.2 = true) ∧
      s.NoReplicas ∧
      (∀ e ∈ s.groups, e.2.team = some tid → e.2.seat = 0) ∧
      (∀ m ∈ t.groups, ∀ id, m = .live id → ∃ g, s.group id = some g) ∧
      (∀ (i j id : Nat), t.groups[i]? = some (Member.live id) → t.groups[j]? = some (Member.live id) → i = j) ∧
      (∀ id, Member.live id ∈ t.groups → ∀ g, s.group id = some g → g.team = some tid)) ∧
    (∃ (s : State) (tid : Nat) (c : Nat) (t : Team) (x : Part) (r : LaunchRec), s.team tid = some t ∧
      s.part t.part = some x ∧
      s.recordFor t = some r ∧
      (t.latency = false ∨ t.isQueued = false ∨ s.latencyCluster x t = none)) ∧
    (∃ (s : State) (tid : Nat) (c : Nat) (t : Team) (x : Part) (r : LaunchRec), s.team tid = some t ∧
      s.part t.part = some x ∧
      s.recordFor t = some r ∧
      t.latency = true ∧
      t.isQueued = true ∧
      s.latencyCluster x t = some c ∧
      (t.cohort ≤ (s.admitCores x t r c).length + s.vacating x t r c ∨ s.reserveCores x t r c = [])) ∧
    (∃ (s : State) (tid : Nat) (c : Nat) (t : Team) (x : Part) (r : LaunchRec), s.team tid = some t ∧
      s.part t.part = some x ∧
      s.recordFor t = some r ∧
      t.latency = true ∧
      t.isQueued = true ∧
      s.latencyCluster x t = some c ∧
      (s.admitCores x t r c).length + s.vacating x t r c < t.cohort ∧
      ∃ k, ∃ ks, ∃ id, ∃ b, ∃ a, ∃ as, s.reserveCores x t r c = k :: ks ∧
      s.bulkTeams k = [(id, b)] ∧
      s.members b = [(id, b)] ∧
      s.team id = some b ∧
      s.freeSlots x t.part = a :: as ∧
      s.imageBound b ≤ 2 ^ 16 * bits x.saveSlot.toNat 16 16 ∧
      s.ownsSpan x a (s.imageBound b) = true) :=
  ⟨⟨{ at_ (group) with teams := [(1, { team with saving := some 0x400000, named := true, state := .preempted })], grids := [(1, grid none false)] },
    1,
    _,
    { team with saving := some 0x400000, named := true, state := .preempted },
    _,
    rfl,
    rfl,
    rfl,
    rfl,
    by decide,
    by decide⟩,
  ⟨{ at_ (group) with teams := [(1, { team with saving := some 0x400000 })], grids := [(1, grid none false)] },
    1,
    _,
    { team with saving := some 0x400000 },
    _,
    rfl,
    rfl,
    rfl,
    rfl,
    .inl rfl,
    by decide,
    ⟨_, List.mem_singleton.mpr rfl, rfl, by decide⟩⟩,
  ⟨{ at_ (away .running (.parkedBarrier 0)) with teams := [(1, { team with saving := some 0x400000, taking := false })], grids := [(1, grid none false)] },
    1,
    _,
    { team with saving := some 0x400000, taking := false },
    _,
    rfl,
    rfl,
    rfl,
    rfl,
    .inl rfl,
    by decide,
    by decide⟩,
  ⟨{ { at_ (away .running (.parkedBarrier 0)) with teams := [(1, { team with saving := some 0x400000, taking := true })], grids := [(1, grid none false)] } with copies := [(5, { copyRec .cpy 0 with pos := 64 })] },
    1,
    _,
    { team with saving := some 0x400000, taking := true },
    _,
    rfl,
    rfl,
    rfl,
    rfl,
    .inl rfl,
    by decide,
    ⟨_, List.mem_singleton.mpr rfl, rfl, by decide⟩⟩,
  ⟨{ at_ (away .running (.parkedBarrier 0)) with teams := [(1, { team with saving := some 0x400000, taking := true })], grids := [(1, grid none false)] },
    1,
    _,
    { team with saving := some 0x400000, taking := true },
    _,
    rfl,
    rfl,
    rfl,
    rfl,
    .inl rfl,
    by decide,
    by decide,
    (fun e (he : e ∈ ([] : List (Nat × PageRec))) => nomatch he),
    by decide,
    (fun m hm id h => ⟨away .running (.parkedBarrier 0), by cases List.mem_singleton.mp hm; cases h; rfl⟩),
    (fun i j id hi hj => by match i, j, hi, hj with | 0, 0, _, _ => rfl),
    (fun id h g hg => by cases List.mem_singleton.mp h; cases hg; rfl)⟩,
  ⟨{ at_ group with grids := [(1, grid none false)], teams := [(1, team)], pkg := { Pkg.reset with readyC := 1 } },
    1,
    0,
    team,
    part,
    _,
    rfl,
    rfl,
    rfl,
    .inl rfl⟩,
  ⟨{ at_ group with grids := [(1, grid none false)], teams := [(1, { team with state := .queued, latency := true })], pkg := { Pkg.reset with readyC := 1 } },
    1,
    0,
    { team with state := .queued, latency := true },
    part,
    _,
    rfl,
    rfl,
    rfl,
    by decide,
    by decide,
    by decide,
    by decide⟩,
  ⟨crowded,
    17,
    0,
    urgent,
    slotted,
    _,
    rfl,
    rfl,
    rfl,
    by decide,
    by decide,
    by decide,
    by decide,
    14,
    [15],
    15,
    bulk 14,
    0x400000,
    [],
    by decide,
    by decide,
    by decide,
    rfl,
    by decide,
    by decide,
    by decide⟩⟩

/-- FabricTarget. -/
theorem wit_fabricTarget_1 :
    (∃ (s : State) (rid : Nat) (q : FabReq) (k : RemoteKind), tabGet s.fabric rid = some q ∧
      q.kind.remote = some k ∧
      s.reqReady rid q = false) ∧
    (∃ (s : State) (rid : Nat) (q : FabReq) (k : RemoteKind), tabGet s.fabric rid = some q ∧
      q.kind.remote = some k ∧
      s.remoteCheck q.part (remoteAcc k) q.lanes = .busy) ∧
    (∃ (s : State) (rid : Nat) (q : FabReq) (k : RemoteKind), tabGet s.fabric rid = some q ∧
      q.kind.remote = some k ∧
      ∃ va, ∃ c, s.reqReady rid q = true ∧
      s.remoteCheck q.part (remoteAcc k) q.lanes = .fault va c ∧
      (tabGet s.streams q.slot).isSome = true ∧
      q.stream < 4 ∧
      (∀ x, tabGet s.streams q.slot = some x → x.streams.length = 4)) ∧
    (∃ (s : State) (rid : Nat) (q : FabReq) (k : RemoteKind), tabGet s.fabric rid = some q ∧
      q.kind.remote = some k ∧
      ∃ ps, s.reqReady rid q = true ∧
      s.remoteCheck q.part (remoteAcc k) q.lanes = .ok ps ∧
      k ≠ .store ∧
      (∃ x ∈ ps, s.poisonAt x.2 4 ≠ [])) ∧
    (∃ (s : State) (rid : Nat) (q : FabReq) (k : RemoteKind), tabGet s.fabric rid = some q ∧
      q.kind.remote = some k ∧
      ∃ ps, s.reqReady rid q = true ∧
      s.remoteCheck q.part (remoteAcc k) q.lanes = .ok ps ∧
      (k = .store ∨ ∀ x ∈ ps, s.poisonAt x.2 4 = []) ∧
      s.NoReplicas ∧
      LanesApart k ps) :=
  ⟨⟨requesting paged 0x4B ({ reqOf (.rld false) 0 with left := false }),
    9,
    { reqOf (.rld false) 0 with left := false },
    .load,
    rfl,
    rfl,
    by decide⟩,
  ⟨requesting paged 0xCB (reqOf (.rld false) 0),
    9,
    reqOf (.rld false) 0,
    .load,
    rfl,
    rfl,
    rfl⟩,
  ⟨requesting paged 0x4B (reqOf (.rld false) 0x10000000),
    9,
    reqOf (.rld false) 0x10000000,
    .load,
    rfl,
    rfl,
    _,
    _,
    by decide,
    rfl,
    rfl,
    by decide,
    (fun x hx => by cases hx; rfl)⟩,
  ⟨{ requesting paged 0x4B (reqOf (.rld false) 0) with poison := [(0x2800, 1)] },
    9,
    reqOf (.rld false) 0,
    .load,
    rfl,
    rfl,
    _,
    by decide,
    rfl,
    by decide,
    ⟨_, List.mem_singleton.mpr rfl, by decide⟩⟩,
  ⟨requesting paged 0x4B (reqOf (.rld false) 0),
    9,
    reqOf (.rld false) 0,
    .load,
    rfl,
    rfl,
    [({ lane := 3, va := 0, x := 5, y := 0 }, .phys 0x140000 0 none { entry := some 0x130000, level := 3, pte := 0x14004B, va := 0, rd := 0x140000 } [0x2600, 0x2400, 0x2200, 0x2000])],
    by decide,
    rfl,
    .inr (by decide),
    nofun,
    ⟨fun h => List.pairwise_singleton _ _, fun x hx y hy a e h he => by
      cases List.mem_singleton.mp hx; cases List.mem_singleton.mp hy; cases he
      simp only [Place.covers] at h; omega⟩⟩⟩

/-- FabricTarget. -/
theorem wit_fabricTarget_2 :
    (∃ (s : State) (r : RemoteReq), s.frozenHere r.srcPkg r.slot r.stream (.foreign r) = true) ∧
    (∃ (s : State) (r : RemoteReq), s.frozenHere r.srcPkg r.slot r.stream (.foreign r) = false ∧
      (∀ e ∈ s.parts, ¬(e.2.live = true ∧ e.2.domain.toNat = r.domain ∧ r.domain ≠ 0))) ∧
    (∃ (s : State) (r : RemoteReq), s.frozenHere r.srcPkg r.slot r.stream (.foreign r) = false ∧
      ∃ part, s.domainPart r.domain = some part ∧
      s.heldBefore s.nextId r.srcPkg r.slot r.stream = true) ∧
    (∃ (s : State) (r : RemoteReq), s.frozenHere r.srcPkg r.slot r.stream (.foreign r) = false ∧
      ∃ part, s.domainPart r.domain = some part ∧
      s.heldBefore s.nextId r.srcPkg r.slot r.stream = false) ∧
    (∃ (s : State) (k : Nat) (h : HeldForeign) (r : RemoteReq), tabGet s.foreign k = some h ∧
      h.req = .foreign r ∧
      h.done = true ∧
      s.writePerformed k h.lines = false) :=
  ⟨⟨{ mapped shared 0x4B group with frozen := [(4, frozenOf (.own 9) 2 1)] },
    foreign .load 0,
    by decide⟩,
  ⟨mapped paged 0x4B group,
    foreign .load 0,
    by decide,
    by decide⟩,
  ⟨{ mapped shared 0x4B group with foreign := [(0, waiting false [])] },
    foreign .load 0,
    by decide,
    0,
    rfl,
    by decide⟩,
  ⟨mapped shared 0xCB group,
    foreign .load 0,
    by decide,
    0,
    rfl,
    by decide⟩,
  ⟨awaitingLine 4 (waiting true [7]),
    4,
    waiting true [7],
    foreign .load 0,
    rfl,
    rfl,
    by decide,
    by decide⟩⟩

/-- FabricTarget. -/
theorem wit_fabricTarget_3 :
    (∃ (s : State) (k : Nat) (h : HeldForeign) (r : RemoteReq), tabGet s.foreign k = some h ∧
      h.req = .foreign r ∧
      h.done = true ∧
      s.writePerformed k h.lines = true) ∧
    (∃ (s : State) (k : Nat) (h : HeldForeign) (r : RemoteReq), tabGet s.foreign k = some h ∧
      h.req = .foreign r ∧
      h.done = false ∧
      s.heldBefore k r.srcPkg r.slot r.stream = true) ∧
    (∃ (s : State) (k : Nat) (h : HeldForeign) (r : RemoteReq), tabGet s.foreign k = some h ∧
      h.req = .foreign r ∧
      h.done = false ∧
      s.heldBefore k r.srcPkg r.slot r.stream = false) ∧
    (∃ (s : State) (part : Nat) (x : Part), s.part part = some x ∧
      (x.rfq = 0 ∨ ∀ e ∈ s.frozen, e.2.part = part → e.2.recorded = true)) ∧
    (∃ (s : State) (part : Nat) (x : Part), s.part part = some x ∧
      ∃ k, ∃ z, ∃ hdr, ∃ base, ∃ size, ∃ wr, ∃ rd, (s.frozen.find? (fun e => decide (e.2.part = part) && !e.2.recorded) = some (k, z)) ∧
      x.rfq ≠ 0 ∧
      hdr = x.rfq.toNat ∧
      base = s.memNat hdr 8 ∧
      size = s.memNat (hdr + 8) 4 ∧
      wr = s.memNat (hdr + 12) 4 ∧
      rd = s.memNat (hdr + 16) 4 ∧
      (size = 0 ∨ tableOk s x (base + wr % size) = false ∨ size < (wr + 2 ^ 32 - rd) % 2 ^ 32 + 32)) :=
  ⟨⟨awaitingLine 4 (waiting true []),
    4,
    waiting true [],
    foreign .load 0,
    rfl,
    rfl,
    by decide,
    by decide⟩,
  ⟨{ at_ group with foreign := [(3, waiting false []), (4, waiting false [])] },
    4,
    waiting false [],
    foreign .load 0,
    rfl,
    rfl,
    by decide,
    by decide⟩,
  ⟨awaitingLine 4 (waiting false []),
    4,
    waiting false [],
    foreign .load 0,
    rfl,
    rfl,
    by decide,
    by decide⟩,
  ⟨at_ group,
    0,
    part,
    rfl,
    .inl rfl⟩,
  ⟨{ placed ({ part with rfq := 0x20000 }) group with frozen := [(4, frozenOf (.own 9) 0 1)], mem := [] },
    0,
    { part with rfq := 0x20000 },
    rfl,
    _,
    _,
    _,
    _,
    _,
    _,
    _,
    rfl,
    by decide,
    rfl,
    rfl,
    rfl,
    rfl,
    rfl,
    .inl rfl⟩⟩

/-- FabricTarget. -/
theorem wit_fabricTarget_4 :
    (∃ (s : State) (part : Nat) (x : Part), s.part part = some x ∧
      ∃ k, ∃ z, ∃ hdr, ∃ base, ∃ size, ∃ wr, ∃ rd, (s.frozen.find? (fun e => decide (e.2.part = part) && !e.2.recorded) = some (k, z)) ∧
      x.rfq ≠ 0 ∧
      hdr = x.rfq.toNat ∧
      base = s.memNat hdr 8 ∧
      size = s.memNat (hdr + 8) 4 ∧
      wr = s.memNat (hdr + 12) 4 ∧
      rd = s.memNat (hdr + 16) 4 ∧
      size ≠ 0 ∧
      tableOk s x (base + wr % size) = true ∧
      (wr + 2 ^ 32 - rd) % 2 ^ 32 + 32 ≤ size ∧
      Apart (base + wr % size) 32 (hdr + 12) 4 ∧
      PlainBut s none (linesOf (base + wr % size) 32 ++ linesOf (hdr + 12) 4)) ∧
    (∃ (s : State) (rid : Nat) (n : Nat) (q : FabReq) (sl : StreamSlot), tabGet s.fabric rid = some q ∧
      tabGet s.streams q.slot = some sl ∧
      q.stream < sl.streams.length ∧
      (q.performed = true ∨ (q.pkg ≠ s.pkg.number ∧ q.left = false) ∨
      (q.pkg = s.pkg.number ∧ ∀ e ∈ s.frozen, ¬(e.2.req = .own rid ∧ e.2.serial = n)))) ∧
    (∃ (s : State) (rid : Nat) (n : Nat) (q : FabReq) (sl : StreamSlot), tabGet s.fabric rid = some q ∧
      tabGet s.streams q.slot = some sl ∧
      q.stream < sl.streams.length ∧
      q.performed = false ∧
      (∀ x ∈ (s.stream q.slot q.stream).frozenBy, x.1 ≠ rid) ∧
      ((q.pkg ≠ s.pkg.number ∧ q.left = true) ∨ (q.pkg = s.pkg.number ∧ ∃ e ∈ s.frozen, e.2.req = .own rid ∧ e.2.serial = n))) ∧
    (∃ (s : State) (rid : Nat) (q : FabReq) (g : Group) (r : Reply) (cause : Option Nat) (vals : List (Nat × Word)), tabGet s.fabric rid = some q ∧
      (q.kind.remote ≠ none ∨ (∃ v w, q.kind = .rstv v w)) ∧
      s.group q.gid = some g ∧
      g.residency = .running ∧
      q.orphan = false ∧
      q.counter < 6 ∧
      ((q.performed = true ∧ s.writePerformed rid q.lines = true ∧ cause = q.cause ∧ vals = q.vals) ∨
      (q.performed = false ∧ q.pkg ≠ s.pkg.number ∧ q.left = true ∧ (∀ x ∈ (s.stream q.slot q.stream).frozenBy, x.1 ≠ rid) ∧
        cause = r.cause.map (fun c => c.toNat) ∧
        vals = (List.range q.lanes.length).map fun j => ((q.lanes.map (fun l => l.lane)).getD j 0, r.vals.getD j 0)))) ∧
    (∃ (s : State) (rid : Nat) (q : FabReq) (r : Reply), tabGet s.fabric rid = some q ∧
      q.kind.remote ≠ none ∧
      q.performed = false ∧
      (q.pkg = s.pkg.number ∨ q.left = false)) :=
  ⟨⟨{ placed ({ part with rfq := 0x20000 }) group with frozen := [(4, frozenOf (.own 9) 0 1)], mem := [(0x2000A, 1)] },
    0,
    { part with rfq := 0x20000 },
    rfl,
    _,
    _,
    _,
    _,
    _,
    _,
    _,
    rfl,
    by decide,
    rfl,
    rfl,
    rfl,
    rfl,
    rfl,
    by decide,
    by decide,
    by decide,
    by unfold Apart; decide,
    ⟨by decide, nofun⟩⟩,
  ⟨requesting paged 0x4B ({ reqOf (.rld false) 0 with performed := true }),
    9,
    1,
    { reqOf (.rld false) 0 with performed := true },
    _,
    rfl,
    rfl,
    by decide,
    .inl rfl⟩,
  ⟨{ requesting paged 0x4B (reqOf (.rld false) 0) with frozen := [(4, frozenOf (.own 9) 0 1)] },
    9,
    1,
    reqOf (.rld false) 0,
    _,
    rfl,
    rfl,
    by decide,
    by decide,
    (fun _ h => absurd h List.not_mem_nil),
    .inr ⟨rfl, ⟨_, List.mem_singleton.mpr rfl, rfl, rfl⟩⟩⟩,
  ⟨requesting paged 0x4B ({ reqOf (.rld false) 0 with performed := true }),
    9,
    { reqOf (.rld false) 0 with performed := true },
    group,
    { cause := none, vals := [] },
    _,
    _,
    rfl,
    .inl (by decide),
    rfl,
    rfl,
    by decide,
    by decide,
    .inl ⟨rfl, rfl, rfl, rfl⟩⟩,
  ⟨requesting paged 0x4B (reqOf (.rld false) 0),
    9,
    reqOf (.rld false) 0,
    { cause := none, vals := [] },
    rfl,
    by decide,
    by decide,
    .inl rfl⟩⟩

/-- FabricTarget. -/
theorem wit_fabricTarget_5 :
    (∃ (s : State) (rid : Nat) (q : FabReq) (g : Group), tabGet s.fabric rid = some q ∧
      q.kind = .rfence ∧
      s.group q.gid = some g ∧
      (q.left = true ∨ q.performed = true ∨ (s.stream q.slot q.stream).state ≠ 0 ∨ s.drained q = true ∨
      (∃ e ∈ s.fabric, e.1 < rid ∧ e.2.slot = q.slot ∧ e.2.stream = q.stream ∧
        (e.2.performed = false ∨ (e.2.cause = none ∧ s.writePerformed e.1 e.2.lines = false))) ∨
      ∃ id ∈ q.after, tabGet g.pend id ≠ none)) ∧
    (∃ (s : State) (rid : Nat) (q : FabReq) (g : Group), tabGet s.fabric rid = some q ∧
      q.kind = .rfence ∧
      s.group q.gid = some g ∧
      q.left = false ∧
      q.performed = false ∧
      (s.stream q.slot q.stream).state = 0 ∧
      s.drained q = false ∧
      (∀ e ∈ s.fabric, e.1 < rid → e.2.slot = q.slot → e.2.stream = q.stream →
        e.2.performed = true ∧ (e.2.cause ≠ none ∨ s.writePerformed e.1 e.2.lines = true)) ∧
      (∀ id ∈ q.after, tabGet g.pend id = none)) ∧
    (∃ (s : State) (slot : Nat) (stream : Nat) (serial : Nat) (fail : Bool) (x : StreamState), x = s.stream slot stream ∧
      (∀ e ∈ x.frozenBy, e.2 ≠ serial) ∧
      (fail = false ∨ tabGet s.streams slot ≠ none)) ∧
    (∃ (s : State) (slot : Nat) (stream : Nat) (serial : Nat) (fail : Bool) (x : StreamState), x = s.stream slot stream ∧
      (∃ e ∈ x.frozenBy, e.2 = serial) ∧
      fail = false) ∧
    (∃ (s : State) (slot : Nat) (stream : Nat) (serial : Nat) (fail : Bool) (x : StreamState), x = s.stream slot stream ∧
      fail = true ∧
      keysRise s.fabric = true ∧
      (∀ e ∈ s.fabric, ∀ a b n sp p, e.2.kind ≠ .xfer a b n sp (some p)) ∧
      (∃ e ∈ x.frozenBy, e.2 = serial)) :=
  ⟨⟨requesting paged 0x4B ({ reqOf .rfence 0 with left := true }),
    9,
    { reqOf .rfence 0 with left := true },
    group,
    rfl,
    rfl,
    rfl,
    .inl rfl⟩,
  ⟨requesting paged 0x4B ({ reqOf .rfence 0 with left := false }),
    9,
    { reqOf .rfence 0 with left := false },
    group,
    rfl,
    rfl,
    rfl,
    by decide,
    by decide,
    by decide,
    by decide,
    by decide,
    (fun _ h => absurd h List.not_mem_nil)⟩,
  ⟨at_ group,
    0,
    0,
    7,
    false,
    _,
    rfl,
    (fun _ h => absurd h List.not_mem_nil),
    .inl rfl⟩,
  ⟨{ at_ group with streams := [(0, { gid := 0, part := 0, streams := [{ StreamState.open_ with state := 1, frozenBy := [(3, 7)] }] })] },
    0,
    0,
    7,
    false,
    _,
    rfl,
    ⟨_, List.mem_singleton.mpr rfl, rfl⟩,
    by decide⟩,
  ⟨{ at_ group with streams := [(0, { gid := 0, part := 0, streams := [{ StreamState.open_ with state := 1, frozenBy := [(3, 7)] }] })] },
    0,
    0,
    7,
    true,
    _,
    rfl,
    by decide,
    rfl,
    (fun _ h => absurd h List.not_mem_nil),
    ⟨_, List.mem_singleton.mpr rfl, rfl⟩⟩⟩

/-- FabricTarget. -/
theorem wit_fabricTarget_6 : ∃ (s : State) (slot : Nat) (stream : Nat) (serial : Nat) (fail : Bool) (x : StreamState), x = s.stream slot stream ∧
      fail = true ∧
      keysRise s.fabric = true ∧
      (∀ e ∈ s.fabric, ∀ a b n sp p, e.2.kind ≠ .xfer a b n sp (some p)) ∧
      tabGet s.streams slot = none :=
  ⟨at_ group,
    0,
    0,
    7,
    true,
    _,
    rfl,
    by decide,
    rfl,
    (fun _ h => absurd h List.not_mem_nil),
    rfl⟩

/-- TransfersAndDeliveries. -/
theorem wit_transfersAndDeliveries_1 :
    (∃ (s : State) (rid : Nat) (q : FabReq) (g : Group) (src : DWord) (dst : DWord) (len : Nat) (from_ : Nat) (at_ : Nat) (n : Nat) (space : Bool) (pot : Option Nat) (ag : Agent), tabGet s.fabric rid = some q ∧
      s.group q.gid = some g ∧
      q.kind = .xfer src dst len space pot ∧
      q.performed = false ∧
      q.credited < q.sent ∧
      q.pkg = s.pkg.number ∧
      s.writePerformed rid q.lines = false) ∧
    (∃ (s : State) (rid : Nat) (q : FabReq) (g : Group) (src : DWord) (dst : DWord) (len : Nat) (from_ : Nat) (at_ : Nat) (n : Nat) (space : Bool) (pot : Option Nat) (ag : Agent), tabGet s.fabric rid = some q ∧
      s.group q.gid = some g ∧
      q.kind = .xfer src dst len space pot ∧
      q.performed = false ∧
      q.credited < q.sent ∧
      q.pkg = s.pkg.number ∧
      s.writePerformed rid q.lines = true ∧
      pot = none) ∧
    (∃ (s : State) (rid : Nat) (q : FabReq) (g : Group) (src : DWord) (dst : DWord) (len : Nat) (from_ : Nat) (at_ : Nat) (n : Nat) (space : Bool) (pot : Option Nat) (ag : Agent), tabGet s.fabric rid = some q ∧
      s.group q.gid = some g ∧
      q.kind = .xfer src dst len space pot ∧
      q.performed = false ∧
      q.credited < q.sent ∧
      q.pkg = s.pkg.number ∧
      s.writePerformed rid q.lines = true ∧
      ∃ p, ∃ a, pot = some p ∧
      a = { seat := q.seat, off := 0, data := [], pot := some p, credit := q.sent - q.credited } ∧
      ArrivalFits s q.part a) ∧
    (∃ (s : State) (rid : Nat) (q : FabReq) (g : Group) (src : DWord) (dst : DWord) (len : Nat) (from_ : Nat) (at_ : Nat) (n : Nat) (space : Bool) (pot : Option Nat) (ag : Agent), tabGet s.fabric rid = some q ∧
      s.group q.gid = some g ∧
      q.kind = .xfer src dst len space pot ∧
      q.performed = false ∧
      q.credited = q.sent ∧
      q.orphan = false ∧
      q.waitsLocks = false ∧
      s.quiet q.part = false ∧
      q.frozen = false ∧
      q.left = true ∧
      (s.stream q.slot q.stream).state = 0 ∧
      s.drained q = false ∧
      (∀ e ∈ s.fabric, e.1 < rid → e.2.slot = q.slot → e.2.stream = q.stream → e.2.pkg = q.pkg → e.2.performed = true) ∧
      (q.pkg = s.pkg.number → s.frozenHere q.pkg q.slot q.stream (.own rid) = false) ∧
      at_ = (if space then dst.toNat + q.sent else (dst.toNat + q.sent) % 2 ^ 54) ∧
      n = min (len - q.sent) (128 - at_ % 128) ∧
      ag = { part := q.part, priv := q.priv, core := coreOf q.gid, team := g.team, cached := true } ∧
      from_ = (src.toNat + q.sent) % 2 ^ 64 ∧
      s.engineRead ag 3 from_ n = .error .busy) ∧
    (∃ (s : State) (rid : Nat) (q : FabReq) (g : Group) (src : DWord) (dst : DWord) (len : Nat) (from_ : Nat) (at_ : Nat) (n : Nat) (space : Bool) (pot : Option Nat) (ag : Agent), tabGet s.fabric rid = some q ∧
      s.group q.gid = some g ∧
      q.kind = .xfer src dst len space pot ∧
      q.performed = false ∧
      q.credited = q.sent ∧
      q.orphan = false ∧
      q.waitsLocks = false ∧
      s.quiet q.part = false ∧
      q.frozen = false ∧
      q.left = true ∧
      (s.stream q.slot q.stream).state = 0 ∧
      s.drained q = false ∧
      (∀ e ∈ s.fabric, e.1 < rid → e.2.slot = q.slot → e.2.stream = q.stream → e.2.pkg = q.pkg → e.2.performed = true) ∧
      (q.pkg = s.pkg.number → s.frozenHere q.pkg q.slot q.stream (.own rid) = false) ∧
      at_ = (if space then dst.toNat + q.sent else (dst.toNat + q.sent) % 2 ^ 54) ∧
      n = min (len - q.sent) (128 - at_ % 128) ∧
      ag = { part := q.part, priv := q.priv, core := coreOf q.gid, team := g.team, cached := true } ∧
      from_ = (src.toNat + q.sent) % 2 ^ 64 ∧
      ∃ x, ∃ a, s.engineRead ag 3 from_ n = .error (.fail x a)) ∧
    (∃ (s : State) (rid : Nat) (q : FabReq) (g : Group) (src : DWord) (dst : DWord) (len : Nat) (from_ : Nat) (at_ : Nat) (n : Nat) (space : Bool) (pot : Option Nat) (ag : Agent), tabGet s.fabric rid = some q ∧
      s.group q.gid = some g ∧
      q.kind = .xfer src dst len space pot ∧
      q.performed = false ∧
      q.credited = q.sent ∧
      q.orphan = false ∧
      q.waitsLocks = false ∧
      s.quiet q.part = false ∧
      q.frozen = false ∧
      q.left = true ∧
      (s.stream q.slot q.stream).state = 0 ∧
      s.drained q = false ∧
      (∀ e ∈ s.fabric, e.1 < rid → e.2.slot = q.slot → e.2.stream = q.stream → e.2.pkg = q.pkg → e.2.performed = true) ∧
      (q.pkg = s.pkg.number → s.frozenHere q.pkg q.slot q.stream (.own rid) = false) ∧
      at_ = (if space then dst.toNat + q.sent else (dst.toNat + q.sent) % 2 ^ 54) ∧
      n = min (len - q.sent) (128 - at_ % 128) ∧
      ag = { part := q.part, priv := q.priv, core := coreOf q.gid, team := g.team, cached := true } ∧
      from_ = (src.toNat + q.sent) % 2 ^ 64 ∧
      ∃ bs, s.engineRead ag 3 from_ n = .ok bs ∧
      q.pkg ≠ s.pkg.number) :=
  ⟨⟨{ requesting paged 0x4B ({ reqOf (.xfer 0x1000000000000000 0 128 false none) 0 with lanes := [], sent := 64, lines := [7] }) with dir := [(7, { holders := [], l1 := [], arriving := [(3, copyOf 1)], invals := [] })] },
    9,
    { reqOf (.xfer 0x1000000000000000 0 128 false none) 0 with lanes := [], sent := 64, lines := [7] },
    group,
    _,
    _,
    _,
    0,
    0,
    0,
    _,
    _,
    group.agent 0,
    rfl,
    rfl,
    rfl,
    by decide,
    by decide,
    rfl,
    by decide⟩,
  ⟨requesting paged 0x4B ({ reqOf (.xfer 0x1000000000000000 0 128 false none) 0 with lanes := [], sent := 64 }),
    9,
    { reqOf (.xfer 0x1000000000000000 0 128 false none) 0 with lanes := [], sent := 64 },
    group,
    _,
    _,
    _,
    0,
    0,
    0,
    _,
    _,
    group.agent 0,
    rfl,
    rfl,
    rfl,
    by decide,
    by decide,
    rfl,
    by decide,
    rfl⟩,
  ⟨delivering 1 group ({ reqOf (.xfer 0x1000000000000000 0 128 false (some 0x40)) 0 with lanes := [], sent := 64 }),
    9,
    { reqOf (.xfer 0x1000000000000000 0 128 false (some 0x40)) 0 with lanes := [], sent := 64 },
    group,
    _,
    _,
    _,
    0,
    0,
    0,
    _,
    _,
    group.agent 0,
    rfl,
    rfl,
    rfl,
    by decide,
    by decide,
    rfl,
    by decide,
    _,
    _,
    rfl,
    rfl,
    .inl ⟨0, group, 1, team, rfl, rfl, rfl, rfl, nofun, fun p hp => by cases hp; decide⟩⟩,
  ⟨requesting paged 0xCB ({ reqOf (.xfer 0x0 0 128 false none) 0 with lanes := [] }),
    9,
    { reqOf (.xfer 0x0 0 128 false none) 0 with lanes := [] },
    group,
    _,
    _,
    _,
    _,
    _,
    _,
    _,
    _,
    _,
    rfl,
    rfl,
    rfl,
    by decide,
    by decide,
    by decide,
    by decide,
    by decide,
    by decide,
    by decide,
    rfl,
    by decide,
    by decide,
    (fun _ => rfl),
    rfl,
    rfl,
    rfl,
    rfl,
    rfl⟩,
  ⟨requesting paged 0x4B ({ reqOf (.xfer 0x10000000 0 128 false none) 0 with lanes := [] }),
    9,
    { reqOf (.xfer 0x10000000 0 128 false none) 0 with lanes := [] },
    group,
    _,
    _,
    _,
    _,
    _,
    _,
    _,
    _,
    _,
    rfl,
    rfl,
    rfl,
    by decide,
    by decide,
    by decide,
    by decide,
    by decide,
    by decide,
    by decide,
    rfl,
    by decide,
    by decide,
    (fun _ => rfl),
    rfl,
    rfl,
    rfl,
    rfl,
    _,
    _,
    rfl⟩,
  ⟨requesting paged 0x4B ({ reqOf (.xfer 0x1000000000000000 0 128 false none) 0 with lanes := [], pkg := 3 }),
    9,
    { reqOf (.xfer 0x1000000000000000 0 128 false none) 0 with lanes := [], pkg := 3 },
    group,
    _,
    _,
    _,
    _,
    _,
    _,
    _,
    _,
    _,
    rfl,
    rfl,
    rfl,
    by decide,
    by decide,
    by decide,
    by decide,
    by decide,
    by decide,
    by decide,
    rfl,
    by decide,
    by decide,
    (fun h => absurd h (by decide)),
    rfl,
    rfl,
    rfl,
    rfl,
    _,
    rfl,
    by decide⟩⟩

/-- TransfersAndDeliveries. -/
theorem wit_transfersAndDeliveries_2 :
    (∃ (s : State) (rid : Nat) (q : FabReq) (g : Group) (src : DWord) (dst : DWord) (len : Nat) (from_ : Nat) (at_ : Nat) (n : Nat) (space : Bool) (pot : Option Nat) (ag : Agent), tabGet s.fabric rid = some q ∧
      s.group q.gid = some g ∧
      q.kind = .xfer src dst len space pot ∧
      q.performed = false ∧
      q.credited = q.sent ∧
      q.orphan = false ∧
      q.waitsLocks = false ∧
      s.quiet q.part = false ∧
      q.frozen = false ∧
      q.left = true ∧
      (s.stream q.slot q.stream).state = 0 ∧
      s.drained q = false ∧
      (∀ e ∈ s.fabric, e.1 < rid → e.2.slot = q.slot → e.2.stream = q.stream → e.2.pkg = q.pkg → e.2.performed = true) ∧
      (q.pkg = s.pkg.number → s.frozenHere q.pkg q.slot q.stream (.own rid) = false) ∧
      at_ = (if space then dst.toNat + q.sent else (dst.toNat + q.sent) % 2 ^ 54) ∧
      n = min (len - q.sent) (128 - at_ % 128) ∧
      ag = { part := q.part, priv := q.priv, core := coreOf q.gid, team := g.team, cached := true } ∧
      from_ = (src.toNat + q.sent) % 2 ^ 64 ∧
      ∃ bs, ∃ y, ∃ pl, s.engineRead ag 3 from_ n = .ok bs ∧
      bs.length = n ∧
      q.pkg = s.pkg.number ∧
      space = false ∧
      s.NoReplicas ∧
      (∀ p, pot = some p → seatPkg q.seat = s.pkg.number ∧
          ArrivalFits s q.part { seat := q.seat, off := 0, data := [], pot := some p, credit := n }) ∧
      s.remoteCheck q.part .write [{ lane := 0, va := at_, x := 0, y := 0 }] = .ok [(y, pl)]) ∧
    (∃ (s : State) (rid : Nat) (q : FabReq) (g : Group) (src : DWord) (dst : DWord) (len : Nat) (from_ : Nat) (at_ : Nat) (n : Nat) (space : Bool) (pot : Option Nat) (ag : Agent), tabGet s.fabric rid = some q ∧
      s.group q.gid = some g ∧
      q.kind = .xfer src dst len space pot ∧
      q.performed = false ∧
      q.credited = q.sent ∧
      q.orphan = false ∧
      q.waitsLocks = false ∧
      s.quiet q.part = false ∧
      q.frozen = false ∧
      q.left = true ∧
      (s.stream q.slot q.stream).state = 0 ∧
      s.drained q = false ∧
      (∀ e ∈ s.fabric, e.1 < rid → e.2.slot = q.slot → e.2.stream = q.stream → e.2.pkg = q.pkg → e.2.performed = true) ∧
      (q.pkg = s.pkg.number → s.frozenHere q.pkg q.slot q.stream (.own rid) = false) ∧
      at_ = (if space then dst.toNat + q.sent else (dst.toNat + q.sent) % 2 ^ 54) ∧
      n = min (len - q.sent) (128 - at_ % 128) ∧
      ag = { part := q.part, priv := q.priv, core := coreOf q.gid, team := g.team, cached := true } ∧
      from_ = (src.toNat + q.sent) % 2 ^ 64 ∧
      ∃ bs, ∃ a, s.engineRead ag 3 from_ n = .ok bs ∧
      bs.length = n ∧
      q.pkg = s.pkg.number ∧
      seatPkg q.seat = s.pkg.number ∧
      space = true ∧
      a = { seat := q.seat, off := at_, data := bs, pot := pot, credit := n } ∧
      ArrivalFits s q.part a) ∧
    (∃ (s : State) (rid : Nat) (q : FabReq) (g : Group) (r : Reply) (src : DWord) (dst : DWord) (len : Nat) (space : Bool) (pot : Option Nat), tabGet s.fabric rid = some q ∧
      q.kind = .xfer src dst len space pot ∧
      q.performed = false ∧
      q.pkg ≠ s.pkg.number ∧
      q.credited < q.sent ∧
      r.cause = none) ∧
    (∃ (s : State) (rid : Nat) (q : FabReq) (g : Group) (r : Reply) (src : DWord) (dst : DWord) (len : Nat) (space : Bool) (pot : Option Nat), tabGet s.fabric rid = some q ∧
      q.kind = .xfer src dst len space pot ∧
      q.performed = false ∧
      q.pkg ≠ s.pkg.number ∧
      q.credited < q.sent ∧
      ∃ c, r.cause = some c) ∧
    (∃ (s : State) (rid : Nat) (q : FabReq) (g : Group) (r : Reply) (src : DWord) (dst : DWord) (len : Nat) (space : Bool) (pot : Option Nat), tabGet s.fabric rid = some q ∧
      q.kind = .xfer src dst len space pot ∧
      (q.performed = false ∧ (q.orphan = false ∨ q.credited ≠ q.sent))) ∧
    (∃ (s : State) (rid : Nat) (q : FabReq) (g : Group) (r : Reply) (src : DWord) (dst : DWord) (len : Nat) (space : Bool) (pot : Option Nat), tabGet s.fabric rid = some q ∧
      q.kind = .xfer src dst len space pot ∧
      q.performed = true ∧
      q.orphan = false ∧
      s.group q.gid = some g ∧
      g.residency = .running ∧
      q.pend = none ∧
      q.counter = 5) ∧
    (∃ (s : State) (rid : Nat) (q : FabReq) (g : Group) (r : Reply) (src : DWord) (dst : DWord) (len : Nat) (space : Bool) (pot : Option Nat), tabGet s.fabric rid = some q ∧
      q.kind = .xfer src dst len space pot ∧
      q.orphan = true ∧
      q.credited = q.sent) ∧
    (∃ (s : State) (c : XferChunkMsg) (a : Arrival), a = { seat := c.seat, off := if c.space then c.va else 0, data := if c.space then c.data else [], pot := c.pot, credit := c.data.length } ∧
      s.frozenHere c.srcPkg c.slot c.stream (.foreignChunk c) = true) :=
  ⟨⟨requesting paged 0x4B ({ reqOf (.xfer 0x1000000000000000 0 128 false none) 0 with lanes := [] }),
    9,
    { reqOf (.xfer 0x1000000000000000 0 128 false none) 0 with lanes := [] },
    group,
    _,
    _,
    _,
    _,
    _,
    _,
    _,
    _,
    _,
    rfl,
    rfl,
    rfl,
    by decide,
    by decide,
    by decide,
    by decide,
    by decide,
    by decide,
    by decide,
    rfl,
    by decide,
    by decide,
    (fun _ => rfl),
    rfl,
    rfl,
    rfl,
    rfl,
    _,
    _,
    _,
    rfl,
    rfl,
    rfl,
    by decide,
    nofun,
    nofun,
    rfl⟩,
  ⟨delivering 1 group ({ reqOf (.xfer 0x1000000000000000 0 128 true none) 0 with lanes := [] }),
    9,
    { reqOf (.xfer 0x1000000000000000 0 128 true none) 0 with lanes := [] },
    group,
    _,
    _,
    _,
    _,
    _,
    _,
    _,
    _,
    _,
    rfl,
    rfl,
    rfl,
    by decide,
    by decide,
    by decide,
    by decide,
    by decide,
    by decide,
    by decide,
    rfl,
    by decide,
    by decide,
    (fun _ => rfl),
    rfl,
    rfl,
    rfl,
    rfl,
    _,
    _,
    rfl,
    rfl,
    rfl,
    by decide,
    by decide,
    rfl,
    .inl ⟨0, group, 1, team, rfl, rfl, rfl, rfl, fun _ => by decide, nofun⟩⟩,
  ⟨requesting paged 0x4B ({ reqOf (.xfer 0x1000000000000000 0 128 false none) 0 with lanes := [], pkg := 3, sent := 64 }),
    9,
    { reqOf (.xfer 0x1000000000000000 0 128 false none) 0 with lanes := [], pkg := 3, sent := 64 },
    group,
    { cause := none, vals := [] },
    _,
    _,
    _,
    _,
    _,
    rfl,
    rfl,
    by decide,
    by decide,
    by decide,
    by decide⟩,
  ⟨requesting paged 0x4B ({ reqOf (.xfer 0x1000000000000000 0 128 false none) 0 with lanes := [], pkg := 3, sent := 64 }),
    9,
    { reqOf (.xfer 0x1000000000000000 0 128 false none) 0 with lanes := [], pkg := 3, sent := 64 },
    group,
    { cause := some 4, vals := [] },
    _,
    _,
    _,
    _,
    _,
    rfl,
    rfl,
    by decide,
    by decide,
    by decide,
    _,
    rfl⟩,
  ⟨requesting paged 0x4B ({ reqOf (.xfer 0x1000000000000000 0 128 false none) 0 with lanes := [] }),
    9,
    { reqOf (.xfer 0x1000000000000000 0 128 false none) 0 with lanes := [] },
    group,
    { cause := none, vals := [] },
    _,
    _,
    _,
    _,
    _,
    rfl,
    rfl,
    ⟨rfl, .inl rfl⟩⟩,
  ⟨requesting paged 0x4B ({ reqOf (.xfer 0x1000000000000000 0 128 false none) 0 with lanes := [], performed := true }),
    9,
    { reqOf (.xfer 0x1000000000000000 0 128 false none) 0 with lanes := [], performed := true },
    group,
    { cause := none, vals := [] },
    _,
    _,
    _,
    _,
    _,
    rfl,
    rfl,
    by decide,
    by decide,
    rfl,
    rfl,
    rfl,
    by decide⟩,
  ⟨requesting paged 0x4B ({ reqOf (.xfer 0x1000000000000000 0 128 false none) 0 with lanes := [], orphan := true }),
    9,
    { reqOf (.xfer 0x1000000000000000 0 128 false none) 0 with lanes := [], orphan := true },
    group,
    { cause := none, vals := [] },
    _,
    _,
    _,
    _,
    _,
    rfl,
    rfl,
    by decide,
    by decide⟩,
  ⟨{ mapped shared 0x4B group with frozen := [(4, frozenOf (.own 9) 2 1)] },
    chunk,
    _,
    rfl,
    by decide⟩⟩

/-- TransfersAndDeliveries. -/
theorem wit_transfersAndDeliveries_3 :
    (∃ (s : State) (c : XferChunkMsg) (a : Arrival), a = { seat := c.seat, off := if c.space then c.va else 0, data := if c.space then c.data else [], pot := c.pot, credit := c.data.length } ∧
      s.frozenHere c.srcPkg c.slot c.stream (.foreignChunk c) = false ∧
      s.domainPart c.domain = none) ∧
    (∃ (s : State) (c : XferChunkMsg) (a : Arrival), a = { seat := c.seat, off := if c.space then c.va else 0, data := if c.space then c.data else [], pot := c.pot, credit := c.data.length } ∧
      s.frozenHere c.srcPkg c.slot c.stream (.foreignChunk c) = false ∧
      ∃ part, s.domainPart c.domain = some part ∧
      c.fail = false ∧
      s.heldBefore s.nextId c.srcPkg c.slot c.stream = true) ∧
    (∃ (s : State) (c : XferChunkMsg) (a : Arrival), a = { seat := c.seat, off := if c.space then c.va else 0, data := if c.space then c.data else [], pot := c.pot, credit := c.data.length } ∧
      s.frozenHere c.srcPkg c.slot c.stream (.foreignChunk c) = false ∧
      ∃ part, s.domainPart c.domain = some part ∧
      c.fail = false ∧
      s.heldBefore s.nextId c.srcPkg c.slot c.stream = false) ∧
    (∃ (s : State) (c : XferChunkMsg) (a : Arrival), a = { seat := c.seat, off := if c.space then c.va else 0, data := if c.space then c.data else [], pot := c.pot, credit := c.data.length } ∧
      ∃ k, ∃ h, tabGet s.foreign k = some h ∧
      h.req = .foreignChunk c ∧
      ((h.done = true ∧ s.writePerformed k h.lines = false) ∨ (h.done = false ∧ s.heldBefore k c.srcPkg c.slot c.stream = true))) ∧
    (∃ (s : State) (c : XferChunkMsg) (a : Arrival), a = { seat := c.seat, off := if c.space then c.va else 0, data := if c.space then c.data else [], pot := c.pot, credit := c.data.length } ∧
      ∃ k, ∃ h, tabGet s.foreign k = some h ∧
      h.req = .foreignChunk c ∧
      h.done = true ∧
      s.writePerformed k h.lines = true ∧
      c.pot = none) ∧
    (∃ (s : State) (c : XferChunkMsg) (a : Arrival), a = { seat := c.seat, off := if c.space then c.va else 0, data := if c.space then c.data else [], pot := c.pot, credit := c.data.length } ∧
      ∃ k, ∃ h, tabGet s.foreign k = some h ∧
      h.req = .foreignChunk c ∧
      h.done = false ∧
      s.heldBefore k c.srcPkg c.slot c.stream = false) ∧
    (∃ (s : State) (rid : Nat) (q : FabReq) (v0 : List Word) (v1 : Option (List Word)), tabGet s.fabric rid = some q ∧
      q.kind = .rstv v0 v1 ∧
      s.reqReady rid q = false) ∧
    (∃ (s : State) (rid : Nat) (q : FabReq) (v0 : List Word) (v1 : Option (List Word)), tabGet s.fabric rid = some q ∧
      q.kind = .rstv v0 v1 ∧
      s.reqReady rid q = true ∧
      s.seatHolder q.part (seatNameOf q.seat) = .stale) :=
  ⟨⟨at_ group,
    chunk,
    _,
    rfl,
    by decide,
    rfl⟩,
  ⟨{ mapped shared 0x4B group with foreign := [(0, waiting false [])] },
    chunk,
    _,
    rfl,
    by decide,
    0,
    rfl,
    by decide,
    by decide⟩,
  ⟨mapped shared 0x4B group,
    chunk,
    _,
    rfl,
    by decide,
    0,
    rfl,
    by decide,
    by decide⟩,
  ⟨{ mapped shared 0x4B group with foreign := [(3, waiting false []), (4, chunkHeld false)] },
    chunk,
    _,
    rfl,
    4,
    _,
    rfl,
    rfl,
    .inr ⟨rfl, by decide⟩⟩,
  ⟨{ mapped shared 0x4B group with foreign := [(4, chunkHeld true)] },
    chunk,
    _,
    rfl,
    4,
    _,
    rfl,
    rfl,
    by decide,
    rfl,
    by decide⟩,
  ⟨{ mapped shared 0x4B group with foreign := [(4, chunkHeld false)] },
    chunk,
    _,
    rfl,
    4,
    _,
    rfl,
    rfl,
    by decide,
    by decide⟩,
  ⟨delivering 1 group ({ reqOf (.rstv [7] none) 0 with seat := BitVec.ofNat 64 (1 + 2 ^ 48 * 4), left := false }),
    9,
    { reqOf (.rstv [7] none) 0 with seat := BitVec.ofNat 64 (1 + 2 ^ 48 * 4), left := false },
    _,
    _,
    rfl,
    rfl,
    by decide⟩,
  ⟨delivering 0 group ({ reqOf (.rstv [7] none) 0 with seat := BitVec.ofNat 64 (1 + 2 ^ 48 * 4) }),
    9,
    { reqOf (.rstv [7] none) 0 with seat := BitVec.ofNat 64 (1 + 2 ^ 48 * 4) },
    _,
    _,
    rfl,
    rfl,
    by decide,
    rfl⟩⟩

/-- TransfersAndDeliveries. -/
theorem wit_transfersAndDeliveries_4 :
    (∃ (s : State) (rid : Nat) (q : FabReq) (v0 : List Word) (v1 : Option (List Word)), tabGet s.fabric rid = some q ∧
      q.kind = .rstv v0 v1 ∧
      s.reqReady rid q = true ∧
      s.seatHolder q.part (seatNameOf q.seat) = .moving) ∧
    (∃ (s : State) (rid : Nat) (q : FabReq) (v0 : List Word) (v1 : Option (List Word)), tabGet s.fabric rid = some q ∧
      q.kind = .rstv v0 v1 ∧
      s.reqReady rid q = true ∧
      ∃ gid, ∃ g, s.seatHolder q.part (seatNameOf q.seat) = .live gid ∧
      s.group gid = some g ∧
      g.width ≤ 64 ∧
      g.vAlloc < seatReg q.seat + deliveryLen v1) ∧
    (∃ (s : State) (rid : Nat) (q : FabReq) (v0 : List Word) (v1 : Option (List Word)), tabGet s.fabric rid = some q ∧
      q.kind = .rstv v0 v1 ∧
      s.reqReady rid q = true ∧
      ∃ gid, ∃ g, s.seatHolder q.part (seatNameOf q.seat) = .live gid ∧
      s.group gid = some g ∧
      g.width ≤ 64 ∧
      seatReg q.seat + deliveryLen v1 ≤ g.vAlloc ∧
      g.residency ≠ .swapped) ∧
    (∃ (s : State) (m : DeliveryMsg) (out : Option Nat → State → State), (out = (fun c t => { t with
      nextId := t.nextId + 1, sent := smapInsert t.sent t.nextId { pkg := m.srcPkg, slot := m.slot, stream := m.stream, msg := .reply c [] } })) ∧
      s.frozenHere m.srcPkg m.slot m.stream (.waiting 0) = true) ∧
    (∃ (s : State) (m : DeliveryMsg) (out : Option Nat → State → State), (out = (fun c t => { t with
      nextId := t.nextId + 1, sent := smapInsert t.sent t.nextId { pkg := m.srcPkg, slot := m.slot, stream := m.stream, msg := .reply c [] } })) ∧
      s.frozenHere m.srcPkg m.slot m.stream (.waiting 0) = false ∧
      s.domainPart m.domain = none) ∧
    (∃ (s : State) (m : DeliveryMsg) (out : Option Nat → State → State), (out = (fun c t => { t with
      nextId := t.nextId + 1, sent := smapInsert t.sent t.nextId { pkg := m.srcPkg, slot := m.slot, stream := m.stream, msg := .reply c [] } })) ∧
      ∃ part, s.frozenHere m.srcPkg m.slot m.stream (.waiting 0) = false ∧
      s.domainPart m.domain = some part ∧
      s.heldBefore s.nextId m.srcPkg m.slot m.stream = true) ∧
    (∃ (s : State) (m : DeliveryMsg) (out : Option Nat → State → State), (out = (fun c t => { t with
      nextId := t.nextId + 1, sent := smapInsert t.sent t.nextId { pkg := m.srcPkg, slot := m.slot, stream := m.stream, msg := .reply c [] } })) ∧
      ∃ part, s.frozenHere m.srcPkg m.slot m.stream (.waiting 0) = false ∧
      s.domainPart m.domain = some part ∧
      s.heldBefore s.nextId m.srcPkg m.slot m.stream = false ∧
      s.seatHolder part (seatNameOf m.seat) = .stale) ∧
    (∃ (s : State) (m : DeliveryMsg) (out : Option Nat → State → State), (out = (fun c t => { t with
      nextId := t.nextId + 1, sent := smapInsert t.sent t.nextId { pkg := m.srcPkg, slot := m.slot, stream := m.stream, msg := .reply c [] } })) ∧
      ∃ part, s.frozenHere m.srcPkg m.slot m.stream (.waiting 0) = false ∧
      s.domainPart m.domain = some part ∧
      s.heldBefore s.nextId m.srcPkg m.slot m.stream = false ∧
      s.seatHolder part (seatNameOf m.seat) = .moving) :=
  ⟨⟨delivering 4 group ({ reqOf (.rstv [7] none) 0 with seat := BitVec.ofNat 64 (1 + 2 ^ 48 * 4) }),
    9,
    { reqOf (.rstv [7] none) 0 with seat := BitVec.ofNat 64 (1 + 2 ^ 48 * 4) },
    _,
    _,
    rfl,
    rfl,
    by decide,
    rfl⟩,
  ⟨delivering 1 { group with vAlloc := 64 } ({ reqOf (.rstv [7] none) 0 with seat := BitVec.ofNat 64 (1 + 2 ^ 48 * 127) }),
    9,
    { reqOf (.rstv [7] none) 0 with seat := BitVec.ofNat 64 (1 + 2 ^ 48 * 127) },
    _,
    _,
    rfl,
    rfl,
    by decide,
    0,
    { group with vAlloc := 64 },
    rfl,
    rfl,
    by decide,
    by decide⟩,
  ⟨delivering 1 group ({ reqOf (.rstv [7] none) 0 with seat := BitVec.ofNat 64 (1 + 2 ^ 48 * 4) }),
    9,
    { reqOf (.rstv [7] none) 0 with seat := BitVec.ofNat 64 (1 + 2 ^ 48 * 4) },
    _,
    _,
    rfl,
    rfl,
    by decide,
    0,
    group,
    rfl,
    rfl,
    by decide,
    by decide,
    by decide⟩,
  ⟨{ at_ group with frozen := [(4, frozenOf (.own 9) 2 1)] },
    delivery 4,
    _,
    rfl,
    by decide⟩,
  ⟨at_ group,
    delivery 4,
    _,
    rfl,
    by decide,
    rfl⟩,
  ⟨{ seatState 1 group with foreign := [(0, waiting false [])] },
    delivery 4,
    _,
    rfl,
    0,
    by decide,
    rfl,
    by decide⟩,
  ⟨seatState 0 group,
    delivery 4,
    _,
    rfl,
    0,
    by decide,
    rfl,
    by decide,
    rfl⟩,
  ⟨seatState 4 group,
    delivery 4,
    _,
    rfl,
    0,
    by decide,
    rfl,
    by decide,
    rfl⟩⟩

/-- TransfersAndDeliveries. -/
theorem wit_transfersAndDeliveries_5 :
    (∃ (s : State) (m : DeliveryMsg) (out : Option Nat → State → State), (out = (fun c t => { t with
      nextId := t.nextId + 1, sent := smapInsert t.sent t.nextId { pkg := m.srcPkg, slot := m.slot, stream := m.stream, msg := .reply c [] } })) ∧
      ∃ part, s.frozenHere m.srcPkg m.slot m.stream (.waiting 0) = false ∧
      s.domainPart m.domain = some part ∧
      s.heldBefore s.nextId m.srcPkg m.slot m.stream = false ∧
      ∃ gid, ∃ g, s.seatHolder part (seatNameOf m.seat) = .live gid ∧
      s.group gid = some g ∧
      g.width ≤ 64 ∧
      g.vAlloc < seatReg m.seat + deliveryLen m.v1) ∧
    (∃ (s : State) (m : DeliveryMsg) (out : Option Nat → State → State), (out = (fun c t => { t with
      nextId := t.nextId + 1, sent := smapInsert t.sent t.nextId { pkg := m.srcPkg, slot := m.slot, stream := m.stream, msg := .reply c [] } })) ∧
      ∃ part, s.frozenHere m.srcPkg m.slot m.stream (.waiting 0) = false ∧
      s.domainPart m.domain = some part ∧
      s.heldBefore s.nextId m.srcPkg m.slot m.stream = false ∧
      ∃ gid, ∃ g, s.seatHolder part (seatNameOf m.seat) = .live gid ∧
      s.group gid = some g ∧
      g.width ≤ 64 ∧
      seatReg m.seat + deliveryLen m.v1 ≤ g.vAlloc ∧
      g.residency ≠ .swapped) ∧
    (∃ (s : State) (m : DeliveryMsg) (out : Option Nat → State → State), (out = (fun c t => { t with
      nextId := t.nextId + 1, sent := smapInsert t.sent t.nextId { pkg := m.srcPkg, slot := m.slot, stream := m.stream, msg := .reply c [] } })) ∧
      ∃ did, ∃ part, ∃ (i : Instr), tabGet s.deliveries did = some { part := part, msg := m } ∧
      (i = .registerDelivery (.waiting did) ∨ i = .deliveryBounce did) ∧
      s.heldBefore did m.srcPkg m.slot m.stream = true) ∧
    (∃ (s : State) (m : DeliveryMsg) (out : Option Nat → State → State), (out = (fun c t => { t with
      nextId := t.nextId + 1, sent := smapInsert t.sent t.nextId { pkg := m.srcPkg, slot := m.slot, stream := m.stream, msg := .reply c [] } })) ∧
      ∃ did, ∃ part, ∃ (i : Instr), tabGet s.deliveries did = some { part := part, msg := m } ∧
      (i = .registerDelivery (.waiting did) ∨ i = .deliveryBounce did) ∧
      s.heldBefore did m.srcPkg m.slot m.stream = false ∧
      s.seatHolder part (seatNameOf m.seat) = .stale) ∧
    (∃ (s : State) (m : DeliveryMsg) (out : Option Nat → State → State), (out = (fun c t => { t with
      nextId := t.nextId + 1, sent := smapInsert t.sent t.nextId { pkg := m.srcPkg, slot := m.slot, stream := m.stream, msg := .reply c [] } })) ∧
      ∃ did, ∃ part, ∃ (i : Instr), tabGet s.deliveries did = some { part := part, msg := m } ∧
      (i = .registerDelivery (.waiting did) ∨ i = .deliveryBounce did) ∧
      s.heldBefore did m.srcPkg m.slot m.stream = false ∧
      s.seatHolder part (seatNameOf m.seat) = .moving) ∧
    (∃ (s : State) (m : DeliveryMsg) (out : Option Nat → State → State), (out = (fun c t => { t with
      nextId := t.nextId + 1, sent := smapInsert t.sent t.nextId { pkg := m.srcPkg, slot := m.slot, stream := m.stream, msg := .reply c [] } })) ∧
      ∃ did, ∃ part, ∃ (i : Instr), tabGet s.deliveries did = some { part := part, msg := m } ∧
      (i = .registerDelivery (.waiting did) ∨ i = .deliveryBounce did) ∧
      s.heldBefore did m.srcPkg m.slot m.stream = false ∧
      ∃ gid, ∃ g, s.seatHolder part (seatNameOf m.seat) = .live gid ∧
      s.group gid = some g ∧
      g.width ≤ 64 ∧
      g.vAlloc < seatReg m.seat + deliveryLen m.v1) ∧
    (∃ (s : State) (m : DeliveryMsg) (out : Option Nat → State → State), (out = (fun c t => { t with
      nextId := t.nextId + 1, sent := smapInsert t.sent t.nextId { pkg := m.srcPkg, slot := m.slot, stream := m.stream, msg := .reply c [] } })) ∧
      ∃ did, ∃ part, ∃ (i : Instr), tabGet s.deliveries did = some { part := part, msg := m } ∧
      (i = .registerDelivery (.waiting did) ∨ i = .deliveryBounce did) ∧
      s.heldBefore did m.srcPkg m.slot m.stream = false ∧
      ∃ gid, ∃ g, s.seatHolder part (seatNameOf m.seat) = .live gid ∧
      s.group gid = some g ∧
      g.width ≤ 64 ∧
      seatReg m.seat + deliveryLen m.v1 ≤ g.vAlloc ∧
      g.residency ≠ .swapped) ∧
    (∃ (s : State) (a : Arrival) (k : Nat) (h : HeldArrival) (out : Option Nat → State → State), (s.arrivals.find? (fun e => decide (e.2.arr = a)) = some (k, h)) ∧
      (out = (fun c t => match h.sender with
      | some x => { t with
          nextId := t.nextId + 1, arrivals := smapErase s.arrivals k,
          sent := smapInsert t.sent t.nextId { pkg := x.1, slot := x.2.1, stream := x.2.2, msg := .reply c [] } }
      | none => { t with arrivals := smapErase s.arrivals k })) ∧
      (∃ x, h.sender = some x ∧ s.heldBefore k x.1 x.2.1 x.2.2 = true)) :=
  ⟨⟨seatState 1 { group with vAlloc := 64 },
    delivery 127,
    _,
    rfl,
    0,
    by decide,
    rfl,
    by decide,
    0,
    { group with vAlloc := 64 },
    rfl,
    rfl,
    by decide,
    by decide⟩,
  ⟨seatState 1 group,
    delivery 4,
    _,
    rfl,
    0,
    by decide,
    rfl,
    by decide,
    0,
    group,
    rfl,
    rfl,
    by decide,
    by decide,
    by decide⟩,
  ⟨{ seatState 4 group with deliveries := [(3, { part := 0, msg := delivery 4 })], foreign := [(2, waiting false [])] },
    delivery 4,
    _,
    rfl,
    3,
    0,
    .deliveryBounce 3,
    rfl,
    .inr rfl,
    by decide⟩,
  ⟨{ seatState 0 group with deliveries := [(3, { part := 0, msg := delivery 4 })] },
    delivery 4,
    _,
    rfl,
    3,
    0,
    .deliveryBounce 3,
    rfl,
    .inr rfl,
    by decide,
    rfl⟩,
  ⟨{ seatState 4 group with deliveries := [(3, { part := 0, msg := delivery 4 })] },
    delivery 4,
    _,
    rfl,
    3,
    0,
    .deliveryBounce 3,
    rfl,
    .inr rfl,
    by decide,
    rfl⟩,
  ⟨{ seatState 1 { group with vAlloc := 64 } with deliveries := [(3, { part := 0, msg := delivery 127 })] },
    delivery 127,
    _,
    rfl,
    3,
    0,
    .deliveryBounce 3,
    rfl,
    .inr rfl,
    by decide,
    0,
    { group with vAlloc := 64 },
    rfl,
    rfl,
    by decide,
    by decide⟩,
  ⟨{ seatState 1 group with deliveries := [(3, { part := 0, msg := delivery 4 })] },
    delivery 4,
    _,
    rfl,
    3,
    0,
    .deliveryBounce 3,
    rfl,
    .inr rfl,
    by decide,
    0,
    group,
    rfl,
    rfl,
    by decide,
    by decide,
    by decide⟩,
  ⟨{ seatState 1 group with arrivals := [(6, { part := 0, arr := arrival 0, fail := false, sender := some (2, 0, 0) })], foreign := [(2, waiting false [])] },
    arrival 0,
    _,
    _,
    _,
    rfl,
    rfl,
    ⟨_, rfl, by decide⟩⟩⟩

/-- TransfersAndDeliveries. -/
theorem wit_transfersAndDeliveries_6 :
    (∃ (s : State) (a : Arrival) (k : Nat) (h : HeldArrival) (out : Option Nat → State → State), (s.arrivals.find? (fun e => decide (e.2.arr = a)) = some (k, h)) ∧
      (out = (fun c t => match h.sender with
      | some x => { t with
          nextId := t.nextId + 1, arrivals := smapErase s.arrivals k,
          sent := smapInsert t.sent t.nextId { pkg := x.1, slot := x.2.1, stream := x.2.2, msg := .reply c [] } }
      | none => { t with arrivals := smapErase s.arrivals k })) ∧
      (∀ x, h.sender = some x → s.heldBefore k x.1 x.2.1 x.2.2 = false) ∧
      s.seatHolder h.part a.seat = .stale) ∧
    (∃ (s : State) (a : Arrival) (k : Nat) (h : HeldArrival) (out : Option Nat → State → State), (s.arrivals.find? (fun e => decide (e.2.arr = a)) = some (k, h)) ∧
      (out = (fun c t => match h.sender with
      | some x => { t with
          nextId := t.nextId + 1, arrivals := smapErase s.arrivals k,
          sent := smapInsert t.sent t.nextId { pkg := x.1, slot := x.2.1, stream := x.2.2, msg := .reply c [] } }
      | none => { t with arrivals := smapErase s.arrivals k })) ∧
      (∀ x, h.sender = some x → s.heldBefore k x.1 x.2.1 x.2.2 = false) ∧
      s.seatHolder h.part a.seat = .moving) ∧
    (∃ (s : State) (a : Arrival) (k : Nat) (h : HeldArrival) (out : Option Nat → State → State), (s.arrivals.find? (fun e => decide (e.2.arr = a)) = some (k, h)) ∧
      (out = (fun c t => match h.sender with
      | some x => { t with
          nextId := t.nextId + 1, arrivals := smapErase s.arrivals k,
          sent := smapInsert t.sent t.nextId { pkg := x.1, slot := x.2.1, stream := x.2.2, msg := .reply c [] } }
      | none => { t with arrivals := smapErase s.arrivals k })) ∧
      (∀ x, h.sender = some x → s.heldBefore k x.1 x.2.1 x.2.2 = false) ∧
      ArrivalBeyond s h.part a) ∧
    (∃ (s : State) (a : Arrival) (k : Nat) (h : HeldArrival) (out : Option Nat → State → State), (s.arrivals.find? (fun e => decide (e.2.arr = a)) = some (k, h)) ∧
      (out = (fun c t => match h.sender with
      | some x => { t with
          nextId := t.nextId + 1, arrivals := smapErase s.arrivals k,
          sent := smapInsert t.sent t.nextId { pkg := x.1, slot := x.2.1, stream := x.2.2, msg := .reply c [] } }
      | none => { t with arrivals := smapErase s.arrivals k })) ∧
      (∀ x, h.sender = some x → s.heldBefore k x.1 x.2.1 x.2.2 = false) ∧
      ArrivalFits s h.part a ∧
      h.fail = false) ∧
    (∃ (s : State) (a : Arrival) (k : Nat) (h : HeldArrival) (out : Option Nat → State → State), (s.arrivals.find? (fun e => decide (e.2.arr = a)) = some (k, h)) ∧
      (out = (fun c t => match h.sender with
      | some x => { t with
          nextId := t.nextId + 1, arrivals := smapErase s.arrivals k,
          sent := smapInsert t.sent t.nextId { pkg := x.1, slot := x.2.1, stream := x.2.2, msg := .reply c [] } }
      | none => { t with arrivals := smapErase s.arrivals k })) ∧
      (∀ x, h.sender = some x → s.heldBefore k x.1 x.2.1 x.2.2 = false) ∧
      ∃ p, ∃ gid, ∃ g, ∃ tid, ∃ x, h.fail = true ∧
      a.data = [] ∧
      a.pot = some p ∧
      s.seatHolder h.part a.seat = .live gid ∧
      s.group gid = some g ∧
      g.team = some tid ∧
      s.team tid = some x ∧
      p + 16 ≤ x.winLen) :=
  ⟨⟨{ seatState 0 group with arrivals := [(6, { part := 0, arr := arrival 0, fail := false, sender := none })] },
    arrival 0,
    _,
    _,
    _,
    rfl,
    rfl,
    by decide,
    rfl⟩,
  ⟨{ seatState 4 group with arrivals := [(6, { part := 0, arr := arrival 0, fail := false, sender := none })] },
    arrival 0,
    _,
    _,
    _,
    rfl,
    rfl,
    by decide,
    rfl⟩,
  ⟨{ seatState 1 group with arrivals := [(6, { part := 0, arr := arrival 4096, fail := false, sender := none })] },
    arrival 4096,
    _,
    _,
    _,
    rfl,
    rfl,
    by decide,
    ⟨0, group, 1, team, rfl, rfl, rfl, rfl, .inl ⟨by decide, by decide⟩⟩⟩,
  ⟨{ seatState 1 group with arrivals := [(6, { part := 0, arr := arrival 0, fail := false, sender := none })] },
    arrival 0,
    _,
    _,
    _,
    rfl,
    rfl,
    by decide,
    .inl ⟨0, group, 1, team, rfl, rfl, rfl, rfl, fun _ => by decide, nofun⟩,
    by decide⟩,
  ⟨{ seatState 1 group with arrivals := [(6, { part := 0, arr := { arrival 0 with data := [], pot := some 0x40 }, fail := true, sender := none })] },
    { arrival 0 with data := [], pot := some 0x40 },
    _,
    _,
    _,
    rfl,
    rfl,
    nofun,
    _,
    0,
    group,
    1,
    team,
    by decide,
    rfl,
    rfl,
    rfl,
    rfl,
    rfl,
    rfl,
    by decide⟩⟩

/-- LinksAndPlanes. -/
theorem wit_linksAndPlanes_1 :
    (∃ (s : State), s.clock < s.pkg.lastBeatSent + 13000) ∧
    (∃ (s : State), s.pkg.lastBeatSent + 13000 ≤ s.clock) ∧
    (∃ (s : State) (pkg : Nat) (plane : Nat), plane < 8) ∧
    (∃ (s : State) (pkg : Nat), ((∀ e ∈ s.parts, ∀ r ∈ e.2.ranks, ¬(r.2.valid = true ∧ r.2.failed = false ∧ r.2.pkg = pkg)) ∨ ∃ p < 8, ¬Silent s pkg p)) ∧
    (∃ (s : State) (pkg : Nat), (∃ e ∈ s.parts, ∃ r ∈ e.2.ranks, r.2.valid = true ∧ r.2.failed = false ∧ r.2.pkg = pkg) ∧
      (∀ p < 8, Silent s pkg p)) ∧
    (∃ (s : State) (rid : Nat) (q : FabReq), tabGet s.fabric rid = some q ∧
      (q.left = false ∨ q.performed = true ∨ q.pkg = s.pkg.number)) ∧
    (∃ (s : State) (rid : Nat) (q : FabReq), tabGet s.fabric rid = some q ∧
      q.left = true ∧
      q.performed = false ∧
      q.pkg ≠ s.pkg.number) ∧
    (∃ (s : State) (pkg : Nat) (plane : Nat), (¬Silent s pkg plane ∨ (pkg, plane) ∈ s.pkg.deadPlanes ∨ ∀ p < 8, tabGet s.pkg.lastBeat (8 * pkg + p) = none ∨ Silent s pkg p)) :=
  ⟨⟨at_ group,
    by decide⟩,
  ⟨{ at_ group with clock := 13000 },
    by decide⟩,
  ⟨at_ group,
    2,
    3,
    by decide⟩,
  ⟨at_ group,
    2,
    .inl (by decide)⟩,
  ⟨{ placed { part with ranks := [(0, { valid := true, failed := false, pkg := 2 })] } group with clock := 65000, pkg := { Pkg.reset with lastBeat := (List.range 8).map fun p => (16 + p, 0) } },
    2,
    ⟨_, List.mem_singleton.mpr rfl, _, List.mem_singleton.mpr rfl, rfl, rfl, rfl⟩,
    (fun p hp => ⟨0, by revert p; decide, by decide⟩)⟩,
  ⟨requesting paged 0x4B ({ reqOf (.rld false) 0 with left := false }),
    9,
    { reqOf (.rld false) 0 with left := false },
    rfl,
    .inl rfl⟩,
  ⟨requesting paged 0x4B ({ reqOf (.rld false) 0 with pkg := 3 }),
    9,
    { reqOf (.rld false) 0 with pkg := 3 },
    rfl,
    by decide,
    by decide,
    by decide⟩,
  ⟨at_ group,
    2,
    0,
    .inl fun h => by obtain ⟨c, h, _⟩ := h; cases h⟩⟩

/-- LinksAndPlanes. -/
theorem wit_linksAndPlanes_2 :
    (∃ (s : State) (pkg : Nat) (plane : Nat), Silent s pkg plane ∧
      (pkg, plane) ∉ s.pkg.deadPlanes ∧
      (∃ p < 8, tabGet s.pkg.lastBeat (8 * pkg + p) ≠ none ∧ ¬Silent s pkg p)) ∧
    (∃ (s : State) (plane : Nat), plane < 8 ∧
      (1024, plane) ∈ s.pkg.deadPlanes) ∧
    (∃ (s : State) (plane : Nat), plane < 8 ∧
      (1024, plane) ∉ s.pkg.deadPlanes) ∧
    (∃ (s : State) (pkg : Nat) (plane : Nat) (k : Pkg), (k = { s.pkg with draining := s.pkg.draining.filter fun d => decide (d ≠ (pkg, plane)) })) :=
  ⟨⟨{ at_ group with clock := 65000, pkg := { Pkg.reset with lastBeat := [(16, 0), (17, 65000)] } },
    2,
    0,
    ⟨0, by decide, by decide⟩,
    by decide,
    ⟨1, by decide, by decide, fun h => by obtain ⟨c, h, h2⟩ := h; cases h; exact absurd h2 (by decide)⟩⟩,
  ⟨withPkg { Pkg.reset with deadPlanes := [(1024, 3)] },
    3,
    by decide,
    by decide⟩,
  ⟨at_ group,
    3,
    by decide,
    by decide⟩,
  ⟨at_ group,
    2,
    3,
    _,
    rfl⟩⟩

/-- PackageUnits. -/
theorem wit_packageUnits_1 :
    (∃ (s : State), (s.pkg.powered = false ∨ s.pkg.flash.length ≤ s.pkg.flashAt)) ∧
    (∃ (s : State) (n : Nat) (r : Nat) (v : Nat) (im : List Byte), s.pkg.powered = true ∧
      s.pkg.flash[s.pkg.flashAt]? = some (n, im, r, v) ∧
      (ecdsaVerify s.pkg.bootKey im (r, v) = false ∨ ¬(n = 1 ∨ s.pkg.readyAt (3, 3) = true ∧ (n = 2 ∨ n = 3)))) ∧
    (∃ (s : State) (n : Nat) (r : Nat) (v : Nat) (im : List Byte), s.pkg.powered = true ∧
      s.pkg.flash[s.pkg.flashAt]? = some (n, im, r, v) ∧
      ecdsaVerify s.pkg.bootKey im (r, v) = true ∧
      (n = 1 ∨ s.pkg.readyAt (3, 3) = true ∧ (n = 2 ∨ n = 3))) ∧
    (∃ (s : State) (u : PkgUnit), UnitExists u ∧
      (s.pkg.powered = false ∨ s.pkg.readyAt (3, 3) = false)) ∧
    (∃ (s : State) (u : PkgUnit), UnitExists u ∧
      s.pkg.powered = true ∧
      s.pkg.readyAt (3, 3) = true) ∧
    (∃ (s : State) (u : PkgUnit), UnitExists u ∧
      s.pkg.readyAt (readyBit u) = false) ∧
    (∃ (s : State) (u : PkgUnit), UnitExists u ∧
      s.pkg.readyAt (readyBit u) = true) ∧
    (∃ (s : State), ∃ core, ∃ off, core < 768 ∧
      off < 2 ^ 19) :=
  ⟨⟨at_ group,
    .inl rfl⟩,
  ⟨withPkg { Pkg.reset with powered := true, bootKey := imageKey, flash := [(2, [0], imageDigest, imageDigest)] },
    2,
    imageDigest,
    imageDigest,
    [0],
    by decide,
    rfl,
    .inr (by decide)⟩,
  ⟨withPkg { Pkg.reset with powered := true, bootKey := imageKey, flash := [(1, [0], imageDigest, imageDigest)] },
    1,
    imageDigest,
    imageDigest,
    [0],
    by decide,
    rfl,
    by decide +kernel,
    .inl rfl⟩,
  ⟨at_ group,
    .cluster 3,
    by unfold UnitExists; decide,
    .inl rfl⟩,
  ⟨withPkg { Pkg.reset with powered := true, readyX := 8 },
    .cluster 3,
    by unfold UnitExists; decide,
    by decide,
    by decide⟩,
  ⟨at_ group,
    .cluster 3,
    by unfold UnitExists; decide,
    by decide⟩,
  ⟨withPkg { Pkg.reset with readyC := 8 },
    .cluster 3,
    by unfold UnitExists; decide,
    by decide⟩,
  ⟨at_ group,
    0,
    0,
    by decide,
    by decide⟩⟩

/-- PackageUnits. -/
theorem wit_packageUnits_2 :
    (∃ (s : State), ∃ gid, ∃ r, ∃ g, s.group gid = some g ∧
      r < g.vAlloc) ∧
    (∃ (s : State), ∃ gid, ∃ r, ∃ g, s.group gid = some g ∧
      (r < g.sAlloc ∨ r = 62)) ∧
    (∃ (s : State), ∃ gid, ∃ r, ∃ g, s.group gid = some g ∧
      r < 7) ∧
    (∃ (s : State), ∃ gid, ∃ t, ∃ row, ∃ g, s.group gid = some g ∧
      t < g.tAlloc ∧
      row < 16) ∧
    (∃ (s : State), ∃ gid, ∃ a, ∃ (res : Bool), ∃ row, ∃ g, s.group gid = some g ∧
      a < g.aAlloc ∧
      row < 16) ∧
    (∃ (s : State) (n : Nat) (i : Island), i = s.island n ∧
      n < 128 ∧
      (24 ≤ n % 32 ∨ 3 ≤ i.point)) ∧
    (∃ (s : State) (n : Nat) (i : Island), i = s.island n ∧
      n < 128 ∧
      n % 32 < 24 ∧
      i.point < 3) ∧
    (∃ (s : State) (n : Nat) (i : Island), i = s.island n ∧
      n < 128 ∧
      (i.throttle = 0 ∨ i.point ≤ i.req)) :=
  ⟨⟨at_ group,
    0,
    0,
    group,
    rfl,
    by decide⟩,
  ⟨at_ group,
    0,
    0,
    group,
    rfl,
    by decide⟩,
  ⟨at_ group,
    0,
    0,
    group,
    rfl,
    by decide⟩,
  ⟨at_ group,
    0,
    15,
    15,
    group,
    rfl,
    by decide,
    by decide⟩,
  ⟨at_ group,
    0,
    7,
    false,
    15,
    group,
    rfl,
    by decide,
    by decide⟩,
  ⟨at_ group,
    24,
    _,
    rfl,
    by decide,
    by decide⟩,
  ⟨at_ group,
    0,
    _,
    rfl,
    by decide,
    by decide,
    by decide⟩,
  ⟨at_ group,
    0,
    _,
    rfl,
    by decide,
    .inl rfl⟩⟩

/-- PackageUnits. -/
theorem wit_packageUnits_3 :
    (∃ (s : State) (n : Nat) (i : Island), i = s.island n ∧
      n < 128 ∧
      i.throttle ≠ 0 ∧
      i.req < i.point) ∧
    (∃ (s : State) (n : Nat) (i : Island), i = s.island n ∧
      n < 128 ∧
      i.point = max i.req i.throttle) ∧
    (∃ (s : State) (n : Nat) (i : Island), i = s.island n ∧
      n < 128 ∧
      i.point ≠ max i.req i.throttle ∧
      max i.req i.throttle ≠ 7) ∧
    (∃ (s : State) (n : Nat) (i : Island), i = s.island n ∧
      n < 128 ∧
      i.point ≠ 7 ∧
      max i.req i.throttle = 7 ∧
      n % 32 < 24) ∧
    (∃ (s : State) (n : Nat) (base : Nat) (size : Nat), n < 8 ∧
      base % 2 ^ 29 = 0 ∧
      size % 2 ^ 29 = 0 ∧
      base < 2 ^ 52 ∧
      size < 2 ^ 52 ∧
      (size ≠ 0 → 0x1000000000000 ≤ base ∧ base + size ≤ 0x8000000000000) ∧
      (∀ w ∈ s.pkg.windows, w.1 ≠ n → Apart base size w.2.1 w.2.2 ∨ size = 0 ∨ w.2.2 = 0) ∧
      (∀ u, (s.window n).1 / 2 ^ 29 ≤ u → u < (s.window n).1 / 2 ^ 29 + (s.window n).2 / 2 ^ 29 →
        (base ≤ 2 ^ 29 * u ∧ 2 ^ 29 * u < base + size) ∨ ∀ e ∈ s.parts, e.2.live = true → e.2.owns (2 ^ 29 * u) = false)) ∧
    (∃ (s : State) (n : Nat) (base : Nat) (size : Nat), (8 ≤ n ∨ base % 2 ^ 29 ≠ 0 ∨ size % 2 ^ 29 ≠ 0 ∨ 2 ^ 52 ≤ base ∨ 2 ^ 52 ≤ size ∨ (size ≠ 0 ∧ (base < 0x1000000000000 ∨ 0x8000000000000 < base + size)))) ∧
    (∃ (s : State) (id : Nat) (part : Nat) (req : List Byte) (secret : List Byte), s.pkg.readyAt (3, 3) = false) ∧
    (∃ (s : State) (id : Nat) (part : Nat) (req : List Byte) (secret : List Byte), 16 ≤ part) :=
  ⟨⟨withPkg { Pkg.reset with islands := [(0, { req := 0, point := 2, throttle := 1 })] },
    0,
    _,
    rfl,
    by decide,
    by decide,
    by decide⟩,
  ⟨at_ group,
    0,
    _,
    rfl,
    by decide,
    by decide⟩,
  ⟨withPkg { Pkg.reset with islands := [(0, { req := 1, point := 2, throttle := 0 })] },
    0,
    _,
    rfl,
    by decide,
    by decide,
    by decide⟩,
  ⟨withPkg { Pkg.reset with islands := [(0, { req := 7, point := 0, throttle := 0 })] },
    0,
    _,
    rfl,
    by decide,
    by decide,
    by decide,
    by decide⟩,
  ⟨at_ group,
    0,
    0,
    0,
    by decide,
    by decide,
    by decide,
    by decide,
    by decide,
    (fun h => absurd rfl h),
    (fun _ h => absurd h List.not_mem_nil),
    (fun u _ (h : u < 0) => absurd h (Nat.not_lt_zero u))⟩,
  ⟨at_ group,
    8,
    0,
    0,
    .inl (by decide)⟩,
  ⟨at_ group,
    3,
    0,
    [],
    [],
    by decide⟩,
  ⟨at_ group,
    3,
    16,
    [],
    [],
    by decide⟩⟩

/-- PackageUnits. -/
theorem wit_packageUnits_4 :
    (∃ (s : State) (id : Nat) (part : Nat) (req : List Byte) (secret : List Byte), s.pkg.readyAt (3, 3) = true) ∧
    (∃ (s : State) (id : Nat) (part : Nat) (req : List Byte) (secret : List Byte), s.pkg.readyAt (3, 3) = true ∧
      part < 16) :=
  ⟨⟨withPkg { Pkg.reset with powered := true, readyX := 8 },
    3,
    0,
    [],
    [],
    by decide⟩,
  ⟨withPkg { Pkg.reset with powered := true, readyX := 8 },
    3,
    0,
    [],
    [],
    by decide,
    by decide⟩⟩

/-- CheckpointsAndPorts. -/
theorem wit_checkpointsAndPorts_1 :
    (∃ (s : State) (part : Nat) (x : Part), s.part part = some x ∧
      Memory.wf s.mem = true ∧
      (x.ckpt.go = false ∨ x.ckpt.restore = true ∨ x.ckpt.stage ≠ 1)) ∧
    (∃ (s : State) (part : Nat) (x : Part), s.part part = some x ∧
      Memory.wf s.mem = true ∧
      x.ckpt.go = true ∧
      x.ckpt.restore = false ∧
      x.ckpt.stage = 1 ∧
      s.NoReplicas) ∧
    (∃ (s : State) (part : Nat) (x : Part), s.part part = some x ∧
      Memory.wf s.mem = true ∧
      (x.ckpt.go = false ∨ x.ckpt.restore = false ∨ x.ckpt.stage ≠ 1)) ∧
    (∃ (s : State) (part : Nat) (x : Part), s.part part = some x ∧
      Memory.wf s.mem = true ∧
      x.ckpt.go = true ∧
      x.ckpt.restore = true ∧
      x.ckpt.stage = 1 ∧
      ((∃ e ∈ s.teams, e.2.part = part ∧ (e.2.state = .queued ∨ e.2.state = .resident ∨ e.2.state = .preempted)) ∨
          ∃ e ∈ s.grids, e.2.part = part ∧ e.2.complete = false)) ∧
    (∃ (s : State) (part : Nat) (x : Part), s.part part = some x ∧
      Memory.wf s.mem = true ∧
      x.ckpt.go = true ∧
      x.ckpt.restore = true ∧
      x.ckpt.stage = 1 ∧
      (∀ e ∈ s.teams, e.2.part = part → e.2.state = .held ∨ e.2.state = .retired) ∧
      (∀ e ∈ s.grids, e.2.part = part → e.2.complete = true) ∧
      (∃ e ∈ s.dir, 128 * e.1 < 2 ^ 40 ∧ x.owns (128 * e.1) = true ∧ s.transHeld e.1 = true ∧ s.walkInUse 0 e.1 = true)) ∧
    (∃ (s : State) (part : Nat) (x : Part), s.part part = some x ∧
      Memory.wf s.mem = true ∧
      x.ckpt.go = true ∧
      x.ckpt.restore = true ∧
      x.ckpt.stage = 1 ∧
      (∀ e ∈ s.teams, e.2.part = part → e.2.state = .held ∨ e.2.state = .retired) ∧
      (∀ e ∈ s.grids, e.2.part = part → e.2.complete = true) ∧
      (∀ e ∈ s.dir, 128 * e.1 < 2 ^ 40 → x.owns (128 * e.1) = true → s.transHeld e.1 = true → s.walkInUse 0 e.1 = false) ∧
      s.NoReplicas) ∧
    (∃ (s : State) (part : Nat) (x : Part) (err : Bool), s.part part = some x ∧
      (x.ckpt.go = false ∨ x.ckpt.stage ≠ 2)) ∧
    (∃ (s : State) (part : Nat) (x : Part) (err : Bool), s.part part = some x ∧
      x.ckpt.go = true ∧
      x.ckpt.stage = 2) :=
  ⟨⟨placed (part) group,
    0,
    part,
    rfl,
    by decide,
    by decide⟩,
  ⟨placed (ckpt true false 1) group,
    0,
    ckpt true false 1,
    rfl,
    by decide,
    by decide,
    by decide,
    by decide,
    nofun⟩,
  ⟨placed (part) group,
    0,
    part,
    rfl,
    by decide,
    by decide⟩,
  ⟨placed (ckpt false true 1) group,
    0,
    ckpt false true 1,
    rfl,
    by decide,
    by decide,
    by decide,
    by decide,
    .inl ⟨_, List.mem_singleton.mpr rfl, rfl, by decide⟩⟩,
  ⟨{ placed (ckpt false true 1) group with teams := [], dir := [(7, { holders := [.coreTlb 0], l1 := [], arriving := [], invals := [] })], copies := [(5, { copyRec .cpy 0 with walked := [7] })] },
    0,
    ckpt false true 1,
    rfl,
    by decide,
    by decide,
    by decide,
    by decide,
    by decide,
    by decide,
    ⟨_, List.mem_singleton.mpr rfl, by decide, by decide, by decide, by decide⟩⟩,
  ⟨{ placed (ckpt false true 1) group with teams := [] },
    0,
    ckpt false true 1,
    rfl,
    by decide,
    by decide,
    by decide,
    by decide,
    by decide,
    by decide,
    by decide,
    nofun⟩,
  ⟨placed (part) group,
    0,
    part,
    false,
    rfl,
    by decide⟩,
  ⟨placed (ckpt true false 2) group,
    0,
    ckpt true false 2,
    false,
    rfl,
    by decide,
    by decide⟩⟩

/-- CheckpointsAndPorts. -/
theorem wit_checkpointsAndPorts_2 :
    (∃ (s : State) (part : Nat) (row : PartRow), ∃ n, ∃ y, s.part n = some y ∧
      n ≠ part ∧
      y.live = true ∧
      row.live = true ∧
      (row.clust &&& y.clust ≠ 0 ∨ row.region &&& y.region ≠ 0 ∨ row.eth &&& y.eth ≠ 0 ∨ (row.domain ≠ 0 ∧ row.domain = y.domain))) ∧
    (∃ (s : State) (part : Nat) (row : PartRow), ∃ n, s.rowAllowed part row = true ∧
      (s.part part = none ∧ n = 1 ∨ ∃ x, s.part part = some x ∧ x.live = false ∧ row.live = true ∧ n = x.changes.toNat + 1)) ∧
    (∃ (s : State) (part : Nat) (row : PartRow), ∃ x, s.rowAllowed part row = true ∧
      s.part part = some x ∧
      x.live = true ∧
      row.live = true) ∧
    (∃ (s : State) (part : Nat) (row : PartRow), ∃ x, s.rowAllowed part row = true ∧
      s.part part = some x ∧
      x.live = true ∧
      row.live = false) ∧
    (∃ (s : State) (port : Nat) (f : EthFrame), s.portOwner port = none) ∧
    (∃ (s : State) (port : Nat) (part : Nat) (x : Part) (h : QueueHeader) (hdr : Nat) (len : Nat) (pa : Nat → Nat) (p : Place) (bs : List Byte), s.portOwner port = some (part, x) ∧
      hdr = (x.ethTx.getD port 0).toNat ∧
      hdr ≠ 0 ∧
      s.queueHeader part hdr = some h ∧
      (h.write + 2 ^ 32 - h.read) % 2 ^ 32 < 16) ∧
    (∃ (s : State) (port : Nat) (part : Nat) (x : Part) (h : QueueHeader) (hdr : Nat) (len : Nat) (pa : Nat → Nat) (p : Place) (bs : List Byte), s.portOwner port = some (part, x) ∧
      hdr = (x.ethTx.getD port 0).toNat ∧
      hdr ≠ 0 ∧
      s.queueHeader part hdr = some h ∧
      queueOk h.base h.size 0 16 = true ∧
      UnitPlaces s part h h.read ((len + 15) / 16 + 1) .read pa ∧
      s.NoReplicas ∧
      len = ofBytes (s.bytes (pa 0) 2) ∧
      16 * ((len + 15) / 16 + 1) ≤ (h.write + 2 ^ 32 - h.read) % 2 ^ 32 ∧
      s.portPlace part (hdr + 0x10) 4 .write = some p ∧
      Marked s p ∧
      (bs = ((List.range ((len + 15) / 16)).flatMap fun i => s.bytes (pa (i + 1)) 16).take len)) ∧
    (∃ (s : State) (port : Nat) (part : Nat) (x : Part) (f : EthFrame) (h : QueueHeader) (hdr : Nat) (n : Nat) (pa : Nat → Nat) (bs : List Byte), s.portOwner port = some (part, x) ∧
      hdr = (x.ethRx.getD port 0).toNat ∧
      (f.fcsOk = false ∨ 9216 < f.data.length ∨ (port, f.dest, f.vlan) ∉ x.ethAddr ∨ hdr = 0)) :=
  ⟨⟨{ at_ group with parts := [(1, part)] },
    0,
    placedRow,
    1,
    part,
    rfl,
    by decide,
    by decide,
    by decide,
    .inl (by decide)⟩,
  ⟨State.reset,
    0,
    placedRow,
    1,
    by decide,
    .inl ⟨by decide, rfl⟩⟩,
  ⟨at_ group,
    0,
    placedRow,
    part,
    by decide,
    rfl,
    by decide,
    by decide⟩,
  ⟨{ at_ group with teams := [] },
    0,
    { placedRow with live := false },
    part,
    by decide,
    rfl,
    by decide,
    by decide⟩,
  ⟨at_ group,
    0,
    frame,
    rfl⟩,
  ⟨portState 0,
    0,
    0,
    ported,
    _,
    _,
    0,
    fun i => 0x40000 + 16 * i,
    .spad 0,
    [],
    rfl,
    rfl,
    by decide,
    rfl,
    by decide⟩,
  ⟨portState 32,
    0,
    0,
    ported,
    _,
    _,
    _,
    fun i => 0x40000 + 16 * i,
    _,
    _,
    rfl,
    rfl,
    by decide,
    rfl,
    by decide,
    ⟨fun i hi => by match i, hi with | 0, _ => exact ⟨_, _, _, rfl, nofun⟩ | 1, _ => exact ⟨_, _, _, rfl, nofun⟩, by unfold Apart; decide⟩,
    (fun e (he : e ∈ ([] : List (Nat × PageRec))) => (nomatch he)),
    rfl,
    by decide,
    rfl,
    nofun,
    rfl⟩,
  ⟨portState 0,
    0,
    0,
    ported,
    { frame with fcsOk := false },
    { base := 0, size := 128, write := 0, read := 0, pot := 0x40, seat := 0 },
    _,
    0,
    fun i => 0x40000 + 16 * i,
    [],
    rfl,
    rfl,
    .inl rfl⟩⟩

/-- CheckpointsAndPorts. -/
theorem wit_checkpointsAndPorts_3 :
    (∃ (s : State) (port : Nat) (part : Nat) (x : Part) (f : EthFrame) (h : QueueHeader) (hdr : Nat) (n : Nat) (pa : Nat → Nat) (bs : List Byte), s.portOwner port = some (part, x) ∧
      hdr = (x.ethRx.getD port 0).toNat ∧
      hdr ≠ 0 ∧
      s.queueHeader part hdr = some h ∧
      bs = toBytes 2 f.data.length ++ toBytes 14 0 ++ f.data ++ toBytes ((16 - f.data.length % 16) % 16) 0 ∧
      h.size < (h.write + bs.length + 2 ^ 32 - h.read) % 2 ^ 32) ∧
    (∃ (s : State) (port : Nat) (part : Nat) (x : Part) (f : EthFrame) (h : QueueHeader) (hdr : Nat) (n : Nat) (pa : Nat → Nat) (bs : List Byte), s.portOwner port = some (part, x) ∧
      hdr = (x.ethRx.getD port 0).toNat ∧
      hdr ≠ 0 ∧
      s.queueHeader part hdr = some h ∧
      bs = toBytes 2 f.data.length ++ toBytes 14 0 ++ f.data ++ toBytes ((16 - f.data.length % 16) % 16) 0 ∧
      f.fcsOk = true ∧
      f.data.length ≤ 9216 ∧
      (port, f.dest, f.vlan) ∈ x.ethAddr ∧
      queueOk h.base h.size h.pot bs.length = true ∧
      (h.write + bs.length + 2 ^ 32 - h.read) % 2 ^ 32 ≤ h.size ∧
      n = bs.length / 16 ∧
      UnitPlaces s part h h.write n .write pa ∧
      s.NoReplicas ∧
      ∃ hp, ∃ kind, ∃ e, ∃ ls, s.portPlace part (hdr + 0x0C) 4 .write = some (.phys hp kind none e ls) ∧
      Marked s (.phys hp kind none e ls) ∧
      (∀ i < n, Apart (pa i) 16 hp 4) ∧
      (∀ i < n, ∀ j ≤ n, ∀ q, (if j = n then s.portPlace part (hdr + 0x0C) 4 .write
          else s.portPlace part (h.base + (h.write + 16 * j) % h.size) 16 .write) = some q → ∀ c, q.entryAt = some c →
          Apart (pa i) 16 c 8)) ∧
    (∃ (s : State) (part : Nat) (n : Nat) (h : QueueHeader) (a : Arrival), a = { seat := h.seat, off := 0, data := [], pot := some h.pot, credit := n } ∧
      seatPkg h.seat ≠ s.pkg.number) ∧
    (∃ (s : State) (part : Nat) (n : Nat) (h : QueueHeader) (a : Arrival), a = { seat := h.seat, off := 0, data := [], pot := some h.pot, credit := n } ∧
      seatPkg h.seat = s.pkg.number ∧
      ArrivalFits s part a) ∧
    (∃ (s : State) (part : Nat) (n : Nat) (h : QueueHeader) (a : Arrival), a = { seat := h.seat, off := 0, data := [], pot := some h.pot, credit := n } ∧
      seatPkg h.seat = s.pkg.number ∧
      s.seatHolder part h.seat = .moving) :=
  ⟨⟨portState 112,
    0,
    0,
    ported,
    frame,
    _,
    _,
    0,
    fun i => 0x40000 + 16 * i,
    _,
    rfl,
    rfl,
    by decide,
    rfl,
    rfl,
    by decide⟩,
  ⟨portState 0,
    0,
    0,
    ported,
    frame,
    _,
    _,
    2,
    fun i => 0x40000 + 16 * i,
    _,
    rfl,
    rfl,
    by decide,
    rfl,
    rfl,
    by decide,
    by decide,
    by decide,
    by decide,
    by decide,
    rfl,
    ⟨fun i hi => by match i, hi with | 0, _ => exact ⟨_, _, _, rfl, nofun⟩ | 1, _ => exact ⟨_, _, _, rfl, nofun⟩, by unfold Apart; decide⟩,
    (fun e (he : e ∈ ([] : List (Nat × PageRec))) => (nomatch he)),
    _,
    _,
    _,
    _,
    rfl,
    nofun,
    by unfold Apart; decide,
    (fun i hi j hj q h c hc => by
      obtain rfl | rfl | rfl : j = 0 ∨ j = 1 ∨ j = 2 := by omega
      all_goals (cases h; cases hc))⟩,
  ⟨seatState 1 group,
    0,
    4,
    { base := 0, size := 128, write := 0, read := 0, pot := 0x40, seat := 0x4000000001 },
    _,
    rfl,
    by decide⟩,
  ⟨seatState 1 group,
    0,
    4,
    { base := 0, size := 128, write := 0, read := 0, pot := 0x40, seat := 1 },
    _,
    rfl,
    rfl,
    .inl ⟨0, group, 1, team, rfl, rfl, rfl, rfl, nofun, fun p hp => by cases hp; decide⟩⟩,
  ⟨seatState 4 group,
    0,
    4,
    { base := 0, size := 128, write := 0, read := 0, pot := 0x40, seat := 1 },
    _,
    rfl,
    rfl,
    rfl⟩⟩

/-- Traps. -/
theorem wit_traps_1 :
    (∃ (i : Instr), Privileged i ∧
      ∃ (s : State) (gid : Nat) (g : Group) (p : Split), Ready s gid g p ∧
      ∃ (x : Part), Outside s g x ∧
      g.team ≠ none) ∧
    (∃ e, e ∈ elementOps ∧
      ∃ (s : State) (gid : Nat) (g : Group) (p : Split) (f : V3), Ready s gid g p ∧
      f.px = none ∧
      ¬g.HasV [f.vd.toNat, f.va.toNat, f.vb.toNat] ∧
      ∃ (x : Part), Outside s g x) ∧
    (∃ e, e ∈ elementOps ∧
      ∃ (s : State) (gid : Nat) (g : Group) (p : Split) (f : V3), Ready s gid g p ∧
      f.px = none ∧
      ¬g.HasV [f.vd.toNat, f.va.toNat, f.vb.toNat] ∧
      g.handler ≠ none) ∧
    (∃ e, e ∈ elementOps ∧
      ∃ (s : State) (gid : Nat) (g : Group) (p : Split) (f : V3), Ready s gid g p ∧
      (pxRnd f.px ≠ 0 ∨ pxXw f.px ≠ 0) ∧
      ∃ (x : Part), Outside s g x) ∧
    (∃ e, e ∈ elementOps ∧
      ∃ (s : State) (gid : Nat) (g : Group) (p : Split) (f : V3), Ready s gid g p ∧
      (pxRnd f.px ≠ 0 ∨ pxXw f.px ≠ 0) ∧
      g.handler ≠ none) ∧
    (∃ e, e ∈ uniformOps ∧
      ∃ (s : State) (gid : Nat) (g : Group) (p : Split) (f : S3), Ready s gid g p ∧
      ¬g.HasS [f.sd.toNat, f.sa.toNat] ∧
      ∃ (x : Part), Outside s g x) ∧
    (∃ e, e ∈ uniformOps ∧
      ∃ (s : State) (gid : Nat) (g : Group) (p : Split) (f : S3), Ready s gid g p ∧
      ¬g.HasS [f.sd.toNat, f.sa.toNat] ∧
      g.handler ≠ none) ∧
    (∃ e, e ∈ sfuOps ∧
      ∃ (s : State) (gid : Nat) (g : Group) (p : Split) (f : Sfu), Ready s gid g p ∧
      ∃ (x : Part), Outside s g x ∧
      f.px = none ∧
      g.role ≠ .vector) :=
  ⟨⟨.ovtld { sa := 4, st := 0 },
    trivial,
    at_ group,
    0,
    group,
    split,
    mkReady part rfl rfl rfl rfl ⟨rfl, rfl, rfl, rfl⟩ rfl (by decide) rfl (by decide),
    part,
    ⟨rfl, rfl⟩,
    by decide⟩,
  ⟨elementOps[0],
    List.getElem_mem _,
    at_ { group with vAlloc := 0 },
    0,
    { group with vAlloc := 0 },
    split,
    { vd := 4, va := 8, vb := 12, st := 0, px := none },
    mkReady part rfl rfl rfl rfl ⟨rfl, rfl, rfl, rfl⟩ rfl (by decide) rfl (by decide),
    by decide,
    (fun h => absurd (h 4 (by decide)) (by decide)),
    part,
    ⟨rfl, rfl⟩⟩,
  ⟨elementOps[0],
    List.getElem_mem _,
    at_ (handling { group with vAlloc := 0 }),
    0,
    (handling { group with vAlloc := 0 }),
    split,
    { vd := 4, va := 8, vb := 12, st := 0, px := none },
    mkReady part rfl rfl rfl rfl ⟨rfl, rfl, rfl, rfl⟩ rfl (by decide) rfl (by decide),
    by decide,
    (fun h => absurd (h 4 (by decide)) (by decide)),
    by decide⟩,
  ⟨elementOps[0],
    List.getElem_mem _,
    at_ group,
    0,
    group,
    split,
    { vd := 4, va := 8, vb := 12, st := 0, px := some { mask := 7, inv := true, zero := false, rnd := 1, ty := 0, kind4 := 2, op4 := 5, xw := 0 } },
    mkReady part rfl rfl rfl rfl ⟨rfl, rfl, rfl, rfl⟩ rfl (by decide) rfl (by decide),
    by decide,
    part,
    ⟨rfl, rfl⟩⟩,
  ⟨elementOps[0],
    List.getElem_mem _,
    at_ (handling group),
    0,
    (handling group),
    split,
    { vd := 4, va := 8, vb := 12, st := 0, px := some { mask := 7, inv := true, zero := false, rnd := 1, ty := 0, kind4 := 2, op4 := 5, xw := 0 } },
    mkReady part rfl rfl rfl rfl ⟨rfl, rfl, rfl, rfl⟩ rfl (by decide) rfl (by decide),
    by decide,
    by decide⟩,
  ⟨uniformOps[0],
    List.getElem_mem _,
    at_ { group with sAlloc := 0 },
    0,
    { group with sAlloc := 0 },
    split,
    { sd := 4, sa := 8, src := .r 12, st := 0 },
    mkReady part rfl rfl rfl rfl ⟨rfl, rfl, rfl, rfl⟩ rfl (by decide) rfl (by decide),
    (fun h => absurd (h 4 (by decide)) (by decide)),
    part,
    ⟨rfl, rfl⟩⟩,
  ⟨uniformOps[0],
    List.getElem_mem _,
    at_ (handling group),
    0,
    (handling group),
    split,
    { sd := 60, sa := 8, src := .r 12, st := 0 },
    mkReady part rfl rfl rfl rfl ⟨rfl, rfl, rfl, rfl⟩ rfl (by decide) rfl (by decide),
    (fun h => absurd (h 60 (by decide)) (by decide)),
    by decide⟩,
  ⟨sfuOps[0],
    List.getElem_mem _,
    at_ { group with role := .matrix },
    0,
    { group with role := .matrix },
    split,
    { vd := 4, va := 8, st := 0, px := none },
    mkReady part rfl rfl rfl rfl ⟨rfl, rfl, rfl, rfl⟩ rfl (by decide) rfl (by decide),
    part,
    ⟨rfl, rfl⟩,
    by decide,
    by decide⟩⟩

/-- Traps. -/
theorem wit_traps_2 :
    (∃ e, e ∈ roundedOps ∧
      ∃ (s : State) (gid : Nat) (g : Group) (p : Split) (f : V3) (l : Nat) (w : Nat → Word × FFlags), Ready s gid g p ∧
      ∃ (x : Part), Outside s g x ∧
      g.role = .vector ∧
      g.HasV ([f.vd.toNat, f.va.toNat, f.vb.toNat] ++ fourthV f.px 1) ∧
      g.HasS (fourthS f.px) ∧
      g.Rounds f.px ∧
      arithType (g.effType f.px) = true ∧
      (w = (fun i => g.floatWord f.px false e.2.2 (g.randWord f.px i) (g.vreg f.va.toNat i) (g.vreg f.vb.toNat i) 0)) ∧
      l < 64 ∧
      inMask (g.activeMask p.mask (aluMask f.px)) l = true ∧
      (w l).2 &&& BitVec.ofNat 7 g.mFpxe ≠ 0 ∧
      (∀ i < l, inMask (g.activeMask p.mask (aluMask f.px)) i = true → (w i).2 &&& BitVec.ofNat 7 g.mFpxe = 0)) ∧
    (∃ e, e ∈ [(Instr.sldW, 1), (Instr.sldW2, 2), (Instr.sldW4, 4), (Instr.sldW8, 8)] ∧
      ∃ (s : State) (gid : Nat) (g : Group) (p : Split) (f : Smem), Ready s gid g p ∧
      ∃ (x : Part), Outside s g x ∧
      g.ScopeOk f.px (strongAtt f.att) ∧
      NoMask f.px ∧
      g.HasS ([2 * f.k.toNat, 2 * f.k.toNat + 1] ++ upFrom f.sd.toNat e.2) ∧
      g.cnt.c0 < 255 ∧
      ∃ r, ∃ c, checkAddr s (g.agent gid) (g.uniAddr f) (4 * e.2) (4 * e.2) .read = .bad r c ∧
      c ∉ [0x0F, 0x10, 0x17]) ∧
    (∃ e, e ∈ [(Instr.sldW, 1), (Instr.sldW2, 2), (Instr.sldW4, 4), (Instr.sldW8, 8)] ∧
      ∃ (s : State) (gid : Nat) (g : Group) (p : Split) (f : Smem), Ready s gid g p ∧
      ∃ (x : Part), Outside s g x ∧
      g.ScopeOk f.px (strongAtt f.att) ∧
      NoMask f.px ∧
      g.HasS ([2 * f.k.toNat, 2 * f.k.toNat + 1] ++ upFrom f.sd.toNat e.2) ∧
      g.cnt.c0 < 255 ∧
      ∃ pl, checkAddr s (g.agent gid) (g.uniAddr f) (4 * e.2) (4 * e.2) .read = .ok pl ∧
      s.rangeConflict (g.agent gid) { lane := 0, addr := g.uniAddr f, size := 4 * e.2, align := 4 * e.2 } pl false = true) ∧
    (∃ e, e ∈ [(Instr.sldW, 1), (Instr.sldW2, 2), (Instr.sldW4, 4), (Instr.sldW8, 8)] ∧
      ∃ (s : State) (gid : Nat) (g : Group) (p : Split) (f : Smem), Ready s gid g p ∧
      ∃ (x : Part), Outside s g x ∧
      g.ScopeOk f.px (strongAtt f.att) ∧
      NoMask f.px ∧
      g.HasS ([2 * f.k.toNat, 2 * f.k.toNat + 1] ++ upFrom f.sd.toNat e.2) ∧
      g.cnt.c0 < 255 ∧
      ∃ w, checkAddr s (g.agent gid) (g.uniAddr f) (4 * e.2) (4 * e.2) .read = .wait w) ∧
    (∃ (s : State) (x : Part) (ag : Agent) (a : Nat) (z : Nat) (acc : Acc) (w : Walk), s.part ag.part = some x ∧
      a < 2 ^ 57 ∧
      ag.priv = false ∧
      w = translate s x ag a ∧
      a % z ≠ 0) ∧
    (∃ (s : State) (x : Part) (ag : Agent) (a : Nat) (z : Nat) (acc : Acc) (w : Walk), s.part ag.part = some x ∧
      a < 2 ^ 57 ∧
      ag.priv = false ∧
      w = translate s x ag a ∧
      a % z = 0 ∧
      (w.fin = .invalid ∨ w.fin = .touch)) ∧
    (∃ (s : State) (x : Part) (ag : Agent) (a : Nat) (z : Nat) (acc : Acc) (w : Walk), s.part ag.part = some x ∧
      a < 2 ^ 57 ∧
      ag.priv = false ∧
      w = translate s x ag a ∧
      a % z = 0 ∧
      w.fin = .malformed) ∧
    (∃ (s : State) (x : Part) (ag : Agent) (a : Nat) (z : Nat) (acc : Acc) (w : Walk), s.part ag.part = some x ∧
      a < 2 ^ 57 ∧
      ag.priv = false ∧
      w = translate s x ag a ∧
      a % z = 0 ∧
      w.fin = .busy ∧
      ∃ pa, w.entry = some pa) :=
  ⟨⟨roundedOps[0],
    List.getElem_mem _,
    at_ { group with mode := group.mode ||| 0x1F00000, vregs := [(512, 0x7F800001)] },
    0,
    { group with mode := group.mode ||| 0x1F00000, vregs := [(512, 0x7F800001)] },
    split,
    { vd := 4, va := 8, vb := 12, st := 0, px := none },
    0,
    _,
    mkReady part rfl rfl rfl rfl ⟨rfl, rfl, rfl, rfl⟩ rfl (by decide) rfl (by decide),
    part,
    ⟨rfl, rfl⟩,
    rfl,
    by unfold Group.HasV; decide,
    by unfold Group.HasS; decide,
    by unfold Group.Rounds; decide,
    by decide,
    rfl,
    by decide,
    by decide,
    by decide,
    nofun⟩,
  ⟨(Instr.sldW, 1),
    by simp,
    at_ group,
    0,
    group,
    split,
    { sd := 4, k := 0, woff := 0, att := 0, st := 0, px := none },
    mkReady part rfl rfl rfl rfl ⟨rfl, rfl, rfl, rfl⟩ rfl (by decide) rfl (by decide),
    part,
    ⟨rfl, rfl⟩,
    ⟨fun _ => rfl, fun _ _ => by decide⟩,
    nofun,
    by unfold Group.HasS; decide,
    by decide,
    _,
    _,
    rfl,
    by decide⟩,
  ⟨(Instr.sldW, 1),
    by simp,
    { at_ pointed with locks := [(2, { cluster := 0, space := .spad 0, lo := 0, hi := 64, write := true })] },
    0,
    pointed,
    split,
    { sd := 4, k := 0, woff := 0, att := 0, st := 0, px := none },
    mkReady part rfl rfl rfl rfl ⟨rfl, rfl, rfl, rfl⟩ rfl (by decide) rfl (by decide),
    part,
    ⟨rfl, rfl⟩,
    ⟨fun _ => rfl, fun _ _ => by decide⟩,
    nofun,
    by unfold Group.HasS; decide,
    by decide,
    _,
    rfl,
    by decide⟩,
  ⟨(Instr.sldW, 1),
    by simp,
    mapped paged 0xCB group,
    0,
    group,
    split,
    { sd := 4, k := 0, woff := 0, att := 0, st := 0, px := none },
    mkReady paged rfl rfl rfl rfl ⟨rfl, rfl, rfl, rfl⟩ rfl (by decide) rfl (by decide),
    paged,
    ⟨rfl, rfl⟩,
    ⟨fun _ => rfl, fun _ _ => by decide⟩,
    nofun,
    by unfold Group.HasS; decide,
    by decide,
    _,
    rfl⟩,
  ⟨mapped paged 0x4B group,
    paged,
    group.agent 0,
    1,
    4,
    .read,
    _,
    rfl,
    by decide,
    rfl,
    rfl,
    by decide⟩,
  ⟨at_ group,
    part,
    group.agent 0,
    0,
    4,
    .read,
    _,
    rfl,
    by decide,
    rfl,
    rfl,
    by decide,
    .inl rfl⟩,
  ⟨{ placed paged group with mem := (table 0x4B).take 10 ++ [(0x130001, 7), (0x130002, 0x14)] },
    paged,
    group.agent 0,
    0,
    4,
    .read,
    _,
    rfl,
    by decide,
    rfl,
    rfl,
    by decide,
    rfl⟩,
  ⟨mapped paged 0xCB group,
    paged,
    group.agent 0,
    0,
    4,
    .read,
    _,
    rfl,
    by decide,
    rfl,
    rfl,
    by decide,
    rfl,
    _,
    rfl⟩⟩

/-- Traps. -/
theorem wit_traps_3 :
    (∃ (s : State) (x : Part) (ag : Agent) (a : Nat) (z : Nat) (acc : Acc) (w : Walk), s.part ag.part = some x ∧
      a < 2 ^ 57 ∧
      ag.priv = false ∧
      w = translate s x ag a ∧
      a % z = 0 ∧
      w.fin = .writing ∧
      ∃ l, ∃ ls, w.lines = l :: ls) ∧
    (∃ (s : State) (x : Part) (ag : Agent) (a : Nat) (z : Nat) (acc : Acc) (w : Walk), s.part ag.part = some x ∧
      a < 2 ^ 57 ∧
      ag.priv = false ∧
      w = translate s x ag a ∧
      a % z = 0 ∧
      w.fin = .outside) ∧
    (∃ (s : State) (x : Part) (ag : Agent) (a : Nat) (z : Nat) (acc : Acc) (w : Walk), s.part ag.part = some x ∧
      a < 2 ^ 57 ∧
      ag.priv = false ∧
      w = translate s x ag a ∧
      a % z = 0 ∧
      w.fin = .leaf ∧
      (pteU w.pte = false ∨ (acc ≠ .read ∧ acc ≠ .fetch ∧ pteW w.pte = false) ∨ (acc = .fetch ∧ pteX w.pte = false))) ∧
    (∃ (s : State) (x : Part) (ag : Agent) (a : Nat) (z : Nat) (acc : Acc) (w : Walk), s.part ag.part = some x ∧
      a < 2 ^ 57 ∧
      ag.priv = false ∧
      w = translate s x ag a ∧
      a % z = 0 ∧
      w.fin = .leaf ∧
      pteU w.pte = true ∧
      pteW w.pte = true ∧
      pteX w.pte = true ∧
      x.owns (leafPa w a) = false) ∧
    (∃ (s : State) (x : Part) (ag : Agent) (a : Nat) (z : Nat) (acc : Acc) (w : Walk), s.part ag.part = some x ∧
      a < 2 ^ 57 ∧
      ag.priv = false ∧
      w = translate s x ag a ∧
      a % z = 0 ∧
      w.fin = .leaf ∧
      pteU w.pte = true ∧
      pteW w.pte = true ∧
      pteX w.pte = true ∧
      x.owns (leafPa w a) = true ∧
      pteKey w.pte = 0) ∧
    (∃ (s : State) (x : Part) (ag : Agent) (a : Nat) (z : Nat) (acc : Acc) (w : Walk), s.part ag.part = some x ∧
      a < 2 ^ 57 ∧
      ag.priv = false ∧
      w = translate s x ag a ∧
      a % z = 0 ∧
      w.fin = .leaf ∧
      pteU w.pte = true ∧
      pteW w.pte = true ∧
      pteX w.pte = true ∧
      x.owns (leafPa w a) = true ∧
      pteKey w.pte ≠ 0 ∧
      tabGet x.keys (pteKey w.pte) = none) ∧
    (∃ (s : State) (x : Part) (ag : Agent) (a : Nat) (z : Nat) (acc : Acc) (w : Walk), s.part ag.part = some x ∧
      a < 2 ^ 57 ∧
      ag.priv = false ∧
      w = translate s x ag a ∧
      a % z = 0 ∧
      w.fin = .leaf ∧
      pteU w.pte = true ∧
      pteW w.pte = true ∧
      pteX w.pte = true ∧
      x.owns (leafPa w a) = true ∧
      ∃ k, pteKey w.pte ≠ 0 ∧
      tabGet x.keys (pteKey w.pte) = some k) ∧
    (∃ (s : State) (x : Part) (ag : Agent) (a : Nat) (z : Nat) (pa : Nat) (acc : Acc), s.part ag.part = some x ∧
      a < 2 ^ 57 ∧
      ag.priv = true ∧
      2 ^ 56 ≤ a ∧
      pa = a % 2 ^ 52 ∧
      a % 2 ^ 56 ≠ pa) :=
  ⟨⟨{ mapped paged 0x4B group with dir := [(0x2000, { holders := [], l1 := [], arriving := [], invals := [.host] })] },
    paged,
    group.agent 0,
    0,
    4,
    .read,
    _,
    rfl,
    by decide,
    rfl,
    rfl,
    by decide,
    rfl,
    _,
    _,
    rfl⟩,
  ⟨mapped { paged with region := 0 } 0x4B group,
    { paged with region := 0 },
    group.agent 0,
    0,
    4,
    .read,
    _,
    rfl,
    by decide,
    rfl,
    rfl,
    by decide,
    rfl⟩,
  ⟨mapped paged 0x43 group,
    paged,
    group.agent 0,
    0,
    4,
    .read,
    _,
    rfl,
    by decide,
    rfl,
    rfl,
    by decide,
    rfl,
    .inl rfl⟩,
  ⟨{ placed { paged with region := 1 } group with mem := table 0x4F ++ [(0x130004, 4)] },
    { paged with region := 1 },
    group.agent 0,
    0,
    4,
    .read,
    _,
    rfl,
    by decide,
    rfl,
    rfl,
    by decide,
    rfl,
    by decide,
    by decide,
    by decide,
    by decide⟩,
  ⟨mapped paged 0x4F group,
    paged,
    group.agent 0,
    0,
    4,
    .read,
    _,
    rfl,
    by decide,
    rfl,
    rfl,
    by decide,
    rfl,
    by decide,
    by decide,
    by decide,
    by decide,
    by decide⟩,
  ⟨{ placed paged group with mem := (table 0x4F).take 10 ++ [(0x130001, 8), (0x130002, 0x14)] },
    paged,
    group.agent 0,
    0,
    4,
    .read,
    _,
    rfl,
    by decide,
    rfl,
    rfl,
    by decide,
    rfl,
    by decide,
    by decide,
    by decide,
    by decide,
    by decide,
    by decide⟩,
  ⟨{ placed { paged with keys := [(1, [])] } group with mem := (table 0x4F).take 10 ++ [(0x130001, 8), (0x130002, 0x14)] },
    { paged with keys := [(1, [])] },
    group.agent 0,
    0,
    4,
    .read,
    _,
    rfl,
    by decide,
    rfl,
    rfl,
    by decide,
    rfl,
    by decide,
    by decide,
    by decide,
    by decide,
    _,
    by decide,
    rfl⟩,
  ⟨placed (part) house,
    (part),
    house.agent 0,
    0x110000000000000,
    4,
    _,
    .read,
    rfl,
    by decide,
    rfl,
    by decide,
    rfl,
    by decide⟩⟩

/-- Traps. -/
theorem wit_traps_4 :
    (∃ (s : State) (x : Part) (ag : Agent) (a : Nat) (z : Nat) (pa : Nat) (acc : Acc), s.part ag.part = some x ∧
      a < 2 ^ 57 ∧
      ag.priv = true ∧
      2 ^ 56 ≤ a ∧
      pa = a % 2 ^ 52 ∧
      a % 2 ^ 56 = pa ∧
      a % z ≠ 0) ∧
    (∃ (s : State) (x : Part) (ag : Agent) (a : Nat) (z : Nat) (pa : Nat) (acc : Acc), s.part ag.part = some x ∧
      a < 2 ^ 57 ∧
      ag.priv = true ∧
      2 ^ 56 ≤ a ∧
      pa = a % 2 ^ 52 ∧
      a % 2 ^ 56 = pa ∧
      a % z = 0 ∧
      safeTier pa = true) ∧
    (∃ (s : State) (x : Part) (ag : Agent) (a : Nat) (z : Nat) (pa : Nat) (acc : Acc), s.part ag.part = some x ∧
      a < 2 ^ 57 ∧
      ag.priv = true ∧
      2 ^ 56 ≤ a ∧
      pa = a % 2 ^ 52 ∧
      a % 2 ^ 56 = pa ∧
      a % z = 0 ∧
      safeTier pa = false ∧
      holdsMemory s pa = false) ∧
    (∃ (s : State) (x : Part) (ag : Agent) (a : Nat) (z : Nat) (pa : Nat) (acc : Acc), s.part ag.part = some x ∧
      a < 2 ^ 57 ∧
      ag.priv = true ∧
      2 ^ 56 ≤ a ∧
      pa = a % 2 ^ 52 ∧
      a % 2 ^ 56 = pa ∧
      a % z = 0 ∧
      safeTier pa = false ∧
      holdsMemory s pa = true ∧
      x.owns pa = false) ∧
    (∃ (s : State) (x : Part) (ag : Agent) (a : Nat) (z : Nat) (pa : Nat) (acc : Acc), s.part ag.part = some x ∧
      a < 2 ^ 57 ∧
      ag.priv = true ∧
      2 ^ 56 ≤ a ∧
      pa = a % 2 ^ 52 ∧
      a % 2 ^ 56 = pa ∧
      a % z = 0 ∧
      safeTier pa = false ∧
      holdsMemory s pa = true ∧
      x.owns pa = true) ∧
    (∃ (s : State) (x : Part) (ag : Agent) (a : Nat) (core : List TlbEntry) (die : List TlbEntry), core = smapGet [] s.tlbs ag.core ∧
      die = smapGet [] s.dieTlbs (dieOf ag.core) ∧
      (ag.cached = false ∨ (∀ e ∈ core ++ die, e.part = ag.part → e.va ≠ pageVa e.level a))) ∧
    (∃ (s : State) (x : Part) (ag : Agent) (a : Nat) (core : List TlbEntry) (die : List TlbEntry), core = smapGet [] s.tlbs ag.core ∧
      die = smapGet [] s.dieTlbs (dieOf ag.core) ∧
      ∃ e, ag.cached = true ∧
      e.part = ag.part ∧
      e.va = pageVa e.level a ∧
      (e ∈ core ∧ (∀ q ∈ core, q.part = ag.part → q.va = pageVa q.level a → q = e) ∨
        (∀ q ∈ core, q.part = ag.part → q.va ≠ pageVa q.level a) ∧ e ∈ die ∧
        ∀ q ∈ die, q.part = ag.part → q.va = pageVa q.level a → q = e)) ∧
    (∃ (s : State) (x : Part) (va : Nat) (base : Nat) (n : Nat) (w : Walk) (level : Nat) (pa : Nat) (e : Nat) (w1 : Walk), level = 3 - n ∧
      n < 4 ∧
      pa = base + 8 * walkIndex va level ∧
      e = s.memNat pa 8 ∧
      w1 = { fin := .invalid, entry := some pa, level := level, pte := e, lines := pa / 128 :: w.lines } ∧
      x.ptroot.getLsbD 0 = false) :=
  ⟨⟨placed (part) house,
    (part),
    house.agent 0,
    0x100000000000001,
    4,
    _,
    .read,
    rfl,
    by decide,
    rfl,
    by decide,
    rfl,
    by decide,
    by decide⟩,
  ⟨placed (part) house,
    (part),
    house.agent 0,
    0x100060000000000,
    4,
    _,
    .read,
    rfl,
    by decide,
    rfl,
    by decide,
    rfl,
    by decide,
    by decide,
    by decide⟩,
  ⟨placed (part) house,
    (part),
    house.agent 0,
    0x100070000000000,
    4,
    _,
    .read,
    rfl,
    by decide,
    rfl,
    by decide,
    rfl,
    by decide,
    by decide,
    by decide,
    by decide⟩,
  ⟨placed ({ part with region := 0 }) house,
    ({ part with region := 0 }),
    house.agent 0,
    0x100000000000000,
    4,
    _,
    .read,
    rfl,
    by decide,
    rfl,
    by decide,
    rfl,
    by decide,
    by decide,
    by decide,
    by decide,
    by decide⟩,
  ⟨placed (part) house,
    (part),
    house.agent 0,
    0x100000000000000,
    4,
    _,
    .read,
    rfl,
    by decide,
    rfl,
    by decide,
    rfl,
    by decide,
    by decide,
    by decide,
    by decide,
    by decide⟩,
  ⟨at_ group,
    part,
    { group.agent 0 with cached := false },
    0,
    _,
    _,
    rfl,
    rfl,
    by decide⟩,
  ⟨{ at_ group with tlbs := [(0, [{ part := 0, va := 0, level := 3, entry := 0x130000, pte := 0x14004B, lines := [7] }])] },
    part,
    group.agent 0,
    0,
    _,
    _,
    rfl,
    rfl,
    { part := 0, va := 0, level := 3, entry := 0x130000, pte := 0x14004B, lines := [7] },
    by decide,
    by decide,
    by decide,
    .inl ⟨List.mem_singleton.mpr rfl, fun q h _ _ => List.mem_singleton.mp h⟩⟩,
  ⟨at_ group,
    part,
    0,
    0,
    3,
    { fin := .invalid, entry := none, level := 0, pte := 0, lines := [] },
    _,
    _,
    _,
    _,
    rfl,
    by decide,
    rfl,
    rfl,
    rfl,
    by decide⟩⟩

/-- Traps. -/
theorem wit_traps_5 :
    (∃ (s : State) (x : Part) (va : Nat) (base : Nat) (n : Nat) (w : Walk) (level : Nat) (pa : Nat) (e : Nat) (w1 : Walk), level = 3 - n ∧
      n < 4 ∧
      pa = base + 8 * walkIndex va level ∧
      e = s.memNat pa 8 ∧
      w1 = { fin := .invalid, entry := some pa, level := level, pte := e, lines := pa / 128 :: w.lines } ∧
      tableOk s x pa = false) ∧
    (∃ (s : State) (x : Part) (va : Nat) (base : Nat) (n : Nat) (w : Walk) (level : Nat) (pa : Nat) (e : Nat) (w1 : Walk), level = 3 - n ∧
      n < 4 ∧
      pa = base + 8 * walkIndex va level ∧
      e = s.memNat pa 8 ∧
      w1 = { fin := .invalid, entry := some pa, level := level, pte := e, lines := pa / 128 :: w.lines } ∧
      tableOk s x pa = true ∧
      (s.dirEntry (pa / 128)).invals ≠ []) ∧
    (∃ (s : State) (x : Part) (va : Nat) (base : Nat) (n : Nat) (w : Walk) (level : Nat) (pa : Nat) (e : Nat) (w1 : Walk), level = 3 - n ∧
      n < 4 ∧
      pa = base + 8 * walkIndex va level ∧
      e = s.memNat pa 8 ∧
      w1 = { fin := .invalid, entry := some pa, level := level, pte := e, lines := pa / 128 :: w.lines } ∧
      tableOk s x pa = true ∧
      (s.dirEntry (pa / 128)).invals = [] ∧
      pteV e = true ∧
      pteMalformed s level e = true) ∧
    (∃ (s : State) (x : Part) (va : Nat) (base : Nat) (n : Nat) (w : Walk) (level : Nat) (pa : Nat) (e : Nat) (w1 : Walk), level = 3 - n ∧
      n < 4 ∧
      pa = base + 8 * walkIndex va level ∧
      e = s.memNat pa 8 ∧
      w1 = { fin := .invalid, entry := some pa, level := level, pte := e, lines := pa / 128 :: w.lines } ∧
      tableOk s x pa = true ∧
      (s.dirEntry (pa / 128)).invals = [] ∧
      (pteV e = false ∨ pteMalformed s level e = false) ∧
      2 ≤ level ∧
      pteM e = true) ∧
    (∃ (s : State) (x : Part) (va : Nat) (base : Nat) (n : Nat) (w : Walk) (level : Nat) (pa : Nat) (e : Nat) (w1 : Walk), level = 3 - n ∧
      n < 4 ∧
      pa = base + 8 * walkIndex va level ∧
      e = s.memNat pa 8 ∧
      w1 = { fin := .invalid, entry := some pa, level := level, pte := e, lines := pa / 128 :: w.lines } ∧
      tableOk s x pa = true ∧
      (s.dirEntry (pa / 128)).invals = [] ∧
      (pteV e = false ∨ pteMalformed s level e = false) ∧
      (level < 2 ∨ pteM e = false) ∧
      pteV e = false) ∧
    (∃ (s : State) (x : Part) (va : Nat) (base : Nat) (n : Nat) (w : Walk) (level : Nat) (pa : Nat) (e : Nat) (w1 : Walk), level = 3 - n ∧
      n < 4 ∧
      pa = base + 8 * walkIndex va level ∧
      e = s.memNat pa 8 ∧
      w1 = { fin := .invalid, entry := some pa, level := level, pte := e, lines := pa / 128 :: w.lines } ∧
      tableOk s x pa = true ∧
      (s.dirEntry (pa / 128)).invals = [] ∧
      (pteV e = false ∨ pteMalformed s level e = false) ∧
      (level < 2 ∨ pteM e = false) ∧
      pteV e = true ∧
      pteKind e = 7) ∧
    (∃ (s : State) (x : Part) (va : Nat) (base : Nat) (n : Nat) (w : Walk) (level : Nat) (pa : Nat) (e : Nat) (w1 : Walk), level = 3 - n ∧
      n < 4 ∧
      pa = base + 8 * walkIndex va level ∧
      e = s.memNat pa 8 ∧
      w1 = { fin := .invalid, entry := some pa, level := level, pte := e, lines := pa / 128 :: w.lines } ∧
      tableOk s x pa = true ∧
      (s.dirEntry (pa / 128)).invals = [] ∧
      (pteV e = false ∨ pteMalformed s level e = false) ∧
      (level < 2 ∨ pteM e = false) ∧
      pteV e = true ∧
      pteKind e ≠ 7) :=
  ⟨⟨at_ group,
    part,
    0,
    0x060000000000,
    3,
    { fin := .invalid, entry := none, level := 0, pte := 0, lines := [] },
    _,
    _,
    _,
    _,
    rfl,
    by decide,
    rfl,
    rfl,
    rfl,
    by decide⟩,
  ⟨{ mapped paged 0x4B group with dir := [(0x2000, { holders := [], l1 := [], arriving := [], invals := [.host] })] },
    paged,
    0,
    0x100000,
    3,
    { fin := .invalid, entry := none, level := 0, pte := 0, lines := [] },
    _,
    _,
    _,
    _,
    rfl,
    by decide,
    rfl,
    rfl,
    rfl,
    by decide,
    by decide⟩,
  ⟨{ placed paged group with mem := (table 0x4B).take 10 ++ [(0x130001, 7), (0x130002, 0x14)] },
    paged,
    0,
    0x130000,
    0,
    { fin := .invalid, entry := none, level := 0, pte := 0, lines := [] },
    _,
    _,
    _,
    _,
    rfl,
    by decide,
    rfl,
    rfl,
    rfl,
    by decide,
    by decide,
    by decide,
    by decide⟩,
  ⟨mapped paged 0xCB group,
    paged,
    0,
    0x130000,
    0,
    { fin := .invalid, entry := none, level := 0, pte := 0, lines := [] },
    _,
    _,
    _,
    _,
    rfl,
    by decide,
    rfl,
    rfl,
    rfl,
    by decide,
    by decide,
    by decide,
    by decide,
    by decide⟩,
  ⟨at_ group,
    part,
    0,
    0x130000,
    0,
    { fin := .invalid, entry := none, level := 0, pte := 0, lines := [] },
    _,
    _,
    _,
    _,
    rfl,
    by decide,
    rfl,
    rfl,
    rfl,
    by decide,
    by decide,
    by decide,
    by decide,
    by decide⟩,
  ⟨mapped paged 0x4B group,
    paged,
    0,
    0x100000,
    3,
    { fin := .invalid, entry := none, level := 0, pte := 0, lines := [] },
    _,
    _,
    _,
    _,
    rfl,
    by decide,
    rfl,
    rfl,
    rfl,
    by decide,
    by decide,
    by decide,
    by decide,
    by decide,
    by decide⟩,
  ⟨mapped paged 0x4B group,
    paged,
    0,
    0x130000,
    0,
    { fin := .invalid, entry := none, level := 0, pte := 0, lines := [] },
    _,
    _,
    _,
    _,
    rfl,
    by decide,
    rfl,
    rfl,
    rfl,
    by decide,
    by decide,
    by decide,
    by decide,
    by decide,
    by decide⟩⟩

/-- StepRunsDecoded. -/
theorem wit_stepRunsDecoded_1 :
    (∃ (s : State) (v : State), v = s.advance) ∧
    (∃ (s : State) (v : State), v = s.advance ∧
      s.joint = true) ∧
    (∃ (s : State) (v : State), v = s.advance ∧
      s.joint = false) ∧
    (∃ (s : State) (v : State), v = s.advance ∧
      s.joint = false ∧
      ∃ x, x ∈ v.sleepers ++ v.dirtyCopies) ∧
    (∃ (s : State) (v : State), v = s.advance ∧
      s.joint = false ∧
      v.clock < s.clock + 1 + Config.stepCycles s.tick) ∧
    (∃ (s : State) (v : State), v = s.advance ∧
      ∃ (id : Nat), s.group id = none) ∧
    (∃ (s : State) (v : State), v = s.advance ∧
      ∃ (id : Nat) (q : Group), s.group id = some q) ∧
    (∃ (s : State) (v : State) (gid : Nat) (g : Group) (p : Split), v = s.advance ∧
      s.cur = some gid ∧
      v.group gid = some g ∧
      g.issuing = some p ∧
      ∃ (ws : List Nat) (u : State), (p.held.map (·.words) = some ws ∧ u = v ∨ p.held = none ∧ CodeAt v gid g p ws ∧ CodeMarked v u gid g p) ∧
      ∃ i, ∃ t, decodeWords ws = .ok i ∧
      exec i u = .next t) :=
  ⟨⟨at_ group,
    _,
    rfl⟩,
  ⟨{ at_ group with joint := true },
    _,
    rfl,
    by decide⟩,
  ⟨at_ group,
    _,
    rfl,
    by decide⟩,
  ⟨{ at_ { group with splits := [split, { split with slot := 1, mask := 0xFF00, st := .sleeping 0 }] } with cur := some 0 },
    _,
    rfl,
    by decide,
    (0, 1, 64),
    by decide⟩,
  ⟨{ at_ { group with splits := [split, { split with slot := 1, mask := 0xFF00, st := .sleeping 0 }] } with clock := 100 },
    _,
    rfl,
    by decide,
    Nat.lt_of_le_of_lt (Nat.min_le_right _ _) (by show (100 : Nat) < 100 + 1 + Config.stepCycles 0; omega)⟩,
  ⟨at_ group,
    _,
    rfl,
    5,
    rfl⟩,
  ⟨at_ group,
    _,
    rfl,
    0,
    group,
    rfl⟩,
  ⟨text [0b11_1000_000000000000000000000000_10],
    _,
    0,
    { house with text := 0x0100000000010000, splits := [{ split with pc := 0x0100000000010000 }] },
    { split with pc := 0x0100000000010000 },
    rfl,
    rfl,
    rfl,
    rfl,
    [0b11_1000_000000000000000000000000_10],
    _,
    .inr ⟨rfl, ⟨_, ⟨by decide, _, rfl, rfl⟩, .inl ⟨by decide, by decide, rfl⟩⟩, ⟨_, rfl, rfl⟩⟩,
    .nop { st := 2 },
    _,
    rfl,
    rfl⟩⟩

/-- StepRunsDecoded. -/
theorem wit_stepRunsDecoded_2 :
    (∃ (s : State) (v : State) (gid : Nat) (g : Group) (p : Split), v = s.advance ∧
      s.cur = some gid ∧
      v.group gid = some g ∧
      g.issuing = some p ∧
      ∃ (ws : List Nat) (u : State), (p.held.map (·.words) = some ws ∧ u = v ∨ p.held = none ∧ CodeAt v gid g p ws ∧ CodeMarked v u gid g p) ∧
      ∃ r, ∃ t, decodeWords ws = .error r ∧
      t = u.takeTrap gid g p (if r = .undefinedEncoding then 0x01 else 0x03) (wordsTval ws) p.mask) ∧
    (∃ (s : State) (v : State) (gid : Nat) (g : Group) (p : Split), v = s.advance ∧
      s.cur = some gid ∧
      v.group gid = some g ∧
      g.issuing = some p ∧
      p.held = none ∧
      ∃ (a : DWord), (a = p.pc ∨ a = codeStep (v.textBase g) p.pc 4 ∧
        ∃ w, WordAt v gid g p.pc w ∧ (isPrefixWord w = true ∨ isLimmWord w = true)) ∧
      ∃ c, ∃ t, (bits a.toNat 60 4 ≠ 0 ∧ c = 0x0B ∨ bits a.toNat 60 4 = 0 ∧ ∃ rank, checkAddr v (g.agent gid) a.toNat 4 1 .fetch = .bad rank c) ∧
      t = v.takeTrap gid g p c a p.mask) ∧
    (∃ (s : State) (v : State) (gid : Nat) (g : Group) (p : Split), v = s.advance ∧
      s.cur = some gid ∧
      v.group gid = some g ∧
      g.issuing = some p ∧
      p.held = none ∧
      ∃ (a : DWord), (a = p.pc ∨ a = codeStep (v.textBase g) p.pc 4 ∧
        ∃ w, WordAt v gid g p.pc w ∧ (isPrefixWord w = true ∨ isLimmWord w = true)) ∧
      ∃ w, bits a.toNat 60 4 = 0 ∧
      checkAddr v (g.agent gid) a.toNat 4 1 .fetch = .wait w) ∧
    (∃ (s : State) (v : State), v = s.advance ∧
      s.cur = none ∧
      (∃ x ∈ v.sleepers, x.2.2 ≤ v.clock)) ∧
    (∃ (s : State) (v : State), v = s.advance ∧
      s.cur = none ∧
      (∀ x ∈ v.sleepers, v.clock < x.2.2) ∧
      (∃ x ∈ v.dirtyCopies, x.2.2 ≤ v.clock)) ∧
    (∃ (s : State) (v : State), v = s.advance ∧
      s.cur = none ∧
      (∀ x ∈ v.sleepers ++ v.dirtyCopies, v.clock < x.2.2) ∧
      ∃ i, ∃ r, s.inbox = i :: r) ∧
    (∃ (s : State) (v : State), v = s.advance ∧
      s.cur = none ∧
      (∀ x ∈ v.sleepers ++ v.dirtyCopies, v.clock < x.2.2) ∧
      s.inbox = [] ∧
      ∃ i, s.turn = true ∧
      nextInternal v = some i) ∧
    (∃ (s : State) (v : State), v = s.advance ∧
      s.cur = none ∧
      (∀ x ∈ v.sleepers ++ v.dirtyCopies, v.clock < x.2.2) ∧
      s.inbox = [] ∧
      s.turn = true ∧
      nextInternal v = none) :=
  ⟨⟨text [0b11_1111_000000000000000000000000_10],
    _,
    0,
    { house with text := 0x0100000000010000, splits := [{ split with pc := 0x0100000000010000 }] },
    { split with pc := 0x0100000000010000 },
    rfl,
    rfl,
    rfl,
    rfl,
    [0b11_1111_000000000000000000000000_10],
    _,
    .inr ⟨rfl, ⟨_, ⟨by decide, _, rfl, rfl⟩, .inl ⟨by decide, by decide, rfl⟩⟩, ⟨_, rfl, rfl⟩⟩,
    .undefinedEncoding,
    _,
    rfl,
    rfl⟩,
  ⟨at_ group,
    _,
    0,
    group,
    split,
    rfl,
    rfl,
    rfl,
    rfl,
    rfl,
    0x1000,
    .inl rfl,
    _,
    _,
    .inr ⟨by decide, _, rfl⟩,
    rfl⟩,
  ⟨{ mapped paged 0x4F group with dir := [(0x2000, { holders := [], l1 := [], arriving := [], invals := [.host] })] },
    _,
    0,
    group,
    split,
    rfl,
    rfl,
    rfl,
    rfl,
    rfl,
    0x1000,
    .inl rfl,
    _,
    by decide,
    rfl⟩,
  ⟨{ at_ { group with splits := [split, { split with slot := 1, mask := 0xFF00, st := .sleeping 0 }] } with cur := none, clock := 100 },
    _,
    rfl,
    rfl,
    ⟨(0, 1, 64), by decide, Nat.le_min.mpr ⟨by show (64 : Nat) ≤ 100 + 1 + Config.stepCycles 0; omega, by decide⟩⟩⟩,
  ⟨{ lined [] [] [] [(3, copyOf 1)] with cur := none, clock := 1000 },
    _,
    rfl,
    rfl,
    (fun _ h => absurd h List.not_mem_nil),
    ⟨(3, 7, 512), by decide, Nat.le_min.mpr ⟨by show (512 : Nat) ≤ 1000 + 1 + Config.stepCycles 0; omega, by decide⟩⟩⟩,
  ⟨{ at_ group with cur := none, inbox := [.heartbeatSend] },
    _,
    rfl,
    rfl,
    by decide,
    _,
    _,
    rfl⟩,
  ⟨{ State.reset with joint := true, turn := true, rota := 15, pkg := { Pkg.reset with islands := [(0, { req := 1, point := 0, throttle := 0 })] } },
    _,
    rfl,
    rfl,
    (fun _ h => absurd h List.not_mem_nil),
    rfl,
    .islandPointReached 0,
    by decide,
    by decide +kernel⟩,
  ⟨{ State.reset with joint := true, turn := true, rota := 15, pkg := { Pkg.reset with bootKey := imageKey, flash := [] } },
    _,
    rfl,
    rfl,
    (fun _ h => absurd h List.not_mem_nil),
    rfl,
    by decide,
    by decide +kernel⟩⟩

/-- StepRunsDecoded. -/
theorem wit_stepRunsDecoded_3 :
    (∃ (s : State) (v : State), v = s.advance ∧
      s.cur = none ∧
      (∀ x ∈ v.sleepers ++ v.dirtyCopies, v.clock < x.2.2) ∧
      s.inbox = [] ∧
      s.turn = false) ∧
    (∃ (v : State), ∃ i, nextInternal v = some i) ∧
    (∃ (v : State), v.rota % 16 = 15 ∧
      (∃ i ∈ v.pending, ∃ t, exec i v = .next t ∧ t ≠ v)) ∧
    (∃ (v : State), v.rota % 16 = 15 ∧
      v.rota % 32 ≠ 31 ∧
      (∃ id t, v.team id = some t ∧ t.isQueued = true ∧ t.member = 0 ∧ ∃ u, exec (.teamAdmit id) v = .next u ∧ u ≠ v)) :=
  ⟨⟨State.reset,
    _,
    rfl,
    rfl,
    (fun _ h => absurd h List.not_mem_nil),
    rfl,
    by decide⟩,
  ⟨{ State.reset with joint := true, turn := true, rota := 15, pkg := { Pkg.reset with islands := [(0, { req := 1, point := 0, throttle := 0 })] } },
    .islandPointReached 0,
    by decide +kernel⟩,
  ⟨{ State.reset with joint := true, turn := true, rota := 15, pkg := { Pkg.reset with islands := [(0, { req := 1, point := 0, throttle := 0 })] } },
    by decide,
    ⟨.islandPointReached 0, by decide, _, rfl, fun h => absurd (congrArg (fun z => z.pkg.islands) h) (by decide)⟩⟩,
  ⟨{ at_ group with groups := (List.range 15).map fun k => (128 * k, group), grids := [(1, grid none false)], teams := [(1, { team with state := .queued, groups := [.absent] })], pkg := { Pkg.reset with readyC := BitVec.allOnes 48 }, rota := 15 },
    by decide,
    by decide,
    ⟨1, _, rfl, rfl, rfl, _, rfl, fun h => absurd (congrArg (fun z => z.teams.map (·.2.state)) h) (by decide)⟩⟩⟩

/-- RoundTrip. -/
theorem wit_roundTrip : ∃ (i : Instr), i.WellFormed ∧
      encode i ≠ [] :=
  ⟨.nop { st := 2 },
    by decide,
    by decide⟩

/-- StepNeverStops. -/
theorem wit_stepNeverStops : ∃ (s : State), s.eventsOnly :=
  ⟨State.reset,
    (fun _ h => absurd (show _ ∈ ([] : List Instr) from h) List.not_mem_nil)⟩

/-- StepKeepsInvariant. -/
theorem wit_stepKeepsInvariant : ∃ (s : State) (t : State), s.Inv ∧
      step s = .next t :=
  ⟨State.reset,
    _,
    ⟨State.memOk_reset, fun _ h => absurd (show _ ∈ ([] : List Instr) from h) List.not_mem_nil⟩,
    rfl⟩

end Sys2Proof.Tests
end

/-! # O60: every step keeps the canonical form of the memories and the events of the inbox (R1, R132, R257)

The invariant is carried through the model function by function, in the order of the definitions. `Res.Inv`, `OutcomeInv`
and their like say what an answer keeps; `State.Inv.f` says that the operation `f` on the state keeps it, and `f_inv` that
the meaning `f` does. For the operations that touch the memories the canonical form is `State.memOk_f` of the laws, beside
the frame `State.f_inbox`. -/

section
namespace Sys2Proof.Machine

/-! ## What an answer keeps -/

/-- What an answer of a meaning keeps: the state that it holds, where it holds one, satisfies the invariant. -/
def Res.Inv : Res → Prop
  | .ok s => s.Inv
  | .goto s _ => s.Inv
  | .park s _ _ => s.Inv
  | .block s _ _ => s.Inv
  | .retry _ => True
  | .trap _ _ _ => True
  | .kill s _ _ => s.Inv
  | .placed s => s.Inv

/-- What an outcome keeps: the next state, where there is one, satisfies the invariant. -/
def OutcomeInv : Host.Outcome State Fault Refusal → Prop
  | .next t => t.Inv
  | _ => True

/-- What an optional state keeps. -/
def OptionInv : Option State → Prop
  | some t => t.Inv
  | none => True

/-- What the end of an arrival keeps (R340). -/
def ArrivalEnd.Inv : ArrivalEnd → Prop
  | .applied t => t.Inv
  | _ => True

/-- What the end of a register delivery keeps (R336). -/
def DeliveryEnd.Inv : DeliveryEnd → Prop
  | .applied t _ => t.Inv
  | _ => True

/-- What the end of the store of a completion word keeps (R114). -/
def DoneEnd.Inv : DoneEnd → Prop
  | .stored t => t.Inv
  | .waits => True

/-! ## From an answer to the state that it holds -/

theorem OptionInv.state {o : Option State} {t : State} (h : OptionInv o) (e : o = some t) : t.Inv := by
  subst e; exact h

theorem ArrivalEnd.Inv.state {x : ArrivalEnd} {t : State} (h : x.Inv) (e : x = .applied t) : t.Inv := by
  subst e; exact h

theorem DeliveryEnd.Inv.state {x : DeliveryEnd} {t : State} {w : Bool} (h : x.Inv)
    (e : x = .applied t w) : t.Inv := by
  subst e; exact h

theorem DoneEnd.Inv.state {x : DoneEnd} {t : State} (h : x.Inv) (e : x = .stored t) : t.Inv := by
  subst e; exact h

/-! ## General rules of the invariant -/

/-- The invariant speaks of the two memories and the inbox alone. -/
theorem State.Inv.same {s t : State} (h : s.Inv)
    (e : (t.mem, t.spad, t.inbox) = (s.mem, s.spad, s.inbox)) : t.Inv := by
  simp only [Prod.mk.injEq] at e
  obtain ⟨hm, hs, hi⟩ := e
  exact ⟨State.memOk_congr hm hs h.1, fun i k => h.2 i (hi ▸ k)⟩

/-- An operation that keeps the canonical form and leaves the inbox alone keeps the invariant. -/
theorem State.Inv.of {s t : State} (h : s.Inv) (hm : t.memOk) (hi : t.inbox = s.inbox) : t.Inv :=
  ⟨hm, fun i k => h.2 i (hi ▸ k)⟩

section
variable {α β : Type}

/-- A chain of operations that each leave the inbox alone leaves it alone. -/
theorem State.foldl_inbox {s : State} {f : State → α → State} {l : List α} (hf : ∀ t a, (f t a).inbox = t.inbox) :
    (l.foldl f s).inbox = s.inbox := by
  induction l generalizing s with
  | nil => rfl
  | cons a r ih => exact ih.trans (hf s a)

/-- The first component of a pair that an operation answers. -/
theorem State.Inv.fst {x : State × α} {t : State} {a : α} (h : x.1.Inv) (e : x = (t, a)) : t.Inv := by
  subst e; exact h

/-- The second component of a pair that an operation answers. -/
theorem State.Inv.snd {x : α × State} {t : State} {a : α} (h : x.2.Inv) (e : x = (a, t)) : t.Inv := by
  subst e; exact h

/-- A chain of operations that each keep the invariant keeps it. -/
theorem State.Inv.foldl {s : State} {f : State → α → State} {l : List α} (h : s.Inv)
    (hf : ∀ t a, t.Inv → (f t a).Inv) : (l.foldl f s).Inv := by
  induction l generalizing s with
  | nil => exact h
  | cons a r ih => exact ih (hf s a h)

/-- A chain of operations that answer a value beside the state. -/
theorem State.Inv.foldlFst {x : State × β} {f : State × β → α → State × β} {l : List α} (h : x.1.Inv)
    (hf : ∀ p a, p.1.Inv → (f p a).1.Inv) : (l.foldl f x).1.Inv := by
  induction l generalizing x with
  | nil => exact h
  | cons a r ih => exact ih (hf x a h)

end

section
variable {s : State}

/-! ## Updates of a group, a partition, a team and a grid -/

theorem State.Inv.setGroup {gid g} (h : s.Inv) : (s.setGroup gid g).Inv :=
  h.same rfl

theorem State.Inv.modGroup {gid f} (h : s.Inv) : (s.modGroup gid f).Inv :=
  h.of (State.memOk_modGroup _ _ h.1) (State.modGroup_inbox ..)

theorem State.Inv.setPart {p x} (h : s.Inv) : (s.setPart p x).Inv :=
  h.same rfl

theorem State.Inv.modPart {p f} (h : s.Inv) : (s.modPart p f).Inv :=
  h.of (State.memOk_modPart _ _ h.1) (State.modPart_inbox ..)

theorem State.Inv.setTeam {t x} (h : s.Inv) : (s.setTeam t x).Inv :=
  h.same rfl

theorem State.Inv.modTeam {t f} (h : s.Inv) : (s.modTeam t f).Inv := by
  unfold State.modTeam
  split
  · exact h.setTeam
  · exact h

theorem State.Inv.modGrid {x f} (h : s.Inv) : (s.modGrid x f).Inv := by
  unfold State.modGrid
  split
  · exact h.same rfl
  · exact h

theorem State.Inv.fresh (h : s.Inv) : (s.fresh).Inv :=
  h.same rfl

/-! ## The memories: an operation keeps their canonical form (State.memOk) and leaves the inbox alone -/

theorem State.Inv.setBytes {pa bs} (h : s.Inv) : (s.setBytes pa bs).Inv :=
  h.of (State.memOk_setBytes _ _ h.1) (State.setBytes_inbox ..)

theorem State.Inv.setSbytes {k bs} (h : s.Inv) : (s.setSbytes k bs).Inv :=
  h.of (State.memOk_setSbytes _ _ h.1) (State.setSbytes_inbox ..)

theorem State.Inv.setDir {line e} (h : s.Inv) : (s.setDir line e).Inv :=
  h.of (State.memOk_setDir _ _ h.1) rfl

@[simp] theorem State.l1Fill_inbox {line cluster key data} : (s.l1Fill line cluster key data).inbox = s.inbox := by
  unfold State.l1Fill
  dsimp only
  split <;> rfl

theorem State.Inv.l1Fill {line cluster key data} (h : s.Inv) : (s.l1Fill line cluster key data).Inv :=
  h.of (State.memOk_l1Fill _ _ _ _ h.1) State.l1Fill_inbox

@[simp] theorem State.dirFill_inbox {line w} : (s.dirFill line w).inbox = s.inbox := by
  unfold State.dirFill
  dsimp only
  split <;> rfl

theorem State.Inv.dirFill {line w} (h : s.Inv) : (s.dirFill line w).Inv :=
  h.of (State.memOk_dirFill _ _ h.1) State.dirFill_inbox

@[simp] theorem State.dirMerge_inbox {line w} : (s.dirMerge line w).inbox = s.inbox := by
  unfold State.dirMerge
  dsimp only
  split <;> rfl

theorem State.Inv.dirMerge {line w} (h : s.Inv) : (s.dirMerge line w).Inv :=
  h.of (State.memOk_dirMerge _ _ h.1) State.dirMerge_inbox

@[simp] theorem State.dirStrong_inbox {ls} : (s.dirStrong ls).inbox = s.inbox :=
  State.foldl_inbox fun _ _ => State.dirMerge_inbox

theorem State.Inv.dirStrong {ls} (h : s.Inv) : (s.dirStrong ls).Inv :=
  h.of (State.memOk_dirStrong _ h.1) State.dirStrong_inbox

@[simp] theorem State.failPot_inbox {k} : (s.failPot k).inbox = s.inbox := rfl

theorem State.Inv.failPot {k} (h : s.Inv) : (s.failPot k).Inv :=
  h.of (State.memOk_failPot _ h.1) State.failPot_inbox

@[simp] theorem State.creditPot_inbox {k n} : (s.creditPot k n).inbox = s.inbox := State.setSbytes_inbox ..

theorem State.Inv.creditPot {k n} (h : s.Inv) : (s.creditPot k n).Inv :=
  h.of (State.memOk_creditPot _ _ h.1) State.creditPot_inbox

theorem State.Inv.unlock {ids} (h : s.Inv) : (s.unlock ids).Inv :=
  h.same rfl

@[simp] theorem State.pushFrame_inbox {p k fr} : (s.pushFrame p k fr).inbox = s.inbox := State.modPart_inbox ..

theorem State.Inv.pushFrame {p k fr} (h : s.Inv) : (s.pushFrame p k fr).Inv :=
  h.of (State.memOk_pushFrame _ _ _ h.1) State.pushFrame_inbox

theorem State.Inv.popFrame {part k f t} (h : s.Inv) (e : s.popFrame part k = some (f, t)) : t.Inv := by
  unfold State.popFrame at e
  split at e
  · cases e
  · split at e
    · cases e
    · cases e; exact h.setPart

@[simp] theorem State.setPage_inbox {f r} : (s.setPage f r).inbox = s.inbox := rfl

theorem State.Inv.setPage {f r} (h : s.Inv) : (s.setPage f r).Inv :=
  h.of (State.memOk_setPage _ _ h.1) State.setPage_inbox

@[simp] theorem State.storeBytes_inbox {pa key bs} : (s.storeBytes pa key bs).inbox = s.inbox := by
  unfold State.storeBytes
  split
  · exact State.setBytes_inbox ..
  · exact State.foldl_inbox fun _ _ => State.setBytes_inbox ..

theorem State.Inv.storeBytes {pa key bs} (h : s.Inv) : (s.storeBytes pa key bs).Inv :=
  h.of (State.memOk_storeBytes _ _ _ h.1) State.storeBytes_inbox

@[simp] theorem State.collapse_inbox {f r} : (s.collapse f r).inbox = s.inbox := by
  unfold State.collapse
  dsimp only
  split
  · rfl
  · split <;> simp

theorem State.Inv.collapse {f r} (h : s.Inv) : (s.collapse f r).Inv :=
  h.of (State.memOk_collapse _ _ h.1) State.collapse_inbox

@[simp] theorem State.putMem_inbox {pa key bs} : (s.putMem pa key bs).inbox = s.inbox := by
  unfold State.putMem
  split
  · exact State.storeBytes_inbox
  · dsimp only
    split <;> simp

@[simp] theorem State.putAt_inbox {p bs} : (s.putAt p bs).inbox = s.inbox := by
  unfold State.putAt
  split <;> simp

@[simp] theorem State.checkReplicas_inbox {line} : (s.checkReplicas line).inbox = s.inbox := by
  unfold State.checkReplicas
  refine State.foldl_inbox fun t a => ?_
  split
  · dsimp only
    split
    · rfl
    · exact State.foldl_inbox fun _ _ => State.pushFrame_inbox
  · rfl

theorem State.Inv.checkReplicas {line} (h : s.Inv) : (s.checkReplicas line).Inv :=
  h.of (State.memOk_checkReplicas _ h.1) State.checkReplicas_inbox

@[simp] theorem State.writeMem_inbox {pa bs} : (s.writeMem pa bs).inbox = s.inbox :=
  (State.foldl_inbox fun _ _ => State.checkReplicas_inbox).trans (by simp)

/-- A write by an engine, a unit or the outside world (R360, R369). -/
theorem State.Inv.writeMem {pa bs} (h : s.Inv) : (s.writeMem pa bs).Inv :=
  h.of (State.memOk_writeMem _ _ h.1) State.writeMem_inbox

@[simp] theorem State.mergeCopy_inbox {line cluster c} : (s.mergeCopy line cluster c).inbox = s.inbox := by
  unfold State.mergeCopy
  dsimp only
  split
  · rw [State.checkReplicas_inbox, State.dirMerge_inbox]
    refine State.foldl_inbox fun t a => ?_
    split <;> rfl
  · simp

theorem State.Inv.mergeCopy {line cluster c} (h : s.Inv) : (s.mergeCopy line cluster c).Inv :=
  h.of (State.memOk_mergeCopy _ _ _ h.1) State.mergeCopy_inbox

@[simp] theorem State.l1Flush_inbox {cluster line} : (s.l1Flush cluster line).inbox = s.inbox := by
  unfold State.l1Flush
  dsimp only
  split
  · rfl
  · exact State.foldl_inbox fun _ _ => State.mergeCopy_inbox

theorem State.Inv.l1Flush {cluster line} (h : s.Inv) : (s.l1Flush cluster line).Inv :=
  h.of (State.memOk_l1Flush _ _ h.1) State.l1Flush_inbox

@[simp] theorem State.l1FlushAll_inbox {cluster ls} : (s.l1FlushAll cluster ls).inbox = s.inbox :=
  State.foldl_inbox fun _ _ => State.l1Flush_inbox

theorem State.Inv.l1FlushAll {cluster ls} (h : s.Inv) : (s.l1FlushAll cluster ls).Inv :=
  h.of (State.memOk_l1FlushAll _ _ h.1) State.l1FlushAll_inbox

@[simp] theorem State.strongPut_inbox {p bs} : (s.strongPut p bs).inbox = s.inbox :=
  (State.foldl_inbox fun _ _ => State.checkReplicas_inbox).trans (by simp)

theorem State.Inv.strongPut {p bs} (h : s.Inv) : (s.strongPut p bs).Inv :=
  h.of (State.memOk_strongPut _ _ h.1) State.strongPut_inbox

@[simp] theorem State.l1Drop_inbox {cluster line} : (s.l1Drop cluster line).inbox = s.inbox := rfl

theorem State.Inv.l1Drop {cluster line} (h : s.Inv) : (s.l1Drop cluster line).Inv :=
  h.of (State.memOk_l1Drop _ _ h.1) State.l1Drop_inbox

@[simp] theorem State.coreStrongPut_inbox {cluster p bs} : (s.coreStrongPut cluster p bs).inbox = s.inbox := by
  unfold State.coreStrongPut
  dsimp only
  rw [State.strongPut_inbox, State.foldl_inbox fun _ _ => State.l1Drop_inbox, State.l1FlushAll_inbox]

theorem State.Inv.coreStrongPut {cluster p bs} (h : s.Inv) : (s.coreStrongPut cluster p bs).Inv :=
  h.of (State.memOk_coreStrongPut _ _ _ h.1) State.coreStrongPut_inbox

@[simp] theorem State.weakPut_inbox {cluster p bs} : (s.weakPut cluster p bs).inbox = s.inbox := by
  unfold State.weakPut
  split
  · exact State.setSbytes_inbox ..
  · split
    · exact State.foldl_inbox fun _ _ => rfl
    · exact State.coreStrongPut_inbox

theorem State.Inv.weakPut {cluster p bs} (h : s.Inv) : (s.weakPut cluster p bs).Inv :=
  h.of (State.memOk_weakPut _ _ _ h.1) State.weakPut_inbox

@[simp] theorem State.readFill_inbox {cluster p n noAlloc} : (s.readFill cluster p n noAlloc).inbox = s.inbox := by
  unfold State.readFill
  split
  · rfl
  · split
    · exact State.foldl_inbox fun _ _ => State.l1Fill_inbox
    · rfl

theorem State.Inv.readFill {cluster p n noAlloc} (h : s.Inv) : (s.readFill cluster p n noAlloc).Inv :=
  h.of (State.memOk_readFill _ _ _ _ h.1) State.readFill_inbox

@[simp] theorem State.dropHolder_inbox {w left ls} : (s.dropHolder w left ls).inbox = s.inbox := by
  refine State.foldl_inbox fun t l => ?_
  split <;> rfl

@[simp] theorem State.tlbDrop_inbox {core out} : (s.tlbDrop core out).inbox = s.inbox := State.dropHolder_inbox

theorem State.Inv.tlbDrop {core out} (h : s.Inv) : (s.tlbDrop core out).Inv :=
  h.of (State.memOk_tlbDrop _ _ h.1) State.tlbDrop_inbox

@[simp] theorem State.dieTlbDrop_inbox {die out} : (s.dieTlbDrop die out).inbox = s.inbox := State.dropHolder_inbox

theorem State.Inv.dieTlbDrop {die out} (h : s.Inv) : (s.dieTlbDrop die out).Inv :=
  h.of (State.memOk_dieTlbDrop _ _ h.1) State.dieTlbDrop_inbox

@[simp] theorem State.dieTlbAdd_inbox {die e} : (s.dieTlbAdd die e).inbox = s.inbox := by
  unfold State.dieTlbAdd
  dsimp only
  split
  · rfl
  · refine (State.foldl_inbox fun _ _ => State.dirFill_inbox).trans ?_
    dsimp only
    split <;> simp

@[simp] theorem State.tlbAdd_inbox {core e} : (s.tlbAdd core e).inbox = s.inbox := by
  unfold State.tlbAdd
  dsimp only
  split
  · rfl
  · refine (State.foldl_inbox fun _ _ => State.dirFill_inbox).trans ?_
    dsimp only
    split <;> simp

@[simp] theorem State.markEntry_inbox {part pa src entry} : (s.markEntry part pa src entry).inbox = s.inbox := by
  unfold State.markEntry
  dsimp only
  split <;> rfl

@[simp] theorem State.install_inbox {part core p} : (s.install part core p).inbox = s.inbox := by
  unfold State.install
  split
  · rfl
  · split
    · rfl
    · dsimp only
      split
      · rfl
      · split <;> simp

theorem State.Inv.install {part core p} (h : s.Inv) : (s.install part core p).Inv :=
  h.of (State.memOk_install _ _ _ h.1) State.install_inbox

@[simp] theorem State.installRemote_inbox {part p} : (s.installRemote part p).inbox = s.inbox := by
  unfold State.installRemote
  split
  · rfl
  · split <;> simp

theorem State.Inv.installRemote {part p} (h : s.Inv) : (s.installRemote part p).Inv :=
  h.of (State.memOk_installRemote _ _ h.1) State.installRemote_inbox

@[simp] theorem State.lastPage_inbox {gid lane p} : (s.lastPage gid lane p).inbox = s.inbox := by
  unfold State.lastPage
  split
  · rfl
  · split <;> simp

theorem State.Inv.lastPage {gid lane p} (h : s.Inv) : (s.lastPage gid lane p).Inv :=
  h.of (State.memOk_lastPage _ _ _ h.1) State.lastPage_inbox

@[simp] theorem State.countPage_inbox {part core p} : (s.countPage part core p).inbox = s.inbox := by
  unfold State.countPage
  split <;> rfl

theorem State.Inv.countPage {part core p} (h : s.Inv) : (s.countPage part core p).Inv :=
  h.of (State.memOk_countPage _ _ _ h.1) State.countPage_inbox

@[simp] theorem State.holderGone_inbox {w line} : (s.holderGone w line).inbox = s.inbox := by
  unfold State.holderGone
  dsimp only
  split <;> simp

theorem State.Inv.holderGone {w line} (h : s.Inv) : (s.holderGone w line).Inv :=
  h.of (State.memOk_holderGone _ _ h.1) State.holderGone_inbox

@[simp] theorem State.settleLines_inbox {cluster ls} : (s.settleLines cluster ls).inbox = s.inbox := by
  refine (State.foldl_inbox fun t l => State.foldl_inbox fun u w => ?_).trans State.l1FlushAll_inbox
  split
  · exact State.holderGone_inbox
  · rfl

theorem State.Inv.settleLines {cluster ls} (h : s.Inv) : (s.settleLines cluster ls).Inv :=
  h.of (State.memOk_settleLines _ _ h.1) State.settleLines_inbox

/-! ## Records, seats, arrivals, and the end of a group -/

theorem State.Inv.noteOld {gid mask key old new} (h : s.Inv) : (s.noteOld gid mask key old new).Inv :=
  h.same rfl

theorem State.Inv.staleRead {gid mask since key bs} (h : s.Inv) : (s.staleRead gid mask since key bs).1.Inv := by
  induction bs generalizing key with
  | nil => exact h
  | cons b r ih =>
    unfold State.staleRead
    dsimp only
    split
    · exact ih
    · exact ih.fresh

theorem State.Inv.appendRecord {x hdr bs} (h : s.Inv) : (s.appendRecord x hdr bs).2.Inv := by
  unfold State.appendRecord
  extract_lets +onlyGivenNames qbase qsize wr rd
  split
  · exact h
  · split
    · exact h
    · split
      · exact h
      · exact h.writeMem.writeMem

theorem State.Inv.lostRecord {hdr} (h : s.Inv) : (s.lostRecord hdr).Inv :=
  h.writeMem

theorem State.Inv.killRecord {part tpc cause second where_ grid team tval} (h : s.Inv) :
    (s.killRecord part tpc cause second where_ grid team tval).Inv := by
  unfold State.killRecord
  split
  · exact h
  · split
    · exact h.setPart
    · extract_lets +onlyGivenNames rec_
      split
      · next heq2 =>
          exact h.appendRecord.snd heq2
      · next heq2 =>
          exact (h.appendRecord.snd heq2).lostRecord

theorem State.Inv.noteSeat {part seat} (h : s.Inv) : (s.noteSeat part seat).Inv := by
  unfold State.noteSeat
  split
  · exact h
  · extract_lets +onlyGivenNames line
    split
    · exact h
    · exact h.dirFill

theorem State.Inv.creditPotMem {pa n} (h : s.Inv) : (s.creditPotMem pa n).Inv :=
  h.writeMem

/-- An arrival applied to the team of a seat holder: the bytes, then the pot (R340). -/
theorem State.Inv.applyArrival {part a fail} (h : s.Inv) : (s.applyArrival part a fail).Inv := by
  unfold State.applyArrival
  split
  · exact trivial
  · exact trivial
  · split
    · exact trivial
    · split
      · exact trivial
      · extract_lets +onlyGivenNames s1
        have hs1 : s1.Inv := h.noteSeat.setSbytes
        show State.Inv _
        split
        · exact hs1
        · split
          · exact hs1.failPot
          · exact hs1.creditPot
  · split
    · exact trivial
    · split
      · exact trivial
      · extract_lets +onlyGivenNames base s0 s1
        have hs0 : s0.Inv := h.noteSeat
        have hs1 : s1.Inv := by
          unfold s1
          split
          · exact hs0
          · exact hs0.writeMem
        show State.Inv _
        split
        · exact hs1
        · split
          · exact hs1.writeMem
          · exact hs1.creditPotMem

theorem State.Inv.holdArrival {part a fail sender} (h : s.Inv) : (s.holdArrival part a fail sender).Inv :=
  h.same rfl

theorem State.Inv.putSeat {part idx gen st gid image} (h : s.Inv) : (s.putSeat part idx gen st gid image).Inv := by
  unfold State.putSeat
  split
  · exact h
  · exact h.writeMem

theorem State.Inv.seatState {gid g st image} (h : s.Inv) : (s.seatState gid g st image).Inv := by
  unfold State.seatState
  split
  · exact h
  · exact h.putSeat

theorem State.Inv.arrive {part a fail} (h : s.Inv) : (s.arrive part a fail).Inv := by
  unfold State.arrive
  split
  · next heq =>
      exact h.applyArrival.state heq
  · exact h.holdArrival
  · exact h

theorem State.Inv.failCopyPot {c} (h : s.Inv) : (s.failCopyPot c).Inv := by
  unfold State.failCopyPot
  split
  · exact h.failPot
  · split
    · split
      · exact h
      · exact h.arrive
    · exact h

theorem State.Inv.creditCopy {c} (h : s.Inv) : (s.creditCopy c).Inv := by
  unfold State.creditCopy
  split
  · exact h
  · split
    · exact h.creditPot
    · split
      · split
        · exact h
        · exact h.arrive
      · exact h

theorem State.Inv.modRing {tid k f} (h : s.Inv) : (s.modRing tid k f).Inv :=
  h.modTeam

theorem State.Inv.stopCopies {gid} (h : s.Inv) : (s.stopCopies gid).Inv := by
  unfold State.stopCopies
  refine h.foldl fun u a k => ?_
  extract_lets +onlyGivenNames c
  split
  · extract_lets +onlyGivenNames t1 t2 src
    have ht1 : t1.Inv := k.creditCopy.failCopyPot
    have ht2 : t2.Inv := by
      unfold t2
      split
      · split
        · exact ht1.modRing
        · exact ht1
      · exact ht1
    have hsrc : src.Inv := ht2.unlock
    exact hsrc.same rfl
  · exact k

theorem State.Inv.dropRequests {gid} (h : s.Inv) : (s.dropRequests gid).Inv := by
  unfold State.dropRequests
  extract_lets +onlyGivenNames s1
  have hs1 : s1.Inv := by
    unfold s1
    refine h.foldl fun u a k => ?_
    split
    · exact k.unlock
    · exact k
  exact hs1.same rfl

theorem State.Inv.dropHand {gid} (h : s.Inv) : (s.dropHand gid).Inv :=
  h.same rfl

theorem State.Inv.removeGroup {gid g how} (h : s.Inv) : (s.removeGroup gid g how).Inv := by
  unfold State.removeGroup
  extract_lets +onlyGivenNames s1 s2 s3 s4
  have hs1 : s1.Inv := h.seatState
  have hs2 : s2.Inv := hs1.unlock
  have hs3 : s3.Inv := by
    unfold s3
    split
    · exact hs2
    · exact hs2.modTeam
  have hs4 : s4.Inv := hs3.dropHand
  exact hs4.same rfl

/-- A group killed with its record, its copies and its requests (R393). -/
theorem State.Inv.killGroup {gid cause second tpc tval} (h : s.Inv) :
    (s.killGroup gid cause second tpc tval).Inv := by
  unfold State.killGroup
  split
  · exact h
  · extract_lets +onlyGivenNames s1 s2 s3 s4
    have hs1 : s1.Inv := h.killRecord
    have hs2 : s2.Inv := hs1.stopCopies
    have hs3 : s3.Inv := hs2.dropRequests
    have hs4 : s4.Inv := by
      unfold s4
      split
      · exact hs3.modGrid
      · exact hs3
    exact hs4.removeGroup

/-! ## Traps and the issue of an instruction -/

theorem State.Inv.enterTrap {x gid g p cause tval tmask} (h : s.Inv) :
    (s.enterTrap x gid g p cause tval tmask).Inv :=
  h.setSbytes.setGroup

theorem State.Inv.takeTrap {gid g p cause tval tmask} (h : s.Inv) : (s.takeTrap gid g p cause tval tmask).Inv := by
  unfold State.takeTrap
  split
  · split
    · exact h.killGroup
    · exact h.enterTrap
  · exact h.killGroup
  · exact h.killGroup

theorem State.Inv.leaveHandler {x gid g h3 pc} (h : s.Inv) : (s.leaveHandler x gid g h3 pc).Inv :=
  h.setGroup

theorem State.Inv.synced {gid} (h : s.Inv) : (s.synced gid).Inv :=
  h.modGroup

theorem State.Inv.scoreboard {e : Env} {gid g0 sp} (h : s.Inv) : (s.scoreboard gid g0 sp e).Inv :=
  h.modGroup

theorem State.Inv.ended {gid g0 p sp e r} (h : s.Inv) (hr : r.Inv) : (s.ended gid g0 p sp e r).Inv := by
  cases r with
  | ok t => exact State.Inv.modGroup (State.Inv.scoreboard hr)
  | goto t pc => exact State.Inv.modGroup (State.Inv.scoreboard hr)
  | park t st pc => exact State.Inv.modGroup (State.Inv.scoreboard hr)
  | block t w m => exact State.Inv.modGroup hr
  | retry w => exact h.modGroup
  | trap c tval tmask => exact h.takeTrap
  | kill t c tval => exact State.Inv.killGroup hr
  | placed t => exact State.Inv.scoreboard hr

/-- The end of an issue, whatever its meaning answers. -/
theorem State.Inv.finish {e : Env} {gid g0 p sp r} (h : s.Inv) (hr : r.Inv) : (s.finish gid g0 p sp e r).Inv := by
  unfold State.finish
  split
  · exact (h.ended hr).modGroup
  · exact h.ended hr

theorem State.Inv.issueAt {gid g p sp} {body : Env → Res} (h : s.Inv) (hb : ∀ e, e.s.Inv → (body e).Inv) :
    (s.issueAt gid g p sp body).Inv := by
  unfold State.issueAt
  split
  · exact h.takeTrap
  · split
    · exact h.modGroup
    · split
      · exact h.modGroup
      · exact h.finish (hb _ (State.Inv.setGroup (h.same rfl)))

theorem State.Inv.resumeAt {gid g p w sp} {body : Env → Res} (h : s.Inv) (hb : ∀ e, e.s.Inv → (body e).Inv) :
    (s.resumeAt gid g p w sp body).Inv :=
  h.finish (hb _ h)

/-- The law of `issue` for the invariant: an instruction keeps it when its meaning does. -/
theorem issue_inv {sp} {body : Env → Res} (h : s.Inv) (hb : ∀ e, e.s.Inv → (body e).Inv) :
    OutcomeInv (issue sp body s) := by
  unfold issue
  split
  · trivial
  · split
    · trivial
    · split
      · trivial
      · split
        · exact h.issueAt hb
        · exact h.resumeAt hb

/-! ## What a meaning does to the issuing group -/

theorem State.Inv.upd {e : Env} {g} (h : e.s.Inv) : (e.upd g).Inv :=
  h.setGroup

theorem State.Inv.owe {gid op} (h : s.Inv) : (s.owe gid op).Inv :=
  State.Inv.modGroup (h.same rfl)

theorem State.Inv.waitRoom {e : Env} {w} (h : e.s.Inv) : (e.waitRoom w).Inv := by
  unfold Env.waitRoom
  split
  · exact h
  · exact trivial

theorem illegal_inv {e : Env} {cause} : (e.illegal cause).Inv := trivial

theorem State.Inv.flagged {e : Env} {lf g} (h : e.s.Inv) : (e.flagged lf g).Inv := by
  unfold Env.flagged
  extract_lets +onlyGivenNames all en
  split
  · exact trivial
  · exact h.upd

theorem State.Inv.fpWrite {e : Env} {px vd f} (h : e.s.Inv) : (e.fpWrite px vd f).Inv :=
  h.flagged

theorem fpV3_inv {base f rounds rawB op} (h : s.Inv) : OutcomeInv (fpV3 base f rounds rawB op s) :=
  issue_inv h (fun _ he => he.fpWrite)

theorem fpVU_inv {base f rounds op} (h : s.Inv) : OutcomeInv (fpVU base f rounds op s) :=
  issue_inv h (fun _ he => he.fpWrite)

theorem fpBits_inv {base f op} (h : s.Inv) : OutcomeInv (fpBits base f op s) :=
  issue_inv h (fun _ he => he.upd)

theorem State.Inv.fpPred {e : Env} {px pd f} (h : e.s.Inv) : (e.fpPred px pd f).Inv :=
  h.flagged

theorem State.Inv.ufp {e : Env} {sd r} (h : e.s.Inv) : (e.ufp sd r).Inv :=
  h.flagged

theorem ufpBin_inv {base f old op} (h : s.Inv) : OutcomeInv (ufpBin base f old op s) :=
  issue_inv h (fun _ he => he.ufp)

theorem intV3_inv {base f op} (h : s.Inv) : OutcomeInv (intV3 base f op s) :=
  issue_inv h (fun _ he => he.upd)

theorem intVU_inv {base f op} (h : s.Inv) : OutcomeInv (intVU base f op s) :=
  issue_inv h (fun _ he => he.upd)

theorem intUn_inv {base f op} (h : s.Inv) : OutcomeInv (intUn base f op s) :=
  issue_inv h (fun _ he => he.upd)

theorem icmpV3_inv {base f uns} (h : s.Inv) : OutcomeInv (icmpV3 base f uns s) :=
  issue_inv h (fun _ he => he.upd)

theorem icmpVU_inv {base f uns} (h : s.Inv) : OutcomeInv (icmpVU base f uns s) :=
  issue_inv h (fun _ he => he.upd)

theorem State.Inv.convert {e : Env} {px vd va td op} (h : e.s.Inv) : (e.convert px vd va td op).Inv :=
  h.flagged

theorem State.Inv.xWrite {e : Env} {px vd nd f} (h : e.s.Inv) : (e.xWrite px vd nd f).Inv :=
  h.flagged

theorem xPair_inv {base f op} (h : s.Inv) : OutcomeInv (xPair base f op s) :=
  issue_inv h (fun _ he => he.xWrite)

theorem xBin_inv {words st px vd va vb one unary dist op} (h : s.Inv) :
    OutcomeInv (xBin words st px vd va vb one unary dist op s) :=
  issue_inv h (fun _ he => he.xWrite)

/-! ## Loads, stores and atomics -/

theorem firstBad_inv {ok cs tmask r} (e : firstBad ok cs tmask = some r) : r.Inv := by
  unfold firstBad at e
  dsimp only at e
  split at e
  · cases e
  · split at e
    · cases e
    · cases e; trivial

/-- A check that refuses an access answers a trap, or a wait that holds the state as it stands (R271, R354). -/
theorem State.Inv.checkAll {e : Env} {acc tmask as r} (h : e.s.Inv) (hr : e.checkAll acc tmask as = .error r) :
    r.Inv := by
  unfold Env.checkAll at hr
  dsimp only at hr
  split at hr
  · next hb => cases hr; exact firstBad_inv hb
  · split at hr
    · cases hr; exact h
    · split at hr
      · next hb => cases hr; exact firstBad_inv hb
      · split at hr
        · cases hr
        · cases hr; trivial

theorem State.Inv.touch {e : Env} {a p home} (h : s.Inv) : (e.touch s a p home).Inv := by
  unfold Env.touch
  extract_lets +onlyGivenNames core s1
  have hs1 : s1.Inv := h.install.lastPage
  split
  · exact hs1.countPage
  · exact hs1

theorem State.Inv.notePoison {gid addr bad} (h : s.Inv) : (s.notePoison gid addr bad).Inv := by
  unfold State.notePoison
  split
  · exact h
  · exact h.modGroup

theorem State.Inv.readOne {e : Env} {strong noAlloc a p} (h : s.Inv) : (e.readOne s strong noAlloc a p).1.Inv := by
  unfold Env.readOne
  extract_lets +onlyGivenNames cl
  split
  · exact h.l1FlushAll.touch
  · exact h.staleRead.touch.readFill

theorem State.Inv.readAll {e : Env} {strong noAlloc ps} (h : s.Inv) : (e.readAll s strong noAlloc ps).1.Inv := by
  induction ps generalizing s with
  | nil => exact h
  | cons x r ih => exact ih h.readOne.notePoison

theorem mergeRace_inv {old k u done n bs} (h : s.Inv) : (mergeRace s old k u done n bs).1.Inv := by
  induction n generalizing bs with
  | zero => exact h
  | succ n ih =>
    unfold mergeRace
    dsimp only
    split
    · exact ih.fresh
    · exact ih

theorem State.Inv.writeAll {e : Env} {strong u done xs} (h : s.Inv) : (e.writeAll s strong u done xs).Inv := by
  induction xs generalizing s done with
  | nil => exact h
  | cons x r ih =>
    obtain ⟨⟨a, p⟩, x⟩ := x
    unfold Env.writeAll
    extract_lets +onlyGivenNames cl bs s0 old m s1 s2
    have hs0 : s0.Inv := by
      refine State.Inv.touch ?_
      split
      · exact h.l1FlushAll
      · exact h
    have hm : m.1.Inv := by
      unfold m
      split
      · exact mergeRace_inv hs0
      · exact hs0
    have hs2 : s2.Inv := by
      unfold s2
      split
      · exact hm.noteOld.coreStrongPut
      · exact hm.noteOld.weakPut
    exact ih hs2

theorem State.Inv.access {e : Env} {acc counter tmask as} {k : List (LaneAcc × Place) → Res} (h : e.s.Inv)
    (hk : ∀ ps, (k ps).Inv) : (e.access acc counter tmask as k).Inv := by
  unfold Env.access
  split
  · next hr => exact h.checkAll hr
  · split
    · exact h.waitRoom
    · split
      · exact h
      · exact hk _

theorem State.Inv.ordered {e : Env} {acq rel} (h : s.Inv) : (e.ordered s acq rel).Inv := by
  unfold Env.ordered
  extract_lets +onlyGivenNames s1
  have hs1 : s1.Inv := by
    unfold s1
    split
    · exact h.settleLines
    · exact h
  split
  · exact hs1.synced
  · exact hs1

theorem State.Inv.settled {e : Env} (h : s.Inv) : (e.settled s).Inv :=
  h.settleLines

theorem State.Inv.load {e : Env} {att tmask as dests} (h : e.s.Inv) : (e.load att tmask as dests).Inv :=
  h.access (fun _ => h.readAll.ordered.owe)

theorem State.Inv.release {e : Env} {rel k} (h : e.s.Inv) (hk : k.Inv) : (e.release rel k).Inv := by
  unfold Env.release
  split
  · exact h.waitRoom
  · exact hk

theorem State.Inv.store {e : Env} {att u tmask as vals} (h : e.s.Inv) : (e.store att u tmask as vals).Inv :=
  h.access (fun _ => h.release h.ordered.writeAll.owe)

theorem vload_inv {base f z sx} (h : s.Inv) : OutcomeInv (vload base f z sx s) :=
  issue_inv h (fun _ he => he.load)

theorem vstore_inv {base f z} (h : s.Inv) : OutcomeInv (vstore base f z s) :=
  issue_inv h (fun _ he => he.store)

theorem uload_inv {base f n} (h : s.Inv) : OutcomeInv (uload base f n s) :=
  issue_inv h (fun _ he => he.load)

theorem ustore_inv {base f n} (h : s.Inv) : OutcomeInv (ustore base f n s) :=
  issue_inv h (fun _ he => he.store)

theorem State.Inv.rmwAll {e : Env} {f ps} (h : s.Inv) : (e.rmwAll f s ps).1.Inv := by
  induction ps generalizing s with
  | nil => exact h
  | cons x r ih =>
    exact ih (State.Inv.notePoison (State.Inv.coreStrongPut (State.Inv.noteOld (State.Inv.touch h.l1FlushAll))))

theorem State.Inv.rmw {e : Env} {f ps} (h : e.s.Inv) : (e.rmw f ps).1.Inv := by
  unfold Env.rmw
  split
  · exact h.rmwAll
  · exact State.Inv.rmwAll (h.same rfl)

theorem State.Inv.waitCollapse {e : Env} {f} (h : e.s.Inv) : (e.waitCollapse f).Inv := by
  unfold Env.waitCollapse
  split
  · show State.Inv _
    split
    · exact h
    · exact h.collapse
  · exact h

theorem State.Inv.atomics {e : Env} {acqrel tmask as new dests} (h : e.s.Inv) :
    (e.atomics acqrel tmask as new dests).Inv := by
  unfold Env.atomics
  refine h.access (fun a => ?_)
  split
  · exact h.waitCollapse
  · exact h.release h.ordered.rmw.ordered.owe

theorem uatomic_inv {base f n new} (h : s.Inv) : OutcomeInv (uatomic base f n new s) :=
  issue_inv h (fun _ he => he.atomics)

theorem vatomic_inv {base f z n nret typed op} (h : s.Inv) : OutcomeInv (vatomic base f z n nret typed op s) :=
  issue_inv h (fun _ he => he.atomics)

theorem vatomic1_inv {base f op} (h : s.Inv) : OutcomeInv (vatomic1 base f op s) :=
  vatomic_inv h

/-! ## Rings, uniform operations and register deliveries -/

theorem State.Inv.takenCopies {tid ring slot} (h : s.Inv) : (s.takenCopies tid ring slot).Inv :=
  h.same rfl

theorem State.Inv.publishSlot {tid ring slot mask} (h : s.Inv) : (s.publishSlot tid ring slot mask).Inv :=
  h.takenCopies.modRing

theorem State.Inv.rpush {e : Env} {ring mask sd pub claim} (h : e.s.Inv) :
    (e.rpush ring mask sd pub claim).Inv := by
  unfold Env.rpush
  split
  · exact illegal_inv
  · split
    · exact illegal_inv
    · extract_lets +onlyGivenNames fresh
      split
      · exact illegal_inv
      · split
        · exact illegal_inv
        · split
          · exact illegal_inv
          · extract_lets +onlyGivenNames s1 s2 r2
            have hs1 : s1.Inv := h.modRing
            have hs2 : s2.Inv := by
              unfold s2
              split
              · exact hs1.publishSlot.modRing
              · exact hs1
            split
            · split
              · exact hs2.modRing.modGroup
              · exact hs2
            · exact hs2

theorem State.Inv.rpop {e : Env} {ring j sd rel take} (h : e.s.Inv) : (e.rpop ring j sd rel take).Inv := by
  unfold Env.rpop
  split
  · exact illegal_inv
  · split
    · exact illegal_inv
    · split
      · exact illegal_inv
      · extract_lets +onlyGivenNames fresh
        split
        · exact illegal_inv
        · split
          · exact illegal_inv
          · split
            · exact illegal_inv
            · extract_lets +onlyGivenNames p1 r1 r2
              split
              · split
                · exact h.modRing.modGroup.synced
                · exact h.modRing.modGroup
                · exact h.modRing
              · exact h.modRing

theorem uniBin_inv {base f op} (h : s.Inv) : OutcomeInv (uniBin base f op s) :=
  issue_inv h (fun _ he => he.upd)

theorem uniTest_inv {base f op} (h : s.Inv) : OutcomeInv (uniTest base f op s) :=
  issue_inv h (fun _ he => he.upd)

theorem uniUn_inv {base f op} (h : s.Inv) : OutcomeInv (uniUn base f op s) :=
  issue_inv h (fun _ he => he.upd)

theorem State.Inv.setTime {v} (h : s.Inv) : (s.setTime v).Inv := by
  unfold State.setTime
  split
  · exact h
  · exact h.same rfl

theorem State.Inv.clearCe (h : s.Inv) : (s.clearCe).Inv :=
  h.same rfl

theorem State.Inv.syncImage {gid} (h : s.Inv) : (s.syncImage gid).Inv := by
  unfold State.syncImage
  split
  · exact h
  · split
    · exact State.Inv.setSbytes (h.same rfl)
    · exact h

theorem State.Inv.deliverImage {sec g r lanes v} (h : s.Inv) : (s.deliverImage sec g r lanes v).Inv :=
  (h.foldl fun _ _ k => k.writeMem).writeMem

/-- A delivery to registers, or to the seat's saved image (R336, R337, R341). -/
theorem State.Inv.applyDelivery {part addr lanes v0 v1} (h : s.Inv) :
    (s.applyDelivery part addr lanes v0 v1).Inv := by
  unfold State.applyDelivery
  extract_lets +onlyGivenNames r n
  split
  · exact trivial
  · exact trivial
  · split
    · exact trivial
    · split
      · exact trivial
      · exact h.noteSeat.setGroup.syncImage
  · split
    · exact trivial
    · split
      · exact trivial
      · split
        · exact trivial
        · split
          · exact trivial
          · extract_lets +onlyGivenNames s1 s2 g1 s3
            have hs1 : s1.Inv := h.noteSeat.deliverImage
            have hs2 : s2.Inv := by
              unfold s2
              split
              · exact hs1.deliverImage
              · exact hs1
            have hs3 : s3.Inv := hs2.writeMem
            exact hs3.modTeam

/-! ## The copy engine and pots -/

theorem State.Inv.takeLocks {cluster xs} (h : s.Inv) : (s.takeLocks cluster xs).1.Inv := by
  induction xs generalizing s with
  | nil => exact h
  | cons x r ih => exact ih (h.same rfl)

theorem State.Inv.startCopy {e : Env} {c low12 sd} (h : e.s.Inv) : (e.startCopy c low12 sd).Inv := by
  unfold Env.startCopy
  split
  · exact illegal_inv
  · exact trivial
  · extract_lets +onlyGivenNames slot
    unfold slot
    split
    · exact illegal_inv
    · extract_lets +onlyGivenNames core spans
      split
      · exact h.waitRoom
      · split
        · exact h.waitRoom
        · split
          · exact h.waitRoom
          · extract_lets +onlyGivenNames tag q s1 s2
            have hq : q.1.Inv := h.settled.takeLocks
            have hs1 : s1.Inv := by
              unfold s1
              split
              · exact hq
              · split
                · exact hq.modRing
                · exact hq
            have hs2 : s2.Inv := hs1.same rfl
            exact hs2.modGroup

theorem copyWord_inv {base f kind} (h : s.Inv) : OutcomeInv (copyWord base f kind s) :=
  issue_inv h (fun _ he => he.startCopy)

theorem State.Inv.touchPlaces {ag ps} (h : s.Inv) : (s.touchPlaces ag ps).Inv :=
  h.foldl fun _ _ k => k.install.countPage

theorem State.Inv.engineTouch {ag rs} (h : s.Inv) : (s.engineTouch ag rs).Inv :=
  h.touchPlaces

theorem State.Inv.setCopy {cid c} (h : s.Inv) : (s.setCopy cid c).Inv :=
  h.same rfl

theorem State.Inv.stopCopy {cid c cause addr} (h : s.Inv) : (s.stopCopy cid c cause addr).Inv :=
  h.failCopyPot.setCopy

theorem State.Inv.creditChunk {cid c} (h : s.Inv) : (s.creditChunk cid c).Inv := by
  unfold State.creditChunk
  extract_lets +onlyGivenNames n c1
  split
  · split
    · exact h
    · split
      · next heq2 =>
          exact (h.applyArrival.state heq2).setCopy
      · exact h
      · exact h.stopCopy
      · exact h.setCopy
  · split
    · exact h.creditPot.setCopy
    · exact h.setCopy

theorem State.Inv.moveChunk {cid c} (h : s.Inv) : (s.moveChunk cid c).Inv := by
  unfold State.moveChunk
  extract_lets +onlyGivenNames d col
  split
  · exact h
  · exact h.stopCopy
  · extract_lets +onlyGivenNames len
    split
    · exact h
    · exact h.stopCopy
    · split
      · exact h
      · exact h.stopCopy
      · exact h.engineTouch.install.countPage.strongPut.setCopy

theorem State.Inv.retireCopy {cid c} (h : s.Inv) : (s.retireCopy cid c).Inv := by
  unfold State.retireCopy
  extract_lets +onlyGivenNames s1 old
  have hs1 : s1.Inv := h.setCopy.modGroup.syncImage
  split
  · exact hs1.same rfl
  · exact hs1

theorem State.Inv.completeCopy {cid c} (h : s.Inv) : (s.completeCopy cid c).Inv := by
  unfold State.completeCopy
  split
  · exact h
  · extract_lets +onlyGivenNames s1 c1
    have hs1 : s1.Inv := h.unlock.modGroup.syncImage
    split
    · split
      · exact hs1.retireCopy
      · exact hs1.publishSlot.setCopy
    · exact hs1.retireCopy

theorem State.Inv.settleCopy {cid} (h : s.Inv) : (s.settleCopy cid).Inv := by
  unfold State.settleCopy
  split
  · split
    · exact h.completeCopy
    · exact h
  · exact h

theorem State.Inv.toCollapse {p} (h : s.Inv) : OptionInv (s.toCollapse p) := by
  unfold State.toCollapse
  split
  · exact trivial
  · split
    · exact trivial
    · show State.Inv _
      split
      · exact h
      · exact h.collapse

theorem potTrap_inv {e : Env} {off r} (hr : e.potTrap off = some r) : r.Inv := by
  unfold Env.potTrap at hr
  dsimp only at hr
  split at hr
  · cases hr; trivial
  · split at hr
    · cases hr; trivial
    · cases hr

/-! ## Streams, and requests to another package -/

theorem State.Inv.landOp {gid id} (h : s.Inv) : (s.landOp gid id).Inv := by
  unfold State.landOp
  split
  · exact h
  · split
    · exact h
    · exact State.Inv.syncImage (State.Inv.setGroup (h.same rfl))

theorem State.Inv.modStream {slot q f} (h : s.Inv) : (s.modStream slot q f).Inv := by
  unfold State.modStream
  split
  · exact h.same rfl
  · exact h

theorem State.Inv.recordCause {slot q c} (h : s.Inv) : (s.recordCause slot q c).Inv := by
  unfold State.recordCause
  split
  · exact h.modStream
  · exact h

theorem State.Inv.withSlot {gid g} (h : s.Inv) : (s.withSlot gid g).1.Inv := by
  unfold State.withSlot
  split
  · exact h
  · exact State.Inv.modGroup (h.same rfl)

theorem State.Inv.setReq {rid q} (h : s.Inv) : (s.setReq rid q).Inv :=
  h.same rfl

theorem State.Inv.depart {rid q} (h : s.Inv) : (s.depart rid q).Inv :=
  h.setReq

theorem State.Inv.releaseReqs (h : s.Inv) : (s.releaseReqs).Inv := by
  unfold State.releaseReqs
  refine h.foldl fun u a k => ?_
  split
  · split
    · exact k.depart
    · exact k
  · exact k

theorem State.Inv.request {e : Env} {q tgt ds} (h : e.s.Inv) : (e.request q tgt ds).Inv := by
  unfold Env.request
  split
  · exact h.waitRoom
  · extract_lets +onlyGivenNames a
    have ha : a.1.Inv := h.withSlot
    split
    · exact ha.recordCause.modGroup
    · extract_lets +onlyGivenNames s1 q1
      have hs1 : s1.Inv := by
        unfold s1
        split
        · exact ha.modGroup
        · exact ha.owe
      exact State.Inv.releaseReqs (State.Inv.setReq (hs1.same rfl))

theorem streamError_inv {e : Env} {q k} (hk : k.Inv) : (e.streamError q k).Inv := by
  unfold Env.streamError
  split
  · trivial
  · exact hk

theorem State.Inv.released {e : Env} {rel} (h : e.s.Inv) : (e.released rel).s.Inv := by
  unfold Env.released
  split
  · exact h.ordered
  · exact h

theorem State.Inv.remote {e : Env} {kind stream counter sb v px x y ret rel} (h : e.s.Inv) :
    (e.remote kind stream counter sb v px x y ret rel).Inv := by
  unfold Env.remote
  extract_lets +onlyGivenNames e2
  have he2 : e2.s.Inv := h.released
  refine streamError_inv ?_
  extract_lets +onlyGivenNames lanes r
  split
  · exact trivial
  · exact he2.release he2.request

theorem State.Inv.deliver {e : Env} {rel stream a v0 v1} (h : e.s.Inv) : (e.deliver rel stream a v0 v1).Inv :=
  streamError_inv (h.released.release h.released.request)

theorem xredSend_inv {base f first} (h : s.Inv) : OutcomeInv (xredSend base f first s) := by
  unfold xredSend
  refine issue_inv h (fun e he => ?_)
  extract_lets +onlyGivenNames a
  split
  · exact trivial
  · exact he.deliver

theorem State.Inv.watchPkg {pkg} (h : s.Inv) : (s.watchPkg pkg).Inv := by
  unfold State.watchPkg
  split
  · exact h
  · exact h.same rfl

theorem State.Inv.freezeStream {rid serial q} (h : s.Inv) : (s.freezeStream rid serial q).Inv :=
  h.modStream.same rfl

theorem State.Inv.failXferPot {rid q} (h : s.Inv) : (s.failXferPot rid q).Inv := by
  unfold State.failXferPot
  split
  · split
    · exact h.arrive
    · exact h.same rfl
  · exact h

theorem State.Inv.failReq {rid cause} (h : s.Inv) : (s.failReq rid cause).Inv := by
  unfold State.failReq
  split
  · exact h
  · split
    · exact h
    · exact h.failXferPot.setReq

theorem State.Inv.resumeStream {slot stream serial fail} (h : s.Inv) :
    (s.resumeStream slot stream serial fail).Inv := by
  unfold State.resumeStream
  extract_lets +onlyGivenNames t
  split
  · split
    · exact h.foldl fun _ _ k => k.failReq
    · exact h
  · split
    · exact (h.foldl fun _ _ k => k.failReq).modStream.same rfl
    · exact State.Inv.releaseReqs (State.Inv.modStream (h.same rfl))

/-- A resumption lists an event for this package's own stream (R322), which has no words. -/
theorem State.Inv.rresume {part x fail} (h : s.Inv) : (s.rresume part x fail).Inv := by
  unfold State.rresume
  split
  · exact h
  · split
    · extract_lets +onlyGivenNames s0
      have hs0 : s0.Inv := by
        unfold s0
        split
        · split
          · extract_lets +onlyGivenNames s1
            have hs1 : s1.Inv := by
              unfold s1
              split
              · exact h
              · exact h.freezeStream
            split
            · split
              · exact hs1.failReq
              · exact hs1.setReq
            · exact hs1
          · exact h
        · exact h
      refine ⟨hs0.1, fun i hi => ?_⟩
      rcases List.mem_append.1 hi with hi | hi
      · exact hs0.2 i hi
      · rw [List.mem_singleton.1 hi]; rfl
    · exact h.same rfl

theorem State.Inv.remoteRun {part k ps} (h : s.Inv) : (s.remoteRun part k ps).1.Inv := by
  induction ps generalizing s with
  | nil => exact h
  | cons x r ih =>
    refine ih ?_
    split
    · exact h.installRemote.strongPut
    · exact h.installRemote

theorem State.Inv.remotePerform {part k ps} (h : s.Inv) : (s.remotePerform part k ps).1.Inv := by
  unfold State.remotePerform
  split
  · exact h.remoteRun
  · exact State.Inv.remoteRun (h.same rfl)

theorem State.Inv.remoteCollapse {k ps} (h : s.Inv) : OptionInv (s.remoteCollapse k ps) := by
  unfold State.remoteCollapse
  split
  · trivial
  · cases e : ps.findSome? fun x => s.toCollapse x.2 with
    | none => trivial
    | some t =>
      obtain ⟨x, -, hx⟩ := List.exists_of_findSome?_eq_some e
      exact h.toCollapse.state hx

theorem State.Inv.freezeHere {z} (h : s.Inv) : (s.freezeHere z).Inv :=
  h.same rfl

theorem State.Inv.freezeForeign {z} (h : s.Inv) : (s.freezeForeign z).Inv :=
  State.Inv.freezeHere (h.same rfl)

theorem State.Inv.replayed {req} (h : s.Inv) : (s.replayed req).Inv :=
  h.same rfl

theorem State.Inv.send {pkg slot stream m} (h : s.Inv) : (s.send pkg slot stream m).Inv :=
  h.same rfl

theorem State.Inv.freezeOwn {rid q va cause access} (h : s.Inv) : (s.freezeOwn rid q va cause access).Inv :=
  h.modStream.setReq.freezeHere

theorem State.Inv.accessOwn {rid} (h : s.Inv) : (s.accessOwn rid).Inv := by
  unfold State.accessOwn
  split
  · exact h
  · split
    · exact h
    · split
      · exact h
      · split
        · exact h
        · exact h.freezeOwn
        · split
          · exact h.failReq
          · split
            · next heq4 =>
                exact h.remoteCollapse.state heq4
            · exact h.remotePerform.setReq

theorem State.Inv.enterForeign {part r} (h : s.Inv) : (s.enterForeign part r).2.Inv :=
  h.same rfl

theorem State.Inv.dropForeign {k} (h : s.Inv) : (s.dropForeign k).Inv :=
  h.same rfl

theorem State.Inv.answerForeign {k} (h : s.Inv) : (s.answerForeign k).Inv := by
  unfold State.answerForeign
  split
  · exact h
  · split
    · exact h
    · split
      · exact h.dropForeign.send
      · extract_lets +onlyGivenNames a
        split
        · exact h.dropForeign.send
        · split
          · next heq3 =>
              exact (h.applyArrival.state heq3).dropForeign.send
          · exact h.dropForeign.holdArrival
          · exact h.dropForeign.send
          · exact h.dropForeign.send
      · exact h

theorem State.Inv.doneForeign {k vals lines walked} (h : s.Inv) : (s.doneForeign k vals lines walked).Inv := by
  unfold State.doneForeign
  split
  · exact h
  · exact State.Inv.answerForeign (h.same rfl)

theorem State.Inv.performForeign {k part r} (h : s.Inv) : (s.performForeign k part r).Inv := by
  unfold State.performForeign
  split
  · exact h
  · exact h.replayed.freezeForeign.send
  · split
    · exact h.replayed.dropForeign.send
    · split
      · next heq2 =>
          exact h.remoteCollapse.state heq2
      · exact h.replayed.remotePerform.doneForeign

theorem State.Inv.accessForeign {r} (h : s.Inv) : (s.accessForeign r).Inv := by
  unfold State.accessForeign
  split
  · exact h
  · split
    · exact h.send
    · extract_lets +onlyGivenNames q
      have hq : q.2.Inv := h.enterForeign
      split
      · exact hq
      · exact hq.performForeign

theorem State.Inv.accessWaiting {k} (h : s.Inv) : (s.accessWaiting k).Inv := by
  unfold State.accessWaiting
  split
  · exact h
  · split
    · split
      · exact h.answerForeign
      · split
        · exact h
        · exact h.performForeign
    · exact h

theorem State.Inv.finishReq {rid q cause vals} (h : s.Inv) : (s.finishReq rid q cause vals).Inv := by
  unfold State.finishReq
  extract_lets +onlyGivenNames s0 s1
  have hs0 : s0.Inv := h.same rfl
  have hs1 : s1.Inv := hs0.unlock
  split
  · exact hs1.releaseReqs
  · extract_lets +onlyGivenNames s2 s3
    have hs2 : s2.Inv := hs1.recordCause
    have hs3 : s3.Inv := by
      unfold s3
      split
      · exact hs2.modGroup.landOp
      · exact hs2.modGroup.syncImage
    exact hs3.releaseReqs

theorem State.Inv.creditXfer {rid q len pot} (h : s.Inv) : (s.creditXfer rid q len pot).Inv := by
  unfold State.creditXfer
  extract_lets +onlyGivenNames q1
  split
  · exact h.setReq
  · split
    · next heq =>
        exact (h.applyArrival.state heq).setReq
    · exact h
    · exact h.failReq
    · exact h.failReq

theorem State.Inv.chunkOwn {ag ps rid q a len n space pot bs} (h : s.Inv) :
    (s.chunkOwn ag ps rid q a len n space pot bs).Inv := by
  unfold State.chunkOwn
  extract_lets +onlyGivenNames a2
  split
  · exact h
  · exact h.failReq
  · split
    · split
      · next heq2 =>
          exact (h.applyArrival.state heq2).touchPlaces.setReq
      · exact h
    · split
      · exact h
      · exact h.freezeOwn
      · split
        · exact h
        · exact h.touchPlaces.installRemote.strongPut.setReq

theorem State.Inv.stepXfer {rid} (h : s.Inv) : (s.stepXfer rid).Inv := by
  unfold State.stepXfer
  split
  · exact h
  · split
    · split
      · exact h
      · split
        · split
          · exact h.creditXfer
          · exact h
        · split
          · exact h
          · split
            · exact h
            · extract_lets +onlyGivenNames at_ n ag from_
              split
              · exact h
              · exact h.failReq
              · split
                · exact h.chunkOwn
                · exact h.engineTouch.send.setReq.releaseReqs
    · exact h

theorem State.Inv.failForeignPot {part c} (h : s.Inv) : (s.failForeignPot part c).Inv := by
  unfold State.failForeignPot
  split
  · exact h.arrive
  · exact h

theorem State.Inv.writeChunk {k part c} (h : s.Inv) : (s.writeChunk k part c).Inv := by
  unfold State.writeChunk
  extract_lets +onlyGivenNames s0 out a
  have hs0 : s0.Inv := h.replayed
  have hout : ∀ {t x}, t.Inv → (out t x).Inv := fun ht => ht.dropForeign.send
  split
  · exact hout hs0.failForeignPot
  · split
    · exact hs0.dropForeign.holdArrival
    · exact h
  · split
    · split
      · next heq => exact hout (hs0.applyArrival.state heq)
      · exact h
    · split
      · exact h
      · exact hs0.freezeForeign.send
      · split
        · exact h
        · exact hs0.installRemote.strongPut.doneForeign

theorem State.Inv.chunkForeign {c} (h : s.Inv) : (s.chunkForeign c).Inv := by
  unfold State.chunkForeign
  split
  · exact h
  · split
    · exact h.send
    · split
      · exact h.failForeignPot
      · extract_lets +onlyGivenNames q
        have hq : q.2.Inv := h.enterForeign
        split
        · exact hq
        · exact hq.writeChunk

theorem State.Inv.chunkWaiting {k} (h : s.Inv) : (s.chunkWaiting k).Inv := by
  unfold State.chunkWaiting
  split
  · exact h
  · split
    · split
      · exact h.answerForeign
      · split
        · exact h
        · exact h.writeChunk
    · exact h

theorem State.Inv.answerDelivery {d cause} (h : s.Inv) : (s.answerDelivery d cause).Inv :=
  h.send

theorem State.Inv.holdDelivery {part d} (h : s.Inv) : (s.holdDelivery part d).Inv :=
  h.same rfl

theorem State.Inv.deliverHere {did part d} (h : s.Inv) : (s.deliverHere did part d).Inv := by
  unfold State.deliverHere
  extract_lets +onlyGivenNames gone
  have hgone : gone.Inv := by
    unfold gone
    split
    · exact h.same rfl
    · exact h
  split
  · split
    · exact h
    · exact h.holdDelivery
  · next heq =>
      exact State.Inv.answerDelivery ((h.applyDelivery.state heq).same rfl)
  · exact hgone.answerDelivery

theorem State.Inv.deliverOwn {rid} (h : s.Inv) : (s.deliverOwn rid).Inv := by
  unfold State.deliverOwn
  split
  · exact h
  · split
    · split
      · exact h
      · split
        · exact h
        · next heq3 =>
            exact (h.applyDelivery.state heq3).setReq
        · exact h.setReq
    · exact h

theorem State.Inv.deliverHeld {did} (h : s.Inv) : (s.deliverHeld did).Inv := by
  unfold State.deliverHeld
  split
  · split
    · exact h
    · exact h.deliverHere
  · exact h

theorem State.Inv.declareFailed {pkg} (h : s.Inv) : (s.declareFailed pkg).Inv :=
  State.Inv.foldl (State.Inv.foldl (h.same rfl) fun _ _ k => k.modStream) fun _ _ k => k.failReq

theorem State.Inv.planeDies {pkg plane} (h : s.Inv) : (s.planeDies pkg plane).Inv :=
  h.same rfl

/-! ## Pages: pools, moves, copies, and the host's side -/

theorem poolTrap_inv {c} : (poolTrap c).Inv := trivial

theorem State.Inv.setPool {part k fs} (h : s.Inv) : (s.setPool part k fs).Inv :=
  h.modPart

@[simp] theorem State.zeroRange_inbox {pa n} : (s.zeroRange pa n).inbox = s.inbox := rfl

theorem State.Inv.zeroRange {pa n} (h : s.Inv) : (s.zeroRange pa n).Inv :=
  h.of (State.memOk_zeroRange _ _ h.1) State.zeroRange_inbox

theorem State.Inv.afterWrites {frame ls} {k : State → Res} (h : s.Inv) (hk : ∀ t, t.Inv → (k t).Inv) :
    (Env.afterWrites s frame ls k).Inv := by
  unfold Env.afterWrites
  split
  · exact hk s h
  · exact h

theorem State.Inv.askMove {e : Env} {sa die} (h : e.s.Inv) : (e.askMove sa die).Inv := by
  unfold Env.askMove
  split
  · exact h
  · extract_lets +onlyGivenNames r
    show State.Inv _
    split
    · exact h.same rfl
    · exact h.same rfl

theorem State.Inv.copyFrame {key src dst} (h : s.Inv) : (s.copyFrame key src dst).Inv :=
  (h.foldl fun _ _ k => k.setBytes).dirStrong

theorem State.Inv.takeFrames {part ds fs t} (h : s.Inv) (e : s.takeFrames part ds = some (fs, t)) : t.Inv := by
  induction ds generalizing s fs with
  | nil => cases e; exact h
  | cons d r ih =>
    unfold State.takeFrames at e
    split at e
    · cases e
    · next hp =>
      obtain ⟨q, hq, he⟩ := Option.map_eq_some_iff.1 e
      cases he
      exact ih (h.popFrame hp) hq

theorem State.Inv.writeEntry {a e} (h : s.Inv) : (s.writeEntry a e).Inv :=
  h.writeMem

theorem State.Inv.setMove {f r m} (h : s.Inv) : (s.setMove f r m).Inv :=
  h.setPage

theorem State.Inv.pushFrames {part fs} (h : s.Inv) : (s.pushFrames part fs).Inv :=
  h.foldl fun _ _ k => k.pushFrame

theorem State.Inv.dupEnds {e : Env} {sd x} (h : s.Inv) : (e.dupEnds sd x s).Inv :=
  h.modGroup

theorem State.Inv.dupRemap {e : Env} {sd f} (h : s.Inv) : (e.dupRemap sd f s).Inv := by
  unfold Env.dupRemap
  extract_lets +onlyGivenNames r
  clear_value r
  split
  · generalize s.memNat _ 8 = old
    split
    · exact h.setMove.writeEntry.afterWrites fun t k => State.Inv.dupEnds k.setMove
    · exact State.Inv.dupEnds (State.Inv.pushFrames h.setPage)
  · exact State.Inv.dupEnds h.setMove

theorem State.Inv.dupCopy {e : Env} {x sd f} (h : s.Inv) : (e.dupCopy x sd f s).Inv := by
  unfold Env.dupCopy
  extract_lets +onlyGivenNames r
  clear_value r
  split
  · split
    · extract_lets +onlyGivenNames s1
      have hs1 : s1.Inv := h.setMove
      refine State.Inv.dupEnds ?_
      split
      · exact hs1.writeEntry
      · exact hs1
    · next heq =>
      extract_lets +onlyGivenNames s2 s3
      have hs2 : s2.Inv := (h.takeFrames heq).foldl fun _ _ k => k.copyFrame
      have hs3 : s3.Inv := hs2.setPage
      exact hs3.afterWrites fun t k => k.dupRemap
  · exact h.dupRemap

theorem State.Inv.dupClaim {e : Env} {x sd f a dup} (h : e.s.Inv) : (e.dupClaim x sd f a dup).Inv := by
  unfold Env.dupClaim
  extract_lets +onlyGivenNames old r
  clear_value old r
  split
  · exact h.dupEnds
  · split
    · split
      · exact h.dupEnds
      · exact h.setMove.writeEntry.afterWrites fun t k => k.dupCopy
    · split
      · exact h.dupEnds
      · show State.Inv _
        split
        · exact h
        · exact h.collapse

theorem State.Inv.applyHeld {hs} (h : s.Inv) : (s.applyHeld hs).Inv :=
  h.foldl fun _ _ k => k.storeBytes.dirStrong.foldl fun _ _ j => j.checkReplicas

theorem State.Inv.moveClaim {frame die r} (h : s.Inv) : (s.moveClaim frame die r).Inv := by
  unfold State.moveClaim
  extract_lets +onlyGivenNames s0
  have hs0 : s0.Inv := h.setPage
  split
  · exact hs0
  · extract_lets +onlyGivenNames old
    split
    · exact hs0
    · exact h.setPage.writeEntry

theorem State.Inv.moveCopy {x frame a busy die r} (h : s.Inv) : (s.moveCopy x frame a busy die r).Inv := by
  unfold State.moveCopy
  split
  · exact h.setPage
  · split
    · exact h.setMove.writeEntry
    · next heq =>
        exact (h.popFrame heq).copyFrame.setMove

theorem State.Inv.moveRemap {frame a busy f1 die r} (h : s.Inv) : (s.moveRemap frame a busy f1 die r).Inv := by
  unfold State.moveRemap
  split
  · exact h.setPage.writeEntry
  · exact h.setPage.pushFrame

theorem State.Inv.hostWait {q} (h : s.Inv) : (s.hostWait q).Inv :=
  h.same rfl

theorem State.Inv.hostAnswer {n q} (h : s.Inv) : (s.hostAnswer n q).Inv := by
  unfold State.hostAnswer
  extract_lets +onlyGivenNames s1
  have hs1 : s1.Inv := by
    unfold s1
    split
    · exact h.foldl fun _ _ k => k.dirFill
    · exact h
  exact hs1.same rfl

theorem State.Inv.dropTranslations {part} (h : s.Inv) : (s.dropTranslations part).Inv :=
  (h.foldl fun _ _ k => k.tlbDrop).foldl fun _ _ k => k.dieTlbDrop

/-! ## Branches, fetch, and the wait for a hand -/

theorem branchIf_inv {base f taken rs} (h : s.Inv) : OutcomeInv (branchIf base f taken rs s) := by
  unfold branchIf
  refine issue_inv h (fun e he => ?_)
  split
  · exact he
  · exact he

theorem branchPred_inv {base f taken} (h : s.Inv) : OutcomeInv (branchPred base f taken s) := by
  unfold branchPred
  refine issue_inv h (fun e he => ?_)
  split
  · exact he
  · exact he

theorem State.Inv.jumpTo {e : Env} {a} (h : e.s.Inv) : (e.jumpTo a).Inv := by
  unfold Env.jumpTo
  split
  · exact trivial
  · exact h

theorem waitOn_inv {w st arm c} (h : s.Inv) : OutcomeInv (waitOn w st arm c s) := by
  unfold waitOn
  refine issue_inv h (fun e he => ?_)
  split
  · exact he.upd
  · split
    · exact he.synced
    · exact he

theorem State.Inv.fillHand {gid regs} (h : s.Inv) : (s.fillHand gid regs).Inv :=
  h.same rfl

theorem State.Inv.yielded {e : Env} (h : e.s.Inv) : (e.yielded).Inv :=
  h.setGroup

theorem State.Inv.rejectTrap {gid g p ws r} (h : s.Inv) : (s.rejectTrap gid g p ws r).Inv :=
  h.takeTrap

theorem State.Inv.fetchWait {gid w} (h : s.Inv) : (s.fetchWait gid w).Inv :=
  h.modGroup

theorem State.Inv.fetchMarks {gid g p} (h : s.Inv) : (s.fetchMarks gid g p).Inv := by
  unfold State.fetchMarks
  split
  · exact h.install.countPage
  · exact h

theorem State.Inv.advance (h : s.Inv) : (s.advance).Inv :=
  h.same rfl

theorem State.Inv.issued (h : s.Inv) : (s.issued).Inv :=
  h.same rfl

theorem State.Inv.goOn {gid slot g p} (h : s.Inv) : (s.goOn gid slot g p).Inv := by
  unfold State.goOn
  split
  · exact h.setGroup
  · split
    · exact h
    · exact h.same rfl

/-! ## Barriers, locks, and the choice of a group -/

theorem State.Inv.onSplits {gid f} (h : s.Inv) : (s.onSplits gid f).Inv :=
  h.modGroup

theorem State.Inv.releaseBarrier {t st killed} (h : s.Inv) : (s.releaseBarrier t st killed).Inv := by
  unfold State.releaseBarrier
  refine h.foldl fun v a k => ?_
  split
  · exact k.modGroup
  · exact k

theorem State.Inv.enterLocks {xs} (h : s.Inv) : (s.enterLocks xs).1.Inv := by
  induction xs generalizing s with
  | nil => exact h
  | cons x r ih => exact ih (h.same rfl)

theorem State.Inv.tryLocks {gid g ws t ids} (h : s.Inv) (e : s.tryLocks gid g ws = some (t, ids)) : t.Inv := by
  unfold State.tryLocks at e
  split at e
  · cases e
  · exact h.enterLocks.fst (Option.some.inj e)

theorem State.Inv.lockMatrix {gid g ms} (h : s.Inv) : (s.lockMatrix gid g ms).1.Inv := by
  induction ms generalizing s with
  | nil => exact h
  | cons m r ih =>
    unfold State.lockMatrix
    split
    · exact ih h
    · split
      · exact h
      · next heq => exact ih (h.tryLocks heq)

theorem State.Inv.registerRecords (h : s.Inv) : (s.registerRecords).Inv := by
  unfold State.registerRecords
  extract_lets +onlyGivenNames s1 s2
  have hs1 : s1.Inv := by
    unfold s1
    refine h.foldl fun u a k => ?_
    split
    · split
      · next heq3 =>
          exact (k.tryLocks heq3).same rfl
      · exact k
    · exact k
  have hs2 : s2.Inv := by
    unfold s2
    refine hs1.foldl fun u a k => ?_
    split
    · exact k.lockMatrix.modGroup
    · exact k
  refine hs2.foldl fun u a k => ?_
  split
  · split
    · next heq3 =>
        exact (k.tryLocks heq3).same rfl
    · exact k
  · exact k

theorem State.Inv.countRun {slot level} (h : s.Inv) : (s.countRun slot level).Inv :=
  h.same rfl

theorem State.Inv.chosen {n} (h : s.Inv) : (s.chosen n).2.Inv := by
  unfold State.chosen
  split
  · exact h
  · exact h.fresh

theorem State.Inv.giveHand {gid} (h : s.Inv) : (s.giveHand gid).Inv := by
  unfold State.giveHand
  split
  · exact h.same rfl
  · split
    · exact h
    · split
      · split
        · exact h.same rfl
        · exact h
      · exact h

theorem State.Inv.chooseGroup {slot gid g es} (h : s.Inv) : (s.chooseGroup slot gid g es).Inv := by
  unfold State.chooseGroup
  split
  · exact h.giveHand.same rfl
  · exact (h.chosen.countRun.setGroup.foldl fun _ _ k => k.setGroup).same rfl

/-! ## Grids and teams -/

theorem State.Inv.addGrid {part x parent depth r} (h : s.Inv) : (s.addGrid part x parent depth r).2.Inv :=
  State.Inv.setPart (h.same rfl)

theorem State.Inv.waitForDie {key g x d} (h : s.Inv) : (s.waitForDie key g x d).Inv := by
  unfold State.waitForDie
  split
  · exact h
  · exact h.same rfl

theorem State.Inv.offerTeam {key g home pref} (h : s.Inv) : (s.offerTeam key g home pref).Inv :=
  h.same rfl

theorem State.Inv.pickCores {latency n cs} (h : s.Inv) : (s.pickCores latency n cs).2.Inv := by
  induction n generalizing s cs with
  | zero => exact h
  | succ n ih =>
    unfold State.pickCores
    extract_lets +onlyGivenNames load
    split
    · exact h
    · exact ih h.chosen

@[simp] theorem State.zeroSpad_inbox {k n} : (s.zeroSpad k n).inbox = s.inbox := rfl

theorem State.Inv.zeroSpad {k n} (h : s.Inv) : (s.zeroSpad k n).Inv :=
  h.of (State.memOk_zeroSpad _ _ h.1) State.zeroSpad_inbox

theorem State.Inv.seatTeam {x tid t core} (h : s.Inv) : (s.seatTeam x tid t core).Inv :=
  h.setTeam

theorem State.Inv.startTeam {x tid t core} (h : s.Inv) : (s.startTeam x tid t core).Inv := by
  unfold State.startTeam
  split
  · exact h
  · extract_lets +onlyGivenNames s1 s2
    have hs1 : s1.Inv := h.seatTeam
    have hs2 : s2.Inv := by
      unfold s2
      split
      · exact hs1.zeroSpad
      · exact hs1
    exact hs2.foldl fun _ _ k => k.setGroup.modTeam

theorem State.Inv.doneRecord {g cause} (h : s.Inv) : (s.doneRecord g cause).Inv :=
  h.killRecord

theorem State.Inv.storeDone {x g} (h : s.Inv) : (s.storeDone x g).Inv := by
  unfold State.storeDone
  extract_lets +onlyGivenNames ag a
  split
  · exact h
  · split
    · exact h.doneRecord
    · extract_lets +onlyGivenNames w
      split
      · exact trivial
      · exact trivial
      · extract_lets +onlyGivenNames key
        split
        · exact h.doneRecord
        · unfold ag a w key
          split
          · exact h.doneRecord
          · exact h.installRemote.strongPut
      · exact h.doneRecord
      · exact h.doneRecord

theorem State.Inv.completeGrid {key g} (h : s.Inv) : (s.completeGrid key g).Inv :=
  h.same rfl

/-! ## The matrix engine -/

theorem State.Inv.formatWord {e : Env} {vf bfp tiles r} (h : e.s.Inv) (hr : e.formatWord vf bfp tiles = .error r) :
    r.Inv := by
  unfold Env.formatWord at hr
  split at hr
  · cases hr; exact h
  · dsimp only at hr
    split at hr
    · cases hr; trivial
    · split at hr
      · cases hr; trivial
      · split at hr
        · cases hr; trivial
        · cases hr

theorem State.Inv.enqueue {e : Env} {kind fmt us counted} (h : e.s.Inv) : (e.enqueue kind fmt us counted).Inv := by
  unfold Env.enqueue
  split
  · exact illegal_inv
  · split
    · exact trivial
    · extract_lets +onlyGivenNames core spans
      split
      · exact h.waitRoom
      · split
        · exact h.waitRoom
        · exact h.takeLocks.modGroup

theorem State.Inv.storeDrainRow {t op win row vs} (h : s.Inv) : (s.storeDrainRow t op win row vs).1.Inv := by
  unfold State.storeDrainRow
  split
  · extract_lets +onlyGivenNames at_ s1 s2
    have hs1 : s1.Inv := h.setSbytes
    have hs2 : s2.Inv := by
      unfold s2
      split
      · exact hs1
      · split
        · exact hs1.setSbytes
        · exact hs1.setSbytes
    exact hs2

theorem State.Inv.drainRowStep {gid g t op d trans r} (h : s.Inv) : (s.drainRowStep gid g t op d trans r).Inv :=
  State.Inv.modGroup (State.Inv.foldlFst (x := (s, 0)) h fun _ _ k => k.storeDrainRow)

theorem State.Inv.matStep {gid g t op} (h : s.Inv) : (s.matStep gid g t op).Inv := by
  unfold State.matStep
  split
  · exact h.setGroup
  · exact h.setGroup
  · exact h.setGroup
  · exact h.drainRowStep
  · exact h

theorem State.Inv.matApply {gid g t op} (h : s.Inv) : (s.matApply gid g t op).Inv := by
  unfold State.matApply
  extract_lets +onlyGivenNames row
  split
  · exact h.setGroup
  · exact h.setGroup
  · exact h.setGroup
  · exact h.setGroup
  · exact h.setGroup
  · exact h.setGroup
  · exact State.Inv.setGroup (h.same rfl)
  · exact h.setGroup
  · exact h.setGroup
  · exact h

theorem State.Inv.matNote {gid g t op} (h : s.Inv) : (s.matNote gid g t op).Inv := by
  unfold State.matNote
  split
  · exact h.modGroup
  · split
    · exact h.modGroup
    · exact h

/-! ## Saved contexts -/

theorem State.Inv.endRestore {t} (h : s.Inv) : (s.endRestore t).Inv := by
  unfold State.endRestore
  extract_lets +onlyGivenNames ts
  split
  · exact h
  · refine h.foldl fun v a k => ?_
    split
    · exact k.writeMem.modTeam
    · exact k

theorem State.Inv.comeBack {gid g} (h : s.Inv) : (s.comeBack gid g).Inv :=
  h.seatState.setGroup

theorem State.Inv.renumber {old new} (h : s.Inv) : (s.renumber old new).Inv :=
  h.same rfl

theorem State.Inv.recordEngines {gid g} (h : s.Inv) : (s.recordEngines gid g).Inv :=
  State.Inv.unlock (h.same rfl)

theorem State.Inv.saveGroup {tid idx gid image sec} (h : s.Inv) : (s.saveGroup tid idx gid image sec).1.Inv := by
  unfold State.saveGroup
  split
  · exact h
  · extract_lets +onlyGivenNames m recs g1 s1 s2 s3
    have hs1 : s1.Inv := h.recordEngines.seatState
    have hs2 : s2.Inv := State.Inv.writeMem (hs1.same rfl)
    have hs3 : s3.Inv := hs2.renumber.dropHand
    clear_value s3
    show (State.modTeam _ _ _).Inv
    exact State.Inv.modTeam (hs3.same rfl)

theorem State.Inv.saveTeam {tid image} (h : s.Inv) : (s.saveTeam tid image).1.Inv := by
  unfold State.saveTeam
  split
  · exact h
  · split
    · exact h
    · extract_lets +onlyGivenNames win q s1 s2 s3
      have hq : q.1.Inv := by
        unfold q
        refine h.foldlFst fun u b k => ?_
        split
        · exact k.saveGroup
        · exact k
      have hs1 : s1.Inv := hq.writeMem
      have hs2 : s2.Inv := State.Inv.writeMem (hs1.same rfl)
      have hs3 : s3.Inv := hs2.writeMem
      exact hs3.modTeam

theorem State.Inv.moveSeats {ms moving} (h : s.Inv) : (s.moveSeats ms moving).Inv := by
  unfold State.moveSeats
  refine h.foldl fun t a k => ?_
  split
  · split
    · exact k.seatState
    · split
      · exact k.seatState
      · exact k.seatState
  · exact k

theorem State.Inv.modTeams {ms f} (h : s.Inv) : (s.modTeams ms f).Inv :=
  h.foldl fun _ _ k => k.modTeam

theorem State.Inv.dropSave {ms} (h : s.Inv) : (s.dropSave ms).Inv := by
  unfold State.dropSave
  refine .modTeams ?_
  split
  · exact h.moveSeats
  · exact h

theorem State.Inv.askSave {tid t p requeue} (h : s.Inv) : (s.askSave tid t p requeue).Inv :=
  h.foldl fun _ _ k => k.modTeam

theorem State.Inv.restoreGroup {x tid idx core sec g} (h : s.Inv) : (s.restoreGroup x tid idx core sec g).Inv := by
  unfold State.restoreGroup
  extract_lets +onlyGivenNames gid g1 g2 s1 s2
  have hs1 : s1.Inv := by
    unfold s1
    split
    · exact h.setSbytes
    · exact h
  have hs2 : s2.Inv := hs1.renumber.setGroup
  exact hs2.modTeam.seatState

theorem State.Inv.restoreTeam {x tid t core p} (h : s.Inv) : (s.restoreTeam x tid t core p).Inv := by
  unfold State.restoreTeam
  extract_lets +onlyGivenNames s1 key secs s2 s3
  have hs1 : s1.Inv := h.seatTeam
  have hs2 : s2.Inv := hs1.zeroSpad.setSbytes
  have hs3 : s3.Inv := by
    unfold s3
    refine hs2.foldl fun v a k => ?_
    split
    · exact k.restoreGroup
    · exact k
  exact hs3.modTeam

/-! ## Handlers' returns, keys, units and the package -/

theorem State.Inv.redWrite {e : Env} {px vd val} (h : e.s.Inv) : (e.redWrite px vd val).Inv :=
  h.flagged

theorem State.Inv.rfeTo {e : Env} {pc} (h : s.Inv) : (e.rfeTo s pc).Inv := by
  unfold Env.rfeTo
  split
  · exact h.leaveHandler
  · exact illegal_inv

theorem State.Inv.dropKeyed {key} (h : s.Inv) : (s.dropKeyed key).Inv :=
  h.foldl fun _ _ k => k.foldl fun _ _ j => j.l1Flush.l1Drop

theorem State.Inv.eraseKey {part k} (h : s.Inv) : (s.eraseKey part k).Inv := by
  unfold State.eraseKey
  extract_lets +onlyGivenNames s1
  have hs1 : s1.Inv := by
    unfold s1
    split
    · exact h.dropKeyed
    · exact h
  exact hs1.modPart

theorem State.Inv.loadKey {part k b} (h : s.Inv) : (s.loadKey part k b).2.Inv := by
  unfold State.loadKey
  extract_lets +onlyGivenNames at_
  split
  · exact h
  · split
    · exact h
    · split
      · exact h
      · split
        · exact h
        · split
          · exact h
          · split
            · exact h
            · split
              · exact h
              · split
                · exact h
                · exact State.Inv.modPart (h.same rfl)

theorem State.Inv.setIsland {n x} (h : s.Inv) : (s.setIsland n x).Inv :=
  h.same rfl

theorem State.Inv.settleThrot (h : s.Inv) : (s.settleThrot).Inv :=
  h.same rfl

theorem State.Inv.loseSpad {core} (h : s.Inv) : (s.loseSpad core).Inv :=
  State.Inv.setSbytes (h.same rfl)

theorem State.Inv.modPkg {f} (h : s.Inv) : (s.modPkg f).Inv :=
  h.same rfl

theorem State.Inv.numberPod {a} (h : s.Inv) : (s.numberPod a).Inv := by
  unfold State.numberPod
  split
  · split
    · exact h.same rfl
    · exact h
  · exact h

theorem State.Inv.clusterDies {c} (h : s.Inv) : (s.clusterDies c).Inv :=
  h.foldl fun _ _ k => State.Inv.killGroup (k.same rfl)

theorem State.Inv.unitLost {u} (h : s.Inv) : (s.unitLost u).Inv :=
  h.same rfl

theorem State.Inv.unitGone {a} (h : s.Inv) : (s.unitGone a).Inv := by
  unfold State.unitGone
  split
  · exact h.clusterDies
  · exact h.unitLost
  · exact h.unitLost
  · exact h.planeDies
  · exact h
  · exact h
  · exact h
  · exact h
  · exact h

theorem State.Inv.ckptStage {part stage go} (h : s.Inv) : (s.ckptStage part stage go).Inv :=
  h.modPart

theorem State.Inv.drainDirty {x} (h : s.Inv) : (s.drainDirty x).Inv :=
  h.foldl fun _ _ k => k.foldl fun _ _ j => j.l1Flush

@[simp] theorem State.eraseRegion_inbox {n} : (s.eraseRegion n).inbox = s.inbox := rfl

theorem State.Inv.eraseRegion {n} (h : s.Inv) : (s.eraseRegion n).Inv :=
  h.of (State.memOk_eraseRegion _ h.1) State.eraseRegion_inbox

@[simp] theorem State.eraseCluster_inbox {c} : (s.eraseCluster c).inbox = s.inbox := rfl

theorem State.Inv.eraseCluster {c} (h : s.Inv) : (s.eraseCluster c).Inv :=
  h.of (State.memOk_eraseCluster _ h.1) State.eraseCluster_inbox

theorem State.Inv.eraseLost {part x r} (h : s.Inv) : (s.eraseLost part x r).Inv := by
  unfold State.eraseLost
  extract_lets +onlyGivenNames keepR keepC s0 s1 s2 gone s3
  have hs0 : s0.Inv := by
    unfold s0
    split
    · exact h
    · exact h.dropTranslations
  have hs1 : s1.Inv := hs0.foldl fun _ _ k => k.eraseCluster
  have hs2 : s2.Inv := hs1.foldl fun _ _ k => k.eraseRegion
  have hs3 : s3.Inv := hs2.foldl fun _ _ j => j.eraseKey
  exact hs3.modPart

theorem State.Inv.newPart {part changes r} (h : s.Inv) : (s.newPart part changes r).Inv :=
  h.setPart.setGroup.modPkg

theorem State.Inv.endPart {part} (h : s.Inv) : (s.endPart part).Inv :=
  (h.foldl fun _ _ k => k.removeGroup).dropTranslations.same rfl

theorem State.Inv.unitsRead {part w n off} (h : s.Inv) : (s.unitsRead part w n off).Inv := by
  induction n generalizing s off with
  | zero => exact h
  | succ n ih =>
    unfold State.unitsRead
    split
    · exact ih h.installRemote
    · exact h

theorem State.Inv.writeUnits {part w n off bs} (h : s.Inv) : OptionInv (s.writeUnits part w n off bs) := by
  induction n generalizing off bs with
  | zero => exact h
  | succ n ih =>
    unfold State.writeUnits
    split
    · next ht => exact State.Inv.strongPut (State.Inv.installRemote (ih.state ht))
    · trivial

theorem State.Inv.creditQueue {part x n} (h : s.Inv) : (s.creditQueue part x n).Inv := by
  unfold State.creditQueue
  extract_lets +onlyGivenNames a
  split
  · exact h
  · split
    · next heq =>
        exact h.applyArrival.state heq
    · exact h.holdArrival
    · exact h
    · exact h

theorem sfuExec_inv {base f fn} (h : s.Inv) : OutcomeInv (sfuExec base f fn s) := by
  unfold sfuExec
  refine issue_inv h (fun e he => ?_)
  split
  · exact he
  · split
    · exact he.waitRoom
    · extract_lets +onlyGivenNames rs all op
      split
      · exact he.owe
      · split
        · exact he.owe
        · exact he.owe

/-! ## Instructions and events with a meaning of their own -/

theorem afterIssue_inv {o} (h : OutcomeInv o) : OutcomeInv (afterIssue o) := by
  cases o with
  | next t => exact State.Inv.issued h
  | fault r => trivial
  | refused r => trivial

theorem execMovi_inv {f} (h : s.Inv) : OutcomeInv (execMovi f s) := by
  unfold execMovi
  split
  · exact issue_inv h (fun _ he => he.upd)
  · exact issue_inv h (fun _ he => he.upd)

theorem execOvtld_inv {f} (h : s.Inv) : OutcomeInv (execOvtld f s) := by
  unfold execOvtld
  refine issue_inv h (fun e he => ?_)
  extract_lets +onlyGivenNames v
  split
  · exact he.upd
  · exact trivial

theorem execPfl_inv {f} (h : s.Inv) : OutcomeInv (execPfl f s) := by
  unfold execPfl
  refine issue_inv h (fun e he => he.foldl fun u a k => ?_)
  split
  · split
    · exact k.install.readFill
    · exact k
  · exact k

theorem execSwaitl_inv {f} (h : s.Inv) : OutcomeInv (execSwaitl f s) := by
  unfold execSwaitl
  refine issue_inv h (fun e he => ?_)
  extract_lets +onlyGivenNames v
  split
  · next heq =>
      exact he.checkAll heq
  · extract_lets +onlyGivenNames q w
    have hq : q.1.Inv := he.readAll
    split
    · exact hq.ordered.modGroup
    · exact he

theorem execRdsr_inv {f} (h : s.Inv) : OutcomeInv (execRdsr f s) := by
  unfold execRdsr
  refine issue_inv h (fun e he => ?_)
  split
  · exact he.waitRoom
  · exact he.upd

theorem execWrsr_inv {f} (h : s.Inv) : OutcomeInv (execWrsr f s) := by
  unfold execWrsr
  refine issue_inv h (fun e he => ?_)
  split
  · exact he.waitRoom
  · exact he.upd

theorem execPsrd_inv {f} (h : s.Inv) : OutcomeInv (execPsrd f s) := by
  unfold execPsrd
  refine issue_inv h (fun e he => ?_)
  split
  · exact illegal_inv
  · split
    · exact he.waitRoom
    · exact he.upd

theorem execPswr_inv {f} (h : s.Inv) : OutcomeInv (execPswr f s) := by
  unfold execPswr
  refine issue_inv h (fun e he => ?_)
  extract_lets +onlyGivenNames i v
  split
  · exact he.waitRoom
  · split
    · exact he.upd
    · split
      · exact trivial
      · split
        · exact he.upd
        · split
          · exact he.setTime
          · split
            · exact he.clearCe
            · split
              · exact he.modPart
              · split
                · split
                  · exact he
                  · exact he.modPart
                · exact he.modPart

theorem execClockLoRead_inv (h : s.Inv) : OutcomeInv (execClockLoRead s) := by
  unfold execClockLoRead
  split
  · exact h.modGroup
  · exact h

theorem execTimeLoRead_inv (h : s.Inv) : OutcomeInv (execTimeLoRead s) := by
  unfold execTimeLoRead
  split
  · exact h.modGroup
  · exact h

theorem execTimesetLoRead_inv (h : s.Inv) : OutcomeInv (execTimesetLoRead s) := by
  unfold execTimesetLoRead
  split
  · exact h.modGroup
  · exact h

theorem execTimesetHiWrite_inv {v} (h : s.Inv) : OutcomeInv (execTimesetHiWrite v s) := by
  unfold execTimesetHiWrite
  split
  · exact h.modGroup
  · exact h

theorem execTimesetLoWrite_inv {v} (h : s.Inv) : OutcomeInv (execTimesetLoWrite v s) := by
  unfold execTimesetLoWrite
  split
  · exact h.setTime
  · exact h

theorem execFlagsOvfAccess_inv (h : s.Inv) : OutcomeInv (execFlagsOvfAccess s) := by
  unfold execFlagsOvfAccess
  split
  · exact h.modGroup
  · exact h

theorem execHealthCeClear_inv (h : s.Inv) : OutcomeInv (execHealthCeClear s) :=
  h.clearCe

theorem execCopyChunk_inv {cid} (h : s.Inv) : OutcomeInv (execCopyChunk cid s) := by
  unfold execCopyChunk
  show State.Inv _
  split
  · exact h
  · split
    · exact h
    · split
      · split
        · exact h.creditChunk.settleCopy
        · exact h
      · split
        · exact h.moveChunk
        · exact h

theorem execCopyComplete_inv {cid} (h : s.Inv) : OutcomeInv (execCopyComplete cid s) := by
  unfold execCopyComplete
  show State.Inv _
  split
  · exact h
  · split
    · exact h.settleCopy
    · exact h

theorem execCopyRetire_inv {cid} (h : s.Inv) : OutcomeInv (execCopyRetire cid s) := by
  unfold execCopyRetire
  show State.Inv _
  split
  · exact h
  · split
    · exact h
    · split
      · exact h.retireCopy
      · exact h

theorem execCpyxReserve_inv {cid} (h : s.Inv) : OutcomeInv (execCpyxReserve cid s) := by
  unfold execCpyxReserve
  show State.Inv _
  split
  · exact h
  · split
    · exact h
    · extract_lets +onlyGivenNames ag
      split
      · exact h
      · exact h.stopCopy
      · split
        · exact h.stopCopy
        · extract_lets +onlyGivenNames hh at_
          split
          · exact h
          · split
            · next heq4 =>
                exact h.toCollapse.state heq4
            · extract_lets +onlyGivenNames s1 c1
              have hs1 : s1.Inv := h.install.countPage.strongPut
              split
              · exact hs1.stopCopy
              · split
                · exact hs1.stopCopy
                · exact hs1.setCopy

theorem execCpyxSpaceGrant_inv {cid} (h : s.Inv) : OutcomeInv (execCpyxSpaceGrant cid s) := by
  unfold execCpyxSpaceGrant
  show State.Inv _
  split
  · exact h
  · split
    · exact h
    · split
      · exact h
      · exact h.stopCopy
      · split
        · exact h.engineTouch.setCopy
        · exact h

theorem execCstat_inv {f} (h : s.Inv) : OutcomeInv (execCstat f s) := by
  unfold execCstat
  refine issue_inv h (fun e he => ?_)
  extract_lets +onlyGivenNames t
  split
  · exact he.upd
  · exact he.upd

theorem execCcancel_inv {f} (h : s.Inv) : OutcomeInv (execCcancel f s) := by
  unfold execCcancel
  refine issue_inv h (fun e he => ?_)
  split
  · exact he.upd
  · split
    · exact illegal_inv
    · extract_lets +onlyGivenNames s1
      have hs1 : s1.Inv := he.modGroup
      split
      · exact hs1.failCopyPot.unlock.setCopy
      · exact hs1

theorem execPotset_inv {f} (h : s.Inv) : OutcomeInv (execPotset f s) := by
  refine issue_inv h fun e he => ?_
  dsimp only
  split
  · next heq => exact potTrap_inv heq
  · exact he.setSbytes
  · exact he

theorem execPotwait_inv {f} (h : s.Inv) : OutcomeInv (execPotwait f s) := by
  refine issue_inv h fun e he => ?_
  extract_lets +onlyGivenNames off
  split
  · next heq => exact potTrap_inv heq
  · split
    · exact he.upd
    · split
      · exact he.modGroup.synced
      · exact he
  · exact he

theorem execLoadComplete_inv {gid id} (h : s.Inv) : OutcomeInv (execLoadComplete gid id s) := by
  unfold execLoadComplete
  show State.Inv _
  split
  · exact h.landOp
  · exact h

theorem execStorePerformed_inv {gid id} (h : s.Inv) : OutcomeInv (execStorePerformed gid id s) := by
  unfold execStorePerformed
  show State.Inv _
  split
  · split
    · exact h.landOp
    · exact h
  · exact h

theorem execAtomicComplete_inv {gid id} (h : s.Inv) : OutcomeInv (execAtomicComplete gid id s) := by
  unfold execAtomicComplete
  show State.Inv _
  split
  · split
    · exact h.landOp
    · exact h
  · exact h

theorem execSfuComplete_inv {gid id} (h : s.Inv) : OutcomeInv (execSfuComplete gid id s) := by
  unfold execSfuComplete
  show State.Inv _
  split
  · exact h
  · split
    · exact h.landOp
    · split
      · exact h
      · extract_lets +onlyGivenNames g1
        extract_lets +onlyGivenNames g12
        split
        · exact h.setGroup
        · exact h.setGroup.takeTrap

theorem execPoisonConsume_inv {gid} (h : s.Inv) : OutcomeInv (execPoisonConsume gid s) := by
  unfold execPoisonConsume
  show State.Inv _
  split
  · exact h
  · split
    · exact h
    · split
      · exact h.killGroup
      · exact h

theorem execRfence_inv {f} (h : s.Inv) : OutcomeInv (execRfence f s) := by
  unfold execRfence
  refine issue_inv h (fun e he => streamError_inv ?_)
  extract_lets +onlyGivenNames a
  split
  · exact trivial
  · exact he.request

theorem execRstv_inv {f} (h : s.Inv) : OutcomeInv (execRstv f s) := by
  unfold execRstv
  refine issue_inv h (fun e he => ?_)
  extract_lets +onlyGivenNames a
  split
  · exact trivial
  · exact he.deliver

theorem execXfer_inv {f} (h : s.Inv) : OutcomeInv (execXfer f s) := by
  unfold execXfer
  refine issue_inv h (fun e he => ?_)
  extract_lets +onlyGivenNames x
  split
  · exact he
  · split
    · exact trivial
    · refine streamError_inv ?_
      split
      · exact trivial
      · extract_lets +onlyGivenNames spans cluster tgt
        split
        · exact he.waitRoom
        · split
          · exact he.waitRoom
          · split
            · exact he
            · extract_lets +onlyGivenNames q
              unfold spans cluster tgt q
              split
              · exact he.request
              · exact he.settled.takeLocks.request

theorem execHold_inv {f} (h : s.Inv) : OutcomeInv (execHold f s) := by
  unfold execHold
  refine issue_inv h (fun e he => ?_)
  extract_lets +onlyGivenNames n
  split
  · exact he.upd
  · split
    · exact trivial
    · exact he.upd

theorem execSeatget_inv {f} (h : s.Inv) : OutcomeInv (execSeatget f s) := by
  unfold execSeatget
  refine issue_inv h (fun e he => ?_)
  split
  · exact trivial
  · split
    · exact he.upd
    · exact he.putSeat.modGroup

theorem execRstatClr_inv {f} (h : s.Inv) : OutcomeInv (execRstatClr f s) := by
  unfold execRstatClr
  refine issue_inv h (fun e he => ?_)
  extract_lets +onlyGivenNames s1
  have hs1 : s1.Inv := he.modGroup
  split
  · exact hs1
  · exact hs1.modStream.releaseReqs

theorem execRankmap_inv {f} (h : s.Inv) : OutcomeInv (execRankmap f s) := by
  unfold execRankmap
  refine issue_inv h (fun e he => ?_)
  extract_lets +onlyGivenNames w
  split
  · exact illegal_inv
  · extract_lets +onlyGivenNames r s1
    have hs1 : s1.Inv := he.modPart
    show State.Inv _
    split
    · exact hs1.watchPkg
    · exact hs1

theorem execRemoteAccess_inv {r} (h : s.Inv) : OutcomeInv (execRemoteAccess r s) := by
  unfold execRemoteAccess
  show State.Inv _
  split
  · exact h.accessOwn
  · exact h.accessForeign
  · exact h
  · exact h.accessWaiting

theorem execRemoteFaultRecord_inv {part} (h : s.Inv) : OutcomeInv (execRemoteFaultRecord part s) := by
  unfold execRemoteFaultRecord
  show State.Inv _
  split
  · split
    · exact h
    · split
      · next heq3 =>
          exact (h.appendRecord.snd heq3).same rfl
      · exact h
  · exact h

theorem execStreamFreeze_inv {rid serial} (h : s.Inv) : OutcomeInv (execStreamFreeze rid serial s) := by
  unfold execStreamFreeze
  show State.Inv _
  split
  · exact h
  · split
    · exact h
    · split
      · split
        · exact h.freezeStream
        · exact h
      · split
        · exact h.freezeStream
        · exact h

theorem execStreamResume_inv {slot stream serial fail} (h : s.Inv) :
    OutcomeInv (execStreamResume slot stream serial fail s) :=
  h.resumeStream

theorem execFabricRequestComplete_inv {rid reply} (h : s.Inv) :
    OutcomeInv (execFabricRequestComplete rid reply s) := by
  unfold execFabricRequestComplete
  show State.Inv _
  split
  · exact h
  · split
    · split
      · exact h
      · split
        · exact h.failXferPot.setReq
        · exact h.setReq
    · split
      · exact h
      · split
        · split
          · exact h.finishReq
          · exact h
        · split
          · exact h.finishReq
          · exact h

theorem execXferChunk_inv {r} (h : s.Inv) : OutcomeInv (execXferChunk r s) := by
  unfold execXferChunk
  show State.Inv _
  split
  · exact h.stepXfer
  · exact h
  · exact h.chunkForeign
  · exact h.chunkWaiting

theorem execXferComplete_inv {rid} (h : s.Inv) : OutcomeInv (execXferComplete rid s) := by
  unfold execXferComplete
  show State.Inv _
  split
  · exact h
  · split
    · split
      · exact h.finishReq
      · exact h
    · exact h

theorem execRfenceAdd_inv {rid} (h : s.Inv) : OutcomeInv (execRfenceAdd rid s) := by
  unfold execRfenceAdd
  show State.Inv _
  split
  · exact h
  · split
    · exact h
    · split
      · exact h.depart.releaseReqs
      · exact h

theorem execRegisterDelivery_inv {d} (h : s.Inv) : OutcomeInv (execRegisterDelivery d s) := by
  unfold execRegisterDelivery
  show State.Inv _
  split
  · exact h.deliverOwn
  · split
    · exact h
    · split
      · exact h.answerDelivery
      · split
        · exact h.holdDelivery
        · exact h.deliverHere
  · exact h.deliverHeld

theorem execDeliveryBounce_inv {did} (h : s.Inv) : OutcomeInv (execDeliveryBounce did s) :=
  h.deliverHeld

theorem execSeatArrival_inv {a} (h : s.Inv) : OutcomeInv (execSeatArrival a s) := by
  show State.Inv _
  split
  · exact h
  · extract_lets +onlyGivenNames out
    have hout : ∀ {t c}, t.Inv → (out t c).Inv := by
      intro t c ht
      unfold out
      dsimp only
      split
      · exact State.Inv.send (ht.same rfl)
      · exact ht.same rfl
    split
    · next heq =>
      split at heq
      · cases heq
      · exact hout (h.applyArrival.state heq)
    · exact h
    · exact hout h
    · exact hout h

theorem execHeartbeatSend_inv (h : s.Inv) : OutcomeInv (execHeartbeatSend s) := by
  unfold execHeartbeatSend
  show State.Inv _
  split
  · exact h.same rfl
  · exact h

theorem execHeartbeatArrival_inv {pkg plane} (h : s.Inv) : OutcomeInv (execHeartbeatArrival pkg plane s) :=
  h.same rfl

theorem execPackageDeclaredFailed_inv {pkg} (h : s.Inv) : OutcomeInv (execPackageDeclaredFailed pkg s) := by
  unfold execPackageDeclaredFailed
  show State.Inv _
  split
  · exact h.declareFailed
  · exact h

theorem execUndeliverableReturn_inv {rid} (h : s.Inv) : OutcomeInv (execUndeliverableReturn rid s) := by
  unfold execUndeliverableReturn
  show State.Inv _
  split
  · exact h
  · split
    · exact h.declareFailed
    · exact h

theorem execPlaneHeartbeatTimeout_inv {pkg plane} (h : s.Inv) :
    OutcomeInv (execPlaneHeartbeatTimeout pkg plane s) := by
  unfold execPlaneHeartbeatTimeout
  show State.Inv _
  split
  · exact h.planeDies
  · exact h

theorem execLinkFailure_inv {plane} (h : s.Inv) : OutcomeInv (execLinkFailure plane s) := by
  unfold execLinkFailure
  show State.Inv _
  split
  · exact h
  · exact h.same rfl

theorem execOrderingDrainEnd_inv {pkg plane} (h : s.Inv) : OutcomeInv (execOrderingDrainEnd pkg plane s) :=
  State.Inv.releaseReqs (h.same rfl)

theorem execFrameAuthFail_inv {_plane} (h : s.Inv) : OutcomeInv (execFrameAuthFail _plane s) :=
  h

theorem execPgmap_inv {f} (h : s.Inv) : OutcomeInv (execPgmap f s) := by
  refine issue_inv h fun e he => ?_
  extract_lets +onlyGivenNames c ends
  have hends : ∀ {fr t}, t.Inv → (ends fr t).Inv := fun ht => ht.modGroup
  split
  · exact hends he
  · split
    · exact poolTrap_inv
    · split
      · exact he.upd
      · next heq => exact (he.popFrame heq).zeroRange.afterWrites fun t k => hends k

theorem execPgpoolAdd_inv {f} (h : s.Inv) : OutcomeInv (execPgpoolAdd f s) := by
  unfold execPgpoolAdd
  refine issue_inv h (fun e he => ?_)
  extract_lets +onlyGivenNames c
  split
  · exact poolTrap_inv
  · exact illegal_inv
  · extract_lets +onlyGivenNames fr fs
    split
    · exact he.upd
    · split
      · exact he.upd
      · exact he.setPool.modGroup

theorem execPgpoolRem_inv {f} (h : s.Inv) : OutcomeInv (execPgpoolRem f s) := by
  unfold execPgpoolRem
  refine issue_inv h (fun e he => ?_)
  extract_lets +onlyGivenNames c
  split
  · exact poolTrap_inv
  · split
    · exact he.upd
    · next heq2 =>
        exact (he.popFrame heq2).modGroup

theorem execPgpoolCnt_inv {f} (h : s.Inv) : OutcomeInv (execPgpoolCnt f s) := by
  unfold execPgpoolCnt
  refine issue_inv h (fun e he => ?_)
  extract_lets +onlyGivenNames c
  split
  · exact poolTrap_inv
  · exact illegal_inv
  · exact he.upd

theorem execXlat_inv {f} (h : s.Inv) : OutcomeInv (execXlat f s) := by
  unfold execXlat
  refine issue_inv h (fun e he => ?_)
  split
  · exact he.upd
  · extract_lets +onlyGivenNames r
    split
    · exact he.waitRoom
    · exact he.upd

theorem execPlaceTo_inv {f} (h : s.Inv) : OutcomeInv (execPlaceTo f s) := by
  unfold execPlaceTo
  refine issue_inv h (fun e he => ?_)
  extract_lets +onlyGivenNames d
  split
  · exact illegal_inv
  · exact he.askMove

theorem execPlaceReset_inv {f} (h : s.Inv) : OutcomeInv (execPlaceReset f s) := by
  unfold execPlaceReset
  refine issue_inv h (fun e he => ?_)
  split
  · exact he
  · exact he.same rfl

theorem execDupset_inv {f} (h : s.Inv) : OutcomeInv (execDupset f s) := by
  unfold execDupset
  refine issue_inv h (fun e he => ?_)
  extract_lets +onlyGivenNames b sd
  split
  · exact illegal_inv
  · split
    · exact he.dupEnds
    · split
      · split
        · exact he.dupEnds
        · exact he.dupCopy
      · split
        · exact he.waitRoom
        · exact he.dupClaim
        · exact he.dupEnds

theorem execPageCollapse_inv {frame} (h : s.Inv) : OutcomeInv (execPageCollapse frame s) := by
  unfold execPageCollapse
  show State.Inv _
  split
  · exact h
  · split
    · exact h.setPage.pushFrames.applyHeld
    · exact h

theorem execMigration_inv {frame die} (h : s.Inv) : OutcomeInv (execMigration frame die s) := by
  unfold execMigration
  show State.Inv _
  split
  · exact h
  · split
    · split
      · exact h.moveClaim
      · exact h
    · split
      · exact h.moveCopy
      · exact h
    · split
      · exact h.moveRemap
      · exact h
    · split
      · exact State.Inv.pushFrame (h.same rfl)
      · exact h
    · exact h

theorem execPageCountHalve_inv (h : s.Inv) : OutcomeInv (execPageCountHalve s) :=
  h.same rfl

theorem execL1DirtyFlush_inv {cluster line} (h : s.Inv) : OutcomeInv (execL1DirtyFlush cluster line s) := by
  unfold execL1DirtyFlush
  extract_lets +onlyGivenNames e
  show State.Inv _
  split
  · exact h
  · exact h.setDir

theorem execHomeMerge_inv {x line} (h : s.Inv) : OutcomeInv (execHomeMerge x line s) := by
  unfold execHomeMerge
  extract_lets +onlyGivenNames e
  show State.Inv _
  split
  · split
    · exact h
    · exact h.setDir.mergeCopy
  · exact h

theorem execHolderInvalidate_inv {x line} (h : s.Inv) : OutcomeInv (execHolderInvalidate x line s) := by
  unfold execHolderInvalidate
  show State.Inv _
  split
  · exact h.holderGone
  · exact h

theorem execEvictionNotice_inv {x line} (h : s.Inv) : OutcomeInv (execEvictionNotice x line s) := by
  unfold execEvictionNotice
  extract_lets +onlyGivenNames e
  show State.Inv _
  split
  · exact h.holderGone
  · exact h

theorem execRefillRequest_inv {x line} (h : s.Inv) : OutcomeInv (execRefillRequest x line s) := by
  unfold execRefillRequest
  extract_lets +onlyGivenNames e
  show State.Inv _
  split
  · split
    · exact h
    · exact h.dirFill
  · split
    · exact h
    · exact h.dirFill
  · split
    · exact h.l1Fill
    · exact h
  · exact h.dirFill

theorem execHostCxlMemWrite_inv {pa bytes} (h : s.Inv) : OutcomeInv (execHostCxlMemWrite pa bytes s) := by
  unfold execHostCxlMemWrite
  show State.Inv _
  split
  · split
    · split
      · exact h.hostAnswer
      · exact h
    · exact h
  · split
    · exact h.writeMem.hostWait
    · exact h

theorem execHostOwnershipRequest_inv {line} (h : s.Inv) : OutcomeInv (execHostOwnershipRequest line s) := by
  unfold execHostOwnershipRequest
  show State.Inv _
  split
  · split
    · exact h.hostAnswer
    · exact h
  · exact h.dirMerge.hostWait

theorem execPtrootWrite_inv {part} (h : s.Inv) : OutcomeInv (execPtrootWrite part s) := by
  unfold execPtrootWrite
  show State.Inv _
  split
  · exact h
  · exact h.dropTranslations.same rfl

theorem execFork_inv {f} (h : s.Inv) : OutcomeInv (execFork f s) := by
  unfold execFork
  refine issue_inv h (fun e he => ?_)
  extract_lets +onlyGivenNames m a b
  split
  · exact illegal_inv
  · split
    · exact trivial
    · split
      · exact trivial
      · extract_lets +onlyGivenNames g1 q tgt
        extract_lets +onlyGivenNames q2 tgt2
        split
        · exact he.setGroup
        · split
          · exact he.setGroup
          · exact he.setGroup

theorem execJoin_inv {f} (h : s.Inv) : OutcomeInv (execJoin f s) := by
  unfold execJoin
  refine issue_inv h (fun e he => ?_)
  split
  · exact he
  · exact he

theorem execDraw_inv {f} (h : s.Inv) : OutcomeInv (execDraw f s) := by
  unfold execDraw
  refine issue_inv h (fun e he => ?_)
  split
  · exact illegal_inv
  · exact he.setGroup.fillHand

theorem execSafe_inv {f} (h : s.Inv) : OutcomeInv (execSafe f s) := by
  unfold execSafe
  refine issue_inv h (fun e he => ?_)
  split
  · exact illegal_inv
  · exact he.setGroup

theorem execYieldc_inv {f} (h : s.Inv) : OutcomeInv (execYieldc f s) := by
  unfold execYieldc
  refine issue_inv h (fun e he => ?_)
  split
  · exact he
  · exact he

theorem execSleep_inv {f} (h : s.Inv) : OutcomeInv (execSleep f s) := by
  unfold execSleep
  refine issue_inv h (fun e he => ?_)
  split
  · exact he.yielded
  · exact he

theorem execExit_inv {f} (h : s.Inv) : OutcomeInv (execExit f s) := by
  unfold execExit
  refine issue_inv h (fun e he => ?_)
  extract_lets +onlyGivenNames g1
  extract_lets +onlyGivenNames g12
  split
  · exact he.setGroup
  · exact he.setGroup

theorem execSigchk_inv {f} (h : s.Inv) : OutcomeInv (execSigchk f s) := by
  unfold execSigchk
  refine issue_inv h (fun e he => ?_)
  split
  · exact he
  · split
    · exact he
    · exact he.upd

theorem execFence_inv {f} (h : s.Inv) : OutcomeInv (execFence f s) := by
  unfold execFence
  refine issue_inv h (fun e he => ?_)
  split
  · exact he.synced
  · exact he

theorem execWaitingResume_inv {gid slot} (h : s.Inv) : OutcomeInv (execWaitingResume gid slot s) := by
  unfold execWaitingResume
  show State.Inv _
  split
  · split
    · exact h.goOn
    · exact h
  · exact h

theorem execTranslationRetry_inv {gid slot} (h : s.Inv) : OutcomeInv (execTranslationRetry gid slot s) := by
  unfold execTranslationRetry
  show State.Inv _
  split
  · split
    · exact h
    · exact h.goOn
  · exact h

theorem execSwaitlWake_inv {gid slot} (h : s.Inv) : OutcomeInv (execSwaitlWake gid slot s) := by
  unfold execSwaitlWake
  show State.Inv _
  split
  · split
    · split
      · exact h.goOn
      · exact h
    · exact h
  · exact h

theorem execSwaitlTimeout_inv {gid slot} (h : s.Inv) : OutcomeInv (execSwaitlTimeout gid slot s) := by
  unfold execSwaitlTimeout
  show State.Inv _
  split
  · split
    · exact h.goOn
    · exact h
  · exact h

theorem execSleepExpire_inv {gid slot} (h : s.Inv) : OutcomeInv (execSleepExpire gid slot s) :=
  h.onSplits

theorem execContinuationResume_inv {gid slot} (h : s.Inv) : OutcomeInv (execContinuationResume gid slot s) :=
  h.onSplits

theorem execFairnessGiveWay_inv {gid} (h : s.Inv) : OutcomeInv (execFairnessGiveWay gid s) :=
  h.onSplits

theorem execJoinMerge_inv {gid slot} (h : s.Inv) : OutcomeInv (execJoinMerge gid slot s) := by
  unfold execJoinMerge
  show State.Inv _
  split
  · exact h
  · split
    · exact h
    · split
      · exact h
      · extract_lets +onlyGivenNames qs
        split
        · exact h
        · extract_lets +onlyGivenNames m g1
          split
          · exact h.setGroup.takeTrap
          · exact h.setGroup

theorem execBarrierComplete_inv {tid b} (h : s.Inv) : OutcomeInv (execBarrierComplete tid b s) := by
  unfold execBarrierComplete
  show State.Inv _
  split
  · exact h
  · split
    · exact h.releaseBarrier
    · exact h

theorem execCohortBarrierComplete_inv {tid} (h : s.Inv) : OutcomeInv (execCohortBarrierComplete tid s) := by
  unfold execCohortBarrierComplete
  show State.Inv _
  split
  · exact h
  · extract_lets +onlyGivenNames ts
    split
    · exact h.foldl fun _ _ k => k.releaseBarrier
    · exact h

theorem execGroupExitRelease_inv {gid} (h : s.Inv) : OutcomeInv (execGroupExitRelease gid s) := by
  unfold execGroupExitRelease
  show State.Inv _
  split
  · exact h
  · extract_lets +onlyGivenNames out
    split
    · exact h.removeGroup
    · exact h

theorem execHandlerWatchdog_inv {gid} (h : s.Inv) : OutcomeInv (execHandlerWatchdog gid s) := by
  unfold execHandlerWatchdog
  show State.Inv _
  split
  · exact h
  · split
    · split
      · exact h.killGroup
      · exact h
    · exact h

theorem execHandFillComplete_inv {gid} (h : s.Inv) : OutcomeInv (execHandFillComplete gid s) := by
  unfold execHandFillComplete
  show State.Inv _
  split
  · exact h.same rfl
  · exact h

theorem execHandWritebackComplete_inv {gid} (h : s.Inv) : OutcomeInv (execHandWritebackComplete gid s) := by
  unfold execHandWritebackComplete
  show State.Inv _
  split
  · exact h.same rfl
  · exact h

theorem execIssueSelect_inv (h : s.Inv) : OutcomeInv (execIssueSelect s) := by
  unfold execIssueSelect
  show State.Inv _
  split
  · exact h
  · next hc =>
      extract_lets +onlyGivenNames s2 es slots
      have hs2 : s2.Inv := h.registerRecords
      unfold es slots
      split
      · exact hs2.same rfl
      · extract_lets +onlyGivenNames c slot mine
        have hc : c.2.Inv := hs2.chosen
        split
        · exact hs2.same rfl
        · exact hc.chooseGroup

theorem execSafePointDistanceTrap_inv (h : s.Inv) : OutcomeInv (execSafePointDistanceTrap s) := by
  unfold execSafePointDistanceTrap
  show State.Inv _
  split
  · exact h
  · split
    · exact h
    · split
      · exact h.takeTrap.issued
      · exact h

theorem execLaunch_inv {f} (h : s.Inv) : OutcomeInv (execLaunch f s) := by
  refine issue_inv h fun e he => ?_
  extract_lets +onlyGivenNames a ends
  have hends : ∀ {t w}, t.Inv → (ends t w).Inv := fun ht => ht.modGroup
  split
  · trivial
  · split
    · exact he
    · split
      · exact hends he
      · split
        · exact he
        · extract_lets +onlyGivenNames s1 q b tid kids
          have hq : q.1.Inv := he.l1FlushAll.readAll
          split
          · exact hends hq.synced
          · exact hends hq.addGrid.synced
        · exact hends he

theorem execCwait_inv {f} (h : s.Inv) : OutcomeInv (execCwait f s) := by
  unfold execCwait
  refine issue_inv h (fun e he => ?_)
  extract_lets +onlyGivenNames mine key hs
  split
  · exact he.upd
  · split
    · exact he.upd
    · exact he

theorem execTeamDistribute_inv {key} (h : s.Inv) : OutcomeInv (execTeamDistribute key s) := by
  unfold execTeamDistribute
  show State.Inv _
  split
  · exact h
  · split
    · exact h
    · extract_lets +onlyGivenNames r
      split
      · exact h
      · extract_lets +onlyGivenNames m y z
        split
        · exact h.offerTeam
        · extract_lets +onlyGivenNames a
          split
          · exact h
          · split
            · split
              · exact h.offerTeam
              · exact h.waitForDie
            · split
              · exact h
              · exact h.offerTeam

theorem execTeamRetire_inv {tid} (h : s.Inv) : OutcomeInv (execTeamRetire tid s) := by
  unfold execTeamRetire
  show State.Inv _
  split
  · exact h
  · split
    · extract_lets +onlyGivenNames ts kids
      split
      · exact h
      · extract_lets +onlyGivenNames g1 gs s1 s2
        have hs1 : s1.Inv := State.Inv.setTeam (h.same rfl)
        have hs2 : s2.Inv := hs1.same rfl
        split
        · split
          · exact h
          · next heq4 =>
              exact (hs2.storeDone.state heq4).completeGrid
        · exact hs2
    · exact h

theorem execMma_inv {f} (h : s.Inv) : OutcomeInv (execMma f s) := by
  unfold execMma
  refine issue_inv h (fun e he => ?_)
  split
  · next heq =>
      exact he.formatWord heq
  · exact he.enqueue

theorem execMmag_inv {f} (h : s.Inv) : OutcomeInv (execMmag f s) := by
  unfold execMmag
  refine issue_inv h (fun e he => ?_)
  split
  · next heq =>
      exact he.formatWord heq
  · exact he.enqueue

theorem execMmas_inv {f} (h : s.Inv) : OutcomeInv (execMmas f s) := by
  unfold execMmas
  refine issue_inv h (fun e he => ?_)
  split
  · next heq =>
      exact he.formatWord heq
  · exact he.enqueue

theorem execDrain_inv {f} (h : s.Inv) : OutcomeInv (execDrain f s) := by
  unfold execDrain
  refine issue_inv h (fun e he => ?_)
  split
  · next heq =>
      exact he.formatWord heq
  · exact he.enqueue

theorem execDraint_inv {f} (h : s.Inv) : OutcomeInv (execDraint f s) := by
  unfold execDraint
  refine issue_inv h (fun e he => ?_)
  split
  · next heq =>
      exact he.formatWord heq
  · exact he.enqueue

theorem execAccrd_inv {f} (h : s.Inv) : OutcomeInv (execAccrd f s) := by
  refine issue_inv h fun e he => ?_
  dsimp only
  have hq : (e.enqueue (.accrd f.acc.toNat f.half f.row.toNat f.v.toNat e.active e.s.nextId) 0 [] false).Inv :=
    he.enqueue
  split
  · next heq =>
    rw [heq] at hq
    split
    · exact he.waitRoom
    · exact State.Inv.owe hq
  · exact hq

theorem execMatrixExecute_inv {gid} (h : s.Inv) : OutcomeInv (execMatrixExecute gid s) := by
  unfold execMatrixExecute
  show State.Inv _
  split
  · exact h
  · split
    · split
      · exact h
      · exact h.setGroup
    · exact h

theorem execMatrixStep_inv {gid} (h : s.Inv) : OutcomeInv (execMatrixStep gid s) := by
  unfold execMatrixStep
  show State.Inv _
  split
  · exact h
  · split
    · split
      · exact h.matNote.matStep.modGroup.syncImage
      · exact h
    · exact h

theorem execMatrixComplete_inv {gid} (h : s.Inv) : OutcomeInv (execMatrixComplete gid s) := by
  unfold execMatrixComplete
  show State.Inv _
  split
  · exact h
  · split
    · split
      · extract_lets +onlyGivenNames s1
        have hs1 : s1.Inv := by
          unfold s1
          split
          · exact h.matNote
          · exact h
        exact hs1.matApply.unlock.modGroup.syncImage
      · exact h
    · exact h

theorem execSwapOutStart_inv {gid} (h : s.Inv) : OutcomeInv (execSwapOutStart gid s) := by
  unfold execSwapOutStart
  show State.Inv _
  split
  · exact h
  · split
    · exact h
    · exact h.seatState.setGroup

theorem execSwapOutComplete_inv {gid} (h : s.Inv) : OutcomeInv (execSwapOutComplete gid s) := by
  unfold execSwapOutComplete
  show State.Inv _
  split
  · exact h
  · split
    · exact h
    · split
      · exact h.seatState.setGroup
      · exact h.setGroup.syncImage.dropHand.seatState

theorem execSwapInStart_inv {gid} (h : s.Inv) : OutcomeInv (execSwapInStart gid s) := by
  unfold execSwapInStart
  show State.Inv _
  split
  · exact h
  · split
    · exact h.seatState.setGroup
    · exact h

theorem execSwapInComplete_inv {gid} (h : s.Inv) : OutcomeInv (execSwapInComplete gid s) := by
  unfold execSwapInComplete
  show State.Inv _
  split
  · exact h
  · split
    · exact h.comeBack
    · split
      · exact h.comeBack.endRestore
      · exact h.comeBack
    · exact h

theorem execContextSaveTaken_inv {tid} (h : s.Inv) : OutcomeInv (execContextSaveTaken tid s) := by
  unfold execContextSaveTaken
  show State.Inv _
  split
  · exact h
  · split
    · exact h
    · extract_lets +onlyGivenNames ms all
      split
      · exact h.dropSave
      · split
        · split
          · exact h.foldlFst fun _ _ k => k.saveTeam
          · exact h.moveSeats.modTeams
        · split
          · exact h.moveSeats.modTeams
          · exact h

theorem execCtxsv_inv {f} (h : s.Inv) : OutcomeInv (execCtxsv f s) := by
  refine issue_inv h fun e he => ?_
  extract_lets +onlyGivenNames p w ends
  have hends : ∀ {x}, (ends x).Inv := he.upd
  split
  · exact hends
  · split
    · exact illegal_inv
    · split
      · trivial
      · split
        · split
          · exact hends
          · extract_lets +onlyGivenNames ms
            split
            · exact hends
            · split
              · exact hends
              · split
                · exact hends
                · exact he.askSave
        · exact hends

theorem execCtxld_inv {f} (h : s.Inv) : OutcomeInv (execCtxld f s) := by
  refine issue_inv h fun e he => ?_
  extract_lets +onlyGivenNames p ends
  have hends : ∀ {t x}, t.Inv → (ends t x).Inv := fun ht => ht.modGroup
  split
  · exact hends he
  · split
    · exact hends he
    · extract_lets +onlyGivenNames tid
      split
      · exact hends he
      · split
        · exact hends he
        · exact hends (he.foldl fun _ _ k => k.modTeam)

theorem execTeamAdmit_inv {tid} (h : s.Inv) : OutcomeInv (execTeamAdmit tid s) := by
  unfold execTeamAdmit
  show State.Inv _
  split
  · exact h
  · split
    · extract_lets +onlyGivenNames ms
      split
      · exact h
      · split
        · exact h
        · extract_lets +onlyGivenNames q s1
          have hq : q.2.Inv := h.pickCores
          have hs1 : s1.Inv := by
            unfold s1
            split
            · exact hq.modPart
            · exact hq
          refine .endRestore (.releaseReqs (hs1.foldl fun v a k => ?_))
          split
          · exact k.restoreTeam
          · exact k.startTeam
    · exact h

theorem execLatencyReservePreempt_inv {tid} (h : s.Inv) : OutcomeInv (execLatencyReservePreempt tid s) := by
  unfold execLatencyReservePreempt
  show State.Inv _
  split
  · exact h
  · split
    · split
      · exact h
      · split
        · exact h
        · split
          · exact h
          · split
            · exact h
            · extract_lets +onlyGivenNames bs slots size
              split
              · exact h
              · exact h.foldl fun _ _ k => k.askSave
    · exact h

theorem execVote_inv {f} (h : s.Inv) : OutcomeInv (execVote f s) := by
  refine issue_inv h fun e he => ?_
  extract_lets +onlyGivenNames act pa put
  have hput : ∀ {r}, (put r).Inv := he.upd
  split
  · exact hput
  · exact hput
  · exact hput
  · exact he.upd

theorem execPmov_inv {f} (h : s.Inv) : OutcomeInv (execPmov f s) := by
  unfold execPmov
  refine issue_inv h (fun e he => ?_)
  split
  · exact he.upd
  · exact he.upd
  · exact he.upd

theorem execRfePark_inv {f} (h : s.Inv) : OutcomeInv (execRfePark f s) := by
  refine issue_inv h fun e he => ?_
  split
  · exact illegal_inv
  · split
    · next heq => exact he.checkAll heq
    · split
      · exact illegal_inv
      · next a p _ _ =>
        have hr :
            (e.rfeTo (e.touch (e.s.l1FlushAll (clusterOf (coreOf e.gid)) (p.lines 4)) a p true) fun pc _ => pc).Inv :=
          State.Inv.rfeTo (State.Inv.touch he.l1FlushAll)
        split
        · next heq => rw [heq] at hr; exact State.Inv.modGroup hr
        · exact hr

theorem execParkWake_inv {gid} (h : s.Inv) : OutcomeInv (execParkWake gid s) := by
  unfold execParkWake
  show State.Inv _
  split
  · exact h
  · split
    · extract_lets +onlyGivenNames v pc
      split
      · exact h
      · split
        · exact h.killGroup
        · split
          · exact h
          · split
            · exact h.setGroup
            · split
              · exact State.Inv.killGroup (h.same rfl)
              · exact h
    · exact h

theorem execKeyld_inv {f} (h : s.Inv) : OutcomeInv (execKeyld f s) := by
  unfold execKeyld
  refine issue_inv h (fun e he => ?_)
  extract_lets +onlyGivenNames c
  split
  · exact illegal_inv
  · split
    · next heq =>
        exact he.checkAll heq
    · split
      · exact illegal_inv
      · extract_lets +onlyGivenNames q b s1 r2
        have hq : q.1.Inv := he.readAll
        have hs1 : s1.Inv := by
          unfold s1
          split
          · exact hq.eraseKey
          · exact hq
        have hr2 : r2.2.Inv := hs1.loadKey
        exact hr2.synced.modGroup

theorem execHalt_inv {f} (h : s.Inv) : OutcomeInv (execHalt f s) := by
  unfold execHalt
  refine issue_inv h (fun e he => ?_)
  extract_lets +onlyGivenNames w n p
  split
  · exact he.upd
  · split
    · exact illegal_inv
    · split
      · exact he.upd
      · split
        · exact he.upd
        · split
          · exact he.upd
          · exact he.setIsland

theorem execIslandPointReached_inv {n} (h : s.Inv) : OutcomeInv (execIslandPointReached n s) := by
  unfold execIslandPointReached
  extract_lets +onlyGivenNames i p
  show State.Inv _
  split
  · exact h
  · extract_lets +onlyGivenNames s1
    have hs1 : s1.Inv := h.setIsland.settleThrot
    split
    · exact hs1.foldl fun _ _ k => k.loseSpad
    · exact hs1

theorem execThrottle_inv {n} (h : s.Inv) : OutcomeInv (execThrottle n s) := by
  unfold execThrottle
  extract_lets +onlyGivenNames i
  show State.Inv _
  split
  · exact h
  · exact h.setIsland.settleThrot

theorem execThrottleRecover_inv {n} (h : s.Inv) : OutcomeInv (execThrottleRecover n s) := by
  unfold execThrottleRecover
  extract_lets +onlyGivenNames i
  show State.Inv _
  split
  · exact h
  · exact h.setIsland.settleThrot

theorem execSigset_inv {f} (h : s.Inv) : OutcomeInv (execSigset f s) := by
  unfold execSigset
  refine issue_inv h (fun e he => ?_)
  extract_lets +onlyGivenNames v
  split
  · exact illegal_inv
  · exact he.modPart

theorem execKillg_inv {f} (h : s.Inv) : OutcomeInv (execKillg f s) := by
  refine issue_inv h fun e he => ?_
  extract_lets +onlyGivenNames w whole kill
  have hkill : ∀ {t gid}, t.Inv → (kill t gid).Inv := fun ht => State.Inv.killGroup (ht.same rfl)
  split
  · exact illegal_inv
  · split
    · exact he.upd
    · extract_lets +onlyGivenNames mine t
      have ht : t.Inv := by
        unfold t
        split
        · exact he.foldl fun _ _ k => hkill k
        · exact hkill he
      split
      · exact he.upd
      · exact ht.modGroup

theorem execPowerGood_inv (h : s.Inv) : OutcomeInv (execPowerGood s) :=
  h.modPkg

theorem execPackageReset_inv (h : s.Inv) : OutcomeInv (execPackageReset s) :=
  ⟨⟨smapWf_filter memDefault s.mem _ h.1.1, State.memOk_reset.2⟩, h.2⟩

theorem execFirmwareVerify_inv (h : s.Inv) : OutcomeInv (execFirmwareVerify s) := by
  unfold execFirmwareVerify
  show State.Inv _
  split
  · split
    · exact h.modPkg
    · exact h
  · exact h

theorem execUnitReady_inv {u} (h : s.Inv) : OutcomeInv (execUnitReady u s) := by
  unfold execUnitReady
  show State.Inv _
  split
  · exact h.numberPod.modPkg
  · exact h

theorem execUnitRetire_inv {u} (h : s.Inv) : OutcomeInv (execUnitRetire u s) := by
  unfold execUnitRetire
  show State.Inv _
  split
  · exact h.modPkg.unitGone
  · exact h

theorem execCorrectedError_inv (h : s.Inv) : OutcomeInv (execCorrectedError s) :=
  h.modPkg

theorem execUncorrectableError_inv {p} (h : s.Inv) : OutcomeInv (execUncorrectableError p s) := by
  unfold execUncorrectableError
  show State.Inv _
  split
  · exact h.same rfl
  · split
    · exact h.same rfl
    · exact h
  · exact h.modGroup
  · exact h.modGroup
  · exact h.modGroup
  · exact h.modGroup
  · exact h.modGroup

theorem execCkptNFall_inv (h : s.Inv) : OutcomeInv (execCkptNFall s) :=
  h.same rfl

/-- A region copied to another, as a checkpoint and a restore do it (R409, R410). -/
theorem State.Inv.copyCells {t : State} {out src move} (h : s.Inv)
    (e : (t.mem, t.spad, t.inbox) = (Machine.copyCells s.mem out src move, s.spad, s.inbox) := by rfl) : t.Inv := by
  simp only [Prod.mk.injEq] at e
  obtain ⟨hm, hs, hi⟩ := e
  refine h.of ⟨?_, hs ▸ h.1.2⟩ hi
  rw [hm]
  exact wf_copyCells _ _ _ _ h.1.1

theorem execCkptCheckpoint_inv {part} (h : s.Inv) : OutcomeInv (execCkptCheckpoint part s) := by
  show State.Inv _
  split
  · exact h
  · split
    · exact h
    · extract_lets +onlyGivenNames move s0
      have hs0 : s0.Inv := h.drainDirty
      exact State.Inv.ckptStage hs0.copyCells

theorem execCkptRestore_inv {part} (h : s.Inv) : OutcomeInv (execCkptRestore part s) := by
  show State.Inv _
  split
  · exact h
  · split
    · exact h
    · split
      · exact h.ckptStage
      · split
        · exact h
        · extract_lets +onlyGivenNames move s0 s1
          have hs0 : s0.Inv := h.dropTranslations
          have hs1 : s1.Inv := hs0.copyCells
          exact (hs1.foldl fun _ _ k => k.checkReplicas).ckptStage

theorem execCkptComplete_inv {part err} (h : s.Inv) : OutcomeInv (execCkptComplete part err s) := by
  unfold execCkptComplete
  show State.Inv _
  split
  · exact h
  · split
    · exact h
    · exact h.ckptStage.modPkg

theorem execPartcfgChange_inv {part row} (h : s.Inv) : OutcomeInv (execPartcfgChange part row s) := by
  unfold execPartcfgChange
  show State.Inv _
  split
  · exact h
  · split
    · exact h.newPart
    · extract_lets +onlyGivenNames n
      split
      · exact h.newPart
      · split
        · exact h.eraseLost.modPart
        · exact h.endPart.eraseLost.modPart

theorem execExpanderWindowChange_inv {n base size} (h : s.Inv) :
    OutcomeInv (execExpanderWindowChange n base size s) := by
  unfold execExpanderWindowChange
  extract_lets +onlyGivenNames old clash lost
  show State.Inv _
  split
  · exact h
  · exact h.modPkg

theorem execSpdmRequest_inv {session request} (h : s.Inv) : OutcomeInv (execSpdmRequest session request s) := by
  unfold execSpdmRequest
  show State.Inv _
  split
  · exact h
  · exact h.fresh.modPkg

theorem execSpdmBind_inv {session part secret} (h : s.Inv) : OutcomeInv (execSpdmBind session part secret s) := by
  unfold execSpdmBind
  show State.Inv _
  split
  · exact h
  · exact h.modPkg

theorem execEthTransmit_inv {port} (h : s.Inv) : OutcomeInv (execEthTransmit port s) := by
  unfold execEthTransmit
  show State.Inv _
  split
  · exact h
  · extract_lets +onlyGivenNames hdr
    split
    · exact h
    · extract_lets +onlyGivenNames ready
      split
      · exact h
      · split
        · exact h
        · extract_lets +onlyGivenNames len n
          split
          · exact h
          · split
            · exact h.unitsRead.installRemote.strongPut.modPkg
            · exact h

theorem execEthReceive_inv {port f} (h : s.Inv) : OutcomeInv (execEthReceive port f s) := by
  unfold execEthReceive
  show State.Inv _
  split
  · exact h
  · extract_lets +onlyGivenNames hdr
    split
    · exact h
    · split
      · exact h
      · extract_lets +onlyGivenNames bs
        split
        · exact h
        · split
          · next heq3 _ =>
              exact (h.writeUnits.state heq3).installRemote.strongPut.creditQueue
          · exact h

/-! ## Every instruction, and the cycle -/

/-- Each instruction keeps the invariant: where several share a meaning, by the one lemma about that meaning. -/
theorem exec_inv {i} (h : s.Inv) : OutcomeInv (exec i s) := by
  unfold exec
  cases i with
  | iadd | isub | imul | imulh | imulhu | iand | ior | ixor | ishl | ishr | isra | imin | imax | iminu | imaxu
    | iaddsat | isubsat | iabsdiff => exact intV3_inv h
  | iaddVu | isubVu | imulVu | imulhVu | imulhuVu | iandVu | iorVu | ixorVu | ishlVu | ishrVu | israVu | iminVu
    | imaxVu | iminuVu | imaxuVu | iaddsatVu | isubsatVu | iabsdiffVu => exact intVU_inv h
  | icmp | icmpu => exact icmpV3_inv h
  | icmpVu | icmpuVu => exact icmpVU_inv h
  | vsel | vselVu | vmov | vmovVu | idot4 | idot4Vu | smov | ssel | sbfi | saddc | adr | setmode | matrixAmax
    | xredLast | rstat | rankmapRd | shfl | bcast | rdlane | lanes | pop | perm | unpk =>
    exact issue_inv h fun _ he => he.upd
  | ipopc | iclz | ibrev => exact intUn_inv h
  | fadd | fsub | fmul | fmin | fmax | fscale => exact fpV3_inv h
  | faddVu | fsubVu | fmulVu | fminVu | fmaxVu => exact fpVU_inv h
  | ffma | ffmaVu | fscaleVu | fdot2 | fdot2Vu | fround | bfpu => exact issue_inv h fun _ he => he.fpWrite
  | fabs | fneg | fclass => exact fpBits_inv h
  | fcmp | fcmpVu | xcmp => exact issue_inv h fun _ he => he.fpPred
  | twosum | fastsum | twodiff | twoprod => exact xPair_inv h
  | errfma | xfmaw | xneg | xsplit | xround => exact issue_inv h fun _ he => he.xWrite
  | xadd | xsub | xmul | xmulw | xrenorm | xcompress => exact xBin_inv h
  | xroundF32 | sfcmp | bfpk => exact issue_inv h fun _ he => he.flagged
  | sadd | ssub | smul | smulh | sand | sor | sxor | sshl | sshr | ssra | smin | smax | sminu | smaxu | sbfe =>
    exact uniBin_inv h
  | scmp | scmpu | stest => exact uniTest_inv h
  | spopc | sffs => exact uniUn_inv h
  | sfadd | sfmul | sffma => exact ufpBin_inv h
  | br | brz | brnz | brlt | brge | brltu | brgeu => exact branchIf_inv h
  | brpz | brpnz | brpall => exact branchPred_inv h
  | ret | jmp => exact issue_inv h fun _ he => he.jumpTo
  | ldB | ldBs | ldH | ldHs | ldW | ldW2 | ldW4 => exact vload_inv h
  | stB | stH | stW | stW2 | stW4 => exact vstore_inv h
  | ldt | ldx => exact issue_inv h fun _ he => he.load
  | sldW | sldW2 | sldW4 | sldW8 => exact uload_inv h
  | sstW | sstW2 | sstW4 => exact ustore_inv h
  | satadd | satcas => exact uatomic_inv h
  | aadd | asub | aand | aor | axor | amin | atomicAmax | aminu | amaxu | axchg | aincw | afadd | afmin | afmax =>
    exact vatomic1_inv h
  | acas | afadd2 | aaddc => exact vatomic_inv h
  | accz | accld | tld | tldt | tldg | tzero | accwr | accfold => exact issue_inv h fun _ he => he.enqueue
  | cpy | cpyt | cpyg | cpys | cpyq => exact copyWord_inv h
  | rld | rst | ratom => exact issue_inv h fun _ he => he.remote
  | xredFirst | xredMid => exact xredSend_inv h
  | rresume | rresumeFail => exact issue_inv h fun _ he => he.rresume
  | nop | bar | cbar => exact issue_inv h fun _ he => he
  | wait | waitAll => exact waitOn_inv h
  | rpush | rpushPub | rpushClaim => exact issue_inv h fun _ he => he.rpush
  | rpop | rpopRel | rpopTake => exact issue_inv h fun _ he => he.rpop
  | lred | lscan => exact issue_inv h fun _ he => he.redWrite
  | frcp | frsqrt | fsqrt | fexp2 | flog2 | fsinpi | fcospi | ftanh | fsigm | fgelu | fsilu | fsoftp =>
    exact sfuExec_inv h
  | fcvt | fcvti | icvtf | sclx => exact issue_inv h fun _ he => he.convert
  | issueSelect => exact execIssueSelect_inv h
  | handFillComplete => exact execHandFillComplete_inv h
  | handWritebackComplete => exact execHandWritebackComplete_inv h
  | safePointDistanceTrap => exact execSafePointDistanceTrap_inv h
  | handlerWatchdog => exact execHandlerWatchdog_inv h
  | waitingResume => exact execWaitingResume_inv h
  | fairnessGiveWay => exact execFairnessGiveWay_inv h
  | sleepExpire => exact execSleepExpire_inv h
  | continuationResume => exact execContinuationResume_inv h
  | joinMerge => exact execJoinMerge_inv h
  | barrierComplete => exact execBarrierComplete_inv h
  | cohortBarrierComplete => exact execCohortBarrierComplete_inv h
  | groupExitRelease => exact execGroupExitRelease_inv h
  | teamDistribute => exact execTeamDistribute_inv h
  | teamAdmit => exact execTeamAdmit_inv h
  | teamRetire => exact execTeamRetire_inv h
  | latencyReservePreempt => exact execLatencyReservePreempt_inv h
  | swapOutStart => exact execSwapOutStart_inv h
  | swapOutComplete => exact execSwapOutComplete_inv h
  | swapInStart => exact execSwapInStart_inv h
  | swapInComplete => exact execSwapInComplete_inv h
  | contextSaveTaken => exact execContextSaveTaken_inv h
  | loadComplete => exact execLoadComplete_inv h
  | storePerformed => exact execStorePerformed_inv h
  | atomicComplete => exact execAtomicComplete_inv h
  | sfuComplete => exact execSfuComplete_inv h
  | matrixExecute => exact execMatrixExecute_inv h
  | matrixStep => exact execMatrixStep_inv h
  | matrixComplete => exact execMatrixComplete_inv h
  | copyChunk => exact execCopyChunk_inv h
  | copyComplete => exact execCopyComplete_inv h
  | copyRetire => exact execCopyRetire_inv h
  | cpyxReserve => exact execCpyxReserve_inv h
  | cpyxSpaceGrant => exact execCpyxSpaceGrant_inv h
  | l1DirtyFlush => exact execL1DirtyFlush_inv h
  | homeMerge => exact execHomeMerge_inv h
  | holderInvalidate => exact execHolderInvalidate_inv h
  | evictionNotice => exact execEvictionNotice_inv h
  | refillRequest => exact execRefillRequest_inv h
  | translationRetry => exact execTranslationRetry_inv h
  | pageCountHalve => exact execPageCountHalve_inv h
  | migration => exact execMigration_inv h
  | pageCollapse => exact execPageCollapse_inv h
  | remoteAccess => exact execRemoteAccess_inv h
  | remoteFaultRecord => exact execRemoteFaultRecord_inv h
  | streamFreeze => exact execStreamFreeze_inv h
  | fabricRequestComplete => exact execFabricRequestComplete_inv h
  | xferChunk => exact execXferChunk_inv h
  | xferComplete => exact execXferComplete_inv h
  | rfenceAdd => exact execRfenceAdd_inv h
  | registerDelivery => exact execRegisterDelivery_inv h
  | deliveryBounce => exact execDeliveryBounce_inv h
  | seatArrival => exact execSeatArrival_inv h
  | heartbeatSend => exact execHeartbeatSend_inv h
  | packageDeclaredFailed => exact execPackageDeclaredFailed_inv h
  | planeHeartbeatTimeout => exact execPlaneHeartbeatTimeout_inv h
  | linkFailure => exact execLinkFailure_inv h
  | orderingDrainEnd => exact execOrderingDrainEnd_inv h
  | frameAuthFail => exact execFrameAuthFail_inv h
  | undeliverableReturn => exact execUndeliverableReturn_inv h
  | swaitlWake => exact execSwaitlWake_inv h
  | swaitlTimeout => exact execSwaitlTimeout_inv h
  | parkWake => exact execParkWake_inv h
  | ethTransmit => exact execEthTransmit_inv h
  | ethReceive => exact execEthReceive_inv h
  | hostCxlMemWrite => exact execHostCxlMemWrite_inv h
  | hostOwnershipRequest => exact execHostOwnershipRequest_inv h
  | powerGood => exact execPowerGood_inv h
  | packageReset => exact execPackageReset_inv h
  | firmwareVerify => exact execFirmwareVerify_inv h
  | unitReady => exact execUnitReady_inv h
  | unitRetire => exact execUnitRetire_inv h
  | correctedError => exact execCorrectedError_inv h
  | poisonConsume => exact execPoisonConsume_inv h
  | throttle => exact execThrottle_inv h
  | throttleRecover => exact execThrottleRecover_inv h
  | islandPointReached => exact execIslandPointReached_inv h
  | ckptNFall => exact execCkptNFall_inv h
  | ckptCheckpoint => exact execCkptCheckpoint_inv h
  | ckptRestore => exact execCkptRestore_inv h
  | ckptComplete => exact execCkptComplete_inv h
  | healthCeClear => exact execHealthCeClear_inv h
  | timesetHiWrite => exact execTimesetHiWrite_inv h
  | timesetLoWrite => exact execTimesetLoWrite_inv h
  | timesetLoRead => exact execTimesetLoRead_inv h
  | clockLoRead => exact execClockLoRead_inv h
  | timeLoRead => exact execTimeLoRead_inv h
  | flagsOvfAccess => exact execFlagsOvfAccess_inv h
  | ptrootWrite => exact execPtrootWrite_inv h
  | partcfgChange => exact execPartcfgChange_inv h
  | expanderWindowChange => exact execExpanderWindowChange_inv h
  | spdmRequest => exact execSpdmRequest_inv h
  | spdmBind => exact execSpdmBind_inv h
  | uncorrectableError => exact execUncorrectableError_inv h
  | heartbeatArrival => exact execHeartbeatArrival_inv h
  | streamResume => exact execStreamResume_inv h
  | sfcvt => exact issue_inv h fun _ he => he.ufp
  | call => exact issue_inv h fun _ he => he.setGroup
  | rdsr => exact execRdsr_inv h
  | wrsr => exact execWrsr_inv h
  | movi => exact execMovi_inv h
  | stx => exact issue_inv h fun _ he => he.store
  | pfl => exact execPfl_inv h
  | swaitl => exact execSwaitl_inv h
  | mma => exact execMma_inv h
  | mmag => exact execMmag_inv h
  | mmas => exact execMmas_inv h
  | drain => exact execDrain_inv h
  | draint => exact execDraint_inv h
  | accrd => exact execAccrd_inv h
  | cpyx => exact issue_inv h fun _ he => he.startCopy
  | cstat => exact execCstat_inv h
  | ccancel => exact execCcancel_inv h
  | rstv => exact execRstv_inv h
  | xfer => exact execXfer_inv h
  | rfence => exact execRfence_inv h
  | hold => exact execHold_inv h
  | seatget => exact execSeatget_inv h
  | seatfree => exact issue_inv h fun _ he => he.seatState.modGroup
  | rstatClr => exact execRstatClr_inv h
  | rankmap => exact execRankmap_inv h
  | fork => exact execFork_inv h
  | join => exact execJoin_inv h
  | draw => exact execDraw_inv h
  | safe => exact execSafe_inv h
  | yield => exact issue_inv h fun _ he => he.yielded
  | yieldc => exact execYieldc_inv h
  | sleep => exact execSleep_inv h
  | exit_ => exact execExit_inv h
  | launch => exact execLaunch_inv h
  | cwait => exact execCwait_inv h
  | potset => exact execPotset_inv h
  | potwait => exact execPotwait_inv h
  | sigchk => exact execSigchk_inv h
  | trap => exact issue_inv h fun _ _ => trivial
  | fence => exact execFence_inv h
  | vote => exact execVote_inv h
  | pmov => exact execPmov_inv h
  | psrd => exact execPsrd_inv h
  | pswr => exact execPswr_inv h
  | ovtld => exact execOvtld_inv h
  | rfe => exact issue_inv h fun _ he => he.rfeTo
  | rfeNext => exact issue_inv h fun _ he => he.fresh.rfeTo
  | rfePark => exact execRfePark_inv h
  | ctxsv => exact execCtxsv_inv h
  | ctxld => exact execCtxld_inv h
  | pgmap => exact execPgmap_inv h
  | pgpoolAdd => exact execPgpoolAdd_inv h
  | pgpoolRem => exact execPgpoolRem_inv h
  | pgpoolCnt => exact execPgpoolCnt_inv h
  | keyld => exact execKeyld_inv h
  | halt => exact execHalt_inv h
  | xlat => exact execXlat_inv h
  | placeTo => exact execPlaceTo_inv h
  | placeHere => exact issue_inv h fun _ he => he.askMove
  | placeReset => exact execPlaceReset_inv h
  | dupset => exact execDupset_inv h
  | sigset => exact execSigset_inv h
  | killg => exact execKillg_inv h

theorem runWords_inv {gid g p ws} (h : s.Inv) : OutcomeInv (runWords s gid g p ws) := by
  unfold runWords
  split
  · exact afterIssue_inv (exec_inv h)
  · exact h.rejectTrap.issued

theorem issueStep_inv {gid} (h : s.Inv) : OutcomeInv (issueStep s gid) := by
  unfold issueStep
  split
  · exact h.issued
  · split
    · exact h.issued
    · split
      · exact runWords_inv h
      · split
        · exact runWords_inv h.fetchMarks
        · exact h.takeTrap.issued
        · exact h.fetchWait.issued

/-- The invariant holds of a state whose inbox has lost its first step. -/
theorem State.Inv.tail {i r} (h : s.Inv) (e : s.inbox = i :: r) : { s with inbox := r }.Inv :=
  ⟨h.1, fun j hj => h.2 j (e ▸ List.mem_cons_of_mem i hj)⟩

theorem cycle_inv (h : s.Inv) : OutcomeInv (cycle s) := by
  unfold cycle
  extract_lets s1
  have hs1 : s1.Inv := h.advance
  split
  · exact issueStep_inv hs1
  · split
    · exact exec_inv hs1
    · split
      · next hi => exact exec_inv (hs1.tail hi)
      · split
        · exact exec_inv (hs1.same rfl)
        · exact exec_inv (hs1.same rfl)

end

/-- Settles O60: each operation of the model keeps the canonical form and lists events only, so each instruction and each
step of the machine does, by cases on what a cycle takes. -/
theorem stepKeepsInvariant : Obligations.StepKeepsInvariant := by
  unfold Obligations.StepKeepsInvariant
  intro s t h ht
  have hc : OutcomeInv (step s) := cycle_inv h
  rw [ht] at hc
  exact hc

end Sys2Proof.Machine
end

/-! # O50: a transfer that fails with its package can write a page-table line (R369, R332, R340)

A transfer in flight to a package that is declared failed sets FAIL of its pot. Where the seat of the pot is held by a saved
team, the pot lies in the team's image in memory, and a write there to the line of a page-table entry discards the replicas
of a page and returns their frames to the partition's pools (R369). `DeclaredFailed` lets nothing of a partition but its rank
table differ, and O50 has no premise that there are no replicas (`State.NoReplicas`). -/

section
namespace Sys2Proof.Machine

/-- A Pre-empted team whose image lies at 0x1000, with room for one pot. -/
def imagedTeam : Team where
  part := 0
  grid := 1
  x := 0
  y := 0
  z := 0
  leader := 0
  member := 0
  cohort := 1
  state := .preempted
  latency := false
  homeDie := none
  prefCluster := 0
  arrival := 0
  core := 0
  winOff := 0
  winLen := 16
  killed := false
  groups := []
  rings := []
  anchor := 0
  saving := none
  requeue := false
  named := false
  image := some 0x1000
  loadFrom := none
  taking := false
  sizeAt := none

/-- A transfer that has left for package 3, with the pot at offset 0 of the team that holds seat 0 under generation 1. -/
def xferToLostPackage : FabReq where
  gid := 0
  slot := 0
  stream := 0
  part := 0
  kind := .xfer 0 0 16 false (some 0)
  words := []
  priv := false
  pkg := 3
  lanes := []
  mask := 0
  seat := 1
  counter := 5
  pend := none
  after := []
  sent := 0
  credited := 0
  lines := []
  walked := []
  locks := []
  waitsLocks := false
  wants := []
  left := true
  planes := [0]
  orphan := false
  performed := false
  frozen := false
  cause := none
  vals := []

/-- A partition with a seat table of one entry at address 0. -/
def seatedPart : Part :=
  { Part.fresh { live := true, clust := 1, region := 1, slots := [], eth := 0, ethAddr := [], streamBase := 0, streamCount := 1,
                 domain := 1, kitty := 1, houseCore := 0, houseText := 0 } with seatCap := 1 }

/-- Frame 5, replicated in die 1: its page-table entry is the pot's STATE word in the image, at 0x1000 + 0x280 + 8. -/
def replicatedPage : PageRec := { PageRec.fresh 0 with entry := some 0x1288, replicas := [(1, 0x70000)] }

/-- The seat entry at address 0 says Saved (3), generation 1, with its image at 0x1000. -/
def potInTableState : State :=
  { State.reset with
    parts := [(0, seatedPart)], teams := [(1, imagedTeam)], mem := [(3, 6), (4, 1), (9, 0x10)], pages := [(5, replicatedPage)],
    fabric := [(9, xferToLostPackage)] }

/-- The frame of the replica goes back to the pool of its die, 64 KiB frames of die 1 (R369, R371). -/
theorem pools_declareFailed_potInTableState :
    ((potInTableState.declareFailed 3).part 0).map Part.pools = some [(2, [0x70000])] := by
  decide

/-- Refutes O50: declaring a package failed may change the pools of a partition too, by FAIL of a transfer's pot that is
written to a page-table line. -/
theorem not_linksAndPlanes : ¬ Obligations.LinksAndPlanes := by
  unfold Obligations.LinksAndPlanes
  rintro ⟨_, _, _, undeliverable, _⟩
  obtain ⟨_, fails⟩ := undeliverable potInTableState 9 xferToLostPackage rfl
  obtain ⟨t, ht, failed⟩ := fails rfl rfl (by decide)
  have hexec : exec (.undeliverableReturn 9) potInTableState = .next (potInTableState.declareFailed 3) := rfl
  obtain rfl : potInTableState.declareFailed 3 = t := by simpa [hexec] using ht
  obtain ⟨y, hy, same, _⟩ := failed.ranks 0 seatedPart rfl
  have hpools : y.pools = [(2, [0x70000])] := by simpa [hy] using pools_declareFailed_potInTableState
  have hkept : y.pools = seatedPart.pools := by rw [same]
  exact absurd (hpools.symm.trans hkept) (by decide)

end Sys2Proof.Machine
end

/-! # O51: the units of the package (R9, R22, R379, R380, R396, R404 to R409, R446)

The lemmas stand in this order: what a kill leaves of the package's registers and of the other groups, the READY registers, the
retirement of a unit, poison, islands and lost scratchpads, package reset, expander windows, and the root of trust. -/

section
namespace Sys2Proof.Machine

/-! ## What a kill leaves of the package and of the groups

Of a kill, only the removal of the group's record changes the table of groups, and nothing changes the package's registers. -/

/-- The package's registers and the table of groups. -/
def State.pkgGroups (s : State) : Pkg × List (Nat × Group) := (s.pkg, s.groups)

/-- A chain of steps that each keep a view of the state keeps it. -/
theorem foldl_keeps {σ α β : Type} {view : σ → β} {f : σ → α → σ} (hf : ∀ t a, view (f t a) = view t) (l : List α) (s : σ) :
    view (l.foldl f s) = view s := by
  induction l generalizing s with
  | nil => rfl
  | cons a r ih => exact (ih (f s a)).trans (hf s a)

/-- A record that a table gives is an entry of it. -/
theorem mem_of_tabGet {α : Type} {m : List (Nat × α)} {k : Nat} {x : α} (h : tabGet m k = some x) : (k, x) ∈ m := by
  induction m with
  | nil => cases h
  | cons e r ih =>
    simp only [tabGet] at h
    split at h
    · next hk => cases h; exact hk ▸ List.mem_cons_self
    · exact List.mem_cons_of_mem e (ih h)

section
variable (s : State)

@[simp] theorem State.pkgGroups_modPart (p : Nat) (f : Part → Part) : (s.modPart p f).pkgGroups = s.pkgGroups := by
  simp [State.pkgGroups]

@[simp] theorem State.pkgGroups_modTeam (t : Nat) (f : Team → Team) : (s.modTeam t f).pkgGroups = s.pkgGroups := by
  simp [State.pkgGroups]

@[simp] theorem State.pkgGroups_modGrid (x : Nat) (f : Grid → Grid) : (s.modGrid x f).pkgGroups = s.pkgGroups := by
  simp [State.pkgGroups]

@[simp] theorem State.pkgGroups_setBytes (pa : Nat) (bs : List Byte) : (s.setBytes pa bs).pkgGroups = s.pkgGroups := by
  simp [State.pkgGroups]

@[simp] theorem State.pkgGroups_setSbytes (k : Nat) (bs : List Byte) : (s.setSbytes k bs).pkgGroups = s.pkgGroups := by
  simp [State.pkgGroups]

@[simp] theorem State.pkgGroups_setPage (f : Nat) (r : PageRec) : (s.setPage f r).pkgGroups = s.pkgGroups := rfl

@[simp] theorem State.pkgGroups_unlock (ids : List Nat) : (s.unlock ids).pkgGroups = s.pkgGroups := rfl

@[simp] theorem State.pkgGroups_failPot (k : Nat) : (s.failPot k).pkgGroups = s.pkgGroups := rfl

@[simp] theorem State.pkgGroups_creditPot (k n : Nat) : (s.creditPot k n).pkgGroups = s.pkgGroups :=
  State.pkgGroups_setSbytes ..

@[simp] theorem State.pkgGroups_dirFill (line : Nat) (w : Holder) : (s.dirFill line w).pkgGroups = s.pkgGroups := by
  unfold State.dirFill
  dsimp only
  split <;> rfl

@[simp] theorem State.pkgGroups_dirMerge (line : Nat) (w : Option Holder) : (s.dirMerge line w).pkgGroups = s.pkgGroups := by
  unfold State.dirMerge
  dsimp only
  split <;> rfl

@[simp] theorem State.pkgGroups_dirStrong (ls : List Nat) : (s.dirStrong ls).pkgGroups = s.pkgGroups :=
  foldl_keeps (fun t l => t.pkgGroups_dirMerge l none) ls s

@[simp] theorem State.pkgGroups_pushFrame (p die fr : Nat) : (s.pushFrame p die fr).pkgGroups = s.pkgGroups :=
  State.pkgGroups_modPart ..

@[simp] theorem State.pkgGroups_storeBytes (pa : Nat) (key : Option (List Byte)) (bs : List Byte) :
    (s.storeBytes pa key bs).pkgGroups = s.pkgGroups := by
  cases key with
  | none => exact State.pkgGroups_setBytes ..
  | some k => exact foldl_keeps (fun t l => t.pkgGroups_setBytes ..) _ s

@[simp] theorem State.pkgGroups_collapse (f : Nat) (r : PageRec) : (s.collapse f r).pkgGroups = s.pkgGroups := by
  unfold State.collapse
  dsimp only
  split
  · rfl
  · split <;> simp

@[simp] theorem State.pkgGroups_putMem (pa : Nat) (key : Option (List Byte)) (bs : List Byte) :
    (s.putMem pa key bs).pkgGroups = s.pkgGroups := by
  unfold State.putMem
  split
  · exact State.pkgGroups_storeBytes ..
  · dsimp only
    split <;> simp

@[simp] theorem State.pkgGroups_checkReplicas (line : Nat) : (s.checkReplicas line).pkgGroups = s.pkgGroups := by
  unfold State.checkReplicas
  refine foldl_keeps (fun t a => ?_) s.pages s
  split
  · dsimp only
    split
    · rfl
    · exact foldl_keeps (fun u d => u.pkgGroups_pushFrame ..) _ t
  · rfl

@[simp] theorem State.pkgGroups_writeMem (pa : Nat) (bs : List Byte) : (s.writeMem pa bs).pkgGroups = s.pkgGroups := by
  unfold State.writeMem
  exact (foldl_keeps (fun t l => t.pkgGroups_checkReplicas l) _ _).trans (by simp)

@[simp] theorem State.pkgGroups_noteSeat (part : Nat) (seat : DWord) : (s.noteSeat part seat).pkgGroups = s.pkgGroups := by
  unfold State.noteSeat
  split
  · rfl
  · dsimp only
    split <;> simp

@[simp] theorem State.pkgGroups_creditPotMem (pa n : Nat) : (s.creditPotMem pa n).pkgGroups = s.pkgGroups :=
  State.pkgGroups_writeMem ..

variable {s} in
/-- An arrival writes bytes and a pot, in a window or in a saved image (R340). -/
theorem State.pkgGroups_applyArrival {part : Nat} {a : Arrival} {fail : Bool} {t : State}
    (h : s.applyArrival part a fail = .applied t) : t.pkgGroups = s.pkgGroups := by
  unfold State.applyArrival at h
  split at h
  · cases h
  · cases h
  · split at h
    · cases h
    · split at h
      · cases h
      · cases h
        split
        · simp
        · split <;> simp
  · split at h
    · cases h
    · split at h
      · cases h
      · cases h
        repeat' split
        all_goals simp

@[simp] theorem State.pkgGroups_arrive (part : Nat) (a : Arrival) (fail : Bool) : (s.arrive part a fail).pkgGroups = s.pkgGroups := by
  unfold State.arrive
  split
  · next h => exact State.pkgGroups_applyArrival h
  · rfl
  · rfl

@[simp] theorem State.pkgGroups_failCopyPot (c : Copy) : (s.failCopyPot c).pkgGroups = s.pkgGroups := by
  unfold State.failCopyPot
  split
  · rfl
  · split
    · split <;> simp
    · rfl

@[simp] theorem State.pkgGroups_creditCopy (c : Copy) : (s.creditCopy c).pkgGroups = s.pkgGroups := by
  unfold State.creditCopy
  split
  · rfl
  · split
    · simp
    · split
      · split <;> simp
      · rfl

@[simp] theorem State.pkgGroups_stopCopies (gid : Nat) : (s.stopCopies gid).pkgGroups = s.pkgGroups := by
  unfold State.stopCopies
  refine foldl_keeps (fun t e => ?_) s.copies s
  dsimp only
  split
  · show (State.unlock _ e.2.locks).pkgGroups = _
    split
    · split <;> simp [State.modRing]
    · simp
  · rfl

@[simp] theorem State.pkgGroups_dropRequests (gid : Nat) : (s.dropRequests gid).pkgGroups = s.pkgGroups := by
  unfold State.dropRequests
  refine foldl_keeps (view := State.pkgGroups) (fun t e => ?_) s.fabric s
  split <;> rfl

theorem State.pkgGroups_appendRecord (x : Part) (hdr : Nat) (bs : List Byte) :
    (s.appendRecord x hdr bs).2.pkgGroups = s.pkgGroups := by
  unfold State.appendRecord
  dsimp only
  repeat' split
  all_goals simp

@[simp] theorem State.pkgGroups_killRecord (part : Nat) (tpc : DWord) (cause : Nat) (second : Bool) (place grid team : Nat)
    (tval : DWord) : (s.killRecord part tpc cause second place grid team tval).pkgGroups = s.pkgGroups := by
  unfold State.killRecord
  split
  · rfl
  · next x _ =>
    split
    · rfl
    · dsimp only
      split
      · next h => exact (congrArg (·.2.pkgGroups) h).symm.trans (s.pkgGroups_appendRecord ..)
      · next h =>
        exact (State.pkgGroups_writeMem ..).trans ((congrArg (·.2.pkgGroups) h).symm.trans (s.pkgGroups_appendRecord ..))

@[simp] theorem State.pkgGroups_seatState (gid : Nat) (g : Group) (st image : Nat) :
    (s.seatState gid g st image).pkgGroups = s.pkgGroups := by
  unfold State.seatState
  split
  · rfl
  · unfold State.putSeat
    split <;> simp

/-- The removal of a group takes its record, and no other, from the table. -/
theorem State.pkgGroups_removeGroup (gid : Nat) (g : Group) (how : Member) :
    (s.removeGroup gid g how).pkgGroups = (s.pkg, smapErase s.groups gid) := by
  unfold State.removeGroup
  extract_lets s1 s2 s3 s4
  have before : s3.pkgGroups = s.pkgGroups := by
    unfold s3
    split <;> simp [s2, s1]
  obtain ⟨hp, hg⟩ := Prod.mk.inj before
  exact Prod.ext hp (congrArg (smapErase · gid) hg)

theorem State.killGroup_none {gid : Nat} (h : s.group gid = none) (cause : Nat) (second : Bool) (tpc tval : DWord) :
    s.killGroup gid cause second tpc tval = s := by
  simp [State.killGroup, h]

theorem State.pkgGroups_killGroup {gid : Nat} {g : Group} (h : s.group gid = some g) (cause : Nat) (second : Bool)
    (tpc tval : DWord) : (s.killGroup gid cause second tpc tval).pkgGroups = (s.pkg, smapErase s.groups gid) := by
  unfold State.killGroup
  split
  · next e => exact absurd (e.symm.trans h) nofun
  · extract_lets s1 s2 s3 s4
    have before : s4.pkgGroups = s.pkgGroups := by
      unfold s4
      split <;> simp [s3, s2, s1]
    obtain ⟨hp, hg⟩ := Prod.mk.inj before
    exact (s4.pkgGroups_removeGroup ..).trans (Prod.ext hp (congrArg (smapErase · gid) hg))

/-- A kill leaves the package's registers as they are (R393). -/
@[simp] theorem State.pkg_killGroup (gid cause : Nat) (second : Bool) (tpc tval : DWord) :
    (s.killGroup gid cause second tpc tval).pkg = s.pkg := by
  cases h : s.group gid with
  | none => rw [s.killGroup_none h]
  | some g => exact congrArg Prod.fst (s.pkgGroups_killGroup h ..)

/-- A killed group has no record any more, and every other group keeps its own (R393). -/
theorem State.group_killGroup (gid cause : Nat) (second : Bool) (tpc tval : DWord) (id : Nat) :
    (s.killGroup gid cause second tpc tval).group id = if id = gid then none else s.group id := by
  cases h : s.group gid with
  | none =>
    rw [s.killGroup_none h]
    split
    · next e => rw [e, h]
    · rfl
  | some g =>
    have groups := congrArg Prod.snd (s.pkgGroups_killGroup h cause second tpc tval)
    exact (congrArg (tabGet · id) groups).trans (tabGet_erase ..)

/-- The retirement of a cluster leaves the package's registers as they are (R407). -/
@[simp] theorem State.pkg_clusterDies (n : Nat) : (s.clusterDies n).pkg = s.pkg :=
  foldl_keeps (fun t _ => State.pkg_killGroup { t with serial := t.serial + 2 } ..) _ s

/-- A chain of kills leaves no record of any group that it names. -/
theorem State.group_foldl_kill {kill : State → Nat × Group → State} {l : List (Nat × Group)}
    (hk : ∀ t e id, (kill t e).group id = if id = e.1 then none else t.group id) (id : Nat)
    (h : s.group id = none ∨ ∃ e ∈ l, e.1 = id) : (l.foldl kill s).group id = none := by
  induction l generalizing s with
  | nil => simpa using h
  | cons a r ih =>
    apply ih
    rw [hk]
    by_cases e : id = a.1
    · exact .inl (if_pos e)
    · rw [if_neg e]
      simpa [Ne.symm e] using h

/-- Every group of a retired cluster is killed (R407). -/
theorem State.group_clusterDies {n id : Nat} {g : Group} (h : s.group id = some g) (hc : clusterOf (coreOf id) = n) :
    (s.clusterDies n).group id = none := by
  refine State.group_foldl_kill s (fun t e id => State.group_killGroup { t with serial := t.serial + 2 } ..) id
    (.inr ⟨(id, g), ?_, rfl⟩)
  simpa [hc] using mem_of_tabGet h

end

/-! ## The READY registers (R379, R380) -/

theorem getLsbD_putBit {n : Nat} (r : BitVec n) {i : Nat} (hi : i < n) (b : Bool) (j : Nat) :
    (putBit r i b).getLsbD j = if j = i then b else r.getLsbD j := by
  unfold putBit
  by_cases e : j = i
  · subst e
    cases b <;> simp [hi]
  · have other : (BitVec.twoPow n i).getLsbD j = false := by simp [BitVec.getLsbD_twoPow, Ne.symm e]
    cases b
    · simpa [e, other] using BitVec.lt_of_getLsbD
    · simp [e, other]

/-- The number of bits of a READY register, by the numbers of `readyBit`. -/
def readyWidth : Nat → Nat
  | 0 => 48
  | 1 => 64
  | 2 => 32
  | _ => 18

/-- A bit of the four READY registers written, by the numbers of `readyBit`. -/
def Pkg.putReady (k : Pkg) (p : Nat × Nat) (b : Bool) : Pkg :=
  match p.1 with
  | 0 => { k with readyC := putBit k.readyC p.2 b }
  | 1 => { k with readyS := putBit k.readyS p.2 b }
  | 2 => { k with readyM := putBit k.readyM p.2 b }
  | _ => { k with readyX := putBit k.readyX p.2 b }

theorem Pkg.readyAt_putReady (k : Pkg) {r i : Nat} (b : Bool) (hr : r < 4) (hi : i < readyWidth r) {c : Nat} (hc : c < 4) (j : Nat) :
    (k.putReady (r, i) b).readyAt (c, j) = if (c, j) = (r, i) then b else k.readyAt (c, j) := by
  by_cases same : c = r
  · subst same
    have bit : (k.putReady (c, i) b).readyAt (c, j) = if j = i then b else k.readyAt (c, j) := by
      interval_cases c <;> exact getLsbD_putBit _ hi b j
    simp [bit]
  · interval_cases r <;> interval_cases c <;> simp [Pkg.readyAt, Pkg.putReady] at same ⊢

section
variable {u : PkgUnit} (hu : UnitExists u)
include hu

theorem readyBit_valid : (readyBit u).1 < 4 ∧ (readyBit u).2 < readyWidth (readyBit u).1 := by
  cases u <;> simp [UnitExists, readyBit, readyWidth] at hu ⊢ <;> omega

theorem Pkg.setReady_eq_putReady (k : Pkg) (b : Bool) : k.setReady b u = k.putReady (readyBit u) b := by
  cases u with
  | cluster _ | sliceGroup _ | rot | hostLink => rfl
  | stack _ | plane _ | eth _ | tier _ | dlink _ => exact if_pos hu

theorem Pkg.ready_eq_readyAt (k : Pkg) : k.ready u = k.readyAt (readyBit u) := by
  cases u with
  | cluster _ | sliceGroup _ | rot | hostLink => rfl
  | stack _ | plane _ | eth _ | tier _ | dlink _ =>
    simp only [UnitExists] at hu
    simp [Pkg.ready, Pkg.readyAt, readyBit, hu]

/-- The READY bit of a unit reads as written, and every other one as before. -/
theorem readySet_setReady (k : Pkg) (b : Bool) : ReadySet k (k.setReady b u) u b := by
  obtain ⟨hr, hi⟩ := readyBit_valid hu
  rw [Pkg.setReady_eq_putReady hu]
  refine ⟨?_, fun r hc i _ other => ?_⟩
  · rw [Pkg.readyAt_putReady k b hr hi hr, if_pos rfl]
  · rw [Pkg.readyAt_putReady k b hr hi hc, if_neg other]

end

/-- A write of a READY bit changes the four READY registers only. -/
theorem Pkg.setReady_only (k : Pkg) (b : Bool) (u : PkgUnit) :
    k.setReady b u = { k with
      readyC := (k.setReady b u).readyC, readyS := (k.setReady b u).readyS, readyM := (k.setReady b u).readyM,
      readyX := (k.setReady b u).readyX } := by
  cases u with
  | cluster _ | sliceGroup _ | rot | hostLink => rfl
  | stack _ | plane _ | eth _ | tier _ | dlink _ => simp only [Pkg.setReady]; split <;> rfl

/-! ## Power, firmware and bring-up (R9, R405, R406) -/

theorem execFirmwareVerify_idle {s : State} (h : s.pkg.powered = false ∨ s.pkg.flash.length ≤ s.pkg.flashAt) :
    execFirmwareVerify s = .next s := by
  unfold execFirmwareVerify
  rcases h with off | done
  · split <;> simp [off]
  · rw [List.getElem?_eq_none done]

section
variable {s : State} {n r v : Nat} {im : List Byte} (on : s.pkg.powered = true)
  (image : s.pkg.flash[s.pkg.flashAt]? = some (n, im, r, v))
include on image

/-- An image that does not verify, or that the root of trust may not take yet, is passed over (R406). -/
theorem execFirmwareVerify_refused (h : s.pkg.accepts n im r v = false) :
    execFirmwareVerify s = .next { s with pkg := { s.pkg with flashAt := s.pkg.flashAt + 1 } } := by
  simp [execFirmwareVerify, image, on, State.modPkg, h]

/-- An image that verifies runs the root of trust and is measured (R405, R406). -/
theorem execFirmwareVerify_accepted (h : s.pkg.accepts n im r v = true) :
    execFirmwareVerify s = .next { s with pkg := { s.pkg with
      flashAt := s.pkg.flashAt + 1, readyX := putBit s.pkg.readyX 3 true,
      measured := smapInsert s.pkg.measured n (digest im) } } := by
  simp [execFirmwareVerify, image, on, State.modPkg, h]
  rfl

end

theorem Pkg.accepts_iff (k : Pkg) (n : Nat) (im : List Byte) (r v : Nat) :
    k.accepts n im r v = true ↔
      ecdsaVerify k.bootKey im (r, v) = true ∧ (n = 1 ∨ k.readyAt (3, 3) = true ∧ (n = 2 ∨ n = 3)) := by
  simp [Pkg.accepts, Pkg.rot, Pkg.readyAt]

section
variable {s : State} {u : PkgUnit}

theorem State.numberPod_kept (h : s.pkg.numbered = true ∨ ∀ n, u ≠ .plane n) : s.numberPod u = s := by
  unfold State.numberPod
  split
  · next n =>
    rcases h with numbered | other
    · simp [numbered]
    · exact absurd rfl (other n)
  · rfl

theorem State.numberPod_plane {n : Nat} (hn : n < 8) (h : s.pkg.numbered = false) :
    s.numberPod (.plane n) = { s with
      serial := s.serial + 1, pkg := { s.pkg with number := Config.podNumber s.serial % 1024, numbered := true } } := by
  simp [State.numberPod, hn, h, State.fresh]

/-- The pod number is given once, with the first plane that is ready (R9): one below 1024, from a fresh value. -/
theorem State.numberPod_spec (hu : UnitExists u) :
    ∃ pod nb k, s.numberPod u = { s with serial := k, pkg := { s.pkg with number := pod, numbered := nb } } ∧
      ((s.pkg.numbered = true ∨ ∀ n, u ≠ .plane n) → pod = s.pkg.number ∧ nb = s.pkg.numbered ∧ k = s.serial) ∧
      (s.pkg.numbered = false → (∃ n, u = .plane n) → pod < 1024 ∧ nb = true) := by
  by_cases kept : s.pkg.numbered = true ∨ ∀ n, u ≠ .plane n
  · refine ⟨s.pkg.number, s.pkg.numbered, s.serial, State.numberPod_kept kept, fun _ => ⟨rfl, rfl, rfl⟩, fun first plane => ?_⟩
    obtain ⟨n, rfl⟩ := plane
    simp [first] at kept
  · simp only [not_or, not_forall, not_not, Bool.not_eq_true] at kept
    obtain ⟨first, n, rfl⟩ := kept
    refine ⟨_, _, _, State.numberPod_plane hu first, by simp [first], fun _ _ => ⟨Nat.mod_lt _ (by decide), rfl⟩⟩

theorem execUnitReady_idle (h : s.pkg.powered = false ∨ s.pkg.readyAt (3, 3) = false) : execUnitReady u s = .next s := by
  have off : (s.pkg.powered && s.pkg.rot) = false := Bool.and_eq_false_iff.2 h
  simp [execUnitReady, off]

/-- A unit that has passed its training sets its READY bit (R406). -/
theorem execUnitReady_runs (on : s.pkg.powered = true) (rot : s.pkg.readyAt (3, 3) = true) :
    execUnitReady u s = .next ((s.numberPod u).modPkg fun k => k.setReady true u) := by
  have ready : (s.pkg.powered && s.pkg.rot) = true := Bool.and_eq_true_iff.2 ⟨on, rot⟩
  simp [execUnitReady, ready]

end

/-! ## The retirement of a unit (R407) -/

theorem smapGet_filter {α : Type} (d : α) (m : List (Nat × α)) (p : Nat → Bool) (a : Nat) :
    smapGet d (m.filter fun e => p e.1) a = if p a then smapGet d m a else d := by
  induction m with
  | nil => simp [smapGet]
  | cons e r ih =>
    obtain ⟨k, x⟩ := e
    by_cases hk : p k = true <;> by_cases ha : a = k <;> simp_all [smapGet]

/-- The retirement of a unit beyond its READY bit changes of the package its planes and its lost units only. -/
theorem State.pkg_unitGone (s : State) (u : PkgUnit) : ∃ d r l, (s.unitGone u).pkg = { s.pkg with
    deadPlanes := d, draining := r, lostUnits := l } := by
  cases u with
  | cluster n => exact ⟨_, _, _, s.pkg_clusterDies n⟩
  | _ => exact ⟨_, _, _, rfl⟩

/-- Every line of a lost slice group or stack is poisoned whole (R407). -/
theorem State.poisonMask_unitLost (s : State) (u : PkgUnit) {l : Nat} (h : unitHolds u l = true) :
    (s.unitLost u).poisonMask l = BitVec.allOnes 128 := by
  have lost : (s.unitLost u).pkg.lostUnits.any (unitHolds · l) = true := by
    refine List.any_eq_true.2 ⟨u, ?_, h⟩
    simp only [State.unitLost, State.modPkg]
    split
    · next known => exact List.contains_iff_mem.1 known
    · exact List.mem_cons_self
  have clear : smapGet 0 (s.unitLost u).poison l = 0 :=
    (smapGet_filter 0 s.poison (fun k => !unitHolds u k) l).trans (by simp [h])
  simp only [State.poisonMask, State.poisonBase, lost, clear, if_true]
  exact BitVec.zero_xor

theorem execUnitRetire_idle {s : State} {u : PkgUnit} (hu : UnitExists u) (h : s.pkg.readyAt (readyBit u) = false) :
    execUnitRetire u s = .next s := by
  simp [execUnitRetire, Pkg.ready_eq_readyAt hu, h]

/-- The package after a unit has retired (R407). -/
def Pkg.unitRetired (k : Pkg) (u : PkgUnit) : Pkg :=
  { k.setReady false u with replace := true, retired := min 255 (k.retired + 1) }

theorem execUnitRetire_runs {s : State} {u : PkgUnit} (hu : UnitExists u) (h : s.pkg.readyAt (readyBit u) = true) :
    execUnitRetire u s = .next ((s.modPkg fun k => k.unitRetired u).unitGone u) := by
  simp [execUnitRetire, Pkg.ready_eq_readyAt hu, h, Pkg.unitRetired]

/-! ## Poison (R396) -/

@[simp] theorem State.poisonMask_setPoison (s : State) (l : Nat) (m : BitVec 128) (k : Nat) :
    { s with poison := s.setPoison l m }.poisonMask k = if k = l then m else s.poisonMask k := by
  show smapGet 0 (s.setPoison l m) k ^^^ s.poisonBase k = _
  rw [State.setPoison, smapGet_put]
  split
  · next e => rw [e, BitVec.xor_assoc, BitVec.xor_self, BitVec.xor_zero]
  · rfl

theorem Group.poison_held (g : Group) {held : Bool} (h : held = true) (b : BadLoc) :
    g.poison held b = { g with bad := if b ∈ g.bad then g.bad else b :: g.bad } := by
  by_cases hb : b ∈ g.bad <;> simp [Group.poison, h, hb]

/-- Data of a group that exists is poisoned where it is held. -/
theorem State.modGroup_poison_held {s : State} {gid : Nat} {g : Group} (hg : s.group gid = some g) (held : Group → Bool)
    (h : held g = true) (b : Group → BadLoc) :
    s.modGroup gid (fun g => g.poison (held g) (b g)) =
      s.setGroup gid { g with bad := if b g ∈ g.bad then g.bad else b g :: g.bad } := by
  rw [State.modGroup_some hg, Group.poison_held g h]

/-! ## Islands and lost scratchpads (R408) -/

/-- An island replaced, with THROT settled. -/
theorem State.islandSet (s : State) (n : Nat) (i : Island) : IslandSet s (s.setIsland n i).settleThrot n i where
  only := ⟨_, _, rfl⟩
  islands m := by
    show (tabGet (smapInsert s.pkg.islands n i) m).getD _ = _
    rw [tabGet_insert]
    split <;> rfl
  high := fun ⟨e, he, low, point⟩ => by
    have : (s.setIsland n i).pkg.islands.any (fun e => e.2.req < e.2.point && e.2.point == e.2.throttle) = true :=
      List.any_eq_true.2 ⟨e, he, by simp [low, ← point]⟩
    simp [State.settleThrot, this]
  low same := by
    have eq : ∀ e ∈ (s.setIsland n i).pkg.islands, e.2.point = e.2.req := same
    have settled : (s.setIsland n i).pkg.islands.any (fun e => e.2.point != e.2.req) = false :=
      List.any_eq_false.2 fun e he => by simp [eq e he]
    have none : (s.setIsland n i).pkg.islands.any (fun e => e.2.req < e.2.point && e.2.point == e.2.throttle) = false :=
      List.any_eq_false.2 fun e he => by simp [eq e he]
    simp only [State.settleThrot, settled, none, Bool.and_false, Bool.or_false]

section
variable {s : State} {n : Nat}

theorem execThrottle_idle (h : 24 ≤ n % 32 ∨ 3 ≤ (s.island n).point) : execThrottle n s = .next s := by
  have kept : (decide (128 ≤ n) || !halfCluster n || decide (3 ≤ (s.island n).point)) = true := by
    simp [halfCluster]
    omega
  exact congrArg Host.Outcome.next (if_pos kept)

theorem execThrottle_lowers (hn : n < 128) (half : n % 32 < 24) (h : (s.island n).point < 3) :
    execThrottle n s = .next (s.setIsland n
      { s.island n with point := (s.island n).point + 1, throttle := (s.island n).point + 1 }).settleThrot := by
  have lowered : ¬(decide (128 ≤ n) || !halfCluster n || decide (3 ≤ (s.island n).point)) = true := by
    simp [halfCluster]
    omega
  exact congrArg Host.Outcome.next (if_neg lowered)

theorem execThrottleRecover_idle (h : (s.island n).throttle = 0 ∨ (s.island n).point ≤ (s.island n).req) :
    execThrottleRecover n s = .next s := by
  have kept : (decide (128 ≤ n) || decide ((s.island n).throttle = 0) || decide ((s.island n).point ≤ (s.island n).req)) = true := by
    simp
    omega
  exact congrArg Host.Outcome.next (if_pos kept)

theorem execThrottleRecover_raises (hn : n < 128) (h : (s.island n).throttle ≠ 0) (low : (s.island n).req < (s.island n).point) :
    execThrottleRecover n s = .next (s.setIsland n { s.island n with
      point := max (s.island n).req ((s.island n).throttle - 1), throttle := (s.island n).throttle - 1 }).settleThrot := by
  have raised : ¬(decide (128 ≤ n) || decide ((s.island n).throttle = 0) || decide ((s.island n).point ≤ (s.island n).req)) = true := by
    simp
    omega
  exact congrArg Host.Outcome.next (if_neg raised)

theorem execIslandPointReached_idle (h : (s.island n).point = max (s.island n).req (s.island n).throttle) :
    execIslandPointReached n s = .next s := by
  have kept : (decide (128 ≤ n) || decide ((s.island n).point = max (s.island n).req (s.island n).throttle)) = true := by
    simp [← h]
  exact congrArg Host.Outcome.next (if_pos kept)

/-- An island that reaches its point runs there; turned off, point 7, it loses its scratchpads. -/
theorem execIslandPointReached_runs (hn : n < 128) (h : (s.island n).point ≠ max (s.island n).req (s.island n).throttle) :
    execIslandPointReached n s = .next
      (if max (s.island n).req (s.island n).throttle = 7 then
        (islandCores n).foldl State.loseSpad (s.setIsland n { s.island n with point := 7 }).settleThrot
      else (s.setIsland n { s.island n with point := max (s.island n).req (s.island n).throttle }).settleThrot) := by
  have moves : ¬(decide (128 ≤ n) || decide ((s.island n).point = max (s.island n).req (s.island n).throttle)) = true := by
    simp [h, hn]
  refine (congrArg Host.Outcome.next (if_neg moves)).trans ?_
  split
  · next off => rw [off]
  · rfl

end

theorem State.setSbytes_only (s : State) (k : Nat) (bs : List Byte) :
    ∃ po, s.setSbytes k bs = { s with spad := (s.setSbytes k bs).spad, spadPoison := po } := by
  induction bs generalizing s k with
  | nil => exact ⟨_, rfl⟩
  | cons b r ih =>
    obtain ⟨po, h⟩ := ih (s.setSbyte k b) (k + 1)
    exact ⟨po, h⟩

theorem length_upFrom (a n : Nat) : (upFrom a n).length = n := by
  induction n generalizing a with
  | zero => rfl
  | succ n ih => exact congrArg Nat.succ (ih (a + 1))

/-- Bytes written over a core's scratchpad leave those of every other core's. -/
theorem State.setSbytes_core (s : State) (core : Nat) {bs : List Byte} (len : bs.length ≤ 2 ^ 19) :
    ∃ sp po, s.setSbytes (spadKey core 0) bs = { s with spad := sp, spadPoison := po } ∧
      ∀ k, k / 2 ^ 19 ≠ core → smapGet memDefault sp k = s.sbyte k := by
  obtain ⟨po, h⟩ := s.setSbytes_only (spadKey core 0) bs
  refine ⟨_, po, h, fun k other => (State.sbyte_setSbytes ..).trans (dif_neg ?_)⟩
  rw [spadKey]
  omega

/-- A core's lost scratchpad leaves the bytes of every other core's. -/
theorem State.loseSpad_spec (s : State) (core : Nat) : ∃ sp po r, s.loseSpad core = { s with spad := sp, spadPoison := po, serial := r } ∧
    ∀ k, k / 2 ^ 19 ≠ core → smapGet memDefault sp k = s.sbyte k := by
  unfold State.loseSpad
  have len : ((upFrom s.serial (2 ^ 19)).map Config.lostByte).length ≤ 2 ^ 19 := by
    rw [List.length_map, length_upFrom]
  generalize (upFrom s.serial (2 ^ 19)).map Config.lostByte = bs at len
  generalize s.serial + 2 ^ 19 = r
  obtain ⟨sp, po, h⟩ := { s with serial := r }.setSbytes_core core len
  exact ⟨sp, po, r, h⟩

/-- Several cores' lost scratchpads leave the bytes of every other core's. -/
theorem State.foldl_loseSpad_spec (cores : List Nat) (s : State) :
    ∃ sp po r, cores.foldl State.loseSpad s = { s with spad := sp, spadPoison := po, serial := r } ∧
      ∀ k, k / 2 ^ 19 ∉ cores → smapGet memDefault sp k = s.sbyte k := by
  induction cores generalizing s with
  | nil => exact ⟨s.spad, s.spadPoison, s.serial, rfl, fun _ _ => rfl⟩
  | cons c cs ih =>
    obtain ⟨sp, po, r, lost, bytes⟩ := s.loseSpad_spec c
    obtain ⟨sp', po', r', rest, bytes'⟩ := ih (s.loseSpad c)
    refine ⟨sp', po', r', ?_, fun k hk => ?_⟩
    · rw [List.foldl_cons, rest, lost]
    · obtain ⟨hc, hcs⟩ := not_or.1 (List.mem_cons.not.1 hk)
      rw [bytes' k hcs, State.sbyte, lost]
      exact bytes k hc

theorem mem_islandCores (n c : Nat) : c ∈ islandCores n ↔ c / 8 = 2 * islandCluster n + n % 2 := by
  rw [islandCores, mem_upFrom]
  omega

/-! ## Expander windows (R446) -/

section
variable {s : State} {n base size : Nat}

theorem execExpanderWindowChange_refused (h : 8 ≤ n ∨ windowLegal base size = false) :
    execExpanderWindowChange n base size s = .next s := by
  unfold execExpanderWindowChange
  dsimp only
  rcases h with far | illegal
  · simp [far]
  · simp [illegal]

theorem execExpanderWindowChange_rewrites (hn : n < 8) (legal : windowLegal base size = true)
    (apart : ∀ w ∈ s.pkg.windows, w.1 ≠ n → rangesMeet base size w.2.1 w.2.2 = false)
    (kept : ∀ u, (s.window n).1 / 2 ^ 29 ≤ u → u < (s.window n).1 / 2 ^ 29 + (s.window n).2 / 2 ^ 29 →
      (base ≤ 2 ^ 29 * u ∧ 2 ^ 29 * u < base + size) ∨ s.ownedUnit u = false) :
    execExpanderWindowChange n base size s = .next { s with
      pkg := { s.pkg with windows := smapInsert s.pkg.windows n (base, size) } } := by
  unfold execExpanderWindowChange
  have clash : (s.pkg.windows.any fun w => w.1 != n && rangesMeet base size w.2.1 w.2.2) = false :=
    List.any_eq_false.2 fun w hw => by
      by_cases e : w.1 = n <;> simp [e]
      exact apart w hw e
  have lost : ((upFrom ((s.window n).1 / 2 ^ 29) ((s.window n).2 / 2 ^ 29)).any fun u =>
      !(base ≤ 2 ^ 29 * u && 2 ^ 29 * u < base + size) && s.ownedUnit u) = false :=
    List.any_eq_false.2 fun u hu => by
      obtain ⟨lo, hi⟩ := (mem_upFrom ..).1 hu
      rcases kept u lo hi with within | free
      · rw [← Bool.decide_and, decide_eq_true within]
        exact Bool.false_ne_true
      · simp [free]
  dsimp only
  rw [clash, lost, legal, if_neg (by simpa using hn)]
  rfl

end

theorem rangesMeet_of_apart {a n b m : Nat} (h : Apart a n b m ∨ n = 0 ∨ m = 0) : rangesMeet a n b m = false := by
  unfold Apart at h
  simp only [rangesMeet, Bool.and_eq_false_iff, decide_eq_false_iff_not]
  omega

theorem windowLegal_iff (base size : Nat) : windowLegal base size = true ↔
    base % 2 ^ 29 = 0 ∧ size % 2 ^ 29 = 0 ∧ base < 2 ^ 52 ∧ size < 2 ^ 52 ∧
      (size ≠ 0 → 0x1000000000000 ≤ base ∧ base + size ≤ 0x8000000000000) := by
  simp only [windowLegal, Bool.and_eq_true, Bool.or_eq_true, decide_eq_true_eq]
  omega

theorem State.ownedUnit_eq_false {s : State} {u : Nat} (h : ∀ e ∈ s.parts, e.2.live = true → e.2.owns (2 ^ 29 * u) = false) :
    s.ownedUnit u = false :=
  List.any_eq_false.2 fun e he => by simpa using h e he

/-! ## The root of trust (R404, R405) -/

theorem execSpdmRequest_idle {s : State} (h : s.pkg.readyAt (3, 3) = false) (id : Nat) (req : List Byte) :
    execSpdmRequest id req s = .next s := by
  simp [execSpdmRequest, show s.pkg.rot = false from h]

theorem execSpdmBind_idle {s : State} {part : Nat} (h : s.pkg.readyAt (3, 3) = false ∨ 16 ≤ part) (id : Nat) (secret : List Byte) :
    execSpdmBind id part secret s = .next s := by
  unfold execSpdmBind
  rw [if_pos]
  rcases h with off | far
  · simp [show s.pkg.rot = false from off]
  · simp [far]

/-- The sessions after a request: the first one of a session opens it. -/
def Pkg.sessionsWith (k : Pkg) (id : Nat) : List (Nat × Session) :=
  if (tabGet k.sessions id).isSome then k.sessions
  else smapInsert k.sessions id { part := none, key := [], lastSeq := none }

theorem Pkg.tabGet_sessionsWith (k : Pkg) (id m : Nat) : tabGet (k.sessionsWith id) m =
    if m = id ∧ tabGet k.sessions m = none then some { part := none, key := [], lastSeq := none } else tabGet k.sessions m := by
  unfold Pkg.sessionsWith
  by_cases e : m = id
  · subst e
    cases h : tabGet k.sessions m <;> simp [h]
  · split <;> simp [e]

theorem execSpdmRequest_answers {s : State} (h : s.pkg.readyAt (3, 3) = true) (id : Nat) (req : List Byte) :
    execSpdmRequest id req s = .next { s with serial := s.serial + 1, pkg := { s.pkg with
      spdmAnswers := s.pkg.spdmAnswers ++ [s.spdmAnswer id req], sessions := s.pkg.sessionsWith id } } := by
  have rot : ¬(!s.pkg.rot) = true := by simp [show s.pkg.rot = true from h]
  exact congrArg Host.Outcome.next (if_neg rot)

theorem execSpdmBind_binds {s : State} {part : Nat} (h : s.pkg.readyAt (3, 3) = true) (hp : part < 16) (id : Nat) (secret : List Byte) :
    execSpdmBind id part secret s = .next { s with pkg := { s.pkg with 
      sessions := smapInsert s.pkg.sessions id
        { part := some part, key := wrapKey secret, lastSeq := (tabGet s.pkg.sessions id).bind fun x => x.lastSeq } } } := by
  have bound : ¬(!s.pkg.rot || decide (16 ≤ part)) = true := by simp [show s.pkg.rot = true from h, hp]
  exact congrArg Host.Outcome.next (if_neg bound)

/-- An answer reports the measurements held, and the partition table's under index 4 (R405). -/
theorem State.tabGet_measurements (s : State) (k : Nat) :
    tabGet s.measurements k = if k = 4 then some s.tableDigest else tabGet s.pkg.measured k :=
  tabGet_insert ..

/-! ## The clauses of O51 -/

theorem execPackageReset_mem (s : State) : ∃ m po, execPackageReset s = .next { State.reset with
      tick := s.tick, serial := s.serial, nextId := s.nextId, inbox := s.inbox, mem := m, poison := po,
      pkg := { Pkg.reset with
        number := s.pkg.number, powered := s.pkg.powered, lostUnits := s.pkg.lostUnits, bootKey := s.pkg.bootKey,
        flash := s.pkg.flash } } ∧
    ∀ a, smapGet memDefault m a =
      if (0x060000000000 ≤ a ∧ a < 0x070000000000) ∨ 0x1000000000000 ≤ a then s.byte a else memDefault := by
  refine ⟨_, _, rfl, fun a => (smapGet_filter memDefault s.mem keptAtReset a).trans ?_⟩
  simp only [keptAtReset, safeTier, Bool.or_eq_true, Bool.and_eq_true, decide_eq_true_eq]
  rfl

/-- A unit that is trained sets its READY bit, and the first plane brings the pod number (R9, R406). -/
theorem execUnitReady_spec {s : State} {u : PkgUnit} (hu : UnitExists u) (on : s.pkg.powered = true)
    (rot : s.pkg.readyAt (3, 3) = true) : ∃ c sg m x pod nb k, execUnitReady u s = .next { s with
        serial := k, pkg := { s.pkg with readyC := c, readyS := sg, readyM := m, readyX := x, number := pod, numbered := nb } } ∧
      ReadySet s.pkg { s.pkg with readyC := c, readyS := sg, readyM := m, readyX := x, number := pod, numbered := nb } u true ∧
      ((s.pkg.numbered = true ∨ ∀ n, u ≠ .plane n) → pod = s.pkg.number ∧ nb = s.pkg.numbered ∧ k = s.serial) ∧
      (s.pkg.numbered = false → (∃ n, u = .plane n) → pod < 1024 ∧ nb = true) := by
  obtain ⟨pod, nb, k, numbered, kept, first⟩ := State.numberPod_spec (s := s) hu
  have only := Pkg.setReady_only { s.pkg with number := pod, numbered := nb } true u
  have bit := readySet_setReady hu { s.pkg with number := pod, numbered := nb } true
  rw [only] at bit
  refine ⟨_, _, _, _, pod, nb, k, ?_, bit, kept, first⟩
  rw [execUnitReady_runs on rot, numbered, State.modPkg, only]

/-- The READY bit of a unit that retires is 0, and the package counts it (R407). -/
theorem State.pkg_unitGone_unitRetired (s : State) {u : PkgUnit} (hu : UnitExists u) {t : State}
    (ht : t = (s.modPkg fun k => k.unitRetired u).unitGone u) :
    ReadySet s.pkg t.pkg u false ∧ t.pkg.replace = true ∧ t.pkg.retired = min 255 (s.pkg.retired + 1) := by
  obtain ⟨d, r, l, pkg⟩ := (s.modPkg fun k => k.unitRetired u).pkg_unitGone u
  rw [ht, pkg]
  exact ⟨readySet_setReady hu s.pkg false, rfl, rfl⟩

/-- What the retirement of a ready unit does (R407). -/
theorem execUnitRetire_spec {s : State} {u : PkgUnit} (hu : UnitExists u) (h : s.pkg.readyAt (readyBit u) = true) :
    ∃ t, execUnitRetire u s = .next t ∧ ReadySet s.pkg t.pkg u false ∧
      t.pkg.replace = true ∧ t.pkg.retired = min 255 (s.pkg.retired + 1) ∧
      (∀ n, (u = .sliceGroup n ∨ u = .stack n) → ∃ k po, t = { s with pkg := k, poison := po } ∧
        ∀ l, unitHolds u l = true → t.poisonMask l = BitVec.allOnes 128) ∧
      (∀ n, u = .plane n → ∃ k, t = { s with pkg := k } ∧ k.deadPlanes = (1024, n) :: s.pkg.deadPlanes ∧
        k.draining = (1024, n) :: s.pkg.draining) ∧
      ((∀ n, u ≠ .cluster n ∧ u ≠ .sliceGroup n ∧ u ≠ .stack n ∧ u ≠ .plane n) → ∃ k, t = { s with pkg := k }) ∧
      ∀ n, u = .cluster n → (∀ e ∈ s.groups, s.group e.1 = some e.2) → ∀ id g, s.group id = some g → clusterOf (coreOf id) = n →
        t.group id = none := by
  obtain ⟨bit, replace, retired⟩ := s.pkg_unitGone_unitRetired hu rfl
  refine ⟨_, execUnitRetire_runs hu h, bit, replace, retired, ?_, ?_, ?_, ?_⟩
  · rintro n (rfl | rfl)
    · exact ⟨_, _, rfl, fun l => State.poisonMask_unitLost _ (.sliceGroup n)⟩
    · exact ⟨_, _, rfl, fun l => State.poisonMask_unitLost _ (.stack n)⟩
  · rintro n rfl
    have only := s.pkg.setReady_only false (.plane n)
    exact ⟨_, rfl, congrArg (fun k => (1024, n) :: k.deadPlanes) only, congrArg (fun k => (1024, n) :: k.draining) only⟩
  · intro other
    cases u with
    | cluster n => exact absurd rfl (other n).1
    | sliceGroup n => exact absurd rfl (other n).2.1
    | stack n => exact absurd rfl (other n).2.2.1
    | plane n => exact absurd rfl (other n).2.2.2
    | _ => exact ⟨_, rfl⟩
  · rintro n rfl _ id g hg cluster
    exact State.group_clusterDies _ hg cluster

/-- A half-cluster that is turned off leaves every byte of the other cores' scratchpads (R408). -/
theorem execIslandPointReached_off {s : State} {n : Nat} (hn : n < 128) (h : (s.island n).point ≠ 7)
    (off : max (s.island n).req (s.island n).throttle = 7) :
    ∃ u sp po r, IslandSet s u n { s.island n with point := 7 } ∧
      execIslandPointReached n s = .next { u with spad := sp, spadPoison := po, serial := r } ∧
      ∀ k, k / 2 ^ 19 / 8 ≠ 2 * (12 * (n / 32) + n % 32 / 2) + n % 2 → smapGet memDefault sp k = s.sbyte k := by
  obtain ⟨sp, po, r, lost, bytes⟩ := State.foldl_loseSpad_spec (islandCores n) (s.setIsland n { s.island n with point := 7 }).settleThrot
  refine ⟨_, sp, po, r, s.islandSet n _, ?_, fun k other => bytes k fun own => other ((mem_islandCores n _).1 own)⟩
  rw [execIslandPointReached_runs hn (off ▸ h), if_pos off, lost]

/-- Settles O51: each of these steps is a test and an update of the package's registers, and what an update leaves unchanged
is said by the lemmas above for the READY bits, the islands, the scratchpads and the kills of a retired cluster's groups. -/
theorem packageUnits : Obligations.PackageUnits := by
  unfold Obligations.PackageUnits
  refine ⟨fun _ => rfl, fun _ => execFirmwareVerify_idle, ?firmware, ?ready, execPackageReset_mem, ?retire, fun _ => rfl, ?poison,
    ?islands, ?windows, ?spdm⟩
  case firmware =>
    intro s n r v im on image
    refine ⟨fun h => execFirmwareVerify_refused on image ?_, fun sig may => ⟨_, _, execFirmwareVerify_accepted on image
      ((s.pkg.accepts_iff ..).2 ⟨sig, may⟩), readySet_setReady (u := .rot) trivial s.pkg true, fun k => tabGet_insert ..⟩⟩
    rw [← Bool.not_eq_true, Pkg.accepts_iff]
    rintro ⟨sig, may⟩
    exact h.elim (fun bad => Bool.false_ne_true (bad.symm.trans sig)) (fun early => early may)
  case ready => exact fun s u hu => ⟨execUnitReady_idle, execUnitReady_spec hu⟩
  case retire => exact fun s u hu => ⟨execUnitRetire_idle hu, execUnitRetire_spec hu⟩
  case poison =>
    intro s
    refine ⟨fun pa => ⟨_, rfl, State.poisonMask_setPoison s _ _⟩, fun core off hc ho => ?_, fun gid r g hg hr => ?_,
      fun gid r g hg hr => ?_, fun gid r g hg hr => ?_, fun gid t row g hg ht hr => ?_, fun gid a res row g hg ha hr => ?_⟩
    case refine_1 =>
      have inside : (decide (core < 768) && decide (off < 2 ^ 19)) = true :=
        Bool.and_eq_true_iff.2 ⟨decide_eq_true hc, decide_eq_true ho⟩
      exact ⟨_, congrArg Host.Outcome.next (if_pos inside), fun l => smapGet_put ..⟩
    all_goals refine congrArg Host.Outcome.next (State.modGroup_poison_held hg _ ?_ _)
    · exact decide_eq_true hr
    · simpa using hr
    · exact decide_eq_true hr
    · simp [ht, hr]
    · simp [ha, hr]
  case islands =>
    rintro s n _ rfl hn
    refine ⟨execThrottle_idle, fun half h => ⟨_, execThrottle_lowers hn half h, s.islandSet n _⟩, execThrottleRecover_idle,
      fun h low => ⟨_, execThrottleRecover_raises hn h low, s.islandSet n _⟩, execIslandPointReached_idle, fun h on => ?_,
      fun h off _ => execIslandPointReached_off hn h off⟩
    exact ⟨_, (execIslandPointReached_runs hn h).trans (congrArg Host.Outcome.next (if_neg on)), s.islandSet n _⟩
  case windows =>
    intro s n base size
    refine ⟨fun hn hb hs hb' hs' range apart owned => ?_, fun illegal => execExpanderWindowChange_refused ?_⟩
    · refine ⟨_, execExpanderWindowChange_rewrites hn ((windowLegal_iff ..).2 ⟨hb, hs, hb', hs', range⟩)
        (fun w hw other => rangesMeet_of_apart (apart w hw other))
        (fun u lo hi => (owned u lo hi).imp_right State.ownedUnit_eq_false), fun m => tabGet_insert ..⟩
    · rw [← Bool.not_eq_true, windowLegal_iff]
      omega
  case spdm =>
    intro s id part req secret
    refine ⟨fun off => ⟨execSpdmRequest_idle off id req, execSpdmBind_idle (.inl off) id secret⟩,
      fun far => execSpdmBind_idle (.inr far) id secret, fun rot => ?_, fun rot hp => ?_⟩
    · refine ⟨_, s.spdmAnswer id req, Config.signNonce s.serial, execSpdmRequest_answers rot id req, rfl, rfl, rfl, fun k hk => ?_, ?_,
        s.pkg.tabGet_sessionsWith id⟩
      · exact (s.tabGet_measurements k).trans (if_neg hk)
      · exact s.tabGet_measurements 4
    · exact ⟨_, execSpdmBind_binds rot hp id secret, fun m => tabGet_insert ..⟩

end Sys2Proof.Machine
end

/-! # O58: decoding what `encode` gives (R24 to R38)

A word is the sum of its opcode bits and of its fields, each at its place. For each layout one lemma, `pack…_reads`, says
what the decoder reads of such a word: the opcode bits, the bits that the layout leaves to the opcode, and every field. For
each class one lemma, `takesPrefix_…` or `takesNone_…`, says which decoder its words come to, alone and under a PREFIX word. -/

section
namespace Sys2Proof

/-! ## Fields -/

theorem fld_eq_iff {w lo len : Nat} {x : BitVec len} : fld w lo len = x ↔ w / 2 ^ lo % 2 ^ len = x.toNat := by
  simp [fld, ← BitVec.toNat_inj]

theorem flag_eq_iff {w lo : Nat} {b : Bool} : flag w lo = b ↔ w / 2 ^ lo % 2 = b.toNat := by
  cases b <;> simp [flag]

/-- Words that agree from one bit up agree from every higher bit up. -/
theorem div_eq_of_le {v w k m : Nat} (hk : k ≤ m) (h : v / 2 ^ k = w / 2 ^ k) : v / 2 ^ m = w / 2 ^ m := by
  rw [← Nat.add_sub_cancel' hk, Nat.pow_add, ← Nat.div_div_eq_div_mul, h, Nat.div_div_eq_div_mul]

theorem vsrcBits_lt (s : VSrc) : vsrcBits s < 256 := by
  cases s <;> simp only [vsrcBits] <;> omega

theorem ssrcBits_lt (s : SSrc) : ssrcBits s < 1024 := by
  cases s <;> simp only [ssrcBits] <;> omega

theorem condCode_lt (c : Cond) : Machine.condCode c < 16 := by
  cases c <;> decide

theorem condOf_condCode (c : Cond) : condOf (Machine.condCode c) = some c := by
  cases c <;> rfl

/-- Bit 9 of a VU word tells an immediate from a register, whose bit 8 is 0. -/
theorem vsrcOf_eq {w : Nat} {s : VSrc} (h : w / 2 ^ 2 % 256 = vsrcBits s) : vsrcOf w = some s := by
  unfold vsrcOf
  cases s with
  | u r =>
    simp only [vsrcBits] at h
    rw [if_neg (by omega), if_pos (by omega), (fld_eq_iff (x := r)).mpr (by omega)]
  | imm i =>
    simp only [vsrcBits] at h
    rw [if_pos (by omega), (fld_eq_iff (x := i)).mpr (by omega)]

/-- Bit 11 of an S word tells an immediate from a register, whose bits [10:8] are 0. -/
theorem ssrcOf_eq {w : Nat} {s : SSrc} (h : w / 2 ^ 2 % 1024 = ssrcBits s) : ssrcOf w = some s := by
  unfold ssrcOf
  cases s with
  | r r =>
    simp only [ssrcBits] at h
    rw [if_neg (by omega), if_pos (by omega), (fld_eq_iff (x := r)).mpr (by omega)]
  | imm i =>
    simp only [ssrcBits] at h
    rw [if_pos (by omega), (fld_eq_iff (x := i)).mpr (by omega)]

/-! ## What is read of a word, by its layout -/

theorem packV3_reads {base : Nat} {f : V3} (hb : base % 2 ^ 23 = 0) :
    packV3 base f / 2 ^ 23 = base / 2 ^ 23 ∧ unpackV3 (packV3 base f) f.px = f := by
  obtain ⟨vd, va, vb, st, px⟩ := f
  simp only [packV3, unpackV3, V3.mk.injEq, fld_eq_iff, and_true]
  omega

theorem packVU_reads {base : Nat} {f : VU} (hb : base % 2 ^ 24 = 0) :
    packVU base f / 2 ^ 24 = base / 2 ^ 24 ∧ unpackVU (packVU base f) f.px = some f := by
  obtain ⟨vd, va, src, st, px⟩ := f
  have := vsrcBits_lt src
  have hsrc : vsrcOf (packVU base ⟨vd, va, src, st, px⟩) = some src := vsrcOf_eq (by simp only [packVU]; omega)
  rw [unpackVU, hsrc]
  simp only [packVU, Option.map_some, Option.some.injEq, VU.mk.injEq, fld_eq_iff, and_true, true_and]
  omega

theorem packV3Cmp_reads {base : Nat} {f : V3Cmp} (hb : base % 2 ^ 23 = 0) :
    packV3Cmp base f / 2 ^ 23 = base / 2 ^ 23 ∧ unpackV3Cmp (packV3Cmp base f) f.px = some f := by
  obtain ⟨cond, pd, va, vb, st, px⟩ := f
  have := condCode_lt cond
  have hcond : packV3Cmp base ⟨cond, pd, va, vb, st, px⟩ / 2 ^ 19 % 16 = Machine.condCode cond := by
    simp only [packV3Cmp]; omega
  rw [unpackV3Cmp, hcond, condOf_condCode]
  simp only [packV3Cmp, Option.map_some, Option.some.injEq, V3Cmp.mk.injEq, fld_eq_iff, and_true, true_and]
  omega

theorem packVUCmp_reads {base : Nat} {f : VUCmp} (hb : base % 2 ^ 24 = 0) :
    packVUCmp base f / 2 ^ 24 = base / 2 ^ 24 ∧ unpackVUCmp (packVUCmp base f) f.px = some f := by
  obtain ⟨cond, pd, va, src, st, px⟩ := f
  have := condCode_lt cond
  have := vsrcBits_lt src
  have hcond : packVUCmp base ⟨cond, pd, va, src, st, px⟩ / 2 ^ 20 % 16 = Machine.condCode cond := by
    simp only [packVUCmp]; omega
  have hsrc : vsrcOf (packVUCmp base ⟨cond, pd, va, src, st, px⟩) = some src :=
    vsrcOf_eq (by simp only [packVUCmp]; omega)
  rw [unpackVUCmp, hcond, condOf_condCode, hsrc]
  simp only [Option.bind_some, packVUCmp, Option.map_some, Option.some.injEq, VUCmp.mk.injEq, fld_eq_iff, and_true, true_and]
  omega

theorem packV3Mov_reads {base : Nat} {f : V3Mov} (hlow : base % 2 ^ 9 = 0) (hhigh : base / 2 ^ 16 % 2 ^ 7 = 0) :
    packV3Mov base f / 2 ^ 23 = base / 2 ^ 23 ∧ packV3Mov base f / 2 ^ 9 % 128 = base / 2 ^ 9 % 128 ∧
    unpackV3Mov (packV3Mov base f) f.px = f := by
  obtain ⟨vd, vb, st, px⟩ := f
  simp only [packV3Mov, unpackV3Mov, V3Mov.mk.injEq, fld_eq_iff, and_true]
  omega

theorem packVUMov_reads {base : Nat} {f : VUMov} (hlow : base % 2 ^ 10 = 0) (hhigh : base / 2 ^ 17 % 2 ^ 7 = 0) :
    packVUMov base f / 2 ^ 24 = base / 2 ^ 24 ∧ packVUMov base f / 2 ^ 10 % 128 = base / 2 ^ 10 % 128 ∧
    unpackVUMov (packVUMov base f) f.px = some f := by
  obtain ⟨vd, src, st, px⟩ := f
  have := vsrcBits_lt src
  have hsrc : vsrcOf (packVUMov base ⟨vd, src, st, px⟩) = some src := vsrcOf_eq (by simp only [packVUMov]; omega)
  rw [unpackVUMov, hsrc]
  simp only [packVUMov, Option.map_some, Option.some.injEq, VUMov.mk.injEq, fld_eq_iff, and_true, true_and]
  omega

theorem packV3Un_reads {base : Nat} {f : V3Un} (hlow : base % 2 ^ 2 = 0) (hhigh : base / 2 ^ 9 % 2 ^ 14 = 0) :
    packV3Un base f / 2 ^ 23 = base / 2 ^ 23 ∧ packV3Un base f / 2 ^ 2 % 128 = base / 2 ^ 2 % 128 ∧
    unpackV3Un (packV3Un base f) f.px = f := by
  obtain ⟨vd, va, st, px⟩ := f
  simp only [packV3Un, unpackV3Un, V3Un.mk.injEq, fld_eq_iff, and_true]
  omega

theorem packS3_reads {base : Nat} {f : S3} (hb : base % 2 ^ 24 = 0) :
    packS3 base f / 2 ^ 24 = base / 2 ^ 24 ∧ unpackS3 (packS3 base f) = some f := by
  obtain ⟨sd, sa, src, st⟩ := f
  have := ssrcBits_lt src
  have hsrc : ssrcOf (packS3 base ⟨sd, sa, src, st⟩) = some src := ssrcOf_eq (by simp only [packS3]; omega)
  rw [unpackS3, hsrc]
  simp only [packS3, Option.map_some, Option.some.injEq, S3.mk.injEq, fld_eq_iff, true_and]
  omega

theorem packSMov_reads {base : Nat} {f : SMov} (hlow : base % 2 ^ 12 = 0) (hhigh : base / 2 ^ 18 % 2 ^ 6 = 0) :
    packSMov base f / 2 ^ 24 = base / 2 ^ 24 ∧ packSMov base f / 2 ^ 12 % 64 = base / 2 ^ 12 % 64 ∧
    unpackSMov (packSMov base f) = some f := by
  obtain ⟨sd, src, st⟩ := f
  have := ssrcBits_lt src
  have hsrc : ssrcOf (packSMov base ⟨sd, src, st⟩) = some src := ssrcOf_eq (by simp only [packSMov]; omega)
  rw [unpackSMov, hsrc]
  simp only [packSMov, Option.map_some, Option.some.injEq, SMov.mk.injEq, fld_eq_iff, true_and]
  omega

theorem packSCmp_reads {base : Nat} {f : SCmp} (hb : base % 2 ^ 18 = 0) :
    packSCmp base f / 2 ^ 24 = base / 2 ^ 24 ∧ packSCmp base f / 2 ^ 18 % 64 = base / 2 ^ 18 % 64 ∧
    unpackSCmp (packSCmp base f) = some f := by
  obtain ⟨sa, src, st⟩ := f
  have := ssrcBits_lt src
  have hsrc : ssrcOf (packSCmp base ⟨sa, src, st⟩) = some src := ssrcOf_eq (by simp only [packSCmp]; omega)
  rw [unpackSCmp, hsrc]
  simp only [packSCmp, Option.map_some, Option.some.injEq, SCmp.mk.injEq, fld_eq_iff, true_and]
  omega

theorem packSUn_reads {base : Nat} {f : SUn} (hlow : base % 2 ^ 2 = 0) (hhigh : base / 2 ^ 12 % 2 ^ 12 = 0) :
    packSUn base f / 2 ^ 24 = base / 2 ^ 24 ∧ packSUn base f / 2 ^ 2 % 1024 = base / 2 ^ 2 % 1024 ∧
    unpackSUn (packSUn base f) = f := by
  obtain ⟨sd, sa, st⟩ := f
  simp only [packSUn, unpackSUn, SUn.mk.injEq, fld_eq_iff]
  omega

theorem packSCvt_reads {base : Nat} {f : SCvt} (hlow : base % 2 ^ 6 = 0) (hhigh : base / 2 ^ 12 % 2 ^ 12 = 0) :
    packSCvt base f / 2 ^ 24 = base / 2 ^ 24 ∧ packSCvt base f / 2 ^ 6 % 64 = base / 2 ^ 6 % 64 ∧
    unpackSCvt (packSCvt base f) = f := by
  obtain ⟨sd, sa, kind, st⟩ := f
  simp only [packSCvt, unpackSCvt, SCvt.mk.injEq, fld_eq_iff]
  omega

theorem packBr_reads {base : Nat} {f : Br} (hb : base % 2 ^ 24 = 0) :
    packBr base f / 2 ^ 24 = base / 2 ^ 24 ∧ unpackBr (packBr base f) = f := by
  obtain ⟨off, st⟩ := f
  simp only [packBr, unpackBr, Br.mk.injEq, fld_eq_iff]
  omega

theorem packBrP_reads {base : Nat} {f : BrP} (hb : base % 2 ^ 24 = 0) :
    packBrP base f / 2 ^ 24 = base / 2 ^ 24 ∧ unpackBrP (packBrP base f) = f := by
  obtain ⟨p, off, st⟩ := f
  simp only [packBrP, unpackBrP, BrP.mk.injEq, fld_eq_iff]
  omega

/-- A word with the stall field alone, whatever the opcode bits are read from. -/
theorem packBare_reads {base k : Nat} {f : Bare} (hk : 2 ≤ k) (hb : base % 2 ^ 2 = 0) :
    packBare base f / 2 ^ k = base / 2 ^ k ∧ packBare base f / 2 ^ 2 = base / 2 ^ 2 ∧
      unpackBare (packBare base f) = f := by
  obtain ⟨st⟩ := f
  have hlow : packBare base ⟨st⟩ / 2 ^ 2 = base / 2 ^ 2 := by simp only [packBare]; omega
  refine ⟨div_eq_of_le hk hlow, hlow, ?_⟩
  simp only [packBare, unpackBare, Bare.mk.injEq, fld_eq_iff]
  omega

theorem packJmp_reads {base : Nat} {f : Jmp} (hlow : base % 2 ^ 2 = 0) (hhigh : base / 2 ^ 12 % 2 ^ 6 = 0) :
    packJmp base f / 2 ^ 24 = base / 2 ^ 24 ∧ packJmp base f / 2 ^ 2 % 1024 = base / 2 ^ 2 % 1024 ∧
    packJmp base f / 2 ^ 18 % 64 = base / 2 ^ 18 % 64 ∧ unpackJmp (packJmp base f) = f := by
  obtain ⟨sa, st⟩ := f
  simp only [packJmp, unpackJmp, Jmp.mk.injEq, fld_eq_iff]
  omega

theorem packAdr_reads {base : Nat} {f : Adr} (hb : base % 2 ^ 24 = 0) :
    packAdr base f / 2 ^ 24 = base / 2 ^ 24 ∧ unpackAdr (packAdr base f) = f := by
  obtain ⟨sd, off, st⟩ := f
  simp only [packAdr, unpackAdr, Adr.mk.injEq, fld_eq_iff]
  omega

theorem packRdsr_reads {base : Nat} {f : Rdsr} (hlow : base % 2 ^ 12 = 0) (hhigh : base / 2 ^ 18 % 2 ^ 6 = 0) :
    packRdsr base f / 2 ^ 24 = base / 2 ^ 24 ∧ packRdsr base f / 2 ^ 12 % 64 = base / 2 ^ 12 % 64 ∧
    unpackRdsr (packRdsr base f) = f := by
  obtain ⟨sd, idx, st⟩ := f
  simp only [packRdsr, unpackRdsr, Rdsr.mk.injEq, fld_eq_iff]
  omega

theorem packWrsr_reads {base : Nat} {f : Wrsr} (hb : base % 2 ^ 18 = 0) :
    packWrsr base f / 2 ^ 24 = base / 2 ^ 24 ∧ packWrsr base f / 2 ^ 18 % 64 = base / 2 ^ 18 % 64 ∧
    unpackWrsr (packWrsr base f) = f := by
  obtain ⟨sa, idx, st⟩ := f
  simp only [packWrsr, unpackWrsr, Wrsr.mk.injEq, fld_eq_iff]
  omega

theorem packSetM_reads {base : Nat} {f : SetM} (hb : base % 2 ^ 24 = 0) :
    packSetM base f / 2 ^ 24 = base / 2 ^ 24 ∧ unpackSetM (packSetM base f) = f := by
  obtain ⟨sel, val, st⟩ := f
  simp only [packSetM, unpackSetM, SetM.mk.injEq, fld_eq_iff]
  omega

theorem packVmem_reads {base : Nat} {f : Vmem} (hb : base % 2 ^ 22 = 0) :
    packVmem base f / 2 ^ 22 = base / 2 ^ 22 ∧ unpackVmem (packVmem base f) f.px = f := by
  obtain ⟨vd, off, en, k, att, st, px⟩ := f
  have := en.toNat_lt
  simp only [packVmem, unpackVmem, Vmem.mk.injEq, fld_eq_iff, flag_eq_iff, and_true]
  omega

theorem packLdt_reads {base : Nat} {f : Ldt} (hlow : base % 2 ^ 7 = 0) (hhigh : base / 2 ^ 8 % 2 ^ 14 = 0) :
    packLdt base f / 2 ^ 22 = base / 2 ^ 22 ∧ packLdt base f / 2 ^ 7 % 2 = base / 2 ^ 7 % 2 ∧
    unpackLdt (packLdt base f) f.px = f := by
  obtain ⟨vd, off, k, esz, st, px⟩ := f
  simp only [packLdt, unpackLdt, Ldt.mk.injEq, fld_eq_iff, and_true]
  omega

theorem packPfl_reads {base : Nat} {f : Pfl} (hb : base % 2 ^ 15 = 0) :
    packPfl base f / 2 ^ 22 = base / 2 ^ 22 ∧ packPfl base f / 2 ^ 15 % 128 = base / 2 ^ 15 % 128 ∧
    unpackPfl (packPfl base f) f.px = f := by
  obtain ⟨off, en, k, lvl, st, px⟩ := f
  have := en.toNat_lt
  simp only [packPfl, unpackPfl, Pfl.mk.injEq, fld_eq_iff, flag_eq_iff, and_true]
  omega

theorem packSmem_reads {base : Nat} {f : Smem} (hb : base % 2 ^ 22 = 0) :
    packSmem base f / 2 ^ 22 = base / 2 ^ 22 ∧ unpackSmem (packSmem base f) f.px = f := by
  obtain ⟨sd, k, woff, att, st, px⟩ := f
  simp only [packSmem, unpackSmem, Smem.mk.injEq, fld_eq_iff, and_true]
  omega

theorem packAtom_reads {base : Nat} {f : Atom} (hb : base % 2 ^ 21 = 0) :
    packAtom base f / 2 ^ 21 = base / 2 ^ 21 ∧ unpackAtom (packAtom base f) f.px = f := by
  obtain ⟨vd, off, k, ret, order, st, px⟩ := f
  have := ret.toNat_lt
  have := order.toNat_lt
  simp only [packAtom, unpackAtom, Atom.mk.injEq, fld_eq_iff, flag_eq_iff, and_true]
  omega

theorem packMma_reads {base : Nat} {f : Mma} (hlow : base % 2 ^ 2 = 0) (hhigh : base / 2 ^ 3 % 2 ^ 18 = 0) :
    packMma base f / 2 ^ 21 = base / 2 ^ 21 ∧ packMma base f / 2 ^ 2 % 2 = base / 2 ^ 2 % 2 ∧
    unpackMma (packMma base f) f.px = f := by
  obtain ⟨acc, ta, tb, vf, st, px⟩ := f
  simp only [packMma, unpackMma, Mma.mk.injEq, fld_eq_iff, and_true]
  omega

theorem packMmag_reads {base : Nat} {f : Mmag} (hlow : base % 2 ^ 2 = 0) (hhigh : base / 2 ^ 3 % 2 ^ 18 = 0) :
    packMmag base f / 2 ^ 21 = base / 2 ^ 21 ∧ packMmag base f / 2 ^ 2 % 2 = base / 2 ^ 2 % 2 ∧
    unpackMmag (packMmag base f) f.px = f := by
  obtain ⟨acc, q, tb, vf, st, px⟩ := f
  simp only [packMmag, unpackMmag, Mmag.mk.injEq, fld_eq_iff, and_true]
  omega

theorem packMmas_reads {base : Nat} {f : Mmas} (hlow : base % 2 ^ 2 = 0) (hhigh : base / 2 ^ 3 % 2 ^ 18 = 0) :
    packMmas base f / 2 ^ 21 = base / 2 ^ 21 ∧ packMmas base f / 2 ^ 2 % 2 = base / 2 ^ 2 % 2 ∧
    unpackMmas (packMmas base f) f.px = f := by
  obtain ⟨acc, qa, qb, vf, st, px⟩ := f
  simp only [packMmas, unpackMmas, Mmas.mk.injEq, fld_eq_iff, and_true]
  omega

theorem packAccOp_reads {base : Nat} {f : AccOp} (hlow : base % 2 ^ 2 = 0) (hhigh : base / 2 ^ 18 % 2 ^ 3 = 0) :
    packAccOp base f / 2 ^ 21 = base / 2 ^ 21 ∧ packAccOp base f / 2 ^ 2 % 65536 = base / 2 ^ 2 % 65536 ∧
    unpackAccOp (packAccOp base f) f.px = f := by
  obtain ⟨acc, st, px⟩ := f
  simp only [packAccOp, unpackAccOp, AccOp.mk.injEq, fld_eq_iff, and_true]
  omega

theorem packAccld_reads {base : Nat} {f : Accld} (hlow : base % 2 ^ 2 = 0) (hhigh : base / 2 ^ 13 % 2 ^ 8 = 0) :
    packAccld base f / 2 ^ 21 = base / 2 ^ 21 ∧ packAccld base f / 2 ^ 2 % 2048 = base / 2 ^ 2 % 2048 ∧
    unpackAccld (packAccld base f) f.px = f := by
  obtain ⟨acc, q, res, st, px⟩ := f
  have := res.toNat_lt
  simp only [packAccld, unpackAccld, Accld.mk.injEq, fld_eq_iff, flag_eq_iff, and_true]
  omega

theorem packDrain_reads {base : Nat} {f : Drain} (hlow : base % 2 ^ 2 = 0) (hmid : base / 2 ^ 3 % 2 ^ 7 = 0) (hhigh :
    base / 2 ^ 14 % 2 ^ 7 = 0) :
    packDrain base f / 2 ^ 21 = base / 2 ^ 21 ∧ packDrain base f / 2 ^ 2 % 2 = base / 2 ^ 2 % 2 ∧
    packDrain base f / 2 ^ 10 % 16 = base / 2 ^ 10 % 16 ∧ unpackDrain (packDrain base f) f.px = f := by
  obtain ⟨acc, q, vf, st, px⟩ := f
  simp only [packDrain, unpackDrain, Drain.mk.injEq, fld_eq_iff, and_true]
  omega

theorem packTld_reads {base : Nat} {f : Tld} (hlow : base % 2 ^ 2 = 0) (hhigh : base / 2 ^ 13 % 2 ^ 8 = 0) :
    packTld base f / 2 ^ 21 = base / 2 ^ 21 ∧ packTld base f / 2 ^ 2 % 2048 = base / 2 ^ 2 % 2048 ∧
    unpackTld (packTld base f) f.px = f := by
  obtain ⟨td, q, st, px⟩ := f
  simp only [packTld, unpackTld, Tld.mk.injEq, fld_eq_iff, and_true]
  omega

theorem packTldt_reads {base : Nat} {f : Tldt} (hlow : base % 2 ^ 2 = 0) (hhigh : base / 2 ^ 12 % 2 ^ 9 = 0) :
    packTldt base f / 2 ^ 21 = base / 2 ^ 21 ∧ packTldt base f / 2 ^ 2 % 1024 = base / 2 ^ 2 % 1024 ∧
    unpackTldt (packTldt base f) f.px = f := by
  obtain ⟨td, q, esz, st, px⟩ := f
  have := esz.toNat_lt
  simp only [packTldt, unpackTldt, Tldt.mk.injEq, fld_eq_iff, flag_eq_iff, and_true]
  omega

theorem packTldg_reads {base : Nat} {f : Tldg} (hlow : base % 2 ^ 2 = 0) (hhigh : base / 2 ^ 6 % 2 ^ 15 = 0) :
    packTldg base f / 2 ^ 21 = base / 2 ^ 21 ∧ packTldg base f / 2 ^ 2 % 16 = base / 2 ^ 2 % 16 ∧
    unpackTldg (packTldg base f) f.px = f := by
  obtain ⟨td, q, vi, st, px⟩ := f
  simp only [packTldg, unpackTldg, Tldg.mk.injEq, fld_eq_iff, and_true]
  omega

theorem packTzero_reads {base : Nat} {f : Tzero} (hlow : base % 2 ^ 2 = 0) (hhigh : base / 2 ^ 17 % 2 ^ 4 = 0) :
    packTzero base f / 2 ^ 21 = base / 2 ^ 21 ∧ packTzero base f / 2 ^ 2 % 32768 = base / 2 ^ 2 % 32768 ∧
    unpackTzero (packTzero base f) f.px = f := by
  obtain ⟨td, st, px⟩ := f
  simp only [packTzero, unpackTzero, Tzero.mk.injEq, fld_eq_iff, and_true]
  omega

theorem packMAmax_reads {base : Nat} {f : MAmax} (hlow : base % 2 ^ 2 = 0) (hhigh : base / 2 ^ 12 % 2 ^ 9 = 0) :
    packMAmax base f / 2 ^ 21 = base / 2 ^ 21 ∧ packMAmax base f / 2 ^ 2 % 1024 = base / 2 ^ 2 % 1024 ∧
    unpackMAmax (packMAmax base f) f.px = f := by
  obtain ⟨acc, sd, st, px⟩ := f
  simp only [packMAmax, unpackMAmax, MAmax.mk.injEq, fld_eq_iff, and_true]
  omega

theorem packAccRow_reads {base : Nat} {f : AccRow} (hlow : base % 2 ^ 2 = 0) (hhigh : base / 2 ^ 6 % 2 ^ 15 = 0) :
    packAccRow base f / 2 ^ 21 = base / 2 ^ 21 ∧ packAccRow base f / 2 ^ 2 % 16 = base / 2 ^ 2 % 16 ∧
    unpackAccRow (packAccRow base f) f.px = f := by
  obtain ⟨acc, half, row, v, st, px⟩ := f
  have := half.toNat_lt
  simp only [packAccRow, unpackAccRow, AccRow.mk.injEq, fld_eq_iff, flag_eq_iff, and_true]
  omega

theorem packCpy_reads {base : Nat} {f : Cpy} (hlow : base % 2 ^ 2 = 0) (hhigh : base / 2 ^ 5 % 2 ^ 17 = 0) :
    packCpy base f / 2 ^ 22 = base / 2 ^ 22 ∧ packCpy base f / 2 ^ 2 % 8 = base / 2 ^ 2 % 8 ∧
    unpackCpy (packCpy base f) f.px = f := by
  obtain ⟨cr, mask, sd, st, px⟩ := f
  simp only [packCpy, unpackCpy, Cpy.mk.injEq, fld_eq_iff, and_true]
  omega

theorem packCpyx_reads {base : Nat} {f : Cpyx} (hlow : base % 2 ^ 2 = 0) (hmid : base / 2 ^ 5 % 2 ^ 6 = 0) (hhigh :
    base / 2 ^ 19 % 2 ^ 3 = 0) :
    packCpyx base f / 2 ^ 22 = base / 2 ^ 22 ∧ packCpyx base f / 2 ^ 2 % 8 = base / 2 ^ 2 % 8 ∧
    packCpyx base f / 2 ^ 11 % 256 = base / 2 ^ 11 % 256 ∧ unpackCpyx (packCpyx base f) f.px = f := by
  obtain ⟨cr, sd, st, px⟩ := f
  simp only [packCpyx, unpackCpyx, Cpyx.mk.injEq, fld_eq_iff, and_true]
  omega

theorem packCTag_reads {base : Nat} {f : CTag} (hlow : base % 2 ^ 2 = 0) (hhigh : base / 2 ^ 5 % 2 ^ 12 = 0) :
    packCTag base f / 2 ^ 22 = base / 2 ^ 22 ∧ packCTag base f / 2 ^ 2 % 8 = base / 2 ^ 2 % 8 ∧
    packCTag base f / 2 ^ 17 % 32 = base / 2 ^ 17 % 32 ∧ unpackCTag (packCTag base f) f.px = f := by
  obtain ⟨sa, sd, st, px⟩ := f
  simp only [packCTag, unpackCTag, CTag.mk.injEq, fld_eq_iff, and_true]
  omega

theorem packRld_reads {base : Nat} {f : Rld} (hlow : base % 2 ^ 3 = 0) (hhigh : base / 2 ^ 7 % 2 ^ 15 = 0) :
    packRld base f / 2 ^ 22 = base / 2 ^ 22 ∧ packRld base f / 2 ^ 3 % 16 = base / 2 ^ 3 % 16 ∧
    unpackRld (packRld base f) f.px = f := by
  obtain ⟨vd, sb, stream, acq, st, px⟩ := f
  have := acq.toNat_lt
  simp only [packRld, unpackRld, Rld.mk.injEq, fld_eq_iff, flag_eq_iff, and_true]
  omega

theorem packRst_reads {base : Nat} {f : Rst} (hlow : base % 2 ^ 3 = 0) (hhigh : base / 2 ^ 7 % 2 ^ 15 = 0) :
    packRst base f / 2 ^ 22 = base / 2 ^ 22 ∧ packRst base f / 2 ^ 3 % 16 = base / 2 ^ 3 % 16 ∧
    unpackRst (packRst base f) f.px = f := by
  obtain ⟨vs, sb, stream, rel, st, px⟩ := f
  have := rel.toNat_lt
  simp only [packRst, unpackRst, Rst.mk.injEq, fld_eq_iff, flag_eq_iff, and_true]
  omega

theorem packRatom_reads {base : Nat} {f : Ratom} (hb : base % 2 ^ 22 = 0) :
    packRatom base f / 2 ^ 22 = base / 2 ^ 22 ∧ unpackRatom (packRatom base f) f.px = f := by
  obtain ⟨vd, sb, stream, op, ret, st, px⟩ := f
  have := ret.toNat_lt
  simp only [packRatom, unpackRatom, Ratom.mk.injEq, fld_eq_iff, flag_eq_iff, and_true]
  omega

theorem packRstv_reads {base : Nat} {f : Rstv} (hlow : base % 2 ^ 3 = 0) (hhigh : base / 2 ^ 7 % 2 ^ 15 = 0) :
    packRstv base f / 2 ^ 22 = base / 2 ^ 22 ∧ packRstv base f / 2 ^ 3 % 16 = base / 2 ^ 3 % 16 ∧
    unpackRstv (packRstv base f) f.px = f := by
  obtain ⟨vs, sa, stream, rel, st, px⟩ := f
  have := rel.toNat_lt
  simp only [packRstv, unpackRstv, Rstv.mk.injEq, fld_eq_iff, flag_eq_iff, and_true]
  omega

theorem packXfer_reads {base : Nat} {f : Xfer} (hlow : base % 2 ^ 2 = 0) (hhigh : base / 2 ^ 7 % 2 ^ 8 = 0) :
    packXfer base f / 2 ^ 22 = base / 2 ^ 22 ∧ packXfer base f / 2 ^ 2 % 32 = base / 2 ^ 2 % 32 ∧
    packXfer base f / 2 ^ 15 % 128 = base / 2 ^ 15 % 128 ∧ unpackXfer (packXfer base f) f.px = f := by
  obtain ⟨cr, stream, st, px⟩ := f
  simp only [packXfer, unpackXfer, Xfer.mk.injEq, fld_eq_iff, and_true]
  omega

theorem packRfence_reads {base : Nat} {f : Rfence} (hlow : base % 2 ^ 2 = 0) (hhigh : base / 2 ^ 7 % 2 ^ 8 = 0) :
    packRfence base f / 2 ^ 22 = base / 2 ^ 22 ∧ packRfence base f / 2 ^ 2 % 32 = base / 2 ^ 2 % 32 ∧
    packRfence base f / 2 ^ 15 % 128 = base / 2 ^ 15 % 128 ∧ unpackRfence (packRfence base f) f.px = f := by
  obtain ⟨sb, stream, st, px⟩ := f
  simp only [packRfence, unpackRfence, Rfence.mk.injEq, fld_eq_iff, and_true]
  omega

theorem packXred_reads {base : Nat} {f : Xred} (hlow : base % 2 ^ 2 = 0) (hhigh : base / 2 ^ 7 % 2 ^ 15 = 0) :
    packXred base f / 2 ^ 22 = base / 2 ^ 22 ∧ packXred base f / 2 ^ 2 % 32 = base / 2 ^ 2 % 32 ∧
    unpackXred (packXred base f) f.px = f := by
  obtain ⟨vp, sa, stream, st, px⟩ := f
  simp only [packXred, unpackXred, Xred.mk.injEq, fld_eq_iff, and_true]
  omega

theorem packXredLast_reads {base : Nat} {f : XredLast} (hlow : base % 2 ^ 2 = 0) (hhigh : base / 2 ^ 15 % 2 ^ 7 = 0) :
    packXredLast base f / 2 ^ 22 = base / 2 ^ 22 ∧ packXredLast base f / 2 ^ 2 % 32 = base / 2 ^ 2 % 32 ∧
    packXredLast base f / 2 ^ 2 % 8192 = base / 2 ^ 2 % 8192 ∧ unpackXredLast (packXredLast base f) f.px = f := by
  obtain ⟨vp, st, px⟩ := f
  simp only [packXredLast, unpackXredLast, XredLast.mk.injEq, fld_eq_iff, and_true]
  omega

theorem packHold_reads {base : Nat} {f : Hold} (hlow : base % 2 ^ 7 = 0) (hhigh : base / 2 ^ 15 % 2 ^ 7 = 0) :
    packHold base f / 2 ^ 22 = base / 2 ^ 22 ∧ packHold base f / 2 ^ 7 % 256 = base / 2 ^ 7 % 256 ∧
    unpackHold (packHold base f) f.px = f := by
  obtain ⟨vd, n, st, px⟩ := f
  simp only [packHold, unpackHold, Hold.mk.injEq, fld_eq_iff, and_true]
  omega

theorem packSeatGet_reads {base : Nat} {f : SeatGet} (hlow : base % 2 ^ 2 = 0) (hhigh : base / 2 ^ 9 % 2 ^ 6 = 0) :
    packSeatGet base f / 2 ^ 22 = base / 2 ^ 22 ∧ packSeatGet base f / 2 ^ 2 % 128 = base / 2 ^ 2 % 128 ∧
    packSeatGet base f / 2 ^ 15 % 128 = base / 2 ^ 15 % 128 ∧ unpackSeatGet (packSeatGet base f) f.px = f := by
  obtain ⟨sd, st, px⟩ := f
  simp only [packSeatGet, unpackSeatGet, SeatGet.mk.injEq, fld_eq_iff, and_true]
  omega

theorem packFBare_reads {base : Nat} {f : FBare} (hb : base % 2 ^ 2 = 0) :
    packFBare base f / 2 ^ 22 = base / 2 ^ 22 ∧ packFBare base f / 2 ^ 2 % 1048576 = base / 2 ^ 2 % 1048576 ∧
    unpackFBare (packFBare base f) f.px = f := by
  obtain ⟨st, px⟩ := f
  simp only [packFBare, unpackFBare, FBare.mk.injEq, fld_eq_iff, and_true]
  omega

theorem packRstat_reads {base : Nat} {f : Rstat} (hlow : base % 2 ^ 2 = 0) (hhigh : base / 2 ^ 7 % 2 ^ 8 = 0) :
    packRstat base f / 2 ^ 22 = base / 2 ^ 22 ∧ packRstat base f / 2 ^ 2 % 32 = base / 2 ^ 2 % 32 ∧
    packRstat base f / 2 ^ 15 % 128 = base / 2 ^ 15 % 128 ∧ unpackRstat (packRstat base f) f.px = f := by
  obtain ⟨sd, stream, st, px⟩ := f
  simp only [packRstat, unpackRstat, Rstat.mk.injEq, fld_eq_iff, and_true]
  omega

theorem packRresume_reads {base : Nat} {f : Rresume} (hlow : base % 2 ^ 2 = 0) (hhigh : base / 2 ^ 9 % 2 ^ 6 = 0) :
    packRresume base f / 2 ^ 22 = base / 2 ^ 22 ∧ packRresume base f / 2 ^ 2 % 128 = base / 2 ^ 2 % 128 ∧
    packRresume base f / 2 ^ 15 % 128 = base / 2 ^ 15 % 128 ∧ unpackRresume (packRresume base f) f.px = f := by
  obtain ⟨sb, st, px⟩ := f
  simp only [packRresume, unpackRresume, Rresume.mk.injEq, fld_eq_iff, and_true]
  omega

theorem packRankmap_reads {base : Nat} {f : Rankmap} (hlow : base % 2 ^ 2 = 0) (hhigh : base / 2 ^ 9 % 2 ^ 6 = 0) :
    packRankmap base f / 2 ^ 22 = base / 2 ^ 22 ∧ packRankmap base f / 2 ^ 2 % 128 = base / 2 ^ 2 % 128 ∧
    packRankmap base f / 2 ^ 15 % 128 = base / 2 ^ 15 % 128 ∧ unpackRankmap (packRankmap base f) f.px = f := by
  obtain ⟨sa, st, px⟩ := f
  simp only [packRankmap, unpackRankmap, Rankmap.mk.injEq, fld_eq_iff, and_true]
  omega

theorem packWait_reads {base : Nat} {f : Wait} (hlow : base % 2 ^ 3 = 0) (hhigh : base / 2 ^ 10 % 2 ^ 11 = 0) :
    packWait base f / 2 ^ 21 = base / 2 ^ 21 ∧ packWait base f / 2 ^ 3 % 128 = base / 2 ^ 3 % 128 ∧
    unpackWait (packWait base f) = f := by
  obtain ⟨cnt, n, arm, st⟩ := f
  have := arm.toNat_lt
  simp only [packWait, unpackWait, Wait.mk.injEq, fld_eq_iff, flag_eq_iff]
  omega

theorem packWaitAll_reads {base : Nat} {f : WaitAll} (hlow : base % 2 ^ 3 = 0) (hhigh : base / 2 ^ 10 % 2 ^ 6 = 0) :
    packWaitAll base f / 2 ^ 21 = base / 2 ^ 21 ∧ packWaitAll base f / 2 ^ 3 % 128 = base / 2 ^ 3 % 128 ∧
    packWaitAll base f / 2 ^ 16 % 32 = base / 2 ^ 16 % 32 ∧ unpackWaitAll (packWaitAll base f) = f := by
  obtain ⟨cmask, arm, st⟩ := f
  have := arm.toNat_lt
  simp only [packWaitAll, unpackWaitAll, WaitAll.mk.injEq, fld_eq_iff, flag_eq_iff]
  omega

theorem packFork_reads {base : Nat} {f : Fork} (hb : base % 2 ^ 21 = 0) :
    packFork base f / 2 ^ 21 = base / 2 ^ 21 ∧ unpackFork (packFork base f) = f := by
  obtain ⟨p, off, st⟩ := f
  simp only [packFork, unpackFork, Fork.mk.injEq, fld_eq_iff]
  omega

theorem packDraw_reads {base : Nat} {f : Draw} (hb : base % 2 ^ 21 = 0) :
    packDraw base f / 2 ^ 21 = base / 2 ^ 21 ∧ unpackDraw (packDraw base f) = f := by
  obtain ⟨vb, live, st⟩ := f
  simp only [packDraw, unpackDraw, Draw.mk.injEq, fld_eq_iff]
  omega

theorem packSafe_reads {base : Nat} {f : Safe} (hb : base % 2 ^ 10 = 0) :
    packSafe base f / 2 ^ 21 = base / 2 ^ 21 ∧ packSafe base f / 2 ^ 10 % 2048 = base / 2 ^ 10 % 2048 ∧
    unpackSafe (packSafe base f) = f := by
  obtain ⟨live, st⟩ := f
  simp only [packSafe, unpackSafe, Safe.mk.injEq, fld_eq_iff]
  omega

theorem packSleep_reads {base : Nat} {f : Sleep} (hb : base % 2 ^ 18 = 0) :
    packSleep base f / 2 ^ 21 = base / 2 ^ 21 ∧ packSleep base f / 2 ^ 18 % 8 = base / 2 ^ 18 % 8 ∧
    unpackSleep (packSleep base f) = f := by
  obtain ⟨n, st⟩ := f
  simp only [packSleep, unpackSleep, Sleep.mk.injEq, fld_eq_iff]
  omega

theorem packBar_reads {base : Nat} {f : Bar} (hlow : base % 2 ^ 2 = 0) (hhigh : base / 2 ^ 18 % 2 ^ 3 = 0) :
    packBar base f / 2 ^ 21 = base / 2 ^ 21 ∧ packBar base f / 2 ^ 2 % 65536 = base / 2 ^ 2 % 65536 ∧
    unpackBar (packBar base f) = f := by
  obtain ⟨b, st⟩ := f
  simp only [packBar, unpackBar, Bar.mk.injEq, fld_eq_iff]
  omega

theorem packLaunch_reads {base : Nat} {f : Launch} (hlow : base % 2 ^ 2 = 0) (hhigh : base / 2 ^ 11 % 2 ^ 10 = 0) :
    packLaunch base f / 2 ^ 21 = base / 2 ^ 21 ∧ packLaunch base f / 2 ^ 2 % 512 = base / 2 ^ 2 % 512 ∧
    unpackLaunch (packLaunch base f) = f := by
  obtain ⟨k, sd, st⟩ := f
  simp only [packLaunch, unpackLaunch, Launch.mk.injEq, fld_eq_iff]
  omega

theorem packSysDA_reads {base : Nat} {f : SysDA} (hlow : base % 2 ^ 2 = 0) (hhigh : base / 2 ^ 9 % 2 ^ 12 = 0) :
    packSysDA base f / 2 ^ 21 = base / 2 ^ 21 ∧ packSysDA base f / 2 ^ 2 % 128 = base / 2 ^ 2 % 128 ∧
    unpackSysDA (packSysDA base f) = f := by
  obtain ⟨sd, sa, st⟩ := f
  simp only [packSysDA, unpackSysDA, SysDA.mk.injEq, fld_eq_iff]
  omega

theorem packRpush_reads {base : Nat} {f : Rpush} (hlow : base % 2 ^ 2 = 0) (hhigh : base / 2 ^ 4 % 2 ^ 17 = 0) :
    packRpush base f / 2 ^ 21 = base / 2 ^ 21 ∧ packRpush base f / 2 ^ 2 % 4 = base / 2 ^ 2 % 4 ∧
    unpackRpush (packRpush base f) = f := by
  obtain ⟨ring, mask, sd, st⟩ := f
  simp only [packRpush, unpackRpush, Rpush.mk.injEq, fld_eq_iff]
  omega

theorem packRpushPub_reads {base : Nat} {f : RpushPub} (hlow : base % 2 ^ 2 = 0) (hhigh : base / 2 ^ 10 % 2 ^ 11 = 0) :
    packRpushPub base f / 2 ^ 21 = base / 2 ^ 21 ∧ packRpushPub base f / 2 ^ 2 % 4 = base / 2 ^ 2 % 4 ∧
    packRpushPub base f / 2 ^ 2 % 256 = base / 2 ^ 2 % 256 ∧ unpackRpushPub (packRpushPub base f) = f := by
  obtain ⟨ring, mask, st⟩ := f
  simp only [packRpushPub, unpackRpushPub, RpushPub.mk.injEq, fld_eq_iff]
  omega

theorem packRpop_reads {base : Nat} {f : Rpop} (hlow : base % 2 ^ 2 = 0) (hmid : base / 2 ^ 4 % 2 ^ 6 = 0) (hhigh :
    base / 2 ^ 15 % 2 ^ 6 = 0) :
    packRpop base f / 2 ^ 21 = base / 2 ^ 21 ∧ packRpop base f / 2 ^ 2 % 4 = base / 2 ^ 2 % 4 ∧
    packRpop base f / 2 ^ 10 % 32 = base / 2 ^ 10 % 32 ∧ unpackRpop (packRpop base f) = f := by
  obtain ⟨ring, pos, sd, st⟩ := f
  simp only [packRpop, unpackRpop, Rpop.mk.injEq, fld_eq_iff]
  omega

theorem packRpopRel_reads {base : Nat} {f : RpopRel} (hlow : base % 2 ^ 2 = 0) (hhigh : base / 2 ^ 15 % 2 ^ 6 = 0) :
    packRpopRel base f / 2 ^ 21 = base / 2 ^ 21 ∧ packRpopRel base f / 2 ^ 2 % 4 = base / 2 ^ 2 % 4 ∧
    packRpopRel base f / 2 ^ 10 % 32 = base / 2 ^ 10 % 32 ∧ packRpopRel base f / 2 ^ 2 % 8192 = base / 2 ^ 2 % 8192 ∧
    unpackRpopRel (packRpopRel base f) = f := by
  obtain ⟨ring, pos, st⟩ := f
  simp only [packRpopRel, unpackRpopRel, RpopRel.mk.injEq, fld_eq_iff]
  omega

theorem packSysAB_reads {base : Nat} {f : SysAB} (hlow : base % 2 ^ 2 = 0) (hhigh : base / 2 ^ 9 % 2 ^ 12 = 0) :
    packSysAB base f / 2 ^ 21 = base / 2 ^ 21 ∧ packSysAB base f / 2 ^ 2 % 128 = base / 2 ^ 2 % 128 ∧
    unpackSysAB (packSysAB base f) = f := by
  obtain ⟨sa, sb, st⟩ := f
  simp only [packSysAB, unpackSysAB, SysAB.mk.injEq, fld_eq_iff]
  omega

theorem packPotwait_reads {base : Nat} {f : Potwait} (hlow : base % 2 ^ 3 = 0) (hhigh : base / 2 ^ 9 % 2 ^ 12 = 0) :
    packPotwait base f / 2 ^ 21 = base / 2 ^ 21 ∧ packPotwait base f / 2 ^ 3 % 64 = base / 2 ^ 3 % 64 ∧
    unpackPotwait (packPotwait base f) = f := by
  obtain ⟨sd, sa, arm, st⟩ := f
  have := arm.toNat_lt
  simp only [packPotwait, unpackPotwait, Potwait.mk.injEq, fld_eq_iff, flag_eq_iff]
  omega

theorem packImm16_reads {base : Nat} {f : Imm16} (hb : base % 2 ^ 18 = 0) :
    packImm16 base f / 2 ^ 21 = base / 2 ^ 21 ∧ packImm16 base f / 2 ^ 18 % 8 = base / 2 ^ 18 % 8 ∧
    unpackImm16 (packImm16 base f) = f := by
  obtain ⟨imm, st⟩ := f
  simp only [packImm16, unpackImm16, Imm16.mk.injEq, fld_eq_iff]
  omega

theorem packFence_reads {base : Nat} {f : Fence} (hlow : base % 2 ^ 2 = 0) (hhigh : base / 2 ^ 16 % 2 ^ 5 = 0) :
    packFence base f / 2 ^ 21 = base / 2 ^ 21 ∧ packFence base f / 2 ^ 2 % 16384 = base / 2 ^ 2 % 16384 ∧
    unpackFence (packFence base f) = f := by
  obtain ⟨scope, kind, st⟩ := f
  simp only [packFence, unpackFence, Fence.mk.injEq, fld_eq_iff]
  omega

theorem packShfl_reads {base : Nat} {f : Shfl} (hb : base % 2 ^ 22 = 0) :
    packShfl base f / 2 ^ 22 = base / 2 ^ 22 ∧ unpackShfl (packShfl base f) f.px = f := by
  obtain ⟨vd, va, mode, dist, st, px⟩ := f
  simp only [packShfl, unpackShfl, Shfl.mk.injEq, fld_eq_iff, and_true]
  omega

theorem packLred_reads {base : Nat} {f : Lred} (hb : base % 2 ^ 22 = 0) :
    packLred base f / 2 ^ 22 = base / 2 ^ 22 ∧ unpackLred (packLred base f) f.px = f := by
  obtain ⟨vd, va, op, seg, st, px⟩ := f
  simp only [packLred, unpackLred, Lred.mk.injEq, fld_eq_iff, and_true]
  omega

theorem packLscan_reads {base : Nat} {f : Lscan} (hlow : base % 2 ^ 2 = 0) (hhigh : base / 2 ^ 3 % 2 ^ 19 = 0) :
    packLscan base f / 2 ^ 22 = base / 2 ^ 22 ∧ packLscan base f / 2 ^ 2 % 2 = base / 2 ^ 2 % 2 ∧
    unpackLscan (packLscan base f) f.px = f := by
  obtain ⟨vd, va, op, ex, st, px⟩ := f
  have := ex.toNat_lt
  simp only [packLscan, unpackLscan, Lscan.mk.injEq, fld_eq_iff, flag_eq_iff, and_true]
  omega

theorem packVote_reads {base : Nat} {f : Vote} (hlow : base % 2 ^ 2 = 0) (hhigh : base / 2 ^ 6 % 2 ^ 16 = 0) :
    packVote base f / 2 ^ 22 = base / 2 ^ 22 ∧ packVote base f / 2 ^ 2 % 16 = base / 2 ^ 2 % 16 ∧
    unpackVote (packVote base f) f.px = f := by
  obtain ⟨fd, fa, mode, st, px⟩ := f
  simp only [packVote, unpackVote, Vote.mk.injEq, fld_eq_iff, and_true]
  omega

theorem packBcast_reads {base : Nat} {f : Bcast} (hb : base % 2 ^ 22 = 0) :
    packBcast base f / 2 ^ 22 = base / 2 ^ 22 ∧ unpackBcast (packBcast base f) f.px = f := by
  obtain ⟨vd, va, lane, st, px⟩ := f
  simp only [packBcast, unpackBcast, Bcast.mk.injEq, fld_eq_iff, and_true]
  omega

theorem packRdlane_reads {base : Nat} {f : Rdlane} (hb : base % 2 ^ 21 = 0) :
    packRdlane base f / 2 ^ 22 = base / 2 ^ 22 ∧ packRdlane base f / 2 ^ 21 % 2 = base / 2 ^ 21 % 2 ∧
    unpackRdlane (packRdlane base f) f.px = f := by
  obtain ⟨sd, va, lane, st, px⟩ := f
  simp only [packRdlane, unpackRdlane, Rdlane.mk.injEq, fld_eq_iff, and_true]
  omega

theorem packLanesF_reads {base : Nat} {f : LanesF} (hlow : base % 2 ^ 8 = 0) (hhigh : base / 2 ^ 15 % 2 ^ 7 = 0) :
    packLanesF base f / 2 ^ 22 = base / 2 ^ 22 ∧ packLanesF base f / 2 ^ 8 % 128 = base / 2 ^ 8 % 128 ∧
    unpackLanesF (packLanesF base f) f.px = f := by
  obtain ⟨vd, kind, st, px⟩ := f
  simp only [packLanesF, unpackLanesF, LanesF.mk.injEq, fld_eq_iff, and_true]
  omega

theorem packPop_reads {base : Nat} {f : Pop} (hlow : base % 2 ^ 11 = 0) (hhigh : base / 2 ^ 15 % 2 ^ 3 = 0) :
    packPop base f / 2 ^ 22 = base / 2 ^ 22 ∧ packPop base f / 2 ^ 11 % 16 = base / 2 ^ 11 % 16 ∧
    packPop base f / 2 ^ 18 % 16 = base / 2 ^ 18 % 16 ∧ unpackPop (packPop base f) f.px = f := by
  obtain ⟨pd, pa, pb, fn, st, px⟩ := f
  simp only [packPop, unpackPop, Pop.mk.injEq, fld_eq_iff, and_true]
  omega

theorem packPmov_reads {base : Nat} {f : Pmov} (hb : base % 2 ^ 22 = 0) :
    packPmov base f / 2 ^ 22 = base / 2 ^ 22 ∧ unpackPmov (packPmov base f) f.px = f := by
  obtain ⟨fd, fa, mode, st, px⟩ := f
  simp only [packPmov, unpackPmov, Pmov.mk.injEq, fld_eq_iff, and_true]
  omega

theorem packPerm_reads {base : Nat} {f : Perm} (hlow : base % 2 ^ 2 = 0) (hhigh : base / 2 ^ 8 % 2 ^ 14 = 0) :
    packPerm base f / 2 ^ 22 = base / 2 ^ 22 ∧ packPerm base f / 2 ^ 2 % 64 = base / 2 ^ 2 % 64 ∧
    unpackPerm (packPerm base f) f.px = f := by
  obtain ⟨vd, va, st, px⟩ := f
  simp only [packPerm, unpackPerm, Perm.mk.injEq, fld_eq_iff, and_true]
  omega

theorem packSfu_reads {base : Nat} {f : Sfu} (hlow : base % 2 ^ 2 = 0) (hhigh : base / 2 ^ 7 % 2 ^ 14 = 0) :
    packSfu base f / 2 ^ 21 = base / 2 ^ 21 ∧ packSfu base f / 2 ^ 2 % 32 = base / 2 ^ 2 % 32 ∧
    unpackSfu (packSfu base f) f.px = f := by
  obtain ⟨vd, va, st, px⟩ := f
  simp only [packSfu, unpackSfu, Sfu.mk.injEq, fld_eq_iff, and_true]
  omega

theorem packCvt_reads {base : Nat} {f : Cvt} (hlow : base % 2 ^ 2 = 0) (hhigh : base / 2 ^ 4 % 2 ^ 18 = 0) :
    packCvt base f / 2 ^ 22 = base / 2 ^ 22 ∧ packCvt base f / 2 ^ 2 % 4 = base / 2 ^ 2 % 4 ∧
    unpackCvt (packCvt base f) f.px = f := by
  obtain ⟨vd, va, dty, st, px⟩ := f
  simp only [packCvt, unpackCvt, Cvt.mk.injEq, fld_eq_iff, and_true]
  omega

theorem packBfp_reads {base : Nat} {f : Bfp} (hlow : base % 2 ^ 2 = 0) (hhigh : base / 2 ^ 4 % 2 ^ 18 = 0) :
    packBfp base f / 2 ^ 22 = base / 2 ^ 22 ∧ packBfp base f / 2 ^ 2 % 4 = base / 2 ^ 2 % 4 ∧
    unpackBfp (packBfp base f) f.px = f := by
  obtain ⟨vd, va, k, st, px⟩ := f
  simp only [packBfp, unpackBfp, Bfp.mk.injEq, fld_eq_iff, and_true]
  omega

theorem packUnpk_reads {base : Nat} {f : Unpk} (hlow : base % 2 ^ 2 = 0) (hhigh : base / 2 ^ 3 % 2 ^ 19 = 0) :
    packUnpk base f / 2 ^ 22 = base / 2 ^ 22 ∧ packUnpk base f / 2 ^ 2 % 2 = base / 2 ^ 2 % 2 ∧
    unpackUnpk (packUnpk base f) f.px = f := by
  obtain ⟨vd, va, w, sx, st, px⟩ := f
  have := sx.toNat_lt
  simp only [packUnpk, unpackUnpk, Unpk.mk.injEq, fld_eq_iff, flag_eq_iff, and_true]
  omega

theorem packSclx_reads {base : Nat} {f : Sclx} (hlow : base % 2 ^ 2 = 0) (hhigh : base / 2 ^ 3 % 2 ^ 19 = 0) :
    packSclx base f / 2 ^ 22 = base / 2 ^ 22 ∧ packSclx base f / 2 ^ 2 % 2 = base / 2 ^ 2 % 2 ∧
    unpackSclx (packSclx base f) f.px = f := by
  obtain ⟨vd, va, dty, dir, st, px⟩ := f
  have := dir.toNat_lt
  simp only [packSclx, unpackSclx, Sclx.mk.injEq, fld_eq_iff, flag_eq_iff, and_true]
  omega

theorem packPsrd_reads {base : Nat} {f : Psrd} (hlow : base % 2 ^ 12 = 0) (hhigh : base / 2 ^ 15 % 2 ^ 6 = 0) :
    packPsrd base f / 2 ^ 21 = base / 2 ^ 21 ∧ packPsrd base f / 2 ^ 12 % 8 = base / 2 ^ 12 % 8 ∧
    unpackPsrd (packPsrd base f) = f := by
  obtain ⟨sd, idx, st⟩ := f
  simp only [packPsrd, unpackPsrd, Psrd.mk.injEq, fld_eq_iff]
  omega

theorem packPswr_reads {base : Nat} {f : Pswr} (hlow : base % 2 ^ 12 = 0) (hhigh : base / 2 ^ 15 % 2 ^ 6 = 0) :
    packPswr base f / 2 ^ 21 = base / 2 ^ 21 ∧ packPswr base f / 2 ^ 12 % 8 = base / 2 ^ 12 % 8 ∧
    unpackPswr (packPswr base f) = f := by
  obtain ⟨sa, idx, st⟩ := f
  simp only [packPswr, unpackPswr, Pswr.mk.injEq, fld_eq_iff]
  omega

theorem packSysA_reads {base : Nat} {f : SysA} (hlow : base % 2 ^ 2 = 0) (hhigh : base / 2 ^ 15 % 2 ^ 6 = 0) :
    packSysA base f / 2 ^ 21 = base / 2 ^ 21 ∧ packSysA base f / 2 ^ 2 % 8192 = base / 2 ^ 2 % 8192 ∧
    packSysA base f / 2 ^ 2 % 128 = base / 2 ^ 2 % 128 ∧ unpackSysA (packSysA base f) = f := by
  obtain ⟨sa, st⟩ := f
  simp only [packSysA, unpackSysA, SysA.mk.injEq, fld_eq_iff]
  omega

theorem packSysDAB_reads {base : Nat} {f : SysDAB} (hlow : base % 2 ^ 2 = 0) (hhigh : base / 2 ^ 3 % 2 ^ 18 = 0) :
    packSysDAB base f / 2 ^ 21 = base / 2 ^ 21 ∧ packSysDAB base f / 2 ^ 2 % 2 = base / 2 ^ 2 % 2 ∧
    unpackSysDAB (packSysDAB base f) = f := by
  obtain ⟨sd, sa, sb, st⟩ := f
  simp only [packSysDAB, unpackSysDAB, SysDAB.mk.injEq, fld_eq_iff]
  omega

/-! ## Prefix words (R33 to R38) -/

/-- What makes a word of one of the three interpretations the first of a pair (R33, R58). -/
structure IsPrefix {P : Type} (word : P → Nat) : Prop where
  isPrefix : ∀ p, isPrefixWord (word p) = true
  noStall : ∀ p, word p % 4 = 0

theorem aluPxWord_isPrefix : IsPrefix aluPxWord where
  isPrefix p := by
    have := p.inv.toNat_lt
    have := p.zero.toNat_lt
    simp only [isPrefixWord, subClass, aluPxWord, Bool.and_eq_true, beq_iff_eq]
    omega
  noStall p := by simp only [aluPxWord]; omega

theorem memPxWord_isPrefix : IsPrefix memPxWord where
  isPrefix p := by
    have := p.inv.toNat_lt
    simp only [isPrefixWord, subClass, memPxWord, Bool.and_eq_true, beq_iff_eq]
    omega
  noStall p := by simp only [memPxWord]; omega

theorem matPxWord_isPrefix : IsPrefix matPxWord where
  isPrefix p := by
    simp only [isPrefixWord, subClass, matPxWord, Bool.and_eq_true, beq_iff_eq]
    omega
  noStall p := by simp only [matPxWord]; omega

theorem aluPxOf_aluPxWord (p : AluPx) : aluPxOf (aluPxWord p) = p := by
  obtain ⟨mask, inv, zero, rnd, ty, kind4, op4, xw⟩ := p
  have := inv.toNat_lt
  have := zero.toNat_lt
  simp only [aluPxOf, aluPxWord, AluPx.mk.injEq, fld_eq_iff, flag_eq_iff]
  omega

theorem memPxOf_memPxWord (p : MemPx) : memPxOf (memPxWord p) = some p := by
  obtain ⟨scope, imm, mask, inv⟩ := p
  have := inv.toNat_lt
  have hlow : memPxWord ⟨scope, imm, mask, inv⟩ / 4 % 2 = 0 := by simp only [memPxWord]; omega
  rw [memPxOf, if_pos hlow]
  simp only [memPxWord, Option.some.injEq, MemPx.mk.injEq, fld_eq_iff, flag_eq_iff]
  omega

theorem matPxOf_matPxWord (p : MatPx) : matPxOf (matPxWord p) = some p := by
  obtain ⟨imm⟩ := p
  have hlow : matPxWord ⟨imm⟩ / 4 % 256 = 0 := by simp only [matPxWord]; omega
  rw [matPxOf, if_pos hlow]
  simp only [matPxWord, Option.some.injEq, MatPx.mk.injEq, fld_eq_iff]
  omega

/-! ## From the word of a class to the round trip (R26, R32, R33, R34) -/

/-- The top six bits of a word are its class and, of an X word, its sub-class (R26, R32). -/
theorem class_of_top {w c m : Nat} (h : w / 2 ^ 26 = 16 * c + m) (hc : c < 4) (hm : m < 16) :
    w / 2 ^ 30 % 4 = c ∧ subClass w = m := by
  unfold subClass; omega

/-- A word that is decoded by `D`, alone or under a PREFIX word made by `word` (R34). -/
structure TakesPrefix {P : Type} (w : Nat) (word : P → Nat) (D : Nat → Option P → Option Instr) : Prop where
  notPrefix : isPrefixWord w = false
  notLimm : isLimmWord w = false
  takes : takesPrefix w = true
  alone : decodePlain w = D w none
  under : ∀ p, decodePrefixed (word p) w = D w (some p)

/-- A word that is decoded by `D` and takes no PREFIX word (R34). -/
structure TakesNone (w : Nat) (D : Nat → Option Instr) : Prop where
  notPrefix : isPrefixWord w = false
  notLimm : isLimmWord w = false
  alone : decodePlain w = D w

section
variable {w base : Nat}

theorem takesPrefix_V3 (hb : base / 2 ^ 26 / 16 = 0) (h : w / 2 ^ 26 = base / 2 ^ 26) :
    TakesPrefix w aluPxWord decodeV3 := by
  have hclass : w / 2 ^ 30 % 4 = 0 := by omega
  constructor <;> simp [-Nat.reducePow, isPrefixWord, isLimmWord, takesPrefix, decodePlain, decodePrefixed, hclass,
    aluPxOf_aluPxWord]

theorem takesPrefix_VU (hb : base / 2 ^ 26 / 16 = 1) (h : w / 2 ^ 26 = base / 2 ^ 26) :
    TakesPrefix w aluPxWord decodeVU := by
  have hclass : w / 2 ^ 30 % 4 = 1 := by omega
  constructor <;> simp [-Nat.reducePow, isPrefixWord, isLimmWord, takesPrefix, decodePlain, decodePrefixed, hclass,
    aluPxOf_aluPxWord]

theorem takesNone_S (hb : base / 2 ^ 26 / 16 = 2) (h : w / 2 ^ 26 = base / 2 ^ 26) : TakesNone w decodeS := by
  have hclass : w / 2 ^ 30 % 4 = 2 := by omega
  constructor <;> simp [-Nat.reducePow, isPrefixWord, isLimmWord, decodePlain, hclass]

theorem takesPrefix_Vmem (hb : base / 2 ^ 26 = 16 * 3 + 2) (h : w / 2 ^ 26 = base / 2 ^ 26) :
    TakesPrefix w memPxWord decodeVmem := by
  obtain ⟨hclass, hsub⟩ := class_of_top (h.trans hb) (by decide) (by decide)
  constructor <;> simp [-Nat.reducePow, isPrefixWord, isLimmWord, takesPrefix, decodePlain, decodeX, decodePrefixed,
    hclass, hsub, memPxOf_memPxWord]

theorem takesPrefix_Smem (hb : base / 2 ^ 26 = 16 * 3 + 3) (h : w / 2 ^ 26 = base / 2 ^ 26) :
    TakesPrefix w memPxWord decodeSmem := by
  obtain ⟨hclass, hsub⟩ := class_of_top (h.trans hb) (by decide) (by decide)
  constructor <;> simp [-Nat.reducePow, isPrefixWord, isLimmWord, takesPrefix, decodePlain, decodeX, decodePrefixed,
    hclass, hsub, memPxOf_memPxWord]

theorem takesPrefix_Atom (hb : base / 2 ^ 26 = 16 * 3 + 4) (h : w / 2 ^ 26 = base / 2 ^ 26) :
    TakesPrefix w memPxWord decodeAtom := by
  obtain ⟨hclass, hsub⟩ := class_of_top (h.trans hb) (by decide) (by decide)
  constructor <;> simp [-Nat.reducePow, isPrefixWord, isLimmWord, takesPrefix, decodePlain, decodeX, decodePrefixed,
    hclass, hsub, memPxOf_memPxWord]

theorem takesPrefix_Matrix (hb : base / 2 ^ 26 = 16 * 3 + 5) (h : w / 2 ^ 26 = base / 2 ^ 26) :
    TakesPrefix w matPxWord decodeMatrix := by
  obtain ⟨hclass, hsub⟩ := class_of_top (h.trans hb) (by decide) (by decide)
  constructor <;> simp [-Nat.reducePow, isPrefixWord, isLimmWord, takesPrefix, decodePlain, decodeX, decodePrefixed,
    hclass, hsub, matPxOf_matPxWord]

theorem takesPrefix_Copy (hb : base / 2 ^ 26 = 16 * 3 + 6) (h : w / 2 ^ 26 = base / 2 ^ 26) :
    TakesPrefix w matPxWord decodeCopy := by
  obtain ⟨hclass, hsub⟩ := class_of_top (h.trans hb) (by decide) (by decide)
  constructor <;> simp [-Nat.reducePow, isPrefixWord, isLimmWord, takesPrefix, decodePlain, decodeX, decodePrefixed,
    hclass, hsub, matPxOf_matPxWord]

theorem takesPrefix_Fabric (hb : base / 2 ^ 26 = 16 * 3 + 7) (h : w / 2 ^ 26 = base / 2 ^ 26) :
    TakesPrefix w memPxWord decodeFabric := by
  obtain ⟨hclass, hsub⟩ := class_of_top (h.trans hb) (by decide) (by decide)
  constructor <;> simp [-Nat.reducePow, isPrefixWord, isLimmWord, takesPrefix, decodePlain, decodeX, decodePrefixed,
    hclass, hsub, memPxOf_memPxWord]

theorem takesNone_Sync (hb : base / 2 ^ 26 = 16 * 3 + 8) (h : w / 2 ^ 26 = base / 2 ^ 26) : TakesNone w decodeSync := by
  obtain ⟨hclass, hsub⟩ := class_of_top (h.trans hb) (by decide) (by decide)
  constructor <;> simp [-Nat.reducePow, isPrefixWord, isLimmWord, decodePlain, decodeX, hclass, hsub]

theorem takesPrefix_Cross (hb : base / 2 ^ 26 = 16 * 3 + 9) (h : w / 2 ^ 26 = base / 2 ^ 26) :
    TakesPrefix w aluPxWord decodeCross := by
  obtain ⟨hclass, hsub⟩ := class_of_top (h.trans hb) (by decide) (by decide)
  constructor <;> simp [-Nat.reducePow, isPrefixWord, isLimmWord, takesPrefix, decodePlain, decodeX, decodePrefixed,
    hclass, hsub, aluPxOf_aluPxWord]

theorem takesPrefix_Sfu (hb : base / 2 ^ 26 = 16 * 3 + 10) (h : w / 2 ^ 26 = base / 2 ^ 26) :
    TakesPrefix w aluPxWord decodeSfu := by
  obtain ⟨hclass, hsub⟩ := class_of_top (h.trans hb) (by decide) (by decide)
  constructor <;> simp [-Nat.reducePow, isPrefixWord, isLimmWord, takesPrefix, decodePlain, decodeX, decodePrefixed,
    hclass, hsub, aluPxOf_aluPxWord]

theorem takesPrefix_Convert (hb : base / 2 ^ 26 = 16 * 3 + 11) (h : w / 2 ^ 26 = base / 2 ^ 26) :
    TakesPrefix w aluPxWord decodeConvert := by
  obtain ⟨hclass, hsub⟩ := class_of_top (h.trans hb) (by decide) (by decide)
  constructor <;> simp [-Nat.reducePow, isPrefixWord, isLimmWord, takesPrefix, decodePlain, decodeX, decodePrefixed,
    hclass, hsub, aluPxOf_aluPxWord]

theorem takesNone_System (hb : base / 2 ^ 26 = 16 * 3 + 12) (h : w / 2 ^ 26 = base / 2 ^ 26) :
    TakesNone w decodeSystem := by
  obtain ⟨hclass, hsub⟩ := class_of_top (h.trans hb) (by decide) (by decide)
  constructor <;> simp [-Nat.reducePow, isPrefixWord, isLimmWord, decodePlain, decodeX, hclass, hsub]

end

theorem encode_eq {i : Instr} {w : Nat} (hm : ∀ f, i ≠ .movi f) (hw : encodeWord i = some w) :
    encode i = (encodePx i).toList ++ [w] := by
  unfold encode
  split
  · next f => exact absurd rfl (hm f)
  · rw [hw]; cases encodePx i <;> rfl

theorem checked_wellFormed {i : Instr} (wf : i.WellFormed) : checked (some i) = .ok i := by
  have h : Machine.staticIll i = false := wf
  simp [checked, h]

section
variable {i : Instr} {w base k : Nat} {R : Prop}

/-- The round trip of a word that takes a PREFIX word, with that of its instruction or alone. `base` is the word with every
field at 0; `R` is what its class's decoder reads of the word besides the opcode. -/
theorem roundTrip_prefixed {P : Type} {word : P → Nat} {D : Nat → Option P → Option Instr} {px : Option P}
    (hm : ∀ f, i ≠ .movi f) (hw : encodeWord i = some w) (hx : encodePx i = px.map word) (hword : IsPrefix word)
    (hr : w / 2 ^ k = base / 2 ^ k ∧ R) (hk : k ≤ 26) (hclass : w / 2 ^ 26 = base / 2 ^ 26 → TakesPrefix w word D)
    (hd : w / 2 ^ k = base / 2 ^ k → R → D w px = some i) (wf : i.WellFormed) : decodeWords (encode i) = .ok i := by
  obtain ⟨high, low⟩ := hr
  obtain ⟨notPrefix, notLimm, takes, alone, under⟩ := hclass (div_eq_of_le hk high)
  rw [encode_eq hm hw, hx]
  cases px with
  | none => simp [decodeWords, decode, notPrefix, notLimm, alone, hd high low, checked_wellFormed wf]
  | some p =>
    simp [decodeWords, decode, notPrefix, takes, under, hd high low, checked_wellFormed wf, hword.isPrefix p,
      hword.noStall p]

/-- The round trip of a word of a class that takes no PREFIX word. -/
theorem roundTrip_plain {D : Nat → Option Instr} (hm : ∀ f, i ≠ .movi f) (hw : encodeWord i = some w)
    (hx : encodePx i = none) (hr : w / 2 ^ k = base / 2 ^ k ∧ R) (hk : k ≤ 26)
    (hclass : w / 2 ^ 26 = base / 2 ^ 26 → TakesNone w D) (hd : w / 2 ^ k = base / 2 ^ k → R → D w = some i)
    (wf : i.WellFormed) : decodeWords (encode i) = .ok i := by
  obtain ⟨high, low⟩ := hr
  obtain ⟨notPrefix, notLimm, alone⟩ := hclass (div_eq_of_le hk high)
  rw [encode_eq hm hw, hx]
  simp [decodeWords, decode, notPrefix, notLimm, alone, hd high low, checked_wellFormed wf]

end

/-! The three words of class SYNC whose decoder looks at more than the opcode, over any word: the condition that it tests is
about a variable there, which the kernel does not compute on. -/

theorem decodeSync_wait {w : Nat} {f : Wait} (high : w / 2 ^ 21 = 0xE0200000 / 2 ^ 21)
    (low : w / 2 ^ 3 % 128 = 0xE0200000 / 2 ^ 3 % 128) (fields : unpackWait w = f) (hone : w / 2 ^ 16 % 32 ≠ 28) :
    decodeSync w = some (.wait f) := by
  unfold decodeSync
  rw [high, low, fields]
  exact if_neg hone

theorem decodeSync_rpushClaim {w : Nat} {f : Rpush} (high : w / 2 ^ 21 = 0xE1C00004 / 2 ^ 21)
    (low : w / 2 ^ 2 % 4 = 0xE1C00004 / 2 ^ 2 % 4) (fields : unpackRpush w = f) : decodeSync w = some (.rpushClaim f) := by
  have hclaim : w / 2 ^ 2 % 256 ≠ 2 := by omega
  unfold decodeSync
  rw [high, low, fields]
  exact if_neg hclaim

theorem decodeSync_rpopTake {w : Nat} {f : Rpop} (high : w / 2 ^ 21 = 0xE1E00004 / 2 ^ 21)
    (low : w / 2 ^ 2 % 4 = 0xE1E00004 / 2 ^ 2 % 4) (zero : w / 2 ^ 10 % 32 = 0xE1E00004 / 2 ^ 10 % 32)
    (fields : unpackRpop w = f) : decodeSync w = some (.rpopTake f) := by
  have htake : w / 2 ^ 2 % 8192 ≠ 2 := by omega
  unfold decodeSync
  rw [high, low, zero, fields]
  exact if_neg htake

/-! ## Every instruction -/

/-- The words of every instruction but `movi`, by its class and layout. -/
theorem roundTrip_of_word {i : Instr} (hm : ∀ f, i ≠ .movi f) (wf : i.WellFormed) (hw : encodeWord i ≠ none) :
    decodeWords (encode i) = .ok i := by
  cases i with
  | iadd f | isub f | imul f | imulh f | imulhu f | iand f | ior f | ixor f | ishl f | ishr f | isra f | imin f
    | imax f | iminu f | imaxu f | iaddsat f | isubsat f | vsel f | idot4 f | iabsdiff f | fadd f | fsub f | fmul f
    | ffma f | fmin f | fmax f | fscale f | fdot2 f | twosum f | fastsum f | twodiff f | twoprod f | errfma f | xadd f
    | xsub f | xmul f | xmulw f | xfmaw f =>
    exact roundTrip_prefixed hm rfl rfl aluPxWord_isPrefix (packV3_reads rfl) (by decide) (takesPrefix_V3 rfl)
      (fun high fields => by unfold decodeV3; rw [high, fields]; rfl) wf
  | iaddVu f | isubVu f | imulVu f | imulhVu f | imulhuVu f | iandVu f | iorVu f | ixorVu f | ishlVu f | ishrVu f
    | israVu f | iminVu f | imaxVu f | iminuVu f | imaxuVu f | iaddsatVu f | isubsatVu f | vselVu f | idot4Vu f
    | iabsdiffVu f | faddVu f | fsubVu f | fmulVu f | ffmaVu f | fminVu f | fmaxVu f | fscaleVu f | fdot2Vu f =>
    exact roundTrip_prefixed hm rfl rfl aluPxWord_isPrefix (packVU_reads rfl) (by decide) (takesPrefix_VU rfl)
      (fun high fields => by unfold decodeVU; rw [high, fields]; rfl) wf
  | icmp f | icmpu f | fcmp f | xcmp f =>
    exact roundTrip_prefixed hm rfl rfl aluPxWord_isPrefix (packV3Cmp_reads rfl) (by decide) (takesPrefix_V3 rfl)
      (fun high fields => by unfold decodeV3; rw [high, fields]; rfl) wf
  | icmpVu f | icmpuVu f | fcmpVu f =>
    exact roundTrip_prefixed hm rfl rfl aluPxWord_isPrefix (packVUCmp_reads rfl) (by decide) (takesPrefix_VU rfl)
      (fun high fields => by unfold decodeVU; rw [high, fields]; rfl) wf
  | vmov f =>
    exact roundTrip_prefixed hm rfl rfl aluPxWord_isPrefix (packV3Mov_reads rfl rfl) (by decide) (takesPrefix_V3 rfl)
      (fun high ⟨low, fields⟩ => by unfold decodeV3; rw [high, low, fields]; rfl) wf
  | vmovVu f =>
    exact roundTrip_prefixed hm rfl rfl aluPxWord_isPrefix (packVUMov_reads rfl rfl) (by decide) (takesPrefix_VU rfl)
      (fun high ⟨low, fields⟩ => by unfold decodeVU; rw [high, low, fields]; rfl) wf
  | ipopc f | iclz f | ibrev f | fabs f | fneg f | fclass f | fround f | xrenorm f | xcompress f | xneg f | xsplit f =>
    exact roundTrip_prefixed hm rfl rfl aluPxWord_isPrefix (packV3Un_reads rfl rfl) (by decide) (takesPrefix_V3 rfl)
      (fun high ⟨low, fields⟩ => by unfold decodeV3; rw [high, low, fields]; rfl) wf
  | xround f | xroundF32 f =>
    exact roundTrip_prefixed hm rfl rfl aluPxWord_isPrefix (packV3Un_reads rfl rfl) (by decide) (takesPrefix_V3 rfl)
      (fun high ⟨low, fields⟩ => by unfold decodeV3; rw [high, low, fields]; rfl) wf
  | sadd f | ssub f | smul f | smulh f | sand f | sor f | sxor f | sshl f | sshr f | ssra f | smin f | smax f | sminu f
    | smaxu f | ssel f | sbfe f | sbfi f | saddc f | sfadd f | sfmul f | sffma f =>
    exact roundTrip_plain hm rfl rfl (packS3_reads rfl) (by decide) (takesNone_S rfl)
      (fun high fields => by unfold decodeS; rw [high, fields]; rfl) wf
  | smov f =>
    exact roundTrip_plain hm rfl rfl (packSMov_reads rfl rfl) (by decide) (takesNone_S rfl)
      (fun high ⟨low, fields⟩ => by unfold decodeS; rw [high, low, fields]; rfl) wf
  | scmp f | scmpu f | stest f | sfcmp f =>
    exact roundTrip_plain hm rfl rfl (packSCmp_reads rfl) (by decide) (takesNone_S rfl)
      (fun high ⟨low, fields⟩ => by unfold decodeS; rw [high, low, fields]; rfl) wf
  | spopc f | sffs f =>
    exact roundTrip_plain hm rfl rfl (packSUn_reads rfl rfl) (by decide) (takesNone_S rfl)
      (fun high ⟨low, fields⟩ => by unfold decodeS; rw [high, low, fields]; rfl) wf
  | sfcvt f =>
    exact roundTrip_plain hm rfl rfl (packSCvt_reads rfl rfl) (by decide) (takesNone_S rfl)
      (fun high ⟨low, fields⟩ => by unfold decodeS; rw [high, low, fields]; rfl) wf
  | br f | brz f | brnz f | brlt f | brge f | brltu f | brgeu f | call f =>
    exact roundTrip_plain hm rfl rfl (packBr_reads rfl) (by decide) (takesNone_S rfl)
      (fun high fields => by unfold decodeS; rw [high, fields]; rfl) wf
  | brpz f | brpnz f | brpall f =>
    exact roundTrip_plain hm rfl rfl (packBrP_reads rfl) (by decide) (takesNone_S rfl)
      (fun high fields => by unfold decodeS; rw [high, fields]; rfl) wf
  | ret f =>
    exact roundTrip_plain hm rfl rfl (packBare_reads (k := 24) (by decide) rfl) (by decide) (takesNone_S rfl)
      (fun high ⟨low, fields⟩ => by unfold decodeS; rw [high, low, fields]; rfl) wf
  | jmp f =>
    exact roundTrip_plain hm rfl rfl (packJmp_reads rfl rfl) (by decide) (takesNone_S rfl)
      (fun high ⟨low, zero, fields⟩ => by unfold decodeS; rw [high, low, zero, fields]; rfl) wf
  | adr f =>
    exact roundTrip_plain hm rfl rfl (packAdr_reads rfl) (by decide) (takesNone_S rfl)
      (fun high fields => by unfold decodeS; rw [high, fields]; rfl) wf
  | rdsr f =>
    exact roundTrip_plain hm rfl rfl (packRdsr_reads rfl rfl) (by decide) (takesNone_S rfl)
      (fun high ⟨low, fields⟩ => by unfold decodeS; rw [high, low, fields]; rfl) wf
  | wrsr f =>
    exact roundTrip_plain hm rfl rfl (packWrsr_reads rfl) (by decide) (takesNone_S rfl)
      (fun high ⟨low, fields⟩ => by unfold decodeS; rw [high, low, fields]; rfl) wf
  | setmode f =>
    exact roundTrip_plain hm rfl rfl (packSetM_reads rfl) (by decide) (takesNone_S rfl)
      (fun high fields => by unfold decodeS; rw [high, fields]; rfl) wf
  | ldB f | ldBs f | ldH f | ldHs f | ldW f | ldW2 f | ldW4 f | stB f | stH f | stW f | stW2 f | stW4 f | ldx f
    | stx f =>
    exact roundTrip_prefixed hm rfl rfl memPxWord_isPrefix (packVmem_reads rfl) (by decide) (takesPrefix_Vmem rfl)
      (fun high fields => by unfold decodeVmem; rw [high, fields]; rfl) wf
  | ldt f =>
    exact roundTrip_prefixed hm rfl rfl memPxWord_isPrefix (packLdt_reads rfl rfl) (by decide) (takesPrefix_Vmem rfl)
      (fun high ⟨low, fields⟩ => by unfold decodeVmem; rw [high, low, fields]; rfl) wf
  | pfl f =>
    exact roundTrip_prefixed hm rfl rfl memPxWord_isPrefix (packPfl_reads rfl) (by decide) (takesPrefix_Vmem rfl)
      (fun high ⟨low, fields⟩ => by unfold decodeVmem; rw [high, low, fields]; rfl) wf
  | sldW f | sldW2 f | sldW4 f | sldW8 f | sstW f | sstW2 f | sstW4 f | swaitl f | satadd f | satcas f =>
    exact roundTrip_prefixed hm rfl rfl memPxWord_isPrefix (packSmem_reads rfl) (by decide) (takesPrefix_Smem rfl)
      (fun high fields => by unfold decodeSmem; rw [high, fields]; rfl) wf
  | aadd f | asub f | aand f | aor f | axor f | amin f | atomicAmax f | aminu f | amaxu f | axchg f | acas f | aincw f
    | afadd f | afadd2 f | afmin f | afmax f | aaddc f =>
    exact roundTrip_prefixed hm rfl rfl memPxWord_isPrefix (packAtom_reads rfl) (by decide) (takesPrefix_Atom rfl)
      (fun high fields => by unfold decodeAtom; rw [high, fields]; rfl) wf
  | mma f =>
    exact roundTrip_prefixed hm rfl rfl matPxWord_isPrefix (packMma_reads rfl rfl) (by decide) (takesPrefix_Matrix rfl)
      (fun high ⟨low, fields⟩ => by unfold decodeMatrix; rw [high, low, fields]; rfl) wf
  | mmag f =>
    exact roundTrip_prefixed hm rfl rfl matPxWord_isPrefix (packMmag_reads rfl rfl) (by decide) (takesPrefix_Matrix rfl)
      (fun high ⟨low, fields⟩ => by unfold decodeMatrix; rw [high, low, fields]; rfl) wf
  | mmas f | draint f =>
    exact roundTrip_prefixed hm rfl rfl matPxWord_isPrefix (packMmas_reads rfl rfl) (by decide) (takesPrefix_Matrix rfl)
      (fun high ⟨low, fields⟩ => by unfold decodeMatrix; rw [high, low, fields]; rfl) wf
  | accz f | accfold f =>
    exact roundTrip_prefixed hm rfl rfl matPxWord_isPrefix (packAccOp_reads rfl rfl) (by decide) (takesPrefix_Matrix rfl)
      (fun high ⟨low, fields⟩ => by unfold decodeMatrix; rw [high, low, fields]; rfl) wf
  | accld f =>
    exact roundTrip_prefixed hm rfl rfl matPxWord_isPrefix (packAccld_reads rfl rfl) (by decide) (takesPrefix_Matrix rfl)
      (fun high ⟨low, fields⟩ => by unfold decodeMatrix; rw [high, low, fields]; rfl) wf
  | drain f =>
    exact roundTrip_prefixed hm rfl rfl matPxWord_isPrefix (packDrain_reads rfl rfl rfl) (by decide) (takesPrefix_Matrix rfl)
      (fun high ⟨low, zero, fields⟩ => by unfold decodeMatrix; rw [high, low, zero, fields]; rfl) wf
  | tld f =>
    exact roundTrip_prefixed hm rfl rfl matPxWord_isPrefix (packTld_reads rfl rfl) (by decide) (takesPrefix_Matrix rfl)
      (fun high ⟨low, fields⟩ => by unfold decodeMatrix; rw [high, low, fields]; rfl) wf
  | tldt f =>
    exact roundTrip_prefixed hm rfl rfl matPxWord_isPrefix (packTldt_reads rfl rfl) (by decide) (takesPrefix_Matrix rfl)
      (fun high ⟨low, fields⟩ => by unfold decodeMatrix; rw [high, low, fields]; rfl) wf
  | tldg f =>
    exact roundTrip_prefixed hm rfl rfl matPxWord_isPrefix (packTldg_reads rfl rfl) (by decide) (takesPrefix_Matrix rfl)
      (fun high ⟨low, fields⟩ => by unfold decodeMatrix; rw [high, low, fields]; rfl) wf
  | tzero f =>
    exact roundTrip_prefixed hm rfl rfl matPxWord_isPrefix (packTzero_reads rfl rfl) (by decide) (takesPrefix_Matrix rfl)
      (fun high ⟨low, fields⟩ => by unfold decodeMatrix; rw [high, low, fields]; rfl) wf
  | matrixAmax f =>
    exact roundTrip_prefixed hm rfl rfl matPxWord_isPrefix (packMAmax_reads rfl rfl) (by decide) (takesPrefix_Matrix rfl)
      (fun high ⟨low, fields⟩ => by unfold decodeMatrix; rw [high, low, fields]; rfl) wf
  | accrd f | accwr f =>
    exact roundTrip_prefixed hm rfl rfl matPxWord_isPrefix (packAccRow_reads rfl rfl) (by decide) (takesPrefix_Matrix rfl)
      (fun high ⟨low, fields⟩ => by unfold decodeMatrix; rw [high, low, fields]; rfl) wf
  | cpy f | cpyt f | cpyg f | cpys f | cpyq f =>
    exact roundTrip_prefixed hm rfl rfl matPxWord_isPrefix (packCpy_reads rfl rfl) (by decide) (takesPrefix_Copy rfl)
      (fun high ⟨low, fields⟩ => by unfold decodeCopy; rw [high, low, fields]; rfl) wf
  | cpyx f =>
    exact roundTrip_prefixed hm rfl rfl matPxWord_isPrefix (packCpyx_reads rfl rfl rfl) (by decide) (takesPrefix_Copy rfl)
      (fun high ⟨low, zero, fields⟩ => by unfold decodeCopy; rw [high, low, zero, fields]; rfl) wf
  | cstat f | ccancel f =>
    exact roundTrip_prefixed hm rfl rfl matPxWord_isPrefix (packCTag_reads rfl rfl) (by decide) (takesPrefix_Copy rfl)
      (fun high ⟨low, zero, fields⟩ => by unfold decodeCopy; rw [high, low, zero, fields]; rfl) wf
  | rld f =>
    exact roundTrip_prefixed hm rfl rfl memPxWord_isPrefix (packRld_reads rfl rfl) (by decide) (takesPrefix_Fabric rfl)
      (fun high ⟨low, fields⟩ => by unfold decodeFabric; rw [high, low, fields]; rfl) wf
  | rst f =>
    exact roundTrip_prefixed hm rfl rfl memPxWord_isPrefix (packRst_reads rfl rfl) (by decide) (takesPrefix_Fabric rfl)
      (fun high ⟨low, fields⟩ => by unfold decodeFabric; rw [high, low, fields]; rfl) wf
  | ratom f =>
    exact roundTrip_prefixed hm rfl rfl memPxWord_isPrefix (packRatom_reads rfl) (by decide) (takesPrefix_Fabric rfl)
      (fun high fields => by unfold decodeFabric; rw [high, fields]; rfl) wf
  | rstv f =>
    exact roundTrip_prefixed hm rfl rfl memPxWord_isPrefix (packRstv_reads rfl rfl) (by decide) (takesPrefix_Fabric rfl)
      (fun high ⟨low, fields⟩ => by unfold decodeFabric; rw [high, low, fields]; rfl) wf
  | xfer f =>
    exact roundTrip_prefixed hm rfl rfl memPxWord_isPrefix (packXfer_reads rfl rfl) (by decide) (takesPrefix_Fabric rfl)
      (fun high ⟨low, zero, fields⟩ => by unfold decodeFabric; rw [high, low, zero, fields]; rfl) wf
  | rfence f =>
    exact roundTrip_prefixed hm rfl rfl memPxWord_isPrefix (packRfence_reads rfl rfl) (by decide) (takesPrefix_Fabric rfl)
      (fun high ⟨low, zero, fields⟩ => by unfold decodeFabric; rw [high, low, zero, fields]; rfl) wf
  | xredFirst f | xredMid f =>
    exact roundTrip_prefixed hm rfl rfl memPxWord_isPrefix (packXred_reads rfl rfl) (by decide) (takesPrefix_Fabric rfl)
      (fun high ⟨low, fields⟩ => by unfold decodeFabric; rw [high, low, fields]; rfl) wf
  | xredLast f =>
    exact roundTrip_prefixed hm rfl rfl memPxWord_isPrefix (packXredLast_reads rfl rfl) (by decide) (takesPrefix_Fabric rfl)
      (fun high ⟨low, zero, fields⟩ => by unfold decodeFabric; rw [high, low, zero, fields]; rfl) wf
  | hold f =>
    exact roundTrip_prefixed hm rfl rfl memPxWord_isPrefix (packHold_reads rfl rfl) (by decide) (takesPrefix_Fabric rfl)
      (fun high ⟨low, fields⟩ => by unfold decodeFabric; rw [high, low, fields]; rfl) wf
  | seatget f =>
    exact roundTrip_prefixed hm rfl rfl memPxWord_isPrefix (packSeatGet_reads rfl rfl) (by decide) (takesPrefix_Fabric rfl)
      (fun high ⟨low, zero, fields⟩ => by unfold decodeFabric; rw [high, low, zero, fields]; rfl) wf
  | seatfree f =>
    exact roundTrip_prefixed hm rfl rfl memPxWord_isPrefix (packFBare_reads rfl) (by decide) (takesPrefix_Fabric rfl)
      (fun high ⟨low, fields⟩ => by unfold decodeFabric; rw [high, low, fields]; rfl) wf
  | rstat f | rstatClr f =>
    exact roundTrip_prefixed hm rfl rfl memPxWord_isPrefix (packRstat_reads rfl rfl) (by decide) (takesPrefix_Fabric rfl)
      (fun high ⟨low, zero, fields⟩ => by unfold decodeFabric; rw [high, low, zero, fields]; rfl) wf
  | rresume f | rresumeFail f =>
    exact roundTrip_prefixed hm rfl rfl memPxWord_isPrefix (packRresume_reads rfl rfl) (by decide) (takesPrefix_Fabric rfl)
      (fun high ⟨low, zero, fields⟩ => by unfold decodeFabric; rw [high, low, zero, fields]; rfl) wf
  | rankmap f | rankmapRd f =>
    exact roundTrip_prefixed hm rfl rfl memPxWord_isPrefix (packRankmap_reads rfl rfl) (by decide) (takesPrefix_Fabric rfl)
      (fun high ⟨low, zero, fields⟩ => by unfold decodeFabric; rw [high, low, zero, fields]; rfl) wf
  | nop f | join f | yield f | cbar f | exit_ f =>
    exact roundTrip_plain hm rfl rfl (packBare_reads (k := 21) (by decide) rfl) (by decide) (takesNone_Sync rfl)
      (fun high ⟨low, fields⟩ => by unfold decodeSync; rw [high, low, fields]; rfl) wf
  | wait f =>
    have hill : decide (6 ≤ f.cnt.toNat) = false := wf
    have hcnt : f.cnt.toNat < 6 := by simpa using hill
    have := f.arm.toNat_lt
    have hone : packWait 0xE0200000 f / 2 ^ 16 % 32 ≠ 28 := by simp only [packWait]; omega
    exact roundTrip_plain hm rfl rfl (packWait_reads rfl rfl) (by decide) (takesNone_Sync rfl)
      (fun high ⟨low, fields⟩ => decodeSync_wait high low fields hone) wf
  | waitAll f =>
    exact roundTrip_plain hm rfl rfl (packWaitAll_reads rfl rfl) (by decide) (takesNone_Sync rfl)
      (fun high ⟨low, zero, fields⟩ => by unfold decodeSync; rw [high, low, zero, fields]; rfl) wf
  | fork f | yieldc f =>
    exact roundTrip_plain hm rfl rfl (packFork_reads rfl) (by decide) (takesNone_Sync rfl)
      (fun high fields => by unfold decodeSync; rw [high, fields]; rfl) wf
  | draw f =>
    exact roundTrip_plain hm rfl rfl (packDraw_reads rfl) (by decide) (takesNone_Sync rfl)
      (fun high fields => by unfold decodeSync; rw [high, fields]; rfl) wf
  | safe f =>
    exact roundTrip_plain hm rfl rfl (packSafe_reads rfl) (by decide) (takesNone_Sync rfl)
      (fun high ⟨low, fields⟩ => by unfold decodeSync; rw [high, low, fields]; rfl) wf
  | sleep f =>
    exact roundTrip_plain hm rfl rfl (packSleep_reads rfl) (by decide) (takesNone_Sync rfl)
      (fun high ⟨low, fields⟩ => by unfold decodeSync; rw [high, low, fields]; rfl) wf
  | bar f =>
    exact roundTrip_plain hm rfl rfl (packBar_reads rfl rfl) (by decide) (takesNone_Sync rfl)
      (fun high ⟨low, fields⟩ => by unfold decodeSync; rw [high, low, fields]; rfl) wf
  | launch f =>
    exact roundTrip_plain hm rfl rfl (packLaunch_reads rfl rfl) (by decide) (takesNone_Sync rfl)
      (fun high ⟨low, fields⟩ => by unfold decodeSync; rw [high, low, fields]; rfl) wf
  | cwait f =>
    exact roundTrip_plain hm rfl rfl (packSysDA_reads rfl rfl) (by decide) (takesNone_Sync rfl)
      (fun high ⟨low, fields⟩ => by unfold decodeSync; rw [high, low, fields]; rfl) wf
  | rpush f =>
    exact roundTrip_plain hm rfl rfl (packRpush_reads rfl rfl) (by decide) (takesNone_Sync rfl)
      (fun high ⟨low, fields⟩ => by unfold decodeSync; rw [high, low, fields]; rfl) wf
  | rpushPub f =>
    exact roundTrip_plain hm rfl rfl (packRpushPub_reads rfl rfl) (by decide) (takesNone_Sync rfl)
      (fun high ⟨low, zero, fields⟩ => by unfold decodeSync; rw [high, low, zero, fields]; rfl) wf
  | rpushClaim f =>
    exact roundTrip_plain hm rfl rfl (packRpush_reads rfl rfl) (by decide) (takesNone_Sync rfl)
      (fun high ⟨low, fields⟩ => decodeSync_rpushClaim high low fields) wf
  | rpop f =>
    exact roundTrip_plain hm rfl rfl (packRpop_reads rfl rfl rfl) (by decide) (takesNone_Sync rfl)
      (fun high ⟨low, zero, fields⟩ => by unfold decodeSync; rw [high, low, zero, fields]; rfl) wf
  | rpopRel f =>
    exact roundTrip_plain hm rfl rfl (packRpopRel_reads rfl rfl) (by decide) (takesNone_Sync rfl)
      (fun high ⟨low, zero, form, fields⟩ => by unfold decodeSync; rw [high, low, zero, form, fields]; rfl) wf
  | rpopTake f =>
    exact roundTrip_plain hm rfl rfl (packRpop_reads rfl rfl rfl) (by decide) (takesNone_Sync rfl)
      (fun high ⟨low, zero, fields⟩ => decodeSync_rpopTake high low zero fields) wf
  | potset f =>
    exact roundTrip_plain hm rfl rfl (packSysAB_reads rfl rfl) (by decide) (takesNone_Sync rfl)
      (fun high ⟨low, fields⟩ => by unfold decodeSync; rw [high, low, fields]; rfl) wf
  | potwait f =>
    exact roundTrip_plain hm rfl rfl (packPotwait_reads rfl rfl) (by decide) (takesNone_Sync rfl)
      (fun high ⟨low, fields⟩ => by unfold decodeSync; rw [high, low, fields]; rfl) wf
  | sigchk f | trap f =>
    exact roundTrip_plain hm rfl rfl (packImm16_reads rfl) (by decide) (takesNone_Sync rfl)
      (fun high ⟨low, fields⟩ => by unfold decodeSync; rw [high, low, fields]; rfl) wf
  | fence f =>
    exact roundTrip_plain hm rfl rfl (packFence_reads rfl rfl) (by decide) (takesNone_Sync rfl)
      (fun high ⟨low, fields⟩ => by unfold decodeSync; rw [high, low, fields]; rfl) wf
  | shfl f =>
    exact roundTrip_prefixed hm rfl rfl aluPxWord_isPrefix (packShfl_reads rfl) (by decide) (takesPrefix_Cross rfl)
      (fun high fields => by unfold decodeCross; rw [high, fields]; rfl) wf
  | lred f =>
    exact roundTrip_prefixed hm rfl rfl aluPxWord_isPrefix (packLred_reads rfl) (by decide) (takesPrefix_Cross rfl)
      (fun high fields => by unfold decodeCross; rw [high, fields]; rfl) wf
  | lscan f =>
    exact roundTrip_prefixed hm rfl rfl aluPxWord_isPrefix (packLscan_reads rfl rfl) (by decide) (takesPrefix_Cross rfl)
      (fun high ⟨low, fields⟩ => by unfold decodeCross; rw [high, low, fields]; rfl) wf
  | vote f =>
    exact roundTrip_prefixed hm rfl rfl aluPxWord_isPrefix (packVote_reads rfl rfl) (by decide) (takesPrefix_Cross rfl)
      (fun high ⟨low, fields⟩ => by unfold decodeCross; rw [high, low, fields]; rfl) wf
  | bcast f =>
    exact roundTrip_prefixed hm rfl rfl aluPxWord_isPrefix (packBcast_reads rfl) (by decide) (takesPrefix_Cross rfl)
      (fun high fields => by unfold decodeCross; rw [high, fields]; rfl) wf
  | rdlane f =>
    exact roundTrip_prefixed hm rfl rfl aluPxWord_isPrefix (packRdlane_reads rfl) (by decide) (takesPrefix_Cross rfl)
      (fun high ⟨low, fields⟩ => by unfold decodeCross; rw [high, low, fields]; rfl) wf
  | lanes f =>
    exact roundTrip_prefixed hm rfl rfl aluPxWord_isPrefix (packLanesF_reads rfl rfl) (by decide) (takesPrefix_Cross rfl)
      (fun high ⟨low, fields⟩ => by unfold decodeCross; rw [high, low, fields]; rfl) wf
  | pop f =>
    exact roundTrip_prefixed hm rfl rfl aluPxWord_isPrefix (packPop_reads rfl rfl) (by decide) (takesPrefix_Cross rfl)
      (fun high ⟨low, zero, fields⟩ => by unfold decodeCross; rw [high, low, zero, fields]; rfl) wf
  | pmov f =>
    exact roundTrip_prefixed hm rfl rfl aluPxWord_isPrefix (packPmov_reads rfl) (by decide) (takesPrefix_Cross rfl)
      (fun high fields => by unfold decodeCross; rw [high, fields]; rfl) wf
  | perm f =>
    exact roundTrip_prefixed hm rfl rfl aluPxWord_isPrefix (packPerm_reads rfl rfl) (by decide) (takesPrefix_Cross rfl)
      (fun high ⟨low, fields⟩ => by unfold decodeCross; rw [high, low, fields]; rfl) wf
  | frcp f | frsqrt f | fsqrt f | fexp2 f | flog2 f | fsinpi f | fcospi f | ftanh f | fsigm f | fgelu f | fsilu f
    | fsoftp f =>
    exact roundTrip_prefixed hm rfl rfl aluPxWord_isPrefix (packSfu_reads rfl rfl) (by decide) (takesPrefix_Sfu rfl)
      (fun high ⟨low, fields⟩ => by unfold decodeSfu; rw [high, low, fields]; rfl) wf
  | fcvt f | fcvti f | icvtf f =>
    exact roundTrip_prefixed hm rfl rfl aluPxWord_isPrefix (packCvt_reads rfl rfl) (by decide) (takesPrefix_Convert rfl)
      (fun high ⟨low, fields⟩ => by unfold decodeConvert; rw [high, low, fields]; rfl) wf
  | bfpk f | bfpu f =>
    exact roundTrip_prefixed hm rfl rfl aluPxWord_isPrefix (packBfp_reads rfl rfl) (by decide) (takesPrefix_Convert rfl)
      (fun high ⟨low, fields⟩ => by unfold decodeConvert; rw [high, low, fields]; rfl) wf
  | unpk f =>
    exact roundTrip_prefixed hm rfl rfl aluPxWord_isPrefix (packUnpk_reads rfl rfl) (by decide) (takesPrefix_Convert rfl)
      (fun high ⟨low, fields⟩ => by unfold decodeConvert; rw [high, low, fields]; rfl) wf
  | sclx f =>
    exact roundTrip_prefixed hm rfl rfl aluPxWord_isPrefix (packSclx_reads rfl rfl) (by decide) (takesPrefix_Convert rfl)
      (fun high ⟨low, fields⟩ => by unfold decodeConvert; rw [high, low, fields]; rfl) wf
  | psrd f =>
    exact roundTrip_plain hm rfl rfl (packPsrd_reads rfl rfl) (by decide) (takesNone_System rfl)
      (fun high ⟨low, fields⟩ => by unfold decodeSystem; rw [high, low, fields]; rfl) wf
  | pswr f =>
    exact roundTrip_plain hm rfl rfl (packPswr_reads rfl rfl) (by decide) (takesNone_System rfl)
      (fun high ⟨low, fields⟩ => by unfold decodeSystem; rw [high, low, fields]; rfl) wf
  | ovtld f | sigset f =>
    exact roundTrip_plain hm rfl rfl (packSysA_reads rfl rfl) (by decide) (takesNone_System rfl)
      (fun high ⟨low, _, fields⟩ => by unfold decodeSystem; rw [high, low, fields]; rfl) wf
  | rfe f | rfeNext f =>
    exact roundTrip_plain hm rfl rfl (packBare_reads (k := 21) (by decide) rfl) (by decide) (takesNone_System rfl)
      (fun high ⟨low, fields⟩ => by unfold decodeSystem; rw [high, low, fields]; rfl) wf
  | rfePark f =>
    refine roundTrip_plain hm rfl rfl (packSysA_reads rfl rfl) (by decide) (takesNone_System rfl)
      (fun high ⟨low, _, fields⟩ => ?_) wf
    have hplain : packSysA 0xF0600008 f / 2 ^ 2 % 524288 ≠ 0 := by omega
    have hnext : packSysA 0xF0600008 f / 2 ^ 2 % 524288 ≠ 1 := by omega
    unfold decodeSystem
    rw [high, low, fields, if_neg hplain]
    exact if_neg hnext
  | ctxsv f | keyld f | dupset f =>
    exact roundTrip_plain hm rfl rfl (packSysDAB_reads rfl rfl) (by decide) (takesNone_System rfl)
      (fun high ⟨low, fields⟩ => by unfold decodeSystem; rw [high, low, fields]; rfl) wf
  | ctxld f | pgmap f | halt f | xlat f | killg f =>
    exact roundTrip_plain hm rfl rfl (packSysDA_reads rfl rfl) (by decide) (takesNone_System rfl)
      (fun high ⟨low, fields⟩ => by unfold decodeSystem; rw [high, low, fields]; rfl) wf
  | pgpoolAdd f | pgpoolRem f | pgpoolCnt f =>
    exact roundTrip_plain hm rfl rfl (packSysDA_reads rfl rfl) (by decide) (takesNone_System rfl)
      (fun high ⟨low, fields⟩ => by unfold decodeSystem; rw [high, low, fields]; rfl) wf
  | placeTo f =>
    exact roundTrip_plain hm rfl rfl (packSysAB_reads rfl rfl) (by decide) (takesNone_System rfl)
      (fun high ⟨low, fields⟩ => by unfold decodeSystem; rw [high, low, fields]; rfl) wf
  | placeHere f | placeReset f =>
    exact roundTrip_plain hm rfl rfl (packSysA_reads rfl rfl) (by decide) (takesNone_System rfl)
      (fun high ⟨low, zero, fields⟩ => by unfold decodeSystem; rw [high, low, zero, fields]; rfl) wf
  | movi f => exact absurd rfl (hm f)
  | _ => exact absurd rfl hw

/-- A LIMM word with bit 25 at 0 names a vector register. -/
theorem decodeLimm_v {w : Nat} {r : BitVec 7} {lit : Word} {st : BitVec 2} (hz : w / 4 % 65536 = 0) (hv : w / 2 ^ 25 % 2 = 0)
    (hr : fld w 18 7 = r) (hst : fld w 0 2 = st) : decodeLimm w lit.toNat = some (.movi ⟨.v r, lit, st⟩) := by
  simp [-Nat.reducePow, decodeLimm, hz, hv, hr, hst]

/-- A LIMM word with bit 25 at 1 names a uniform register, and bit 24 is 0. -/
theorem decodeLimm_u {w : Nat} {r : BitVec 6} {lit : Word} {st : BitVec 2} (hz : w / 4 % 65536 = 0) (hu : w / 2 ^ 25 % 2 = 1)
    (hb : w / 2 ^ 24 % 2 = 0) (hr : fld w 18 6 = r) (hst : fld w 0 2 = st) :
    decodeLimm w lit.toNat = some (.movi ⟨.u r, lit, st⟩) := by
  simp [-Nat.reducePow, decodeLimm, hz, hu, hb, hr, hst]

theorem decodeLimm_limmWord (f : Movi) : decodeLimm (limmWord f) f.lit.toNat = some (.movi f) := by
  obtain ⟨dst, lit, st⟩ := f
  cases dst with
  | v r =>
    refine decodeLimm_v ?_ ?_ (fld_eq_iff.mpr ?_) (fld_eq_iff.mpr ?_) <;> simp only [limmWord] <;> omega
  | u r =>
    refine decodeLimm_u ?_ ?_ ?_ (fld_eq_iff.mpr ?_) (fld_eq_iff.mpr ?_) <;> simp only [limmWord] <;> omega

theorem limmWord_class (f : Movi) : limmWord f / 2 ^ 26 = 49 := by
  obtain ⟨dst, lit, st⟩ := f
  cases dst <;> simp only [limmWord] <;> omega

/-- `movi` is a LIMM word and its literal (R32, R147). -/
theorem roundTrip_of_movi (f : Movi) : decodeWords (encode (.movi f)) = .ok (.movi f) := by
  obtain ⟨hclass, hsub⟩ := class_of_top (c := 3) (m := 1) (limmWord_class f) (by decide) (by decide)
  have wf : (Instr.movi f).WellFormed := rfl
  simp [-Nat.reducePow, encode, decodeWords, decode, isPrefixWord, isLimmWord, hclass, hsub, decodeLimm_limmWord,
    checked_wellFormed wf]

/-- Settles O58: an instruction with words is `movi` or has a word of one of the classes. -/
theorem roundTrip : Obligations.RoundTrip := by
  unfold Obligations.RoundTrip
  intro i wf he
  by_cases hm : ∃ f, i = .movi f
  · obtain ⟨f, rfl⟩ := hm
    exact roundTrip_of_movi f
  · have hne : ∀ f, i ≠ .movi f := fun f h => hm ⟨f, h⟩
    have hw : encodeWord i ≠ none := fun h => he ((Laws.Coded.statement_of_none h hne).2.mpr ⟨h, hne⟩)
    exact roundTrip_of_word hne wf hw

end Sys2Proof
end

section
/-! # O59: no step of the machine stops

A step is the execution of one instruction: of the outside world or of the machine, which always answers a next state, or one
with words, which goes on when a group is chosen and has a split to issue from. `cycle` runs the second kind only for such a
group, after the marks of a read of code, which keep the issuing split. -/
namespace Sys2Proof.Machine

/-- A group is chosen to issue and has a split that issues (R92, R132). -/
def State.HasIssuer (s : State) : Prop :=
  ∃ gid g p, s.cur = some gid ∧ s.group gid = some g ∧ g.issuing = some p

/-- Whether a step answers a next state. -/
def goesOn : Host.Outcome State Fault Refusal → Bool
  | .next _ => true
  | _ => false

theorem exists_next_of_goesOn {o} (h : goesOn o = true) : ∃ t, o = .next t := by
  cases o with
  | next t => exact ⟨t, rfl⟩
  | fault _ => cases h
  | refused _ => cases h

theorem issue_goesOn {sp body} {s : State} (h : s.HasIssuer) : goesOn (issue sp body s) = true := by
  obtain ⟨gid, g, p, hcur, hg, hp⟩ := h
  unfold issue
  rw [hcur]; dsimp only
  rw [hg]; dsimp only
  rw [hp]; dsimp only
  cases p.held <;> rfl

theorem execTimesetHiWrite_goesOn {v s} : goesOn (execTimesetHiWrite v s) = true := by
  unfold execTimesetHiWrite
  split <;> rfl

theorem execTimesetLoWrite_goesOn {v s} : goesOn (execTimesetLoWrite v s) = true := by
  unfold execTimesetLoWrite
  split <;> rfl

theorem execTimesetLoRead_goesOn {s} : goesOn (execTimesetLoRead s) = true := by
  unfold execTimesetLoRead
  split <;> rfl

theorem execClockLoRead_goesOn {s} : goesOn (execClockLoRead s) = true := by
  unfold execClockLoRead
  split <;> rfl

theorem execTimeLoRead_goesOn {s} : goesOn (execTimeLoRead s) = true := by
  unfold execTimeLoRead
  split <;> rfl

theorem execFlagsOvfAccess_goesOn {s} : goesOn (execFlagsOvfAccess s) = true := by
  unfold execFlagsOvfAccess
  split <;> rfl

/-- An instruction goes on when it has no words, so that it is a step of the machine or of its surroundings, or when a group
is there to issue it (R58, R132). -/
theorem exec_goesOn {i : Instr} {s : State} (h : (encodeWord i).isSome = true → s.HasIssuer) : goesOn (exec i s) = true := by
  cases i with
  | issueSelect | handFillComplete | handWritebackComplete | safePointDistanceTrap | handlerWatchdog | waitingResume
  | fairnessGiveWay | sleepExpire | continuationResume | joinMerge | barrierComplete | cohortBarrierComplete | groupExitRelease
  | teamDistribute | teamAdmit | teamRetire | latencyReservePreempt | swapOutStart | swapOutComplete | swapInStart
  | swapInComplete | contextSaveTaken | loadComplete | storePerformed | atomicComplete | sfuComplete | matrixExecute
  | matrixStep | matrixComplete | copyChunk | copyComplete | copyRetire | cpyxReserve | cpyxSpaceGrant | l1DirtyFlush
  | homeMerge | holderInvalidate | evictionNotice | refillRequest | translationRetry | pageCountHalve | migration | pageCollapse
  | remoteAccess | remoteFaultRecord | streamFreeze | fabricRequestComplete | xferChunk | xferComplete | rfenceAdd
  | registerDelivery | deliveryBounce | seatArrival | heartbeatSend | packageDeclaredFailed | planeHeartbeatTimeout
  | linkFailure | orderingDrainEnd | frameAuthFail | undeliverableReturn | swaitlWake | swaitlTimeout | parkWake | ethTransmit
  | ethReceive | hostCxlMemWrite | hostOwnershipRequest | powerGood | packageReset | firmwareVerify | unitReady | unitRetire
  | correctedError | poisonConsume | throttle | throttleRecover | islandPointReached | ckptNFall | ckptCheckpoint | ckptRestore
  | ckptComplete | healthCeClear | ptrootWrite | partcfgChange | expanderWindowChange | spdmRequest | spdmBind
  | uncorrectableError | heartbeatArrival | streamResume => rfl
  | timesetHiWrite => exact execTimesetHiWrite_goesOn
  | timesetLoWrite => exact execTimesetLoWrite_goesOn
  | timesetLoRead => exact execTimesetLoRead_goesOn
  | clockLoRead => exact execClockLoRead_goesOn
  | timeLoRead => exact execTimeLoRead_goesOn
  | flagsOvfAccess => exact execFlagsOvfAccess_goesOn
  | movi f =>
    obtain ⟨dst, lit, st⟩ := f
    cases dst with
    | _ => exact issue_goesOn (h rfl)
  | _ => exact issue_goesOn (h rfl)

theorem exec_goesOn_of_noWord {i : Instr} {s : State} (h : encodeWord i = none) : ∃ t, exec i s = .next t :=
  exists_next_of_goesOn (exec_goesOn fun hw => by simp [h] at hw)

/-! ## The marks of a read of code keep the issuing split -/

theorem State.HasIssuer.of {s t : State} (h : s.HasIssuer) (hc : t.cur = s.cur) (hg : t.groups = s.groups) : t.HasIssuer := by
  obtain ⟨gid, g, p, hcur, hgrp, hp⟩ := h
  exact ⟨gid, g, p, hc.trans hcur, (congrArg (tabGet · gid) hg).trans hgrp, hp⟩

/-- A chain of operations that each keep the issuing split keeps it. -/
theorem State.HasIssuer.foldl {α : Type} {f : State → α → State} {l : List α} {s : State} (h : s.HasIssuer)
    (hf : ∀ t a, t.HasIssuer → (f t a).HasIssuer) : (l.foldl f s).HasIssuer := by
  induction l generalizing s with
  | nil => exact h
  | cons a r ih => exact ih (hf s a h)

theorem State.HasIssuer.dirFill {s : State} {line w} (h : s.HasIssuer) : (s.dirFill line w).HasIssuer := by
  unfold State.dirFill
  dsimp only
  split
  · exact h
  · exact h.of rfl rfl

theorem State.HasIssuer.dropHolder {s : State} {w left ls} (h : s.HasIssuer) : (s.dropHolder w left ls).HasIssuer := by
  refine h.foldl fun t l ht => ?_
  dsimp only
  split
  · exact ht
  · exact ht.of rfl rfl

/-- A table with every entry rewritten under its own key. -/
theorem tabGet_mapEntries {α : Type} {f : Nat → α → α} {m : List (Nat × α)} {a : Nat} :
    tabGet (m.map fun e => (e.1, f e.1 e.2)) a = (tabGet m a).map (f a) := by
  induction m with
  | nil => rfl
  | cons e r ih =>
    simp only [List.map_cons, tabGet]
    split
    · next h => subst h; rfl
    · exact ih

/-- The last-page registers that stay when only the translations `left` are in the group's core's TLB (R355). -/
def keepPages (core : Nat) (left : List TlbEntry) (gid : Nat) (g : Group) : Group :=
  if coreOf gid = core then { g with lastPages := g.lastPages.filter fun q => left.any fun e => e.va == q.2 } else g

theorem keepPages_issuing {core left gid} {g : Group} : (keepPages core left gid g).issuing = g.issuing := by
  unfold keepPages
  split <;> rfl

theorem State.HasIssuer.tlbDrop {s : State} {core out} (h : s.HasIssuer) : (s.tlbDrop core out).HasIssuer := by
  unfold State.tlbDrop
  dsimp only
  refine State.HasIssuer.dropHolder ?_
  obtain ⟨gid, g, p, hcur, hg, hp⟩ := h
  set left := (smapGet [] s.tlbs core).filter fun e => !out e
  refine ⟨gid, keepPages core left gid g, p, hcur, ?_, keepPages_issuing.trans hp⟩
  have hmap : s.groups.map (fun (g : Nat × Group) =>
      if coreOf g.1 = core then
        (g.1, { g.2 with lastPages := g.2.lastPages.filter fun q => left.any fun e => e.va == q.2 })
      else g) = s.groups.map fun e => (e.1, keepPages core left e.1 e.2) :=
    List.map_congr_left fun e _ => by unfold keepPages; split <;> rfl
  show tabGet (s.groups.map _) gid = _
  rw [hmap, tabGet_mapEntries, show tabGet s.groups gid = some g from hg]
  rfl

theorem State.HasIssuer.dieTlbDrop {s : State} {die out} (h : s.HasIssuer) : (s.dieTlbDrop die out).HasIssuer :=
  State.HasIssuer.dropHolder (h.of rfl rfl)

theorem State.HasIssuer.dieTlbAdd {s : State} {die e} (h : s.HasIssuer) : (s.dieTlbAdd die e).HasIssuer := by
  unfold State.dieTlbAdd
  dsimp only
  split
  · exact h
  · refine State.HasIssuer.foldl ?_ fun _ _ => State.HasIssuer.dirFill
    split
    · exact h.of rfl rfl
    · exact h.dieTlbDrop.of rfl rfl

theorem State.HasIssuer.tlbAdd {s : State} {core e} (h : s.HasIssuer) : (s.tlbAdd core e).HasIssuer := by
  unfold State.tlbAdd
  dsimp only
  split
  · exact h
  · refine State.HasIssuer.foldl ?_ fun _ _ => State.HasIssuer.dirFill
    split
    · exact h.of rfl rfl
    · exact h.tlbDrop.of rfl rfl

theorem State.HasIssuer.markEntry {s : State} {part pa src entry} (h : s.HasIssuer) :
    (s.markEntry part pa src entry).HasIssuer := by
  unfold State.markEntry
  dsimp only
  split <;> exact h.of rfl rfl

theorem State.HasIssuer.install {s : State} {part core pl} (h : s.HasIssuer) : (s.install part core pl).HasIssuer := by
  unfold State.install
  split
  · exact h
  · split
    · exact h
    · dsimp only
      split
      · exact h
      · split
        · exact h.tlbAdd
        · exact h.markEntry.dieTlbAdd.tlbAdd

theorem State.HasIssuer.countPage {s : State} {part core pl} (h : s.HasIssuer) : (s.countPage part core pl).HasIssuer := by
  unfold State.countPage
  split
  · exact h
  · exact h.of rfl rfl

theorem State.HasIssuer.fetchMarks {s : State} {gid g p} (h : s.HasIssuer) : (s.fetchMarks gid g p).HasIssuer := by
  unfold State.fetchMarks
  split
  · exact h.install.countPage
  · exact h

/-! ## The machine's own pending steps have no words -/

/-- An instruction without an encoding has no word: a `movi` has one, and every other encoding ends with its word. -/
theorem encodeWord_of_encode_nil {i : Instr} (h : encode i = []) : encodeWord i = none := by
  by_cases hm : ∃ f, i = .movi f
  · obtain ⟨f, rfl⟩ := hm
    exact absurd h (List.cons_ne_nil _ _)
  · cases hw : encodeWord i with
    | none => rfl
    | some w => simp [encode_eq (fun f hf => hm ⟨f, hf⟩) hw] at h

theorem noWord_nil : ∀ i ∈ ([] : List Instr), encodeWord i = none := List.forall_mem_nil _

theorem noWord_cons {a : Instr} {l : List Instr} (ha : encodeWord a = none) (hl : ∀ i ∈ l, encodeWord i = none) :
    ∀ i ∈ a :: l, encodeWord i = none :=
  List.forall_mem_cons.2 ⟨ha, hl⟩

theorem noWord_append {l r : List Instr} (hl : ∀ i ∈ l, encodeWord i = none) (hr : ∀ i ∈ r, encodeWord i = none) :
    ∀ i ∈ l ++ r, encodeWord i = none :=
  List.forall_mem_append.2 ⟨hl, hr⟩

theorem noWord_flatMap {α : Type} {f : α → List Instr} {l : List α} (hf : ∀ a, ∀ i ∈ f a, encodeWord i = none) :
    ∀ i ∈ l.flatMap f, encodeWord i = none :=
  List.forall_mem_flatMap.2 fun a _ => hf a

theorem noWord_map {α : Type} {f : α → Instr} {l : List α} (hf : ∀ a, encodeWord (f a) = none) :
    ∀ i ∈ l.map f, encodeWord i = none :=
  List.forall_mem_map.2 fun a _ => hf a

theorem noWord_splitSteps {gid slot} {p : Split} : ∀ i ∈ splitSteps gid slot p, encodeWord i = none := by
  unfold splitSteps
  split
  · exact noWord_cons rfl noWord_nil
  · exact noWord_cons rfl (noWord_cons rfl noWord_nil)
  · exact noWord_cons rfl noWord_nil
  · exact noWord_cons rfl noWord_nil
  · exact noWord_cons rfl noWord_nil
  · exact noWord_cons rfl noWord_nil
  · exact noWord_nil

theorem noWord_pendSteps {gid} {e : Nat × PendOp} : ∀ i ∈ pendSteps gid e, encodeWord i = none := by
  unfold pendSteps
  split
  · exact noWord_cons rfl noWord_nil
  · exact noWord_cons rfl noWord_nil
  · exact noWord_cons rfl noWord_nil
  · exact noWord_cons rfl noWord_nil
  · exact noWord_nil

theorem noWord_groupSteps {gid} {g : Group} : ∀ i ∈ groupSteps gid g, encodeWord i = none := by
  unfold groupSteps
  refine noWord_append (noWord_append (noWord_append (noWord_append ?_ ?_) ?_) ?_) ?_
  · exact noWord_cons rfl (noWord_cons rfl (noWord_cons rfl noWord_nil))
  · exact noWord_flatMap fun _ => noWord_pendSteps
  · exact noWord_cons rfl (noWord_cons rfl (noWord_cons rfl noWord_nil))
  · split
    · exact noWord_splitSteps
    · exact noWord_flatMap fun _ => noWord_splitSteps
  · exact noWord_cons rfl (noWord_cons rfl (noWord_cons rfl (noWord_cons rfl (noWord_cons rfl (noWord_cons rfl
      (noWord_cons rfl noWord_nil))))))

theorem noWord_copySteps {cid} : ∀ i ∈ copySteps cid, encodeWord i = none :=
  noWord_cons rfl (noWord_cons rfl (noWord_cons rfl (noWord_cons rfl (noWord_cons rfl noWord_nil))))

theorem noWord_teamSteps {tid} : ∀ i ∈ teamSteps tid, encodeWord i = none :=
  noWord_append (noWord_map fun _ => rfl)
    (noWord_cons rfl (noWord_cons rfl (noWord_cons rfl (noWord_cons rfl noWord_nil))))

theorem noWord_requestSteps {home rid} {q : FabReq} : ∀ i ∈ requestSteps home rid q, encodeWord i = none := by
  unfold requestSteps
  refine noWord_append
    (noWord_cons rfl (noWord_cons rfl (noWord_cons rfl (noWord_cons rfl (noWord_cons rfl noWord_nil))))) ?_
  split
  · exact noWord_cons rfl noWord_nil
  · exact noWord_nil

theorem noWord_frozenSteps {z : Frozen} : ∀ i ∈ frozenSteps z, encodeWord i = none := by
  unfold frozenSteps
  refine noWord_append (noWord_cons rfl noWord_nil) ?_
  split
  · exact noWord_cons rfl noWord_nil
  · split
    · exact noWord_cons rfl noWord_nil
    · exact noWord_nil
  · split
    · exact noWord_cons rfl noWord_nil
    · exact noWord_nil
  · exact noWord_nil

theorem noWord_foreignStep {k} {h : HeldForeign} : encodeWord (foreignStep k h) = none := by
  unfold foreignStep
  split <;> rfl

theorem noWord_hostStep {n} {q : HostWait} : encodeWord (hostStep n q) = none := by
  unfold hostStep
  split <;> rfl

theorem noWord_handSteps {h : Hand} : ∀ i ∈ handSteps h, encodeWord i = none := by
  unfold handSteps
  split
  · exact noWord_cons rfl noWord_nil
  · exact noWord_nil

theorem noWord_lineSteps {line} {e : DirEntry} : ∀ i ∈ lineSteps line e, encodeWord i = none :=
  noWord_append (noWord_append (noWord_map fun _ => rfl) (noWord_map fun _ => rfl)) (noWord_map fun _ => rfl)

theorem noWord_evictSteps {line} {e : DirEntry} : ∀ i ∈ evictSteps line e, encodeWord i = none := noWord_map fun _ => rfl

theorem noWord_pageSteps {frame} : ∀ i ∈ pageSteps frame, encodeWord i = none :=
  noWord_append (noWord_cons rfl noWord_nil) (noWord_map fun _ => rfl)

theorem State.noWord_partSteps {s : State} {part} : ∀ i ∈ s.partSteps part, encodeWord i = none := by
  unfold State.partSteps
  refine noWord_append (noWord_cons rfl (noWord_cons rfl (noWord_cons rfl noWord_nil))) ?_
  split
  · exact noWord_cons rfl noWord_nil
  · exact noWord_nil

theorem State.noWord_linkSteps {s : State} : ∀ i ∈ s.linkSteps, encodeWord i = none :=
  noWord_append (noWord_append (noWord_cons rfl (noWord_cons rfl noWord_nil))
    (noWord_flatMap fun _ => noWord_cons rfl (noWord_cons rfl noWord_nil))) (noWord_map fun _ => rfl)

theorem State.noWord_pending {s : State} : ∀ i ∈ s.pending, encodeWord i = none := by
  unfold State.pending
  iterate 17 refine noWord_append ?_ ?_
  · exact noWord_flatMap fun _ => noWord_groupSteps
  · exact noWord_flatMap fun _ => noWord_copySteps
  · exact noWord_flatMap fun _ => noWord_requestSteps
  · exact noWord_flatMap fun _ => noWord_frozenSteps
  · exact noWord_map fun _ => noWord_foreignStep
  · exact noWord_map fun _ => noWord_hostStep
  · exact noWord_flatMap fun _ => noWord_handSteps
  · exact noWord_map fun _ => rfl
  · exact noWord_map fun _ => rfl
  · exact noWord_flatMap fun _ => noWord_lineSteps
  · exact noWord_flatMap fun _ => noWord_teamSteps
  · exact noWord_map fun _ => rfl
  · exact noWord_flatMap fun _ => State.noWord_partSteps
  · exact noWord_map fun _ => rfl
  · exact noWord_map fun _ => rfl
  · exact State.noWord_linkSteps
  · exact noWord_flatMap fun _ => noWord_pageSteps
  · exact noWord_flatMap fun _ => noWord_evictSteps

/-! ## The choice among the pending steps -/

/-- An entry chosen by turns is one of the list. -/
theorem byTurn_mem {α : Type} {n : Nat} {l : List α} {a : α} (h : byTurn n l = some a) : a ∈ l :=
  List.mem_of_getElem? h

/-- An enabled admission is that of a team that is queued and heads its cohort (R114). -/
theorem State.mem_admissions {s : State} {i : Instr} (h : i ∈ s.admissions) :
    ∃ e ∈ s.teams, i = .teamAdmit e.1 ∧ s.enabled i = true := by
  obtain ⟨e, he, rfl⟩ := List.mem_map.1 h
  obtain ⟨hmem, hen⟩ := List.mem_filter.1 (List.mem_filter.1 he).1
  exact ⟨e, hmem, rfl, (Bool.and_eq_true_iff.1 hen).2⟩

/-- The step chosen is one of those enabled (R114, R429). -/
theorem mem_of_nextInternal {s : State} {i : Instr} (h : nextInternal s = some i) :
    i ∈ s.pending.filter s.enabled ∨ i ∈ s.admissions := by
  rw [← List.mem_append]
  unfold nextInternal at h
  dsimp only at h
  split at h
  · split at h
    · exact byTurn_mem h
    · exact List.mem_append_right _ (byTurn_mem h)
  · exact List.mem_of_mem_drop (List.mem_of_mem_head? h)

theorem noWord_nextInternal {s : State} {i : Instr} (h : nextInternal s = some i) : encodeWord i = none := by
  obtain hp | ha := mem_of_nextInternal h
  · exact State.noWord_pending i (List.mem_filter.1 hp).1
  · obtain ⟨_, _, rfl, _⟩ := State.mem_admissions ha
    rfl

theorem State.noWord_overdue {s : State} {i : Instr} (h : s.overdue = some i) : encodeWord i = none := by
  unfold State.overdue at h
  split at h
  · obtain rfl := Option.some.inj h
    rfl
  · obtain ⟨_, _, rfl⟩ := Option.map_eq_some_iff.1 h
    rfl

/-! ## One step goes on -/

theorem runWords_goesOn {s : State} {gid g p ws} (h : s.HasIssuer) : ∃ t, runWords s gid g p ws = .next t := by
  unfold runWords
  split
  · next i _ =>
    obtain ⟨t, ht⟩ := exists_next_of_goesOn (exec_goesOn (i := i) fun _ => h)
    exact ⟨_, by rw [ht]; rfl⟩
  · exact ⟨_, rfl⟩

theorem issueStep_goesOn {s : State} {gid} (hcur : s.cur = some gid) : ∃ t, issueStep s gid = .next t := by
  unfold issueStep
  split
  · exact ⟨_, rfl⟩
  · next g hg =>
    split
    · exact ⟨_, rfl⟩
    · next p hp =>
      have hi : s.HasIssuer := ⟨gid, g, p, hcur, hg, hp⟩
      split
      · exact runWords_goesOn hi
      · split
        · exact runWords_goesOn hi.fetchMarks
        · exact ⟨_, rfl⟩
        · exact ⟨_, rfl⟩

/-- Settles O59: the group chosen to issue has its issuing split, and every other step is of an instruction without words. -/
theorem stepNeverStops : Obligations.StepNeverStops := by
  unfold Obligations.StepNeverStops
  intro s hin
  unfold step cycle
  dsimp only
  split
  · next gid hcur => exact issueStep_goesOn hcur
  · split
    · next i hi => exact exec_goesOn_of_noWord (State.noWord_overdue hi)
    · split
      · next i r hi => exact exec_goesOn_of_noWord (encodeWord_of_encode_nil (hin i (by rw [← s.advance_inbox, hi]; exact .head _)))
      · split
        · next i hi =>
          refine exec_goesOn_of_noWord ?_
          split at hi
          · exact noWord_nextInternal hi
          · cases hi
        · exact exec_goesOn_of_noWord rfl

end Sys2Proof.Machine
end

section
/-! # O56: a step runs the instruction that the words at the PC decode to

Four parts: what `advance` changes, the issue of the group chosen, the order of the steps when none is chosen, and the choice
among the machine's own pending steps. -/
namespace Sys2Proof.Machine

/-! ## Time and the waits that end -/

/-- A running minimum is at most its start and every entry, and is one of them. -/
theorem foldl_min_spec {α : Type} {f : α → Nat} {l : List α} {a : Nat} :
    l.foldl (fun m x => min m (f x)) a ≤ a ∧ (∀ x ∈ l, l.foldl (fun m x => min m (f x)) a ≤ f x) ∧
      (l.foldl (fun m x => min m (f x)) a = a ∨ ∃ x ∈ l, l.foldl (fun m x => min m (f x)) a = f x) := by
  induction l generalizing a with
  | nil => exact ⟨le_rfl, nofun, .inl rfl⟩
  | cons y r ih =>
    obtain ⟨hstart, hle, hmem⟩ := ih (a := min a (f y))
    simp only [List.foldl_cons, List.mem_cons, forall_eq_or_imp, exists_eq_or_imp]
    refine ⟨hstart.trans (min_le_left ..), ⟨hstart.trans (min_le_right ..), hle⟩, ?_⟩
    obtain h | h := hmem
    · rcases min_choice a (f y) with hm | hm <;> rw [hm] at h ⊢ <;> simp [h]
    · exact .inr (.inr h)

/-- The clock comes no further than a step that is due allows, and stops short of its limit only for one. -/
theorem State.clockLimit_spec {s : State} {lim : Nat} (hlim : s.clock ≤ lim) :
    s.clock ≤ s.clockLimit lim ∧ s.clockLimit lim ≤ lim ∧
      (∀ x ∈ s.sleepers ++ s.dirtyCopies, s.clockLimit lim ≤ max s.clock x.2.2) ∧
      (s.clockLimit lim < lim → ∃ x ∈ s.sleepers ++ s.dirtyCopies, s.clockLimit lim = max s.clock x.2.2) := by
  obtain ⟨hle, hall, hmem⟩ := foldl_min_spec (f := fun x => max s.clock x.2.2) (l := s.sleepers ++ s.dirtyCopies) (a := lim)
  refine ⟨?_, hle, hall, fun h => hmem.resolve_left h.ne⟩
  obtain h | ⟨x, _, h⟩ := hmem
  · exact hlim.trans_eq h.symm
  · exact (le_max_left ..).trans_eq h.symm

theorem Split.release_waitEnded {p : Split} {ok : WaitCond → Bool} : WaitEnded ok p (p.release ok) := by
  unfold Split.release
  split
  · next c hst =>
    split
    · next h => exact ⟨rfl, .inl ⟨c, hst, h, rfl⟩⟩
    · next h => exact ⟨rfl, .inr (.inr ⟨rfl, by simp_all, by simp_all⟩)⟩
  · next c a hst =>
    split
    · next h => exact ⟨rfl, .inr (.inl ⟨c, a, hst, h, rfl⟩)⟩
    · next h => exact ⟨rfl, .inr (.inr ⟨rfl, by simp_all, by simp_all⟩)⟩
  · next hw hp => exact ⟨rfl, .inr (.inr ⟨rfl, fun c h => absurd h (hw c), fun c a h => absurd h (hp c a)⟩)⟩

theorem State.advance_group {s : State} {id : Nat} :
    s.advance.group id = (s.group id).map fun q => q.release (s.condHolds q) :=
  tabGet_mapEntries (f := fun _ (q : Group) => q.release (s.condHolds q)) (m := s.groups)

/-- The entry of a sleeping split in the list of those that must wake (R96). -/
def Split.wakeEntry (gid : Nat) (p : Split) : Option (Nat × Nat × Nat) :=
  match p.st with
  | .sleeping t => some (gid, p.slot, t + 64)
  | _ => none

theorem State.sleepers_eq (s : State) :
    s.sleepers = (s.groups.filter fun e => e.2.splitsRun).flatMap fun e => e.2.splits.filterMap fun p => p.wakeEntry e.1 :=
  rfl

/-- The end of a wait leaves a sleeping split asleep, and puts none to sleep. -/
theorem Split.wakeEntry_release {p : Split} {ok : WaitCond → Bool} {gid : Nat} :
    (p.release ok).wakeEntry gid = p.wakeEntry gid := by
  obtain ⟨slot, mask, pc, st, joins, held, safeAt⟩ := p
  cases st with
  | waiting w =>
    cases w with
    | cond c => by_cases h : ok c <;> simp [Split.release, Split.wakeEntry, h]
    | _ => rfl
  | parkedCont c a => by_cases h : ok c <;> simp [Split.release, Split.wakeEntry, h]
  | _ => rfl

theorem Group.release_splitsRun {g : Group} {ok : WaitCond → Bool} : (g.release ok).splitsRun = g.splitsRun := by
  simp [Group.release, Group.splitsRun]

theorem State.advance_sleepers {s : State} : s.advance.sleepers = s.sleepers := by
  have hg : s.advance.groups = s.groups.map fun e => (e.1, e.2.release (s.condHolds e.2)) := rfl
  rw [State.sleepers_eq, State.sleepers_eq, hg, List.filter_map, List.flatMap_map]
  simp only [Function.comp_def, Group.release_splitsRun]
  simp only [Group.release, List.filterMap_map, Function.comp_def, Split.wakeEntry_release]

theorem State.advance_dirtyCopies {s : State} : s.advance.dirtyCopies = s.dirtyCopies := rfl

theorem Group.release_splits_getElem? {g : Group} {ok : WaitCond → Bool} {i : Nat} {p r : Split} (hp : g.splits[i]? = some p)
    (hr : (g.release ok).splits[i]? = some r) : WaitEnded ok p r := by
  have : r = p.release ok := by simpa [Group.release, hp, eq_comm] using hr
  exact this ▸ Split.release_waitEnded

/-! ## Reading the code -/

section
variable {s : State} {gid : Nat} {g : Group} {p : Split} {a : DWord} {w : Nat}

theorem fetchWord_of_wordAt (h : WordAt s gid g a w) : fetchWord s (g.agent gid) a = .words [w] := by
  obtain ⟨hspace, pl, hcheck, rfl⟩ := h
  simp [fetchWord, hspace, hcheck]

/-- A word that may not be fetched, outside the global space or for what its check finds (R98). -/
theorem fetchWord_bad {c : Nat} (h : bits a.toNat 60 4 ≠ 0 ∧ c = 0x0B ∨
    bits a.toNat 60 4 = 0 ∧ ∃ rank, checkAddr s (g.agent gid) a.toNat 4 1 .fetch = .bad rank c) :
    fetchWord s (g.agent gid) a = .bad c a := by
  obtain ⟨hspace, rfl⟩ | ⟨hspace, rank, hcheck⟩ := h
  · simp [fetchWord, hspace]
  · simp [fetchWord, hspace, hcheck]

theorem fetchWord_wait {f : WaitFor} (hspace : bits a.toNat 60 4 = 0)
    (hcheck : checkAddr s (g.agent gid) a.toNat 4 1 .fetch = .wait f) : fetchWord s (g.agent gid) a = .wait f := by
  simp [fetchWord, hspace, hcheck]

theorem wordCount_eq_two : wordCount w = 2 ↔ isPrefixWord w = true ∨ isLimmWord w = true := by
  unfold wordCount
  rw [← Bool.or_eq_true]
  split <;> simp [*]

theorem fetch_of_codeAt {ws : List Nat} (h : CodeAt s gid g p ws) : fetch s gid g p = .words ws := by
  obtain ⟨w, hw, h⟩ := h
  unfold fetch
  simp only [fetchWord_of_wordAt hw]
  obtain ⟨hpre, hlimm, rfl⟩ | ⟨htwo, x, hx, rfl⟩ := h
  · simp [wordCount_eq_two, hpre, hlimm]
  · simp only [if_pos (wordCount_eq_two.2 htwo), fetchWord_of_wordAt hx]

/-- A fetch ends as its first word's does when that is no word, and else as the second one's that it needs. -/
theorem fetch_fails {f : Fetched} (ha : a = p.pc ∨ a = codeStep (s.textBase g) p.pc 4 ∧
      ∃ w, WordAt s gid g p.pc w ∧ (isPrefixWord w = true ∨ isLimmWord w = true))
    (hf : fetchWord s (g.agent gid) a = f) (hno : ∀ ws, f ≠ .words ws) : fetch s gid g p = f := by
  unfold fetch
  obtain rfl | ⟨rfl, w, hw, htwo⟩ := ha
  · rw [hf]
    cases f with
    | words ws => exact absurd rfl (hno ws)
    | _ => rfl
  · simp only [fetchWord_of_wordAt hw, if_pos (wordCount_eq_two.2 htwo), hf]
    cases f with
    | words ws => exact absurd rfl (hno ws)
    | _ => rfl

theorem fetchMarks_of_codeMarked {u : State} (h : CodeMarked s u gid g p) : s.fetchMarks gid g p = u := by
  obtain ⟨pl, hcheck, rfl⟩ := h
  simp [State.fetchMarks, hcheck]

/-! ## The issue of the group chosen -/

/-- The words that the group runs: those of the instruction that it holds, or those at its PC, after the marks of reading them. -/
theorem issueStep_of_words {ws : List Nat} {u : State} (hg : s.group gid = some g) (hp : g.issuing = some p)
    (h : p.held.map (·.words) = some ws ∧ u = s ∨ p.held = none ∧ CodeAt s gid g p ws ∧ CodeMarked s u gid g p) :
    issueStep s gid = runWords u gid g p ws := by
  unfold issueStep
  obtain ⟨hheld, rfl⟩ | ⟨hheld, hcode, hmarks⟩ := h
  · obtain ⟨held, hsome, rfl⟩ := Option.map_eq_some_iff.1 hheld
    simp only [hg, hp, hsome]
  · simp only [hg, hp, hheld, fetch_of_codeAt hcode, fetchMarks_of_codeMarked hmarks]

theorem issueStep_of_bad {c : Nat} (hg : s.group gid = some g) (hp : g.issuing = some p) (hheld : p.held = none)
    (hf : fetch s gid g p = .bad c a) : issueStep s gid = .next (s.takeTrap gid g p c a p.mask).issued := by
  unfold issueStep
  simp only [hg, hp, hheld, hf]

theorem issueStep_of_wait {f : WaitFor} (hg : s.group gid = some g) (hp : g.issuing = some p) (hheld : p.held = none)
    (hf : fetch s gid g p = .wait f) : issueStep s gid = .next (s.fetchWait gid f).issued := by
  unfold issueStep
  simp only [hg, hp, hheld, hf]

theorem State.fetchWait_stands {f : WaitFor} (hg : s.group gid = some g) (hp : g.issuing = some p) :
    ∃ k, s.fetchWait gid f = s.setGroup gid k ∧ Stands k g p f s.clock :=
  ⟨g.waitIn f s.clock, by simp [State.fetchWait, State.modGroup, hg], by simp [Stands, Group.waitIn, hp]⟩

end

theorem rejectCause_eq (r : DecodeReject) : rejectCause r = if r = .undefinedEncoding then 0x01 else 0x03 := by
  cases r <;> rfl

theorem step_of_cur {s : State} {gid : Nat} (hcur : s.cur = some gid) : step s = issueStep s.advance gid := by
  unfold step cycle
  simp only [State.advance_cur, hcur]

/-! ## The order of the other steps -/

theorem step_of_no_cur {s : State} (hcur : s.cur = none) :
    step s = match s.advance.overdue with
      | some i => exec i s.advance
      | none =>
        match s.inbox with
        | i :: r => exec i { s.advance with inbox := r }
        | [] =>
          match (if s.turn then nextInternal s.advance else none) with
          | some i => exec i { s.advance with turn := false, rota := s.advance.rota + 1 }
          | none => exec .issueSelect { s.advance with rota := if s.turn then s.advance.rota + 1 else s.advance.rota } := by
  unfold step cycle
  simp only [State.advance_cur, hcur, State.advance_inbox, State.advance_turn]
  rfl

theorem find?_exists {α : Type} {f : α → Bool} {l : List α} (h : ∃ x ∈ l, f x = true) :
    ∃ x ∈ l, f x = true ∧ l.find? f = some x := by
  obtain ⟨x, hx⟩ := Option.isSome_iff_exists.1 (List.find?_isSome.2 h)
  exact ⟨x, List.mem_of_find?_eq_some hx, List.find?_some hx, hx⟩

theorem State.overdue_of_sleeper {s : State} (h : ∃ x ∈ s.sleepers, x.2.2 ≤ s.clock) :
    ∃ x ∈ s.sleepers, x.2.2 ≤ s.clock ∧ s.overdue = some (.sleepExpire x.1 x.2.1) := by
  obtain ⟨x, hx, hdue, hfind⟩ := find?_exists (f := fun (x : Nat × Nat × Nat) => decide (x.2.2 ≤ s.clock))
    (by simpa only [decide_eq_true_eq] using h)
  exact ⟨x, hx, of_decide_eq_true hdue, by simp [State.overdue, hfind]⟩

theorem State.overdue_of_no_sleeper {s : State} (h : ∀ x ∈ s.sleepers, s.clock < x.2.2) :
    s.overdue = (s.dirtyCopies.find? fun x => x.2.2 ≤ s.clock).map fun x => .l1DirtyFlush x.1 x.2.1 := by
  have hnone : (s.sleepers.find? fun x => x.2.2 ≤ s.clock) = none := List.find?_eq_none.2 fun x hx => by simpa using h x hx
  simp [State.overdue, hnone]

theorem State.overdue_of_dirty {s : State} (hs : ∀ x ∈ s.sleepers, s.clock < x.2.2) (h : ∃ x ∈ s.dirtyCopies, x.2.2 ≤ s.clock) :
    ∃ x ∈ s.dirtyCopies, x.2.2 ≤ s.clock ∧ s.overdue = some (.l1DirtyFlush x.1 x.2.1) := by
  obtain ⟨x, hx, hdue, hfind⟩ := find?_exists (f := fun (x : Nat × Nat × Nat) => decide (x.2.2 ≤ s.clock))
    (by simpa only [decide_eq_true_eq] using h)
  exact ⟨x, hx, of_decide_eq_true hdue, by rw [State.overdue_of_no_sleeper hs, hfind]; rfl⟩

theorem State.overdue_none {s : State} (h : ∀ x ∈ s.sleepers ++ s.dirtyCopies, s.clock < x.2.2) : s.overdue = none := by
  have hnone : (s.dirtyCopies.find? fun x => x.2.2 ≤ s.clock) = none :=
    List.find?_eq_none.2 fun x hx => by simpa using h x (List.mem_append_right _ hx)
  simp [State.overdue_of_no_sleeper fun x hx => h x (List.mem_append_left _ hx), hnone]

/-! ## The choice among the machine's own steps -/

theorem State.enabled_iff {s : State} {i : Instr} : s.enabled i = true ↔ ∃ t, exec i s = .next t ∧ t ≠ s := by
  unfold State.enabled
  split
  · next t h => simp [h]
  · next h => simpa using fun t ht => absurd ht (h t)

theorem byTurn_exists {α : Type} {n : Nat} {l : List α} (h : l ≠ []) : ∃ a, byTurn n l = some a :=
  ⟨_, List.getElem?_eq_getElem (Nat.mod_lt _ (List.length_pos_of_ne_nil h))⟩

/-- A key of a table is found there. -/
theorem tabGet_of_mem {α : Type} {m : List (Nat × α)} {e : Nat × α} (h : e ∈ m) : ∃ x, tabGet m e.1 = some x := by
  induction m with
  | nil => cases h
  | cons y r ih =>
    unfold tabGet
    split
    · exact ⟨_, rfl⟩
    · next hne => exact ih ((List.mem_cons.1 h).resolve_left fun h => hne (h ▸ rfl))

/-- Of a nonempty list one entry comes no later than any other. -/
theorem exists_first {α : Type} {f : α → Nat} {l : List α} (h : l ≠ []) : ∃ a ∈ l, ∀ b ∈ l, f a ≤ f b := by
  induction l with
  | nil => exact absurd rfl h
  | cons y r ih =>
    by_cases hr : r = []
    · exact ⟨y, .head _, by simp [hr]⟩
    · obtain ⟨a, ha, hle⟩ := ih hr
      by_cases hy : f y ≤ f a
      · exact ⟨y, .head _, List.forall_mem_cons.2 ⟨le_rfl, fun b hb => hy.trans (hle b hb)⟩⟩
      · exact ⟨a, .tail _ ha, List.forall_mem_cons.2 ⟨by omega, hle⟩⟩

/-- Of the admissions that are enabled one has waited longest (R114, R127). -/
theorem State.admissions_ne_nil {s : State} {id : Nat} {x : Team} (hx : s.team id = some x) (hq : x.isQueued = true)
    (hm : x.member = 0) (hen : s.enabled (.teamAdmit id) = true) : s.admissions ≠ [] := by
  set es := s.teams.filter fun e => e.2.isQueued && e.2.member == 0 && s.enabled (.teamAdmit e.1) with hes
  have hne : es ≠ [] := List.ne_nil_of_mem (a := (id, x))
    (List.mem_filter.2 ⟨mem_of_tabGet hx, by simp [hq, hm, hen]⟩)
  obtain ⟨e, he, hfirst⟩ := exists_first (f := fun e => e.2.arrival) hne
  refine List.ne_nil_of_mem (a := .teamAdmit e.1) (List.mem_map.2 ⟨e, List.mem_filter.2 ⟨he, ?_⟩, rfl⟩)
  refine List.all_eq_true.2 fun y hy => ?_
  have := hfirst y hy
  simp [show ¬ y.2.arrival < e.2.arrival by omega]

/-- A pending step that changes the state is passed over for fifteen turns at most. -/
theorem nextInternal_of_turn {s : State} (hturn : s.rota % 16 = 15) (h : s.pending.filter s.enabled ≠ []) :
    ∃ i, nextInternal s = some i := by
  unfold nextInternal
  dsimp only
  rw [if_pos hturn]
  refine byTurn_exists ?_
  split
  · simp [h]
  · next hadm => exact fun hnil => hadm (by simp [hnil])

theorem nextInternal_of_admission {s : State} (hturn : s.rota % 16 = 15) (hrota : s.rota % 32 ≠ 31) (h : s.admissions ≠ []) :
    ∃ i ∈ s.admissions, nextInternal s = some i := by
  obtain ⟨i, hi⟩ := byTurn_exists (n := s.rota / 16) h
  refine ⟨i, byTurn_mem hi, ?_⟩
  unfold nextInternal
  dsimp only
  rw [if_pos hturn, if_neg (by simp [h, hrota]), hi]

/-! ## The four parts -/

theorem advance_ends_waits {s : State} :
    s.advance = { s with groups := s.advance.groups, tick := s.tick + 1, joint := false, clock := s.advance.clock } ∧
    (s.joint = true → s.advance.clock = s.clock) ∧
    (s.joint = false → s.clock ≤ s.advance.clock ∧ s.advance.clock ≤ s.clock + 1 + Config.stepCycles s.tick ∧
      (∀ x ∈ s.advance.sleepers ++ s.advance.dirtyCopies, s.advance.clock ≤ max s.clock x.2.2) ∧
      (s.advance.clock < s.clock + 1 + Config.stepCycles s.tick →
        ∃ x ∈ s.advance.sleepers ++ s.advance.dirtyCopies, s.advance.clock = max s.clock x.2.2)) ∧
    ∀ id : Nat, (s.group id = none → s.advance.group id = none) ∧
      ∀ q : Group, s.group id = some q → ∃ k, s.advance.group id = some k ∧
        k = { q with splits := k.splits, handler := k.handler } ∧ k.splits.length = q.splits.length ∧
        (∀ (i : Nat) (p r : Split), q.splits[i]? = some p → k.splits[i]? = some r → WaitEnded (s.condHolds q) p r) ∧
        (q.handler = none → k.handler = none) ∧
        ∀ h, q.handler = some h → ∃ r, k.handler = some { h with split := r } ∧ WaitEnded (s.condHolds q) h.split r := by
  refine ⟨rfl, fun h => if_pos h, fun h => ?_, fun id => ⟨fun h => by rw [State.advance_group, h]; rfl, fun q hq => ?_⟩⟩
  · have hclock : s.advance.clock = s.clockLimit (s.clock + 1 + Config.stepCycles s.tick) := if_neg (by simp [h])
    rw [State.advance_sleepers, State.advance_dirtyCopies, hclock]
    exact State.clockLimit_spec (by omega)
  · refine ⟨q.release (s.condHolds q), by rw [State.advance_group, hq]; rfl, rfl, by simp [Group.release],
      fun i p r => Group.release_splits_getElem?, fun h => by simp [Group.release, h], fun h hh => ?_⟩
    exact ⟨h.split.release (s.condHolds q), by simp [Group.release, hh], Split.release_waitEnded⟩

theorem nextInternal_spec {v : State} :
    (∀ i, nextInternal v = some i →
      (i ∈ v.pending ∨ ∃ id t, v.team id = some t ∧ i = .teamAdmit id) ∧ exec i v ≠ .next v) ∧
    (v.rota % 16 = 15 → (∃ i ∈ v.pending, ∃ t, exec i v = .next t ∧ t ≠ v) → (∃ i, nextInternal v = some i)) ∧
    (v.rota % 16 = 15 → v.rota % 32 ≠ 31 →
      (∃ id t, v.team id = some t ∧ t.isQueued = true ∧ t.member = 0 ∧ ∃ u, exec (.teamAdmit id) v = .next u ∧ u ≠ v) →
      ∃ id, nextInternal v = some (.teamAdmit id)) := by
  refine ⟨fun i hi => ?_, fun hturn ⟨i, hp, hen⟩ => ?_, fun hturn hrota ⟨id, x, hx, hq, hm, hen⟩ => ?_⟩
  · have changes : v.enabled i = true → exec i v ≠ .next v := fun h hv => by
      obtain ⟨t, ht, hne⟩ := State.enabled_iff.1 h
      cases ht.symm.trans hv
      exact hne rfl
    obtain h | h := mem_of_nextInternal hi
    · obtain ⟨hp, hen⟩ := List.mem_filter.1 h
      exact ⟨.inl hp, changes hen⟩
    · obtain ⟨e, he, rfl, hen⟩ := State.mem_admissions h
      obtain ⟨x, hx⟩ := tabGet_of_mem he
      exact ⟨.inr ⟨e.1, x, hx, rfl⟩, changes hen⟩
  · exact nextInternal_of_turn hturn (List.ne_nil_of_mem (List.mem_filter.2 ⟨hp, State.enabled_iff.2 hen⟩))
  · obtain ⟨i, hi, hnext⟩ := nextInternal_of_admission hturn hrota (State.admissions_ne_nil hx hq hm (State.enabled_iff.2 hen))
    obtain ⟨e, _, rfl, _⟩ := State.mem_admissions hi
    exact ⟨e.1, hnext⟩

/-- Settles O56, part by part. -/
theorem stepRunsDecoded : Obligations.StepRunsDecoded := by
  unfold Obligations.StepRunsDecoded
  refine ⟨?_, ?_, ?_, fun v => nextInternal_spec⟩
  · rintro s v rfl
    exact advance_ends_waits
  · rintro s v gid g p rfl hcur hg hp
    rw [step_of_cur hcur]
    refine ⟨fun ws u hw => ?_, fun hheld a ha => ⟨fun c t hc ht => ?_, fun f hspace hcheck => ?_⟩⟩
    · rw [issueStep_of_words hg hp hw]
      refine ⟨fun i t hdec hexec => ?_, fun r t hdec ht => ?_⟩
      · simp only [runWords, hdec, hexec]
        rfl
      · subst ht
        simp only [runWords, hdec, ← rejectCause_eq]
        rfl
    · subst ht
      exact issueStep_of_bad hg hp hheld (fetch_fails ha (fetchWord_bad hc) nofun)
    · obtain ⟨k, hk, hstands⟩ := State.fetchWait_stands (f := f) hg hp
      refine ⟨k, ?_, hstands⟩
      rw [issueStep_of_wait hg hp hheld (fetch_fails ha (fetchWord_wait hspace hcheck) nofun), hk]
      rfl
  · rintro s v rfl hcur
    rw [step_of_no_cur hcur]
    refine ⟨fun h => ?_, fun hs h => ?_, fun h => ?_⟩
    · obtain ⟨x, hx, hdue, hover⟩ := State.overdue_of_sleeper h
      exact ⟨x, hx, hdue, by rw [hover]⟩
    · obtain ⟨x, hx, hdue, hover⟩ := State.overdue_of_dirty hs h
      exact ⟨x, hx, hdue, by rw [hover]⟩
    · rw [State.overdue_none h]
      refine ⟨fun i r hin => by rw [hin], fun hin => ?_⟩
      rw [hin]
      refine ⟨fun i hturn hi => ?_, fun hturn hi => ?_, fun hturn => ?_⟩
      · simp only [hturn, if_true, hi]
      · simp only [hturn, if_true, hi]
      · simp only [hturn, Bool.false_eq_true, if_false]

end Sys2Proof.Machine
end

section
/-! # O53: the traps that instructions take before they have an effect

First what the entry of a trap makes of the state, then the traps of R58's list, the trap of a rounding operation, those of a
uniform load, and the checks of an address with their walks. -/
namespace Sys2Proof.Machine

/-! ## Bytes of the trap frame -/

theorem length_toBytes (n x : Nat) : (toBytes n x).length = n := by
  induction n generalizing x with
  | zero => rfl
  | succ n ih => simp [toBytes, ih]

theorem ofBytes_toBytes (n x : Nat) : ofBytes (toBytes n x) = x % 256 ^ n := by
  induction n generalizing x with
  | zero => simp [toBytes, ofBytes, Nat.mod_one]
  | succ n ih =>
    simp only [toBytes, ofBytes, ih, BitVec.toNat_ofNat]
    rw [show (256 : Nat) ^ (n + 1) = 256 * 256 ^ n from Nat.pow_succ']
    exact (Nat.mod_mul (a := 256)).symm

theorem toBytes_zero (n : Nat) : toBytes n 0 = List.replicate n 0 := by
  induction n with
  | zero => rfl
  | succ n ih => simp [toBytes, ih, List.replicate_succ]

/-- The `n` bytes from offset `off` of a list. -/
def slice (off n : Nat) (bs : List Byte) : List Byte := (bs.drop off).take n

theorem slice_append_right {a b : List Byte} {off n : Nat} : slice (a.length + off) n (a ++ b) = slice off n b := by
  simp [slice]

theorem slice_append_left {a b : List Byte} {off n : Nat} (h : off + n ≤ a.length) : slice off n (a ++ b) = slice off n a := by
  unfold slice
  rw [List.drop_append_of_le_length (by omega), List.take_append_of_le_length (by simp; omega)]

/-- A row of fields of one length: the field of a number. -/
theorem slice_flatMap_range {f : Nat → List Byte} {c m k : Nat} (hf : ∀ i, (f i).length = c) (hk : k < m) :
    slice (c * k) c ((List.range m).flatMap f) = f k := by
  induction m with
  | zero => omega
  | succ m ih =>
    have hlen : ((List.range m).flatMap f).length = c * m := by simp [List.length_flatMap, hf, Nat.mul_comm]
    rw [List.range_succ, List.flatMap_append]
    rcases Nat.lt_succ_iff_lt_or_eq.1 hk with h | rfl
    · rw [slice_append_left (by rw [hlen, ← Nat.mul_succ]; exact Nat.mul_le_mul_left c h), ih h]
    · have := slice_append_right (a := (List.range k).flatMap f) (b := [k].flatMap f) (off := 0) (n := c)
      rw [hlen, Nat.add_zero] at this
      rw [this]
      simp [slice, ← hf k]

theorem State.sbytes_setSbytes {s : State} {k off n : Nat} {bs : List Byte} (h : off + n ≤ bs.length) :
    (s.setSbytes k bs).sbytes (k + off) n = slice off n bs := by
  unfold State.sbytes slice
  induction n generalizing off with
  | zero => simp [upFrom]
  | succ n ih =>
    have hoff : off < bs.length := by omega
    rw [List.drop_eq_getElem_cons hoff, List.take_succ_cons, ← ih (by omega), upFrom, List.map_cons, State.sbyte_setSbytes,
      dif_pos ⟨by omega, by omega⟩, ← Nat.add_assoc]
    simp

/-- The registers of a trap frame (R382): the uniform ones and the predicates. -/
def frameRegs (g : Group) : List Byte :=
  ((List.range 64).flatMap fun n => toBytes 4 (g.frameReg n).toNat)
    ++ (List.range 8).flatMap fun n => toBytes 8 (g.pred n &&& maskBelow g.width).toNat

/-- The status words of a trap frame and what it says of the trap (R382). -/
def frameStatus (g : Group) (cause : Nat) (tpc tval tmask : DWord) : List Byte :=
  toBytes 4 g.modeWord.toNat ++ (toBytes 4 g.scc.toNat ++ (toBytes 4 g.flags.toNat ++ (toBytes 4 g.sig.toNat
    ++ (toBytes 4 g.msig.toNat ++ (toBytes 4 cause ++ (toBytes 8 tpc.toNat ++ (toBytes 8 tval.toNat ++ toBytes 8 tmask.toNat)))))))

theorem length_frameRegs (g : Group) : (frameRegs g).length = 0x140 := by
  simp [frameRegs, List.length_flatMap, length_toBytes]

section
variable {g : Group} {cause : Nat} {tpc tval tmask : DWord}

theorem length_frameStatus : (frameStatus g cause tpc tval tmask).length = 0x30 := by simp [frameStatus, length_toBytes]

theorem frameBytes_eq : frameBytes g cause tpc tval tmask =
    frameRegs g ++ (frameStatus g cause tpc tval tmask ++ toBytes 144 0) := by
  simp only [frameBytes, frameRegs, frameStatus, List.append_assoc]

theorem length_frameBytes : (frameBytes g cause tpc tval tmask).length = 512 := by
  simp [frameBytes_eq, length_frameRegs, length_frameStatus, length_toBytes]

theorem slice_frame_sreg {n : Nat} (hn : n < 64) :
    slice (4 * n) 4 (frameBytes g cause tpc tval tmask) = toBytes 4 (g.frameReg n).toNat := by
  rw [frameBytes_eq, slice_append_left (by rw [length_frameRegs]; omega), frameRegs,
    slice_append_left (by simp [List.length_flatMap, length_toBytes]; omega),
    slice_flatMap_range (fun _ => length_toBytes ..) hn]

theorem slice_frame_pred {n : Nat} (hn : n < 8) :
    slice (0x100 + 8 * n) 8 (frameBytes g cause tpc tval tmask) = toBytes 8 (g.pred n &&& maskBelow g.width).toNat := by
  rw [frameBytes_eq, slice_append_left (by rw [length_frameRegs]; omega), frameRegs]
  have hlen : ((List.range 64).flatMap fun n => toBytes 4 (g.frameReg n).toNat).length = 0x100 := by
    simp [List.length_flatMap, length_toBytes]
  rw [← hlen, slice_append_right, slice_flatMap_range (fun _ => length_toBytes ..) hn]

theorem slice_frame_status {off n : Nat} (h : off + n ≤ 0x30) :
    slice (0x140 + off) n (frameBytes g cause tpc tval tmask) = slice off n (frameStatus g cause tpc tval tmask) := by
  rw [frameBytes_eq, ← length_frameRegs g, slice_append_right, slice_append_left (by rw [length_frameStatus]; exact h)]

/-- The fields of the status words, by their offsets (R382). -/
theorem slice_frameStatus :
    slice 0 4 (frameStatus g cause tpc tval tmask) = toBytes 4 g.modeWord.toNat ∧
    slice 4 4 (frameStatus g cause tpc tval tmask) = toBytes 4 g.scc.toNat ∧
    slice 8 4 (frameStatus g cause tpc tval tmask) = toBytes 4 g.flags.toNat ∧
    slice 12 4 (frameStatus g cause tpc tval tmask) = toBytes 4 g.sig.toNat ∧
    slice 16 4 (frameStatus g cause tpc tval tmask) = toBytes 4 g.msig.toNat ∧
    slice 20 4 (frameStatus g cause tpc tval tmask) = toBytes 4 cause ∧
    slice 24 8 (frameStatus g cause tpc tval tmask) = toBytes 8 tpc.toNat ∧
    slice 32 8 (frameStatus g cause tpc tval tmask) = toBytes 8 tval.toNat ∧
    slice 40 8 (frameStatus g cause tpc tval tmask) = toBytes 8 tmask.toNat := by
  and_intros <;> rfl

end

/-! ## The entry of a trap -/

section
variable {s : State} {x : Part} {gid : Nat} {g : Group} {p : Split} {cause : Nat} {tval tmask : DWord}

/-- The group after the entry of a trap (R381). -/
def Group.trapped (g : Group) (p : Split) (cause : Nat) (tval tmask : DWord) (pc : DWord) (clock : Nat) : Group :=
  { g with tcause := BitVec.ofNat 32 cause, tpc := p.pc, tval := tval, tmask := tmask,
           mode := handlerMode g.mode, safeCount := 0, hwdog := 0,
           splits := g.splits.map fun q => if q.slot = p.slot then { q with held := none } else q,
           handler := some
             { split := { slot := 0, mask := p.mask, pc := pc, st := .current, joins := [], held := none, safeAt := none },
               trapSlot := p.slot, entered := clock } }

theorem State.enterTrap_eq : s.enterTrap x gid g p cause tval tmask =
    (s.setSbytes (frameKey x gid) (frameBytes g cause p.pc tval tmask)).setGroup gid
      (g.trapped p cause tval tmask (x.tba + BitVec.ofNat 64 (256 * cause)) s.clock) := rfl

theorem Group.trapped_splits {pc : DWord} {clock : Nat} :
    (g.trapped p cause tval tmask pc clock).splits.map (fun q => (q.slot, q.mask, q.pc, q.joins)) =
      g.splits.map (fun q => (q.slot, q.mask, q.pc, q.joins)) := by
  simp only [Group.trapped, List.map_map]
  refine List.map_congr_left fun q _ => ?_
  simp only [Function.comp_apply]
  split <;> rfl

theorem State.enterTrap_sbyte {a : Nat} : (s.enterTrap x gid g p cause tval tmask).sbyte a =
    (s.setSbytes (frameKey x gid) (frameBytes g cause p.pc tval tmask)).sbyte a := by
  unfold State.sbyte
  rw [State.enterTrap_eq, State.setGroup_spad]

/-- What the frame of a trap holds at an offset (R382). -/
theorem State.enterTrap_sbytes {off n : Nat} (h : off + n ≤ 512) :
    (s.enterTrap x gid g p cause tval tmask).sbytes (frameKey x gid + off) n =
      slice off n (frameBytes g cause p.pc tval tmask) := by
  have hbyte : (s.enterTrap x gid g p cause tval tmask).sbyte =
      (s.setSbytes (frameKey x gid) (frameBytes g cause p.pc tval tmask)).sbyte := funext fun _ => State.enterTrap_sbyte
  have := State.sbytes_setSbytes (s := s) (k := frameKey x gid) (bs := frameBytes g cause p.pc tval tmask)
    (h.trans_eq length_frameBytes.symm)
  unfold State.sbytes at this ⊢
  rw [hbyte, this]

theorem State.enterTrap_status {off n : Nat} (h : off + n ≤ 0x30) :
    (s.enterTrap x gid g p cause tval tmask).sbytes (frameKey x gid + (0x140 + off)) n =
      slice off n (frameStatus g cause p.pc tval tmask) := by
  rw [State.enterTrap_sbytes (by omega), slice_frame_status h]

theorem ofBytes_toBytes_word {n m : Nat} (h : m = 8 * n) {v : BitVec m} : ofBytes (toBytes n v.toNat) = v.toNat := by
  subst h
  rw [ofBytes_toBytes, Nat.mod_eq_of_lt]
  exact v.isLt.trans_eq (by rw [Nat.pow_mul])

theorem ofBytes_toBytes_lt {n v : Nat} (h : v < 256 ^ n) : ofBytes (toBytes n v) = v := by
  rw [ofBytes_toBytes, Nat.mod_eq_of_lt h]

theorem Group.frameReg_toNat (n : Nat) : (g.frameReg n).toNat = if n < g.sAlloc ∨ n = 62 then (g.sreg n).toNat else 0 := by
  unfold Group.frameReg
  simp only [Bool.or_eq_true, decide_eq_true_eq]
  split <;> rfl

/-- The entry of a trap leaves the group as R381 says, with its frame (R382). -/
theorem State.enterTrap_entered (hcause : cause < 2 ^ 32) :
    TrapEntered s (s.enterTrap x gid g p cause tval tmask) x gid g p cause tval tmask where
  group := by
    refine ⟨g.trapped p cause tval tmask (x.tba + BitVec.ofNat 64 (256 * cause)) s.clock, ?_, rfl, rfl, rfl, rfl, rfl, rfl, rfl,
      rfl, ⟨_, rfl, rfl, rfl, rfl, rfl⟩, rfl, rfl, rfl, rfl, rfl, rfl, rfl, rfl, rfl, rfl, rfl, rfl, Group.trapped_splits⟩
    rw [State.enterTrap_eq, State.group_setGroup, if_pos rfl]
  others id hid := by
    rw [State.enterTrap_eq, State.group_setGroup, if_neg hid]
    unfold State.group
    rw [State.setSbytes_groups]
  mem := by
    rw [State.enterTrap_eq, State.setGroup_mem, State.setSbytes_mem]
  sreg n hn := by
    rw [State.enterTrap_sbytes (by omega), slice_frame_sreg hn, ofBytes_toBytes_word rfl, Group.frameReg_toNat]
  pred n hn := by
    rw [Nat.add_assoc, State.enterTrap_sbytes (by omega), slice_frame_pred hn, ofBytes_toBytes_word rfl]
  status := by
    obtain ⟨hmode, hscc, hflags, hsig, hmsig, -⟩ := slice_frameStatus (g := g) (cause := cause) (tpc := p.pc) (tval := tval)
      (tmask := tmask)
    refine ⟨?_, ?_, ?_, ?_, ?_⟩
    · rw [State.enterTrap_status (off := 0) (by omega), hmode, ofBytes_toBytes_word rfl]
    · rw [State.enterTrap_status (off := 4) (by omega), hscc, ofBytes_toBytes_lt (by omega)]
    · rw [State.enterTrap_status (off := 8) (by omega), hflags, ofBytes_toBytes_lt (by omega)]
    · rw [State.enterTrap_status (off := 12) (by omega), hsig, ofBytes_toBytes_word rfl]
    · rw [State.enterTrap_status (off := 16) (by omega), hmsig, ofBytes_toBytes_word rfl]
  cause := by
    obtain ⟨-, -, -, -, -, hcz, hpc, hval, hmask⟩ := slice_frameStatus (g := g) (cause := cause) (tpc := p.pc) (tval := tval)
      (tmask := tmask)
    refine ⟨?_, ?_, ?_, ?_⟩
    · rw [State.enterTrap_status (off := 20) (by omega), hcz, ofBytes_toBytes_lt (by omega)]
    · rw [State.enterTrap_status (off := 24) (by omega), hpc, ofBytes_toBytes_word rfl]
    · rw [State.enterTrap_status (off := 32) (by omega), hval, ofBytes_toBytes_word rfl]
    · rw [State.enterTrap_status (off := 40) (by omega), hmask, ofBytes_toBytes_word rfl]
  zeros n hlow hhigh := by
    have hlen : (frameRegs g).length + (frameStatus g cause p.pc tval tmask).length ≤ n := by
      rw [length_frameRegs, length_frameStatus]; omega
    rw [State.enterTrap_sbyte, State.sbyte_setSbytes, dif_pos ⟨by omega, by rw [length_frameBytes]; omega⟩]
    simp only [frameBytes_eq, toBytes_zero]
    rw [List.getElem_append_right (by omega), List.getElem_append_right (by omega), List.getElem_replicate]
  spad k hk := by
    rw [State.enterTrap_sbyte, State.sbyte_setSbytes, dif_neg (by rw [length_frameBytes]; omega)]

/-- A trap outside a handler enters it, but for the causes that kill (R381, R393). -/
theorem State.takeTrap_outside (hx : Outside s g x) (hkill : cause ≠ 0x0F ∧ cause ≠ 0x10 ∧ cause ≠ 0x17) :
    s.takeTrap gid g p cause tval tmask = s.enterTrap x gid g p cause tval tmask := by
  obtain ⟨hh, hp⟩ := hx
  unfold State.takeTrap
  simp only [hh, hp]
  rw [if_neg (by tauto)]

theorem State.takeTrap_entered (hx : Outside s g x) (hcause : cause < 2 ^ 32 ∧ cause ≠ 0x0F ∧ cause ≠ 0x10 ∧ cause ≠ 0x17) :
    TrapEntered s (s.takeTrap gid g p cause tval tmask) x gid g p cause tval tmask := by
  rw [State.takeTrap_outside hx hcause.2]
  exact State.enterTrap_entered hcause.1

/-- Any trap in a handler kills (R381). -/
theorem State.takeTrap_handler (hh : g.handler ≠ none) :
    s.takeTrap gid g p cause tval tmask = s.killGroup gid cause true p.pc tval := by
  unfold State.takeTrap
  split
  · next h _ => exact absurd h hh
  · rfl
  · next h _ => exact absurd h hh

end

end Sys2Proof.Machine
end

section
/-! ## The traps of R58's list -/
namespace Sys2Proof.Machine

theorem wordsTval_eq (ws : List Nat) : wordsTval ws = tvalWords (ws.getD 0 0) (ws.getD 1 0) := by
  match ws with
  | [] => rfl
  | [a] => simp [wordsTval, tvalWords]
  | a :: b :: r => simp [wordsTval, tvalWords, Nat.mul_comm]

/-! The first condition of R58 that an instruction meets. -/
section
variable {g : Group} {sp : Spec}

theorem Group.r58_misused (hill : sp.ill = false) (hmis : sp.misuse = true) : g.r58 sp = some 0x03 := by
  simp [Group.r58, hill, hmis]

theorem Group.r58_privileged (hill : sp.ill = false) (hmis : sp.misuse = false) (hpriv : sp.privileged = true)
    (hg : g.priv = false) : g.r58 sp = some 0x02 := by
  simp [Group.r58, hill, hmis, hpriv, hg]

theorem Group.r58_role {r : Role} (hill : sp.ill = false) (hmis : sp.misuse = false) (hro : sp.readOnly = false)
    (hpriv : sp.privileged = false) (hrole : sp.role = some r) (hg : g.role ≠ r) : g.r58 sp = some 0x15 := by
  simp [Group.r58, hill, hmis, hro, hpriv, hrole, hg.symm]

theorem Group.r58_beyond (hill : sp.ill = false) (hmis : sp.misuse = false) (hro : sp.readOnly = false)
    (hpriv : sp.privileged = false) (hrole : sp.role = none) (hbad : sp.roleBad = false) (hb : g.beyond sp = true) :
    g.r58 sp = some 0x14 := by
  simp [Group.r58, hill, hmis, hro, hpriv, hrole, hbad, hb]

theorem Group.beyond_of_vNamed (h : ¬g.HasV sp.vNamed) : g.beyond sp = true := by
  unfold Group.HasV at h
  push Not at h
  obtain ⟨r, hr, hle⟩ := h
  have : sp.vNamed.any (fun n => decide (g.vAlloc ≤ n)) = true := List.any_eq_true.2 ⟨r, hr, decide_eq_true hle⟩
  simp [Group.beyond, this]

theorem Group.beyond_of_sNamed (h : ¬g.HasS sp.sNamed) : g.beyond sp = true := by
  unfold Group.HasS at h
  push Not at h
  obtain ⟨r, hr, hle, h62, h63⟩ := h
  have : sp.sNamed.any (fun n => decide ((if g.handler.isSome then 56 else g.sAlloc) ≤ n) && n != 62 && n != 63) = true :=
    List.any_eq_true.2 ⟨r, hr, by simp only [Bool.and_eq_true, decide_eq_true_eq, bne_iff_ne]; exact ⟨⟨hle, h62⟩, h63⟩⟩
  simp only [Group.beyond, this, Bool.or_true, Bool.true_or]

end

/-! An instruction stopped by the list takes its trap, with its words in TVAL. -/
section
variable {s : State} {gid : Nat} {g : Group} {p : Split} {i : Instr} {sp : Group → Split → Spec} {body : Env → Res} {c : Nat}

theorem exec_traps_unmasked (hr : Ready s gid g p) (hi : exec i s = issue sp body s) (hwords : (sp g p).words = encode i)
    (h58 : g.r58 (sp g p) = some c) (hmask : (sp g p).mask = .none ∨ (sp g p).misuse = true) :
    exec i s = .next (s.takeTrap gid g p c (tvalOf i) p.mask) := by
  rw [hi, issue_traps hr.cur hr.group hr.issuing hr.fresh sp body c h58, wordsTval_eq, hwords]
  split
  · rfl
  · next hne => rw [hmask.resolve_left hne, Bool.or_true, if_pos rfl]; rfl

theorem exec_traps_masked {m : MaskSel} (hr : Ready s gid g p) (hi : exec i s = issue sp body s)
    (hwords : (sp g p).words = encode i) (h58 : g.r58 (sp g p) = some c) (hmask : (sp g p).mask = m) (hm : m ≠ .none)
    (hill : (sp g p).ill = false) (hmis : (sp g p).misuse = false) :
    exec i s = .next (s.takeTrap gid g p c (tvalOf i) (g.activeMask p.mask m)) := by
  rw [hi, issue_traps hr.cur hr.group hr.issuing hr.fresh sp body c h58, wordsTval_eq, hwords, hill, hmis]
  subst hmask
  split
  · next h => exact absurd h hm
  · rfl

end

/-! The words of an instruction, by the kind of PREFIX word that it takes. -/

theorem encode_alu {i : Instr} {w : Nat} {px : Option AluPx} (hm : ∀ f, i ≠ .movi f) (hw : encodeWord i = some w)
    (hx : encodePx i = px.map aluPxWord) : encode i = aluWords px w := by
  rw [encode_eq hm hw, hx]
  cases px <;> rfl

theorem encode_mem {i : Instr} {w : Nat} {px : Option MemPx} (hm : ∀ f, i ≠ .movi f) (hw : encodeWord i = some w)
    (hx : encodePx i = px.map memPxWord) : encode i = memWords px w := by
  rw [encode_eq hm hw, hx]
  cases px <;> rfl

theorem encode_plain {i : Instr} {w : Nat} (hm : ∀ f, i ≠ .movi f) (hw : encodeWord i = some w) (hx : encodePx i = none) :
    encode i = [w] := by
  rw [encode_eq hm hw, hx]
  rfl

/-! ### Privileged instructions -/

/-- A privileged instruction's checks: nothing of R58 comes before its privilege, and it has no mask. -/
theorem privileged_spec {i : Instr} (h : Privileged i) : ∃ (sp : Group → Split → Spec) (body : Env → Res),
    (∀ s, exec i s = issue sp body s) ∧ ∀ g p, (sp g p).words = encode i ∧ (sp g p).ill = false ∧ (sp g p).misuse = false ∧
      (sp g p).privileged = true ∧ (sp g p).mask = .none := by
  cases i with
  | psrd f =>
    exact ⟨_, _, fun _ => rfl, fun _ _ => ⟨rfl, by simpa [Privileged] using h, rfl, rfl, rfl⟩⟩
  | pswr f =>
    exact ⟨_, _, fun _ => rfl, fun _ _ => ⟨rfl, by simpa [Privileged] using h, rfl, rfl, rfl⟩⟩
  | ovtld | rfe | rfeNext | rfePark | ctxsv | ctxld | pgmap | pgpoolAdd | pgpoolRem | pgpoolCnt | keyld | halt | dupset | sigset
    | killg => exact ⟨_, _, fun _ => rfl, fun _ _ => ⟨rfl, rfl, rfl, rfl, rfl⟩⟩
  | rresume f | rresumeFail f | rankmap f | rankmapRd f =>
    exact ⟨_, _, fun _ => rfl, fun _ _ => ⟨(encode_mem (fun _ h => by cases h) rfl rfl).symm, rfl, h, rfl, rfl⟩⟩
  | _ => exact h.elim

theorem privileged_traps {i : Instr} (hi : Privileged i) {s : State} {gid : Nat} {g : Group} {p : Split} (hr : Ready s gid g p)
    {x : Part} (hx : Outside s g x) (hteam : g.team ≠ none) :
    ∃ t, exec i s = .next t ∧ TrapEntered s t x gid g p 0x02 (tvalOf i) p.mask := by
  obtain ⟨sp, body, hexec, hsp⟩ := privileged_spec hi
  obtain ⟨hwords, hill, hmis, hpriv, hmask⟩ := hsp g p
  have hg : g.priv = false := by simpa [Group.priv, hx.1, Option.isSome_iff_ne_none] using hteam
  exact ⟨_, exec_traps_unmasked hr (hexec s) hwords (Group.r58_privileged hill hmis hpriv hg) (.inl hmask),
    State.takeTrap_entered hx (by decide)⟩

/-! ### Integer instructions -/

theorem elementOps_form : ∀ e ∈ elementOps, ∃ (base : Nat) (op : (w : Nat) → Bool → BitVec w → BitVec w → BitVec w),
    ∀ f, encode (e.1 f) = aluWords f.px (packV3 base f) ∧ ∀ s, exec (e.1 f) s = intV3 base f op s := by
  unfold elementOps
  simp only [List.forall_mem_cons, List.not_mem_nil, false_implies, implies_true, and_true]
  and_intros <;> exact ⟨_, _, fun f => ⟨encode_alu nofun rfl rfl, fun _ => rfl⟩⟩

theorem uniformOps_form : ∀ e ∈ uniformOps, ∃ (base : Nat) (op : Word → Word → Word),
    ∀ f, encode (e.1 f) = [packS3 base f] ∧ ∀ s, exec (e.1 f) s = uniBin base f op s := by
  unfold uniformOps
  simp only [List.forall_mem_cons, List.not_mem_nil, false_implies, implies_true, and_true]
  and_intros <;> exact ⟨_, _, fun f => ⟨encode_plain nofun rfl rfl, fun _ => rfl⟩⟩

theorem sfuOps_form : ∀ e ∈ sfuOps, ∃ (base : Nat) (fn : SfuFn),
    ∀ f, encode (e.1 f) = aluWords f.px (packSfu base f) ∧ ∀ s, exec (e.1 f) s = sfuExec base f fn s := by
  unfold sfuOps
  simp only [List.forall_mem_cons, List.not_mem_nil, false_implies, implies_true, and_true]
  and_intros <;> exact ⟨_, _, fun f => ⟨encode_alu nofun rfl rfl, fun _ => rfl⟩⟩

section
variable {s : State} {gid : Nat} {g : Group} {p : Split}

/-- A trap of an instruction outside a handler and in one (R381). -/
theorem traps_both {i : Instr} {c : Nat} {tmask : DWord} (hc : c < 2 ^ 32 ∧ c ≠ 0x0F ∧ c ≠ 0x10 ∧ c ≠ 0x17)
    (h : exec i s = .next (s.takeTrap gid g p c (tvalOf i) tmask)) :
    (∀ x, Outside s g x → ∃ t, exec i s = .next t ∧ TrapEntered s t x gid g p c (tvalOf i) tmask) ∧
    (g.handler ≠ none → exec i s = .next (s.killGroup gid c true p.pc (tvalOf i))) :=
  ⟨fun _ hx => ⟨_, h, State.takeTrap_entered hx hc⟩, fun hh => h.trans (congrArg _ (State.takeTrap_handler hh))⟩

theorem elementOp_beyond_traps {e} (he : e ∈ elementOps) {f : V3} (hr : Ready s gid g p) (hpx : f.px = none)
    (hv : ¬g.HasV [f.vd.toNat, f.va.toNat, f.vb.toNat]) :
    exec (e.1 f) s = .next (s.takeTrap gid g p 0x14 (tvalOf (e.1 f)) (g.activeMask p.mask .guard)) := by
  obtain ⟨base, op, hform⟩ := elementOps_form e he
  obtain ⟨henc, hexec⟩ := hform f
  have hmis : intMisuse f.px false = false := by rw [hpx]; rfl
  exact exec_traps_masked hr (hexec s) henc.symm
    (Group.r58_beyond rfl hmis rfl rfl rfl rfl (Group.beyond_of_vNamed hv)) (by rw [hpx]; rfl) nofun rfl hmis

theorem elementOp_misused_traps {e} (he : e ∈ elementOps) {f : V3} (hr : Ready s gid g p) (hpx : pxRnd f.px ≠ 0 ∨ pxXw f.px ≠ 0) :
    exec (e.1 f) s = .next (s.takeTrap gid g p 0x03 (tvalOf (e.1 f)) p.mask) := by
  obtain ⟨base, op, hform⟩ := elementOps_form e he
  obtain ⟨henc, hexec⟩ := hform f
  have hmis : intMisuse f.px false = true := by simp [intMisuse, hpx]
  exact exec_traps_unmasked hr (hexec s) henc.symm (Group.r58_misused rfl hmis) (.inr hmis)

theorem uniformOp_beyond_traps {e} (he : e ∈ uniformOps) {f : S3} (hr : Ready s gid g p) (hs : ¬g.HasS [f.sd.toNat, f.sa.toNat]) :
    exec (e.1 f) s = .next (s.takeTrap gid g p 0x14 (tvalOf (e.1 f)) p.mask) := by
  obtain ⟨base, op, hform⟩ := uniformOps_form e he
  obtain ⟨henc, hexec⟩ := hform f
  have hnamed : ¬g.HasS (f.sd.toNat :: f.sa.toNat :: ssrcNamed f.src) := fun h => hs fun r hr => h r (by
    simp only [List.mem_cons, List.not_mem_nil, or_false] at hr ⊢
    tauto)
  exact exec_traps_unmasked hr (hexec s) henc.symm
    (Group.r58_beyond rfl rfl rfl rfl rfl rfl (Group.beyond_of_sNamed hnamed)) (.inl rfl)

theorem sfuOp_role_traps {e} (he : e ∈ sfuOps) {f : Sfu} (hr : Ready s gid g p) (hpx : f.px = none) (hrole : g.role ≠ .vector) :
    exec (e.1 f) s = .next (s.takeTrap gid g p 0x15 (tvalOf (e.1 f)) (g.activeMask p.mask .guard)) := by
  obtain ⟨base, fn, hform⟩ := sfuOps_form e he
  obtain ⟨henc, hexec⟩ := hform f
  have hmis : (fpMisuse f.px false false || (pxType f.px != 0 && !arithType (pxType f.px))) = false := by rw [hpx]; rfl
  exact exec_traps_masked hr (hexec s) henc.symm (Group.r58_role rfl hmis rfl rfl rfl hrole) (by rw [hpx]; rfl) nofun rfl hmis

end

end Sys2Proof.Machine
end

section
/-! ## The trap of an operation that rounds -/
namespace Sys2Proof.Machine

section
variable {s : State} {gid : Nat} {g : Group} {p : Split} {sp : Group → Split → Spec} {body : Env → Res} {c : Nat} {tval : DWord}

/-- A meaning that ends in a trap leaves nothing of its issue (R58). -/
theorem issue_body_traps {tmask : DWord} (hr : Ready s gid g p) (h58 : g.r58 (sp g p) = none) (hw : (sp g p).widthIll = false)
    (hbody : body (envOf s gid g p (sp g p)) = .trap c tval (some tmask)) :
    issue sp body s = .next (s.takeTrap gid g p c tval tmask) := by
  rw [issue_ready hr sp body h58 hw, hbody]
  rfl

/-- The trap of a meaning that gives no TMASK has the Active lanes there (R58). -/
theorem issue_body_traps_active {m : MaskSel} (hr : Ready s gid g p) (h58 : g.r58 (sp g p) = none)
    (hw : (sp g p).widthIll = false) (hmask : (sp g p).mask = m) (hm : m ≠ .none)
    (hbody : body (envOf s gid g p (sp g p)) = .trap c tval none) :
    issue sp body s = .next (s.takeTrap gid g p c tval (g.activeMask p.mask m)) := by
  rw [issue_ready hr sp body h58 hw, hbody]
  unfold State.finish State.ended
  simp only [envOf_resumed, Bool.false_eq_true, if_false, Option.getD_none, hmask]

end

/-- The lowest lane of a mask that satisfies a condition is the first found. -/
theorem find?_lanesOf {act : DWord} {q : Nat → Bool} {l : Nat} (hl : l < 64) (hact : inMask act l = true) (hq : q l = true)
    (hfirst : ∀ i < l, inMask act i = true → q i = false) : (lanesOf act).find? q = some l := by
  rw [lanesOf, List.find?_filter, show laneList = List.range 64 from rfl, List.find?_range_eq_some]
  refine ⟨by simp [hact, hq], by simpa using hl, fun i hi => ?_⟩
  cases ha : inMask act i with
  | false => simp
  | true => simp [hfirst i hi ha]

/-- The flags that the lanes of a mask raise together (R175). -/
def lanesRaise (act : DWord) (fl : Nat → FFlags) : FFlags := (lanesOf act).foldl (fun (a : FFlags) i => a ||| fl i) 0

theorem lanesRaise_iff {act : DWord} {fl : Nat → FFlags} {b : Nat} :
    (lanesRaise act fl).getLsbD b = true ↔ ∃ i < 64, inMask act i = true ∧ (fl i).getLsbD b = true := by
  simp [lanesRaise, orAll_spec, and_assoc]

/-- An enabled exception traps, with the lowest lane that raises one (R176). -/
theorem flagged_traps {e : Env} {act : DWord} {fl : Nat → FFlags} {l : Nat} {g : Group} (hl : l < 64) (hact : inMask act l = true)
    (hraise : fl l &&& BitVec.ofNat 7 e.g.mFpxe ≠ 0)
    (hfirst : ∀ i < l, inMask act i = true → fl i &&& BitVec.ofNat 7 e.g.mFpxe = 0) :
    e.flagged ((lanesOf act).map fun i => (i, fl i)) g =
      .trap 0x11 (BitVec.ofNat 64 ((lanesRaise act fl &&& BitVec.ofNat 7 e.g.mFpxe).toNat + 2 ^ 16 * l)) none := by
  have hfind : (lanesOf act).find? (fun i => fl i &&& BitVec.ofNat 7 e.g.mFpxe != 0) = some l :=
    find?_lanesOf hl hact (by simpa using hraise) fun i hi ha => by simp [hfirst i hi ha]
  unfold Env.flagged lanesRaise
  simp only [List.find?_map, Function.comp_def, hfind, Option.map_some, List.foldl_map]

/-- The same for a floating-point instruction of a ready group. -/
theorem fpWrite_traps {s : State} {gid : Nat} {g : Group} {p : Split} {sp : Spec} {px : Option AluPx} {vd l : Nat}
    {w : Nat → Word × FFlags} (hmask : sp.mask = aluMask px) (hl : l < 64)
    (hact : inMask (g.activeMask p.mask (aluMask px)) l = true) (hraise : (w l).2 &&& BitVec.ofNat 7 g.mFpxe ≠ 0)
    (hfirst : ∀ i < l, inMask (g.activeMask p.mask (aluMask px)) i = true → (w i).2 &&& BitVec.ofNat 7 g.mFpxe = 0) :
    (envOf s gid g p sp).fpWrite px vd w = .trap 0x11 (BitVec.ofNat 64
      ((lanesRaise (g.activeMask p.mask (aluMask px)) (fun i => (w i).2) &&& BitVec.ofNat 7 g.mFpxe).toNat + 2 ^ 16 * l)) none := by
  unfold Env.fpWrite
  simp only [envOf_active, hmask, List.map_map, Function.comp_def]
  refine (flagged_traps hl hact ?_ ?_).trans ?_ <;> rw [envOf_g, issuer_mFpxe]
  · exact hraise
  · exact hfirst

theorem bit_eq_testBit (x n : Nat) : bit x n = x.testBit n := by
  rw [bit, Nat.testBit_eq_decide_div_mod_eq]
  rfl

/-- The enabled exceptions among those raised, bit by bit. -/
theorem bit_raised_iff {fl : FFlags} {m b : Nat} (hb : b < 7) :
    bit (fl &&& BitVec.ofNat 7 m).toNat b = true ↔ bit m b = true ∧ fl.getLsbD b = true := by
  rw [bit_eq_testBit, bit_eq_testBit, ← BitVec.getLsbD, BitVec.getLsbD_and, BitVec.getLsbD_ofNat]
  simp [hb, and_comm]

theorem Group.Rounds.not_misused {g : Group} {px : Option AluPx} (h : g.Rounds px) : fpMisuse px true false = false := by
  obtain ⟨hxw, hrand, -⟩ := h
  by_cases h6 : pxRnd px = 6 <;> simp_all [fpMisuse]

theorem aluMask_ne_none (px : Option AluPx) : aluMask px ≠ .none := by
  unfold aluMask maskSel
  split
  · split <;> nofun
  · nofun

theorem roundedOps_form : ∀ e ∈ roundedOps, ∃ base : Nat, ∀ f s, exec (e.1 f) s = fpV3 base f true false e.2.2 s := by
  unfold roundedOps
  simp only [List.forall_mem_cons, List.not_mem_nil, false_implies, implies_true, and_true]
  and_intros <;> exact ⟨_, fun _ _ => rfl⟩

theorem roundedOp_traps {e} (he : e ∈ roundedOps) {s : State} {gid : Nat} {g : Group} {p : Split} {f : V3} {l : Nat}
    {w : Nat → Word × FFlags} (hr : Ready s gid g p) (hrole : g.role = .vector)
    (hv : g.HasV ([f.vd.toNat, f.va.toNat, f.vb.toNat] ++ fourthV f.px 1)) (hs : g.HasS (fourthS f.px)) (hrounds : g.Rounds f.px)
    (ht : arithType (g.effType f.px) = true)
    (hw : w = fun i => g.floatWord f.px false e.2.2 (g.randWord f.px i) (g.vreg f.va.toNat i) (g.vreg f.vb.toNat i) 0)
    (hl : l < 64) (hact : inMask (g.activeMask p.mask (aluMask f.px)) l = true)
    (hraise : (w l).2 &&& BitVec.ofNat 7 g.mFpxe ≠ 0)
    (hfirst : ∀ i < l, inMask (g.activeMask p.mask (aluMask f.px)) i = true → (w i).2 &&& BitVec.ofNat 7 g.mFpxe = 0) :
    exec (e.1 f) s = .next (s.takeTrap gid g p 0x11
      (BitVec.ofNat 64 ((lanesRaise (g.activeMask p.mask (aluMask f.px)) (fun i => (w i).2) &&& BitVec.ofNat 7 g.mFpxe).toNat
        + 2 ^ 16 * l)) (g.activeMask p.mask (aluMask f.px))) := by
  obtain ⟨base, hexec⟩ := roundedOps_form e he
  rw [hexec]
  refine issue_body_traps_active hr
    (r58_fpSpec _ _ _ _ _ _ _ _ _ _ _ hrole hv hs ht hrounds.not_misused fun _ => hrounds.2.2) rfl rfl (aluMask_ne_none _) ?_
  refine (congrArg (Env.fpWrite _ f.px f.vd.toNat) (funext fun i => ?_)).trans (fpWrite_traps rfl hl hact hraise hfirst)
  rw [hw, envOf_fpLane _ _ _ _ _ _ _ _ _ _ _ _ ht, envOf_v, issuer_vreg, issuer_vreg]

end Sys2Proof.Machine
end

section
/-! ## The traps and the waits of a uniform load -/
namespace Sys2Proof.Machine

/-! ### A check reads nothing of the groups -/
section
variable {s : State} {gid : Nat} {k : Group}

theorem walkFrom_setGroup {x : Part} {va n base : Nat} {w : Walk} :
    walkFrom (s.setGroup gid k) x va n base w = walkFrom s x va n base w := by
  induction n generalizing base w with
  | zero => rfl
  | succ n ih =>
    unfold walkFrom
    dsimp only
    rw [ih]
    rfl

theorem walk_setGroup {x : Part} {va : Nat} : walk (s.setGroup gid k) x va = walk s x va := by
  unfold walk
  dsimp only
  rw [walkFrom_setGroup]

theorem translate_setGroup {x : Part} {ag : Agent} {va : Nat} : translate (s.setGroup gid k) x ag va = translate s x ag va := by
  unfold translate
  rw [walk_setGroup]
  rfl

theorem checkGlobal_setGroup {ag : Agent} {a : Nat} {acc : Acc} :
    checkGlobal (s.setGroup gid k) ag a acc = checkGlobal s ag a acc := by
  unfold checkGlobal
  simp only [translate_setGroup]
  rfl

theorem checkAddr_setGroup {ag : Agent} {a z al : Nat} {acc : Acc} :
    checkAddr (s.setGroup gid k) ag a z al acc = checkAddr s ag a z al acc := by
  unfold checkAddr
  simp only [checkGlobal_setGroup]
  rfl

end

theorem issuer_agent {s : State} {gid : Nat} {g : Group} {p : Split} {sp : Spec} : (issuer s g p sp).agent gid = g.agent gid := by
  have hh : (issuer s g p sp).handler.isSome = g.handler.isSome := by
    unfold issuer Group.setIssuing Group.account
    cases g.handler <;> rfl
  simp [Group.agent, Group.priv, hh]

/-! ### The causes that a check finds -/

theorem checkWindow_cause {s : State} {x : Part} {a r c : Nat} (h : checkWindow s x a = .bad r c) : c < 2 ^ 32 := by
  unfold checkWindow at h
  dsimp only at h
  split_ifs at h <;> cases h <;> decide

theorem checkGlobal_cause {s : State} {ag : Agent} {a r c : Nat} {acc : Acc} (h : checkGlobal s ag a acc = .bad r c) :
    c < 2 ^ 32 := by
  unfold checkGlobal at h
  split at h
  · cases h; decide
  · split at h
    · exact checkWindow_cause h
    · dsimp only at h
      split at h
      · cases h; decide
      · cases h
      · cases h
      · cases h; decide
      · cases h; decide
      · cases h; decide
      · split at h
        · cases h; decide
        · split at h
          · cases h; decide
          · split at h
            · cases h
            · split at h <;> cases h
              decide

theorem checkAddr_cause {s : State} {ag : Agent} {a z al r c : Nat} {acc : Acc} (h : checkAddr s ag a z al acc = .bad r c) :
    c < 2 ^ 32 := by
  unfold checkAddr at h
  dsimp only at h
  split at h
  · split_ifs at h
    · cases h; decide
    · cases h; decide
    · cases h; decide
    · exact checkGlobal_cause h
  · split_ifs at h
    · cases h; decide
    · cases h; decide
    · split at h
      · cases h; decide
      · split at h <;> cases h
        decide
  · split_ifs at h
    · cases h; decide
    · cases h; decide
    · split at h
      · cases h; decide
      · split at h <;> cases h
        decide
  · split_ifs at h
    · cases h; decide
    · cases h; decide
    · split at h
      · cases h; decide
      · split_ifs at h <;> cases h <;> decide
    · split at h
      · cases h; decide
      · split_ifs at h <;> cases h <;> decide
  · cases h; decide

/-! ### The one access of a uniform instruction -/
section
variable {e : Env} {acc : Acc} {m : DWord} {a : LaneAcc}

theorem firstBad_one_bad {ok : Nat → Bool} {r c : Nat} :
    firstBad ok [(a, .bad r c)] (some m) = if ok r then some (.trap c (BitVec.ofNat 64 a.addr) (some m)) else none := by
  unfold firstBad
  cases hok : ok r <;> simp [Check.badness, Option.filter, hok]

theorem firstBad_one_none {ok : Nat → Bool} {c : Check} (h : c.badness = none) : firstBad ok [(a, c)] (some m) = none := by
  unfold firstBad
  simp [h]

theorem checkAll_one_bad {r c : Nat} (h : checkAddr e.s (e.g.agent e.gid) a.addr a.size a.align acc = .bad r c) :
    e.checkAll acc (some m) [a] = .error (.trap c (BitVec.ofNat 64 a.addr) (some m)) := by
  unfold Env.checkAll
  by_cases hr : r < rankMalformed <;> simp [Env.checked, h, firstBad_one_bad, hr]

theorem checkAll_one_wait {w : WaitFor} (h : checkAddr e.s (e.g.agent e.gid) a.addr a.size a.align acc = .wait w) :
    e.checkAll acc (some m) [a] = .error (.block e.s w e.marker) := by
  unfold Env.checkAll
  simp [Env.checked, h, firstBad_one_none (c := .wait w) rfl]

theorem checkAll_one_conflict {pl : Place} (h : checkAddr e.s (e.g.agent e.gid) a.addr a.size a.align acc = .ok pl)
    (hc : e.s.rangeConflict (e.g.agent e.gid) a pl acc.writes = true) :
    e.checkAll acc (some m) [a] = .error (.trap 0x07 (BitVec.ofNat 64 a.addr) (some m)) := by
  unfold Env.checkAll
  simp [Env.checked, h, firstBad_one_none (c := .ok pl) rfl, hc]

theorem load_of_error {att : BitVec 2} {as : List LaneAcc} {dests : List Nat → List DestWord} {r : Res}
    (h : e.checkAll .read (some m) as = .error r) : e.load att (some m) as dests = r := by
  unfold Env.load Env.access
  rw [h]

end

/-! ### A wait in an instruction -/

theorem Group.charged_congr {g a b : Group} (h : b.sig = a.sig ∧ b.nominal = a.nominal ∧ b.safeCount = a.safeCount ∧
    b.issuesInTurn = a.issuesInTurn ∧ b.lastIssue = a.lastIssue ∧ b.lastPc = a.lastPc ∧ b.stallUntil = a.stallUntil ∧
    b.producers = a.producers) : g.charged b = g.charged a := by
  obtain ⟨h1, h2, h3, h4, h5, h6, h7, h8⟩ := h
  simp only [Group.charged, h1, h2, h3, h4, h5, h6, h7, h8]

/-- A group that differs from `g` by the account of an issue and by its waiting split is as `Waits` says. -/
theorem Group.eq_charged_waiting {g i k : Group} {q : Split} {ps : List Producer} {clock : Nat}
    (hk : k = { ({ g.charged i with producers := ps } : Group).setIssuing q with blockedSince := clock }) :
    k = { (g.charged k).setIssuing q with blockedSince := clock } := by
  have hc : g.charged k = { g.charged i with producers := ps } := by
    rw [hk]
    exact Group.charged_congr (Group.setIssuing_charged { g.charged i with producers := ps } q)
  rw [hc]
  exact hk

theorem Group.blockIn_eq {g : Group} {q : Split} {w : WaitFor} {h : Held} {clock : Nat} (hq : g.issuing = some q) :
    g.blockIn false w h clock = { g.setIssuing { q with st := .waiting w, held := some h } with blockedSince := clock } := by
  unfold Group.blockIn Group.setIssuing
  rw [hq]
  cases g.handler <;> rfl

/-- An instruction of a ready group whose meaning waits before it has done anything (R92). -/
theorem issue_blocks {s : State} {gid : Nat} {g : Group} {p : Split} {sp : Group → Split → Spec} {body : Env → Res} {w : WaitFor}
    (hr : Ready s gid g p) (h58 : g.r58 (sp g p) = none) (hw : (sp g p).widthIll = false) (hd : (sp g p).drains = false)
    (hbody : body (envOf s gid g p (sp g p)) = .block (envOf s gid g p (sp g p)).s w false) :
    ∃ k, issue sp body s = .next (s.setGroup gid k) ∧ Waits k g p w (sp g p).words false s.clock := by
  have hfin : s.finish gid g p (sp g p) (envOf s gid g p (sp g p)) (.block (envOf s gid g p (sp g p)).s w false) =
      s.setGroup gid ((issuer s g p (sp g p)).blockIn false w ((envOf s gid g p (sp g p)).heldFor (sp g p) g w false) s.clock) := by
    unfold State.finish State.ended
    simp only [envOf_resumed, Bool.false_eq_true, if_false, hd, Bool.false_and, envOf_s]
    rw [State.modGroup_some (g := issuer s g p (sp g p)) (by simp), State.setGroup_setGroup]
    rfl
  rw [issue_ready hr sp body h58 hw, hbody, hfin, Group.blockIn_eq (hr.issuer_issuing _)]
  refine ⟨_, rfl, (envOf s gid g p (sp g p)).heldFor (sp g p) g w false, rfl, rfl, rfl, rfl, rfl,
    Group.eq_charged_waiting (i := issuer s g p (sp g p)) (ps := g.producers) ?_⟩
  rw [← Group.setIssuing_rebase hr (sp g p) g g.producers rfl rfl]
  conv_lhs => rw [issuer_rebase]
  rfl

/-! ### The loads -/

theorem envOf_uflat {s : State} {gid : Nat} {g : Group} {p : Split} {sp : Spec} {f : Smem} :
    (envOf s gid g p sp).uflat f = g.uniAddr f := by
  unfold Env.uflat Group.uniAddr pxOff
  rw [envOf_v, issuer_spair]
  cases f.px <;> rfl

theorem r58_smemSpec {g : Group} {base n : Nat} {f : Smem} {rs : List RegName} {strong : Bool} (hscope : g.ScopeOk f.px strong)
    (hmask : NoMask f.px) (hs : g.HasS ([2 * f.k.toNat, 2 * f.k.toNat + 1] ++ upFrom f.sd.toNat n)) :
    g.r58 (smemSpec g base f n rs strong) = none := by
  obtain ⟨hweak, hstrong⟩ := hscope
  refine Group.r58_none rfl ?_ rfl nofun nofun rfl nofun (fun r hr => hs r ?_) nofun nofun ?_
  · unfold smemSpec
    dsimp only
    cases hpx : f.px with
    | none => simp [pxScope]
    | some q =>
      obtain ⟨h7, hinv⟩ := hmask q hpx
      cases strong <;> simp_all
  · have hr' : r ∈ upFrom f.sd.toNat n ++ upFrom (2 * f.k.toNat) 2 := hr
    simp only [List.mem_append, mem_upFrom, List.mem_cons, List.not_mem_nil, or_false] at hr' ⊢
    omega
  · cases strong <;> simp_all [smemSpec]

theorem uniformLoads_form : ∀ e ∈ [(Instr.sldW, 1), (Instr.sldW2, 2), (Instr.sldW4, 4), (Instr.sldW8, 8)],
    ∃ base : Nat, ∀ f, encode (e.1 f) = memWords f.px (packSmem base f) ∧ ∀ s, exec (e.1 f) s = uload base f e.2 s := by
  simp only [List.forall_mem_cons, List.not_mem_nil, false_implies, implies_true, and_true]
  and_intros <;> exact ⟨_, fun f => ⟨encode_mem nofun rfl rfl, fun _ => rfl⟩⟩

/-- The access of a uniform load of `z` bytes (R268). -/
def Group.uniAcc (g : Group) (f : Smem) (z : Nat) : LaneAcc := { lane := 0, addr := g.uniAddr f, size := z, align := z }

section
variable {s : State} {gid : Nat} {g : Group} {p : Split} {f : Smem} {base n : Nat}

theorem uload_traps {c : Nat} (hr : Ready s gid g p) (hscope : g.ScopeOk f.px (strongAtt f.att)) (hmask : NoMask f.px)
    (hs : g.HasS ([2 * f.k.toNat, 2 * f.k.toNat + 1] ++ upFrom f.sd.toNat n))
    (h : (∃ r, checkAddr s (g.agent gid) (g.uniAddr f) (4 * n) (4 * n) .read = .bad r c) ∨
      c = 0x07 ∧ ∃ pl, checkAddr s (g.agent gid) (g.uniAddr f) (4 * n) (4 * n) .read = .ok pl ∧
        s.rangeConflict (g.agent gid) (g.uniAcc f (4 * n)) pl false = true) :
    uload base f n s = .next (s.takeTrap gid g p c (BitVec.ofNat 64 (g.uniAddr f)) p.mask) := by
  refine issue_body_traps hr (r58_smemSpec hscope hmask hs) rfl (load_of_error ?_)
  unfold Env.uaccs
  rw [envOf_uflat]
  obtain ⟨r, hbad⟩ | ⟨rfl, pl, hok, hconf⟩ := h
  · refine checkAll_one_bad (r := r) ?_
    rw [envOf_s, envOf_g, envOf_gid, issuer_agent, checkAddr_setGroup]
    exact hbad
  · refine checkAll_one_conflict (pl := pl) ?_ ?_
    · rw [envOf_s, envOf_g, envOf_gid, issuer_agent, checkAddr_setGroup]
      exact hok
    · rw [envOf_s, envOf_g, envOf_gid, issuer_agent]
      exact hconf

theorem uload_waits {w : WaitFor} (hr : Ready s gid g p) (hscope : g.ScopeOk f.px (strongAtt f.att)) (hmask : NoMask f.px)
    (hs : g.HasS ([2 * f.k.toNat, 2 * f.k.toNat + 1] ++ upFrom f.sd.toNat n))
    (h : checkAddr s (g.agent gid) (g.uniAddr f) (4 * n) (4 * n) .read = .wait w) :
    ∃ k, uload base f n s = .next (s.setGroup gid k) ∧ Waits k g p w (memWords f.px (packSmem base f)) false s.clock := by
  refine issue_blocks hr (r58_smemSpec hscope hmask hs) rfl rfl (load_of_error ?_)
  unfold Env.uaccs
  rw [envOf_uflat]
  refine checkAll_one_wait ?_
  rw [envOf_s, envOf_g, envOf_gid, issuer_agent, checkAddr_setGroup]
  exact h

end

end Sys2Proof.Machine
end

section
/-! ## The checks of an address, and the walk -/
namespace Sys2Proof.Machine

section
variable {s : State} {x : Part} {ag : Agent} {a z : Nat} {acc : Acc}

theorem bits_eq_zero_of_lt {lo len n : Nat} (h : a < 2 ^ n) (hn : n ≤ lo) : bits a lo len = 0 := by
  rw [bits, Nat.div_eq_of_lt (h.trans_le (Nat.pow_le_pow_right (by decide) hn)), Nat.zero_mod]

theorem bits_zero_of_lt {n : Nat} (h : a < 2 ^ n) : bits a 0 n = a := by
  rw [bits, pow_zero, Nat.div_one, Nat.mod_eq_of_lt h]

/-- What the check of an unprivileged access makes of a translation (R351): `w` is what it ended in. -/
def Walk.outcome (w : Walk) (s : State) (x : Part) (ag : Agent) (a : Nat) (acc : Acc) : Check :=
  match w.fin with
  | .malformed => .bad rankMalformed 0x0B
  | .busy => .wait (.entryBusy (w.entry.getD 0))
  | .writing => .wait (.lineBusy (w.lines.headD 0))
  | .invalid => .bad rankInvalid 0x0A
  | .touch => .bad rankInvalid 0x0A
  | .outside => .bad rankOutside 0x18
  | .leaf =>
    if !pteU w.pte || (acc.writes && !pteW w.pte) || (acc = .fetch && !pteX w.pte) then .bad rankPerm 0x0B
    else if !x.owns (leafPa w a) then .bad rankOutside 0x18
    else if pteKey w.pte = 0 then .ok (.phys (leafPa w a) (pteKind w.pte) none (w.source s ag a) w.lines)
    else
      match tabGet x.keys (pteKey w.pte) with
      | some k => .ok (.phys (leafPa w a) (pteKind w.pte) (some k) (w.source s ag a) w.lines)
      | none => .bad rankOutside 0x18

theorem checkGlobal_translated (hx : s.part ag.part = some x) (ha : a < 2 ^ 57) (hpriv : ag.priv = false) :
    checkGlobal s ag a acc = (translate s x ag a).outcome s x ag a acc := by
  unfold checkGlobal Walk.outcome
  simp only [hx, hpriv, bits_zero_of_lt ha, Bool.false_and, Bool.false_eq_true, if_false, Bool.not_false, Bool.true_and]
    <;> cases (translate s x ag a).fin <;> rfl

/-- A global address without the window bit is checked through its translation, once it is aligned (R271, R351). -/
theorem checkAddr_translated (hx : s.part ag.part = some x) (ha : a < 2 ^ 57) (hpriv : ag.priv = false) :
    checkAddr s ag a z z acc = if a % z ≠ 0 then .bad rankAlign 0x09 else (translate s x ag a).outcome s x ag a acc := by
  rw [← checkGlobal_translated hx ha hpriv]
  unfold checkAddr
  simp [bits_eq_zero_of_lt ha, hpriv]

/-- Whether an access of a kind lacks its permission, as the check writes it and as R351 says it. -/
theorem lacksPermission_iff {e : Nat} :
    (!pteU e || (acc.writes && !pteW e) || (acc = .fetch && !pteX e)) = true ↔
      pteU e = false ∨ (acc ≠ .read ∧ acc ≠ .fetch ∧ pteW e = false) ∨ (acc = .fetch ∧ pteX e = false) := by
  cases acc <;> simp [Acc.writes]

/-- What a check makes of each end of a translation (R351). -/
theorem check_translated {w : Walk} (hx : s.part ag.part = some x) (ha : a < 2 ^ 57) (hpriv : ag.priv = false)
    (hw : w = translate s x ag a) :
    (a % z ≠ 0 → checkAddr s ag a z z acc = .bad rankAlign 0x09) ∧
    (a % z = 0 → w.fin = .invalid ∨ w.fin = .touch → checkAddr s ag a z z acc = .bad rankInvalid 0x0A) ∧
    (a % z = 0 → w.fin = .malformed → checkAddr s ag a z z acc = .bad rankMalformed 0x0B) ∧
    (a % z = 0 → w.fin = .busy → ∀ pa, w.entry = some pa → checkAddr s ag a z z acc = .wait (.entryBusy pa)) ∧
    (a % z = 0 → w.fin = .writing → ∀ l ls, w.lines = l :: ls → checkAddr s ag a z z acc = .wait (.lineBusy l)) ∧
    (a % z = 0 → w.fin = .outside → checkAddr s ag a z z acc = .bad rankOutside 0x18) ∧
    (a % z = 0 → w.fin = .leaf →
      (pteU w.pte = false ∨ (acc ≠ .read ∧ acc ≠ .fetch ∧ pteW w.pte = false) ∨ (acc = .fetch ∧ pteX w.pte = false)) →
      checkAddr s ag a z z acc = .bad rankPerm 0x0B) ∧
    (a % z = 0 → w.fin = .leaf → pteU w.pte = true → pteW w.pte = true → pteX w.pte = true →
      (x.owns (leafPa w a) = false → checkAddr s ag a z z acc = .bad rankOutside 0x18) ∧
      (x.owns (leafPa w a) = true →
        (pteKey w.pte = 0 → checkAddr s ag a z z acc = .ok (.phys (leafPa w a) (pteKind w.pte) none (w.source s ag a) w.lines)) ∧
        (pteKey w.pte ≠ 0 → tabGet x.keys (pteKey w.pte) = none → checkAddr s ag a z z acc = .bad rankOutside 0x18) ∧
        ∀ k, pteKey w.pte ≠ 0 → tabGet x.keys (pteKey w.pte) = some k →
          checkAddr s ag a z z acc = .ok (.phys (leafPa w a) (pteKind w.pte) (some k) (w.source s ag a) w.lines))) := by
  rw [checkAddr_translated hx ha hpriv, ← hw]
  unfold Walk.outcome
  refine ⟨fun h => if_pos h, ?_, ?_, ?_, ?_, ?_, ?_, ?_⟩ <;> intro hz <;> rw [if_neg (not_not.2 hz)]
  · rintro (h | h) <;> rw [h]
  · intro h; rw [h]
  · intro h pa hpa; rw [h, hpa]; rfl
  · intro h l ls hl; rw [h, hl]; rfl
  · intro h; rw [h]
  · intro h hp
    rw [h]
    exact if_pos (lacksPermission_iff.2 hp)
  · intro h hu hw1 hx1
    have hperm : ¬(!pteU w.pte || (acc.writes && !pteW w.pte) || (acc = .fetch && !pteX w.pte)) = true := by
      rw [lacksPermission_iff]; simp [hu, hw1, hx1]
    simp only [h, if_neg hperm]
    refine ⟨fun ho => by simp [ho], fun ho => ⟨fun hk => by simp [ho, hk], fun hk hnone => by simp [ho, hk, hnone],
      fun k hk hsome => by simp [ho, hk, hsome]⟩⟩

/-- The physical window names memory that exists and that the partition owns, without a key (R352). -/
theorem check_window {pa : Nat} (hx : s.part ag.part = some x) (ha : a < 2 ^ 57) (hpriv : ag.priv = true) (hwin : 2 ^ 56 ≤ a)
    (hpa : pa = a % 2 ^ 52) :
    (a % 2 ^ 56 ≠ pa → checkAddr s ag a z z acc = .bad rankRegion 0x0B) ∧
    (a % 2 ^ 56 = pa → a % z ≠ 0 → checkAddr s ag a z z acc = .bad rankAlign 0x09) ∧
    (a % 2 ^ 56 = pa → a % z = 0 →
      (safeTier pa = true → checkAddr s ag a z z acc = .bad rankOutside 0x18) ∧
      (safeTier pa = false → holdsMemory s pa = false → checkAddr s ag a z z acc = .bad rankPerm 0x0B) ∧
      (safeTier pa = false → holdsMemory s pa = true →
        (x.owns pa = false → checkAddr s ag a z z acc = .bad rankOutside 0x18) ∧
        (x.owns pa = true → checkAddr s ag a z z acc =
          .ok (.phys pa 0 none { entry := none, level := 0, pte := 0, va := 0, rd := pa } [])))) := by
  have hbit : bit a 56 = true := by
    have : a / 2 ^ 56 = 1 := by omega
    rw [bit, this]
    rfl
  have hlow : bits a 0 52 = pa := by simp [bits, hpa]
  have hcheck : checkAddr s ag a z z acc = if bits a 52 4 ≠ 0 then .bad rankRegion 0x0B
      else if a % z ≠ 0 then .bad rankAlign 0x09 else checkWindow s x a := by
    unfold checkAddr checkGlobal
    simp [bits_eq_zero_of_lt ha, hx, hpriv, hbit]
  have hhigh : bits a 52 4 = 0 ↔ a % 2 ^ 56 = pa := by unfold bits; omega
  rw [hcheck]
  refine ⟨fun h => if_pos (mt hhigh.1 h), fun h hz => ?_, fun h hz => ?_⟩
  · rw [if_neg (not_not.2 (hhigh.2 h)), if_pos hz]
  · rw [if_neg (not_not.2 (hhigh.2 h)), if_neg (not_not.2 hz)]
    unfold checkWindow
    simp only [hlow, hhigh.2 h, ne_eq, not_true_eq_false, if_false]
    refine ⟨fun hs => by simp [hs], fun hs hm => by simp [hs, hm], fun hs hm => ⟨fun ho => by simp [hs, hm, ho], fun ho => ?_⟩⟩
    simp [hs, hm, ho, Place.direct, Source.direct]

/-- An entry found in a translation cache, the only one there for its page (R355). -/
theorem tlbFind_unique {es : List TlbEntry} {part va : Nat} {e : TlbEntry} (he : e ∈ es) (hp : e.part = part)
    (hva : e.va = pageVa e.level va) (hu : ∀ q ∈ es, q.part = part → q.va = pageVa q.level va → q = e) :
    tlbFind es part va = some e := by
  obtain ⟨q, hq, hmatch, hfind⟩ := find?_exists
    (f := fun t : TlbEntry => decide (t.part = part) && decide (t.va = pageVa t.level va)) ⟨e, he, by simp [hp, ← hva]⟩
  obtain ⟨h1, h2⟩ := Bool.and_eq_true_iff.1 hmatch
  rw [tlbFind, hfind, hu q hq (of_decide_eq_true h1) (of_decide_eq_true h2)]

theorem tlbFind_none {es : List TlbEntry} {part va : Nat} (h : ∀ q ∈ es, q.part = part → q.va ≠ pageVa q.level va) :
    tlbFind es part va = none :=
  List.find?_eq_none.2 fun q hq => by simpa using h q hq

/-- The translation of an address is the one that a cache holds, the core's TLB first, or else a walk (R355). -/
theorem translate_spec {core die : List TlbEntry} (hcore : core = smapGet [] s.tlbs ag.core)
    (hdie : die = smapGet [] s.dieTlbs (dieOf ag.core)) :
    (ag.cached = false ∨ (∀ e ∈ core ++ die, e.part = ag.part → e.va ≠ pageVa e.level a) → translate s x ag a = walk s x a) ∧
    ∀ e, ag.cached = true → e.part = ag.part → e.va = pageVa e.level a →
      (e ∈ core ∧ (∀ q ∈ core, q.part = ag.part → q.va = pageVa q.level a → q = e) ∨
        (∀ q ∈ core, q.part = ag.part → q.va ≠ pageVa q.level a) ∧ e ∈ die ∧
        ∀ q ∈ die, q.part = ag.part → q.va = pageVa q.level a → q = e) →
      translate s x ag a = { fin := .leaf, entry := some e.entry, level := e.level, pte := e.pte, lines := e.lines } := by
  subst hcore hdie
  unfold translate
  refine ⟨?_, fun e hc hp hva h => ?_⟩
  · rintro (hc | hnone)
    · simp [hc]
    · rw [tlbFind_none fun q hq => hnone q (List.mem_append_left _ hq),
        tlbFind_none fun q hq => hnone q (List.mem_append_right _ hq)]
      exact ite_self _
  · rw [hc]
    obtain ⟨he, hu⟩ | ⟨hnone, he, hu⟩ := h
    · rw [tlbFind_unique he hp hva hu]
      rfl
    · rw [tlbFind_none hnone, tlbFind_unique he hp hva hu]
      rfl

/-- A walk goes down through the entries of its tables, malformed before busy before invalid (R348, R350, R351, R354, R357). -/
theorem walk_spec {va base n : Nat} {w : Walk} {level pa e : Nat} {w1 : Walk} (hlevel : level = 3 - n)
    (hpa : pa = base + 8 * walkIndex va level) (he : e = s.memNat pa 8)
    (hw1 : w1 = { fin := .invalid, entry := some pa, level := level, pte := e, lines := pa / 128 :: w.lines }) :
    (x.ptroot.getLsbD 0 = false → (walk s x va).fin = .invalid) ∧
    (tableOk s x pa = false → walkFrom s x va (n + 1) base w = { w with fin := .outside }) ∧
    (tableOk s x pa = true → (s.dirEntry (pa / 128)).invals ≠ [] → walkFrom s x va (n + 1) base w = { w1 with fin := .writing }) ∧
    (tableOk s x pa = true → (s.dirEntry (pa / 128)).invals = [] →
      (pteV e = true → pteMalformed s level e = true → walkFrom s x va (n + 1) base w = { w1 with fin := .malformed }) ∧
      ((pteV e = false ∨ pteMalformed s level e = false) →
        (2 ≤ level → pteM e = true → walkFrom s x va (n + 1) base w = { w1 with fin := .busy }) ∧
        ((level < 2 ∨ pteM e = false) →
          (pteV e = false →
            walkFrom s x va (n + 1) base w = { w1 with fin := if level = 3 ∧ pteZ e = true then .touch else .invalid }) ∧
          (pteV e = true → pteKind e = 7 → walkFrom s x va (n + 1) base w = walkFrom s x va n (pteFrame e) w1) ∧
          (pteV e = true → pteKind e ≠ 7 → walkFrom s x va (n + 1) base w = { w1 with fin := .leaf })))) := by
  refine ⟨fun h => by rw [walk, h]; rfl, ?_⟩
  rw [walkFrom, hw1]
  simp only [← hlevel, ← hpa, ← he]
  refine ⟨fun h => by rw [h]; rfl, fun h hw => ?_, fun h hw => ?_⟩
  · simp [h, State.lineWriting, hw]
  · simp only [h, State.lineWriting, hw, if_true, ne_eq, not_true_eq_false, decide_false, Bool.false_eq_true, if_false]
    refine ⟨fun hv hm => by simp [hv, hm], fun hvm => ?_⟩
    have hgood : (pteV e && pteMalformed s level e) = false := by rwa [Bool.and_eq_false_iff]
    simp only [hgood, Bool.false_eq_true, if_false]
    refine ⟨fun hl hm => by simp [hl, hm], fun hlm => ?_⟩
    have hidle : (decide (2 ≤ level) && pteM e) = false := by
      rw [Bool.and_eq_false_iff, decide_eq_false_iff_not, not_le]
      exact hlm
    simp only [hidle, Bool.false_eq_true, if_false]
    refine ⟨fun hv => by simp [hv], fun hv hk => by simp [hv, hk], fun hv hk => by simp [hv, hk]⟩

end

/-! ## The obligation -/

/-- Settles O53, clause by clause. -/
theorem traps : Obligations.Traps := by
  unfold Obligations.Traps
  refine ⟨fun i hi s gid g p hr x hx ht => privileged_traps hi hr hx ht,
    fun e he s gid g p f hr hpx hv => traps_both (by decide) (elementOp_beyond_traps he hr hpx hv),
    fun e he s gid g p f hr hpx => traps_both (by decide) (elementOp_misused_traps he hr hpx),
    fun e he s gid g p f hr hs => traps_both (by decide) (uniformOp_beyond_traps he hr hs),
    fun e he s gid g p f hr x hx hpx hrole =>
      ⟨_, sfuOp_role_traps he hr hpx hrole, State.takeTrap_entered hx (by decide)⟩, ?_, ?_,
    fun s x ag a z acc w hx ha hpriv hw => check_translated hx ha hpriv hw,
    fun s x ag a z pa acc hx ha hpriv hwin hpa => check_window hx ha hpriv hwin hpa,
    fun s x ag a core die hcore hdie => translate_spec hcore hdie,
    fun s x va base n w level pa e w1 hlevel _ hpa he hw1 => walk_spec hlevel hpa he hw1⟩
  · intro e he s gid g p f l w hr x hx hrole hv hs hrounds ht hw hl hact hraise hfirst
    refine ⟨_, _, roundedOp_traps he hr hrole hv hs hrounds ht hw hl hact hraise hfirst, State.takeTrap_entered hx (by decide),
      BitVec.isLt _, fun b hb => ?_⟩
    rw [bit_raised_iff hb, lanesRaise_iff]
  · intro e he s gid g p f hr x hx hscope hmask hs hroom
    obtain ⟨base, hform⟩ := uniformLoads_form e he
    obtain ⟨henc, hexec⟩ := hform f
    rw [hexec, henc]
    refine ⟨fun r c hbad hkill => ?_, fun pl hok hconf => ?_, fun w hwait => uload_waits hr hscope hmask hs hwait⟩
    · refine ⟨_, uload_traps hr hscope hmask hs (.inl ⟨r, hbad⟩), State.takeTrap_entered hx ⟨checkAddr_cause hbad, ?_⟩⟩
      simpa using hkill
    · exact ⟨_, uload_traps hr hscope hmask hs (.inr ⟨rfl, pl, hok, hconf⟩), State.takeTrap_entered hx (by decide)⟩

end Sys2Proof.Machine
end

section
/-! # O57: words written out bit by bit decode to their instructions -/
namespace Sys2Proof.Machine.Encodings

/-- Settles O57: the decoder computes on each of the words. -/
theorem decodeWords : Obligations.DecodeWords := by
  unfold Obligations.DecodeWords
  and_intros <;> rfl

end Sys2Proof.Machine.Encodings
end

section
/-! # O55: the registers of a partition at set-up, and its house program (R134, R366, R377, R379, R380) -/
namespace Sys2Proof.Machine

section
variable {r : PartRow} {part : Nat} {ovdef : BitVec 10} {text : DWord}

theorem Part.fresh_ports : ∀ p < 8, (Part.fresh r).ethTx[p]? = some 0 ∧ (Part.fresh r).ethRx[p]? = some 0 := by
  show ∀ p < 8, (copiesOf 8 (0 : DWord))[p]? = some 0 ∧ (copiesOf 8 (0 : DWord))[p]? = some 0
  decide

/-- MODE of the house program reads PRIV with its first value (R41, R377; log entry 4). -/
theorem houseGroup_modeWord : (houseGroup part ovdef text).modeWord = 0x80063817 := by
  have hpriv : (houseGroup part ovdef text).priv = true := rfl
  have hmode : (houseGroup part ovdef text).mode = 0x0063817 := rfl
  rw [Group.modeWord, hpriv, hmode]
  decide

theorem houseGroup_splits : ∃ q, (houseGroup part ovdef text).splits = [q] ∧ q.mask = 0xFF ∧ q.pc = text ∧ q.st = .ready ∧
    q.joins = [] ∧ q.held = none :=
  ⟨Split.first 8 text, rfl, by show maskBelow 8 = 0xFF; decide, rfl, rfl, rfl, rfl⟩

end

/-- Settles O55: each register is the one that `Part.fresh` or `houseGroup` enters. -/
theorem freshPartition : Obligations.FreshPartition := by
  unfold Obligations.FreshPartition
  exact fun r part text => ⟨Part.fresh r, houseGroup part (Part.fresh r).ovdef text, rfl, rfl,
    -- the partition
    rfl, rfl, rfl, rfl, rfl, rfl, rfl, rfl, rfl, rfl, rfl, rfl, rfl, rfl, rfl, rfl, rfl, rfl, rfl, rfl, rfl, rfl, rfl, rfl, rfl,
    Part.fresh_ports, rfl, rfl, rfl, rfl, rfl, rfl,
    -- its house program
    rfl, rfl, rfl, rfl, rfl, rfl, rfl, rfl, rfl, rfl, rfl, rfl, rfl, rfl, fun _ _ _ _ => rfl, rfl, rfl, rfl, rfl, rfl, rfl, rfl, rfl,
    houseGroup_modeWord, houseGroup_splits⟩

end Sys2Proof.Machine
end

section
/-! # O34: pots and stage rings (R120, R122, R123, R303, R304, R305)

The instructions on a ring change one ring of the group's team, step by step: `RingOnly` says that nothing else of a state
differs but the copies, and each operation on a ring keeps it. `issue_sets_ring` and `issue_ring_waits` carry it over the issue. -/
namespace Sys2Proof.Machine

/-! ## A wait in an instruction that has done a part of its work -/

section
variable {s s1 : State} {gid : Nat} {g : Group} {p : Split} {sp : Group → Split → Spec} {body : Env → Res} {w : WaitFor} {m : Bool}

/-- An instruction of a ready group whose meaning waits with the state `s1`, in which the group is as its issue left it (R92). -/
theorem issue_blocks_on (hr : Ready s gid g p) (h58 : g.r58 (sp g p) = none) (hw : (sp g p).widthIll = false)
    (hd : (sp g p).drains = false) (hbody : body (envOf s gid g p (sp g p)) = .block s1 w m)
    (hg : s1.group gid = some (issuer s g p (sp g p))) (hclock : s1.clock = s.clock) :
    ∃ k, issue sp body s = .next (s1.setGroup gid k) ∧ Waits k g p w (sp g p).words m s.clock := by
  have hfin : s.finish gid g p (sp g p) (envOf s gid g p (sp g p)) (.block s1 w m) =
      s1.setGroup gid ((issuer s g p (sp g p)).blockIn false w ((envOf s gid g p (sp g p)).heldFor (sp g p) g w m) s.clock) := by
    unfold State.finish State.ended
    simp only [envOf_resumed, Bool.false_eq_true, if_false, hd, Bool.false_and, State.modGroup_some hg, hclock]
  rw [issue_ready hr sp body h58 hw, hbody, hfin, Group.blockIn_eq (hr.issuer_issuing _)]
  refine ⟨_, rfl, (envOf s gid g p (sp g p)).heldFor (sp g p) g w m, rfl, rfl, rfl, rfl, rfl,
    Group.eq_charged_waiting (i := issuer s g p (sp g p)) (ps := g.producers) ?_⟩
  rw [← Group.setIssuing_rebase hr (sp g p) g g.producers rfl rfl]
  conv_lhs => rw [issuer_rebase]
  rfl

/-- A trap of a meaning without lanes has its split's mask in TMASK (R58). -/
theorem issue_body_traps_split {c : Nat} {tval : DWord} (hr : Ready s gid g p) (h58 : g.r58 (sp g p) = none)
    (hw : (sp g p).widthIll = false) (hmask : (sp g p).mask = .none)
    (hbody : body (envOf s gid g p (sp g p)) = .trap c tval none) :
    issue sp body s = .next (s.takeTrap gid g p c tval p.mask) := by
  rw [issue_ready hr sp body h58 hw, hbody]
  unfold State.finish State.ended
  simp only [envOf_resumed, Bool.false_eq_true, if_false, Option.getD_none, hmask]

end

/-! ## Lists -/

section
variable {α : Type}

theorem listSet_eq_set (l : List α) (n : Nat) (x : α) : listSet l n x = l.set n x := by
  induction l generalizing n with
  | nil => rfl
  | cons y l ih =>
    cases n with
    | zero => rfl
    | succ n => exact congrArg (y :: ·) (ih n)

@[simp] theorem length_listSet (l : List α) (n : Nat) (x : α) : (listSet l n x).length = l.length := by
  rw [listSet_eq_set, List.length_set]

@[simp] theorem listSet_listSet (l : List α) (n : Nat) (x y : α) : listSet (listSet l n x) n y = listSet l n y := by
  simp only [listSet_eq_set, List.set_set]

theorem getElem?_listSet_self {l : List α} {n : Nat} {y : α} (h : l[n]? = some y) (x : α) : (listSet l n x)[n]? = some x := by
  rw [listSet_eq_set, List.getElem?_set_self (List.getElem?_eq_some_iff.1 h).1]

theorem getElem?_listSet_ne {l : List α} {n m : Nat} (h : n ≠ m) (x : α) : (listSet l n x)[m]? = l[m]? := by
  rw [listSet_eq_set, List.getElem?_set_ne h]

end

/-! ## One ring of one team changes -/

/-- `t` is `s` but for the copies and for ring `j` of team `tid`, which was `x`: that ring is `r` (R120, R122). -/
def RingOnly (s t : State) (tid : Nat) (x : Team) (j : Nat) (r : Ring) : Prop :=
  ∃ tt cp y, t = { s with teams := tt, copies := cp } ∧ tabGet tt tid = some y ∧ y = { x with rings := y.rings } ∧
    y.ring j = some r ∧ (∀ i, i ≠ j → y.ring i = x.ring i) ∧ ∀ id, id ≠ tid → tabGet tt id = s.team id

theorem Team.ring_eq (t : Team) (k : Nat) : t.ring k = t.rings[k]?.getD none := List.getD_eq_getElem?_getD

/-- Another ring under `j`, registered before, leaves the other rings. -/
theorem Team.ring_listSet {x : Team} {j : Nat} {r : Ring} (h : x.ring j = some r) (q : Ring) (i : Nat) :
    ({ x with rings := listSet x.rings j (some q) } : Team).ring i = if i = j then some q else x.ring i := by
  rw [Team.ring_eq, Team.ring_eq]
  split
  · next hi =>
    subst hi
    cases hl : x.rings[i]? with
    | none => rw [Team.ring_eq, hl] at h; cases h
    | some o => rw [getElem?_listSet_self hl, Option.getD_some]
  · next hi => rw [getElem?_listSet_ne (Ne.symm hi)]

section
variable {s t : State} {gid tid j : Nat} {x : Team} {r : Ring} {i : Group}

theorem RingOnly.refl (hx : s.team tid = some x) (hr : x.ring j = some r) : RingOnly s s tid x j r :=
  ⟨s.teams, s.copies, x, rfl, hx, rfl, hr, fun _ _ => rfl, fun _ _ => rfl⟩

theorem RingOnly.team (h : RingOnly s t tid x j r) : (t.team tid).bind (fun y => y.ring j) = some r := by
  obtain ⟨tt, cp, y, rfl, hy, -, hr, -⟩ := h
  unfold State.team
  rw [hy]
  exact hr

theorem RingOnly.modRing (h : RingOnly s t tid x j r) (f : Ring → Ring) : RingOnly s (t.modRing tid j f) tid x j (f r) := by
  obtain ⟨tt, cp, y, rfl, hy, hyx, hr, hrings, hteams⟩ := h
  have hset : ({ s with teams := tt, copies := cp } : State).modRing tid j f =
      { s with teams := smapInsert tt tid { y with rings := listSet y.rings j (some (f r)) }, copies := cp } := by
    have hring : y.rings.getD j none = some r := hr
    unfold State.modRing State.modTeam State.team
    simp only [hy, hring, Option.map_some]
    rfl
  rw [hset]
  refine ⟨_, cp, { y with rings := listSet y.rings j (some (f r)) }, rfl, by rw [tabGet_insert, if_pos rfl], by rw [hyx],
    by rw [Team.ring_listSet hr, if_pos rfl], fun k hk => ?_, fun id hid => ?_⟩
  · rw [Team.ring_listSet hr, if_neg hk, hrings k hk]
  · rw [tabGet_insert, if_neg hid, hteams id hid]

theorem RingOnly.publishSlot (h : RingOnly s t tid x j r) (slot : Nat) (mask : BitVec 8) :
    RingOnly s (t.publishSlot tid j slot mask) tid x j (r.publish slot mask) := by
  refine RingOnly.modRing ?_ fun q => q.publish slot mask
  obtain ⟨tt, cp, y, rfl, hy⟩ := h
  exact ⟨tt, _, y, rfl, hy⟩

/-- The group that issues is in a state that differs by a ring as its issue left it. -/
theorem RingOnly.group (h : RingOnly (s.setGroup gid i) t tid x j r) : t.group gid = some i := by
  obtain ⟨tt, cp, y, rfl, -⟩ := h
  exact (State.group_setGroup s gid gid i).trans (if_pos rfl)

theorem RingOnly.setGroup_self (h : RingOnly (s.setGroup gid i) t tid x j r) : t.setGroup gid i = t := by
  obtain ⟨tt, cp, y, rfl, -⟩ := h
  simp only [State.setGroup, smapInsert_insert]

theorem RingOnly.ringSet (h : RingOnly (s.setGroup gid i) t tid x j r) (k : Group) : RingSet s (t.setGroup gid k) gid k tid x j r := by
  obtain ⟨tt, cp, y, rfl, hy⟩ := h
  exact ⟨tt, cp, y, by simp only [State.setGroup, smapInsert_insert], hy⟩

theorem RingOnly.clock_tick (h : RingOnly s t tid x j r) : t.clock = s.clock ∧ t.tick = s.tick := by
  obtain ⟨tt, cp, y, rfl, -⟩ := h
  exact ⟨rfl, rfl⟩

end

section
variable {s t : State} {gid tid j : Nat} {g h : Group} {p : Split} {x : Team} {r : Ring} {sp : Group → Split → Spec}
  {body : Env → Res} {w : WaitFor} {m : Bool}

/-- The law of an instruction of a ready group that changes one ring and its group. -/
theorem issue_sets_ring (hr : Ready s gid g p) (h58 : g.r58 (sp g p) = none) (hw : (sp g p).widthIll = false)
    (ht : RingOnly (envOf s gid g p (sp g p)).s t tid x j r)
    (hbody : body (envOf s gid g p (sp g p)) = .ok (t.setGroup gid (h.rebase (issuer s g p (sp g p)))))
    (hs : h.splits = g.splits) (hh : h.handler = g.handler) (hp : h.pend = []) (hb : h.bad = []) :
    ∃ k u, issue sp body s = .next u ∧ Issued k h p (s.after g p (sp g p).words.length) ∧ RingSet s u gid k tid x j r := by
  obtain ⟨k, hk, hi⟩ := issue_on hr sp body h58 hw h _ (.inr ⟨hbody, rfl⟩) (by rw [State.group_setGroup, if_pos rfl]) hs hh hp hb
  refine ⟨k, _, hk, hi, ?_⟩
  rw [State.setGroup_setGroup]
  exact RingOnly.ringSet ht k

/-- The law of an instruction of a ready group that changes one ring and then waits. -/
theorem issue_ring_waits (hr : Ready s gid g p) (h58 : g.r58 (sp g p) = none) (hw : (sp g p).widthIll = false)
    (hd : (sp g p).drains = false) (ht : RingOnly (envOf s gid g p (sp g p)).s t tid x j r)
    (hbody : body (envOf s gid g p (sp g p)) = .block t w m) :
    ∃ k u, issue sp body s = .next u ∧ Waits k g p w (sp g p).words m s.clock ∧ RingSet s u gid k tid x j r := by
  obtain ⟨k, hk, hi⟩ := issue_blocks_on hr h58 hw hd hbody (RingOnly.group ht) ht.clock_tick.1
  exact ⟨k, _, hk, hi, RingOnly.ringSet ht k⟩

end

/-! ## `rpush` and `rpop` on a ring that the group may use -/

section
variable {s : State} {gid tid : Nat} {g : Group} {p : Split} {x : Team} {r : Ring} {sp : Spec}

theorem envOf_ring {j : Nat} (hteam : g.team = some tid) (hx : s.team tid = some x) (hring : x.ring j = some r) :
    (envOf s gid g p sp).g.team = some tid ∧ (envOf s gid g p sp).g.index = g.index ∧
      RingOnly (envOf s gid g p sp).s (envOf s gid g p sp).s tid x j r :=
  ⟨(issuer_team ..).trans hteam, issuer_index .., RingOnly.refl hx hring⟩

theorem ringSpec_r58 {w : Nat} {st : BitVec 2} {sd : List Nat} (hs : g.HasS sd) : g.r58 (ringSpec w st sd) = none :=
  Group.r58_none rfl rfl rfl nofun nofun rfl nofun hs nofun nofun rfl

end

/-- The ring of an `rpush` may be used by a group of an index to publish with a mask (R122). -/
structure Ring.Publishes (r : Ring) (index c : Nat) (sl : RingSlot) (mask : BitVec 8) : Prop where
  own : r.producer = none ∨ r.producer = some index
  claimed : r.claimed = some c
  slot : r.slots[c]? = some sl
  offers : mask ≠ 0
  within : mask.toNat < 2 ^ r.pos.length

/-- The ring after a producer of an index has published its claimed slot (R122). -/
def Ring.published (r : Ring) (index c : Nat) (sl : RingSlot) (mask : BitVec 8) : Ring :=
  { r with producer := some index, claimed := none, slots := listSet r.slots c (r.offered sl mask) }

/-- The ring after its slot ip has been claimed (R122). -/
def Ring.claim (r : Ring) : Ring := { r with claimed := some r.ip, ip := (r.ip + 1) % r.slots.length }


/-- The end of an `rpush` that claims, on the ring `r` of the state `u` (R122). -/
def Env.claims (e : Env) (u : State) (tid j sd : Nat) (r : Ring) (pub : Bool) : Res :=
  if r.slotFree r.ip then
    .ok ((u.modRing tid j fun q => { q with claimed := some r.ip, ip := (r.ip + 1) % r.slots.length }).modGroup
      e.gid fun g => g.setSreg sd (BitVec.ofNat 32 r.ip))
  else .block u (.ringFree j) pub

section
variable {e : Env} {tid j c : Nat} {x : Team} {r : Ring} {sl : RingSlot} {mask : BitVec 8}

theorem Ring.publish_claimed (h : r.slots[c]? = some sl) (index : Nat) :
    { ({ r with producer := some index } : Ring).publish c mask with claimed := none } = r.published index c sl mask := by
  unfold Ring.publish
  simp only [h]
  rfl

@[simp] theorem Ring.published_length (r : Ring) (index c : Nat) (sl : RingSlot) (mask : BitVec 8) :
    (r.published index c sl mask).slots.length = r.slots.length := length_listSet ..

theorem Ring.notOther {o : Option Nat} {index : Nat} (h : o = none ∨ o = some index) :
    (o.isSome && decide (o ≠ some index)) = false := by
  obtain rfl | rfl := h <;> simp

/-- `rpush` and `rpush.pub` on a ring with a claimed slot. -/
theorem Env.rpush_publishes (hteam : e.g.team = some tid) (he : RingOnly e.s e.s tid x j r) (hm : e.marker = false)
    (hp : r.Publishes e.g.index c sl mask) :
    ∃ u, RingOnly e.s u tid x j (r.published e.g.index c sl mask) ∧ ∀ sd,
      e.rpush j mask sd true false = .ok u ∧
      e.rpush j mask sd true true = e.claims u tid j sd (r.published e.g.index c sl mask) true := by
  obtain ⟨hown, hclaimed, hslot, hoffers, hwithin⟩ := hp
  have hu := (((he.modRing fun q => { q with producer := some e.g.index }).publishSlot c mask).modRing
    fun q => { q with claimed := none })
  rw [Ring.publish_claimed hslot] at hu
  refine ⟨_, hu, fun sd => ?_⟩
  have hring := hu.team
  have hfresh : (decide (some c = none) || decide (mask = 0) || decide (2 ^ r.pos.length ≤ mask.toNat)) = false := by
    simp only [Bool.or_eq_false_iff, decide_eq_false_iff_not, not_le]
    exact ⟨⟨nofun, hoffers⟩, hwithin⟩
  unfold Env.rpush
  simp only [hteam, he.team, Ring.notOther hown, hm, hfresh, hclaimed, Bool.not_false, Bool.not_true, Bool.and_true, Bool.and_false,
    Bool.false_and, Bool.false_eq_true, if_false, if_true, Option.getD_some, hring]
  exact ⟨trivial, by rw [Env.claims, Ring.published_length]; rfl⟩

/-- `rpush.claim` on a ring without a claimed slot. -/
theorem Env.rpush_claims (hteam : e.g.team = some tid) (he : RingOnly e.s e.s tid x j r)
    (hown : r.producer = none ∨ r.producer = some e.g.index) (hclaimed : r.claimed = none) :
    ∃ u, RingOnly e.s u tid x j { r with producer := some e.g.index } ∧ ∀ sd,
      e.rpush j mask sd false true = e.claims u tid j sd { r with producer := some e.g.index } false := by
  have hu := he.modRing fun q => { q with producer := some e.g.index }
  refine ⟨_, hu, fun sd => ?_⟩
  have hring := hu.team
  unfold Env.rpush
  simp only [hteam, he.team, Ring.notOther hown, hclaimed, ne_eq, not_true_eq_false, decide_false, Bool.and_false, Bool.false_and,
    Bool.false_eq_true, if_false, if_true, hring, Option.getD_some]
  rfl

end

section
variable {s u : State} {gid tid j : Nat} {g : Group} {p : Split} {x : Team} {r : Ring} {w : Nat} {st : BitVec 2} {sd : List Nat}
  {body : Env → Res}

/-- The group of a state that differs by a ring, with a uniform register written over its issue. -/
theorem RingOnly.modGroup_issuer {f : Group → Group} {h : Group} (hu : RingOnly (envOf s gid g p (ringSpec w st sd)).s u tid x j r)
    (hf : ∀ i, f (g.rebase i) = h.rebase i) :
    u.modGroup gid f = u.setGroup gid (h.rebase (issuer s g p (ringSpec w st sd))) := by
  rw [State.modGroup_some (RingOnly.group hu)]
  conv_lhs => rw [issuer_rebase, hf]

/-- An `rpush` that claims, after what comes before (R122): the slot ip is free, or it waits. -/
theorem issue_claims (hr : Ready s gid g p) {n : Nat} {pub : Bool} (hs : g.HasS sd)
    (hu : RingOnly (envOf s gid g p (ringSpec w st sd)).s u tid x j r)
    (hbody : body (envOf s gid g p (ringSpec w st sd)) = (envOf s gid g p (ringSpec w st sd)).claims u tid j n r pub) :
    (r.slotFree r.ip = true → ∃ k t, issue (fun _ _ => ringSpec w st sd) body s = .next t ∧
      Issued k (g.setSreg n (BitVec.ofNat 32 r.ip)) p (s.after g p 1) ∧ RingSet s t gid k tid x j
        { r with claimed := some r.ip, ip := (r.ip + 1) % r.slots.length }) ∧
    (r.slotFree r.ip = false → ∃ k t, issue (fun _ _ => ringSpec w st sd) body s = .next t ∧
      Waits k g p (.ringFree j) [w] pub s.clock ∧ RingSet s t gid k tid x j r) := by
  constructor <;> intro hfree <;> unfold Env.claims at hbody <;> rw [hfree] at hbody
  · have hc := hu.modRing fun q => { q with claimed := some r.ip, ip := (r.ip + 1) % r.slots.length }
    refine issue_sets_ring hr (ringSpec_r58 hs) rfl hc (hbody.trans ?_) (by simp) (by simp) (by simp [hr.settled.2.1])
      (by simp [hr.settled.2.2.2])
    exact congrArg Res.ok (RingOnly.modGroup_issuer hc fun i => Group.rebase_setSreg ..)
  · exact issue_ring_waits hr (ringSpec_r58 hs) rfl rfl hu hbody

end

section
variable {s : State} {gid tid : Nat} {g : Group} {p : Split} {x : Team} {r : Ring} {c : Nat} {sl : RingSlot}

/-- `rpush.pub` on a ready group's claimed slot (R122). -/
theorem execRpushPub_publishes {f : RpushPub} (hr : Ready s gid g p) (hteam : g.team = some tid) (hx : s.team tid = some x)
    (hring : x.ring f.ring.toNat = some r) (hp : r.Publishes g.index c sl f.mask) :
    ∃ k t, execRpushPub f s = .next t ∧ Issued k g p (s.after g p 1) ∧
      RingSet s t gid k tid x f.ring.toNat (r.published g.index c sl f.mask) := by
  obtain ⟨ht, hi, he⟩ := envOf_ring (s := s) (gid := gid) (p := p) (sp := ringSpec (packRpushPub 0xE1C00008 f) f.st []) hteam hx hring
  rw [← hi] at hp
  obtain ⟨u, hu, hbody⟩ := Env.rpush_publishes ht he rfl hp
  rw [hi] at hu
  refine issue_sets_ring hr (ringSpec_r58 nofun) rfl hu (h := g) ?_ rfl rfl hr.settled.2.1 hr.settled.2.2.2
  rw [← issuer_rebase, RingOnly.setGroup_self hu]
  exact (hbody 63).1

/-- `rpush` on a ready group's claimed slot (R122). -/
theorem execRpush_publishes {f : Rpush} (hr : Ready s gid g p) (hteam : g.team = some tid) (hx : s.team tid = some x)
    (hring : x.ring f.ring.toNat = some r) (hp : r.Publishes g.index c sl f.mask) (hs : g.HasS [f.sd.toNat]) :
    ((r.published g.index c sl f.mask).slotFree r.ip = true → ∃ k t, execRpush f s = .next t ∧
      Issued k (g.setSreg f.sd.toNat (BitVec.ofNat 32 r.ip)) p (s.after g p 1) ∧ RingSet s t gid k tid x f.ring.toNat
        { r.published g.index c sl f.mask with claimed := some r.ip, ip := (r.ip + 1) % r.slots.length }) ∧
    ((r.published g.index c sl f.mask).slotFree r.ip = false → ∃ k t, execRpush f s = .next t ∧
      Waits k g p (.ringFree f.ring.toNat) (encode (.rpush f)) true s.clock ∧
      RingSet s t gid k tid x f.ring.toNat (r.published g.index c sl f.mask)) := by
  obtain ⟨ht, hi, he⟩ := envOf_ring (s := s) (gid := gid) (p := p) (sp := ringSpec (packRpush 0xE1C0000C f) f.st [f.sd.toNat])
    hteam hx hring
  rw [← hi] at hp
  obtain ⟨u, hu, hbody⟩ := Env.rpush_publishes ht he rfl hp
  rw [hi] at hu hbody
  have h := issue_claims (body := fun e => e.rpush f.ring.toNat f.mask f.sd.toNat true true) hr hs hu (hbody f.sd.toNat).2
  rw [Ring.published_length] at h
  exact h

/-- `rpush.claim` on a ring without a claimed slot (R122). -/
theorem execRpushClaim_claims {f : Rpush} (hr : Ready s gid g p) (hteam : g.team = some tid) (hx : s.team tid = some x)
    (hring : x.ring f.ring.toNat = some r) (hown : r.producer = none ∨ r.producer = some g.index) (hc : r.claimed = none)
    (hs : g.HasS [f.sd.toNat]) :
    (r.slotFree r.ip = true → ∃ k t, execRpushClaim f s = .next t ∧
      Issued k (g.setSreg f.sd.toNat (BitVec.ofNat 32 r.ip)) p (s.after g p 1) ∧ RingSet s t gid k tid x f.ring.toNat
        { r with producer := some g.index, claimed := some r.ip, ip := (r.ip + 1) % r.slots.length }) ∧
    (r.slotFree r.ip = false → ∃ k t, execRpushClaim f s = .next t ∧
      Waits k g p (.ringFree f.ring.toNat) (encode (.rpushClaim f)) false s.clock ∧
      RingSet s t gid k tid x f.ring.toNat { r with producer := some g.index }) := by
  obtain ⟨ht, hi, he⟩ := envOf_ring (s := s) (gid := gid) (p := p) (sp := ringSpec (packRpush 0xE1C00004 f) f.st [f.sd.toNat])
    hteam hx hring
  obtain ⟨u, hu, hbody⟩ := Env.rpush_claims ht he (by rwa [hi]) hc
  rw [hi] at hu hbody
  exact issue_claims hr hs hu (hbody f.sd.toNat)

end

/-- The ring of an `rpop` whose position is the group's to use (R123). -/
structure Ring.Open (r : Ring) (index j : Nat) (q : RingPos) : Prop where
  pos : r.pos[j]? = some q
  own : q.owner = none ∨ q.owner = some index

/-- The ring after its position `j`, which is `q`, has a group of an index for its owner (R120). -/
def Ring.own (r : Ring) (index j : Nat) (q : RingPos) : Ring := r.setPos j { q with owner := some index }

/-- The position `q` after it has taken the slot at its place of a ring of `n` slots (R123). -/
def RingPos.taken (q : RingPos) (n : Nat) : RingPos :=
  { q with held := some q.cp, cp := (q.cp + 1) % n, phase := if (q.cp + 1) % n = 0 then !q.phase else q.phase }

/-- A slot held, and passed, by a position (R123). -/
def RingSlot.heldBy (sl : RingSlot) (j : Nat) : RingSlot :=
  { sl with pass := sl.pass ||| BitVec.twoPow 8 j, hold := sl.hold ||| BitVec.twoPow 8 j }

/-- A slot that a position no longer holds (R123). -/
def RingSlot.freedBy (sl : RingSlot) (j : Nat) : RingSlot := { sl with hold := sl.hold &&& ~~~(BitVec.twoPow 8 j) }

section
variable {r : Ring} {j n : Nat} {q : RingPos} {sl : RingSlot}

theorem Ring.take_slot (hq : r.pos[j]? = some q) (hsl : r.slots[q.cp]? = some sl) (hph : sl.phase = q.phase)
    (hoff : sl.offer.getLsbD j = true) : r.take j (n + 1) =
      ({ r with pos := listSet r.pos j (q.taken r.slots.length), slots := listSet r.slots q.cp (sl.heldBy j) }, .slot q.cp) := by
  obtain ⟨phase, offer, pass, hold⟩ := sl
  obtain rfl : phase = q.phase := hph
  have hoff' : offer.getLsbD j = true := hoff
  unfold Ring.take
  simp only [hq, hsl, ne_eq, not_true_eq_false, if_false, hoff', if_true]
  rfl

theorem Ring.take_none (hq : r.pos[j]? = some q) (hsl : r.slots[q.cp]? = some sl) (hph : sl.phase ≠ q.phase) :
    r.take j (n + 1) = (r, if r.closed then .closed else .waits) := by
  unfold Ring.take
  simp only [hq, hsl, ne_eq, hph, not_false_eq_true, if_true]

end

/-- The end of an `rpop` that takes, from the ring `r` (R123). -/
def Env.takes (e : Env) (tid ring j sd : Nat) (r : Ring) (rel : Bool) : Res :=
  match r.take j 17 with
  | (r3, .slot i) =>
    .ok (((e.s.modRing tid ring fun _ => r3).modGroup e.gid fun g => g.setSreg sd (BitVec.ofNat 32 i)).synced e.gid)
  | (r3, .closed) => .ok ((e.s.modRing tid ring fun _ => r3).modGroup e.gid fun g => g.setSreg sd 0xFFFFFFFF)
  | (r3, .waits) => .block (e.s.modRing tid ring fun _ => r3) (.ringNext ring j) rel

section
variable {e : Env} {tid k j h : Nat} {x : Team} {r : Ring} {q : RingPos} {sl : RingSlot}

/-- `rpop.take` at a position that holds no slot. -/
theorem Env.rpop_takes (hteam : e.g.team = some tid) (he : RingOnly e.s e.s tid x k r) (ho : r.Open e.g.index j q)
    (hheld : q.held = none) (sd : Nat) : e.rpop k j sd false true = e.takes tid k j sd (r.own e.g.index j q) false := by
  obtain ⟨owner, gone, cp, phase, held⟩ := q
  obtain rfl : held = none := hheld
  unfold Env.rpop
  simp only [hteam, he.team, ho.pos, Ring.notOther ho.own, ne_eq, not_true_eq_false, decide_false, Bool.and_false,
    Bool.false_and, Bool.false_eq_true, if_false, if_true]
  rfl

/-- `rpop` and `rpop.rel` at a position that holds a slot: it is released first. -/
theorem Env.rpop_releases (hteam : e.g.team = some tid) (he : RingOnly e.s e.s tid x k r) (hm : e.marker = false)
    (ho : r.Open e.g.index j q) (hheld : q.held = some h) (hsl : r.slots[h]? = some sl) (sd : Nat) {r1 : Ring}
    (hr1 : r1 = { r with pos := listSet r.pos j { q with owner := some e.g.index, held := none },
                         slots := listSet r.slots h (sl.freedBy j) }) :
    e.rpop k j sd true false = .ok (e.s.modRing tid k fun _ => r1) ∧ e.rpop k j sd true true = e.takes tid k j sd r1 true := by
  obtain ⟨owner, gone, cp, phase, held⟩ := q
  obtain rfl : held = some h := hheld
  have hrel : (r.own e.g.index j ⟨owner, gone, cp, phase, some h⟩).release j
      ⟨some e.g.index, gone, cp, phase, some h⟩ = r1 := by
    rw [hr1, Ring.release]
    simp only [Ring.own, Ring.setPos, hsl, listSet_listSet]
    rfl
  unfold Env.rpop
  simp only [hteam, he.team, ho.pos, Ring.notOther ho.own, hm, Bool.not_false, Bool.not_true, Bool.and_true, Bool.and_false,
    Bool.false_and, Bool.false_eq_true, if_false, if_true, reduceCtorEq, decide_false]
  unfold Ring.own at hrel
  rw [hrel]
  exact ⟨rfl, rfl⟩

end

theorem Group.setSreg_syncAt_rebase (g i : Group) (n : Nat) (v : Word) (tick : Nat) :
    { (g.setSreg n v).rebase i with syncAt := tick } = (({ g with syncAt := tick } : Group).setSreg n v).rebase i := by
  unfold Group.setSreg
  split <;> rfl

/-- A uniform register written, and the group synchronised, over an issue. -/
theorem envOf_sets_synced {s : State} {gid : Nat} {g : Group} {p : Split} {sp : Spec} (n : Nat) (v : Word) :
    ((envOf s gid g p sp).s.modGroup gid fun g => g.setSreg n v).synced gid =
      (envOf s gid g p sp).s.setGroup gid ((({ g with syncAt := s.tick } : Group).setSreg n v).rebase (issuer s g p sp)) := by
  rw [envOf_s, State.modGroup_setGroup, State.synced, State.modGroup_setGroup, State.setGroup_setGroup, ← Group.setSreg_syncAt_rebase]
  conv_lhs => rw [issuer_rebase, Group.rebase_setSreg]
  rfl

section
variable {s : State} {gid tid k j n : Nat} {g : Group} {p : Split} {x : Team} {r r1 : Ring} {q : RingPos} {sl : RingSlot}
  {w : Nat} {st : BitVec 2} {sd : List Nat} {body : Env → Res}

/-- An `rpop` that takes, after what comes before (R123): the next slot is published and offered, the ring is at its end, or it
waits. -/
theorem issue_takes (hr : Ready s gid g p) {rel : Bool} (hs : g.HasS sd)
    (he : RingOnly (envOf s gid g p (ringSpec w st sd)).s (envOf s gid g p (ringSpec w st sd)).s tid x k r)
    (hq : r1.pos[j]? = some q) (hsl : r1.slots[q.cp]? = some sl)
    (hbody : body (envOf s gid g p (ringSpec w st sd)) = (envOf s gid g p (ringSpec w st sd)).takes tid k j n r1 rel) :
    (sl.phase = q.phase → sl.offer.getLsbD j = true → ∃ i t, issue (fun _ _ => ringSpec w st sd) body s = .next t ∧
      Issued i (({ g with syncAt := s.tick } : Group).setSreg n (BitVec.ofNat 32 q.cp)) p (s.after g p 1) ∧ RingSet s t gid i tid x k
        { r1 with pos := listSet r1.pos j (q.taken r1.slots.length), slots := listSet r1.slots q.cp (sl.heldBy j) }) ∧
    (sl.phase ≠ q.phase → r1.closed = true → ∃ i t, issue (fun _ _ => ringSpec w st sd) body s = .next t ∧
      Issued i (g.setSreg n 0xFFFFFFFF) p (s.after g p 1) ∧ RingSet s t gid i tid x k r1) ∧
    (sl.phase ≠ q.phase → r1.closed = false → ∃ i t, issue (fun _ _ => ringSpec w st sd) body s = .next t ∧
      Waits i g p (.ringNext k j) [w] rel s.clock ∧ RingSet s t gid i tid x k r1) := by
  refine ⟨fun hph hoff => ?_, fun hph hc => ?_, fun hph hc => ?_⟩ <;> unfold Env.takes at hbody
  · rw [Ring.take_slot hq hsl hph hoff] at hbody
    have hu := he.modRing fun _ => { r1 with pos := listSet r1.pos j (q.taken r1.slots.length),
                                             slots := listSet r1.slots q.cp (sl.heldBy j) }
    refine issue_sets_ring hr (ringSpec_r58 hs) rfl hu (hbody.trans (congrArg Res.ok ?_)) (by simp) (by simp)
      (by simp [hr.settled.2.1]) (by simp [hr.settled.2.2.2])
    rw [envOf_gid, RingOnly.modGroup_issuer hu fun i => Group.rebase_setSreg .., State.synced, State.modGroup_setGroup,
      Group.setSreg_syncAt_rebase]
    exact congrArg (fun c => State.setGroup _ gid
      ((({ g with syncAt := c } : Group).setSreg n (BitVec.ofNat 32 q.cp)).rebase _)) hu.clock_tick.2
  · rw [Ring.take_none hq hsl hph, hc] at hbody
    have hu := he.modRing fun _ => r1
    refine issue_sets_ring hr (ringSpec_r58 hs) rfl hu (hbody.trans (congrArg Res.ok ?_)) (by simp) (by simp)
      (by simp [hr.settled.2.1]) (by simp [hr.settled.2.2.2])
    exact RingOnly.modGroup_issuer hu fun i => Group.rebase_setSreg ..
  · rw [Ring.take_none hq hsl hph, hc] at hbody
    exact issue_ring_waits hr (ringSpec_r58 hs) rfl rfl (he.modRing fun _ => r1) hbody

end

section
variable {s : State} {gid tid h : Nat} {g : Group} {p : Split} {x : Team} {r : Ring} {q : RingPos} {sl nx : RingSlot}

/-- `rpop.rel` of a held slot (R123). -/
theorem execRpopRel_releases {f : RpopRel} (hr : Ready s gid g p) (hteam : g.team = some tid) (hx : s.team tid = some x)
    (hring : x.ring f.ring.toNat = some r) (ho : r.Open g.index f.pos.toNat q) (hheld : q.held = some h)
    (hsl : r.slots[h]? = some sl) :
    ∃ k t, execRpopRel f s = .next t ∧ Issued k g p (s.after g p 1) ∧ RingSet s t gid k tid x f.ring.toNat
      { r with pos := listSet r.pos f.pos.toNat { q with owner := some g.index, held := none },
               slots := listSet r.slots h (sl.freedBy f.pos.toNat) } := by
  obtain ⟨ht, hi, he⟩ := envOf_ring (s := s) (gid := gid) (p := p) (sp := ringSpec (packRpopRel 0xE1E00008 f) f.st []) hteam hx hring
  rw [← hi] at ho ⊢
  refine issue_sets_ring hr (ringSpec_r58 nofun) rfl (he.modRing fun _ => _) (h := g) ?_ rfl rfl hr.settled.2.1 hr.settled.2.2.2
  rw [← issuer_rebase, RingOnly.setGroup_self (he.modRing fun _ => _)]
  exact (Env.rpop_releases ht he rfl ho hheld hsl 63 rfl).1

/-- `rpop.take` at a position that holds no slot (R123). -/
theorem execRpopTake_takes {f : Rpop} (hr : Ready s gid g p) (hteam : g.team = some tid) (hx : s.team tid = some x)
    (hring : x.ring f.ring.toNat = some r) (ho : r.Open g.index f.pos.toNat q) (hheld : q.held = none)
    (hsl : r.slots[q.cp]? = some sl) (hs : g.HasS [f.sd.toNat]) :
    (sl.phase = q.phase → sl.offer.getLsbD f.pos.toNat = true → ∃ k t, execRpopTake f s = .next t ∧
      Issued k (({ g with syncAt := s.tick } : Group).setSreg f.sd.toNat (BitVec.ofNat 32 q.cp)) p (s.after g p 1) ∧
      RingSet s t gid k tid x f.ring.toNat
        { r with pos := listSet r.pos f.pos.toNat (({ q with owner := some g.index } : RingPos).taken r.slots.length),
                 slots := listSet r.slots q.cp (sl.heldBy f.pos.toNat) }) ∧
    (sl.phase ≠ q.phase → r.closed = true → ∃ k t, execRpopTake f s = .next t ∧
      Issued k (g.setSreg f.sd.toNat 0xFFFFFFFF) p (s.after g p 1) ∧
      RingSet s t gid k tid x f.ring.toNat (r.own g.index f.pos.toNat q)) ∧
    (sl.phase ≠ q.phase → r.closed = false → ∃ k t, execRpopTake f s = .next t ∧
      Waits k g p (.ringNext f.ring.toNat f.pos.toNat) (encode (.rpopTake f)) false s.clock ∧
      RingSet s t gid k tid x f.ring.toNat (r.own g.index f.pos.toNat q)) := by
  obtain ⟨ht, hi, he⟩ := envOf_ring (s := s) (gid := gid) (p := p) (sp := ringSpec (packRpop 0xE1E00004 f) f.st [f.sd.toNat])
    hteam hx hring
  have hbody := Env.rpop_takes ht he (by rwa [hi]) hheld f.sd.toNat
  rw [hi] at hbody
  have h := issue_takes (r1 := r.own g.index f.pos.toNat q) (sl := sl)
    (body := fun e => e.rpop f.ring.toNat f.pos.toNat f.sd.toNat false true) hr hs he (getElem?_listSet_self ho.pos _) hsl hbody
  simp only [Ring.own, Ring.setPos, listSet_listSet] at h ⊢
  exact h

/-- `rpop` at a position that holds a slot other than the next one, which is offered to it (R123). -/
theorem execRpop_takes {f : Rpop} (hr : Ready s gid g p) (hteam : g.team = some tid) (hx : s.team tid = some x)
    (hring : x.ring f.ring.toNat = some r) (ho : r.Open g.index f.pos.toNat q) (hheld : q.held = some h)
    (hsl : r.slots[h]? = some sl) (hne : h ≠ q.cp) (hnx : r.slots[q.cp]? = some nx) (hph : nx.phase = q.phase)
    (hoff : nx.offer.getLsbD f.pos.toNat = true) (hs : g.HasS [f.sd.toNat]) :
    ∃ k t, execRpop f s = .next t ∧
      Issued k (({ g with syncAt := s.tick } : Group).setSreg f.sd.toNat (BitVec.ofNat 32 q.cp)) p (s.after g p 1) ∧
      RingSet s t gid k tid x f.ring.toNat
        { r with pos := listSet r.pos f.pos.toNat (({ q with owner := some g.index } : RingPos).taken r.slots.length),
                 slots := listSet (listSet r.slots h (sl.freedBy f.pos.toNat)) q.cp (nx.heldBy f.pos.toNat) } := by
  obtain ⟨ht, hi, he⟩ := envOf_ring (s := s) (gid := gid) (p := p) (sp := ringSpec (packRpop 0xE1E0000C f) f.st [f.sd.toNat])
    hteam hx hring
  have hbody := (Env.rpop_releases ht he rfl (by rwa [hi]) hheld hsl f.sd.toNat rfl).2
  rw [hi] at hbody
  have h := (issue_takes (q := { q with owner := some g.index, held := none }) (sl := nx) (body := fun e => e.rpop f.ring.toNat f.pos.toNat f.sd.toNat true true) hr hs he
    (getElem?_listSet_self ho.pos _) (by rw [getElem?_listSet_ne hne]; exact hnx) hbody).1 hph hoff
  simp only [listSet_listSet, length_listSet] at h
  exact h

/-- A ring that is not registered traps (R120). -/
theorem exec_ring_traps {f : Rpop} {y : Part} (hr : Ready s gid g p) (hteam : g.team = some tid) (hx : s.team tid = some x)
    (hring : x.ring f.ring.toNat = none) (hs : g.HasS [f.sd.toNat]) (hy : Outside s g y) {i : Instr}
    (hi : i = .rpop f ∨ i = .rpopTake f) :
    ∃ t w, exec i s = .next t ∧ encode i = [w] ∧ TrapEntered s t y gid g p 0x16 (tvalWords w 0) p.mask := by
  have key : ∀ w rel, issue (fun _ _ => ringSpec w f.st [f.sd.toNat])
      (fun e => e.rpop f.ring.toNat f.pos.toNat f.sd.toNat rel true) s = .next (s.takeTrap gid g p 0x16 (tvalWords w 0) p.mask) := by
    intro w rel
    refine issue_body_traps_split hr (ringSpec_r58 hs) rfl rfl ?_
    have ht : (envOf s gid g p (ringSpec w f.st [f.sd.toNat])).g.team = some tid := (issuer_team ..).trans hteam
    have hg : ((envOf s gid g p (ringSpec w f.st [f.sd.toNat])).s.team tid).bind (fun y => y.ring f.ring.toNat) = none := by
      rw [envOf_s, State.team_setGroup, hx]
      exact hring
    unfold Env.rpop
    simp only [ht, hg]
    rfl
  obtain rfl | rfl := hi
  · exact ⟨_, _, key _ _, rfl, State.takeTrap_entered hy (by decide)⟩
  · exact ⟨_, _, key _ _, rfl, State.takeTrap_entered hy (by decide)⟩

end

/-! ## Pots -/

section
variable {s : State} {gid tid o : Nat} {g : Group} {p : Split} {x : Team} {sp : Spec}

theorem envOf_team (hteam : g.team = some tid) (hx : s.team tid = some x) : (envOf s gid g p sp).team = some x := by
  unfold Env.team
  rw [envOf_g, issuer_team, hteam]
  exact hx

theorem envOf_potTrap (hteam : g.team = some tid) (hx : s.team tid = some x) (hal : o % 16 = 0) (hin : o + 16 ≤ x.winLen) :
    (envOf s gid g p sp).potTrap o = none := by
  unfold Env.potTrap
  rw [envOf_team hteam hx]
  simp only [hal, ne_eq, not_true_eq_false, if_false, Option.map_some, Option.getD_some]
  rw [if_neg (by omega)]

end

/-- The first 12 bytes of a pot that has just been set: COUNT 0, a target and STATE 0 (R303, R304). -/
def potBytes (target : Word) : List Byte := toBytes 4 0 ++ toBytes 4 target.toNat ++ toBytes 4 0

theorem toBytes_get (n x i : Nat) (h : i < (toBytes n x).length) : (toBytes n x)[i] = BitVec.ofNat 8 (x / 256 ^ i) := by
  induction n generalizing x i with
  | zero => exact absurd h (Nat.not_lt_zero i)
  | succ n ih =>
    cases i with
    | zero => simp [toBytes]
    | succ i =>
      have := ih (x / 256) i (by simpa [toBytes] using h)
      simpa [toBytes, Nat.div_div_eq_div_mul, pow_succ'] using this

theorem potBytes_get (target : Word) (i : Nat) (h : i < (potBytes target).length) :
    (potBytes target)[i] = if 4 ≤ i ∧ i < 8 then target.extractLsb' (8 * (i - 4)) 8 else 0 := by
  have hlen : (potBytes target).length = 12 := rfl
  have hword : ∀ k, BitVec.ofNat 8 (target.toNat / 256 ^ k) = target.extractLsb' (8 * k) 8 := fun k => by
    rw [show (256 : Nat) = 2 ^ 8 from rfl, ← pow_mul, ← Nat.shiftRight_eq_div_pow]
    rfl
  simp only [potBytes, List.getElem_append, toBytes_zero, List.getElem_replicate, toBytes_get, List.length_append, List.length_replicate,
    length_toBytes, hword]
  split
  · split
    · rw [if_neg (by omega)]
    · rw [if_pos (by omega)]
  · rw [if_neg (by omega)]

theorem State.setSbytes_setGroup (s : State) (gid : Nat) (i : Group) (k : Nat) (bs : List Byte) :
    (s.setGroup gid i).setSbytes k bs = (s.setSbytes k bs).setGroup gid i := by
  induction bs generalizing s k with
  | nil => rfl
  | cons b r ih => exact ih (s.setSbyte k b) (k + 1)

/-- The law of an instruction of a ready group that writes bytes of a scratchpad. -/
theorem issue_sets_spad {s : State} {gid : Nat} {g : Group} {p : Split} {sp : Group → Split → Spec} {body : Env → Res}
    {a : Nat} {bs : List Byte} (hr : Ready s gid g p) (h58 : g.r58 (sp g p) = none) (hw : (sp g p).widthIll = false)
    (hbody : body (envOf s gid g p (sp g p)) = .ok ((envOf s gid g p (sp g p)).s.setSbytes a bs)) :
    ∃ k po, issue sp body s = .next { s.setGroup gid k with spad := (s.setSbytes a bs).spad, spadPoison := po } ∧
      Issued k g p (s.after g p (sp g p).words.length) := by
  obtain ⟨po, hpo⟩ := s.setSbytes_only a bs
  rw [envOf_s, State.setSbytes_setGroup] at hbody
  obtain ⟨k, hk, hi⟩ := issue_on hr sp body h58 hw g _ (.inr ⟨hbody, rfl⟩)
    (by rw [State.group_setGroup, if_pos rfl, ← issuer_rebase]) rfl rfl hr.settled.2.1 hr.settled.2.2.2
  refine ⟨k, po, hk.trans ?_, hi⟩
  rw [State.setGroup_setGroup, hpo]
  rfl

section
variable {s : State} {gid tid o : Nat} {g : Group} {p : Split} {x : Team}

/-- `potset` of a pot within the window (R304). -/
theorem execPotset_sets {f : SysAB} (hr : Ready s gid g p) (hs : g.HasS [f.sa.toNat, f.sb.toNat]) (hteam : g.team = some tid)
    (hx : s.team tid = some x) (ho : o = (g.sreg f.sa.toNat).toNat) (hal : o % 16 = 0) (hin : o + 16 ≤ x.winLen) :
    ∃ k sp po, execPotset f s = .next { s.setGroup gid k with spad := sp, spadPoison := po } ∧
      Issued k g p (s.after g p 1) ∧ ∀ a, smapGet memDefault sp a =
        if x.key o ≤ a ∧ a < x.key o + 12 then
          (if x.key o + 4 ≤ a ∧ a < x.key o + 8 then (g.sreg f.sb.toNat).extractLsb' (8 * (a - x.key o - 4)) 8 else 0)
        else s.sbyte a := by
  have hset : ∃ k po, execPotset f s = .next { s.setGroup gid k with
      spad := (s.setSbytes (x.key o) (potBytes (g.sreg f.sb.toNat))).spad, spadPoison := po } ∧ Issued k g p (s.after g p 1) := by
    refine issue_sets_spad hr (Group.r58_none rfl rfl rfl nofun nofun rfl nofun hs nofun nofun rfl) rfl ?_
    simp only [envOf_v, issuer_sreg, ← ho, envOf_potTrap hteam hx hal hin, envOf_team hteam hx]
    rfl
  obtain ⟨k, po, hk, hi⟩ := hset
  refine ⟨k, _, po, hk, hi, fun a => (State.sbyte_setSbytes s (x.key o) (potBytes (g.sreg f.sb.toNat)) a).trans ?_⟩
  have hlen : (potBytes (g.sreg f.sb.toNat)).length = 12 := rfl
  split
  · next h => rw [if_pos (by omega), potBytes_get]; exact if_congr (by omega) rfl rfl
  · next h => rw [if_neg (by omega)]

theorem potwait_r58 {f : Potwait} {ws : List Nat} {st : BitVec 2} {rs : List RegName} {wr : List (RegName × Nat)}
    (hs : g.HasS [f.sd.toNat, f.sa.toNat]) :
    g.r58 { words := ws, stall := st, sNamed := [f.sd.toNat, f.sa.toNat], reads := rs, writes := wr } = none :=
  Group.r58_none rfl rfl rfl nofun nofun rfl nofun hs nofun nofun rfl

/-- `potwait` in its arming form (R305). -/
theorem execPotwait_arms {f : Potwait} (hr : Ready s gid g p) (hs : g.HasS [f.sd.toNat, f.sa.toNat]) (hteam : g.team = some tid)
    (hx : s.team tid = some x) (ho : o = (g.sreg f.sa.toNat).toNat) (hal : o % 16 = 0) (hin : o + 16 ≤ x.winLen)
    (harm : f.arm = true) : ∃ k, execPotwait f s = .next (s.setGroup gid k) ∧
      Issued k { g with armed := some (.pot o) } p (s.after g p 1) := by
  refine issue_upd hr _ _ (potwait_r58 hs) rfl { g with armed := some (.pot o) } ?_ rfl rfl hr.settled.2.1 hr.settled.2.2.2
  simp only [envOf_v, issuer_sreg, ← ho, envOf_potTrap hteam hx hal hin, envOf_team hteam hx, harm, if_true]
  conv_lhs => rw [envOf_g, issuer_rebase]
  rfl

/-- `potwait` of a pot that is reached, or has failed (R305). -/
theorem execPotwait_reads {f : Potwait} (hr : Ready s gid g p) (hs : g.HasS [f.sd.toNat, f.sa.toNat]) (hteam : g.team = some tid)
    (hx : s.team tid = some x) (ho : o = (g.sreg f.sa.toNat).toNat) (hal : o % 16 = 0) (hin : o + 16 ≤ x.winLen)
    (harm : f.arm = false) (hreach : s.potReached (x.key o) = true) : ∃ k, execPotwait f s = .next (s.setGroup gid k) ∧
      Issued k (({ g with syncAt := s.tick } : Group).setSreg f.sd.toNat (if (s.sbyte (x.key o + 8)).getLsbD 0 then 0xFFFFFFFF
        else BitVec.ofNat 32 (ofBytes (s.sbytes (x.key o) 4)))) p (s.after g p 1) := by
  refine issue_upd hr _ _ (potwait_r58 hs) rfl _ ?_ (by simp) (by simp) (by simpa using hr.settled.2.1)
    (by simpa using hr.settled.2.2.2)
  have hreach' : ∀ sp, (envOf s gid g p sp).s.teamPotReached x o = true := fun _ => hreach
  simp only [envOf_v, issuer_sreg, ← ho, envOf_potTrap hteam hx hal hin, envOf_team hteam hx, harm, Bool.false_eq_true, if_false,
    hreach', Bool.or_true, if_true, envOf_gid, envOf_sets_synced]
  rfl

/-- `potwait` of a pot that is not reached (R305). -/
theorem execPotwait_waits {f : Potwait} (hr : Ready s gid g p) (hs : g.HasS [f.sd.toNat, f.sa.toNat]) (hteam : g.team = some tid)
    (hx : s.team tid = some x) (ho : o = (g.sreg f.sa.toNat).toNat) (hal : o % 16 = 0) (hin : o + 16 ≤ x.winLen)
    (harm : f.arm = false) (hreach : s.potReached (x.key o) = false) : ∃ k, execPotwait f s = .next (s.setGroup gid k) ∧
      Waits k g p (.cond (.pot o)) (encode (.potwait f)) false s.clock := by
  refine issue_blocks hr (potwait_r58 hs) rfl rfl ?_
  have hreach' : ∀ sp, (envOf s gid g p sp).s.teamPotReached x o = false := fun _ => hreach
  simp only [envOf_v, issuer_sreg, ← ho, envOf_potTrap hteam hx hal hin, envOf_team hteam hx, harm, Bool.false_eq_true, if_false,
    hreach', envOf_resumed, Bool.or_false]

end

/-! ## The obligation -/

section
variable {s : State} {k : Nat}

theorem State.potReached_of_fail (h : (s.sbyte (k + 8)).getLsbD 0 = true) : s.potReached k = true := by
  rw [State.potReached, h, Bool.or_true]

theorem State.potReached_eq (h : (s.sbyte (k + 8)).getLsbD 0 = false) :
    s.potReached k = decide (ofBytes (s.sbytes (k + 4) 4) ≤ ofBytes (s.sbytes k 4)) := by
  rw [State.potReached, h, Bool.or_false]

end

/-- Settles O34, instruction by instruction. -/
theorem potsAndRings : Obligations.PotsAndRings := by
  unfold Obligations.PotsAndRings
  refine ⟨fun s gid g p f tid x o hr hs hteam hx ho hal hin => execPotset_sets hr hs hteam hx ho hal hin,
    fun s gid g p f tid x o hr hs hteam hx ho hal hin => ⟨fun harm => execPotwait_arms hr hs hteam hx ho hal hin harm,
      fun harm hfail => ?_, fun harm hok hle => ?_, fun harm hok hlt => ?_⟩,
    fun s gid g p f tid x r c sl hr hteam hx hring hown hc hsl hne hlt =>
      execRpushPub_publishes hr hteam hx hring ⟨hown, hc, hsl, hne, hlt⟩,
    fun s gid g p f tid x r hr hteam hx hring hown hc hs => execRpushClaim_claims hr hteam hx hring hown hc hs,
    fun s gid g p f tid x r r1 c sl hr hteam hx hring hown hc hsl hne hlt hs hr1 => ?_,
    fun s gid g p f tid x r q h sl hr hteam hx hring hq hown hheld hsl =>
      execRpopRel_releases hr hteam hx hring ⟨hq, hown⟩ hheld hsl,
    fun s gid g p f tid x r q sl hr hteam hx hring hq hown hheld hsl hs =>
      execRpopTake_takes hr hteam hx hring ⟨hq, hown⟩ hheld hsl hs,
    fun s gid g p f tid x r q h sl nx hr hteam hx hring hq hown hheld hsl hne hnx hph hoff hs =>
      execRpop_takes hr hteam hx hring ⟨hq, hown⟩ hheld hsl hne hnx hph hoff hs,
    fun s gid g p f tid x y hr hteam hx hring hs hh hy i hi => exec_ring_traps hr hteam hx hring hs ⟨hh, hy⟩ hi⟩
  · have h := execPotwait_reads hr hs hteam hx ho hal hin harm (State.potReached_of_fail hfail)
    rwa [hfail] at h
  · have h := execPotwait_reads hr hs hteam hx ho hal hin harm ((State.potReached_eq hok).trans (decide_eq_true hle))
    rwa [hok] at h
  · exact execPotwait_waits hr hs hteam hx ho hal hin harm ((State.potReached_eq hok).trans (decide_eq_false (not_le.2 hlt)))
  · subst hr1
    exact execRpush_publishes hr hteam hx hring ⟨hown, hc, hsl, hne, hlt⟩ hs

end Sys2Proof.Machine
end

section
/-! # O52: checkpoints, the partition table and Ethernet ports (R134, R294, R340, R345, R379, R380, R400, R401, R409 to R412)

Of a transmit queue the statement takes the length of the next frame from the bytes at home. A port reads as R369 lets the group
that issues read: over bytes that this group's own stores have left waiting on the page. A page without replicas may hold such
bytes, and then the length read is another one. -/
namespace Sys2Proof.Machine

/-- A partition with port 0, whose transmit queue has its header at physical address 0x100 (R352, R412). -/
def portedPart : Part :=
  { Part.fresh { live := true, clust := 1, region := 1, slots := [], eth := 1, ethAddr := [], streamBase := 0, streamCount := 0,
                 domain := 0, kitty := 1, houseCore := 15, houseText := 0 } with ethTx := [0x0100000000000100] }

/-- Frame 0, not duplicated, with one byte held for group 7: the low byte of the frame length at 0x1000. -/
def holdingPage : PageRec := { PageRec.fresh 0 with held := [{ by_ := some 7, pa := 0x1000, key := none, bytes := [1] }] }

/-- Port 0 is usable, and group 7 issues. The header at 0x100 has BASE at physical address 0x1000, SIZE 128, WRITE 16 and READ 0, and
the queue's bytes are 0 at home: an empty frame. -/
def heldFrameState : State :=
  { State.reset with
    cur := some 7, pkg := { Pkg.reset with readyM := 0x01000000 }, parts := [(0, portedPart)],
    mem := [(0x101, 0x10), (0x107, 1), (0x108, 0x80), (0x10C, 0x10)], pages := [(0, holdingPage)] }

/-- The header as the port reads it. -/
def heldFrameHeader : QueueHeader :=
  { base := 0x0100000000001000, size := 128, write := 16, read := 0, pot := 0, seat := 0 }

theorem noReplicas_heldFrameState : heldFrameState.NoReplicas := by
  intro r hr
  obtain rfl : r = (0, holdingPage) := by simpa [heldFrameState] using hr
  rfl

theorem queueHeader_heldFrameState : heldFrameState.queueHeader 0 0x0100000000000100 = some heldFrameHeader := by decide

theorem portPlace_unit_heldFrameState :
    heldFrameState.portPlace 0 0x0100000000001000 16 .read = some (.direct 0x1000 none) := by decide

theorem portPlace_read_heldFrameState :
    heldFrameState.portPlace 0 0x0100000000000110 4 .write = some (.direct 0x110 none) := by decide

/-- The one unit that an empty frame has stands at 0x1000. -/
theorem unitPlaces_heldFrameState : UnitPlaces heldFrameState 0 heldFrameHeader 0 1 .read fun _ => 0x1000 where
  at_ := by
    intro i hi
    obtain rfl : i = 0 := by omega
    exact ⟨0, .direct 0x1000, [], portPlace_unit_heldFrameState, by intro e he; cases he⟩
  apart := by
    intro i hi j hj hij
    omega

/-- With the held byte the frame has length 1, and its second unit has not been written yet: nothing is sent. -/
theorem exec_ethTransmit_heldFrameState : exec (.ethTransmit 0) heldFrameState = .next heldFrameState := by
  have howner : heldFrameState.portOwner 0 = some (0, portedPart) := rfl
  have hhdr : portedPart.ethTx[0]? = some 0x0100000000000100 := rfl
  have hok : queueOk heldFrameHeader.base heldFrameHeader.size 0 16 = true := by decide
  have hready : (heldFrameHeader.write + 4294967296 - heldFrameHeader.read) % 4294967296 = 16 := rfl
  have hunit : heldFrameState.readUnits 0 heldFrameHeader 1 heldFrameHeader.read = some (1 :: List.replicate 15 0) := by decide
  have hlen : ofBytes [1#8, 0#8] = 1 := rfl
  show execEthTransmit 0 heldFrameState = _
  simp [execEthTransmit, howner, hhdr, queueHeader_heldFrameState, hok, hready, hunit, hlen]

/-- Refutes O52: the next frame of a transmit queue, empty at home, is not sent when the length that the port reads is that of a
byte held for the issuing group on a page without replicas. -/
theorem not_checkpointsAndPorts : ¬ Obligations.CheckpointsAndPorts := by
  unfold Obligations.CheckpointsAndPorts
  rintro ⟨_, _, _, _, _, _, transmit, _⟩
  obtain ⟨_, sends⟩ := transmit heldFrameState 0 0 portedPart heldFrameHeader 0x0100000000000100 0 (fun _ => 0x1000)
    (.direct 0x110 none) [] rfl rfl (by decide) queueHeader_heldFrameState
  obtain ⟨t, ht, sent, _⟩ := sends (by decide) unitPlaces_heldFrameState noReplicas_heldFrameState (by decide) (by decide)
    portPlace_read_heldFrameState (by intro e he; cases he) (by decide)
  obtain rfl : heldFrameState = t := by simpa [exec_ethTransmit_heldFrameState] using ht
  have hlen := congrArg (fun k => k.ethSent.length) sent
  simp at hlen

end Sys2Proof.Machine
end

section
/-! # O33: the copy engine (R119, R122, R290 to R297, R340)

The statement says that a chunk leaves the ciphertext of its line on a keyed page. A state may hold a key pair of any number of
bytes: under an empty one AES has no round keys, no byte of ciphertext comes of a line, and none is written. -/
namespace Sys2Proof.Machine

/-- An empty key pair gives no round key. -/
theorem aesKeys_nil_last : (aesKeys []).getD 14 [] = [] := by decide

theorem xorList_nil_right (l : List Nat) : xorList l [] = [] := by
  cases l <;> rfl

/-- Without a last round key a block has no ciphertext. -/
theorem aesEnc_of_no_last_key {ks : List (List Nat)} (h : ks.getD 14 [] = []) (b : List Nat) : aesEnc ks b = [] := by
  unfold aesEnc
  rw [h, xorList_nil_right]

/-- A cipher without output gives no byte of a data unit. -/
theorem xtsBlocks_of_no_output {f : List Nat → List Nat} (h : ∀ b, f b = []) (n t : Nat) (l : List Nat) : xtsBlocks f n t l = [] := by
  induction n generalizing t l with
  | zero => rfl
  | succ n ih =>
    simp only [xtsBlocks]
    rw [h, ih]
    rfl

/-- A line has no ciphertext under an empty key pair. -/
theorem xtsEncLine_nil (pa : Nat) (line : List Byte) : xtsEncLine [] pa line = [] := by
  have hout : ∀ b, aesEnc (aesKeys []) b = [] := aesEnc_of_no_last_key aesKeys_nil_last
  simp only [xtsEncLine, List.map_nil, List.take_nil, xtsBlocks_of_no_output hout]

/-- A partition with its tables at 0x10000 and an empty pair under key number 1. -/
def emptyKeyPart : Part :=
  { Part.fresh { live := true, clust := 1, region := 1, slots := [], eth := 0, ethAddr := [], streamBase := 0, streamCount := 0,
                 domain := 0, kitty := 1, houseCore := 0, houseText := 0 } with ptroot := 0x10001, keys := [(1, [])] }

/-- A privileged copy of the 16 bytes at physical address 0x40000 to virtual address 0. -/
def keyedCopy : Copy where
  gid := 0
  tag := 0
  kind := .cpy
  priv := true
  words := []
  src := 0x0100000000040000
  dst := 0
  rows := 1
  rowBytes := 16
  dpitch := 0
  spitch := 0
  arg := 0
  pot := 0
  potOn := false
  ovtab := 0
  mask := 0
  ring := 0
  slot := 0
  st := .moving
  pos := 0
  moved := 0
  lines := []
  walked := []
  qoff := 0
  qbase := 0
  qsize := 0
  qpot := 0
  qseat := 0
  header := false
  retiredAt := 0
  cancelled := false
  cause := 0
  badAddr := 0
  dof := false
  locks := []
  waitsLocks := false
  wants := []

/-- The house program's group copies. Virtual address 0 is in a page of 512 MiB at 0x20000000 under key number 1, whose entry at
0x30000 has its A bit. -/
def emptyKeyState : State :=
  { State.reset with
    parts := [(0, emptyKeyPart)], groups := [(0, houseGroup 0 0 0)], copies := [(5, keyedCopy)],
    mem := [(0x10000, 0x01), (0x10001, 0x07), (0x10002, 0x02), (0x20000, 0x01), (0x20001, 0x07), (0x20002, 0x03),
            (0x30000, 0x43), (0x30001, 0x08), (0x30003, 0x20)] }

/-- The destination of the copy. -/
def keyedPlace : Place :=
  .phys 0x20000000 0 (some []) { entry := some 0x30000, level := 2, pte := 0x20000843, va := 0, rd := 0x20000000 }
    [0x600, 0x400, 0x200]

theorem engineCheck_emptyKeyState :
    emptyKeyState.engineCheck (emptyKeyState.copyAgent keyedCopy) 0 16 .write = .ok keyedPlace := by rfl

theorem enginePlaces_emptyKeyState :
    emptyKeyState.enginePlaces (emptyKeyState.copyAgent keyedCopy) (keyedCopy.ranges emptyKeyState 0 0 16) =
      [.direct 0x40000 none] := by rfl

theorem works_emptyKeyState : Works emptyKeyState 5 keyedCopy (houseGroup 0 0 0) where
  copy := rfl
  group := rfl
  locks := rfl
  sound := ⟨rfl, rfl⟩
  turn := .inr fun e he hlt => by
    obtain rfl : e = (5, keyedCopy) := by simpa [emptyKeyState] using he
    exact absurd hlt (by decide)
  awake := by decide

/-- Reading the source changes no byte: the physical window has no entry to mark (R352, R353). -/
theorem byte_sourceRead_emptyKeyState {s1 : State}
    (h : SourceRead emptyKeyState s1 (emptyKeyState.copyAgent keyedCopy) (keyedCopy.ranges emptyKeyState 0 0 16)) (a : Nat) :
    s1.byte a = emptyKeyState.byte a := by
  obtain ⟨_, _, hbyte⟩ := h
  obtain hsame | ⟨_, x, hx, hentry⟩ := hbyte a
  · exact hsame
  · rw [enginePlaces_emptyKeyState, List.mem_singleton] at hx
    subst hx
    cases hentry

/-- Refutes O33: under an empty key pair, which has no ciphertext, a chunk does not leave 128 bytes of ciphertext in its line. -/
theorem not_copyEngine : ¬ Obligations.CopyEngine := by
  unfold Obligations.CopyEngine
  rintro ⟨chunk, _⟩
  obtain ⟨s1, t, ws, _, hread, hstored, _⟩ := chunk emptyKeyState 5 keyedCopy _ works_emptyKeyState 0 0 16 0 (List.replicate 16 0) false
    keyedPlace rfl rfl (by decide) (by intro r hr; cases hr) rfl rfl rfl (by decide) (by rfl) rfl engineCheck_emptyKeyState
  have hmarked : Marked s1 keyedPlace := by
    intro e he
    obtain rfl : e = 0x30000 := by simpa [keyedPlace, Place.entryAt] using he.symm
    have hpte : s1.memNat 0x30000 8 = emptyKeyState.memNat 0x30000 8 := by
      simp only [State.memNat, State.bytes, funext (byte_sourceRead_emptyKeyState hread)]
    rw [hpte]
    decide
  have hline := hstored.keyed _ _ _ _ _ rfl hmarked (by decide)
  rw [xtsEncLine_nil] at hline
  exact absurd (congrArg List.length hline) (by simp [State.bytes, length_upFrom])

end Sys2Proof.Machine
end

section
/-! # What the translation of an access leaves (R353, R355, R366)

A translation that is installed, and the request that is counted, change the caches, the directory and the page records, set the A
bit of the entry that a walk ended in, and may clear last-page registers. Said once, as a relation between two states. -/
namespace Sys2Proof.Machine

/-- `t` is `s` after translations: the caches, the directory, the page records, the last-page registers of groups, and the A bit of
entries among `E` may differ, with the poison of those bytes. -/
structure Cached (s t : State) (E : Nat → Prop) : Prop where
  only : ∃ gs d pg tl dt m po, t = { s with groups := gs, dir := d, pages := pg, tlbs := tl, dieTlbs := dt, mem := m, poison := po }
  groups : ∀ id, (t.group id).map (fun q => { q with lastPages := [] }) = (s.group id).map fun q => { q with lastPages := [] }
  bytes : ∀ a, t.byte a = s.byte a ∨ (t.byte a = s.byte a ||| 0x40 ∧ E a)
  plain : s.NoReplicas → t.NoReplicas

variable {s t u : State} {E F : Nat → Prop}

theorem Cached.refl : Cached s s E :=
  ⟨⟨_, _, _, _, _, _, _, rfl⟩, fun _ => rfl, fun _ => .inl rfl, id⟩

theorem Cached.mono (h : Cached s t E) (hEF : ∀ a, E a → F a) : Cached s t F :=
  ⟨h.only, h.groups, fun a => (h.bytes a).imp_right fun ⟨hb, he⟩ => ⟨hb, hEF a he⟩, h.plain⟩

theorem byte_or_mark_twice (b : Byte) : b ||| 0x40 ||| 0x40 = b ||| 0x40 := by
  rw [BitVec.or_assoc, BitVec.or_self]

theorem Cached.trans (h : Cached s t E) (k : Cached t u E) : Cached s u E where
  only := by
    obtain ⟨_, _, _, _, _, _, _, rfl⟩ := h.only
    obtain ⟨_, _, _, _, _, _, _, rfl⟩ := k.only
    exact ⟨_, _, _, _, _, _, _, rfl⟩
  groups id := (k.groups id).trans (h.groups id)
  bytes a := by
    obtain hk | ⟨hk, he⟩ := k.bytes a
    · rw [hk]
      exact h.bytes a
    · obtain hh | ⟨hh, -⟩ := h.bytes a
      · exact .inr ⟨by rw [hk, hh], he⟩
      · exact .inr ⟨by rw [hk, hh, byte_or_mark_twice], he⟩
  plain hs := k.plain (h.plain hs)

theorem Cached.foldl {α : Type} {f : State → α → State} {l : List α} (hf : ∀ t, ∀ a ∈ l, Cached t (f t a) E) (s : State) :
    Cached s (l.foldl f s) E := by
  induction l generalizing s with
  | nil => exact .refl
  | cons a r ih => exact (hf s a (by simp)).trans (ih (fun t b hb => hf t b (by simp [hb])) (f s a))

/-- A bit of a byte that is 1 stays 1. -/
theorem Cached.getLsbD (h : Cached s t E) {a b : Nat} (hb : (s.byte a).getLsbD b = true) : (t.byte a).getLsbD b = true := by
  obtain hk | ⟨hk, -⟩ := h.bytes a
  · rw [hk, hb]
  · rw [hk, BitVec.getLsbD_or, hb, Bool.true_or]

/-- Where no entry is marked, no byte differs. -/
theorem Cached.byte_eq (h : Cached s t E) {a : Nat} (ha : ¬E a) : t.byte a = s.byte a :=
  (h.bytes a).resolve_right fun hk => ha hk.2

/-! ## The operations -/

/-- The directory and the caches hold nothing that the relation compares. -/
theorem cached_caches {d tl dt} : Cached s { s with dir := d, tlbs := tl, dieTlbs := dt } E :=
  ⟨⟨_, _, _, _, _, _, _, rfl⟩, fun _ => rfl, fun _ => .inl rfl, id⟩

theorem cached_setDir {line e} : Cached s (s.setDir line e) E := cached_caches

theorem cached_dirFill {line w} : Cached s (s.dirFill line w) E := by
  unfold State.dirFill
  dsimp only
  split
  · exact .refl
  · exact cached_setDir

theorem cached_dropHolder {w left ls} : Cached s (s.dropHolder w left ls) E := by
  refine Cached.foldl (fun t l _ => ?_) s
  dsimp only
  split
  · exact .refl
  · exact cached_setDir

theorem keepPages_lastPages {core left gid} {g : Group} :
    { keepPages core left gid g with lastPages := [] } = { g with lastPages := [] } := by
  unfold keepPages
  split <;> rfl

theorem cached_tlbDrop {core out} : Cached s (s.tlbDrop core out) E := by
  unfold State.tlbDrop
  dsimp only
  refine Cached.trans ?_ cached_dropHolder
  set left := (smapGet [] s.tlbs core).filter fun e => !out e
  refine ⟨⟨_, _, _, _, _, _, _, rfl⟩, fun id => ?_, fun _ => .inl rfl, fun hs => hs⟩
  have hmap : s.groups.map (fun (g : Nat × Group) =>
      if coreOf g.1 = core then
        (g.1, { g.2 with lastPages := g.2.lastPages.filter fun q => left.any fun e => e.va == q.2 })
      else g) = s.groups.map fun e => (e.1, keepPages core left e.1 e.2) :=
    List.map_congr_left fun e _ => by unfold keepPages; split <;> rfl
  show (tabGet (s.groups.map _) id).map _ = (tabGet s.groups id).map _
  rw [hmap, tabGet_mapEntries, Option.map_map]
  cases tabGet s.groups id with
  | none => rfl
  | some g => exact congrArg some keepPages_lastPages

theorem cached_dieTlbDrop {die out} : Cached s (s.dieTlbDrop die out) E := by
  unfold State.dieTlbDrop
  exact Cached.trans (cached_caches (tl := s.tlbs)) cached_dropHolder

theorem cached_dieTlbAdd {die e} : Cached s (s.dieTlbAdd die e) E := by
  unfold State.dieTlbAdd
  dsimp only
  split
  · exact .refl
  · refine Cached.trans ?_ (Cached.foldl (fun _ _ _ => cached_dirFill) _)
    split
    · exact cached_caches
    · exact cached_dieTlbDrop.trans cached_caches

theorem cached_tlbAdd {core e} : Cached s (s.tlbAdd core e) E := by
  unfold State.tlbAdd
  dsimp only
  split
  · exact .refl
  · refine Cached.trans ?_ (Cached.foldl (fun _ _ _ => cached_dirFill) _)
    split
    · exact cached_caches
    · exact cached_tlbDrop.trans cached_caches

/-- The record of a page without replicas has none. -/
theorem State.NoReplicas.page (h : s.NoReplicas) (part f : Nat) : (s.page part f).replicas = [] := by
  unfold State.page
  cases hf : tabGet s.pages f with
  | none => rfl
  | some r => exact h _ (mem_of_tabGet hf)

theorem cached_setPage {f} {r : PageRec} (hr : s.NoReplicas → r.replicas = []) : Cached s (s.setPage f r) E where
  only := ⟨_, _, _, _, _, _, _, rfl⟩
  groups _ := rfl
  bytes _ := .inl rfl
  plain hs e he := by
    obtain rfl | he := mem_smapInsert he
    · exact hr hs
    · exact hs e he

theorem cached_setMark {a : Nat} (ha : E a) : Cached s (s.setByte a (s.byte a ||| 0x40)) E where
  only := ⟨_, _, _, _, _, _, _, rfl⟩
  groups _ := rfl
  bytes b := by
    rw [State.byte_setByte]
    split
    · next h => subst h; exact .inr ⟨rfl, ha⟩
    · exact .inl rfl
  plain hs := hs

/-- The entry that a place was translated by, where its A bit is not 1 yet. -/
def Place.unmarked (s : State) (p : Place) (a : Nat) : Prop := p.entryAt = some a ∧ pteA (s.memNat a 8) = false

theorem cached_markEntry {part pa : Nat} {src : Source} {entry : Nat} (he : pteA (s.memNat entry 8) = false → E entry) :
    Cached s (s.markEntry part pa src entry) E := by
  unfold State.markEntry
  dsimp only
  split
  · exact cached_setPage fun hs => hs.page part _
  · next hA =>
    exact (cached_setMark (he (by simpa using hA))).trans (cached_setPage fun hs => hs.page part _)

theorem cached_install {part core : Nat} {p : Place} : Cached s (s.install part core p) (p.unmarked s) := by
  unfold State.install
  split
  · exact .refl
  · split
    · exact .refl
    · next hsrc =>
      dsimp only
      split
      · exact .refl
      · split
        · exact cached_tlbAdd
        · exact ((cached_markEntry fun hA => ⟨hsrc, hA⟩).trans cached_dieTlbAdd).trans cached_tlbAdd

theorem cached_installRemote {part : Nat} {p : Place} : Cached s (s.installRemote part p) (p.unmarked s) := by
  unfold State.installRemote
  split
  · exact .refl
  · split
    · exact .refl
    · next hsrc => exact (cached_markEntry fun hA => ⟨hsrc, hA⟩).trans cached_dieTlbAdd

theorem cached_countPage {part core : Nat} {p : Place} : Cached s (s.countPage part core p) E := by
  unfold State.countPage
  split
  · exact .refl
  · exact cached_setPage fun hs => hs.page part _

theorem cached_modPages {gid : Nat} {f : Group → List (Nat × Nat)} :
    Cached s (s.modGroup gid fun g => { g with lastPages := f g }) E := by
  cases hg : s.group gid with
  | none => simpa [State.modGroup, hg] using Cached.refl
  | some g =>
    rw [State.modGroup_some hg]
    refine ⟨⟨_, _, _, _, _, _, _, rfl⟩, fun id => ?_, fun _ => .inl rfl, fun hs => hs⟩
    rw [State.group_setGroup]
    split
    · next h => subst h; rw [hg]; rfl
    · rfl

theorem cached_lastPage {gid lane : Nat} {p : Place} : Cached s (s.lastPage gid lane p) E := by
  unfold State.lastPage
  split
  · exact .refl
  · split
    · exact .refl
    · exact cached_modPages

/-! ## The A bit of the entry -/

theorem bit_ofBytes_cons (b : Byte) (l : List Byte) {n : Nat} (hn : n < 8) : bit (ofBytes (b :: l)) n = b.getLsbD n := by
  have hsum : ofBytes (b :: l) = 2 ^ 8 * ofBytes l + b.toNat := Nat.add_comm _ _
  rw [bit_eq_testBit, hsum, Nat.testBit_two_pow_mul_add _ b.isLt, if_pos hn, BitVec.testBit_toNat]

theorem pteA_memNat (s : State) (a : Nat) : pteA (s.memNat a 8) = (s.byte a).getLsbD 6 :=
  bit_ofBytes_cons (s.byte a) _ (by decide)

theorem getLsbD_byte_markEntry {part pa : Nat} {src : Source} {entry : Nat} :
    ((s.markEntry part pa src entry).byte entry).getLsbD 6 = true := by
  unfold State.markEntry
  dsimp only
  split
  · next hA => rwa [pteA_memNat] at hA
  · show (State.byte (s.setByte _ _) _).getLsbD 6 = true
    rw [State.byte_setByte, if_pos rfl, BitVec.getLsbD_or]
    simp

/-- The translation that a walk gave is installed with the A bit of its entry (R353). -/
theorem getLsbD_byte_install {part core e : Nat} {p : Place} (hw : p.WalkedBy s part core) (he : p.entryAt = some e) :
    ((s.install part core p).byte e).getLsbD 6 = true := by
  cases p with
  | spad k => cases he
  | phys pa kind key src ls =>
    have hsrc : src.entry = some e := he
    obtain ⟨hcore, hdie⟩ := hw pa kind key src ls e rfl hsrc
    have hinst : s.install part core (.phys pa kind key src ls) =
        ((s.markEntry part pa src e).dieTlbAdd (dieOf core)
          { part := part, va := src.va, level := src.level, entry := e, pte := src.pte, lines := ls }).tlbAdd core
            { part := part, va := src.va, level := src.level, entry := e, pte := src.pte, lines := ls } := by
      simp [State.install, hsrc, hcore, hdie]
    rw [hinst]
    exact (cached_dieTlbAdd (E := fun _ => True)).trans cached_tlbAdd |>.getLsbD getLsbD_byte_markEntry

end Sys2Proof.Machine
end

section
/-! # O37: `launch` and `cwait` (R108 to R112, R115)

First what one read through a translation leaves of the state in which an instruction's meaning runs, then the two instructions. -/
namespace Sys2Proof.Machine

section
variable {s w y : State} {gid : Nat} {g h : Group} {p : Split} {sp : Spec} {pl : Place} {lp : List (Nat × Nat)}

theorem issuer_priv : (issuer s g p sp).priv = g.priv := by
  unfold issuer Group.setIssuing Group.account Group.priv
  cases g.handler <;> rfl

/-! ## Last-page registers -/

/-- A group with other last-page registers (R355). -/
def Group.withPages (g : Group) (lp : List (Nat × Nat)) : Group := { g with lastPages := lp }

/-- A group whose last-page registers alone may have changed. -/
theorem Cached.group {E : Nat → Prop} {t : State} (hc : Cached s t E) (hg : s.group gid = some g) :
    ∃ lp, t.group gid = some (g.withPages lp) := by
  have hsame := hc.groups gid
  rw [hg] at hsame
  cases ht : t.group gid with
  | none => rw [ht] at hsame; cases hsame
  | some q =>
    rw [ht] at hsame
    have hq : q.withPages [] = g.withPages [] := Option.some.inj hsame
    refine ⟨q.lastPages, ?_⟩
    show some ((q.withPages []).withPages q.lastPages) = some ((g.withPages []).withPages q.lastPages)
    rw [hq]

theorem Group.withPages_charged_setIssuing (h k : Group) (q : Split) :
    (((h.withPages lp).charged k).setIssuing q).withPages h.lastPages =
      (h.charged (k.withPages h.lastPages)).setIssuing q := by
  unfold Group.setIssuing
  have hh : ((h.withPages lp).charged k).handler = (h.charged (k.withPages h.lastPages)).handler := rfl
  rw [hh]
  cases (h.charged (k.withPages h.lastPages)).handler <;> rfl

/-- What an issue leaves of a group does not depend on its last-page registers. -/
theorem Issued.forget {k : Group} {pc : DWord} (hk : Issued k (h.withPages lp) p pc) : Issued (k.withPages h.lastPages) h p pc := by
  unfold Issued at *
  rw [← Group.withPages_charged_setIssuing (lp := lp), ← hk]

theorem Group.setSreg_withPages_rebase (g i : Group) (n : Nat) (v : Word) (tick : Nat) :
    { (g.rebase i).withPages lp with syncAt := tick }.setSreg n v =
      ((({ g with syncAt := tick } : Group).setSreg n v).withPages lp).rebase i := by
  unfold Group.setSreg
  split <;> rfl

/-- A uniform register written by a group that has synchronised, after its reads (R115, R277). -/
theorem modGroup_setSreg_synced {n : Nat} {v : Word} (hy : y.group gid = some ((issuer s g p sp).withPages lp))
    (htick : y.tick = s.tick) :
    (y.synced gid).modGroup gid (fun g => g.setSreg n v) =
      y.setGroup gid (((({ g with syncAt := s.tick } : Group).setSreg n v).withPages lp).rebase (issuer s g p sp)) := by
  rw [issuer_rebase] at hy
  rw [State.synced, State.modGroup_some hy, State.modGroup_setGroup, htick, Group.setSreg_withPages_rebase]

/-! ## One strong read -/

/-- Nothing of the lines of a place that a cluster's L1 has for the home. -/
theorem l1FlushAll_unsent {cl n : Nat} (hu : Unsent s cl pl n) : s.l1FlushAll cl (pl.lines n) = s := by
  have hline : ∀ l ∈ pl.lines n, s.l1Flush cl l = s := by
    intro l hl
    obtain ⟨hsent, hown⟩ := hu l hl
    have hno : (s.dirEntry l).arriving.filter (fun a => decide (a.1 = cl)) = [] :=
      List.filter_eq_nil_iff.2 fun a ha => by simpa using hsent a ha
    simp only [State.l1Flush, hno, List.map_nil]
    rw [if_pos ⟨trivial, by simpa using hown⟩]
  unfold State.l1FlushAll
  generalize pl.lines n = ls at hline
  induction ls with
  | nil => rfl
  | cons l r ih =>
    rw [List.foldl_cons, hline l (by simp)]
    exact ih fun k hk => hline k (by simp [hk])

/-- What a strong read of one place leaves: its translation, the lane's last-page register and the count of its page. -/
def State.touched (s : State) (part gid lane : Nat) (pl : Place) : State :=
  ((s.install part (coreOf gid) pl).lastPage gid lane pl).countPage part (coreOf gid) pl

theorem readAll_strong {e : Env} {a : LaneAcc} (hu : Unsent s (clusterOf (coreOf e.gid)) pl a.size) (hp : s.poisonAt pl a.size = []) :
    (e.readAll s true false [(a, pl)]).1 = s.touched e.g.part e.gid a.lane pl := by
  simp [Env.readAll, Env.readOne, l1FlushAll_unsent hu, hp, State.notePoison, Env.touch, State.touched]

theorem cached_touched {part lane : Nat} : Cached s (s.touched part gid lane pl) (pl.unmarked s) :=
  (cached_install.trans cached_lastPage).trans cached_countPage

theorem entriesMarked_touched {part lane : Nat} :
    EntriesMarked s (s.touched part gid lane pl) part (coreOf gid) OneAcc fun _ _ => pl where
  set := by
    intro i j e _ hw he
    have hlater : Cached (s.install part (coreOf gid) pl) (s.touched part gid lane pl) fun _ => True :=
      Cached.trans cached_lastPage cached_countPage
    exact hlater.getLsbD (getLsbD_byte_install hw he)
  only := fun a => (cached_touched.bytes a).imp_right fun ⟨hb, he, _⟩ => ⟨hb, 0, 0, ⟨rfl, rfl⟩, he⟩

/-- Group `gid` has issued, after one read through a translation of what its meaning works on. -/
theorem visited_touched {i k : Group} {lane : Nat} (hw : w = (s.setGroup gid i).touched g.part gid lane pl) :
    Visited s (w.setGroup gid k) gid g (k.withPages g.lastPages) s.nextId pl := by
  have hc : Cached (s.setGroup gid i) w (pl.unmarked (s.setGroup gid i)) := hw ▸ cached_touched
  have hm : EntriesMarked (s.setGroup gid i) w g.part (coreOf gid) OneAcc fun _ _ => pl := hw ▸ entriesMarked_touched
  obtain ⟨gs, d, pg, tl, dt, m, po, rfl⟩ := hc.only
  refine ⟨⟨⟨_, _, _, _, _, _, _, s.serial, rfl⟩, ⟨k, ?_, rfl⟩, fun id hid => ?_⟩, ⟨hm.set, hm.only⟩⟩
  · rw [State.group_setGroup, if_pos rfl]
  · rw [State.group_setGroup, if_neg hid, hc.groups id, State.group_setGroup, if_neg hid]

end

/-! ## `launch` -/

/-- What the issue logic knows of `launch` (R112). -/
def launchSpec (f : Launch) (g : Group) : Spec :=
  { words := [packLaunch 0xE1800000 f], stall := f.st, roleBad := !g.priv && g.index ≠ 0,
    sNamed := [f.sd.toNat, 2 * f.k.toNat, 2 * f.k.toNat + 1], access := true, reads := sNames (2 * f.k.toNat) 2,
    writes := [(sName f.sd.toNat, 0)] }

/-- Group 0 of a team, or the house program, may launch (R112). -/
theorem launchSpec_r58 {f : Launch} {g : Group} (hs : g.HasS [f.sd.toNat, 2 * f.k.toNat, 2 * f.k.toNat + 1])
    (hrole : g.priv = true ∨ g.index = 0) : g.r58 (launchSpec f g) = none :=
  Group.r58_none rfl rfl rfl nofun nofun (by obtain h | h := hrole <;> simp [launchSpec, h]) nofun hs nofun nofun rfl

theorem accessesOf_settled {g : Group} (h : g.pend = []) (m : DWord) : g.accessesOf m = [] := by
  simp [Group.accessesOf, h]

section
variable {s : State} {gid : Nat} {g : Group} {p : Split} {f : Launch} {x : Part}

/-- `launch` at depth 9 (R112). -/
theorem execLaunch_traps (hr : Ready s gid g p) (hs : g.HasS [f.sd.toNat, 2 * f.k.toNat, 2 * f.k.toNat + 1])
    (hpriv : g.priv = false) (hindex : g.index = 0) (hdepth : g.depth = 9) (hx : s.part g.part = some x) :
    ∃ t, exec (.launch f) s = .next t ∧ TrapEntered s t x gid g p 0x13 0 p.mask := by
  have htrap : exec (.launch f) s = .next (s.takeTrap gid g p 0x13 0 p.mask) := by
    refine issue_body_traps_split hr (sp := fun g _ => launchSpec f g) (launchSpec_r58 hs (.inr hindex)) rfl rfl ?_
    simp [envOf_g, issuer_priv, hpriv, hdepth]
  have houtside : Outside s g x := by
    obtain ⟨hh, -⟩ : g.handler = none ∧ g.team.isNone = false := by simpa [Group.priv] using hpriv
    exact ⟨hh, hx⟩
  exact ⟨_, htrap, State.takeTrap_entered houtside (by decide)⟩

/-- A uniform register written over an issue. -/
theorem envOf_sets {sp : Spec} (n : Nat) (v : Word) :
    (envOf s gid g p sp).s.modGroup gid (fun g => g.setSreg n v) =
      (envOf s gid g p sp).s.setGroup gid ((g.setSreg n v).rebase (issuer s g p sp)) := by
  rw [envOf_s, State.modGroup_setGroup, State.setGroup_setGroup, ← Group.rebase_setSreg, ← issuer_rebase]

theorem issuer_setSreg {sp : Spec} (n : Nat) (v : Word) :
    (issuer s g p sp).setSreg n v = (g.setSreg n v).rebase (issuer s g p sp) := by
  rw [← Group.rebase_setSreg, ← issuer_rebase]

/-- `launch` answers a word at once, where the record is misaligned or cannot be reached (R110 reasons 0x06 and 0x07). -/
theorem execLaunch_answers {v : Word} (hr : Ready s gid g p) (hs : g.HasS [f.sd.toNat, 2 * f.k.toNat, 2 * f.k.toNat + 1])
    (hrole : g.priv = true ∨ g.index = 0 ∧ g.depth ≠ 9)
    (ha : (g.spair (2 * f.k.toNat)).toNat % 128 ≠ 0 ∧ v = 0x80000006 ∨ (g.spair (2 * f.k.toNat)).toNat % 128 = 0 ∧
      (∃ r c, checkAddr s (g.agent gid) (g.spair (2 * f.k.toNat)).toNat 128 1 .read = .bad r c) ∧ v = 0x80000007) :
    ∃ k, exec (.launch f) s = .next (s.setGroup gid k) ∧ Issued k (g.setSreg f.sd.toNat v) p (s.after g p 1) := by
  have hdeep : (!g.priv && decide (g.depth = 9)) = false := by obtain h | ⟨-, h⟩ := hrole <;> simp [h]
  refine issue_upd hr (fun g _ => launchSpec f g) _ (launchSpec_r58 hs (hrole.imp_right And.left)) rfl _ ?_ (Group.setSreg_splits ..)
    (Group.setSreg_handler ..) (by simpa using hr.settled.2.1) (by simpa using hr.settled.2.2.2)
  simp only [envOf_g, envOf_v, envOf_gid, issuer_priv, issuer_depth, issuer_spair, hdeep, envOf_marker]
  obtain ⟨hal, rfl⟩ | ⟨hal, ⟨r, c, hbad⟩, rfl⟩ := ha
  · simp [accessesOf_settled, hr.settled.2.1, hal, issuer_setSreg, Env.upd, refusalWord]
  · simp [accessesOf_settled, hr.settled.2.1, hal, hbad, issuer_setSreg, Env.upd, refusalWord, issuer_agent, checkAddr_setGroup]

/-- `launch` waits while the record's translation is being changed (R354, R357). -/
theorem execLaunch_waits {w : WaitFor} (hr : Ready s gid g p) (hs : g.HasS [f.sd.toNat, 2 * f.k.toNat, 2 * f.k.toNat + 1])
    (hrole : g.priv = true ∨ g.index = 0 ∧ g.depth ≠ 9) (hal : (g.spair (2 * f.k.toNat)).toNat % 128 = 0)
    (hwait : checkAddr s (g.agent gid) (g.spair (2 * f.k.toNat)).toNat 128 1 .read = .wait w) :
    ∃ k, exec (.launch f) s = .next (s.setGroup gid k) ∧ Waits k g p w (encode (.launch f)) true s.clock := by
  have hdeep : (!g.priv && decide (g.depth = 9)) = false := by obtain h | ⟨-, h⟩ := hrole <;> simp [h]
  obtain ⟨k, hk, hw⟩ : ∃ k, execLaunch f s = .next ((envOf s gid g p (launchSpec f g)).s.setGroup gid k) ∧
      Waits k g p w [packLaunch 0xE1800000 f] true s.clock := by
    refine issue_blocks_on hr (sp := fun g _ => launchSpec f g) (launchSpec_r58 hs (hrole.imp_right And.left)) rfl rfl ?_ (by simp) rfl
    simp only [envOf_g, envOf_v, envOf_gid, issuer_priv, issuer_depth, issuer_spair, hdeep, envOf_marker]
    simp [accessesOf_settled, hr.settled.2.1, hal, hwait, issuer_agent, checkAddr_setGroup]
  refine ⟨k, hk.trans ?_, hw⟩
  rw [envOf_s, State.setGroup_setGroup]

/-! ### A record that can be read -/

theorem readAt_setGroup {k : Group} {pl : Place} {n : Nat} : (s.setGroup gid k).readAt pl n = s.readAt pl n := by
  unfold State.readAt
  split <;> rfl

theorem poisonAt_setGroup {k : Group} {pl : Place} {n : Nat} : (s.setGroup gid k).poisonAt pl n = s.poisonAt pl n := by
  unfold State.poisonAt
  split <;> rfl

/-- The state in which `launch` checks its record, which it has read at a place. -/
def State.launchRead (s : State) (gid : Nat) (g : Group) (p : Split) (f : Launch) (pl : Place) : State :=
  (s.setGroup gid (issuer s g p (launchSpec f g))).touched g.part gid 0 pl

/-- The incomplete child grids of a team, if it is a team that launches (R110). -/
def State.incompleteKids (s : State) (tid : Option Nat) : Nat :=
  match tid with
  | some t => ((s.childGrids t).filter fun c => !c.2.complete).length
  | none => 0

/-- A group that may launch names a record that it can read, at a place without poison (R110, R112). -/
structure LaunchReads (s : State) (gid : Nat) (g : Group) (f : Launch) (x : Part) (pl : Place) : Prop where
  role : g.priv = true ∨ g.index = 0 ∧ g.depth ≠ 9
  part : s.part g.part = some x
  align : (g.spair (2 * f.k.toNat)).toNat % 128 = 0
  ok : checkAddr s (g.agent gid) (g.spair (2 * f.k.toNat)).toNat 128 1 .read = .ok pl
  clean : s.poisonAt pl 128 = []
  sent : Unsent s (clusterOf (coreOf gid)) pl 128

/-- The issue of a record that can be read turns on whether it is refused (R110, R111). -/
theorem execLaunch_eq {pl : Place} {tid : Option Nat} (hr : Ready s gid g p)
    (hl : LaunchReads s gid g f x pl) (htid : tid = if g.priv then none else g.team) :
    ∃ body, execLaunch f s = issue (fun g _ => launchSpec f g) body s ∧
      body (envOf s gid g p (launchSpec f g)) =
        match recRefusal (s.readAt pl 128) x.kitty.toNat ((s.launchRead gid g p f pl).incompleteKids tid) with
        | some r => .ok (((s.launchRead gid g p f pl).synced gid).modGroup gid fun g => g.setSreg f.sd.toNat (refusalWord r))
        | none =>
          let n := (s.launchRead gid g p f pl).addGrid g.part x tid (if g.priv then 0 else g.depth + 1)
            (LaunchRec.ofBytes (s.readAt pl 128))
          .ok ((n.2.synced gid).modGroup gid fun g => g.setSreg f.sd.toNat (BitVec.ofNat 32 n.1)) := by
  obtain ⟨hrole, hx, hal, hok, hclean, hsent⟩ := hl
  have hdeep : (!g.priv && decide (g.depth = 9)) = false := by obtain h | ⟨-, h⟩ := hrole <;> simp [h]
  refine ⟨_, rfl, ?_⟩
  have hpart : (envOf s gid g p (launchSpec f g)).part = some x := by simpa [Env.part] using hx
  have hread : ((envOf s gid g p (launchSpec f g)).readAll (s.setGroup gid (issuer s g p (launchSpec f g))) true false
      [({ lane := 0, addr := (g.spair (2 * f.k.toNat)).toNat, size := 128, align := 128 }, pl)]).1 = s.launchRead gid g p f pl := by
    rw [readAll_strong hsent (by rw [poisonAt_setGroup, hclean])]
    simp [State.launchRead]
  have hflush : (s.setGroup gid (issuer s g p (launchSpec f g))).l1FlushAll (clusterOf (coreOf gid)) (pl.lines 128) =
      s.setGroup gid (issuer s g p (launchSpec f g)) := l1FlushAll_unsent hsent
  subst htid
  simp only [envOf_g, envOf_v, envOf_gid, issuer_priv, issuer_depth, issuer_spair, hdeep, envOf_marker, hpart,
    accessesOf_settled (show (issuer s g p (launchSpec f g)).pend = [] by simpa using hr.settled.2.1), hal, hok, issuer_agent,
    checkAddr_setGroup, envOf_s, hflush, hread, readAt_setGroup, issuer_part, issuer_team]
  rfl

/-- The law of an instruction that reads memory, synchronises its group and writes a uniform register. -/
theorem issue_reads {sp : Group → Split → Spec} {body : Env → Res} {y : State} {lp : List (Nat × Nat)} {n : Nat} {v : Word}
    (hr : Ready s gid g p) (h58 : g.r58 (sp g p) = none) (hw : (sp g p).widthIll = false)
    (hbody : body (envOf s gid g p (sp g p)) = .ok ((y.synced gid).modGroup gid fun g => g.setSreg n v))
    (hy : y.group gid = some ((issuer s g p (sp g p)).withPages lp)) (htick : y.tick = s.tick) :
    ∃ k, issue sp body s = .next (y.setGroup gid k) ∧
      Issued (k.withPages g.lastPages) (({ g with syncAt := s.tick } : Group).setSreg n v) p
        (s.after g p (sp g p).words.length) := by
  rw [modGroup_setSreg_synced hy htick] at hbody
  obtain ⟨k, hk, hi⟩ := issue_on hr sp body h58 hw ((({ g with syncAt := s.tick } : Group).setSreg n v).withPages lp) _
    (.inr ⟨hbody, rfl⟩) (by simp) (Group.setSreg_splits ..) (Group.setSreg_handler ..)
    ((Group.setSreg_pend ..).trans hr.settled.2.1) ((Group.setSreg_bad ..).trans hr.settled.2.2.2)
  refine ⟨k, hk.trans (by rw [State.setGroup_setGroup]), ?_⟩
  have hforget := hi.forget
  rwa [Group.setSreg_lastPages] at hforget

/-- The group that launches, after its record is read. -/
theorem launchRead_group {pl : Place} :
    ∃ lp, (s.launchRead gid g p f pl).group gid = some ((issuer s g p (launchSpec f g)).withPages lp) :=
  cached_touched.group (by simp)

theorem launchRead_only {pl : Place} : (s.launchRead gid g p f pl).tick = s.tick ∧ (s.launchRead gid g p f pl).grids = s.grids ∧
    (s.launchRead gid g p f pl).nextId = s.nextId ∧ (s.launchRead gid g p f pl).parts = s.parts := by
  obtain ⟨_, _, _, _, _, _, _, h⟩ := (cached_touched (s := s.setGroup gid (issuer s g p (launchSpec f g))) (gid := gid) (pl := pl)
    (part := g.part) (lane := 0)).only
  unfold State.launchRead
  rw [h]
  exact ⟨rfl, rfl, rfl, rfl⟩

/-- The next handle is the one that the partition holds, unless a grid has it (R111). -/
theorem newHandle_free {part h : Nat} (h0 : 0 < h) (hlt : h < 2 ^ 31) (hfree : tabGet s.grids (gridKey part h) = none) :
    s.newHandle part h = h := by
  have hfirst : (h - 1 + 0) % (2 ^ 31 - 1) + 1 = h := by rw [Nat.mod_eq_of_lt] <;> omega
  simp only [State.newHandle, List.range_succ_eq_map, List.map_cons]
  rw [hfirst, List.find?_cons_of_pos (by simp [hfree])]
  rfl

theorem incompleteKids_launchRead {pl : Place} (t : Nat) :
    (s.launchRead gid g p f pl).incompleteKids (some t) =
      ((s.grids.filter fun e => e.2.parent = some t).filter fun e => !e.2.complete).length := by
  simp only [State.incompleteKids, State.childGrids, launchRead_only.2.1, beq_eq_decide]

theorem visited_launchRead {k : Group} {pl : Place} :
    Visited s ((s.launchRead gid g p f pl).setGroup gid k) gid g (k.withPages g.lastPages) s.nextId pl :=
  visited_touched rfl

/-- The grid that a launch creates (R111). -/
def Group.launched (g : Group) (h : Nat) (tid : Option Nat) (b : List Byte) (order : Nat) : Grid :=
  { part := g.part, handle := h, parent := tid, depth := if g.priv then 0 else g.depth + 1, record := LaunchRec.ofBytes b,
    next := 0, retired := 0, killed := false, complete := false, order := order, waitDie := none }

/-- `launch` of a record that is refused (R110). -/
theorem execLaunch_refuses {pl : Place} {tid : Option Nat} {r : Nat} (hr : Ready s gid g p)
    (hs : g.HasS [f.sd.toNat, 2 * f.k.toNat, 2 * f.k.toNat + 1])
    (hl : LaunchReads s gid g f x pl) (htid : tid = if g.priv then none else g.team)
    (hrec : recRefusal (s.readAt pl 128) x.kitty.toNat ((s.launchRead gid g p f pl).incompleteKids tid) = some r) :
    ∃ k t, exec (.launch f) s = .next t ∧ Visited s t gid g k s.nextId pl ∧
      Issued k (({ g with syncAt := s.tick } : Group).setSreg f.sd.toNat (BitVec.ofNat 32 (0x80000000 + r))) p (s.after g p 1) := by
  obtain ⟨body, hexec, hbody⟩ := execLaunch_eq hr hl htid
  simp only [hrec] at hbody
  obtain ⟨lp, hlp⟩ := launchRead_group (s := s) (gid := gid) (g := g) (p := p) (f := f) (pl := pl)
  obtain ⟨k, hk, hi⟩ := issue_reads hr (sp := fun g _ => launchSpec f g) (launchSpec_r58 hs (hl.role.imp_right And.left)) rfl hbody hlp launchRead_only.1
  exact ⟨_, _, hexec.trans hk, visited_launchRead, hi⟩

/-- `launch` of a record that is not refused (R111). -/
theorem execLaunch_creates {pl : Place} {tid : Option Nat} (hr : Ready s gid g p)
    (hs : g.HasS [f.sd.toNat, 2 * f.k.toNat, 2 * f.k.toNat + 1])
    (hl : LaunchReads s gid g f x pl) (htid : tid = if g.priv then none else g.team)
    (h0 : 0 < x.nextHandle) (hlt : x.nextHandle < 2 ^ 31) (hfree : tabGet s.grids (gridKey g.part x.nextHandle) = none)
    (hrec : recRefusal (s.readAt pl 128) x.kitty.toNat ((s.launchRead gid g p f pl).incompleteKids tid) = none) :
    ∃ k u, Visited s u gid g k s.nextId pl ∧
      exec (.launch f) s = .next { u.setPart g.part { x with nextHandle := x.nextHandle % (2 ^ 31 - 1) + 1 } with
        nextId := s.nextId + 1,
        grids := smapInsert s.grids (gridKey g.part x.nextHandle)
          (g.launched x.nextHandle tid (s.readAt pl 128) s.nextId) } ∧
      Issued k (({ g with syncAt := s.tick } : Group).setSreg f.sd.toNat (BitVec.ofNat 32 x.nextHandle)) p (s.after g p 1) := by
  obtain ⟨body, hexec, hbody⟩ := execLaunch_eq hr hl htid
  obtain ⟨htick, hgrids, hnext, hparts⟩ := launchRead_only (s := s) (gid := gid) (g := g) (p := p) (f := f) (pl := pl)
  have hhandle : (s.launchRead gid g p f pl).newHandle g.part x.nextHandle = x.nextHandle :=
    newHandle_free h0 hlt (by rw [hgrids, hfree])
  simp only [hrec, State.addGrid, hhandle, hgrids, hnext] at hbody
  obtain ⟨lp, hlp⟩ := launchRead_group (s := s) (gid := gid) (g := g) (p := p) (f := f) (pl := pl)
  obtain ⟨k, hk, hi⟩ := issue_reads hr (sp := fun g _ => launchSpec f g) (launchSpec_r58 hs (hl.role.imp_right And.left)) rfl hbody hlp htick
  exact ⟨_, _, visited_launchRead, hexec.trans hk, hi⟩

end

/-! ## `cwait` -/

section
variable {s : State} {gid tid : Nat} {g : Group} {p : Split} {f : SysDA} {v : Word}

/-- What the issue logic knows of `cwait` (R115). -/
def cwaitSpec (f : SysDA) : Spec :=
  { words := [packSysDA 0xE1A00000 f], stall := f.st, sNamed := [f.sd.toNat, f.sa.toNat], reads := [sName f.sa.toNat],
    writes := [(sName f.sd.toNat, 0)] }

theorem cwaitSpec_r58 (hs : g.HasS [f.sd.toNat, f.sa.toNat]) : g.r58 (cwaitSpec f) = none :=
  Group.r58_none rfl rfl rfl nofun nofun rfl nofun hs nofun nofun rfl

/-- The keys of the grids that a `cwait` waits for (R115). -/
def State.awaits (s : State) (g : Group) (f : SysDA) (tid : Nat) : List Nat :=
  if f.sa = 63 then (s.childGrids tid).map (·.1) else [gridKey g.part (g.sreg f.sa.toNat).toNat]

/-- The word of a `cwait` that is over: whether a grid was killed. -/
def State.cwaitWord (s : State) (hs : List Nat) : Word :=
  if hs.any fun h => ((tabGet s.grids h).map (·.killed)).getD false then 2 else 1

/-- The grids named are complete. -/
def State.gridsOver (s : State) (hs : List Nat) : Bool :=
  hs.all fun h =>
    match tabGet s.grids h with
    | some x => x.complete
    | none => true

theorem issuer_synced_setSreg {sp : Spec} {n tick : Nat} {v : Word} :
    ({ issuer s g p sp with syncAt := tick } : Group).setSreg n v =
      (({ g with syncAt := tick } : Group).setSreg n v).rebase (issuer s g p sp) := by
  conv_lhs => rw [issuer_rebase]
  unfold Group.setSreg
  split <;> rfl

/-- The issue of a `cwait` turns on whether its team launched the grid, and on whether the grids are complete (R115). -/
theorem execCwait_eq (hteam : g.team = some tid) :
    ∃ body, execCwait f s = issue (fun _ _ => cwaitSpec f) body s ∧
      body (envOf s gid g p (cwaitSpec f)) =
        if f.sa ≠ 63 && !((s.childGrids tid).map (·.1)).contains (gridKey g.part (g.sreg f.sa.toNat).toNat) then
          (envOf s gid g p (cwaitSpec f)).upd ((g.setSreg f.sd.toNat 0x800000FF).rebase (issuer s g p (cwaitSpec f)))
        else if s.gridsOver (s.awaits g f tid) then
          (envOf s gid g p (cwaitSpec f)).upd
            ((({ g with syncAt := s.tick } : Group).setSreg f.sd.toNat (s.cwaitWord (s.awaits g f tid))).rebase
              (issuer s g p (cwaitSpec f)))
        else .block (envOf s gid g p (cwaitSpec f)).s (.grids (s.awaits g f tid)) false := by
  have ht : (issuer s g p (cwaitSpec f)).team = some tid := by rw [issuer_team, hteam]
  refine ⟨_, rfl, ?_⟩
  simp only [envOf_g, envOf_v, envOf_s, envOf_gid, envOf_resumed, issuer_setSreg, issuer_synced_setSreg]
  simp only [ht, issuer_part, issuer_sreg, Bool.not_false, Bool.true_and, Bool.false_or, Bool.false_eq_true, if_false]
  rfl

theorem mem_childGrids {e : Nat × Grid} : e ∈ s.childGrids tid ↔ e ∈ s.grids ∧ e.2.parent = some tid := by
  simp [State.childGrids]

/-- `cwait` for a grid that the team has not launched (R115). -/
theorem execCwait_unlaunched (hr : Ready s gid g p) (hs : g.HasS [f.sd.toNat, f.sa.toNat]) (hteam : g.team = some tid)
    (hsa : f.sa ≠ 63) (hno : ∀ e ∈ s.grids, e.2.parent = some tid → e.1 ≠ gridKey g.part (g.sreg f.sa.toNat).toNat) :
    ∃ k, exec (.cwait f) s = .next (s.setGroup gid k) ∧ Issued k (g.setSreg f.sd.toNat 0x800000FF) p (s.after g p 1) := by
  obtain ⟨body, hexec, hbody⟩ := execCwait_eq (s := s) (gid := gid) (p := p) (f := f) hteam
  have hkey : ((s.childGrids tid).map (·.1)).contains (gridKey g.part (g.sreg f.sa.toNat).toNat) = false := by
    simp only [List.contains_eq_mem, decide_eq_false_iff_not, List.mem_map, not_exists, not_and]
    exact fun e he => hno e (mem_childGrids.1 he).1 (mem_childGrids.1 he).2
  rw [hkey, if_pos (by simpa using hsa)] at hbody
  obtain ⟨k, hk, hi⟩ := issue_upd hr (fun _ _ => cwaitSpec f) body (cwaitSpec_r58 hs) rfl _ hbody (Group.setSreg_splits ..)
    (Group.setSreg_handler ..) ((Group.setSreg_pend ..).trans hr.settled.2.1) ((Group.setSreg_bad ..).trans hr.settled.2.2.2)
  exact ⟨k, hexec.trans hk, hi⟩

/-- The team has launched what its `cwait` names (R115). -/
def State.launchedBy (s : State) (g : Group) (f : SysDA) (tid : Nat) : Prop :=
  f.sa = 63 ∨ gridKey g.part (g.sreg f.sa.toNat).toNat ∈ (s.childGrids tid).map (·.1)

theorem launchedBy_not (hl : s.launchedBy g f tid) :
    (f.sa ≠ 63 && !((s.childGrids tid).map (·.1)).contains (gridKey g.part (g.sreg f.sa.toNat).toNat)) = false := by
  obtain h | h := hl
  · simp [h]
  · rw [List.contains_eq_mem, decide_eq_true h]
    simp

/-- `cwait` for grids that are complete (R115). -/
theorem execCwait_over (hr : Ready s gid g p) (hs : g.HasS [f.sd.toNat, f.sa.toNat]) (hteam : g.team = some tid)
    (hl : s.launchedBy g f tid) (hover : s.gridsOver (s.awaits g f tid) = true) :
    ∃ k, exec (.cwait f) s = .next (s.setGroup gid k) ∧
      Issued k (({ g with syncAt := s.tick } : Group).setSreg f.sd.toNat (s.cwaitWord (s.awaits g f tid))) p (s.after g p 1) := by
  obtain ⟨body, hexec, hbody⟩ := execCwait_eq (s := s) (gid := gid) (p := p) (f := f) hteam
  rw [launchedBy_not hl, if_neg Bool.false_ne_true, if_pos hover] at hbody
  obtain ⟨k, hk, hi⟩ := issue_upd hr (fun _ _ => cwaitSpec f) body (cwaitSpec_r58 hs) rfl _ hbody (Group.setSreg_splits ..)
    (Group.setSreg_handler ..) ((Group.setSreg_pend ..).trans hr.settled.2.1) ((Group.setSreg_bad ..).trans hr.settled.2.2.2)
  exact ⟨k, hexec.trans hk, hi⟩

/-- `cwait` for grids of which one is not complete (R115). -/
theorem execCwait_waits (hr : Ready s gid g p) (hs : g.HasS [f.sd.toNat, f.sa.toNat]) (hteam : g.team = some tid)
    (hl : s.launchedBy g f tid) (hover : s.gridsOver (s.awaits g f tid) = false) :
    ∃ k, exec (.cwait f) s = .next (s.setGroup gid k) ∧
      Waits k g p (.grids (s.awaits g f tid)) (encode (.cwait f)) false s.clock := by
  obtain ⟨body, hexec, hbody⟩ := execCwait_eq (s := s) (gid := gid) (p := p) (f := f) hteam
  rw [launchedBy_not hl, if_neg Bool.false_ne_true, if_neg (by simp [hover])] at hbody
  obtain ⟨k, hk, hw⟩ := issue_blocks hr (sp := fun _ _ => cwaitSpec f) (cwaitSpec_r58 hs) rfl rfl hbody
  exact ⟨k, hexec.trans hk, hw⟩

theorem awaits_one (hsa : f.sa ≠ 63) : s.awaits g f tid = [gridKey g.part (g.sreg f.sa.toNat).toNat] := if_neg hsa

theorem awaits_all (hsa : f.sa = 63) : s.awaits g f tid = (s.childGrids tid).map (·.1) := if_pos hsa

theorem gridsOver_one {key : Nat} {e : Grid} (h : tabGet s.grids key = some e) : s.gridsOver [key] = e.complete := by
  simp [State.gridsOver, h]

theorem cwaitWord_one {key : Nat} {e : Grid} (h : tabGet s.grids key = some e) :
    s.cwaitWord [key] = if e.killed then 2 else 1 := by
  simp [State.cwaitWord, h]

/-- All the child grids of a team are complete. -/
theorem gridsOver_all (hkeys : ∀ e ∈ s.grids, tabGet s.grids e.1 = some e.2)
    (hdone : ∀ e ∈ s.grids, e.2.parent = some tid → e.2.complete = true) : s.gridsOver ((s.childGrids tid).map (·.1)) = true := by
  rw [State.gridsOver, List.all_map, List.all_eq_true]
  intro e he
  obtain ⟨hmem, hparent⟩ := mem_childGrids.1 he
  simp only [Function.comp, hkeys e hmem, hdone e hmem hparent]

/-- The word says whether a child grid of the team was killed. -/
theorem cwaitWord_all (hkeys : ∀ e ∈ s.grids, tabGet s.grids e.1 = some e.2) :
    s.cwaitWord ((s.childGrids tid).map (·.1)) =
      if ∃ e ∈ s.grids, e.2.parent = some tid ∧ e.2.killed = true then 2 else 1 := by
  refine if_congr ?_ rfl rfl
  rw [List.any_map, List.any_eq_true]
  constructor
  · rintro ⟨e, he, hkilled⟩
    obtain ⟨hmem, hparent⟩ := mem_childGrids.1 he
    exact ⟨e, hmem, hparent, by simpa [hkeys e hmem] using hkilled⟩
  · rintro ⟨e, hmem, hparent, hkilled⟩
    exact ⟨e, mem_childGrids.2 ⟨hmem, hparent⟩, by simpa [hkeys e hmem] using hkilled⟩

end

/-- Settles O37: `launch` by the end of its record's checks, and `cwait` by the grids that it names. -/
theorem launchAndWait : Obligations.LaunchAndWait := by
  unfold Obligations.LaunchAndWait
  refine ⟨?_, fun s gid g p f x hr hs hrole hx => ⟨fun hal => execLaunch_answers hr hs hrole (.inl ⟨hal, rfl⟩),
      fun w hal hwait => execLaunch_waits hr hs hrole hal hwait,
      fun r c hal hbad => execLaunch_answers hr hs hrole (.inr ⟨hal, ⟨r, c, hbad⟩, rfl⟩)⟩,
    fun s gid g p f x hr hs hpriv hindex hdepth hx => execLaunch_traps hr hs hpriv hindex hdepth hx, ?_, ?_⟩
  · intro s gid g p f x a pl b tid kids h hr hs hrole hx ha hal hok hclean hsent hb htid hkids hh h0 hlt hfree
    have hread : kids = (s.launchRead gid g p f pl).incompleteKids tid := by
      rw [hkids]
      cases tid with
      | none => rfl
      | some t => exact (incompleteKids_launchRead t).symm
    subst ha hb hh hread
    refine ⟨fun r hrec => execLaunch_refuses hr hs ⟨hrole, hx, hal, hok, hclean, hsent⟩ htid hrec,
      fun hrec => execLaunch_creates hr hs ⟨hrole, hx, hal, hok, hclean, hsent⟩ htid h0 hlt hfree hrec⟩
  · intro s gid g p f tid hr hs hteam hsa
    refine ⟨fun hno => execCwait_unlaunched hr hs hteam hsa hno, fun e he hparent => ?_⟩
    have hl : s.launchedBy g f tid :=
      .inr (List.mem_map.2 ⟨_, mem_childGrids.2 ⟨mem_of_tabGet he, hparent⟩, rfl⟩)
    have hone : s.awaits g f tid = [gridKey g.part (g.sreg f.sa.toNat).toNat] := awaits_one hsa
    rw [← cwaitWord_one he, ← gridsOver_one he, ← hone]
    exact ⟨execCwait_over hr hs hteam hl, execCwait_waits hr hs hteam hl⟩
  · intro s gid g p f tid hr hs hteam hsa hkeys hdone
    have hall : s.awaits g f tid = (s.childGrids tid).map (·.1) := awaits_all hsa
    obtain ⟨k, hk, hi⟩ := execCwait_over hr hs hteam (.inl hsa) (by rw [hall]; exact gridsOver_all hkeys hdone)
    refine ⟨k, _, hk, hi, fun hkilled => ?_, fun hnone => ?_⟩
    · rw [hall, cwaitWord_all hkeys, if_pos hkilled]
    · rw [hall, cwaitWord_all hkeys, if_neg]
      rintro ⟨e, he, hparent, hkilled⟩
      exact Bool.false_ne_true ((hnone e he hparent).symm.trans hkilled)

end Sys2Proof.Machine
end

section
/-! # Writes of memory without replicas (R356, R360, R369)

A write at a home in which no page has replicas changes its bytes, the poison of their lines, and the directory. -/
namespace Sys2Proof.Machine

variable {s : State}

theorem State.setBytes_only (s : State) (pa : Nat) (bs : List Byte) :
    ∃ m po, s.setBytes pa bs = { s with mem := m, poison := po } := by
  induction bs generalizing s pa with
  | nil => exact ⟨_, _, rfl⟩
  | cons b r ih =>
    obtain ⟨m, po, h⟩ := ih (s.setByte pa b) (pa + 1)
    exact ⟨m, po, h⟩

theorem getElem_upFrom {n a i : Nat} (h : i < (upFrom a n).length) : (upFrom a n)[i] = a + i := by
  induction n generalizing a i with
  | zero => simp [upFrom] at h
  | succ n ih =>
    cases i with
    | zero => rfl
    | succ i =>
      simp only [upFrom, List.getElem_cons_succ, ih]
      omega

/-- What was written is read. -/
theorem State.bytes_setBytes (s : State) (pa : Nat) (bs : List Byte) : (s.setBytes pa bs).bytes pa bs.length = bs := by
  refine List.ext_getElem (by simp [State.bytes, length_upFrom]) fun i hi hj => ?_
  simp only [State.bytes, List.getElem_map, getElem_upFrom, State.byte_setBytes]
  rw [dif_pos ⟨by omega, by omega⟩]
  simp

/-- A write leaves every byte outside of its span. -/
theorem State.byte_setBytes_outside {pa a : Nat} {bs : List Byte} (h : a < pa ∨ pa + bs.length ≤ a) :
    (s.setBytes pa bs).byte a = s.byte a := by
  rw [State.byte_setBytes, dif_neg (by omega)]

theorem State.dirMerge_only (s : State) (line : Nat) (w : Option Holder) : ∃ d, s.dirMerge line w = { s with dir := d } := by
  unfold State.dirMerge
  dsimp only
  split
  · exact ⟨s.dir, rfl⟩
  · exact ⟨_, rfl⟩

theorem State.dirStrong_only (s : State) (ls : List Nat) : ∃ d, s.dirStrong ls = { s with dir := d } := by
  refine List.foldlRecOn (motive := fun u : State => ∃ d, u = { s with dir := d }) _ _ ⟨s.dir, rfl⟩ fun u hu l _ => ?_
  obtain ⟨d, rfl⟩ := hu
  obtain ⟨d', h⟩ := State.dirMerge_only { s with dir := d } l none
  exact ⟨d', h⟩

/-- No page with replicas has a line among `ls`, nor its entry (R369). -/
def State.Plain (s : State) (ls : List Nat) : Prop :=
  ∀ q ∈ s.pages, q.2.replicas ≠ [] → ∀ l ∈ ls, q.1 ≠ l / 512 ∧ ∀ a, q.2.entry = some a → a / 128 ≠ l

theorem State.NoReplicas.plain (h : s.NoReplicas) (ls : List Nat) : s.Plain ls :=
  fun q hq hr => absurd (h q hq) hr

/-- A write of a line discards no replica record where no entry of a page with replicas lies in it. -/
theorem State.Plain.checkReplicas {ls : List Nat} (h : s.Plain ls) {l : Nat} (hl : l ∈ ls) : s.checkReplicas l = s := by
  refine List.foldlRecOn (motive := fun u : State => u = s) _ _ rfl fun u hu r hr => ?_
  rw [hu]
  refine if_neg fun hcond => ?_
  simp only [Bool.and_eq_true, decide_eq_true_eq] at hcond
  obtain ⟨⟨⟨hentry, hrep⟩, -⟩, -⟩ := hcond
  obtain ⟨a, ha, hline⟩ := Option.map_eq_some_iff.1 hentry
  exact (h r hr hrep l hl).2 a ha hline

theorem State.Plain.foldl_checkReplicas {ls : List Nat} (h : s.Plain ls) : ls.foldl (fun t l => t.checkReplicas l) s = s :=
  List.foldlRecOn (motive := fun u : State => u = s) _ _ rfl fun u hu l hl => by
    show u.checkReplicas l = s
    rw [hu, h.checkReplicas hl]

theorem State.NoReplicas.putMem (h : s.NoReplicas) (pa : Nat) (bs : List Byte) : s.putMem pa none bs = s.setBytes pa bs := by
  have hnone : (tabGet s.pages (pa / 2 ^ 16)).filter (fun r => r.replicas ≠ []) = none := by
    refine Option.filter_eq_none_iff.2 fun r hp => ?_
    have hr : r.replicas = [] := h _ (mem_of_tabGet hp)
    simp [hr]
  unfold State.putMem
  rw [hnone]
  rfl

theorem State.Plain.putMem {pa : Nat} {bs : List Byte} (h : s.Plain (linesOf pa bs.length)) (hbs : bs ≠ []) :
    s.putMem pa none bs = s.setBytes pa bs := by
  have hnone : (tabGet s.pages (pa / 2 ^ 16)).filter (fun r => r.replicas ≠ []) = none := by
    refine Option.filter_eq_none_iff.2 fun r hp hr => ?_
    have hline : pa / 128 ∈ linesOf pa bs.length := by
      rw [linesOf, if_neg (by simpa using hbs)]
      exact (mem_upFrom _ _ _).2 ⟨Nat.le_refl _, by omega⟩
    exact (h _ (mem_of_tabGet hp) (by simpa using hr) _ hline).1 (by show pa / 2 ^ 16 = pa / 128 / 512; omega)
  unfold State.putMem
  rw [hnone]
  rfl

/-- The directory's part in a write that no replica is concerned in. -/
theorem State.Plain.merged {ls : List Nat} (h : s.Plain ls) (pa : Nat) (bs : List Byte) :
    ∃ d, ls.foldl (fun t l => t.checkReplicas l) ((s.setBytes pa bs).dirStrong ls) = { s.setBytes pa bs with dir := d } := by
  obtain ⟨d, hd⟩ := State.dirStrong_only (s.setBytes pa bs) ls
  have hplain : State.Plain { s.setBytes pa bs with dir := d } ls := by
    obtain ⟨m, po, hm⟩ := s.setBytes_only pa bs
    rw [hm]
    exact h
  exact ⟨d, by rw [hd, hplain.foldl_checkReplicas]⟩

theorem State.Plain.writeMem {pa : Nat} {bs : List Byte} (h : s.Plain (linesOf pa bs.length)) (hbs : bs ≠ []) :
    ∃ d, s.writeMem pa bs = { s.setBytes pa bs with dir := d } := by
  unfold State.writeMem
  rw [h.putMem hbs]
  exact h.merged pa bs

theorem State.NoReplicas.writeMem (h : s.NoReplicas) (pa : Nat) (bs : List Byte) :
    ∃ d, s.writeMem pa bs = { s.setBytes pa bs with dir := d } := by
  unfold State.writeMem
  rw [h.putMem]
  exact (h.plain _).merged pa bs

theorem State.NoReplicas.strongPut (h : s.NoReplicas) (pa kind : Nat) (src : Source) (ls : List Nat) (bs : List Byte) :
    ∃ d, s.strongPut (.phys pa kind none src ls) bs = { s.setBytes pa bs with dir := d } := by
  unfold State.strongPut
  show ∃ d, (linesOf pa bs.length).foldl (fun t l => t.checkReplicas l) ((s.putMem pa none bs).dirStrong (linesOf pa bs.length)) = _
  rw [h.putMem]
  exact (h.plain _).merged pa bs

/-! ## What a write leaves -/

theorem byte_writeMem (h : s.NoReplicas) {pa a : Nat} {bs : List Byte} : (s.writeMem pa bs).byte a = (s.setBytes pa bs).byte a := by
  obtain ⟨d, hd⟩ := h.writeMem pa bs
  rw [hd]
  rfl

theorem pages_writeMem (h : s.NoReplicas) (pa : Nat) (bs : List Byte) : (s.writeMem pa bs).pages = s.pages := by
  obtain ⟨d, hd⟩ := h.writeMem pa bs
  rw [hd, ← s.setBytes_pages pa bs]

theorem parts_writeMem (h : s.NoReplicas) (pa : Nat) (bs : List Byte) : (s.writeMem pa bs).parts = s.parts := by
  obtain ⟨d, hd⟩ := h.writeMem pa bs
  rw [hd, ← s.setBytes_parts pa bs]

theorem State.NoReplicas.of_pages {t : State} (h : s.NoReplicas) (hp : t.pages = s.pages) : t.NoReplicas := by
  intro r hr
  exact h r (hp ▸ hr)

theorem State.NoReplicas.afterWrite (h : s.NoReplicas) (pa : Nat) (bs : List Byte) : (s.writeMem pa bs).NoReplicas :=
  h.of_pages (pages_writeMem h pa bs)

end Sys2Proof.Machine
end

section
/-! # O38: the distributor, admission and retirement (R113, R114, R118, R125, R127, R129 to R131) -/
namespace Sys2Proof.Machine

/-! ## The distributor -/

section
variable {s : State} {key : Nat} {gr : Grid} {x : Part}

/-- The place in its grid of the next team (R108). -/
def Grid.nextPos (gr : Grid) : Nat × Nat × Nat :=
  (gr.next % gr.record.gridX, gr.next / gr.record.gridX % gr.record.gridY, gr.next / gr.record.gridX / gr.record.gridY)

/-- The anchor address of the next team (R130). -/
def Grid.nextAnchor (gr : Grid) : Nat := gr.record.anchorOf gr.nextPos.1 gr.nextPos.2.1 gr.nextPos.2.2

/-- A grid without cohorts has its turn, and a team left to offer (R127). -/
structure Offering (s : State) (key : Nat) (gr : Grid) (x : Part) : Prop where
  grid : tabGet s.grids key = some gr
  part : s.part gr.part = some x
  more : gr.next < gr.record.teams
  turn : s.offers gr = true
  single : gr.record.cohort = 1

/-- Where the next team of a grid without cohorts goes. -/
theorem execTeamDistribute_eq (h : Offering s key gr x) :
    exec (.teamDistribute key) s = .next
      (if gr.record.anchor ≠ 0 && s.anchorBusy x gr.nextAnchor then s
       else match (if gr.record.anchor = 0 then none else s.anchorHome x gr.nextAnchor) with
        | some (d, c) =>
          (match s.placeDie x gr.waitDie d with
           | some k => s.offerTeam key gr (some k) c
           | none => s.waitForDie key gr x d)
        | none =>
          if s.teams.any fun e => e.2.part == gr.part && e.2.latency == gr.record.latency && e.2.state == .queued && e.2.homeDie.isNone
            then s
          else s.offerTeam key gr none 0) := by
  obtain ⟨hgrid, hpart, hmore, hturn, hsingle⟩ := h
  show execTeamDistribute key s = _
  have hleft : (decide (gr.record.teams ≤ gr.next) || !s.offers gr) = false := by simp [hturn, hmore]
  simp only [execTeamDistribute, hgrid, hpart, hleft, hsingle, Nat.mod_one, if_true, Bool.false_eq_true, if_false]
  rfl

theorem copiesOf_eq_replicate {α : Type} (n : Nat) (a : α) : copiesOf n a = List.replicate n a := by
  induction n with
  | zero => rfl
  | succ n ih => rw [copiesOf, ih, List.replicate_succ]

/-- The next team of a grid without cohorts, offered (R108, R129, R130). -/
theorem offerTeam_single (home : Option Nat) (pref : Nat) (h : gr.record.cohort = 1) :
    ∃ t, s.offerTeam key gr home pref = { s with
        nextId := s.nextId + 1, teams := smapInsert s.teams s.nextId t,
        grids := smapInsert s.grids key { gr with next := gr.next + 1, waitDie := none } } ∧
      t.part = gr.part ∧ t.grid = key ∧ (t.x, t.y, t.z) = gr.nextPos ∧ t.state = .queued ∧ t.latency = gr.record.latency ∧
      t.homeDie = home ∧ t.prefCluster = pref ∧ t.cohort = 1 ∧ t.winLen = gr.record.scratch ∧ t.killed = false ∧
      t.groups = List.replicate gr.record.groups .absent ∧ t.anchor = BitVec.ofNat 64 gr.nextAnchor := by
  refine ⟨_, rfl, rfl, rfl, rfl, rfl, rfl, rfl, rfl, h, rfl, rfl, copiesOf_eq_replicate _ _, ?_⟩
  simp only [h, Nat.mod_one, Nat.sub_zero]
  rfl

/-- Of the teams that are dealt round-robin, none of a grid's class and partition waits (R129). -/
theorem noneDealt_iff : (s.teams.any fun e =>
      e.2.part == gr.part && e.2.latency == gr.record.latency && e.2.state == .queued && e.2.homeDie.isNone) = true ↔
    ∃ e ∈ s.teams, e.2.part = gr.part ∧ e.2.latency = gr.record.latency ∧ e.2.state = .queued ∧ e.2.homeDie = none := by
  simp [List.any_eq_true, and_assoc]

/-- The next team enters the distributor where its deal or its anchor has room. -/
theorem execTeamDistribute_offers (h : Offering s key gr x) {home : Option Nat} {pref : Nat}
    (hplace : gr.record.anchor = 0 ∧ home = none ∧ pref = 0 ∧ (∀ e ∈ s.teams, e.2.part = gr.part →
        e.2.latency = gr.record.latency → e.2.state = .queued → e.2.homeDie ≠ none) ∨
      gr.record.anchor ≠ 0 ∧ s.anchorBusy x gr.nextAnchor = false ∧
        ∃ d k, s.anchorHome x gr.nextAnchor = some (d, pref) ∧ s.placeDie x gr.waitDie d = some k ∧ home = some k) :
    exec (.teamDistribute key) s = .next (s.offerTeam key gr home pref) := by
  rw [execTeamDistribute_eq h]
  obtain ⟨hanchor, rfl, rfl, hnone⟩ | ⟨hanchor, hbusy, d, k, hhome, hdie, rfl⟩ := hplace
  · have hdealt : (s.teams.any fun e =>
        e.2.part == gr.part && e.2.latency == gr.record.latency && e.2.state == .queued && e.2.homeDie.isNone) = false := by
      rw [Bool.eq_false_iff, Ne, noneDealt_iff]
      rintro ⟨e, he, hp, hl, hq, hd⟩
      exact hnone e he hp hl hq hd
    simp [hanchor, hdealt]
  · rw [if_neg hanchor]
    simp [hbusy, hhome, hdie]

/-- The next team waits for its home die once every die is full (R131). -/
theorem execTeamDistribute_waits (h : Offering s key gr x) {d pref : Nat} (hanchor : gr.record.anchor ≠ 0)
    (hbusy : s.anchorBusy x gr.nextAnchor = false) (hhome : s.anchorHome x gr.nextAnchor = some (d, pref))
    (hdie : s.placeDie x gr.waitDie d = none) (hclusters : x.dieClusters d ≠ []) :
    exec (.teamDistribute key) s = .next { s with grids := smapInsert s.grids key { gr with waitDie := some d } } := by
  rw [execTeamDistribute_eq h, if_neg hanchor]
  simp [hbusy, hhome, hdie, State.waitForDie, hclusters]

/-- One team that is dealt round-robin waits already (R129). -/
theorem execTeamDistribute_dealt (h : Offering s key gr x) (hanchor : gr.record.anchor = 0)
    (hdealt : ∃ e ∈ s.teams, e.2.part = gr.part ∧ e.2.latency = gr.record.latency ∧ e.2.state = .queued ∧ e.2.homeDie = none) :
    exec (.teamDistribute key) s = .next s := by
  rw [execTeamDistribute_eq h]
  simp only [hanchor, noneDealt_iff.2 hdealt]
  simp

end

/-! ## Admission -/

/-- What a group starts with is a pair's two words (R113). -/
theorem pairWord_loWord_hiWord (x : DWord) : pairWord (loWord x) (hiWord x) = x := by
  show x.extractLsb' 32 32 ++ x.extractLsb' 0 32 = x
  ext n hn
  simp only [BitVec.getElem_append, BitVec.getElem_extractLsb']
  split
  · simp [BitVec.getLsbD_eq_getElem hn]
  · rw [show 32 + (n - 32) = n by omega, BitVec.getLsbD_eq_getElem hn]

/-- A group starts as R113 says. -/
theorem startGroup_startsAs (gr : Grid) (t : Team) (tid i gid tick : Nat) (x : Part) :
    StartsAs { (startGroup gr t tid i x).placedAt gid with lastIssue := tick, syncAt := tick } gr t tid i where
  place := ⟨rfl, rfl, rfl, rfl, rfl⟩
  code := ⟨rfl, _, rfl, rfl, rfl, rfl, rfl, rfl⟩
  mode := ⟨rfl, rfl, rfl⟩
  params := by
    have hs : ∀ n, ({ (startGroup gr t tid i x).placedAt gid with lastIssue := tick, syncAt := tick } : Group).sreg n =
        if n = 3 then hiWord t.anchor else if n = 2 then loWord t.anchor else if n = 1 then hiWord gr.record.param
        else if n = 0 then loWord gr.record.param else 0 := by
      intro n
      show (startGroup gr t tid i x).sreg n = _
      simp only [startGroup, Group.setSpair, Group.sreg_setSreg]
      by_cases h63 : n = 63
      · simp [h63]
      · simp [h63, Group.sreg, houseGroup, smapGet]
    refine ⟨?_, ?_, fun n h4 _ => ?_⟩
    · simp [Group.spair, hs, pairWord_loWord_hiWord]
    · simp [Group.spair, hs, pairWord_loWord_hiWord]
    · rw [hs, if_neg (by omega), if_neg (by omega), if_neg (by omega), if_neg (by omega)]
  zeros := ⟨fun _ _ => rfl, fun n hn => if_neg hn, fun _ _ _ => rfl, fun _ _ _ => rfl⟩
  status := ⟨rfl, rfl, rfl, rfl, rfl, rfl, rfl, rfl⟩
  shape := ⟨rfl, rfl, rfl, rfl, rfl, rfl, rfl, rfl, rfl, rfl⟩


/-- One core chosen among the ones that can take a team (R130): the choice advances the serial and no more. -/
theorem pickCores_one (s : State) (latency : Bool) {cs : List Nat} (h : cs ≠ []) :
    ∃ core n, core ∈ cs ∧ s.pickCores latency 1 cs = ([core], { s with serial := n }) := by
  have pick : ∀ best : List Nat, best ≠ [] → ∃ n, s.chosen best.length = ((s.chosen best.length).1, { s with serial := n }) ∧
      best.getD (s.chosen best.length).1 0 ∈ best := by
    intro best hbest
    have hpos : 0 < best.length := List.length_pos_iff.2 hbest
    rw [State.chosen]
    split
    · refine ⟨s.serial, rfl, ?_⟩
      rw [List.getD_eq_getElem _ _ hpos]
      exact List.getElem_mem _
    · refine ⟨s.serial + 1, rfl, ?_⟩
      rw [List.getD_eq_getElem _ _ (Nat.mod_lt _ hpos)]
      exact List.getElem_mem _
  simp only [State.pickCores]
  split
  next hempty =>
    obtain ⟨k, hk, hmin⟩ := Finset.exists_min_image cs.toFinset
      (fun k => (s.coreGroups k false).length + (if latency && 14 ≤ k % 16 then 1000 else 0)) (List.toFinset_nonempty_iff _ |>.2 h)
    refine absurd (List.filter_eq_nil_iff.1 hempty k (List.mem_toFinset.1 hk)) ?_
    simpa [List.all_eq_true] using fun j hj => hmin j (List.mem_toFinset.2 hj)
  next hbest =>
    obtain ⟨n, hchosen, hmem⟩ := pick _ hbest
    exact ⟨_, n, (List.mem_filter.1 hmem).1, by rw [hchosen]⟩

/-- A map grows by one entry at most. -/
theorem length_filter_smapInsert {α : Type} (p : Nat × α → Bool) (m : List (Nat × α)) (a : Nat) (x : α) :
    ((smapInsert m a x).filter p).length ≤ (m.filter p).length + 1 := by
  simp only [← List.countP_eq_length_filter]
  induction m with
  | nil => exact List.countP_le_length
  | cons e r ih =>
    obtain ⟨k, v⟩ := e
    simp only [smapInsert]
    split
    · rw [List.countP_cons (l := (k, v) :: r)]
      split <;> omega
    · split <;> simp only [List.countP_cons]
      · split <;> split <;> omega
      · omega

/-- A core that holds fewer than 128 groups has a free record (R125). -/
theorem freeRecord_spec {s : State} {core : Nat} (h : (s.coreGroups core false).length < 128) :
    coreOf (s.freeRecord core) = core ∧ s.group (s.freeRecord core) = none := by
  set keys := (List.range 128).map (128 * core + ·) with hkeys
  have hcore : ∀ k ∈ keys, coreOf k = core := by
    intro k hk
    obtain ⟨i, hi, rfl⟩ := List.mem_map.1 hk
    have := List.mem_range.1 hi
    simp only [coreOf]
    omega
  cases hfind : keys.find? fun k => (s.group k).isNone with
  | some k =>
    have hk : s.freeRecord core = k := by rw [State.freeRecord, ← hkeys, hfind]; rfl
    rw [hk]
    exact ⟨hcore k (List.mem_of_find?_eq_some hfind), Option.isNone_iff_eq_none.1 (List.find?_some (p := fun k => (s.group k).isNone) hfind)⟩
  | none =>
    have hall : keys ⊆ (s.coreGroups core false).map (·.1) := by
      intro k hk
      have hsome : (s.group k).isNone ≠ true := List.find?_eq_none.1 hfind k hk
      obtain ⟨g, hg⟩ := Option.ne_none_iff_exists'.1 (fun hn => hsome (Option.isNone_iff_eq_none.2 hn))
      exact List.mem_map.2 ⟨(k, g), List.mem_filter.2 ⟨mem_of_tabGet hg, by simp [hcore k hk]⟩, rfl⟩
    have hnodup : keys.Nodup := List.nodup_range.map fun i j hij => by simpa using hij
    have := (List.subperm_of_subset hnodup hall).length_le
    simp only [hkeys, List.length_map, List.length_range] at this
    omega

/-- One group of a new team started on a core (R113). -/
def State.startMember (x : Part) (gr : Grid) (t : Team) (tid core : Nat) (u : State) (i : Nat) : State :=
  (u.setGroup (u.freeRecord core) { (startGroup gr t tid i x).placedAt (u.freeRecord core) with lastIssue := u.tick, syncAt := u.tick }).modTeam
    tid fun v => { v with groups := listSet v.groups i (.live (u.freeRecord core)) }

/-- What stands after the first `k` groups of a team have started on a core, from a state `s` where its team is `v`. -/
structure Started (s u : State) (x : Part) (gr : Grid) (t v : Team) (tid core k : Nat) : Prop where
  only : u = { s with groups := u.groups, teams := u.teams }
  team : ∃ gs, u.team tid = some { v with groups := gs } ∧ gs.length = gr.record.groups ∧
    ∀ i < k, ∃ gid q, gs[i]? = some (.live gid) ∧ coreOf gid = core ∧ s.group gid = none ∧ u.group gid = some q ∧
      StartsAs q gr t tid i
  teams : ∀ e ∈ u.teams, e ∈ s.teams ∨ e.1 = tid ∧ e.2.sizeAt = v.sizeAt
  kept : ∀ gid, (s.group gid).isSome → u.group gid = s.group gid
  room : (u.coreGroups core false).length ≤ (s.coreGroups core false).length + k

theorem Started.next {s u : State} {x : Part} {gr : Grid} {t v : Team} {tid core k : Nat} (h : Started s u x gr t v tid core k)
    (hk : k < gr.record.groups) (hroom : (s.coreGroups core false).length + gr.record.groups ≤ 128) :
    Started s (u.startMember x gr t tid core k) x gr t v tid core (k + 1) := by
  obtain ⟨honly, ⟨gs, hteam, hlen, hmembers⟩, hteams, hkept, hrm⟩ := h
  obtain ⟨hcore, hfree⟩ := freeRecord_spec (s := u) (core := core) (by omega)
  set gid := u.freeRecord core with hgid
  set q : Group := { (startGroup gr t tid k x).placedAt gid with lastIssue := u.tick, syncAt := u.tick } with hq
  have hu : u.startMember x gr t tid core k =
      (u.setGroup gid q).setTeam tid { v with groups := listSet gs k (.live gid) } := by
    have : (u.setGroup gid q).team tid = some { v with groups := gs } := hteam
    simp only [State.startMember, ← hgid, ← hq, State.modTeam, this]
  have hnew : s.group gid = none := by
    by_contra hsome
    rw [hkept gid (Option.isSome_iff_ne_none.2 hsome)] at hfree
    exact hsome hfree
  have hgroup : ∀ j, (u.startMember x gr t tid core k).group j = if j = gid then some q else u.group j := by
    intro j
    rw [hu]
    exact tabGet_insert _ _ _ _
  refine ⟨?_, ⟨listSet gs k (.live gid), ?_, ?_, ?_⟩, ?_, ?_, ?_⟩
  · rw [hu]
    conv_lhs => rw [honly]
    rfl
  · rw [hu, State.team_setTeam, if_pos rfl]
  · rw [length_listSet, hlen]
  · intro i hi
    by_cases hik : i = k
    · subst hik
      exact ⟨gid, q, getElem?_listSet_self (List.getElem?_eq_getElem (hlen ▸ hk)) _, hcore, hnew, by rw [hgroup, if_pos rfl], startGroup_startsAs _ _ _ _ _ _ _⟩
    · obtain ⟨j, p, hj, hjc, hjn, hjp, hst⟩ := hmembers i (by omega)
      refine ⟨j, p, by rw [getElem?_listSet_ne (Ne.symm hik)]; exact hj, hjc, hjn, ?_, hst⟩
      rw [hgroup, if_neg, hjp]
      rintro rfl
      rw [hjp] at hfree
      cases hfree
  · intro e he
    rw [hu] at he
    obtain rfl | he := mem_smapInsert he
    · exact .inr ⟨rfl, rfl⟩
    · exact hteams e he
  · intro j hj
    rw [hgroup, if_neg, hkept j hj]
    rintro rfl
    simp [hnew] at hj
  · have hle : ((u.startMember x gr t tid core k).coreGroups core false).length ≤ (u.coreGroups core false).length + 1 := by
      rw [hu]
      exact length_filter_smapInsert _ _ _ _
    omega

theorem waitingMembers_replicate {t : Team} {n : Nat} (h : t.groups = List.replicate n .absent) : t.waitingMembers = List.range n := by
  rw [Team.waitingMembers, h, List.length_replicate]
  refine List.filter_eq_self.2 fun i hi => ?_
  simp [List.mem_range.1 hi]

/-- A team as it stands on a core, its window placed by first fit (R125). -/
def State.seated (s : State) (x : Part) (t : Team) (core : Nat) : Team :=
  { t with state := .resident, core := core, winOff := (firstFit (s.windows core false) 0 (kittyBase x) t.winLen).getD 0 }

/-- The state in which the groups of a team that is seated on a core start: its window is zeroed (R113). -/
def State.seatedOn (s : State) (x : Part) (tid : Nat) (t : Team) (core : Nat) : State :=
  (s.setTeam tid (s.seated x t core)).zeroSpad ((s.seated x t core).key 0) t.winLen

theorem sbyte_seatedOn (s : State) (x : Part) (tid : Nat) (t : Team) (core b : Nat) (hb : b < t.winLen) :
    (s.seatedOn x tid t core).sbyte ((s.seated x t core).key b) = 0 := by
  have hin : (!(decide ((s.seated x t core).key 0 ≤ (s.seated x t core).key b) &&
      decide ((s.seated x t core).key b < (s.seated x t core).key 0 + t.winLen))) = false := by
    have hkey : (s.seated x t core).key b = (s.seated x t core).key 0 + b := by
      simp only [Team.key, spadKey]
      omega
    simp [hkey, hb]
  show smapGet memDefault (s.spad.filter fun c => !(decide ((s.seated x t core).key 0 ≤ c.1) &&
    decide (c.1 < (s.seated x t core).key 0 + t.winLen))) _ = 0
  rw [smapGet_filter memDefault s.spad (fun k => !(decide ((s.seated x t core).key 0 ≤ k) &&
    decide (k < (s.seated x t core).key 0 + t.winLen))), hin]
  rfl

/-- A new team starts all its groups (R113). -/
theorem startTeam_started {s : State} {x : Part} {gr : Grid} {t : Team} {tid core : Nat} (hgrid : tabGet s.grids t.grid = some gr)
    (hgroups : t.groups = List.replicate gr.record.groups .absent)
    (hroom : (s.coreGroups core false).length + gr.record.groups ≤ 128) :
    Started (s.seatedOn x tid t core) (s.startTeam x tid t core) x gr t (s.seated x t core) tid core gr.record.groups := by
  have hseat : (s.seatTeam x tid t core).team tid = some (s.seated x t core) := by
    rw [State.seatTeam, State.team_setTeam, if_pos rfl]
    rfl
  have hstart : s.startTeam x tid t core =
      (List.range gr.record.groups).foldl (State.startMember x gr t tid core) (s.seatedOn x tid t core) := by
    simp only [State.startTeam, hgrid, hseat, waitingMembers_replicate hgroups]
    rfl
  have hfold : ∀ n ≤ gr.record.groups, Started (s.seatedOn x tid t core)
      ((List.range n).foldl (State.startMember x gr t tid core) (s.seatedOn x tid t core)) x gr t (s.seated x t core) tid core n := by
    intro n
    induction n with
    | zero =>
      intro _
      refine ⟨rfl, ⟨t.groups, hseat, by simp [hgroups], fun i hi => absurd hi (Nat.not_lt_zero _)⟩, fun e he => .inl he,
        fun _ _ => rfl, Nat.le_refl _⟩
    | succ n ih =>
      intro hn
      rw [List.range_succ, List.foldl_append]
      exact (ih (by omega)).next (by omega) hroom
  rw [hstart]
  exact hfold _ (Nat.le_refl _)

/-- With no image named by a team of a cohort, the end of a restore changes nothing (R389). -/
theorem endRestore_of_sizeAt {s : State} {t : Team} (h : ∀ e ∈ s.cohortTeams t, e.2.sizeAt = none) : s.endRestore t = s := by
  simp only [State.endRestore]
  split
  · rfl
  · refine List.foldlRecOn (motive := fun u => u = s) _ _ rfl fun u hu e he => ?_
    simp only [h e he, hu]

/-- The requests that leave are of the fabric alone (R317). -/
theorem releaseReqs_only (s : State) : ∃ f, s.releaseReqs = { s with fabric := f } := by
  unfold State.releaseReqs
  refine List.foldlRecOn (motive := fun u : State => ∃ f, u = { s with fabric := f }) _ _ ⟨s.fabric, rfl⟩ fun u hu e _ => ?_
  obtain ⟨f, rfl⟩ := hu
  split
  · split
    · exact ⟨_, rfl⟩
    · exact ⟨f, rfl⟩
  · exact ⟨f, rfl⟩

/-- A queued new team without a cohort, and the cluster that its search selects (R114, R127). -/
structure Admits (s : State) (tid : Nat) (t : Team) (x : Part) (gr : Grid) (c : Nat) : Prop where
  team : s.team tid = some t
  part : s.part t.part = some x
  grid : tabGet s.grids t.grid = some gr
  queued : t.state = .queued
  fresh : t.loadFrom = none
  single : t.cohort = 1
  members : s.members t = [(tid, t)]
  cluster : s.clusterFor x t gr.record = some c

/-- A cluster that a team's search selects has a core for each member of its cohort (R125 to R127). -/
theorem length_admitCores {s : State} {x : Part} {t : Team} {r : LaunchRec} {c : Nat} (h : s.clusterFor x t r = some c) :
    t.cohort ≤ (s.admitCores x t r c).length := by
  simp only [State.clusterFor] at h
  split at h
  · exact of_decide_eq_true (Option.filter_eq_some_iff.1 h).2
  · exact of_decide_eq_true (List.find?_some (p := fun c => decide (t.cohort ≤ (s.admitCores x t r c).length)) h)

/-- The admission of a new team without a cohort: it starts on one core that can take it, and requests may leave (R114). -/
theorem execTeamAdmit_starts {s : State} {tid : Nat} {t : Team} {x : Part} {gr : Grid} {c : Nat} (h : Admits s tid t x gr c) :
    ∃ core n ps, core ∈ s.admitCores x t gr.record c ∧ exec (.teamAdmit tid) s =
      .next ((({ s with serial := n, parts := ps }.startTeam x tid t core).releaseReqs).endRestore t) := by
  obtain ⟨hteam, hpart, hgrid, hqueued, hfresh, hsingle, hmembers, hcluster⟩ := h
  have hne : s.admitCores x t gr.record c ≠ [] := by
    have := length_admitCores hcluster
    exact List.ne_nil_of_length_pos (by omega)
  obtain ⟨core, n, hcore, hpick⟩ := pickCores_one s t.latency hne
  have hrec : s.recordFor t = some gr.record := by simp [State.recordFor, hgrid]
  have hturn : ∃ ps, (if t.homeDie.isNone then { s with serial := n }.modPart t.part fun y => { y with rrNext := (c + 1) % 48 }
      else { s with serial := n }) = { s with serial := n, parts := ps } := by
    split
    · rw [State.modPart]
      split
      · exact ⟨_, rfl⟩
      · exact ⟨s.parts, rfl⟩
    · exact ⟨s.parts, rfl⟩
  obtain ⟨ps, hturn⟩ := hturn
  refine ⟨core, n, ps, hcore, ?_⟩
  show execTeamAdmit tid s = _
  simp only [execTeamAdmit, hteam, hpart, hrec, hmembers, hsingle, hcluster, hpick, hturn]
  simp [Team.isQueued, hqueued, hfresh]

/-- Admission (R113, R114, R125 to R130). -/
theorem execTeamAdmit_admits {s : State} {tid : Nat} {t : Team} {x : Part} {gr : Grid} {c : Nat} (h : Admits s tid t x gr c)
    (hsize : t.sizeAt = none) (hcohort : s.cohortTeams t = [(tid, t)]) (hgroups : t.groups = List.replicate gr.record.groups .absent)
    (hroom : ∀ core ∈ s.admitCores x t gr.record c, (s.coreGroups core false).length + gr.record.groups ≤ 128) :
    ∃ u core v, exec (.teamAdmit tid) s = .next u ∧ core ∈ s.admitCores x t gr.record c ∧ u.team tid = some v ∧
      v = { t with state := .resident, core := core, winOff := v.winOff, groups := v.groups } ∧
      v.groups.length = gr.record.groups ∧ (∀ b < t.winLen, u.sbyte (v.key b) = 0) ∧ u.mem = s.mem ∧
      (∀ i < gr.record.groups, ∃ gid q, v.groups[i]? = some (.live gid) ∧ coreOf gid = core ∧ s.group gid = none ∧
        u.group gid = some q ∧ StartsAs q gr t tid i) ∧
      ∀ gid, (s.group gid).isSome → u.group gid = s.group gid := by
  obtain ⟨core, n, ps, hcore, hexec⟩ := execTeamAdmit_starts h
  set s1 : State := { s with serial := n, parts := ps } with hs1
  obtain ⟨honly, ⟨gs, hteam, hlen, hmembers⟩, hteams, hkept, -⟩ :=
    startTeam_started (s := s1) (x := x) (tid := tid) h.grid hgroups (hroom core hcore)
  set w := s1.startTeam x tid t core with hw
  obtain ⟨f, hf⟩ := releaseReqs_only w
  have hend : w.releaseReqs.endRestore t = { w with fabric := f } := by
    rw [hf]
    refine endRestore_of_sizeAt fun e he => ?_
    obtain ⟨hmem, hsame⟩ := List.mem_filter.1 he
    have hold : ∀ d ∈ s.teams, (d.2.part == t.part && d.2.grid == t.grid && d.2.leader == t.leader) = true → d.2.sizeAt = none := by
      intro d hd hd'
      have : d ∈ s.cohortTeams t := List.mem_filter.2 ⟨hd, hd'⟩
      rw [hcohort, List.mem_singleton] at this
      rw [this]
      exact hsize
    obtain hin | ⟨-, hnone⟩ := hteams e hmem
    · obtain rfl | hin := mem_smapInsert hin
      · exact hsize
      · exact hold e hin hsame
    · rw [hnone]
      exact hsize
  rw [hend] at hexec
  refine ⟨_, core, _, hexec, hcore, hteam, rfl, hlen, fun b hb => ?_, ?_, ?_, hkept⟩
  · refine Eq.trans ?_ (sbyte_seatedOn s1 x tid t core b hb)
    show w.sbyte _ = _
    rw [honly]
    rfl
  · show w.mem = _
    rw [honly]
    rfl
  · exact hmembers

/-! ## Retirement -/

/-- A walk reads no team and no grid. -/
theorem walk_setTeamsGrids (s : State) (ts : List (Nat × Team)) (gs : List (Nat × Grid)) (x : Part) (va : Nat) :
    walk { s with teams := ts, grids := gs } x va = walk s x va := by
  have hfrom : ∀ n base w, walkFrom { s with teams := ts, grids := gs } x va n base w = walkFrom s x va n base w := by
    intro n
    induction n with
    | zero => intros; rfl
    | succ n ih =>
      intro base w
      unfold walkFrom
      dsimp only
      rw [ih]
      rfl
  unfold walk
  dsimp only
  rw [hfrom]

theorem dropHolder_only (s : State) (h : Holder) (left : List TlbEntry) (ls : List Nat) :
    ∃ d, s.dropHolder h left ls = { s with dir := d } := by
  unfold State.dropHolder
  refine List.foldlRecOn (motive := fun u : State => ∃ d, u = { s with dir := d }) _ _ ⟨s.dir, rfl⟩ fun u hu l _ => ?_
  obtain ⟨d, rfl⟩ := hu
  dsimp only
  split
  · exact ⟨d, rfl⟩
  · exact ⟨_, rfl⟩

theorem dieTlbDrop_only (s : State) (die : Nat) (out : TlbEntry → Bool) :
    ∃ d dt, s.dieTlbDrop die out = { s with dir := d, dieTlbs := dt } := by
  unfold State.dieTlbDrop
  dsimp only
  generalize smapPut [] s.dieTlbs die _ = dt
  obtain ⟨d, hd⟩ := dropHolder_only { s with dieTlbs := dt } (.dieXlat die)
    ((smapGet [] s.dieTlbs die).filter fun e => !out e)
    (((smapGet [] s.dieTlbs die).filter out).flatMap fun (e : TlbEntry) => e.lines).eraseDups
  exact ⟨d, dt, hd⟩

theorem foldl_dirFill_only (s : State) (w : Holder) (ls : List Nat) :
    ∃ d, ls.foldl (fun u l => u.dirFill l w) s = { s with dir := d } := by
  refine List.foldlRecOn (motive := fun u : State => ∃ d, u = { s with dir := d }) _ _ ⟨s.dir, rfl⟩ fun u hu l _ => ?_
  obtain ⟨d, rfl⟩ := hu
  unfold State.dirFill
  dsimp only
  split
  · exact ⟨d, rfl⟩
  · exact ⟨_, rfl⟩

theorem dieTlbAdd_only (s : State) (die : Nat) (e : TlbEntry) : ∃ d dt, s.dieTlbAdd die e = { s with dir := d, dieTlbs := dt } := by
  have hroom : ∃ d dt, (if (smapGet [] s.dieTlbs die).length < 16384 then s
      else s.dieTlbDrop die fun e => some e == (smapGet [] s.dieTlbs die).getLast?) = { s with dir := d, dieTlbs := dt } := by
    split
    · exact ⟨s.dir, s.dieTlbs, rfl⟩
    · exact dieTlbDrop_only _ _ _
  obtain ⟨d, dt, hroom⟩ := hroom
  unfold State.dieTlbAdd
  dsimp only
  split
  · exact ⟨s.dir, s.dieTlbs, rfl⟩
  · rw [hroom]
    obtain ⟨d', hd'⟩ := foldl_dirFill_only { s with dir := d, dieTlbs := smapPut [] dt die (e :: smapGet [] dt die) }
      (.dieXlat die) e.lines
    exact ⟨d', _, hd'⟩

/-- A translation that no core installs leaves the groups, the teams and the grids. -/
theorem installRemote_keeps (s : State) (part : Nat) (p : Place) : (s.installRemote part p).groups = s.groups ∧
    (s.installRemote part p).teams = s.teams ∧ (s.installRemote part p).grids = s.grids := by
  unfold State.installRemote
  split
  · exact ⟨rfl, rfl, rfl⟩
  next pa _ _ src ls =>
    split
    · exact ⟨rfl, rfl, rfl⟩
    next a _ =>
      obtain ⟨d, dt, hd⟩ := dieTlbAdd_only (s.markEntry part pa src a) (homeDie pa)
        { part := part, va := src.va, level := src.level, entry := a, pte := src.pte, lines := ls }
      rw [hd]
      unfold State.markEntry
      dsimp only
      split <;> exact ⟨rfl, rfl, rfl⟩

theorem byte_or_mark_of_marked : ∀ b : Byte, b.getLsbD 6 = true → b ||| 0x40 = b := by decide

/-- A translation that no core installs marks the entry it came from, and no other byte (R353). -/
theorem byte_installRemote (s : State) (part pa kind : Nat) (key : Option (List Byte)) (src : Source) (ls : List Nat) (a : Nat) :
    (s.installRemote part (.phys pa kind key src ls)).byte a = if src.entry = some a then s.byte a ||| 0x40 else s.byte a := by
  have hcached := cached_installRemote (s := s) (part := part) (p := .phys pa kind key src ls)
  split
  next hentry =>
    obtain hsame | ⟨hmark, -⟩ := hcached.bytes a
    · have hbit : ((s.installRemote part (.phys pa kind key src ls)).byte a).getLsbD 6 = true := by
        simp only [State.installRemote, hentry]
        exact (cached_dieTlbAdd (E := fun _ => True)).getLsbD getLsbD_byte_markEntry
      rw [hsame] at hbit ⊢
      rw [byte_or_mark_of_marked _ hbit]
    · exact hmark
  next hentry => exact hcached.byte_eq fun h => hentry h.1

/-- The translation of a completion word that may be stored (R114). -/
structure DonePlace (s : State) (x : Part) (gr : Grid) (w : Walk) (pa : Nat) : Prop where
  named : gr.record.done ≠ 0
  global : gr.record.done.toNat < 2 ^ 57
  walked : w = walk s x gr.record.done.toNat
  leaf : w.fin = .leaf
  write : pteW w.pte = true
  user : gr.depth = 0 ∨ pteU w.pte = true
  plain : pteKey w.pte = 0
  place : pa = leafPa w gr.record.done.toNat
  owned : x.owns pa = true

/-- A completion word stored (R114). -/
theorem storeDone_stores {s : State} {x : Part} {gr : Grid} {w : Walk} {pa : Nat} (h : DonePlace s x gr w pa) (hplain : s.NoReplicas) :
    ∃ u, s.storeDone x gr = .stored u ∧ u.bytes pa 4 = toBytes 4 (if gr.killed then 2 else 1) ∧
      (∀ a, (a < pa ∨ pa + 4 ≤ a) → u.byte a = if w.entry = some a then s.byte a ||| 0x40 else s.byte a) ∧
      u.groups = s.groups ∧ u.teams = s.teams ∧ u.grids = s.grids := by
  obtain ⟨hnamed, hglobal, hwalk, hleaf, hwrite, huser, hkey, hplace, howned⟩ := h
  have ha : gr.record.done.toNat ≠ 0 := fun h0 => hnamed (BitVec.eq_of_toNat_eq h0)
  have huser' : ¬(¬gr.depth = 0 ∧ pteU w.pte = false) := by
    rintro ⟨hdepth, hno⟩
    rcases huser with h0 | hu
    · exact hdepth h0
    · rw [hno] at hu
      cases hu
  have hstore : s.storeDone x gr = .stored ((s.installRemote gr.part (.phys pa (pteKind w.pte) none
      (w.source s { part := gr.part, priv := gr.depth = 0, core := 0, team := none } gr.record.done.toNat) w.lines)).strongPut
        (.phys pa (pteKind w.pte) none
          (w.source s { part := gr.part, priv := gr.depth = 0, core := 0, team := none } gr.record.done.toNat) w.lines)
        (toBytes 4 (if gr.killed then 2 else 1))) := by
    subst hplace
    subst hwalk
    have hspace : ¬144115188075855872 ≤ gr.record.done.toNat := by omega
    simp [State.storeDone, ha, hspace, hleaf, hwrite, hkey, howned, huser']
  set p : Place := .phys pa (pteKind w.pte) none
    (w.source s { part := gr.part, priv := gr.depth = 0, core := 0, team := none } gr.record.done.toNat) w.lines with hp
  obtain ⟨hgroups, hteams, hgrids⟩ := installRemote_keeps s gr.part p
  obtain ⟨d, hput⟩ := (cached_installRemote (part := gr.part) (p := p)).plain hplain |>.strongPut pa (pteKind w.pte)
    (w.source s { part := gr.part, priv := gr.depth = 0, core := 0, team := none } gr.record.done.toNat) w.lines
    (toBytes 4 (if gr.killed then 2 else 1))
  rw [← hp] at hput
  have hlen : (toBytes 4 (if gr.killed then 2 else 1)).length = 4 := length_toBytes _ _
  refine ⟨_, hstore, ?_, fun a hout => ?_, ?_, ?_, ?_⟩
  · rw [hput]
    have := State.bytes_setBytes (s.installRemote gr.part p) pa (toBytes 4 (if gr.killed then 2 else 1))
    rwa [hlen] at this
  · rw [hput]
    refine (State.byte_setBytes_outside (by rw [hlen]; exact hout)).trans ?_
    rw [byte_installRemote]
    rfl
  · rw [hput]
    simp [hgroups]
  · rw [hput]
    simp [hteams]
  · rw [hput]
    simp [hgrids]

/-- A team whose child grids are complete, and gone, and whose cohort stands whole (R114, R118). -/
structure Retiring (s : State) (tid : Nat) (t : Team) (x : Part) (gr : Grid) : Prop where
  team : s.team tid = some t
  part : s.part t.part = some x
  grid : tabGet s.grids t.grid = some gr
  childless : s.childGrids tid = []
  cohort : (s.cohortTeams t).length = t.cohort

section
variable {s : State} {tid : Nat} {t : Team} {x : Part} {gr : Grid}

/-- A team that is not Held does not retire. -/
theorem execTeamRetire_standing (h : Retiring s tid t x gr) (hstate : t.state ≠ .held) : exec (.teamRetire tid) s = .next s := by
  obtain ⟨hteam, hpart, hgrid, hkids, -⟩ := h
  show execTeamRetire tid s = _
  simp [execTeamRetire, hteam, hpart, hgrid, hkids, hstate]

/-- A team does not retire while another of its cohort stands (R118). -/
theorem execTeamRetire_cohort (h : Retiring s tid t x gr) (hstands : ∃ e ∈ s.cohortTeams t, e.2.state ≠ .held ∧ e.2.state ≠ .retired) :
    exec (.teamRetire tid) s = .next s := by
  obtain ⟨hteam, hpart, hgrid, hkids, -⟩ := h
  have hany : ((s.cohortTeams t).any fun e => e.2.state != .held && e.2.state != .retired) = true := by
    obtain ⟨e, he, hheld, hretired⟩ := hstands
    exact List.any_eq_true.2 ⟨e, he, by simp [hheld, hretired]⟩
  show execTeamRetire tid s = _
  simp [execTeamRetire, hteam, hpart, hgrid, hkids, hany]

/-- The state in which a team has retired (R114). -/
def State.retired (s : State) (tid : Nat) (t : Team) (gr : Grid) : State :=
  { s with teams := smapInsert s.teams tid { t with state := .retired },
           grids := smapInsert s.grids t.grid { gr with retired := gr.retired + 1 } }

/-- A Held team whose cohort is Held or retired retires, and the last of its grid completes it (R114, R118). -/
theorem execTeamRetire_eq (h : Retiring s tid t x gr) (hstate : t.state = .held)
    (hcohort : ∀ e ∈ s.cohortTeams t, e.2.state = .held ∨ e.2.state = .retired) :
    exec (.teamRetire tid) s = .next (if gr.retired + 1 = gr.record.teams then
        (match (s.retired tid t gr).storeDone x { gr with retired := gr.retired + 1 } with
         | .waits => s
         | .stored u => u.completeGrid t.grid { gr with retired := gr.retired + 1 })
      else s.retired tid t gr) := by
  obtain ⟨hteam, hpart, hgrid, hkids, hlen⟩ := h
  have hany : ((s.cohortTeams t).any fun e => e.2.state != .held && e.2.state != .retired) = false := by
    refine List.any_eq_false.2 fun e he => ?_
    rcases hcohort e he with hs | hs <;> simp [hs]
  show execTeamRetire tid s = _
  simp only [execTeamRetire, hteam, hpart, hgrid, hkids, hlen, hany, hstate, ne_eq, not_true_eq_false, decide_false, List.any_nil,
    Bool.or_self, Bool.false_eq_true, if_false]
  rfl

theorem storeDone_of_none {g : Grid} (h : g.record.done = 0) : s.storeDone x g = .stored s := by
  simp [State.storeDone, h]

/-- The last team of a grid without a completion word, whose parent can name it yet. -/
theorem execTeamRetire_last (h : Retiring s tid t x gr) (hstate : t.state = .held)
    (hcohort : ∀ e ∈ s.cohortTeams t, e.2.state = .held ∨ e.2.state = .retired) (hlast : gr.retired + 1 = gr.record.teams)
    (hdone : gr.record.done = 0) (hparent : gr.parent ≠ none) :
    exec (.teamRetire tid) s = .next { s with
      teams := (smapInsert s.teams tid { t with state := .retired }).filter fun e => e.2.grid != t.grid,
      grids := smapInsert s.grids t.grid { gr with retired := gr.retired + 1, complete := true } } := by
  rw [execTeamRetire_eq h hstate hcohort, if_pos hlast,
    storeDone_of_none (g := { gr with retired := gr.retired + 1 }) hdone]
  simp [State.completeGrid, State.retired, hparent]

/-- The last team of a grid stores its completion word (R114). -/
theorem execTeamRetire_stores (h : Retiring s tid t x gr) (hstate : t.state = .held)
    (hcohort : ∀ e ∈ s.cohortTeams t, e.2.state = .held ∨ e.2.state = .retired) (hlast : gr.retired + 1 = gr.record.teams)
    {w : Walk} {pa : Nat} (hplace : DonePlace s x gr w pa) (hplain : s.NoReplicas) :
    ∃ u, exec (.teamRetire tid) s = .next u ∧ u.bytes pa 4 = toBytes 4 (if gr.killed then 2 else 1) ∧
      (∀ a, (a < pa ∨ pa + 4 ≤ a) → u.byte a = if w.entry = some a then s.byte a ||| 0x40 else s.byte a) ∧
      u.groups = s.groups ∧ (∀ e ∈ u.teams, e.2.grid ≠ t.grid) ∧
      (gr.parent ≠ none → ∃ e, tabGet u.grids t.grid = some e ∧ e.complete = true) ∧
      (gr.parent = none → tabGet u.grids t.grid = none) := by
  have hthere : DonePlace (s.retired tid t gr) x { gr with retired := gr.retired + 1 } w pa :=
    { hplace with walked := hplace.walked.trans (walk_setTeamsGrids s _ _ x _).symm }
  obtain ⟨u, hstore, hword, hbytes, hgroups, hteams, hgrids⟩ := storeDone_stores hthere hplain
  refine ⟨u.completeGrid t.grid { gr with retired := gr.retired + 1 }, ?_, hword, hbytes, hgroups, fun e he => ?_, fun hp => ?_,
    fun hp => ?_⟩
  · rw [execTeamRetire_eq h hstate hcohort, if_pos hlast, hstore]
  · simpa using (List.mem_filter.1 he).2
  · exact ⟨{ gr with retired := gr.retired + 1, complete := true }, by simp [State.completeGrid, hp], rfl⟩
  · simp [State.completeGrid, hp]

end

/-! ## The obligation -/

/-- Settles O38, from the equation of each step: what the distributor offers, what a core admits, and what retires. -/
theorem teamsComeAndGo : Obligations.TeamsComeAndGo := by
  unfold Obligations.TeamsComeAndGo
  refine ⟨?_, ?_, ?_⟩
  · rintro s key gr x pos hgrid hpart hmore hturn hsingle - rfl
    have h : Offering s key gr x := ⟨hgrid, hpart, hmore, hturn, hsingle⟩
    refine ⟨fun home pref hplace => ?_, fun d pref hanchor hbusy hhome hdie hclusters =>
      execTeamDistribute_waits h hanchor hbusy hhome hdie hclusters, execTeamDistribute_dealt h⟩
    obtain ⟨t, hoffer, hteam⟩ := offerTeam_single (s := s) (key := key) home pref hsingle
    exact ⟨t, (execTeamDistribute_offers h hplace).trans (congrArg _ hoffer), hteam⟩
  · intro s tid t x gr c hteam hpart hgrid hqueued hfresh hsize hsingle hmembers hcohort hgroups hcluster hroom
    exact execTeamAdmit_admits ⟨hteam, hpart, hgrid, hqueued, hfresh, hsingle, hmembers, hcluster⟩ hsize hcohort hgroups hroom
  · intro s tid t x gr hteam hpart hgrid hkids hlen
    have h : Retiring s tid t x gr := ⟨hteam, hpart, hgrid, hkids, hlen⟩
    refine ⟨execTeamRetire_standing h, execTeamRetire_cohort h, fun hstate hcohort => ⟨fun hmore => ?_, fun hlast hdone hparent =>
      execTeamRetire_last h hstate hcohort hlast hdone hparent, fun w pa hlast hnamed hglobal hplain hwalk hleaf hwrite huser hkey
        hplace howned => execTeamRetire_stores h hstate hcohort hlast
          ⟨hnamed, hglobal, hwalk, hleaf, hwrite, huser, hkey, hplace, howned⟩ hplain⟩⟩
    rw [execTeamRetire_eq h hstate hcohort, if_neg hmore]
    rfl

end Sys2Proof.Machine
end

section
/-! # Seat-table entries as groups move (R335)

A write of memory by the part leaves the groups, the teams, the scratchpads and the hands, and an entry of the seat table that is
written shows its state. -/
namespace Sys2Proof.Machine

/-! ## What no write of memory reaches -/

/-- The tables of a state that no write of memory reaches. -/
def State.tables (s : State) : List (Nat × Group) × List (Nat × Team) × List Host.Cell × List (Nat × Hand) :=
  (s.groups, s.teams, s.spad, s.hands)

section
variable (s : State)

theorem State.tables_setBytes (pa : Nat) (bs : List Byte) : (s.setBytes pa bs).tables = s.tables := by
  obtain ⟨m, po, h⟩ := s.setBytes_only pa bs
  rw [h]
  rfl

theorem State.tables_dirMerge (line : Nat) (w : Option Holder) : (s.dirMerge line w).tables = s.tables := by
  obtain ⟨d, h⟩ := s.dirMerge_only line w
  rw [h]
  rfl

theorem State.tables_dirStrong (ls : List Nat) : (s.dirStrong ls).tables = s.tables := by
  obtain ⟨d, h⟩ := s.dirStrong_only ls
  rw [h]
  rfl

theorem State.tables_modPart (p : Nat) (f : Part → Part) : (s.modPart p f).tables = s.tables := by
  unfold State.modPart
  split <;> rfl

theorem State.tables_storeBytes (pa : Nat) (key : Option (List Byte)) (bs : List Byte) : (s.storeBytes pa key bs).tables = s.tables := by
  cases key with
  | none => exact s.tables_setBytes pa bs
  | some k => exact foldl_keeps (fun t l => t.tables_setBytes _ _) _ s

theorem State.tables_collapse (f : Nat) (r : PageRec) : (s.collapse f r).tables = s.tables := by
  unfold State.collapse
  dsimp only
  split
  · rfl
  · split
    · exact (State.tables_dirMerge _ _ _).trans (State.tables_setBytes _ _ _)
    · rfl

theorem State.tables_putMem (pa : Nat) (key : Option (List Byte)) (bs : List Byte) : (s.putMem pa key bs).tables = s.tables := by
  unfold State.putMem
  split
  · exact s.tables_storeBytes pa key bs
  · dsimp only
    split
    · rfl
    · exact s.tables_collapse _ _

theorem State.tables_checkReplicas (line : Nat) : (s.checkReplicas line).tables = s.tables := by
  unfold State.checkReplicas
  refine foldl_keeps (fun t r => ?_) s.pages s
  split
  · dsimp only
    split
    · rfl
    · exact foldl_keeps (fun u d => u.tables_modPart _ _) _ t
  · rfl

theorem State.tables_writeMem (pa : Nat) (bs : List Byte) : (s.writeMem pa bs).tables = s.tables :=
  (foldl_keeps (fun t l => t.tables_checkReplicas l) _ _).trans ((State.tables_dirStrong _ _).trans (s.tables_putMem _ _ _))

theorem State.tables_seatState (gid : Nat) (g : Group) (st image : Nat) : (s.seatState gid g st image).tables = s.tables := by
  unfold State.seatState
  split
  · rfl
  · unfold State.putSeat
    split
    · rfl
    · exact s.tables_writeMem _ _

end

section
variable {s t : State}

theorem State.groups_of_tables (h : t.tables = s.tables) : t.groups = s.groups := congrArg (·.1) h
theorem State.teams_of_tables (h : t.tables = s.tables) : t.teams = s.teams := congrArg (·.2.1) h
theorem State.spad_of_tables (h : t.tables = s.tables) : t.spad = s.spad := congrArg (·.2.2.1) h
theorem State.hands_of_tables (h : t.tables = s.tables) : t.hands = s.hands := congrArg (·.2.2.2) h

end

/-! ## The entry that is written -/

section
variable {s : State} {gid : Nat} {g : Group} {x : Part} {st image : Nat}

/-- The 32 bytes of the seat-table entry of a group in a state (R335). -/
def seatBytes (gid : Nat) (g : Group) (st image : Nat) : List Byte :=
  toBytes 8 (if st = 0 then seatGen g.seat * 2 ^ 32 else seatLow (seatGen g.seat) g.part st gid) ++ toBytes 8 image ++ toBytes 16 0

theorem length_seatBytes : (seatBytes gid g st image).length = 32 := by simp [seatBytes, length_toBytes]

theorem whereOf_lt (h : gid < 4 * 24576) : whereOf gid < 2 ^ 25 := by
  simp only [whereOf, dieOf, coreOf, clusterOf, recordOf]
  omega

/-- The bits of a number between what lies below and above them. -/
theorem bits_between {n lo len v hi : Nat} (hlo : lo < 2 ^ n) (hv : v < 2 ^ len) : bits (hi * 2 ^ (n + len) + v * 2 ^ n + lo) n len = v := by
  have hsum : hi * 2 ^ (n + len) + v * 2 ^ n + lo = lo + 2 ^ n * (v + 2 ^ len * hi) := by
    rw [Nat.pow_add]
    ring
  rw [bits, hsum, Nat.add_mul_div_left _ _ (by positivity), Nat.div_eq_of_lt hlo, Nat.zero_add, Nat.add_mul_mod_self_left,
    Nat.mod_eq_of_lt hv]

/-- The STATE field of an entry (R335). -/
theorem bits_seatLow (gen part : Nat) (hst : st < 8) (hgid : gid < 4 * 24576) : bits (seatLow gen part st gid) 25 3 = st := by
  have hwhere := whereOf_lt hgid
  have hlow : (if st = 1 ∨ st = 2 then whereOf gid else 0) < 2 ^ 25 := by
    split
    · exact hwhere
    · decide
  have hsum : seatLow gen part st gid =
      (gen * 2 ^ 4 + part) * 2 ^ (25 + 3) + st * 2 ^ 25 + if st = 1 ∨ st = 2 then whereOf gid else 0 := by
    simp only [seatLow]
    ring
  rw [hsum]
  exact bits_between hlow (by simpa using hst)

/-- The STATE field survives in the entry's first 8 bytes. -/
theorem bits_ofBytes_toBytes (v : Nat) : bits (ofBytes (toBytes 8 v)) 25 3 = bits v 25 3 := by
  rw [ofBytes_toBytes]
  simp only [bits]
  omega

theorem seatState_of_unseated (h : g.seat = 0) : s.seatState gid g st image = s := if_pos h

theorem seatState_of_seated (hseat : g.seat ≠ 0) (hpart : s.part g.part = some x) :
    s.seatState gid g st image = s.writeMem (x.seatPlace g) (seatBytes gid g st image) := by
  simp only [State.seatState, if_neg hseat, State.putSeat, hpart]
  rfl

/-- A seat entry is written at its place where no replica is concerned. -/
theorem seatState_writes (hseat : g.seat ≠ 0) (hpart : s.part g.part = some x) (hplain : s.Plain (linesOf (x.seatPlace g) 32)) :
    ∃ d, s.seatState gid g st image = { s.setBytes (x.seatPlace g) (seatBytes gid g st image) with dir := d } := by
  rw [seatState_of_seated hseat hpart]
  refine State.Plain.writeMem (by rwa [length_seatBytes]) fun h => ?_
  have := length_seatBytes (gid := gid) (g := g) (st := st) (image := image)
  rw [h] at this
  cases this

/-- A number of the bytes at the start of what was written. -/
theorem memNat_setBytes_append {pa : Nat} {as bs : List Byte} : (s.setBytes pa (as ++ bs)).memNat pa as.length = ofBytes as := by
  have hbytes : (s.setBytes pa (as ++ bs)).bytes pa as.length = as := by
    refine List.ext_getElem (by simp [State.bytes, length_upFrom]) fun i hi hj => ?_
    simp only [State.bytes, List.getElem_map, getElem_upFrom, State.byte_setBytes]
    rw [dif_pos ⟨by omega, by simp; omega⟩]
    simp [List.getElem_append_left hj]
  rw [State.memNat, hbytes]

/-- An entry that was written shows its state. -/
theorem seatShows_setBytes (hst : st ≠ 0) (hst8 : st < 8) (hgid : gid < 4 * 24576) :
    (s.setBytes (x.seatPlace g) (seatBytes gid g st image)).seatShows x g = st := by
  rw [State.seatShows, seatBytes, List.append_assoc]
  have := memNat_setBytes_append (s := s) (pa := x.seatPlace g)
    (as := toBytes 8 (if st = 0 then seatGen g.seat * 2 ^ 32 else seatLow (seatGen g.seat) g.part st gid))
    (bs := toBytes 8 image ++ toBytes 16 0)
  rw [length_toBytes] at this
  rw [this, bits_ofBytes_toBytes, if_neg hst, bits_seatLow _ _ hst8 hgid]

theorem PlainBut.plain {ls : List Nat} (h : PlainBut s none ls) : s.Plain ls := by
  intro q hq hr l hl
  obtain ⟨hpage, hentry⟩ := h.2 q hq hr l hl
  exact ⟨hpage, hentry.resolve_left nofun⟩

theorem State.byte_of_mem {s t : State} (h : t.mem = s.mem) : t.byte = s.byte := by
  funext a
  unfold State.byte
  rw [h]

theorem seatShows_of_byte {s t : State} (h : t.byte = s.byte) : t.seatShows x g = s.seatShows x g := by
  unfold State.seatShows State.memNat State.bytes
  rw [h]

/-- A group's seat entry moves to a state (R335), in a state whose memory and pages another one has. -/
theorem seatMoved_seatState {r t : State} (hmem : s.mem = r.mem) (hpages : s.pages = r.pages)
    (ht : t.mem = (s.seatState gid g st image).mem) (hpart : s.part g.part = some x) (hgid : gid < 4 * 24576) (hst : st ≠ 0)
    (hst8 : st < 8) : SeatMoved r t x g st := by
  refine ⟨fun hseat => ?_, fun hseat hplain => ?_⟩
  · rw [ht, seatState_of_unseated hseat, hmem]
  · have hp : s.Plain (linesOf (x.seatPlace g) 32) := by
      intro q hq
      exact hplain.plain q (hpages ▸ hq)
    obtain ⟨d, hd⟩ := seatState_writes (gid := gid) (st := st) (image := image) hseat hpart hp
    have hwritten : (s.seatState gid g st image).mem = (s.setBytes (x.seatPlace g) (seatBytes gid g st image)).mem := by rw [hd]
    have hbyte := State.byte_of_mem (ht.trans hwritten)
    refine ⟨?_, fun a ha => ?_⟩
    · rw [seatShows_of_byte hbyte, seatShows_setBytes hst hst8 hgid]
    · rw [hbyte, State.byte_setBytes_outside (by rw [length_seatBytes]; exact ha)]
      rw [State.byte_of_mem hmem]

end

end Sys2Proof.Machine
end

section
/-! # Swapping to the kitty (R128, R335, R392) -/
namespace Sys2Proof.Machine

/-! ## Steps that move a seat entry and a group -/

section
variable {s : State} {gid : Nat} {g k : Group} {x : Part} {st image : Nat}

/-- A group in another residency whose seat entry shows it: nothing else of the groups and the scratchpads differs. -/
def Moved (s t : State) (gid : Nat) (k : Group) (x : Part) (g : Group) (st : Nat) : Prop :=
  t.group gid = some k ∧ (∀ j, j ≠ gid → t.group j = s.group j) ∧ t.spad = s.spad ∧ SeatMoved s t x g st

theorem seatState_setGroup_moved (hpart : s.part g.part = some x) (hgid : gid < 4 * 24576) (hst : st ≠ 0) (hst8 : st < 8) :
    Moved s ((s.seatState gid g st image).setGroup gid k) gid k x g st := by
  have htables := s.tables_seatState gid g st image
  refine ⟨?_, fun j hj => ?_, ?_, seatMoved_seatState rfl rfl rfl hpart hgid hst hst8⟩
  · rw [State.group_setGroup, if_pos rfl]
  · rw [State.group_setGroup, if_neg hj, State.group, State.groups_of_tables htables]
    rfl
  · show (s.seatState gid g st image).spad = s.spad
    exact State.spad_of_tables htables

theorem swappable_iff (s : State) (g : Group) : s.swappable g = true ↔ (g.residency = .running ∧ g.team ≠ none ∧
    g.handler = none ∧ s.saving g = false ∧ 2000 < s.clock - g.blockedSince ∧
    (g.parked ≠ none ∨ ∀ p ∈ g.splits, p.longWait = true)) := by
  simp [State.swappable, and_assoc, Option.isSome_iff_ne_none]

variable (hg : s.group gid = some g) (hpart : s.part g.part = some x)
include hg hpart

/-- SWAP_OUT_START waits for a group that may be swapped, and for room in the kitty. -/
theorem execSwapOutStart_waits (h : s.swappable g = false ∨ s.waitMet gid g = true ∨ s.kittyRoom gid g x = none) :
    exec (.swapOutStart gid) s = .next s := by
  have hnone : ((s.part g.part).bind fun x => if s.swappable g && !s.waitMet gid g then s.kittyRoom gid g x else none) = none := by
    rw [hpart, Option.bind_some]
    rcases h with h | h | h <;> simp [h]
  show execSwapOutStart gid s = _
  simp only [execSwapOutStart, hg, hnone]

theorem execSwapOutStart_moves (hgid : gid < 4 * 24576) {k : Nat} (hswap : s.swappable g = true) (hwait : s.waitMet gid g = false)
    (hroom : s.kittyRoom gid g x = some k) : ∃ t, exec (.swapOutStart gid) s = .next t ∧
      Moved s t gid { g with residency := .swappingOut, kitty := k } x g 4 := by
  refine ⟨_, ?_, seatState_setGroup_moved (image := 0) hpart hgid (by decide) (by decide)⟩
  show execSwapOutStart gid s = _
  simp [execSwapOutStart, hg, hpart, hswap, hwait, hroom]

/-- The copy is abandoned where the wait is over. -/
theorem execSwapOutComplete_abandons (hgid : gid < 4 * 24576) (hres : g.residency = .swappingOut) (hwait : s.waitMet gid g = true) :
    ∃ t, exec (.swapOutComplete gid) s = .next t ∧ Moved s t gid { g with residency := .running, kitty := 0 } x g 1 := by
  refine ⟨_, ?_, seatState_setGroup_moved (image := 0) hpart hgid (by decide) (by decide)⟩
  show execSwapOutComplete gid s = _
  simp [execSwapOutComplete, hg, hres, hwait]

theorem execSwapInStart_moves (hgid : gid < 4 * 24576) (hres : g.residency = .swapped) (htaking : s.taking g = false)
    (hwait : s.waitMet gid g = true) (hroom : s.mainUsed (coreOf gid) false + 4 * g.vAlloc * g.width ≤ 2 ^ 19) :
    ∃ t, exec (.swapInStart gid) s = .next t ∧ Moved s t gid { g with residency := .swappingIn } x g 4 := by
  refine ⟨_, ?_, seatState_setGroup_moved (image := 0) hpart hgid (by decide) (by decide)⟩
  have hfits : decide (s.mainUsed (coreOf gid) false + g.mainBytes ≤ 2 ^ 19) = true := decide_eq_true hroom
  show execSwapInStart gid s = _
  simp only [execSwapInStart, hg, hres, htaking, hwait, hfits, decide_true, Bool.not_false, Bool.and_self, if_true]

omit hpart in
theorem execSwapInStart_waits (h : g.residency ≠ .swapped ∨ s.taking g = true ∨ s.waitMet gid g = false ∨
    2 ^ 19 < s.mainUsed (coreOf gid) false + 4 * g.vAlloc * g.width) : exec (.swapInStart gid) s = .next s := by
  have hcond : (g.residency = .swapped && !s.taking g && s.waitMet gid g &&
      decide (s.mainUsed (coreOf gid) false + g.mainBytes ≤ 2 ^ 19)) = false := by
    rcases h with h | h | h | h
    · simp [h]
    · simp [h]
    · simp [h]
    · rw [decide_eq_false (Nat.not_le.2 h : ¬s.mainUsed (coreOf gid) false + g.mainBytes ≤ 2 ^ 19), Bool.and_false]
  show execSwapInStart gid s = _
  simp only [execSwapInStart, hg, hcond, Bool.false_eq_true, if_false]

theorem execSwapInComplete_moves (hgid : gid < 4 * 24576) (hres : g.residency = .swappingIn) :
    ∃ t, exec (.swapInComplete gid) s = .next t ∧ Moved s t gid { g with residency := .running, kitty := 0 } x g 1 := by
  refine ⟨_, ?_, seatState_setGroup_moved (image := 0) hpart hgid (by decide) (by decide)⟩
  show execSwapInComplete gid s = _
  simp [execSwapInComplete, hg, hres, State.comeBack]

end

/-! ## The kitty image (R392) -/

theorem length_freeBytes (k n : Nat) : (freeBytes k n).length = n := by simp [freeBytes, length_upFrom]

theorem slice_slice {bs : List Byte} {a m b n : Nat} (h : b + n ≤ m) : slice b n (slice a m bs) = slice (a + b) n bs := by
  simp only [slice, List.drop_take, List.drop_drop, List.take_take]
  rw [Nat.min_eq_left (by omega)]

section
variable (g : Group) (m : LiveMask) (recs hwdog k : Nat)

/-- The first 0x80 bytes of a group section (R392). -/
def Group.sectionStart : List Byte :=
  toBytes 4 (g.sectionSize recs) ++ toBytes 4 (b2n m.whole 0 + b2n g.handler.isSome 1) ++ toBytes 16 m.v ++ toBytes 2 m.t
    ++ toBytes 2 m.a ++ toBytes 4 recs ++ toBytes 8 g.seat.toNat ++ toBytes 16 0 ++ toBytes 4 hwdog ++ toBytes 68 0

theorem Group.length_sectionStart : (g.sectionStart m recs hwdog).length = 0x80 := by
  simp [Group.sectionStart, length_toBytes]

/-- The bytes of a section's head behind its registers (R392). -/
def Group.sectionSplits : List Byte :=
  g.statusImage k
    ++ ((List.range 4).flatMap fun i =>
      match g.splits.find? fun p => p.slot = i with
      | some p => p.image g.text (k + 16 + 4 * i)
      | none => toBytes 64 0)
    ++ holdBytes g.holds ++ (if g.handler.isSome then (g.frameCopy.drop 0x140).take 0x30 else toBytes 0x30 0) ++ toBytes 144 0

theorem Group.sectionHead_eq : g.sectionHead m recs hwdog k = g.sectionStart m recs hwdog ++ (frameRegs g ++ g.sectionSplits k) := by
  simp only [Group.sectionHead, Group.sectionStart, Group.sectionSplits, frameRegs, List.append_assoc] <;> rfl

theorem length_splitImage (base : DWord) (p : Split) : (p.image base k).length = 64 := by
  simp [Split.image, length_toBytes, length_freeBytes, List.length_flatMap]

theorem length_flatMap_of_length {α : Type} {f : α → List Byte} {c : Nat} (l : List α) (h : ∀ a, (f a).length = c) :
    (l.flatMap f).length = c * l.length := by
  simp [List.length_flatMap, h, Nat.mul_comm]

theorem length_holdBytes (hs : List HoldEntry) : (holdBytes hs).length = 64 := by
  refine length_flatMap_of_length (c := 8) (List.range 8) fun i => ?_
  split <;> simp [length_toBytes]

theorem Group.length_sectionSplits (h : g.handler = none) : (g.sectionSplits k).length = 0x240 := by
  simp only [Group.sectionSplits, List.length_append, length_holdBytes, h]
  rw [length_flatMap_of_length (c := 64)]
  · simp [Group.statusImage, length_toBytes, length_freeBytes]
  · intro i
    split
    · exact length_splitImage _ _ _
    · exact length_toBytes _ _

/-- The vector registers of a section (R392). -/
def Group.vectorBytes : List Byte :=
  (List.range g.vAlloc).flatMap fun n => (List.range g.width).flatMap fun i => toBytes 4 (g.vreg n i).toNat

theorem Group.section_eq : ∃ rest, g.section_ m recs hwdog k = g.sectionHead m recs hwdog k ++ (g.vectorBytes ++ rest) := by
  simp only [Group.section_, Group.vectorBytes, List.append_assoc]
  exact ⟨_, rfl⟩

theorem Group.length_vectorBytes : g.vectorBytes.length = 4 * g.width * g.vAlloc := by
  simp [Group.vectorBytes, List.length_flatMap, length_toBytes]
  ring

theorem Group.slice_vectorBytes {r i : Nat} (hr : r < g.vAlloc) (hi : i < g.width) :
    slice (4 * g.width * r + 4 * i) 4 g.vectorBytes = toBytes 4 (g.vreg r i).toNat := by
  have hlane : ∀ n, ((List.range g.width).flatMap fun i => toBytes 4 (g.vreg n i).toNat).length = 4 * g.width := by
    intro n
    simp [List.length_flatMap, length_toBytes, Nat.mul_comm]
  rw [← slice_slice (m := 4 * g.width) (by omega), Group.vectorBytes, slice_flatMap_range hlane hr,
    slice_flatMap_range (fun _ => length_toBytes ..) hi]

theorem Group.section_sreg_fits {n : Nat} (hn : n < 64) : 0x80 + 4 * n + 4 ≤ (g.section_ m recs hwdog k).length := by
  obtain ⟨rest, hsec⟩ := g.section_eq m recs hwdog k
  rw [hsec, g.sectionHead_eq]
  simp only [List.length_append, g.length_sectionStart, length_frameRegs]
  omega

/-- A uniform register in a section (R392). -/
theorem Group.slice_section_sreg {n : Nat} (hn : n < 64) :
    slice (0x80 + 4 * n) 4 (g.section_ m recs hwdog k) = toBytes 4 (g.frameReg n).toNat := by
  obtain ⟨rest, hsec⟩ := g.section_eq m recs hwdog k
  rw [hsec, g.sectionHead_eq, List.append_assoc, ← g.length_sectionStart m recs hwdog, slice_append_right, List.append_assoc,
    slice_append_left (by rw [length_frameRegs]; omega), frameRegs,
    slice_append_left (by simp [List.length_flatMap, length_toBytes]; omega), slice_flatMap_range (fun _ => length_toBytes ..) hn]

theorem Group.length_sectionHead (h : g.handler = none) : (g.sectionHead m recs hwdog k).length = 0x400 := by
  rw [g.sectionHead_eq, List.length_append, List.length_append, g.length_sectionStart, length_frameRegs, g.length_sectionSplits k h]

/-- A lane of the vector registers ends within them. -/
theorem Group.vectorBytes_fits {r i : Nat} (hr : r < g.vAlloc) (hi : i < g.width) :
    4 * (g.width * r + i) + 4 ≤ g.vectorBytes.length := by
  have hend := Nat.mul_le_mul_left g.width (show r + 1 ≤ g.vAlloc from hr)
  rw [Nat.mul_succ] at hend
  rw [g.length_vectorBytes, Nat.mul_assoc]
  omega

theorem Group.section_vreg_fits (h : g.handler = none) {r i : Nat} (hr : r < g.vAlloc) (hi : i < g.width) :
    0x400 + 4 * (g.width * r + i) + 4 ≤ (g.section_ m recs hwdog k).length := by
  obtain ⟨rest, hsec⟩ := g.section_eq m recs hwdog k
  have hfits := g.vectorBytes_fits hr hi
  rw [hsec, List.length_append, List.length_append, g.length_sectionHead m recs hwdog k h]
  omega

/-- A lane of a vector register in a section of a group in no handler (R392). -/
theorem Group.slice_section_vreg (h : g.handler = none) {r i : Nat} (hr : r < g.vAlloc) (hi : i < g.width) :
    slice (0x400 + 4 * (g.width * r + i)) 4 (g.section_ m recs hwdog k) = toBytes 4 (g.vreg r i).toNat := by
  obtain ⟨rest, hsec⟩ := g.section_eq m recs hwdog k
  have hoff : 4 * (g.width * r + i) = 4 * g.width * r + 4 * i := by ring
  rw [hsec, ← g.length_sectionHead m recs hwdog k h, slice_append_right, slice_append_left (g.vectorBytes_fits hr hi), hoff,
    g.slice_vectorBytes hr hi]

end

/-! ## A group swapped out, and a context that comes back -/

section
variable {s : State} {gid : Nat} {g : Group} {x : Part}

/-- A swapped group's image is its section (R128). -/
theorem syncImage_swapped (hg : s.group gid = some g) (hpart : s.part g.part = some x) (hres : g.residency = .swapped) :
    s.syncImage gid = { s with serial := s.serial + sectionFree 0 }.setSbytes (spadKey (coreOf gid) (kittyBase x + g.kitty))
      (g.section_ g.allLive 0 (s.hwdogOf g) s.serial) := by
  simp [State.syncImage, hg, hpart, hres]

theorem State.sbytes_of_spad {s t : State} (h : t.spad = s.spad) (a n : Nat) : t.sbytes a n = s.sbytes a n := by
  unfold State.sbytes State.sbyte
  rw [h]

/-- No hand is held for a group whose hand is dropped. -/
theorem dropHand_frees (s : State) (gid : Nat) : ∀ e ∈ (s.dropHand gid).hands, e.2.st ≠ .held gid := by
  rintro e he hheld
  obtain ⟨d, -, hd⟩ := List.mem_filterMap.1 he
  split at hd
  · split at hd
    · cases hd
    · cases hd
      simp_all
  · split at hd
    · cases hd
      cases hheld
    · cases hd
      simp_all
  · cases hd
    simp_all
  · cases hd

/-- The state in which a group's image stands in the kitty and its hand is free (R128). -/
def State.swappedOut (s : State) (gid : Nat) (k : Group) : State := ((s.setGroup gid k).syncImage gid).dropHand gid

/-- What a swapped group's image holds, whose kitty is at its place in the scratchpad. -/
def State.kittyImage (s : State) (gid : Nat) (k : Group) : List Byte :=
  k.section_ k.allLive 0 ((s.setGroup gid k).hwdogOf k) s.serial

section
variable {k : Group} (hpart : s.part k.part = some x) (hres : k.residency = .swapped)
include hpart hres

theorem syncImage_setGroup : (s.setGroup gid k).syncImage gid =
    { s.setGroup gid k with serial := s.serial + sectionFree 0 }.setSbytes (spadKey (coreOf gid) (kittyBase x + k.kitty))
      (s.kittyImage gid k) :=
  syncImage_swapped (g := k) (by rw [State.group_setGroup, if_pos rfl]) hpart hres

theorem swappedOut_only : ∃ n m po hs, s.swappedOut gid k =
    { s with serial := n, groups := smapInsert s.groups gid k, spad := m, spadPoison := po, hands := hs } := by
  obtain ⟨po, h⟩ := State.setSbytes_only { s.setGroup gid k with serial := s.serial + sectionFree 0 }
    (spadKey (coreOf gid) (kittyBase x + k.kitty)) (s.kittyImage gid k)
  rw [State.swappedOut, syncImage_setGroup hpart hres, h]
  exact ⟨_, _, _, _, rfl⟩

theorem sbytes_swappedOut {off n : Nat} (h : off + n ≤ (s.kittyImage gid k).length) :
    (s.swappedOut gid k).sbytes (spadKey (coreOf gid) (kittyBase x + k.kitty) + off) n = slice off n (s.kittyImage gid k) := by
  show ((s.setGroup gid k).syncImage gid).sbytes _ n = _
  rw [syncImage_setGroup hpart hres, State.sbytes_setSbytes h]

end

/-- A group is swapped out (R128): its registers stand in the kitty in the layout of R392, and it has no hand. -/
theorem execSwapOutComplete_swaps (hg : s.group gid = some g) (hpart : s.part g.part = some x) (hgid : gid < 4 * 24576)
    (hres : g.residency = .swappingOut) (hwait : s.waitMet gid g = false) (hhandler : g.handler = none) :
    ∃ t, exec (.swapOutComplete gid) s = .next t ∧ t.group gid = some { g with residency := .swapped } ∧
      (∀ j, j ≠ gid → t.group j = s.group j) ∧ SeatMoved s t x g 2 ∧ (∀ e ∈ t.hands, e.2.st ≠ .held gid) ∧
      (∀ r < g.vAlloc, ∀ i < g.width, ofBytes (t.sbytes (spadKey (coreOf gid) (kittyBase x + g.kitty) + 0x400 + 4 * (g.width * r + i)) 4) =
        (g.vreg r i).toNat) ∧
      ∀ n < 64, ofBytes (t.sbytes (spadKey (coreOf gid) (kittyBase x + g.kitty) + 0x80 + 4 * n) 4) =
        if n < g.sAlloc ∨ n = 62 then (g.sreg n).toNat else 0 := by
  set k : Group := { g with residency := .swapped } with hk
  have hkpart : s.part k.part = some x := hpart
  have htables := (s.swappedOut gid k).tables_seatState gid g 2 (flatKitty g.kitty)
  obtain ⟨n, m, po, hs, honly⟩ := swappedOut_only (gid := gid) hkpart rfl
  have hgroup : ∀ j, ((s.swappedOut gid k).seatState gid g 2 (flatKitty g.kitty)).group j = if j = gid then some k else s.group j := by
    intro j
    rw [State.group, State.groups_of_tables htables, honly]
    exact State.group_setGroup ..
  have hread : ∀ off n, off + n ≤ (s.kittyImage gid k).length →
      ((s.swappedOut gid k).seatState gid g 2 (flatKitty g.kitty)).sbytes (spadKey (coreOf gid) (kittyBase x + g.kitty) + off) n =
        slice off n (s.kittyImage gid k) := fun off n h =>
    (State.sbytes_of_spad (State.spad_of_tables htables) _ _).trans (sbytes_swappedOut hkpart rfl h)
  refine ⟨(s.swappedOut gid k).seatState gid g 2 (flatKitty g.kitty), ?_, ?_, fun j hj => ?_, seatMoved_seatState (s := s.swappedOut gid k) (by rw [honly]) (by rw [honly]) rfl (by rw [honly]; exact hpart) hgid
    (by decide) (by decide), fun e he => ?_, fun r hr i hi => ?_, fun n hn => ?_⟩
  · show execSwapOutComplete gid s = _
    simp only [execSwapOutComplete, hg, hres, hwait, Bool.false_eq_true, if_false, ne_eq, not_true_eq_false, State.swappedOut, hk]
  · rw [hgroup, if_pos rfl]
  · rw [hgroup, if_neg hj]
  · rw [State.hands_of_tables htables] at he
    exact dropHand_frees _ gid e he
  · rw [Nat.add_assoc, hread _ _ (k.section_vreg_fits _ _ _ _ hhandler hr hi), State.kittyImage,
      k.slice_section_vreg _ _ _ _ hhandler hr hi, ofBytes_toBytes_word rfl]
    rfl
  · rw [Nat.add_assoc, hread _ _ (k.section_sreg_fits _ _ _ _ hn), State.kittyImage, k.slice_section_sreg _ _ _ _ hn,
      ofBytes_toBytes_word rfl, Group.frameReg_toNat]
    rfl

/-! ### The end of a restore -/

theorem mem_smapInsert_of_rise {α : Type} {m : List (Nat × α)} {a : Nat} {v : α} {e : Nat × α} (hrise : keysRise m = true)
    (h : e ∈ smapInsert m a v) : e = (a, v) ∨ (e ∈ m ∧ e.1 ≠ a) := by
  induction m with
  | nil => simpa [smapInsert] using h
  | cons f r ih =>
    obtain ⟨hfirst, hrest⟩ := (keysRise_cons f r).1 hrise
    have habove : ∀ d ∈ f :: r, f.1 ≤ d.1 := by
      intro d hd
      obtain rfl | hd := List.mem_cons.1 hd
      · exact Nat.le_refl _
      · exact Nat.le_of_lt (hfirst d hd)
    simp only [smapInsert] at h
    split at h
    next hlt =>
      obtain rfl | he := List.mem_cons.1 h
      · exact .inl rfl
      · exact .inr ⟨he, fun heq => absurd (habove e he) (by omega)⟩
    next hge =>
      split at h
      next heq =>
        obtain rfl | he := List.mem_cons.1 h
        · exact .inl rfl
        · exact .inr ⟨List.mem_cons_of_mem _ he, fun hkey => absurd (hfirst e he) (by omega)⟩
      next hne =>
        obtain rfl | he := List.mem_cons.1 h
        · exact .inr ⟨List.mem_cons_self, fun hkey => hne hkey.symm⟩
        · exact (ih hrest he).imp_right fun ⟨hmem, hkey⟩ => ⟨List.mem_cons_of_mem _ hmem, hkey⟩

/-- What stands when a group's context has come back. -/
theorem comeBack_moved (hpart : s.part g.part = some x) (hgid : gid < 4 * 24576) :
    Moved s (s.comeBack gid g) gid { g with residency := .running, kitty := 0 } x g 1 :=
  seatState_setGroup_moved hpart hgid (by decide) (by decide)

theorem comeBack_teams (s : State) (gid : Nat) (g : Group) : (s.comeBack gid g).teams = s.teams := by
  show (s.seatState gid g 1 0).teams = s.teams
  exact State.teams_of_tables (s.tables_seatState gid g 1 0)

theorem comeBack_groups (s : State) (gid : Nat) (g : Group) :
    (s.comeBack gid g).groups = smapInsert s.groups gid { g with residency := .running, kitty := 0 } :=
  congrArg (smapInsert · gid _) (State.groups_of_tables (s.tables_seatState gid g 1 0))

/-- The end of a restore leaves the groups and the scratchpads. -/
theorem endRestore_keeps (s : State) (t : Team) : (s.endRestore t).groups = s.groups ∧ (s.endRestore t).spad = s.spad := by
  unfold State.endRestore
  dsimp only
  split
  · exact ⟨rfl, rfl⟩
  · refine List.foldlRecOn (motive := fun u : State => u.groups = s.groups ∧ u.spad = s.spad) _ _ ⟨rfl, rfl⟩ fun u hu e _ => ?_
    split
    · have htables := u.tables_writeMem ‹_› (toBytes 4 0)
      rw [State.modTeam_groups, State.modTeam_spad, State.groups_of_tables htables, State.spad_of_tables htables]
      exact hu
    · exact hu

/-- A cohort of which a group is coming back yet goes on restoring (R389). -/
theorem endRestore_waits {tid : Nat} {v : Team} (hteam : s.team tid = some v) {id : Nat} {q : Group} (hq : (id, q) ∈ s.groups)
    (hres : q.residency = .restoring) (hof : q.team = some tid) : s.endRestore v = s := by
  have hmember : (tid, v) ∈ s.cohortTeams v := List.mem_filter.2 ⟨mem_of_tabGet hteam, by simp⟩
  refine if_pos (List.any_eq_true.2 ⟨(id, q), hq, ?_⟩)
  rw [Bool.and_eq_true]
  exact ⟨by simp [hres], List.any_eq_true.2 ⟨(tid, v), hmember, by simp [hof]⟩⟩

/-- The last group of a team's restore has come back: SIZE is 0 in the image that was named (R389). -/
theorem endRestore_ends {tid p : Nat} {v : Team} (hteam : s.team tid = some v) (hcohort : s.cohortTeams v = [(tid, v)])
    (hback : ∀ e ∈ s.groups, e.2.team = some tid → e.2.residency ≠ .restoring) (hsize : v.sizeAt = some p) :
    s.endRestore v = (s.writeMem p (toBytes 4 0)).setTeam tid { v with sizeAt := none } := by
  have hover : ¬(s.groups.any fun e => e.2.residency == .restoring && (s.cohortTeams v).any fun x => e.2.team == some x.1) = true := by
    rw [hcohort]
    intro h
    obtain ⟨e, he, h⟩ := List.any_eq_true.1 h
    simp only [List.any_cons, List.any_nil, Bool.or_false, Bool.and_eq_true, beq_iff_eq] at h
    exact hback e he h.2 h.1
  have hthere : (s.writeMem p (toBytes 4 0)).team tid = some v := by
    rw [State.team, State.teams_of_tables (s.tables_writeMem p _)]
    exact hteam
  rw [State.endRestore, if_neg hover, hcohort]
  simp only [List.foldl_cons, List.foldl_nil, hsize, State.modTeam, hthere]

theorem memNat_writeMem_zero {p : Nat} (h : s.NoReplicas) : (s.writeMem p (toBytes 4 0)).memNat p 4 = 0 := by
  obtain ⟨d, hd⟩ := h.writeMem p (toBytes 4 0)
  rw [hd]
  show ofBytes ((s.setBytes p (toBytes 4 0)).bytes p (toBytes 4 0).length) = 0
  rw [State.bytes_setBytes]
  rfl

theorem comeBack_noReplicas (hpart : s.part g.part = some x) (h : s.NoReplicas) : (s.comeBack gid g).NoReplicas := by
  by_cases hseat : g.seat = 0
  · rw [State.comeBack, seatState_of_unseated hseat]
    exact h
  · rw [State.comeBack, seatState_of_seated hseat hpart]
    exact h.afterWrite _ _

/-- A restored group's context has come back (R128, R389). -/
theorem execSwapInComplete_restores (hg : s.group gid = some g) (hpart : s.part g.part = some x) (hgid : gid < 4 * 24576)
    (hres : g.residency = .restoring) : ∃ t, exec (.swapInComplete gid) s = .next t ∧
      t.group gid = some { g with residency := .running, kitty := 0 } ∧ (∀ j, j ≠ gid → t.group j = s.group j) ∧ t.spad = s.spad ∧
      ∀ tid v, g.team = some tid → s.team tid = some v →
        ((∃ id q, id ≠ gid ∧ s.group id = some q ∧ q.residency = .restoring ∧ q.team = some tid) →
          t.teams = s.teams ∧ SeatMoved s t x g 1) ∧
        ∀ p, s.cohortTeams v = [(tid, v)] → (∀ e ∈ s.groups, e.1 ≠ gid → e.2.team = some tid → e.2.residency ≠ .restoring) →
          keysRise s.groups = true → v.sizeAt = some p → s.NoReplicas →
          t.memNat p 4 = 0 ∧ t.team tid = some { v with sizeAt := none } ∧ ∀ j, j ≠ tid → t.team j = s.team j := by
  obtain ⟨hgroup, hothers, hspad, hseat⟩ := comeBack_moved (s := s) (gid := gid) hpart hgid
  cases hof : g.team.bind s.team with
  | none =>
    refine ⟨s.comeBack gid g, ?_, hgroup, hothers, hspad, fun tid v ht hv => ?_⟩
    · show execSwapInComplete gid s = _
      simp only [execSwapInComplete, hg, hres, hof]
    · rw [ht, Option.bind_some, hv] at hof
      cases hof
  | some w =>
    obtain ⟨hgs, hsp⟩ := endRestore_keeps (s.comeBack gid g) w
    refine ⟨(s.comeBack gid g).endRestore w, ?_, ?_, fun j hj => ?_, hsp.trans hspad, fun tid v ht hv => ?_⟩
    · show execSwapInComplete gid s = _
      simp only [execSwapInComplete, hg, hres, hof]
    · rw [State.group, hgs]
      exact hgroup
    · rw [State.group, hgs]
      exact hothers j hj
    · rw [ht, Option.bind_some, hv, Option.some_inj] at hof
      subst hof
      have hback : (s.comeBack gid g).team tid = some v := by
        rw [State.team, comeBack_teams]
        exact hv
      refine ⟨?_, fun p hcohort hlast hrise hsize hplain => ?_⟩
      · rintro ⟨id, q, hid, hq, hqres, hqof⟩
        have hmem : (id, q) ∈ (s.comeBack gid g).groups := mem_of_tabGet ((hothers id hid).trans hq)
        rw [endRestore_waits hback hmem hqres hqof]
        exact ⟨comeBack_teams s gid g, hseat⟩
      · have hcohort' : (s.comeBack gid g).cohortTeams v = [(tid, v)] := by
          rw [State.cohortTeams, comeBack_teams]
          exact hcohort
        have hover : ∀ e ∈ (s.comeBack gid g).groups, e.2.team = some tid → e.2.residency ≠ .restoring := by
          intro e he heof
          rw [comeBack_groups] at he
          obtain rfl | ⟨hin, hkey⟩ := mem_smapInsert_of_rise hrise he
          · exact nofun
          · exact hlast e hin hkey heof
        rw [endRestore_ends hback hcohort' hover hsize]
        refine ⟨memNat_writeMem_zero (comeBack_noReplicas hpart hplain), ?_, fun j hj => ?_⟩
        · rw [State.team_setTeam, if_pos rfl]
        · rw [State.team_setTeam, if_neg hj, State.team, State.teams_of_tables (State.tables_writeMem _ p _), comeBack_teams]
          rfl

end

end Sys2Proof.Machine
end

section
/-! # Context saves (R335, R388, R389, R391, R392) -/
namespace Sys2Proof.Machine

/-! ## The seat entries of a team's groups -/

section
variable {s : State} {gid : Nat} {g : Group} {x : Part} {st image : Nat}

/-- The state and the image of the seat entry that a group of a team being saved, or given up, shows (R335). -/
def Group.turn (g : Group) (moving : Bool) : Nat × Nat :=
  if moving then (4, 0) else if g.residency == .swapped then (2, flatKitty g.kitty) else (1, 0)

theorem Group.turn_lt (g : Group) (moving : Bool) : (g.turn moving).1 ≠ 0 ∧ (g.turn moving).1 < 8 := by
  unfold Group.turn
  split
  · decide
  · split <;> simp

/-- The seat entry of one group of a team moves. -/
def State.turnSeat (tid : Nat) (moving : Bool) (u : State) (e : Nat × Group) : State :=
  if e.2.team = some tid then u.seatState e.1 e.2 (e.2.turn moving).1 (e.2.turn moving).2 else u

theorem moveSeats_eq (s : State) (tid : Nat) (t : Team) (moving : Bool) :
    s.moveSeats [(tid, t)] moving = s.groups.foldl (State.turnSeat tid moving) s := by
  have hstep : (fun (u : State) (e : Nat × Group) => if [(tid, t)].any fun m => e.2.team == some m.1 then
      if moving then u.seatState e.1 e.2 4 0
      else if e.2.residency == .swapped then u.seatState e.1 e.2 2 (flatKitty e.2.kitty)
      else u.seatState e.1 e.2 1 0
    else u) = State.turnSeat tid moving := by
    funext u e
    simp only [State.turnSeat, Group.turn, List.any_cons, List.any_nil, Bool.or_false, beq_iff_eq]
    cases moving <;> by_cases hres : e.2.residency = .swapped <;> simp [hres]
  rw [State.moveSeats, hstep]

theorem tables_moveSeats (s : State) (ms : List (Nat × Team)) (moving : Bool) : (s.moveSeats ms moving).tables = s.tables := by
  refine foldl_keeps (fun u e => ?_) s.groups s
  split
  · split
    · exact u.tables_seatState _ _ _ _
    · split <;> exact u.tables_seatState _ _ _ _
  · rfl

/-- Without seats no entry moves. -/
theorem moveSeats_unseated {tid : Nat} {t : Team} {moving : Bool} (h : ∀ e ∈ s.groups, e.2.team = some tid → e.2.seat = 0) :
    s.moveSeats [(tid, t)] moving = s := by
  rw [moveSeats_eq]
  refine List.foldlRecOn (motive := fun u : State => u = s) _ _ rfl fun u hu e he => ?_
  rw [hu, State.turnSeat]
  split
  next hof => exact seatState_of_unseated (h e he hof)
  next => rfl

/-- Two places in a seat table that differ lie apart. -/
theorem seatPlace_apart {f : Group} (h : x.seatPlace g ≠ x.seatPlace f) :
    x.seatPlace g + 32 ≤ x.seatPlace f ∨ x.seatPlace f + 32 ≤ x.seatPlace g := by
  simp only [Part.seatPlace] at h ⊢
  omega

/-- What a chain of moved entries leaves: each group of the team shows its state, and the bytes of no other place differ. -/
theorem foldl_turnSeat {tid : Nat} {moving : Bool} (l : List (Nat × Group))
    (hapart : ∀ e ∈ l, ∀ f ∈ l, e.2.team = some tid → f.2.team = some tid → e ≠ f → e.2.seat ≠ 0 → f.2.seat ≠ 0 →
      x.seatPlace e.2 ≠ x.seatPlace f.2) (hgid : ∀ e ∈ l, e.2.team = some tid → e.1 < 4 * 24576) (s : State)
    (hpart : ∀ e ∈ l, e.2.team = some tid → s.part e.2.part = some x) (hplain : s.NoReplicas) :
    (∀ a, (∀ e ∈ l, e.2.team = some tid → e.2.seat ≠ 0 → a < x.seatPlace e.2 ∨ x.seatPlace e.2 + 32 ≤ a) →
      (l.foldl (State.turnSeat tid moving) s).byte a = s.byte a) ∧
    ∀ e ∈ l, e.2.team = some tid → e.2.seat ≠ 0 →
      (l.foldl (State.turnSeat tid moving) s).seatShows x e.2 = (e.2.turn moving).1 := by
  induction l generalizing s with
  | nil => exact ⟨fun _ _ => rfl, fun e he => absurd he List.not_mem_nil⟩
  | cons d r ih =>
    have hrest := ih (fun e he f hf => hapart e (List.mem_cons_of_mem _ he) f (List.mem_cons_of_mem _ hf))
      (fun e he => hgid e (List.mem_cons_of_mem _ he))
    by_cases hd : d.2.team = some tid ∧ d.2.seat ≠ 0
    · obtain ⟨hof, hseat⟩ := hd
      have hwrite : State.turnSeat tid moving s d =
          s.writeMem (x.seatPlace d.2) (seatBytes d.1 d.2 (d.2.turn moving).1 (d.2.turn moving).2) := by
        rw [State.turnSeat, if_pos hof, seatState_of_seated hseat (hpart d List.mem_cons_self hof)]
      have hparts := parts_writeMem hplain (x.seatPlace d.2) (seatBytes d.1 d.2 (d.2.turn moving).1 (d.2.turn moving).2)
      have hpages := pages_writeMem hplain (x.seatPlace d.2) (seatBytes d.1 d.2 (d.2.turn moving).1 (d.2.turn moving).2)
      rw [← hwrite] at hparts hpages
      have hbyte : (State.turnSeat tid moving s d).byte =
          (s.setBytes (x.seatPlace d.2) (seatBytes d.1 d.2 (d.2.turn moving).1 (d.2.turn moving).2)).byte := by
        funext a
        rw [hwrite, byte_writeMem hplain]
      obtain ⟨hbytes, hshows⟩ := hrest (State.turnSeat tid moving s d)
        (fun e he heof => by rw [State.part, hparts]; exact hpart e (List.mem_cons_of_mem _ he) heof) (hplain.of_pages hpages)
      refine ⟨fun a ha => ?_, fun e he heof heseat => ?_⟩
      · rw [List.foldl_cons, hbytes a fun e he => ha e (List.mem_cons_of_mem _ he), hbyte,
          State.byte_setBytes_outside (by rw [length_seatBytes]; exact ha d List.mem_cons_self hof hseat)]
      · by_cases her : e ∈ r
        · exact hshows e her heof heseat
        · obtain rfl := (List.mem_cons.1 he).resolve_right her
          obtain ⟨hst, hst8⟩ := e.2.turn_lt moving
          have hfirst : (State.turnSeat tid moving s e).seatShows x e.2 = (e.2.turn moving).1 := by
            rw [seatShows_of_byte hbyte, seatShows_setBytes hst hst8 (hgid e List.mem_cons_self heof)]
          rw [← hfirst, List.foldl_cons]
          refine congrArg (fun l => bits (ofBytes l) 25 3) (List.map_congr_left fun a ha => hbytes a fun f hf hfof hfseat => ?_)
          obtain ⟨hlo, hhi⟩ := (mem_upFrom _ _ _).1 ha
          have := seatPlace_apart (hapart e List.mem_cons_self f (List.mem_cons_of_mem _ hf) heof hfof
            (fun heq => her (heq ▸ hf)) heseat hfseat)
          omega
    · have hsame : State.turnSeat tid moving s d = s := by
        rw [State.turnSeat]
        split
        next hof => exact seatState_of_unseated (not_not.1 fun hseat => hd ⟨hof, hseat⟩)
        next => rfl
      obtain ⟨hbytes, hshows⟩ := hrest s (fun e he => hpart e (List.mem_cons_of_mem _ he)) hplain
      rw [List.foldl_cons, hsame]
      refine ⟨fun a ha => hbytes a fun e he => ha e (List.mem_cons_of_mem _ he), fun e he heof heseat => ?_⟩
      obtain rfl | he := List.mem_cons.1 he
      · exact absurd ⟨heof, heseat⟩ hd
      · exact hshows e he heof heseat

/-- The seat entries of a team's groups show what they are moved to (R335). -/
theorem seatsShow_moveSeats {u : State} {tid : Nat} {t : Team} (moving : Bool)
    (hmem : u.mem = (s.moveSeats [(tid, t)] moving).mem) : SeatsShow s u tid (if moving then 4 else 1) := by
  refine ⟨fun h => by rw [hmem, moveSeats_unseated h], fun x hpart hplain hgid hapart e he hof hseat => ?_⟩
  rw [moveSeats_eq] at hmem
  rw [seatShows_of_byte (State.byte_of_mem hmem), (foldl_turnSeat s.groups hapart hgid s hpart hplain).2 e he hof hseat]
  cases moving <;> by_cases hres : e.2.residency = .swapped <;> simp [Group.turn, hres]

end

/-! ## The step of a save -/

section
variable {s : State} {tid a : Nat} {t : Team}

/-- Whether every group of a team meets a condition of a save. -/
def State.allOf (s : State) (tid : Nat) (ok : Nat → Group → Bool) : Bool :=
  s.groups.all fun e => !(e.2.team == some tid) || ok e.1 e.2

theorem State.allOf_iff {ok : Nat → Group → Bool} :
    s.allOf tid ok = true ↔ ∀ e ∈ s.groups, e.2.team = some tid → ok e.1 e.2 = true := by
  simp only [State.allOf, List.all_eq_true, Bool.or_eq_true, Bool.not_eq_true', beq_eq_false_iff_ne, ne_eq]
  exact forall₂_congr fun e _ => imp_iff_not_or.symm

theorem State.allOf_eq_false {ok : Nat → Group → Bool} (h : ∃ e ∈ s.groups, e.2.team = some tid ∧ ok e.1 e.2 = false) :
    s.allOf tid ok = false := by
  obtain ⟨e, he, hof, hno⟩ := h
  rw [Bool.eq_false_iff]
  intro hall
  rw [State.allOf_iff.1 hall e he hof] at hno
  cases hno

/-- A team asked to be saved, alone in its cohort (R389). -/
structure Asked (s : State) (tid : Nat) (t : Team) (a : Nat) : Prop where
  team : s.team tid = some t
  saving : t.saving = some a
  single : s.members t = [(tid, t)]

/-- The step of a save, of a team alone in its cohort. -/
theorem execContextSaveTaken_eq (h : Asked s tid t a) : exec (.contextSaveTaken tid) s = .next (
    if t.named && t.state != .resident then s.dropSave [(tid, t)]
    else if t.taking then
      if s.allOf tid s.engineSavable then (s.saveTeam tid a).1
      else (s.moveSeats [(tid, t)] false).modTeam tid fun v => { v with taking := false }
    else if s.allOf tid s.groupSavable then (s.moveSeats [(tid, t)] true).modTeam tid fun v => { v with taking := true }
    else s) := by
  obtain ⟨hteam, hsaving, hsingle⟩ := h
  show execContextSaveTaken tid s = _
  simp only [execContextSaveTaken, hteam, hsaving, hsingle, List.any_cons, List.any_nil, Bool.or_false, State.allOf]
  rfl

/-- A save that is not given up. -/
theorem not_dropped (h : t.named = false ∨ t.state = .resident) : (t.named && t.state != .resident) = false := by
  rcases h with h | h <;> simp [h]

/-- A step of a save after which the groups stand, their team differs, and their seat entries show a state. -/
def Turned (s u : State) (tid : Nat) (v : Team) : Prop :=
  u.groups = s.groups ∧ u.spad = s.spad ∧ u.team tid = some v ∧ ∀ j, j ≠ tid → u.team j = s.team j

theorem modTeam_turned {u : State} {f : Team → Team} (hteam : s.team tid = some t) (htables : u.tables = s.tables) :
    Turned s (u.modTeam tid f) tid (f t) ∧ (u.modTeam tid f).mem = u.mem := by
  have hthere : u.team tid = some t := by
    rw [State.team, State.teams_of_tables htables]
    exact hteam
  have hmod : u.modTeam tid f = u.setTeam tid (f t) := by rw [State.modTeam, hthere]
  rw [hmod]
  refine ⟨⟨(u.setTeam_groups _ _).trans (State.groups_of_tables htables), (u.setTeam_spad _ _).trans (State.spad_of_tables htables),
    ?_, fun j hj => ?_⟩, rfl⟩
  · rw [State.team_setTeam, if_pos rfl]
  · rw [State.team_setTeam, if_neg hj, State.team, State.teams_of_tables htables]
    rfl

/-- A save given up (R389). -/
theorem execContextSaveTaken_drops (h : Asked s tid t a) (hnamed : t.named = true) (hstate : t.state ≠ .resident) :
    ∃ u, exec (.contextSaveTaken tid) s = .next u ∧
      Turned s u tid { t with saving := none, requeue := false, named := false, taking := false } ∧
      (t.taking = false → u.mem = s.mem) ∧ (t.taking = true → SeatsShow s u tid 1) := by
  have hdrop : (t.named && t.state != .resident) = true := by simp [hnamed, hstate]
  refine ⟨_, (execContextSaveTaken_eq h).trans (congrArg _ (if_pos hdrop)), ?_⟩
  cases htaking : t.taking with
  | true =>
    have heq : s.dropSave [(tid, t)] = (s.moveSeats [(tid, t)] false).modTeam tid fun v =>
        { v with saving := none, requeue := false, named := false, taking := false } := by
      simp only [State.dropSave, List.any_cons, List.any_nil, Bool.or_false, htaking, if_true]
      rfl
    obtain ⟨hturned, hmem⟩ := modTeam_turned (f := fun v => { v with saving := none, requeue := false, named := false, taking := false })
      h.team (tables_moveSeats s [(tid, t)] false)
    rw [heq]
    exact ⟨hturned, nofun, fun _ => seatsShow_moveSeats (t := t) false hmem⟩
  | false =>
    have heq : s.dropSave [(tid, t)] = s.modTeam tid fun v =>
        { v with saving := none, requeue := false, named := false, taking := false } := by
      simp only [State.dropSave, List.any_cons, List.any_nil, Bool.or_false, htaking, Bool.false_eq_true, if_false]
      rfl
    obtain ⟨hturned, hmem⟩ := modTeam_turned (f := fun v => { v with saving := none, requeue := false, named := false, taking := false })
      h.team (rfl : s.tables = s.tables)
    rw [heq]
    exact ⟨hturned, fun _ => hmem, nofun⟩

theorem execContextSaveTaken_waits (h : Asked s tid t a) (hkept : t.named = false ∨ t.state = .resident) (htaking : t.taking = false)
    (hnot : ∃ e ∈ s.groups, e.2.team = some tid ∧ s.groupSavable e.1 e.2 = false) : exec (.contextSaveTaken tid) s = .next s := by
  rw [execContextSaveTaken_eq h, not_dropped hkept, htaking, State.allOf_eq_false hnot]
  simp only [Bool.false_eq_true, if_false]

theorem execContextSaveTaken_takes (h : Asked s tid t a) (hkept : t.named = false ∨ t.state = .resident) (htaking : t.taking = false)
    (hall : ∀ e ∈ s.groups, e.2.team = some tid → s.groupSavable e.1 e.2 = true) :
    ∃ u, exec (.contextSaveTaken tid) s = .next u ∧ Turned s u tid { t with taking := true } ∧ SeatsShow s u tid 4 := by
  obtain ⟨hturned, hmem⟩ := modTeam_turned (f := fun v => { v with taking := true }) h.team (tables_moveSeats s [(tid, t)] true)
  refine ⟨_, ?_, hturned, seatsShow_moveSeats (t := t) true hmem⟩
  rw [execContextSaveTaken_eq h, not_dropped hkept, htaking, State.allOf_iff.2 hall]
  simp only [Bool.false_eq_true, if_false, if_true]

theorem execContextSaveTaken_goesBack (h : Asked s tid t a) (hkept : t.named = false ∨ t.state = .resident) (htaking : t.taking = true)
    (hnot : ∃ e ∈ s.groups, e.2.team = some tid ∧ s.engineSavable e.1 e.2 = false) :
    ∃ u, exec (.contextSaveTaken tid) s = .next u ∧ Turned s u tid { t with taking := false } ∧ SeatsShow s u tid 1 := by
  obtain ⟨hturned, hmem⟩ := modTeam_turned (f := fun v => { v with taking := false }) h.team (tables_moveSeats s [(tid, t)] false)
  refine ⟨_, ?_, hturned, seatsShow_moveSeats (t := t) false hmem⟩
  rw [execContextSaveTaken_eq h, not_dropped hkept, htaking, State.allOf_eq_false hnot]
  simp only [Bool.false_eq_true, if_false, if_true]

theorem execContextSaveTaken_saves (h : Asked s tid t a) (hkept : t.named = false ∨ t.state = .resident) (htaking : t.taking = true)
    (hall : ∀ e ∈ s.groups, e.2.team = some tid → s.engineSavable e.1 e.2 = true) :
    exec (.contextSaveTaken tid) s = .next (s.saveTeam tid a).1 := by
  rw [execContextSaveTaken_eq h, not_dropped hkept, htaking, State.allOf_iff.2 hall]
  simp only [Bool.false_eq_true, if_false, if_true]

end

end Sys2Proof.Machine
end

section
/-! # The image of a saved team (R388, R391, R392) -/
namespace Sys2Proof.Machine

/-! ## What a saved group keeps -/

section
variable {s w : State} {id : Nat} {g : Group} {m : LiveMask}

theorem savedGroup_vreg {r l : Nat} (hl : l < 64) : (w.savedGroup id g m).vreg r l = if bit m.v r then g.vreg r l else 0 := by
  have hkey : (64 * r + l) / 64 = r := by omega
  show smapGet 0 (g.vregs.filter fun e => bit m.v (e.1 / 64)) (64 * r + l) = _
  rw [smapGet_filter 0 g.vregs (fun k => bit m.v (k / 64)), hkey]
  rfl

theorem savedGroup_sreg (n : Nat) : (w.savedGroup id g m).sreg n = if bit m.s n then g.sreg n else 0 := by
  have hsreg : (w.savedGroup id g m).sreg n = if n = 63 then 0 else smapGet 0 (g.sregs.filter fun e => bit m.s e.1) n := rfl
  rw [hsreg, smapGet_filter 0 g.sregs (fun k => bit m.s k), Group.sreg]
  split
  · simp
  · rfl

theorem savedGroup_pred {n : Nat} (h : bit m.p n = true) : (w.savedGroup id g m).pred n = g.pred n := by
  have hpred : (w.savedGroup id g m).pred n = if n = 7 then BitVec.allOnes 64
      else smapGet 0 (g.preds.filter fun e => bit m.p e.1) n := rfl
  rw [hpred, smapGet_filter 0 g.preds (fun k => bit m.p k), h, Group.pred]
  rfl

theorem bit_two_pow_sub_one {n i : Nat} (h : i < n) : bit (2 ^ n - 1) i = true := by
  rw [bit_eq_testBit, Nat.testBit_two_pow_sub_one]
  exact decide_eq_true h

/-- The save of a group that is not at a safe point keeps all of it (R388). -/
theorem saveMask_whole (h : g.handler ≠ none ∨ g.parked ≠ none ∨ ∃ p ∈ g.splits, p.safeAt = none) : w.saveMask id g = g.allLive := by
  refine if_pos ?_
  obtain h | h | ⟨p, hp, h⟩ := h
  · simp [Option.isSome_iff_ne_none.2 h]
  · simp [Option.isSome_iff_ne_none.2 h]
  · simp only [Bool.or_eq_true]
    exact .inr (List.any_eq_true.2 ⟨p, hp, by simp [h]⟩)

/-- The save of a group of one split at a safe point keeps what the live-set entry there names (R387, R388). -/
theorem saveMask_live {p : Split} {L : Nat} (hhandler : g.handler = none) (hparked : g.parked = none) (hsplits : g.splits = [p])
    (hsafe : p.safeAt = some L) : (w.saveMask id g).v = ofBytes ((w.liveEntry id g L).take 16) ∧
      (w.saveMask id g).s = ofBytes (((w.liveEntry id g L).drop 0x10).take 8) := by
  have hmask : w.saveMask id g =
      (LiveMask.empty.join (LiveMask.ofEntry (w.liveEntry id g L))).withEngine g.matq := by
    simp [State.saveMask, hhandler, hparked, hsplits, hsafe]
  rw [hmask]
  exact ⟨Nat.zero_or _, Nat.zero_or _⟩

/-- What a save keeps of a group, whose context it takes (R388, R392). -/
structure Group.KeptAs (g q : Group) : Prop where
  status : q.mode = g.mode ∧ q.scc = g.scc ∧ q.flags = g.flags ∧ q.sig = g.sig ∧ q.msig = g.msig ∧ q.cnt = g.cnt ∧
    q.splits = g.splits ∧ q.exited = g.exited
  whole : (g.handler ≠ none ∨ g.parked ≠ none ∨ ∃ p ∈ g.splits, p.safeAt = none) →
    (∀ r < g.vAlloc, ∀ l < 64, q.vreg r l = g.vreg r l) ∧ (∀ n < 64, q.sreg n = g.sreg n) ∧ ∀ n < 8, q.pred n = g.pred n

theorem savedGroup_keeps : g.KeptAs (w.savedGroup id g (w.saveMask id g)) where
  status := ⟨rfl, rfl, rfl, rfl, rfl, rfl, rfl, rfl⟩
  whole h := by
    rw [saveMask_whole h]
    refine ⟨fun r hr l hl => ?_, fun n hn => ?_, fun n hn => savedGroup_pred (bit_two_pow_sub_one hn)⟩
    · rw [savedGroup_vreg hl]
      exact if_pos (bit_two_pow_sub_one hr)
    · rw [savedGroup_sreg]
      exact if_pos (bit_two_pow_sub_one hn)

/-- The registers that a save at a safe point keeps. -/
theorem savedGroup_live {p : Split} {L : Nat} (hhandler : g.handler = none) (hparked : g.parked = none) (hsplits : g.splits = [p])
    (hsafe : p.safeAt = some L) :
    (∀ r < 128, ∀ l < 64, (w.savedGroup id g (w.saveMask id g)).vreg r l =
      if bit (ofBytes ((w.liveEntry id g L).take 16)) r then g.vreg r l else 0) ∧
    ∀ n < 63, (w.savedGroup id g (w.saveMask id g)).sreg n =
      if bit (ofBytes (((w.liveEntry id g L).drop 0x10).take 8)) n then g.sreg n else 0 := by
  obtain ⟨hv, hs⟩ := saveMask_live (w := w) (id := id) hhandler hparked hsplits hsafe
  refine ⟨fun r _ l hl => ?_, fun n _ => ?_⟩
  · rw [savedGroup_vreg hl, hv]
  · rw [savedGroup_sreg, hs]

end

/-! ## The sections of a team's groups -/

section
variable {s u : State} {t : Team} {tid a k sec base : Nat}

/-- The context of a group as its save keeps it (R388). -/
def State.contextOf (s : State) (id : Nat) (g : Group) : Group := s.savedGroup id g (s.saveMask id g)

/-- The state in which the section of a group without a seat is written (R392). -/
def State.beforeSection (s : State) (id : Nat) (g : Group) : State :=
  { s.recordEngines id g with serial := s.serial + sectionFree (s.recordCount id g) }

/-- The state in which the section of a group stands at an address. -/
def State.withSection (s : State) (id : Nat) (g : Group) (sec : Nat) : State :=
  (s.beforeSection id g).writeMem sec ((s.contextOf id g).section_ (s.saveMask id g) (s.recordCount id g) (s.contextOf id g).hwdog
    s.serial)

/-- A group whose section stands leaves its core, and its team keeps its context. -/
def State.leaveSaved (u : State) (tid idx id : Nat) (q : Group) : State :=
  let v := (u.renumber id (savedGid tid idx)).dropHand id
  { v with groups := smapErase v.groups id, cur := if v.cur = some id then none else v.cur }.modTeam tid fun t =>
    { t with groups := listSet t.groups idx (.saved q) }

/-- The save of one group that holds no seat. -/
theorem saveGroup_eq {id idx : Nat} {g : Group} (hg : s.group id = some g) (hseat : g.seat = 0) :
    s.saveGroup tid idx id a sec = ((s.withSection id g sec).leaveSaved tid idx id (s.contextOf id g),
      sec + (s.contextOf id g).sectionSize (s.recordCount id g)) := by
  have hunseated : (s.recordEngines id g).seatState id g 3 a = s.recordEngines id g := seatState_of_unseated hseat
  simp only [State.saveGroup, hg, hunseated]
  rfl

theorem tables_withSection (s : State) (id : Nat) (g : Group) (sec : Nat) : (s.withSection id g sec).tables = s.tables :=
  State.tables_writeMem _ _ _

theorem withSection_plain {id : Nat} {g : Group} (h : s.NoReplicas) : (s.withSection id g sec).NoReplicas := by
  have hbefore : (s.beforeSection id g).NoReplicas := h
  exact hbefore.of_pages (pages_writeMem hbefore _ _)

theorem byte_withSection {id b : Nat} {g : Group} (h : s.NoReplicas) (hb : b < sec) : (s.withSection id g sec).byte b = s.byte b := by
  have hbefore : (s.beforeSection id g).NoReplicas := h
  rw [State.withSection, byte_writeMem hbefore, State.byte_setBytes_outside (.inl hb)]
  rfl

theorem leaveSaved_eq {idx id : Nat} {q : Group} {v : Team} (hteam : u.team tid = some v) :
    ∃ cp fb st hs cu, u.leaveSaved tid idx id q = { u with
      copies := cp, fabric := fb, streams := st, hands := hs, cur := cu, groups := smapErase u.groups id,
      teams := smapInsert u.teams tid { v with groups := listSet v.groups idx (.saved q) } } := by
  have hthere : State.team { (u.renumber id (savedGid tid idx)).dropHand id with
      groups := smapErase ((u.renumber id (savedGid tid idx)).dropHand id).groups id,
      cur := if ((u.renumber id (savedGid tid idx)).dropHand id).cur = some id then none
        else ((u.renumber id (savedGid tid idx)).dropHand id).cur } tid = some v := hteam
  rw [State.leaveSaved, State.modTeam, hthere]
  exact ⟨_, _, _, _, _, rfl⟩

/-- The sections of a team's first `k` groups stand, from `base` to `sec`, in a state that was `s`. -/
structure Saving (s u : State) (t : Team) (tid k base sec : Nat) : Prop where
  plain : u.NoReplicas
  spad : u.spad = s.spad
  below : ∀ b < base, u.byte b = s.byte b
  room : base ≤ sec
  gone : ∀ i < k, ∀ id, t.groups[i]? = some (.live id) → u.group id = none
  kept : ∀ id, (∀ i < k, t.groups[i]? ≠ some (.live id)) → u.group id = s.group id
  team : ∃ gs, u.team tid = some { t with groups := gs } ∧ (∀ i, k ≤ i → gs[i]? = t.groups[i]?) ∧
    ∀ i < k, ∀ id g, t.groups[i]? = some (.live id) → s.group id = some g →
      ∃ w : State, gs[i]? = some (.saved (w.contextOf id g)) ∧ ((∀ (j id' : Nat), t.groups[j]? = some (Member.live id') → j = i) → w = s)
  first : (∀ i < k, ∀ id, t.groups[i]? ≠ some (.live id)) → u = s

/-- A member that is not live is passed over. -/
theorem Saving.skip (h : Saving s u t tid k base sec) (hk : ∀ id, t.groups[k]? ≠ some (.live id)) :
    Saving s u t tid (k + 1) base sec := by
  have hlt : ∀ i < k + 1, ∀ id, t.groups[i]? = some (Member.live id) → i < k := by
    intro i hi id hid
    by_contra hge
    obtain rfl : i = k := by omega
    exact hk id hid
  obtain ⟨gs, hteam, hrest, hsaved⟩ := h.team
  refine { h with
    gone := fun i hi id hid => h.gone i (hlt i hi id hid) id hid
    kept := fun id hid => h.kept id fun i hi => hid i (by omega)
    team := ⟨gs, hteam, fun i hi => hrest i (by omega), fun i hi id g hid => hsaved i (hlt i hi id hid) id g hid⟩
    first := fun hnone => h.first fun i hi => hnone i (by omega) }

/-- A live member is saved. -/
theorem Saving.save (h : Saving s u t tid k base sec) {id : Nat} {g : Group} (hk : t.groups[k]? = some (.live id))
    (hg : s.group id = some g) (hseat : g.seat = 0)
    (honce : ∀ (i j id : Nat), t.groups[i]? = some (Member.live id) → t.groups[j]? = some (Member.live id) → i = j) :
    Saving s (u.saveGroup tid k id a sec).1 t tid (k + 1) base (u.saveGroup tid k id a sec).2 := by
  obtain ⟨gs, hteam, hrest, hsaved⟩ := h.team
  have hnew : ∀ i < k, t.groups[i]? ≠ some (.live id) := by
    intro i hi hid
    have := honce i k id hid hk
    omega
  have hug : u.group id = some g := by rw [h.kept id hnew, hg]
  have htables := tables_withSection u id g sec
  have hplain : (u.withSection id g sec).NoReplicas := withSection_plain h.plain
  have hbyte : ∀ b < sec, (u.withSection id g sec).byte b = u.byte b := fun b hb => byte_withSection h.plain hb
  have hsave := saveGroup_eq (tid := tid) (idx := k) (a := a) (sec := sec) hug hseat
  generalize u.withSection id g sec = w at htables hplain hbyte hsave
  have hthere : w.team tid = some { t with groups := gs } := by
    rw [State.team, State.teams_of_tables htables]
    exact hteam
  obtain ⟨cp, fb, st, hs, cu, hleave⟩ := leaveSaved_eq (idx := k) (id := id) (q := u.contextOf id g) hthere
  rw [hsave, hleave]
  have hgroup : ∀ j, tabGet (smapErase w.groups id) j = if j = id then none else u.group j := by
    intro j
    rw [tabGet_erase, State.groups_of_tables htables]
    rfl
  refine ⟨hplain, ?_, fun b hb => ?_, Nat.le_add_right_of_le h.room, fun i hi j hj => ?_, fun j hj => ?_,
    ⟨listSet gs k (.saved (u.contextOf id g)), ?_, fun i hi => ?_, fun i hi j q hj hq => ?_⟩, fun hnone => ?_⟩
  · exact (State.spad_of_tables htables).trans h.spad
  · exact (hbyte b (Nat.lt_of_lt_of_le hb h.room)).trans (h.below b hb)
  · refine (hgroup j).trans ?_
    split
    next => rfl
    next hne =>
      refine h.gone i ?_ j hj
      by_contra hge
      obtain rfl : i = k := by omega
      rw [hk] at hj
      cases hj
      exact hne rfl
  · refine (hgroup j).trans ?_
    rw [if_neg fun heq : j = id => hj k (by omega) (heq ▸ hk)]
    exact h.kept j fun i hi => hj i (by omega)
  · exact (tabGet_insert _ _ _ _).trans (if_pos rfl)
  · rw [getElem?_listSet_ne (by omega)]
    exact hrest i (by omega)
  · by_cases hik : i = k
    · subst hik
      rw [hk] at hj
      cases hj
      rw [hg] at hq
      cases hq
      refine ⟨u, getElem?_listSet_self ((hrest i (Nat.le_refl i)).trans hk) _, fun honly => h.first fun n hn id' hid' => ?_⟩
      have := honly n id' hid'
      omega
    · obtain ⟨w, hw, honly⟩ := hsaved i (by omega) j q hj hq
      exact ⟨w, by rw [getElem?_listSet_ne (Ne.symm hik)]; exact hw, honly⟩
  · exact absurd hk (hnone k (by omega) id)

/-- One member of a team, saved where it is live. -/
def State.saveMember (t : Team) (tid a : Nat) (p : State × Nat) (i : Nat) : State × Nat :=
  match t.groups[i]? with
  | some (.live id) => p.1.saveGroup tid i id a p.2
  | _ => p

/-- A team whose live groups stand in the table, each of them the team's, and none with a seat. -/
structure Savable (s : State) (t : Team) (tid : Nat) : Prop where
  plain : s.NoReplicas
  unseated : ∀ e ∈ s.groups, e.2.team = some tid → e.2.seat = 0
  there : ∀ m ∈ t.groups, ∀ id, m = Member.live id → ∃ g, s.group id = some g
  once : ∀ (i j id : Nat), t.groups[i]? = some (Member.live id) → t.groups[j]? = some (Member.live id) → i = j
  mine : ∀ id, Member.live id ∈ t.groups → ∀ g, s.group id = some g → g.team = some tid

/-- The sections of all groups of a team. -/
theorem foldl_saveMember (h : Savable s t tid) (hteam : s.team tid = some t) (n : Nat) :
    Saving s ((List.range n).foldl (State.saveMember t tid a) (s, base)).1 t tid n base
      ((List.range n).foldl (State.saveMember t tid a) (s, base)).2 := by
  induction n with
  | zero =>
    exact ⟨h.plain, rfl, fun _ _ => rfl, Nat.le_refl _, fun i hi => absurd hi (Nat.not_lt_zero i), fun _ _ => rfl,
      ⟨t.groups, hteam, fun _ _ => rfl, fun i hi => absurd hi (Nat.not_lt_zero i)⟩, fun _ => rfl⟩
  | succ n ih =>
    rw [List.range_succ, List.foldl_append, List.foldl_cons, List.foldl_nil]
    generalize (List.range n).foldl (State.saveMember t tid a) (s, base) = p at ih
    by_cases hlive : ∃ id, t.groups[n]? = some (.live id)
    · obtain ⟨id, hid⟩ := hlive
      have hmem : Member.live id ∈ t.groups := List.mem_of_getElem? hid
      obtain ⟨g, hg⟩ := h.there _ hmem id rfl
      have hseat : g.seat = 0 := h.unseated (id, g) (mem_of_tabGet hg) (h.mine id hmem g hg)
      have hstep : State.saveMember t tid a p n = p.1.saveGroup tid n id a p.2 := by rw [State.saveMember, hid]
      rw [hstep]
      exact ih.save hid hg hseat h.once
    · have hstep : State.saveMember t tid a p n = p := by
        rw [State.saveMember]
        split
        next id hid => exact absurd ⟨id, hid⟩ hlive
        next => rfl
      rw [hstep]
      exact ih.skip fun id hid => hlive ⟨id, hid⟩

end

/-! ## The header and the window -/

section
variable {s u : State} {t : Team} {gr : Grid} {tid a : Nat}

/-- A run of bytes within those written. -/
theorem bytes_writeMem_slice (h : s.NoReplicas) {pa off n : Nat} {bs : List Byte} (hfits : off + n ≤ bs.length) :
    (s.writeMem pa bs).bytes (pa + off) n = slice off n bs := by
  refine List.ext_getElem (by simp [State.bytes, length_upFrom, slice]; omega) fun i hi hj => ?_
  have hi' : i < n := by simpa [State.bytes, length_upFrom] using hi
  simp only [State.bytes, List.getElem_map, getElem_upFrom, byte_writeMem h, State.byte_setBytes]
  rw [dif_pos ⟨by omega, by omega⟩]
  simp only [slice, List.getElem_take, List.getElem_drop]
  congr 1
  omega

/-- A run of bytes apart from those written. -/
theorem bytes_writeMem_apart (h : s.NoReplicas) {pa k n : Nat} {bs : List Byte} (hapart : k + n ≤ pa ∨ pa + bs.length ≤ k) :
    (s.writeMem pa bs).bytes k n = s.bytes k n := by
  refine List.map_congr_left fun b hb => ?_
  obtain ⟨hlo, hhi⟩ := (mem_upFrom _ _ _).1 hb
  rw [byte_writeMem h, State.byte_setBytes_outside (by omega)]

/-- Bytes whose encoding the part chooses, written (R391). -/
def State.writeFree (s : State) (pa n : Nat) : State := { s with serial := s.serial + n }.writeMem pa (freeBytes s.serial n)

theorem State.NoReplicas.afterFree (h : s.NoReplicas) (pa n : Nat) : (s.writeFree pa n).NoReplicas :=
  State.NoReplicas.afterWrite (s := { s with serial := s.serial + n }) h pa _

theorem bytes_writeFree_apart (h : s.NoReplicas) {pa k n m : Nat} (hapart : k + n ≤ pa) : (s.writeFree pa m).bytes k n = s.bytes k n :=
  bytes_writeMem_apart (s := { s with serial := s.serial + m }) h (.inl hapart)

theorem byte_writeFree_below (h : s.NoReplicas) {pa b m : Nat} (hb : b < pa) : (s.writeFree pa m).byte b = s.byte b :=
  (byte_writeMem (s := { s with serial := s.serial + m }) h).trans (State.byte_setBytes_outside (.inl hb))

/-- The header, the ring state and the window of an image, whose end is known (R391). -/
def State.writeHeader (u : State) (a size tid : Nat) (t : Team) (gr : Grid) (win : List Byte) : State :=
  ((u.writeMem a (teamHeader size tid t gr)).writeFree (a + 0x80) 512).writeMem (a + 0x280) win

/-- What the header of an image says at its fields (R391). -/
theorem slice_teamHeader (size : Nat) : slice 4 4 (teamHeader size tid t gr) = toBytes 4 1 ∧
    slice 8 4 (teamHeader size tid t gr) = toBytes 4 tid ∧ slice 0xC 4 (teamHeader size tid t gr) = toBytes 4 gr.handle ∧
    slice 0x14 4 (teamHeader size tid t gr) = toBytes 4 t.x ∧ slice 0x18 4 (teamHeader size tid t gr) = toBytes 4 t.y ∧
    slice 0x1C 4 (teamHeader size tid t gr) = toBytes 4 t.z := by
  and_intros <;> rfl

theorem length_teamHeader (size : Nat) : 0x20 ≤ (teamHeader size tid t gr).length := by
  simp [teamHeader, length_toBytes]
  omega

section
variable (h : u.NoReplicas) (size : Nat) (win : List Byte)
include h

/-- The header's bytes stand in the image. -/
theorem bytes_writeHeader {off : Nat} (hoff : off + 4 ≤ 0x20) :
    (u.writeHeader a size tid t gr win).bytes (a + off) 4 = slice off 4 (teamHeader size tid t gr) := by
  have hlen := length_teamHeader (tid := tid) (t := t) (gr := gr) size
  have hheader := h.afterWrite a (teamHeader size tid t gr)
  rw [State.writeHeader, bytes_writeMem_apart (hheader.afterFree _ _) (.inl (by omega)), bytes_writeFree_apart hheader (by omega),
    bytes_writeMem_slice h (by omega)]

/-- The window stands in the image. -/
theorem bytes_writeHeader_window : (u.writeHeader a size tid t gr win).bytes (a + 0x280) win.length = win := by
  have hread := bytes_writeMem_slice ((h.afterWrite a (teamHeader size tid t gr)).afterFree (a + 0x80) 512) (pa := a + 0x280)
    (off := 0) (n := win.length) (bs := win) (by omega)
  rw [Nat.add_zero] at hread
  exact hread.trans (by simp [slice])

/-- No byte below an image differs. -/
theorem byte_writeHeader_below {b : Nat} (hb : b < a) : (u.writeHeader a size tid t gr win).byte b = u.byte b := by
  have hheader := h.afterWrite a (teamHeader size tid t gr)
  rw [State.writeHeader, byte_writeMem (hheader.afterFree _ _), State.byte_setBytes_outside (.inl (by omega)),
    byte_writeFree_below hheader (by omega), byte_writeMem h, State.byte_setBytes_outside (.inl hb)]

end

theorem tables_writeHeader (u : State) (a size tid : Nat) (t : Team) (gr : Grid) (win : List Byte) :
    (u.writeHeader a size tid t gr win).tables = u.tables :=
  (State.tables_writeMem _ _ _).trans ((State.tables_writeMem _ _ _).trans (State.tables_writeMem _ _ _))

end

/-! ## A saved team -/

section
variable {s : State} {t : Team} {gr : Grid} {tid a : Nat}

/-- A team as it stands once its image is written, in a state with the queue that it may join again (R389). -/
def Team.preempted (u : Team) (s : State) (a : Nat) : Team :=
  { u with state := .preempted, saving := none, taking := false, image := some a, requeue := false, named := false,
           loadFrom := if u.requeue then some a else none, arrival := if u.requeue then s.headArrival u.part else u.arrival }

/-- The sections of a team's groups, and their end. -/
def State.sectionsSaved (s : State) (t : Team) (tid a : Nat) : State × Nat :=
  (List.range t.groups.length).foldl (State.saveMember t tid a) (s, a + 0x280 + roundLine t.winLen)

/-- The image of a team whole, but for what its record then says. -/
def State.imageWritten (s : State) (t : Team) (gr : Grid) (tid a : Nat) : State :=
  (s.sectionsSaved t tid a).1.writeHeader a ((s.sectionsSaved t tid a).2 - a) tid t gr (s.sbytes (t.key 0) t.winLen)

theorem saveTeam_eq (hteam : s.team tid = some t) (hgrid : tabGet s.grids t.grid = some gr) :
    (s.saveTeam tid a).1 = (s.imageWritten t gr tid a).modTeam tid fun u => u.preempted (s.imageWritten t gr tid a) a := by
  simp only [State.saveTeam, hteam, hgrid]
  rfl

/-- The word of a header at an offset. -/
theorem memNat_imageWritten (h : (s.sectionsSaved t tid a).1.NoReplicas) {off v : Nat} (hoff : off + 4 ≤ 0x20)
    (hfield : slice off 4 (teamHeader ((s.sectionsSaved t tid a).2 - a) tid t gr) = toBytes 4 v) :
    (s.imageWritten t gr tid a).memNat (a + off) 4 = v % 2 ^ 32 := by
  rw [State.memNat, State.imageWritten, bytes_writeHeader h _ _ hoff, hfield, ofBytes_toBytes]
  norm_num

/-- A team is saved into its image (R388, R391): its record, the header and the window. -/
theorem saveTeam_image (h : Savable s t tid) (hteam : s.team tid = some t) (hgrid : tabGet s.grids t.grid = some gr) :
    ∃ gs, (s.saveTeam tid a).1.team tid = some (({ t with groups := gs } : Team).preempted (s.imageWritten t gr tid a) a) ∧
      (s.saveTeam tid a).1.spad = s.spad ∧ (s.saveTeam tid a).1.mem = (s.imageWritten t gr tid a).mem ∧
      (s.saveTeam tid a).1.groups = (s.sectionsSaved t tid a).1.groups ∧
      (s.sectionsSaved t tid a).1.team tid = some { t with groups := gs } := by
  have hsections := foldl_saveMember (a := a) (base := a + 0x280 + roundLine t.winLen) h hteam t.groups.length
  obtain ⟨gs, hgs, -⟩ := hsections.team
  have htables : (s.imageWritten t gr tid a).tables = (s.sectionsSaved t tid a).1.tables := tables_writeHeader ..
  have hthere : (s.imageWritten t gr tid a).team tid = some { t with groups := gs } := by
    rw [State.team, State.teams_of_tables htables]
    exact hgs
  refine ⟨gs, ?_, ?_, ?_, ?_, hgs⟩
  · rw [saveTeam_eq hteam hgrid, State.modTeam, hthere]
    exact (State.team_setTeam ..).trans (if_pos rfl)
  · rw [saveTeam_eq hteam hgrid, State.modTeam_spad, State.spad_of_tables htables]
    exact hsections.spad
  · rw [saveTeam_eq hteam hgrid, State.modTeam_mem]
  · rw [saveTeam_eq hteam hgrid, State.modTeam_groups, State.groups_of_tables htables]

/-- The words of a saved team's header, its window, and the bytes below its image (R391). -/
theorem saveTeam_bytes (h : Savable s t tid) (hteam : s.team tid = some t) (hgrid : tabGet s.grids t.grid = some gr) :
    (s.saveTeam tid a).1.memNat (a + 4) 4 = 1 ∧ (s.saveTeam tid a).1.memNat (a + 8) 4 = tid % 2 ^ 32 ∧
      (s.saveTeam tid a).1.memNat (a + 0xC) 4 = gr.handle % 2 ^ 32 ∧ (s.saveTeam tid a).1.memNat (a + 0x14) 4 = t.x % 2 ^ 32 ∧
      (s.saveTeam tid a).1.memNat (a + 0x18) 4 = t.y % 2 ^ 32 ∧ (s.saveTeam tid a).1.memNat (a + 0x1C) 4 = t.z % 2 ^ 32 ∧
      (s.saveTeam tid a).1.bytes (a + 0x280) t.winLen = s.sbytes (t.key 0) t.winLen ∧
      ∀ b < a, (s.saveTeam tid a).1.byte b = s.byte b := by
  have hsections := foldl_saveMember (a := a) (base := a + 0x280 + roundLine t.winLen) h hteam t.groups.length
  have hplain : (s.sectionsSaved t tid a).1.NoReplicas := hsections.plain
  obtain ⟨-, -, -, hmem, -⟩ := saveTeam_image (a := a) h hteam hgrid
  have hbyte := State.byte_of_mem hmem
  have hbytes : ∀ k n, (s.saveTeam tid a).1.bytes k n = (s.imageWritten t gr tid a).bytes k n := fun k n => by
    rw [State.bytes, hbyte]
    rfl
  have hnat : ∀ k, (s.saveTeam tid a).1.memNat k 4 = (s.imageWritten t gr tid a).memNat k 4 := fun k => by
    rw [State.memNat, hbytes]
    rfl
  obtain ⟨hone, hid, hhandle, hx, hy, hz⟩ := slice_teamHeader (tid := tid) (t := t) (gr := gr) ((s.sectionsSaved t tid a).2 - a)
  refine ⟨?_, ?_, ?_, ?_, ?_, ?_, ?_, fun b hb => ?_⟩
  · exact (hnat _).trans (memNat_imageWritten hplain (by decide) hone)
  · exact (hnat _).trans (memNat_imageWritten hplain (by decide) hid)
  · exact (hnat _).trans (memNat_imageWritten hplain (by decide) hhandle)
  · exact (hnat _).trans (memNat_imageWritten hplain (by decide) hx)
  · exact (hnat _).trans (memNat_imageWritten hplain (by decide) hy)
  · exact (hnat _).trans (memNat_imageWritten hplain (by decide) hz)
  · have hwin : (s.sbytes (t.key 0) t.winLen).length = t.winLen := by simp [State.sbytes, length_upFrom]
    have hread := bytes_writeHeader_window (a := a) (tid := tid) (t := t) (gr := gr) hplain ((s.sectionsSaved t tid a).2 - a)
      (s.sbytes (t.key 0) t.winLen)
    rw [hwin] at hread
    rw [hbytes]
    exact hread
  · rw [hbyte, State.imageWritten, byte_writeHeader_below hplain _ _ hb]
    exact hsections.below b (by omega)

/-- Each group of a saved team leaves its core, and its context stands in the team's record. -/
theorem saveTeam_groups (h : Savable s t tid) (hteam : s.team tid = some t) (hgrid : tabGet s.grids t.grid = some gr) {v : Team}
    (hv : (s.saveTeam tid a).1.team tid = some v) {i id : Nat} {g : Group} (hi : t.groups[i]? = some (.live id))
    (hg : s.group id = some g) : (s.saveTeam tid a).1.group id = none ∧ ∃ w : State, v.groups[i]? = some (.saved (w.contextOf id g)) ∧
      ((∀ (j id' : Nat), t.groups[j]? = some (Member.live id') → j = i) → w = s) := by
  have hsections := foldl_saveMember (a := a) (base := a + 0x280 + roundLine t.winLen) h hteam t.groups.length
  obtain ⟨gs, hrecord, -, -, hgroups, hthere⟩ := saveTeam_image (a := a) h hteam hgrid
  have hlt : i < t.groups.length := (List.getElem?_eq_some_iff.1 hi).1
  obtain ⟨gs', hgs', -, hsaved⟩ := hsections.team
  have hsame : gs' = gs := by
    have := hgs'.symm.trans hthere
    simpa using congrArg Team.groups (Option.some_inj.1 this)
  subst hsame
  rw [hrecord, Option.some_inj] at hv
  subst hv
  refine ⟨?_, hsaved i hlt id g hi hg⟩
  rw [State.group, hgroups]
  exact hsections.gone i hlt id hi

end

end Sys2Proof.Machine
end

section
/-! # O47: swaps, saves and the latency reserve (R126, R128, R335, R387 to R389, R391, R392) -/
namespace Sys2Proof.Machine

/-! ## The latency reserve -/

section
variable {s : State} {tid c : Nat} {t : Team} {x : Part} {r : LaunchRec} (hteam : s.team tid = some t) (hpart : s.part t.part = some x)
  (hrec : s.recordFor t = some r)
include hteam hpart hrec

/-- No reserve core is vacated but for a queued latency team with a cluster. -/
theorem execLatencyReservePreempt_idle (h : t.latency = false ∨ t.isQueued = false ∨ s.latencyCluster x t = none) :
    exec (.latencyReservePreempt tid) s = .next s := by
  show execLatencyReservePreempt tid s = _
  simp only [execLatencyReservePreempt, hteam, hpart, hrec]
  obtain h | h | h := h
  · rw [h]
    rfl
  · rw [h, Bool.not_false, Bool.or_true]
    rfl
  · rw [h]
    split <;> rfl

/-- No reserve core is vacated where the cluster's cores, or those being vacated, will do, or where none would help. -/
theorem execLatencyReservePreempt_enough (hlatency : t.latency = true) (hqueued : t.isQueued = true)
    (hcluster : s.latencyCluster x t = some c)
    (h : t.cohort ≤ (s.admitCores x t r c).length + s.vacating x t r c ∨ s.reserveCores x t r c = []) :
    exec (.latencyReservePreempt tid) s = .next s := by
  show execLatencyReservePreempt tid s = _
  simp only [execLatencyReservePreempt, hteam, hpart, hrec, hlatency, hqueued, hcluster, Bool.not_true, Bool.or_self,
    Bool.false_eq_true, if_false]
  obtain h | h := h
  · rw [if_pos h]
  · rw [h]
    split <;> rfl

/-- The bulk team of a reserve core is asked to be saved into the first free slot (R389). -/
theorem execLatencyReservePreempt_saves (hlatency : t.latency = true) (hqueued : t.isQueued = true)
    (hcluster : s.latencyCluster x t = some c) (hshort : (s.admitCores x t r c).length + s.vacating x t r c < t.cohort) {k : Nat}
    {ks : List Nat} {id : Nat} {b : Team} {a : Nat} {as : List Nat} (hcores : s.reserveCores x t r c = k :: ks)
    (hbulk : s.bulkTeams k = [(id, b)]) (hmembers : s.members b = [(id, b)]) (hb : s.team id = some b)
    (hslots : s.freeSlots x t.part = a :: as) (hsize : s.imageBound b ≤ 2 ^ 16 * bits x.saveSlot.toNat 16 16)
    (howns : s.ownsSpan x a (s.imageBound b) = true) :
    ∃ tt, exec (.latencyReservePreempt tid) s = .next { s with teams := tt } ∧
      tabGet tt id = some { b with saving := some a, requeue := true, named := true, image := none } ∧
      ∀ j, j ≠ id → tabGet tt j = s.team j := by
  have hask : s.askSave id b a true =
      { s with teams := smapInsert s.teams id { b with saving := some a, requeue := true, named := true, image := none } } := by
    simp only [State.askSave, hmembers, List.foldl_cons, List.foldl_nil, State.modTeam, hb, decide_true]
    rfl
  refine ⟨_, ?_, (tabGet_insert _ _ _ _).trans (if_pos rfl), fun j hj => (tabGet_insert _ _ _ _).trans (if_neg hj)⟩
  show execLatencyReservePreempt tid s = _
  simp only [execLatencyReservePreempt, hteam, hpart, hrec, hlatency, hqueued, hcluster, hcores, hbulk, hslots, Bool.not_true,
    Bool.or_self, Bool.false_eq_true, if_false, if_neg (Nat.not_le.2 hshort)]
  rw [if_neg (by simpa [howns] using hsize), ← hask]
  rfl

end

/-! ## The obligation -/

/-- Settles O47, from the rule of a seat entry that moves, the layout of a section, and the sections of a saved team. -/
theorem swapAndSave : Obligations.SwapAndSave := by
  unfold Obligations.SwapAndSave
  refine ⟨?_, swappable_iff, ?_, ?_⟩
  · intro s gid g x hg hpart hgid
    refine ⟨execSwapOutStart_waits hg hpart, fun k => execSwapOutStart_moves hg hpart hgid,
      execSwapOutComplete_abandons hg hpart hgid, execSwapOutComplete_swaps hg hpart hgid,
      execSwapInStart_moves hg hpart hgid, execSwapInStart_waits hg, execSwapInComplete_moves hg hpart hgid,
      execSwapInComplete_restores hg hpart hgid⟩
  · intro s tid a t gr hteam hsaving hgrid hsingle
    have h : Asked s tid t a := ⟨hteam, hsaving, hsingle⟩
    refine ⟨fun hnamed hstate => ?_, execContextSaveTaken_waits h, fun hkept htaking hall => ?_, fun hkept htaking hnot => ?_,
      fun hkept htaking hall hplain hseats hthere honce hmine => ?_⟩
    · obtain ⟨u, hexec, ⟨hgroups, hspad, hrecord, hothers⟩, hmem, hseats⟩ := execContextSaveTaken_drops h hnamed hstate
      exact ⟨u, hexec, hgroups, hspad, hrecord, hothers, hmem, hseats⟩
    · obtain ⟨u, hexec, ⟨hgroups, hspad, hrecord, hothers⟩, hseats⟩ := execContextSaveTaken_takes h hkept htaking hall
      exact ⟨u, hexec, hgroups, hspad, hrecord, hothers, hseats⟩
    · obtain ⟨u, hexec, ⟨hgroups, hspad, hrecord, hothers⟩, hseats⟩ := execContextSaveTaken_goesBack h hkept htaking hnot
      exact ⟨u, hexec, hgroups, hspad, hrecord, hothers, hseats⟩
    · have hsavable : Savable s t tid := ⟨hplain, hseats, hthere, honce, hmine⟩
      obtain ⟨gs, hrecord, hspad, -⟩ := saveTeam_image (a := a) hsavable hteam hgrid
      obtain ⟨hone, hid, hhandle, hx, hy, hz, hwindow, hbelow⟩ := saveTeam_bytes (a := a) hsavable hteam hgrid
      refine ⟨_, _, execContextSaveTaken_saves h hkept htaking hall, hrecord, rfl, rfl, rfl, rfl, rfl, hspad, hone, hid, hhandle, hx,
        hy, hz, hwindow, hbelow, fun i id g hi hg => ?_⟩
      obtain ⟨hgone, w, hsaved, honly⟩ := saveTeam_groups hsavable hteam hgrid hrecord hi hg
      obtain ⟨⟨hmode, hscc, hflags, hsig, hmsig, hcnt, hsplits, hexited⟩, hwhole⟩ := savedGroup_keeps (w := w) (id := id) (g := g)
      refine ⟨hgone, _, hsaved, hmode, hscc, hflags, hsig, hmsig, hcnt, hsplits, hexited, hwhole,
        fun hhandler hparked hlone p L hsplit hsafe => ?_⟩
      obtain rfl := honly hlone
      exact savedGroup_live hhandler hparked hsplit hsafe
  · intro s tid c t x r hteam hpart hrec
    exact ⟨execLatencyReservePreempt_idle hteam hpart hrec, execLatencyReservePreempt_enough hteam hpart hrec,
      fun hlatency hqueued hcluster hshort k ks id b a as => execLatencyReservePreempt_saves hteam hpart hrec hlatency hqueued
        hcluster hshort⟩

end Sys2Proof.Machine
end
